-- ==== Sys2Proof/Word.lean ====
section
/-! DEFINITION. The word types of the MBK256 and the names of its units (00_scope.md, "Names"). -/

namespace Sys2Proof

/-- One byte of a descriptor, frame, record or memory. -/
abbrev Byte := BitVec 8
/-- A 32-bit register, parameter word or engine word. -/
abbrev W32 := BitVec 32
/-- A 64-bit register, tick or accumulator. -/
abbrev W64 := BitVec 64

/-- Channels CH000 to CH255. -/
abbrev Ch := Fin 256
/-- Spires S00 to S15. -/
abbrev Spire := Fin 16
/-- Stage dies P00 to P31. -/
abbrev StageDie := Fin 32
/-- Die index of R382: 0 the Dome, 1 the Turret, 2 + k stage die Pk. -/
abbrev DieIx := Fin 34
/-- Engines as Table 15.8 numbers them: 0 to 255 the home engines, 256 + s the spare of spire s. -/
abbrev Eng := Fin 272
/-- Rings Q00 to Q23. -/
abbrev Ring := Fin 24
/-- Requesters A00 to A23. -/
abbrev Rq := Fin 24
/-- Compare unit index of Table 04.1. -/
abbrev CUnit := Fin 544
/-- Rail index of Table 13.1: AUX0 to AUX7, LDO0, LDO1. -/
abbrev Rail := Fin 10
/-- General register of an engine, g0 to g31. -/
abbrev GReg := Fin 32

end Sys2Proof
end

