-- ==== Sys2Proof/Syntax.lean ====
section
/-! DEFINITION. The commands of the MBK256: one constructor per row of spec/opcode_table.json, with the
row's operands. What arrives from outside the module (analog readings, host memory as read, pin levels,
ring frames) is an operand; what the module already holds is taken from the state. -/

namespace Sys2Proof

/-- The access paths of R10, each with a high-half latch of its own. -/
inductive Path where
  | host | twoWire | keep
  deriving DecidableEq, Repr

/-- What a host read of the module addresses (R261, R263, R264): a BAR0 register, BAR2, or configuration space. -/
inductive Space where
  | bar0 | bar2 | config
  deriving DecidableEq, Repr

/-- Where a read of the module starts: the space and the byte offset in it. -/
structure ReadAt where
  space : Space
  off   : BitVec 16
  deriving DecidableEq, Repr

/-- What a configuration write sets in Command and in Power Management (R262): Bus Master Enable, and the power state D3hot. -/
structure PciCtl where
  busMaster : Bool
  d3hot     : Bool
  deriving DecidableEq, Repr

/-- The configuration-space settings of R261 and R285 beside Bus Master Enable and the power state: the MSI-X function mask, the
Max Payload Size of 256 B, the Max Read Request Size in bytes, Completion Timeout Value, and the three BAR addresses. -/
structure PciSet where
  msixMask   : Bool := false
  payload256 : Bool := false
  readReq    : Nat := 512
  cplTimeout : BitVec 4 := 0
  bar0       : W64 := 0
  bar2       : W64 := 0
  bar4       : W64 := 0
  deriving DecidableEq, Repr

/-- The two legs of a channel's half-bridge (R102). -/
inductive Leg where
  | a | b
  deriving DecidableEq, Repr

/-- The PEC byte of a two-wire transfer (R472): none sent, right, or wrong. -/
inductive Pec where
  | absent | good | bad
  deriving DecidableEq, Repr

/-- The two counter-rotating river rings (R424). -/
inductive RvRing where
  | a | b
  deriving DecidableEq, Repr

/-- A submission entry of Table 10.6 without its opcode byte, as fetched from the ring: `ops` are bytes
2 to 13, `rsv` byte 15, `ops2` bytes 16 to 31. `buf` is what the lent buffer that the entry names holds
from its OFFSET on, as the module reads it while it executes the entry (outside data). -/
structure Desc where
  tag  : BitVec 16
  ops  : List Byte
  rsv  : Byte
  ops2 : List Byte
  buf  : List Byte
  deriving DecidableEq, Repr

/-- The straps that step 0x01 of Table 02.4 latches (R46, R428, R470, R488). -/
structure StrapIn where
  /-- Resistance from `VSEL0` to ground, in ohms; none is open. -/
  vsel0Ohm : Option Nat
  addr     : BitVec 3
  headLow  : Bool
  stbyLow  : Bool
  deriving DecidableEq, Repr

/-- What a pack check reads (R308, R311): the cell voltages in mV from cell 0 up, V_p and the rise
ΔV_s in mV, and how `PSW` answered the 1 mA test. -/
structure PackTaps where
  cells : List Nat
  vp    : Nat
  rise  : Nat
  /-- Highest `PSW` voltage of the test of R308, in mV. -/
  psw   : Nat
  deriving DecidableEq, Repr

/-- What the current converter and the SNS terminal of a follower or member read at its lead's sample instant (R109, R111). -/
structure MemberIn where
  iCode : Int
  snsMv : Nat
  deriving DecidableEq, Repr

/-- What both converters and the SNS terminal read at a sample instant (R106, R115, R116, R119), and the same of the lead's
followers or members, in rising channel number. -/
structure SampleIn where
  iCode : Int
  vCode : BitVec 12
  /-- SNS reading in mV, and the LDO output it is ratioed against, in mV. -/
  snsMv : Nat
  ldoMv : Nat
  members : List MemberIn
  deriving DecidableEq, Repr

/-- A fault slot of a ring frame (Table 16.2) that is USED. -/
structure RvNotice where
  src  : BitVec 10
  cls  : BitVec 2
  code : BitVec 16
  data : W32
  deriving DecidableEq, Repr

/-- A mail slot of a ring frame (Table 16.2) that is USED. -/
structure RvMail where
  dest : BitVec 10
  src  : BitVec 10
  data : List Byte
  deriving DecidableEq, Repr

/-- A ring frame (Table 16.1) with its 8 fault slots and 14 mail slots; none is a slot that is not USED. -/
structure RvFrame where
  ring       : RvRing
  wrapped    : Bool
  held       : Bool
  acting     : Bool
  hops       : Nat
  headId     : W32
  fseq       : BitVec 16
  ringN      : Nat
  loop       : Nat
  ftick      : W64
  sRef       : Int
  v          : Int
  heading    : Nat
  omega      : Int
  accel      : Int
  alpha      : Int
  updTick    : W64
  speedValid : Bool
  dirUnknown : Bool
  rebase     : Byte
  snapTick   : W64
  tokAnd     : BitVec 16
  tokRes     : BitVec 16
  faults     : List (Option RvNotice)
  mails      : List (Option RvMail)
  deriving DecidableEq, Repr

/-- The commands of the MBK256, in the order of spec/opcode_table.json. -/
inductive Instr where
  -- host register access (00_scope.md, 10_host_rings.md, 18_register_map.md)
  | registerWrite (addr : BitVec 16) (dwords : List (W32 × BitVec 4))
  | rcRead (p : Path) (addr : ReadAt) (be : List (BitVec 4))
  | lowHalfRead (p : Path) (addr : BitVec 16)
  | highHalfRead (p : Path) (addr : BitVec 16)
  | bar4Read (off : BitVec 24) (len : Nat)
  -- resets, modes and start-up (02_modes_and_startup.md)
  | powerOnReset
  | resetNPin
  | perstAssert
  | perstDeassert
  | deviceCommandReset
  | faultStateReset
  | wakeQualified
  | tfQualified
  | keyRising
  | keyFalling
  | keyoffDelayExpiry
  | keyoffRoadMoveStart
  | serviceOverspeedExit
  | modeEntry
  | bootTurretWake (straps : StrapIn)
  | bootPackCheck (taps : PackTaps)
  | bootSoftClose (ok : Bool)
  | bootDomeRelease (refHz : Option Nat)
  | bootKeepBoot (selfTestOk : Bool)
  | bootOtpConfigRead (unread : Bool)
  | bootHkSelfCal (means : List (Int × Int))
  | patchVerifyDone
  | bootRailStart (aux0Mv : Nat)
  | warmStart
  | stageLinkLoss (die : StageDie)
  | stageLinkRestore (die : StageDie)
  | keepReferenceLoss
  | keepReferenceReturn (refHz : Nat)
  | keepLockstepMismatch
  | keepRestartDone
  | keepDecisionBoundary
  -- course engine (03_course_engine.md)
  | courseUpdate
  | speedSourceDisplace (code : BitVec 4)
  | sourceTimeout (code : BitVec 4)
  | coastTimeExpiry
  | blendEnd (yaw : Bool)
  | crosscheckDisagree (code : BitVec 4)
  | courseRebaseGo
  | chGeomWrite (ch : Ch) (isX : Bool) (value : W32)
  | hostPoseCommit
  | encoderEdge (n : Fin 2) (a b : Bool)
  | encoderStop (n : Fin 2)
  | radarPulse
  | radarStop
  | spdanSample (code : BitVec 12)
  | gnssCharacter (port : Fin 2) (samples : List Bool) (early : Bool)
  | nmeaSentence (port : Fin 2)
  | gnssBinaryFrame (port : Fin 2)
  -- compare units (04_tick_base_and_compares.md)
  | compareMatch (u : CUnit)
  | chainArrival (u : CUnit)
  | gstartWrite (value : W32)
  | gstartRelease
  | predictorWrite
  | chBndCtrlWrite (ch : Ch) (value : W32)
  | chBndTargetWrite (ch : Ch) (value : W64)
  | compareReplayMatch
  -- control sample, takeover, stage (05, 06, 09)
  | controlSampleInstant (ch : Ch) (inp : SampleIn)
  | sampleEventLatch (ch : Ch)
  | deadlineMiss (ch : Ch)
  | takeoverResume (ch : Ch)
  | deposedRetireTimeout (e : Eng)
  | selfTestDone (e : Eng) (passed : Bool)
  | tkoHandback (sp : Spire) (value : W32)
  | dutyCommandArrival (ch : Ch)
  | carrierUpdatePoint (ch : Ch) (centre : Bool)
  | dlyReport (ch : Ch)
  | currentSample (ch : Ch) (code : Int)
  | voltageSample (ch : Ch) (code : BitVec 12)
  | snsEdge (ch : Ch) (level : Bool)
  | currentLimitReached (ch : Ch)
  | peakBudgetExhausted (ch : Ch)
  | peakBudgetRestored (ch : Ch)
  | hiccupStart (ch : Ch)
  | hiccupEnd (ch : Ch)
  | openLoadDetect (ch : Ch)
  | desaturation (ch : Ch) (leg : Leg) (highSide : Bool) (stuck : Bool)
  | legImbalance (ch : Ch) (iA iB : Int) (stuck : Bool)
  | chLegRestore (ch : Ch)
  | chStageCfgWrite (ch : Ch) (value : W32)
  | chEngCtrlWrite (ch : Ch) (value : W32)
  -- Frajan instructions (06_control_engines.md)
  | add (e : Eng) (d a b : GReg)
  | sub (e : Eng) (d a b : GReg)
  | and (e : Eng) (d a b : GReg)
  | or (e : Eng) (d a b : GReg)
  | xor (e : Eng) (d a b : GReg)
  | shl (e : Eng) (d a b : GReg)
  | shr (e : Eng) (d a b : GReg)
  | sar (e : Eng) (d a b : GReg)
  | adds (e : Eng) (d a b : GReg)
  | subs (e : Eng) (d a b : GReg)
  | min (e : Eng) (d a b : GReg)
  | max (e : Eng) (d a b : GReg)
  | slt (e : Eng) (d a b : GReg)
  | sltu (e : Eng) (d a b : GReg)
  | abss (e : Eng) (d a : GReg)
  | addi (e : Eng) (d a : GReg) (imm : BitVec 16)
  | andi (e : Eng) (d a : GReg) (imm : BitVec 16)
  | ori (e : Eng) (d a : GReg) (imm : BitVec 16)
  | xori (e : Eng) (d a : GReg) (imm : BitVec 16)
  | lui (e : Eng) (d : GReg) (imm : BitVec 16)
  | shli (e : Eng) (d a : GReg) (sh : Fin 32)
  | shri (e : Eng) (d a : GReg) (sh : Fin 32)
  | sari (e : Eng) (d a : GReg) (sh : Fin 32)
  | slti (e : Eng) (d a : GReg) (imm : BitVec 16)
  | mul (e : Eng) (d a b : GReg)
  | mulh (e : Eng) (d a b : GReg)
  | mulhu (e : Eng) (d a b : GReg)
  | mac (e : Eng) (a b : GReg)
  | msu (e : Eng) (a b : GReg)
  | macz (e : Eng) (a b : GReg)
  | mfa (e : Eng) (d : GReg) (b : Fin 32)
  | mfah (e : Eng) (d : GReg)
  | mta (e : Eng) (a : GReg)
  | mtah (e : Eng) (a b : GReg)
  | rcp (e : Eng) (d a : GReg)
  | rcps (e : Eng) (d a : GReg)
  | lw (e : Eng) (d a : GReg) (imm : BitVec 16)
  | lh (e : Eng) (d a : GReg) (imm : BitVec 16)
  | lhu (e : Eng) (d a : GReg) (imm : BitVec 16)
  | lb (e : Eng) (d a : GReg) (imm : BitVec 16)
  | lbu (e : Eng) (d a : GReg) (imm : BitVec 16)
  | sw (e : Eng) (d a : GReg) (imm : BitVec 16)
  | sh (e : Eng) (d a : GReg) (imm : BitVec 16)
  | sb (e : Eng) (d a : GReg) (imm : BitVec 16)
  | beq (e : Eng) (a b : GReg) (off : BitVec 16)
  | bne (e : Eng) (a b : GReg) (off : BitVec 16)
  | blt (e : Eng) (a b : GReg) (off : BitVec 16)
  | bge (e : Eng) (a b : GReg) (off : BitVec 16)
  | bltu (e : Eng) (a b : GReg) (off : BitVec 16)
  | bgeu (e : Eng) (a b : GReg) (off : BitVec 16)
  | j (e : Eng) (off : BitVec 26)
  | jal (e : Eng) (off : BitVec 26)
  | jr (e : Eng) (a : GReg)
  | portIn (e : Eng) (d : GReg) (port : BitVec 16)
  | inPop (e : Eng) (d : GReg) (port : BitVec 16)
  | inTickL (e : Eng) (d : GReg)
  | outDuty (e : Eng) (a : GReg)
  | outDutyHold (e : Eng) (a : GReg)
  | outBndLat (e : Eng) (a : GReg)
  | outSmpPer (e : Eng) (a : GReg)
  | outTmr (e : Eng) (a : GReg)
  | outFlags (e : Eng) (a : GReg)
  | outTrace (e : Eng) (a : GReg)
  | outTraceEnd (e : Eng) (a : GReg)
  | wait (e : Eng) (d : GReg) (mask : BitVec 16)
  | waitWake (e : Eng)
  | engineTimerExpiry (e : Eng)
  | lock (e : Eng) (a b : GReg)
  | unlock (e : Eng)
  | ckpt (e : Eng)
  | trap (e : Eng) (imm : BitVec 16)
  | illegalInstruction (e : Eng) (word : W32)
  | engineWatchdog (e : Eng)
  -- descriptors (10_host_rings.md, Table 10.8)
  | reachPost (q : Ring) (d : Desc)
  | reachCancel (q : Ring) (d : Desc)
  | reachFlush (q : Ring) (d : Desc)
  | prmWrite (q : Ring) (d : Desc)
  | prmLoad (q : Ring) (d : Desc)
  | chRun (q : Ring) (d : Desc)
  | manual (q : Ring) (d : Desc)
  | manualPeriodEnd (ch : Ch)
  | imgLoad (q : Ring) (d : Desc)
  | imageCopyDone (ch : Ch)
  | imgCheck (q : Ring) (d : Desc)
  | lend (q : Ring) (d : Desc)
  | reclaim (q : Ring) (d : Desc)
  | reclaimAll (q : Ring) (d : Desc)
  | snapAt (q : Ring) (d : Desc)
  | snapCancel (q : Ring) (d : Desc)
  | eddyRead (q : Ring) (d : Desc)
  | eddyClear (q : Ring) (d : Desc)
  | pwrWrite (q : Ring) (d : Desc)
  | pwrRead (q : Ring) (d : Desc)
  | buskeepAck (q : Ring) (d : Desc)
  | modeReq (q : Ring) (d : Desc)
  | reset (q : Ring) (d : Desc)
  | freeze (q : Ring) (d : Desc)
  | serviceUnlock (q : Ring) (d : Desc)
  | nop (q : Ring) (d : Desc)
  | barrier (q : Ring) (d : Desc)
  | ringQuery (q : Ring) (d : Desc)
  | mbxSend (q : Ring) (d : Desc)
  | mbxRecv (q : Ring) (d : Desc)
  -- rings and the host port
  | submissionDoorbell (off : BitVec 12) (value : W32) (be : BitVec 4)
  | completionDoorbell (off : BitVec 12) (value : W32) (be : BitVec 4)
  | descriptorArrival (q : Ring) (ds : List (Byte × Desc))
  | dmaReadFailure (q : Ring) (kind : Fin 5) (lent : Bool)
  | qnCfgWrite (q : Ring) (value : W32)
  | ringResume (q : Ring)
  | arbitrationGrant
  | tenureBite
  | reliefTakeover (sp : Spire)
  | msixCoalesceTimeout (q : Ring)
  | completionRingFullTimeout (q : Ring)
  | linkUp (speed : Fin 5) (width : Fin 3)
  | linkDown
  | snapshotLatch
  | snapshotWriteDone
  | eddyReadDone
  | eddyStrmWrite (value : W32)
  -- battery, power path and charger (12_battery_and_charger.md)
  | packCheck (taps : PackTaps)
  | buskeepPackCheckTimer (taps : PackTaps)
  | chargeProbe (dPackUa dChgUa : Nat)
  | packSwitchClose (vbusMv : Nat)
  | packCloseTimeout
  | shortCircuitTrip
  | cellOvTrip (cell : Fin 16)
  | ovLatchClear
  | cellDataStale
  | uvCutoff
  | chargerStart (tfMv : Nat)
  | tfLoss
  | prechargeDone
  | chargeTimeout
  | chargeTermination
  | recharge
  | chgRestart
  | inputLimitTimeout (volt : Bool)
  | buskeepEntry
  | buskeepExit
  | buskeepLowVbus
  | pullInGuardEnd (ch : Ch)
  | packSample (iCode : BitVec 16) (vCode : BitVec 16) (tfUa : Nat)
  | socUpdate
  | impedanceStep
  | probeStart
  | probeEnd
  | restPoint
  | estimatorRecord
  -- auxiliary rails and sequencing (13_aux_rails_sequencing.md)
  | railStart (r : Rail) (voutMv : Nat)
  | railSupervisionSample (vout : List Nat) (iout : List Int)
  | railGood (r : Rail)
  | railUvWarn (r : Rail)
  | railOvWarn (r : Rail)
  | railUvFault (r : Rail)
  | railOvFault (r : Rail)
  | railWindowExpiry (r : Rail)
  | railHiccup (r : Rail)
  | railHiccupEnd (r : Rail) (voutMv : Nat)
  | lightLoadChange (r : Rail) (enter : Bool)
  | seqInChange (level : Bool)
  | seqinWaitExpiry
  | railOnWrite (r : Rail) (on : Bool)
  | railStopOrder
  | railStopped (r : Rail)
  | hostHoldExpiry
  -- housekeeping converter and thermal management (14_housekeeping_adc_thermal.md)
  | hkEntryDone (raws : List (BitVec 16))
  | hkStartWrite (start : Bool)
  | hkCal
  | hkCalDone (means : List (Int × Int))
  | hkCfgWrite (n : Fin 64) (value : W32)
  | hkDiagGo (value : W32)
  | hkDiagDone (raws : List (BitVec 16))
  | thermalRateSample
  | thermalLevelFall (d : DieIx)
  | stageThermalShutdown (die : StageDie)
  | stageThermalRelease (die : StageDie)
  | coreThermalShutdown (turret : Bool)
  -- fault collection, Silt log, freeze and debug (15_faults_freeze_debug.md)
  | faultPairQualify (src : Fin 128)
  | faultPairBroken (src : Fin 128)
  | faultStateEntry
  | errNPulseEnd
  | siltRecordWriteDone (readBackOk : Bool)
  | turretSupplyLow
  | siltCopyGo
  | siltCopyDone
  | siltErase
  | freezeNFall
  | freezeEntry (q : W32)
  | freezeLimitExpiry
  | thawWrite
  | freezeNRise
  | thaw (nT : Nat)
  | f3ForcedThaw (nT : Nat)
  | extest
  | samplePreload
  | idcode
  | bypass (code : Byte)
  | dbgAddr (addr : W32)
  | dbgRead
  | dbgHalt (e : BitVec 9)
  | dbgHaltDeferralEnd (e : Eng)
  | dbgResume (e : BitVec 9)
  | dbgStep (e : BitVec 9)
  | dbgThaw
  | dbgStat
  -- river ring (16_river_ring.md)
  | ringFrameSend
  | ringFrameAccept (port : RvRing) (f : RvFrame) (intact : Bool) (arrivePs : Nat)
  | ringJoin
  | ringPortDown (port : RvRing)
  | ringPortUp (port : RvRing)
  | notOnRing
  | slavingLost
  | standbyTakeover
  | headwaterLost
  -- OTP, image check and unlock (17_otp_images_twowire.md)
  | otpRead (value : W32)
  | burnBlock (value : W32)
  | marginScan (value : W32)
  | reburnWeak (value : W32)
  | otpCommandDone (cells : List (Nat × W32 × W32))
  | keyLoad
  | imageCheckAnswer
  | unlockExpiry
  -- two-wire target
  | twStatus (pec : Pec)
  | twLastResult (pec : Pec)
  | twRegRead (off : BitVec 16) (pec : Pec)
  | twSiltRead (seq : W32) (pec : Pec)
  | twRequestStandby (pec : Pec)
  | twRequestShip (pec : Pec)
  | twRequestStandbyExit (pec : Pec)
  | twReset (confirm : Byte) (pec : Pec)
  | twStretchTimeout
  | twBusTimeout
  -- rows added at the table's end
  | gnssSearchReopen (port : Fin 2)
  | portOut (e : Eng) (a : GReg) (port : BitVec 16)
  | coreThermalRelease (turret : Bool)
  | faultPairCleared (src : Fin 128)
  | siltEraseDone
  | turretSupplyReturn
  | configSpaceWrite (ctl : PciCtl) (conf : PciSet)
  deriving DecidableEq, Repr

end Sys2Proof
end

