-- ==== Sys2Proof/Decode.lean ====
section
/-! DEFINITION. The command that a word of spec/opcode_table.json spells. No row of the table gives bits: the module
is a block, and its commands are register accesses, descriptors, pins and events, not words. -/

namespace Sys2Proof

/-- The command whose bits are `w`, as the table numbers them. The table gives no row bits, so no word spells a
command. -/
def decodeTableWord (_nbits _w : Nat) : Option Instr := none

end Sys2Proof
end

