-- ==== Sys2Proof/Config.lean ====
section
/-! DEFINITION. What one unit fixes and what the spec leaves open: constants without a body, so that no proof can
rest on a value of them. -/

namespace Sys2Proof.Config

/-- The n-th free value that the module takes (State.free counts them): the challenge words of R467, the output of
a draw that the spec leaves random. Assumption 5. -/
opaque freeWord : Nat → W32

/-- Level of `WAKE` at a wall time after its qualification: no row tells when it falls. Assumption 46. -/
opaque wakeLevel : Nat → Bool

/-- The words of the ID and global block that are fixed for each unit at manufacture, by BAR0 word index
(Table 18.1, Reset "Unit"). Assumption 6. -/
opaque unitWord : Nat → W32

/-- The 11-bit manufacturer identity assigned to Ivenavor under JEP106, which the spec does not state
(Table 15.10). Assumption 6. -/
opaque jep106 : BitVec 11

/-- Bits of an OTP word that a read at a margin shows for a weak burned cell at the normal margin (R460), by array,
word and read count. Assumption 7. -/
opaque weakRead : Nat → Nat → Nat → W32

/-- The bits that a burn had set in the word it was programming when it was cut off (R459), by array, word and count of free
values. Assumption 7. -/
opaque partBurn : Nat → Nat → Nat → W32

/-- The temperature, in 1/64 °C, that the Keep computes from an NTC result: by `NTC_CFG.BETA`, `NTC_CFG.R26` and the
corrected code. R318 names the inputs and states no formula. Assumption 5. -/
opaque ntcTemp : Nat → Nat → Nat → BitVec 16

/-- A word of the challenge of R467, by the count of draws from the entropy source. Assumption 5. -/
opaque challenge : Nat → Nat → W32

/-- What the self-test of R248 leaves in an engine's memories, by the index of that self-test, data RAM or instruction RAM,
and word. Assumption 5. -/
opaque ramWord : Nat → Bool → Nat → W32

/-- The Trim block, 0 to 126, in which the factory data of an item lie: items 0 to 3 the calibration groups of R378, 4 + d
the diode of die d. The spec states no layout of Trim. Assumption 18. -/
opaque trimPlace : Nat → Nat

/-- The factory gain and offset of calibration group g (R379), from the 31 data words of its Trim block. Assumption 18. -/
opaque trimGroup : List W32 → Nat → BitVec 16 × BitVec 16

/-- C_CAL, T_CAL and K of die d (R382), from the 31 data words of its Trim block. Assumption 18. -/
opaque trimDie : List W32 → Nat → Int × Int × Int

/-- The 32 bytes of the Ivenavor key digest (R464), from the 31 data words of Trim block 127. Assumption 18. -/
opaque trimDigest : List W32 → Nat → Byte

/-- State ticks per Turret cycle in Q16 as measured over a millisecond of state-clock time, by that millisecond (R410).
Assumption 86. -/
opaque clockRatio : Nat → W32

/-- Vendor ID assigned to Ivenavor, which the spec does not state (Table 10.1). Assumption 6. -/
opaque vendorId : BitVec 16

/-- A configuration-space word of a capability, whose offset the spec does not state (R261). Assumption 82. -/
opaque pciWord : Nat → W32

end Sys2Proof.Config
end

