-- ==== Sys2Proof/Machine/RegMap.lean ====
section
/-! DEFINITION. The set-up registers of BAR0: their addresses, their fields, and for each 32-bit word the
access codes of its bits and its reset value (R6, R478, R479, Tables 18.1 to 18.16 and the field tables of the
owning chapters). -/

namespace Sys2Proof.Machine

/-- A field of a 32-bit register: BAR0 offset, lowest bit, width. -/
structure Fld where
  addr : Nat
  lo : Nat
  w : Nat
  deriving DecidableEq, Repr

/-- The words of a register or of an array of equal registers: first offset, distance, number of words, the bits
of each access code of Table 00.5 (bits in none are RO or reserved), and the reset value. -/
structure RegRow where
  base : Nat
  stride : Nat
  count : Nat
  rw : W32
  rwl : W32
  w1c : W32
  rc : W32
  wo : W32
  reset : W32
  deriving DecidableEq, Repr

/-! ### Register addresses -/

namespace R

/-- Table 18.1. -/
def ID_DEVICE : Nat := 0x0
/-- Table 18.1. -/
def ID_DIESET : Nat := 0x4
/-- Table 18.1. -/
def ID_SERIAL (k : Nat) : Nat := 0x8 + 0x4 * k
/-- Table 02.7. -/
def MODE_STATUS : Nat := 0x400
/-- Table 02.8. -/
def RESET_CAUSE : Nat := 0x404
/-- Table 02.9. -/
def MODE_KEY : Nat := 0x408
/-- Table 02.10. -/
def MODE_ENTRY_TICK : Nat := 0x410
/-- Table 10.16. -/
def HP_STAT : Nat := 0x800
/-- Table 10.16. -/
def HP_EVT_CFG : Nat := 0x804
/-- Table 10.16. -/
def HP_EVT_LOST : Nat := 0x808
/-- Table 10.16. -/
def HP_ERR_VEC : Nat := 0x80c
/-- Table 10.16. -/
def HP_VIOL : Nat := 0x810
/-- Table 10.16. -/
def HP_CNT : Nat := 0x814
/-- Table 10.16. -/
def HP_FRZ_WR : Nat := 0x818
/-- Table 10.17. -/
def Q_BASE (q : Ring) : Nat := 0xa00 + 0x40 * q.val
/-- Table 10.17. -/
def Q_CFG (q : Ring) : Nat := 0xa08 + 0x40 * q.val
/-- Table 10.17. -/
def Q_CTRL (q : Ring) : Nat := 0xa0c + 0x40 * q.val
/-- Table 10.17. -/
def Q_STAT (q : Ring) : Nat := 0xa10 + 0x40 * q.val
/-- Table 10.17. -/
def Q_PI (q : Ring) : Nat := 0xa14 + 0x40 * q.val
/-- Table 10.17. -/
def Q_CI (q : Ring) : Nat := 0xa18 + 0x40 * q.val
/-- Table 10.17. -/
def Q_CNT (q : Ring) : Nat := 0xa1c + 0x40 * q.val
/-- Table 10.17. -/
def Q_LENDS (q : Ring) : Nat := 0xa20 + 0x40 * q.val
/-- Table 11.8. -/
def ARB_CFG : Nat := 0x1000
/-- Table 11.8. -/
def SNAP_CFG : Nat := 0x1004
/-- Table 11.8. -/
def SNAP_STAT : Nat := 0x1008
/-- Table 11.8. -/
def SNAP_LAST : Nat := 0x1010
/-- Table 11.8. -/
def EDDY_STRM : Nat := 0x1018
/-- Table 11.8. -/
def EDDY_STRM_LTAG : Nat := 0x101c
/-- Table 11.8. -/
def EDDY_STRM_WI : Nat := 0x1020
/-- Table 11.8. -/
def EDDY_SEL : Nat := 0x1024
/-- Table 11.8. -/
def EDDY_CFG : Nat := 0x1028
/-- Table 11.8. -/
def EDDY_STAT : Nat := 0x102c
/-- Table 11.9. -/
def ARB_GRANTS (a : Rq) : Nat := 0x1100 + 0x10 * a.val
/-- Table 11.9. -/
def ARB_WAITS (a : Rq) : Nat := 0x1104 + 0x10 * a.val
/-- Table 11.9. -/
def ARB_MAXWAIT (a : Rq) : Nat := 0x1108 + 0x10 * a.val
/-- Table 11.9. -/
def ARB_RQ (a : Rq) : Nat := 0x110c + 0x10 * a.val
/-- Table 03.6. -/
def COURSE_CTRL : Nat := 0x1400
/-- Table 03.7. -/
def COURSE_PRIO : Nat := 0x1404
/-- Table 03.8. -/
def COURSE_STATUS : Nat := 0x1408
/-- Table 03.10. -/
def COURSE_REBASE : Nat := 0x140c
/-- Table 03.11. -/
def COURSE_SREF : Nat := 0x1410
/-- Table 03.11. -/
def COURSE_V : Nat := 0x1418
/-- Table 03.11. -/
def COURSE_HEADING : Nat := 0x141c
/-- Table 03.11. -/
def COURSE_OMEGA : Nat := 0x1420
/-- Table 03.11. -/
def COURSE_ACCEL : Nat := 0x1424
/-- Table 03.11. -/
def COURSE_ALPHA : Nat := 0x1428
/-- Table 03.11. -/
def COURSE_UPD_TICK : Nat := 0x1430
/-- Table 03.11. -/
def ENC0_SCALE : Nat := 0x1440
/-- Table 03.11. -/
def ENC1_SCALE : Nat := 0x1444
/-- Table 03.11. -/
def ENC_TRACK : Nat := 0x1448
/-- Table 03.9. -/
def ENC_CFG : Nat := 0x144c
/-- Table 03.11. -/
def RADAR_SCALE : Nat := 0x1450
/-- Table 03.11. -/
def RADAR_Y : Nat := 0x1454
/-- Table 03.10. -/
def RADAR_CFG : Nat := 0x1458
/-- Table 03.10. -/
def SPDAN_ZERO : Nat := 0x1460
/-- Table 03.11. -/
def SPDAN_GAIN : Nat := 0x1464
/-- Table 03.10. -/
def SPDAN_BAND : Nat := 0x1468
/-- Table 03.11. -/
def SPDAN_Y : Nat := 0x146c
/-- Table 03.11. -/
def GNSS0_Y : Nat := 0x1470
/-- Table 03.11. -/
def GNSS1_Y : Nat := 0x1474
/-- Table 03.10. -/
def GNSS_CFG : Nat := 0x1478
/-- Table 03.11. -/
def HOST_POSE_TICK : Nat := 0x1480
/-- Table 03.11. -/
def HOST_POSE_V : Nat := 0x1488
/-- Table 03.11. -/
def HOST_POSE_HEADING : Nat := 0x148c
/-- Table 03.11. -/
def HOST_POSE_OMEGA : Nat := 0x1490
/-- Table 03.10. -/
def HOST_POSE_FLAGS : Nat := 0x1494
/-- Table 03.10. -/
def HOST_POSE_COMMIT : Nat := 0x1498
/-- Table 03.10. -/
def HOST_CFG : Nat := 0x149c
/-- Table 03.10. -/
def COURSE_XCHK : Nat := 0x14a0
/-- Table 03.10. -/
def COURSE_CNT : Nat := 0x14b0
/-- Table 04.2. -/
def TICK_NOW : Nat := 0x1800
/-- Table 04.2. -/
def TICK_STEP : Nat := 0x1808
/-- Table 04.2. -/
def GSTART : Nat := 0x1810
/-- Table 04.2. -/
def GSTART_TICK : Nat := 0x1818
/-- Table 04.2. -/
def GSTART_LAST : Nat := 0x1820
/-- Table 04.2. -/
def CMP_CNT : Nat := 0x1828
/-- Table 04.3. -/
def SC_CTRL (n : Fin 32) : Nat := 0x1900 + 0x20 * n.val
/-- Table 04.3. -/
def SC_PERIOD (n : Fin 32) : Nat := 0x1904 + 0x20 * n.val
/-- Table 04.3. -/
def SC_TARGET (n : Fin 32) : Nat := 0x1908 + 0x20 * n.val
/-- Table 04.3. -/
def SC_CONV_MASK (n : Fin 32) : Nat := 0x1910 + 0x20 * n.val
/-- Table 04.3. -/
def SC_MATCH_TICK (n : Fin 32) : Nat := 0x1918 + 0x20 * n.val
/-- Table 12.6. -/
def PACK_CFG : Nat := 0x2000
/-- Table 12.6. -/
def CELL_THR : Nat := 0x2004
/-- Table 12.6. -/
def CHG_V : Nat := 0x2008
/-- Table 12.6. -/
def CHG_I : Nat := 0x200c
/-- Table 12.6. -/
def CHG_IN : Nat := 0x2010
/-- Table 12.6. -/
def CHG_VIN : Nat := 0x2014
/-- Table 12.6. -/
def CHG_CTRL : Nat := 0x2018
/-- Table 12.6. -/
def CHG_TEMP : Nat := 0x201c
/-- Table 12.7. -/
def CHG_STAT : Nat := 0x2020
/-- Table 12.7. -/
def PACK_STAT : Nat := 0x2024
/-- Table 12.6. -/
def BK_CFG : Nat := 0x2028
/-- Table 12.6. -/
def PACK_SC : Nat := 0x202c
/-- Table 12.6. -/
def BUD_CFG : Nat := 0x2030
/-- Table 12.6. -/
def BUD_PULL : Nat := 0x2034
/-- Table 12.7. -/
def BUD_STAT : Nat := 0x2038
/-- Table 12.7. -/
def BUD_PRED : Nat := 0x203c
/-- Table 12.7. -/
def BUD_LIMIT : Nat := 0x2040
/-- Table 12.6. -/
def BUD_TRIM (k : Nat) : Nat := 0x2048 + 0x4 * k
/-- Table 12.7. -/
def CELL_V (k : Nat) : Nat := 0x2070 + 0x4 * k
/-- Table 12.7. -/
def PACK_V : Nat := 0x20b0
/-- Table 12.7. -/
def PACK_I : Nat := 0x20b4
/-- Table 12.7. -/
def TF_V : Nat := 0x20b8
/-- Table 12.7. -/
def TF_I : Nat := 0x20bc
/-- Table 12.7. -/
def VBUS_V : Nat := 0x20c0
/-- Table 12.7. -/
def PACK_T : Nat := 0x20c4
/-- Table 12.6. -/
def NTC_CFG : Nat := 0x20c8
/-- Table 12.6. -/
def SHUNTS : Nat := 0x20cc
/-- Table 12.7. -/
def PACK_CNT : Nat := 0x20d0
/-- Table 12.8. -/
def EST_CFG : Nat := 0x2400
/-- Table 12.8. -/
def EST_REST : Nat := 0x2404
/-- Table 12.8. -/
def EST_PROBE : Nat := 0x2408
/-- Table 12.9. -/
def EST_SOC : Nat := 0x240c
/-- Table 12.9. -/
def EST_SOH : Nat := 0x2410
/-- Table 12.9. -/
def EST_CAP : Nat := 0x2414
/-- Table 12.9. -/
def EST_R0 : Nat := 0x2418
/-- Table 12.9. -/
def EST_R1 : Nat := 0x241c
/-- Table 12.9. -/
def EST_TAU : Nat := 0x2420
/-- Table 12.9. -/
def EST_R0_25 : Nat := 0x2424
/-- Table 12.8. -/
def EST_R0_REF : Nat := 0x2428
/-- Table 12.9. -/
def EST_STAT : Nat := 0x242c
/-- Table 12.9. -/
def EST_CNT : Nat := 0x2430
/-- Table 12.8. -/
def OCV_TBL (k : Nat) : Nat := 0x2440 + 0x4 * k
/-- Table 12.9. -/
def PWR_Q_DIS : Nat := 0x2480
/-- Table 12.9. -/
def PWR_Q_CHG : Nat := 0x2488
/-- Table 12.9. -/
def PWR_Q_TF : Nat := 0x2490
/-- Table 12.9. -/
def PWR_BUSKEEP : Nat := 0x2498
/-- Table 12.9. -/
def PWR_TRIMS : Nat := 0x24a0
/-- Table 13.6. -/
def RAIL_GLB : Nat := 0x2800
/-- Table 13.6. -/
def SEQ_OUT_CFG : Nat := 0x2804
/-- Table 13.6. -/
def SEQ_CFG : Nat := 0x2808
/-- Table 13.6. -/
def SEQ_STAT : Nat := 0x280c
/-- Table 13.6. -/
def RAIL_GOOD : Nat := 0x2810
/-- Table 13.6. -/
def RAIL_FAILED : Nat := 0x2814
/-- Table 13.6. -/
def RAIL_IRAILS : Nat := 0x2818
/-- Table 13.7. -/
def RAIL_CFG (r : Rail) : Nat := 0x2900 + 0x40 * r.val
/-- Table 13.7. -/
def RAIL_VSET (r : Rail) : Nat := 0x2904 + 0x40 * r.val
/-- Table 13.7. -/
def RAIL_DEP (r : Rail) : Nat := 0x2908 + 0x40 * r.val
/-- Table 13.7. -/
def RAIL_LVL (r : Rail) : Nat := 0x290c + 0x40 * r.val
/-- Table 13.7. -/
def RAIL_HIC (r : Rail) : Nat := 0x2910 + 0x40 * r.val
/-- Table 13.7. -/
def RAIL_SHED (r : Rail) : Nat := 0x2914 + 0x40 * r.val
/-- Table 13.7. -/
def RAIL_CTRL (r : Rail) : Nat := 0x2918 + 0x40 * r.val
/-- Table 13.7. -/
def RAIL_STAT (r : Rail) : Nat := 0x291c + 0x40 * r.val
/-- Table 13.7. -/
def RAIL_V (r : Rail) : Nat := 0x2920 + 0x40 * r.val
/-- Table 13.7. -/
def RAIL_I (r : Rail) : Nat := 0x2924 + 0x40 * r.val
/-- Table 13.7. -/
def RAIL_IIN (r : Rail) : Nat := 0x2928 + 0x40 * r.val
/-- Table 13.7. -/
def RAIL_CNT (r : Rail) : Nat := 0x292c + 0x40 * r.val
/-- Table 14.5. -/
def HK_CTRL : Nat := 0x2c00
/-- Table 14.5. -/
def HK_STAT : Nat := 0x2c04
/-- Table 14.5. -/
def HK_PERIOD : Nat := 0x2c08
/-- Table 14.5. -/
def HK_CAL (k : Nat) : Nat := 0x2c10 + 0x4 * k
/-- Table 14.5. -/
def HK_DIAG : Nat := 0x2c20
/-- Table 14.5. -/
def HK_DIAG_RES : Nat := 0x2c24
/-- Table 14.5. -/
def HK_CNT : Nat := 0x2c28
/-- Table 14.6. -/
def HK_CFG (k : Nat) : Nat := 0x2d00 + 0x4 * k
/-- Table 14.6. -/
def HK_RES (k : Nat) : Nat := 0x2e00 + 0x4 * k
/-- Table 14.7. -/
def THM_TEMP (k : Nat) : Nat := 0x3000 + 0x4 * k
/-- Table 14.7. -/
def THM_RATE (k : Nat) : Nat := 0x3044 + 0x4 * k
/-- Table 14.7. -/
def THM_LIM (k : Nat) : Nat := 0x3100 + 0x4 * k
/-- Table 14.7. -/
def THM_DSTAT (k : Nat) : Nat := 0x3200 + 0x4 * k
/-- Table 14.7. -/
def THM_CFG : Nat := 0x3300
/-- Table 14.7. -/
def THM_CNT : Nat := 0x3304
/-- Table 15.11. -/
def FLT_STAT : Nat := 0x3400
/-- Table 15.11. -/
def FLT_LATCH (k : Nat) : Nat := 0x3410 + 0x4 * k
/-- Table 15.11. -/
def FLT_BROKEN (k : Nat) : Nat := 0x3420 + 0x4 * k
/-- Table 15.11. -/
def FLT_CNT : Nat := 0x3430
/-- Table 15.11. -/
def FLT_ERR_CFG : Nat := 0x3434
/-- Table 15.11. -/
def FLT_ERR_CTRL : Nat := 0x3438
/-- Table 15.11. -/
def SILT_STAT : Nat := 0x3440
/-- Table 15.11. -/
def SILT_CNT : Nat := 0x3444
/-- Table 15.11. -/
def SILT_SEQ : Nat := 0x3448
/-- Table 15.11. -/
def SILT_COPY : Nat := 0x3450
/-- Table 15.11. -/
def SILT_COPY_CTRL : Nat := 0x3454
/-- Table 15.11. -/
def FRZ_CFG : Nat := 0x3500
/-- Table 15.11. -/
def FRZ_CTRL : Nat := 0x3504
/-- Table 15.11. -/
def FRZ_STAT : Nat := 0x3508
/-- Table 15.11. -/
def FRZ_LAST_TF : Nat := 0x3510
/-- Table 15.11. -/
def FRZ_LAST_D : Nat := 0x3518
/-- Table 15.11. -/
def FRZ_RATIO : Nat := 0x3520
/-- Table 15.11. -/
def FRZ_CNT : Nat := 0x3524
/-- Table 15.11. -/
def DBG_HALTS : Nat := 0x3530
/-- Table 09.5. -/
def TKO_STAT (p : Spire) : Nat := 0x3600 + 0x20 * p.val
/-- Table 09.5. -/
def TKO_RETIRED (p : Spire) : Nat := 0x3604 + 0x20 * p.val
/-- Table 09.5. -/
def TKO_CNT (p : Spire) : Nat := 0x3608 + 0x20 * p.val
/-- Table 09.5. -/
def TKO_SEL (p : Spire) : Nat := 0x360c + 0x20 * p.val
/-- Table 09.5. -/
def TKO_VIEW (p : Spire) : Nat := 0x3610 + 0x20 * p.val
/-- Table 09.6. -/
def TKO_LIMP_CFG (p : Spire) : Nat := 0x3614 + 0x20 * p.val
/-- Table 09.6. -/
def TKO_CTRL (p : Spire) : Nat := 0x3618 + 0x20 * p.val
/-- Table 16.4. -/
def RV_CFG : Nat := 0x3800
/-- Table 16.4. -/
def RV_STAT : Nat := 0x3804
/-- Table 16.4. -/
def RV_RING : Nat := 0x3808
/-- Table 16.4. -/
def RV_HEAD_ID : Nat := 0x380c
/-- Table 16.4. -/
def RV_ERR : Nat := 0x3810
/-- Table 16.4. -/
def RV_DELAY : Nat := 0x3814
/-- Table 16.4. -/
def RV_LOOP : Nat := 0x3818
/-- Table 16.4. -/
def RV_RATE : Nat := 0x381c
/-- Table 16.4. -/
def RV_TOK_SET : Nat := 0x3820
/-- Table 16.4. -/
def RV_TOK_EN : Nat := 0x3824
/-- Table 16.4. -/
def RV_TOK_RES : Nat := 0x3828
/-- Table 16.4. -/
def RV_CNT : Nat := 0x382c
/-- Table 17.9. -/
def OTP_CMD : Nat := 0x3c00
/-- Table 17.9. -/
def OTP_STAT : Nat := 0x3c04
/-- Table 17.9. -/
def OTP_DATA : Nat := 0x3c08
/-- Table 17.9. -/
def OTP_SCAN : Nat := 0x3c0c
/-- Table 17.9. -/
def OTP_INTEG : Nat := 0x3c10
/-- Table 17.9. -/
def OTP_CFG_ID : Nat := 0x3c14
/-- Table 17.9. -/
def OTP_STAGE (k : Nat) : Nat := 0x3c40 + 0x4 * k
/-- Table 17.9. -/
def IMG_KEY_SEL : Nat := 0x3d00
/-- Table 17.9. -/
def IMG_KEY_CTRL : Nat := 0x3d04
/-- Table 17.9. -/
def IMG_KEY_STAT : Nat := 0x3d08
/-- Table 17.9. -/
def IMG_KEY_DATA (k : Nat) : Nat := 0x3d40 + 0x4 * k
/-- Table 17.9. -/
def UNLK_CHAL (k : Nat) : Nat := 0x3e00 + 0x4 * k
/-- Table 17.9. -/
def UNLK_STAT : Nat := 0x3e10
/-- Table 17.9. -/
def UNLK_EXPIRY : Nat := 0x3e18
/-- Table 17.10. -/
def TW_CFG : Nat := 0x4000
/-- Table 17.10. -/
def TW_STAT : Nat := 0x4004
/-- Table 17.10. -/
def TW_CNT : Nat := 0x4008
/-- Table 03.13. -/
def GNSS_BAUD (n : Fin 2) : Nat := 0x4100 + 0x40 * n.val
/-- Table 03.13. -/
def GNSS_MODE (n : Fin 2) : Nat := 0x4104 + 0x40 * n.val
/-- Table 03.13. -/
def GNSS_LAT (n : Fin 2) : Nat := 0x4108 + 0x40 * n.val
/-- Table 03.13. -/
def GNSS_CNT0 (n : Fin 2) : Nat := 0x410c + 0x40 * n.val
/-- Table 03.13. -/
def GNSS_CNT1 (n : Fin 2) : Nat := 0x4110 + 0x40 * n.val
/-- Table 03.12. -/
def CH_GEOM_Y (c : Ch) : Nat := 0x8000 + 0x80 * c.val
/-- Table 03.12. -/
def CH_GEOM_X (c : Ch) : Nat := 0x8004 + 0x80 * c.val
/-- Table 03.12. -/
def CH_S (c : Ch) : Nat := 0x8008 + 0x80 * c.val
/-- Table 03.12. -/
def CH_V (c : Ch) : Nat := 0x8010 + 0x80 * c.val
/-- Table 06.9. -/
def CH_ENG_CTRL (c : Ch) : Nat := 0x8014 + 0x80 * c.val
/-- Table 06.10. -/
def CH_ENG_STAT (c : Ch) : Nat := 0x8018 + 0x80 * c.val
/-- Table 06.11. -/
def CH_ENG_CNT (c : Ch) : Nat := 0x801c + 0x80 * c.val
/-- Table 04.5. -/
def CH_BND_CTRL (c : Ch) : Nat := 0x8020 + 0x80 * c.val
/-- Table 04.5. -/
def CH_BND_PERIOD (c : Ch) : Nat := 0x8024 + 0x80 * c.val
/-- Table 04.5. -/
def CH_BND_TARGET (c : Ch) : Nat := 0x8028 + 0x80 * c.val
/-- Table 04.5. -/
def CH_SMP_CTRL (c : Ch) : Nat := 0x8030 + 0x80 * c.val
/-- Table 04.5. -/
def CH_SMP_PERIOD (c : Ch) : Nat := 0x8034 + 0x80 * c.val
/-- Table 04.5. -/
def CH_SMP_TARGET (c : Ch) : Nat := 0x8038 + 0x80 * c.val
/-- Table 04.5. -/
def CH_BND_LAT (c : Ch) : Nat := 0x8040 + 0x80 * c.val
/-- Table 04.5. -/
def CH_BND_LATE (c : Ch) : Nat := 0x8044 + 0x80 * c.val
/-- Table 05.6. -/
def CH_STAGE_CFG (c : Ch) : Nat := 0x8048 + 0x80 * c.val
/-- Table 05.7. -/
def CH_PWM (c : Ch) : Nat := 0x804c + 0x80 * c.val
/-- Table 05.8. -/
def CH_ILIM (c : Ch) : Nat := 0x8050 + 0x80 * c.val
/-- Table 05.9. -/
def CH_HICCUP (c : Ch) : Nat := 0x8054 + 0x80 * c.val
/-- Table 05.10. -/
def CH_FRZ_HOLD (c : Ch) : Nat := 0x8058 + 0x80 * c.val
/-- Table 05.11. -/
def CH_SNS_CFG (c : Ch) : Nat := 0x805c + 0x80 * c.val
/-- Table 05.12. -/
def CH_LEG (c : Ch) : Nat := 0x8060 + 0x80 * c.val
/-- Table 05.13. -/
def CH_STAGE_STAT (c : Ch) : Nat := 0x8064 + 0x80 * c.val
/-- Table 05.13. -/
def CH_STAGE_CNT (c : Ch) : Nat := 0x8068 + 0x80 * c.val
/-- Table 05.14. -/
def CH_SNS_VAL (c : Ch) : Nat := 0x806c + 0x80 * c.val
/-- Table 05.14. -/
def CH_I_LAST (c : Ch) : Nat := 0x8070 + 0x80 * c.val
/-- Table 05.14. -/
def CH_V_LAST (c : Ch) : Nat := 0x8074 + 0x80 * c.val
/-- Table 08.8. -/
def CH_RQ_CFG (c : Ch) : Nat := 0x8078 + 0x80 * c.val
/-- Table 08.9. -/
def CH_RQ_STAT (c : Ch) : Nat := 0x807c + 0x80 * c.val

/-! ### Register fields narrower than a word -/

/-- Table 18.1. -/
def ID_DEVICE_DEVICE : Fld := ⟨ID_DEVICE, 0, 16⟩
/-- Table 18.1. -/
def ID_DEVICE_DOME_REV : Fld := ⟨ID_DEVICE, 16, 4⟩
/-- Table 18.1. -/
def ID_DEVICE_TURRET_REV : Fld := ⟨ID_DEVICE, 20, 4⟩
/-- Table 18.1. -/
def ID_DEVICE_STAGE_REV : Fld := ⟨ID_DEVICE, 24, 4⟩
/-- Table 18.1. -/
def ID_DIESET_CODE : Fld := ⟨ID_DIESET, 0, 24⟩
/-- Table 02.7. -/
def MODE_STATUS_MODE : Fld := ⟨MODE_STATUS, 0, 4⟩
/-- Table 02.7. -/
def MODE_STATUS_FROZEN : Fld := ⟨MODE_STATUS, 4, 1⟩
/-- Table 02.7. -/
def MODE_STATUS_FAULT : Fld := ⟨MODE_STATUS, 5, 1⟩
/-- Table 02.7. -/
def MODE_STATUS_RESTRICTED : Fld := ⟨MODE_STATUS, 6, 1⟩
/-- Table 02.7. -/
def MODE_STATUS_BOOT_STEP : Fld := ⟨MODE_STATUS, 8, 5⟩
/-- Table 02.7. -/
def MODE_STATUS_KEY : Fld := ⟨MODE_STATUS, 16, 1⟩
/-- Table 02.7. -/
def MODE_STATUS_WAKE : Fld := ⟨MODE_STATUS, 17, 1⟩
/-- Table 02.7. -/
def MODE_STATUS_TF_PRESENT : Fld := ⟨MODE_STATUS, 18, 1⟩
/-- Table 02.7. -/
def MODE_STATUS_BUSY : Fld := ⟨MODE_STATUS, 19, 1⟩
/-- Table 02.8. -/
def RESET_CAUSE_POR : Fld := ⟨RESET_CAUSE, 0, 1⟩
/-- Table 02.8. -/
def RESET_CAUSE_PIN : Fld := ⟨RESET_CAUSE, 1, 1⟩
/-- Table 02.8. -/
def RESET_CAUSE_PERST : Fld := ⟨RESET_CAUSE, 2, 1⟩
/-- Table 02.8. -/
def RESET_CAUSE_CMD : Fld := ⟨RESET_CAUSE, 3, 1⟩
/-- Table 02.8. -/
def RESET_CAUSE_FAULT : Fld := ⟨RESET_CAUSE, 4, 1⟩
/-- Table 02.8. -/
def RESET_CAUSE_FREEZE_LIMIT : Fld := ⟨RESET_CAUSE, 5, 1⟩
/-- Table 02.9. -/
def MODE_KEY_KEYOFF_DELAY : Fld := ⟨MODE_KEY, 0, 16⟩
/-- Table 02.9. -/
def MODE_KEY_KEYOFF_STANDBY : Fld := ⟨MODE_KEY, 16, 1⟩
/-- Table 10.16. -/
def HP_STAT_SPEED : Fld := ⟨HP_STAT, 0, 4⟩
/-- Table 10.16. -/
def HP_STAT_WIDTH : Fld := ⟨HP_STAT, 4, 4⟩
/-- Table 10.16. -/
def HP_EVT_CFG_RING : Fld := ⟨HP_EVT_CFG, 0, 2⟩
/-- Table 10.16. -/
def HP_EVT_CFG_F0_EN : Fld := ⟨HP_EVT_CFG, 2, 1⟩
/-- Table 10.16. -/
def HP_ERR_VEC_VEC : Fld := ⟨HP_ERR_VEC, 0, 5⟩
/-- Table 10.16. -/
def HP_ERR_VEC_EN : Fld := ⟨HP_ERR_VEC, 8, 1⟩
/-- Table 10.16. -/
def HP_VIOL_RING : Fld := ⟨HP_VIOL, 0, 5⟩
/-- Table 10.16. -/
def HP_VIOL_WHY : Fld := ⟨HP_VIOL, 8, 8⟩
/-- Table 10.16. -/
def HP_CNT_DB_DISC : Fld := ⟨HP_CNT, 0, 16⟩
/-- Table 10.16. -/
def HP_CNT_PARTIAL : Fld := ⟨HP_CNT, 16, 16⟩
/-- Table 10.17. -/
def Q_CFG_SIZE_LOG2 (q : Ring) : Fld := ⟨Q_CFG q, 0, 4⟩
/-- Table 10.17. -/
def Q_CFG_EN (q : Ring) : Fld := ⟨Q_CFG q, 4, 1⟩
/-- Table 10.17. -/
def Q_CFG_CQ (q : Ring) : Fld := ⟨Q_CFG q, 5, 2⟩
/-- Table 10.17. -/
def Q_CFG_VEC (q : Ring) : Fld := ⟨Q_CFG q, 8, 5⟩
/-- Table 10.17. -/
def Q_CFG_COAL_N (q : Ring) : Fld := ⟨Q_CFG q, 16, 8⟩
/-- Table 10.17. -/
def Q_CFG_COAL_US (q : Ring) : Fld := ⟨Q_CFG q, 24, 8⟩
/-- Table 10.17. -/
def Q_CTRL_RESUME (q : Ring) : Fld := ⟨Q_CTRL q, 0, 1⟩
/-- Table 10.17. -/
def Q_STAT_HALTED (q : Ring) : Fld := ⟨Q_STAT q, 0, 1⟩
/-- Table 10.17. -/
def Q_STAT_STALLED (q : Ring) : Fld := ⟨Q_STAT q, 1, 1⟩
/-- Table 10.17. -/
def Q_STAT_FULL (q : Ring) : Fld := ⟨Q_STAT q, 2, 1⟩
/-- Table 10.17. -/
def Q_STAT_PHASE (q : Ring) : Fld := ⟨Q_STAT q, 3, 1⟩
/-- Table 10.17. -/
def Q_STAT_WHY (q : Ring) : Fld := ⟨Q_STAT q, 8, 8⟩
/-- Table 10.17. -/
def Q_PI_INDEX (q : Ring) : Fld := ⟨Q_PI q, 0, 12⟩
/-- Table 10.17. -/
def Q_CI_INDEX (q : Ring) : Fld := ⟨Q_CI q, 0, 12⟩
/-- Table 10.17. -/
def Q_CNT_ENTRIES (q : Ring) : Fld := ⟨Q_CNT q, 0, 16⟩
/-- Table 10.17. -/
def Q_CNT_REFUSED (q : Ring) : Fld := ⟨Q_CNT q, 16, 8⟩
/-- Table 10.17. -/
def Q_CNT_LOST (q : Ring) : Fld := ⟨Q_CNT q, 24, 8⟩
/-- Table 10.17. -/
def Q_LENDS_COUNT (q : Ring) : Fld := ⟨Q_LENDS q, 0, 7⟩
/-- Table 11.8. -/
def ARB_CFG_WAIT_LIMIT : Fld := ⟨ARB_CFG, 0, 8⟩
/-- Table 11.8. -/
def ARB_CFG_TENURE : Fld := ⟨ARB_CFG, 8, 8⟩
/-- Table 11.8. -/
def SNAP_CFG_PUBLISH : Fld := ⟨SNAP_CFG, 0, 1⟩
/-- Table 11.8. -/
def SNAP_STAT_PENDING : Fld := ⟨SNAP_STAT, 0, 3⟩
/-- Table 11.8. -/
def SNAP_STAT_MISSED : Fld := ⟨SNAP_STAT, 8, 8⟩
/-- Table 11.8. -/
def EDDY_STRM_EN : Fld := ⟨EDDY_STRM, 0, 1⟩
/-- Table 11.8. -/
def EDDY_SEL_SPIRE : Fld := ⟨EDDY_SEL, 0, 4⟩
/-- Table 11.8. -/
def EDDY_SEL_ENGINE : Fld := ⟨EDDY_SEL, 4, 5⟩
/-- Table 11.8. -/
def EDDY_CFG_MODE : Fld := ⟨EDDY_CFG, 0, 1⟩
/-- Table 11.8. -/
def EDDY_CFG_STREAM : Fld := ⟨EDDY_CFG, 1, 1⟩
/-- Table 11.8. -/
def EDDY_CFG_TRIG : Fld := ⟨EDDY_CFG, 2, 3⟩
/-- Table 11.8. -/
def EDDY_CFG_SC : Fld := ⟨EDDY_CFG, 5, 5⟩
/-- Table 11.8. -/
def EDDY_CFG_KIND : Fld := ⟨EDDY_CFG, 10, 8⟩
/-- Table 11.8. -/
def EDDY_CFG_POST : Fld := ⟨EDDY_CFG, 18, 7⟩
/-- Table 11.8. -/
def EDDY_STAT_HELD : Fld := ⟨EDDY_STAT, 0, 8⟩
/-- Table 11.8. -/
def EDDY_STAT_TRIGGERED : Fld := ⟨EDDY_STAT, 8, 1⟩
/-- Table 11.8. -/
def EDDY_STAT_HOLDING : Fld := ⟨EDDY_STAT, 9, 1⟩
/-- Table 11.8. -/
def EDDY_STAT_DROPPED : Fld := ⟨EDDY_STAT, 16, 16⟩
/-- Table 11.9. -/
def ARB_RQ_PRIO (a : Rq) : Fld := ⟨ARB_RQ a, 0, 2⟩
/-- Table 11.9. -/
def ARB_RQ_BITES (a : Rq) : Fld := ⟨ARB_RQ a, 8, 8⟩
/-- Table 03.6. -/
def COURSE_CTRL_EN : Fld := ⟨COURSE_CTRL, 0, 8⟩
/-- Table 03.6. -/
def COURSE_CTRL_BLEND_MS : Fld := ⟨COURSE_CTRL, 8, 8⟩
/-- Table 03.6. -/
def COURSE_CTRL_COAST_10MS : Fld := ⟨COURSE_CTRL, 16, 8⟩
/-- Table 03.8. -/
def COURSE_STATUS_SPEED_SRC : Fld := ⟨COURSE_STATUS, 0, 4⟩
/-- Table 03.8. -/
def COURSE_STATUS_TURN_SRC : Fld := ⟨COURSE_STATUS, 4, 4⟩
/-- Table 03.8. -/
def COURSE_STATUS_HEAD_SRC : Fld := ⟨COURSE_STATUS, 8, 4⟩
/-- Table 03.8. -/
def COURSE_STATUS_SPEED_VALID : Fld := ⟨COURSE_STATUS, 12, 1⟩
/-- Table 03.8. -/
def COURSE_STATUS_COASTING : Fld := ⟨COURSE_STATUS, 13, 1⟩
/-- Table 03.8. -/
def COURSE_STATUS_DIR_UNKNOWN : Fld := ⟨COURSE_STATUS, 14, 1⟩
/-- Table 03.8. -/
def COURSE_STATUS_OVERSPEED : Fld := ⟨COURSE_STATUS, 15, 1⟩
/-- Table 03.8. -/
def COURSE_STATUS_BLENDING : Fld := ⟨COURSE_STATUS, 16, 1⟩
/-- Table 03.8. -/
def COURSE_STATUS_REBASE_PEND : Fld := ⟨COURSE_STATUS, 17, 1⟩
/-- Table 03.8. -/
def COURSE_STATUS_VALID : Fld := ⟨COURSE_STATUS, 24, 8⟩
/-- Table 03.10. -/
def COURSE_REBASE_GO : Fld := ⟨COURSE_REBASE, 0, 1⟩
/-- Table 03.9. -/
def ENC_CFG_ENC0_DIR_INV : Fld := ⟨ENC_CFG, 0, 1⟩
/-- Table 03.9. -/
def ENC_CFG_ENC1_DIR_INV : Fld := ⟨ENC_CFG, 1, 1⟩
/-- Table 03.9. -/
def ENC_CFG_FILT : Fld := ⟨ENC_CFG, 8, 8⟩
/-- Table 03.9. -/
def ENC_CFG_STOP_MS : Fld := ⟨ENC_CFG, 16, 16⟩
/-- Table 03.10. -/
def RADAR_CFG_STOP_MS : Fld := ⟨RADAR_CFG, 0, 16⟩
/-- Table 03.10. -/
def SPDAN_ZERO_ZERO : Fld := ⟨SPDAN_ZERO, 0, 16⟩
/-- Table 03.10. -/
def SPDAN_ZERO_SIGNED : Fld := ⟨SPDAN_ZERO, 16, 1⟩
/-- Table 03.10. -/
def SPDAN_BAND_MIN : Fld := ⟨SPDAN_BAND, 0, 16⟩
/-- Table 03.10. -/
def SPDAN_BAND_MAX : Fld := ⟨SPDAN_BAND, 16, 16⟩
/-- Table 03.10. -/
def GNSS_CFG_COG_MIN : Fld := ⟨GNSS_CFG, 0, 16⟩
/-- Table 03.10. -/
def GNSS_CFG_TIMEOUT_MS : Fld := ⟨GNSS_CFG, 16, 16⟩
/-- Table 03.10. -/
def HOST_POSE_FLAGS_V_VALID : Fld := ⟨HOST_POSE_FLAGS, 0, 1⟩
/-- Table 03.10. -/
def HOST_POSE_FLAGS_HEAD_VALID : Fld := ⟨HOST_POSE_FLAGS, 1, 1⟩
/-- Table 03.10. -/
def HOST_POSE_FLAGS_OMEGA_VALID : Fld := ⟨HOST_POSE_FLAGS, 2, 1⟩
/-- Table 03.10. -/
def HOST_POSE_FLAGS_DIR_VALID : Fld := ⟨HOST_POSE_FLAGS, 3, 1⟩
/-- Table 03.10. -/
def HOST_POSE_COMMIT_GO : Fld := ⟨HOST_POSE_COMMIT, 0, 1⟩
/-- Table 03.10. -/
def HOST_CFG_MAX_AGE_MS : Fld := ⟨HOST_CFG, 0, 16⟩
/-- Table 03.10. -/
def HOST_CFG_TIMEOUT_MS : Fld := ⟨HOST_CFG, 16, 16⟩
/-- Table 03.10. -/
def COURSE_XCHK_PCT : Fld := ⟨COURSE_XCHK, 0, 8⟩
/-- Table 03.10. -/
def COURSE_XCHK_MIN : Fld := ⟨COURSE_XCHK, 16, 16⟩
/-- Table 03.10. -/
def COURSE_CNT_HOST_REFUSED : Fld := ⟨COURSE_CNT, 0, 16⟩
/-- Table 03.10. -/
def COURSE_CNT_ENC0_QERR : Fld := ⟨COURSE_CNT, 16, 8⟩
/-- Table 03.10. -/
def COURSE_CNT_ENC1_QERR : Fld := ⟨COURSE_CNT, 24, 8⟩
/-- Table 04.2. -/
def GSTART_GROUPS : Fld := ⟨GSTART, 0, 8⟩
/-- Table 04.2. -/
def GSTART_AT_TICK : Fld := ⟨GSTART, 8, 1⟩
/-- Table 04.2. -/
def CMP_CNT_CHAIN_COLLIDE : Fld := ⟨CMP_CNT, 0, 16⟩
/-- Table 04.2. -/
def CMP_CNT_REPLAYED : Fld := ⟨CMP_CNT, 16, 16⟩
/-- Table 04.3. -/
def SC_CONV_MASK_SPIRES (n : Fin 32) : Fld := ⟨SC_CONV_MASK n, 0, 16⟩
/-- Table 12.6. -/
def PACK_CFG_CHEM : Fld := ⟨PACK_CFG, 0, 1⟩
/-- Table 12.6. -/
def PACK_CFG_CELLS : Fld := ⟨PACK_CFG, 1, 5⟩
/-- Table 12.6. -/
def CELL_THR_OV_MV : Fld := ⟨CELL_THR, 0, 16⟩
/-- Table 12.6. -/
def CELL_THR_UV_MV : Fld := ⟨CELL_THR, 16, 16⟩
/-- Table 12.6. -/
def CHG_V_CV_MV : Fld := ⟨CHG_V, 0, 16⟩
/-- Table 12.6. -/
def CHG_V_PRE_MV : Fld := ⟨CHG_V, 16, 16⟩
/-- Table 12.6. -/
def CHG_I_FAST_MA : Fld := ⟨CHG_I, 0, 17⟩
/-- Table 12.6. -/
def CHG_I_TERM_PCT : Fld := ⟨CHG_I, 24, 5⟩
/-- Table 12.6. -/
def CHG_IN_IIN_MA : Fld := ⟨CHG_IN, 0, 17⟩
/-- Table 12.6. -/
def CHG_VIN_VIN_REG_MV : Fld := ⟨CHG_VIN, 0, 16⟩
/-- Table 12.6. -/
def CHG_VIN_VIN_AUTO : Fld := ⟨CHG_VIN, 16, 1⟩
/-- Table 12.6. -/
def CHG_VIN_VIN_PCT : Fld := ⟨CHG_VIN, 24, 8⟩
/-- Table 12.6. -/
def CHG_CTRL_EN : Fld := ⟨CHG_CTRL, 0, 1⟩
/-- Table 12.6. -/
def CHG_CTRL_RESTART : Fld := ⟨CHG_CTRL, 1, 1⟩
/-- Table 12.6. -/
def CHG_CTRL_PHASES : Fld := ⟨CHG_CTRL, 2, 2⟩
/-- Table 12.6. -/
def CHG_CTRL_FSW : Fld := ⟨CHG_CTRL, 8, 8⟩
/-- Table 12.6. -/
def CHG_CTRL_PRE_TMO : Fld := ⟨CHG_CTRL, 16, 8⟩
/-- Table 12.6. -/
def CHG_CTRL_CHG_TMO : Fld := ⟨CHG_CTRL, 24, 8⟩
/-- Table 12.6. -/
def CHG_TEMP_T_LO : Fld := ⟨CHG_TEMP, 0, 8⟩
/-- Table 12.6. -/
def CHG_TEMP_T_HI : Fld := ⟨CHG_TEMP, 8, 8⟩
/-- Table 12.6. -/
def CHG_TEMP_RECHG_MV : Fld := ⟨CHG_TEMP, 16, 8⟩
/-- Table 12.7. -/
def CHG_STAT_STATE : Fld := ⟨CHG_STAT, 0, 3⟩
/-- Table 12.7. -/
def CHG_STAT_OV_LATCH : Fld := ⟨CHG_STAT, 3, 1⟩
/-- Table 12.7. -/
def CHG_STAT_LIM_IIN : Fld := ⟨CHG_STAT, 4, 1⟩
/-- Table 12.7. -/
def CHG_STAT_LIM_VIN : Fld := ⟨CHG_STAT, 5, 1⟩
/-- Table 12.7. -/
def CHG_STAT_CHG_N : Fld := ⟨CHG_STAT, 6, 1⟩
/-- Table 12.7. -/
def CHG_STAT_TEMP_HOLD : Fld := ⟨CHG_STAT, 7, 1⟩
/-- Table 12.7. -/
def PACK_STAT_PACK : Fld := ⟨PACK_STAT, 0, 3⟩
/-- Table 12.7. -/
def PACK_STAT_SW_TYPE : Fld := ⟨PACK_STAT, 3, 1⟩
/-- Table 12.7. -/
def PACK_STAT_SW_CLOSED : Fld := ⟨PACK_STAT, 4, 1⟩
/-- Table 12.7. -/
def PACK_STAT_BUSKEEP : Fld := ⟨PACK_STAT, 5, 1⟩
/-- Table 12.7. -/
def PACK_STAT_BK_ACK : Fld := ⟨PACK_STAT, 6, 1⟩
/-- Table 12.7. -/
def PACK_STAT_UV_WARN : Fld := ⟨PACK_STAT, 7, 1⟩
/-- Table 12.7. -/
def PACK_STAT_CELLS_DET : Fld := ⟨PACK_STAT, 8, 5⟩
/-- Table 12.6. -/
def BK_CFG_VBK_MV : Fld := ⟨BK_CFG, 0, 16⟩
/-- Table 12.6. -/
def BK_CFG_RESERVE_PCT : Fld := ⟨BK_CFG, 16, 8⟩
/-- Table 12.6. -/
def BK_CFG_EFF_PCT : Fld := ⟨BK_CFG, 24, 8⟩
/-- Table 12.6. -/
def PACK_SC_SC_A : Fld := ⟨PACK_SC, 0, 16⟩
/-- Table 12.6. -/
def BUD_CFG_LIMIT_DA : Fld := ⟨BUD_CFG, 0, 16⟩
/-- Table 12.6. -/
def BUD_CFG_KMIN : Fld := ⟨BUD_CFG, 16, 9⟩
/-- Table 12.6. -/
def BUD_PULL_PULL_MA : Fld := ⟨BUD_PULL, 0, 16⟩
/-- Table 12.6. -/
def BUD_PULL_LOOK_MS : Fld := ⟨BUD_PULL, 16, 8⟩
/-- Table 12.6. -/
def BUD_PULL_GUARD_MS : Fld := ⟨BUD_PULL, 24, 8⟩
/-- Table 12.7. -/
def BUD_STAT_K : Fld := ⟨BUD_STAT, 0, 9⟩
/-- Table 12.7. -/
def BUD_STAT_ACTIVE : Fld := ⟨BUD_STAT, 9, 1⟩
/-- Table 12.7. -/
def BUD_STAT_OVER : Fld := ⟨BUD_STAT, 10, 1⟩
/-- Table 12.7. -/
def CELL_V_MV (k : Nat) : Fld := ⟨CELL_V k, 0, 16⟩
/-- Table 12.7. -/
def PACK_T_T0 : Fld := ⟨PACK_T, 0, 16⟩
/-- Table 12.7. -/
def PACK_T_T1 : Fld := ⟨PACK_T, 16, 16⟩
/-- Table 12.6. -/
def NTC_CFG_BETA : Fld := ⟨NTC_CFG, 0, 16⟩
/-- Table 12.6. -/
def NTC_CFG_R26 : Fld := ⟨NTC_CFG, 16, 16⟩
/-- Table 12.6. -/
def SHUNTS_PACK_UOHM : Fld := ⟨SHUNTS, 0, 16⟩
/-- Table 12.6. -/
def SHUNTS_TF_UOHM : Fld := ⟨SHUNTS, 16, 16⟩
/-- Table 12.7. -/
def PACK_CNT_OV_TRIPS : Fld := ⟨PACK_CNT, 0, 8⟩
/-- Table 12.7. -/
def PACK_CNT_SC_TRIPS : Fld := ⟨PACK_CNT, 8, 8⟩
/-- Table 12.7. -/
def PACK_CNT_CHECK_FAIL : Fld := ⟨PACK_CNT, 16, 8⟩
/-- Table 12.7. -/
def PACK_CNT_GAIN_CHG : Fld := ⟨PACK_CNT, 24, 8⟩
/-- Table 12.8. -/
def EST_CFG_CAP_RATED : Fld := ⟨EST_CFG, 0, 16⟩
/-- Table 12.8. -/
def EST_CFG_CAP_SH : Fld := ⟨EST_CFG, 16, 4⟩
/-- Table 12.8. -/
def EST_CFG_IMP_SH : Fld := ⟨EST_CFG, 20, 4⟩
/-- Table 12.8. -/
def EST_CFG_CAP_DSOC : Fld := ⟨EST_CFG, 24, 8⟩
/-- Table 12.8. -/
def EST_REST_REST_MIN : Fld := ⟨EST_REST, 0, 8⟩
/-- Table 12.8. -/
def EST_REST_SLOPE_MIN : Fld := ⟨EST_REST, 8, 8⟩
/-- Table 12.8. -/
def EST_REST_SOC_RATE : Fld := ⟨EST_REST, 16, 8⟩
/-- Table 12.8. -/
def EST_REST_PROBE_H : Fld := ⟨EST_REST, 24, 8⟩
/-- Table 12.8. -/
def EST_PROBE_W_MS : Fld := ⟨EST_PROBE, 0, 16⟩
/-- Table 12.8. -/
def EST_PROBE_R0_TC : Fld := ⟨EST_PROBE, 16, 8⟩
/-- Table 12.9. -/
def EST_SOC_SOC : Fld := ⟨EST_SOC, 0, 16⟩
/-- Table 12.9. -/
def EST_SOC_SOC_EST : Fld := ⟨EST_SOC, 16, 16⟩
/-- Table 12.9. -/
def EST_SOH_CAP : Fld := ⟨EST_SOH, 0, 16⟩
/-- Table 12.9. -/
def EST_SOH_IMP : Fld := ⟨EST_SOH, 16, 16⟩
/-- Table 12.9. -/
def EST_STAT_R0_SETTLED : Fld := ⟨EST_STAT, 0, 1⟩
/-- Table 12.9. -/
def EST_STAT_REST : Fld := ⟨EST_STAT, 1, 1⟩
/-- Table 12.9. -/
def EST_STAT_LOW_GAIN : Fld := ⟨EST_STAT, 2, 1⟩
/-- Table 12.9. -/
def EST_STAT_PROBE : Fld := ⟨EST_STAT, 3, 1⟩
/-- Table 12.9. -/
def EST_STAT_REF_VALID : Fld := ⟨EST_STAT, 4, 1⟩
/-- Table 12.9. -/
def EST_STAT_RESTORED : Fld := ⟨EST_STAT, 5, 1⟩
/-- Table 12.9. -/
def EST_CNT_STEPS_OK : Fld := ⟨EST_CNT, 0, 8⟩
/-- Table 12.9. -/
def EST_CNT_STEPS_REJ : Fld := ⟨EST_CNT, 8, 8⟩
/-- Table 12.9. -/
def EST_CNT_CAP_LEARNS : Fld := ⟨EST_CNT, 16, 8⟩
/-- Table 12.9. -/
def EST_CNT_RESTS : Fld := ⟨EST_CNT, 24, 8⟩
/-- Table 12.8. -/
def OCV_TBL_MV (k : Nat) : Fld := ⟨OCV_TBL k, 0, 16⟩
/-- Table 13.6. -/
def RAIL_GLB_PAIR01 : Fld := ⟨RAIL_GLB, 0, 1⟩
/-- Table 13.6. -/
def RAIL_GLB_PAIR23 : Fld := ⟨RAIL_GLB, 1, 1⟩
/-- Table 13.6. -/
def RAIL_GLB_VSEL : Fld := ⟨RAIL_GLB, 2, 2⟩
/-- Table 13.6. -/
def RAIL_GLB_VSEL_BAD : Fld := ⟨RAIL_GLB, 4, 1⟩
/-- Table 13.6. -/
def SEQ_OUT_CFG_MASK : Fld := ⟨SEQ_OUT_CFG, 0, 11⟩
/-- Table 13.6. -/
def SEQ_OUT_CFG_LATCH : Fld := ⟨SEQ_OUT_CFG, 16, 1⟩
/-- Table 13.6. -/
def SEQ_CFG_SEQIN_WAIT : Fld := ⟨SEQ_CFG, 0, 8⟩
/-- Table 13.6. -/
def SEQ_CFG_HOST_HOLD : Fld := ⟨SEQ_CFG, 8, 8⟩
/-- Table 13.6. -/
def SEQ_STAT_SEQ_IN : Fld := ⟨SEQ_STAT, 0, 1⟩
/-- Table 13.6. -/
def SEQ_STAT_SEQ_OUT : Fld := ⟨SEQ_STAT, 1, 1⟩
/-- Table 13.6. -/
def SEQ_STAT_DONE : Fld := ⟨SEQ_STAT, 2, 1⟩
/-- Table 13.6. -/
def SEQ_STAT_STOPPING : Fld := ⟨SEQ_STAT, 3, 1⟩
/-- Table 13.6. -/
def SEQ_STAT_SEQIN_TMO : Fld := ⟨SEQ_STAT, 4, 1⟩
/-- Table 13.6. -/
def RAIL_GOOD_MASK : Fld := ⟨RAIL_GOOD, 0, 10⟩
/-- Table 13.6. -/
def RAIL_FAILED_MASK : Fld := ⟨RAIL_FAILED, 0, 10⟩
/-- Table 13.7. -/
def RAIL_CFG_EN (r : Rail) : Fld := ⟨RAIL_CFG r, 0, 1⟩
/-- Table 13.7. -/
def RAIL_CFG_LIGHT (r : Rail) : Fld := ⟨RAIL_CFG r, 1, 2⟩
/-- Table 13.7. -/
def RAIL_CFG_CRIT (r : Rail) : Fld := ⟨RAIL_CFG r, 3, 1⟩
/-- Table 13.7. -/
def RAIL_CFG_FOLLOW (r : Rail) : Fld := ⟨RAIL_CFG r, 4, 1⟩
/-- Table 13.7. -/
def RAIL_CFG_FSW (r : Rail) : Fld := ⟨RAIL_CFG r, 8, 8⟩
/-- Table 13.7. -/
def RAIL_CFG_SS (r : Rail) : Fld := ⟨RAIL_CFG r, 16, 8⟩
/-- Table 13.7. -/
def RAIL_CFG_EFF (r : Rail) : Fld := ⟨RAIL_CFG r, 24, 8⟩
/-- Table 13.7. -/
def RAIL_VSET_MV (r : Rail) : Fld := ⟨RAIL_VSET r, 0, 16⟩
/-- Table 13.7. -/
def RAIL_DEP_MASK (r : Rail) : Fld := ⟨RAIL_DEP r, 0, 11⟩
/-- Table 13.7. -/
def RAIL_DEP_DELAY_MS (r : Rail) : Fld := ⟨RAIL_DEP r, 16, 8⟩
/-- Table 13.7. -/
def RAIL_DEP_WINDOW_MS (r : Rail) : Fld := ⟨RAIL_DEP r, 24, 8⟩
/-- Table 13.7. -/
def RAIL_LVL_UV_WARN_PCT (r : Rail) : Fld := ⟨RAIL_LVL r, 0, 8⟩
/-- Table 13.7. -/
def RAIL_LVL_UV_FLT_PCT (r : Rail) : Fld := ⟨RAIL_LVL r, 8, 8⟩
/-- Table 13.7. -/
def RAIL_LVL_OV_WARN_PCT (r : Rail) : Fld := ⟨RAIL_LVL r, 16, 8⟩
/-- Table 13.7. -/
def RAIL_LVL_OV_FLT_PCT (r : Rail) : Fld := ⟨RAIL_LVL r, 24, 8⟩
/-- Table 13.7. -/
def RAIL_HIC_COUNT (r : Rail) : Fld := ⟨RAIL_HIC r, 0, 8⟩
/-- Table 13.7. -/
def RAIL_HIC_OFF_MS (r : Rail) : Fld := ⟨RAIL_HIC r, 8, 8⟩
/-- Table 13.7. -/
def RAIL_SHED_DROP_MA (r : Rail) : Fld := ⟨RAIL_SHED r, 0, 16⟩
/-- Table 13.7. -/
def RAIL_SHED_ADD_MA (r : Rail) : Fld := ⟨RAIL_SHED r, 16, 16⟩
/-- Table 13.7. -/
def RAIL_CTRL_ON (r : Rail) : Fld := ⟨RAIL_CTRL r, 0, 1⟩
/-- Table 13.7. -/
def RAIL_STAT_STATE (r : Rail) : Fld := ⟨RAIL_STAT r, 0, 3⟩
/-- Table 13.7. -/
def RAIL_STAT_GOOD (r : Rail) : Fld := ⟨RAIL_STAT r, 3, 1⟩
/-- Table 13.7. -/
def RAIL_STAT_BURST (r : Rail) : Fld := ⟨RAIL_STAT r, 4, 1⟩
/-- Table 13.7. -/
def RAIL_STAT_PHASE2 (r : Rail) : Fld := ⟨RAIL_STAT r, 5, 1⟩
/-- Table 13.7. -/
def RAIL_STAT_UV_WARN (r : Rail) : Fld := ⟨RAIL_STAT r, 6, 1⟩
/-- Table 13.7. -/
def RAIL_STAT_OV_WARN (r : Rail) : Fld := ⟨RAIL_STAT r, 7, 1⟩
/-- Table 13.7. -/
def RAIL_STAT_UV_FLT (r : Rail) : Fld := ⟨RAIL_STAT r, 8, 1⟩
/-- Table 13.7. -/
def RAIL_STAT_FAILED (r : Rail) : Fld := ⟨RAIL_STAT r, 9, 1⟩
/-- Table 13.7. -/
def RAIL_CNT_HICCUPS (r : Rail) : Fld := ⟨RAIL_CNT r, 0, 16⟩
/-- Table 13.7. -/
def RAIL_CNT_WARNS (r : Rail) : Fld := ⟨RAIL_CNT r, 16, 8⟩
/-- Table 13.7. -/
def RAIL_CNT_FAULTS (r : Rail) : Fld := ⟨RAIL_CNT r, 24, 8⟩
/-- Table 14.5. -/
def HK_CTRL_START : Fld := ⟨HK_CTRL, 0, 1⟩
/-- Table 14.5. -/
def HK_CTRL_CAL : Fld := ⟨HK_CTRL, 1, 1⟩
/-- Table 14.5. -/
def HK_STAT_RUNNING : Fld := ⟨HK_STAT, 0, 1⟩
/-- Table 14.5. -/
def HK_STAT_CAL_BUSY : Fld := ⟨HK_STAT, 1, 1⟩
/-- Table 14.5. -/
def HK_STAT_CAL_FAIL : Fld := ⟨HK_STAT, 2, 1⟩
/-- Table 14.5. -/
def HK_STAT_CAPPED : Fld := ⟨HK_STAT, 3, 1⟩
/-- Table 14.5. -/
def HK_STAT_LOOP : Fld := ⟨HK_STAT, 8, 8⟩
/-- Table 14.5. -/
def HK_CAL_GAIN (k : Nat) : Fld := ⟨HK_CAL k, 0, 16⟩
/-- Table 14.5. -/
def HK_CAL_OFFS (k : Nat) : Fld := ⟨HK_CAL k, 16, 16⟩
/-- Table 14.5. -/
def HK_DIAG_CODE : Fld := ⟨HK_DIAG, 0, 10⟩
/-- Table 14.5. -/
def HK_DIAG_SLOT : Fld := ⟨HK_DIAG, 16, 7⟩
/-- Table 14.5. -/
def HK_DIAG_GO : Fld := ⟨HK_DIAG, 31, 1⟩
/-- Table 14.5. -/
def HK_DIAG_RES_CODE : Fld := ⟨HK_DIAG_RES, 0, 16⟩
/-- Table 14.5. -/
def HK_DIAG_RES_DONE : Fld := ⟨HK_DIAG_RES, 16, 1⟩
/-- Table 14.5. -/
def HK_DIAG_RES_PASS : Fld := ⟨HK_DIAG_RES, 17, 1⟩
/-- Table 14.5. -/
def HK_CNT_DIAG_FAIL : Fld := ⟨HK_CNT, 0, 16⟩
/-- Table 14.5. -/
def HK_CNT_CLIPS : Fld := ⟨HK_CNT, 16, 16⟩
/-- Table 14.6. -/
def HK_CFG_SLOT (k : Nat) : Fld := ⟨HK_CFG k, 0, 7⟩
/-- Table 14.6. -/
def HK_CFG_REPEAT (k : Nat) : Fld := ⟨HK_CFG k, 8, 8⟩
/-- Table 14.6. -/
def HK_CFG_DELAY (k : Nat) : Fld := ⟨HK_CFG k, 16, 16⟩
/-- Table 14.6. -/
def HK_RES_CODE (k : Nat) : Fld := ⟨HK_RES k, 0, 16⟩
/-- Table 14.6. -/
def HK_RES_LOOP (k : Nat) : Fld := ⟨HK_RES k, 16, 8⟩
/-- Table 14.6. -/
def HK_RES_VALID (k : Nat) : Fld := ⟨HK_RES k, 24, 1⟩
/-- Table 14.6. -/
def HK_RES_CLIP (k : Nat) : Fld := ⟨HK_RES k, 25, 1⟩
/-- Table 14.7. -/
def THM_TEMP_T_LO (k : Nat) : Fld := ⟨THM_TEMP k, 0, 16⟩
/-- Table 14.7. -/
def THM_TEMP_T_HI (k : Nat) : Fld := ⟨THM_TEMP k, 16, 16⟩
/-- Table 14.7. -/
def THM_RATE_R_LO (k : Nat) : Fld := ⟨THM_RATE k, 0, 16⟩
/-- Table 14.7. -/
def THM_RATE_R_HI (k : Nat) : Fld := ⟨THM_RATE k, 16, 16⟩
/-- Table 14.7. -/
def THM_LIM_WARN (k : Nat) : Fld := ⟨THM_LIM k, 0, 16⟩
/-- Table 14.7. -/
def THM_LIM_TRIP (k : Nat) : Fld := ⟨THM_LIM k, 16, 16⟩
/-- Table 14.7. -/
def THM_DSTAT_LEVEL (k : Nat) : Fld := ⟨THM_DSTAT k, 0, 2⟩
/-- Table 14.7. -/
def THM_DSTAT_WARN (k : Nat) : Fld := ⟨THM_DSTAT k, 2, 1⟩
/-- Table 14.7. -/
def THM_DSTAT_HW_SHUT (k : Nat) : Fld := ⟨THM_DSTAT k, 3, 1⟩
/-- Table 14.7. -/
def THM_DSTAT_SENSOR (k : Nat) : Fld := ⟨THM_DSTAT k, 4, 1⟩
/-- Table 14.7. -/
def THM_DSTAT_RATE_VALID (k : Nat) : Fld := ⟨THM_DSTAT k, 5, 1⟩
/-- Table 14.7. -/
def THM_CFG_K1 : Fld := ⟨THM_CFG, 0, 8⟩
/-- Table 14.7. -/
def THM_CFG_HOLD_S : Fld := ⟨THM_CFG, 8, 8⟩
/-- Table 14.7. -/
def THM_CNT_WARNS : Fld := ⟨THM_CNT, 0, 8⟩
/-- Table 14.7. -/
def THM_CNT_TRIPS : Fld := ⟨THM_CNT, 8, 8⟩
/-- Table 14.7. -/
def THM_CNT_HW_SHUTS : Fld := ⟨THM_CNT, 16, 8⟩
/-- Table 14.7. -/
def THM_CNT_SENSOR : Fld := ⟨THM_CNT, 24, 8⟩
/-- Table 15.11. -/
def FLT_STAT_F3_CODE : Fld := ⟨FLT_STAT, 0, 16⟩
/-- Table 15.11. -/
def FLT_STAT_SRC : Fld := ⟨FLT_STAT, 16, 7⟩
/-- Table 15.11. -/
def FLT_STAT_BROKEN : Fld := ⟨FLT_STAT, 23, 1⟩
/-- Table 15.11. -/
def FLT_STAT_DEGRADED : Fld := ⟨FLT_STAT, 24, 1⟩
/-- Table 15.11. -/
def FLT_STAT_FACTORY : Fld := ⟨FLT_STAT, 25, 1⟩
/-- Table 15.11. -/
def FLT_CNT_F0 : Fld := ⟨FLT_CNT, 0, 8⟩
/-- Table 15.11. -/
def FLT_CNT_F1 : Fld := ⟨FLT_CNT, 8, 8⟩
/-- Table 15.11. -/
def FLT_CNT_F2 : Fld := ⟨FLT_CNT, 16, 8⟩
/-- Table 15.11. -/
def FLT_CNT_F3 : Fld := ⟨FLT_CNT, 24, 8⟩
/-- Table 15.11. -/
def FLT_ERR_CFG_CLASS_MASK : Fld := ⟨FLT_ERR_CFG, 0, 4⟩
/-- Table 15.11. -/
def FLT_ERR_CFG_PULSE_US : Fld := ⟨FLT_ERR_CFG, 16, 14⟩
/-- Table 15.11. -/
def FLT_ERR_CTRL_HOLD : Fld := ⟨FLT_ERR_CTRL, 0, 1⟩
/-- Table 15.11. -/
def FLT_ERR_CTRL_LOW : Fld := ⟨FLT_ERR_CTRL, 1, 1⟩
/-- Table 15.11. -/
def FLT_ERR_CTRL_PULSES : Fld := ⟨FLT_ERR_CTRL, 8, 8⟩
/-- Table 15.11. -/
def SILT_STAT_HEAD : Fld := ⟨SILT_STAT, 0, 9⟩
/-- Table 15.11. -/
def SILT_STAT_VALID : Fld := ⟨SILT_STAT, 9, 10⟩
/-- Table 15.11. -/
def SILT_STAT_TORN : Fld := ⟨SILT_STAT, 19, 8⟩
/-- Table 15.11. -/
def SILT_STAT_BUSY : Fld := ⟨SILT_STAT, 27, 1⟩
/-- Table 15.11. -/
def SILT_CNT_DROPPED : Fld := ⟨SILT_CNT, 0, 16⟩
/-- Table 15.11. -/
def SILT_CNT_SUPPRESSED : Fld := ⟨SILT_CNT, 16, 16⟩
/-- Table 15.11. -/
def SILT_COPY_CTRL_GO : Fld := ⟨SILT_COPY_CTRL, 0, 1⟩
/-- Table 15.11. -/
def SILT_COPY_CTRL_DONE : Fld := ⟨SILT_COPY_CTRL, 1, 1⟩
/-- Table 15.11. -/
def SILT_COPY_CTRL_ERASE : Fld := ⟨SILT_COPY_CTRL, 2, 1⟩
/-- Table 15.11. -/
def SILT_COPY_CTRL_COUNT : Fld := ⟨SILT_COPY_CTRL, 16, 10⟩
/-- Table 15.11. -/
def FRZ_CFG_LIMIT : Fld := ⟨FRZ_CFG, 0, 9⟩
/-- Table 15.11. -/
def FRZ_CFG_PIN_EN : Fld := ⟨FRZ_CFG, 9, 1⟩
/-- Table 15.11. -/
def FRZ_CFG_PIN_THAW : Fld := ⟨FRZ_CFG, 10, 1⟩
/-- Table 15.11. -/
def FRZ_CTRL_THAW : Fld := ⟨FRZ_CTRL, 0, 1⟩
/-- Table 15.11. -/
def FRZ_STAT_FROZEN : Fld := ⟨FRZ_STAT, 0, 1⟩
/-- Table 15.11. -/
def FRZ_STAT_CAUSE : Fld := ⟨FRZ_STAT, 1, 3⟩
/-- Table 15.11. -/
def FRZ_STAT_SC : Fld := ⟨FRZ_STAT, 4, 5⟩
/-- Table 15.11. -/
def FRZ_STAT_F3_THAW : Fld := ⟨FRZ_STAT, 9, 1⟩
/-- Table 15.11. -/
def FRZ_STAT_COUNT : Fld := ⟨FRZ_STAT, 16, 16⟩
/-- Table 15.11. -/
def FRZ_CNT_IGNORED : Fld := ⟨FRZ_CNT, 0, 16⟩
/-- Table 15.11. -/
def FRZ_CNT_THAW_REFUSED : Fld := ⟨FRZ_CNT, 16, 16⟩
/-- Table 15.11. -/
def DBG_HALTS_COUNT : Fld := ⟨DBG_HALTS, 0, 9⟩
/-- Table 09.5. -/
def TKO_STAT_SPARE (p : Spire) : Fld := ⟨TKO_STAT p, 0, 5⟩
/-- Table 09.5. -/
def TKO_STAT_AGENT (p : Spire) : Fld := ⟨TKO_STAT p, 5, 2⟩
/-- Table 09.5. -/
def TKO_STAT_BITES (p : Spire) : Fld := ⟨TKO_STAT p, 8, 2⟩
/-- Table 09.5. -/
def TKO_STAT_LIMP (p : Spire) : Fld := ⟨TKO_STAT p, 16, 16⟩
/-- Table 09.5. -/
def TKO_RETIRED_ENG (p : Spire) : Fld := ⟨TKO_RETIRED p, 0, 17⟩
/-- Table 09.5. -/
def TKO_CNT_TAKEOVERS (p : Spire) : Fld := ⟨TKO_CNT p, 0, 8⟩
/-- Table 09.5. -/
def TKO_CNT_LIMPS (p : Spire) : Fld := ⟨TKO_CNT p, 8, 8⟩
/-- Table 09.5. -/
def TKO_CNT_RETURNS (p : Spire) : Fld := ⟨TKO_CNT p, 16, 8⟩
/-- Table 09.5. -/
def TKO_CNT_ROLE_CHANGED (p : Spire) : Fld := ⟨TKO_CNT p, 24, 8⟩
/-- Table 09.5. -/
def TKO_SEL_ENGINE (p : Spire) : Fld := ⟨TKO_SEL p, 0, 5⟩
/-- Table 09.6. -/
def TKO_LIMP_CFG_OFF (p : Spire) : Fld := ⟨TKO_LIMP_CFG p, 0, 16⟩
/-- Table 09.6. -/
def TKO_LIMP_CFG_ON_DEF (p : Spire) : Fld := ⟨TKO_LIMP_CFG p, 16, 8⟩
/-- Table 09.6. -/
def TKO_CTRL_CHAN (p : Spire) : Fld := ⟨TKO_CTRL p, 0, 4⟩
/-- Table 09.6. -/
def TKO_CTRL_HANDBACK (p : Spire) : Fld := ⟨TKO_CTRL p, 4, 1⟩
/-- Table 16.4. -/
def RV_CFG_SLAVE : Fld := ⟨RV_CFG, 0, 1⟩
/-- Table 16.4. -/
def RV_CFG_REMOTE_F3 : Fld := ⟨RV_CFG, 1, 1⟩
/-- Table 16.4. -/
def RV_CFG_F2_OUT : Fld := ⟨RV_CFG, 2, 1⟩
/-- Table 16.4. -/
def RV_CFG_CABLE_NS : Fld := ⟨RV_CFG, 8, 8⟩
/-- Table 16.4. -/
def RV_STAT_ROLE : Fld := ⟨RV_STAT, 0, 2⟩
/-- Table 16.4. -/
def RV_STAT_HEAD_STRAP : Fld := ⟨RV_STAT, 2, 1⟩
/-- Table 16.4. -/
def RV_STAT_STBY_STRAP : Fld := ⟨RV_STAT, 3, 1⟩
/-- Table 16.4. -/
def RV_STAT_A_UP : Fld := ⟨RV_STAT, 4, 1⟩
/-- Table 16.4. -/
def RV_STAT_B_UP : Fld := ⟨RV_STAT, 5, 1⟩
/-- Table 16.4. -/
def RV_STAT_WRAP : Fld := ⟨RV_STAT, 6, 1⟩
/-- Table 16.4. -/
def RV_STAT_SLAVED : Fld := ⟨RV_STAT, 7, 1⟩
/-- Table 16.4. -/
def RV_STAT_LOCKED : Fld := ⟨RV_STAT, 8, 1⟩
/-- Table 16.4. -/
def RV_STAT_APPROX : Fld := ⟨RV_STAT, 9, 1⟩
/-- Table 16.4. -/
def RV_STAT_POS : Fld := ⟨RV_STAT, 16, 10⟩
/-- Table 16.4. -/
def RV_RING_N : Fld := ⟨RV_RING, 0, 11⟩
/-- Table 16.4. -/
def RV_TOK_SET_SET : Fld := ⟨RV_TOK_SET, 0, 16⟩
/-- Table 16.4. -/
def RV_TOK_EN_EN : Fld := ⟨RV_TOK_EN, 0, 16⟩
/-- Table 16.4. -/
def RV_TOK_EN_SEQ : Fld := ⟨RV_TOK_EN, 16, 16⟩
/-- Table 16.4. -/
def RV_TOK_RES_RES : Fld := ⟨RV_TOK_RES, 0, 16⟩
/-- Table 16.4. -/
def RV_CNT_CRC_ERR : Fld := ⟨RV_CNT, 0, 8⟩
/-- Table 16.4. -/
def RV_CNT_LOST : Fld := ⟨RV_CNT, 8, 8⟩
/-- Table 16.4. -/
def RV_CNT_MAIL_DROP : Fld := ⟨RV_CNT, 16, 8⟩
/-- Table 16.4. -/
def RV_CNT_HOP_ERR : Fld := ⟨RV_CNT, 24, 8⟩
/-- Table 17.9. -/
def OTP_CMD_OP : Fld := ⟨OTP_CMD, 0, 3⟩
/-- Table 17.9. -/
def OTP_CMD_ARRAY : Fld := ⟨OTP_CMD, 4, 2⟩
/-- Table 17.9. -/
def OTP_CMD_MARGIN : Fld := ⟨OTP_CMD, 6, 2⟩
/-- Table 17.9. -/
def OTP_CMD_ADDR : Fld := ⟨OTP_CMD, 8, 12⟩
/-- Table 17.9. -/
def OTP_STAT_BUSY : Fld := ⟨OTP_STAT, 0, 1⟩
/-- Table 17.9. -/
def OTP_STAT_RESULT : Fld := ⟨OTP_STAT, 1, 3⟩
/-- Table 17.9. -/
def OTP_SCAN_FIRST : Fld := ⟨OTP_SCAN, 0, 12⟩
/-- Table 17.9. -/
def OTP_SCAN_WEAK : Fld := ⟨OTP_SCAN, 16, 12⟩
/-- Table 17.9. -/
def OTP_INTEG_CFG_PASS : Fld := ⟨OTP_INTEG, 0, 4⟩
/-- Table 17.9. -/
def OTP_INTEG_CFG_UNREAD : Fld := ⟨OTP_INTEG, 4, 1⟩
/-- Table 17.9. -/
def OTP_INTEG_PATCH_PRESENT : Fld := ⟨OTP_INTEG, 5, 1⟩
/-- Table 17.9. -/
def OTP_INTEG_PATCH_OK : Fld := ⟨OTP_INTEG, 6, 1⟩
/-- Table 17.9. -/
def OTP_INTEG_TRIM_FAIL : Fld := ⟨OTP_INTEG, 8, 8⟩
/-- Table 17.9. -/
def IMG_KEY_SEL_SLOT : Fld := ⟨IMG_KEY_SEL, 0, 8⟩
/-- Table 17.9. -/
def IMG_KEY_CTRL_LOAD : Fld := ⟨IMG_KEY_CTRL, 0, 1⟩
/-- Table 17.9. -/
def IMG_KEY_STAT_INSTALLED : Fld := ⟨IMG_KEY_STAT, 0, 4⟩
/-- Table 17.9. -/
def IMG_KEY_STAT_ANSWER : Fld := ⟨IMG_KEY_STAT, 8, 8⟩
/-- Table 17.9. -/
def UNLK_STAT_ACTIVE : Fld := ⟨UNLK_STAT, 0, 1⟩
/-- Table 17.9. -/
def UNLK_STAT_ANSWER : Fld := ⟨UNLK_STAT, 8, 8⟩
/-- Table 17.10. -/
def TW_CFG_PEC_REQ : Fld := ⟨TW_CFG, 0, 1⟩
/-- Table 17.10. -/
def TW_CFG_TIMEOUT_EN : Fld := ⟨TW_CFG, 1, 1⟩
/-- Table 17.10. -/
def TW_STAT_ADDR : Fld := ⟨TW_STAT, 0, 3⟩
/-- Table 17.10. -/
def TW_STAT_LAST_RESULT : Fld := ⟨TW_STAT, 8, 8⟩
/-- Table 17.10. -/
def TW_CNT_PEC_FAIL : Fld := ⟨TW_CNT, 0, 8⟩
/-- Table 17.10. -/
def TW_CNT_TIMEOUTS : Fld := ⟨TW_CNT, 8, 8⟩
/-- Table 17.10. -/
def TW_CNT_BUSY : Fld := ⟨TW_CNT, 16, 8⟩
/-- Table 17.10. -/
def TW_CNT_REFUSED : Fld := ⟨TW_CNT, 24, 8⟩
/-- Table 03.13. -/
def GNSS_BAUD_RATE (n : Fin 2) : Fld := ⟨GNSS_BAUD n, 0, 22⟩
/-- Table 03.13. -/
def GNSS_MODE_FORMAT (n : Fin 2) : Fld := ⟨GNSS_MODE n, 0, 2⟩
/-- Table 03.13. -/
def GNSS_MODE_CKSUM_REQ (n : Fin 2) : Fld := ⟨GNSS_MODE n, 2, 1⟩
/-- Table 03.13. -/
def GNSS_CNT0_FRAMING (n : Fin 2) : Fld := ⟨GNSS_CNT0 n, 0, 16⟩
/-- Table 03.13. -/
def GNSS_CNT0_EARLY (n : Fin 2) : Fld := ⟨GNSS_CNT0 n, 16, 16⟩
/-- Table 03.13. -/
def GNSS_CNT1_BAD (n : Fin 2) : Fld := ⟨GNSS_CNT1 n, 0, 16⟩
/-- Table 03.13. -/
def GNSS_CNT1_GOOD (n : Fin 2) : Fld := ⟨GNSS_CNT1 n, 16, 16⟩
/-- Table 06.9. -/
def CH_ENG_CTRL_RUN (c : Ch) : Fld := ⟨CH_ENG_CTRL c, 0, 1⟩
/-- Table 06.9. -/
def CH_ENG_CTRL_ISTRM_EN (c : Ch) : Fld := ⟨CH_ENG_CTRL c, 1, 1⟩
/-- Table 06.9. -/
def CH_ENG_CTRL_VSTRM_EN (c : Ch) : Fld := ⟨CH_ENG_CTRL c, 2, 1⟩
/-- Table 06.9. -/
def CH_ENG_CTRL_ISTRM_THR (c : Ch) : Fld := ⟨CH_ENG_CTRL c, 8, 6⟩
/-- Table 06.10. -/
def CH_ENG_STAT_LOADED (c : Ch) : Fld := ⟨CH_ENG_STAT c, 0, 1⟩
/-- Table 06.10. -/
def CH_ENG_STAT_RUNNING (c : Ch) : Fld := ⟨CH_ENG_STAT c, 1, 1⟩
/-- Table 06.10. -/
def CH_ENG_STAT_LAT_ENGINE (c : Ch) : Fld := ⟨CH_ENG_STAT c, 2, 1⟩
/-- Table 06.10. -/
def CH_ENG_STAT_IN_LOCK (c : Ch) : Fld := ⟨CH_ENG_STAT c, 3, 1⟩
/-- Table 06.10. -/
def CH_ENG_STAT_STRM_OVF (c : Ch) : Fld := ⟨CH_ENG_STAT c, 4, 1⟩
/-- Table 06.10. -/
def CH_ENG_STAT_EXC (c : Ch) : Fld := ⟨CH_ENG_STAT c, 8, 4⟩
/-- Table 06.10. -/
def CH_ENG_STAT_EXC_PC (c : Ch) : Fld := ⟨CH_ENG_STAT c, 12, 11⟩
/-- Table 06.11. -/
def CH_ENG_CNT_MISSED (c : Ch) : Fld := ⟨CH_ENG_CNT c, 0, 8⟩
/-- Table 06.11. -/
def CH_ENG_CNT_IMPL (c : Ch) : Fld := ⟨CH_ENG_CNT c, 8, 8⟩
/-- Table 06.11. -/
def CH_ENG_CNT_FENCED (c : Ch) : Fld := ⟨CH_ENG_CNT c, 16, 8⟩
/-- Table 06.11. -/
def CH_ENG_CNT_CKSKIP (c : Ch) : Fld := ⟨CH_ENG_CNT c, 24, 8⟩
/-- Table 05.6. -/
def CH_STAGE_CFG_ENABLE (c : Ch) : Fld := ⟨CH_STAGE_CFG c, 0, 1⟩
/-- Table 05.6. -/
def CH_STAGE_CFG_TOPO (c : Ch) : Fld := ⟨CH_STAGE_CFG c, 1, 3⟩
/-- Table 05.6. -/
def CH_STAGE_CFG_ROLE (c : Ch) : Fld := ⟨CH_STAGE_CFG c, 4, 2⟩
/-- Table 05.6. -/
def CH_STAGE_CFG_SAFE (c : Ch) : Fld := ⟨CH_STAGE_CFG c, 6, 1⟩
/-- Table 05.6. -/
def CH_STAGE_CFG_FRZ (c : Ch) : Fld := ⟨CH_STAGE_CFG c, 7, 1⟩
/-- Table 05.6. -/
def CH_STAGE_CFG_RANGE (c : Ch) : Fld := ⟨CH_STAGE_CFG c, 8, 2⟩
/-- Table 05.6. -/
def CH_STAGE_CFG_SNS (c : Ch) : Fld := ⟨CH_STAGE_CFG c, 10, 3⟩
/-- Table 05.7. -/
def CH_PWM_PERIOD (c : Ch) : Fld := ⟨CH_PWM c, 0, 14⟩
/-- Table 05.7. -/
def CH_PWM_DEADTIME (c : Ch) : Fld := ⟨CH_PWM c, 16, 8⟩
/-- Table 05.7. -/
def CH_PWM_SOFT_STEP (c : Ch) : Fld := ⟨CH_PWM c, 24, 8⟩
/-- Table 05.8. -/
def CH_ILIM_PEAK_MA (c : Ch) : Fld := ⟨CH_ILIM c, 0, 16⟩
/-- Table 05.9. -/
def CH_HICCUP_COUNT (c : Ch) : Fld := ⟨CH_HICCUP c, 0, 8⟩
/-- Table 05.9. -/
def CH_HICCUP_OFF_MS (c : Ch) : Fld := ⟨CH_HICCUP c, 8, 8⟩
/-- Table 05.10. -/
def CH_FRZ_HOLD_IMAX (c : Ch) : Fld := ⟨CH_FRZ_HOLD c, 0, 14⟩
/-- Table 05.10. -/
def CH_FRZ_HOLD_TOFF (c : Ch) : Fld := ⟨CH_FRZ_HOLD c, 16, 4⟩
/-- Table 05.11. -/
def CH_SNS_CFG_FILT (c : Ch) : Fld := ⟨CH_SNS_CFG c, 0, 8⟩
/-- Table 05.11. -/
def CH_SNS_CFG_EDGE (c : Ch) : Fld := ⟨CH_SNS_CFG c, 8, 1⟩
/-- Table 05.12. -/
def CH_LEG_A_OK (c : Ch) : Fld := ⟨CH_LEG c, 0, 1⟩
/-- Table 05.12. -/
def CH_LEG_B_OK (c : Ch) : Fld := ⟨CH_LEG c, 1, 1⟩
/-- Table 05.12. -/
def CH_LEG_A_WHY (c : Ch) : Fld := ⟨CH_LEG c, 2, 2⟩
/-- Table 05.12. -/
def CH_LEG_B_WHY (c : Ch) : Fld := ⟨CH_LEG c, 4, 2⟩
/-- Table 05.12. -/
def CH_LEG_A_RESTORES (c : Ch) : Fld := ⟨CH_LEG c, 6, 2⟩
/-- Table 05.12. -/
def CH_LEG_B_RESTORES (c : Ch) : Fld := ⟨CH_LEG c, 8, 2⟩
/-- Table 05.12. -/
def CH_LEG_A_WORN (c : Ch) : Fld := ⟨CH_LEG c, 10, 1⟩
/-- Table 05.12. -/
def CH_LEG_B_WORN (c : Ch) : Fld := ⟨CH_LEG c, 11, 1⟩
/-- Table 05.12. -/
def CH_LEG_STUCK (c : Ch) : Fld := ⟨CH_LEG c, 12, 1⟩
/-- Table 05.12. -/
def CH_LEG_RESTORE (c : Ch) : Fld := ⟨CH_LEG c, 16, 1⟩
/-- Table 05.13. -/
def CH_STAGE_STAT_ON (c : Ch) : Fld := ⟨CH_STAGE_STAT c, 0, 1⟩
/-- Table 05.13. -/
def CH_STAGE_STAT_HIGH_RANGE (c : Ch) : Fld := ⟨CH_STAGE_STAT c, 1, 1⟩
/-- Table 05.13. -/
def CH_STAGE_STAT_HICCUP (c : Ch) : Fld := ⟨CH_STAGE_STAT c, 2, 1⟩
/-- Table 05.13. -/
def CH_STAGE_STAT_PEAK_EXH (c : Ch) : Fld := ⟨CH_STAGE_STAT c, 3, 1⟩
/-- Table 05.13. -/
def CH_STAGE_STAT_LIMITING (c : Ch) : Fld := ⟨CH_STAGE_STAT c, 4, 1⟩
/-- Table 05.13. -/
def CH_STAGE_STAT_OPEN_LOAD (c : Ch) : Fld := ⟨CH_STAGE_STAT c, 5, 1⟩
/-- Table 05.13. -/
def CH_STAGE_STAT_SAFE (c : Ch) : Fld := ⟨CH_STAGE_STAT c, 6, 1⟩
/-- Table 05.13. -/
def CH_STAGE_STAT_LOCKED (c : Ch) : Fld := ⟨CH_STAGE_STAT c, 7, 1⟩
/-- Table 05.13. -/
def CH_STAGE_STAT_THERMAL (c : Ch) : Fld := ⟨CH_STAGE_STAT c, 8, 1⟩
/-- Table 05.13. -/
def CH_STAGE_STAT_LOST (c : Ch) : Fld := ⟨CH_STAGE_STAT c, 9, 1⟩
/-- Table 05.13. -/
def CH_STAGE_CNT_RCHG (c : Ch) : Fld := ⟨CH_STAGE_CNT c, 0, 16⟩
/-- Table 05.13. -/
def CH_STAGE_CNT_HICCUP (c : Ch) : Fld := ⟨CH_STAGE_CNT c, 16, 8⟩
/-- Table 05.13. -/
def CH_STAGE_CNT_LEGFLT (c : Ch) : Fld := ⟨CH_STAGE_CNT c, 24, 8⟩
/-- Table 05.14. -/
def CH_SNS_VAL_VAL (c : Ch) : Fld := ⟨CH_SNS_VAL c, 0, 17⟩
/-- Table 08.8. -/
def CH_RQ_CFG_DRY (c : Ch) : Fld := ⟨CH_RQ_CFG c, 0, 2⟩
/-- Table 08.8. -/
def CH_RQ_CFG_STILL_ZERO (c : Ch) : Fld := ⟨CH_RQ_CFG c, 2, 1⟩
/-- Table 08.8. -/
def CH_RQ_CFG_REV_ZERO (c : Ch) : Fld := ⟨CH_RQ_CFG c, 3, 1⟩
/-- Table 08.8. -/
def CH_RQ_CFG_STILL_V (c : Ch) : Fld := ⟨CH_RQ_CFG c, 4, 8⟩
/-- Table 08.8. -/
def CH_RQ_CFG_DRY_DIST (c : Ch) : Fld := ⟨CH_RQ_CFG c, 16, 16⟩
/-- Table 08.9. -/
def CH_RQ_STAT_COUNT (c : Ch) : Fld := ⟨CH_RQ_STAT c, 0, 7⟩
/-- Table 08.9. -/
def CH_RQ_STAT_ON (c : Ch) : Fld := ⟨CH_RQ_STAT c, 7, 1⟩
/-- Table 08.9. -/
def CH_RQ_STAT_KIND (c : Ch) : Fld := ⟨CH_RQ_STAT c, 8, 1⟩
/-- Table 08.9. -/
def CH_RQ_STAT_BND (c : Ch) : Fld := ⟨CH_RQ_STAT c, 9, 1⟩
/-- Table 08.9. -/
def CH_RQ_STAT_DRY (c : Ch) : Fld := ⟨CH_RQ_STAT c, 10, 1⟩
/-- Table 08.9. -/
def CH_RQ_STAT_STILL (c : Ch) : Fld := ⟨CH_RQ_STAT c, 11, 1⟩
/-- Table 08.9. -/
def CH_RQ_STAT_REV (c : Ch) : Fld := ⟨CH_RQ_STAT c, 12, 1⟩
/-- Table 08.9. -/
def CH_RQ_STAT_LATE (c : Ch) : Fld := ⟨CH_RQ_STAT c, 13, 1⟩
/-- Table 08.9. -/
def CH_RQ_STAT_ADV (c : Ch) : Fld := ⟨CH_RQ_STAT c, 16, 16⟩

end R

/-! ### Access codes and reset values -/

/-- ID, mode, host-port and ring words (Tables 18.1 to 18.3). -/
def regsHost : List RegRow := [
  ⟨0x0, 0x4, 1, 0x00000000, 0x00000000, 0x00000000, 0x00000000, 0x00000000, 0x00000256⟩,
  ⟨0x4, 0x4, 1, 0x00000000, 0x00000000, 0x00000000, 0x00000000, 0x00000000, 0x00000000⟩,
  ⟨0x8, 0x4, 3, 0x00000000, 0x00000000, 0x00000000, 0x00000000, 0x00000000, 0x00000000⟩,
  ⟨0x400, 0x4, 1, 0x00000000, 0x00000000, 0x00000000, 0x00000000, 0x00000000, 0x00000101⟩,
  ⟨0x404, 0x4, 1, 0x00000000, 0x00000000, 0x0000003F, 0x00000000, 0x00000000, 0x00000001⟩,
  ⟨0x408, 0x4, 1, 0x0001FFFF, 0x00000000, 0x00000000, 0x00000000, 0x00000000, 0x0001001E⟩,
  ⟨0x410, 0x4, 1, 0x00000000, 0x00000000, 0x00000000, 0x00000000, 0x00000000, 0x00000000⟩,
  ⟨0x414, 0x4, 1, 0x00000000, 0x00000000, 0x00000000, 0x00000000, 0x00000000, 0x00000000⟩,
  ⟨0x800, 0x4, 1, 0x00000000, 0x00000000, 0x00000000, 0x00000000, 0x00000000, 0x00000000⟩,
  ⟨0x804, 0x4, 1, 0x00000007, 0x00000000, 0x00000000, 0x00000000, 0x00000000, 0x00000007⟩,
  ⟨0x808, 0x4, 1, 0x00000000, 0x00000000, 0x00000000, 0xFFFFFFFF, 0x00000000, 0x00000000⟩,
  ⟨0x80c, 0x4, 1, 0x0000011F, 0x00000000, 0x00000000, 0x00000000, 0x00000000, 0x0000011F⟩,
  ⟨0x810, 0x4, 1, 0x00000000, 0x00000000, 0x00000000, 0x00000000, 0x00000000, 0x00000000⟩,
  ⟨0x814, 0x4, 1, 0x00000000, 0x00000000, 0x00000000, 0xFFFFFFFF, 0x00000000, 0x00000000⟩,
  ⟨0x818, 0x4, 1, 0x00000000, 0x00000000, 0x00000000, 0xFFFFFFFF, 0x00000000, 0x00000000⟩,
  ⟨0xa00, 0x40, 24, 0xFFFFFFFF, 0x00000000, 0x00000000, 0x00000000, 0x00000000, 0x00000000⟩,
  ⟨0xa04, 0x40, 24, 0xFFFFFFFF, 0x00000000, 0x00000000, 0x00000000, 0x00000000, 0x00000000⟩,
  ⟨0xa08, 0x40, 16, 0xFFFF1F7F, 0x00000000, 0x00000000, 0x00000000, 0x00000000, 0x00010004⟩,
  ⟨0xe08, 0x40, 2, 0xFFFF1F7F, 0x00000000, 0x00000000, 0x00000000, 0x00000000, 0x00010024⟩,
  ⟨0xe88, 0x40, 2, 0xFFFF1F7F, 0x00000000, 0x00000000, 0x00000000, 0x00000000, 0x00010044⟩,
  ⟨0xf08, 0x40, 1, 0xFFFF1F7F, 0x00000000, 0x00000000, 0x00000000, 0x00000000, 0x00010004⟩,
  ⟨0xf48, 0x40, 1, 0xFFFF1F7F, 0x00000000, 0x00000000, 0x00000000, 0x00000000, 0x00010104⟩,
  ⟨0xf88, 0x40, 1, 0xFFFF1F7F, 0x00000000, 0x00000000, 0x00000000, 0x00000000, 0x00010204⟩,
  ⟨0xfc8, 0x40, 1, 0xFFFF1F7F, 0x00000000, 0x00000000, 0x00000000, 0x00000000, 0x00010304⟩,
  ⟨0xa0c, 0x40, 24, 0x00000000, 0x00000000, 0x00000000, 0x00000000, 0x00000001, 0x00000000⟩,
  ⟨0xa10, 0x40, 24, 0x00000000, 0x00000000, 0x00000000, 0x00000000, 0x00000000, 0x00000008⟩,
  ⟨0xa14, 0x40, 24, 0x00000000, 0x00000000, 0x00000000, 0x00000000, 0x00000000, 0x00000000⟩,
  ⟨0xa18, 0x40, 24, 0x00000000, 0x00000000, 0x00000000, 0x00000000, 0x00000000, 0x00000000⟩,
  ⟨0xa1c, 0x40, 24, 0x00000000, 0x00000000, 0x00000000, 0xFFFFFFFF, 0x00000000, 0x00000000⟩,
  ⟨0xa20, 0x40, 24, 0x00000000, 0x00000000, 0x00000000, 0x00000000, 0x00000000, 0x00000000⟩]

/-- Arbiter, course and tick words (Tables 18.4 to 18.6). -/
def regsArbTick : List RegRow := [
  ⟨0x1000, 0x4, 1, 0x0000FFFF, 0x00000000, 0x00000000, 0x00000000, 0x00000000, 0x00001410⟩,
  ⟨0x1004, 0x4, 1, 0x00000001, 0x00000000, 0x00000000, 0x00000000, 0x00000000, 0x00000001⟩,
  ⟨0x1008, 0x4, 1, 0x00000000, 0x00000000, 0x00000000, 0x0000FF00, 0x00000000, 0x00000000⟩,
  ⟨0x1010, 0x4, 1, 0x00000000, 0x00000000, 0x00000000, 0x00000000, 0x00000000, 0x00000000⟩,
  ⟨0x1014, 0x4, 1, 0x00000000, 0x00000000, 0x00000000, 0x00000000, 0x00000000, 0x00000000⟩,
  ⟨0x1018, 0x4, 1, 0x00000001, 0x00000000, 0x00000000, 0x00000000, 0x00000000, 0x00000000⟩,
  ⟨0x101c, 0x4, 1, 0xFFFFFFFF, 0x00000000, 0x00000000, 0x00000000, 0x00000000, 0x00000000⟩,
  ⟨0x1020, 0x4, 1, 0x00000000, 0x00000000, 0x00000000, 0x00000000, 0x00000000, 0x00000000⟩,
  ⟨0x1024, 0x4, 1, 0x000001FF, 0x00000000, 0x00000000, 0x00000000, 0x00000000, 0x00000000⟩,
  ⟨0x1028, 0x4, 1, 0x01FFFFFF, 0x00000000, 0x00000000, 0x00000000, 0x00000000, 0x00000000⟩,
  ⟨0x102c, 0x4, 1, 0x00000000, 0x00000000, 0x00000000, 0xFFFF0000, 0x00000000, 0x00000000⟩,
  ⟨0x1100, 0x10, 24, 0x00000000, 0x00000000, 0x00000000, 0xFFFFFFFF, 0x00000000, 0x00000000⟩,
  ⟨0x1104, 0x10, 24, 0x00000000, 0x00000000, 0x00000000, 0xFFFFFFFF, 0x00000000, 0x00000000⟩,
  ⟨0x1108, 0x10, 24, 0x00000000, 0x00000000, 0x00000000, 0xFFFFFFFF, 0x00000000, 0x00000000⟩,
  ⟨0x110c, 0x10, 17, 0x00000003, 0x00000000, 0x00000000, 0x0000FF00, 0x00000000, 0x00000002⟩,
  ⟨0x121c, 0x10, 2, 0x00000003, 0x00000000, 0x00000000, 0x0000FF00, 0x00000000, 0x00000001⟩,
  ⟨0x123c, 0x10, 2, 0x00000003, 0x00000000, 0x00000000, 0x0000FF00, 0x00000000, 0x00000000⟩,
  ⟨0x125c, 0x10, 1, 0x00000003, 0x00000000, 0x00000000, 0x0000FF00, 0x00000000, 0x00000002⟩,
  ⟨0x126c, 0x10, 1, 0x00000003, 0x00000000, 0x00000000, 0x0000FF00, 0x00000000, 0x00000000⟩,
  ⟨0x127c, 0x10, 1, 0x00000003, 0x00000000, 0x00000000, 0x0000FF00, 0x00000000, 0x00000003⟩,
  ⟨0x1400, 0x4, 1, 0x00FFFFFF, 0x00000000, 0x00000000, 0x00000000, 0x00000000, 0x00140A00⟩,
  ⟨0x1404, 0x4, 1, 0xFFFFFFFF, 0x00000000, 0x00000000, 0x00000000, 0x00000000, 0x00587641⟩,
  ⟨0x1408, 0x4, 1, 0x00000000, 0x00000000, 0x00000000, 0x00000000, 0x00000000, 0x00000000⟩,
  ⟨0x140c, 0x4, 1, 0x00000000, 0x00000000, 0x00000000, 0x00000000, 0x00000001, 0x00000000⟩,
  ⟨0x1410, 0x4, 1, 0x00000000, 0x00000000, 0x00000000, 0x00000000, 0x00000000, 0x00000000⟩,
  ⟨0x1414, 0x4, 1, 0x00000000, 0x00000000, 0x00000000, 0x00000000, 0x00000000, 0x00000000⟩,
  ⟨0x1418, 0x4, 1, 0x00000000, 0x00000000, 0x00000000, 0x00000000, 0x00000000, 0x00000000⟩,
  ⟨0x141c, 0x4, 1, 0x00000000, 0x00000000, 0x00000000, 0x00000000, 0x00000000, 0x00000000⟩,
  ⟨0x1420, 0x4, 1, 0x00000000, 0x00000000, 0x00000000, 0x00000000, 0x00000000, 0x00000000⟩,
  ⟨0x1424, 0x4, 1, 0x00000000, 0x00000000, 0x00000000, 0x00000000, 0x00000000, 0x00000000⟩,
  ⟨0x1428, 0x4, 1, 0x00000000, 0x00000000, 0x00000000, 0x00000000, 0x00000000, 0x00000000⟩,
  ⟨0x1430, 0x4, 1, 0x00000000, 0x00000000, 0x00000000, 0x00000000, 0x00000000, 0x00000000⟩,
  ⟨0x1434, 0x4, 1, 0x00000000, 0x00000000, 0x00000000, 0x00000000, 0x00000000, 0x00000000⟩,
  ⟨0x1440, 0x4, 1, 0xFFFFFFFF, 0x00000000, 0x00000000, 0x00000000, 0x00000000, 0x00000000⟩,
  ⟨0x1444, 0x4, 1, 0xFFFFFFFF, 0x00000000, 0x00000000, 0x00000000, 0x00000000, 0x00000000⟩,
  ⟨0x1448, 0x4, 1, 0xFFFFFFFF, 0x00000000, 0x00000000, 0x00000000, 0x00000000, 0x00000000⟩,
  ⟨0x144c, 0x4, 1, 0xFFFFFF03, 0x00000000, 0x00000000, 0x00000000, 0x00000000, 0x01F40400⟩,
  ⟨0x1450, 0x4, 1, 0xFFFFFFFF, 0x00000000, 0x00000000, 0x00000000, 0x00000000, 0x00000000⟩,
  ⟨0x1454, 0x4, 1, 0xFFFFFFFF, 0x00000000, 0x00000000, 0x00000000, 0x00000000, 0x00000000⟩,
  ⟨0x1458, 0x4, 1, 0x0000FFFF, 0x00000000, 0x00000000, 0x00000000, 0x00000000, 0x000001F4⟩,
  ⟨0x1460, 0x4, 1, 0x0001FFFF, 0x00000000, 0x00000000, 0x00000000, 0x00000000, 0x00000000⟩,
  ⟨0x1464, 0x4, 1, 0xFFFFFFFF, 0x00000000, 0x00000000, 0x00000000, 0x00000000, 0x00000000⟩,
  ⟨0x1468, 0x4, 1, 0xFFFFFFFF, 0x00000000, 0x00000000, 0x00000000, 0x00000000, 0x264800C8⟩,
  ⟨0x146c, 0x4, 1, 0xFFFFFFFF, 0x00000000, 0x00000000, 0x00000000, 0x00000000, 0x00000000⟩,
  ⟨0x1470, 0x4, 1, 0xFFFFFFFF, 0x00000000, 0x00000000, 0x00000000, 0x00000000, 0x00000000⟩,
  ⟨0x1474, 0x4, 1, 0xFFFFFFFF, 0x00000000, 0x00000000, 0x00000000, 0x00000000, 0x00000000⟩,
  ⟨0x1478, 0x4, 1, 0xFFFFFFFF, 0x00000000, 0x00000000, 0x00000000, 0x00000000, 0x00FA03E8⟩,
  ⟨0x1480, 0x4, 1, 0xFFFFFFFF, 0x00000000, 0x00000000, 0x00000000, 0x00000000, 0x00000000⟩,
  ⟨0x1484, 0x4, 1, 0xFFFFFFFF, 0x00000000, 0x00000000, 0x00000000, 0x00000000, 0x00000000⟩,
  ⟨0x1488, 0x4, 1, 0xFFFFFFFF, 0x00000000, 0x00000000, 0x00000000, 0x00000000, 0x00000000⟩,
  ⟨0x148c, 0x4, 1, 0xFFFFFFFF, 0x00000000, 0x00000000, 0x00000000, 0x00000000, 0x00000000⟩,
  ⟨0x1490, 0x4, 1, 0xFFFFFFFF, 0x00000000, 0x00000000, 0x00000000, 0x00000000, 0x00000000⟩,
  ⟨0x1494, 0x4, 1, 0x0000000F, 0x00000000, 0x00000000, 0x00000000, 0x00000000, 0x00000000⟩,
  ⟨0x1498, 0x4, 1, 0x00000000, 0x00000000, 0x00000000, 0x00000000, 0x00000001, 0x00000000⟩,
  ⟨0x149c, 0x4, 1, 0xFFFFFFFF, 0x00000000, 0x00000000, 0x00000000, 0x00000000, 0x00FA0032⟩,
  ⟨0x14a0, 0x4, 1, 0xFFFF00FF, 0x00000000, 0x00000000, 0x00000000, 0x00000000, 0x01F40014⟩,
  ⟨0x14b0, 0x4, 1, 0x00000000, 0x00000000, 0x00000000, 0xFFFFFFFF, 0x00000000, 0x00000000⟩,
  ⟨0x1800, 0x4, 1, 0x00000000, 0x00000000, 0x00000000, 0x00000000, 0x00000000, 0x00000000⟩,
  ⟨0x1804, 0x4, 1, 0x00000000, 0x00000000, 0x00000000, 0x00000000, 0x00000000, 0x00000000⟩,
  ⟨0x1808, 0x4, 1, 0x00000000, 0x00000000, 0x00000000, 0x00000000, 0x00000000, 0x00000000⟩,
  ⟨0x180c, 0x4, 1, 0x00000000, 0x00000000, 0x00000000, 0x00000000, 0x00000000, 0x00000000⟩,
  ⟨0x1810, 0x4, 1, 0x00000000, 0x00000000, 0x00000000, 0x00000000, 0x000001FF, 0x00000000⟩,
  ⟨0x1818, 0x4, 1, 0xFFFFFFFF, 0x00000000, 0x00000000, 0x00000000, 0x00000000, 0x00000000⟩,
  ⟨0x181c, 0x4, 1, 0xFFFFFFFF, 0x00000000, 0x00000000, 0x00000000, 0x00000000, 0x00000000⟩,
  ⟨0x1820, 0x4, 1, 0x00000000, 0x00000000, 0x00000000, 0x00000000, 0x00000000, 0x00000000⟩,
  ⟨0x1824, 0x4, 1, 0x00000000, 0x00000000, 0x00000000, 0x00000000, 0x00000000, 0x00000000⟩,
  ⟨0x1828, 0x4, 1, 0x00000000, 0x00000000, 0x00000000, 0xFFFFFFFF, 0x00000000, 0x00000000⟩,
  ⟨0x1900, 0x20, 32, 0x00FFFFFF, 0x00000000, 0x07000000, 0x00000000, 0x00000000, 0x00000000⟩,
  ⟨0x1904, 0x20, 32, 0xFFFFFFFF, 0x00000000, 0x00000000, 0x00000000, 0x00000000, 0x00000002⟩,
  ⟨0x1908, 0x20, 32, 0xFFFFFFFF, 0x00000000, 0x00000000, 0x00000000, 0x00000000, 0x00000000⟩,
  ⟨0x190c, 0x20, 32, 0xFFFFFFFF, 0x00000000, 0x00000000, 0x00000000, 0x00000000, 0x00000000⟩,
  ⟨0x1910, 0x20, 32, 0x0000FFFF, 0x00000000, 0x00000000, 0x00000000, 0x00000000, 0x00000000⟩,
  ⟨0x1918, 0x20, 32, 0x00000000, 0x00000000, 0x00000000, 0x00000000, 0x00000000, 0x00000000⟩,
  ⟨0x191c, 0x20, 32, 0x00000000, 0x00000000, 0x00000000, 0x00000000, 0x00000000, 0x00000000⟩]

/-- Charger, pack and estimator words (Tables 18.7, 18.8). -/
def regsPack : List RegRow := [
  ⟨0x2000, 0x4, 1, 0x00000000, 0x0000003F, 0x00000000, 0x00000000, 0x00000000, 0x00000000⟩,
  ⟨0x2004, 0x4, 1, 0xFFFF0000, 0x0000FFFF, 0x00000000, 0x00000000, 0x00000000, 0x09C40E42⟩,
  ⟨0x2008, 0x4, 1, 0xFFFFFFFF, 0x00000000, 0x00000000, 0x00000000, 0x00000000, 0x0AF00D7A⟩,
  ⟨0x200c, 0x4, 1, 0x1F01FFFF, 0x00000000, 0x00000000, 0x00000000, 0x00000000, 0x0A0003E8⟩,
  ⟨0x2010, 0x4, 1, 0x0001FFFF, 0x00000000, 0x00000000, 0x00000000, 0x00000000, 0x00003A98⟩,
  ⟨0x2014, 0x4, 1, 0xFF01FFFF, 0x00000000, 0x00000000, 0x00000000, 0x00000000, 0x55012AF8⟩,
  ⟨0x2018, 0x4, 1, 0xFFFFFF01, 0x0000000C, 0x00000000, 0x00000000, 0x00000002, 0x3C1E140D⟩,
  ⟨0x201c, 0x4, 1, 0x00FFFFFF, 0x00000000, 0x00000000, 0x00000000, 0x00000000, 0x00642D00⟩,
  ⟨0x2020, 0x4, 1, 0x00000000, 0x00000000, 0x00000000, 0x00000000, 0x00000000, 0x00000000⟩,
  ⟨0x2024, 0x4, 1, 0x00000000, 0x00000000, 0x00000000, 0x00000000, 0x00000000, 0x00000000⟩,
  ⟨0x2028, 0x4, 1, 0xFFFFFFFF, 0x00000000, 0x00000000, 0x00000000, 0x00000000, 0x5C14BB80⟩,
  ⟨0x202c, 0x4, 1, 0x00000000, 0x0000FFFF, 0x00000000, 0x00000000, 0x00000000, 0x000001F4⟩,
  ⟨0x2030, 0x4, 1, 0x01FFFFFF, 0x00000000, 0x00000000, 0x00000000, 0x00000000, 0x00000BB8⟩,
  ⟨0x2034, 0x4, 1, 0xFFFFFFFF, 0x00000000, 0x00000000, 0x00000000, 0x00000000, 0x320207D0⟩,
  ⟨0x2038, 0x4, 1, 0x00000000, 0x00000000, 0x00000000, 0x00000000, 0x00000000, 0x00000100⟩,
  ⟨0x203c, 0x4, 1, 0x00000000, 0x00000000, 0x00000000, 0x00000000, 0x00000000, 0x00000000⟩,
  ⟨0x2040, 0x4, 1, 0x00000000, 0x00000000, 0x00000000, 0x00000000, 0x00000000, 0x00000000⟩,
  ⟨0x2048, 0x4, 8, 0xFFFFFFFF, 0x00000000, 0x00000000, 0x00000000, 0x00000000, 0x00000000⟩,
  ⟨0x2070, 0x4, 16, 0x00000000, 0x00000000, 0x00000000, 0x00000000, 0x00000000, 0x00000000⟩,
  ⟨0x20b0, 0x4, 1, 0x00000000, 0x00000000, 0x00000000, 0x00000000, 0x00000000, 0x00000000⟩,
  ⟨0x20b4, 0x4, 1, 0x00000000, 0x00000000, 0x00000000, 0x00000000, 0x00000000, 0x00000000⟩,
  ⟨0x20b8, 0x4, 1, 0x00000000, 0x00000000, 0x00000000, 0x00000000, 0x00000000, 0x00000000⟩,
  ⟨0x20bc, 0x4, 1, 0x00000000, 0x00000000, 0x00000000, 0x00000000, 0x00000000, 0x00000000⟩,
  ⟨0x20c0, 0x4, 1, 0x00000000, 0x00000000, 0x00000000, 0x00000000, 0x00000000, 0x00000000⟩,
  ⟨0x20c4, 0x4, 1, 0x00000000, 0x00000000, 0x00000000, 0x00000000, 0x00000000, 0x00000000⟩,
  ⟨0x20c8, 0x4, 1, 0xFFFFFFFF, 0x00000000, 0x00000000, 0x00000000, 0x00000000, 0x03E80D6B⟩,
  ⟨0x20cc, 0x4, 1, 0x00000000, 0xFFFFFFFF, 0x00000000, 0x00000000, 0x00000000, 0x01F40064⟩,
  ⟨0x20d0, 0x4, 1, 0x00000000, 0x00000000, 0x00000000, 0xFFFFFFFF, 0x00000000, 0x00000000⟩,
  ⟨0x2400, 0x4, 1, 0xFFFF0000, 0x0000FFFF, 0x00000000, 0x00000000, 0x00000000, 0x28322710⟩,
  ⟨0x2404, 0x4, 1, 0xFFFFFFFF, 0x00000000, 0x00000000, 0x00000000, 0x00000000, 0x010A0A1E⟩,
  ⟨0x2408, 0x4, 1, 0x00FFFFFF, 0x00000000, 0x00000000, 0x00000000, 0x00000000, 0x000F03E8⟩,
  ⟨0x240c, 0x4, 1, 0x00000000, 0x00000000, 0x00000000, 0x00000000, 0x00000000, 0x00000000⟩,
  ⟨0x2410, 0x4, 1, 0x00000000, 0x00000000, 0x00000000, 0x00000000, 0x00000000, 0x27102710⟩,
  ⟨0x2414, 0x4, 1, 0x00000000, 0x00000000, 0x00000000, 0x00000000, 0x00000000, 0x05F5E100⟩,
  ⟨0x2418, 0x4, 1, 0x00000000, 0x00000000, 0x00000000, 0x00000000, 0x00000000, 0x00000000⟩,
  ⟨0x241c, 0x4, 1, 0x00000000, 0x00000000, 0x00000000, 0x00000000, 0x00000000, 0x00000000⟩,
  ⟨0x2420, 0x4, 1, 0x00000000, 0x00000000, 0x00000000, 0x00000000, 0x00000000, 0x000003E8⟩,
  ⟨0x2424, 0x4, 1, 0x00000000, 0x00000000, 0x00000000, 0x00000000, 0x00000000, 0x00000000⟩,
  ⟨0x2428, 0x4, 1, 0x00000000, 0xFFFFFFFF, 0x00000000, 0x00000000, 0x00000000, 0x00000000⟩,
  ⟨0x242c, 0x4, 1, 0x00000000, 0x00000000, 0x00000000, 0x00000000, 0x00000000, 0x00000000⟩,
  ⟨0x2430, 0x4, 1, 0x00000000, 0x00000000, 0x00000000, 0xFFFFFFFF, 0x00000000, 0x00000000⟩,
  ⟨0x2440, 0x4, 1, 0x0000FFFF, 0x00000000, 0x00000000, 0x00000000, 0x00000000, 0x00000AF0⟩,
  ⟨0x2444, 0x4, 1, 0x0000FFFF, 0x00000000, 0x00000000, 0x00000000, 0x00000000, 0x00000C80⟩,
  ⟨0x2448, 0x4, 1, 0x0000FFFF, 0x00000000, 0x00000000, 0x00000000, 0x00000000, 0x00000CB2⟩,
  ⟨0x244c, 0x4, 1, 0x0000FFFF, 0x00000000, 0x00000000, 0x00000000, 0x00000000, 0x00000CC6⟩,
  ⟨0x2450, 0x4, 1, 0x0000FFFF, 0x00000000, 0x00000000, 0x00000000, 0x00000000, 0x00000CD0⟩,
  ⟨0x2454, 0x4, 1, 0x0000FFFF, 0x00000000, 0x00000000, 0x00000000, 0x00000000, 0x00000CD5⟩,
  ⟨0x2458, 0x4, 1, 0x0000FFFF, 0x00000000, 0x00000000, 0x00000000, 0x00000000, 0x00000CDA⟩,
  ⟨0x245c, 0x4, 1, 0x0000FFFF, 0x00000000, 0x00000000, 0x00000000, 0x00000000, 0x00000CEE⟩,
  ⟨0x2460, 0x4, 1, 0x0000FFFF, 0x00000000, 0x00000000, 0x00000000, 0x00000000, 0x00000CFD⟩,
  ⟨0x2464, 0x4, 1, 0x0000FFFF, 0x00000000, 0x00000000, 0x00000000, 0x00000000, 0x00000D0C⟩,
  ⟨0x2468, 0x4, 1, 0x0000FFFF, 0x00000000, 0x00000000, 0x00000000, 0x00000000, 0x00000D7A⟩,
  ⟨0x2480, 0x4, 1, 0x00000000, 0x00000000, 0x00000000, 0x00000000, 0x00000000, 0x00000000⟩,
  ⟨0x2484, 0x4, 1, 0x00000000, 0x00000000, 0x00000000, 0x00000000, 0x00000000, 0x00000000⟩,
  ⟨0x2488, 0x4, 1, 0x00000000, 0x00000000, 0x00000000, 0x00000000, 0x00000000, 0x00000000⟩,
  ⟨0x248c, 0x4, 1, 0x00000000, 0x00000000, 0x00000000, 0x00000000, 0x00000000, 0x00000000⟩,
  ⟨0x2490, 0x4, 1, 0x00000000, 0x00000000, 0x00000000, 0x00000000, 0x00000000, 0x00000000⟩,
  ⟨0x2494, 0x4, 1, 0x00000000, 0x00000000, 0x00000000, 0x00000000, 0x00000000, 0x00000000⟩,
  ⟨0x2498, 0x4, 1, 0x00000000, 0x00000000, 0x00000000, 0x00000000, 0x00000000, 0x00000000⟩,
  ⟨0x249c, 0x4, 1, 0x00000000, 0x00000000, 0x00000000, 0x00000000, 0x00000000, 0x00000000⟩,
  ⟨0x24a0, 0x4, 1, 0x00000000, 0x00000000, 0x00000000, 0x00000000, 0x00000000, 0x00000000⟩]

/-- Rail words (Table 18.9). -/
def regsRail : List RegRow := [
  ⟨0x2800, 0x4, 1, 0x00000000, 0x00000003, 0x00000000, 0x00000000, 0x00000000, 0x00000000⟩,
  ⟨0x2804, 0x4, 1, 0x00000000, 0x000103FF, 0x00000000, 0x00000000, 0x00000000, 0x00010001⟩,
  ⟨0x2808, 0x4, 1, 0x0000FF00, 0x000000FF, 0x00000000, 0x00000000, 0x00000000, 0x00000A32⟩,
  ⟨0x280c, 0x4, 1, 0x00000000, 0x00000000, 0x00000010, 0x00000000, 0x00000000, 0x00000000⟩,
  ⟨0x2810, 0x4, 1, 0x00000000, 0x00000000, 0x00000000, 0x00000000, 0x00000000, 0x00000000⟩,
  ⟨0x2814, 0x4, 1, 0x00000000, 0x00000000, 0x000003FF, 0x00000000, 0x00000000, 0x00000000⟩,
  ⟨0x2818, 0x4, 1, 0x00000000, 0x00000000, 0x00000000, 0x00000000, 0x00000000, 0x00000000⟩,
  ⟨0x2900, 0x40, 1, 0xFF000006, 0x00FFFF18, 0x00000000, 0x00000000, 0x00000000, 0x5A140A01⟩,
  ⟨0x2940, 0x40, 7, 0xFF000006, 0x00FFFF19, 0x00000000, 0x00000000, 0x00000000, 0x5A140A00⟩,
  ⟨0x2b00, 0x40, 2, 0x00000000, 0x00FF0019, 0x00000000, 0x00000000, 0x00000000, 0x00140000⟩,
  ⟨0x2904, 0x40, 1, 0x00000000, 0x00000000, 0x00000000, 0x00000000, 0x00000000, 0x00000000⟩,
  ⟨0x2944, 0x40, 7, 0x00000000, 0x0000FFFF, 0x00000000, 0x00000000, 0x00000000, 0x00000CE4⟩,
  ⟨0x2b04, 0x40, 2, 0x00000000, 0x0000FFFF, 0x00000000, 0x00000000, 0x00000000, 0x00001388⟩,
  ⟨0x2908, 0x40, 1, 0x00000000, 0xFFFF0000, 0x00000000, 0x00000000, 0x00000000, 0x14000000⟩,
  ⟨0x2948, 0x40, 9, 0x00000000, 0xFFFF07FF, 0x00000000, 0x00000000, 0x00000000, 0x14000001⟩,
  ⟨0x290c, 0x40, 10, 0xFFFFFFFF, 0x00000000, 0x00000000, 0x00000000, 0x00000000, 0x0A050A05⟩,
  ⟨0x2910, 0x40, 10, 0x0000FFFF, 0x00000000, 0x00000000, 0x00000000, 0x00000000, 0x00001410⟩,
  ⟨0x2914, 0x40, 8, 0xFFFFFFFF, 0x00000000, 0x00000000, 0x00000000, 0x00000000, 0x0BB807D0⟩,
  ⟨0x2b14, 0x40, 2, 0x00000000, 0x00000000, 0x00000000, 0x00000000, 0x00000000, 0x00000000⟩,
  ⟨0x2918, 0x40, 10, 0x00000001, 0x00000000, 0x00000000, 0x00000000, 0x00000000, 0x00000001⟩,
  ⟨0x291c, 0x40, 10, 0x00000000, 0x00000000, 0x00000000, 0x00000000, 0x00000000, 0x00000000⟩,
  ⟨0x2920, 0x40, 10, 0x00000000, 0x00000000, 0x00000000, 0x00000000, 0x00000000, 0x00000000⟩,
  ⟨0x2924, 0x40, 10, 0x00000000, 0x00000000, 0x00000000, 0x00000000, 0x00000000, 0x00000000⟩,
  ⟨0x2928, 0x40, 10, 0x00000000, 0x00000000, 0x00000000, 0x00000000, 0x00000000, 0x00000000⟩,
  ⟨0x292c, 0x40, 10, 0x00000000, 0x00000000, 0x00000000, 0xFFFFFFFF, 0x00000000, 0x00000000⟩]

/-- Housekeeping words (Table 18.10) below the results. -/
def regsHk1 : List RegRow := [
  ⟨0x2c00, 0x4, 1, 0x00000001, 0x00000000, 0x00000000, 0x00000000, 0x00000002, 0x00000000⟩,
  ⟨0x2c04, 0x4, 1, 0x00000000, 0x00000000, 0x00000008, 0x00000000, 0x00000000, 0x00000000⟩,
  ⟨0x2c08, 0x4, 1, 0x00000000, 0x00000000, 0x00000000, 0x00000000, 0x00000000, 0x00000000⟩,
  ⟨0x2c10, 0x4, 4, 0x00000000, 0x00000000, 0x00000000, 0x00000000, 0x00000000, 0x00008000⟩,
  ⟨0x2c20, 0x4, 1, 0x007F03FF, 0x00000000, 0x00000000, 0x00000000, 0x80000000, 0x00000000⟩,
  ⟨0x2c24, 0x4, 1, 0x00000000, 0x00000000, 0x00000000, 0x00000000, 0x00000000, 0x00000000⟩,
  ⟨0x2c28, 0x4, 1, 0x00000000, 0x00000000, 0x00000000, 0xFFFFFFFF, 0x00000000, 0x00000000⟩,
  ⟨0x2d00, 0x4, 1, 0x00000000, 0x00000000, 0x00000000, 0x00000000, 0x00000000, 0x00000F00⟩,
  ⟨0x2d04, 0x4, 1, 0x00000000, 0x00000000, 0x00000000, 0x00000000, 0x00000000, 0x00000F01⟩,
  ⟨0x2d08, 0x4, 1, 0x00000000, 0x00000000, 0x00000000, 0x00000000, 0x00000000, 0x00000F02⟩,
  ⟨0x2d0c, 0x4, 1, 0x00000000, 0x00000000, 0x00000000, 0x00000000, 0x00000000, 0x00000F03⟩,
  ⟨0x2d10, 0x4, 1, 0x00000000, 0x00000000, 0x00000000, 0x00000000, 0x00000000, 0x00000F04⟩,
  ⟨0x2d14, 0x4, 1, 0x00000000, 0x00000000, 0x00000000, 0x00000000, 0x00000000, 0x00000F05⟩,
  ⟨0x2d18, 0x4, 1, 0x00000000, 0x00000000, 0x00000000, 0x00000000, 0x00000000, 0x00000F06⟩,
  ⟨0x2d1c, 0x4, 1, 0x00000000, 0x00000000, 0x00000000, 0x00000000, 0x00000000, 0x00000F07⟩,
  ⟨0x2d20, 0x4, 1, 0x00000000, 0x00000000, 0x00000000, 0x00000000, 0x00000000, 0x00000F08⟩,
  ⟨0x2d24, 0x4, 1, 0x00000000, 0x00000000, 0x00000000, 0x00000000, 0x00000000, 0x00000F09⟩,
  ⟨0x2d28, 0x4, 1, 0x00000000, 0x00000000, 0x00000000, 0x00000000, 0x00000000, 0x00000F0A⟩,
  ⟨0x2d2c, 0x4, 1, 0x00000000, 0x00000000, 0x00000000, 0x00000000, 0x00000000, 0x00000F0B⟩,
  ⟨0x2d30, 0x4, 1, 0x00000000, 0x00000000, 0x00000000, 0x00000000, 0x00000000, 0x00000F0C⟩,
  ⟨0x2d34, 0x4, 1, 0x00000000, 0x00000000, 0x00000000, 0x00000000, 0x00000000, 0x00000F0D⟩,
  ⟨0x2d38, 0x4, 1, 0x00000000, 0x00000000, 0x00000000, 0x00000000, 0x00000000, 0x00000F0E⟩,
  ⟨0x2d3c, 0x4, 1, 0x00000000, 0x00000000, 0x00000000, 0x00000000, 0x00000000, 0x00000F0F⟩,
  ⟨0x2d40, 0x4, 1, 0x00000000, 0x00000000, 0x00000000, 0x00000000, 0x00000000, 0x00000F10⟩,
  ⟨0x2d44, 0x4, 1, 0x00000000, 0x00000000, 0x00000000, 0x00000000, 0x00000000, 0x00000F11⟩,
  ⟨0x2d48, 0x4, 1, 0x00000000, 0x00000000, 0x00000000, 0x00000000, 0x00000000, 0x00000F20⟩,
  ⟨0x2d4c, 0x4, 1, 0x00000000, 0x00000000, 0x00000000, 0x00000000, 0x00000000, 0x00000F21⟩,
  ⟨0x2d50, 0x4, 1, 0x00000000, 0x00000000, 0x00000000, 0x00000000, 0x00000000, 0x00000F22⟩,
  ⟨0x2d54, 0x4, 1, 0x00000000, 0x00000000, 0x00000000, 0x00000000, 0x00000000, 0x00000F23⟩,
  ⟨0x2d58, 0x4, 1, 0x00000000, 0x00000000, 0x00000000, 0x00000000, 0x00000000, 0x00000F24⟩,
  ⟨0x2d5c, 0x4, 1, 0x00000000, 0x00000000, 0x00000000, 0x00000000, 0x00000000, 0x00000F25⟩]

/-- Housekeeping words (Table 18.10) from entry 24 on. -/
def regsHk2 : List RegRow := [
  ⟨0x2d60, 0x4, 1, 0x00000000, 0x00000000, 0x00000000, 0x00000000, 0x00000000, 0x00000F26⟩,
  ⟨0x2d64, 0x4, 1, 0x00000000, 0x00000000, 0x00000000, 0x00000000, 0x00000000, 0x00000F27⟩,
  ⟨0x2d68, 0x4, 1, 0x00000000, 0x00000000, 0x00000000, 0x00000000, 0x00000000, 0x00000F28⟩,
  ⟨0x2d6c, 0x4, 1, 0x00000000, 0x00000000, 0x00000000, 0x00000000, 0x00000000, 0x00000F29⟩,
  ⟨0x2d70, 0x4, 1, 0x00000000, 0x00000000, 0x00000000, 0x00000000, 0x00000000, 0x00000F2A⟩,
  ⟨0x2d74, 0x4, 1, 0x00000000, 0x00000000, 0x00000000, 0x00000000, 0x00000000, 0x00000F2B⟩,
  ⟨0x2d78, 0x4, 1, 0x00000000, 0x00000000, 0x00000000, 0x00000000, 0x00000000, 0x00000F2C⟩,
  ⟨0x2d7c, 0x4, 1, 0x00000000, 0x00000000, 0x00000000, 0x00000000, 0x00000000, 0x00000F2D⟩,
  ⟨0x2d80, 0x4, 1, 0x00000000, 0x00000000, 0x00000000, 0x00000000, 0x00000000, 0x00000F2E⟩,
  ⟨0x2d84, 0x4, 1, 0x00000000, 0x00000000, 0x00000000, 0x00000000, 0x00000000, 0x00000F2F⟩,
  ⟨0x2d88, 0x4, 1, 0x00000000, 0x00000000, 0x00000000, 0x00000000, 0x00000000, 0x00000F30⟩,
  ⟨0x2d8c, 0x4, 1, 0x00000000, 0x00000000, 0x00000000, 0x00000000, 0x00000000, 0x00000F31⟩,
  ⟨0x2d90, 0x4, 1, 0x00000000, 0x00000000, 0x00000000, 0x00000000, 0x00000000, 0x00000F32⟩,
  ⟨0x2d94, 0x4, 1, 0x00000000, 0x00000000, 0x00000000, 0x00000000, 0x00000000, 0x00000F33⟩,
  ⟨0x2d98, 0x4, 1, 0x00000000, 0x00000000, 0x00000000, 0x00000000, 0x00000000, 0x00000F34⟩,
  ⟨0x2d9c, 0x4, 1, 0x00000000, 0x00000000, 0x00000000, 0x00000000, 0x00000000, 0x00000F35⟩,
  ⟨0x2da0, 0x4, 1, 0x00000000, 0x00000000, 0x00000000, 0x00000000, 0x00000000, 0x00000F36⟩,
  ⟨0x2da4, 0x4, 1, 0x00000000, 0x00000000, 0x00000000, 0x00000000, 0x00000000, 0x00000F37⟩,
  ⟨0x2da8, 0x4, 1, 0x00000000, 0x00000000, 0x00000000, 0x00000000, 0x00000000, 0x00000F38⟩,
  ⟨0x2dac, 0x4, 1, 0x00000000, 0x00000000, 0x00000000, 0x00000000, 0x00000000, 0x00000F39⟩,
  ⟨0x2db0, 0x4, 1, 0x00000000, 0x00000000, 0x00000000, 0x00000000, 0x00000000, 0x00000F3A⟩,
  ⟨0x2db4, 0x4, 1, 0x00000000, 0x00000000, 0x00000000, 0x00000000, 0x00000000, 0x00000F3B⟩,
  ⟨0x2db8, 0x4, 1, 0x00000000, 0x00000000, 0x00000000, 0x00000000, 0x00000000, 0x00000F3C⟩,
  ⟨0x2dbc, 0x4, 1, 0x00000000, 0x00000000, 0x00000000, 0x00000000, 0x00000000, 0x00000F3D⟩,
  ⟨0x2dc0, 0x4, 1, 0x00000000, 0x00000000, 0x00000000, 0x00000000, 0x00000000, 0x00000F3E⟩,
  ⟨0x2dc4, 0x4, 1, 0x00000000, 0x00000000, 0x00000000, 0x00000000, 0x00000000, 0x00000F3F⟩,
  ⟨0x2dc8, 0x4, 1, 0x00000000, 0x00000000, 0x00000000, 0x00000000, 0x00000000, 0x00000F40⟩,
  ⟨0x2dcc, 0x4, 1, 0x00000000, 0x00000000, 0x00000000, 0x00000000, 0x00000000, 0x00000F41⟩,
  ⟨0x2dd0, 0x4, 1, 0x00000000, 0x00000000, 0x00000000, 0x00000000, 0x00000000, 0x00000F12⟩,
  ⟨0x2dd4, 0x4, 1, 0x00000000, 0x00000000, 0x00000000, 0x00000000, 0x00000000, 0x00000F13⟩,
  ⟨0x2dd8, 0x4, 1, 0x00000000, 0x00000000, 0x00000000, 0x00000000, 0x00000000, 0x00000F53⟩,
  ⟨0x2ddc, 0x4, 1, 0x00000000, 0x00000000, 0x00000000, 0x00000000, 0x00000000, 0x00000F52⟩,
  ⟨0x2de0, 0x4, 8, 0xFFFFFF7F, 0x00000000, 0x00000000, 0x00000000, 0x00000000, 0x00000F7F⟩,
  ⟨0x2e00, 0x4, 64, 0x00000000, 0x00000000, 0x00000000, 0x00000000, 0x00000000, 0x00000000⟩]

/-- Thermal, fault, freeze and takeover words (Tables 18.10 to 18.12). -/
def regsThmFlt : List RegRow := [
  ⟨0x3000, 0x4, 17, 0x00000000, 0x00000000, 0x00000000, 0x00000000, 0x00000000, 0x00000000⟩,
  ⟨0x3044, 0x4, 17, 0x00000000, 0x00000000, 0x00000000, 0x00000000, 0x00000000, 0x00000000⟩,
  ⟨0x3100, 0x4, 34, 0xFFFFFFFF, 0x00000000, 0x00000000, 0x00000000, 0x00000000, 0x06400280⟩,
  ⟨0x3200, 0x4, 34, 0x00000000, 0x00000000, 0x00000000, 0x00000000, 0x00000000, 0x00000000⟩,
  ⟨0x3300, 0x4, 1, 0x0000FFFF, 0x00000000, 0x00000000, 0x00000000, 0x00000000, 0x00000A80⟩,
  ⟨0x3304, 0x4, 1, 0x00000000, 0x00000000, 0x00000000, 0xFFFFFFFF, 0x00000000, 0x00000000⟩,
  ⟨0x3400, 0x4, 1, 0x00000000, 0x00000000, 0x01000000, 0x00000000, 0x00000000, 0x007F0000⟩,
  ⟨0x3410, 0x4, 4, 0x00000000, 0x00000000, 0xFFFFFFFF, 0x00000000, 0x00000000, 0x00000000⟩,
  ⟨0x3420, 0x4, 4, 0x00000000, 0x00000000, 0xFFFFFFFF, 0x00000000, 0x00000000, 0x00000000⟩,
  ⟨0x3430, 0x4, 1, 0x00000000, 0x00000000, 0x00000000, 0xFFFFFFFF, 0x00000000, 0x00000000⟩,
  ⟨0x3434, 0x4, 1, 0x3FFF000F, 0x00000000, 0x00000000, 0x00000000, 0x00000000, 0x0064000C⟩,
  ⟨0x3438, 0x4, 1, 0x00000001, 0x00000000, 0x00000000, 0x0000FF00, 0x00000000, 0x00000000⟩,
  ⟨0x3440, 0x4, 1, 0x00000000, 0x00000000, 0x00000000, 0x00000000, 0x00000000, 0x00000000⟩,
  ⟨0x3444, 0x4, 1, 0x00000000, 0x00000000, 0x00000000, 0xFFFFFFFF, 0x00000000, 0x00000000⟩,
  ⟨0x3448, 0x4, 1, 0x00000000, 0x00000000, 0x00000000, 0x00000000, 0x00000000, 0x00000000⟩,
  ⟨0x3450, 0x4, 1, 0xFFFFFFFF, 0x00000000, 0x00000000, 0x00000000, 0x00000000, 0x00000000⟩,
  ⟨0x3454, 0x4, 1, 0x00000000, 0x00000000, 0x00000000, 0x00000000, 0x00000005, 0x00000000⟩,
  ⟨0x3500, 0x4, 1, 0x000005FF, 0x00000200, 0x00000000, 0x00000000, 0x00000000, 0x00000632⟩,
  ⟨0x3504, 0x4, 1, 0x00000000, 0x00000000, 0x00000000, 0x00000000, 0x00000001, 0x00000000⟩,
  ⟨0x3508, 0x4, 1, 0x00000000, 0x00000000, 0x00000000, 0x00000000, 0x00000000, 0x00000000⟩,
  ⟨0x3510, 0x4, 1, 0x00000000, 0x00000000, 0x00000000, 0x00000000, 0x00000000, 0x00000000⟩,
  ⟨0x3514, 0x4, 1, 0x00000000, 0x00000000, 0x00000000, 0x00000000, 0x00000000, 0x00000000⟩,
  ⟨0x3518, 0x4, 1, 0x00000000, 0x00000000, 0x00000000, 0x00000000, 0x00000000, 0x00000000⟩,
  ⟨0x351c, 0x4, 1, 0x00000000, 0x00000000, 0x00000000, 0x00000000, 0x00000000, 0x00000000⟩,
  ⟨0x3520, 0x4, 1, 0x00000000, 0x00000000, 0x00000000, 0x00000000, 0x00000000, 0x00050000⟩,
  ⟨0x3524, 0x4, 1, 0x00000000, 0x00000000, 0x00000000, 0xFFFFFFFF, 0x00000000, 0x00000000⟩,
  ⟨0x3530, 0x4, 1, 0x00000000, 0x00000000, 0x00000000, 0x00000000, 0x00000000, 0x00000000⟩,
  ⟨0x3600, 0x20, 16, 0x00000000, 0x00000000, 0x00000000, 0x00000000, 0x00000000, 0x00000010⟩,
  ⟨0x3604, 0x20, 16, 0x00000000, 0x00000000, 0x00000000, 0x00000000, 0x00000000, 0x00000000⟩,
  ⟨0x3608, 0x20, 16, 0x00000000, 0x00000000, 0x00000000, 0xFFFFFFFF, 0x00000000, 0x00000000⟩,
  ⟨0x360c, 0x20, 16, 0x0000001F, 0x00000000, 0x00000000, 0x00000000, 0x00000000, 0x00000000⟩,
  ⟨0x3610, 0x20, 16, 0x00000000, 0x00000000, 0x00000000, 0x00000000, 0x00000000, 0x00000000⟩,
  ⟨0x3614, 0x20, 16, 0x00FFFFFF, 0x00000000, 0x00000000, 0x00000000, 0x00000000, 0x00400000⟩,
  ⟨0x3618, 0x20, 16, 0x00000000, 0x00000000, 0x00000000, 0x00000000, 0x0000001F, 0x00000000⟩]

/-- River ring, OTP, two-wire and UART words (Tables 18.13 to 18.15). -/
def regsTop : List RegRow := [
  ⟨0x3800, 0x4, 1, 0x0000FF06, 0x00000001, 0x00000000, 0x00000000, 0x00000000, 0x00002805⟩,
  ⟨0x3804, 0x4, 1, 0x00000000, 0x00000000, 0x00000000, 0x00000000, 0x00000000, 0x00000000⟩,
  ⟨0x3808, 0x4, 1, 0x00000000, 0x00000000, 0x00000000, 0x00000000, 0x00000000, 0x00000000⟩,
  ⟨0x380c, 0x4, 1, 0x00000000, 0x00000000, 0x00000000, 0x00000000, 0x00000000, 0x00000000⟩,
  ⟨0x3810, 0x4, 1, 0x00000000, 0x00000000, 0x00000000, 0x00000000, 0x00000000, 0x00000000⟩,
  ⟨0x3814, 0x4, 1, 0x00000000, 0x00000000, 0x00000000, 0x00000000, 0x00000000, 0x00000000⟩,
  ⟨0x3818, 0x4, 1, 0x00000000, 0x00000000, 0x00000000, 0x00000000, 0x00000000, 0x00000000⟩,
  ⟨0x381c, 0x4, 1, 0x00000000, 0x00000000, 0x00000000, 0x00000000, 0x00000000, 0x00000000⟩,
  ⟨0x3820, 0x4, 1, 0x0000FFFF, 0x00000000, 0x00000000, 0x00000000, 0x00000000, 0x00000000⟩,
  ⟨0x3824, 0x4, 1, 0xFFFFFFFF, 0x00000000, 0x00000000, 0x00000000, 0x00000000, 0x00000000⟩,
  ⟨0x3828, 0x4, 1, 0x00000000, 0x00000000, 0x00000000, 0x00000000, 0x00000000, 0x00000000⟩,
  ⟨0x382c, 0x4, 1, 0x00000000, 0x00000000, 0x00000000, 0xFFFFFFFF, 0x00000000, 0x00000000⟩,
  ⟨0x3c00, 0x4, 1, 0x00000000, 0x00000000, 0x00000000, 0x00000000, 0x000FFFF7, 0x00000000⟩,
  ⟨0x3c04, 0x4, 1, 0x00000000, 0x00000000, 0x00000000, 0x00000000, 0x00000000, 0x00000000⟩,
  ⟨0x3c08, 0x4, 1, 0x00000000, 0x00000000, 0x00000000, 0x00000000, 0x00000000, 0x00000000⟩,
  ⟨0x3c0c, 0x4, 1, 0x00000000, 0x00000000, 0x00000000, 0x00000000, 0x00000000, 0x00000000⟩,
  ⟨0x3c10, 0x4, 1, 0x00000000, 0x00000000, 0x00000000, 0x00000000, 0x00000000, 0x00000000⟩,
  ⟨0x3c14, 0x4, 1, 0x00000000, 0x00000000, 0x00000000, 0x00000000, 0x00000000, 0x00000000⟩,
  ⟨0x3c40, 0x4, 31, 0xFFFFFFFF, 0x00000000, 0x00000000, 0x00000000, 0x00000000, 0x00000000⟩,
  ⟨0x3d00, 0x4, 1, 0x000000FF, 0x00000000, 0x00000000, 0x00000000, 0x00000000, 0x00000000⟩,
  ⟨0x3d04, 0x4, 1, 0x00000000, 0x00000000, 0x00000000, 0x00000000, 0x00000001, 0x00000000⟩,
  ⟨0x3d08, 0x4, 1, 0x00000000, 0x00000000, 0x00000000, 0x00000000, 0x00000000, 0x00000000⟩,
  ⟨0x3d40, 0x4, 16, 0xFFFFFFFF, 0x00000000, 0x00000000, 0x00000000, 0x00000000, 0x00000000⟩,
  ⟨0x3e00, 0x4, 4, 0x00000000, 0x00000000, 0x00000000, 0x00000000, 0x00000000, 0x00000000⟩,
  ⟨0x3e10, 0x4, 1, 0x00000000, 0x00000000, 0x00000000, 0x00000000, 0x00000000, 0x00000000⟩,
  ⟨0x3e18, 0x4, 1, 0x00000000, 0x00000000, 0x00000000, 0x00000000, 0x00000000, 0x00000000⟩,
  ⟨0x3e1c, 0x4, 1, 0x00000000, 0x00000000, 0x00000000, 0x00000000, 0x00000000, 0x00000000⟩,
  ⟨0x4000, 0x4, 1, 0x00000000, 0x00000003, 0x00000000, 0x00000000, 0x00000000, 0x00000002⟩,
  ⟨0x4004, 0x4, 1, 0x00000000, 0x00000000, 0x00000000, 0x00000000, 0x00000000, 0x00000000⟩,
  ⟨0x4008, 0x4, 1, 0x00000000, 0x00000000, 0x00000000, 0xFFFFFFFF, 0x00000000, 0x00000000⟩,
  ⟨0x4100, 0x40, 2, 0x003FFFFF, 0x00000000, 0x00000000, 0x00000000, 0x00000000, 0x0001C200⟩,
  ⟨0x4104, 0x40, 2, 0x00000007, 0x00000000, 0x00000000, 0x00000000, 0x00000000, 0x00000004⟩,
  ⟨0x4108, 0x40, 2, 0xFFFFFFFF, 0x00000000, 0x00000000, 0x00000000, 0x00000000, 0x00000000⟩,
  ⟨0x410c, 0x40, 2, 0x00000000, 0x00000000, 0x00000000, 0xFFFFFFFF, 0x00000000, 0x00000000⟩,
  ⟨0x4110, 0x40, 2, 0x00000000, 0x00000000, 0x00000000, 0xFFFFFFFF, 0x00000000, 0x00000000⟩]

/-- Channel window words (Table 18.16). -/
def regsWin : List RegRow := [
  ⟨0x8000, 0x80, 256, 0xFFFFFFFF, 0x00000000, 0x00000000, 0x00000000, 0x00000000, 0x00000000⟩,
  ⟨0x8004, 0x80, 256, 0xFFFFFFFF, 0x00000000, 0x00000000, 0x00000000, 0x00000000, 0x00000000⟩,
  ⟨0x8008, 0x80, 256, 0x00000000, 0x00000000, 0x00000000, 0x00000000, 0x00000000, 0x00000000⟩,
  ⟨0x800c, 0x80, 256, 0x00000000, 0x00000000, 0x00000000, 0x00000000, 0x00000000, 0x00000000⟩,
  ⟨0x8010, 0x80, 256, 0x00000000, 0x00000000, 0x00000000, 0x00000000, 0x00000000, 0x00000000⟩,
  ⟨0x8014, 0x80, 256, 0x00003F07, 0x00000000, 0x00000000, 0x00000000, 0x00000000, 0x00000F00⟩,
  ⟨0x8018, 0x80, 256, 0x00000000, 0x00000000, 0x00000010, 0x00000000, 0x00000000, 0x00000000⟩,
  ⟨0x801c, 0x80, 256, 0x00000000, 0x00000000, 0x00000000, 0xFFFFFFFF, 0x00000000, 0x00000000⟩,
  ⟨0x8020, 0x80, 256, 0x00FFFFFF, 0x00000000, 0x07000000, 0x00000000, 0x00000000, 0x00800000⟩,
  ⟨0x8024, 0x80, 256, 0xFFFFFFFF, 0x00000000, 0x00000000, 0x00000000, 0x00000000, 0x00000000⟩,
  ⟨0x8028, 0x80, 256, 0xFFFFFFFF, 0x00000000, 0x00000000, 0x00000000, 0x00000000, 0x00000000⟩,
  ⟨0x802c, 0x80, 256, 0xFFFFFFFF, 0x00000000, 0x00000000, 0x00000000, 0x00000000, 0x00000000⟩,
  ⟨0x8030, 0x80, 256, 0x00FFFFFF, 0x00000000, 0x07000000, 0x00000000, 0x00000000, 0x00000042⟩,
  ⟨0x8034, 0x80, 256, 0xFFFFFFFF, 0x00000000, 0x00000000, 0x00000000, 0x00000000, 0x00004E20⟩,
  ⟨0x8038, 0x80, 256, 0xFFFFFFFF, 0x00000000, 0x00000000, 0x00000000, 0x00000000, 0x00000000⟩,
  ⟨0x803c, 0x80, 256, 0xFFFFFFFF, 0x00000000, 0x00000000, 0x00000000, 0x00000000, 0x00000000⟩,
  ⟨0x8040, 0x80, 256, 0xFFFFFFFF, 0x00000000, 0x00000000, 0x00000000, 0x00000000, 0x00000000⟩,
  ⟨0x8044, 0x80, 256, 0x00000000, 0x00000000, 0x00000000, 0x00000000, 0x00000000, 0x00000000⟩,
  ⟨0x8048, 0x80, 256, 0x00001FCF, 0x00000000, 0x00000000, 0x00000000, 0x00000000, 0x00000000⟩,
  ⟨0x804c, 0x80, 256, 0xFFFF3FFF, 0x00000000, 0x00000000, 0x00000000, 0x00000000, 0x00282710⟩,
  ⟨0x8050, 0x80, 256, 0x0000FFFF, 0x00000000, 0x00000000, 0x00000000, 0x00000000, 0x00002EE0⟩,
  ⟨0x8054, 0x80, 256, 0x0000FFFF, 0x00000000, 0x00000000, 0x00000000, 0x00000000, 0x00001408⟩,
  ⟨0x8058, 0x80, 256, 0x000F3FFF, 0x00000000, 0x00000000, 0x00000000, 0x00000000, 0x000503E8⟩,
  ⟨0x805c, 0x80, 256, 0x000001FF, 0x00000000, 0x00000000, 0x00000000, 0x00000000, 0x00000004⟩,
  ⟨0x8060, 0x80, 256, 0x00000000, 0x00000000, 0x00000000, 0x00000000, 0x00010000, 0x00000003⟩,
  ⟨0x8064, 0x80, 256, 0x00000000, 0x00000000, 0x00000000, 0x00000000, 0x00000000, 0x00000002⟩,
  ⟨0x8068, 0x80, 256, 0x00000000, 0x00000000, 0x00000000, 0xFFFFFFFF, 0x00000000, 0x00000000⟩,
  ⟨0x806c, 0x80, 256, 0x00000000, 0x00000000, 0x00000000, 0x00000000, 0x00000000, 0x00000000⟩,
  ⟨0x8070, 0x80, 256, 0x00000000, 0x00000000, 0x00000000, 0x00000000, 0x00000000, 0x00000000⟩,
  ⟨0x8074, 0x80, 256, 0x00000000, 0x00000000, 0x00000000, 0x00000000, 0x00000000, 0x00000000⟩,
  ⟨0x8078, 0x80, 256, 0xFFFF0FFF, 0x00000000, 0x00000000, 0x00000000, 0x00000000, 0x01F400A0⟩,
  ⟨0x807c, 0x80, 256, 0x00000000, 0x00000000, 0x00000000, 0x00000000, 0x00000000, 0x00000000⟩]

/-- The block's rows that can hold offset `a`. -/
def regBlock (a : Nat) : List RegRow :=
  if 0x8000 ≤ a then regsWin
  else if a < 0x1000 then regsHost
  else if a < 0x2000 then regsArbTick
  else if a < 0x2800 then regsPack
  else if a < 0x2C00 then regsRail
  else if a < 0x2D60 then regsHk1
  else if a < 0x3000 then regsHk2
  else if a < 0x3800 then regsThmFlt
  else regsTop

/-- Whether the row holds the word at offset `a`. -/
def RegRow.has (r : RegRow) (a : Nat) : Bool :=
  r.base ≤ a && a < r.base + r.stride * r.count && (a - r.base) % r.stride == 0

/-- The row of the word at offset `a`; none where no table gives a register (R9, R478). -/
def regRow (a : Nat) : Option RegRow := (regBlock a).find? (·.has a)

/-- The value that the word at offset `a` holds after a reset that reaches it (R479). -/
def regReset (a : Nat) : W32 := match regRow a with
  | some r => r.reset
  | none => 0

end Sys2Proof.Machine
end

