-- ==== Sys2Proof/Machine/State.lean ====
section
/-! DEFINITION. The state of the MBK256 as plain data, the reasons a command can stop, and the state right
after a power-on reset (R39). BAR0 registers stand in `State.regs`, keyed by their BAR0 offset; a register
that shows something kept in richer form here is computed from it when it is read (RegView). Every field
names the rule that gives it. `State.reset` is the record of all default values. -/

namespace Sys2Proof.Machine

/-- Why the module would stop on a command. -/
inductive Fault where
  /-- A command whose operand lists do not have the shape that `WellFormed` asks for. No meaning raises it: every command of
  this model answers a next state. Safe. -/
  | illFormed
  deriving DecidableEq, Repr

/-- Why a command has no meaning. -/
inductive Refusal where
  /-- Raised by the dispatcher for a row that has no meaning yet. Safe. -/
  | notModelled (mnemonic : String)
  deriving DecidableEq, Repr

/-! ### Modes, resets and start-up -/

/-- The modes of R27. -/
inductive Mode where
  | ship | standby | ready | field | road | service
  deriving DecidableEq, Repr

/-- What the Keep is doing (R25, R43, R44, R19). -/
inductive KeepState where
  /-- Dome logic in reset or Keep not booted. -/
  | off
  /-- Running from ROM or Patch. -/
  | run
  /-- Restarting after a lockstep mismatch, R25. -/
  | restart
  /-- Halted for want of the reference in STANDBY, R19. -/
  | halted
  deriving DecidableEq, Repr

/-- The trigger that started a mode move (Table 02.2, R33). -/
inductive MoveCause where
  | request | keyOff | twoWire | unlock | expiry | overspeed | warmStart
  deriving DecidableEq, Repr

/-- A mode move in progress: the hops still to be entered, its cause, the descriptor that waits on it
(ring and TAG), and whether the rail stop order has to end first (Table 02.2, R30, R500). -/
structure Move where
  hops  : List Mode
  cause : MoveCause
  req   : Option (Ring × BitVec 16) := none
  /-- Length in ticks and KEY_ID of the unlock that the move carries (R468, R469). -/
  len   : Nat := 0
  key   : Byte := 0
  deriving DecidableEq, Repr

/-- The reset kinds of Table 02.3. -/
inductive ResetKind where
  | powerOn | pin | perst | command | fault | freezeLimit
  deriving DecidableEq, Repr

/-- An F3 that has been raised and not yet taken into the fault state (R398). -/
structure F3Cause where
  code   : BitVec 16
  src    : Nat
  broken : Bool
  deriving DecidableEq, Repr

/-- Terminal levels that the module reads (19_pins_electrical_package.md, Table 19.2). -/
structure Pins where
  /-- `KEY` level, R35. -/
  key : Bool := false
  /-- `WAKE` has qualified, and the wall time at which it did, Table 02.7. No row tells when it falls. -/
  wake : Bool := false
  wakeAt : Nat := 0
  /-- TF above 9 V, Table 02.7. -/
  tf : Bool := false
  /-- `PERST#` deasserted, R45. -/
  perstHigh : Bool := false
  /-- `FREEZE_N` low, R408. -/
  freezeLow : Bool := false
  deriving DecidableEq, Repr

/-- Straps latched at step 0x01 (R46, R428, R488) and what they set. -/
structure Straps where
  /-- AUX0 voltage in mV, Table 02.6. -/
  vselMv : Nat := 3300
  /-- `RAIL_GLB.VSEL`. -/
  vselCode : BitVec 2 := 3
  /-- `RAIL_GLB.VSEL_BAD`. -/
  vselBad : Bool := false
  /-- `ADDR[2:0]`, R470. -/
  addr : BitVec 3 := 7
  /-- `HEAD_N` low, R428. -/
  headLow : Bool := false
  /-- `STBY_N` low, R428. -/
  stbyLow : Bool := false
  deriving DecidableEq, Repr

/-- The mode block (R27 to R50). -/
structure ModeSt where
  /-- R27; SHIP after a power-on reset (Table 02.3). -/
  mode : Mode := .ship
  /-- `MODE_STATUS.FROZEN`, R36. -/
  frozen : Bool := false
  /-- `MODE_STATUS.FAULT`, R37. -/
  fault : Bool := false
  /-- `MODE_STATUS.RESTRICTED`, R47. -/
  restricted : Bool := false
  /-- `MODE_STATUS.BOOT_STEP`, R43. -/
  bootStep : BitVec 5 := 1
  /-- The start (Table 02.4) is running: from its trigger until READY is entered. -/
  starting : Bool := false
  /-- The move in progress, R30. -/
  move : Option Move := none
  /-- `MODE_ENTRY_TICK`, Table 02.10. -/
  entryTick : W64 := 0
  /-- Wall time of the falling `KEY` edge whose delay runs, R35. -/
  keyoffFrom : Option Nat := none
  /-- A KEY-off move waits in ROAD for the speed to fall, R35. -/
  keyoffWait : Bool := false
  /-- `RESET_CAUSE`, R49; bit 0 set by the power-on reset. -/
  resetCause : BitVec 6 := 1
  /-- The module has reached READY since the locks were cleared (R42, R481). -/
  rwlLocked : Bool := false
  /-- A RESET opcode's reset whose completion with this TAG is still to be written, R275. -/
  resetWait : Option (ResetKind × BitVec 16) := none
  /-- A RESET opcode's reset and the tick at which it takes effect, R275. -/
  pendingReset : Option (ResetKind × Nat) := none
  /-- A reset held under R390. -/
  heldReset : Option ResetKind := none
  /-- Tick since which the ground speed has been above 2 m/s, R30. -/
  fastSince : Option Nat := none
  /-- F3 causes not yet taken, R398, oldest first. -/
  f3Pend : List F3Cause := []
  /-- Dome core rail on, Table 01.4. -/
  domeOn : Bool := false
  /-- Dome logic out of reset with the state PLL locked (R18, R40). -/
  domeRun : Bool := false
  /-- The Keep, R25, R43. -/
  keep : KeepState := .off
  /-- The Keep runs patched code, R44. -/
  keepPatched : Bool := false
  /-- Wall time of the latest Keep lockstep mismatch that caused a restart, R23. -/
  mismatchAt : Option Nat := none
  /-- The Patch verification of R44 is still to end. -/
  patchPend : Bool := false
  /-- A patch passed and waits for the next decision boundary, R44. -/
  patchSwitch : Bool := false
  /-- No start has been completed since the latest reset (event 0x0105). -/
  afterReset : Bool := true
  /-- The reference is lost while the Keep restarts in STANDBY: the Keep halts as it comes back, R19. -/
  refLost : Bool := false
  /-- The move in progress began since the latest decision boundary, R33. -/
  moveFresh : Bool := false
  /-- A STANDBY exit trigger is held while the Keep is halted, R19. -/
  exitHeld : Bool := false
  /-- Straps of step 0x01. -/
  straps : Straps := {}
  /-- Terminal levels. -/
  pins : Pins := {}
  /-- The output lock latch of the stage dies, R29. -/
  roadLock : Bool := false
  deriving DecidableEq, Repr

/-! ### Tick base and compare units -/

/-- One compare unit (R87): TARGET, PERIOD, its control register (Table 04.4) and the match tick. `since` is the first tick
whose match test takes the present values: a tick's test takes those held at its start (R92). `held` says that its compare
entry has not been written yet (R278). -/
structure CmpUnit where
  target : W64 := 0
  period : W32 := 0
  ctrl : W32 := 0
  matchTick : W64 := 0
  /-- The periods skipped since reset, R88. -/
  missed : Nat := 0
  since : Nat := 0
  held : Bool := false
  deriving DecidableEq, Repr

/-- A chain under way (R91): it takes effect on tick `due`. -/
structure Chain where
  due : Nat
  tgt : CUnit
  src : CUnit
  arm : Bool
  stamp : W64
  deriving DecidableEq, Repr

/-- A replay under R99: the gap (T_f, T_f + D], the matches made so far, and the tick of the latest one. -/
structure Replay where
  tf : Nat
  tend : Nat
  count : Nat := 0
  lastAt : Option Nat := none
  deriving DecidableEq, Repr

/-- The tick base and what is scheduled on it (R85 to R99). -/
structure TickSt where
  /-- The tick base, R85. -/
  now : W64 := 0
  /-- Outside time in units of 5 ns since the power-on reset: the clock of what runs on the Turret. The
  model's own field. -/
  wall : Nat := 0
  /-- Global start releases pending, R94: GROUPS and T_rel. -/
  gstarts : List (BitVec 8 × Nat) := []
  /-- Chains under way, R91. -/
  chains : List Chain := []
  /-- The replay in progress, R99. -/
  replay : Option Replay := none
  deriving DecidableEq, Repr

/-! ### Course engine -/

/-- A wheel encoder (R60): the filtered levels of both lines, the levels of the terminals with the tick of each one's latest
change (a level counts once it has held for `ENC_CFG.FILT` ticks), the ticks of the counted edges (newest first, those of
the last 1 ms and at least two), the direction of the latest edge, the age in course updates of each quadrature error
of the last 1 s, and the tick from which STOP_MS and the stale limit run after a thaw (R74). `heldSpeed` is the
magnitude given at the latest update, kept through a thaw. -/
structure Enc where
  a : Bool := false
  b : Bool := false
  rawA : Bool := false
  rawB : Bool := false
  aAt : Nat := 0
  bAt : Nat := 0
  edges : List Nat := []
  dirNeg : Bool := false
  qerrs : List Nat := []
  stopped : Bool := false
  bad : Bool := false
  thawAt : Option Nat := none
  heldSpeed : Int := 0
  heldInterval : Nat := 0
  deriving DecidableEq, Repr

/-- The radar (R61), as an encoder without direction. -/
structure Radar where
  pulses : List Nat := []
  stopped : Bool := false
  thawAt : Option Nat := none
  heldSpeed : Int := 0
  heldInterval : Nat := 0
  deriving DecidableEq, Repr

/-- A stamped value of a GNSS, HOST or RING source (R63). -/
structure Stamped where
  value : Int
  stamp : Int
  deriving DecidableEq, Repr

/-- What a stamped source has given last (R63, R70, R71). `age` counts course updates since a speed was
accepted (R58). -/
structure StSrc where
  speed : Option Stamped := none
  prevSpeed : Option Stamped := none
  heading : Option Stamped := none
  prevHeading : Option Stamped := none
  yaw : Option Stamped := none
  cog : Option Stamped := none
  /-- The sign of the latest speed is meaningful. -/
  dirOk : Bool := false
  /-- A speed or pose has been accepted and its validity time has not passed. -/
  got : Bool := false
  age : Nat := 0
  /-- A heading has arrived and not been used by a course update yet. -/
  newHeading : Bool := false
  newCog : Bool := false
  deriving DecidableEq, Repr

/-- A blend of R67: the value at the change and the tick of the change. -/
structure Blend where
  from_ : Int
  at_ : Nat
  deriving DecidableEq, Repr

/-- A host pose captured by HOST_POSE_COMMIT.GO (R64). -/
structure Pose where
  tick : W64
  v : Int
  heading : Nat
  omega : Int
  flags : BitVec 4
  deriving DecidableEq, Repr

/-- The course engine (R51 to R74). -/
structure Course where
  /-- s_ref with 24 fractional bits, modulo 2^72 (R53, R54). -/
  sRefQ24 : Int := 0
  v : Int := 0
  /-- Heading with 24 fractional bits below the µrad. -/
  headQ24 : Int := 0
  omega : Int := 0
  accel : Int := 0
  alpha : Int := 0
  /-- Tick of the latest update; the tick on which an update has been made, so that a tick has only one (R52). -/
  updTick : W64 := 0
  updAt : Option Nat := none
  /-- The next update is the first after a thaw, and integrates the held v and v_i (R74). -/
  thawed : Bool := false
  /-- v and ω of the last 100 updates, newest first (Table 03.1). -/
  vHist : List Int := []
  omegaHist : List Int := []
  enc0 : Enc := {}
  enc1 : Enc := {}
  radar : Radar := {}
  /-- The last 10 SPEED_AN codes, newest first, and the tick of the latest one (R62). -/
  spdan : List Nat := []
  spdanAt : Option Nat := none
  gnss0 : StSrc := {}
  gnss1 : StSrc := {}
  host : StSrc := {}
  /-- The RING source (R436): speed, heading, yaw rate, acceleration. -/
  ring : StSrc := {}
  ringAccel : Int := 0
  ringAlpha : Int := 0
  ringSRef : Int := 0
  /-- The pose captured by GO and not latched yet, R64. -/
  pose : Option Pose := none
  /-- Validity of the source codes 1 to 9, and the updates for which each has been valid without a break. -/
  valid : List Bool := List.replicate 10 false
  validFor : List Nat := List.replicate 10 0
  /-- `COURSE_STATUS` source codes and bits. -/
  speedSrc : Nat := 0
  turnSrc : Nat := 0
  headSrc : Nat := 0
  coasting : Bool := false
  /-- Tick at which the coast began, R68. -/
  coastAt : Nat := 0
  /-- What ω follows: a source code, 0x10 while it coasts, 0 for nothing, R70. -/
  wFollow : Nat := 0
  coastOver : Bool := false
  dirUnknown : Bool := false
  overspeed : Bool := false
  vBlend : Option Blend := none
  wBlend : Option Blend := none
  /-- A rebase requested by COURSE_REBASE.GO, R55. -/
  rebaseGo : Bool := false
  /-- A headwater rebase to take, and one deferred in FIELD, R55, R437. -/
  rebaseRing : Bool := false
  rebasePend : Bool := false
  /-- Updates for which each source code has disagreed with the speed source, R72; 100,001 once event 0x0405 has been
  raised. -/
  disagree : List Nat := List.replicate 10 0
  /-- A course update has been made since FIELD was entered (R232). -/
  fieldPass : Bool := false
  deriving DecidableEq, Repr

/-- A GNSS UART (R76 to R82). -/
structure Uart where
  /-- The start search is closed after a framing error until 16 high samples (R79). -/
  waitHigh : Bool := false
  /-- Bytes of the sentence or frame in progress and the tick of its first start edge. -/
  nmea : List Byte := []
  nmeaOn : Bool := false
  nmeaTick : Nat := 0
  /-- Each byte with the tick of its start edge. -/
  bin : List (Byte × Nat) := []
  /-- A complete sentence, with its start tick, and a complete frame, to be taken. -/
  nmeaReady : Option (List Byte × Nat) := none
  binReady : Option (List (Byte × Nat)) := none
  deriving DecidableEq, Repr

/-! ### Reaches -/

/-- A live reach in its queue (Table 08.1), with the 64-bit acceptance count of R210 and the marks that its
completion entry carries (R230). -/
structure Reach where
  tag : BitVec 16
  join : Bool
  cont : Bool
  dist : Bool
  sStart : Int
  sEnd : Int
  r : Nat
  rampLen : Nat
  rFrom : Nat := 0
  rEff : Nat := 0
  seq : Nat
  ring : Ring
  engaged : Bool := false
  wasActive : Bool := false
  /-- Course update in which it became active, and in which it last ceased to be so, R219. -/
  activeAt : Nat := 0
  offAt : Option Nat := none
  late : Bool := false
  dry : Bool := false
  reverted : Bool := false
  deriving DecidableEq, Repr

/-- The three states of the schedule (R213): OFF, ON under a reach (by acceptance count), ON in the dry extension of a
reach. -/
inductive Sched where
  | off
  | on (seq : Nat)
  | dry (seq : Nat)
  deriving DecidableEq, Repr

/-- A cancel (with its RTAG) or a flush (without) to act on at the next course update, and the descriptor that it
completes (R231), none after a reset of the host port. -/
structure CancelReq where
  rtag : Option (BitVec 16)
  req : Option (Ring × BitVec 16 × Nat)
  deriving DecidableEq, Repr

/-- The sequencer's state for one channel (R209 to R235). -/
structure SeqSt where
  /-- Live reaches in acceptance order, at most 64. -/
  live : List Reach := []
  /-- Acceptance count of the next reach, R210. -/
  nextSeq : Nat := 1
  /-- Reaches with a count below this one take part in execution, R211. -/
  taken : Nat := 1
  sched : Sched := .off
  /-- The record of the active reach once it is no longer live, R227. -/
  ended : Option Reach := none
  /-- End point of a begun HOLD_DIST extension, R228. -/
  dryEnd : Option Int := none
  /-- Schedule position σ, R215. -/
  sigma : Int := 0
  /-- Direction of travel is backward, R214. -/
  back : Bool := false
  /-- The presented boundary B and the state beyond it, R215. -/
  bnd : Option (Int × Sched) := none
  adv : BitVec 16 := 0
  late : Bool := false
  still : Bool := false
  cancels : List CancelReq := []
  /-- Course updates that the sequencer has taken, R219. -/
  upd : Nat := 0
  /-- `CH_RQ_CFG` as in effect since the latest course update, R228. -/
  cfg : W32 := 0x01F400A0
  deriving DecidableEq, Repr

/-- A predictor result waiting for tick t_eff - 1 (R95, R96). -/
structure PredRes where
  tEff : Nat
  /-- The target, or none with the park reason. -/
  tStar : Option Nat
  why : BitVec 2 := 0
  unclamped : Int := 0
  late : Bool := false
  deriving DecidableEq, Repr

/-! ### Channel: stage die, Weir, FIFOs, parameters -/

/-- One leg of a power stage (R102, R130 to R134). -/
structure LegSt where
  /-- Isolation switch closed and no fault latched. -/
  inService : Bool := true
  why : BitVec 2 := 0
  restores : Nat := 0
  worn : Bool := false
  /-- Its current was not below 100 mA at step 5 of Table 05.5, R133. -/
  stuck : Bool := false
  deriving DecidableEq, Repr

/-- A duty command on its way from the Weir to an update point (R108, R151): the on-time in steps, the tick at which it
reaches the stage die, and, for a duty of an engine, SMP_SEQ and instant of the sample that it answers. -/
structure DutyCmd where
  on : Int
  due : Nat
  answers : Option (W32 × Nat) := none
  deriving DecidableEq, Repr

/-- What the stage die holds of one channel (05_channel_power_stage.md). -/
structure Stage where
  legA : LegSt := {}
  legB : LegSt := {}
  /-- The command that has arrived and waits for its update point, R108. -/
  pend : Option DutyCmd := none
  /-- The latest commanded on-time, and the on-time in effect (steps, after soft start and trims): of the turn-off edge, and of
  the turn-on edge, which only a valley changes (R108). -/
  cmdOn : Int := 0
  on : Int := 0
  rise : Int := 0
  /-- Tick of a carrier centre, that of the latest sample instant (R106), and of the update point taken last. -/
  phase : Option Nat := none
  pointAt : Option Nat := none
  /-- Tick of the latest result of the current and of the voltage converter (R115, R116). -/
  iAt : Option Nat := none
  vAt : Option Nat := none
  /-- Soft start in progress and its present ceiling, R121. -/
  soft : Bool := false
  softOn : Nat := 0
  /-- Update point tick, centre flag and command to be reported, R108. -/
  report : Option (Nat × Bool × DutyCmd) := none
  /-- Current range: true is high, R117. -/
  highRange : Bool := true
  lowRun : Nat := 0
  rangeDue : Option Bool := none
  /-- The last two reported currents in µA, newest first, and the results since enable or thaw, at most 2 (R118). -/
  iLast : List Int := []
  iRun : Nat := 0
  iNow : Int := 0
  mark : Bool := false
  overRange : Bool := false
  vNow : Int := 0
  snsVal : BitVec 17 := 0
  /-- Share trim of a ganged member, steps (R113). -/
  trim : Int := 0
  /-- Peak budget in ticks of 5 ns (20,000 µs = 4,000,000), held ninefold so that a ninth is exact; R123. -/
  budget : Nat := 36000000
  budgetAt : Nat := 0
  peakExh : Bool := false
  limiting : Bool := false
  /-- Successive periods in which the limit acted, R124. -/
  limRun : Nat := 0
  hiccupUntil : Option Nat := none
  /-- Successive periods below 20 mA, R125. -/
  openRun : Nat := 0
  openLoad : Bool := false
  /-- Successive periods of leg imbalance and the weaker leg, R131. -/
  imbRun : Nat := 0
  /-- The high side is off for the rest of this carrier period, R122. -/
  hsOff : Bool := false
  /-- Freeze-hold reference in steps of 15.625 mA, R127, and a desaturation taken in a freeze, R135. -/
  holdRef : Nat := 0
  frzDesat : Option (Leg × Bool × Bool) := none
  /-- After a thaw, a stage-link restore or a thermal release the channel waits for its next sample
  instant, R128. -/
  waitSample : Bool := false
  /-- Stage-link loss holds the channel in its safe state, R14. -/
  linkSafe : Bool := false
  /-- Set-up words written in the present carrier period, by BAR0 offset, as they act until the next valley (R136). -/
  held : List (Nat × W32) := []
  deriving DecidableEq, Repr

/-- The control-sample record of a channel (R148) and the output delay (R151). -/
structure Smp where
  i : Int := 0
  v : Int := 0
  sns : BitVec 17 := 0
  mark : Bool := false
  high : Bool := true
  overRange : Bool := false
  lost : Bool := false
  tick : Nat := 0
  seq : W32 := 0
  dly : W32 := 0
  dlySeq : W32 := 0
  /-- On-time in effect at the instant, R174. -/
  onAt : Int := 0
  deriving DecidableEq, Repr

/-- NOZZLE's phases (Table 07.8). -/
inductive NzPhase where
  | off | pull | hold | sense
  deriving DecidableEq, Repr

/-- A duty whose update point a standard program waits for: SMP_SEQ and instant of the sample that it answers, and the
tick of its OUT (R151, R185). -/
structure Await where
  seq : W32
  inst : Nat
  from_ : Nat
  deriving DecidableEq, Repr

/-- What NOZZLE holds (R183 to R191, Table 07.5). `freq` is the FREQ_DHZ in effect, `offGrid` says that an
off-grid pulse awaits its effect tick, `gridMin` is the tick before which no grid point starts a pulse (R186); the detector states are 0 RISE or DECAY, 1 FALL or BUMP, 2 DONE. -/
structure NozzleSt where
  phase : NzPhase := .off
  freq : Nat := 0
  cont : Bool := false
  senseOn : Int := 0
  effTick : Option Nat := none
  senseTick : Option Nat := none
  endTick : Option Nat := none
  tOn : Int := 0
  rPulse : Nat := 0
  nextGrid : Option Nat := none
  offGrid : Bool := false
  gridMin : Nat := 0
  lO : Int := 0
  lC : Int := 0
  nO : Nat := 0
  nC : Nat := 0
  /-- Tick of the ISTRM entry read last. -/
  entryTick : Nat := 0
  /-- Entries of the block in progress: tick and current. -/
  blk : List (Nat × Int) := []
  opSt : Nat := 0
  opPk : Int := 0
  opMn : Int := 0
  opTick : Nat := 0
  clSt : Nat := 0
  clPk : Int := 0
  clMn : Option Int := none
  clTick : Nat := 0
  hit90 : Bool := false
  pullMaxed : Bool := false
  acting : Bool := false
  actGap : Bool := false
  stick : BitVec 8 := 0
  stuckFlag : Bool := false
  deriving DecidableEq, Repr

/-- What METER holds (R192 to R202, Table 07.5). Ripple intervals are in twelfths of a tick, so that an interval shared
with up to three inserted ripples stays exact; `dist` is the sum of µm/s × ticks. -/
structure MeterSt where
  running : Bool := false
  nRef : Int := 0
  xs : Int := 0
  mQ8 : Int := 0
  ripHigh : Bool := false
  ripLast : Option Nat := none
  ivals : List Nat := []
  c : Nat := 0
  rejects : Nat := 0
  inserts : Nat := 0
  units : Nat := 0
  dist : Int := 0
  nSum : Int := 0
  nNum : Nat := 0
  /-- The repetitive table; an empty list stands for 512 zeros. -/
  u : List Int := []
  spin : Int := 0
  stop : Int := 0
  nSpin : Nat := 0
  nStop : Nat := 0
  startAt : Option Nat := none
  stopAt : Option (Nat × Int) := none
  /-- The duty awaited is that of a stop, with n_meas at the stop. -/
  stopping : Option Int := none
  idxCount : Option Nat := none
  sensFault : Bool := false
  edges : List Nat := []
  deriving DecidableEq, Repr

/-- What LINEAR holds (R203 to R208, Table 07.5). Times are counted in ticks, sample by sample. -/
structure LinearSt where
  pRef : Int := 0
  xp : Int := 0
  stallTmr : Nat := 0
  stallPos : Int := 0
  stalled : Bool := false
  stallR : Int := 0
  stallTag : Option Nat := none
  fault : Bool := false
  badRun : Nat := 0
  goodFor : Nat := 0
  arrived : Bool := true
  moveFor : Nat := 0
  lastR : Int := 0
  /-- The first sample after a resume: r, the reach and the position are taken as those of the time before it. -/
  fresh : Bool := false
  deriving DecidableEq, Repr

/-- What a standard program holds between samples (ch. 07): the common part, and the part of each program. `prm` is the
block in effect, `onSeen` the ON state that it acted on last. The due values are what it writes next. -/
structure Prog where
  started : Bool := false
  prmPend : Bool := false
  valid : Bool := false
  prm : List W32 := []
  xQ8 : Int := 0
  iPrev : Int := 0
  vB : Option Int := none
  lastLat : Option Nat := none
  /-- The kind of boundary at the sample before: true an exit (R177). -/
  lastKind : Option Bool := none
  dB : Option Int := none
  dBn : Nat := 0
  bndTgt : Option W32 := none
  bndAwait : Option (W32 × List Await) := none
  gap : Bool := false
  prevTick : Option Nat := none
  smpCount : Nat := 0
  /-- Reaches with a RANGE record, by acceptance count (R172). -/
  rangeTags : List Nat := []
  onSeen : Bool := false
  /-- `RQ_ST.ADV` at the sample before (R226). -/
  advSeen : BitVec 16 := 0
  /-- Duties of an actuation whose update point is awaited, oldest first (R185, R201). -/
  await : List Await := []
  nz : NozzleSt := {}
  mt : MeterSt := {}
  ln : LinearSt := {}
  dutyDue : Option Int := none
  latDue : Option Nat := none
  traceDue : List (List W32) := []
  tmrDue : Option Nat := none
  deriving DecidableEq, Repr

/-- A spare's slot for a channel and what the module knows of the loaded image (R138, R161, R163). -/
structure Slot where
  code : List W32 := []
  data : List W32 := []
  entry : Nat := 0
  resume : Nat := 0
  ckptLen : Nat := 1
  dslew : Nat := 0
  progId : W32 := 0
  istrm : Bool := false
  vstrm : Bool := false
  deriving DecidableEq, Repr

/-- A channel's slot of the checkpoint mirror (R155, R251). -/
structure Mirror where
  block : Option (List Byte) := none
  smpSeq : W32 := 0
  lastOn : Int := 0
  epoch : BitVec 16 := 0
  limpWord : Option Int := none
  /-- What a standard program keeps in its checkpoint block. -/
  prog : Prog := {}
  deriving DecidableEq, Repr

/-- Snapshot counters of a channel (Table 11.4) that are not counted elsewhere. `energy` is the exact sum of
mV × µA × ticks, in units of 5 × 10⁻¹² µJ. `bndAt` is the tick of a boundary match whose effect has not come yet. -/
structure ChCnt where
  energy : Int := 0
  onTime : Nat := 0
  act : Nat := 0
  bndN : Nat := 0
  bndMin : Nat := 0xFFFFFFFF
  bndMax : Nat := 0
  bndSum : Nat := 0
  lateN : Nat := 0
  missed : Nat := 0
  bndAt : Option Nat := none
  deriving DecidableEq, Repr

/-- A MANUAL drive period (R275): its end tick. -/
structure ManualSt where
  until_ : Nat
  deriving DecidableEq, Repr

/-- Everything the module holds for one channel beyond its registers. -/
structure Chan where
  /-- s_i with 24 fractional bits modulo 2^64, v_i with 8 fractional bits (R53). -/
  sQ24 : Int := 0
  viQ8 : Int := 0
  /-- Change of x_i to be added at the next update, R56. -/
  dX : Int := 0
  sPrev : Int := 0
  seqr : SeqSt := {}
  pred : Option PredRes := none
  /-- The presented boundary with the advance count of its presentation; whether the unit has a target for it, and
  whether it has matched on it (R96). -/
  predFor : Option (Int × BitVec 16) := none
  predSet : Bool := false
  predHit : Bool := false
  /-- The unclamped t_star of the presented boundary where its result was late, R96. -/
  predLate : Option Int := none
  stage : Stage := {}
  smp : Smp := {}
  /-- The sample taken at the sample instant, completed at SAMPLE (R148): tick of the instant. -/
  instant : Option Nat := none
  /-- Tick at which the SAMPLE event of the taken sample is latched, R148. -/
  latchDue : Option Nat := none
  smpNext : Smp := {}
  /-- Tick of a measurement-only sample that a system compare started and whose current, or voltage, result has not come, R90. -/
  measI : Option Nat := none
  measV : Option Nat := none
  istrm : List W32 := []
  vstrm : List W32 := []
  snse : List W32 := []
  prm : List W32 := List.replicate 64 0
  shadow : List W32 := List.replicate 64 0
  prmCommit : Bool := false
  prmSeq : W32 := 0
  /-- Engine in control; none in limp (R241). -/
  ctl : Option Eng := none
  epoch : BitVec 16 := 0
  limp : Bool := false
  /-- Successive missed deadlines, R242; what the pending deadline is owed. -/
  missRun : Nat := 0
  /-- The deadline of the sample taken is still open; it was met by an accepted duty. -/
  dueOpen : Bool := false
  dueMet : Bool := false
  /-- A deadline has passed unmet and its miss is to be counted, R149. -/
  missDue : Bool := false
  /-- A control sample has begun, and CKPT has been committed in it, R155. -/
  sampling : Bool := false
  ckptDone : Bool := false
  /-- Last accepted ON before any trim, R150. -/
  lastOn : Int := 0
  /-- Commands on the stage link, oldest first, R151. -/
  flight : List DutyCmd := []
  /-- A takeover of this channel is under way: taking engine, tick of the declaration, and for a hand-back the engine
  that gives the channel up, R244, R254. -/
  takeover : Option (Eng × Nat × Option Eng) := none
  /-- An image copy into the channel is under way, R163. -/
  copying : Option Slot := none
  /-- Wall time at which that copy began (R164). -/
  copyFrom : Nat := 0
  stopReq : Bool := false
  slot : Slot := {}
  mirror : Mirror := {}
  manual : Option ManualSt := none
  cnt : ChCnt := {}
  /-- Pull-in guard end tick, R329. -/
  guardUntil : Option Nat := none
  deriving DecidableEq, Repr

/-! ### Engines -/

/-- Roles of Table 09.1. -/
inductive Role where
  | home | idle | ctl | deposed
  deriving DecidableEq, Repr

/-- What LOCK saved and latched (R157, R158). -/
structure LockSt where
  ga : GReg
  gb : GReg
  va : W32
  vb : W32
  pc : Nat
  tick : W64
  v : Int
  s : Int
  a : Int
  upd : W64
  deriving DecidableEq, Repr

/-- One Eddy record (Table 11.7) as eight words. -/
structure EddyRec where
  words : List W32
  deriving DecidableEq, Repr

/-- An engine's Eddy buffer and its EDDY_CFG, EDDY_STAT (R301 to R303). -/
structure Eddy where
  recs : List EddyRec := []
  cfg : BitVec 25 := 0
  triggered : Bool := false
  holding : Bool := false
  postLeft : Nat := 0
  dropped : Nat := 0
  copying : Bool := false
  oldest : Nat := 0
  deriving DecidableEq, Repr

/-- One control engine (R138 to R160, R239 to R248). -/
structure Engine where
  g : Vector W32 32 := Vector.replicate 32 0
  acc : W64 := 0
  pc : Nat := 0
  /-- FLAGS: SAT, DZ, FENCE, EMPTY, LB (Table 06.4). -/
  flags : BitVec 5 := 0
  role : Role := .home
  retired : Bool := false
  chan : Option Ch := none
  epoch : BitVec 16 := 0
  /-- Pending WAIT events (Table 06.5). -/
  pend : BitVec 16 := 0
  /-- Asleep in WAIT: destination register and mask. -/
  asleep : Option (GReg × BitVec 16) := none
  /-- The engine runs instructions (RUNNING of the engine itself). -/
  running : Bool := false
  lock : Option LockSt := none
  tickH : W32 := 0
  wdog : Nat := 0
  /-- Tick at which the TIMER event falls due. -/
  tmr : Option Nat := none
  trace : List W32 := []
  /-- Both RAMs hold what the self-test of R248 left in them: a free value with this index. -/
  ramFree : Option Nat := none
  /-- Data RAM, bytes not listed read 0. -/
  dram : List Host.Cell := []
  iram : List W32 := []
  codeLen : Nat := 0
  eddy : Eddy := {}
  /-- Register written by the load just before, for the load-use stall of R142. -/
  lastLoad : Option GReg := none
  exc : BitVec 4 := 0
  excPc : BitVec 11 := 0
  deposed : Nat := 0
  /-- Tick of the deposition that has not been followed by a stop yet, and the channel lost, R247. -/
  deposedAt : Option Nat := none
  lostCh : Option Ch := none
  /-- Self-test running since this tick, R248. -/
  selfTest : Option Nat := none
  /-- Tick of the latest sample taken by WAIT, and its SMP_SEQ, R151. -/
  tookInst : Nat := 0
  tookSeq : W32 := 0
  took : Bool := false
  halted : Bool := false
  haltPend : Option Nat := none
  lbHalt : Bool := false
  /-- A debug step is being executed, R421. -/
  stepping : Bool := false
  prog : Prog := {}
  deriving DecidableEq, Repr

/-! ### Host port -/

/-- A descriptor fetched and not executed yet, with its opcode and its slot. -/
structure Fetched where
  op : Byte
  d : Desc
  slot : Nat
  sqhd : Nat
  /-- Tick of its arrival, R271. -/
  at_ : Nat
  deriving DecidableEq, Repr

/-- A descriptor that has been accepted and completes later (R271). -/
structure InExec where
  op : Byte
  tag : BitVec 16
  /-- The slot that it was fetched from, and `Qn_CI` after the fetch. -/
  slot : Nat
  sqhd : Nat
  deriving DecidableEq, Repr

/-- One ring (R267 to R271); Qn_BASE, Qn_CFG and Qn_CNT are registers. -/
structure RingSt where
  pi : Nat := 0
  ci : Nat := 0
  phase : Bool := true
  halted : Bool := false
  stalled : Bool := false
  why : Byte := 0
  /-- Doorbell value accepted last, R264. -/
  lastDb : W32 := 0
  /-- Fetches wanted up to this many slots ahead: slots requested and not arrived, R271. -/
  inFlight : Option (Nat × Nat) := none
  /-- The read request under way was issued before EN was last set: its descriptors complete, and `Qn_CI` stays (R268). -/
  stale : Bool := false
  /-- Its descriptors have arrived while the Keep was away, and `Qn_CI` has still to move past them (R25). -/
  parked : Bool := false
  fetched : List Fetched := []
  exec : Option InExec := none
  /-- Accepted and not completed, in order: SNAP_AT, MBX_RECV, EDDY_READ, cancels, flushes and the barriers behind them
  (R271, R275). -/
  pend : List InExec := []
  /-- Tick since which a completion ring has been full, and the report of R278 made. -/
  fullSince : Option Nat := none
  fullTold : Bool := false
  /-- Entries since the last MSI-X message and tick of the first of them, R285. -/
  coal : Nat := 0
  coalAt : Option Nat := none
  deriving DecidableEq, Repr

/-- A lent buffer (R280). -/
structure Lend where
  tag : W32
  ring : Ring
  addr : W64
  len : Nat
  deriving DecidableEq, Repr

/-- A completion entry before its PHASE is known (Tables 10.9 to 10.12). -/
inductive Entry where
  | cmd (info : W64) (tag : BitVec 16) (sqhd : Nat) (status : Byte) (sqid : Ring)
  | reach (tick : W64) (tag : BitVec 16) (ch : Ch) (status : Byte) (sqid : Ring) (late dry reverted : Bool)
  | cmp (stamp : W64) (lag : W32) (unit : CUnit) (sat replay : Bool)
  | evt (tick : W64) (data : W32) (code : BitVec 16) (cls : BitVec 2)
  | loss (tick : W64) (count : W32)
  deriving DecidableEq, Repr

/-- An entry held for a completion ring, the requester that writes it, and the tick of the completion. -/
structure Held where
  rq : Rq
  e : Entry
  at_ : Nat
  deriving DecidableEq, Repr

/-- An event in the event store (R286). -/
structure Evt where
  tick : W64
  data : W32
  code : BitVec 16
  cls : BitVec 2
  deriving DecidableEq, Repr

/-- What the module has sent: the outside effect of the commands, newest last. The model's own record. -/
inductive Out where
  /-- A posted write to host memory. -/
  | memWrite (addr : Nat) (data : List Byte)
  /-- A read request for `n` slots of a ring. -/
  | fetch (q : Ring) (slot n : Nat)
  /-- A read request to a lent buffer. -/
  | memRead (addr len : Nat)
  | msix (vec : Nat)
  /-- The bytes that a read returned on an access path, in address order: those that its byte enables name (R263). -/
  | readReply (p : Path) (data : List Byte)
  /-- Bytes returned by a BAR4 read. -/
  | bar4Reply (data : List Byte)
  /-- STATUS byte and data of a two-wire read, or the acknowledgement of a write. -/
  | twReply (status : Byte) (data : List Byte)
  /-- Word shifted out of the TAP data register. -/
  | tapWord (value : W32)
  /-- A frame sent by the headwater or forwarded, on a ring's transmit port, and whether its CRC is inverted (R426). -/
  | frame (port : RvRing) (f : RvFrame) (stomped : Bool)
  deriving DecidableEq, Repr

/-- One MSI-X table entry (R264, R285). -/
structure MsixEnt where
  addr : W64 := 0
  data : W32 := 0
  masked : Bool := true
  pending : Bool := false
  deriving DecidableEq, Repr

/-- A doorbell latched during a freeze (Table 10.3). -/
structure LatchedDb where
  q : Ring
  value : W32
  be : BitVec 4
  deriving DecidableEq, Repr

/-- The high-half latch of one access path (R10): the register's low-half offset and the latched half. -/
structure HLatch where
  owner : Option Nat := none
  hi : W32 := 0
  deriving DecidableEq, Repr

/-- What AER and the Status register record of the read requests that failed (R261, R284, R287): Uncorrectable Error Status, the header
log, and Received Target Abort and Received Master Abort. -/
structure Aer where
  status : W32 := 0
  log : List W32 := []
  targetAbort : Bool := false
  masterAbort : Bool := false
  deriving DecidableEq, Repr

/-- The host port (R261 to R290). -/
structure HostPort where
  rings : Vector RingSt 24 := Vector.replicate 24 {}
  lends : List Lend := []
  /-- Held entries of Q20 to Q23, oldest first (R278). -/
  cq : Vector (List Held) 4 := Vector.replicate 4 []
  events : List Evt := []
  lost : Nat := 0
  lostTick : W64 := 0
  /-- A loss entry has been written and no event after it (R286). -/
  lossTold : Bool := false
  /-- Rate-limit records of R499: code, unit and tick of the last raising. -/
  rate : List (BitVec 16 × Nat × Nat) := []
  busMaster : Bool := false
  d3hot : Bool := false
  pci : PciSet := {}
  aer : Aer := {}
  linkUp : Bool := false
  speed : BitVec 4 := 0
  width : BitVec 4 := 0
  msix : Vector MsixEnt 32 := Vector.replicate 32 {}
  latched : List LatchedDb := []
  latHost : HLatch := {}
  latTw : HLatch := {}
  latKeep : HLatch := {}
  /-- MSI-X messages waiting for A23, by vector (R285). -/
  msixPend : List Nat := []
  sent : List Out := []
  deriving DecidableEq, Repr

/-! ### Arbiter, snapshots, Eddy stream, relief -/

/-- One requester (R291 to R296, Table 11.5). -/
structure RqSt where
  wait : Nat := 0
  grants : Nat := 0
  waits : Nat := 0
  maxWait : Nat := 0
  bites : Nat := 0
  biteTicks : List Nat := []
  since : Option Nat := none
  failed : Bool := false
  deriving DecidableEq, Repr

/-- A pending SNAP_AT (R297). -/
structure SnapReq where
  tag : BitVec 16
  slot : Nat
  ltag : W32
  off : Nat
  /-- TICK, or none for a follow that waits for a published tick (R297). -/
  tick : Option Nat
  /-- CASCADE of Table 11.3: a follow, or published by this headwater. -/
  casc : Bool
  /-- A forward step has passed the latch tick (R299). -/
  stepped : Bool := false
  deriving DecidableEq, Repr

/-- A latched snapshot whose image is being written (R299, R300): T_s. -/
structure SnapImg where
  req : SnapReq
  ts : Nat
  deriving DecidableEq, Repr

/-- An EDDY_READ copy under way (R303) and its number of records. -/
structure EddyCopy where
  e : Eng
  ltag : W32
  held : Nat
  tag : BitVec 16
  slot : Nat
  deriving DecidableEq, Repr

/-- What a data write into a lent buffer serves: a snapshot by the TAG and slot of its SNAP_AT, an Eddy copy by those of
its EDDY_READ, the Silt copy, or a mailbox by the TAG of its MBX_RECV. -/
inductive Job where
  | snap (tag : BitVec 16) (slot : Nat)
  | eddy (tag : BitVec 16) (slot : Nat)
  | silt
  | mail (tag : BitVec 16)
  deriving DecidableEq, Repr

/-- One data write into a lent buffer, at most the Max Payload Size set (assumption 19). -/
structure DataWr where
  rq : Rq
  job : Job
  ltag : W32
  addr : Nat
  bytes : List Byte
  deriving DecidableEq, Repr

/-- A read request of A17 to a lent buffer (R291). -/
structure LentRead where
  ltag : W32
  addr : Nat
  len : Nat
  deriving DecidableEq, Repr

/-- What a tenure carries (R291): a data write, a lent-buffer read, the oldest entry held for a completion ring, an event or loss entry, a fetch, a
streamed Eddy record, or an MSI-X message. -/
inductive Tlp where
  | data (d : DataWr)
  | entry (k : Fin 4)
  | event
  | fetch (q : Ring)
  | stream
  | msix (v : Nat)
  | read (r : LentRead)
  deriving DecidableEq, Repr

/-- The arbiter and its streams. -/
structure Arb where
  rq : Vector RqSt 24 := Vector.replicate 24 {}
  /-- Forced wins in the order they were reached, R292. -/
  forced : List Rq := []
  /-- Last winner of each PRIO, R292. -/
  last : Vector (Option Rq) 4 := Vector.replicate 4 none
  /-- The present tenure: owner, tick of its grant, and what it carries. -/
  tenure : Option (Rq × Nat × Tlp) := none
  snaps : List SnapReq := []
  images : List SnapImg := []
  snapCount : Nat := 0
  snapLast : W64 := 0
  /-- Ticks published by the headwater that this module has acted on, R443. -/
  snapSeen : List Nat := []
  copies : List EddyCopy := []
  /-- Eddy records waiting to be streamed, R304. -/
  streamQ : List EddyRec := []
  /-- Spire served by the relief agent, R257. -/
  relief : Option Spire := none
  reliefPend : Option (Spire × Nat) := none
  reliefFailed : Bool := false
  /-- Data writes waiting for their requester, oldest first. -/
  data : List DataWr := []
  /-- Lent-buffer reads waiting for A17, oldest first (R291). -/
  reads : List LentRead := []
  /-- The TLP that a requester starts again after a bite (R295). -/
  redo : Vector (Option Tlp) 24 := Vector.replicate 24 none
  deriving DecidableEq, Repr

/-- A spire (R239 to R258): the idle spare and its agent. -/
structure SpireSt where
  /-- 0 own agent, 1 relief agent, 2 nobody. -/
  agent : BitVec 2 := 0
  /-- The completions that a stalled ring keeps, oldest first (R258). -/
  store : List Entry := []
  deriving DecidableEq, Repr

/-! ### Battery, charger, estimator -/

/-- The pack switch (R308 to R313). -/
inductive SwState where
  | open_ | closing | closed
  deriving DecidableEq, Repr

/-- One sample of the pack converter on its way to the counters (R333): I_p in µA, V_p in units of 1.25 mV, marked, at full
scale, TF current in µA. -/
structure PackSmp where
  ip : Int
  vp : Nat
  marked : Bool
  full : Bool
  tf : Nat
  deriving DecidableEq, Repr

/-- A movement of VBUS at 2.0 V/ms that the Turret or the charger holds: wall time and mV at its start, and where it ends
(R309, R325, R328). -/
structure VRamp where
  at_ : Nat
  start : Nat
  stop : Nat
  deriving DecidableEq, Repr

/-- Turret and Keep state of the pack and charger beyond their registers. Times are wall times. -/
structure Power where
  sw : SwState := .open_
  /-- Start of a close in progress, R309. -/
  closeFrom : Option Nat := none
  /-- A pack check has run since the switch opened or a close began, R312. -/
  checked : Bool := false
  /-- The latest movement of VBUS, R309, R325, R328. -/
  ramp : Option VRamp := none
  /-- End of the 1 ms in which a probe halves the charger's current target, R312. -/
  halfUntil : Option Nat := none
  /-- Since when, in wall time: every cell reads below OV_MV - 100 mV (R315); every cell reads PRE_MV + 100 mV or more in PRECHARGE,
  and the mean reads low in DONE (Table 12.3); a cell reads below UV_MV without TF (R317). -/
  ovLowFrom : Option Nat := none
  preFrom : Option Nat := none
  rechFrom : Option Nat := none
  uvFrom : Option Nat := none
  /-- Samples of the 30 s of R322 so far. -/
  termRun : Nat := 0
  /-- The `PSW` test of R308 failed. -/
  pswBad : Bool := false
  /-- V_p and ΔV_s of the latest check, mV. -/
  vpMv : Nat := 0
  riseMv : Nat := 0
  /-- Wall time of the latest pack check and probe, R312. -/
  lastCheck : Nat := 0
  lastProbe : Nat := 0
  /-- A probe or a trip asks for bus-keep operation, R312, R313. -/
  bkPend : Bool := false
  /-- Charger: wall time of the entry to the state and of the departure from OFF, and the state that SUSPEND
  interrupted. -/
  chgFrom : Nat := 0
  chgRun : Nat := 0
  chgPrev : Nat := 0
  /-- Input regulation voltage in force, R320. -/
  vinReg : Nat := 11000
  /-- Opening of the switch after an under-voltage cut-off, R317. -/
  uvCutAt : Option Nat := none
  uvTold : Bool := false
  staleTold : Bool := false
  cellsTold : Bool := false
  /-- NTC inputs found open or shorted, R318. -/
  ntcBad : BitVec 2 := 0
  /-- Wall time of each cell's latest housekeeping result, R316. -/
  cellAt : List (Option Nat) := List.replicate 16 none
  /-- Charger gate drives on, R315. -/
  gatesOn : Bool := false
  /-- Pack converter (R333): low gain, run of small codes, gain change due, samples not counted yet (oldest first). -/
  lowGain : Bool := false
  smallRun : Nat := 0
  gainDue : Option Bool := none
  held : List PackSmp := []
  /-- Power counters with 16 fractional bits (R334). -/
  qDis : Nat := 0
  qChg : Nat := 0
  qTf : Nat := 0
  /-- Bus-keep ticks of completed spells, and the start of the present one. -/
  buskeepTicks : Nat := 0
  bkFrom : Option Nat := none
  trims : W32 := 0
  /-- The last 10 values of I_p, newest first. -/
  ips : List Int := []
  /-- End of a probe of R340, which holds k at 0. -/
  probeUntil : Option Nat := none
  deriving DecidableEq, Repr

/-- A rest point (R341): SoC in 0.01 %, charge in µC, wall time. -/
structure RestPt where
  z : Int
  q : Int
  at_ : Nat
  deriving DecidableEq, Repr

/-- A pack sample for the step detector (R338): I_p in µA, V_p in units of 1.25 mV, whether it is marked or the charger
target changed with it, and the commanded channel draw in µA. -/
structure StepSmp where
  ip : Int
  vp : Nat
  spoiled : Bool
  draw : Int
  deriving DecidableEq, Repr

/-- The battery estimator (R335 to R344); the rationals stand for binary64 values. -/
structure Est where
  z : Rat := 0
  p : Rat := 1000000
  s : Rat := 0
  v1 : Rat := 0
  /-- Impedance steps accepted, R336. -/
  stepsOk : Nat := 0
  afterTerm : Bool := false
  /-- Q_CHG - Q_DIS at the last update, µC. -/
  qNet : Int := 0
  /-- Sums over the period: samples, I_p, V_p, marked. -/
  nAcc : Nat := 0
  iAcc : Int := 0
  vAcc : Nat := 0
  marked : Bool := false
  /-- I_p and V_p of the latest sample. -/
  ipNow : Int := 0
  vpNow : Nat := 0
  refPt : Option RestPt := none
  lastStepAt : Nat := 0
  lastRecAt : Nat := 0
  /-- Since when the rest conditions hold, and whether the rest point of this rest has been taken, R341. -/
  restFrom : Option Nat := none
  restDone : Bool := false
  /-- z has been set at a first V_p since step 0x08, R344; the recorded z restored. -/
  inited : Bool := false
  zRec : Option Nat := none
  /-- Samples for the step detector, newest first, and the charger target that the latest one saw. -/
  hist : List StepSmp := []
  target : Nat := 0
  deriving DecidableEq, Repr

/-! ### Rails -/

/-- One rail beyond its registers (R347 to R368). Times are wall times. -/
structure RailSt where
  /-- The reference stood at `refMv` at `refAt`; it moves from there at the soft-start slope (R348, R352, R368). -/
  refMv : Nat := 0
  refAt : Nat := 0
  /-- The last of the honoured dependencies was met, R361. -/
  depMetAt : Option Nat := none
  /-- Start of the window of R362, while the rail has neither become good nor failed. -/
  windowFrom : Option Nat := none
  /-- The latest start window has expired, R360. -/
  expired : Bool := false
  /-- Successive samples inside the warning band, and beyond each level of Table 13.3. -/
  inBand : Nat := 0
  uvW : Nat := 0
  ovW : Nat := 0
  uvF : Nat := 0
  ovF : Nat := 0
  /-- End of a hiccup off-time, R354. -/
  hicUntil : Option Nat := none
  /-- Low-side switches held on after an over-voltage fault, and the 100 Ω discharge connected (R357, R368). -/
  lowSide : Bool := false
  discharge : Bool := false
  /-- Output of the latest sample, mV, and the sums of R359. -/
  vout : Nat := 0
  vSum : Nat := 0
  iSum : Int := 0
  /-- Output current of the latest sample, µA, and the successive samples of it below DROP_MA (Table 13.2). -/
  iNow : Int := 0
  iLow : Nat := 0
  /-- Honoured dependencies that were good when the rail started, R366. -/
  startedWith : BitVec 11 := 0
  deriving DecidableEq, Repr

/-- Sequencing (R360 to R368). -/
structure SeqRail where
  /-- The Keep sequences rails: step 0x08 has begun. -/
  active : Bool := false
  /-- Start of step 0x08 in progress. -/
  step8From : Option Nat := none
  /-- SEQIN_WAIT has passed in step 0x08, R363. -/
  waitOver : Bool := false
  /-- The latest stop of R368 is complete. -/
  stopDone : Bool := false
  /-- Every rail but AUX0 has stopped, R368. -/
  othersAt : Option Nat := none
  /-- AUX0 was started by the Turret alone, with its reset values, R38. -/
  boot38 : Bool := false
  /-- Supervision samples in the current averages of R359. -/
  nSum : Nat := 0
  deriving DecidableEq, Repr

/-! ### Housekeeping and thermal -/

/-- The housekeeping converter (R372 to R381). Times are wall times. -/
structure Hk where
  /-- The entry in progress and its word as it began, R375. -/
  entry : Nat := 0
  cfg : W32 := 0x00000F00
  /-- Start of a self-calibration in progress, R379. -/
  calFrom : Option Nat := none
  /-- A path diagnosis asked for: slot and test-DAC code, R380. -/
  diag : Option (Nat × Nat) := none
  /-- Wall time at which the entry in progress began, and at which the diagnosis took the path (R374, R380). -/
  from_ : Nat := 0
  diagFrom : Option Nat := none
  deriving DecidableEq, Repr

/-- One die of the thermal monitor (R382 to R390). `t` is the latest T in 1/64 °C, `temps` the samples of R384, newest
first. `holdFrom` and `levelAt` are ticks, `shutAt` is wall time. -/
structure DieTh where
  t : Option Int := none
  temps : List Int := []
  rate : Int := 0
  valid : Bool := false
  warnRun : Nat := 0
  warnClr : Nat := 0
  tripRun : Nat := 0
  level : BitVec 2 := 0
  warn : Bool := false
  sensor : Bool := false
  badRun : Nat := 0
  goodRun : Nat := 0
  holdFrom : Option Nat := none
  levelAt : Option Nat := none
  /-- Trip of the comparator whose shutdown has not ended. -/
  shutAt : Option Nat := none
  deriving DecidableEq, Repr

/-! ### Faults, Silt log, freeze, debug -/

/-- A Silt log record without SEQ and CRC (Tables 15.4, 15.5). -/
structure SiltBody where
  time : W32
  pon : BitVec 16
  type : Byte
  cls : BitVec 2
  code : BitVec 16
  payload : List Byte
  deriving DecidableEq, Repr

/-- A slot of the Silt log (R401, R404). -/
inductive SiltSlot where
  | erased
  | torn
  | valid (seq : W32) (body : SiltBody)
  deriving DecidableEq, Repr

/-- The Silt log (R401 to R406). -/
structure Silt where
  slots : Vector SiltSlot 512 := Vector.replicate 512 .erased
  /-- Slot and SEQ of the newest record; SEQ 0 with none. -/
  head : Nat := 511
  seq : Nat := 0
  torn : Nat := 0
  /-- Queue of at most 8 records, oldest first; the write in progress and whether it is the second try. -/
  queue : List SiltBody := []
  writing : Option (SiltBody × Bool) := none
  supplyLow : Bool := false
  erasing : Bool := false
  /-- Per code, wall time of the last EVENT record of class F2 (Table 15.2). -/
  f2Last : List (BitVec 16 × Nat) := []
  /-- A copy under way: lend and records to write (R405). -/
  copy : Option (W32 × Nat) := none
  pon : Nat := 0
  deriving DecidableEq, Repr

/-- The fault collector (R395 to R400). -/
structure FaultSt where
  /-- Sources whose present qualification has been acted on. -/
  active : List (Fin 128) := []
  brokenActive : List (Fin 128) := []
  /-- Sources whose event its owning row has raised and whose pair has not cleared since. -/
  told : List (Fin 128) := []
  /-- Code and class of the events raised for a source since its pair last cleared, newest first (R498). -/
  evt : List (Fin 128 × BitVec 16 × BitVec 2) := []
  /-- `ERR_N` pulse end, wall time. -/
  pulseUntil : Option Nat := none
  deriving DecidableEq, Repr

/-- Freeze and thaw (R408 to R414). -/
structure FreezeSt where
  /-- A trigger qualified: CAUSE bits (pin, opcode, compare) and SC, waiting for FREEZE_ENTRY. -/
  trig : Option (BitVec 3 × BitVec 5) := none
  tf : Nat := 0
  /-- A thaw has been requested (R412). -/
  thawReq : Bool := false
  /-- Turret clock ticks, in outside time, since when the limit runs (R411). -/
  from_ : Nat := 0
  /-- Events 0x0F04 and 0x0F03 to be raised after the thaw. -/
  ignored : Nat := 0
  refused : Nat := 0
  /-- FREEZE opcode in progress: its TAG and slot. -/
  req : Option (BitVec 16 × Nat) := none
  /-- What the host reads of the parts that run on (Table 10.3): registers, power path and terminal levels at the freeze. -/
  regs : List (Nat × W32) := []
  power : Power := {}
  pins : Pins := {}
  twResult : Byte := 0
  speed : BitVec 4 := 0
  width : BitVec 4 := 0
  deriving DecidableEq, Repr

/-- The TAP and the debug access path (R416 to R421). -/
structure Debug where
  ir : Byte := 2
  addr : W32 := 0
  last : BitVec 9 := 0
  refused : Bool := false
  /-- Boundary-scan register selected by EXTEST with its outputs driven. -/
  extest : Bool := false
  deriving DecidableEq, Repr

/-! ### River ring -/

/-- One receive port (R427, R430, R431). `lastAt` is wall time; `stamp` is the FSEQ of the frame stamped last and its arrival minus
FTICK in ps; `d` is the delay of this ring at the last pair of frames. -/
structure RvPort where
  up : Bool := false
  down : Bool := false
  run : Nat := 0
  lastAt : Nat := 0
  lastFseq : Option (BitVec 16) := none
  hops : Nat := 0
  stamp : Option (BitVec 16 × Int) := none
  d : Option Int := none
  deriving DecidableEq, Repr

/-- Role on the ring (`RV_STAT.ROLE`). -/
inductive RvRole where
  | none_ | head | tributary | acting
  deriving DecidableEq, Repr

/-- A mailbox waiting for a slot, and the TAG and slot of its MBX_SEND. -/
structure MailOut where
  mail : RvMail
  tag : BitVec 16
  slot : Nat
  deriving DecidableEq, Repr

/-- A pending MBX_RECV (R446). -/
structure MailReq where
  tag : BitVec 16
  slot : Nat
  ltag : W32
  off : Nat
  deriving DecidableEq, Repr

/-- The river ring interface (R424 to R446). `RV_` registers that software does not write show it. -/
structure River where
  role : RvRole := .none_
  portA : RvPort := {}
  portB : RvPort := {}
  /-- Frames of ring A, or of ring B, are turned back (R430). -/
  wrapA : Bool := false
  wrapB : Bool := false
  pos : Nat := 0
  posCand : Nat := 0
  posRun : Nat := 0
  ringN : Nat := 0
  /-- HEAD_ID in use; none before a frame has been accepted or sent. -/
  headId : Option W32 := none
  /-- This module has yielded to another headwater (R440). -/
  yielded : Bool := false
  fseq : BitVec 16 := 0
  /-- Wall time of the latest frame sent as headwater (R425). -/
  sentAt : Option Nat := none
  loop : Nat := 0
  /-- Latest e and the d in use, in ps (R431). -/
  e : Int := 0
  d : Int := 0
  approx : Bool := false
  /-- The held offset in 1/256 ps per frame, and the applied trim in ppb (R432). -/
  offset : Int := 0
  trim : Int := 0
  /-- Successive accepted frames; one has come since the latest try to join (R433). -/
  accepts : Nat := 0
  fresh : Bool := false
  joined : Bool := false
  locked : Bool := false
  inRun : Nat := 0
  outRun : Nat := 0
  /-- Tick of the latest accepted frame (R435), and wall time of the latest sign of a headwater (R438). -/
  lastTick : Nat := 0
  lastSeen : Nat := 0
  hopBad : Nat := 0
  /-- Events 0x0C0D and 0x0C0F have been raised for the present happening. -/
  heldTold : Bool := false
  lostTold : Bool := false
  /-- REBASE count, sent by a headwater and seen last by a tributary (R437). -/
  rebase : Byte := 0
  tokRes : BitVec 16 := 0
  /-- The headwater's latest frame, for a freeze (R442). -/
  lastFrame : Option RvFrame := none
  /-- Fault notices waiting for each ring, and notices seen: SRC, CODE, tick (R445). -/
  noticeA : List RvNotice := []
  noticeB : List RvNotice := []
  seen : List (BitVec 10 × BitVec 16 × Nat) := []
  /-- Mailboxes (R446). -/
  mailA : List MailOut := []
  mailB : List MailOut := []
  inbox : List RvMail := []
  recvs : List MailReq := []
  deriving DecidableEq, Repr

/-! ### OTP, image check, unlock, two-wire -/

/-- A sparse word array: words not listed are 0. -/
abbrev WordMem := List (Nat × W32)

/-- The OTP command that runs (R457 to R463). -/
structure OtpRun where
  op : BitVec 3
  array : BitVec 2
  addr : Nat
  margin : BitVec 2 := 0
  /-- Words 0 to 30 as staged when a burn began, R458. -/
  words : List W32 := []
  /-- Wall time at which the command began. -/
  since : Nat := 0
  deriving DecidableEq, Repr

/-- A request to the image check engine (R465): message, signature and key slot. -/
inductive ImgReq where
  /-- IMG_LOAD or IMG_CHECK: opcode, image bytes, channels, TAG, slot. -/
  | image (op : Byte) (image : List Byte) (first last : Nat) (tag : BitVec 16) (slot : Nat)
  | unlock (token : List Byte) (tag : BitVec 16) (slot : Nat)
  | key (slot : Byte) (key : List Byte)
  deriving DecidableEq, Repr

/-- An IMG_LOAD whose copies run (R163, R164): the image, the channels whose copy has not begun, the channels loaded and refused,
and its TAG and slot, none after a reset of the host port. -/
structure ImgLoad where
  image : Slot
  todo : List Ch
  loaded : Nat
  refused : Nat
  req : Option (BitVec 16 × Nat)
  deriving DecidableEq, Repr

/-- OTP arrays and the image check engine (R450 to R469). -/
structure Otp where
  config : WordMem := []
  patch : WordMem := []
  trim : WordMem := []
  /-- Weak bits of the arrays (R460): burned bits that the margins read differently. -/
  weakC : WordMem := []
  weakP : WordMem := []
  weakT : WordMem := []
  run : Option OtpRun := none
  /-- Installed public keys by slot: 0 to 2, and 3 for slot 0x80 (R464). -/
  keys : Vector (Option (List Byte)) 4 := Vector.replicate 4 none
  reqs : List ImgReq := []
  /-- Wall time from which the engine serves the oldest request (R465). -/
  imgFrom : Nat := 0
  load : Option ImgLoad := none
  /-- Block 3 passed on its own, R454. -/
  keyHashOk : Bool := false
  /-- Draws made from the entropy source; the challenge of R467 is a free value of this count (Config.challenge). -/
  draws : Nat := 0
  unlockExpiry : W64 := 0
  unlockActive : Bool := false
  unlockAns : Byte := 0
  /-- Trim blocks read since the Dome reset: the data words, or none for an unreadable block, R461. -/
  trimRead : List (Nat × Option (List W32)) := []
  deriving DecidableEq, Repr

/-- The two-wire target (R470 to R475). -/
structure TwoWire where
  lastResult : Byte := 0
  /-- Mirror of the STATUS words, the wall time of its refresh. -/
  mirror : List W32 := List.replicate 8 0
  refreshed : Nat := 0
  deriving DecidableEq, Repr

/-! ### The whole module -/

/-- A host or PWR_WRITE write that the Keep applies at its next decision boundary (R345, R369, R392). -/
structure KeepWrite where
  addr : Nat
  value : W32
  deriving DecidableEq, Repr

/-- Wall time of the latest of each act that has a period of its own: the Keep's decision boundary (1 ms), its SoC update (100 ms) and
its rate samples (10 ms), the rails' supervision (10 µs) and the pack converter (100 µs). -/
structure Pace where
  keep : Option Nat := none
  soc : Option Nat := none
  rate : Option Nat := none
  rails : Option Nat := none
  pack : Option Nat := none
  deriving DecidableEq, Repr

/-- The state of the MBK256. -/
structure State where
  /-- Commands waiting, first in, first out. The model's own field. -/
  pending : List Instr := []
  /-- BAR0 registers that differ from their reset value, by offset, rising (18_register_map.md). -/
  regs : List (Nat × W32) := []
  mode : ModeSt := {}
  tick : TickSt := {}
  units : Vector CmpUnit 544 := Vector.replicate 544 {}
  course : Course := {}
  uart : Vector Uart 2 := Vector.replicate 2 {}
  chan : Vector Chan 256 := Vector.replicate 256 {}
  eng : Vector Engine 272 := Vector.replicate 272 {}
  spire : Vector SpireSt 16 := Vector.replicate 16 {}
  hp : HostPort := {}
  arb : Arb := {}
  power : Power := {}
  est : Est := {}
  rail : Vector RailSt 10 := Vector.replicate 10 {}
  seqr : SeqRail := {}
  hk : Hk := {}
  die : Vector DieTh 34 := Vector.replicate 34 {}
  silt : Silt := {}
  flt : FaultSt := {}
  frz : FreezeSt := {}
  dbg : Debug := {}
  rv : River := {}
  otp : Otp := {}
  tw : TwoWire := {}
  keepWrites : List KeepWrite := []
  pace : Pace := {}
  /-- Count of free values taken: the model's own field (see Config.freeValue). -/
  free : Nat := 0
  deriving DecidableEq, Repr

/-- A channel after a power-on reset: its home engine is in control of it (R240). -/
def Chan.reset (c : Ch) : Chan := { ctl := some ⟨c.val, by omega⟩ }

/-- An engine after a power-on reset: a home engine in control of its channel, or the idle spare of a spire
(R240, Table 09.1). -/
def Engine.reset (e : Eng) : Engine :=
  if h : e.val < 256 then { role := .home, chan := some ⟨e.val, h⟩ } else { role := .idle }

/-- A compare unit after a reset: Tables 04.2 and 04.5 for the system, boundary and sample compares. -/
def CmpUnit.reset (u : CUnit) : CmpUnit :=
  if u.val < 32 then { period := 2 }
  else if u.val < 288 then { ctrl := 0x00800000 }
  else { ctrl := 0x00000042, period := 0x4E20 }

/-- The module right after a power-on reset (R39, R478, R479): SHIP, the Dome off, every register at its reset
value, nothing in any queue. -/
def State.reset : State :=
  { units := Vector.ofFn CmpUnit.reset
    chan := Vector.ofFn Chan.reset
    eng := Vector.ofFn Engine.reset }

end Sys2Proof.Machine
end

