-- ==== Sys2Proof/Machine/Ops.lean ====
section
/-! DEFINITION. The named operations that every command shares: arithmetic of R5, the register file, sparse
memories, the units of the module by index, events with their class actions (R286, R397, R499), the Silt queue
(R402), and the completion entries (R277, R278). -/

namespace Sys2Proof.Machine

/-- What a command answers. -/
abbrev Res := Host.Outcome State Fault Refusal

/-! ### Arithmetic (R5) -/

/-- Rounded quotient: nearest, ties away from zero (R5). A zero divisor gives 0; no caller relies on it. -/
def roundDiv (n d : Int) : Int :=
  let q : Int := ((2 * n.natAbs + d.natAbs) / (2 * d.natAbs) : Nat)
  if d = 0 then 0 else if (n < 0) != (d < 0) then -q else q

/-- A rational rounded to the nearest integer, ties away from zero (R5). -/
def roundRat (q : Rat) : Int := roundDiv q.num q.den

/-- Saturation to a signed field of `w` bits (R5). -/
def satI (w : Nat) (x : Int) : Int := max (-(2 ^ (w - 1) : Nat)) (min x ((2 ^ (w - 1) : Nat) - 1))

/-- Saturation to an unsigned field of `w` bits (R5). -/
def satU (w : Nat) (x : Int) : Nat := min x.toNat (2 ^ w - 1)

/-- An integer held to a range. -/
def clampI (lo hi x : Int) : Int := max lo (min x hi)

/-- A natural held to a range. -/
def clampN (lo hi x : Nat) : Nat := max lo (min x hi)

/-- The 32-bit two's-complement word of an integer, saturated (R5). -/
def i32 (x : Int) : W32 := BitVec.ofInt 32 (satI 32 x)

/-- A two's-complement reading of the low `w` bits of a natural. -/
def signed (w n : Nat) : Int := (BitVec.ofNat w n).toInt

/-- The signed representative of an integer modulo 2^w. -/
def wrapI (w : Nat) (x : Int) : Int := (BitVec.ofInt w x).toInt

/-- Little-endian bytes (R4). -/
def leBytes : Nat → Nat → List Byte
  | 0, _ => []
  | n + 1, v => BitVec.ofNat 8 v :: leBytes n (v / 256)

/-- The value of little-endian bytes (R4). -/
def leVal : List Byte → Nat
  | [] => 0
  | b :: bs => b.toNat + 256 * leVal bs

/-- Big-endian value of a byte string. -/
def beVal (bs : List Byte) : Nat := bs.foldl (fun a b => a * 256 + b.toNat) 0

/-- Bits [hi:lo] of a natural, as a natural of `w` bits from `lo`. -/
def bits (n lo w : Nat) : Nat := (n >>> lo) % 2 ^ w

/-- A byte of a list, 0 beyond its end. -/
def byteAt (bs : List Byte) (i : Nat) : Byte := bs.getD i 0

/-- `n` bytes of a list from offset `i`, padded with zeros. -/
def slice (bs : List Byte) (i n : Nat) : List Byte := (List.range n).map (fun k => byteAt bs (i + k))

/-- Little-endian value of `n` bytes of a list from offset `i`. -/
def leAt (bs : List Byte) (i n : Nat) : Nat := leVal (slice bs i n)

/-! ### The register file -/

/-- Look-up in a list of words by offset. -/
def wordLookup : List (Nat × W32) → Nat → Option W32
  | [], _ => none
  | (k, v) :: rest, a => if k = a then some v else wordLookup rest a

/-- The list without an entry at `a`. -/
def wordErase : List (Nat × W32) → Nat → List (Nat × W32)
  | [], _ => []
  | (k, v) :: rest, a => if k = a then wordErase rest a else (k, v) :: wordErase rest a

/-- The rising list with `v` at `a`. -/
def wordInsert : List (Nat × W32) → Nat → W32 → List (Nat × W32)
  | [], a, v => [(a, v)]
  | (k, w) :: rest, a, v =>
    if a < k then (a, v) :: (k, w) :: rest
    else if k = a then (a, v) :: rest
    else (k, w) :: wordInsert rest a v

/-- A word written at `a`, keeping the canonical form: a word equal to `dflt` is not listed. -/
def wordPut (l : List (Nat × W32)) (a : Nat) (v dflt : W32) : List (Nat × W32) :=
  if v = dflt then wordErase l a else wordInsert l a v

/-- Canonical form of a word list: offsets strictly rising, no entry equal to what an unlisted offset reads as. -/
def wordsWf (dflt : Nat → W32) : List (Nat × W32) → Bool
  | [] => true
  | [(a, v)] => v != dflt a
  | (a, v) :: (b, w) :: rest => v != dflt a && a < b && wordsWf dflt ((b, w) :: rest)

/-- The word that the register file holds at BAR0 offset `a`. -/
def State.reg (s : State) (a : Nat) : W32 := (wordLookup s.regs a).getD (regReset a)

/-- The state with word `v` at BAR0 offset `a`. -/
def State.setReg (s : State) (a : Nat) (v : W32) : State := { s with regs := wordPut s.regs a v (regReset a) }

/-- A field of a word. -/
def fieldOf (w : W32) (f : Fld) : Nat := bits w.toNat f.lo f.w

/-- A word with a field replaced. -/
def withField (w : W32) (f : Fld) (v : Nat) : W32 :=
  let m : W32 := BitVec.ofNat 32 ((2 ^ f.w - 1) <<< f.lo)
  (w &&& ~~~m) ||| (BitVec.ofNat 32 ((v % 2 ^ f.w) <<< f.lo))

/-- The value of a register field. -/
def State.get (s : State) (f : Fld) : Nat := fieldOf (s.reg f.addr) f

/-- Whether a one-bit field is 1. -/
def State.flag (s : State) (f : Fld) : Bool := s.get f != 0

/-- The state with a register field replaced. -/
def State.put (s : State) (f : Fld) (v : Nat) : State := s.setReg f.addr (withField (s.reg f.addr) f v)

/-- The state with a one-bit field set or cleared. -/
def State.putFlag (s : State) (f : Fld) (b : Bool) : State := s.put f (if b then 1 else 0)

/-- A saturating counter field with `n` added (R5). -/
def State.count (s : State) (f : Fld) (n : Nat := 1) : State := s.put f (satU f.w (s.get f + n))

/-- A whole-word saturating counter with `n` added. -/
def State.countReg (s : State) (a : Nat) (n : Nat := 1) : State :=
  s.setReg a (BitVec.ofNat 32 (satU 32 ((s.reg a).toNat + n)))

/-- A register read as a signed quantity. -/
def State.regI (s : State) (a : Nat) : Int := (s.reg a).toInt

/-- A register read as an unsigned quantity. -/
def State.regN (s : State) (a : Nat) : Nat := (s.reg a).toNat

/-- A 64-bit register: low half at `a`, high half at `a + 4`. -/
def State.reg64 (s : State) (a : Nat) : W64 := s.reg (a + 4) ++ s.reg a

/-- The state with a 64-bit register replaced. -/
def State.setReg64 (s : State) (a : Nat) (v : W64) : State :=
  (s.setReg a (v.extractLsb' 0 32)).setReg (a + 4) (v.extractLsb' 32 32)

/-! ### Sparse memories -/

/-- The byte of a sparse memory; an unlisted byte reads 0 (assumption 4). -/
def memGet : List Host.Cell → Nat → Byte
  | [], _ => 0
  | (k, v) :: rest, a => if k = a then v else memGet rest a

/-- Removal of a cell. -/
def memErase : List Host.Cell → Nat → List Host.Cell
  | [], _ => []
  | (k, v) :: rest, a => if k = a then memErase rest a else (k, v) :: memErase rest a

/-- Insertion in rising order. -/
def memInsert : List Host.Cell → Nat → Byte → List Host.Cell
  | [], a, v => [(a, v)]
  | (k, w) :: rest, a, v =>
    if a < k then (a, v) :: (k, w) :: rest
    else if k = a then (a, v) :: rest
    else (k, w) :: memInsert rest a v

/-- A byte written; a zero byte is not listed. -/
def memPut (m : List Host.Cell) (a : Nat) (v : Byte) : List Host.Cell :=
  if v = 0 then memErase m a else memInsert m a v

/-- `n` bytes from `a`. -/
def memBytes (m : List Host.Cell) (a n : Nat) : List Byte := (List.range n).map (fun k => memGet m (a + k))

/-- Bytes written from `a` on. -/
def memWrite (m : List Host.Cell) (a : Nat) : List Byte → List Host.Cell
  | [] => m
  | b :: bs => memWrite (memPut m a b) (a + 1) bs

/-- The little-endian value of `n` bytes from `a`. -/
def memLe (m : List Host.Cell) (a n : Nat) : Nat := leVal (memBytes m a n)

/-- Canonical form of a sparse memory: addresses strictly rising, no listed zero. -/
def memWf : List Host.Cell → Bool
  | [] => true
  | [(_, v)] => v != 0
  | (a, v) :: (b, w) :: rest => v != 0 && a < b && memWf ((b, w) :: rest)

/-! ### Units by index -/

/-- One element of a vector changed. -/
def upd {α : Type} {n : Nat} (v : Vector α n) (i : Fin n) (f : α → α) : Vector α n := v.set i (f v[i])

/-- A channel. -/
def State.ch (s : State) (c : Ch) : Chan := s.chan[c]
/-- A channel changed. -/
def State.modCh (s : State) (c : Ch) (f : Chan → Chan) : State := { s with chan := upd s.chan c f }
/-- The stage-die part of a channel changed. -/
def State.modStage (s : State) (c : Ch) (f : Stage → Stage) : State :=
  s.modCh c fun h => { h with stage := f h.stage }
/-- The sequencer part of a channel changed. -/
def State.modSeq (s : State) (c : Ch) (f : SeqSt → SeqSt) : State := s.modCh c fun h => { h with seqr := f h.seqr }
/-- The counters of a channel changed. -/
def State.modCnt (s : State) (c : Ch) (f : ChCnt → ChCnt) : State := s.modCh c fun h => { h with cnt := f h.cnt }
/-- An engine changed. -/
def State.modEng (s : State) (e : Eng) (f : Engine → Engine) : State := { s with eng := upd s.eng e f }
/-- A compare unit changed. -/
def State.modUnit (s : State) (u : CUnit) (f : CmpUnit → CmpUnit) : State := { s with units := upd s.units u f }
/-- A rail changed. -/
def State.modRail (s : State) (r : Rail) (f : RailSt → RailSt) : State := { s with rail := upd s.rail r f }
/-- A die's thermal state changed. -/
def State.modDie (s : State) (d : DieIx) (f : DieTh → DieTh) : State := { s with die := upd s.die d f }
/-- A spire changed. -/
def State.modSpire (s : State) (p : Spire) (f : SpireSt → SpireSt) : State := { s with spire := upd s.spire p f }
/-- The host port changed. -/
def State.modHp (s : State) (f : HostPort → HostPort) : State := { s with hp := f s.hp }
/-- A ring changed. -/
def State.modRing (s : State) (q : Ring) (f : RingSt → RingSt) : State :=
  s.modHp fun h => { h with rings := upd h.rings q f }
/-- The mode block changed. -/
def State.modMode (s : State) (f : ModeSt → ModeSt) : State := { s with mode := f s.mode }
/-- The arbiter changed. -/
def State.modArb (s : State) (f : Arb → Arb) : State := { s with arb := f s.arb }
/-- The power path changed. -/
def State.modPower (s : State) (f : Power → Power) : State := { s with power := f s.power }
/-- The course engine changed. -/
def State.modCourse (s : State) (f : Course → Course) : State := { s with course := f s.course }
/-- The river ring changed. -/
def State.modRv (s : State) (f : River → River) : State := { s with rv := f s.rv }
/-- The OTP block changed. -/
def State.modOtp (s : State) (f : Otp → Otp) : State := { s with otp := f s.otp }
/-- The Silt log changed. -/
def State.modSilt (s : State) (f : Silt → Silt) : State := { s with silt := f s.silt }

/-- A step repeated over a list of indices, in order. -/
def forAll {α : Type} (l : List α) (f : α → State → State) (s : State) : State := l.foldl (fun t a => f a t) s

/-- All channels in rising order. -/
def allCh : List Ch := List.finRange 256
/-- All engines in rising order. -/
def allEng : List Eng := List.finRange 272
/-- All compare units in rising order. -/
def allUnits : List CUnit := List.finRange 544
/-- All spires in rising order. -/
def allSpires : List Spire := List.finRange 16
/-- All rails in rising order. -/
def allRails : List Rail := List.finRange 10
/-- All dies in rising order. -/
def allDies : List DieIx := List.finRange 34
/-- All rings in rising order. -/
def allRings : List Ring := List.finRange 24

/-- The spire of a channel: 16 channels each, in order (00_scope.md, R12). -/
def spireOf (c : Ch) : Spire := ⟨c.val / 16, by omega⟩
/-- The stage die of a channel: 8 channels each, in order (R12). -/
def dieOf (c : Ch) : StageDie := ⟨c.val / 8, by omega⟩
/-- The channel's slot in its spire. -/
def slotOf (c : Ch) : Fin 16 := ⟨c.val % 16, by omega⟩
/-- The channel in a slot of a spire. -/
def chanAt (p : Spire) (k : Fin 16) : Ch := ⟨16 * p.val + k.val, by omega⟩
/-- The channels of a stage die. -/
def chansOfDie (d : StageDie) : List Ch := (List.finRange 8).map fun k => ⟨8 * d.val + k.val, by omega⟩
/-- The channels of a spire. -/
def chansOfSpire (p : Spire) : List Ch := (List.finRange 16).map (chanAt p)
/-- The home engine of a channel. -/
def homeOf (c : Ch) : Eng := ⟨c.val, by omega⟩
/-- The spare engine of a spire. -/
def spareOf (p : Spire) : Eng := ⟨256 + p.val, by omega⟩
/-- The spire of an engine. -/
def spireOfEng (e : Eng) : Spire :=
  if h : e.val < 256 then ⟨e.val / 16, by omega⟩ else ⟨e.val - 256, by omega⟩
/-- The compare units of Table 04.1. -/
def bndUnit (c : Ch) : CUnit := ⟨32 + c.val, by omega⟩
/-- Sample compare of a channel (Table 04.1). -/
def smpUnit (c : Ch) : CUnit := ⟨288 + c.val, by omega⟩
/-- System compare (Table 04.1). -/
def sysUnit (n : Fin 32) : CUnit := ⟨n.val, by omega⟩

/-! ### Clocks -/

/-- The state clock makes edges: the Dome runs and the module is not frozen (R20, R409). -/
def State.clockOn (s : State) : Bool := s.mode.domeRun && !s.mode.frozen

/-- The tick base as a natural number. -/
def State.now (s : State) : Nat := s.tick.now.toNat

/-- Ticks in a second (5 ns each, Table 00.4). -/
def ticksPerS : Nat := 200000000
/-- Ticks in a millisecond. -/
def ticksPerMs : Nat := 200000
/-- Ticks in a microsecond. -/
def ticksPerUs : Nat := 200

/-- An act of period `n` ticks is due again (assumption 85). -/
def State.paced (s : State) (last : Option Nat) (n : Nat) : Bool := last.all fun t => decide (t + n ≤ s.tick.wall)

/-- One free value taken (Config.freeWord; assumption 5). -/
def State.takeFree (s : State) : W32 × State := (Config.freeWord s.free, { s with free := s.free + 1 })

/-! ### Mode status -/

/-- Code of `MODE_STATUS.MODE` (Table 02.7). SHIP is never readable; the field then keeps its reset value. -/
def Mode.code : Mode → Nat
  | .ship => 1 | .standby => 1 | .ready => 2 | .field => 3 | .road => 4 | .service => 5

/-- READY, FIELD, ROAD and SERVICE (R275). -/
def Mode.isLink : Mode → Bool
  | .ready | .field | .road | .service => true
  | _ => false

/-- Level of `WAKE` (Table 02.7): low until it has qualified, high at the tick at which it did, and a free value after that, as no row
tells when it falls. -/
def State.wakeHigh (s : State) : Bool :=
  s.mode.pins.wake && (s.tick.wall = s.mode.pins.wakeAt || Config.wakeLevel s.tick.wall)

/-- `MODE_STATUS` (Table 02.7). -/
def State.modeStatus (s : State) : W32 :=
  let m := s.mode
  let b (x : Bool) (k : Nat) : Nat := if x then 2 ^ k else 0
  BitVec.ofNat 32 (m.mode.code + b m.frozen 4 + b m.fault 5 + b m.restricted 6 + m.bootStep.toNat * 256
    + b m.pins.key 16 + b s.wakeHigh 17 + b m.pins.tf 18 + b m.move.isSome 19)

/-! ### The Silt queue (R402) -/

/-- The queue with a record added: an F3 EVENT record goes ahead of every record of a lower class. -/
def siltInsert (q : List SiltBody) (b : SiltBody) : List SiltBody :=
  if b.cls = 3 && b.type = 1 then
    q.takeWhile (fun x => x.cls = 3) ++ b :: q.dropWhile (fun x => x.cls = 3)
  else q ++ [b]

/-- The queue without its newest record of a class below `cls`; none when there is no such record. -/
def siltDisplace (q : List SiltBody) (cls : BitVec 2) : Option (List SiltBody) :=
  match (q.reverse.findIdx? (fun x => x.cls < cls)) with
  | some i => some (q.eraseIdx (q.length - 1 - i))
  | none => none

/-- A write into the log begins: its slot is erased, and reads as torn until the record is committed (R402, R404). -/
def Silt.begin (x : Silt) (b : SiltBody) (second : Bool) : Silt :=
  let slot := (x.head + (if second then 2 else 1)) % 512
  { x with slots := x.slots.set (slot % 512) .torn (Nat.mod_lt _ (by decide)), writing := some (b, second) }

/-- The Turret starts the next write when none is in progress and its supply allows one (R402, R403). -/
def State.siltStart (s : State) : State :=
  if s.silt.writing.isNone && !s.silt.supplyLow && !s.silt.erasing then
    match s.silt.queue with
    | [] => s
    | b :: rest => s.modSilt fun x => { x with queue := rest }.begin b false
  else s

/-- A record queued for the Silt log (R402). -/
def State.siltPush (s : State) (type : Byte) (cls : BitVec 2) (code : BitVec 16) (payload : List Byte) : State :=
  let b : SiltBody := { time := BitVec.ofNat 32 (s.tick.wall / ticksPerMs), pon := BitVec.ofNat 16 s.silt.pon,
                        type := type, cls := cls, code := code, payload := payload }
  if s.silt.queue.length < 8 then
    (s.modSilt fun x => { x with queue := siltInsert x.queue b }).siltStart
  else match siltDisplace s.silt.queue cls with
    | some q => (s.modSilt fun x => { x with queue := siltInsert q b }).count R.SILT_CNT_DROPPED
    | none => s.count R.SILT_CNT_DROPPED

/-! ### Events (R286, R397, R499) -/

/-- An event entering the event store of 256 entries (R286). -/
def State.storeEvent (s : State) (e : Evt) : State :=
  let lose (t : State) : State :=
    (t.countReg R.HP_EVT_LOST).modHp fun h =>
      { h with lost := h.lost + 1, lostTick := if h.lost = 0 then t.tick.now else h.lostTick }
  if s.hp.events.length < 256 then s.modHp fun h => { h with events := h.events ++ [e] }
  else if e.cls = 0 then lose s
  else match s.hp.events.findIdx? (fun x => x.cls = 0) with
    | some i => lose (s.modHp fun h => { h with events := h.events.eraseIdx i ++ [e] })
    | none => lose s

/-- `ERR_N` driven low for PULSE_US from now on (R400). A trigger during a pulse restarts that pulse. -/
def State.errPulse (s : State) : State :=
  let until_ := s.tick.wall + s.get R.FLT_ERR_CFG_PULSE_US * ticksPerUs
  let s := if s.flt.pulseUntil.isNone then s.count R.FLT_ERR_CTRL_PULSES else s
  { s.putFlag R.FLT_ERR_CTRL_LOW true with flt := { s.flt with pulseUntil := some until_ } }

/-- Payload of an EVENT record (Table 15.5). -/
def State.eventPayload (s : State) (data : W32) (src : Nat) (broken : Bool) : List Byte :=
  leBytes 8 (if s.mode.domeRun then s.now else 0) ++ leBytes 4 data.toNat ++ leBytes 4 s.modeStatus.toNat
    ++ [BitVec.ofNat 8 src, if broken then 1 else 0]

/-- The two halves of the counter and pulse action of a class (Table 15.2). -/
def State.classCount (s : State) (cls : BitVec 2) : State :=
  match cls.toNat with
  | 0 => s.count R.FLT_CNT_F0
  | 1 => s.count R.FLT_CNT_F1
  | 2 => s.count R.FLT_CNT_F2
  | _ => s.count R.FLT_CNT_F3

/-- The Silt record of an F2 event: at most one per code in 10 s (Table 15.2). -/
def State.f2Record (s : State) (code : BitVec 16) (payload : List Byte) : State :=
  match s.silt.f2Last.find? (fun p => p.1 = code) with
  | some (_, t) =>
    if s.tick.wall < t + 10 * ticksPerS then s.count R.SILT_CNT_SUPPRESSED
    else (s.modSilt fun x => { x with f2Last := (code, s.tick.wall) :: x.f2Last.filter (fun p => p.1 ≠ code) }).siltPush
           1 2 code payload
  | none => (s.modSilt fun x => { x with f2Last := (code, s.tick.wall) :: x.f2Last }).siltPush 1 2 code payload

/-- A notice queued for one ring: at most 16 wait, and an F3 displaces the newest waiting F2 (R445). -/
def noticePush (l : List RvNotice) (n : RvNotice) : List RvNotice :=
  if l.length < 16 then l ++ [n]
  else if n.cls = 3 then
    match l.reverse.findIdx? (·.cls = 2) with
    | some i => l.eraseIdx (l.length - 1 - i) ++ [n]
    | none => l
  else l

/-- A fault notice of this module queued for both rings while it is on a ring (R445). -/
def State.sendNotice (s : State) (code : BitVec 16) (cls : BitVec 2) (data : W32) : State :=
  if s.rv.role = .none_ then s
  else
    let n : RvNotice := { src := BitVec.ofNat 10 s.rv.pos, cls := cls, code := code, data := data }
    s.modRv fun r => { r with noticeA := noticePush r.noticeA n, noticeB := noticePush r.noticeB n }

/-- The notice of an F3 event, and of an F2 event while `RV_CFG.F2_OUT` = 1 (R445). -/
def State.notice (s : State) (code : BitVec 16) (cls : BitVec 2) (data : W32) : State :=
  if cls = 3 || (cls = 2 && s.flag R.RV_CFG_F2_OUT) then s.sendNotice code cls data else s

/-- How an event is recorded beyond its code, class and data: source index and broken pair of the collector
(Table 15.5), and whether its owning chapter writes a record of another type. -/
structure RaiseOpt where
  src : Nat := 0x7F
  broken : Bool := false
  ownRecord : Bool := false

/-- The raising of an event with the actions of its class (R286, R397, Table 15.2). An F3 event is kept for
FAULT_STATE_ENTRY, which carries out Table 15.3. -/
def State.raiseWith (s : State) (code : BitVec 16) (cls : BitVec 2) (data : W32) (o : RaiseOpt) : State :=
  let s := s.classCount cls
  let s := if cls ≠ 0 || s.flag R.HP_EVT_CFG_F0_EN then s.storeEvent ⟨s.tick.now, data, code, cls⟩ else s
  let s := if cls = 3 || bits (s.get R.FLT_ERR_CFG_CLASS_MASK) cls.toNat 1 = 1 then s.errPulse else s
  let s :=
    if cls = 2 then
      let s := s.putFlag R.FLT_STAT_DEGRADED true
      if o.ownRecord then s else s.f2Record code (s.eventPayload data o.src o.broken)
    else if cls = 3 then
      let s := if o.ownRecord then s else s.siltPush 1 3 code (s.eventPayload data o.src o.broken)
      if s.mode.fault then s
      else s.modMode fun m => { m with f3Pend := m.f3Pend ++ [⟨code, o.src, o.broken⟩] }
    else s
  s.notice code cls data

/-- An event with no source of the collector. -/
def State.raise (s : State) (code : BitVec 16) (cls : BitVec 2) (data : W32 := 0) : State :=
  s.raiseWith code cls data {}

/-- The event of a source and its class recorded for its present qualification (R498). -/
def State.srcRaised (s : State) (src : Fin 128) (code : BitVec 16) (cls : BitVec 2) : State :=
  { s with flt := { s.flt with evt := (src, code, cls) :: s.flt.evt.filter (fun e => !(e.1 = src && e.2.1 = code)) } }

/-- An event of fault source `src` raised by the row that owns it (Table 15.1). The pair of the source raises it instead
when it has qualified first with that event, and never a second time. -/
def State.raiseSrc (s : State) (src : Fin 128) (code : BitVec 16) (cls : BitVec 2) (data : W32 := 0) (own : Bool := false) :
    State :=
  let done := s.flt.active.contains src && !s.flt.told.contains src && s.flt.evt.any (fun e => e.1 = src && e.2.1 = code)
  let s := { s with flt := { s.flt with told := if s.flt.told.contains src then s.flt.told else src :: s.flt.told } }
  if done then s else (s.srcRaised src code cls).raiseWith code cls data { src := src.val, ownRecord := own }

/-- R499: whether a rate-limited event of this code and unit may be raised now. -/
def State.mayRaise (s : State) (code : BitVec 16) (unit interval : Nat) : Bool :=
  match s.hp.rate.find? (fun r => r.1 = code && r.2.1 = unit) with
  | some r => r.2.2 + interval ≤ s.now
  | none => true

/-- An event raised at most once per interval for one unit (R499). -/
def State.raiseLimited (s : State) (code : BitVec 16) (cls : BitVec 2) (data : W32) (unit : Nat)
    (interval : Nat := ticksPerS) : State :=
  if s.mayRaise code unit interval then
    (s.modHp fun h => { h with rate := (code, unit, s.now) :: h.rate.filter (fun r => !(r.1 = code && r.2.1 = unit)) }).raise
      code cls data
  else s

/-! ### Completion entries (R277, R278) -/

/-- The requester that writes a ring's entries (Table 11.1); a spire served by the relief agent uses A16. -/
def State.rqOf (s : State) (q : Ring) : Rq :=
  if h : q.val < 16 then
    if s.arb.relief = some ⟨q.val, h⟩ then 16 else ⟨q.val, by omega⟩
  else if q.val = 16 then 17 else if q.val = 17 then 18 else if q.val = 18 then 19 else 20

/-- The completion ring of a submission ring: Q20 + `Qn_CFG.CQ` (R278). -/
def State.cqOf (s : State) (q : Ring) : Fin 4 := ⟨s.get (R.Q_CFG_CQ q) % 4, by omega⟩

/-- The ring of a completion-ring index. -/
def cqRing (k : Fin 4) : Ring := ⟨20 + k.val, by omega⟩

/-- A spire's ring is stalled: nobody writes its entries (R258). -/
def State.stalledRq (s : State) (rq : Rq) : Option Spire :=
  if h : rq.val < 16 then
    if (s.hp.rings[(⟨rq.val, by omega⟩ : Ring)]).stalled then some ⟨rq.val, h⟩ else none
  else none

/-- An entry held for a completion ring until its requester is granted (R278); a stalled spire keeps its completions in its store of
1,024 entries (R258). -/
def State.hold (s : State) (k : Fin 4) (rq : Rq) (e : Entry) : State :=
  match s.stalledRq rq with
  | some p => s.modSpire p fun x => { x with store := if x.store.length < 1024 then x.store ++ [e] else x.store }
  | none => s.modHp fun h => { h with cq := upd h.cq k (· ++ [⟨rq, e, s.now⟩]) }

/-- Size of a ring in entries (R268). -/
def State.ringSize (s : State) (q : Ring) : Nat := 2 ^ s.get (R.Q_CFG_SIZE_LOG2 q)

/-- The command entry of a descriptor (Table 10.9), with the count and event of a refusal (Table 10.14). -/
def State.completeOne (s : State) (q : Ring) (x : InExec) (status : Byte) (info : W64) (r276 : Bool := true) : State :=
  let shown := if status = 0 || status = 0x22 then info else 0
  let s := s.hold (s.cqOf q) (s.rqOf q) (.cmd shown x.tag x.sqhd status q)
  if status < 0x10 then s
  else
    let s := s.count (R.Q_CNT_REFUSED q)
    if r276 then s.raiseLimited 0x0203 0 (BitVec.ofNat 32 (q.val + status.toNat * 256 + x.slot * 65536)) q.val else s

/-- Barriers at the head of a ring's accepted descriptors complete (R275). -/
def State.barriers (s : State) (q : Ring) : State :=
  let l := (s.hp.rings[q]).pend
  let lead := l.takeWhile (·.op = 0x81)
  let s := s.modRing q fun r => { r with pend := l.dropWhile (·.op = 0x81) }
  lead.foldl (fun s x => s.completeOne q x 0 0) s

/-- The descriptor of a TAG and slot that a ring executes, or else the earliest one that it has accepted. -/
def RingSt.find (r : RingSt) (tag : BitVec 16) (slot : Nat) : Option InExec :=
  let mine (x : InExec) : Bool := x.tag = tag && x.slot = slot
  (r.exec.filter mine).or (r.pend.find? mine)

/-- A descriptor completes (R271, R277): its entry, its place among those accepted, and the barriers that waited for it. One that
a reset of the host port has dropped writes nothing (R41). -/
def State.complete (s : State) (q : Ring) (tag : BitVec 16) (slot : Nat) (status : Byte) (info : W64)
    (r276 : Bool := true) : State :=
  match (s.hp.rings[q]).find tag slot with
  | some x =>
    let s := s.completeOne q x status info r276
    (s.modRing q fun r =>
      if r.exec = some x then { r with exec := none } else { r with pend := r.pend.erase x }).barriers q
  | none => s

/-- What the module sends out, recorded (the model's own output record). -/
def State.send (s : State) (o : Out) : State := s.modHp fun h => { h with sent := h.sent ++ [o] }

end Sys2Proof.Machine
end

