-- ==== Sys2Proof/Machine/Eddy.lean ====
section
/-! DEFINITION. Names of spires, channels and engines in events, and the Eddy buffers (R301 to R304). -/

namespace Sys2Proof.Machine

/-- Event code 0x10 + spire : low byte (R11, R12). -/
def spireCode (p : Spire) (lo : Nat) : BitVec 16 := BitVec.ofNat 16 ((0x10 + p.val) * 256 + lo)

/-- Event code of a channel's spire. -/
def chCode (c : Ch) (lo : Nat) : BitVec 16 := spireCode (spireOf c) lo

/-- An engine number as `TKO_SEL.ENGINE` codes it: home position 0 to 15, 16 for the spare (Table 09.5). -/
def engCode (e : Eng) : Nat := if e.val < 256 then e.val % 16 else 16

/-! ### Eddy buffers (R301, R302, R304) -/

/-- `EDDY_CFG.TRIG`; 5 to 7 act as 0. -/
def Eddy.trig (x : Eddy) : Nat := let t := bits x.cfg.toNat 2 3; if t ≤ 4 then t else 0
/-- `EDDY_CFG.SC`. -/
def Eddy.sc (x : Eddy) : Nat := bits x.cfg.toNat 5 5
/-- `EDDY_CFG.KIND`. -/
def Eddy.kind (x : Eddy) : Nat := bits x.cfg.toNat 10 8
/-- `EDDY_CFG.POST`. -/
def Eddy.post (x : Eddy) : Nat := bits x.cfg.toNat 18 7

/-- A trigger from a source (R302): POST further records are stored, then the buffer holds. One that has triggered does
so again only after an EDDY_CLEAR. -/
def State.eddyTrigger (s : State) (e : Eng) (src : Nat) : State :=
  let x := (s.eng[e]).eddy
  if x.trig = src && !x.triggered then
    (s.modEng e fun g => { g with eddy :=
        { g.eddy with triggered := true, postLeft := x.post, holding := g.eddy.holding || x.post = 0 } }).raise 0x0303 0
      (BitVec.ofNat 32 ((spireOfEng e).val + engCode e * 16 + src * 512))
  else s

/-- A record that a buffer stores: with MODE = 0 a full buffer loses its oldest record (R302). -/
def Eddy.push (x : Eddy) (r : EddyRec) : Eddy :=
  let full := 128 ≤ x.recs.length
  let left := x.postLeft - 1
  { x with recs := (if full then x.recs.drop 1 else x.recs) ++ [r]
           oldest := if full then (x.oldest + 1) % 128 else x.oldest
           postLeft := if x.triggered then left else x.postLeft
           holding := x.holding || (x.triggered && left = 0) }

/-- A record at TRACE_END: stored, or dropped and counted; stored records of a streaming engine go to the stream (R302 to
R304). -/
def State.eddyStore (s : State) (e : Eng) (r : EddyRec) : State :=
  let k := ((r.words.headD 0).toNat) % 256
  let s := if (s.eng[e]).eddy.trig = 3 && k = (s.eng[e]).eddy.kind then s.eddyTrigger e 3 else s
  let x := (s.eng[e]).eddy
  if x.copying || x.holding || (x.cfg.getLsbD 0 && 128 ≤ x.recs.length) then
    s.modEng e fun g => { g with eddy := { g.eddy with dropped := min 65535 (g.eddy.dropped + 1) } }
  else
    let s := s.modEng e fun g => { g with eddy := g.eddy.push r }
    if s.flag R.EDDY_STRM_EN && x.cfg.getLsbD 1 then s.modArb fun a => { a with streamQ := a.streamQ ++ [r] } else s

end Sys2Proof.Machine
end

