-- ==== Sys2Proof/Machine/Flags.lean ====
section
/-! DEFINITION. The engine FLAGS (Table 06.4) and the results that set them: every saturation and the reciprocal
rules of R143. -/

namespace Sys2Proof.Machine

/-- FLAGS.SAT, Table 06.4. -/
def flagSAT : BitVec 5 := 0x01
/-- FLAGS.DZ. -/
def flagDZ : BitVec 5 := 0x02
/-- FLAGS.FENCE: the verdict on the latest fenced OUT. -/
def flagFENCE : BitVec 5 := 0x04
/-- FLAGS.EMPTY: the latest P read found its FIFO empty. -/
def flagEMPTY : BitVec 5 := 0x08
/-- FLAGS.LB: a lock break. -/
def flagLB : BitVec 5 := 0x10

/-- A flag set to a value. -/
def Engine.withFlag (x : Engine) (f : BitVec 5) (b : Bool) : Engine :=
  { x with flags := if b then x.flags ||| f else x.flags &&& ~~~f }

/-- Sticky flags set (R143). -/
def Engine.orFlags (x : Engine) (f : BitVec 5) : Engine := { x with flags := x.flags ||| f }

/-- sat32 of a signed integer: the word and the flags it sets (R143). -/
def sat32 (v : Int) : W32 × BitVec 5 :=
  if v > 2147483647 then (0x7FFFFFFF, flagSAT)
  else if v < -2147483648 then (0x80000000, flagSAT)
  else (BitVec.ofInt 32 v, 0)

/-- sat64 of a signed integer: the accumulator and the flags it sets (R143). -/
def sat64 (v : Int) : W64 × BitVec 5 :=
  if v > 9223372036854775807 then (0x7FFFFFFFFFFFFFFF, flagSAT)
  else if v < -9223372036854775808 then (0x8000000000000000, flagSAT)
  else (BitVec.ofInt 64 v, 0)

/-- RCP: round(2^32 ÷ a) unsigned; a = 1 saturates, a = 0 sets DZ and SAT (R143). -/
def rcpU (a : W32) : W32 × BitVec 5 :=
  if a = 0 then (0xFFFFFFFF, flagDZ ||| flagSAT)
  else if a = 1 then (0xFFFFFFFF, flagSAT)
  else (BitVec.ofInt 32 (roundDiv 4294967296 a.toNat), 0)

/-- RCPS: sat32(round(2^31 ÷ a)) signed; a = 0 gives 0x7FFF_FFFF with DZ and SAT (R143). -/
def rcpS (a : W32) : W32 × BitVec 5 :=
  if a = 0 then (0x7FFFFFFF, flagDZ ||| flagSAT) else sat32 (roundDiv 2147483648 a.toInt)

/-- MFA: sat32(round(ACC ÷ 2^b)) (Table 06.3). -/
def mfaWord (acc : W64) (b : Nat) : W32 × BitVec 5 := sat32 (roundDiv acc.toInt (2 ^ b : Nat))

end Sys2Proof.Machine
end

