-- ==== Sys2Proof/Machine/Operands.lean ====
section
/-! DEFINITION. How an engine instruction reads its operands, writes its result and uses data RAM, and the one frame
that every instruction runs in: issue, exception, cycle count and program counter (R138 to R143, R157 to R160). -/

namespace Sys2Proof.Machine

/-- A general register; g0 reads 0 (R140). -/
def Engine.getG (x : Engine) (r : GReg) : W32 := if r = 0 then 0 else x.g[r]

/-- A general register written; a write to g0 is discarded (R140). -/
def Engine.setG (x : Engine) (r : GReg) (v : W32) : Engine := if r = 0 then x else { x with g := x.g.set r v }

/-- sext(imm16). -/
def sext16 (i : BitVec 16) : W32 := i.signExtend 32

/-- zext(imm16). -/
def zext16 (i : BitVec 16) : W32 := i.zeroExtend 32

/-- Causes of Table 06.7. -/
inductive ExcCode where
  | illegal | pc | align | range | port | lock | watchdog | trap
  deriving DecidableEq, Repr

/-- The code of a cause (Table 06.7). -/
def ExcCode.code : ExcCode → BitVec 4
  | .illegal => 1 | .pc => 2 | .align => 3 | .range => 4 | .port => 5 | .lock => 6 | .watchdog => 7 | .trap => 8

/-- What an instruction's own effect answers: an exception before any change, the next instruction in sequence (with
the register that a load wrote, if any), or a taken branch or jump. -/
inductive EngRes where
  | exc (c : ExcCode)
  | seq (x : Engine) (load : Option GReg)
  | jump (x : Engine) (target : W32)

/-- Whether an engine can issue an instruction: its clock runs, it runs, and it is neither asleep, halted nor
retired (R147, R159, R247, R420). -/
def State.canIssue (s : State) (e : Eng) : Bool :=
  let x := s.eng[e]
  s.clockOn && x.running && x.asleep.isNone && !x.halted && !x.retired

/-- A destination is allowed: inside a locked sequence only ga, gb and g0 (R157). -/
def Engine.mayWrite (x : Engine) (d : GReg) : Bool :=
  match x.lock with
  | none => true
  | some l => d = 0 || d = l.ga || d = l.gb

/-- Cycles charged to the watchdog, the load-use stall of R142 included. -/
def Engine.charge (x y : Engine) (reads : List GReg) (cyc : Nat) (load : Option GReg) : Engine :=
  let stall := match x.lastLoad with
    | some r => if reads.contains r then 1 else 0
    | none => 0
  { y with wdog := x.wdog + cyc + stall, lastLoad := load }

/-- The channel named in an engine's events: the one it serves, else the one it lost, else its home channel. -/
def Engine.evtChan (x : Engine) (e : Eng) : Nat :=
  match x.chan with
  | some c => c.val
  | none => match x.lostCh with
    | some c => c.val
    | none => e.val % 256

/-- The events that follow the stop of a deposed engine, and the start of its self-test (R247, R248): event 0x83 with
the reason. -/
def State.deposedStop (s : State) (e : Eng) (reason : Nat) : State :=
  let s := s.modEng e fun x => { x with running := false, deposedAt := none, selfTest := some s.now, asleep := none,
                                        pend := 0, lock := none }
  s.raise (spireCode (spireOfEng e) 0x83) 0 (BitVec.ofNat 32 (engCode e + 32 * reason))

/-- An exception (R159): the engine stops before the instruction changes anything, EXC and EXC_PC record it, and event
0x62 is raised. A deposed engine stops for good (R247). -/
def State.engExc (s : State) (e : Eng) (c : ExcCode) (pc : Nat) (imm : Nat) : State :=
  let x := s.eng[e]
  let data := x.evtChan e + c.code.toNat * 256 + imm * 65536
  let s := s.modEng e fun y => { y with running := false, exc := c.code, excPc := BitVec.ofNat 11 (pc / 4) }
  let s := (s.raise (spireCode (spireOfEng e) 0x62) 0 (BitVec.ofNat 32 data)).eddyTrigger e 2
  if x.role = .deposed then s.deposedStop e 2 else s

/-- After an instruction that does not jump: PC moves to the next word; past CODE_LEN the engine takes exception 0x2
with EXC_PC at the instruction just executed (Table 06.7). -/
def State.seqPc (s : State) (e : Eng) : State :=
  let x := s.eng[e]
  let s := s.modEng e fun y => { y with pc := y.pc + 4 }
  if x.codeLen ≤ x.pc + 4 then s.engExc e .pc x.pc 0 else s

/-- The frame of every engine instruction. `reads` are the registers it reads, `cyc` its cycles when it falls through,
`cycTaken` when it jumps. A target at or beyond CODE_LEN or not divisible by 4 is exception 0x2 of this instruction. -/
def runInsn (e : Eng) (reads : List GReg) (cyc cycTaken : Nat) (f : Engine → EngRes) (s : State) : Res :=
  if s.canIssue e then
    let x := s.eng[e]
    match f x with
    | .exc c => .next (s.engExc e c x.pc 0)
    | .seq y ld => .next ((s.modEng e fun _ => x.charge y reads cyc ld).seqPc e)
    | .jump y t =>
      if t.toNat % 4 = 0 && t.toNat < x.codeLen then
        .next (s.modEng e fun _ => { x.charge y reads cycTaken none with pc := t.toNat })
      else .next (s.engExc e .pc x.pc 0)
  else .next s

/-- An instruction that computes one register from the engine's registers. -/
def aluInsn (e : Eng) (d : GReg) (reads : List GReg) (cyc : Nat) (f : Engine → W32 × BitVec 5) (s : State) : Res :=
  runInsn e reads cyc cyc
    (fun x => if x.mayWrite d then
        let r := f x
        .seq ((x.setG d r.1).orFlags r.2) none
      else .exc .lock) s

/-- An instruction that writes ACC: forbidden in a locked sequence (R157). -/
def accInsn (e : Eng) (reads : List GReg) (f : Engine → W64 × BitVec 5) (s : State) : Res :=
  runInsn e reads 1 1
    (fun x => if x.lock.isSome then .exc .lock
      else let r := f x
        .seq ({ x with acc := r.1 }.orFlags r.2) none) s

/-- The data address of a load or store, or its exception: 0x3 for alignment, 0x4 above 0x1FFF (Table 06.7). -/
def dataAddr (x : Engine) (a : GReg) (imm : BitVec 16) (size : Nat) : Except ExcCode Nat :=
  let ad := (x.getG a + sext16 imm).toNat
  if ad % size ≠ 0 then .error .align
  else if 0x1FFF < ad then .error .range
  else .ok ad

/-- A load of `size` bytes. -/
def loadInsn (e : Eng) (d a : GReg) (imm : BitVec 16) (size : Nat) (ext : Nat → W32) (s : State) : Res :=
  runInsn e [a] 1 1
    (fun x => if x.mayWrite d then
        match dataAddr x a imm size with
        | .error c => .exc c
        | .ok ad => .seq (x.setG d (ext (memLe x.dram ad size))) (if d = 0 then none else some d)
      else .exc .lock) s

/-- A store of the low `size` bytes of the d field's register. -/
def storeInsn (e : Eng) (d a : GReg) (imm : BitVec 16) (size : Nat) (s : State) : Res :=
  runInsn e [a, d] 1 1
    (fun x => if x.lock.isSome then .exc .lock
      else match dataAddr x a imm size with
        | .error c => .exc c
        | .ok ad => .seq { x with dram := memWrite x.dram ad (leBytes size (x.getG d).toNat) } none) s

/-- PC + 4 + 4 × offset. -/
def relTarget (x : Engine) (off : W32) : W32 := BitVec.ofNat 32 (x.pc + 4) + (off <<< (2 : Nat))

/-- A branch on a comparison of two registers. -/
def branchInsn (e : Eng) (a b : GReg) (off : BitVec 16) (p : W32 → W32 → Bool) (s : State) : Res :=
  runInsn e [a, b] 1 2
    (fun x => if p (x.getG a) (x.getG b) then .jump x (relTarget x (off.signExtend 32)) else .seq x none) s

end Sys2Proof.Machine
end

