-- ==== Sys2Proof/Machine/Course.lean ====
section
/-! DEFINITION. The course engine (03_course_engine.md): the sources and their validity, fusion and fall-back, and the
integration of path lengths. What an update hands on to the predictor and the sequencers follows in CourseUpdate. -/

namespace Sys2Proof.Machine

/-- Course updates in 1 s (R52, R58). -/
def updPerS : Nat := 100000
/-- 2π µrad with 24 fractional bits (assumption 12). -/
def twoPiQ24 : Int := 105414357066578
/-- π µrad with 24 fractional bits (assumption 12). -/
def piQ24 : Int := 52707178533289

/-! ### Encoders and radar (R60, R61, R74) -/

/-- Length of the window of R60 in ticks. -/
def winTicks : Nat := ticksPerMs

/-- The ticks that a new edge leaves in the window, newest first: those of the last 1 ms, and at least two. -/
def pushEdge (now : Nat) (edges : List Nat) : List Nat :=
  match edges with
  | [] => [now]
  | e :: rest => now :: e :: rest.filter (fun x => now ≤ x + winTicks)

/-- µm/s of `n` counts of a Q16.16 µm scale over a span of ticks. -/
def countSpeed (scale n span : Nat) : Int := roundDiv (scale * n * ticksPerS : Nat) (65536 * span : Nat)

/-- The magnitude that R60 and R61 give: `held` and `heldIv` are the speed and the edge interval from before a thaw,
`ref` the tick from which the stale limit runs. -/
def windowSpeed (now scale : Nat) (edges : List Nat) (held : Int) (heldIv : Nat) (ref : Option Nat) : Int :=
  match ref with
  | none => 0
  | some r =>
    let w := edges.filter fun x => now ≤ x + winTicks
    let w := if w.length < 2 then edges.take 2 else w
    let m : Int := match w with
      | a :: b :: _ => countSpeed scale (w.length - 1) (a - (w.getLastD b))
      | _ => held
    let iv := match edges with
      | a :: b :: _ => a - b
      | _ => heldIv
    let since := now - r
    if iv ≠ 0 && iv < since then min m (countSpeed scale 1 since) else m

/-- The tick from which stale limit and STOP_MS run: the latest edge, or the thaw (R74). -/
def edgeRef (edges : List Nat) (thawAt : Option Nat) : Option Nat := edges.head?.or thawAt

/-- An encoder's magnitude at the present tick. -/
def Enc.mag (e : Enc) (now scale : Nat) : Int :=
  if e.stopped then 0
  else windowSpeed now scale e.edges (if e.thawAt.isSome then e.heldSpeed else 0) e.heldInterval (edgeRef e.edges e.thawAt)

/-- The radar's magnitude at the present tick. -/
def Radar.mag (r : Radar) (now scale : Nat) : Int :=
  if r.stopped then 0
  else windowSpeed now scale r.pulses (if r.thawAt.isSome then r.heldSpeed else 0) r.heldInterval
    (edgeRef r.pulses r.thawAt)

/-- The latest edge interval of a window, or what was held before. -/
def lastInterval (edges : List Nat) (held : Nat) : Nat :=
  match edges with
  | a :: b :: _ => a - b
  | _ => held

/-- An encoder after a thaw: edges from before the freeze are dropped (R74), and a level that has not counted yet is held
anew from the thaw. -/
def Enc.thawed (e : Enc) (now : Nat) : Enc :=
  { e with edges := [], aAt := now, bAt := now, heldInterval := lastInterval e.edges e.heldInterval,
           thawAt := if (edgeRef e.edges e.thawAt).isSome then some now else none }

/-- The radar after a thaw (R74). -/
def Radar.thawed (r : Radar) (now : Nat) : Radar :=
  { r with pulses := [], heldInterval := lastInterval r.pulses r.heldInterval,
           thawAt := if (edgeRef r.pulses r.thawAt).isSome then some now else none }

/-- Registers of one encoder. -/
def State.encScale (s : State) (n : Fin 2) : Nat := s.regN (if n = 0 then R.ENC0_SCALE else R.ENC1_SCALE)
/-- `ENCn_DIR_INV`. -/
def State.encInv (s : State) (n : Fin 2) : Bool :=
  s.flag (if n = 0 then R.ENC_CFG_ENC0_DIR_INV else R.ENC_CFG_ENC1_DIR_INV)
/-- One encoder. -/
def State.enc (s : State) (n : Fin 2) : Enc := if n = 0 then s.course.enc0 else s.course.enc1
/-- One encoder changed. -/
def State.modEnc (s : State) (n : Fin 2) (f : Enc → Enc) : State :=
  s.modCourse fun c => if n = 0 then { c with enc0 := f c.enc0 } else { c with enc1 := f c.enc1 }

/-- Signed wheel speed (R60). -/
def State.encSpeed (s : State) (n : Fin 2) : Int :=
  let m := (s.enc n).mag s.now (s.encScale n)
  if (s.enc n).dirNeg != s.encInv n then -m else m

/-- One counted edge on tick `t`: the filtered levels after it, and its direction. The direction of the four-fold count is
PRESUMED (assumption 13). -/
def Enc.edge (e : Enc) (onA : Bool) (t : Nat) : Enc :=
  let a := if onA then e.rawA else e.a
  let b := if onA then e.b else e.rawB
  let edges := pushEdge t e.edges
  { e with a := a, b := b, edges := edges, dirNeg := !(if onA then a != b else a == b), stopped := false,
           thawAt := if 2 ≤ edges.length then none else e.thawAt }

/-- The tick on which a changed level has held for FILT ticks, when it has come (R60). -/
def lineDue (raw filtered : Bool) (since filt now : Nat) : Option Nat :=
  if raw != filtered && decide (since + filt ≤ now) then some (since + filt) else none

/-- The filtered samples up to the present tick: an edge of one line is counted, a change of both lines between two of
them is a quadrature error (R60). -/
def Enc.settle (e : Enc) (filt now : Nat) : Enc :=
  match lineDue e.rawA e.a e.aAt filt now, lineDue e.rawB e.b e.bAt filt now with
  | none, none => e
  | some t, none => e.edge true t
  | none, some t => e.edge false t
  | some t, some u =>
    if t = u then { e with a := e.rawA, b := e.rawB, qerrs := 0 :: e.qerrs }
    else if t < u then (e.edge true t).edge false u
    else (e.edge false u).edge true t

/-- The filter of one encoder carried to the present tick, a quadrature error counted (R60). -/
def State.encSettle (s : State) (n : Fin 2) : State :=
  if s.clockOn then
    let e := s.enc n
    let t := s.modEnc n fun e => e.settle (s.get R.ENC_CFG_FILT) s.now
    if (e.settle (s.get R.ENC_CFG_FILT) s.now).qerrs.length = e.qerrs.length then t
    else t.count (if n = 0 then R.COURSE_CNT_ENC0_QERR else R.COURSE_CNT_ENC1_QERR)
  else s

/-- New levels at the terminals of an encoder: a level that changes back before it has held for FILT ticks is dropped. -/
def Enc.lines (e : Enc) (a b : Bool) (now : Nat) : Enc :=
  { e with rawA := a, rawB := b, aAt := if e.rawA = a then e.aAt else now, bAt := if e.rawB = b then e.bAt else now }

/-- ENCODER_EDGE: the levels of both lines at the present tick (R60). What has held for FILT ticks counts, before and with
the new levels; a level that has not held yet counts at the next such command, ENCODER_STOP or course update (assumption
69). -/
def execEncoderEdge (n : Fin 2) (a b : Bool) (s : State) : Res :=
  .next (((s.encSettle n).modEnc n fun e => e.lines a b s.now).encSettle n)

/-- ENCODER_STOP: STOP_MS without an edge; the encoder stays valid at speed 0 (R60). -/
def execEncoderStop (n : Fin 2) (s : State) : Res :=
  let s := s.encSettle n
  match edgeRef (s.enc n).edges (s.enc n).thawAt with
  | some r =>
    if s.clockOn && r + s.get R.ENC_CFG_STOP_MS * ticksPerMs ≤ s.now then
      .next (s.modEnc n fun e => { e with stopped := true })
    else .next s
  | none => .next s

/-- RADAR_PULSE: one pulse (R61). -/
def execRadarPulse (s : State) : Res :=
  if s.clockOn then
    .next (s.modCourse fun c => { c with radar :=
      let p := pushEdge s.now c.radar.pulses
      { c.radar with pulses := p, stopped := false, thawAt := if 2 ≤ p.length then none else c.radar.thawAt } })
  else .next s

/-- RADAR_STOP: `RADAR_CFG.STOP_MS` without a pulse (R61). -/
def execRadarStop (s : State) : Res :=
  let r := s.course.radar
  match edgeRef r.pulses r.thawAt with
  | some t =>
    if s.clockOn && t + s.get R.RADAR_CFG_STOP_MS * ticksPerMs ≤ s.now then
      .next (s.modCourse fun c => { c with radar := { c.radar with stopped := true } })
    else .next s
  | none => .next s

/-- SPDAN_SAMPLE: one result of the SPEED_AN converter, which samples every 20,000 ticks; the phase of its samples, the
whole multiples of 20,000, is the model's (R62, assumption 70). -/
def execSpdanSample (code : BitVec 12) (s : State) : Res :=
  if s.clockOn && s.now % 20000 = 0 && s.course.spdanAt != some s.now then
    .next (s.modCourse fun c => { c with spdan := (code.toNat :: c.spdan).take 10, spdanAt := some s.now })
  else .next s

/-- Sum of the last ten codes; a quarter of it is their mean in mV (R62). -/
def Course.spdanSum (c : Course) : Nat := c.spdan.foldl (· + ·) 0

/-! ### Stamped sources (R63, R64) -/

/-- Age of a stamp at the present tick, 0 to 200 ms in ticks (R63). -/
def State.ageOf (s : State) (stamp : Int) : Int := clampI 0 40000000 ((s.now : Int) - stamp)

/-- a_s of R63 in µm/s², from the source's last two speeds; 0 while there are not two, or their stamps are equal (DESIGN
CHOICE, assumption 71). -/
def StSrc.accel (x : StSrc) : Int :=
  match x.speed, x.prevSpeed with
  | some a, some b => if a.stamp = b.stamp then 0
      else clampI (-10000000) 10000000 (roundDiv ((a.value - b.value) * ticksPerS) (a.stamp - b.stamp))
  | _, _ => 0

/-- A stamped speed carried forward to the present tick (R63). The addend is rounded, not the sum (DESIGN CHOICE, assumption
71). -/
def State.carried (s : State) (v : Stamped) (a : Int) : Int := v.value + roundDiv (a * s.ageOf v.stamp) ticksPerS

/-- The host pose captured by GO is latched or refused (R64). -/
def State.poseLatch (s : State) : State :=
  match s.course.pose with
  | none => s
  | some p =>
    let s := s.modCourse fun c => { c with pose := none }
    let stamp : Int := p.tick.toNat
    if (s.now : Int) < stamp || (s.get R.HOST_CFG_MAX_AGE_MS * ticksPerMs : Nat) < (s.now : Int) - stamp then
      (s.count R.COURSE_CNT_HOST_REFUSED).raise 0x0408 0
    else s.modCourse fun c =>
      let h := c.host
      let ok (k : Nat) : Bool := p.flags.getLsbD k
      { c with host :=
          { h with speed := if ok 0 then some ⟨p.v, stamp⟩ else none
                   prevSpeed := h.speed.or h.prevSpeed
                   heading := if ok 1 then some ⟨p.heading, stamp⟩ else none
                   newHeading := ok 1
                   yaw := if ok 2 then some ⟨p.omega, stamp⟩ else none
                   dirOk := ok 0 && ok 3
                   got := true, age := 0 } }

/-- `HOST_POSE_COMMIT.GO` written 1: the value registers are captured (R64). -/
def State.poseCommit (s : State) : State :=
  let p : Pose :=
    { tick := s.reg64 R.HOST_POSE_TICK, v := s.regI R.HOST_POSE_V, heading := s.regN R.HOST_POSE_HEADING,
      omega := s.regI R.HOST_POSE_OMEGA, flags := (s.reg R.HOST_POSE_FLAGS).extractLsb' 0 4 }
  s.modCourse fun c => { c with pose := some p }

/-- HOST_POSE_COMMIT: a write of 1 to GO (R64). -/
def execHostPoseCommit (s : State) : Res := if s.clockOn then .next s.poseCommit else .next s

/-! ### Validity (R58) -/

/-- Bit of a source code in `COURSE_CTRL.EN` (Table 03.6). -/
def enBit (code : Nat) : Nat := code - 2

/-- Enable of a source code; the pair needs both encoders. -/
def State.srcEn (s : State) (code : Nat) : Bool :=
  let en (k : Nat) : Bool := bits (s.get R.COURSE_CTRL_EN) k 1 = 1
  if code = 1 then en 0 && en 1 else en (enBit code)

/-- A joined tributary is slaved while |e| ≤ 200 ticks and a frame has been accepted within the last 10 frame periods (R435). -/
def State.slaved (s : State) : Bool :=
  s.rv.role = .tributary && s.rv.joined && s.rv.e.natAbs ≤ 1000000 && decide (s.now ≤ s.rv.lastTick + 20000)

/-- A source's condition of Table 03.2, enable included. A stamped source's time is ended by SOURCE_TIMEOUT. SPDAN is not
valid before ten results exist (DESIGN CHOICE, assumption 71). -/
def State.srcOk (s : State) (code : Nat) : Bool :=
  let c := s.course
  let encOk (n : Fin 2) : Bool := s.encScale n ≠ 0 && !(s.enc n).bad
  s.srcEn code && match code with
    | 1 => encOk 0 && encOk 1 && 100000 ≤ s.regN R.ENC_TRACK
    | 2 => encOk 0
    | 3 => encOk 1
    | 4 => s.regN R.RADAR_SCALE ≠ 0 && (c.radar.pulses.filter fun x => s.now < x + winTicks).length ≤ 20
    | 5 => s.reg R.SPDAN_GAIN ≠ 0 && c.spdan.length = 10 && 4 * s.get R.SPDAN_BAND_MIN ≤ c.spdanSum
             && c.spdanSum ≤ 4 * s.get R.SPDAN_BAND_MAX
    | 6 => c.gnss0.got
    | 7 => c.gnss1.got
    | 8 => c.host.got
    | 9 => s.slaved && c.ring.got
    | _ => false

/-- A source valid at the latest judgement. -/
def State.isValid (s : State) (code : Nat) : Bool := s.course.valid.getD code false

/-- A valid source that gives a speed now: a HOST speed only with its flag (R64). -/
def State.speedOk (s : State) (code : Nat) : Bool :=
  s.isValid code && (code ≠ 8 || s.course.host.speed.isSome)

/-- The validity of one source set, with events 0x0401 and 0x0402 (R66). -/
def State.setValid (code : Nat) (ok : Bool) (s : State) : State :=
  if s.isValid code == ok then
    s.modCourse fun c => { c with validFor := if ok then c.validFor.modify code (· + 1) else c.validFor }
  else
    (s.modCourse fun c => { c with valid := c.valid.set code ok,
                                   validFor := c.validFor.set code (if ok then 1 else 0) }).raise
      (if ok then 0x0402 else 0x0401) 0 (BitVec.ofNat 32 code)

/-- Quadrature errors judged (Table 03.2): 16 in the last 100 ms make an encoder invalid, none in 1 s lets it recover;
times in course updates. -/
def State.judgeEnc (n : Fin 2) (s : State) : State :=
  let s := s.modEnc n fun e => { e with qerrs := (e.qerrs.map (· + 1)).filter (· ≤ updPerS) }
  let e := s.enc n
  let recent := (e.qerrs.filter (· ≤ 10000)).length
  if !e.bad && 16 ≤ recent then (s.modEnc n fun e => { e with bad := true }).raise 0x040B 0 (BitVec.ofNat 32 (2 + n.val))
  else if e.bad && e.qerrs.isEmpty then s.modEnc n fun e => { e with bad := false }
  else s

/-- An update more since the latest accepted value of each stamped source (R58). -/
def Course.aged (c : Course) : Course :=
  let older (x : StSrc) : StSrc := { x with age := x.age + 1 }
  { c with gnss0 := older c.gnss0, gnss1 := older c.gnss1, host := older c.host, ring := older c.ring }

/-- The codes of Table 03.2. -/
def srcCodes : List Nat := [1, 2, 3, 4, 5, 6, 7, 8, 9]

/-- Validity of every source at a course update (R58). -/
def State.judge (s : State) : State :=
  let s := (s.judgeEnc 0).judgeEnc 1
  forAll srcCodes (fun c t => t.setValid c (s.srcOk c)) s

/-! ### Selection (R65, R66) -/

/-- The ranking of R65: RING on a tributary, then the slots of `COURSE_PRIO` from slot 0. -/
def State.ranking (s : State) : List Nat :=
  let slots := ((List.range 8).map fun k => bits (s.reg R.COURSE_PRIO).toNat (4 * k) 4).filter fun c => 1 ≤ c && c ≤ 8
  if s.rv.role = .tributary then 9 :: slots else slots

/-- A change of speed source: event 0x0400, a blend from the present v, or the start of a coast (R66 to R68). -/
def State.changeSource (s : State) (code : Nat) : State :=
  let old := s.course.speedSrc
  let s := s.raise 0x0400 0 (BitVec.ofNat 32 (code + old * 16))
  if code = 0 then
    (s.modCourse fun c => { c with speedSrc := 0, coasting := true, coastAt := s.now, coastOver := false, vBlend := none,
                                   dirUnknown := false, disagree := List.replicate 10 0 }).raise 0x0403 0
  else s.modCourse fun c =>
    { c with speedSrc := code, coasting := false, coastOver := false,
             vBlend := some ⟨c.v, s.now⟩, disagree := List.replicate 10 0 }

/-- The present source is kept while it is ranked and gives a speed; else it is lost, with event 0x0401 where its validity
has not raised it, and the first that gives one is taken (R66). -/
def State.select (s : State) : State :=
  let cur := s.course.speedSrc
  if cur ≠ 0 && s.ranking.contains cur && s.speedOk cur then s
  else
    let s := if cur ≠ 0 && s.isValid cur then s.raise 0x0401 0 (BitVec.ofNat 32 cur) else s
    let new := (s.ranking.find? s.speedOk).getD 0
    if new = cur then s else s.changeSource new

/-- SPEED_SOURCE_DISPLACE: a source that ranks above the present one and has been valid for 1 s without a break takes
its place (R66). -/
def execSpeedSourceDisplace (code : BitVec 4) (s : State) : Res :=
  let cur := s.course.speedSrc
  let above := s.ranking.takeWhile (· ≠ cur)
  let k := code.toNat
  if s.clockOn && cur ≠ 0 && s.ranking.contains cur && above.contains k && s.speedOk k
      && updPerS ≤ s.course.validFor.getD k 0 then
    .next (s.changeSource k)
  else .next s

/-- SOURCE_TIMEOUT: the validity time of a GNSS, HOST or RING source passes without a new value (R58, R436). -/
def execSourceTimeout (code : BitVec 4) (s : State) : Res :=
  let lose (f : Course → Course) : Res :=
    let s := s.modCourse f
    .next ((if s.isValid code.toNat then s.setValid code.toNat false else s).select)
  let c := s.course
  if !s.clockOn then .next s
  else match code.toNat with
    | 6 => if c.gnss0.got && s.get R.GNSS_CFG_TIMEOUT_MS * 100 ≤ c.gnss0.age then
             lose fun c => { c with gnss0 := { c.gnss0 with got := false } } else .next s
    | 7 => if c.gnss1.got && s.get R.GNSS_CFG_TIMEOUT_MS * 100 ≤ c.gnss1.age then
             lose fun c => { c with gnss1 := { c.gnss1 with got := false } } else .next s
    | 8 => if c.host.got && s.get R.HOST_CFG_TIMEOUT_MS * 100 ≤ c.host.age then
             lose fun c => { c with host := { c.host with got := false } } else .next s
    | 9 => if c.ring.got && 10 ≤ c.ring.age then lose fun c => { c with ring := { c.ring with got := false } } else .next s
    | _ => .next s

/-! ### Values (R59, R67 to R71) -/

/-- ω × y ÷ 10⁶ (R59). The measured speed and this term are each rounded before they are added (DESIGN CHOICE, assumption
71). -/
def State.offsetSpeed (s : State) (y : Int) : Int := roundDiv (s.course.omega * y) 1000000

/-- A source's own reading before R59, and whether its sign has a meaning. -/
def State.srcRaw (s : State) (code : Nat) : Int × Bool :=
  let c := s.course
  let st (x : StSrc) : Int × Bool := match x.speed with
    | some v => (s.carried v x.accel, x.dirOk)
    | none => (0, false)
  match code with
  | 1 => (roundDiv (s.encSpeed 0 + s.encSpeed 1) 2, true)
  | 2 => (s.encSpeed 0, true)
  | 3 => (s.encSpeed 1, true)
  | 4 => (c.radar.mag s.now (s.regN R.RADAR_SCALE), false)
  | 5 => (roundDiv (((c.spdanSum : Int) - 4 * s.get R.SPDAN_ZERO_ZERO) * s.regI R.SPDAN_GAIN) 262144,
          s.flag R.SPDAN_ZERO_SIGNED)
  | 6 => st c.gnss0
  | 7 => st c.gnss1
  | 8 => st c.host
  | 9 => match c.ring.speed with
    | some v => (s.carried v c.ringAccel, true)
    | none => (0, true)
  | _ => (0, false)

/-- Lateral offset of a source in µm (R59). -/
def State.srcY (s : State) (code : Nat) : Int :=
  match code with
  | 4 => s.regI R.RADAR_Y
  | 5 => s.regI R.SPDAN_Y
  | 6 => s.regI R.GNSS0_Y
  | 7 => s.regI R.GNSS1_Y
  | _ => 0

/-- The part of R59 for each source: half a track for a single wheel, the mounting offset for the others. -/
def State.srcShift (s : State) (code : Nat) : Int :=
  match code with
  | 2 => roundDiv (s.course.omega * s.regN R.ENC_TRACK) 2000000
  | 3 => -(roundDiv (s.course.omega * s.regN R.ENC_TRACK) 2000000)
  | _ => s.offsetSpeed (s.srcY code)

/-- Order in which an unsigned speed takes its sign (R69). -/
def signOrder : List Nat := [9, 1, 2, 3, 5, 6, 7, 8]

/-- The live speed of a source at the reference point, and whether its direction is unknown (R59, R69). The sign is that
of the signed source's own speed at the reference point, and an unsigned speed that carrying forward made negative counts by
its magnitude (DESIGN CHOICE, assumption 71). -/
def State.srcSpeed (s : State) (code : Nat) : Int × Bool :=
  let (v, sgn) := s.srcRaw code
  if sgn then (v + s.srcShift code, false)
  else match signOrder.find? (fun k => s.speedOk k && (s.srcRaw k).2) with
    | some k =>
      let neg := decide ((s.srcRaw k).1 + s.srcShift k < 0)
      ((if neg then -(v.natAbs : Int) else v.natAbs) + s.srcShift code, false)
    | none => ((v.natAbs : Int) + s.srcShift code, true)

/-- Blend time in ticks (Table 03.6). -/
def State.blendTicks (s : State) : Nat := s.get R.COURSE_CTRL_BLEND_MS * ticksPerMs

/-- R67: the value of a blend toward `live`; at the end of BLEND_MS it is `live`. The addend is rounded, not the sum (DESIGN
CHOICE, assumption 71). -/
def State.blended (s : State) (b : Option Blend) (live : Int) : Int :=
  let live := satI 32 live
  match b with
  | none => live
  | some b =>
    let el : Int := min (s.now - b.at_) s.blendTicks
    if el = s.blendTicks then live else b.from_ + roundDiv ((live - b.from_) * el) s.blendTicks

/-- BLEND_END: BLEND_MS has elapsed; the blend ends on the new source's value (R67). -/
def execBlendEnd (yaw : Bool) (s : State) : Res :=
  let done (b : Option Blend) : Bool := match b with
    | some b => decide (b.at_ + s.blendTicks ≤ s.now)
    | none => false
  if !s.clockOn then .next s
  else if yaw then
    if done s.course.wBlend then .next (s.modCourse fun c => { c with wBlend := none }) else .next s
  else if done s.course.vBlend then .next (s.modCourse fun c => { c with vBlend := none })
  else .next s

/-- COAST_TIME_EXPIRY: the coast time has passed; v and ω fall from now on (R68). -/
def execCoastTimeExpiry (s : State) : Res :=
  let c := s.course
  if s.clockOn && c.coasting && !c.coastOver
      && c.coastAt + s.get R.COURSE_CTRL_COAST_10MS * 10 * ticksPerMs ≤ s.now then
    .next ((s.modCourse fun c => { c with coastOver := true }).raise 0x0404 0)
  else .next s

/-- A value moved toward 0 by at most `d`. -/
def towardZero (x d : Int) : Int := if 0 ≤ x then max 0 (x - d) else min 0 (x + d)

/-- A difference of headings in µrad wrapped into ±π (R70). -/
def wrapPi (d : Int) : Int :=
  let q := (d * 16777216) % twoPiQ24
  roundDiv (if piQ24 < q then q - twoPiQ24 else q) 16777216

/-- ω from the last two headings of a GNSS (R70). -/
def StSrc.turn (x : StSrc) : Option Int :=
  match x.heading, x.prevHeading with
  | some a, some b => if a.stamp = b.stamp then none
      else some (-(roundDiv (wrapPi (a.value - b.value) * ticksPerS) (a.stamp - b.stamp)))
  | _, _ => none

/-- The first valid entry of the list of R70: its source code and its ω. -/
def State.turnEntry (s : State) : Option (Nat × Int) :=
  let c := s.course
  let at_ (code : Nat) (v : Option Int) : Option (Nat × Int) :=
    if s.isValid code then v.map fun w => (code, w) else none
  let val (x : Option Stamped) : Option Int := x.map Stamped.value
  (at_ 9 (val c.ring.yaw)).or <|
  (at_ 1 (some (roundDiv ((s.encSpeed 1 - s.encSpeed 0) * 1000000) (s.regN R.ENC_TRACK)))).or <|
  (at_ 6 (val c.gnss0.yaw)).or <| (at_ 7 (val c.gnss1.yaw)).or <| (at_ 8 (val c.host.yaw)).or <|
  (at_ 6 c.gnss0.turn).or (at_ 7 c.gnss1.turn)

/-- ω of a course update (R68, R70). `dt` is Δt in ticks. A change between the yaw rate and the heading difference of the
same GNSS is none of source, and does not blend (DESIGN CHOICE, assumption 71). -/
def State.turnStep (s : State) (dt : Nat) : State :=
  let entry := s.turnEntry
  let follow := match entry with
    | some (k, _) => k
    | none => if s.course.coasting then 16 else 0
  let s := if follow = s.course.wFollow then s else
    s.modCourse fun c => { c with wFollow := follow, wBlend := if follow = 16 then none else some ⟨c.omega, s.now⟩ }
  let src := if follow = 16 then 0 else follow
  let w := if follow = 16 then
      if s.course.coastOver then towardZero s.course.omega (roundDiv (500000 * dt) ticksPerS) else s.course.omega
    else s.blended s.course.wBlend (match entry with | some (_, w) => w | none => 0)
  s.modCourse fun c => { c with omega := satI 32 w, turnSrc := src }

/-- v of a course update (R67 to R69). -/
def State.speedStep (s : State) (dt : Nat) : State :=
  let c := s.course
  if c.speedSrc ≠ 0 then
    let (live, unknown) := s.srcSpeed c.speedSrc
    let s := if unknown && !c.dirUnknown then s.raise 0x0406 0 else s
    let v := s.blended c.vBlend live
    s.modCourse fun c => { c with v := satI 32 v, dirUnknown := unknown }
  else if c.coasting && c.coastOver then
    s.modCourse fun c => { c with v := towardZero c.v (roundDiv (5000000 * dt) ticksPerS) }
  else s

/-- Two speeds differ beyond both limits of R72. -/
def State.disagrees (s : State) (a b : Int) : Bool :=
  let d := (a - b).natAbs
  s.get R.COURSE_XCHK_PCT * max a.natAbs b.natAbs < 100 * d && s.get R.COURSE_XCHK_MIN * 1000 < d

/-- Cross-check counts of a course update (R72). -/
def State.xchkStep (s : State) : State :=
  let cur := s.course.speedSrc
  if cur = 0 then s
  else
    let live := (s.srcSpeed cur).1
    s.modCourse fun c => { c with disagree := (List.range 10).map fun k =>
      let n := c.disagree.getD k 0
      if k ≠ 0 && k ≠ cur && s.speedOk k && s.disagrees live (s.srcSpeed k).1 then
        (if n < updPerS then n + 1 else n)
      else 0 }

/-- CROSSCHECK_DISAGREE: a source has disagreed with the speed source for 1 s (R72). The data holds the speed source in [3:0]
and the other in [7:4] (DESIGN CHOICE, assumption 71). -/
def execCrosscheckDisagree (code : BitVec 4) (s : State) : Res :=
  let k := code.toNat
  if s.clockOn && s.course.disagree.getD k 0 = updPerS then
    .next ((s.modCourse fun c => { c with disagree := c.disagree.set k (updPerS + 1) }).raise 0x0405 0
      (BitVec.ofNat 32 (s.course.speedSrc + k * 16)))
  else .next s

/-- A heading measurement in µrad carried forward, with 24 fractional bits (R63, R71). -/
def State.headCarried (s : State) (m : Stamped) (w : Int) : Int :=
  (m.value * 16777216 - roundDiv (w * s.ageOf m.stamp * 16777216) ticksPerS) % twoPiQ24

/-- The source that R71 takes a heading from, its measurement when it is new, and what is added to it. A GNSS heading keeps
its rank while the source is valid, however long ago it came; a HOST heading until a pose without one (DESIGN CHOICE,
assumption 71). -/
def State.headEntry (s : State) : Option (Nat × Option (Stamped × Int)) :=
  let c := s.course
  let ofSrc (code : Nat) (x : StSrc) : Option (Nat × Option (Stamped × Int)) :=
    if s.isValid code && x.heading.isSome then
      some (code, if x.newHeading then x.heading.map fun h => (h, (0 : Int)) else none) else none
  let fast := decide (s.get R.GNSS_CFG_COG_MIN * 1000 ≤ c.v.natAbs)
  let ofCog (code : Nat) (x : StSrc) : Option (Nat × Option (Stamped × Int)) :=
    if s.isValid code && x.cog.isSome && fast then
      some (code, if x.newCog then x.cog.map fun h => (h, if c.v < 0 then piQ24 else 0) else none) else none
  (ofSrc 9 c.ring).or <| (ofSrc 6 c.gnss0).or <| (ofSrc 7 c.gnss1).or <| (ofSrc 8 c.host).or <|
  (ofCog 6 c.gnss0).or (ofCog 7 c.gnss1)

/-- Heading of a course update (R71). -/
def State.headStep (s : State) (dt : Nat) : State :=
  let used (x : StSrc) : StSrc := { x with newHeading := false, newCog := false }
  let clear (t : State) : State := t.modCourse fun c =>
    { c with gnss0 := used c.gnss0, gnss1 := used c.gnss1, host := used c.host, ring := used c.ring }
  let w := s.course.omega
  match s.headEntry with
  | some (code, some (m, add)) =>
    clear (s.modCourse fun c => { c with headQ24 := (s.headCarried m w + add) % twoPiQ24, headSrc := code })
  | _ =>
    clear (if s.course.headSrc = 0 then s
      else s.modCourse fun c =>
        { c with headQ24 := (c.headQ24 - roundDiv (w * dt * 16777216) ticksPerS) % twoPiQ24 })

/-! ### Integration and rebase (R53 to R56) -/

/-- x_i (R56). -/
def State.chX (s : State) (c : Ch) : Int := s.regI (R.CH_GEOM_X c)
/-- y_i (R56). -/
def State.chY (s : State) (c : Ch) : Int := s.regI (R.CH_GEOM_Y c)

/-- v_i with 8 fractional bits (R53). -/
def State.chSpeedQ8 (s : State) (c : Ch) : Int :=
  roundDiv ((s.course.v * 1000000 - s.course.omega * s.chY c) * 256) 1000000

/-- Reported v_i (R53). -/
def Chan.vRep (h : Chan) : Int := satI 32 (roundDiv h.viQ8 256)
/-- Reported s_i (R53, R54). -/
def Chan.sRep (h : Chan) : Int := wrapI 40 (roundDiv h.sQ24 16777216)
/-- Reported s_ref (R53, R54). -/
def Course.sRefRep (c : Course) : Int := wrapI 48 (roundDiv c.sRefQ24 16777216)
/-- Reported heading (Table 03.1). -/
def Course.headRep (c : Course) : Int := roundDiv c.headQ24 16777216

/-- s_ref of the headwater carried to the present tick (R436). -/
def State.ringSRefNow (s : State) : Int :=
  let c := s.course
  match c.ring.speed with
  | some v =>
    let age := s.ageOf v.stamp
    c.ringSRef + roundDiv (v.value * age * 2 * ticksPerS + c.ringAccel * age * age) (2 * ticksPerS * ticksPerS)
  | none => c.ringSRef

/-- v, ω and a of 1 ms before (R53). -/
def Course.pushHist (c : Course) : Course :=
  { c with accel := satI 32 ((c.v - c.vHist.getD 99 0) * 1000), alpha := satI 32 ((c.omega - c.omegaHist.getD 99 0) * 1000),
           vHist := (c.v :: c.vHist).take 100, omegaHist := (c.omega :: c.omegaHist).take 100 }

/-- Every channel's speed and path length over one update (R53, R54, R56); the first one after a thaw integrates the held
v_i (R74). -/
def State.integrate (s : State) (dt : Nat) : State :=
  { s with chan := Vector.ofFn fun c =>
      let h := s.ch c
      let q8 := s.chSpeedQ8 c
      let q := if s.course.thawed then h.viQ8 else q8
      { h with viQ8 := q8, sPrev := h.sRep, dX := 0,
               sQ24 := wrapI 64 (h.sQ24 + roundDiv (q * dt * 65536) ticksPerS + h.dX * 16777216) } }

/-- A rebase: s_ref becomes `origin` and each s_i becomes x_i plus it (R55, R437). -/
def State.rebaseTo (s : State) (origin : Int) : State :=
  let s := s.modCourse fun c => { c with sRefQ24 := wrapI 72 (origin * 16777216) }
  { s with chan := Vector.ofFn fun c =>
      let h := s.ch c
      let q := wrapI 64 ((s.chX c + origin) * 16777216)
      { h with viQ8 := s.chSpeedQ8 c, sQ24 := q, sPrev := roundDiv q 16777216, dX := 0 } }

/-- Speed limit of Table 03.3 in µm/s (R73). -/
def State.speedLimit (s : State) : Nat := if s.mode.mode = .field then 20000000 else 25000000

/-- OVERSPEED and event 0x0407 (R73). -/
def State.overspeedStep (s : State) : State :=
  let ovr := decide (s.speedLimit < s.course.v.natAbs)
  let s := if ovr && !s.course.overspeed then s.raise 0x0407 0 else s
  s.modCourse fun c => { c with overspeed := ovr }

/-- The rebase, if any, of this update: 0 none, 1 local, 2 from the headwater; a headwater rebase in FIELD is
deferred with event 0x0409 once (R55, R437). -/
def State.rebaseStep (s : State) : State × Bool :=
  if s.course.rebaseRing then
    if s.mode.mode = .field then
      (if s.course.rebasePend then s else (s.modCourse fun c => { c with rebasePend := true }).raise 0x0409 0, false)
    else
      (((s.rebaseTo s.ringSRefNow).modCourse fun c =>
        { c with rebaseRing := false, rebasePend := false, rebaseGo := false }).raise 0x040A 0, true)
  else if s.course.rebaseGo then
    let s := s.modRv fun r => { r with rebase := r.rebase + 1 }
    (((s.rebaseTo 0).modCourse fun c => { c with rebaseGo := false }).raise 0x040A 0, true)
  else (s, false)

/-- The magnitudes that this update gives, kept for R74. -/
def State.holdSpeeds (s : State) : State :=
  let enc (n : Fin 2) (e : Enc) : Enc := if e.thawAt.isNone then { e with heldSpeed := e.mag s.now (s.encScale n) } else e
  let radar (r : Radar) : Radar :=
    if r.thawAt.isNone then { r with heldSpeed := r.mag s.now (s.regN R.RADAR_SCALE) } else r
  s.modCourse fun c => { c with enc0 := enc 0 c.enc0, enc1 := enc 1 c.enc1, radar := radar c.radar }

/-- The course engine's own part of a course update (R52 to R74), and whether it made a rebase. The first update after a
thaw shows the new v and v_i, and integrates those held through the gap (R74). -/
def State.courseStep (s : State) : State × Bool :=
  let dt := s.now - s.course.updTick.toNat
  let held := s.course.v
  let s := (((s.encSettle 0).encSettle 1).modCourse Course.aged).poseLatch.judge.select
  let s := ((s.turnStep dt).speedStep dt).xchkStep.headStep dt
  let s := s.holdSpeeds
  let s := s.modCourse fun c =>
    { c with sRefQ24 := wrapI 72 (c.sRefQ24 + roundDiv ((if c.thawed then held else c.v) * dt * 16777216) ticksPerS) }
  let s := s.integrate dt
  let s := if s.course.speedSrc = 9 then s.modCourse fun c => { c with sRefQ24 := wrapI 72 (s.ringSRefNow * 16777216) }
    else s
  let (s, rebased) := s.rebaseStep
  let s := (s.modCourse Course.pushHist).overspeedStep
  (s.modCourse fun c => { c with updTick := s.tick.now, updAt := some s.now, thawed := false }, rebased)

/-- `COURSE_STATUS` (Table 03.8). -/
def State.courseStatus (s : State) : W32 :=
  let c := s.course
  let b (x : Bool) (k : Nat) : Nat := if x then 2 ^ k else 0
  let valid := (List.range 8).foldl (fun a k => a + b (s.isValid (k + 2)) k) 0
  BitVec.ofNat 32 (c.speedSrc + c.turnSrc * 16 + c.headSrc * 256 + b (c.speedSrc ≠ 0) 12 + b c.coasting 13
    + b c.dirUnknown 14 + b c.overspeed 15 + b (c.vBlend.isSome || c.wBlend.isSome) 16 + b c.rebasePend 17
    + valid * 16777216)

/-! ### Rebase and geometry commands (R55, R56) -/

/-- A write of `COURSE_REBASE` with its GO bit: discarded with event 0x0409 in FIELD and on a tributary (R55). -/
def State.rebaseWrite (s : State) (go : Bool) : State :=
  if s.mode.mode = .field || s.rv.role = .tributary then s.raise 0x0409 0
  else if go then s.modCourse fun c => { c with rebaseGo := true }
  else s

/-- COURSE_REBASE_GO: a write of 1 to GO (R55). -/
def execCourseRebaseGo (s : State) : Res := if s.clockOn then .next (s.rebaseWrite true) else .next s

/-- A write of `CH_GEOM_X` or `CH_GEOM_Y` (R56). -/
def State.geomWrite (s : State) (c : Ch) (isX : Bool) (v : W32) : State :=
  if s.mode.mode = .field then s.raise 0x0409 0
  else
    let new := clampI (-100000000) 100000000 v.toInt
    if isX then
      (s.modCh c fun h => { h with dX := h.dX + (new - s.chX c) }).setReg (R.CH_GEOM_X c) (BitVec.ofInt 32 new)
    else s.setReg (R.CH_GEOM_Y c) (BitVec.ofInt 32 new)

/-- CH_GEOM_WRITE (R56). -/
def execChGeomWrite (c : Ch) (isX : Bool) (v : W32) (s : State) : Res :=
  if s.clockOn then .next (s.geomWrite c isX v) else .next s

/-- R74 at a thaw: windows emptied of edges from before the freeze. -/
def State.courseThaw (s : State) : State :=
  s.modCourse fun c => { c with thawed := true, enc0 := c.enc0.thawed s.now, enc1 := c.enc1.thawed s.now, radar := c.radar.thawed s.now }

end Sys2Proof.Machine
end

