-- ==== Sys2Proof/Machine/Stage.lean ====
section
/-! DEFINITION. The power stages (05_channel_power_stage.md): topology, ratings, output precedence, the converters and
their FIFOs, update points, limits, and leg faults. -/

namespace Sys2Proof.Machine

/-! ### Topology (R109, R110) -/

/-- TOPO codes of Table 05.6. -/
def topoBRIDGE : Nat := 1
/-- GANG2. -/
def topoGANG2 : Nat := 2
/-- GANG4. -/
def topoGANG4 : Nat := 3

/-- The TOPO value stored in a channel's own register. -/
def State.ownTopo (s : State) (c : Ch) : Nat := s.get (R.CH_STAGE_CFG_TOPO c)

/-- The first channel of the channel's block of four. -/
def quadOf (c : Ch) : Ch := ⟨4 * (c.val / 4), by omega⟩
/-- The even channel of the channel's pair. -/
def pairOf (c : Ch) : Ch := ⟨2 * (c.val / 2), by omega⟩

/-- The lead of the channel's group; the channel itself when it is single or leads (R109). -/
def State.leadOf (s : State) (c : Ch) : Ch :=
  if s.ownTopo (quadOf c) = topoGANG4 then quadOf c
  else if s.ownTopo (pairOf c) = topoBRIDGE || s.ownTopo (pairOf c) = topoGANG2 then pairOf c
  else c

/-- The topology that a channel's TOPO field reads: that of its lead (R109). -/
def State.topoOf (s : State) (c : Ch) : Nat := s.ownTopo (s.leadOf c)

/-- A follower of a full bridge or a member of a ganged group other than its lead. -/
def State.isMember (s : State) (c : Ch) : Bool := s.leadOf c != c

/-- `CH_STAGE_CFG.ROLE`: 0 single, 1 lead, 2 follower or member (Table 05.6). -/
def State.stageRole (s : State) (c : Ch) : Nat :=
  if s.isMember c then 2 else if s.topoOf c = 0 then 0 else 1

/-- A full-bridge lead. -/
def State.isBridgeLead (s : State) (c : Ch) : Bool := s.ownTopo c = topoBRIDGE && !s.isMember c

/-- A ganged group's topology. -/
def isGang (topo : Nat) : Bool := topo = topoGANG2 || topo = topoGANG4

/-- The channels of the group that `c` leads, the lead first. -/
def State.groupOf (s : State) (c : Ch) : List Ch :=
  let n := if s.topoOf c = topoGANG4 then 4 else if s.topoOf c = 0 then 1 else 2
  (List.range n).filterMap fun k => if h : c.val + k < 256 then some ⟨c.val + k, h⟩ else none

/-! ### Ratings and limits (R102, R114, R122, R123) -/

/-- Legs in service (R102). -/
def Stage.legs (g : Stage) : Nat := (if g.legA.inService then 1 else 0) + (if g.legB.inService then 1 else 0)

/-- A stuck leg, which turns the channel's other leg off (R133). -/
def Stage.stuck (g : Stage) : Bool := g.legA.stuck || g.legB.stuck

/-- A channel's own continuous rating in mA (Table 05.1). -/
def Stage.contMa (g : Stage) : Nat := match g.legs with | 0 => 0 | 1 => 2500 | _ => 4000
/-- A channel's own peak rating in mA (Table 05.1). -/
def Stage.peakMa (g : Stage) : Nat := match g.legs with | 0 => 0 | 1 => 8000 | _ => 12000

/-- A rating of the group that `c` leads: the lower of the two halves of a bridge, the sum of the members of a ganged
group (Table 05.1). -/
def State.rating (s : State) (c : Ch) (f : Stage → Nat) : Nat :=
  let l := (s.groupOf c).map fun m => f (s.ch m).stage
  if s.topoOf c = topoBRIDGE then l.foldl min (l.headD 0) else l.foldl (· + ·) 0

/-- Present continuous rating in mA. -/
def State.contRating (s : State) (c : Ch) : Nat := s.rating c Stage.contMa
/-- Present peak rating in mA; in limp the continuous rating takes its place (R252). -/
def State.peakRating (s : State) (c : Ch) : Nat := if (s.ch c).limp then s.contRating c else s.rating c Stage.peakMa

/-- The thermal index of a stage die (R382). -/
def dieIxOf (d : StageDie) : DieIx := ⟨2 + d.val, by omega⟩

/-- The channel or its group is in a pull-in guard (R329). -/
def State.inGuard (s : State) (c : Ch) : Bool := (s.ch (s.leadOf c)).guardUntil.isSome

/-- I_lim in mA: the lowest of PEAK_MA, the peak rating, and the continuous rating while the peak budget is exhausted
or thermal level 2 holds outside a pull-in guard (R122, Table 14.3). -/
def State.iLim (s : State) (c : Ch) : Nat :=
  let base := min (s.get (R.CH_ILIM_PEAK_MA c)) (s.peakRating c)
  let hot := 2 ≤ (s.die[dieIxOf (dieOf c)]).level.toNat && !s.inGuard c
  if (s.ch c).stage.peakExh || hot then min base (s.contRating c) else base

/-! ### Output precedence (Table 05.4) -/

/-- Rank 1: hardware shutdown of the die, or thermal level 3 (R386, R389). -/
def State.dieHot (s : State) (c : Ch) : Bool :=
  let d := s.die[dieIxOf (dieOf c)]
  d.shutAt.isSome || d.level = 3

/-- A channel without a leg in service, or a bridge that has lost a half, is lost (R102, R114). -/
def State.isLost (s : State) (c : Ch) : Bool :=
  if s.topoOf c = topoBRIDGE then (s.groupOf (s.leadOf c)).any fun m => (s.ch m).stage.legs = 0
  else (s.ch c).stage.legs = 0

/-- A channel in limp that its OFF bit holds in its safe state (R250). -/
def State.limpOff (s : State) (c : Ch) : Bool :=
  let l := s.leadOf c
  (s.ch l).limp && bits (s.get (R.TKO_LIMP_CFG_OFF (spireOf l))) (slotOf l).val 1 = 1

/-- Rank 3: Dome logic in reset, stage-link loss, the fault state, or the limp OFF bit (R14, R40, R250, Table 15.3). -/
def State.rankSafe (s : State) (c : Ch) : Bool :=
  !s.mode.domeRun || (s.ch c).stage.linkSafe || s.mode.fault || s.limpOff c

/-- The mode permits the channel's output (Table 02.1): FIELD, and SERVICE in a manual period. -/
def State.modeDrives (s : State) (c : Ch) : Bool :=
  match s.mode.mode with
  | .field => true
  | .service => (s.ch (s.leadOf c)).manual.isSome
  | _ => false

/-- The rank of Table 05.4 that sets the channel's output; 11 when none of the conditions holds. Outputs that the mode keeps off
(Table 02.1) stand with those that ENABLE keeps off, rank 6 (DEDUCED, assumption 73). -/
def State.outRank (s : State) (c : Ch) : Nat :=
  let l := s.leadOf c
  let g := (s.ch c).stage
  let gl := (s.ch l).stage
  if s.dieHot c then 1
  else if s.isLost c || g.stuck then 2
  else if s.rankSafe c then 3
  else if s.mode.frozen || gl.waitSample then 4
  else if s.mode.roadLock then 5
  else if !s.flag (R.CH_STAGE_CFG_ENABLE l) || !s.modeDrives c then 6
  else if gl.hiccupUntil.isSome then 7
  else if g.legs = 1 then 8
  else if gl.hsOff then 9
  else if gl.soft then 10
  else 11

/-- Output driven at rank 8 to 11 (Table 05.13). -/
def State.driven (s : State) (c : Ch) : Bool := 8 ≤ s.outRank c

/-- A set-up field as it acts in the present carrier period (R136). -/
def State.acting (s : State) (c : Ch) (f : Fld) : Nat :=
  match (s.ch c).stage.held.lookup f.addr with
  | some w => fieldOf w f
  | none => s.get f

/-- Carrier period P in ticks. -/
def State.pwmP (s : State) (c : Ch) : Nat := s.get (R.CH_PWM_PERIOD c)

/-- R107: an on-time below 80 steps is taken as 0, one above 8P - 80 as 8P. -/
def snapOn (p : Nat) (on : Int) : Int :=
  let m := on.natAbs
  if m < 80 then 0
  else if 8 * p < m + 80 then (if on < 0 then -(8 * p : Int) else 8 * p)
  else on

/-! ### What the switches do (R104, R107, R108, R112, R126, R127, Table 05.4) -/

/-- What the switches of a channel's legs in service do: all off, the low sides on, the carrier's edges, or the analog hold loop of
a freeze. Edges are steps of a carrier period that begins at its valley, step 0, and has its centre at step 4P; the low side
conducts between the two steps of `low`, which may reach into the period after. `cut` says that the limit has turned the high
side off for the rest of the period (R122). -/
inductive Drive where
  | off
  | low
  | pwm (hiOn hiOff : Int) (low : Option (Int × Int)) (cut : Bool)
  | hold (ref toff : Nat)
  deriving DecidableEq, Repr

/-- A half-bridge under its carrier (R107, R108): the turn-on edge of `rise` and the turn-off edge of `on`, both snapped to the
grid's ends. A high side that is off at the centre turns on there. The low side keeps DEADTIME from both edges, and stays off
where less than 80 steps remain. -/
def halfDrive (p dt rise on : Nat) (cut : Bool) : Drive :=
  if rise = 0 && on = 0 then .low
  else
    let c : Int := 4 * p
    let a : Int := if rise = 0 then c else c - ((rise + 1) / 2 : Nat)
    let b : Int := c + (on / 2 : Nat)
    let lo : Int := b + dt
    let hi : Int := 8 * p + a - dt
    .pwm a b (if 80 ≤ hi - lo then some (lo, hi) else none) cut

/-- The carrier's edges of a channel: a single channel or group member by its own on-time; of a bridge the half that the sign
names, while the low side of the other stays on (R112). -/
def State.carrierDrive (s : State) (c : Ch) : Drive :=
  let l := s.leadOf c
  let g := (s.ch c).stage
  let half := halfDrive (s.acting c (R.CH_PWM_PERIOD c)) (s.acting c (R.CH_PWM_DEADTIME c)) g.rise.natAbs g.on.natAbs
    (s.ch l).stage.hsOff
  if s.topoOf c = topoBRIDGE then
    let pos := decide (0 < g.on) || decide (g.on = 0 ∧ 0 < g.rise)
    let neg := decide (g.on < 0) || decide (g.on = 0 ∧ g.rise < 0)
    if (if c = l then pos else neg) then half else .low
  else half

/-- What sets a channel's output, by the highest row of Table 05.4 that holds: its safe state by the lead's SAFE (R126),
freeze-off or freeze-hold by the lead's FRZ against the channel's own current (R109, R127), or its carrier. -/
def State.output (s : State) (c : Ch) : Drive :=
  let l := s.leadOf c
  let g := (s.ch c).stage
  match s.outRank c with
  | 3 => if s.flag (R.CH_STAGE_CFG_SAFE l) && g.legs ≠ 0 then .low else .off
  | 4 =>
    if s.flag (R.CH_STAGE_CFG_FRZ l) && s.topoOf c ≠ topoBRIDGE && g.frzDesat.isNone && g.holdRef ≠ 0 then
      .hold g.holdRef (s.acting c (R.CH_FRZ_HOLD_TOFF c))
    else .off
  | 8 | 9 | 10 | 11 => s.carrierDrive c
  | _ => .off

/-- The output is in an on-time of its carrier. -/
def Drive.isPwm : Drive → Bool
  | .pwm .. => true
  | _ => false

/-! ### Events of the engine in control and the FIFOs (Table 06.5, R145) -/

/-- A WAIT event bit latched in an engine. -/
def State.latchEng (s : State) (e : Eng) (bit : Nat) : State :=
  s.modEng e fun x => { x with pend := x.pend ||| BitVec.ofNat 16 (2 ^ bit) }

/-- A WAIT event bit latched in the engine in control of a channel. -/
def State.latchCh (s : State) (c : Ch) (bit : Nat) : State :=
  match (s.ch c).ctl with
  | some e => if (s.ch c).takeover.isNone then s.latchEng e bit else s
  | none => s

/-- A result that found its FIFO full (R145): STRM_OVF and event 0x63, at most once per second per channel (R166). -/
def State.strmOverflow (s : State) (c : Ch) : State :=
  (s.putFlag (R.CH_ENG_STAT_STRM_OVF c) true).raiseLimited (chCode c 0x63) 0 (BitVec.ofNat 32 c.val) c.val

/-- ISTRM and SNSE latched in the engine that serves a channel while its FIFOs hold what Table 06.5 asks for. -/
def State.levelCh (s : State) (c : Ch) : State :=
  let s := if s.get (R.CH_ENG_CTRL_ISTRM_THR c) < (s.ch c).istrm.length then s.latchCh c 1 else s
  if (s.ch c).snse.isEmpty then s else s.latchCh c 2

/-- An entry of the ISTRM FIFO of 64; the ISTRM event when it then holds more than ISTRM_THR (R145, Table 06.5). -/
def State.pushIstrm (s : State) (c : Ch) (w : W32) : State :=
  if s.flag (R.CH_ENG_CTRL_ISTRM_EN c) then
    if (s.ch c).istrm.length < 64 then
      let s := s.modCh c fun h => { h with istrm := h.istrm ++ [w] }
      if s.get (R.CH_ENG_CTRL_ISTRM_THR c) < (s.ch c).istrm.length then s.latchCh c 1 else s
    else s.strmOverflow c
  else s

/-- An entry of the VSTRM FIFO of 16 (R145). -/
def State.pushVstrm (s : State) (c : Ch) (w : W32) : State :=
  if s.flag (R.CH_ENG_CTRL_VSTRM_EN c) then
    if (s.ch c).vstrm.length < 16 then s.modCh c fun h => { h with vstrm := h.vstrm ++ [w] }
    else s.strmOverflow c
  else s

/-- An edge stamp of the SNSE FIFO of 8 (R119, R145). -/
def State.pushSnse (s : State) (c : Ch) (w : W32) : State :=
  if (s.ch c).snse.length < 8 then (s.modCh c fun h => { h with snse := h.snse ++ [w] }).latchCh c 2
  else s.strmOverflow c

/-! ### Converters (R113, R115 to R118) -/

/-- Current in µA of a code: 244.140625 µA or 1,953.125 µA per code (R115). -/
def codeUa (high : Bool) (code : Int) : Int := roundDiv (code * 15625) (if high then 8 else 64)

/-- The code of a current in a range (R118). -/
def uaCode (high : Bool) (ua : Int) : Int := clampI (-8191) 8191 (roundDiv (ua * (if high then 8 else 64)) 15625)

/-- Before a write of a set-up word that acts from the next carrier period: while the channel is driven by its carrier the
word goes on acting as it stands (R136, assumption 67). -/
def State.holdWord (s : State) (c : Ch) (a : Nat) : State :=
  let l := s.leadOf c
  if s.flag (R.CH_STAGE_CFG_ENABLE l) && !(s.ch l).stage.waitSample && ((s.ch c).stage.held.lookup a).isNone then
    s.modStage c fun g => { g with held := (a, s.reg a) :: g.held }
  else s

/-- The range that `CH_STAGE_CFG.RANGE` fixes: some true high, some false low, none in auto (R117). -/
def State.fixedRange (s : State) (c : Ch) : Option Bool :=
  match s.acting c (R.CH_STAGE_CFG_RANGE c) with
  | 1 => some false
  | 2 => some true
  | _ => none

/-- The peak budget after the time since its last change, in ninths of a tick: it falls by the elapsed time above the
continuous rating and rises by a ninth of it otherwise, up to 20,000 µs (R123). -/
def budgetAfter (b elapsed : Nat) (ovr : Bool) : Nat :=
  if ovr then b - 9 * elapsed else min 36000000 (b + elapsed)

/-- One result of a channel's own current converter (R115 to R118). `code` is the converter's code in the range in
force; a range change ordered by the result before it marks this one and replaces it by the predictor. -/
def State.currentResult (s : State) (c : Ch) (code : Int) : State :=
  let g := (s.ch c).stage
  let fixed := s.fixedRange c
  let high := (fixed.or g.rangeDue).getD g.highRange
  let marked := fixed.isNone && g.rangeDue.isSome && !g.iLast.isEmpty
  let p : Int := match g.iLast with
    | a :: b :: _ => if g.iRun < 2 then a else 2 * a - b
    | [a] => a
    | [] => 0
  let code' := if marked then uaCode high p else clampI (-8191) 8191 code
  let ovr := !marked && decide (code < -8191 ∨ 8191 < code)
  let ua := codeUa high code'
  let due : Option Bool :=
    if fixed.isSome then none
    else if !high && 7680 ≤ code'.natAbs then some true
    else if high && code'.natAbs ≤ 768 && 15 ≤ g.lowRun then some false
    else none
  let run := if high && code'.natAbs ≤ 768 && due.isNone then g.lowRun + 1 else 0
  let s := if marked then s.count (R.CH_STAGE_CNT_RCHG c) else s
  s.modStage c fun g => { g with highRange := high, rangeDue := due, lowRun := run, iLast := (ua :: g.iLast).take 2,
                                 iRun := min 2 (g.iRun + 1), iAt := some s.now, iNow := ua, mark := marked, overRange := ovr }

/-- The current of the group that `c` leads, in µA: its own for a single channel and for a bridge lead, the sum of the
members not lost for a ganged group (R111, R113). -/
def State.groupUa (s : State) (c : Ch) : Int :=
  if isGang (s.topoOf c) then
    satI 32 (((s.groupOf c).filter fun m => (s.ch m).stage.legs ≠ 0).foldl (fun a m => a + (s.ch m).stage.iNow) 0)
  else (s.ch c).stage.iNow

/-- Whether the result of any member that is not lost carries a flag (R113, R114, R145). -/
def State.groupFlag (s : State) (c : Ch) (f : Stage → Bool) : Bool :=
  if isGang (s.topoOf c) then (s.groupOf c).any fun m => (s.ch m).stage.legs ≠ 0 && f (s.ch m).stage else f (s.ch c).stage

/-- An ISTRM entry (R145). -/
def istrmWord (ua : Int) (half high ovr mark inst : Bool) : W32 :=
  let b (x : Bool) (k : Nat) : Nat := if x then 2 ^ k else 0
  BitVec.ofNat 32 ((BitVec.ofInt 27 (satI 27 ua)).toNat + b half 27 + b high 28 + b ovr 29 + b mark 30 + b inst 31)

/-- The peak budget of a lead brought up to the present tick (R123). -/
def State.budgetStep (s : State) (c : Ch) : State :=
  let ovr := decide (s.contRating c * 1000 < (s.groupUa c).natAbs)
  s.modStage c fun g => { g with budget := budgetAfter g.budget (s.now - g.budgetAt) ovr, budgetAt := s.now }

/-- The ISTRM entry of a channel's latest result in its lead's FIFO: a follower's half taken positive when the bridge current
leaves the lead's terminal; a member of a ganged group gives none of its own (R111, R113, R145). -/
def State.streamEntry (s : State) (c : Ch) (inst : Bool) : State :=
  let g := (s.ch c).stage
  let l := s.leadOf c
  if l = c then
    s.pushIstrm c (istrmWord (s.groupUa c) false (s.groupFlag c (·.highRange)) (s.groupFlag c (·.overRange))
      (s.groupFlag c (·.mark)) inst)
  else if s.topoOf c = topoBRIDGE then s.pushIstrm l (istrmWord (-g.iNow) true g.highRange g.overRange g.mark inst)
  else s

/-- One grid sample of a channel: its own result, the lead's ISTRM entry and the peak budget (R115, R123, R145). -/
def State.gridSample (s : State) (c : Ch) (code : Int) (inst : Bool) : State :=
  let s := (s.currentResult c code).streamEntry c inst
  if s.leadOf c = c then s.budgetStep c else s

/-- Converters sample: not at rank 1 and not in a freeze (Table 05.4). -/
def State.converting (s : State) (c : Ch) : Bool := s.clockOn && !s.dieHot c

/-- The next sample instant of a channel, where it is known: that of the control sample which its compare has started, or
which its armed compare will start (R106). -/
def State.nextInstant (s : State) (c : Ch) : Option Nat :=
  match (s.ch c).instant with
  | some t => some t
  | none =>
    let u := s.units[smpUnit c]
    if u.ctrl.getLsbD 0 && !u.ctrl.getLsbD 2 && u.ctrl.getLsbD 6 then some (u.target.toNat + 10) else none

/-- A tick of a converter's grid (R115, R116): whole steps after the latest sample instant, not one less than a step before the
next, and each tick once. Before the first instant the grid runs from the result before (DESIGN CHOICE, assumption 74). -/
def onGrid (phase last next : Option Nat) (step now : Nat) : Bool :=
  last != some now
    && (match phase with
        | some t => decide (t ≤ now) && (now - t) % step = 0
        | none => match last with
          | some l => decide (l + step ≤ now)
          | none => true)
    && (match next with
        | some n => !(decide (now < n) && decide (n < now + step))
        | none => true)

/-- A converter of a channel takes a result now: a grid tick, aligned to the lead's sample instants (R110), or a
measurement-only sample (R90). -/
def State.resultDue (s : State) (c : Ch) (last meas : Option Nat) (step : Nat) : Bool :=
  let l := s.leadOf c
  s.converting c && (meas.isSome || onGrid (s.ch l).stage.phase last (s.nextInstant l) step s.now)

/-- CURRENT_SAMPLE: a sample of the current converter on its grid of 50 ticks (R115). -/
def execCurrentSample (c : Ch) (code : Int) (s : State) : Res :=
  if s.resultDue c (s.ch c).stage.iAt (s.ch c).measI 50 then
    .next ((s.gridSample c code false).modCh c fun h => { h with measI := none })
  else .next s

/-- Voltage in mV of a 12-bit code (R116). -/
def codeMv (code : BitVec 12) : Int := -16400 + 20 * (code.toNat : Int)

/-- A VSTRM entry (R145). -/
def vstrmWord (mv : Int) (inst : Bool) : W32 :=
  BitVec.ofNat 32 ((BitVec.ofInt 17 mv).toNat + if inst then 2 ^ 31 else 0)

/-- One voltage result (R116); only a single channel or a lead fills VSTRM (R145). -/
def State.voltResult (s : State) (c : Ch) (code : BitVec 12) (inst : Bool) : State :=
  let s := s.modStage c fun g => { g with vNow := codeMv code, vAt := some s.now }
  if s.isMember c then s else s.pushVstrm c (vstrmWord (codeMv code) inst)

/-- VOLTAGE_SAMPLE: a sample of the voltage converter on its grid of 200 ticks (R116). -/
def execVoltageSample (c : Ch) (code : BitVec 12) (s : State) : Res :=
  if s.resultDue c (s.ch c).stage.vAt (s.ch c).measV 200 then
    .next ((s.voltResult c code false).modCh c fun h => { h with measV := none })
  else .next s

/-- SNS in a digital mode (Table 05.3). -/
def State.snsDigital (s : State) (c : Ch) : Bool :=
  let m := s.get (R.CH_STAGE_CFG_SNS c)
  m = 4 || m = 5

/-- SNS_EDGE: a level that has held for FILT ticks is counted and stamped (R119, R120). -/
def execSnsEdge (c : Ch) (level : Bool) (s : State) : Res :=
  if s.converting c && s.snsDigital c && (decide ((s.ch c).stage.snsVal.toNat < 65536) == level) then
    let v := (s.ch c).stage.snsVal.toNat % 65536
    let counts := level || s.acting c (R.CH_SNS_CFG_EDGE c) = 1
    let v' := if counts then (v + 1) % 65536 else v
    let s := s.modStage c fun g => { g with snsVal := BitVec.ofNat 17 (v' + if level then 65536 else 0) }
    let stamp := (s.now - s.get (R.CH_SNS_CFG_FILT c)) % 2 ^ 31 + if level then 2 ^ 31 else 0
    .next (if counts && !s.isMember c then s.pushSnse c (BitVec.ofNat 32 stamp) else s)
  else .next s

/-- The mV of an analog SNS reading: a 12-bit code of 2.5 mV, rounded to the nearest code and then to the nearest mV (Table
05.3; the rounding of the code is a DESIGN CHOICE, assumption 75). -/
def snsMvOf (mv : Nat) : Nat := (roundDiv (5 * min 4095 (roundDiv (2 * mv : Nat) 5)) 2).toNat

/-- The analog or ratiometric SNS result (Table 05.3); other modes keep their value, Off reads 0. -/
def State.snsConvert (s : State) (c : Ch) (mv ldo : Nat) : State :=
  let put (v : Nat) : State := s.modStage c fun g => { g with snsVal := BitVec.ofNat 17 v }
  match s.get (R.CH_STAGE_CFG_SNS c) with
  | 1 => put (snsMvOf mv)
  | 2 | 3 => put (if ldo = 0 then 65535 else satU 16 (roundDiv (mv * 65536 : Nat) ldo))
  | 4 | 5 => s
  | _ => put 0

/-! ### The control sample (R106, R148) -/

/-- The freeze-hold reference that a control sample loads, in steps of 15.625 mA (R127). -/
def State.holdReference (s : State) (c : Ch) : Nat :=
  let ma := min (s.acting c (R.CH_FRZ_HOLD_IMAX c)) ((s.ch c).stage.contMa)
  min ((s.ch c).stage.iNow.natAbs) (ma * 1000) / 15625

/-- A channel of the group at a sample instant `t`: it leaves the waiting of R128 and of R14, loads its hold reference, and its
carrier has a centre there (R106). -/
def State.atInstant (t : Nat) (c : Ch) (s : State) : State :=
  let r := s.holdReference c
  s.modStage c fun g =>
    { g with waitSample := false, linkSafe := if g.waitSample then false else g.linkSafe, holdRef := r, phase := some t }

/-- A control sample at or above 20 mA ends an open load (R125). -/
def State.openClear (s : State) (c : Ch) : State :=
  if 20000 ≤ (s.groupUa c).natAbs then s.modStage c fun g => { g with openLoad := false, openRun := 0 } else s

/-- ENERGY of the sample whose record is being made (Table 11.4). -/
def State.sampleEnergy (s : State) (c : Ch) : Int :=
  (s.ch c).smpNext.v * (s.ch c).smpNext.i * (s.units[smpUnit c]).period.toNat

/-- SAMPLE_EVENT_LATCH: sixty ticks after the instant the record is complete and SAMPLE is latched; LOST when the
SAMPLE before it is still pending (R148). -/
def execSampleEventLatch (c : Ch) (s : State) : Res :=
  match (s.ch c).latchDue with
  | none => .next s
  | some t =>
    if s.clockOn && t ≤ s.now then
      let h := s.ch c
      let lost := match h.ctl with
        | some e => (s.eng[e]).pend.getLsbD 0
        | none => false
      let e := s.sampleEnergy c
      let owes := s.flag (R.CH_ENG_CTRL_RUN c) && h.ctl.any (fun e => !(s.eng[e]).halted) && h.takeover.isNone
      let s := s.modCh c fun h =>
        { h with latchDue := none, dueOpen := owes, dueMet := false,
                 smp := { h.smpNext with seq := h.smp.seq + 1, lost := lost, dly := h.smp.dly, dlySeq := h.smp.dlySeq }
                 cnt := { h.cnt with energy := h.cnt.energy + e } }
      .next (s.latchCh c 0)
    else .next s

/-! ### Duty commands (R107, R108, R112, R113, R121) -/

/-- A command put on the stage link: it arrives 12 ticks later (R151). -/
def State.sendOn (s : State) (c : Ch) (on : Int) (answers : Option (W32 × Nat)) : State :=
  s.modCh c fun h => { h with flight := h.flight ++ [⟨on, s.now + 12, answers⟩] }

/-- The channel's bit in `BUD_TRIMw` is set and it is not in a pull-in guard (R329). -/
def State.isTrimmed (s : State) (c : Ch) : Bool :=
  (s.reg (R.BUD_TRIM (c.val / 32))).getLsbD (c.val % 32) && !s.inGuard c

/-- The trim factor of a trimmed channel, in 256ths (R331, Table 14.3). -/
def State.trimK (s : State) (c : Ch) : Nat :=
  let k := s.get R.BUD_STAT_K
  match (s.die[dieIxOf (dieOf c)]).level.toNat with
  | 0 => k
  | 1 => min k (s.get R.THM_CFG_K1)
  | _ => 0

/-- An on-time sent with the trim of R331 and Table 14.3. -/
def State.sendTrimmed (s : State) (c : Ch) (on : Int) (answers : Option (W32 × Nat)) : State :=
  if s.isTrimmed c && s.trimK c < 256 then
    s.sendOn c (roundDiv (on * s.trimK c) 256) answers
  else s.sendOn c on answers

/-- DUTY_COMMAND_ARRIVAL: the oldest command on the stage link arrives; one that waits is replaced (R108, R151). -/
def execDutyCommandArrival (c : Ch) (s : State) : Res :=
  match (s.ch c).flight with
  | [] => .next s
  | d :: rest =>
    if s.clockOn && d.due ≤ s.now then
      .next (s.modCh c fun h => { h with flight := rest, stage := { h.stage with pend := some d } })
    else .next s

/-- A change of sign of a bridge (R112): held to the next valley. -/
def signFlip (old new : Int) : Bool := decide ((old < 0 ∧ 0 < new) ∨ (0 < old ∧ new < 0))

/-- The match-to-effect time of Table 11.4, at an update point at which a duty takes effect. -/
def State.effectCount (s : State) (c : Ch) : State :=
  s.modCnt c fun x => match x.bndAt with
    | none => x
    | some t =>
      let d := satU 32 ((s.now : Int) - t)
      { x with bndAt := none, bndMin := min x.bndMin d, bndMax := max x.bndMax d, bndSum := x.bndSum + d }

/-- The waiting command takes effect at an update point: from then on it is the commanded on-time, and the point is
reported (R108). -/
def State.takeDuty (s : State) (c : Ch) (centre : Bool) : State :=
  match (s.ch c).stage.pend with
  | none => s
  | some d =>
    let g := (s.ch c).stage
    if s.now < d.due + 2 || (centre && s.isBridgeLead c && signFlip g.on d.on) then s
    else (s.effectCount c).modStage c fun g =>
      { g with pend := none, cmdOn := d.on, report := some (s.now, centre, d) }

/-- The soft-start ceiling at a valley (R121): it rises by SOFT_STEP and ends when it meets the commanded on-time. -/
def State.softStep (s : State) (c : Ch) : State :=
  let st := s.acting c (R.CH_PWM_SOFT_STEP c)
  s.modStage c fun g =>
    if g.soft then
      if st = 0 || g.cmdOn.natAbs ≤ g.softOn + st then { g with soft := false, softOn := 0 }
      else { g with softOn := g.softOn + st }
    else g

/-- The on-time of a lead or single channel: the commanded one, limited by the soft start (R121). -/
def State.effectiveOn (s : State) (c : Ch) : Int :=
  let g := (s.ch c).stage
  if g.soft && s.acting c (R.CH_PWM_SOFT_STEP c) ≠ 0 then clampI (-(g.softOn : Int)) g.softOn g.cmdOn else g.cmdOn

/-- The on-time in effect in a member of the group that `c` leads: with its share trim (R113), snapped to the ends of a grid of period
`p` (R107). A group that is commanded 0 gets 0. -/
def State.memberOn (s : State) (c : Ch) (p : Nat) (on trim : Int) : Int :=
  snapOn p (if isGang (s.topoOf c) && on ≠ 0 then max 0 (on + trim) else on)

/-- Share trims of a ganged group at a carrier centre (R113): one step toward equal sharing when a member differs from
the mean by more than 3 % of a mean of at least 0.5 A, held to ±0.05 × 8P. -/
def State.shareTrim (s : State) (c : Ch) : State :=
  if isGang (s.topoOf c) then
    let live := (s.groupOf c).filter fun m => (s.ch m).stage.legs ≠ 0
    let n : Int := live.length
    let sum := live.foldl (fun a m => a + (s.ch m).stage.iNow) 0
    let lim : Int := 8 * s.acting c (R.CH_PWM_PERIOD c) / 20
    if n * 500000 ≤ sum.natAbs then
      forAll live (fun m t =>
        let d := n * (t.ch m).stage.iNow - sum
        if 3 * sum.natAbs < 100 * d.natAbs then
          t.modStage m fun g => { g with trim := clampI (-lim) lim (g.trim + if 0 < d then -1 else 1) }
        else t) s
    else s
  else s

/-- OPEN_LOAD counting at the valley that ends a carrier period (R125): ON ≥ 0.2 × 8P and the current at the latest sample
instant below 20 mA. -/
def State.openCount (s : State) (c : Ch) : State :=
  s.modStage c fun g =>
    if 8 * s.pwmP c ≤ 5 * g.on.natAbs && (s.ch c).smpNext.i.natAbs < 20000 then { g with openRun := g.openRun + 1 }
    else { g with openRun := 0 }

/-- The present tick is an update point of the carrier (R106, R108): a centre lies whole periods from a sample instant, a valley
half a period further. Before the first instant the carrier's phase is open, and a point comes where it is reported (assumption
74). Each tick has one point at most. -/
def State.onPoint (s : State) (c : Ch) (centre : Bool) : Bool :=
  let g := (s.ch c).stage
  let p := s.acting c (R.CH_PWM_PERIOD c)
  g.pointAt != some s.now && match g.phase with
    | some t => decide (t ≤ s.now) && (s.now - t) % p = (if centre then 0 else p / 2)
    | none => true

/-- The on-time of the group that `c` leads put in effect: the turn-off edge at any update point, the turn-on edge at a valley
(R108). At a valley the carrier period that begins takes the set-up as it stands (R136). -/
def State.putOn (s : State) (c : Ch) (valley : Bool) : State :=
  let on := s.effectiveOn c
  let p := if valley then s.pwmP c else s.acting c (R.CH_PWM_PERIOD c)
  forAll (s.groupOf c) (fun m t => t.modStage m fun g =>
    let x := s.memberOn c p on g.trim
    { g with on := x, rise := if valley then x else g.rise }) s

/-- CARRIER_UPDATE_POINT: a valley or centre of a lead's or single channel's carrier (R108, R112, R113, R121, R124).
A channel that waits for its first sample instant (R128) has no carrier. The trims of a group reset when all of it is off
(R113, R114). -/
def execCarrierUpdatePoint (c : Ch) (centre : Bool) (s : State) : Res :=
  if s.clockOn && !s.isMember c && !(s.ch c).stage.waitSample && s.onPoint c centre then
    let s := (s.modStage c fun g => { g with pointAt := some s.now }).takeDuty c centre
    let s := if centre then s.shareTrim c
      else ((s.openCount c).softStep c).modStage c fun g =>
        { g with limiting := g.hsOff, limRun := if g.hsOff then g.limRun + 1 else 0, hsOff := false }
    let s := s.putOn c (!centre)
    let s := if centre then s else forAll (s.groupOf c) (fun m t => t.modStage m fun g => { g with held := [] }) s
    .next (if (s.groupOf c).any s.driven then s
      else forAll (s.groupOf c) (fun m t => t.modStage m fun g => { g with trim := 0 }) s)
  else .next s

/-! ### The sample instant (R106, R111, R119, R128) -/

/-- At the first sample instant after a thaw the carrier restarts centred on it, with the last on-time received in effect at
once (R128). -/
def State.restartAt (s : State) (c : Ch) (t : Nat) : State :=
  if (s.ch c).stage.waitSample then
    let s := match (s.ch c).stage.pend with
      | some d => (s.effectCount c).modStage c fun g => { g with pend := none, cmdOn := d.on, report := some (t, true, d) }
      | none => s
    s.putOn c true
  else s

/-- The results of a follower's or member's own converter and SNS terminal at its lead's instant (R109, R111, R119). -/
def State.memberResult (s : State) (c : Ch) (x : MemberIn) (ldo : Nat) : State :=
  if s.dieHot c then s else (s.currentResult c x.iCode).snsConvert c x.snsMv ldo

/-- CONTROL_SAMPLE_INSTANT: ten ticks after the sample-compare match both converters and SNS sample, on the lead and on its
followers or members (R106, R111). The entry of the lead half comes first (R145). -/
def execControlSampleInstant (c : Ch) (inp : SampleIn) (s : State) : Res :=
  match (s.ch c).instant with
  | none => .next s
  | some t =>
    if s.clockOn && t ≤ s.now then
      let s := s.modCh c fun h => { h with instant := none, latchDue := some (t + 60) }
      let mems := (s.groupOf c).tail.zip inp.members
      let s := forAll mems (fun m t => t.memberResult m.1 m.2 inp.ldoMv) s
      let s := if s.dieHot c then s
        else ((s.gridSample c inp.iCode true).voltResult c inp.vCode true).snsConvert c inp.snsMv inp.ldoMv
      let s := forAll (mems.filter fun m => !s.dieHot m.1) (fun m t => t.streamEntry m.1 true) s
      let s := (forAll (s.groupOf c) (State.atInstant t) (s.restartAt c t)).openClear c
      let g := (s.ch c).stage
      let n : Smp := { i := s.groupUa c, v := g.vNow, sns := g.snsVal, mark := s.groupFlag c (·.mark),
                       high := s.groupFlag c (·.highRange), overRange := s.groupFlag c (·.overRange), tick := t, onAt := g.on }
      .next (s.modCh c fun h => { h with smpNext := n })
    else .next s

/-- DLY_REPORT: the stage die's report of an update point writes DLY and DLY_SEQ and latches DLY (R151). -/
def execDlyReport (c : Ch) (s : State) : Res :=
  match (s.ch c).stage.report with
  | none => .next s
  | some (t, centre, d) =>
    if s.clockOn then
      let s := s.modStage c fun g => { g with report := none }
      match d.answers with
      | none => .next s
      | some (seq, inst) =>
        let w := satU 24 ((t : Int) - inst) + if centre then 2 ^ 24 else 0
        .next ((s.modCh c fun h => { h with smp := { h.smp with dly := BitVec.ofNat 32 w, dlySeq := seq } }).latchCh c 7)
    else .next s

/-! ### Limits (R122 to R125) -/

/-- CURRENT_LIMIT_REACHED: the high side turns off for the rest of the carrier period (R122). A group limits while any of its
members is in an on-time (R114). -/
def execCurrentLimitReached (c : Ch) (s : State) : Res :=
  if s.clockOn && !s.isMember c && (s.groupOf c).any (fun m => (s.output m).isPwm) then
    .next (s.modStage c fun g => { g with hsOff := true })
  else .next s

/-- PEAK_BUDGET_EXHAUSTED: B has reached 0 (R123). -/
def execPeakBudgetExhausted (c : Ch) (s : State) : Res :=
  let s' := s.budgetStep c
  let g := (s'.ch c).stage
  if s.clockOn && !s.isMember c && g.budget = 0 && !g.peakExh then
    .next ((s'.modStage c fun g => { g with peakExh := true }).raise (chCode c 0x54) 0 (BitVec.ofNat 32 c.val))
  else .next s

/-- PEAK_BUDGET_RESTORED: B has reached 10,000 µs again (R123). -/
def execPeakBudgetRestored (c : Ch) (s : State) : Res :=
  let s' := s.budgetStep c
  let g := (s'.ch c).stage
  if s.clockOn && !s.isMember c && 18000000 ≤ g.budget && g.peakExh then
    .next (s'.modStage c fun g => { g with peakExh := false })
  else .next s

/-- HICCUP_START: the limit has acted in COUNT successive carrier periods (R124). -/
def execHiccupStart (c : Ch) (s : State) : Res :=
  let g := (s.ch c).stage
  if s.clockOn && !s.isMember c && g.hiccupUntil.isNone
      && s.acting c (R.CH_HICCUP_COUNT c) ≤ g.limRun + (if g.hsOff then 1 else 0) then
    let s := s.modStage c fun g =>
      { g with hiccupUntil := some (s.now + s.acting c (R.CH_HICCUP_OFF_MS c) * ticksPerMs), limRun := 0, hsOff := false,
               limiting := true }
    let s := s.count (R.CH_STAGE_CNT_HICCUP c)
    .next (s.raiseLimited (chCode c 0x53) 0 (BitVec.ofNat 32 c.val) c.val)
  else .next s

/-- Soft start from 0 (R121). -/
def Stage.startSoft (g : Stage) : Stage := { g with soft := true, softOn := 0 }

/-- HICCUP_END: the off-time ends and the channel restarts with a soft start on the latest duty (R124). -/
def execHiccupEnd (c : Ch) (s : State) : Res :=
  match (s.ch c).stage.hiccupUntil with
  | none => .next s
  | some t =>
    if s.clockOn && t ≤ s.now then
      .next (s.modStage c fun g => { g with hiccupUntil := none, limiting := false }.startSoft)
    else .next s

/-- OPEN_LOAD_DETECT: 100 successive periods of R125 set OPEN_LOAD and raise event 0x55 once. -/
def execOpenLoadDetect (c : Ch) (s : State) : Res :=
  let g := (s.ch c).stage
  if s.clockOn && !s.isMember c && 100 ≤ g.openRun && !g.openLoad then
    .next ((s.modStage c fun g => { g with openLoad := true }).raise (chCode c 0x55) 0 (BitVec.ofNat 32 c.val))
  else .next s

/-! ### Leg faults (R130 to R135) -/

/-- A leg of a stage. -/
def Stage.leg (g : Stage) : Leg → LegSt
  | .a => g.legA
  | .b => g.legB

/-- A leg changed. -/
def Stage.modLeg (g : Stage) (l : Leg) (f : LegSt → LegSt) : Stage :=
  match l with
  | .a => { g with legA := f g.legA }
  | .b => { g with legB := f g.legB }

/-- Event data of a leg event (R137): channel, leg in bit 8, cause in bits 10:9. -/
def legData (c : Ch) (l : Leg) (why : Nat) : W32 :=
  BitVec.ofNat 32 (c.val + (match l with | .a => 0 | .b => 256) + why * 512)

/-- The leg fault response of Table 05.5: the leg leaves service, is WORN after three restores, and the fault is
reported; a stuck leg turns the channel off and is reported as event 0x57 (R132 to R134). -/
def State.legFault (s : State) (c : Ch) (l : Leg) (why : Nat) (stuck : Bool) : State :=
  if !((s.ch c).stage.leg l).inService then s
  else
    let other := ((s.ch c).stage.leg (match l with | .a => .b | .b => .a)).inService
    let s := s.modStage c fun g =>
      { (g.modLeg l fun x => { x with inService := false, why := BitVec.ofNat 2 why, worn := x.worn || 3 ≤ x.restores,
                                        stuck := stuck }) with imbRun := 0 }
    let s := s.count (R.CH_STAGE_CNT_LEGFLT c)
    let s :=
      if other then s.raise (chCode c 0x50) 1 (legData c l why)
      else if isGang (s.topoOf c) then s.raise (chCode c 0x52) 2 (legData c l why)
      else s.raise (chCode c 0x51) 2 (legData c l why)
    if stuck then
      s.raiseSrc ⟨(dieOf c).val, by omega⟩ (chCode c 0x57) 3 (legData c l why)
    else s

/-- Cause code of a desaturation (Table 05.12). -/
def desatWhy (highSide : Bool) : Nat := if highSide then 2 else 3

/-- DESATURATION: more than 2.0 V across a conducting switch after 200 ns (R130); in a freeze the channel turns off and
the response waits for the thaw (R135). -/
def execDesaturation (c : Ch) (l : Leg) (highSide stuck : Bool) (s : State) : Res :=
  if !((s.ch c).stage.leg l).inService then .next s
  else if s.mode.frozen then
    .next (s.modStage c fun g => { g with frzDesat := g.frzDesat.or (some (l, highSide, stuck)), holdRef := 0 })
  else .next (s.legFault c l (desatWhy highSide) stuck)

/-- R131 at one carrier centre: |I_A - I_B| > 0.3 × (|I_A| + |I_B|) with |I_A| + |I_B| ≥ 1.0 A, currents in µA. -/
def imbalanced (iA iB : Int) : Bool :=
  let sum := iA.natAbs + iB.natAbs
  1000000 ≤ sum && 3 * sum < 10 * (iA - iB).natAbs

/-- LEG_IMBALANCE: the leg currents in µA at a carrier centre; the third successive imbalance is a fault of the leg
with the smaller magnitude (R131). No carrier centre occurs in a freeze (R135). -/
def execLegImbalance (c : Ch) (iA iB : Int) (stuck : Bool) (s : State) : Res :=
  if s.clockOn && (s.ch c).stage.legs = 2 then
    if imbalanced iA iB then
      if 2 ≤ (s.ch c).stage.imbRun then
        .next (s.legFault c (if iA.natAbs < iB.natAbs then .a else .b) 1 stuck)
      else .next (s.modStage c fun g => { g with imbRun := g.imbRun + 1 })
    else .next (s.modStage c fun g => { g with imbRun := 0 })
  else .next s

/-- A host register write reaches its register: the host link is up, the Dome runs and no freeze holds (Table 10.3). -/
def State.hostWritable (s : State) : Bool := s.clockOn

/-- One leg restored (R134). -/
def State.restoreLeg (s : State) (c : Ch) (l : Leg) : State :=
  let x := (s.ch c).stage.leg l
  if x.inService || x.worn then s
  else
    (s.modStage c fun g =>
      g.modLeg l fun x => { x with inService := true, why := 0, restores := min 3 (x.restores + 1), stuck := false }).raise (chCode c 0x58) 0 (legData c l x.why.toNat)

/-- `CH_LEG.RESTORE` written 1 (R134): discarded with event 0x56 in FIELD. -/
def State.legRestore (s : State) (c : Ch) : State :=
  if s.mode.mode = .field then s.raise (chCode c 0x56) 0 (BitVec.ofNat 32 c.val)
  else (s.restoreLeg c .a).restoreLeg c .b

/-- CH_LEG_RESTORE: a write of 1 to `CH_LEG.RESTORE` (R134). -/
def execChLegRestore (c : Ch) (s : State) : Res :=
  if s.hostWritable then .next (s.legRestore c) else .next s

/-! ### CH_STAGE_CFG and the timing registers (R105, R106, R109, R127, R136) -/

/-- R106: the sample period is a whole multiple k of the carrier period, k = 1 to 200. -/
def periodsOk (smpPer p : Nat) : Bool := p ≠ 0 && smpPer % p = 0 && 1 ≤ smpPer / p && smpPer / p ≤ 200

/-- The sample-compare PERIOD of a channel. -/
def State.smpPeriod (s : State) (c : Ch) : Nat := (s.units[smpUnit c]).period.toNat

/-- The group of a channel whose group is governed by its lead is switched off: share trims reset (R113). -/
def Stage.enabled (g : Stage) (fixedLow : Bool) (now : Nat) : Stage :=
  { g with highRange := !fixedLow, rangeDue := none, lowRun := 0, iLast := [], iRun := 0, budget := 36000000, budgetAt := now,
           peakExh := false, soft := true, softOn := 0, openRun := 0, limRun := 0, hsOff := false }

/-- A topology value that channel `c` can lead (R109). -/
def State.canLead (s : State) (c : Ch) (topo : Nat) : Bool :=
  topo = 0 || ((topo = topoBRIDGE || topo = topoGANG2) && c.val % 2 = 0)
    || (topo = topoGANG4 && c.val % 4 = 0
        && (if h : c.val + 2 < 256 then s.ownTopo ⟨c.val + 2, h⟩ = 0 else false))

/-- The engine in control of a channel that becomes a follower or member stays idle (R110). -/
def State.idleEngine (s : State) (c : Ch) : State :=
  match (s.ch c).ctl with
  | some e => s.modEng e fun x => { x with running := false, asleep := none, pend := 0, lock := none }
  | none => s

/-- A write of `CH_STAGE_CFG` (R106, R109, R127, R136): each field that the rules discard or alter raises one event
0x56. -/
def State.stageCfgWrite (s : State) (c : Ch) (v : W32) : State :=
  let old := s.reg (R.CH_STAGE_CFG c)
  let fld (w : W32) (f : Fld) : Nat := fieldOf w f
  let fTopo := R.CH_STAGE_CFG_TOPO c
  let want := if fld v fTopo ≤ 3 then fld v fTopo else 0
  let shown := s.topoOf c
  let inField := s.mode.mode = .field
  let member := s.isMember c
  -- fields that FIELD locks keep their values
  let keep (f : Fld) (w : W32) : W32 := withField w f (fld old f)
  let locked := [R.CH_STAGE_CFG_SAFE c, R.CH_STAGE_CFG_FRZ c, R.CH_STAGE_CFG_SNS c, R.CH_STAGE_CFG_ENABLE c]
  let lockDiff := locked.any (fun f => fld v f ≠ fld old f) || want ≠ shown
  let base : W32 := v &&& 0x00001FCF
  let w0 := if inField then locked.foldl (fun w f => keep f w) base else base
  -- topology
  let topoNo := inField || member
  let refuseAll := !member && want ≠ 0 && want ≠ s.ownTopo c && !s.canLead c want
  if refuseAll then s.raise (chCode c 0x56) 0 (BitVec.ofNat 32 c.val)
  else
    let topo := if topoNo then s.ownTopo c else want
    let w1 := withField w0 fTopo topo
    let bad0 := (inField && lockDiff) || (member && want ≠ shown)
    let badFrz := topo = topoBRIDGE && !member && fld w1 (R.CH_STAGE_CFG_FRZ c) = 1
    let w2 := if badFrz then withField w1 (R.CH_STAGE_CFG_FRZ c) 0 else w1
    let rising := fld w2 (R.CH_STAGE_CFG_ENABLE c) = 1 && fld old (R.CH_STAGE_CFG_ENABLE c) = 0
    let badEn := rising && !periodsOk (s.smpPeriod c) (s.pwmP c)
    let w3 := if badEn then withField w2 (R.CH_STAGE_CFG_ENABLE c) 0 else w2
    let s0 := if fld w3 (R.CH_STAGE_CFG_RANGE c) = fld old (R.CH_STAGE_CFG_RANGE c) then s else s.holdWord c (R.CH_STAGE_CFG c)
    let s1 := s0.setReg (R.CH_STAGE_CFG c) w3
    let s1 := forAll (if topo = s.ownTopo c then [] else (s1.groupOf c).tail) (fun m t => t.idleEngine m) s1
    let s2 := if s1.isMember c then s1
      else if rising && !badEn then
        forAll (s1.groupOf c) (fun m t => t.modStage m (·.enabled (t.fixedRange m = some false) t.now)) s1
      else if fld w3 (R.CH_STAGE_CFG_ENABLE c) = 0 then
        forAll (s1.groupOf c) (fun m t => t.modStage m fun g => { g with trim := 0, held := [] }) s1
      else s1
    let s3 := if fld w3 (R.CH_STAGE_CFG_SNS c) ≠ fld old (R.CH_STAGE_CFG_SNS c) then
        s2.modStage c fun g => { g with snsVal := 0 } else s2
    if bad0 || badFrz || badEn then s3.raise (chCode c 0x56) 0 (BitVec.ofNat 32 c.val) else s3

/-- CH_STAGE_CFG_WRITE: a write to `CH_STAGE_CFG` (R109). -/
def execChStageCfgWrite (c : Ch) (v : W32) (s : State) : Res :=
  if s.hostWritable then .next (s.stageCfgWrite c v) else .next s

/-- A write of `CH_PWM` (R105, R106, R136): PERIOD and DEADTIME are discarded in FIELD, PERIOD while it would break
R106 on an enabled channel. -/
def State.pwmWrite (s : State) (c : Ch) (v : W32) : State :=
  let old := s.reg (R.CH_PWM c)
  let p0 := clampN 1000 10000 (fieldOf v (R.CH_PWM_PERIOD c))
  let d0 := max 16 (fieldOf v (R.CH_PWM_DEADTIME c))
  let oldP := fieldOf old (R.CH_PWM_PERIOD c)
  let oldD := fieldOf old (R.CH_PWM_DEADTIME c)
  let inField := s.mode.mode = .field
  let p1 := if inField then oldP else p0
  let d1 := if inField then oldD else d0
  let en := s.flag (R.CH_STAGE_CFG_ENABLE c)
  let bad2 := p1 ≠ oldP && en && !periodsOk (s.smpPeriod c) p1
  let p2 := if bad2 then oldP else p1
  let w := withField (withField (v &&& 0xFF000000) (R.CH_PWM_PERIOD c) p2) (R.CH_PWM_DEADTIME c) d1
  let s1 := (s.holdWord c (R.CH_PWM c)).setReg (R.CH_PWM c) w
  if (inField && (p0 ≠ oldP || d0 ≠ oldD)) || bad2 then s1.raise (chCode c 0x56) 0 (BitVec.ofNat 32 c.val) else s1

/-- A write of `CH_SNS_CFG` (R136): FILT is discarded in FIELD. -/
def State.snsCfgWrite (s : State) (c : Ch) (v : W32) : State :=
  let old := s.reg (R.CH_SNS_CFG c)
  let w := v &&& 0x000001FF
  let s := s.holdWord c (R.CH_SNS_CFG c)
  if s.mode.mode = .field && fieldOf w (R.CH_SNS_CFG_FILT c) ≠ fieldOf old (R.CH_SNS_CFG_FILT c) then
    (s.setReg (R.CH_SNS_CFG c) (withField w (R.CH_SNS_CFG_FILT c) (fieldOf old (R.CH_SNS_CFG_FILT c)))).raise
      (chCode c 0x56) 0 (BitVec.ofNat 32 c.val)
  else s.setReg (R.CH_SNS_CFG c) w

/-- A new sample period into `CH_SMP_PERIOD`, saturated to 1,000 to 200,000 (R89), discarded while the channel is
enabled and R106 would not hold. -/
def State.smpPeriodWrite (s : State) (c : Ch) (v : W32) : State :=
  let p := clampN 1000 200000 v.toNat
  if p ≠ s.smpPeriod c && s.flag (R.CH_STAGE_CFG_ENABLE c) && !periodsOk p (s.pwmP c) then
    s.raise (chCode c 0x56) 0 (BitVec.ofNat 32 c.val)
  else s.modUnit (smpUnit c) fun u => { u with period := BitVec.ofNat 32 p }

end Sys2Proof.Machine
end

