-- ==== Sys2Proof/Machine/Reaches.lean ====
section
/-! DEFINITION. The spire sequencers (08_reaches.md): reach records, coverage, the schedule and its transition points,
advances, completions, queue-dry, and the limp driver (R250). -/

namespace Sys2Proof.Machine

/-! ### Records (R209, R210) -/

/-- A signed 40-bit difference of path lengths (R54). -/
def sDiff (a b : Int) : Int := wrapI 40 (a - b)

/-- 2³⁸ µm (R210, R215). -/
def spanMax : Int := 274877906944

/-- Length of a reach (R210). -/
def Reach.len (r : Reach) : Int := sDiff r.sEnd r.sStart

/-- Whether a position lies in a reach (R210); seen backward, the position just behind it. -/
def Reach.holds (r : Reach) (back : Bool) (s : Int) : Bool :=
  let d := sDiff s r.sStart
  if back then 0 < d && d ≤ r.len else 0 ≤ d && d < r.len

/-- Byte 3 of the record (Table 08.1). -/
def Reach.byte3 (r : Reach) : Nat :=
  (if r.join then 1 else 0) + (if r.cont then 4 else 0) + (if r.dist then 16 else 0)

/-- The eight words of the record of Table 08.1. -/
def Reach.words (c : Ch) (r : Reach) : List W32 :=
  let s40 := (BitVec.ofInt 40 r.sStart).toNat
  let e40 := (BitVec.ofInt 40 r.sEnd).toNat
  [BitVec.ofNat 32 (r.tag.toNat + c.val * 65536 + r.byte3 * 16777216), BitVec.ofNat 32 s40, BitVec.ofNat 32 e40,
   BitVec.ofNat 32 (s40 / 2 ^ 32 + e40 / 2 ^ 32 * 256 + r.seq % 65536 * 65536), BitVec.ofNat 32 r.r,
   BitVec.ofNat 32 r.rampLen, BitVec.ofNat 32 r.rFrom, BitVec.ofNat 32 r.rEff]

/-! ### Coverage (R212, R213) -/

/-- A reach is visible: it takes part in execution, and it is a START reach or an engaged JOIN reach (R211, R212). `eng`
are the JOIN reaches that a look-ahead counts as engaged. -/
def SeqSt.visible (q : SeqSt) (eng : List Nat) (joins : Bool) (r : Reach) : Bool :=
  r.seq < q.taken && (!r.join || (joins && (r.engaged || eng.contains r.seq)))

/-- The covering reach at a position: the visible reach latest in acceptance order that holds it (R212). -/
def SeqSt.cover (q : SeqSt) (back : Bool) (eng : List Nat) (joins : Bool) (s : Int) : Option Reach :=
  (q.live.filter fun r => q.visible eng joins r && r.holds back s).getLast?

/-- The state that the schedule gives a position, without a dry extension (R218, R231, R232). -/
def SeqSt.stateAt (q : SeqSt) (joins : Bool) (s : Int) : Sched :=
  match q.cover false [] joins s with
  | some r => .on r.seq
  | none => .off

/-- The record of a reach by its acceptance count, live or ended. -/
def SeqSt.rec? (q : SeqSt) (n : Nat) : Option Reach :=
  (q.live.find? (·.seq = n)).or (q.ended.filter (·.seq = n))

/-- The record of the state's reach. -/
def SeqSt.recOf (q : SeqSt) : Sched → Option Reach
  | .off => none
  | .on n => q.rec? n
  | .dry n => q.rec? n

/-- The record shown as active (R226). -/
def SeqSt.active (q : SeqSt) : Option Reach := q.recOf q.sched

/-- State ON. -/
def SeqSt.isOn (q : SeqSt) : Bool := q.sched != .off

/-- What a state beyond a point is called: exit when it is OFF or a reach with R = 0 (R215). -/
def SeqSt.exitKind (q : SeqSt) : Sched → Bool
  | .off => true
  | .on n => (q.rec? n).any (·.r = 0)
  | .dry _ => false

/-! ### Queue-dry settings (Table 08.3) -/

/-- A dry action. -/
inductive DryAct where
  | close | dist (um : Nat) | hold
  deriving DecidableEq, Repr

/-- `CH_RQ_CFG.DRY` in effect. -/
def SeqSt.dryCode (q : SeqSt) : Nat := bits q.cfg.toNat 0 2
/-- `CH_RQ_CFG.DRY_DIST` in effect, in cm. -/
def SeqSt.dryCm (q : SeqSt) : Nat := bits q.cfg.toNat 16 16
/-- The dry action in effect; HOLD_DIST over 0 cm is CLOSE (R227). -/
def SeqSt.dryAct (q : SeqSt) : DryAct :=
  match q.dryCode with
  | 1 => if q.dryCm = 0 then .close else .dist (q.dryCm * 10000)
  | 2 => .hold
  | _ => .close
/-- Standstill threshold in µm/s (R229). -/
def SeqSt.stillV (q : SeqSt) : Nat := bits q.cfg.toNat 4 8 * 10000
/-- R_EFF is presented as 0 (R229). -/
def SeqSt.zeroed (q : SeqSt) : Bool := q.still || (q.back && bits q.cfg.toNat 3 1 = 1)
/-- R_EFF as presented to the program and the limp driver (R229). -/
def SeqSt.rPresented (q : SeqSt) : Nat := if q.zeroed then 0 else (q.active.map (·.rEff)).getD 0

/-! ### Looking ahead (R213, R215) -/

/-- Insertion of a distance into a rising list without repeats. -/
def insertNat (k : Nat) : List Nat → List Nat
  | [] => [k]
  | x :: xs => if k < x then k :: x :: xs else if k = x then x :: xs else x :: insertNat k xs

/-- Distance from σ of a point in the direction of travel, when it is beyond σ and less than 2³⁸ away (R215). -/
def SeqSt.ahead (q : SeqSt) (p : Int) : Option Nat :=
  let d := if q.back then sDiff q.sigma p else sDiff p q.sigma
  if 0 < d && d < spanMax then some d.toNat else none

/-- Candidate points beyond σ: the ends of the reaches that take part, and the end of a begun extension. -/
def SeqSt.points (q : SeqSt) : List Nat :=
  let ends := (q.live.filter (·.seq < q.taken)).flatMap fun r => [r.sStart, r.sEnd]
  let dry := match q.sched, q.dryEnd with
    | .dry _, some p => [p]
    | _, _ => []
  (ends ++ dry).foldl (fun l p => match q.ahead p with | some k => insertNat k l | none => l) []

/-- The schedule just beyond σ (R213): the covering reach, or the dry extension that the channel runs in. -/
def SeqSt.schedAt (q : SeqSt) : Sched :=
  match q.cover q.back [] true q.sigma, q.sched with
  | some r, .dry n => if r.seq = n then .dry n else .on r.seq
  | some r, _ => .on r.seq
  | none, .dry n => .dry n
  | none, _ => .off

/-- The first point of a rising list at which the schedule changes, where it stands at `cur` (R213). JOIN reaches that start
while it is ON count as engaged; a CONTINUE reach without successor runs on into its dry extension when it is the channel's
active reach (R227). -/
def SeqSt.look (q : SeqSt) : Nat → List Nat → Sched → Option Int → List Nat → Option (Int × Sched)
  | 0, _, _, _, _ => none
  | _ + 1, [], _, _, _ => none
  | fuel + 1, k :: ks, cur, dryEnd, eng =>
    let p := wrapI 40 (if q.back then q.sigma - k else q.sigma + k)
    let eng := if !q.back && cur != .off then
        eng ++ (q.live.filter fun r => r.join && r.seq < q.taken && r.sStart = p).map (·.seq) else eng
    match q.cover q.back eng true p with
    | some r => if cur = .on r.seq then q.look fuel ks cur dryEnd eng else some (p, .on r.seq)
    | none =>
      if q.back then (if cur = .off then q.look fuel ks cur dryEnd eng else some (p, .off))
      else match cur with
        | .off => q.look fuel ks cur dryEnd eng
        | .dry _ => if dryEnd = some p then some (p, .off) else q.look fuel ks cur dryEnd eng
        | .on n =>
          let runsOn := (q.rec? n).any fun r => r.cont && r.sEnd = p
          match runsOn && q.sched = .on n, q.dryAct with
          | true, .dist um =>
            let ks := if (k + um : Int) < spanMax then insertNat (k + um) ks else ks
            q.look fuel ks (.dry n) (some (wrapI 40 (p + um))) eng
          | true, .hold => q.look fuel ks (.dry n) dryEnd eng
          | _, _ => some (p, .off)

/-- The presented boundary and the state beyond it (R215). -/
def SeqSt.next (q : SeqSt) : Option (Int × Sched) := q.look 256 q.points q.schedAt q.dryEnd []

/-! ### Views (R226, Table 08.9) -/

/-- RQ_ST and `CH_RQ_STAT`. -/
def SeqSt.rqSt (q : SeqSt) : W32 :=
  let b (x : Bool) (k : Nat) : Nat := if x then 2 ^ k else 0
  let dry := match q.sched with | .dry _ => true | _ => false
  BitVec.ofNat 32 (min q.live.length 64 + b q.isOn 7 + b (q.bnd.any fun x => q.exitKind x.2) 8 + b q.bnd.isSome 9
    + b dry 10 + b q.zeroed 11 + b q.back 12 + b q.late 13 + q.adv.toNat * 65536)

/-- RQA0 to RQA7 (R226, R229). -/
def SeqSt.rqa (q : SeqSt) (c : Ch) : List W32 :=
  match q.active with
  | none => List.replicate 8 0
  | some r => if q.zeroed then (r.words c).set 7 0 else r.words c

/-- RQN0 to RQN7 (R226). -/
def SeqSt.rqn (q : SeqSt) (c : Ch) : List W32 :=
  match q.bnd with
  | none => List.replicate 8 0
  | some (_, st) => match q.recOf st with
    | some r => r.words c
    | none => List.replicate 8 0

/-- A change of one channel's sequencer; REACH is latched when RQ_ST changes (Table 06.5). -/
def State.seqChange (s : State) (c : Ch) (f : State → State) : State :=
  let t := f s
  if (t.ch c).seqr.rqSt = (s.ch c).seqr.rqSt then t else t.latchCh c 4

/-- A live or ended record changed. -/
def SeqSt.modRec (q : SeqSt) (n : Nat) (f : Reach → Reach) : SeqSt :=
  { q with live := q.live.map fun r => if r.seq = n then f r else r
           ended := q.ended.map fun r => if r.seq = n then f r else r }

/-- The acceptance count that a state names. -/
def Sched.seq? : Sched → Option Nat
  | .off => none
  | .on n => some n
  | .dry n => some n

/-! ### Set-point (R221) -/

/-- R_EFF of a reach at the lead position. -/
def Reach.ramp (r : Reach) (lead : Int) : Nat :=
  if r.dist && r.rampLen ≠ 0 then
    let p := clampI 0 r.rampLen (sDiff lead r.sStart)
    (r.rFrom + roundDiv (((r.r : Int) - r.rFrom) * p) r.rampLen).toNat
  else r.r

/-- s_lead = s_i + round(v_i × L ÷ 200,000,000) (R221). -/
def State.leadPos (s : State) (c : Ch) : Int :=
  let h := s.ch c
  h.sRep + roundDiv (h.vRep * s.regN (R.CH_BND_LAT c)) ticksPerS

/-- R_EFF written into the record of the active reach (R221); it stands in a dry extension (R227). -/
def State.writeREff (s : State) (c : Ch) : State :=
  match (s.ch c).seqr.sched with
  | .on n =>
    let lead := s.leadPos c
    s.modSeq c fun q => q.modRec n fun r => { r with rEff := r.ramp lead }
  | _ => s

/-! ### The limp driver (R250, R251) -/

/-- ON_L (R251). -/
def State.limpWord (s : State) (c : Ch) : Int :=
  ((s.ch c).mirror.limpWord).getD
    (roundDiv (s.get (R.TKO_LIMP_CFG_ON_DEF (spireOf c)) * 8 * s.pwmP c : Nat) 256)

/-- The on-time of a channel in limp: ON_L or 0 (R250). -/
def State.limpOn (s : State) (c : Ch) : Int :=
  let h := s.ch c
  let q := h.seqr
  if q.isOn && 0 < q.rPresented && !q.back && q.stillV ≤ h.vRep.natAbs && !s.limpOff c then s.limpWord c else 0

/-- The limp driver sends its on-time (R250); the Weir forwards no duty in the fault state (R399). -/
def State.limpDrive (s : State) (c : Ch) : State :=
  if (s.ch c).limp && !s.isMember c && !s.mode.fault then s.sendTrimmed c (s.limpOn c) none else s

/-! ### Advances (R216 to R218, R222, R224, R227) -/

/-- Queue-dry begins: the record is marked, the end of a HOLD_DIST extension is fixed, and event 0x70 is raised. -/
def State.dryBegin (s : State) (c : Ch) (n : Nat) : State :=
  let q := (s.ch c).seqr
  let end_ := match q.dryAct, q.rec? n with
    | .dist um, some r => some (wrapI 40 (r.sEnd + um))
    | _, _ => none
  (s.modSeq c fun q => { (q.modRec n fun r => { r with dry := true }) with sched := .dry n, dryEnd := end_ }).raise
    (chCode c 0x70) 0 (BitVec.ofNat 32 (c.val + q.dryCode * 256))

/-- Whether queue-dry of an active CONTINUE reach begins no later than an advance across `p` onto `new` (Table 08.3): under
CLOSE at the advance across S_END to OFF; under the others when the point `pos` of the channel has crossed S_END at this update
and the advance lies beyond it. -/
def SeqSt.dryAtAdvance (q : SeqSt) (pos p : Int) (new : Sched) : Option Nat :=
  match q.sched with
  | .on n => match q.rec? n with
    | some r =>
      let d := sDiff p r.sEnd
      let begins := match q.dryAct with
        | .close => d = 0 && new = .off && q.dryCode ≠ 1
        | _ => decide (0 < d) && decide (0 ≤ sDiff pos r.sEnd)
      if !q.back && r.cont && begins then some n else none
    | none => none
  | _ => none

/-- JOIN reaches whose start lies in (σ, p] become engaged when the state is ON (R224). -/
def SeqSt.engage (q : SeqSt) (p : Int) : SeqSt :=
  if !q.back && q.isOn then
    { q with live := q.live.map fun r =>
        if r.join && r.seq < q.taken && 0 < sDiff r.sStart q.sigma && sDiff r.sStart p ≤ 0 then { r with engaged := true }
        else r }
  else q

/-- The state that an advance across `p` reaches: a JOIN reach that the channel meets while OFF stays transparent (R224). -/
def SeqSt.met (q : SeqSt) (p : Int) (new : Sched) : Sched :=
  match new with
  | .on n =>
    if (q.rec? n).any fun r => r.join && !r.engaged then
      match q.cover q.back [] true p with
      | some r => .on r.seq
      | none => .off
    else new
  | _ => new

/-- The reach left and the reach entered by an advance, with their marks (R217 to R219, R222). -/
def SeqSt.shift (q : SeqSt) (new : Sched) (upd : Nat) (late rev : Bool) : SeqSt :=
  let old := q.sched.seq?
  let to_ := new.seq?
  let prev := (q.active.map (·.rEff)).getD 0
  let mark (r : Reach) : Reach := { r with late := r.late || late, reverted := r.reverted || rev }
  let q := match old with
    | some n => q.modRec n fun r => if to_ = some n then mark r else { mark r with rEff := 0, offAt := some upd }
    | none => q
  let q := match to_ with
    | some n => if old = some n then q else
        q.modRec n fun r => { mark r with wasActive := true, activeAt := upd, offAt := none, rFrom := prev }
    | none => q
  { q with sched := new, adv := q.adv + 1, late := late, ended := if to_ = old then q.ended else none }

/-- An advance (R216): onto `new`, across `p` where there is a point. `upd` is the course update it belongs to. -/
def State.advance (s : State) (c : Ch) (p : Option Int) (new : Sched) (upd : Nat) (late rev dryOk : Bool) : State :=
  let wasOn := (s.ch c).seqr.isOn
  let new := match p with
    | some p => if rev then new else ((s.ch c).seqr.engage p).met p new
    | none => new
  let begins := match p with
    | some p => if dryOk then (s.ch c).seqr.dryAtAdvance (s.ch c).sRep p new else none
    | none => none
  let s := match begins with
    | some n => s.dryBegin c n
    | none => s
  let wasDry := match (s.ch c).seqr.sched with | .dry _ => true | _ => false
  let s := if wasDry && new != .off then s.raise (chCode c 0x71) 0 (BitVec.ofNat 32 c.val) else s
  let s := s.modSeq c fun q =>
    let q := match p with
      | some p => if rev then q else q.engage p
      | none => q
    let q := q.shift new upd late rev
    { q with dryEnd := if wasDry then none else q.dryEnd, sigma := p.getD q.sigma }
  let s := if !wasOn && new != .off then s.modCnt c fun x => { x with act := x.act + 1 } else s
  (s.writeREff c).limpDrive c

/-- Event 0x72 of a late advance and event 0x73 of a reversal, at most once per second per channel (R238). -/
def State.advanceEvent (s : State) (c : Ch) (lo : Nat) : State :=
  s.raiseLimited (chCode c lo) 0 (BitVec.ofNat 32 c.val) c.val

/-- The channel's sequencer executes reaches: FIELD, and not the fault state (R232, R399). -/
def State.seqRuns (s : State) : Bool := s.mode.mode = .field && !s.mode.fault

/-- A boundary match: the sequencer advances across B on the match tick (R216). -/
def State.boundaryMatch (s : State) (c : Ch) : State :=
  match (s.ch c).seqr.bnd with
  | none => s
  | some (p, new) =>
    if s.seqRuns then
      s.seqChange c fun s =>
        (s.advance c (some p) new ((s.ch c).seqr.upd + 1) false false true).modSeq c fun q => { q with bnd := none }
    else s

/-! ### Completions (R219, R230, Table 08.4) -/

/-- A reach leaves the queue with its completion entry. -/
def State.reachDone (s : State) (c : Ch) (r : Reach) (status : Byte) : State :=
  let s := s.modSeq c fun q =>
    { q with live := q.live.filter (·.seq ≠ r.seq)
             ended := if q.sched.seq? = some r.seq then (q.rec? r.seq).or q.ended else q.ended }
  s.hold (s.cqOf r.ring) (s.rqOf r.ring)
    (.reach s.tick.now r.tag c status r.ring r.late r.dry r.reverted)

/-- Every live reach that satisfies `p` completes, in acceptance order. -/
def State.reachDoneAll (s : State) (c : Ch) (p : Reach → Bool) (status : Byte) : State :=
  forAll ((s.ch c).seqr.live.filter p) (fun r t => t.reachDone c r status) s

/-- The outcome of a reach whose end s_i has crossed (R219). -/
def reachOutcome (r : Reach) (upd : Nat) : Byte :=
  if r.wasActive then (if r.activeAt = upd && r.offAt = some upd then 3 else 0)
  else if r.join && !r.engaged then 2 else 1

/-- The reaches whose S_END s_i crosses at this update (R219). -/
def State.crossed (s : State) (c : Ch) : List Reach :=
  let h := s.ch c
  h.seqr.live.filter fun r => r.seq < h.seqr.taken && sDiff h.sPrev r.sEnd < 0 && 0 ≤ sDiff h.sRep r.sEnd

/-- Queue-dry of HOLD_DIST and HOLD begins as s_i crosses S_END of the active CONTINUE reach (R227, Table 08.3). -/
def State.dryCross (s : State) (c : Ch) (r : Reach) : State :=
  let q := (s.ch c).seqr
  if q.sched = .on r.seq && r.cont && q.dryAct != .close then s.dryBegin c r.seq else s

/-- The completions of one course update (R219, R227). -/
def State.completions (s : State) (c : Ch) : State :=
  let upd := (s.ch c).seqr.upd
  let done := s.crossed c
  let s := forAll done (fun r t =>
    let t := t.dryCross c r
    match (t.ch c).seqr.rec? r.seq with
    | some r' => t.reachDone c r' (reachOutcome r' upd)
    | none => t) s
  let n := (done.filter fun r => reachOutcome r upd = 3).length
  if n = 0 then s else s.raise (chCode c 0x74) 0 (BitVec.ofNat 32 (c.val + min n 255 * 256))

/-! ### Course updates (R214 to R232) -/

/-- R_EFF is 0 at standstill: the state of STILL (R229). -/
def SeqSt.stillStep (q : SeqSt) (v : Int) : SeqSt :=
  { q with still :=
      if bits q.cfg.toNat 2 1 = 0 then false
      else if v.natAbs < q.stillV then true
      else if 5 * q.stillV ≤ 4 * v.natAbs then false
      else q.still }

/-- A cancel or flush of R231: the state goes to the schedule at s_i under the rule of R218, and an exit counts as late. -/
def State.cancelStep (s : State) (c : Ch) (x : CancelReq) : State :=
  let p (r : Reach) : Bool := match x.rtag with | some t => r.tag = t | none => true
  let n := ((s.ch c).seqr.live.filter p).length
  let s := s.reachDoneAll c p 5
  let s := match x.req with
    | some (r, tag, sq) => s.complete r tag sq 0 (BitVec.ofNat 64 n)
    | none => s
  if s.seqRuns then
    let pos := (s.ch c).sRep
    let q := (s.ch c).seqr
    let new := q.stateAt true pos
    let s := s.modSeq c fun q => { q with sigma := pos }
    if new = q.sched then s
    else
      let late := decide (new = .off)
      (s.advance c (some pos) new q.upd late (!late) false).advanceEvent c (if late then 0x72 else 0x73)
  else s

/-- The first course update in FIELD (R232). -/
def State.fieldEntry (s : State) (c : Ch) : State :=
  let pos := (s.ch c).sRep
  let s := s.reachDoneAll c (fun r => decide (0 ≤ sDiff pos r.sEnd)) 4
  let s := s.modSeq c fun q => { q with sigma := pos }
  let q := (s.ch c).seqr
  let new := q.stateAt false pos
  if new = q.sched then s else (s.advance c (some pos) new q.upd true false false).advanceEvent c 0x72

/-- The direction of travel (R214); a change sets σ and the state to the schedule at s_i (R218). -/
def State.directionStep (s : State) (c : Ch) : State :=
  let h := s.ch c
  let v := h.vRep
  let back := if v = 0 then h.seqr.back else decide (v < 0)
  if back = h.seqr.back then s
  else
    let pos := h.sRep
    let s := s.modSeq c fun q => { q with back := back, sigma := pos }
    if s.seqRuns then
      let q := (s.ch c).seqr
      let new := q.stateAt true pos
      if new = q.sched then s else (s.advance c (some pos) new q.upd false true false).advanceEvent c 0x73
    else s

/-- The late advances of R217, in path order; at most as many as there can be points. -/
def State.lateAdvances (c : Ch) : Nat → State → State
  | 0, s => s
  | fuel + 1, s =>
    let q := (s.ch c).seqr
    match q.next with
    | none => s
    | some (p, new) =>
      let d := sDiff (s.ch c).sRep p
      if (if q.back then d ≤ 0 else 0 ≤ d) then
        ((s.advance c (some p) new q.upd true false true).advanceEvent c 0x72).lateAdvances c fuel
      else s

/-- One channel's sequencer at a course update, in the order of R220. In the fault state it makes no advance and completes no
reach (R399): cancels wait, and direction, standstill, R_EFF, the queue-dry of a crossed end and the presented boundary go on. -/
def State.seqUpdate (s : State) (c : Ch) : State :=
  s.seqChange c fun s =>
    let s := s.modSeq c fun q => { q with taken := q.nextSeq, upd := q.upd + 1, cfg := s.reg (R.CH_RQ_CFG c) }
    let s := if s.seqRuns && !s.course.fieldPass then s.fieldEntry c else s
    let s := if s.mode.fault then s else
      let reqs := (s.ch c).seqr.cancels
      forAll reqs (fun x t => t.cancelStep c x) (s.modSeq c fun q => { q with cancels := [] })
    let s := (s.directionStep c).modSeq c fun q => q.stillStep (s.ch c).vRep
    let s := if s.seqRuns then (s.lateAdvances c 256).completions c
      else forAll (s.crossed c) (fun r t => t.dryCross c r) s
    let s := (s.writeREff c).limpDrive c
    s.modSeq c fun q => { q with bnd := if s.mode.mode = .field then q.next else none }

/-- Leaving FIELD (R31, R232): the state goes to OFF, and every live reach completes as Mode change. -/
def State.seqLeaveField (s : State) (c : Ch) : State :=
  s.seqChange c fun s =>
    let q := (s.ch c).seqr
    let s := if q.isOn then s.advance c none .off (q.upd + 1) false false false else s
    (s.reachDoneAll c (fun _ => true) 6).modSeq c fun q => { q with bnd := none, ended := none, dryEnd := none }

/-- A rebase discards every live reach (R233). -/
def State.rebaseReaches (s : State) : State :=
  forAll allSpires (fun p s =>
    let n := ((chansOfSpire p).map fun c => (s.ch c).seqr.live.length).foldl (· + ·) 0
    let s := forAll (chansOfSpire p) (fun c t => t.seqChange c fun t => t.reachDoneAll c (fun _ => true) 7) s
    if n = 0 then s else s.raise (spireCode p 0x75) 0 (BitVec.ofNat 32 (min n 255 * 256))) s

/-! ### Acceptance (Table 08.2, checks 4 and 6 to 8) -/

/-- The status of the first failing check among those that follow the descriptor checks; none when it is accepted. -/
def State.reachCheck (s : State) (c : Ch) (r : Reach) : Option Byte :=
  let pos := (s.ch c).sRep
  if !(1000 ≤ r.len && r.len ≤ spanMax) then some 0x14
  else if s.isMember c then some 0x15
  else if 0 ≤ sDiff pos r.sEnd then some 0x04
  else if spanMax ≤ sDiff r.sStart pos then some 0x16
  else if 64 ≤ (s.ch c).seqr.live.length then some 0x17
  else none

/-- An accepted reach joins its channel's queue (R211). -/
def State.reachAccept (s : State) (c : Ch) (r : Reach) : State :=
  s.seqChange c fun s => s.modSeq c fun q =>
    { q with live := q.live ++ [{ r with seq := q.nextSeq }], nextSeq := q.nextSeq + 1 }

end Sys2Proof.Machine
end

