-- ==== Sys2Proof/Machine/Compare.lean ====
section
/-! DEFINITION. The compare units (04_tick_base_and_compares.md): matches and their actions, chains, global start, the
boundary predictor, host writes under R97, and the replay after a forward step. -/

namespace Sys2Proof.Machine

/-! ### Control fields (Table 04.4) -/

/-- ARM. -/
def CmpUnit.arm (u : CmpUnit) : Bool := u.ctrl.getLsbD 0
/-- GATED. -/
def CmpUnit.gated (u : CmpUnit) : Bool := u.ctrl.getLsbD 2
/-- PRED. -/
def CmpUnit.pred (u : CmpUnit) : Bool := u.ctrl.getLsbD 23
/-- PARKED. -/
def CmpUnit.parked (u : CmpUnit) : Bool := u.ctrl.getLsbD 27
/-- GROUP. -/
def CmpUnit.group (u : CmpUnit) : Nat := bits u.ctrl.toNat 3 3
/-- XFER_RING. -/
def CmpUnit.xferRing (u : CmpUnit) : Fin 4 := ⟨bits u.ctrl.toNat 8 2, Nat.mod_lt _ (by decide)⟩
/-- CHAIN_TGT. -/
def CmpUnit.chainTgt (u : CmpUnit) : Nat := bits u.ctrl.toNat 12 10
/-- A control bit set or cleared. -/
def CmpUnit.setBit (u : CmpUnit) (k : Nat) (b : Bool) : CmpUnit :=
  let m : W32 := BitVec.ofNat 32 (2 ^ k)
  { u with ctrl := if b then u.ctrl ||| m else u.ctrl &&& ~~~m }
/-- PARKED and PARK_WHY. -/
def CmpUnit.setPark (u : CmpUnit) (why : Option (BitVec 2)) : CmpUnit :=
  let base := u.ctrl &&& ~~~(0x38000000 : W32)
  { u with ctrl := match why with
      | none => base
      | some w => base ||| 0x08000000 ||| (w.zeroExtend 32 <<< 28) }

/-- The channel of a boundary compare (Table 04.1). -/
def bndChan (u : CUnit) : Option Ch := if h : 32 ≤ u.val ∧ u.val < 288 then some ⟨u.val - 32, by omega⟩ else none
/-- The channel of a sample compare (Table 04.1). -/
def smpChan (u : CUnit) : Option Ch := if h : 288 ≤ u.val then some ⟨u.val - 288, by omega⟩ else none
/-- The number of a system compare (Table 04.1). -/
def sysNum (u : CUnit) : Option (Fin 32) := if h : u.val < 32 then some ⟨u.val, h⟩ else none

/-- A unit that the match test takes: armed, not waiting on a global start, and its TARGET reached (R87), by the values that it
held at the start of the tick (R92). -/
def CmpUnit.due (u : CmpUnit) (now : W64) : Bool :=
  u.arm && !u.gated && decide (u.target ≤ now) && decide (u.since ≤ now.toNat)

/-- A unit changed by steps 3 to 6 of R92: the change takes part in the match test from the next tick on (R87). -/
def State.setUnit (s : State) (u : CUnit) (f : CmpUnit → CmpUnit) : State :=
  s.modUnit u fun v => { f v with since := s.now + 1 }

/-- Event 0x0502 with the unit index (R91, R97). -/
def State.cmpRefused (s : State) (u : CUnit) : State := s.raise 0x0502 0 (BitVec.ofNat 32 u.val)

/-! ### Freeze trigger (R36, R399, R408) -/

/-- A freeze trigger on the present tick: CAUSE bits of `FRZ_STAT` and the system compare. Ignored with event 0x0107
outside R36 and in the fault state; counted in a freeze. -/
def State.freezeTrigger (s : State) (cause : BitVec 3) (sc : BitVec 5) : State :=
  if s.mode.frozen then
    let s := s.count R.FRZ_CNT_IGNORED
    { s with frz := { s.frz with ignored := s.frz.ignored + 1 } }
  else if s.mode.mode.isLink && s.mode.bootStep = 0 && !s.mode.fault then
    let old := (s.frz.trig.map Prod.fst).getD 0
    { s with frz := { s.frz with trig := some (old ||| cause, if cause = 4 then sc else (s.frz.trig.map Prod.snd).getD sc),
                                 tf := s.now } }
  else s.raise 0x0107 0

/-! ### Matches (R87 to R93) -/

/-- TARGET after a periodic match that takes tick `t`, and the periods skipped (R88). -/
def periodicNext (target : W64) (period t : Nat) : W64 × Nat :=
  let nt := target.toNat + period
  if period = 0 then (target, 0)
  else if t < nt then (BitVec.ofNat 64 nt, 0)
  else
    let k := (t - nt) / period + 1
    (BitVec.ofNat 64 (nt + k * period), k)

/-- The changes that a match makes to its unit (R87, R88), and the periods skipped. -/
def CmpUnit.afterMatch (u : CmpUnit) (stamp : W64) (tAdv : Nat) : CmpUnit × Nat :=
  let u := { u with matchTick := stamp }.setBit 24 true
  if u.ctrl.getLsbD 1 then
    let (t, k) := periodicNext u.target u.period.toNat tAdv
    (if k = 0 then { u with target := t } else { u with target := t, missed := u.missed + k }.setBit 25 true, k)
  else (u.setBit 0 false, 0)

/-- A compare entry among those held: requests of one tick stand in ascending unit index (R93). -/
def heldCmp (l : List Held) (stamp : W64) (u : CUnit) (h : Held) : List Held :=
  let before (x : Held) : Bool := match x.e with
    | .cmp st _ v _ false => !(st = stamp && u < v)
    | _ => true
  l.takeWhile before ++ h :: l.dropWhile before

/-- XFER (R90): a compare entry for the unit's ring; a unit that still holds one loses the new one (R278). -/
def State.cmpXfer (s : State) (u : CUnit) (old : CmpUnit) (stamp : W64) (replay : Bool) : State :=
  let k := old.xferRing
  if old.held then s.count (R.Q_CNT_LOST (cqRing k))
  else
    let lag : Int := (stamp.toNat : Int) - old.target.toNat
    let sat := decide (lag < 0 ∨ (2 ^ 32 : Int) ≤ lag)
    let e : Held := ⟨21, .cmp stamp (BitVec.ofNat 32 (satU 32 lag)) u sat replay, s.now⟩
    (s.modUnit u fun x => { x with held := true }).modHp fun h =>
      { h with cq := upd h.cq k fun l => if replay then l ++ [e] else heldCmp l stamp u e }

/-- CHAIN (R91): it takes effect on the next tick; a target above 543 disables it. -/
def State.cmpChain (s : State) (u : CUnit) (old : CmpUnit) (stamp : W64) : State :=
  if h : old.chainTgt < 544 then
    { s with tick := { s.tick with
        chains := s.tick.chains ++ [⟨s.now + 1, ⟨old.chainTgt, h⟩, u, old.ctrl.getLsbD 11, stamp⟩] } }
  else s

/-- At the commit of a valid NOZZLE block the module sets the freeze-hold ceiling of the group's members to
ceil(HOLD_MA ÷ m) (R169, R182). -/
def State.nozzleHold (s : State) (c : Ch) (prm : List W32) : State :=
  let w0 := prm.getD 0 0
  let id := (s.ch c).slot.progId
  if id = 1 && w0.extractLsb' 0 24 = 0x010001 then
    let hold := min 16000 (bits (prm.getD 10 0).toNat 16 16)
    let g := s.groupOf c
    forAll g (fun m t => t.put (R.CH_FRZ_HOLD_IMAX m) ((hold + g.length - 1) / g.length)) s
  else s

/-- The shadow parameter block is committed at a sample-compare match (R153). -/
def State.prmCommitAt (s : State) (c : Ch) : State :=
  if (s.ch c).prmCommit then
    let blk := (s.ch c).shadow
    ((s.modCh c fun h => { h with prm := blk, prmSeq := h.prmSeq + 1, prmCommit := false }).latchCh c 5).nozzleHold c blk
  else s

/-- The deadline of the control sample that ends at this match (R149, R242). One that fell in a gap of the tick base is not
missed: a freeze causes no takeover (R21). -/
def State.deadlineAt (s : State) (c : Ch) (replay : Bool) : State :=
  s.modCh c fun h =>
    if !h.dueOpen then h
    else if h.dueMet then { h with dueOpen := false, missRun := 0 }
    else { h with dueOpen := false, missDue := !replay }

/-- The checkpoint of the control sample that ends at this match: one that was not committed is counted (R155). -/
def State.ckptAt (s : State) (c : Ch) : State :=
  let h := s.ch c
  let s := s.modCh c fun h => { h with sampling := false, ckptDone := false }
  if h.sampling && !h.ckptDone then
    (s.count (R.CH_ENG_CNT_CKSKIP c)).raiseLimited (chCode c 0x64) 0 (BitVec.ofNat 32 c.val) c.val
  else s

/-- What a sample-compare match starts (R90, R106): a follower or member takes no control sample of its own. -/
def State.sampleMatch (s : State) (c : Ch) (conv replay : Bool) : State :=
  let s := ((s.prmCommitAt c).deadlineAt c replay).ckptAt c
  if conv && !s.isMember c then s.modCh c fun h => { h with instant := some (s.now + 10), sampling := true } else s

/-- A match on a boundary whose result was late: LATE, the lateness from the unclamped t_star to the match tick, and the event
(R96). -/
def State.lateMatch (s : State) (c : Ch) (stamp : W64) : State :=
  match (s.ch c).predLate with
  | none => s
  | some t =>
    let s := (s.modUnit (bndUnit c) (·.setBit 26 true)).modCnt c fun x => { x with lateN := x.lateN + 1 }
    (s.setReg (R.CH_BND_LATE c) (BitVec.ofNat 32 (satU 32 ((stamp.toNat : Int) - t)))).raise (chCode c 0x41) 0
      (BitVec.ofNat 32 c.val)

/-- What a boundary match signals: the engine, the counts of Table 11.4, and the sequencer (Table 04.1, R216). -/
def State.bndSignal (s : State) (c : Ch) (stamp : W64) : State :=
  let s := (s.lateMatch c stamp).modCnt c fun x => { x with bndN := x.bndN + 1, bndAt := some s.now }
  let s := s.modCh c fun h => { h with predHit := true, predLate := none }
  (s.latchCh c 3).boundaryMatch c

/-- CONV of a system compare (R90): one measurement-only sample on every channel ADC of the spires in SCn_CONV_MASK. Its results
come in as CURRENT_SAMPLE and VOLTAGE_SAMPLE. -/
def State.measure (s : State) (n : Fin 32) : State :=
  let mask := s.get (R.SC_CONV_MASK_SPIRES n)
  forAll allCh (fun c t => if bits mask (spireOf c).val 1 = 1 then t.modCh c fun h => { h with measI := some t.now, measV := some t.now } else t) s

/-- A match of a unit with all its actions: `stamp` is what its match tick, chain and entry carry, `tAdv` the tick of
its periodic advance (R87 to R93, R99). -/
def State.fireUnit (s : State) (u : CUnit) (stamp : W64) (tAdv : Nat) (replay : Bool) : State :=
  let old := s.units[u]
  let (new, skipped) := old.afterMatch stamp tAdv
  let s := s.modUnit u fun _ => new
  let conv := old.ctrl.getLsbD 6
  let s := match smpChan u with
    | some c =>
      let s := if skipped = 0 then s else s.raise (chCode c 0x40) 0 (BitVec.ofNat 32 c.val)
      s.sampleMatch c conv replay
    | none => s
  let s := match bndChan u with
    | some c => s.bndSignal c stamp
    | none => s
  let s := match sysNum u with
    | some n =>
      let s := forAll allEng (fun e t => if (t.eng[e]).eddy.sc = n.val then t.eddyTrigger e 4 else t) s
      let s := if conv then s.measure n else s
      if old.ctrl.getLsbD 22 then s.freezeTrigger 4 (BitVec.ofNat 5 n.val) else s
    | none => s
  let s := if old.ctrl.getLsbD 7 then s.cmpXfer u old stamp replay else s
  if old.ctrl.getLsbD 10 then s.cmpChain u old stamp else s

/-- The match test of a tick outside a replay, steps 1 and 2 of R92: whatever changes a unit on a tick makes its match of
that tick first. -/
def State.matchNow (s : State) (u : CUnit) : State :=
  if s.clockOn && s.tick.replay.isNone && (s.units[u]).due s.tick.now then s.fireUnit u s.tick.now s.now false else s

/-- COMPARE_MATCH: the match test of a tick outside a replay (R87 to R93). -/
def execCompareMatch (u : CUnit) (s : State) : Res := .next (s.matchNow u)

/-- The chain that takes effect on a unit (R91, R97). -/
def State.applyChain (s : State) (u : CUnit) (x : Chain) : State :=
  let v := s.units[u]
  if (bndChan u).isSome && v.pred then s.cmpRefused u
  else if x.arm then s.setUnit u (·.setBit 0 true)
  else s.setUnit u fun v => { v with target := x.stamp + v.period.zeroExtend 64 }.setBit 0 true

/-- The chain of the lowest unit index among those that reach a unit. -/
def lowestChain : List Chain → Option Chain
  | [] => none
  | x :: xs => match lowestChain xs with
    | some y => some (if x.src.val ≤ y.src.val then x else y)
    | none => some x

/-- The chains that reach a unit on this tick, step 3 of R92; the lowest source takes effect and the others are discarded
(R91, R92). -/
def State.chainNow (s : State) (u : CUnit) : State :=
  let mine := s.tick.chains.filter fun x => x.tgt = u && x.due ≤ s.now
  match lowestChain mine with
  | none => s
  | some x =>
    if s.clockOn then
      let s := s.matchNow u
      let s := { s with tick := { s.tick with chains := s.tick.chains.filter fun x => !(x.tgt = u && x.due ≤ s.now) } }
      let lost := mine.filter fun y => y.src ≠ x.src
      let s := forAll lost (fun y t =>
        (t.count R.CMP_CNT_CHAIN_COLLIDE).raiseLimited 0x0501 0 (BitVec.ofNat 32 (y.src.val + u.val * 65536)) 0) s
      s.applyChain u x
    else s

/-- CHAIN_ARRIVAL (R91, R92). -/
def execChainArrival (u : CUnit) (s : State) : Res := .next (s.chainNow u)

/-! ### Boundary predictor (R95, R96) -/

/-- Integer square root of a number below 4^k, bit by bit. -/
def isqrt : Nat → Nat → Nat → Nat
  | 0, _, r => r
  | k + 1, n, r => if (r + 2 ^ k) * (r + 2 ^ k) ≤ n then isqrt k n (r + 2 ^ k) else isqrt k n r

/-- The answer of R95 before latency: ticks to B, or the park reason. -/
inductive Tau where
  | ticks (t : Nat)
  | park (why : BitVec 2)
  deriving DecidableEq, Repr

/-- tau_t of R95 for d in 2⁻²⁴ µm, v in µm/s and a in µm/s². The square root carries 52 fraction bits
(assumption 16). -/
def tauTicks (d v a : Int) : Tau :=
  if d = 0 then .ticks 0
  else
    let disc := v * v * 16777216 + 2 * a * d
    if disc < 0 then .park 1
    else
      let root : Int := isqrt 100 (disc.toNat * 2 ^ 80) 0
      let den := v * 2 ^ 52 + if 0 < d then root else -root
      if den = 0 || (decide (0 < den) != decide (0 < d)) then .park 1
      else
        let t := roundDiv (2 * d * ticksPerS * 2 ^ 28) den
        if 4294967295 < t then .park 2 else .ticks t.toNat

/-- a_i = a − α × y_i ÷ 10⁶, rounded (R53). -/
def State.chAccel (s : State) (c : Ch) : Int :=
  satI 32 (roundDiv (s.course.accel * 1000000 - s.course.alpha * s.chY c) 1000000)

/-- a_i as the predictor takes it, clamped to ±10 m/s² (R95). -/
def State.predAccel (s : State) (c : Ch) : Int := clampI (-10000000) 10000000 (s.chAccel c)

/-- The result of one evaluation for a presented boundary (R95). -/
def State.predResult (s : State) (c : Ch) : PredRes :=
  let h := s.ch c
  let tEff := s.now + 400
  match h.seqr.bnd with
  | none => { tEff := tEff, tStar := none, why := 3 }
  | some (p, _) =>
    match tauTicks (wrapI 64 (p * 16777216 - h.sQ24)) h.vRep (s.predAccel c) with
    | .park why => { tEff := tEff, tStar := none, why := why }
    | .ticks t =>
      let raw : Int := (s.now : Int) + t - s.regN (R.CH_BND_LAT c)
      { tEff := tEff, tStar := some (max raw tEff).toNat, unclamped := raw, late := decide (raw < tEff) }

/-- Evaluation at a course update, while PRED = 1 (R95). A boundary that is presented anew has no target yet (R96). -/
def State.predEvaluate (s : State) (c : Ch) : State :=
  if (s.units[bndUnit c]).pred then
    let q := (s.ch c).seqr
    let bid := q.bnd.map fun b => (b.1, q.adv)
    let r := s.predResult c
    s.modCh c fun h =>
      if h.predFor = bid then { h with pred := some r }
      else { h with pred := some r, predFor := bid, predSet := false, predHit := false, predLate := none }
  else s

/-- The predictor's write for one channel (R96). -/
def State.predApply (s : State) (c : Ch) (r : PredRes) : State :=
  let s := s.modCh c fun h => { h with pred := none }
  let u := bndUnit c
  let v := s.units[u]
  let h := s.ch c
  if !v.pred || (h.predFor.isSome && h.predHit) then s
  else match r.tStar with
    | none => s.setUnit u fun v => (v.setBit 0 false).setPark (some r.why)
    | some t =>
      let far := decide (1 < ((t : Int) - v.target.toNat).natAbs)
      let s := if v.parked || !h.predSet || far then
          (s.setUnit u fun v => { (v.setPark none) with target := BitVec.ofNat 64 t }.setBit 0 true).modCh c fun h =>
            { h with predSet := true }
        else s
      if r.late then s.modCh c fun h => { h with predLate := some r.unclamped } else s

/-- The predictor's write of one channel when its tick t_eff - 1 has come, step 4 of R92: the match and the chains of the tick
come before it. -/
def State.predNow (s : State) (c : Ch) : State :=
  match (s.ch c).pred with
  | some r => if r.tEff ≤ s.now + 1 then ((s.matchNow (bndUnit c)).chainNow (bndUnit c)).predApply c r else s
  | none => s

/-- Every predictor result whose tick t_eff - 1 has come is written, in ascending channel (R96). -/
def State.predWrite (s : State) : State := forAll allCh (fun c t => t.predNow c) s

/-- Every predictor result that waits for its tick is written (R96, at a step of the tick base). -/
def State.predWriteAll (s : State) : State :=
  forAll allCh (fun c t => match (t.ch c).pred with
    | some r => t.predApply c r
    | none => t) s

/-- PREDICTOR_WRITE: the targets and parks of an update are written together on tick t_eff - 1 (R96). -/
def execPredictorWrite (s : State) : Res := if s.clockOn then .next s.predWrite else .next s

/-! ### Global start (R94) -/

/-- A write to GSTART: with GROUPS ≠ 0 it adds a release (R94). -/
def State.gstartWrite (s : State) (v : W32) : State :=
  let groups : BitVec 8 := v.extractLsb' 0 8
  if groups = 0 then s
  else
    let want := s.reg64 R.GSTART_TICK
    let at_ := v.getLsbD 8
    let good := at_ && decide (s.now + 16 ≤ want.toNat)
    let trel := if good then want.toNat else s.now + 16
    let s := { s with tick := { s.tick with gstarts := s.tick.gstarts ++ [(groups, trel)] } }
    if at_ && !good then s.raise 0x0500 0 else s

/-- GSTART_WRITE (R94). -/
def execGstartWrite (v : W32) (s : State) : Res := if s.hostWritable then .next (s.gstartWrite v) else .next s

/-- One unit at a release: armed, gated and in the groups, it starts from T_rel (R94). -/
def CmpUnit.released (u : CmpUnit) (groups : BitVec 8) (trel now : Nat) : CmpUnit :=
  if u.arm && u.gated && groups.getLsbD u.group then
    { u with target := BitVec.ofNat 64 (trel + u.period.toNat), since := now + 1 }.setBit 2 false
  else u

/-- The earliest release that is due, step 5 of R92: the chains and the predictor's writes of the tick come before it. -/
def State.releaseNow (s : State) : State :=
  match s.tick.gstarts.find? (fun g => g.2 ≤ s.now) with
  | none => s
  | some g =>
    if s.clockOn then
      let s := forAll ((s.tick.chains.filter fun x => x.due ≤ s.now).map (·.tgt)) (fun u t => t.chainNow u) s
      let s := s.predWrite
      let s := { s with tick := { s.tick with gstarts := s.tick.gstarts.erase g }
                        units := Vector.ofFn fun u => (s.units[u]).released g.1 g.2 s.now }
      s.setReg64 R.GSTART_LAST (BitVec.ofNat 64 g.2)
    else s

/-- GSTART_RELEASE (R94). -/
def execGstartRelease (s : State) : Res := .next s.releaseNow

/-- What touches a unit on this tick before a host or Keep write: steps 1 to 5 of R92. -/
def State.beforeWrite (s : State) (u : CUnit) : State :=
  if s.clockOn then
    let s := (s.matchNow u).chainNow u
    let s := match bndChan u with
      | some c => s.predNow c
      | none => s
    s.releaseNow
  else s

/-! ### Host and Keep writes (R89, R92, R97) -/

/-- Writable bits of a control register. -/
def cmpWritable (u : CUnit) : W32 :=
  if u.val < 32 then 0x007FFFFF else if u.val < 288 then 0x00BFFFFD else 0x003FFFFF

/-- W1C bits of a control register. -/
def cmpW1c (u : CUnit) : W32 := if 32 ≤ u.val && u.val < 288 then 0x07000000 else 0x03000000

/-- A host or Keep write of a control register; a boundary compare follows R97. -/
def State.cmpCtrlWrite (s : State) (u : CUnit) (w : W32) : State :=
  let s := s.beforeWrite u
  let v := s.units[u]
  let m := cmpWritable u
  let new := (w &&& m) ||| (v.ctrl &&& ~~~m &&& ~~~(w &&& cmpW1c u))
  let put (s : State) (x : W32) : State := s.setUnit u fun v => { v with ctrl := x }
  match bndChan u with
  | none =>
    let s := put s new
    match smpChan u with
    | some c => if new.getLsbD 0 then s else s.modCh c fun h => { h with dueOpen := false }
    | none => s
  | some c =>
    let predNo := s.mode.mode = .field && new.getLsbD 23 != v.pred
    let new := if predNo then (if v.pred then new ||| 0x00800000 else new &&& 0xFF7FFFFF) else new
    let armNo := new.getLsbD 23 && new.getLsbD 0 != v.arm
    let new := if armNo then (if v.arm then new ||| 1 else new &&& 0xFFFFFFFE) else new
    let s := put s new
    let s := if new.getLsbD 23 && !v.pred then
        s.modCh c fun h => { h with predFor := none, predSet := false, predHit := false, predLate := none } else s
    let s := if predNo then s.cmpRefused u else s
    if armNo then s.cmpRefused u else s

/-- A host or Keep write of TARGET; discarded with event 0x0502 while PRED = 1 (R97). -/
def State.cmpTargetWrite (s : State) (u : CUnit) (t : W64) : State :=
  let s := s.beforeWrite u
  if (bndChan u).isSome && (s.units[u]).pred then s.cmpRefused u else s.setUnit u fun v => { v with target := t }

/-- A host or Keep write of PERIOD, saturated to the unit's range (R89). -/
def State.cmpPeriodWrite (s : State) (u : CUnit) (p : W32) : State :=
  let s := s.beforeWrite u
  match smpChan u with
  | some c => s.smpPeriodWrite c p
  | none =>
    let p := if u.val < 32 && p.toNat < 2 then 2 else p
    s.modUnit u fun v => { v with period := p }

/-- CH_BND_CTRL_WRITE (R97). -/
def execChBndCtrlWrite (c : Ch) (v : W32) (s : State) : Res :=
  if s.hostWritable then .next (s.cmpCtrlWrite (bndUnit c) v) else .next s

/-- CH_BND_TARGET_WRITE (R97). -/
def execChBndTargetWrite (c : Ch) (t : W64) (s : State) : Res :=
  if s.hostWritable then .next (s.cmpTargetWrite (bndUnit c) t) else .next s

/-! ### Forward steps and replay (R98, R99) -/

/-- The end of a replay (R99). -/
def State.replayEnd (s : State) (n : Nat) : State :=
  let s := { s with tick := { s.tick with replay := none } }
  (s.count R.CMP_CNT_REPLAYED n).raise 0x0503 0 (BitVec.ofNat 32 n)

/-- A forward step of the tick base to `t1` (R98): what the predictor has still to write is written with it (R96), and the
replay of R99 begins. A step during a replay ends that one with its event, and the units that it has still to replay join the
new one (assumption 72). -/
def State.forwardStep (s : State) (t1 : Nat) : State :=
  let d := t1 - s.now
  let tf := match s.tick.replay with
    | some r => r.tf
    | none => s.now
  let s := match s.tick.replay with
    | some r => s.replayEnd r.count
    | none => s
  let s := { s with tick := { s.tick with now := BitVec.ofNat 64 t1, replay := some { tf := tf, tend := t1 } } }
  (s.setReg64 R.TICK_STEP (BitVec.ofNat 64 d)).predWriteAll

/-- The unit with the lowest TARGET, and of equal TARGETs the lowest index, among those that are due with a TARGET after T_f
(R99). -/
def State.replayPick (s : State) (tf : Nat) : Option CUnit :=
  (allUnits.filter fun u => (s.units[u]).due s.tick.now && decide (tf < (s.units[u]).target.toNat)).foldl
    (fun best u => match best with
      | none => some u
      | some b => if (s.units[u]).target < (s.units[b]).target then some u else some b) none

/-- The replay ends when no unit is due and no chain is on its way, and after 544 matches at the latest (R99). -/
def State.replayCheck (s : State) (r : Replay) : State :=
  if 544 ≤ r.count || ((s.replayPick r.tf).isNone && s.tick.chains.isEmpty) then s.replayEnd r.count else s

/-- COMPARE_REPLAY_MATCH: one tick of the replay (R99): from the first tick after the step, one match per tick. A periodic
advance takes T_f + D. -/
def execCompareReplayMatch (s : State) : Res :=
  match s.tick.replay with
  | none => .next s
  | some r =>
    if s.clockOn && r.tend < s.now && r.lastAt != some s.now then
      match s.replayPick r.tf with
      | none => .next (s.replayCheck r)
      | some u =>
        let tgt := (s.units[u]).target
        let s := s.fireUnit u tgt r.tend true
        let r := { r with count := r.count + 1, lastAt := some s.now }
        let s := { s with tick := { s.tick with replay := some r } }
        .next (s.replayCheck r)
    else .next s

/-! ### The whole course update (R52, R55, R95, R220) -/

/-- COURSE_UPDATE: on a tick divisible by 2,000 the course engine makes its one update (R52), every sequencer acts in the order of
R220, and the predictor evaluates the presented boundaries. -/
def execCourseUpdate (s : State) : Res :=
  if s.clockOn && s.now % 2000 = 0 && s.course.updAt != some s.now then
    let (s, rebased) := s.courseStep
    let s := if rebased then s.rebaseReaches else s
    let s := forAll allCh (fun c t => (t.seqUpdate c).predEvaluate c) s
    let fast := s.mode.mode = .service && 2000000 < s.course.v.natAbs
    let s := s.modMode fun m => { m with fastSince := if fast then some (m.fastSince.getD s.now) else none }
    .next (s.modCourse fun x => { x with fieldPass := s.mode.mode = .field })
  else .next s

end Sys2Proof.Machine
end

