-- ==== Sys2Proof/Machine/Gnss.lean ====
section
/-! DEFINITION. The GNSS UARTs (03_course_engine.md, R76 to R82): characters, NMEA sentences and binary pose frames. -/

namespace Sys2Proof.Machine

/-- One UART changed. -/
def State.modUart (s : State) (n : Fin 2) (f : Uart → Uart) : State := { s with uart := upd s.uart n f }

/-- A GNSS source. -/
def State.gnss (s : State) (n : Fin 2) : StSrc := if n = 0 then s.course.gnss0 else s.course.gnss1

/-- A GNSS source changed. -/
def State.modGnss (s : State) (n : Fin 2) (f : StSrc → StSrc) : State :=
  s.modCourse fun c => if n = 0 then { c with gnss0 := f c.gnss0 } else { c with gnss1 := f c.gnss1 }

/-- A UART event, at most once per second for each code and port (R84). -/
def State.uartEvent (s : State) (code : BitVec 16) (n : Fin 2) : State :=
  s.raiseLimited code 0 (BitVec.ofNat 32 n.val) n.val

/-- A sentence or frame discarded: `GNSSn_CNT1.BAD` and event 0x0E41 (R80, R81). -/
def State.gnssBad (s : State) (n : Fin 2) : State := (s.count (R.GNSS_CNT1_BAD n)).uartEvent 0x0E41 n

/-- Formats received (Table 03.13). -/
def State.takesNmea (s : State) (n : Fin 2) : Bool := s.get (R.GNSS_MODE_FORMAT n) ≠ 2
/-- Binary frames are received. -/
def State.takesBin (s : State) (n : Fin 2) : Bool := s.get (R.GNSS_MODE_FORMAT n) ≠ 1

/-- Tick of a character's start edge, seen when the search reopens at sample 154 (R76, R77; assumption 14). -/
def State.startTick (s : State) (n : Fin 2) : Nat :=
  let rate := s.get (R.GNSS_BAUD_RATE n)
  if rate = 0 then s.now else s.now - (roundDiv (154 * ticksPerS : Nat) (16 * rate : Nat)).toNat

/-- The binary search advanced to the first place where a frame can begin (R81). -/
def binSync : List (Byte × Nat) → List (Byte × Nat)
  | [] => []
  | [b] => if b.1 = 0xA5 then [b] else []
  | b :: c :: rest => if b.1 = 0xA5 && c.1 = 0x5C then b :: c :: rest else binSync (c :: rest)

/-- A frame of 26 bytes set apart when it is complete and none waits. -/
def Uart.binTake (u : Uart) : Uart :=
  let b := binSync u.bin
  if u.binReady.isNone && 26 ≤ b.length then { u with bin := binSync (b.drop 26), binReady := some (b.take 26) }
  else { u with bin := b }

/-- A character for the NMEA receiver (R80): `$` begins a sentence, LF completes it. The flag tells that a sentence
grew beyond 82 characters. -/
def Uart.nmeaChar (u : Uart) (b : Byte) (t : Nat) : Uart × Bool :=
  if b = 0x24 then ({ u with nmeaOn := true, nmea := [b], nmeaTick := t }, false)
  else if !u.nmeaOn then (u, false)
  else if 82 ≤ u.nmea.length then ({ u with nmeaOn := false, nmea := [] }, true)
  else if b = 0x0A then
    ({ u with nmeaOn := false, nmea := [], nmeaReady := some (u.nmea ++ [b], u.nmeaTick) }, false)
  else ({ u with nmea := u.nmea ++ [b] }, false)

/-- A received character parsed (R76, R80, R81). -/
def State.gnssByte (s : State) (n : Fin 2) (b : Byte) : State :=
  let t := s.startTick n
  let s :=
    if s.takesBin n then s.modUart n fun u => { u with bin := u.bin ++ [(b, t)] }.binTake else s
  if s.takesNmea n then
    let long := (s.uart[n].nmeaChar b t).2
    let s := s.modUart n fun u => (u.nmeaChar b t).1
    if long then s.gnssBad n else s
  else s

/-- Bit `k` of a character by majority vote of its samples 16k + 7, 16k + 8 and 16k + 9 (R77); the line is high where a
sample is not given. -/
def voteBit (samples : List Bool) (k : Nat) : Bool :=
  let at_ (i : Nat) : Nat := if samples.getD (16 * k + i) true then 1 else 0
  2 ≤ at_ 7 + at_ 8 + at_ 9

/-- The data byte of a character, its bits 1 to 8 from the LSB (R77). -/
def voteByte (samples : List Bool) : Byte :=
  BitVec.ofNat 8 ((List.range 8).foldl (fun a k => a + if voteBit samples (k + 1) then 2 ^ k else 0) 0)

/-- GNSS_CHARACTER: samples 0 to 153 of a character, numbered from the first low sample after the search opened; `early` says
that the line was low when it opened (R77 to R79). A high sample 0 starts none. A sentence or frame that a framing error
drops counts in FRAMING and not in `GNSSn_CNT1.BAD` (DESIGN CHOICE, assumption 71). -/
def execGnssCharacter (n : Fin 2) (samples : List Bool) (early : Bool) (s : State) : Res :=
  if !s.clockOn || s.uart[n].waitHigh || samples.headD true then .next s
  else
    let s := if early then (s.count (R.GNSS_CNT0_EARLY n)).uartEvent 0x0E42 n else s
    if voteBit samples 0 then .next s
    else if voteBit samples 9 then .next (s.gnssByte n (voteByte samples))
    else
      let s := s.modUart n fun u => { u with waitHigh := true, nmeaOn := false, nmea := [], bin := [] }
      .next ((s.count (R.GNSS_CNT0_FRAMING n)).uartEvent 0x0E40 n)

/-- GNSS_SEARCH_REOPEN: 16 successive high samples after a framing error (R79). -/
def execGnssSearchReopen (n : Fin 2) (s : State) : Res :=
  if s.clockOn then .next (s.modUart n fun u => { u with waitHigh := false }) else .next s

/-! ### NMEA (R80, R82) -/

/-- Value of a hexadecimal digit in either case. -/
def hexDigit (b : Byte) : Option Nat :=
  let n := b.toNat
  if 0x30 ≤ n && n ≤ 0x39 then some (n - 0x30)
  else if 0x41 ≤ n && n ≤ 0x46 then some (n - 0x37)
  else if 0x61 ≤ n && n ≤ 0x66 then some (n - 0x57)
  else none

/-- Value of a decimal digit. -/
def decDigit (b : Byte) : Option Nat := if 0x30 ≤ b.toNat && b.toNat ≤ 0x39 then some (b.toNat - 0x30) else none

/-- Digits from an accumulated value on; none where a character is no digit. -/
def digitsFrom (acc : Nat) : List Byte → Option Nat
  | [] => some acc
  | b :: rest => match decDigit b with
    | some d => digitsFrom (acc * 10 + d) rest
    | none => none

/-- A decimal field of at most 6 fraction digits, as an integer and the number of its fraction digits. -/
def decField (f : List Byte) : Option (Nat × Nat) :=
  let whole := f.takeWhile (· ≠ 0x2E)
  let frac := (f.dropWhile (· ≠ 0x2E)).drop 1
  if f.isEmpty || (whole.isEmpty && frac.isEmpty) || 6 < frac.length then none
  else (digitsFrom 0 (whole ++ frac)).map fun v => (v, frac.length)

/-- A decimal field scaled by `num / den` and rounded (R5, R80). -/
def decScaled (f : List Byte) (num den : Nat) : Option Int :=
  (decField f).map fun p => roundDiv (p.1 * num : Nat) (10 ^ p.2 * den : Nat)

/-- The fields of a sentence body, separated by commas. -/
def splitFields (b : List Byte) : List (List Byte) :=
  b.foldr (fun c acc => if c = 0x2C then [] :: acc else match acc with
    | f :: fs => (c :: f) :: fs
    | [] => [[c]]) [[]]

/-- A checked sentence: its fields, or none where it is bad (R80). `raw` runs from `$` to LF. -/
def nmeaFields (raw : List Byte) (cksumReq : Bool) : Option (List (List Byte)) :=
  let text := (raw.drop 1).takeWhile (fun b => b ≠ 0x0D && b ≠ 0x0A)
  if text.any (fun b => b.toNat < 0x20 || 0x7E < b.toNat) || 82 < raw.length then none
  else
    let body := text.takeWhile (· ≠ 0x2A)
    let x := body.foldl (fun a b => a ^^^ b) (0 : Byte)
    match text.dropWhile (· ≠ 0x2A) with
    | [] => if cksumReq then none else some (splitFields body)
    | [_, h, l] => match hexDigit h, hexDigit l with
      | some a, some b => if x.toNat = a * 16 + b then some (splitFields body) else none
      | _, _ => none
    | _ => none

/-- Sentence types that are used. -/
inductive NmeaType where
  | rmc | vtg | hdt
  deriving DecidableEq, Repr

/-- Type of a sentence from its address field: two talker characters and three of the type. -/
def nmeaType (f : List Byte) : Option NmeaType :=
  match f with
  | [_, _, a, b, c] =>
    if a = 0x52 && b = 0x4D && c = 0x43 then some .rmc
    else if a = 0x56 && b = 0x54 && c = 0x47 then some .vtg
    else if a = 0x48 && b = 0x44 && c = 0x54 then some .hdt
    else none
  | _ => none

/-- Speed in µm/s, course and true heading in µrad of a used sentence, or none where Table 03.4 discards it. -/
def nmeaValues (t : NmeaType) (fs : List (List Byte)) : Option (Option Int × Option Int × Option Int) :=
  let f (k : Nat) : List Byte := fs.getD k []
  let knots (x : List Byte) := decScaled x 514444444 1000
  let kmh (x : List Byte) := decScaled x 277777778 1000
  let deg (x : List Byte) := decScaled x 174532925 10000
  match t with
  | .rmc => if f 2 ≠ [0x41] || f 12 = [0x4E] then none else some (knots (f 7), deg (f 8), none)
  | .vtg => if f 9 = [0x4E] then none
    else some (if (f 7).isEmpty then knots (f 5) else kmh (f 7), deg (f 1), none)
  | .hdt => some (none, none, deg (f 1))

/-- An accepted GNSS speed; the earlier one is kept for R63. -/
def StSrc.takeSpeed (x : StSrc) (v stamp : Int) (dir : Bool) : StSrc :=
  { x with speed := some ⟨v, stamp⟩, prevSpeed := x.speed, dirOk := dir, got := true, age := 0 }

/-- An accepted true heading; the earlier one is kept for R70. -/
def StSrc.takeHeading (x : StSrc) (h stamp : Int) : StSrc :=
  { x with heading := some ⟨h, stamp⟩, prevHeading := x.heading, newHeading := true }

/-- An accepted course over ground. -/
def StSrc.takeCog (x : StSrc) (h stamp : Int) : StSrc := { x with cog := some ⟨h, stamp⟩, newCog := true }

/-- A quantity taken when it is there. -/
def takeOpt {α β : Type} (x : Option α) (f : β → α → β) (b : β) : β := match x with | some a => f b a | none => b

/-- NMEA_SENTENCE: a complete sentence is checked, and its quantities are stamped and taken (R80, R82). -/
def execNmeaSentence (n : Fin 2) (s : State) : Res :=
  match s.uart[n].nmeaReady with
  | none => .next s
  | some (raw, t) =>
    if !s.clockOn then .next s
    else
      let s := s.modUart n fun u => { u with nmeaReady := none }
      match nmeaFields raw (s.flag (R.GNSS_MODE_CKSUM_REQ n)) with
      | none => .next (s.gnssBad n)
      | some fs => match nmeaType (fs.headD []) with
        | none => .next s
        | some ty => match nmeaValues ty fs with
          | none => .next (s.gnssBad n)
          | some (sp, cog, hd) =>
            let stamp : Int := (t : Int) - (s.regN (R.GNSS_LAT n) * ticksPerUs : Nat)
            let s := s.modGnss n fun x =>
              takeOpt hd (fun x h => x.takeHeading h stamp) (takeOpt cog (fun x c => x.takeCog c stamp)
                (takeOpt sp (fun x v => x.takeSpeed v stamp false) x))
            .next (s.count (R.GNSS_CNT1_GOOD n))

/-! ### Binary pose frame (R81, R82) -/

/-- One byte into a CRC-16 of polynomial 0x1021, MSB first. -/
def crc16Byte (crc : BitVec 16) (b : Byte) : BitVec 16 :=
  (List.range 8).foldl (fun c _ => if c.msb then (c <<< 1) ^^^ 0x1021 else c <<< 1) (crc ^^^ (b.zeroExtend 16 <<< 8))

/-- CRC-16/CCITT-FALSE (R81). -/
def crc16 (bs : List Byte) : BitVec 16 := bs.foldl crc16Byte 0xFFFF

/-- A frame's type, length and CRC are right (Table 03.5). -/
def poseFrameOk (f : List Byte) : Bool :=
  byteAt f 2 = 0x01 && byteAt f 3 = 20 && leAt f 24 2 = (crc16 (slice f 2 22)).toNat

/-- GNSS_BINARY_FRAME: a complete frame is checked, and its quantities are stamped and taken (R81, R82). -/
def execGnssBinaryFrame (n : Fin 2) (s : State) : Res :=
  match s.uart[n].binReady with
  | none => .next s
  | some fr =>
    if !s.clockOn then .next s
    else
      let f := fr.map Prod.fst
      if poseFrameOk f then
        let t := (fr.map Prod.snd).headD 0
        let stamp : Int := (t : Int) - (leAt f 16 4 * ticksPerUs : Nat)
        let flags := byteAt f 20
        let v := signed 32 (leAt f 4 4)
        let hd := leAt f 8 4
        let dir := flags.getLsbD 3
        let s := s.modUart n fun u => { u with binReady := none }.binTake
        let s := s.modGnss n fun x =>
          let x := if flags.getLsbD 0 then x.takeSpeed (if dir then v else v.natAbs) stamp dir else x
          let x := if flags.getLsbD 1 && hd ≤ 6283185 then x.takeHeading hd stamp else x
          { x with yaw := if flags.getLsbD 2 then some ⟨signed 32 (leAt f 12 4), stamp⟩ else none }
        .next (s.count (R.GNSS_CNT1_GOOD n))
      else
        let s := s.modUart n fun u => { u with binReady := none, bin := fr.drop 1 ++ u.bin }.binTake
        .next (s.gnssBad n)

/-- R74 at a thaw: characters, sentences and frames in progress are discarded. One that is complete, and a search that waits
for 16 high samples, stay. -/
def Uart.thawed (u : Uart) : Uart := { waitHigh := u.waitHigh, nmeaReady := u.nmeaReady, binReady := u.binReady }

end Sys2Proof.Machine
end

