-- ==== Sys2Proof/Machine/Otp.lean ====
section
/-! DEFINITION. The OTP arrays with their sense margins, the OTP commands, Trim data and the key slots of the image check
engine (R450 to R465). -/

namespace Sys2Proof.Machine

/-! ### The arrays (R450, R460) -/

/-- Words of an array (Table 17.1). -/
def otpWords (a : Nat) : Nat := match a with | 0 => 128 | 1 => 896 | _ => 4096

/-- The burned bits of an array, as words. -/
def Otp.arr (o : Otp) (a : Nat) : WordMem := match a with | 0 => o.config | 1 => o.patch | _ => o.trim
/-- Its weak bits. -/
def Otp.weak (o : Otp) (a : Nat) : WordMem := match a with | 0 => o.weakC | 1 => o.weakP | _ => o.weakT

/-- A word of a sparse word array. -/
def wordAt (m : WordMem) (w : Nat) : W32 := (wordLookup m w).getD 0

/-- The relaxed margin reads every burned bit as 1 (R460). -/
def Otp.relaxed (o : Otp) (a w : Nat) : W32 := wordAt (o.arr a) w
/-- The strict margin reads a weak bit as 0. -/
def Otp.strict (o : Otp) (a w : Nat) : W32 := wordAt (o.arr a) w &&& ~~~(wordAt (o.weak a) w)
/-- The normal margin may read a weak bit either way: a free value of the read count `n` (assumption 7). -/
def Otp.normal (o : Otp) (a w n : Nat) : W32 :=
  o.strict a w ||| (wordAt (o.arr a) w &&& wordAt (o.weak a) w &&& Config.weakRead a w n)

/-- An array's word and its weak bits replaced. -/
def Otp.setWord (o : Otp) (a w : Nat) (v weak : W32) : Otp :=
  let p (m : WordMem) (x : W32) : WordMem := wordPut m w x 0
  match a with
  | 0 => { o with config := p o.config v, weakC := p o.weakC weak }
  | 1 => { o with patch := p o.patch v, weakP := p o.weakP weak }
  | _ => { o with trim := p o.trim v, weakT := p o.weakT weak }

/-- `n` successive words read at the normal margin; one read count serves them. -/
def State.otpNormal (s : State) (a w n : Nat) : List W32 × State :=
  ((List.range n).map (fun k => s.otp.normal a (w + k) s.free), { s with free := s.free + 1 })

/-- The CRC of a block over its words 0 to 30 (R452). -/
def blockCrc (ws : List W32) : W32 := crc32 ((ws.take 31).flatMap fun w => leBytes 4 w.toNat)

/-- A block's CRC word matches. -/
def crcOk (ws : List W32) : Bool := ws.getD 31 0 == blockCrc ws

/-- A Config block passes: blank, or its CRC matches (R452). -/
def blockPasses (ws : List W32) : Bool := ws.all (· == 0) || crcOk ws

/-! ### Trim (R461) -/

/-- Trim block b as its consumers have it: read at first need since the Dome-logic reset, with the count and event of an
unreadable block. -/
def State.trimBlock (s : State) (b : Nat) : Option (List W32) × State :=
  match s.otp.trimRead.find? (fun p => p.1 = b) with
  | some p => (p.2, s)
  | none =>
    let (ws, s) := s.otpNormal 2 (32 * b) 32
    let r : Option (List W32) := if crcOk ws then some (ws.take 31) else none
    let s := s.modOtp fun o => { o with trimRead := (b, r) :: o.trimRead }
    if r.isSome then (r, s) else (r, (s.count R.OTP_INTEG_TRIM_FAIL).raise 0x0D0C 2 (BitVec.ofNat 32 b))

/-! ### Key slots (R454, R464) -/

/-- A key slot's digest, or none when the slot is no slot or empty. `image` says that an image is verified, for which the
restrictive defaults empty every slot. -/
def State.keyDigest (s : State) (id : Byte) (image : Bool) : Option (List Byte) × State :=
  let restricted := s.mode.restricted
  if id.toNat ≤ 2 then
    if (restricted && image) || !s.otp.keyHashOk then (none, s)
    else
      let (ws, s) := s.otpNormal 0 (96 + 8 * id.toNat) 8
      (if ws.all (· == 0) then none else some (ws.flatMap fun w => leBytes 4 w.toNat), s)
  else if id = 0x80 && !restricted then
    let (r, s) := s.trimBlock 127
    (r.map fun ws => (List.range 32).map (Config.trimDigest ws), s)
  else (none, s)

/-- The index of a key slot in `Otp.keys`. -/
def keyIx (id : Byte) : Fin 4 := match id.toNat with | 0 => 0 | 1 => 1 | 2 => 2 | _ => 3

/-- The answer of the engine for a message and its signature under KEY_ID (R465, Table 17.4): the slot is looked up before
the scalars are judged. -/
def State.imgAnswer (s : State) (id : Byte) (image : Bool) (msg sig : List Byte) : Byte × State :=
  let (d, s) := s.keyDigest id image
  if d.isNone then (0x05, s)
  else match s.otp.keys[keyIx id] with
    | none => (0x06, s)
    | some key => (verifyAnswer key msg sig, s)

/-- A key install judged (R464): event 0x0D05, or 0x0D06 with the answer. -/
def State.keyInstall (s : State) (slot : Byte) (key : List Byte) : State :=
  let (d, s) := s.keyDigest slot false
  let ans : Byte := match d with
    | none => 0x05
    | some d => if sha256 key ≠ d then 0x07 else (keyAnswer key).getD 0x00
  let s := s.put R.IMG_KEY_STAT_ANSWER ans.toNat
  if ans = 0 then
    let k := keyIx slot
    let s := s.modOtp fun o => { o with keys := upd o.keys k fun _ => some key }
    (s.put ⟨R.IMG_KEY_STAT, k.val, 1⟩ 1).raise 0x0D05 0 (slot.setWidth 32)
  else s.raise 0x0D06 0 (BitVec.ofNat 32 (ans.toNat + slot.toNat * 256))

/-- A request joins those of the image check engine, which serves the oldest from its arrival or the answer before (R465). -/
def State.imgPush (s : State) (r : ImgReq) : State :=
  s.modOtp fun o => { o with reqs := o.reqs ++ [r], imgFrom := if o.reqs = [] then s.tick.wall else o.imgFrom }

/-- Requests withdrawn from the image check engine. -/
def State.imgKeep (s : State) (keep : ImgReq → Bool) : State :=
  s.modOtp fun o =>
    let left := o.reqs.filter keep
    { o with reqs := left, imgFrom := if left.head? = o.reqs.head? then o.imgFrom else s.tick.wall }

/-- A write of 1 to `IMG_KEY_CTRL.LOAD`: the staged key goes to the engine (R464, R465). -/
def State.keyLoad (s : State) : State :=
  let key := (List.range 16).flatMap fun k => leBytes 4 (s.regN (R.IMG_KEY_DATA k))
  let slot : Byte := BitVec.ofNat 8 (s.get R.IMG_KEY_SEL_SLOT)
  s.imgPush (.key slot key)

/-- KEY_LOAD: the landing of that write. -/
def execKeyLoad (s : State) : Res := if s.hostWritable then .next s.keyLoad else .next s

/-! ### OTP commands (R451, R457 to R463) -/

/-- A command refused with a result; a burn or a scan also raises event 0x0D01. -/
def State.otpRefuse (s : State) (result : Nat) (told : Bool) : State :=
  let s := s.put R.OTP_STAT_RESULT result
  if told then s.raise 0x0D01 0 (BitVec.ofNat 32 result) else s

/-- The Dome temperature lies within 0 to 85 °C and VBUS within 20 to 60 V (R457). -/
def State.burnSafe (s : State) : Bool :=
  let t : Int := signed 16 (s.get (R.THM_TEMP_T_LO 0))
  decide (0 ≤ t ∧ t ≤ 85 * 64) && 20000 ≤ s.regN R.VBUS_V && s.regN R.VBUS_V ≤ 60000

/-- The conditions of R457 in their order: the result of the first that fails. `blank` asks for a blank block, as the normal
margin reads it (R452, R460). -/
def State.burnRefusal (s : State) (a b : Nat) (allowed blank : Bool) : Option Nat :=
  let inArray := allowed && 32 * b + 32 ≤ otpWords a
  if s.mode.mode ≠ .service then some 1
  else if !s.burnSafe then some 6
  else if s.mode.keepPatched then some 2
  else if blank && inArray && (List.range 32).any (fun k => s.otp.normal a (32 * b + k) s.free != 0) then some 3
  else if !inArray then some 5
  else none

/-- A command begins. -/
def State.otpStart (s : State) (r : OtpRun) : State :=
  (s.putFlag R.OTP_STAT_BUSY true).modOtp fun o => { o with run := some { r with since := s.tick.wall } }

/-- A write of `OTP_CMD` (R451, R457 to R463): discarded while a command runs. -/
def State.otpCmd (s : State) (v : W32) : State :=
  let op := bits v.toNat 0 3
  let a := bits v.toNat 4 2
  let m := bits v.toNat 6 2
  let addr := bits v.toNat 8 12
  if s.flag R.OTP_STAT_BUSY || op = 0 || 4 < op then s
  else if a = 3 then s.otpRefuse 5 (op ≠ 1)
  else if op = 1 then
    if otpWords a ≤ addr || m = 3 then s.otpRefuse 5 false
    else s.otpStart { op := 1, array := BitVec.ofNat 2 a, addr := addr, margin := BitVec.ofNat 2 m }
  else if op = 3 then
    if s.mode.mode = .field then s.otpRefuse 1 true else s.otpStart { op := 3, array := BitVec.ofNat 2 a, addr := 0 }
  else
    let refused := s.burnRefusal a addr (if op = 2 then a ≤ 1 else a ≠ 1) (op = 2)
    let s := { s with free := s.free + 1 }
    match refused with
    | some r => s.otpRefuse r true
    | none => s.otpStart { op := BitVec.ofNat 3 op, array := BitVec.ofNat 2 a, addr := addr,
                           words := (List.range 31).map fun k => s.reg (R.OTP_STAGE k) }

/-- OTP_CMD written with one operation. -/
def State.otpCmdOp (s : State) (v : W32) (op : Nat) : Res :=
  if s.hostWritable then .next (s.otpCmd (withField v ⟨0, 0, 3⟩ op)) else .next s

/-- OTP_READ (R451). -/
def execOtpRead (v : W32) (s : State) : Res := s.otpCmdOp v 1
/-- BURN_BLOCK (R457, R458). -/
def execBurnBlock (v : W32) (s : State) : Res := s.otpCmdOp v 2
/-- MARGIN_SCAN (R462). -/
def execMarginScan (v : W32) (s : State) : Res := s.otpCmdOp v 3
/-- REBURN_WEAK (R463). -/
def execReburnWeak (v : W32) (s : State) : Res := s.otpCmdOp v 4

/-- What the cells of a word show: bits that did not take, and weak bits. -/
def cellsOf (cells : List (Nat × W32 × W32)) (w : Nat) : W32 × W32 :=
  match cells.find? (fun c => c.1 = w) with
  | some c => c.2
  | none => (0, 0)

/-- One word programmed: its set bits are burned but for those that did not take; a zero word is skipped (R458). -/
def Otp.program (o : Otp) (a w : Nat) (v : W32) (cells : List (Nat × W32 × W32)) : Otp :=
  if v = 0 then o
  else
    let (miss, weak) := cellsOf cells w
    let old := wordAt (o.arr a) w
    let new := old ||| (v &&& ~~~miss)
    o.setWord a w new ((wordAt (o.weak a) w &&& ~~~v ||| weak) &&& new)

/-- A block programmed and read back at the strict margin (R458): whether every word reads as intended. -/
def Otp.burn (o : Otp) (a b : Nat) (ws : List W32) (cells : List (Nat × W32 × W32)) : Otp × Bool :=
  let o := (List.range 32).foldl (fun o k => o.program a (32 * b + k) (ws.getD k 0) cells) o
  (o, (List.range 32).all fun k => o.strict a (32 * b + k) == ws.getD k 0)

/-- The result of a burn with its event. -/
def State.burnEnd (s : State) (a b : Nat) (result : Nat) : State :=
  let d := BitVec.ofNat 32 (a + 16 * b)
  let s := s.put R.OTP_STAT_RESULT result
  if result = 0 then s.raise 0x0D00 0 d else s.raise 0x0D02 2 d

/-- The weak words of an array (R462). -/
def Otp.weakWords (o : Otp) (a : Nat) : List Nat := ((o.weak a).filter fun p => p.2 &&& wordAt (o.arr a) p.1 ≠ 0).map (·.1)

/-- The margins of words as a scan finds them: outside data, held from then on. -/
def Otp.scanned (o : Otp) (a : Nat) (cells : List (Nat × W32 × W32)) : Otp :=
  cells.foldl (fun o c =>
    if c.1 < otpWords a then o.setWord a c.1 (wordAt (o.arr a) c.1) (c.2.2 &&& wordAt (o.arr a) c.1) else o) o

/-- Ticks of one word read, 25 µs (R451), and of one word programmed, 500 µs (R458). -/
def readTicks : Nat := 5000
@[inherit_doc readTicks] def burnTicks : Nat := 100000

/-- The words that a command programs: of a re-burn, the relaxed-margin read when its CRC passes (R463). -/
def OtpRun.image (r : OtpRun) (o : Otp) : List W32 :=
  if r.op = 2 then r.words ++ [blockCrc r.words]
  else
    let ws := (List.range 32).map fun k => o.relaxed r.array.toNat (32 * r.addr + k)
    if crcOk ws then ws else []

/-- The least time a command takes: a word read, every word of an array at two margins, the words programmed with the reads before
and after them (R451, R458, R462, R463). A fetch served ahead and words programmed again take longer. -/
def OtpRun.least (r : OtpRun) (o : Otp) : Nat :=
  let prog := ((r.image o).filter (· ≠ 0)).length * burnTicks
  match r.op.toNat with
  | 1 => readTicks
  | 2 => prog + 32 * readTicks
  | 3 => otpWords r.array.toNat * 2 * readTicks
  | _ => 32 * readTicks + (if prog = 0 then 0 else prog + 32 * readTicks)

/-- A burn cut off at `wall`: the words programmed by then are burned, of the word under way a free part (R459; assumption 87). -/
def Otp.cutOff (o : Otp) (wall free : Nat) : Otp :=
  match o.run with
  | none => o
  | some r =>
    if r.op ≠ 2 && r.op ≠ 4 then o
    else
      let from_ := r.since + (if r.op = 2 then 0 else 32 * readTicks)
      let a := r.array.toNat
      let ws := ((r.image o).zipIdx).filter fun p => p.1 ≠ 0
      let n := (wall - from_) / burnTicks
      let o := (ws.take n).foldl (fun (o : Otp) p => o.program a (32 * r.addr + p.2) p.1 []) o
      ((ws.drop n).take (if from_ ≤ wall then 1 else 0)).foldl (fun (o : Otp) p =>
        o.program a (32 * r.addr + p.2) (p.1 &&& Config.partBurn a (32 * r.addr + p.2) free) []) o

/-- OTP_COMMAND_DONE: the running command, which has taken its time, ends with its result (R451, R458, R462, R463). -/
def execOtpCommandDone (cells : List (Nat × W32 × W32)) (s : State) : Res :=
  match s.otp.run with
  | none => .next s
  | some r =>
    if !s.clockOn || s.tick.wall < r.since + r.least s.otp then .next s
    else
      let s := (s.putFlag R.OTP_STAT_BUSY false).modOtp fun o => { o with run := none }
      let a := r.array.toNat
      match r.op.toNat with
      | 1 =>
        let (w, s) : W32 × State := match r.margin.toNat with
          | 1 => (s.otp.strict a r.addr, s)
          | 2 => (s.otp.relaxed a r.addr, s)
          | _ => (s.otp.normal a r.addr s.free, { s with free := s.free + 1 })
        .next ((s.setReg R.OTP_DATA w).put R.OTP_STAT_RESULT 0)
      | 2 =>
        let (o, ok) := s.otp.burn a r.addr (r.image s.otp) cells
        .next ((s.modOtp fun _ => o).burnEnd a r.addr (if ok then 0 else 4))
      | 3 =>
        let s := s.modOtp fun o => o.scanned a cells
        let weak := s.otp.weakWords a
        let s := ((s.put R.OTP_SCAN_FIRST (weak.headD 0)).put R.OTP_SCAN_WEAK (satU 12 weak.length)).put R.OTP_STAT_RESULT 0
        .next (if weak = [] then s else s.raise 0x0D03 0 (BitVec.ofNat 32 weak.length))
      | _ =>
        let ws := (List.range 32).map fun k => s.otp.relaxed a (32 * r.addr + k)
        if crcOk ws then
          let (o, ok) := s.otp.burn a r.addr ws cells
          .next ((s.modOtp fun _ => o).burnEnd a r.addr (if ok then 0 else 4))
        else .next (s.burnEnd a r.addr 7)

/-! ### Patch (R455) -/

/-- The Patch array as words at the normal margin, and whether it verifies under the Ivenavor key (R44, R455). -/
def State.patchCheck (s : State) : Bool × Bool × State :=
  let (ws, s) := s.otpNormal 1 0 896
  let w (i : Nat) : Nat := (ws.getD i 0).toNat
  if w 0 = 0 then (false, false, s)
  else
    let len := w 1
    let shape := w 0 = 0x5441504B && len % 4 = 0 && 4 ≤ len && len ≤ 3392 && w 3 % 256 = 0x80
    let bytes := ws.flatMap fun x => leBytes 4 x.toNat
    let key := slice bytes 32 64
    let (r, s) := s.trimBlock 127
    let digest := r.map fun d => (List.range 32).map (Config.trimDigest d)
    let ok := shape && digest == some (sha256 key) && verifyAnswer key (slice bytes 0 (128 + len)) (slice bytes 3520 64) == 0
    (true, ok, s)

end Sys2Proof.Machine
end

