-- ==== Sys2Proof/Machine/Reset.lean ====
section
/-! DEFINITION. What the resets of Table 02.3 and the loss of the supply do to the state (R39 to R42, R134, R240, R479):
the Dome-logic reset, the power-on reset, and the entry to SHIP. -/

namespace Sys2Proof.Machine

/-- BAR0 blocks that the Turret holds: they take their reset values only at a power-on reset (R479). -/
def turretHeld (a : Nat) : Bool := (0x2000 ≤ a && a < 0x2400) || (0x2800 ≤ a && a < 0x3000)

/-- A leg after a Dome-logic reset: back in service unless it is WORN (R134). -/
def LegSt.domeReset (x : LegSt) : LegSt := if x.worn then x else { x with inService := true, why := 0, stuck := false }

/-- An encoder after a Dome-logic reset: the levels at its terminals are the reference of its next edge. -/
def Enc.domeReset (e : Enc) : Enc := { a := e.rawA, b := e.rawB, rawA := e.rawA, rawB := e.rawB }

/-- A channel after a Dome-logic reset: only what the stage die keeps of its legs remains (R134, R240). -/
def Chan.domeReset (h : Chan) (c : Ch) : Chan :=
  { Chan.reset c with stage := { legA := h.stage.legA.domeReset, legB := h.stage.legB.domeReset } }

/-- A die's thermal state after a Dome-logic reset: the comparators are hardware of the Turret (R388, R479). -/
def DieTh.domeReset (d : DieTh) : DieTh := { shutAt := d.shutAt }

/-- The power counters restart at each Dome-logic reset (R334). -/
def Power.domeReset (p : Power) (wall : Nat) : Power :=
  { p with qDis := 0, qChg := 0, qTf := 0, buskeepTicks := 0, bkFrom := p.bkFrom.map fun _ => wall, trims := 0, ips := [],
           held := [], probeUntil := none, uvTold := false, staleTold := false, cellsTold := false }

/-- OTP state after a Dome-logic reset: the arrays keep their contents; keys, checks and the unlock end, and a new
challenge is drawn (R464, R467, R469). A burn under way is cut off (R459). -/
def Otp.domeReset (o : Otp) (wall free : Nat) : Otp :=
  let o := o.cutOff wall free
  { config := o.config, patch := o.patch, trim := o.trim, weakC := o.weakC, weakP := o.weakP, weakT := o.weakT,
    draws := o.draws + 1 }

/-- The mode block after a Dome-logic reset: the fault state, the locks, moves and the Keep are gone; the mode, the straps,
the pins and RESET_CAUSE stand (Table 02.3, R49). -/
def ModeSt.domeReset (m : ModeSt) : ModeSt :=
  { mode := m.mode, bootStep := m.bootStep, starting := m.starting, resetCause := m.resetCause, domeOn := m.domeOn,
    straps := m.straps, pins := m.pins, heldReset := m.heldReset }

/-- The OCV table of a chemistry at reset (Table 12.5). -/
def ocvTable (nmc : Bool) : List Nat :=
  if nmc then [3300, 3550, 3620, 3670, 3710, 3760, 3840, 3930, 4010, 4090, 4180]
  else [2800, 3200, 3250, 3270, 3280, 3285, 3290, 3310, 3325, 3340, 3450]

/-- The OCV table at the reset values of the chemistry that `PACK_CFG.CHEM` holds (Table 12.5). -/
def State.ocvReset (s : State) : State :=
  let l := ocvTable (s.get R.PACK_CFG_CHEM = 1)
  forAll (List.range 11) (fun j t => t.put (R.OCV_TBL_MV j) (l.getD j 0)) s

/-- The Dome logic, the Keep RAM, the engine memories, the queue RAM, the tick base and the host port in reset. -/
def State.domeLogicReset (s : State) : State :=
  let s' : State :=
    { pending := s.pending
      regs := s.regs.filter fun r => turretHeld r.1
      mode := s.mode.domeReset
      tick := { wall := s.tick.wall }
      units := Vector.ofFn CmpUnit.reset
      course := { enc0 := s.course.enc0.domeReset, enc1 := s.course.enc1.domeReset }
      chan := Vector.ofFn fun c : Fin 256 => s.chan[c].domeReset c
      eng := Vector.ofFn Engine.reset
      hp := { sent := s.hp.sent }
      power := s.power.domeReset s.tick.wall
      est := { lastStepAt := s.tick.wall }
      rail := s.rail
      hk := s.hk
      die := s.die.map DieTh.domeReset
      silt := { s.silt with copy := none }
      flt := { pulseUntil := s.flt.pulseUntil }
      dbg := { s.dbg with refused := false }
      otp := s.otp.domeReset s.tick.wall s.free
      tw := s.tw
      free := s.free + 1 }
  let s' := ((s'.putFlag R.SEQ_STAT_SEQ_OUT false).putFlag R.SEQ_STAT_DONE false).putFlag R.SEQ_STAT_STOPPING false
  ((s'.putFlag R.PACK_STAT_BK_ACK false).putFlag R.FLT_ERR_CTRL_LOW s.flt.pulseUntil.isSome).ocvReset

/-- A RESET_CAUSE bit set (Table 02.8). -/
def State.resetCauseBit (s : State) (k : Nat) : State :=
  s.modMode fun m => { m with resetCause := m.resetCause ||| BitVec.ofNat 6 (2 ^ k) }

/-- A reset that resumes the start at step 0x04: MODE reads STANDBY while the start runs (R40, R43). -/
def State.resumeStart4 (s : State) : State :=
  s.modMode fun m =>
    { m with mode := .standby, bootStep := 4, starting := true, domeRun := false, keep := .off, fault := false }

/-- The `RESET_CAUSE` bit of a reset kind (Table 02.8). -/
def ResetKind.bit : ResetKind → Nat
  | .powerOn => 0 | .pin => 1 | .perst => 2 | .command => 3 | .fault => 4 | .freezeLimit => 5

/-- The resets that resume the start at step 0x04 (Table 02.3). A fault-state reset leaves a rail that was the fault to
sequencing. While a comparator of the Dome or the Turret holds its shutdown, the reset waits (R390). -/
def State.resetBy (s : State) (k : ResetKind) : State :=
  if (s.die[0]).shutAt.isSome || (s.die[1]).shutAt.isSome then s.modMode fun m => { m with heldReset := some k }
  else
    let s := ((s.resetCauseBit k.bit).domeLogicReset).modMode fun m => { m with heldReset := none }
    let s := if k = .fault || k = .freezeLimit then
        forAll allRails (fun r t => if t.get (R.RAIL_STAT_STATE r) = 6 then t.put (R.RAIL_STAT_STATE r) 0 else t) s
      else s
    s.resumeStart4

/-- A power-on reset (Table 02.3): everything at its reset value but the Silt log, the OTP arrays and the terminals. The
Silt queue is lost with the supply (R403); PON counts the reset. -/
def State.powerOn (s : State) : State :=
  { State.reset with
    pending := s.pending
    mode := { pins := s.mode.pins }
    hp := { sent := s.hp.sent }
    silt := { slots := s.silt.slots, head := s.silt.head, seq := s.silt.seq, pon := (s.silt.pon + 1) % 65536 }
    otp := s.otp.domeReset s.tick.wall s.free
    course := { enc0 := s.course.enc0.domeReset, enc1 := s.course.enc1.domeReset }
    free := s.free + 1 }

/-- SHIP, or the loss of the supply: the pack switch is open, the charger, the rails and the Dome are off (Tables 02.1 and
01.4, R310). -/
def State.enterShip (s : State) : State :=
  let after := s.mode.afterReset
  let s := s.domeLogicReset
  let s := (s.put R.CHG_STAT_STATE 0).putFlag R.CHG_STAT_CHG_N false
  let s := ((s.putFlag R.PACK_STAT_SW_CLOSED false).putFlag R.PACK_STAT_BUSKEEP false)
  let s := (forAll allRails (fun r t => (t.setReg (R.RAIL_STAT r) 0)) s).setReg R.RAIL_GOOD 0
  { s with mode := { s.mode with mode := .ship, bootStep := 1, starting := false, domeOn := false, afterReset := after }
           power := { s.power with sw := .open_, closeFrom := none, bkPend := false, gatesOn := false, bkFrom := none,
                                   uvCutAt := none, checked := false, ramp := none, halfUntil := none }
           rail := Vector.replicate 10 {} }

end Sys2Proof.Machine
end

