-- ==== Sys2Proof/Machine/Battery.lean ====
section
/-! DEFINITION. The pack switch, pack checks, the cells, the charger, bus-keep operation and the bus current budget
(12_battery_and_charger.md, R307 to R332), with the pack converter and its counters (R333, R334). Rows that report an
analog event of the pack or the charger act where the state that their rule names holds. -/

namespace Sys2Proof.Machine

/-! ### Pack and charger state -/

/-- TF above 9 V (Table 02.7). -/
def State.tfPresent (s : State) : Bool := s.mode.pins.tf
/-- `PACK_STAT.PACK`. -/
def State.packCode (s : State) : Nat := s.get R.PACK_STAT_PACK
/-- `PACK_STAT.BUSKEEP`. -/
def State.inBuskeep (s : State) : Bool := s.flag R.PACK_STAT_BUSKEEP
/-- `CHG_STAT.STATE`. -/
def State.chgState (s : State) : Nat := s.get R.CHG_STAT_STATE
/-- The Keep decides now: it runs and the module is not frozen. -/
def State.keepRuns (s : State) : Bool := s.mode.keep = .run && !s.mode.frozen
/-- Number of cells in use: `PACK_CFG.CELLS`, or N_det (Table 12.6). -/
def State.cellsUsed (s : State) : Nat := let n := s.get R.PACK_CFG_CELLS; if n = 0 then s.get R.PACK_STAT_CELLS_DET else n
/-- The cell voltages in use, mV. -/
def State.cellMv (s : State) : List Nat := (List.range (min 16 s.cellsUsed)).map fun k => s.get (R.CELL_V_MV k)
/-- V_p of the pack converter, mV. -/
def State.packMv (s : State) : Nat := s.regN R.PACK_V

/-- Level of the Turret die (Table 14.3). -/
def State.turretLevel (s : State) : Nat := (s.die[(1 : DieIx)]).level.toNat

/-- The charger's gates may be driven in a state (R315, R327, Table 14.3, Table 01.4): not with the over-voltage latch, not at level
2 of the Turret die or after its shutdown, and in the fault state only in bus-keep operation. -/
def State.gatesMay (s : State) (st : Nat) : Bool :=
  st ≠ 0 && !s.flag R.CHG_STAT_OV_LATCH && s.turretLevel < 2 && (s.die[(1 : DieIx)]).shutAt.isNone && (!s.mode.fault || st = 7)

/-- Charging is permitted, so that `CHG_N` is held low (R315). -/
def State.chargeMay (s : State) (st : Nat) : Bool := 1 ≤ st && st ≤ 4 && !s.flag R.CHG_STAT_OV_LATCH && !s.mode.fault

/-- FAST_MA in force: its minimum under the restrictive defaults (R47, R323). -/
def State.fastMa (s : State) : Nat := if s.mode.restricted then 1000 else s.get R.CHG_I_FAST_MA

/-- The time from which a condition has held without a break. -/
def sinceWhen (holds : Bool) (wall : Nat) (old : Option Nat) : Option Nat := if holds then some (old.getD wall) else none

/-- A condition has held for a time. -/
def heldFor (wall span : Nat) (t : Option Nat) : Bool := t.any fun t => t + span ≤ wall

/-- VBUS of a movement at a wall time: 1 mV every 100 ticks (R309, R325, R328). -/
def VRamp.mvAt (r : VRamp) (wall : Nat) : Nat :=
  let d := (wall - r.at_) / 100
  if r.start ≤ r.stop then min r.stop (r.start + d) else max r.stop (r.start - d)

/-- A change of the charger's state, with event 0x0608 and what the state does to `CHG_N` and the gates (R315, R321). -/
def State.chgGo (s : State) (new : Nat) : State :=
  let old := s.chgState
  if old = new then s
  else
    let s := (s.put R.CHG_STAT_STATE new).modPower fun p =>
      { p with chgFrom := s.tick.wall, chgRun := if old = 0 then s.tick.wall else p.chgRun,
               gatesOn := s.gatesMay new, preFrom := none, rechFrom := none, termRun := 0 }
    let s := s.putFlag R.CHG_STAT_CHG_N (s.chargeMay new)
    let s := (s.putFlag R.CHG_STAT_LIM_IIN false).putFlag R.CHG_STAT_LIM_VIN false
    s.raise 0x0608 0 (BitVec.ofNat 32 (new + old * 16))

/-- The state in which charging starts: PRECHARGE with a cell below PRE_MV, else CC (Table 12.3). -/
def State.chgFirst (s : State) : Nat := if s.cellMv.any (· < s.get R.CHG_V_PRE_MV) then 1 else 2

/-- The pack switch opened (R310); the next close waits for a pack check (R312). -/
def State.openSwitch (s : State) : State :=
  (s.putFlag R.PACK_STAT_SW_CLOSED false).modPower fun p =>
    { p with sw := .open_, closeFrom := none, checked := p.checked && p.sw = .open_, ramp := none }

/-- A close begins: VBUS moves toward V_p (R309, R328). -/
def State.beginClose (s : State) (vbusMv : Nat) : State :=
  s.modPower fun p => { p with sw := .closing, closeFrom := some s.tick.wall, checked := false,
                               ramp := some { at_ := s.tick.wall, start := vbusMv, stop := p.vpMv } }

/-- The switch is fully on. -/
def State.closed (s : State) : State :=
  (s.putFlag R.PACK_STAT_SW_CLOSED true).modPower fun p => { p with sw := .closed, closeFrom := none, checked := false, ramp := none }

/-- Bus-keep operation ended: BK_ACK clears and its ticks are added up (R326, R334). -/
def State.leaveBuskeep (s : State) : State :=
  let s := (s.putFlag R.PACK_STAT_BUSKEEP false).putFlag R.PACK_STAT_BK_ACK false
  s.modPower fun p =>
    { p with bkFrom := none, buskeepTicks := p.buskeepTicks + (match p.bkFrom with
        | some t => s.tick.wall - t
        | none => 0) }

/-! ### Pack checks (R308, R311, R312) -/

/-- N_det: successive cells from cell 0 up that read at least 0.5 V (R311). -/
def nDet (t : PackTaps) : Nat := (t.cells.takeWhile fun v => 500 ≤ v).length

/-- The class of a pack (Table 12.1): 1 PRESENT, 2 MISSING, 3 SHORTED, 4 LOW. -/
def packClass (t : PackTaps) (pswBad : Bool) : Nat :=
  let n := nDet t
  if 2000 ≤ t.rise then 2
  else if t.vp < 2000 || (t.cells.drop n).any (50 ≤ ·) || pswBad then 3
  else if t.vp < 20000 || n < 10 || 16 < n then 4
  else 1

/-- The result of a pack check with its event (Table 12.10): 0x0601 to 0x0603 once per result. -/
def State.packResult (s : State) (t : PackTaps) : State :=
  let r := packClass t s.power.pswBad
  let old := s.packCode
  let s := (s.put R.PACK_STAT_PACK r).put R.PACK_STAT_CELLS_DET (nDet t)
  let s := s.modPower fun p => { p with vpMv := t.vp, riseMv := t.rise, lastCheck := s.tick.wall, checked := true }
  if r = 1 then
    s.raise 0x0600 0 (BitVec.ofNat 32 (nDet t * 256 + s.get R.PACK_STAT_SW_TYPE * 8192))
  else
    let s := s.count R.PACK_CNT_CHECK_FAIL
    if r = old then s
    else if r = 2 then s.raise 0x0601 2
    else if r = 3 then s.raise 0x0602 2
    else s.raise 0x0603 2 (BitVec.ofNat 32 (satU 16 (roundDiv t.vp 10)))

/-- PACK_CHECK: with the switch open the Turret classes the pack (R311). -/
def execPackCheck (taps : PackTaps) (s : State) : Res :=
  if s.mode.mode ≠ .ship && s.power.sw = .open_ then .next (s.packResult taps) else .next s

/-- BUSKEEP_PACK_CHECK_TIMER: the pack check of every 10 s of bus-keep operation (R312). -/
def execBuskeepPackCheckTimer (taps : PackTaps) (s : State) : Res :=
  if s.inBuskeep && s.power.sw = .open_ && s.power.lastCheck + 10 * ticksPerS ≤ s.tick.wall then .next (s.packResult taps)
  else .next s

/-- CHARGE_PROBE: every 10 s while the charger charges the pack, its current target stands at half for 1 ms (R312). When I_p follows by less than 10 % of the change of
the charger's output, the pack is MISSING and bus-keep operation begins. -/
def execChargeProbe (dPackUa dChgUa : Nat) (s : State) : Res :=
  let charging := 1 ≤ s.chgState && s.chgState ≤ 3
  if charging && s.power.lastProbe + 10 * ticksPerS ≤ s.tick.wall then
    let s := s.modPower fun p => { p with lastProbe := s.tick.wall, halfUntil := some (s.tick.wall + ticksPerMs) }
    if 10 * dPackUa < dChgUa then
      let s := if s.packCode = 2 then s else (s.put R.PACK_STAT_PACK 2).raise 0x0601 2
      .next (s.modPower fun p => { p with bkPend := true })
    else .next s
  else .next s

/-! ### The pack switch (R309, R310, R313) -/

/-- The rise of VBUS in linear mode can have come within 1 V of V_p: 2.0 V/ms, 10 % more at most (R309). -/
def State.rampDone (s : State) : Bool :=
  match s.power.ramp with
  | some r => s.flag R.PACK_STAT_SW_TYPE || 1000 * (r.stop - 1000 - r.start) ≤ 11 * (s.tick.wall - r.at_)
  | none => true

/-- PACK_SWITCH_CLOSE: after a pack check that gave PRESENT since the switch opened, and outside bus-keep operation, a contactor is
energised once VBUS lies within 1 V of V_p; a MOSFET pair raises VBUS at 2.0 V/ms and is fully on there (R309, R310, R312). -/
def execPackSwitchClose (vbusMv : Nat) (s : State) : Res :=
  let near := vbusMv ≤ s.power.vpMv + 1000 && s.power.vpMv ≤ vbusMv + 1000
  if s.mode.mode = .ship || s.packCode ≠ 1 || s.inBuskeep then .next s
  else match s.power.sw with
    | .closed => .next s
    | .closing => .next (if near && s.rampDone then s.closed else s)
    | .open_ => .next (if !s.power.checked then s else if near then s.closed else s.beginClose vbusMv)

/-- PACK_CLOSE_TIMEOUT: a close not at full drive within 100 ms is abandoned and the pack is taken as shorted (R309). -/
def execPackCloseTimeout (s : State) : Res :=
  match s.power.closeFrom with
  | some t =>
    if s.power.sw = .closing && t + 100 * ticksPerMs ≤ s.tick.wall then
      let s := s.openSwitch
      .next (if s.packCode = 3 then s else (s.put R.PACK_STAT_PACK 3).raise 0x0602 2)
    else .next s
  | none => .next s

/-- SHORT_CIRCUIT_TRIP: |I_p| above SC_A for 10 µs (R313). -/
def execShortCircuitTrip (s : State) : Res :=
  if s.power.sw = .open_ then .next s
  else
    let s := (s.openSwitch.count R.PACK_CNT_SC_TRIPS).raiseSrc 0x44 0x060F 2
    .next (if s.tfPresent then s.modPower fun p => { p with bkPend := true } else s.enterShip)

/-! ### Cells (R315 to R317) -/

/-- CELL_OV_TRIP: an over-voltage comparator trips (R315). -/
def execCellOvTrip (cell : Fin 16) (s : State) : Res :=
  if s.mode.mode = .ship || s.flag R.CHG_STAT_OV_LATCH then .next s
  else
    let s := (s.putFlag R.CHG_STAT_OV_LATCH true).putFlag R.CHG_STAT_CHG_N false
    let s := (s.modPower fun p => { p with gatesOn := false, ovLowFrom := none }).count R.PACK_CNT_OV_TRIPS
    .next (s.raiseSrc 0x43 0x0606 2 (BitVec.ofNat 32 cell.val))

/-- What the cells read, judged at each cell result and at each decision boundary (R315, R317, Table 12.3). -/
def State.cellTimers (s : State) : State :=
  let l := s.cellMv
  let w := s.tick.wall
  let st := s.chgState
  let low := decide (l.foldl (· + ·) 0 + l.length * s.get R.CHG_TEMP_RECHG_MV < l.length * s.get R.CHG_V_CV_MV)
  s.modPower fun p =>
    { p with ovLowFrom := sinceWhen (l.all (· + 100 < s.get R.CELL_THR_OV_MV)) w p.ovLowFrom
             preFrom := sinceWhen (st = 1 && l.all (s.get R.CHG_V_PRE_MV + 100 ≤ ·)) w p.preFrom
             rechFrom := sinceWhen (st = 4 && low) w p.rechFrom
             uvFrom := sinceWhen (!s.tfPresent && l.any (· < s.get R.CELL_THR_UV_MV)) w p.uvFrom }

/-- OV_LATCH_CLEAR: every cell has read below OV_MV - 100 mV for 1 s; the charger restarts in CC or CV (R315). In bus-keep operation,
in SUSPEND and in the fault state it keeps its state. -/
def execOvLatchClear (s : State) : Res :=
  if s.flag R.CHG_STAT_OV_LATCH && heldFor s.tick.wall ticksPerS s.power.ovLowFrom then
    let s := (s.putFlag R.CHG_STAT_OV_LATCH false).raise 0x0607 0
    let st := s.chgState
    let new := if s.cellsUsed * s.get R.CHG_V_CV_MV ≤ s.packMv then 3 else 2
    let s := if st = 0 || st = 7 || s.mode.fault then s
      else if st = 5 then s.modPower fun p => { p with chgPrev := new }
      else s.chgGo new
    let st := s.chgState
    .next ((s.putFlag R.CHG_STAT_CHG_N (s.chargeMay st)).modPower fun p => { p with gatesOn := s.gatesMay st })
  else .next s

/-- A cell in use has a result older than 100 ms, or the converter does not run (R316, R377). -/
def State.cellsStale (s : State) : Bool :=
  !s.flag R.HK_CTRL_START || (s.power.cellAt.take s.cellsUsed).any fun t => match t with
    | some t => t + 100 * ticksPerMs < s.tick.wall
    | none => false

/-- The pack temperature in 1/64 °C: the higher of the usable NTCs (R318). -/
def State.packTemp (s : State) : Option Int :=
  let t (f : Fld) : Int := signed 16 (s.get f)
  match s.power.ntcBad.toNat with
  | 0 => some (max (t R.PACK_T_T0) (t R.PACK_T_T1))
  | 1 => some (t R.PACK_T_T1)
  | 2 => some (t R.PACK_T_T0)
  | _ => none

/-- The pack temperature lies outside T_LO to T_HI (R318). -/
def State.tempHold (s : State) : Bool :=
  match s.packTemp with
  | none => false
  | some t => decide (t < 64 * signed 8 (s.get R.CHG_TEMP_T_LO) ∨ 64 * signed 8 (s.get R.CHG_TEMP_T_HI) < t)

/-- `PACK_CFG.CELLS` is not 0 and differs from N_det (R316). -/
def State.cellsDiffer (s : State) : Bool :=
  s.get R.PACK_CFG_CELLS ≠ 0 && s.get R.PACK_CFG_CELLS ≠ s.get R.PACK_STAT_CELLS_DET

/-- A cause of SUSPEND holds (R316, R318). -/
def State.suspCause (s : State) : Bool := s.cellsStale || s.cellsDiffer || s.packTemp.isNone || s.tempHold

/-- The charger in SUSPEND while a cause holds, and back in the state it interrupted when it clears; CHG_TMO stops
meanwhile (R321). -/
def State.suspStep (s : State) : State :=
  let st := s.chgState
  let s := s.putFlag R.CHG_STAT_TEMP_HOLD s.tempHold
  let s :=
    if s.suspCause then
      if 1 ≤ st && st ≤ 4 then (s.modPower fun p => { p with chgPrev := st }).chgGo 5 else s
    else if st = 5 then
      let d := s.tick.wall - s.power.chgFrom
      (s.modPower fun p => { p with chgRun := p.chgRun + d }).chgGo s.power.chgPrev
    else s
  if s.tempHold && st ≠ 5 && s.chgState = 5 then
    s.raise 0x060B 0 (BitVec.ofInt 32 (s.packTemp.getD 0))
  else s

/-- Event 0x0614 at the onset of stale cell data, and event 0x0612 at the onset of a difference of cells (R316). -/
def State.cellEvents (s : State) : State :=
  let s := if s.cellsStale && !s.power.staleTold then s.raise 0x0614 0 else s
  let s := if s.cellsDiffer && !s.power.cellsTold then s.raise 0x0612 0 else s
  let a := s.cellsStale
  let b := s.cellsDiffer
  s.modPower fun p => { p with staleTold := a, cellsTold := b }

/-- CELL_DATA_STALE: a cell result older than 100 ms (R316). -/
def execCellDataStale (s : State) : Res :=
  if s.keepRuns && s.cellsStale then .next s.cellEvents.suspStep else .next s

/-- Event 0x060D once and UV_WARN when a cell reads below UV_MV (R317). -/
def State.uvCheck (s : State) : State :=
  match s.cellMv.findIdx? (· < s.get R.CELL_THR_UV_MV) with
  | some k =>
    if s.power.uvTold then s
    else ((s.putFlag R.PACK_STAT_UV_WARN true).modPower fun p => { p with uvTold := true }).raise 0x060D 0 (BitVec.ofNat 32 k)
  | none => s

/-- The PACK record of Table 15.5. -/
def State.packPayload (s : State) (uv : Bool) : List Byte :=
  [BitVec.ofNat 8 s.packCode, BitVec.ofNat 8 (s.get R.PACK_STAT_CELLS_DET)] ++ leBytes 4 s.power.vpMv
    ++ leBytes 4 s.power.riseMv ++ leBytes 4 (s.regN R.TF_V) ++ [if uv then 1 else 0]

/-- UV_CUTOFF: a cell has stayed below UV_MV for 60 s without TF outside FIELD; the record and the event now, the opening
100 ms later at a decision boundary (R317). -/
def execUvCutoff (s : State) : Res :=
  let low := heldFor s.tick.wall (60 * ticksPerS) s.power.uvFrom
  if s.keepRuns && low && !s.tfPresent && s.mode.mode ≠ .field && s.power.sw = .closed && s.power.uvCutAt.isNone then
    let s := s.siltPush 4 2 0x060E (s.packPayload true)
    let s := s.raiseWith 0x060E 2 0 { ownRecord := true }
    .next (s.modPower fun p => { p with uvCutAt := some (s.tick.wall + 100 * ticksPerMs) })
  else .next s

/-- The opening of the switch that a cut-off has ordered; the module then stops as at a power loss (R317). -/
def State.uvOpen (s : State) : State :=
  match s.power.uvCutAt with
  | some t => if t ≤ s.tick.wall && s.mode.mode ≠ .field then s.openSwitch.enterShip else s
  | none => s

/-! ### The charger (R319 to R324) -/

/-- CHARGER_START: from OFF, with TF present for 1 s, PACK = PRESENT, EN = 1 and the Keep running; TF is measured first
(R320, R321). -/
def execChargerStart (tfMv : Nat) (s : State) : Res :=
  let ok := s.chgState = 0 && s.tfPresent && s.packCode = 1 && s.flag R.CHG_CTRL_EN && s.keepRuns && !s.mode.fault
    && s.mode.mode ≠ .ship && s.power.sw = .closed
  if ok then
    let auto := s.flag R.CHG_VIN_VIN_AUTO
    let v := if auto then max 9000 (roundDiv (tfMv * s.get R.CHG_VIN_VIN_PCT : Nat) 100).toNat else s.get R.CHG_VIN_VIN_REG_MV
    .next ((s.modPower fun p => { p with vinReg := v, lastProbe := s.tick.wall }).chgGo s.chgFirst)
  else .next s

/-- TF_LOSS: TF below 9 V or not present for 1 s; in bus-keep operation the supply is lost (Table 12.3). -/
def execTfLoss (s : State) : Res :=
  if s.tfPresent then
    let s := s.modMode fun m => { m with pins := { m.pins with tf := false } }
    if s.inBuskeep then .next s.leaveBuskeep.enterShip else .next (s.chgGo 0)
  else .next s

/-- PRECHARGE_DONE: all cells at PRE_MV + 100 mV or more for 10 s (Table 12.3). -/
def execPrechargeDone (s : State) : Res :=
  if s.chgState = 1 && s.keepRuns && heldFor s.tick.wall (10 * ticksPerS) s.power.preFrom then .next (s.chgGo 2) else .next s

/-- CHARGE_TIMEOUT: PRE_TMO minutes in PRECHARGE, or CHG_TMO units of 10 minutes from the departure from OFF. -/
def execChargeTimeout (s : State) : Res :=
  let st := s.chgState
  let pre := st = 1 && s.power.chgFrom + s.get R.CHG_CTRL_PRE_TMO * 60 * ticksPerS ≤ s.tick.wall
  let chg := 1 ≤ st && st ≤ 3 && s.power.chgRun + s.get R.CHG_CTRL_CHG_TMO * 600 * ticksPerS ≤ s.tick.wall
  if s.keepRuns && (pre || chg) then .next ((s.chgGo 6).raise 0x060A 2 (if pre then 0 else 1)) else .next s

/-- I_p below TERM_PCT of FAST_MA (R322). -/
def State.termLow (s : State) (ip : Int) : Bool := decide (100 * ip < (s.get R.CHG_I_TERM_PCT * s.fastMa * 1000 : Nat))

/-- Loop 2, 3 or 4 of R319 is in control, or the gates are off: the 30 s of R322 stand. -/
def State.cvHeldOff (s : State) : Bool :=
  s.flag R.CHG_STAT_LIM_IIN || s.flag R.CHG_STAT_LIM_VIN || !s.power.gatesOn
    || decide (s.cellsUsed * s.get R.CELL_THR_OV_MV ≤ s.regN R.VBUS_V)

/-- CHARGE_TERMINATION: I_p below TERM_PCT for 30 s in CV (R322), 300,000 samples of 100 µs; the estimate becomes full (R336). -/
def execChargeTermination (s : State) : Res :=
  if s.chgState = 3 && s.keepRuns && 300000 ≤ s.power.termRun then
    let s := (s.chgGo 4).raise 0x0609 0
    .next { s with est := { s.est with z := 10000, p := 1, afterTerm := true } }
  else .next s

/-- RECHARGE: the mean cell voltage below CV_MV - RECHG_MV for 10 s (Table 12.3). -/
def execRecharge (s : State) : Res :=
  if s.chgState = 4 && s.keepRuns && heldFor s.tick.wall (10 * ticksPerS) s.power.rechFrom then .next (s.chgGo 2) else .next s

/-- A write of 1 to RESTART moves the charger out of TIMEOUT (Table 12.3); CHG_TMO counts anew. -/
def State.chgRestart (s : State) : State :=
  if s.chgState = 6 then (s.modPower fun p => { p with chgRun := s.tick.wall }).chgGo s.chgFirst else s

/-- Angle of charger phase k in degrees: the phases in use are interleaved at equal angles (R319). -/
def State.chgPhase (s : State) (k : Nat) : Rat := 360 * k / (s.get R.CHG_CTRL_PHASES + 1 : Nat)

/-- A write that the Keep applies at its next decision boundary (R345, R369, R392). -/
def State.queueWrite (s : State) (addr : Nat) (v : W32) : State :=
  { s with keepWrites := s.keepWrites ++ [⟨addr, v⟩] }

/-- CHG_RESTART: a write of 1 to `CHG_CTRL.RESTART`, with the other fields as they stand; the Keep applies it at its next
decision boundary (R345). -/
def execChgRestart (s : State) : Res :=
  if s.hostWritable then .next (s.queueWrite R.CHG_CTRL (s.reg R.CHG_CTRL ||| 2)) else .next s

/-- INPUT_LIMIT_TIMEOUT: loop 2 or loop 3 in control for 10 s (R319). -/
def execInputLimitTimeout (volt : Bool) (s : State) : Res :=
  if s.chgState = 0 then .next s
  else .next ((s.putFlag (if volt then R.CHG_STAT_LIM_VIN else R.CHG_STAT_LIM_IIN) true).raise 0x060C 0 (if volt then 1 else 0))

/-! ### Bus-keep operation (R325 to R328) -/

/-- BUSKEEP_ENTRY: the charger regulates VBUS: after a pack check other than PRESENT, a failed probe or a trip, with TF
present. From a probe the switch opens now; VBUS moves to VBK_MV at 2.0 V/ms unless it lies within 1 V (R310, R325). -/
def execBuskeepEntry (s : State) : Res :=
  let cause := s.power.bkPend || (s.power.sw = .open_ && 2 ≤ s.packCode)
  if s.mode.mode ≠ .ship && s.tfPresent && cause && !s.inBuskeep then
    let s := (s.openSwitch.putFlag R.PACK_STAT_BUSKEEP true).chgGo 7
    let near := decide (s.regN R.VBUS_V ≤ s.get R.BK_CFG_VBK_MV + 1000 ∧ s.get R.BK_CFG_VBK_MV ≤ s.regN R.VBUS_V + 1000)
    let s := s.modPower fun p =>
      { p with bkPend := false, bkFrom := some s.tick.wall, lastCheck := s.tick.wall
               ramp := if near then none
                 else some { at_ := s.tick.wall, start := s.regN R.VBUS_V, stop := s.get R.BK_CFG_VBK_MV } }
    .next (s.raise 0x0604 2)
  else .next s

/-- BUSKEEP_EXIT: a PRESENT pack check ends bus-keep operation: VBUS moves toward V_p, the switch closes, and charging starts (R328);
in the fault state the charger goes off (R327). -/
def execBuskeepExit (s : State) : Res :=
  if s.inBuskeep && s.packCode = 1 && s.power.checked then
    let s := (s.leaveBuskeep.beginClose (s.regN R.VBUS_V)).modPower fun p => { p with lastProbe := s.tick.wall }
    .next ((s.chgGo (if s.mode.fault then 0 else s.chgFirst)).raise 0x0605 0)
  else .next s

/-- BUSKEEP_LOW_VBUS: VBUS more than 10 % below VBK_MV for 10 ms (R328). -/
def execBuskeepLowVbus (s : State) : Res := if s.inBuskeep then .next (s.raise 0x0615 2) else .next s

/-- BK_ACK written (R326). -/
def State.buskeepAck (s : State) (b : Bool) : State := s.putFlag R.PACK_STAT_BK_ACK b

/-! ### The bus current budget (R329 to R332) -/

/-- PULL_IN_GUARD_END: GUARD_MS after its start (R329). -/
def execPullInGuardEnd (c : Ch) (s : State) : Res :=
  match (s.ch c).guardUntil with
  | some t => if s.clockOn && t ≤ s.now then .next (s.modCh c fun h => { h with guardUntil := none }) else .next s
  | none => .next s

/-- d_g × |i_g| of a channel, µA (R329). -/
def State.drawOf (s : State) (c : Ch) : Rat :=
  let p := 8 * s.pwmP c
  if p = 0 then 0 else (((s.ch c).lastOn.natAbs * (s.ch c).smp.i.natAbs : Nat) : Rat) / (p : Nat)

/-- Leads and single channels that are not lost. -/
def State.budgetChans (s : State) : List Ch := allCh.filter fun c => !s.isMember c && !s.isLost c

/-- u, t and e of R329, µA. -/
structure BudTerms where
  u : Rat
  t : Rat
  e : Rat

/-- A channel with an entry due within LOOK_MS (R329). -/
def State.entryDue (s : State) (c : Ch) : Bool :=
  let x := s.units[bndUnit c]
  let t := x.target.toNat
  x.arm && !s.inGuard c && s.now ≤ t && t ≤ s.now + s.get R.BUD_PULL_LOOK_MS * ticksPerMs
    && !(s.ch c).seqr.rqSt.getLsbD 8 && (s.ch c).seqr.bnd.isSome

/-- The terms of R329. -/
def State.budTerms (s : State) : BudTerms :=
  s.budgetChans.foldl (fun a c =>
    let d := s.drawOf c
    let a := if s.isTrimmed c then { a with t := a.t + d } else { a with u := a.u + d }
    if s.entryDue c then { a with e := a.e + (s.get R.BUD_PULL_PULL_MA * 1000 : Nat) } else a)
    { u := (s.regN R.RAIL_IRAILS : Nat), t := 0, e := 0 }

/-- L in µA (R330). -/
def State.budLimit (s : State) : Int :=
  let l : Int := s.get R.BUD_CFG_LIMIT_DA * 100000
  if s.inBuskeep then
    let tf := (s.regI R.TF_I).toNat
    let iin := s.get R.CHG_IN_IIN_MA * 1000
    let i := if s.flag R.CHG_STAT_LIM_VIN then min iin tf else iin
    let n := (100 - s.get R.BK_CFG_RESERVE_PCT) * s.get R.BK_CFG_EFF_PCT * s.regN R.TF_V * i
    min l (roundDiv (n : Nat) (10000 * s.get R.BK_CFG_VBK_MV))
  else l

/-- The target trim (R331). -/
def budTarget (b : BudTerms) (l : Int) (kmin : Nat) : Nat :=
  if b.u + b.t + b.e ≤ l then 256
  else if b.t = 0 || (l : Rat) - b.u - b.e ≤ 0 then kmin
  else max kmin (256 * ((l : Rat) - b.u - b.e) / b.t).floor.toNat

/-- A probe of R340 ended: k returns to 256 in one step. -/
def State.probeStop (s : State) : State :=
  ((s.put R.BUD_STAT_K 256).putFlag R.EST_STAT_PROBE false).modPower fun p => { p with probeUntil := none }

/-- One budget period, at a 1 ms decision boundary (R329 to R332); a probe holds k at 0 and ends early when a guard runs,
the target falls or the mode changes (R340). -/
def State.budgetPeriod (s : State) : State :=
  let b := s.budTerms
  let l := s.budLimit
  let kmin := min 256 (s.get R.BUD_CFG_KMIN)
  let tgt := budTarget b l kmin
  let guarded := allCh.any fun c => (s.ch c).guardUntil.isSome
  let s := if s.power.probeUntil.isSome && (guarded || tgt < 256 || s.mode.mode ≠ .field) then s.probeStop else s
  let k := s.get R.BUD_STAT_K
  let k' := if s.power.probeUntil.isSome then 0 else if tgt ≤ k then tgt else min tgt (k + 16)
  let total := roundRat (b.u + b.t + b.e)
  let over_ := tgt = kmin && decide ((l : Rat) < b.u + b.t * kmin / 256 + b.e)
  let s := ((s.put R.BUD_STAT_K k').putFlag R.BUD_STAT_ACTIVE (k' < 256)).putFlag R.BUD_STAT_OVER over_
  let s := (s.setReg R.BUD_PRED (BitVec.ofNat 32 (satU 32 total))).setReg R.BUD_LIMIT (BitVec.ofNat 32 (satU 32 l))
  let s := if k' < 256 then
      (s.modPower fun p => { p with trims := p.trims + 1 }).raiseLimited 0x0610 0 (BitVec.ofNat 32 k') 0
    else s
  if over_ then s.raiseLimited 0x0611 0 (BitVec.ofNat 32 (satU 32 (roundDiv total 1000))) 0 else s

/-- Charger decisions of a 1 ms boundary (R316 to R321): suspension, the end of CC, EN, the fault state. -/
def State.chargerDecide (s : State) : State :=
  let s := (s.cellTimers.cellEvents.uvCheck).suspStep
  let st := s.chgState
  let s :=
    if st ≠ 0 && st ≠ 7 && (!s.flag R.CHG_CTRL_EN || s.mode.fault) then s.chgGo 0
    else if st = 2 && s.cellsUsed * s.get R.CHG_V_CV_MV ≤ s.packMv then s.chgGo 3
    else s
  s.uvOpen

/-! ### The pack converter and the power counters (R333, R334) -/

/-- I_p in µA of a code (Table 12.4). -/
def State.packUa (s : State) (low : Bool) (code : Int) : Int :=
  roundDiv (code * (if low then 1562500 else 156250)) (s.get R.SHUNTS_PACK_UOHM)

/-- 2^80: a 64-bit counter with 16 fractional bits wraps there (R334). -/
def qMod : Nat := 2 ^ 80

/-- µA × 100 µs in µC with 16 fractional bits. -/
def chargeQ16 (ua : Nat) : Nat := (roundDiv (ua * 65536 : Nat) 10000).toNat

/-- One sample counted (R334). -/
def Power.countSample (p : Power) (x : PackSmp) : Power :=
  let q := chargeQ16 x.ip.natAbs
  { p with qChg := if 0 < x.ip then (p.qChg + q) % qMod else p.qChg
           qDis := if x.ip < 0 then (p.qDis + q) % qMod else p.qDis
           qTf := (p.qTf + chargeQ16 x.tf) % qMod }

/-- A sample entering the counters two samples late (R333): a marked one takes the mean of its neighbours, and both take
the value after it when the one before was at full scale. -/
def Power.pushSample (p : Power) (x : PackSmp) : Power :=
  match p.held with
  | a :: b :: _ =>
    let a' := if b.marked && a.full then { a with ip := x.ip } else a
    let b' := if b.marked then { b with ip := if a.full then x.ip else roundDiv (a.ip + x.ip) 2 } else b
    { p.countSample a' with held := [b', x] }
  | [a] =>
    let a' := if a.marked then { a with ip := x.ip } else a
    { p with held := [a', x] }
  | [] => { p with held := [x] }

/-- The charger's current target, mA (Table 12.3, Table 14.3), at half in the 1 ms of a probe (R312). -/
def State.chgTarget (s : State) : Nat :=
  let half (x : Nat) : Nat := (roundDiv x 2).toNat
  let base := match s.chgState with
    | 1 => (roundDiv s.fastMa 10).toNat
    | 2 => s.fastMa
    | _ => 0
  let base := match s.turretLevel with
    | 0 => base
    | 1 => half base
    | _ => 0
  if s.power.halfUntil.any (s.tick.wall < ·) then half base else base

/-- The commanded channel draw, µA (R329, R338). -/
def State.drawTotal (s : State) : Int :=
  (s.budgetChans.foldl (fun a c =>
    let d := s.drawOf c
    a + if s.isTrimmed c then d * (s.trimK c : Nat) / 256 else d) (0 : Rat)).floor

/-- Samples that the step detector needs: 10 before, two windows of 1,500 ms, and 5 for the last mean. -/
def histMax : Nat := 30020

/-- PACK_SAMPLE: I_p and V_p at 10 kHz, and the TF current (R333). -/
def execPackSample (iCode vCode : BitVec 16) (tfUa : Nat) (s : State) : Res :=
  if s.mode.mode = .ship || !s.paced s.pace.pack (100 * ticksPerUs) then .next s
  else
    let s := { s with pace := { s.pace with pack := some s.tick.wall } }
    let w := s.power
    let low := w.gainDue.getD w.lowGain
    let marked := w.gainDue.isSome
    let code := iCode.toInt
    let ip := s.packUa low code
    let small := low && code.natAbs ≤ 2560
    let run := if small then w.smallRun + 1 else 0
    let due : Option Bool :=
      if !low && 30720 ≤ code.natAbs then some true
      else if low && 100 ≤ run then some false
      else none
    let x : PackSmp := { ip := ip, vp := vCode.toNat, marked := marked, full := decide (code = 32767 ∨ code = -32768), tf := tfUa }
    let tgt := s.chgTarget
    let ips := (ip :: w.ips).take 10
    let term := if s.chgState ≠ 3 || !s.termLow ip then 0 else if s.cvHeldOff then w.termRun else w.termRun + 1
    let s := s.modPower fun p =>
      { (p.pushSample x) with lowGain := low, smallRun := if due.isSome then 0 else run, gainDue := due, ips := ips, termRun := term }
    let s := if marked then s.count R.PACK_CNT_GAIN_CHG else s
    let s := s.putFlag R.EST_STAT_LOW_GAIN low
    let s := s.setReg R.PACK_V (BitVec.ofNat 32 (roundDiv (vCode.toNat * 5 : Nat) 4).toNat)
    let s := s.setReg R.PACK_I (i32 (roundDiv (ips.foldl (· + ·) 0) ips.length))
    let s := s.setReg R.TF_I (BitVec.ofNat 32 tfUa)
    let h : StepSmp := { ip := ip, vp := vCode.toNat, spoiled := marked || decide (tgt ≠ s.est.target), draw := s.drawTotal }
    .next { s with est := { s.est with
      nAcc := s.est.nAcc + 1, iAcc := s.est.iAcc + ip, vAcc := s.est.vAcc + vCode.toNat, marked := s.est.marked || marked,
      ipNow := ip, vpNow := vCode.toNat, target := tgt, hist := (h :: s.est.hist).take histMax } }

/-- Q_DIS, Q_CHG and Q_TF as reported, and bus-keep ticks (R334). -/
def State.qDis (s : State) : Nat := s.power.qDis / 65536
/-- Q_CHG as reported. -/
def State.qChg (s : State) : Nat := s.power.qChg / 65536
/-- Q_TF as reported. -/
def State.qTf (s : State) : Nat := s.power.qTf / 65536
/-- BUSKEEP as reported: ticks in bus-keep operation. -/
def State.buskeepTicks (s : State) : Nat :=
  (s.power.buskeepTicks + match s.power.bkFrom with
    | some t => s.tick.wall - t
    | none => 0) % 2 ^ 64

end Sys2Proof.Machine
end

