-- ==== Sys2Proof/Machine/Real.lean ====
section
/-! DEFINITION. Real arithmetic of the battery estimator (R335, R339): exact rationals rounded to IEEE 754 binary64 after
each operation, with the exponential and the logarithm from fixed-point series that are exact far beyond binary64. -/

namespace Sys2Proof.Machine

/-- A quotient rounded to the nearest natural, ties to even. -/
def divEven (n d : Nat) : Nat :=
  let q := n / d
  let r := 2 * (n % d)
  if r < d then q else if d < r then q + 1 else if q % 2 = 0 then q else q + 1

/-- A rational with a significand of `m` bits, ties to even; exponents are not bounded. -/
def roundSig (m : Nat) (q : Rat) : Rat :=
  if q = 0 then 0
  else
    let n := q.num.natAbs
    let d := q.den
    let k : Int := (Nat.log2 n : Int) - Nat.log2 d
    let scale (sh : Int) : Nat × Nat := if 0 ≤ sh then (n * 2 ^ sh.toNat, d) else (n, d * 2 ^ (-sh).toNat)
    let sh0 : Int := (m : Int) - 1 - k
    let p0 := scale sh0
    let sh := if p0.1 / p0.2 < 2 ^ (m - 1) then sh0 + 1 else sh0
    let p := scale sh
    let r := divEven p.1 p.2
    let v : Rat := if 0 ≤ sh then (r : Rat) / (2 ^ sh.toNat : Nat) else ((r * 2 ^ (-sh).toNat : Nat) : Rat)
    if q < 0 then -v else v

/-- Rounding to binary64. -/
def f64 (q : Rat) : Rat := roundSig 53 q

/-- The word of a non-negative rational as binary32 (Table 15.5); 0 below the normal range, infinity above it. -/
def binary32 (q : Rat) : W32 :=
  let v := roundSig 24 q
  if v ≤ 0 then 0
  else
    let n := v.num.natAbs
    let d := v.den
    let k0 : Int := (Nat.log2 n : Int) - Nat.log2 d
    let ge (k : Int) : Bool := if 0 ≤ k then d * 2 ^ k.toNat ≤ n else d ≤ n * 2 ^ (-k).toNat
    let k := if ge k0 then k0 else k0 - 1
    if k < -126 then 0
    else if 127 < k then 0x7F800000
    else
      let sh := 23 - k
      let m := if 0 ≤ sh then n * 2 ^ sh.toNat / d else n / (d * 2 ^ (-sh).toNat)
      BitVec.ofNat 32 ((k + 127).toNat * 2 ^ 23 + (m - 2 ^ 23))

/-- Fractional bits of the series. -/
def fixP : Nat := 200
/-- One. -/
def fixOne : Nat := 2 ^ fixP

/-- e^-y for y < 1, by its series. -/
def expFix (y : Nat) : Nat :=
  (List.range 60).foldl (fun acc i => fixOne - (y * acc / fixOne) / (60 - i)) fixOne

/-- A number squared repeatedly. -/
def sqFix : Nat → Nat → Nat
  | 0, x => x
  | k + 1, x => sqFix k (x * x / fixOne)

/-- e^-x for x ≥ 0, rounded to binary64; below 2^-1022 it is 0. -/
def expNeg (x : Rat) : Rat :=
  if 708 < x then 0
  else
    let y := (x * (2 ^ fixP : Nat)).floor.toNat
    f64 ((sqFix 11 (expFix (y / 2 ^ 11)) : Rat) / (2 ^ fixP : Nat))

/-- Twice the inverse hyperbolic tangent of t ≤ 1/3. -/
def atanh2 (t : Nat) : Nat :=
  let t2 := t * t / fixOne
  2 * t * ((List.range 70).foldl (fun acc i => fixOne / (2 * (70 - i) - 1) + t2 * acc / fixOne) 0) / fixOne

/-- -ln q for 0 < q < 1, rounded to binary64. -/
def negLn (q : Rat) : Rat :=
  let e := Nat.log2 (q.den / q.num.natAbs) + 1
  let m := (q * (2 ^ (fixP + e) : Nat)).floor.toNat
  -- m stands for q × 2^e, between 1/2 and 2
  let big := fixOne ≤ m
  let t := if big then (m - fixOne) * fixOne / (m + fixOne) else (fixOne - m) * fixOne / (m + fixOne)
  let ln2 := atanh2 (fixOne / 3)
  let l : Int := (e * ln2 : Nat) - (if big then (atanh2 t : Int) else -(atanh2 t : Int))
  f64 ((l : Rat) / (2 ^ fixP : Nat))

end Sys2Proof.Machine
end

