-- ==== Sys2Proof/Machine/Estimator.lean ====
section
/-! DEFINITION. The battery estimator (12_battery_and_charger.md, R335 to R344): state of charge, impedance from steps,
probes, rest points, capacity, health, and the estimator record. -/

namespace Sys2Proof.Machine

/-! ### The OCV table -/

/-- A point of the table, mV per cell. -/
def State.ocvPoint (s : State) (j : Nat) : Nat := s.get (R.OCV_TBL_MV (min j 10))
/-- The segment of a SoC in 0.01 %: the upper one at a knot (R335). -/
def ocvSeg (z : Rat) : Nat := min 9 (z / 1000).floor.toNat
/-- slope(), mV per 0.01 %. -/
def State.ocvSlope (s : State) (z : Rat) : Rat :=
  let j := ocvSeg z
  ((s.ocvPoint (j + 1) : Rat) - (s.ocvPoint j : Rat)) / 1000
/-- ocv(), mV per cell. -/
def State.ocv (s : State) (z : Rat) : Rat :=
  let j := ocvSeg z
  (s.ocvPoint j : Rat) + (z - ((1000 * j : Nat) : Rat)) * s.ocvSlope z
/-- The segment in which a voltage per cell lies, from below. -/
def State.ocvFind (s : State) (mv : Rat) : Nat :=
  ((List.range 10).find? fun j => mv < (s.ocvPoint (j + 1) : Rat)).getD 9
/-- The table's inverse, 0.01 % (R341); flat segments give their lower knot. -/
def State.ocvInv (s : State) (mv : Rat) : Rat :=
  let j := s.ocvFind mv
  let d : Rat := (s.ocvPoint (j + 1) : Rat) - (s.ocvPoint j : Rat)
  let z : Rat := if d ≤ 0 then ((1000 * j : Nat) : Rat) else ((1000 * j : Nat) : Rat) + (mv - (s.ocvPoint j : Rat)) * 1000 / d
  max 0 (min z 10000)

/-- Learned capacity C, µAh. -/
def State.capC (s : State) : Nat := s.regN R.EST_CAP
/-- Q_CHG - Q_DIS, µC. -/
def State.qNet (s : State) : Int := (s.qChg : Int) - s.qDis
/-- V_p of the latest sample, mV. -/
def State.vpMv (s : State) : Rat := ((s.est.vpNow * 5 : Nat) : Rat) / 4

/-! ### State of charge (R335 to R337) -/

/-- The voltage slope of the rest rules, in 0.1 mV per % per cell, reaches SLOPE_MIN (R341). -/
def State.slopeOk (s : State) (mv : Rat) : Bool :=
  let j := s.ocvFind mv
  decide (((s.get R.EST_REST_SLOPE_MIN : Nat) : Rat) ≤ ((s.ocvPoint (j + 1) : Rat) - (s.ocvPoint j : Rat)))

/-- The rest conditions of R341, but for their duration. -/
def State.resting (s : State) : Bool :=
  let t := match s.packTemp with
    | some t => decide (320 ≤ t ∧ t ≤ 2880)
    | none => false
  decide (100 * s.est.ipNow.natAbs < s.capC) && t && s.slopeOk (s.vpMv / (max 1 s.cellsUsed : Nat))

/-- s held to 1/256 of 0.01 % (R337). -/
def q256 (x : Rat) : Rat := (roundRat (x * 256) : Rat) / 256

/-- EST_SOC as reported. -/
def State.reportSoc (s : State) : State :=
  (s.put R.EST_SOC_SOC (roundRat s.est.s).toNat).put R.EST_SOC_SOC_EST (roundRat s.est.z).toNat

/-- How long the rest conditions have held, judged at each update (R341). -/
def State.restStep (s : State) : State :=
  let r := s.resting
  let w := s.tick.wall
  ({ s with est := { s.est with restFrom := sinceWhen r w s.est.restFrom, restDone := r && s.est.restDone } }).putFlag R.EST_STAT_REST r

/-- SOC_UPDATE: one update of z, p and the reported s from the means of the period (R335 to R337). Every operation is
rounded to binary64. -/
def execSocUpdate (s : State) : Res :=
  if !s.keepRuns || s.est.nAcc = 0 || !s.paced s.pace.soc (100 * ticksPerMs) then .next s
  else
    let s := { s with pace := { s.pace with soc := some s.tick.wall } }
    let x := s.est
    let n : Rat := (s.cellsUsed : Nat)
    let c : Rat := (s.capC : Nat)
    let learned := 0 < x.stepsOk
    let r0 : Rat := if learned then (s.regN R.EST_R0 : Nat) else 0
    let r1 : Rat := if learned then (s.regN R.EST_R1 : Nat) else 0
    let tau : Rat := if learned then (s.regN R.EST_TAU : Nat) else 1000
    let dq : Rat := ((s.qNet - x.qNet : Int) : Rat)
    let iAvg := f64 ((x.iAcc : Rat) / (x.nAcc : Nat))
    let vMeas := f64 (((x.vAcc * 5 : Nat) : Rat) / ((4 * x.nAcc : Nat) : Rat))
    let dz := if c = 0 then 0 else f64 (f64 (dq * 10000) / f64 (3600 * c))
    let zm := max 0 (min (f64 (x.z + dz)) 10000)
    let q := if tau ≤ 0 then 0 else expNeg (f64 (100 / tau))
    let v1 := f64 (f64 (x.v1 * q) + f64 (f64 (f64 (r1 * f64 (1 - q)) * iAvg) / 1000000000))
    let vHat := f64 (f64 (f64 (n * f64 (s.ocv zm)) + f64 (f64 (r0 * iAvg) / 1000000000)) + v1)
    let h := f64 (n * f64 (s.ocvSlope zm))
    let d100 := f64 (dz / 100)
    let pm := f64 (f64 (x.p + 1) + f64 (d100 * d100))
    let lim := if 8 ≤ x.stepsOk then c / 2 else c / 20
    let usable := s.power.sw = .closed && !s.cellsStale && !x.marked && decide (-lim ≤ iAvg ∧ iAvg ≤ lim)
    let w := f64 (f64 (f64 (f64 ((2 / 10 : Rat)) * r0) * iAvg) / 1000000000)
    let rn := f64 (25 + f64 (w * w))
    let k := f64 (f64 (pm * h) / f64 (f64 (f64 (h * h) * pm) + rn))
    let z := if usable then max 0 (min (f64 (zm + f64 (k * f64 (vMeas - vHat)))) 10000) else zm
    let p := if usable then f64 (f64 (1 - f64 (k * h)) * pm) else pm
    let step := (if dz < 0 then -dz else dz) + ((s.get R.EST_REST_SOC_RATE : Nat) : Rat) / 10
    let rs :=
      if dq < 0 && z < x.s then max z (x.s - step)
      else if (0 < dq || x.afterTerm) && x.s < z then min z (x.s + step)
      else x.s
    let rs := q256 rs
    let s := { s with est := { x with
      z := z, p := p, v1 := v1, s := rs, afterTerm := x.afterTerm && decide (rs < q256 z), qNet := s.qNet, nAcc := 0, iAcc := 0,
      vAcc := 0, marked := false } }
    .next (s.reportSoc.restStep)

/-! ### Impedance (R338, R339, R343) -/

/-- Mean of the currents of samples. -/
def meanIp (l : List StepSmp) : Rat := ((l.foldl (fun a x => a + x.ip) 0 : Int) : Rat) / (max 1 l.length : Nat)
/-- Mean voltage of samples, mV. -/
def meanVp (l : List StepSmp) : Rat := ((l.foldl (fun a x => a + x.vp * 5) 0 : Nat) : Rat) / ((4 * max 1 l.length : Nat) : Rat)
/-- |x|. -/
def absR (x : Rat) : Rat := if x < 0 then -x else x

/-- What a step gives: R0, R1 in µΩ and τ in ms; none when R339 refuses it. -/
def stepResult (dv0 dv1 dv2 di w : Rat) : Option (Int × Int × Int) :=
  let r0 := f64 (dv0 / di)
  let ua := f64 (f64 (dv1 / di) - r0)
  let ub := f64 (f64 (dv2 / di) - r0)
  if ua = 0 then none
  else
    let qx := f64 (f64 (ub / ua) - 1)
    if 0 < qx && qx < 1 then
      let tau := f64 (w / negLn qx)
      let r1 := f64 (ua / f64 (1 - qx))
      let u (r : Rat) : Int := roundRat (r * 1000000000)
      some (u r0, u r1, roundRat tau)
    else none

/-- The candidate step whose window ends with the latest samples: none when the history is short or the current does not
depart there; else whether it qualifies, and its result (R338, R339). -/
def State.stepCandidate (s : State) : Option (Option (Int × Int × Int)) :=
  let w := 10 * s.get R.EST_PROBE_W_MS
  -- oldest first: 10 samples before, sample j, and 2w + 5 after it
  let l := (s.est.hist.take (2 * w + 16)).reverse
  if l.length < 2 * w + 16 then none
  else
    let pre := l.take 10
    let ipre := meanIp pre
    match l[10]? with
    | none => none
    | some j =>
      if absR ((j.ip : Rat) - ipre) < 500000 then none
      else
        let after := (l.drop 11).take (2 * w)
        let ipost := meanIp after
        let di := ipost - ipre
        let c1 := pre.all fun x => absR ((x.ip : Rat) - ipre) ≤ 500000
        let c3 := decide (10000000 ≤ absR di) && after.all fun x => absR ((x.ip : Rat) - ipost) ≤ 500000 + absR di / 50
        let d0 := (l[7]?.map (·.draw)).getD 0
        let ddraw : Rat := ((j.draw - d0 : Int) : Rat)
        let c4 := absR (ddraw + di) ≤ absR di / 5
        let c5 := (l.take (2 * w + 11)).all fun x => !x.spoiled
        if c1 && c3 && c4 && c5 then
          let vpre := meanVp pre
          let dv (t : Nat) : Rat := meanVp ((l.drop (10 + t - 4)).take 10) - vpre
          some (stepResult (dv 2) (dv w) (dv (2 * w)) di (s.get R.EST_PROBE_W_MS : Nat))
        else some none

/-- A learned value after an accepted one (R339). -/
def learnImp (first : Bool) (sh : Nat) (old x : Int) : Int := if first then x else old + roundDiv (x - old) (2 ^ sh : Nat)

/-- EST_SOH (R343). -/
def State.reportSoh (s : State) : State :=
  let rated := s.get R.EST_CFG_CAP_RATED * 10000
  let cap := satU 16 (roundDiv (s.capC * 10000 : Nat) rated)
  let ref := s.regN R.EST_R0_REF
  let r25 := s.regN R.EST_R0_25
  let imp := if ref = 0 || r25 = 0 then 10000 else satU 16 (roundDiv (ref * 10000 : Nat) r25)
  (s.put R.EST_SOH_CAP cap).put R.EST_SOH_IMP imp

/-- R0 referred to 25 °C (R339). -/
def State.r025 (s : State) : Int :=
  let t : Rat := ((s.packTemp.getD 1600 : Int) : Rat) / 64
  let d := 1 + ((s.get R.EST_PROBE_R0_TC : Nat) : Rat) * (25 - t) / 1000
  if d = 0 then s.regN R.EST_R0 else roundRat ((s.regN R.EST_R0 : Nat) / d)

/-- IMPEDANCE_STEP: the end of a step's window (R338, R339). A step that fails a condition is counted as rejected. -/
def execImpedanceStep (s : State) : Res :=
  if !s.keepRuns then .next s
  else match s.stepCandidate with
    | none => .next s
    | some none => .next (s.count R.EST_CNT_STEPS_REJ)
    | some (some (r0, r1, tau)) =>
      let first := s.est.stepsOk = 0
      let sh := s.get R.EST_CFG_IMP_SH
      let put (t : State) (a : Nat) (x : Int) : State := t.setReg a (BitVec.ofNat 32 (satU 32 (learnImp first sh (t.regN a) x)))
      let probe := s.power.probeUntil.isSome || s.flag R.EST_STAT_PROBE
      let s := put (put (put s R.EST_R0 r0) R.EST_R1 r1) R.EST_TAU tau
      let s := { s with est := { s.est with stepsOk := s.est.stepsOk + 1, lastStepAt := s.tick.wall } }
      let s := (s.setReg R.EST_R0_25 (BitVec.ofNat 32 (satU 32 s.r025))).count R.EST_CNT_STEPS_OK
      let s := if s.est.stepsOk = 8 then
          let s := s.putFlag R.EST_STAT_R0_SETTLED true
          if s.regN R.EST_R0_REF = 0 then s.setReg R.EST_R0_REF (s.reg R.EST_R0_25) else s
        else s
      .next (s.reportSoh.raiseLimited 0x0700 0 (if probe then 1 else 0) 0 (60 * ticksPerS))

/-! ### Probes (R340) -/

/-- PROBE_START: no step has qualified for PROBE_H hours; a budget period in FIELD with k = 256 and at least 12 A on the
trimmed channels (R340). -/
def execProbeStart (s : State) : Res :=
  let h := s.get R.EST_REST_PROBE_H
  let ok := s.keepRuns && h ≠ 0 && s.mode.mode = .field && s.get R.BUD_STAT_K = 256 && s.power.probeUntil.isNone
    && s.est.lastStepAt + h * 3600 * ticksPerS ≤ s.tick.wall && decide (12000000 ≤ s.budTerms.t)
  if ok then
    let ms := 2 * s.get R.EST_PROBE_W_MS + 2
    let s := s.modPower fun p => { p with probeUntil := some (s.tick.wall + ms * ticksPerMs) }
    .next (((s.put R.BUD_STAT_K 0).putFlag R.EST_STAT_PROBE true).raise 0x0703 0)
  else .next s

/-- PROBE_END: after 2 × W_MS + 2 ms k is restored in one step (R340). -/
def execProbeEnd (s : State) : Res :=
  match s.power.probeUntil with
  | some t => if s.keepRuns && t ≤ s.tick.wall then .next s.probeStop else .next s
  | none => .next s

/-! ### Rest points and capacity (R341, R342) -/

/-- The reference after a new rest point, and the capacity it may teach (R342). -/
def State.capLearn (s : State) (new : RestPt) : State :=
  match s.est.refPt with
  | none => ({ s with est := { s.est with refPt := some new } }).putFlag R.EST_STAT_REF_VALID true
  | some ref =>
    if s.get R.EST_CFG_CAP_DSOC * 100 ≤ (new.z - ref.z).natAbs then
      let meas := roundDiv ((new.q - ref.q) * 10000) ((new.z - ref.z) * 3600)
      let rated : Int := s.get R.EST_CFG_CAP_RATED * 10000
      let s := { s with est := { s.est with refPt := some new } }
      if rated ≤ 2 * meas && 5 * meas ≤ 6 * rated then
        let c := (s.capC : Int) + roundDiv (meas - s.capC) (2 ^ s.get R.EST_CFG_CAP_SH : Nat)
        let s := (s.setReg R.EST_CAP (BitVec.ofNat 32 (satU 32 c))).count R.EST_CNT_CAP_LEARNS
        (s.raise 0x0701 0 (BitVec.ofNat 32 (satU 32 (roundDiv c 1000)))).reportSoh
      else s
    else if ref.at_ + 7 * 86400 * ticksPerS < s.tick.wall then { s with est := { s.est with refPt := some new } }
    else s

/-- REST_POINT: the rest conditions have held for REST_MIN minutes (R341); one rest gives one rest point. -/
def execRestPoint (s : State) : Res :=
  let held := heldFor s.tick.wall (s.get R.EST_REST_REST_MIN * 60 * ticksPerS) s.est.restFrom
  if s.keepRuns && s.resting && held && !s.est.restDone then
    let z := s.ocvInv (s.vpMv / (max 1 s.cellsUsed : Nat))
    let zi := roundRat z
    let s := { s with est := { s.est with z := f64 z, p := 100, restDone := true } }
    let s := (s.count R.EST_CNT_RESTS).raise 0x0704 0 (BitVec.ofInt 32 zi)
    .next ((s.capLearn { z := zi, q := s.qNet, at_ := s.tick.wall }).put R.EST_SOC_SOC_EST zi.toNat)
  else .next s

/-! ### Records (R344) -/

/-- Payload of an ESTIMATOR record (Table 15.5). -/
def State.estPayload (s : State) : List Byte :=
  let x := s.est
  leBytes 2 (roundRat x.z).toNat ++ leBytes 2 (roundRat x.s).toNat ++ leBytes 4 (binary32 x.p).toNat ++ leBytes 4 s.capC
    ++ leBytes 4 (s.regN R.EST_R0) ++ leBytes 4 (s.regN R.EST_R1) ++ leBytes 4 (s.regN R.EST_TAU) ++ leBytes 4 (s.regN R.EST_R0_25)
    ++ (match x.refPt with
      | some r => leBytes 2 r.z.toNat ++ leBytes 8 (BitVec.ofInt 64 r.q).toNat ++ [1]
      | none => leBytes 2 0 ++ leBytes 8 0 ++ [0])

/-- An estimator record queued for the Silt log. -/
def State.estRecord (s : State) : State :=
  ({ s with est := { s.est with lastRecAt := s.tick.wall } }).siltPush 3 0 0 s.estPayload

/-- ESTIMATOR_RECORD: every 60 min (R344); the record of the entry to STANDBY belongs to that entry. -/
def execEstimatorRecord (s : State) : Res :=
  if s.keepRuns && s.est.lastRecAt + 3600 * ticksPerS ≤ s.tick.wall then .next s.estRecord else .next s

/-- The payload of the latest valid record of a type in the Silt log. -/
def Silt.latest (x : Silt) (type : Byte) : Option (List Byte) :=
  ((x.slots.toList.foldl (fun (a : Option (W32 × List Byte)) sl => match sl with
    | .valid seq b =>
      if b.type = type then
        match a with
        | some (q, _) => if q.toNat < seq.toNat then some (seq, b.payload) else a
        | none => some (seq, b.payload)
      else a
    | _ => a) none).map (·.2))

/-- Step 0x08: the estimator restored from the latest valid record; event 0x0705 (R344). -/
def State.estRestore (s : State) : State :=
  match s.silt.latest 3 with
  | none =>
    ((s.setReg R.EST_CAP (BitVec.ofNat 32 (s.get R.EST_CFG_CAP_RATED * 10000))).reportSoh).raise 0x0705 0 0
  | some b =>
    let w (i : Nat) : W32 := BitVec.ofNat 32 (leAt b i 4)
    let s := ((((s.setReg R.EST_CAP (w 8)).setReg R.EST_R0 (w 12)).setReg R.EST_R1 (w 16)).setReg R.EST_TAU (w 20)).setReg
      R.EST_R0_25 (w 24)
    let ref := if byteAt b 38 &&& 1 = 1 then
        some { z := (leAt b 28 2 : Nat), q := signed 64 (leAt b 30 8), at_ := s.tick.wall : RestPt } else none
    let s := { s with est := { s.est with refPt := ref, zRec := some (leAt b 0 2), stepsOk := if w 12 = 0 then 0 else 1 } }
    ((s.putFlag R.EST_STAT_RESTORED true).putFlag R.EST_STAT_REF_VALID ref.isSome).reportSoh.raise 0x0705 0 1

/-- z at the first V_p after step 0x08 (R344): from the table, or from the record where its slope is too low. -/
def State.estInit (s : State) : State :=
  if s.est.inited || s.est.vpNow = 0 then s
  else
    let mv := s.vpMv / (max 1 s.cellsUsed : Nat)
    let z : Rat := if s.slopeOk mv then s.ocvInv mv
      else match s.est.zRec with
        | some z => (z : Rat)
        | none => s.ocvInv mv
    { s with est := { s.est with inited := true, z := f64 z, p := 1000000, s := q256 z } }.reportSoc

end Sys2Proof.Machine
end

