-- ==== Sys2Proof/Machine/Rails.lean ====
section
/-! DEFINITION. Auxiliary rails and sequencing (13_aux_rails_sequencing.md, R347 to R371). The Keep's decisions of a 1 ms
boundary are `railDecide`; the ramp of a rail is its reference over wall time. -/

namespace Sys2Proof.Machine

/-! ### Configuration in force -/

/-- A rail's field: its reset value during a start of AUX0 under R38 (R369). -/
def State.railGet (s : State) (f : Fld) : Nat := if s.seqr.boot38 then fieldOf (regReset f.addr) f else s.get f

/-- Set voltage, mV; AUX0 takes the strap's (R46, R348). -/
def State.railSet (s : State) (r : Rail) : Nat := if r.val = 0 then s.mode.straps.vselMv else s.get (R.RAIL_VSET_MV r)

/-- PAIR01 and PAIR23 as they act (R350). -/
def State.pair01 (s : State) : Bool := s.flag R.RAIL_GLB_PAIR01 && !s.mode.restricted && !s.seqr.boot38
/-- PAIR23. -/
def State.pair23 (s : State) : Bool := s.flag R.RAIL_GLB_PAIR23

/-- The rail is the second phase of another (R350). -/
def State.follows (s : State) (r : Rail) : Bool := (r.val = 1 && s.pair01) || (r.val = 3 && s.pair23)
/-- The second phase of a lead. -/
def State.phase2Of (s : State) (r : Rail) : Option Rail :=
  if r.val = 0 && s.pair01 then some 1 else if r.val = 2 && s.pair23 then some 3 else none
/-- The rail that a dependency bit names: a follower's bit acts as its lead's (R350). -/
def State.depLead (s : State) (j : Rail) : Rail :=
  if j.val = 1 && s.pair01 then 0 else if j.val = 3 && s.pair23 then 2 else j

/-- `RAIL_STAT.STATE`. -/
def State.railState (s : State) (r : Rail) : Nat := s.get (R.RAIL_STAT_STATE r)
/-- `RAIL_STAT.GOOD`. -/
def State.railGood (s : State) (r : Rail) : Bool := s.flag (R.RAIL_STAT_GOOD r)
/-- The rail is up: in a ramp, running or in a hiccup. -/
def State.railUp (s : State) (r : Rail) : Bool := 2 ≤ s.railState r && s.railState r ≤ 4
/-- Enabled and switched on; only AUX0 under the restrictive defaults (R47, R361). -/
def State.railWanted (s : State) (r : Rail) : Bool :=
  s.flag (R.RAIL_CFG_EN r) && s.flag (R.RAIL_CTRL_ON r) && !s.follows r && (r.val = 0 || !s.mode.restricted)

/-- Good set or cleared, in `RAIL_STAT` and `RAIL_GOOD`, for a lead and its follower (R350, R356). -/
def State.setGood (s : State) (r : Rail) (b : Bool) : State :=
  let one (r : Rail) (s : State) : State :=
    (s.putFlag (R.RAIL_STAT_GOOD r) b).put ⟨R.RAIL_GOOD, r.val, 1⟩ (if b then 1 else 0)
  let s := one r s
  match s.phase2Of r with
  | some q => one q s
  | none => s

/-- The state of a rail written; a follower's shows the lead's (R350). -/
def State.setRailState (s : State) (r : Rail) (st : Nat) : State :=
  let one (r : Rail) (s : State) : State := (s.put (R.RAIL_STAT_STATE r) st).putFlag (R.RAIL_STAT_BURST r) false
  let s := one r s
  match s.phase2Of r with
  | some q => one q ((s.putFlag (R.RAIL_STAT_PHASE2 r) (2 ≤ st && st ≤ 3)))
  | none => s.putFlag (R.RAIL_STAT_PHASE2 r) false

/-! ### The reference (R348, R352, R368) -/

/-- The reference now: it moves toward the set voltage, or toward 0 in a stop, at VSET ÷ (SS × 0.1 ms). -/
def State.railRef (s : State) (r : Rail) : Nat :=
  let x := s.rail[r]
  let set := s.railSet r
  let tgt := if s.railState r = 5 then 0 else set
  let d := set * (s.tick.wall - x.refAt) / (max 1 (s.railGet (R.RAIL_CFG_SS r)) * 20000)
  if x.refMv ≤ tgt then min tgt (x.refMv + d) else max tgt (x.refMv - d)

/-- The ramp from a measured output begins (R352). -/
def State.railRamp (s : State) (r : Rail) (voutMv : Nat) : State :=
  (s.modRail r fun x =>
    { x with refMv := voutMv, refAt := s.tick.wall, hicUntil := none, depMetAt := none, discharge := false, lowSide := false }).setRailState r 2

/-! ### Dependencies (R360, R363) -/

/-- Whether bit j of rail r's mask is honoured (R360). -/
def depHonoured (r : Rail) (j : Nat) : Bool := j < r.val || (j = 10 && r.val ≠ 0)

/-- The honoured dependencies of a rail. -/
def State.depsOf (s : State) (r : Rail) : List Nat :=
  (List.range 11).filter fun j => depHonoured r j && bits (s.get (R.RAIL_DEP_MASK r)) j 1 = 1

/-- The dependency on `SEQ_IN` is met (R363). -/
def State.seqInMet (s : State) : Bool := s.flag R.SEQ_STAT_SEQ_IN || (s.seqr.step8From.isSome && s.seqr.waitOver)

/-- A dependency is met (R360). -/
def State.depMet (s : State) (j : Nat) : Bool :=
  if h : j < 10 then
    let q := s.depLead ⟨j, h⟩
    s.railGood q || !s.flag (R.RAIL_CFG_EN q) || !s.flag (R.RAIL_CTRL_ON q) || s.rail[q].expired
  else s.seqInMet

/-- A dependency is good, for FOLLOW (R366). -/
def State.depGood (s : State) (j : Nat) : Bool :=
  if h : j < 10 then s.railGood (s.depLead ⟨j, h⟩) else s.flag R.SEQ_STAT_SEQ_IN

/-! ### Stops (R366 to R368) -/

/-- The stop order has ended (R368). -/
def State.stopComplete (s : State) : State :=
  let s := (s.putFlag R.SEQ_STAT_STOPPING false).raise 0x080C 0
  { s with seqr := { s.seqr with stopDone := true, othersAt := none, active := false } }

/-- A rail off with its discharge connected. -/
def State.railOffNow (s : State) (r : Rail) : State :=
  ((s.setGood r false).setRailState r 0).modRail r fun x =>
    { x with hicUntil := none, windowFrom := none, depMetAt := none, discharge := true, lowSide := false, refMv := 0,
             inBand := 0, uvW := 0, ovW := 0, uvF := 0, ovF := 0 }

/-- One rail begins to stop: its reference ramps to 0 V; a rail that drives no switch is off at once. -/
def State.railStop (s : State) (r : Rail) : State :=
  let st := s.railState r
  if st = 2 || st = 3 then
    let ref := s.railRef r
    ((s.setGood r false).setRailState r 5).modRail r fun x =>
      { x with refMv := ref, refAt := s.tick.wall, windowFrom := none, inBand := 0 }
  else if st = 1 || st = 4 then s.railOffNow r
  else s

/-- A rail has not stopped yet. -/
def State.notStopped (s : State) (r : Rail) : Bool := s.railUp r || s.railState r = 5

/-- The stop order's next rails: each rail other than AUX0 on which no running rail depends any more; when all have stopped,
HOST_HOLD begins (R368). -/
def State.stopAdvance (s : State) : State :=
  let ready (r : Rail) : Bool :=
    r.val ≠ 0 && !s.follows r && (s.railUp r || s.railState r = 1) &&
      allRails.all fun q => !(s.notStopped q && (s.depsOf q).any fun j => if h : j < 10 then s.depLead ⟨j, h⟩ = r else false)
  let s := forAll (allRails.filter ready) (fun r t => t.railStop r) s
  if s.seqr.othersAt.isNone && allRails.all (fun q => q.val = 0 || !s.notStopped q || s.follows q) then
    { s with seqr := { s.seqr with othersAt := some s.tick.wall } }
  else s

/-- The stop of all rails begins (R365, R368). -/
def State.stopOrder (s : State) : State :=
  let s := (s.putFlag R.SEQ_STAT_SEQ_OUT false).putFlag R.SEQ_STAT_STOPPING true
  { s with seqr := { s.seqr with stopDone := false, othersAt := none } }.stopAdvance

/-- A stop of all rails is in progress. -/
def State.stopping (s : State) : Bool := s.flag R.SEQ_STAT_STOPPING

/-- RAIL_STOP_ORDER: the hop into STANDBY begins the stop of all rails (R368). -/
def execRailStopOrder (s : State) : Res :=
  let wanted := match s.mode.move with
    | some m => m.hops.head? = some .standby
    | none => false
  if wanted && !s.stopping && s.keepRuns && !s.mode.fault && !s.seqr.stopDone then .next s.stopOrder else .next s

/-- RAIL_STOPPED: the next rails of a stop order follow while the Keep runs (R369). The stop ramp has ended and the output is below 10 % of the set voltage, or 50 ms have passed since (R368). -/
def execRailStopped (r : Rail) (s : State) : Res :=
  let x := s.rail[r]
  let set := s.railSet r
  let rampEnd := x.refAt + (if set = 0 then 0 else x.refMv * max 1 (s.railGet (R.RAIL_CFG_SS r)) * 20000 / set)
  let low := x.vout * 10 < set
  let t := s.tick.wall
  if s.railState r = 5 && rampEnd ≤ t && (low || rampEnd + 50 * ticksPerMs ≤ t) then
    let s := s.railOffNow r
    .next (if !s.stopping then s else if r.val = 0 then s.stopComplete else if s.keepRuns then s.stopAdvance else s)
  else .next s

/-- HOST_HOLD_EXPIRY: AUX0 begins to stop (R368). An AUX0 that is not up has stopped already. -/
def execHostHoldExpiry (s : State) : Res :=
  match s.seqr.othersAt with
  | some t =>
    if s.stopping && s.keepRuns && t + s.get R.SEQ_CFG_HOST_HOLD * 10 * ticksPerMs ≤ s.tick.wall then
      let s := s.railStop 0
      .next (if s.notStopped 0 then s else s.stopComplete)
    else .next s
  | none => .next s

/-! ### Starts (R361, R38) -/

/-- The dependencies that are good at a rail's start, as a mask (R366). -/
def State.goodDeps (s : State) (r : Rail) : BitVec 11 :=
  (s.depsOf r).foldl (fun m j => if s.depGood j then m ||| BitVec.ofNat 11 (2 ^ j) else m) 0

/-- A rail starts now (R352, R361, R362). -/
def State.railStart (s : State) (r : Rail) (voutMv : Nat) : State :=
  let g := s.goodDeps r
  (s.railRamp r voutMv).modRail r fun x =>
    { x with windowFrom := some s.tick.wall, expired := false, startedWith := g, inBand := 0, uvW := 0, ovW := 0, uvF := 0, ovF := 0 }

/-- RAIL_START: DELAY_MS after the last honoured dependency was met, on a decision boundary (R361); AUX0 also under R38. -/
def execRailStart (r : Rail) (voutMv : Nat) (s : State) : Res :=
  match s.rail[r].depMetAt with
  | some t =>
    let keep := s.keepRuns && s.seqr.active && !s.stopping && !s.mode.fault
    let turret := r.val = 0 && s.seqr.boot38
    if s.railState r = 1 && (keep || turret) && t + s.railGet (R.RAIL_DEP_DELAY_MS r) * ticksPerMs ≤ s.tick.wall then
      .next (s.railStart r voutMv)
    else .next s
  | none => .next s

/-- R38: the Turret starts AUX0 alone when the fault state is entered before step 0x08 has started it, unless AUX0 is itself
the fault. -/
def State.bootAux0 (s : State) : State :=
  if s.railUp 0 || s.railState 0 = 6 then s
  else
    let s := { s with seqr := { s.seqr with boot38 := true } }.setRailState 0 1
    s.modRail 0 fun x => { x with depMetAt := some s.tick.wall }

/-- Event 0x080A for each set bit that is not honoured (R360). -/
def State.depEvents (s : State) : State :=
  forAll allRails (fun r t =>
    forAll (List.range 11) (fun j t =>
      if bits (t.get (R.RAIL_DEP_MASK r)) j 1 = 1 && !depHonoured r j && r.val ≠ 0 then
        t.raise 0x080A 0 (BitVec.ofNat 32 (r.val + 16 * j))
      else t) t) s

/-- BOOT_RAIL_START: step 0x08 begins (R43, R361): the estimator is restored (R344), AUX0 ramps unless it is up, and rails
that are up are adopted (R40). A rail that is up and not good gets a new start window. -/
def execBootRailStart (aux0Mv : Nat) (s : State) : Res :=
  if s.mode.starting && s.mode.bootStep = 8 && s.keepRuns && !s.seqr.active && !s.mode.fault then
    let s := { s with seqr := { active := true, step8From := some s.tick.wall }, est := { s.est with inited := false, vpNow := 0 } }
    let s := s.estRestore.depEvents
    let s := forAll allRails (fun r t =>
      if (t.railUp r || t.railState r = 6) && !t.railGood r then
        t.modRail r fun x => { x with windowFrom := some t.tick.wall, expired := false }
      else t) s
    .next (if s.railState 0 < 2 then s.railStart 0 aux0Mv else s)
  else .next s

/-- The end of step 0x08 (R364). -/
def State.step8End (s : State) : State :=
  if s.seqr.step8From.isSome &&
      allRails.all (fun r => !s.railWanted r || s.railGood r || s.rail[r].expired) then
    let s := (s.putFlag R.SEQ_STAT_DONE true).modMode fun m => { m with bootStep := if m.bootStep = 8 then 9 else m.bootStep }
    let s := { s with seqr := { s.seqr with step8From := none } }
    let s := if s.get R.SEQ_OUT_CFG_MASK = 0 && !s.mode.restricted then s.putFlag R.SEQ_STAT_SEQ_OUT true else s
    s.raise 0x0808 0 (BitVec.ofNat 32 (s.get R.RAIL_GOOD_MASK))
  else s

/-- `SEQ_OUT` (R365). -/
def State.seqOutStep (s : State) : State :=
  let m := s.get R.SEQ_OUT_CFG_MASK % 1024
  let all := m &&& s.get R.RAIL_GOOD_MASK = m
  if s.stopping || s.mode.restricted || !s.seqr.active then s.putFlag R.SEQ_STAT_SEQ_OUT false
  else if m ≠ 0 && all then s.putFlag R.SEQ_STAT_SEQ_OUT true
  else if m ≠ 0 && !s.flag R.SEQ_OUT_CFG_LATCH then s.putFlag R.SEQ_STAT_SEQ_OUT false
  else s

/-- One rail at a decision boundary (R361, R366, R367). -/
def State.railDecideOne (s : State) (r : Rail) : State :=
  if s.follows r then s
  else
    let st := s.railState r
    let lost := s.flag (R.RAIL_CFG_FOLLOW r) &&
      (s.depsOf r).any (fun j => s.rail[r].startedWith.getLsbD j && !s.depGood j)
    if s.railUp r && !s.flag (R.RAIL_CTRL_ON r) then s.railStop r
    else if s.railUp r && lost then (s.railStop r).raise 0x080B 0 (BitVec.ofNat 32 r.val)
    else if st = 1 && !s.railWanted r then s.railOffNow r
    else if (st = 0 || st = 1) && s.railWanted r then
      let s := if st = 0 then s.setRailState r 1 else s
      if (s.depsOf r).all s.depMet then s.modRail r fun x => { x with depMetAt := some (x.depMetAt.getD s.tick.wall) }
      else s.modRail r fun x => { x with depMetAt := none }
    else s

/-- The Keep's rail decisions of a 1 ms boundary (R361, R364 to R369); a stop order goes on with what waited for the Keep; in the fault state every rail keeps its state (R358),
and `SEQ_OUT` still shows the rails that it names. -/
def State.railDecide (s : State) : State :=
  if s.stopping && !s.mode.fault then s.stopAdvance
  else if !s.seqr.active || s.stopping then s
  else if s.mode.fault then s.seqOutStep
  else ((forAll allRails (fun r t => t.railDecideOne r) s).step8End).seqOutStep

/-! ### Supervision and measurement (R355 to R359) -/

/-- A run of successive samples: one longer while `b`, else broken. -/
def runLen (b : Bool) (n : Nat) : Nat := if b then n + 1 else 0

/-- The sample of one rail judged against Table 13.3. -/
def State.superviseOne (s : State) (r : Rail) (v : Nat) : State :=
  let s := s.modRail r fun x => { x with vout := v }
  let set := s.railSet r
  let s := if s.railState r = 2 && s.railRef r = set then s.setRailState r 3 else s
  let st := s.railState r
  if s.follows r then s
  else if st = 6 then s.modRail r fun x => { x with lowSide := x.lowSide && set ≤ 10 * v }
  else if !s.railUp r then s
  else
    let u := if st = 4 then 0 else v
    let below (f : Fld) : Bool := 100 * u + set * s.railGet f < 100 * set
    let above (f : Fld) : Bool := 100 * set + set * s.railGet f < 100 * u
    let bw := below (R.RAIL_LVL_UV_WARN_PCT r)
    let aw := above (R.RAIL_LVL_OV_WARN_PCT r)
    let s := s.modRail r fun x =>
      { x with inBand := runLen (!bw && !aw) x.inBand
               uvW := runLen (bw && st = 3) x.uvW
               ovW := runLen aw x.ovW
               uvF := runLen (below (R.RAIL_LVL_UV_FLT_PCT r) && st ≠ 2) x.uvF
               ovF := runLen (above (R.RAIL_LVL_OV_FLT_PCT r)) x.ovF }
    if 10 ≤ s.rail[r].inBand then
      ((s.putFlag (R.RAIL_STAT_UV_WARN r) false).putFlag (R.RAIL_STAT_OV_WARN r) false).putFlag (R.RAIL_STAT_UV_FLT r) false
    else s

/-- `RAIL_IIN` in µA of a 1 ms mean (R359). With no reading of VBUS the quotient is a free value. -/
def State.railIin (s : State) (r : Rail) (v : Nat) (i : Int) : W32 × State :=
  if 8 ≤ r.val then (0, s)
  else
    let d := s.regN R.VBUS_V * s.get (R.RAIL_CFG_EFF r)
    if d = 0 then (if v = 0 ∨ i = 0 then (0, s) else s.takeFree)
    else (BitVec.ofNat 32 (satU 32 (roundDiv (v * i * 100) d)), s)

/-- The 1 ms report of every rail (R359). -/
def State.railReport (s : State) : State :=
  let s := forAll allRails (fun r t =>
    let x := t.rail[r]
    let v := (roundDiv x.vSum 100).toNat
    let i := roundDiv x.iSum 100
    let (w, t) := t.railIin r v i
    let t := ((t.setReg (R.RAIL_V r) (BitVec.ofNat 32 v)).setReg (R.RAIL_I r) (i32 i)).setReg (R.RAIL_IIN r) w
    t.modRail r fun x => { x with vSum := 0, iSum := 0 }) s
  let sum := allRails.foldl (fun a r => a + s.regN (R.RAIL_IIN r)) 0
  { (s.setReg R.RAIL_IRAILS (BitVec.ofNat 32 (satU 32 sum))) with seqr := { s.seqr with nSum := 0 } }

/-- The sums of R359 and the run of R353 with one sample of a rail. -/
def RailSt.add (x : RailSt) (v : Nat) (i : Int) (dropMa : Nat) : RailSt :=
  { x with vSum := x.vSum + v, iSum := x.iSum + i, iNow := i, iLow := runLen (decide (i < dropMa * 1000)) x.iLow }

/-- The samples of all rails judged and summed. -/
def State.railSamples (s : State) (vout : List Nat) (iout : List Int) : State :=
  let s := forAll allRails (fun r t =>
    (t.superviseOne r (vout.getD r.val 0)).modRail r fun x =>
      x.add (vout.getD r.val 0) (iout.getD r.val 0) (t.get (R.RAIL_SHED_DROP_MA r))) s
  { s with seqr := { s.seqr with nSum := s.seqr.nSum + 1 } }

/-- RAIL_SUPERVISION_SAMPLE: every 10 µs on the Turret (R355); every hundredth sample reports the means (R359). -/
def execRailSupervisionSample (vout : List Nat) (iout : List Int) (s : State) : Res :=
  if s.mode.mode = .ship || !s.paced s.pace.rails (10 * ticksPerUs) then .next s
  else
    let s := { s with pace := { s.pace with rails := some s.tick.wall } }.railSamples vout iout
    .next (if 100 ≤ s.seqr.nSum then s.railReport else s)

/-- RAIL_GOOD: the ramp has reached the set voltage and 10 successive samples lay in the band (R356). -/
def execRailGood (r : Rail) (s : State) : Res :=
  if s.railState r = 3 && 10 ≤ s.rail[r].inBand && !s.railGood r && !s.follows r then
    let s := (s.setGood r true).modRail r fun x => { x with windowFrom := none }
    .next (s.raise 0x0800 0 (BitVec.ofNat 32 r.val))
  else .next s

/-- A warning that has qualified (Table 13.3). -/
def State.railWarn (s : State) (r : Rail) (bit : Fld) (code : BitVec 16) : State :=
  ((s.putFlag bit true).count (R.RAIL_CNT_WARNS r)).raiseLimited code 0 (BitVec.ofNat 32 r.val) r.val

/-- RAIL_UV_WARN (Table 13.3). -/
def execRailUvWarn (r : Rail) (s : State) : Res :=
  if 10 ≤ s.rail[r].uvW && !s.flag (R.RAIL_STAT_UV_WARN r) then .next (s.railWarn r (R.RAIL_STAT_UV_WARN r) 0x0803) else .next s

/-- RAIL_OV_WARN (Table 13.3). -/
def execRailOvWarn (r : Rail) (s : State) : Res :=
  if 10 ≤ s.rail[r].ovW && !s.flag (R.RAIL_STAT_OV_WARN r) then .next (s.railWarn r (R.RAIL_STAT_OV_WARN r) 0x0804) else .next s

/-- Fault source of a rail (Table 15.1). -/
def railSrc (r : Rail) : Fin 128 := ⟨0x45 + r.val, by omega⟩

/-- A rail turned off by its fault (R357, R358): FAULT_OFF, low sides on until the output has fallen. -/
def State.railFaultOff (s : State) (r : Rail) : State :=
  let s := (s.railOffNow r).setRailState r 6
  s.modRail r fun x => { x with lowSide := r.val < 8, discharge := 8 ≤ r.val }

/-- RAIL_UV_FAULT: the rail is not good; with CRIT it turns off as an F3 (R358). -/
def execRailUvFault (r : Rail) (s : State) : Res :=
  if 100 ≤ s.rail[r].uvF && !s.flag (R.RAIL_STAT_UV_FLT r) then
    let s := ((s.setGood r false).putFlag (R.RAIL_STAT_UV_FLT r) true).count (R.RAIL_CNT_FAULTS r)
    let d := BitVec.ofNat 32 r.val
    .next (if s.railGet (R.RAIL_CFG_CRIT r) = 1 then (s.railFaultOff r).raiseSrc (railSrc r) 0x0805 3 d
           else s.raiseSrc (railSrc r) 0x0805 2 d)
  else .next s

/-- RAIL_OV_FAULT: the rail turns off at once as an F3 (R357). -/
def execRailOvFault (r : Rail) (s : State) : Res :=
  if 2 ≤ s.rail[r].ovF && s.railUp r then
    .next (((s.railFaultOff r).count (R.RAIL_CNT_FAULTS r)).raiseSrc (railSrc r) 0x0806 3 (BitVec.ofNat 32 r.val))
  else .next s

/-- RAIL_WINDOW_EXPIRY: not good within WINDOW_MS of the start of its ramp (R362). -/
def execRailWindowExpiry (r : Rail) (s : State) : Res :=
  match s.rail[r].windowFrom with
  | some t =>
    if !s.railGood r && t + s.railGet (R.RAIL_DEP_WINDOW_MS r) * ticksPerMs ≤ s.tick.wall then
      let s := s.modRail r fun x => { x with windowFrom := none, expired := true }
      let s := (s.put ⟨R.RAIL_FAILED, r.val, 1⟩ 1).putFlag (R.RAIL_STAT_FAILED r) true
      .next (s.raise 0x0801 2 (BitVec.ofNat 32 r.val))
    else .next s
  | none => .next s

/-- RAIL_HICCUP: the current limit acted for COUNT cycles or periods (R354). -/
def execRailHiccup (r : Rail) (s : State) : Res :=
  let st := s.railState r
  if (st = 2 || st = 3) && !s.follows r then
    let t := s.tick.wall + s.railGet (R.RAIL_HIC_OFF_MS r) * ticksPerMs
    let s := (s.setRailState r 4).modRail r fun x => { x with hicUntil := some t, inBand := 0, uvW := 0 }
    .next ((s.count (R.RAIL_CNT_HICCUPS r)).raiseLimited 0x0807 0 (BitVec.ofNat 32 r.val) r.val)
  else .next s

/-- RAIL_HICCUP_END: the rail restarts by the ramp of R352 (R354). -/
def execRailHiccupEnd (r : Rail) (voutMv : Nat) (s : State) : Res :=
  match s.rail[r].hicUntil with
  | some t => if s.railState r = 4 && t ≤ s.tick.wall then .next (s.railRamp r voutMv) else .next s
  | none => .next s

/-- The output current sheds or takes back the second phase: below DROP_MA for 1 ms, or above ADD_MA (Table 13.2). -/
def State.shedNow (s : State) (r : Rail) (enter : Bool) : Bool :=
  if enter then 100 ≤ (s.rail[r]).iLow else decide (s.get (R.RAIL_SHED_ADD_MA r) * 1000 < (s.rail[r]).iNow)

/-- Phase of a rail's switching in degrees: the stagger of rails at equal frequencies, and 180° for a second phase (R350, R351). -/
def State.railPhase (s : State) (r : Rail) : Nat :=
  if r.val = 1 && s.pair01 then 180 else if r.val = 3 && s.pair23 then 270 else 45 * r.val % 360

/-- LIGHT_LOAD_CHANGE: burst operation, or the second phase of a paired lead, as LIGHT selects (Table 13.2). -/
def execLightLoadChange (r : Rail) (enter : Bool) (s : State) : Res :=
  let light := s.railGet (R.RAIL_CFG_LIGHT r)
  if 8 ≤ r.val || s.railState r ≠ 3 || s.follows r || light = 2 then .next s
  else if light = 1 && (s.phase2Of r).isSome then
    .next (if s.shedNow r enter then s.putFlag (R.RAIL_STAT_PHASE2 r) (!enter) else s)
  else .next (s.putFlag (R.RAIL_STAT_BURST r) enter)

/-! ### `SEQ_IN` and ON (R363, R367) -/

/-- SEQ_IN_CHANGE: the level after 100 µs (R363). -/
def execSeqInChange (level : Bool) (s : State) : Res :=
  if s.mode.mode = .ship then .next s else .next (s.putFlag R.SEQ_STAT_SEQ_IN level)

/-- SEQIN_WAIT_EXPIRY: SEQIN_WAIT passes in step 0x08 while a rail waits for `SEQ_IN` (R363). -/
def execSeqinWaitExpiry (s : State) : Res :=
  match s.seqr.step8From with
  | some t =>
    let asked := allRails.any fun r => s.railWanted r && (s.depsOf r).contains 10
    let due := t + s.get R.SEQ_CFG_SEQIN_WAIT * 10 * ticksPerMs ≤ s.tick.wall
    if due && asked && !s.flag R.SEQ_STAT_SEQ_IN && !s.seqr.waitOver then
      let s := { s with seqr := { s.seqr with waitOver := true } }
      .next ((s.putFlag R.SEQ_STAT_SEQIN_TMO true).raise 0x0802 0)
    else .next s
  | none => .next s

/-- A write of `RAIL_CTRL.ON` taking effect: 0 is discarded on AUX0 (R367). -/
def State.railOnWrite (s : State) (r : Rail) (on : Bool) : State :=
  if r.val = 0 && !on then s.raise 0x0809 0 else s.putFlag (R.RAIL_CTRL_ON r) on

/-- RAIL_ON_WRITE: the landing of a write of `RAIL_CTRL.ON`; the Keep applies it at its next decision boundary (R369). -/
def execRailOnWrite (r : Rail) (on : Bool) (s : State) : Res :=
  if s.hostWritable then .next (s.queueWrite (R.RAIL_CTRL r) (if on then 1 else 0)) else .next s

/-- Every rail off at once, with its discharge and without a ramp: a Turret over-temperature (R390). -/
def State.railsOff (s : State) : State :=
  let s := forAll allRails (fun r t => t.railOffNow r) s
  { s with seqr := { s.seqr with active := false, step8From := none } }.putFlag R.SEQ_STAT_SEQ_OUT false

/-- With LIGHT = PWM written there is no burst and no shedding (Table 13.2). -/
def State.lightWrite (s : State) (r : Rail) : State :=
  if s.get (R.RAIL_CFG_LIGHT r) = 2 then
    let s := s.putFlag (R.RAIL_STAT_BURST r) false
    if (s.phase2Of r).isSome && (s.railState r = 2 || s.railState r = 3) then s.putFlag (R.RAIL_STAT_PHASE2 r) true else s
  else s

/-- A change of the set voltage: the reference moves on from where it stands (R348). -/
def State.vsetWrite (s : State) (r : Rail) (mv : Nat) : State :=
  let ref := s.railRef r
  (s.modRail r fun x => { x with refMv := ref, refAt := s.tick.wall }).put (R.RAIL_VSET_MV r) mv

end Sys2Proof.Machine
end

