-- ==== Sys2Proof/Machine/Housekeeping.lean ====
section
/-! DEFINITION. The housekeeping converter, its sequence table, calibration and path diagnosis, and the thermal monitor
(14_housekeeping_adc_thermal.md, R372 to R394). -/

namespace Sys2Proof.Machine

/-! ### Slots and calibration (R373, R378) -/

/-- The calibration group of a slot; none when the slot is unused (Table 14.1). -/
def slotGroup (n : Nat) : Option Nat :=
  if n ≤ 0x0F then some 0
  else if n ≤ 0x11 then some 2
  else if n ≤ 0x15 then some 1
  else if n ≤ 0x19 then some 2
  else if n < 0x20 then none
  else if n ≤ 0x41 then some 3
  else if n < 0x48 then none
  else if n ≤ 0x51 then some 1
  else if n ≤ 0x53 then some 2
  else none

/-- Full scale of a slot in mV (Table 14.1). -/
def slotFs (n : Nat) : Nat :=
  if n ≤ 0x0F then 5120
  else if n ≤ 0x11 then 2500
  else if n = 0x14 then 40960
  else if n ≤ 0x15 then 81920
  else if n ≤ 0x19 then 2560
  else if n ≤ 0x41 then 1280
  else if n ≤ 0x51 then 40960
  else 2560

/-- A raw result corrected, and whether it has clipped (R378). -/
def State.hkCorrect (s : State) (g : Nat) (raw : BitVec 16) : Nat × Bool :=
  let c := roundDiv (((raw.toNat : Int) - signed 16 (s.get (R.HK_CAL_OFFS g))) * (s.get (R.HK_CAL_GAIN g) : Nat)) 32768
  let k := satU 16 c
  (k, raw = 0 || raw = 0xFFFF || decide ((k : Int) ≠ c))

/-- The mean corrected code of an entry's conversions, and whether one clipped (R374); an unused slot reads 0. -/
def State.hkMean (s : State) (slot : Nat) (raws : List (BitVec 16)) : Nat × Bool :=
  match slotGroup slot with
  | none => (0, false)
  | some g =>
    let cs := raws.map (s.hkCorrect g)
    ((roundDiv (cs.foldl (fun a c => a + c.1) 0 : Nat) (max 1 raws.length)).toNat, cs.any (·.2))

/-! ### The sequence table (R374 to R377) -/

/-- Time of an entry in µs; a skipped entry takes none (R374, R375). -/
def hkEntryUs (w : W32) : Nat := if bits w.toNat 0 7 = 0x7F then 0 else 6 + 2 * bits w.toNat 8 8 + bits w.toNat 16 16

/-- The loop period in µs (R375). -/
def State.hkPeriodUs (s : State) : Nat := (List.range 64).foldl (fun a n => a + hkEntryUs (s.reg (R.HK_CFG n))) 0

/-- `HK_PERIOD` brought up to date. -/
def State.hkPeriod (s : State) : State := s.setReg R.HK_PERIOD (BitVec.ofNat 32 s.hkPeriodUs)

/-- The next entry from index n that is not skipped, with LOOP counted at the end of entry 63; `k` bounds the search. -/
def State.hkSeek : Nat → Nat → State → State
  | 0, _, s => s
  | k + 1, n, s =>
    if 64 ≤ n then State.hkSeek k 0 (s.put R.HK_STAT_LOOP (s.get R.HK_STAT_LOOP + 1))
    else if s.get (R.HK_CFG_SLOT n) = 0x7F then State.hkSeek k (n + 1) s
    else { s with hk := { s.hk with entry := n, cfg := s.reg (R.HK_CFG n) } }

/-- The loop begins at entry 0 (R377, R379). -/
def State.hkRestart (s : State) : State :=
  (State.hkSeek 130 0 { s with hk := { s.hk with from_ := s.tick.wall } }).putFlag R.HK_STAT_RUNNING true

/-- The loop started by a write of 1 or at step 0x07: results count from here as written (Table 14.6), and the rate windows
start again (R384). -/
def State.hkStart (s : State) : State :=
  let s := forAll (List.range 64) (fun n t => t.putFlag (R.HK_RES_VALID n) false) s
  let s := { s with die := s.die.map fun (d : DieTh) => { d with temps := [], warnRun := 0, warnClr := 0, tripRun := 0, valid := false } }
  (s.putFlag R.HK_CTRL_START true).hkPeriod.hkRestart

/-- A pack NTC result (R318): event 0x0613 when it becomes open or shorted. -/
def State.ntcResult (s : State) (k code : Nat) : State :=
  let bad := 65000 ≤ code || code ≤ 200
  let was := s.power.ntcBad.getLsbD k
  let bit : BitVec 2 := BitVec.ofNat 2 (2 ^ k)
  let s := s.modPower fun p => { p with ntcBad := if bad then p.ntcBad ||| bit else p.ntcBad &&& ~~~bit }
  if bad then (if was then s else s.raise 0x0613 0 (BitVec.ofNat 32 k))
  else
    let t := Config.ntcTemp (s.get R.NTC_CFG_BETA) (s.get R.NTC_CFG_R26) code
    s.put (if k = 0 then R.PACK_T_T0 else R.PACK_T_T1) t.toNat

/-- T of a die from a diode result (R382); without readable Trim the spec states no result, and T is a free value. -/
def State.dieTemp (s : State) (d code : Nat) : Int × State :=
  let (r, s) := s.trimBlock (min 126 (Config.trimPlace (4 + d)))
  match r with
  | some ws =>
    let (c, t, k) := Config.trimDie ws d
    (satI 16 (t + roundDiv (((code : Int) - c) * k) 65536), s)
  | none => let (w, s) := s.takeFree; (signed 16 w.toNat, s)

/-- A sensor fault begins or ends (R383). -/
def State.sensorStep (s : State) (d : DieIx) : State :=
  let x := s.die[d]
  if 3 ≤ x.badRun && !x.sensor then
    let s := (s.modDie d fun x => { x with sensor := true, temps := [], valid := false, warnRun := 0, warnClr := 0, tripRun := 0,
                                           holdFrom := none }).count R.THM_CNT_SENSOR
    s.raise 0x0A07 2 (BitVec.ofNat 32 d.val)
  else if 100 ≤ x.goodRun && x.sensor then s.modDie d fun x => { x with sensor := false, temps := [] }
  else s

/-- A diode result: T, the runs of implausible and plausible results, and the sensor fault that they make or end (R383). -/
def State.diodeResult (s : State) (d : DieIx) (code : Nat) (clip : Bool) : State :=
  let (t, s) := s.dieTemp d.val code
  let ok := !clip && decide (-55 * 64 ≤ t ∧ t ≤ 200 * 64)
  let s := s.put (if d.val % 2 = 0 then R.THM_TEMP_T_LO (d.val / 2) else R.THM_TEMP_T_HI (d.val / 2)) (wrapI 16 t % 65536).toNat
  (s.modDie d fun x =>
    { x with t := some t, badRun := if ok then 0 else x.badRun + 1, goodRun := if ok then x.goodRun + 1 else 0 }).sensorStep d

/-- What the Keep takes from a result by its slot (R316, R318, R382). -/
def State.slotResult (s : State) (slot code : Nat) (clip : Bool) : State :=
  let mv (num den : Nat) : W32 := BitVec.ofNat 32 (roundDiv (code * num : Nat) den).toNat
  if slot ≤ 0x0F then
    let s := s.setReg (R.CELL_V slot) (mv 5120 65536)
    (s.modPower fun p => { p with cellAt := p.cellAt.set slot (some s.tick.wall) }).cellTimers
  else if slot ≤ 0x11 then s.ntcResult (slot - 0x10) code
  else if slot = 0x12 then s.setReg R.VBUS_V (mv 5 4)
  else if slot = 0x13 then s.setReg R.TF_V (mv 5 4)
  else if h : 0x20 ≤ slot ∧ slot ≤ 0x41 then s.diodeResult ⟨slot - 0x20, by omega⟩ code clip
  else s

/-- The conversions of the entry in progress end: after 4 µs of settling and 2 µs for each (R372, R374). -/
def State.hkConvEnd (s : State) : Nat := s.hk.from_ + (6 + 2 * bits s.hk.cfg.toNat 8 8) * ticksPerUs

/-- The next entry begins after DELAY, and after the 36 µs of a diagnosis that takes the path now (R374, R380). -/
def State.hkNext (s : State) : State :=
  let diag := s.hk.diag.isSome && s.hk.diagFrom.isNone
  let t := s.hk.from_ + (hkEntryUs s.hk.cfg + if diag then 36 else 0) * ticksPerUs
  let x : Hk := { s.hk with from_ := t, diagFrom := if diag then some s.tick.wall else s.hk.diagFrom }
  State.hkSeek 130 (s.hk.entry + 1) { s with hk := x }

/-- HK_ENTRY_DONE: REPEAT + 1 conversions of the entry in progress end (R374). The Keep takes a system entry's result when it
runs. -/
def execHkEntryDone (raws : List (BitVec 16)) (s : State) : Res :=
  let n := s.hk.entry
  let slot := bits s.hk.cfg.toNat 0 7
  let fits := raws.length = bits s.hk.cfg.toNat 8 8 + 1
  if s.mode.mode ≠ .ship && s.flag R.HK_CTRL_START && s.flag R.HK_STAT_RUNNING && fits && s.hkConvEnd ≤ s.tick.wall then
    let (code, clip) := s.hkMean slot raws
    let w := code + s.get R.HK_STAT_LOOP * 65536 + 2 ^ 24 + (if clip then 2 ^ 25 else 0)
    let s := s.setReg (R.HK_RES n) (BitVec.ofNat 32 w)
    let s := if clip then s.count R.HK_CNT_CLIPS else s
    let s := if n ≤ 55 && s.keepRuns then s.slotResult slot code clip else s
    .next s.hkNext
  else .next s

/-- A write of `HK_CTRL` taking effect (R377, R379); a loop started during a calibration begins when it ends. -/
def State.hkCtrlWrite (s : State) (v : W32) : State :=
  let refuse (s : State) : State := s.raise 0x0904 0
  let s :=
    if v.getLsbD 0 then
      if s.hk.calFrom.isSome then s.hkStart.putFlag R.HK_STAT_RUNNING false else s.hkStart
    else if s.mode.mode = .service then (s.putFlag R.HK_CTRL_START false).putFlag R.HK_STAT_RUNNING false
    else refuse s
  if v.getLsbD 1 then
    if s.mode.mode = .field then refuse s
    else if s.hk.calFrom.isSome then s
    else
      let s := { s with hk := { s.hk with calFrom := some s.tick.wall } }
      (s.putFlag R.HK_STAT_CAL_BUSY true).putFlag R.HK_STAT_RUNNING false
  else s

/-- HK_START_WRITE: the landing of a write of START; the Keep applies it at its next decision boundary (R392). -/
def execHkStartWrite (start : Bool) (s : State) : Res :=
  if s.hostWritable then .next (s.queueWrite R.HK_CTRL (if start then 1 else 0)) else .next s

/-- HK_CAL: the landing of a write of 1 to CAL with START as it stands (R379, R392). -/
def execHkCal (s : State) : Res :=
  if s.hostWritable then .next (s.queueWrite R.HK_CTRL ((s.reg R.HK_CTRL &&& 1) ||| 2)) else .next s

/-- The expected reference code of a group (R379). -/
def calExpect (g : Nat) : Int := match g with | 0 => 16000 | 3 => 64000 | _ => 32000

/-- The factors of one group from its means R_gnd and R_ref, when it passes (R379). -/
def calGroup (g : Nat) (m : Int × Int) : Option (Int × Int) :=
  let gain := roundDiv (32768 * calExpect g) (m.2 - m.1)
  if 28672 ≤ gain ∧ gain ≤ 36864 ∧ m.1.natAbs ≤ 1024 then some (gain, m.1) else none

/-- The factors of a failed group: factory factors from Trim, or unity (R379). -/
def State.calFallback (s : State) (g : Nat) : (Int × Int) × State :=
  let (r, s) := s.trimBlock (min 126 (Config.trimPlace g))
  match r with
  | some ws => let (a, b) := Config.trimGroup ws g; ((a.toNat, b.toInt), s)
  | none => ((32768, 0), s)

/-- The factors of every group set from the means, with CAL_FAIL and the event (R379). -/
def State.calEnd (s : State) (means : List (Int × Int)) : State :=
  let one (g : Nat) (a : State × Nat) : State × Nat :=
    let (f, bad, s) : (Int × Int) × Nat × State := match calGroup g (means.getD g (0, 0)) with
      | some f => (f, 0, a.1)
      | none => let (f, s) := a.1.calFallback g; (f, 2 ^ g, s)
    ((s.put (R.HK_CAL_GAIN g) f.1.toNat).put (R.HK_CAL_OFFS g) (f.2 % 65536).toNat, a.2 + bad)
  let (s, bad) := (List.range 4).foldl (fun a g => one g a) (s, 0)
  let s := s.putFlag R.HK_STAT_CAL_FAIL (bad ≠ 0)
  if bad = 0 then s.raise 0x0900 0 else s.raise 0x0901 2 (BitVec.ofNat 32 bad)

/-- HK_CAL_DONE: 18.0 ms after its start the calibration ends; a loop that runs restarts at entry 0 (R379). -/
def execHkCalDone (means : List (Int × Int)) (s : State) : Res :=
  match s.hk.calFrom with
  | some t =>
    if t + 18 * ticksPerMs ≤ s.tick.wall then
      let s := { s with hk := { s.hk with calFrom := none } }
      let s := (s.putFlag R.HK_STAT_CAL_BUSY false).calEnd means
      .next (if s.flag R.HK_CTRL_START then s.hkRestart else s)
    else .next s
  | none => .next s

/-- BOOT_HK_SELF_CAL: step 0x07 (Table 02.4): the system entries stand, the calibration sets its factors, and the Keep sets
START (R376, R377, R379). -/
def execBootHkSelfCal (means : List (Int × Int)) (s : State) : Res :=
  if s.mode.starting && s.mode.bootStep = 7 && s.keepRuns && !s.mode.fault then
    let s := forAll (List.range 56) (fun n t => t.setReg (R.HK_CFG n) (regReset (R.HK_CFG n))) s
    .next ((s.calEnd means).hkStart.modMode fun m => { m with bootStep := 8 })
  else .next s

/-- A user entry written, with its DELAY reduced to keep the loop period within 50,000 µs (R374, R376). -/
def State.hkCfgWrite (s : State) (n : Nat) (v : W32) : State :=
  if n < 56 || 64 ≤ n then s
  else
    let slot := bits v.toNat 0 7
    let slot := if 0x60 ≤ slot then 0x7F else slot
    let w := withField (withField v ⟨0, 0, 7⟩ slot) ⟨0, 7, 1⟩ 0
    let others := s.hkPeriodUs - hkEntryUs (s.reg (R.HK_CFG n))
    let room := 50000 - (others + hkEntryUs (withField w ⟨0, 16, 16⟩ 0))
    if slot ≠ 0x7F && 50000 < others + hkEntryUs w then
      let s := (s.setReg (R.HK_CFG n) (withField w ⟨0, 16, 16⟩ room)).putFlag R.HK_STAT_CAPPED true
      s.hkPeriod.raise 0x0902 0 (BitVec.ofNat 32 n)
    else (s.setReg (R.HK_CFG n) w).hkPeriod

/-- HK_CFG_WRITE: the landing of a write of a user entry (R376, R392). -/
def execHkCfgWrite (n : Fin 64) (v : W32) (s : State) : Res :=
  if s.hostWritable then .next (s.queueWrite (R.HK_CFG n.val) v) else .next s

/-! ### Path diagnosis (R380, R381) -/

/-- A write of `HK_DIAG` taking effect (R380). -/
def State.hkDiagWrite (s : State) (v : W32) : State :=
  let s := (s.put R.HK_DIAG_CODE (bits v.toNat 0 10)).put R.HK_DIAG_SLOT (bits v.toNat 16 7)
  let slot := s.get R.HK_DIAG_SLOT
  if !v.getLsbD 31 then s
  else if (slotGroup slot).isNone || s.hk.diag.isSome || s.hk.calFrom.isSome then s.raise 0x0904 0
  else
    let x : Hk := { s.hk with diag := some (slot, s.get R.HK_DIAG_CODE),
                              diagFrom := if s.flag R.HK_STAT_RUNNING then none else some s.tick.wall }
    { s.putFlag R.HK_DIAG_RES_DONE false with hk := x }

/-- HK_DIAG_GO: the landing of a write of `HK_DIAG` with GO = 1 (R380, R392). -/
def execHkDiagGo (v : W32) (s : State) : Res :=
  if s.hostWritable then .next (s.queueWrite R.HK_DIAG (v ||| 0x80000000)) else .next s

/-- The diagnosis has held the path for its 36 µs; one that waits for an entry begins at once when the loop stops (R380). -/
def State.diagDue (s : State) : Bool :=
  match s.hk.diagFrom with
  | some t => decide (t + 36 * ticksPerUs ≤ s.tick.wall)
  | none => !s.flag R.HK_STAT_RUNNING

/-- HK_DIAG_DONE: 16 conversions of the test DAC on the slot's path (R380, R381). -/
def execHkDiagDone (raws : List (BitVec 16)) (s : State) : Res :=
  match s.hk.diag with
  | none => .next s
  | some (slot, code) =>
    if !s.diagDue then .next s else
    let (mean, _) := s.hkMean slot raws
    let e := roundDiv (code * 25 * 65536 : Nat) (10 * slotFs slot)
    let pass := 100 * ((mean : Int) - e).natAbs ≤ e.natAbs + 6400
    let s := { s with hk := { s.hk with diag := none, diagFrom := none } }
    let s := s.setReg R.HK_DIAG_RES (BitVec.ofNat 32 (mean + 2 ^ 16 + if pass then 2 ^ 17 else 0))
    .next (if pass then s else (s.count R.HK_CNT_DIAG_FAIL).raise 0x0903 2 (BitVec.ofNat 32 slot))

/-! ### The thermal monitor (R383 to R391) -/

/-- The THERMAL record of Table 15.5; `level` is 0xFF for a hardware shutdown. -/
def State.thermalPayload (s : State) (d : DieIx) (level : Nat) : List Byte :=
  let x := s.die[d]
  [BitVec.ofNat 8 d.val, BitVec.ofNat 8 level] ++ leBytes 2 ((x.t.getD 0) % 65536).toNat ++ leBytes 2 (x.rate % 65536).toNat
    ++ leBytes 8 (if s.mode.domeRun then s.now else 0)

/-- Highest thermal level of a die (Table 14.3). -/
def maxLevel (d : DieIx) : Nat := match d.val with | 0 => 1 | 1 => 2 | _ => 3

/-- The channels of a die wait for their next sample instant, as after a thaw (R387, R389). -/
def State.dieWaits (s : State) (die : StageDie) : State :=
  forAll (chansOfDie die) (fun c t => t.modStage c fun g => { g with waitSample := g.waitSample || !g.linkSafe }) s

/-- The stage die of a die index. -/
def stageOf (d : DieIx) : Option StageDie := if h : 2 ≤ d.val then some ⟨d.val - 2, by omega⟩ else none

/-- One sample of a die and its rate over 20 samples (R384). -/
def DieTh.sample (x : DieTh) : DieTh :=
  match x.t with
  | none => x
  | some t =>
    let ts := (t :: x.temps).take 21
    if ts.length = 21 then { x with temps := ts, valid := true, rate := satI 16 ((t - ts.getD 20 0) * 5) }
    else { x with temps := ts, valid := false }

/-- The rate of a die in its register. -/
def State.rateReg (s : State) (d : DieIx) : State :=
  s.put (if d.val % 2 = 0 then R.THM_RATE_R_LO (d.val / 2) else R.THM_RATE_R_HI (d.val / 2)) ((s.die[d]).rate % 65536).toNat

/-- The warning judged (R385). -/
def State.warnStep (s : State) (d : DieIx) : State :=
  let above := decide (((s.get (R.THM_LIM_WARN d.val) : Nat) : Int) < (s.die[d]).rate)
  let s := s.modDie d fun x => { x with warnRun := runLen above x.warnRun, warnClr := runLen (!above) x.warnClr,
                                        holdFrom := if above then none else some (x.holdFrom.getD s.now) }
  let x := s.die[d]
  if 3 ≤ x.warnRun && !x.warn then
    ((s.modDie d fun x => { x with warn := true }).count R.THM_CNT_WARNS).raise 0x0A00 0 (BitVec.ofNat 32 d.val)
  else if 3 ≤ x.warnClr && x.warn then s.modDie d fun x => { x with warn := false }
  else s

/-- Trips judged (R385, R386): an evaluation counts only 1 s or more after the last change of level. -/
def State.tripStep (s : State) (d : DieIx) : State :=
  let x := s.die[d]
  let ripe := match x.levelAt with
    | some t => t + ticksPerS ≤ s.now
    | none => true
  let above := decide (((s.get (R.THM_LIM_TRIP d.val) : Nat) : Int) < x.rate)
  let s := s.modDie d fun x => { x with tripRun := runLen (above && ripe) x.tripRun }
  let level := x.level.toNat + 1
  if 3 ≤ (s.die[d]).tripRun && level ≤ maxLevel d then
    let s := s.modDie d fun x => { x with level := BitVec.ofNat 2 level, levelAt := some s.now, tripRun := 0 }
    let s := s.count R.THM_CNT_TRIPS
    let s := (s.siltPush 2 0 0x0A01 (s.thermalPayload d level)).raise 0x0A01 0 (BitVec.ofNat 32 (d.val + 256 * level))
    if d.val ≠ 1 && level = 3 then s.raise 0x0A03 2 (BitVec.ofNat 32 d.val)
    else if d.val = 1 && level = 2 then s.modPower fun p => { p with gatesOn := s.gatesMay s.chgState }
    else s
  else s

/-- One die at a rate evaluation: the sensor fault of R383 first. -/
def State.thermalOne (s : State) (d : DieIx) : State :=
  let s := s.sensorStep d
  if (s.die[d]).sensor then s
  else
    let s := (s.modDie d DieTh.sample).rateReg d
    if (s.die[d]).valid then (s.warnStep d).tripStep d else s

/-- THERMAL_RATE_SAMPLE: every 10 ms, while the loop and the Keep run (R377, R384 to R386, R391). -/
def execThermalRateSample (s : State) : Res :=
  if s.keepRuns && s.clockOn && s.flag R.HK_CTRL_START && s.paced s.pace.rate (10 * ticksPerMs) then
    .next (forAll allDies (fun d t => t.thermalOne d) { s with pace := { s.pace with rate := some s.tick.wall } })
  else .next s

/-- THERMAL_LEVEL_FALL: the rate at or below WARN for HOLD_S seconds; level 3 also needs T below 140 °C (R387). -/
def execThermalLevelFall (d : DieIx) (s : State) : Res :=
  let x := s.die[d]
  let level := x.level.toNat
  match x.holdFrom with
  | some t =>
    let cool := level ≠ 3 || decide ((x.t.getD 0) < 140 * 64)
    if s.keepRuns && s.clockOn && level ≠ 0 && cool && t + s.get R.THM_CFG_HOLD_S * ticksPerS ≤ s.now then
      let s := s.modDie d fun x => { x with level := BitVec.ofNat 2 (level - 1), levelAt := some s.now, holdFrom := some s.now }
      let s := (s.siltPush 2 0 0x0A02 (s.thermalPayload d (level - 1))).raise 0x0A02 0 (BitVec.ofNat 32 (d.val + 256 * (level - 1)))
      let s := match stageOf d with
        | some p => if level = 3 then s.dieWaits p else s
        | none =>
          if d.val = 1 && level = 2 then
            s.modPower fun p => { p with gatesOn := s.gatesMay s.chgState }
          else s
      .next s
    else .next s
  | none => .next s

/-- The windows start again after a freeze of D ticks or a Keep restart; levels, warnings and hold timers are kept (R391). -/
def State.rateRestart (s : State) (d : Nat) : State :=
  { s with die := s.die.map fun (x : DieTh) =>
      { x with temps := [], valid := false, warnRun := 0, warnClr := 0, tripRun := 0, holdFrom := x.holdFrom.map (· + d),
               levelAt := x.levelAt.map (· + d) } }

/-! ### Hardware shutdown (R388 to R390) -/

/-- STAGE_THERMAL_SHUTDOWN: every switch of the die's channels off at rank 1 (R389). -/
def execStageThermalShutdown (die : StageDie) (s : State) : Res :=
  let d := dieIxOf die
  if s.mode.mode = .ship || (s.die[d]).shutAt.isSome then .next s
  else
    let s := (s.modDie d fun x => { x with shutAt := some s.tick.wall }).count R.THM_CNT_HW_SHUTS
    let s := s.siltPush 2 2 0x0A04 (s.thermalPayload d 0xFF)
    .next (s.raiseSrc ⟨0x20 + die.val, by omega⟩ 0x0A04 2 (BitVec.ofNat 32 d.val) true)

/-- STAGE_THERMAL_RELEASE: 1 s after the trip or later, on the comparator's release (R389). -/
def execStageThermalRelease (die : StageDie) (s : State) : Res :=
  let d := dieIxOf die
  match (s.die[d]).shutAt with
  | some t =>
    if t + ticksPerS ≤ s.tick.wall then
      .next (((s.modDie d fun x => { x with shutAt := none }).dieWaits die).raise 0x0A05 0 (BitVec.ofNat 32 d.val))
    else .next s
  | none => .next s

/-- `THM_DSTATd` (Table 14.7). -/
def State.thmDstat (s : State) (d : DieIx) : W32 :=
  let x := s.die[d]
  let b (v : Bool) (k : Nat) : Nat := if v then 2 ^ k else 0
  BitVec.ofNat 32 (x.level.toNat + b x.warn 2 + b x.shutAt.isSome 3 + b x.sensor 4 + b x.valid 5)

end Sys2Proof.Machine
end

