-- ==== Sys2Proof/Machine/Faults.lean ====
section
/-! DEFINITION. The fault collector, the fault state, `ERR_N`, the Keep's lockstep restart and the Silt log
(15_faults_freeze_debug.md, R395 to R406; 01_architecture.md, R23 to R25; R390). -/

namespace Sys2Proof.Machine

/-! ### Fault pairs (R395, R396, R498) -/

/-- Code, class and data of the event that a source raises at a qualification (Table 15.1); none for a reserved source. A rail whose
latest sample lies above the OV fault level raises the OV event (DEDUCED, assumption 54). The Keep lockstep source is `keepMismatch`. -/
def State.srcEvent (s : State) (src : Nat) : Option (BitVec 16 × BitVec 2 × Nat) :=
  if h : src < 0x20 then
    let c : Ch := ⟨8 * src, by omega⟩
    some (chCode c 0x57, 3, c.val)
  else if src < 0x40 then some (0x0A04, 2, src - 0x20 + 2)
  else if src < 0x42 then some (0x0A06, 3, src - 0x40)
  else if src = 0x43 then some (0x0606, 2, 0)
  else if src = 0x44 then some (0x060F, 2, 0)
  else if h : 0x45 ≤ src ∧ src ≤ 0x4E then
    let r : Rail := ⟨src - 0x45, by omega⟩
    if 1 ≤ s.rail[r].ovF then some (0x0806, 3, r.val)
    else some (0x0805, if s.railGet (R.RAIL_CFG_CRIT r) = 1 then 3 else 2, r.val)
  else if src = 0x50 then some (0x0B03, 3, 0)
  else if src = 0x51 then some (0x0B04, 3, 0)
  else if src = 0x52 then some (0x0B0B, 3, ((List.finRange 24).find? fun q => 17 ≤ q.val && (s.arb.rq[q]).failed).elim 17 (·.val))
  else if 0x53 ≤ src && src ≤ 0x62 then some (0x0B05, 3, src - 0x53)
  else if src = 0x63 then some (0x0B06, 3, 0)
  else none

/-- A Keep lockstep mismatch (R25): the Keep restarts, or a second mismatch within 60 s of a restart is an F3 with no second
restart (Table 01.7). The class taken is returned. -/
def State.keepMismatch (s : State) (broken : Bool) : BitVec 2 × State :=
  let second : Bool := match s.mode.mismatchAt with
    | some t => s.tick.wall < t + 60 * ticksPerS
    | none => false
  if second then (3, (s.srcRaised 0x42 0x0B02 3).raiseWith 0x0B02 3 0 { src := 0x42, broken := broken })
  else
    let s := (s.modMode fun m => { m with keep := .restart, mismatchAt := some s.tick.wall }).srcRaised 0x42 0x0B01 2
    (2, s.raiseWith 0x0B01 2 0 { src := 0x42, broken := broken })

/-- The latch bit of a source. -/
def State.latchSrc (s : State) (src : Fin 128) (broken : Bool) : State :=
  let s := s.put ⟨R.FLT_LATCH (src.val / 32), src.val % 32, 1⟩ 1
  if broken then s.put ⟨R.FLT_BROKEN (src.val / 32), src.val % 32, 1⟩ 1 else s

/-- A qualified source: its latch bit, and the action of its class once for the qualification (R396). An event that the
owning row has raised is not raised again; a broken pair adds event 0x0B00 in the class that the source's event took (R498). -/
def State.qualify (s : State) (src : Fin 128) (broken : Bool) : State :=
  let seen := s.flt.active.contains src || s.flt.told.contains src
  let s := s.latchSrc src broken
  let s := { s with flt := { s.flt with
      active := if s.flt.active.contains src then s.flt.active else src :: s.flt.active
      brokenActive := if broken then src :: s.flt.brokenActive else s.flt.brokenActive } }
  let s :=
    if seen then s
    else if src.val = 0x42 then (s.keepMismatch broken).2
    else match s.srcEvent src.val with
      | none => s
      | some (code, cls, d) =>
        (s.srcRaised src code cls).raiseWith code cls (BitVec.ofNat 32 d) { src := src.val, broken := broken }
  let cls := ((s.flt.evt.find? (·.1 = src)).map (·.2.2)).getD 0
  if broken then s.raise 0x0B00 cls (BitVec.ofNat 32 src.val) else s

/-- Sources of Table 15.1 that are not reserved. -/
def State.isSource (s : State) (src : Fin 128) : Bool := src.val = 0x42 || (s.srcEvent src.val).isSome

/-- FAULT_PAIR_QUALIFY: the fault code held for 3 samples (R395, R396). -/
def execFaultPairQualify (src : Fin 128) (s : State) : Res :=
  if s.mode.mode = .ship || !s.isSource src || s.flt.active.contains src then .next s else .next (s.qualify src false)

/-- FAULT_PAIR_BROKEN: an invalid code held for 1 µs (R395, R396). -/
def execFaultPairBroken (src : Fin 128) (s : State) : Res :=
  if s.mode.mode = .ship || !s.isSource src || s.flt.brokenActive.contains src then .next s else .next (s.qualify src true)

/-- FAULT_PAIR_CLEARED: the source may be acted on again (R396). -/
def execFaultPairCleared (src : Fin 128) (s : State) : Res :=
  .next { s with flt := { s.flt with active := s.flt.active.filter (· ≠ src), brokenActive := s.flt.brokenActive.filter (· ≠ src),
                                     told := s.flt.told.filter (· ≠ src), evt := s.flt.evt.filter (·.1 ≠ src) } }

/-- KEEP_LOCKSTEP_MISMATCH: the outputs of the two Keep cores differ (R25, R23). -/
def execKeepLockstepMismatch (s : State) : Res :=
  if s.mode.keep = .run && !s.flt.told.contains 0x42 then
    let done := s.flt.active.contains 0x42
    let s := { s with flt := { s.flt with told := 0x42 :: s.flt.told } }
    .next (if done then s else (s.keepMismatch false).2)
  else .next s

/-- KEEP_RESTART_DONE: the Keep is back (R25), or halts where the reference has been lost (R19); the rate windows start again (R391). -/
def execKeepRestartDone (s : State) : Res :=
  if s.mode.keep = .restart then
    let s := (s.modMode fun m => { m with keep := if m.refLost then .halted else .run, refLost := false }).rateRestart 0
    .next { s with flt := { s.flt with told := s.flt.told.filter (· ≠ 0x42), active := s.flt.active.filter (· ≠ 0x42),
                                       evt := s.flt.evt.filter (·.1 ≠ 0x42) } }
  else .next s

/-! ### The fault state (R37, R38, R398, R399) -/

/-- Steps 2 to 5 of Table 15.3: the cause is recorded once, HOLD is set, every channel is at rank 3 by the FAULT bit, and the
charger gates go off outside bus-keep operation. A move is abandoned (R33); its MODE_REQ completes with status 0x24. -/
def State.faultEnter (s : State) (f : F3Cause) : State :=
  let w := ((s.put R.FLT_STAT_F3_CODE f.code.toNat).put R.FLT_STAT_SRC f.src).putFlag R.FLT_STAT_BROKEN f.broken
  let s := (w.putFlag R.FLT_ERR_CTRL_HOLD true).putFlag R.FLT_ERR_CTRL_LOW true
  let s := match s.mode.move with
    | some m => match m.req with
      | some (q, tag) =>
        let sq := match (s.hp.rings[q]).exec with
          | some x => x.slot
          | none => 0
        s.complete q tag sq 0x24 0
      | none => s
    | none => s
  let early := s.mode.starting && !s.seqr.active
  let s := s.modMode fun m => { m with fault := true, f3Pend := [], move := none, keyoffWait := false }
  let s := (s.putFlag R.SEQ_STAT_STOPPING false)
  let s := if s.inBuskeep then s else (s.putFlag R.CHG_STAT_CHG_N false).modPower fun p => { p with gatesOn := false }
  if early && f.src ≠ 0x40 && f.src ≠ 0x41 && f.src ≠ 0x45 then s.bootAux0 else s

/-- FAULT_STATE_ENTRY: the oldest F3 not yet taken enters the fault state (R398), from any mode except SHIP (R37). In a
freeze the thaw comes first (R414). -/
def execFaultStateEntry (s : State) : Res :=
  match s.mode.f3Pend with
  | f :: _ => if s.mode.mode = .ship || s.mode.fault || s.mode.frozen then .next s else .next (s.faultEnter f)
  | [] => .next s

/-- CORE_THERMAL_SHUTDOWN: the comparator of the Dome or the Turret trips (R390); the link goes down with the Dome core rail
(Table 01.4). -/
def execCoreThermalShutdown (turret : Bool) (s : State) : Res :=
  let d : DieIx := if turret then 1 else 0
  if s.mode.mode = .ship || (s.die[d]).shutAt.isSome then .next s
  else
    let s := (s.modDie d fun x => { x with shutAt := some s.tick.wall }).count R.THM_CNT_HW_SHUTS
    let s := s.raiseSrc (if turret then 0x41 else 0x40) 0x0A06 3 (BitVec.ofNat 32 d.val)
    let keepBus := s.inBuskeep && !turret
    let s := if keepBus then s else (s.putFlag R.CHG_STAT_CHG_N false).modPower fun p => { p with gatesOn := false }
    let s := if turret then s.railsOff else s
    let s := (s.modArb fun a => { a with tenure := none }).modHp fun h => { h with linkUp := false, speed := 0, width := 0 }
    .next (s.modMode fun m => { m with domeOn := false, domeRun := false, keep := .off })

/-! ### `ERR_N` (R400) -/

/-- The level driven: low in a pulse and while HOLD = 1. -/
def State.errLevel (s : State) : State :=
  s.putFlag R.FLT_ERR_CTRL_LOW (s.flt.pulseUntil.isSome || s.flag R.FLT_ERR_CTRL_HOLD)

/-- ERR_N_PULSE_END: PULSE_US after the latest trigger (R400). -/
def execErrNPulseEnd (s : State) : Res :=
  match s.flt.pulseUntil with
  | some t => if t ≤ s.tick.wall then .next { s with flt := { s.flt with pulseUntil := none } }.errLevel else .next s
  | none => .next s

/-! ### The Silt log (R401 to R406) -/

/-- Bytes 0 to 55 of a record (Table 15.4). -/
def siltHead (seq : W32) (b : SiltBody) : List Byte :=
  leBytes 4 seq.toNat ++ leBytes 4 b.time.toNat ++ leBytes 2 b.pon.toNat ++ [b.type, b.cls.setWidth 8] ++ leBytes 2 b.code.toNat
    ++ [0, 0] ++ slice b.payload 0 40

/-- A committed record, 64 bytes (Table 15.4). -/
def siltRecord (seq : W32) (b : SiltBody) : List Byte :=
  let h := siltHead seq b
  h ++ leBytes 4 (crc32 h).toNat ++ [0, 0, 0, 0]

/-- The valid records by slot. -/
def Silt.valids (x : Silt) : List (Nat × W32 × SiltBody) :=
  x.slots.toList.zipIdx.filterMap fun p => match p.1 with
    | .valid q b => some (p.2, q, b)
    | _ => none

/-- The records oldest first, which is the order of their SEQ. -/
def Silt.ordered (x : Silt) : List (W32 × SiltBody) :=
  (x.valids.map (·.2)).foldl (fun l r => l.takeWhile (·.1 < r.1) ++ r :: l.dropWhile (·.1 < r.1)) []

/-- `SILT_STAT` (Table 15.11). -/
def State.siltStat (s : State) : W32 :=
  let x := s.silt
  BitVec.ofNat 32 ((if x.valids = [] then 0 else x.head) + 512 * x.valids.length + 2 ^ 19 * satU 8 x.torn
    + if x.writing.isSome then 2 ^ 27 else 0)

/-- SILT_RECORD_WRITE_DONE: the record is committed, or, when its read-back differs, written once more into the next slot with
event 0x0B0A (R402). -/
def execSiltRecordWriteDone (ok : Bool) (s : State) : Res :=
  match s.silt.writing with
  | none => .next s
  | some (b, second) =>
    let slot := (s.silt.head + (if second then 2 else 1)) % 512
    if ok then
      let seq := s.silt.seq + 1
      let s := s.modSilt fun x =>
        { x with slots := x.slots.set (slot % 512) (.valid (BitVec.ofNat 32 seq) b) (Nat.mod_lt _ (by decide)), head := slot, seq := seq,
                 writing := none }
      .next s.siltStart
    else
      let s := s.modSilt fun x => if second then { x with writing := none } else x.begin b true
      .next ((s.raise 0x0B0A 2 (BitVec.ofNat 32 slot)).siltStart)

/-- TURRET_SUPPLY_LOW: the supply falls below 8.5 V; a write in progress is abandoned without COMMIT, and none starts until the supply
is back (R403). No row tells of a fall below 9.0 V that stays above 8.5 V (assumption 88). -/
def execTurretSupplyLow (s : State) : Res := .next (s.modSilt fun x => { x with supplyLow := true, writing := none })

/-- TURRET_SUPPLY_RETURN: at 9.0 V or more writes may start again (R403). -/
def execTurretSupplyReturn (s : State) : Res := .next (s.modSilt fun x => { x with supplyLow := false }).siltStart

/-- The scan of step 0x01 (R404): the newest record, the torn slots, and event 0x0B07. -/
def State.siltScan (s : State) : State :=
  let v := s.silt.valids
  let newest := v.foldl (fun (a : Option (Nat × W32)) r => match a with
    | some x => if x.2 < r.2.1 then some (r.1, r.2.1) else a
    | none => some (r.1, r.2.1)) none
  let torn := (s.silt.slots.toList.filter fun x => x = .torn).length
  let s := s.modSilt fun x => match newest with
    | some (h, q) => { x with head := h, seq := q.toNat, torn := torn }
    | none => { x with head := 511, seq := 0, torn := torn }
  if torn = 0 then s else s.raise 0x0B07 0 (BitVec.ofNat 32 torn)

/-- The lend of a tag. -/
def State.lendOf (s : State) (tag : W32) : Option Lend := s.hp.lends.find? fun l => l.tag = tag

/-- Data cut into writes of at most `m` bytes (assumption 19). -/
def chunks (m addr : Nat) (bs : List Byte) : List (Nat × List Byte) :=
  (List.range ((bs.length + m - 1) / m)).map fun k => (addr + m * k, (bs.drop (m * k)).take m)

/-- Max Payload Size as Device Control sets it (R261). -/
def State.maxPayload (s : State) : Nat := if s.hp.pci.payload256 then 256 else 128

/-- Data queued for a requester. -/
def State.pushData (s : State) (rq : Rq) (job : Job) (ltag : W32) (addr : Nat) (bs : List Byte) : State :=
  s.modArb fun a => { a with data := a.data ++ (chunks s.maxPayload addr bs).map fun c => ⟨rq, job, ltag, c.1, c.2⟩ }

/-- Max Read Request Size in effect: the lesser of 512 B and Device Control (R261). -/
def State.maxRead (s : State) : Nat := clampN 128 512 s.hp.pci.readReq

/-- The read requests for `n` bytes of a lent buffer, for A17 (R261, R291). -/
def State.pushReads (s : State) (ltag : W32) (off n : Nat) : State :=
  match s.lendOf ltag with
  | none => s
  | some l =>
    let m := s.maxRead
    s.modArb fun a => { a with reads := a.reads ++ (List.range ((n + m - 1) / m)).map fun k =>
      ⟨ltag, l.addr.toNat + off + m * k, min m (n - m * k)⟩ }

/-- A write of 1 to `SILT_COPY_CTRL.GO` (R405). -/
def State.siltCopyGo (s : State) : State :=
  let tag := s.reg R.SILT_COPY
  if s.silt.copy.isSome then s
  else match s.lendOf tag with
    | some l =>
      if l.ring = 16 then
        let recs := (s.silt.ordered.take (l.len / 64)).map fun r => siltRecord r.1 r.2
        let s := (s.modSilt fun x => { x with copy := some (tag, recs.length) }).putFlag R.SILT_COPY_CTRL_DONE false
        let wr : List DataWr := recs.zipIdx.map fun p => ⟨22, .silt, tag, l.addr.toNat + 64 * p.2, p.1⟩
        s.modArb fun a => { a with data := a.data ++ wr }
      else s.raise 0x0B09 0 tag
    | none => s.raise 0x0B09 0 tag

/-- SILT_COPY_GO: the landing of that write. -/
def execSiltCopyGo (s : State) : Res := if s.hostWritable then .next s.siltCopyGo else .next s

/-- The copy ends with the records written so far (R405, R283). -/
def State.siltCopyEnd (s : State) : State :=
  match s.silt.copy with
  | none => s
  | some (_, n) =>
    let left := (s.arb.data.filter fun d => d.job = .silt).length
    let s := (s.modSilt fun x => { x with copy := none }).modArb fun a => { a with data := a.data.filter fun d => d.job ≠ .silt }
    let s := (s.putFlag R.SILT_COPY_CTRL_DONE true).put R.SILT_COPY_CTRL_COUNT (n - left)
    s.raise 0x0B08 0 (BitVec.ofNat 32 (n - left))

/-- SILT_COPY_DONE: A22 has written every record (R405). -/
def execSiltCopyDone (s : State) : Res :=
  let sending := match s.arb.tenure with
    | some (_, _, .data d) => d.job = .silt
    | _ => false
  if s.clockOn && s.silt.copy.isSome && !sending && !s.arb.data.any (fun d => d.job = .silt) then .next s.siltCopyEnd else .next s

/-- A write of 1 to `SILT_COPY_CTRL.ERASE`: honoured in SERVICE only (R406). -/
def State.siltErase (s : State) : State :=
  if s.mode.mode = .service then
    s.modSilt fun x => { x with erasing := true, slots := x.slots.map fun y => if y = .erased then .erased else .torn }
  else s.raise 0x0B09 0

/-- SILT_ERASE: the landing of that write. -/
def execSiltErase (s : State) : Res := if s.hostWritable then .next s.siltErase else .next s

/-- SILT_ERASE_DONE: every slot is erased, and SEQ continues (R406). -/
def execSiltEraseDone (s : State) : Res :=
  if s.silt.erasing then
    .next (s.modSilt fun x => { x with erasing := false, slots := Vector.replicate 512 .erased, head := 511 }).siltStart
  else .next s

end Sys2Proof.Machine
end

