-- ==== Sys2Proof/Machine/Rings.lean ====
section
/-! DEFINITION. Rings, doorbells, lent buffers, the completion entries on their way to the host, MSI-X, and the host-port
arbiter with its watchdog and the relief agent (10_host_rings.md, R261 to R290; 11_arbiter_snapshots_trace.md, R291 to
R296; 09_takeover_and_limp.md, R256 to R258). A TLP is sent when its tenure ends, which is the next grant. -/

namespace Sys2Proof.Machine

/-! ### Ring state (R268 to R270) -/

/-- `Qn_CFG.EN`. -/
def State.ringOn (s : State) (q : Ring) : Bool := s.flag (R.Q_CFG_EN q)

/-- (a - b) mod size. -/
def ringDist (a b size : Nat) : Nat := (a + size - b % size) % size

/-- A completion ring is full (R270). -/
def State.ringFull (s : State) (q : Ring) : Bool :=
  let r := s.hp.rings[q]
  20 ≤ q.val && (r.pi + 1) % s.ringSize q = r.ci

/-- The module may issue requests (R262, R409). -/
def State.portUp (s : State) : Bool := s.clockOn && s.hp.busMaster && !s.hp.d3hot && s.hp.linkUp

/-- A completion ring can take entries (R278). -/
def State.cqReady (s : State) (k : Fin 4) : Bool :=
  let q := cqRing k
  s.portUp && s.ringOn q && !(s.hp.rings[q]).halted && !s.ringFull q

/-- `Qn_STAT` (Table 10.17). -/
def State.ringStat (s : State) (q : Ring) : W32 :=
  let r := s.hp.rings[q]
  let b (v : Bool) (k : Nat) : Nat := if v then 2 ^ k else 0
  BitVec.ofNat 32 (b r.halted 0 + b r.stalled 1 + b (s.ringFull q) 2 + b (q.val < 20 || r.phase) 3 + r.why.toNat * 256)

/-- Tags lent to a ring. -/
def State.lendsOf (s : State) (q : Ring) : Nat := (s.hp.lends.filter fun l => l.ring = q).length

/-- A message asked of A23 on a vector (R285). -/
def State.msixAsk (s : State) (v : Nat) : State := s.modHp fun h => { h with msixPend := h.msixPend ++ [v] }

/-- A ring halted for a violation (R287): HP_VIOL, event 0x0200 and the halt message. -/
def State.haltRing (s : State) (q : Ring) (why : Byte) : State :=
  let s := s.modRing q fun r => { r with halted := true, why := why }
  let s := (s.put R.HP_VIOL_RING q.val).put R.HP_VIOL_WHY why.toNat
  let s := s.raise 0x0200 0 (BitVec.ofNat 32 (q.val + why.toNat * 256))
  if s.flag R.HP_ERR_VEC_EN then s.msixAsk (s.get R.HP_ERR_VEC_VEC) else s

/-! ### Doorbells and BAR2 writes (R264, R269, R270, Table 10.14) -/

/-- A doorbell discarded: counted, with event 0x0202. -/
def State.dbDiscard (s : State) (reason : Nat) (ring : Nat) : State :=
  (s.count R.HP_CNT_DB_DISC).raise 0x0202 0 (BitVec.ofNat 32 (reason + ring * 256))

/-- A submission doorbell's value judged (R269): accepted, or the WHY of Table 10.14. -/
def RingSt.subCheck (r : RingSt) (size v : Nat) : Option Byte :=
  if 4096 ≤ v || size ≤ v then some 1
  else if ringDist v r.ci size < ringDist r.pi r.ci size then some 2
  else none

/-- A completion doorbell's value judged (R270). -/
def RingSt.cplCheck (r : RingSt) (size v : Nat) : Option Byte :=
  if 4096 ≤ v || size ≤ v || ringDist r.pi r.ci size < ringDist v r.ci size then some 3 else none

/-- An accepted doorbell. -/
def State.dbAccept (s : State) (q : Ring) (v : W32) : State :=
  s.modRing q fun r =>
    if q.val < 20 then { r with pi := v.toNat, lastDb := v }
    else
      let full := (r.pi + 1) % s.ringSize q = v.toNat
      { r with ci := v.toNat, lastDb := v, fullSince := if full then r.fullSince else none, fullTold := full && r.fullTold }

/-- A doorbell write applied to its ring (R269, R270, R287, R288). -/
def State.doorbell (s : State) (q : Ring) (v : W32) (be : BitVec 4) : State :=
  let r := s.hp.rings[q]
  let size := s.ringSize q
  let chk := if q.val < 20 then r.subCheck size v.toNat else r.cplCheck size v.toNat
  if !s.ringOn q then s.dbDiscard 2 q.val
  else if be ≠ 15 then s.dbDiscard 3 q.val
  else match chk with
    | none => s.dbAccept q v
    | some why => if r.halted then s.dbDiscard 5 q.val else s.haltRing q why

/-- A 32-bit write into the MSI-X table (Table 10.2), with its byte enables. -/
def MsixEnt.write (e : MsixEnt) (word : Nat) (v : W32) (be : BitVec 4) : MsixEnt :=
  let m : W32 := (List.range 4).foldl (fun m k => if be.getLsbD k then m ||| (0xFF <<< (8 * k)) else m) 0
  let mix (old : W32) : W32 := (old &&& ~~~m) ||| (v &&& m)
  match word with
  | 0 => { e with addr := e.addr.extractLsb' 32 32 ++ (mix (e.addr.extractLsb' 0 32) &&& 0xFFFFFFFC) }
  | 1 => { e with addr := mix (e.addr.extractLsb' 32 32) ++ e.addr.extractLsb' 0 32 }
  | 2 => { e with data := mix e.data }
  | _ => { e with masked := (mix (if e.masked then 1 else 0)).getLsbD 0 }

/-- A vector's message is held back: by its own mask or by the function mask (R285). -/
def State.msixMasked (s : State) (n : Fin 32) : Bool := s.hp.pci.msixMask || (s.hp.msix[n]).masked

/-- A message that became pending while masked is asked for once nothing masks it. -/
def State.msixRelease (s : State) (n : Fin 32) : State :=
  if (s.hp.msix[n]).pending && !s.msixMasked n then
    (s.modHp fun h => { h with msix := upd h.msix n fun e => { e with pending := false } }).msixAsk n.val
  else s

/-- A write to the MSI-X table. -/
def State.msixWrite (s : State) (off : Nat) (v : W32) (be : BitVec 4) : State :=
  let n : Fin 32 := ⟨(off - 0x800) / 16 % 32, Nat.mod_lt _ (by decide)⟩
  (s.modHp fun h => { h with msix := upd h.msix n fun e => e.write (off % 16 / 4) v be }).msixRelease n

/-- A 32-bit word of BAR2 (R264, Table 10.2): a doorbell shows the value that it accepted last; outside the table 0. -/
def State.bar2Word (s : State) (off : Nat) : W32 :=
  if h : off < 0xC0 then if off % 8 = 0 then (s.hp.rings[(⟨off / 8, by omega⟩ : Ring)]).lastDb else 0
  else if 0x800 ≤ off && off < 0xA00 then
    let e := s.hp.msix[(⟨(off - 0x800) / 16 % 32, Nat.mod_lt _ (by decide)⟩ : Fin 32)]
    match off % 16 / 4 with
    | 0 => e.addr.extractLsb' 0 32
    | 1 => e.addr.extractLsb' 32 32
    | 2 => e.data
    | _ => if e.masked then 1 else 0
  else if off = 0xC00 then
    BitVec.ofNat 32 ((List.finRange 32).foldl (fun a n => a + if (s.hp.msix[n]).pending then 2 ^ n.val else 0) 0)
  else 0

/-- A 32-bit write to BAR2 (Table 10.2). During a freeze the latest doorbell of each ring is latched (Table 10.3). -/
def State.bar2Write (s : State) (off : Nat) (v : W32) (be : BitVec 4) : State :=
  if 0x800 ≤ off && off < 0xA00 then s.msixWrite off v be
  else if 0xC0 ≤ off && off < 0x800 then (if s.mode.frozen then s else s.dbDiscard 1 0xFF)
  else if h : off < 0xC0 ∧ off % 8 = 0 then
    let q : Ring := ⟨off / 8, by omega⟩
    if s.mode.frozen then s.modHp fun x => { x with latched := x.latched.filter (·.q ≠ q) ++ [⟨q, v, be⟩] }
    else s.doorbell q v be
  else s

/-- SUBMISSION_DOORBELL (R269). -/
def execSubmissionDoorbell (off : BitVec 12) (v : W32) (be : BitVec 4) (s : State) : Res :=
  if s.mode.domeRun then .next (s.bar2Write off.toNat v be) else .next s

/-- COMPLETION_DOORBELL (R270). -/
def execCompletionDoorbell (off : BitVec 12) (v : W32) (be : BitVec 4) (s : State) : Res :=
  if s.mode.domeRun then .next (s.bar2Write off.toNat v be) else .next s

/-- Doorbells latched in a freeze, applied at the thaw in ascending ring number (Table 10.3). -/
def State.applyLatched (s : State) : State :=
  let l := s.hp.latched
  let s := s.modHp fun h => { h with latched := [] }
  forAll allRings (fun q t => match l.find? (fun x => x.q = q) with
    | some x => t.doorbell q x.value x.be
    | none => t) s

/-- RING_RESUME: HALTED cleared; a completion ring counts every written entry as consumed (R288). -/
def State.ringResume (s : State) (q : Ring) : State :=
  if (s.hp.rings[q]).halted then
    (s.modRing q fun r =>
      { r with halted := false, ci := if q.val < 20 then r.ci else r.pi,
               fullSince := if q.val < 20 then r.fullSince else none }).raise 0x0201 0 (BitVec.ofNat 32 q.val)
  else s

/-- RING_RESUME: the landing of a write of 1 to `Qn_CTRL.RESUME`. -/
def execRingResume (q : Ring) (s : State) : Res := if s.hostWritable then .next (s.ringResume q) else .next s

/-! ### Lent buffers (R280 to R284, R304) -/

/-- Data of a job are still to be sent. -/
def State.dataLeft (s : State) (j : Job) : Bool :=
  s.arb.data.any (·.job = j) || match s.arb.tenure with
    | some (_, _, .data d) => d.job = j
    | _ => false

/-- EDDY_STRM.EN cleared with what waits to be streamed. -/
def State.streamOff (s : State) : State := (s.putFlag R.EDDY_STRM_EN false).modArb fun a => { a with streamQ := [] }

/-- An Eddy copy ends: its engine stores records again (R303). -/
def State.eddyCopyEnd (s : State) (x : EddyCopy) (status : Byte) : State :=
  let more := (s.arb.copies.erase x).any (·.e = x.e)
  let s := (s.modEng x.e fun g => { g with eddy := { g.eddy with copying := more } }).modArb fun a =>
    { a with copies := a.copies.erase x, data := a.data.filter (·.job ≠ .eddy x.tag x.slot) }
  s.complete 18 x.tag x.slot status (BitVec.ofNat 64 x.held)

/-- A TLP in its tenure when its lend ends: it may finish, and is not started again (R283). No lend has tag 0 (Table 10.8). -/
def Tlp.orphan (tag : W32) : Tlp → Tlp
  | .data d => .data (if d.ltag = tag then { d with ltag := 0 } else d)
  | .read r => .read (if r.ltag = tag then { r with ltag := 0 } else r)
  | t => t

/-- The end of a lend: its uses stop, and the commands that used it complete with 0x08 (R283). -/
def State.endLend (s : State) (tag : W32) : State :=
  let s := s.modHp fun h => { h with lends := h.lends.filter (·.tag ≠ tag) }
  let s := if s.silt.copy.any (·.1 = tag) then s.siltCopyEnd else s
  let s := if s.flag R.EDDY_STRM_EN && s.reg R.EDDY_STRM_LTAG = tag then s.streamOff else s
  let s := (s.arb.copies.filter (·.ltag = tag)).foldl (fun s x => s.eddyCopyEnd x 8) s
  let snaps := (s.arb.snaps.filter (·.ltag = tag)) ++ (s.arb.images.map (·.req)).filter (·.ltag = tag)
  let s := s.modArb fun a => { a with snaps := a.snaps.filter (·.ltag ≠ tag), images := a.images.filter (·.req.ltag ≠ tag) }
  let s := snaps.foldl (fun s x => s.complete 19 x.tag x.slot 8 0) s
  let s := s.modArb fun a =>
    { a with reads := a.reads.filter (·.ltag ≠ tag), tenure := a.tenure.map fun t => (t.1, t.2.1, t.2.2.orphan tag) }
  let rc := s.rv.recvs.filter (·.ltag = tag)
  let s := s.modRv fun r => { r with recvs := r.recvs.filter (·.ltag ≠ tag) }
  let s := rc.foldl (fun s x => s.complete 16 x.tag x.slot 8 0) s
  s.modArb fun a => { a with data := a.data.filter (·.ltag ≠ tag) }

/-- Every tag of a ring reclaimed: how many there were (R268, R275). -/
def State.reclaimAll (s : State) (q : Ring) : Nat × State :=
  let tags := (s.hp.lends.filter (·.ring = q)).map (·.tag)
  (tags.length, tags.foldl (fun s t => s.endLend t) s)

/-- A write of `Qn_CFG` (R268, Table 10.17). -/
def State.qCfgWrite (s : State) (q : Ring) (v : W32) : State :=
  let was := s.ringOn q
  let on := v.getLsbD 4
  let s := if was then s else s.put (R.Q_CFG_SIZE_LOG2 q) (clampN 4 12 (bits v.toNat 0 4))
  let s := if was || 20 ≤ q.val then s else s.put (R.Q_CFG_CQ q) (bits v.toNat 5 2)
  let s := if q.val < 20 then s
    else ((s.put (R.Q_CFG_VEC q) (bits v.toNat 8 5)).put (R.Q_CFG_COAL_N q) (max 1 (bits v.toNat 16 8))).put (R.Q_CFG_COAL_US q)
      (bits v.toNat 24 8)
  let s := s.putFlag (R.Q_CFG_EN q) on
  if on && !was then
    s.modRing q fun r =>
      { r with pi := 0, ci := 0, phase := true, halted := false, stale := r.inFlight.isSome, fullSince := none, fullTold := false,
               coal := 0, coalAt := none }
  else if was && !on && (q.val = 16 || q.val = 18 || q.val = 19) then (s.reclaimAll q).2
  else s

/-- QN_CFG_WRITE: the landing of a write of `Qn_CFG`. -/
def execQnCfgWrite (q : Ring) (v : W32) (s : State) : Res := if s.hostWritable then .next (s.qCfgWrite q v) else .next s

/-- A write of `EDDY_STRM` (R304). -/
def State.eddyStrmWrite (s : State) (v : W32) : State :=
  let tag := s.reg R.EDDY_STRM_LTAG
  if v.getLsbD 0 then
    if (s.lendOf tag).any (·.ring = 18) then s.putFlag R.EDDY_STRM_EN true else s.streamOff.raise 0x0304 0 tag
  else s.streamOff

/-- EDDY_STRM_WRITE: the landing of that write. -/
def execEddyStrmWrite (v : W32) (s : State) : Res := if s.hostWritable then .next (s.eddyStrmWrite v) else .next s

/-! ### Requests (R271, R278, R291) -/

/-- Q16 and Q17 are not consumed while the Keep is not running (R19, R25). -/
def State.keepTakes (s : State) (q : Ring) : Bool := !(q.val = 16 || q.val = 17) || s.mode.keep = .run

/-- The next read request of a submission ring: its first slot and the number of slots (R261, R271). -/
def State.fetchWant (s : State) (q : Ring) : Option (Nat × Nat) :=
  let r := s.hp.rings[q]
  let size := s.ringSize q
  let n := min (min (min 8 (s.maxRead / 32)) (ringDist r.pi r.ci size)) (size - r.ci)
  if q.val < 20 && s.keepTakes q && s.portUp && s.ringOn q && !r.halted && !r.stalled && r.inFlight.isNone && s.cqReady (s.cqOf q) && n ≠ 0 then
    some (r.ci, n)
  else none

/-- The event ring (R286). -/
def State.evtCq (s : State) : Fin 4 := ⟨s.get R.HP_EVT_CFG_RING % 4, by omega⟩

/-- The earliest compare entry held for a ring that can take entries: its completion ring and tick, by tick and then by unit (R294). -/
def State.cmpNext (s : State) : Option (Nat × Nat × Fin 4) :=
  let all := (List.finRange 4).flatMap fun k => if s.cqReady k then (s.hp.cq[k]).filterMap fun x => match x.e with
    | .cmp _ _ u _ _ => some (x.at_, u.val, k)
    | _ => none else []
  all.foldl (fun (b : Option (Nat × Nat × Fin 4)) x => match b with
    | none => some x
    | some y => if x.1 < y.1 || (x.1 = y.1 && x.2.1 < y.2.1) then some x else b) none

/-- The entry at the front of a completion ring's queue is `rq`'s to write now. A21 takes the compare entries of all rings in their
order (R294). -/
def State.entryReady (s : State) (rq : Rq) (k : Fin 4) : Bool :=
  s.cqReady k && match (s.hp.cq[k]).head? with
    | none => false
    | some x => x.rq = rq && match x.e with
      | .cmp _ _ u _ _ => s.cmpNext.any fun y => y.1 = x.at_ && y.2.1 = u.val
      | _ => true

/-- An event or a loss entry may go: no compare entry of its tick, or of an earlier one, waits (R286, R294). -/
def State.eventReady (s : State) : Bool :=
  s.cqReady s.evtCq && (s.hp.events ≠ [] || s.hp.lost ≠ 0)
    && !s.cmpNext.any fun y => s.hp.events.head?.all fun e => decide (y.1 ≤ e.tick.toNat)

/-- A TLP that a bite has discarded can be started again (R295). -/
def State.redoOk (s : State) (rq : Rq) : Tlp → Bool
  | .data _ => false
  | .entry k => s.entryReady rq k
  | .event => s.eventReady
  | .stream => s.arb.streamQ ≠ []
  | .msix v => s.hp.msixPend.head? = some v
  | .fetch q => s.rqOf q = rq && (s.fetchWant q).isSome
  | .read r => s.arb.reads.head? = some r

/-- What a requester would send next: the TLP that it starts again, else data and lent-buffer reads, entries in their order, events,
stream records, then fetches. -/
def State.nextTlp (s : State) (rq : Rq) : Option Tlp :=
  if !s.portUp || (s.arb.rq[rq]).failed then none
  else
    let again := (s.arb.redo[rq]).filter (s.redoOk rq)
    let d := (s.arb.data.find? (·.rq = rq)).map Tlp.data
    let r := if rq = 17 then s.arb.reads.head?.map Tlp.read else none
    let e := ((List.finRange 4).find? (s.entryReady rq)).map Tlp.entry
    let v := if rq = 21 && s.eventReady then some Tlp.event else none
    let t := if rq = 19 && s.arb.streamQ ≠ [] then some Tlp.stream else none
    let m := if rq = 23 then s.hp.msixPend.head?.map Tlp.msix else none
    let f := (allRings.find? fun q => q.val < 20 && s.rqOf q = rq && (s.fetchWant q).isSome).map Tlp.fetch
    again.or (d.or (r.or (e.or (v.or (t.or (m.or f))))))

/-- A requester asks for the path. -/
def State.requests (s : State) (rq : Rq) : Bool := (s.nextTlp rq).isSome

/-- All requesters in rising order. -/
def allRq : List Rq := List.finRange 24

/-- The tick of each request that has come up is noted, for ARB_MAXWAIT. -/
def State.noteRequests (s : State) : State :=
  let one (i : Fin 24) : RqSt :=
    let x := s.arb.rq[i]
    if s.requests i then { x with since := some (x.since.getD s.now) } else { x with since := none }
  s.modArb fun a => { a with rq := Vector.ofFn one }

/-! ### Sending (R270, R277, R285, R304) -/

/-- A completion entry's 16 bytes (Tables 10.9 to 10.12). -/
def Entry.bytes (e : Entry) (phase : Bool) : List Byte :=
  let b (v : Bool) (k : Nat) : Nat := if v then 2 ^ k else 0
  let last (n : Nat) : Byte := BitVec.ofNat 8 (b phase 0 + n)
  match e with
  | .cmd info tag sqhd status q =>
    leBytes 8 info.toNat ++ leBytes 2 tag.toNat ++ leBytes 2 (sqhd % 4096) ++ [status, BitVec.ofNat 8 q.val, 1, last 0]
  | .reach tick tag ch status q late dry rev =>
    leBytes 8 tick.toNat ++ leBytes 2 tag.toNat ++ [BitVec.ofNat 8 ch.val, 0, status, BitVec.ofNat 8 q.val, 2,
      last (b late 1 + b dry 2 + b rev 3)]
  | .cmp stamp lag unit sat replay =>
    leBytes 8 stamp.toNat ++ leBytes 4 lag.toNat ++ leBytes 2 (unit.val + b sat 15) ++ [3, last (b replay 1)]
  | .evt tick data code cls => leBytes 8 tick.toNat ++ leBytes 4 data.toNat ++ leBytes 2 code.toNat ++ [4, last (2 * cls.toNat)]
  | .loss tick n => leBytes 8 tick.toNat ++ leBytes 4 n.toNat ++ [0, 0, 5, last 0]

/-- An entry written at PI of its completion ring; the phase turns at the ring's end, and COAL_N entries ask for a message
(R270, R285). -/
def State.writeEntry (s : State) (k : Fin 4) (e : Entry) : State :=
  let q := cqRing k
  let r := s.hp.rings[q]
  let size := s.ringSize q
  let s := s.send (.memWrite ((s.reg64 (R.Q_BASE q)).toNat + 16 * r.pi) (e.bytes r.phase))
  let pi := (r.pi + 1) % size
  let s := (s.modRing q fun r =>
    { r with pi := pi, phase := if pi = 0 then !r.phase else r.phase, coal := r.coal + 1, coalAt := some (r.coalAt.getD s.now) }).count
      (R.Q_CNT_ENTRIES q)
  let s := if s.ringFull q then s.modRing q fun r => { r with fullSince := some s.now, fullTold := false } else s
  if s.get (R.Q_CFG_COAL_N q) ≤ (s.hp.rings[q]).coal then
    (s.modRing q fun r => { r with coal := 0, coalAt := none }).msixAsk (s.get (R.Q_CFG_VEC q))
  else s

/-- The completion of a RESET has been written: its reset is due 20,000 ticks later (R275). -/
def State.resetWritten (s : State) (tag : BitVec 16) : State :=
  match s.mode.resetWait with
  | some (k, t) =>
    if t = tag then s.modMode fun m => { m with resetWait := none, pendingReset := some (k, s.now + 20000) } else s
  | none => s

/-- The oldest entry held for a completion ring is written; a compare unit's holding ends with it (R278). -/
def State.sendHeld (s : State) (k : Fin 4) : State :=
  match s.hp.cq[k] with
  | [] => s
  | x :: rest =>
    let s := (s.modHp fun h => { h with cq := upd h.cq k fun _ => rest }).writeEntry k x.e
    match x.e with
    | .cmp _ _ u _ _ => s.modUnit u fun y => { y with held := false }
    | .cmd _ tag _ _ q => if q.val = 16 then s.resetWritten tag else s
    | _ => s

/-- The loss entry with event 0x0207, or the oldest event (R286). An event goes between two loss entries, so that a full store which
loses event 0x0207 itself has room for the next one (assumption 83). -/
def State.sendEvent (s : State) : State :=
  let k := s.evtCq
  if s.hp.lost ≠ 0 && !(s.hp.lossTold && s.hp.events ≠ []) then
    let n : W32 := BitVec.ofNat 32 (satU 32 s.hp.lost)
    let s := (s.modHp fun h => { h with lost := 0, lossTold := true }).writeEntry k (.loss s.hp.lostTick n)
    s.raise 0x0207 0 n
  else match s.hp.events with
    | [] => s
    | e :: rest => (s.modHp fun h => { h with events := rest, lossTold := false }).writeEntry k (.evt e.tick e.data e.code e.cls)

/-- A streamed record (R304). -/
def State.sendStream (s : State) : State :=
  match s.arb.streamQ, (s.lendOf (s.reg R.EDDY_STRM_LTAG)).filter (·.ring = 18) with
  | r :: rest, some l =>
    let k := s.regN R.EDDY_STRM_WI
    let s := s.modArb fun a => { a with streamQ := rest }
    let s := s.send (.memWrite (l.addr.toNat + 32 * (k % (l.len / 32))) (r.words.flatMap fun w => leBytes 4 w.toNat))
    s.setReg R.EDDY_STRM_WI (BitVec.ofNat 32 (k + 1))
  | _, _ => s

/-- A message: sent, or left pending while its vector is masked (R285). -/
def State.sendMsix (s : State) (v : Nat) : State :=
  let n : Fin 32 := ⟨v % 32, Nat.mod_lt _ (by decide)⟩
  let s := s.modHp fun h => { h with msixPend := h.msixPend.drop 1 }
  if s.msixMasked n then s.modHp fun h => { h with msix := upd h.msix n fun e => { e with pending := true } }
  else s.send (.msix v)

/-- A TLP leaves at the end of its tenure. -/
def State.sendTlp (s : State) : Tlp → State
  | .data d => s.send (.memWrite d.addr d.bytes)
  | .entry k => if s.cqReady k then s.sendHeld k else s
  | .event => if s.cqReady s.evtCq then s.sendEvent else s
  | .read r => s.send (.memRead r.addr r.len)
  | .stream => s.sendStream
  | .msix v => s.sendMsix v
  | .fetch q => match s.fetchWant q with
    | some (slot, n) => (s.modRing q fun r => { r with inFlight := some (slot, n) }).send (.fetch q slot n)
    | none => s

/-- A tenure given up without its TLP, which its requester starts again from the start when it is next granted (R295). A data write or a
read whose lend has ended is not started again (R283). -/
def State.dropTenure (s : State) : State :=
  let s' := s.modArb fun a => { a with tenure := none }
  match s.arb.tenure with
  | none => s
  | some (_, _, .data d) => if d.ltag = 0 then s' else s'.modArb fun a => { a with data := d :: a.data }
  | some (w, _, .read r) =>
    if r.ltag = 0 then s' else s'.modArb fun a => { a with reads := r :: a.reads, redo := upd a.redo w fun _ => some (.read r) }
  | some (w, _, t) => s'.modArb fun a => { a with redo := upd a.redo w fun _ => some t }

/-! ### Arbitration (R292, R293) -/

/-- The winner among `l` (rising indices): the oldest forced win, else the highest PRIO in rotation after its last winner. -/
def State.arbWinner (s : State) (l : List Rq) : Option Rq :=
  match s.arb.forced.find? (fun x => l.contains x) with
  | some x => some x
  | none =>
    let prio (x : Rq) : Nat := s.get (R.ARB_RQ_PRIO x) % 4
    let top := l.foldl (fun a x => max a (prio x)) 0
    let c := l.filter fun x => prio x = top
    match s.arb.last[(⟨top % 4, Nat.mod_lt _ (by decide)⟩ : Fin 4)] with
    | some w => (c.find? (fun x => w < x)).or c.head?
    | none => c.head?

/-- A round is won: grant and wait counts, forced wins and ARB_MAXWAIT (R292, R293, Table 11.5). -/
def State.arbRound (s : State) (w : Rq) (l : List Rq) (t : Tlp) : State :=
  let limit := s.get R.ARB_CFG_WAIT_LIMIT
  let x := s.arb.rq[w]
  let waited := s.now - x.since.getD s.now
  let s := s.countReg (R.ARB_GRANTS w)
  let s := if s.regN (R.ARB_MAXWAIT w) < waited then s.setReg (R.ARB_MAXWAIT w) (BitVec.ofNat 32 (satU 32 waited)) else s
  let losers := l.filter (· ≠ w)
  let s := forAll losers (fun x t => t.countReg (R.ARB_WAITS x)) s
  let prio := s.get (R.ARB_RQ_PRIO w) % 4
  s.modArb fun a =>
    let rq := losers.foldl (fun v x => upd v x fun y => { y with wait := y.wait + 1, waits := y.waits + 1 }) a.rq
    let rq := upd rq w fun y => { y with wait := 0, grants := y.grants + 1, maxWait := max y.maxWait waited, since := none }
    let reached := losers.filter fun x => limit ≤ (rq[x]).wait && !a.forced.contains x
    { a with rq := rq, forced := a.forced.filter (· ≠ w) ++ reached, tenure := some (w, s.now, t),
             last := upd a.last ⟨prio % 4, Nat.mod_lt _ (by decide)⟩ fun _ => some w,
             redo := upd a.redo w fun _ => none
             data := match t with
               | .data d => a.data.erase d
               | _ => a.data
             reads := match t with
               | .read r => a.reads.erase r
               | _ => a.reads }

/-- ARBITRATION_GRANT: the present tenure ends, its TLP is sent, and the next winner takes the path (R292). -/
def execArbitrationGrant (s : State) : Res :=
  if !s.clockOn then .next s
  else
    let s := match s.arb.tenure with
      | some (_, _, t) => if s.portUp then (s.modArb fun a => { a with tenure := none }).sendTlp t else s.dropTenure
      | none => s
    let l := allRq.filter s.requests
    match s.arbWinner l with
    | none => .next s
    | some w => match s.nextTlp w with
      | some t => .next (s.arbRound w l t)
      | none => .next s

/-! ### The watchdog and the relief agent (R256 to R258, R295, R296) -/

/-- A spire's ring that nobody serves: its entries leave the completion rings' queues for the spire's store (R258). -/
def State.stallSpire (s : State) (p : Spire) (why : Nat) : State :=
  let q : Ring := ⟨p.val, by omega⟩
  let mine (x : Held) : Bool := (x.rq.val = p.val || (x.rq.val = 16 && s.arb.relief = some p)) && match x.e with
    | .cmp .. => false
    | _ => true
  let kept := (List.finRange 4).flatMap fun k => ((s.hp.cq[k]).filter mine).map (·.e)
  let s := s.modHp fun h => { h with cq := h.cq.map fun l => l.filter fun x => !mine x }
  let s := s.modSpire p fun x => { x with agent := 2, store := (x.store ++ kept).take 1024 }
  let s := s.modRing q fun r => { r with stalled := true }
  s.raise (spireCode p 0x88) 2 (BitVec.ofNat 32 why)

/-- A spire agent fails (R256 to R258): the relief agent takes the ring when it serves none. -/
def State.agentFails (s : State) (p : Spire) : State :=
  if s.arb.relief.isNone && s.arb.reliefPend.isNone && !s.arb.reliefFailed then
    s.modArb fun a => { a with reliefPend := some (p, s.now) }
  else s.stallSpire p (if s.arb.reliefFailed then 1 else 0)

/-- The relief agent fails, and the spire that it serves stalls (R258, R296). -/
def State.reliefFails (s : State) : State :=
  let p := s.arb.relief.or (s.arb.reliefPend.map (·.1))
  let s := s.modArb fun a => { a with reliefFailed := true, reliefPend := none }
  match p with
  | some p => (s.stallSpire p 1).modArb fun a => { a with relief := none }
  | none => s

/-- TENURE_BITE: a tenure of TENURE × 20 ticks is ended and its TLP discarded (R295); the third bite in 200,000,000 ticks fails
a spire agent or the relief agent, and is an F3 on A17 to A23 (R256, R296). -/
def execTenureBite (s : State) : Res :=
  match s.arb.tenure with
  | none => .next s
  | some (w, t, _) =>
    if s.clockOn && t + s.get R.ARB_CFG_TENURE * 20 ≤ s.now then
      let s := (s.dropTenure).count (R.ARB_RQ_BITES w)
      let s := s.modArb fun a => { a with rq := upd a.rq w fun x =>
        { x with bites := x.bites + 1, biteTicks := s.now :: x.biteTicks.filter fun b => s.now < b + ticksPerS } }
      let n := ((s.arb.rq[w]).biteTicks).length
      let failed := 3 ≤ n && !(s.arb.rq[w]).failed
      let s := if failed then s.modArb fun a => { a with rq := upd a.rq w fun x => { x with failed := w.val < 17 } } else s
      if h : w.val < 16 then
        let p : Spire := ⟨w.val, h⟩
        let s := s.raiseLimited (spireCode p 0x8B) 0 (BitVec.ofNat 32 (min n 3)) p.val
        .next (if failed then s.agentFails p else s)
      else
        let s := s.raise 0x0300 0 (BitVec.ofNat 32 w.val)
        if !failed then .next s
        else if w.val = 16 then .next s.reliefFails
        else .next (s.raiseSrc 0x52 0x0B0B 3 (BitVec.ofNat 32 w.val))
    else .next s

/-- RELIEF_TAKEOVER: the relief agent takes the failed agent's ring and fetches from the entry after the last one answered
(R257). -/
def execReliefTakeover (p : Spire) (s : State) : Res :=
  match s.arb.reliefPend with
  | some (p', _) =>
    if p' = p && s.clockOn then
      let s := s.modArb fun a => { a with relief := some p, reliefPend := none }
      let s := (s.modSpire p fun x => { x with agent := 1 }).modRing ⟨p.val, by omega⟩ fun r => { r with inFlight := none }
      let move (x : Held) : Held := if x.rq = ⟨p.val, by omega⟩ then { x with rq := 16 } else x
      let s := s.modHp fun h => { h with cq := h.cq.map fun l => l.map move }
      .next (s.raise (spireCode p 0x87) 2)
    else .next s
  | none => .next s

/-! ### Timeouts and the link (R45, R262, R278, R285) -/

/-- MSIX_COALESCE_TIMEOUT: COAL_US after the first entry without a message (R285). -/
def execMsixCoalesceTimeout (q : Ring) (s : State) : Res :=
  match (s.hp.rings[q]).coalAt with
  | some t =>
    let us := s.get (R.Q_CFG_COAL_US q)
    if 20 ≤ q.val && s.clockOn && us ≠ 0 && t + us * ticksPerUs ≤ s.now then
      .next ((s.modRing q fun r => { r with coal := 0, coalAt := none }).msixAsk (s.get (R.Q_CFG_VEC q)))
    else .next s
  | none => .next s

/-- COMPLETION_RING_FULL_TIMEOUT: event 0x0206 once per fill (R278). -/
def execCompletionRingFullTimeout (q : Ring) (s : State) : Res :=
  match (s.hp.rings[q]).fullSince with
  | some t =>
    if s.clockOn && s.ringFull q && !(s.hp.rings[q]).fullTold && t + ticksPerS ≤ s.now then
      .next ((s.modRing q fun r => { r with fullTold := true }).raise 0x0206 0 (BitVec.ofNat 32 q.val))
    else .next s
  | none => .next s

/-- LINK_UP: the link has trained after `PERST#` is deasserted (R45); step 0x09 ends. -/
def execLinkUp (speed : Fin 5) (width : Fin 3) (s : State) : Res :=
  let step := s.mode.bootStep
  if s.mode.domeRun && s.mode.pins.perstHigh && !s.hp.linkUp && speed.val ≠ 0 && width.val ≠ 0
      && (step = 9 || step = 10 || step = 0) then
    let s := s.modHp fun h => { h with linkUp := true, speed := BitVec.ofNat 4 speed.val, width := BitVec.ofNat 4 width.val }
    let s := s.modMode fun m => { m with bootStep := if m.bootStep = 9 then 10 else m.bootStep }
    .next (s.raise 0x0209 0 (BitVec.ofNat 32 (speed.val + 16 * width.val)))
  else .next s

/-- LINK_DOWN: no request is issued until the link is up again (R262). -/
def execLinkDown (s : State) : Res :=
  if s.hp.linkUp then
    let s := s.dropTenure.modHp fun h => { h with linkUp := false, speed := 0, width := 0 }
    .next (s.raise 0x020A 0)
  else .next s

/-- A word of configuration space (Table 10.1): identity, command and status, and the BARs of the header; what else the header holds and
where a capability stands is not stated. -/
def State.configWord (s : State) (off : Nat) : W32 :=
  let p := s.hp.pci
  let b (v : Bool) (k : Nat) : Nat := if v then 2 ^ k else 0
  match off / 4 with
  | 0 => BitVec.ofNat 16 0x0256 ++ Config.vendorId
  | 1 => (Config.pciWord off &&& 0xCFFFFFFB)
      ||| BitVec.ofNat 32 (b s.hp.busMaster 2 + b s.hp.aer.targetAbort 28 + b s.hp.aer.masterAbort 29)
  | 2 => 0x11800001
  | 4 => (p.bar0.extractLsb' 0 32 &&& 0xFFFF0000) ||| 4
  | 5 => p.bar0.extractLsb' 32 32
  | 6 => (p.bar2.extractLsb' 0 32 &&& 0xFFFFF000) ||| 4
  | 7 => p.bar2.extractLsb' 32 32
  | 8 => (p.bar4.extractLsb' 0 32 &&& 0xFF000000) ||| 12
  | 9 => p.bar4.extractLsb' 32 32
  | 15 => Config.pciWord off &&& 0xFFFF00FF
  | _ => Config.pciWord off

/-- CONFIG_SPACE_WRITE: Bus Master Enable, the power state, and the settings of R261 and R285. -/
def execConfigSpaceWrite (ctl : PciCtl) (conf : PciSet) (s : State) : Res :=
  if s.mode.domeRun && s.hp.linkUp then
    let s := s.modHp fun h => { h with busMaster := ctl.busMaster, d3hot := ctl.d3hot, pci := conf }
    let s := if ctl.busMaster && !ctl.d3hot then s else s.dropTenure
    .next (forAll (List.finRange 32) (fun n t => t.msixRelease n) s)
  else .next s

end Sys2Proof.Machine
end

