-- ==== Sys2Proof/Machine/Snapshots.lean ====
section
/-! DEFINITION. Stillwater snapshots and the copies of Eddy buffers (11_arbiter_snapshots_trace.md, R297 to R303). -/

namespace Sys2Proof.Machine

/-- Length of a snapshot image (Table 11.3). -/
def snapLen : Nat := 17280

/-- ENERGY and SMP_SEQ with the sample whose instant has passed and whose record is still to be latched (R299). -/
def State.snapSample (s : State) (c : Ch) : Int × W32 :=
  let h := s.ch c
  if h.latchDue.isSome then (h.cnt.energy + s.sampleEnergy c, h.smp.seq + 1) else (h.cnt.energy, h.smp.seq)

/-- A channel record (Table 11.4). ENERGY is held in units of 5 × 10⁻¹² µJ. -/
def State.snapChan (s : State) (c : Ch) : List Byte :=
  let h := s.ch c
  let n := h.cnt
  let (energy, seq) := s.snapSample c
  let flags := (if h.limp then 1 else 0) + if h.stage.legs = 1 then 2 else 0
  leBytes 8 ((roundDiv (energy * 5) 1000000000000) % 2 ^ 64).toNat ++ leBytes 8 n.onTime ++ leBytes 4 n.act ++ leBytes 4 n.bndN
    ++ leBytes 4 n.bndMin ++ leBytes 4 n.bndMax ++ leBytes 8 n.bndSum ++ leBytes 4 n.lateN ++ leBytes 4 n.missed
    ++ leBytes 4 seq.toNat ++ leBytes 2 h.epoch.toNat ++ leBytes 10 flags

/-- A requester record (Table 11.5). -/
def State.snapRq (s : State) (a : Rq) : List Byte :=
  let x := s.arb.rq[a]
  leBytes 8 x.grants ++ leBytes 8 x.waits ++ leBytes 4 x.maxWait ++ leBytes 12 (x.bites % 2 ^ 32)

/-- The power record (Table 11.6). -/
def State.snapPower (s : State) : List Byte :=
  leBytes 8 s.qDis ++ leBytes 8 s.qChg ++ leBytes 8 s.qTf ++ leBytes 8 s.buskeepTicks ++ leBytes 32 s.power.trims.toNat

/-- Bytes 64 to 17,279 of the image (Table 11.3). -/
def State.snapBody (s : State) : List Byte :=
  allCh.flatMap s.snapChan ++ allRq.flatMap s.snapRq ++ s.snapPower

/-- The header (Table 11.3). -/
def State.snapHeader (s : State) (r : SnapReq) (ts : Nat) (stepped : Bool) : List Byte :=
  let pos := if s.rv.role = .none_ then 0 else s.rv.pos
  [0x53, 0x54, 0x4C, 0x57, 1, 0] ++ leBytes 2 r.tag.toNat ++ leBytes 8 ts ++ leBytes 2 pos
    ++ leBytes 2 ((if stepped then 1 else 0) + if r.casc then 2 else 0) ++ leBytes 4 snapLen ++ leBytes 40 (s.arb.snapCount % 2 ^ 32)

/-- A SNAP_AT latches now: on its tick, or after a forward step that passed it (R299). -/
def State.snapDue (s : State) (r : SnapReq) : Bool :=
  r.tick.any fun t => t = s.now || (r.stepped && decide (t < s.now))

/-- The image of one SNAP_AT queued for A20: from byte 64 on, and the header last (R300). -/
def State.snapWrite (s : State) (body : List Byte) (r : SnapReq) : State :=
  match s.lendOf r.ltag with
  | some l =>
    let at_ := l.addr.toNat + r.off
    let j := Job.snap r.tag r.slot
    (s.pushData 20 j r.ltag (at_ + 64) body).pushData 20 j r.ltag at_ (s.snapHeader r s.now (r.tick != some s.now))
  | none => s

/-- SNAPSHOT_LATCH: every counter is captured for all pending SNAP_AT of the tick, which share one latch; after a forward step past a
latch tick its T_s is the present tick, with STEPPED set (R299). -/
def execSnapshotLatch (s : State) : Res :=
  let mine := s.arb.snaps.filter s.snapDue
  if mine = [] || !s.clockOn then .next s
  else
    let s := s.modArb fun a =>
      { a with snaps := a.snaps.filter (fun r => !s.snapDue r), snapCount := a.snapCount + 1, snapLast := s.tick.now,
               images := a.images ++ mine.map fun r => { req := r, ts := s.now } }
    let body := s.snapBody
    .next (mine.foldl (fun u r => u.snapWrite body r) s)

/-- SNAPSHOT_WRITE_DONE: an image and its header are written; its SNAP_AT completes with INFO = T_s (R300). -/
def execSnapshotWriteDone (s : State) : Res :=
  match s.arb.images.find? fun i => !s.dataLeft (.snap i.req.tag i.req.slot) with
  | some i =>
    if s.clockOn then
      let s := s.modArb fun a => { a with images := a.images.erase i }
      .next (s.complete 19 i.req.tag i.req.slot 0 (BitVec.ofNat 64 i.ts))
    else .next s
  | none => .next s

/-- EDDY_READ_DONE: the copy has been written; the command completes with its record count (R303). -/
def execEddyReadDone (s : State) : Res :=
  match s.arb.copies.find? fun x => !s.dataLeft (.eddy x.tag x.slot) with
  | some x => if s.clockOn then .next (s.eddyCopyEnd x 0) else .next s
  | none => .next s

/-- `SNAP_STAT.PENDING` (Table 11.8): SNAP_AT accepted and not completed. -/
def State.snapPending (s : State) : Nat := s.arb.snaps.length + s.arb.images.length

/-- `EDDY_STAT` of an engine (Table 11.8). -/
def Eddy.stat (x : Eddy) : W32 :=
  BitVec.ofNat 32 (x.recs.length + (if x.triggered then 256 else 0) + (if x.holding then 512 else 0) + x.dropped * 65536)

end Sys2Proof.Machine
end

