-- ==== Sys2Proof/Machine/Freeze.lean ====
section
/-! DEFINITION. Freeze and thaw (15_faults_freeze_debug.md, R408 to R414), and what a step of the tick base does to the
timers that count elapsed ticks (R21, R98). -/

namespace Sys2Proof.Machine

/-! ### A step of D ticks and the elapsed timers (R21, R98) -/

/-- A tick moved on by D when there is one. -/
def later (d : Nat) (t : Option Nat) : Option Nat := t.map (· + d)

/-- A stage die's timers. -/
def Stage.later (g : Stage) (d : Nat) : Stage :=
  { g with budgetAt := g.budgetAt + d, hiccupUntil := Machine.later d g.hiccupUntil,
           pend := g.pend.map fun (x : DutyCmd) => { x with due := x.due + d },
           phase := Machine.later d g.phase, iAt := Machine.later d g.iAt, vAt := Machine.later d g.vAt }

/-- A channel's timers. -/
def Chan.later (h : Chan) (d : Nat) : Chan :=
  { h with stage := h.stage.later d, latchDue := Machine.later d h.latchDue, guardUntil := Machine.later d h.guardUntil,
           flight := h.flight.map fun (x : DutyCmd) => { x with due := x.due + d },
           takeover := h.takeover.map fun (x : Eng × Nat × Option Eng) => (x.1, x.2.1 + d, x.2.2),
           manual := h.manual.map fun (x : ManualSt) => { x with until_ := x.until_ + d } }

/-- An engine's timers. -/
def Engine.later (x : Engine) (d : Nat) : Engine :=
  { x with tmr := Machine.later d x.tmr, deposedAt := Machine.later d x.deposedAt, selfTest := Machine.later d x.selfTest,
           haltPend := Machine.later d x.haltPend }

/-- A ring's timers. -/
def RingSt.later (r : RingSt) (d : Nat) : RingSt :=
  { r with fullSince := Machine.later d r.fullSince, coalAt := Machine.later d r.coalAt }

/-- The arbiter's timers. -/
def Arb.later (a : Arb) (d : Nat) : Arb :=
  { a with rq := a.rq.map fun (x : RqSt) => { x with since := Machine.later d x.since },
           tenure := a.tenure.map fun (x : Rq × Nat × Tlp) => (x.1, x.2.1 + d, x.2.2),
           reliefPend := a.reliefPend.map fun (x : Spire × Nat) => (x.1, x.2 + d) }

/-- Every timer that counts elapsed ticks carries on from where it stood when the tick base steps by D (R21, R98). Stamps,
TARGETs and release ticks stay. -/
def State.laterAll (s : State) (d : Nat) : State :=
  { s with
    chan := s.chan.map fun h => h.later d
    eng := s.eng.map fun x => x.later d
    arb := s.arb.later d
    hp := { s.hp with rings := s.hp.rings.map fun r => r.later d }
    tick := { s.tick with chains := s.tick.chains.map fun (x : Chain) => { x with due := x.due + d } }
    mode := { s.mode with pendingReset := s.mode.pendingReset.map fun (x : ResetKind × Nat) => (x.1, x.2 + d),
                          fastSince := Machine.later d s.mode.fastSince } }

/-- The latch ticks that a step to `t1` passes (R299). -/
def State.snapPassed (s : State) (t1 : Nat) : State :=
  s.modArb fun a => { a with snaps := a.snaps.map fun (r : SnapReq) =>
    { r with stepped := r.stepped || r.tick.any fun t => s.now < t && t < t1 } }

/-- A forward step to `t1` with its timers (R98, R99). -/
def State.stepTo (s : State) (t1 : Nat) : State := ((s.snapPassed t1).laterAll (t1 - s.now)).forwardStep t1

/-! ### Freeze (R36, R408, R409) -/

/-- The pin triggers while it is low and enabled (R408). -/
def State.pinTrigger (s : State) : State :=
  if s.mode.pins.freezeLow && s.flag R.FRZ_CFG_PIN_EN then s.freezeTrigger 1 0 else s

/-- FREEZE_N_FALL: `FREEZE_N` low for 100 ns (R408); where no freeze is honoured event 0x0107 tells of it (R36). -/
def execFreezeNFall (s : State) : Res :=
  let s := s.modMode fun m => { m with pins := { m.pins with freezeLow := true } }
  .next (if s.mode.mode = .ship then s else s.pinTrigger)

/-- The FREEZE opcode that a refusal or a fault state leaves without a freeze completes with 0x10 (R408). -/
def State.freezeRefused (s : State) : State :=
  match s.frz.req with
  | some (tag, sq) => ({ s with frz := { s.frz with req := none } }).complete 16 tag sq 0x10 0
  | none => s

/-- The module is frozen on tick T_f (R409). -/
def State.freezeEnter (s : State) (cause : BitVec 3) (sc : BitVec 5) (q : W32) : State :=
  let s := s.setReg R.FRZ_RATIO q
  let s := ((s.putFlag R.FRZ_STAT_FROZEN true).put R.FRZ_STAT_CAUSE cause.toNat).put R.FRZ_STAT_SC sc.toNat
  let s := (s.putFlag R.FRZ_STAT_F3_THAW false).put R.FRZ_STAT_COUNT (s.get R.FRZ_STAT_COUNT + 1)
  let s := s.setReg64 R.FRZ_LAST_TF s.tick.now
  let s := { s with frz := { s.frz with trig := none, tf := s.now, from_ := s.tick.wall, thawReq := false, ignored := 0,
                                        refused := 0, regs := s.regs, power := s.power, pins := s.mode.pins,
                                        twResult := s.tw.lastResult, speed := s.hp.speed, width := s.hp.width } }
  (s.raise 0x0F00 0 (BitVec.ofNat 32 (cause.toNat + sc.toNat * 8))).modMode fun m => { m with frozen := true }

/-- FREEZE_ENTRY: the freeze tick of the triggers that have qualified; `q` is the number of state ticks per Turret cycle
measured in the last whole millisecond (R410). A fault state or a mode left since the trigger stops the freeze. -/
def execFreezeEntry (q : W32) (s : State) : Res :=
  match s.frz.trig with
  | some (cause, sc) =>
    if s.clockOn then
      if s.mode.mode.isLink && s.mode.bootStep = 0 && !s.mode.fault then .next (s.freezeEnter cause sc q)
      else .next (({ s with frz := { s.frz with trig := none } }).raise 0x0107 0).freezeRefused
    else .next s
  | none => .next s

/-! ### The freeze limit (R411) -/

/-- The FREEZE_LIMIT payload of Table 15.5; N_T is the count of Turret cycles, nominally 25 ns each. -/
def State.limitPayload (s : State) : List Byte :=
  leBytes 8 s.frz.tf ++ leBytes 4 ((s.tick.wall - s.frz.from_) / 5) ++ [BitVec.ofNat 8 (s.get R.FRZ_STAT_CAUSE)]

/-- FREEZE_LIMIT_EXPIRY: LIMIT × 100 ms without a thaw: the record, event 0x0F02 in the Silt log only, and the fault-state reset
(R411). No completion is written. -/
def execFreezeLimitExpiry (s : State) : Res :=
  if s.mode.frozen && s.frz.from_ + s.get R.FRZ_CFG_LIMIT * 100 * ticksPerMs ≤ s.tick.wall then
    .next ((s.siltPush 5 3 0x0F02 s.limitPayload).resetBy .freezeLimit)
  else .next s

/-! ### Thaw (R410, R412 to R414) -/

/-- A thaw request by a write of 1 to THAW (R412). -/
def State.thawWrite (s : State) : State :=
  if !s.mode.frozen then s
  else if s.mode.pins.freezeLow && s.flag R.FRZ_CFG_PIN_EN then
    let s := s.count R.FRZ_CNT_THAW_REFUSED
    { s with frz := { s.frz with refused := s.frz.refused + 1 } }
  else { s with frz := { s.frz with thawReq := true } }

/-- THAW_WRITE: the landing of that write. -/
def execThawWrite (s : State) : Res := if s.mode.domeRun then .next s.thawWrite else .next s

/-- FREEZE_N_RISE: `FREEZE_N` high for 100 ns after a rising edge (R412). -/
def execFreezeNRise (s : State) : Res :=
  let s := s.modMode fun m => { m with pins := { m.pins with freezeLow := false } }
  .next (if s.mode.frozen && s.flag R.FRZ_CFG_PIN_THAW then { s with frz := { s.frz with thawReq := true } } else s)

/-- `FRZ_RATIO`: the ratio of the last whole millisecond; in a freeze that before T_f, and its reset value before the first one
(R410). -/
def State.clockRatio (s : State) : W32 :=
  if s.mode.frozen || s.now < ticksPerMs then s.reg R.FRZ_RATIO else Config.clockRatio (s.now / ticksPerMs)

/-- A channel leaves its freeze behaviour: a desaturation taken in the freeze is answered first (R135), then the channel waits
for its sample instant (R128). -/
def State.chanThaw (s : State) (c : Ch) : State :=
  let g := (s.ch c).stage
  let s := s.modStage c fun g => { g with frzDesat := none, waitSample := g.waitSample || !g.linkSafe, iRun := 0 }
  match g.frzDesat with
  | some (l, hs, stuck) => s.legFault c l (desatWhy hs) stuck
  | none => s

/-- Event `code` raised n times. -/
def State.raiseTimes (s : State) (code : BitVec 16) (n : Nat) : State :=
  (List.range n).foldl (fun s _ => s.raise code 0) s

/-- D in ticks of a count of N_T Turret cycles (R410). -/
def State.gapOf (s : State) (nT : Nat) : Nat := (max 1 (roundDiv (nT * s.regN R.FRZ_RATIO : Nat) 65536)).toNat

/-- Steps 2 and 5 of Table 15.6 around `mid`: the clocks restart with the tick base at T_f + D, and what waited for the thaw
follows. A tributary joins its river ring again (R442). -/
def State.thaw (s : State) (nT : Nat) (f3 : Bool) : State :=
  let d := s.gapOf nT
  let s := (s.modMode fun m => { m with frozen := false }).stepTo (s.now + d)
  let s := (s.setReg64 R.FRZ_LAST_D (BitVec.ofNat 64 d)).putFlag R.FRZ_STAT_FROZEN false
  let s := forAll allCh (fun c t => t.chanThaw c) (s.courseThaw.rateRestart d)
  let s := { s with uart := s.uart.map Uart.thawed
                    rv := { s.rv with joined := false, locked := false, inRun := 0, outRun := 0
                                      lastSeen := s.rv.lastSeen + (s.tick.wall - s.frz.from_) } }
  let s := s.applyLatched
  let s := s.raise 0x0F01 0 (BitVec.ofNat 32 (satU 32 (roundDiv d 200)))
  let s := if f3 then (s.putFlag R.FRZ_STAT_F3_THAW true).raise 0x0F06 0 else s
  let s := (s.raiseTimes 0x0F04 s.frz.ignored).raiseTimes 0x0F03 s.frz.refused
  let req := s.frz.req
  let s := { s with frz := { s.frz with thawReq := false, ignored := 0, refused := 0, regs := [], power := {}, pins := {},
                                        twResult := 0, speed := 0, width := 0, req := none } }
  match req with
  | some (tag, sq) => s.complete 16 tag sq 0 (BitVec.ofNat 64 d)
  | none => s

/-- THAW: the fourth Turret-clock edge after the request (R413); `nT` is the count of Turret cycles since the freeze. -/
def execThaw (nT : Nat) (s : State) : Res :=
  if s.mode.frozen && s.frz.thawReq && s.mode.f3Pend.isEmpty then .next (s.thaw nT false) else .next s

/-- F3_FORCED_THAW: an F3 in the freeze thaws, and the fault state is entered before the replay (R414). -/
def execF3ForcedThaw (nT : Nat) (s : State) : Res :=
  if s.mode.frozen then
    match s.mode.f3Pend with
    | f :: _ => .next ((s.thaw nT true).faultEnter f)
    | [] => .next s
  else .next s

end Sys2Proof.Machine
end

