-- ==== Sys2Proof/Machine/River.lean ====
section
/-! DEFINITION. The river ring (16_river_ring.md, R424 to R449): frames sent, accepted and forwarded, slaving, hand-over, and what
the frames carry. Outside data of a frame is its abstract content; its arrival is given in ps within the present tick. -/

namespace Sys2Proof.Machine

/-- This module is the headwater, strapped or acting. -/
def State.isHead (s : State) : Bool := s.rv.role = .head || s.rv.role = .acting

/-- The module's own HEAD_ID (R440). -/
def State.ownHeadId (s : State) : W32 :=
  let w := Config.unitWord 2
  if s.rv.role = .acting then w &&& 0x7FFFFFFF else w ||| 0x80000000

/-- One receive port, or the record of one ring. -/
def River.port (r : River) (p : RvRing) : RvPort := match p with | .a => r.portA | .b => r.portB
/-- One receive port changed. -/
def State.modPort (s : State) (p : RvRing) (f : RvPort → RvPort) : State :=
  s.modRv fun r => match p with | .a => { r with portA := f r.portA } | .b => { r with portB := f r.portB }
/-- The other ring. -/
def otherRing (p : RvRing) : RvRing := match p with | .a => .b | .b => .a
/-- Ring bit of Table 16.1 and of events 0x0C01 and 0x0C02. -/
def ringBit (p : RvRing) : Nat := match p with | .a => 0 | .b => 1

/-- An integer as `n` bytes, little-endian in two's complement (R4). -/
def leSigned (n : Nat) (x : Int) : List Byte := leBytes n (x % (256 ^ n : Nat)).toNat

/-- The 8 bytes of a fault slot (Table 16.2); a slot that is not USED holds zeros. -/
def faultSlot : Option RvNotice → List Byte
  | none => leBytes 8 0
  | some x => leBytes 2 (x.src.toNat + x.cls.toNat * 8192 + 32768) ++ leBytes 2 x.code.toNat ++ leBytes 4 x.data.toNat

/-- The 72 bytes of a mail slot (Table 16.2). -/
def mailSlot : Option RvMail → List Byte
  | none => leBytes 72 0
  | some x => leBytes 2 (x.dest.toNat + 32768) ++ leBytes 2 x.src.toNat ++ leBytes 4 0 ++ slice x.data 0 64

/-- Bytes 0 to 1,195 of a frame (Table 16.1). -/
def frameBody (f : RvFrame) : List Byte :=
  let b (v : Bool) (k : Nat) : Nat := if v then 2 ^ k else 0
  [0xBC, BitVec.ofNat 8 (ringBit f.ring + b f.wrapped 1 + b f.held 2 + b f.acting 3)] ++ leBytes 2 f.hops
    ++ leBytes 4 f.headId.toNat ++ leBytes 2 f.fseq.toNat ++ leBytes 2 f.ringN ++ leBytes 4 (satU 32 f.loop) ++ leBytes 8 f.ftick.toNat
    ++ leSigned 8 f.sRef ++ leSigned 4 f.v ++ leSigned 4 f.heading ++ leSigned 4 f.omega ++ leSigned 4 f.accel ++ leSigned 4 f.alpha
    ++ leBytes 8 f.updTick.toNat ++ leBytes 1 (b f.speedValid 0 + b f.dirUnknown 1) ++ [f.rebase] ++ leBytes 2 0
    ++ leBytes 8 f.snapTick.toNat ++ leBytes 2 f.tokAnd.toNat ++ leBytes 2 f.tokRes.toNat ++ leBytes 4 0
    ++ f.faults.flatMap faultSlot ++ f.mails.flatMap mailSlot ++ leBytes 44 0

/-- The 1,200 bytes of a frame (R4, R425, Table 16.1); a stomped one carries the inverted CRC (R426). -/
def frameBytes (f : RvFrame) (stomped : Bool) : List Byte :=
  let body := frameBody f
  let crc := crc32 (body.drop 1)
  body ++ leBytes 4 (if stomped then ~~~crc else crc).toNat

/-- `RV_STAT` (Table 16.4). -/
def State.rvStat (s : State) : W32 :=
  let r := s.rv
  let b (v : Bool) (k : Nat) : Nat := if v then 2 ^ k else 0
  let role := match r.role with | .none_ => 0 | .head => 1 | .tributary => 2 | .acting => 3
  BitVec.ofNat 32 (role + b s.mode.straps.headLow 2 + b s.mode.straps.stbyLow 3 + b r.portA.up 4 + b r.portB.up 5
    + b (r.wrapA || r.wrapB) 6 + b s.slaved 7 + b (s.slaved && r.locked) 8 + b r.approx 9 + r.pos % 1024 * 65536)

/-! ### Slots and transmission (R426, R430, R444 to R446) -/

/-- The first free slot filled; none when every slot is used. -/
def putSlot {α : Type} : List (Option α) → α → Option (List (Option α))
  | [], _ => none
  | none :: rest, x => some (some x :: rest)
  | some y :: rest, x => (putSlot rest x).map (some y :: ·)

/-- As many as fit placed in free slots, and those left. -/
def putSlots {α : Type} (l : List (Option α)) : List α → List (Option α) × List α
  | [] => (l, [])
  | x :: xs => match putSlot l x with
    | some l' => putSlots l' xs
    | none => (l, x :: xs)

/-- Waiting notices and mailboxes placed in a frame of a ring; each MBX_SEND placed completes (R445, R446). -/
def State.placeSlots (s : State) (ring : RvRing) (f : RvFrame) : RvFrame × State :=
  let (ns, ms) := match ring with
    | .a => (s.rv.noticeA, s.rv.mailA)
    | .b => (s.rv.noticeB, s.rv.mailB)
  let (faults, nLeft) := putSlots f.faults ns
  let (mails, mLeft) := putSlots f.mails (ms.map (·.mail))
  let sent := ms.take (ms.length - mLeft.length)
  let rest := ms.drop sent.length
  let s := s.modRv fun r => match ring with
    | .a => { r with noticeA := nLeft, mailA := rest }
    | .b => { r with noticeB := nLeft, mailB := rest }
  ({ f with faults := faults, mails := mails }, sent.foldl (fun s x => s.complete 16 x.tag x.slot 0 0) s)

/-- A frame of a ring sent out of its port, or turned back with WRAPPED set; a wrap begins with the first frame after the port is
found down (R430). -/
def State.rvOut (s : State) (ring : RvRing) (f : RvFrame) (stomped : Bool) : State :=
  let other := otherRing ring
  let turned := (s.rv.port other).down
  let was := match ring with | .a => s.rv.wrapA | .b => s.rv.wrapB
  let s := if turned && !was then
      (s.modRv fun r => match ring with | .a => { r with wrapA := true } | .b => { r with wrapB := true }).raise 0x0C01 2
        (BitVec.ofNat 32 (ringBit other))
    else s
  if turned then s.send (.frame other { f with wrapped := true } stomped) else s.send (.frame ring f stomped)

/-- The bits of a token vector that this module leaves set (R444). -/
def State.tokMask (s : State) : BitVec 16 :=
  let en := BitVec.ofNat 16 (s.get R.RV_TOK_EN_EN)
  let set := BitVec.ofNat 16 (s.get R.RV_TOK_SET_SET)
  let seq := if s.flag R.SEQ_STAT_SEQ_OUT then BitVec.ofNat 16 (s.get R.RV_TOK_EN_SEQ) else 0
  ~~~en ||| set ||| seq

/-! ### Sending (R425, R442, R443) -/

/-- SNAP_TICK: the earliest published TICK that has not passed (R443). -/
def State.snapTick (s : State) : W64 :=
  let l := s.arb.snaps.filterMap fun r => match r.tick with
    | some t => if r.casc && s.now ≤ t then some t else none
    | none => none
  match l with
  | [] => 0
  | t :: ts => BitVec.ofNat 64 (ts.foldl min t)

/-- The headwater's frame of ring A at the present tick, its slots free (Table 16.1). -/
def State.headFrame (s : State) : RvFrame :=
  let c := s.course
  { ring := .a, wrapped := false, held := false, acting := s.rv.role = .acting, hops := 0, headId := s.ownHeadId, fseq := s.rv.fseq,
    ringN := s.rv.ringN, loop := s.rv.loop, ftick := s.tick.now, sRef := c.sRefRep, v := c.v, heading := c.headRep.toNat,
    omega := c.omega, accel := c.accel, alpha := c.alpha, updTick := c.updTick, speedValid := c.speedSrc ≠ 0,
    dirUnknown := c.dirUnknown, rebase := s.rv.rebase, snapTick := s.snapTick, tokAnd := s.tokMask, tokRes := s.rv.tokRes,
    faults := List.replicate 8 none, mails := List.replicate 14 none }

/-- A module that starts as the strapped headwater (R428). -/
def State.becomeHead (s : State) : State :=
  let s := s.modRv fun r => { r with role := .head, pos := 0, ringN := max 1 r.ringN }
  let s := s.modRv fun r => { r with headId := some s.ownHeadId }
  if s.mode.straps.stbyLow then s.raise 0x0C0E 0 else s

/-- A frame of one ring from the headwater, with its waiting slots. -/
def State.headSend (s : State) (ring : RvRing) (f : RvFrame) : State :=
  let (f, s) := s.placeSlots ring { f with ring := ring }
  s.rvOut ring f false

/-- RING_FRAME_SEND: one frame on each ring at every tick T with T mod 2,000 = 200 (R425). A frozen headwater sends its latest
frame with HELD set, FSEQ advancing and its slots free (R442). -/
def execRingFrameSend (s : State) : Res :=
  let starts := s.rv.role = .none_ && s.mode.straps.headLow && !s.rv.yielded
  if !s.mode.domeRun then .next s
  else if s.mode.frozen then
    match s.rv.lastFrame with
    | some f =>
      if s.isHead && s.paced s.rv.sentAt (10 * ticksPerUs) then
        let s := s.modRv fun r => { r with fseq := r.fseq + 1, sentAt := some s.tick.wall }
        let f := { f with held := true, fseq := s.rv.fseq }
        .next ((s.rvOut .a f false).rvOut .b { f with ring := .b } false)
      else .next s
    | none => .next s
  else if s.now % 2000 = 200 && (s.isHead || starts) && s.rv.sentAt ≠ some s.tick.wall then
    let s := if s.isHead then s else s.becomeHead
    let s := s.modRv fun r => { r with fseq := r.fseq + 1, sentAt := some s.tick.wall }
    let f := s.headFrame
    .next (((s.modRv fun r => { r with lastFrame := some f }).headSend .a f).headSend .b f)
  else .next s

/-! ### What a frame carries (R443 to R446) -/

/-- Inbox mailboxes handed to the pending MBX_RECV, oldest first (R446). -/
def State.mailServe (s : State) : State :=
  let n := min s.rv.inbox.length s.rv.recvs.length
  let l := (s.rv.recvs.take n).zip (s.rv.inbox.take n)
  let s := s.modRv fun r => { r with inbox := r.inbox.drop n, recvs := r.recvs.drop n }
  l.foldl (fun s p => match s.lendOf p.1.ltag with
    | some x =>
      (s.pushData 17 (.mail p.1.tag) p.1.ltag (x.addr.toNat + p.1.off) p.2.data).complete 16 p.1.tag p.1.slot 0
        (p.2.src.zeroExtend 64)
    | none => s) s

/-- Mailboxes for this module taken from a frame while the inbox of 16 has room (R446). -/
def State.takeMail (s : State) : List (Option RvMail) → List (Option RvMail) × State
  | [] => ([], s)
  | none :: rest => let (l, s) := s.takeMail rest; (none :: l, s)
  | some m :: rest =>
    if m.dest.toNat = s.rv.pos && s.rv.inbox.length < 16 then
      let (l, s) := (s.modRv fun r => { r with inbox := r.inbox ++ [m] }).takeMail rest
      (none :: l, s)
    else let (l, s) := s.takeMail rest; (some m :: l, s)

/-- The headwater steps forward for a tributary that is ahead (R434). -/
def State.aheadStep (s : State) (us : Nat) : State :=
  if s.isHead && s.mode.mode ≠ .field then
    (s.stepTo (s.now + (us + 10) * ticksPerUs)).raise 0x0C0C 0 (BitVec.ofNat 32 (satU 32 (us + 10)))
  else s

/-- A fault notice received (R445, R498). -/
def State.takeNotice (s : State) (n : RvNotice) : State :=
  let recent := s.rv.seen.filter fun x => s.now < x.2.2 + 20000
  if n.src.toNat = s.rv.pos || recent.any (fun x => x.1 = n.src && x.2.1 = n.code) then s
  else
    let s := s.modRv fun r => { r with seen := (n.src, n.code, s.now) :: recent }
    let cls : BitVec 2 := if n.cls = 3 && s.flag R.RV_CFG_REMOTE_F3 then 3 else 0
    let s := s.raise 0x0C08 cls (BitVec.ofNat 32 (n.code.toNat + n.src.toNat * 65536))
    if n.code = 0x0C0A then s.aheadStep n.data.toNat else s

/-- Notices and mailboxes of an accepted frame; what the frame then holds. -/
def State.takeSlots (s : State) (f : RvFrame) : RvFrame × State :=
  let s := f.faults.foldl (fun s n => match n with
    | some x => s.takeNotice x
    | none => s) s
  let (mails, s) := s.takeMail f.mails
  ({ f with mails := mails }, s.mailServe)

/-- A published snapshot tick, once per distinct tick (R298, R443). -/
def State.takeSnap (s : State) (t : Nat) : State :=
  if t = 0 || s.arb.snapSeen.contains t then s
  else
    let s := s.modArb fun a => { a with snapSeen := t :: a.snapSeen }
    match s.arb.snaps.findIdx? (fun r => r.tick = none) with
    | some i => s.modArb fun a => { a with snaps := a.snaps.modify i fun r => { r with tick := some t } }
    | none => (s.count R.SNAP_STAT_MISSED).raise 0x0302 0 (BitVec.ofNat 32 t)

/-! ### Slaving (R431, R432, R435) -/

/-- d of a tributary that has never measured it (R431). -/
def State.dGuess (s : State) (hops : Nat) : Int := hops * 192000 + (hops + 1) * (s.get R.RV_CFG_CABLE_NS * 1000)

/-- e and d in use with what follows: the trim of R432 and the lock of R435. -/
def State.setErr (s : State) (e d : Int) : State :=
  let s := s.modRv fun r => { r with e := e, d := d }
  let s := if s.rv.joined && s.flag R.RV_CFG_SLAVE then
      s.modRv fun r =>
        let off := r.offset + e
        { r with offset := off, trim := clampI (-200000) 200000 (-(roundDiv ((64 * e + off) * 100) 256)) }
    else s
  let near := e.natAbs ≤ 10000
  s.modRv fun r =>
    let i := if near then r.inRun + 1 else 0
    let o := if near then 0 else r.outRun + 1
    { r with inRun := i, outRun := o, locked := if r.locked then o < 4 else 64 ≤ i }

/-- The pair of frames of one FSEQ (R431): a consistent ring is measured; otherwise ring A is used with its held d (Table 16.3). -/
def State.pairErr (s : State) (tA tB : Int) : State :=
  let r := s.rv
  let ok := r.portA.hops + r.portB.hops + 2 = r.ringN
  let s := s.modRv fun r => { r with hopBad := if ok then 0 else r.hopBad + 1 }
  let s := if s.rv.hopBad = 16 then (s.count R.RV_CNT_HOP_ERR).raise 0x0C06 2 else s
  if 16 ≤ s.rv.hopBad then
    let d := s.rv.portA.d.getD (s.dGuess s.rv.portA.hops)
    (s.modRv fun r => { r with approx := true }).setErr (tA - d) d
  else
    let d := roundDiv (r.loop - 192000 + (tA - tB)) 2
    let e := tA - d
    let s := (s.modPort .a fun p => { p with d := some d }).modPort .b fun p => { p with d := some (tB - e) }
    (s.modRv fun r => { r with approx := false }).setErr e d

/-- An accepted frame stamped on its ring (R431). -/
def State.slaveStep (s : State) (f : RvFrame) (stampPs : Int) : State :=
  let t : Int := stampPs - f.ftick.toNat * 5000
  let s := s.modPort f.ring fun p => { p with stamp := some (f.fseq, t), hops := f.hops }
  let r := s.rv
  if r.portA.up && r.portB.up && !r.wrapA && !r.wrapB then
    match r.portA.stamp, r.portB.stamp with
    | some (qa, ta), some (qb, tb) => if qa = qb then s.pairErr ta tb else s
    | _, _ => s
  else
    let p := r.port f.ring
    match p.d with
    | some d => s.setErr (t - d) d
    | none =>
      let d := s.dGuess f.hops
      (s.modRv fun r => { r with approx := true }).setErr (t - d) d

/-! ### Acceptance (R427 to R431, R436 to R440) -/

/-- What the ring clock keeps of an accepted frame, in a freeze too: the port's run and time, and FSEQ of the ring (R424, R430). -/
def State.portRun (s : State) (port : RvRing) (f : RvFrame) : State :=
  let s := s.modPort port fun p => { p with run := p.run + 1, lastAt := s.tick.wall }
  if f.wrapped then s else s.modPort f.ring fun p => { p with lastFseq := some f.fseq }

/-- FSEQ, the port's run and the time of an accepted frame (R427, R430). A limit of event 0x0C07 is one limit for its code. -/
def State.portAccept (s : State) (port : RvRing) (f : RvFrame) : State :=
  let gap := match (s.rv.port f.ring).lastFseq with
    | some q => if f.wrapped then 0 else (f.fseq - q - 1).toNat
    | none => 0
  let s := s.portRun port f
  if gap = 0 then s else (s.count R.RV_CNT_LOST gap).raiseLimited 0x0C07 0 (BitVec.ofNat 32 gap) 0

/-- Ring position from ring A, after 16 successive frames that agree (R429). -/
def State.posStep (s : State) (f : RvFrame) : State :=
  if f.ring ≠ .a || f.wrapped then s
  else
    let p := 1 + f.hops
    let s := s.modRv fun r => { r with posRun := if r.posCand = p then r.posRun + 1 else 1, posCand := p }
    if 16 ≤ s.rv.posRun && s.rv.pos ≠ p then
      (s.modRv fun r => { r with pos := p }).raise 0x0C05 0 (BitVec.ofNat 32 p)
    else s

/-- A HEAD_ID other than the one in use: event 0x0C03, d is measured again and the lock set again (R438). -/
def State.headChange (s : State) (id : W32) : State :=
  match s.rv.headId with
  | none => s.modRv fun r => { r with headId := some id }
  | some old =>
    if old = id then s
    else
      let clear (p : RvPort) : RvPort := { p with d := none, stamp := none, lastFseq := none }
      (s.modRv fun r => { r with headId := some id, portA := clear r.portA, portB := clear r.portB, locked := false, inRun := 0,
                                 outRun := 0 }).raise 0x0C03 2 id

/-- The RING source from an accepted frame with HELD = 0 (R436, R437). -/
def State.ringSource (s : State) (f : RvFrame) (first : Bool) : State :=
  let st : Int := f.updTick.toNat
  let changed := !first && f.rebase ≠ s.rv.rebase
  let s := s.modRv fun r => { r with rebase := f.rebase }
  s.modCourse fun c =>
    let x := c.ring
    { c with ring := { x with speed := some ⟨f.v, st⟩, prevSpeed := x.speed, heading := some ⟨f.heading, st⟩, prevHeading := x.heading,
                              yaw := some ⟨f.omega, st⟩, dirOk := true, got := true, age := 0, newHeading := true }
             ringAccel := f.accel, ringAlpha := f.alpha, ringSRef := f.sRef, rebaseRing := c.rebaseRing || changed }

/-- A tributary's use of an accepted frame. -/
def State.tribTake (s : State) (f : RvFrame) (stampPs : Int) : State :=
  let first := s.rv.headId.isNone
  let s := if s.rv.role = .none_ then
      let s := s.modRv fun r => { r with role := .tributary }
      if s.mode.straps.headLow then s.raise 0x0C0E 0 else s
    else s
  let s := (s.headChange f.headId).modRv fun r => { r with lastSeen := s.tick.wall }
  if f.held then
    if s.rv.heldTold then s else (s.modRv fun r => { r with heldTold := true }).raise 0x0C0D 0
  else
    let s := s.modRv fun r => { r with lastTick := s.now, accepts := r.accepts + 1, fresh := true, heldTold := false, lostTold := false,
                                       loop := f.loop, ringN := if f.wrapped then r.ringN else f.ringN, tokRes := f.tokRes }
    let s := if f.wrapped then s else s.slaveStep f stampPs
    ((s.posStep f).ringSource f first).takeSnap f.snapTick.toNat

/-- A frame that returns to its headwater is ended (R426, R429, R431, R444, Table 16.3). -/
def State.headReturn (s : State) (f : RvFrame) (stampPs : Int) : State :=
  let (f, s) := s.takeSlots f
  let s := if f.ring = .a && !f.wrapped then
      s.modRv fun r => { r with loop := (stampPs - f.ftick.toNat * 5000).toNat, ringN := 1 + f.hops, tokRes := f.tokAnd }
    else s
  f.mails.foldl (fun s m => match m with
    | some x => (s.count R.RV_CNT_MAIL_DROP).raise 0x0C09 0 (BitVec.ofNat 32 (x.dest.toNat + x.src.toNat * 65536))
    | none => s) s

/-- Two headwaters: the lower HEAD_ID yields (R440). -/
def State.headConflict (s : State) (f : RvFrame) : State :=
  if s.ownHeadId < f.headId then
    (s.modRv fun r => { r with role := .tributary, yielded := true, joined := false, accepts := 0, headId := some f.headId,
                               lastFrame := none }).raise 0x0C04 2
  else s

/-- RING_FRAME_ACCEPT: a frame arrives on a port (R426, R427, R442). `intact` says that it begins with K28.5 and its CRC matches;
`arrivePs` is its arrival within the present tick, stamped in steps of 625 ps. -/
def execRingFrameAccept (port : RvRing) (f : RvFrame) (intact : Bool) (arrivePs : Nat) (s : State) : Res :=
  let stampPs : Int := s.now * 5000 + (arrivePs / 625 % 8) * 625
  let onward : RvFrame := { f with hops := f.hops + 1 }
  if !s.mode.domeOn then .next s
  else if !s.clockOn then
    let s := if intact && f.hops ≤ 1023 && s.mode.frozen then s.portRun port f else s
    .next (if s.isHead || 1023 < f.hops then s else s.rvOut f.ring onward (!intact))
  else if !intact then
    let s := (s.count R.RV_CNT_CRC_ERR).raiseLimited 0x0C07 0 1 0
    let s := (s.modPort port fun p => { p with run := 0 }).modRv fun r => { r with accepts := 0 }
    .next (if s.isHead || 1023 < f.hops then s else s.rvOut f.ring onward true)
  else if 1023 < f.hops then
    .next (((s.count R.RV_CNT_HOP_ERR).modPort port fun p => { p with run := 0 }).modRv fun r => { r with accepts := 0 })
  else
    let s := s.portAccept port f
    if s.isHead then .next (if f.headId = s.ownHeadId then s.headReturn f stampPs else s.headConflict f)
    else
      let s := s.tribTake f stampPs
      let (g, s) := s.takeSlots onward
      let (g, s) := s.placeSlots f.ring { g with tokAnd := g.tokAnd &&& s.tokMask }
      .next (s.rvOut f.ring g false)

/-! ### Joining, ports and hand-over (R428, R430, R433 to R441) -/

/-- RING_JOIN: the first accepted frame after 16 successive accepted frames (R433, R434). -/
def execRingJoin (s : State) : Res :=
  let e := s.rv.e
  if s.clockOn && s.rv.role = .tributary && !s.rv.joined && s.rv.fresh && 17 ≤ s.rv.accepts then
    let s := s.modRv fun r => { r with fresh := false }
    let pos := BitVec.ofNat 32 s.rv.pos
    if e < -1000000 then
      if s.mode.mode = .field then .next (s.raise 0x0C0B 0)
      else
        let n := ((-e + 4999) / 5000).toNat
        let s := s.stepTo (s.now + n)
        .next ((s.modRv fun r => { r with joined := true, e := e + n * 5000, lastTick := s.now }).raise 0x0C00 0 pos)
    else if 1000000 < e then
      let us := BitVec.ofNat 32 (satU 32 ((e + 999999) / 1000000))
      .next ((s.sendNotice 0x0C0A 0 us).raise 0x0C0A 0 us)
    else .next ((s.modRv fun r => { r with joined := true }).raise 0x0C00 0 pos)
  else .next s

/-- RING_PORT_DOWN: no frame accepted on a port for 30 µs (R430). -/
def execRingPortDown (port : RvRing) (s : State) : Res :=
  let p := s.rv.port port
  if s.mode.domeRun && !p.down && p.lastAt + 30 * ticksPerUs ≤ s.tick.wall then
    .next (s.modPort port fun p => { p with up := false, down := true, run := 0 })
  else .next s

/-- RING_PORT_UP: 16 successive accepted frames; a wrap at this port ends (R430). -/
def execRingPortUp (port : RvRing) (s : State) : Res :=
  let p := s.rv.port port
  if s.mode.domeRun && !p.up && 16 ≤ p.run then
    let turned := match port with | .a => s.rv.wrapB | .b => s.rv.wrapA
    let s := s.modPort port fun p => { p with up := true, down := false }
    let s := s.modRv fun r => match port with | .a => { r with wrapB := false } | .b => { r with wrapA := false }
    .next (if turned then s.raise 0x0C02 0 (BitVec.ofNat 32 (ringBit port)) else s)
  else .next s

/-- NOT_ON_RING: no frame within 10 ms of step 0x09 on either port: the module runs on its own tick and sources (R428). -/
def execNotOnRing (s : State) : Res :=
  if s.mode.domeRun && !s.isHead && s.rv.headId.isNone then .next (s.modRv fun r => { r with role := .none_ }) else .next s

/-- SLAVING_LOST: a joined tributary that is no longer slaved keeps its trim and joins again (R435). -/
def execSlavingLost (s : State) : Res :=
  if s.clockOn && s.rv.role = .tributary && s.rv.joined && !s.slaved then
    .next ((s.modRv fun r => { r with joined := false, locked := false, inRun := 0, outRun := 0, accepts := 0 }).raise 0x0C0B 0)
  else .next s

/-- STANDBY_TAKEOVER: no sign of a headwater for 100 µs; the standby headwater sends its own frames from the next tick of R425
on (R438). -/
def execStandbyTakeover (s : State) : Res :=
  let able := s.mode.straps.stbyLow && !s.mode.straps.headLow && !s.rv.yielded && !s.isHead
  if s.clockOn && able && s.rv.lastSeen + 100 * ticksPerUs ≤ s.tick.wall then
    let s := s.modRv fun r => { r with role := .acting, pos := 0, joined := false, ringN := max 1 r.ringN }
    let s := s.modRv fun r => { r with headId := some s.ownHeadId }
    .next (s.raise 0x0C03 2 s.ownHeadId)
  else .next s

/-- HEADWATER_LOST: no standby takes over; RING ceases to be valid, and event 0x0C0F is raised once (R441). -/
def execHeadwaterLost (s : State) : Res :=
  if s.clockOn && s.rv.role = .tributary && !s.rv.lostTold && s.rv.lastSeen + 100 * ticksPerUs ≤ s.tick.wall then
    let s := s.modRv fun r => { r with lostTold := true }
    .next ((s.modCourse fun c => { c with ring := { c.ring with got := false } }).raise 0x0C0F 2)
  else .next s

end Sys2Proof.Machine
end

