-- ==== Sys2Proof/Machine/Frajan.lean ====
section
/-! DEFINITION. The Frajan instruction words: which instruction a 32-bit word of instruction RAM is (R141, Tables 06.2
and 06.3), and the word of an instruction. A word with an unlisted op or fn, or with a non-zero unused field, is
illegal. -/

namespace Sys2Proof.Machine

/-- The instructions of Table 06.3 with their fields. -/
inductive Frajan where
  | add (d a b : GReg) | sub (d a b : GReg) | and (d a b : GReg) | or (d a b : GReg) | xor (d a b : GReg) | shl (d a b : GReg)
  | shr (d a b : GReg) | sar (d a b : GReg) | adds (d a b : GReg) | subs (d a b : GReg) | min (d a b : GReg) | max (d a b : GReg)
  | slt (d a b : GReg) | sltu (d a b : GReg) | mul (d a b : GReg) | mulh (d a b : GReg) | mulhu (d a b : GReg)
  | abss (d a : GReg) | rcp (d a : GReg) | rcps (d a : GReg)
  | addi (d a : GReg) (imm : BitVec 16) | andi (d a : GReg) (imm : BitVec 16) | ori (d a : GReg) (imm : BitVec 16) | xori (d a : GReg) (imm : BitVec 16) | slti (d a : GReg) (imm : BitVec 16)
  | lw (d a : GReg) (imm : BitVec 16) | lh (d a : GReg) (imm : BitVec 16) | lhu (d a : GReg) (imm : BitVec 16) | lb (d a : GReg) (imm : BitVec 16) | lbu (d a : GReg) (imm : BitVec 16)
  | sw (d a : GReg) (imm : BitVec 16) | sh (d a : GReg) (imm : BitVec 16) | sb (d a : GReg) (imm : BitVec 16)
  | lui (d : GReg) (imm : BitVec 16)
  | shli (d a : GReg) (sh : Fin 32) | shri (d a : GReg) (sh : Fin 32) | sari (d a : GReg) (sh : Fin 32)
  | mac (a b : GReg) | msu (a b : GReg) | macz (a b : GReg) | mtah (a b : GReg) | lock (a b : GReg)
  | mfa (d : GReg) (b : Fin 32) | mfah (d : GReg) | mta (a : GReg) | jr (a : GReg)
  | beq (a b : GReg) (off : BitVec 16) | bne (a b : GReg) (off : BitVec 16) | blt (a b : GReg) (off : BitVec 16)
  | bge (a b : GReg) (off : BitVec 16) | bltu (a b : GReg) (off : BitVec 16) | bgeu (a b : GReg) (off : BitVec 16)
  | j (off : BitVec 26) | jal (off : BitVec 26)
  | portIn (d : GReg) (port : BitVec 16) | portOut (a : GReg) (port : BitVec 16)
  | wait (d : GReg) (mask : BitVec 16) | unlock | ckpt | trap (imm : BitVec 16)
  deriving DecidableEq, Repr

/-- A field of an instruction word as a register number. -/
def wordReg (w : W32) (lo : Nat) : GReg := ⟨(w.toNat >>> lo) % 32, by omega⟩

/-- Format A: op 0x00, by fn, with the fields that fn uses. -/
def decodeAlu (fn : Nat) (d a b : GReg) : Option Frajan :=
  match fn with
  | 0x000 => some (.add d a b) | 0x001 => some (.sub d a b) | 0x002 => some (.and d a b)
  | 0x003 => some (.or d a b) | 0x004 => some (.xor d a b) | 0x005 => some (.shl d a b)
  | 0x006 => some (.shr d a b) | 0x007 => some (.sar d a b) | 0x008 => some (.adds d a b)
  | 0x009 => some (.subs d a b) | 0x00A => some (.min d a b) | 0x00B => some (.max d a b)
  | 0x00C => some (.slt d a b) | 0x00D => some (.sltu d a b)
  | 0x00E => if b = 0 then some (.abss d a) else none
  | _ => none

/-- Format A: op 0x0C. -/
def decodeMul (fn : Nat) (d a b : GReg) : Option Frajan :=
  match fn with
  | 0 => some (.mul d a b) | 1 => some (.mulh d a b) | 2 => some (.mulhu d a b)
  | 3 => if d = 0 then some (.mac a b) else none
  | 4 => if d = 0 then some (.msu a b) else none
  | 5 => if d = 0 then some (.macz a b) else none
  | 6 => if a = 0 then some (.mfa d b) else none
  | 7 => if a = 0 && b = 0 then some (.mfah d) else none
  | 8 => if d = 0 && b = 0 then some (.mta a) else none
  | 9 => if d = 0 then some (.mtah a b) else none
  | _ => none

/-- The instruction that a word is; none for an illegal word (R141). -/
def decodeFrajan (w : W32) : Option Frajan :=
  let d := wordReg w 21
  let a := wordReg w 16
  let b := wordReg w 11
  let fn := w.toNat % 2048
  let imm : BitVec 16 := BitVec.ofNat 16 w.toNat
  let off26 : BitVec 26 := BitVec.ofNat 26 w.toNat
  let sh : Fin 32 := ⟨w.toNat % 32, by omega⟩
  let shOk := w.toNat % 65536 / 32 == 0
  match w.toNat / 67108864 with
  | 0x00 => decodeAlu fn d a b
  | 0x01 => some (.addi d a imm) | 0x02 => some (.andi d a imm) | 0x03 => some (.ori d a imm)
  | 0x04 => some (.xori d a imm)
  | 0x05 => if a = 0 then some (.lui d imm) else none
  | 0x06 => if shOk then some (.shli d a sh) else none
  | 0x07 => if shOk then some (.shri d a sh) else none
  | 0x08 => if shOk then some (.sari d a sh) else none
  | 0x09 => some (.slti d a imm)
  | 0x0C => decodeMul fn d a b
  | 0x0D => match fn with
    | 0 => if b = 0 then some (.rcp d a) else none
    | 1 => if b = 0 then some (.rcps d a) else none
    | _ => none
  | 0x10 => some (.lw d a imm) | 0x11 => some (.lh d a imm) | 0x12 => some (.lhu d a imm)
  | 0x13 => some (.lb d a imm) | 0x14 => some (.lbu d a imm)
  | 0x18 => some (.sw d a imm) | 0x19 => some (.sh d a imm) | 0x1A => some (.sb d a imm)
  | 0x20 => some (.beq d a imm) | 0x21 => some (.bne d a imm) | 0x22 => some (.blt d a imm)
  | 0x23 => some (.bge d a imm) | 0x24 => some (.bltu d a imm) | 0x25 => some (.bgeu d a imm)
  | 0x28 => some (.j off26) | 0x29 => some (.jal off26)
  | 0x2A => if d = 0 && b = 0 && fn = 0 then some (.jr a) else none
  | 0x30 => if a = 0 then some (.portIn d imm) else none
  | 0x31 => if d = 0 then some (.portOut a imm) else none
  | 0x32 => if a = 0 then some (.wait d imm) else none
  | 0x33 => if d = 0 && fn = 0 && a ≠ 0 && b ≠ 0 && a ≠ b then some (.lock a b) else none
  | 0x34 => if w.toNat % 67108864 = 0 then some .unlock else none
  | 0x35 => if w.toNat % 67108864 = 0 then some .ckpt else none
  | 0x36 => if d = 0 && a = 0 then some (.trap imm) else none
  | _ => none

/-- A word of format A. -/
def wordA (op : Nat) (d a b : GReg) (fn : Nat) : W32 :=
  BitVec.ofNat 32 (op * 67108864 + d.val * 2097152 + a.val * 65536 + b.val * 2048 + fn)

/-- A word of formats I, B and P: two register fields and 16 bits. -/
def wordI (op : Nat) (d a : GReg) (imm : BitVec 16) : W32 :=
  BitVec.ofNat 32 (op * 67108864 + d.val * 2097152 + a.val * 65536 + imm.toNat)

/-- A word of format J. -/
def wordJ (op : Nat) (off : BitVec 26) : W32 := BitVec.ofNat 32 (op * 67108864 + off.toNat)

/-- The word of an instruction (Tables 06.2, 06.3); none for a LOCK whose pair is not a pair. -/
def encodeFrajan : Frajan → Option W32
  | .add d a b => some (wordA 0 d a b 0)
  | .sub d a b => some (wordA 0 d a b 1)
  | .and d a b => some (wordA 0 d a b 2)
  | .or d a b => some (wordA 0 d a b 3)
  | .xor d a b => some (wordA 0 d a b 4)
  | .shl d a b => some (wordA 0 d a b 5)
  | .shr d a b => some (wordA 0 d a b 6)
  | .sar d a b => some (wordA 0 d a b 7)
  | .adds d a b => some (wordA 0 d a b 8)
  | .subs d a b => some (wordA 0 d a b 9)
  | .min d a b => some (wordA 0 d a b 10)
  | .max d a b => some (wordA 0 d a b 11)
  | .slt d a b => some (wordA 0 d a b 12)
  | .sltu d a b => some (wordA 0 d a b 13)
  | .mul d a b => some (wordA 12 d a b 0)
  | .mulh d a b => some (wordA 12 d a b 1)
  | .mulhu d a b => some (wordA 12 d a b 2)
  | .abss d a => some (wordA 0 d a 0 14)
  | .addi d a imm => some (wordI 1 d a imm)
  | .andi d a imm => some (wordI 2 d a imm)
  | .ori d a imm => some (wordI 3 d a imm)
  | .xori d a imm => some (wordI 4 d a imm)
  | .slti d a imm => some (wordI 9 d a imm)
  | .lw d a imm => some (wordI 16 d a imm)
  | .lh d a imm => some (wordI 17 d a imm)
  | .lhu d a imm => some (wordI 18 d a imm)
  | .lb d a imm => some (wordI 19 d a imm)
  | .lbu d a imm => some (wordI 20 d a imm)
  | .sw d a imm => some (wordI 24 d a imm)
  | .sh d a imm => some (wordI 25 d a imm)
  | .sb d a imm => some (wordI 26 d a imm)
  | .lui d imm => some (wordI 5 d 0 imm)
  | .shli d a sh => some (wordI 6 d a (BitVec.ofNat 16 sh.val))
  | .shri d a sh => some (wordI 7 d a (BitVec.ofNat 16 sh.val))
  | .sari d a sh => some (wordI 8 d a (BitVec.ofNat 16 sh.val))
  | .mac a b => some (wordA 12 0 a b 3)
  | .msu a b => some (wordA 12 0 a b 4)
  | .macz a b => some (wordA 12 0 a b 5)
  | .mtah a b => some (wordA 12 0 a b 9)
  | .mfa d b => some (wordA 12 d 0 b 6)
  | .mfah d => some (wordA 12 d 0 0 7)
  | .mta a => some (wordA 12 0 a 0 8)
  | .rcp d a => some (wordA 13 d a 0 0)
  | .rcps d a => some (wordA 13 d a 0 1)
  | .beq a b off => some (wordI 32 a b off)
  | .bne a b off => some (wordI 33 a b off)
  | .blt a b off => some (wordI 34 a b off)
  | .bge a b off => some (wordI 35 a b off)
  | .bltu a b off => some (wordI 36 a b off)
  | .bgeu a b off => some (wordI 37 a b off)
  | .j off => some (wordJ 40 off)
  | .jal off => some (wordJ 41 off)
  | .jr a => some (wordA 42 0 a 0 0)
  | .portIn d port => some (wordI 48 d 0 port)
  | .portOut a port => some (wordI 49 0 a port)
  | .wait d mask => some (wordI 50 d 0 mask)
  | .lock a b => if a ≠ 0 && b ≠ 0 && a ≠ b then some (wordA 51 0 a b 0) else none
  | .unlock => some (wordA 52 0 0 0 0)
  | .ckpt => some (wordA 53 0 0 0 0)
  | .trap imm => some (wordI 54 0 0 imm)

end Sys2Proof.Machine
end

