-- ==== Sys2Proof/Machine/Engine.lean ====
section
/-! DEFINITION. The Frajan instructions that act on the engine alone (Table 06.3): arithmetic, immediates, multiply,
reciprocal, load, store, branch and jump. Each runs in the frame of Operands.lean. An instruction row carries its
fields; the engine must be able to issue it (assumption 3). -/

namespace Sys2Proof.Machine

/-- ADD: d = a + b, wrapping (Table 06.3). -/
def execAdd (e : Eng) (d a b : GReg) (s : State) : Res :=
  aluInsn e d [a, b] 1 (fun x => (x.getG a + x.getG b, 0)) s

/-- SUB: d = a - b, wrapping. -/
def execSub (e : Eng) (d a b : GReg) (s : State) : Res :=
  aluInsn e d [a, b] 1 (fun x => (x.getG a - x.getG b, 0)) s

/-- AND, bitwise. -/
def execAnd (e : Eng) (d a b : GReg) (s : State) : Res :=
  aluInsn e d [a, b] 1 (fun x => (x.getG a &&& x.getG b, 0)) s

/-- OR, bitwise. -/
def execOr (e : Eng) (d a b : GReg) (s : State) : Res :=
  aluInsn e d [a, b] 1 (fun x => (x.getG a ||| x.getG b, 0)) s

/-- XOR, bitwise. -/
def execXor (e : Eng) (d a b : GReg) (s : State) : Res :=
  aluInsn e d [a, b] 1 (fun x => (x.getG a ^^^ x.getG b, 0)) s

/-- SHL: logical shift left by b[4:0]. -/
def execShl (e : Eng) (d a b : GReg) (s : State) : Res :=
  aluInsn e d [a, b] 1 (fun x => (x.getG a <<< ((x.getG b).toNat % 32), 0)) s

/-- SHR: logical shift right by b[4:0]. -/
def execShr (e : Eng) (d a b : GReg) (s : State) : Res :=
  aluInsn e d [a, b] 1 (fun x => (x.getG a >>> ((x.getG b).toNat % 32), 0)) s

/-- SAR: arithmetic shift right by b[4:0]. -/
def execSar (e : Eng) (d a b : GReg) (s : State) : Res :=
  aluInsn e d [a, b] 1 (fun x => ((x.getG a).sshiftRight ((x.getG b).toNat % 32), 0)) s

/-- ADDS: signed, saturating (R143). -/
def execAdds (e : Eng) (d a b : GReg) (s : State) : Res :=
  aluInsn e d [a, b] 1 (fun x => sat32 ((x.getG a).toInt + (x.getG b).toInt)) s

/-- SUBS: signed, saturating (R143). -/
def execSubs (e : Eng) (d a b : GReg) (s : State) : Res :=
  aluInsn e d [a, b] 1 (fun x => sat32 ((x.getG a).toInt - (x.getG b).toInt)) s

/-- MIN, signed. -/
def execMin (e : Eng) (d a b : GReg) (s : State) : Res :=
  aluInsn e d [a, b] 1 (fun x => (if (x.getG a).slt (x.getG b) then x.getG a else x.getG b, 0)) s

/-- MAX, signed. -/
def execMax (e : Eng) (d a b : GReg) (s : State) : Res :=
  aluInsn e d [a, b] 1 (fun x => (if (x.getG a).slt (x.getG b) then x.getG b else x.getG a, 0)) s

/-- SLT: 1 when a < b, signed. -/
def execSlt (e : Eng) (d a b : GReg) (s : State) : Res :=
  aluInsn e d [a, b] 1 (fun x => (if (x.getG a).slt (x.getG b) then 1 else 0, 0)) s

/-- SLTU: 1 when a < b, unsigned. -/
def execSltu (e : Eng) (d a b : GReg) (s : State) : Res :=
  aluInsn e d [a, b] 1 (fun x => (if (x.getG a).ult (x.getG b) then 1 else 0, 0)) s

/-- ABSS: |a|, saturating (R143). -/
def execAbss (e : Eng) (d a : GReg) (s : State) : Res :=
  aluInsn e d [a] 1 (fun x => sat32 ((x.getG a).toInt.natAbs : Int)) s

/-- ADDI: d = a + sext(imm16). -/
def execAddi (e : Eng) (d a : GReg) (imm : BitVec 16) (s : State) : Res :=
  aluInsn e d [a] 1 (fun x => (x.getG a + sext16 imm, 0)) s

/-- ANDI: d = a AND zext(imm16). -/
def execAndi (e : Eng) (d a : GReg) (imm : BitVec 16) (s : State) : Res :=
  aluInsn e d [a] 1 (fun x => (x.getG a &&& zext16 imm, 0)) s

/-- ORI: d = a OR zext(imm16). -/
def execOri (e : Eng) (d a : GReg) (imm : BitVec 16) (s : State) : Res :=
  aluInsn e d [a] 1 (fun x => (x.getG a ||| zext16 imm, 0)) s

/-- XORI: d = a XOR zext(imm16). -/
def execXori (e : Eng) (d a : GReg) (imm : BitVec 16) (s : State) : Res :=
  aluInsn e d [a] 1 (fun x => (x.getG a ^^^ zext16 imm, 0)) s

/-- LUI: d = imm16 << 16. -/
def execLui (e : Eng) (d : GReg) (imm : BitVec 16) (s : State) : Res :=
  aluInsn e d [] 1 (fun _ => (zext16 imm <<< (16 : Nat), 0)) s

/-- SHLI: a shifted left by imm16[4:0]. -/
def execShli (e : Eng) (d a : GReg) (sh : Fin 32) (s : State) : Res :=
  aluInsn e d [a] 1 (fun x => (x.getG a <<< sh.val, 0)) s

/-- SHRI: a shifted right by imm16[4:0], logical. -/
def execShri (e : Eng) (d a : GReg) (sh : Fin 32) (s : State) : Res :=
  aluInsn e d [a] 1 (fun x => (x.getG a >>> sh.val, 0)) s

/-- SARI: a shifted right by imm16[4:0], arithmetic. -/
def execSari (e : Eng) (d a : GReg) (sh : Fin 32) (s : State) : Res :=
  aluInsn e d [a] 1 (fun x => ((x.getG a).sshiftRight sh.val, 0)) s

/-- SLTI: 1 when a < sext(imm16), signed. -/
def execSlti (e : Eng) (d a : GReg) (imm : BitVec 16) (s : State) : Res :=
  aluInsn e d [a] 1 (fun x => (if (x.getG a).slt (sext16 imm) then 1 else 0, 0)) s

/-- MUL: bits [31:0] of a × b. -/
def execMul (e : Eng) (d a b : GReg) (s : State) : Res :=
  aluInsn e d [a, b] 1 (fun x => (x.getG a * x.getG b, 0)) s

/-- MULH: bits [63:32] of the signed product. -/
def execMulh (e : Eng) (d a b : GReg) (s : State) : Res :=
  aluInsn e d [a, b] 1 (fun x => ((BitVec.ofInt 64 ((x.getG a).toInt * (x.getG b).toInt)).extractLsb' 32 32, 0)) s

/-- MULHU: bits [63:32] of the unsigned product. -/
def execMulhu (e : Eng) (d a b : GReg) (s : State) : Res :=
  aluInsn e d [a, b] 1 (fun x => ((BitVec.ofNat 64 ((x.getG a).toNat * (x.getG b).toNat)).extractLsb' 32 32, 0)) s

/-- MAC: ACC = sat64(ACC + a × b), signed. -/
def execMac (e : Eng) (a b : GReg) (s : State) : Res :=
  accInsn e [a, b] (fun x => sat64 (x.acc.toInt + (x.getG a).toInt * (x.getG b).toInt)) s

/-- MSU: ACC = sat64(ACC - a × b), signed. -/
def execMsu (e : Eng) (a b : GReg) (s : State) : Res :=
  accInsn e [a, b] (fun x => sat64 (x.acc.toInt - (x.getG a).toInt * (x.getG b).toInt)) s

/-- MACZ: ACC = a × b, signed. -/
def execMacz (e : Eng) (a b : GReg) (s : State) : Res :=
  accInsn e [a, b] (fun x => (BitVec.ofInt 64 ((x.getG a).toInt * (x.getG b).toInt), 0)) s

/-- MFA: d = sat32(round(ACC ÷ 2^b)), b the field value. -/
def execMfa (e : Eng) (d : GReg) (b : Fin 32) (s : State) : Res :=
  aluInsn e d [] 1 (fun x => mfaWord x.acc b.val) s

/-- MFAH: d = ACC[63:32]. -/
def execMfah (e : Eng) (d : GReg) (s : State) : Res :=
  aluInsn e d [] 1 (fun x => (x.acc.extractLsb' 32 32, 0)) s

/-- MTA: ACC = sext64(a). -/
def execMta (e : Eng) (a : GReg) (s : State) : Res :=
  accInsn e [a] (fun x => ((x.getG a).signExtend 64, 0)) s

/-- MTAH: ACC[63:32] = a, ACC[31:0] = b. -/
def execMtah (e : Eng) (a b : GReg) (s : State) : Res :=
  accInsn e [a, b] (fun x => (x.getG a ++ x.getG b, 0)) s

/-- RCP: round(2^32 ÷ a), unsigned; the engine stalls for 4 cycles (R143). -/
def execRcp (e : Eng) (d a : GReg) (s : State) : Res :=
  aluInsn e d [a] 4 (fun x => rcpU (x.getG a)) s

/-- RCPS: sat32(round(2^31 ÷ a)), signed; 4 cycles (R143). -/
def execRcps (e : Eng) (d a : GReg) (s : State) : Res :=
  aluInsn e d [a] 4 (fun x => rcpS (x.getG a)) s

/-- LW: a word. -/
def execLw (e : Eng) (d a : GReg) (imm : BitVec 16) (s : State) : Res :=
  loadInsn e d a imm 4 (fun v => BitVec.ofNat 32 v) s

/-- LH: a halfword, sign-extended. -/
def execLh (e : Eng) (d a : GReg) (imm : BitVec 16) (s : State) : Res :=
  loadInsn e d a imm 2 (fun v => (BitVec.ofNat 16 v).signExtend 32) s

/-- LHU: a halfword, zero-extended. -/
def execLhu (e : Eng) (d a : GReg) (imm : BitVec 16) (s : State) : Res :=
  loadInsn e d a imm 2 (fun v => BitVec.ofNat 32 v) s

/-- LB: a byte, sign-extended. -/
def execLb (e : Eng) (d a : GReg) (imm : BitVec 16) (s : State) : Res :=
  loadInsn e d a imm 1 (fun v => (BitVec.ofNat 8 v).signExtend 32) s

/-- LBU: a byte, zero-extended. -/
def execLbu (e : Eng) (d a : GReg) (imm : BitVec 16) (s : State) : Res :=
  loadInsn e d a imm 1 (fun v => BitVec.ofNat 32 v) s

/-- SW: the d field register's word. -/
def execSw (e : Eng) (d a : GReg) (imm : BitVec 16) (s : State) : Res :=
  storeInsn e d a imm 4 s

/-- SH: its low halfword. -/
def execSh (e : Eng) (d a : GReg) (imm : BitVec 16) (s : State) : Res :=
  storeInsn e d a imm 2 s

/-- SB: its low byte. -/
def execSb (e : Eng) (d a : GReg) (imm : BitVec 16) (s : State) : Res :=
  storeInsn e d a imm 1 s

/-- BEQ: a = b. -/
def execBeq (e : Eng) (a b : GReg) (off : BitVec 16) (s : State) : Res :=
  branchInsn e a b off (fun p q => p == q) s

/-- BNE: a ≠ b. -/
def execBne (e : Eng) (a b : GReg) (off : BitVec 16) (s : State) : Res :=
  branchInsn e a b off (fun p q => p != q) s

/-- BLT: a < b, signed. -/
def execBlt (e : Eng) (a b : GReg) (off : BitVec 16) (s : State) : Res :=
  branchInsn e a b off (fun p q => p.slt q) s

/-- BGE: a ≥ b, signed. -/
def execBge (e : Eng) (a b : GReg) (off : BitVec 16) (s : State) : Res :=
  branchInsn e a b off (fun p q => !p.slt q) s

/-- BLTU: a < b, unsigned. -/
def execBltu (e : Eng) (a b : GReg) (off : BitVec 16) (s : State) : Res :=
  branchInsn e a b off (fun p q => p.ult q) s

/-- BGEU: a ≥ b, unsigned. -/
def execBgeu (e : Eng) (a b : GReg) (off : BitVec 16) (s : State) : Res :=
  branchInsn e a b off (fun p q => !p.ult q) s

/-- J: PC = PC + 4 + 4 × off26. -/
def execJ (e : Eng) (off : BitVec 26) (s : State) : Res :=
  runInsn e [] 2 2 (fun x => .jump x (relTarget x (off.signExtend 32))) s

/-- JAL: as J, and g31 = PC + 4. -/
def execJal (e : Eng) (off : BitVec 26) (s : State) : Res :=
  runInsn e [] 2 2
    (fun x => if x.mayWrite 31 then
        .jump (x.setG 31 (BitVec.ofNat 32 (x.pc + 4))) (relTarget x (off.signExtend 32))
      else .exc .lock) s

/-- JR: PC = a; the low bits of the target are never ignored (Table 06.7). -/
def execJr (e : Eng) (a : GReg) (s : State) : Res :=
  runInsn e [a] 2 2 (fun x => .jump x (x.getG a)) s

/-- ILLEGAL_INSTRUCTION: an undefined op or fn, or a non-zero unused field, takes exception 0x1 (R141). A
word that is an instruction is not illegal. -/
def execIllegalInstruction (e : Eng) (word : W32) (s : State) : Res :=
  if (decodeFrajan word).isSome then .next s else runInsn e [] 1 1 (fun _ => .exc .illegal) s

/-- TRAP: exception 0x8 with imm16 as its data; exception 0x6 in a locked sequence (R157, R159). -/
def execTrap (e : Eng) (imm : BitVec 16) (s : State) : Res :=
  if s.canIssue e then
    let x := s.eng[e]
    if x.lock.isSome then .next (s.engExc e .lock x.pc 0) else .next (s.engExc e .trap x.pc imm.toNat)
  else .next s

/-- ENGINE_WATCHDOG: the count reaches 400,000 cycles and the engine takes exception 0x7 (R160). -/
def execEngineWatchdog (e : Eng) (s : State) : Res :=
  if s.canIssue e && 400000 ≤ s.eng[e].wdog then .next (s.engExc e .watchdog s.eng[e].pc 0) else .next s

/-- ENGINE_TIMER_EXPIRY: the TMR count expires and TIMER is latched (Table 06.4, Table 06.5). -/
def execEngineTimerExpiry (e : Eng) (s : State) : Res :=
  match s.eng[e].tmr with
  | some t => if s.clockOn && t ≤ s.now then
      .next (s.modEng e fun x => { x with tmr := none, pend := x.pend ||| 0x40 }) else .next s
  | none => .next s

end Sys2Proof.Machine
end

