-- ==== Sys2Proof/Machine/Takeover.lean ====
section
/-! DEFINITION. Spares, takeover and limp (09_takeover_and_limp.md): declarations, resumes, deposed engines, self-test,
hand-back, and the start of a program in an engine (R163, Table 06.9). -/

namespace Sys2Proof.Machine

/-- The engines of a spire: its home engines in order, then its spare (Table 06.1). -/
def engsOfSpire (p : Spire) : List Eng := (chansOfSpire p).map homeOf ++ [spareOf p]

/-- The channel that an engine serves; the home engine of a follower or member serves none (R239). -/
def State.serves (s : State) (e : Eng) : Option Ch :=
  match (s.eng[e]).chan with
  | some c => if (s.eng[e]).role = .home && s.isMember c then none else some c
  | none => none

/-- An engine is taking a channel of the spire: between steps 1 and 5 of Table 09.2. -/
def State.isTaking (s : State) (p : Spire) (e : Eng) : Bool :=
  (chansOfSpire p).any fun c => match (s.ch c).takeover with
    | some (t, _, _) => t = e
    | none => false

/-- The idle spare of a spire (R243, R249). -/
def State.idleSpare (s : State) (p : Spire) : Option Eng :=
  (engsOfSpire p).find? fun e =>
    let x := s.eng[e]
    x.role = .idle && !x.retired && x.selfTest.isNone && !x.halted && !s.isTaking p e

/-- Event data of an engine of a spire (Table 09.7). -/
def engData (e : Eng) (reason : Nat) : W32 := BitVec.ofNat 32 (engCode e + 32 * reason)

/-- An engine retired until the next Dome-logic reset (R247, R248); event 0x85. -/
def State.retire (s : State) (e : Eng) (reason : Nat) : State :=
  (s.modEng e fun x =>
    { x with retired := true, running := false, asleep := none, pend := 0, selfTest := none, deposedAt := none,
             lock := none }).raise (spireCode (spireOfEng e) 0x85) 0 (engData e reason)

/-- The engine in control of a channel loses it: role 3, ROLE latched; at its third deposition it is retired, and one
already stopped or asleep stops there (R247, R248). -/
def State.depose (s : State) (e : Eng) (c : Ch) : State :=
  let x := s.eng[e]
  let s := s.modEng e fun x =>
    { x with role := .deposed, chan := none, lostCh := some c, deposedAt := some s.now, deposed := min 3 (x.deposed + 1),
             pend := x.pend ||| 0x100 }
  let s := s.eddyTrigger e 1
  if 3 ≤ x.deposed + 1 then s.retire e 2
  else if !x.running || x.asleep.isSome then s.deposedStop e 3
  else s

/-- The epoch of a channel at a change of its engine in control, with what R242 clears. -/
def State.newEpoch (s : State) (c : Ch) (ctl : Option Eng) : State :=
  s.modCh c fun h => { h with epoch := h.epoch + 1, ctl := ctl, missRun := 0, dueOpen := false, missDue := false }

/-- An engine begins to take a channel: the steps of Table 09.2 are under way (R244). It gets its role, channel and epoch at
step 5. -/
def State.startTakeover (s : State) (c : Ch) (e : Eng) (giver : Option Eng) : State :=
  (s.newEpoch c (some e)).modCh c fun h => { h with takeover := some (e, s.now, giver) }

/-- An engine declared dead (R242, R243): `cause` 0 for deadlines, 1 for an implausible duty. -/
def State.declareDead (s : State) (c : Ch) (cause : Nat) : State :=
  match (s.ch c).ctl with
  | none => s
  | some dead =>
    let p := spireOf c
    let spare := s.idleSpare p
    let s := s.depose dead c
    match spare with
    | some e =>
      let s := (s.startTakeover c e none).count (R.TKO_CNT_TAKEOVERS p)
      s.raise (spireCode p 0x80) 1
        (BitVec.ofNat 32 (c.val + engCode e * 256 + cause * 8192 + (s.ch c).epoch.toNat * 65536))
    | none =>
      let s := ((s.newEpoch c none).modCh c fun h => { h with limp := true, takeover := none }).count (R.TKO_CNT_LIMPS p)
      s.raise (spireCode p 0x81) 2 (BitVec.ofNat 32 (c.val + cause * 8192 + (s.ch c).epoch.toNat * 65536))

/-- DEADLINE_MISS: a missed deadline is counted; the third in succession is a declaration (R149, R242). -/
def execDeadlineMiss (c : Ch) (s : State) : Res :=
  if s.clockOn && (s.ch c).missDue then
    let s := s.modCh c fun h =>
      { h with missDue := false, missRun := h.missRun + 1, cnt := { h.cnt with missed := h.cnt.missed + 1 } }
    let s := (s.count (R.CH_ENG_CNT_MISSED c)).raiseLimited (chCode c 0x60) 0 (BitVec.ofNat 32 c.val) c.val
    .next (if 3 ≤ (s.ch c).missRun && (s.ch c).takeover.isNone then s.declareDead c 0 else s)
  else .next s

/-! ### Programs in an engine (R140, R156, R163) -/

/-- Words as bytes, little-endian (R4). -/
def wordBytes (ws : List W32) : List Byte := ws.flatMap fun w => leBytes 4 w.toNat

/-- An engine with its registers as a start leaves them: all read 0, nothing pending (R140, R156). -/
def Engine.cleared (x : Engine) : Engine :=
  { x with g := Vector.replicate 32 0, acc := 0, flags := 0, pend := 0, asleep := none, lock := none, tickH := 0,
           wdog := 0, tmr := none, trace := [], lastLoad := none, exc := 0, excPc := 0, took := false, lbHalt := false,
           ramFree := none }

/-- An engine with a slot's code and data, at a word index. -/
def Engine.loadSlot (x : Engine) (sl : Slot) (start : Nat) : Engine :=
  { x.cleared with iram := sl.code, codeLen := 4 * sl.code.length, dram := memWrite [] 0 (wordBytes sl.data), pc := 4 * start }

/-- The stream FIFOs of a channel emptied (Table 09.2). -/
def State.emptyFifos (s : State) (c : Ch) : State := s.modCh c fun h => { h with istrm := [], vstrm := [] }

/-- R163 steps 3 to 5: the program of a channel starts at ENTRY in the engine in control, and event 0x66 is raised. A FIFO is
emptied where the header clears its enable bit (R145). -/
def State.startProgram (s : State) (c : Ch) : State :=
  match (s.ch c).ctl with
  | none => s
  | some e =>
    let sl := (s.ch c).slot
    let s := s.modEng e fun x => { x.loadSlot sl sl.entry with running := true, prog := {} }
    let s := s.modCh c fun h =>
      { h with stopReq := false, istrm := if sl.istrm then h.istrm else [], vstrm := if sl.vstrm then h.vstrm else [] }
    let s := ((s.put (R.CH_ENG_CTRL_RUN c) 1).putFlag (R.CH_ENG_CTRL_ISTRM_EN c) sl.istrm).putFlag
      (R.CH_ENG_CTRL_VSTRM_EN c) sl.vstrm
    let s := (s.putFlag (R.CH_ENG_STAT_LOADED c) true).putFlag (R.CH_ENG_STAT_LAT_ENGINE c) false
    s.raise (chCode c 0x66) 0 (BitVec.ofNat 32 (c.val + sl.progId.toNat % 65536 * 65536))

/-- What a resuming program takes up (R174, R179): the values of its checkpoint block; its first sample is a gap. -/
def Prog.resumed (p : Prog) : Prog :=
  let n := min p.nz.nO p.nz.nC
  let m := min p.mt.nSpin p.mt.nStop
  { started := false, valid := p.valid, prm := p.prm, xQ8 := p.xQ8, iPrev := p.iPrev, lastLat := p.lastLat, dB := p.dB,
    gap := true, prevTick := p.prevTick
    nz := { phase := p.nz.phase, freq := p.nz.freq, cont := p.nz.cont, senseOn := p.nz.senseOn, effTick := p.nz.effTick,
            endTick := p.nz.endTick, tOn := p.nz.tOn, rPulse := p.nz.rPulse, nextGrid := p.nz.nextGrid,
            gridMin := p.nz.gridMin, lO := p.nz.lO,
            lC := p.nz.lC, nO := n, nC := n, stick := p.nz.stick, stuckFlag := p.nz.stuckFlag, acting := p.nz.acting,
            actGap := true }
    mt := { running := p.mt.running, nRef := p.mt.nRef, xs := p.mt.xs, mQ8 := p.mt.mQ8, ripLast := p.mt.ripLast,
            ivals := p.mt.ivals, c := p.mt.c, rejects := p.mt.rejects, inserts := p.mt.inserts, units := p.mt.units,
            dist := p.mt.dist, spin := p.mt.spin, stop := p.mt.stop, nSpin := m, nStop := m }
    ln := { pRef := p.ln.pRef, xp := roundDiv (roundDiv (p.ln.xp * 256) 1000 * 1000) 256, stallTmr := p.ln.stallTmr, stalled := p.ln.stalled, fault := p.ln.fault, fresh := true } }

/-- TAKEOVER_RESUME: step 5 of Table 09.2; the taking engine runs from RESUME on the data image overlaid by the
committed checkpoint (R156, R244, R254). -/
def execTakeoverResume (c : Ch) (s : State) : Res :=
  match (s.ch c).takeover with
  | none => .next s
  | some (e, t, giver) =>
    if s.clockOn && t ≤ s.now then
      let h := s.ch c
      let runs := s.flag (R.CH_ENG_CTRL_RUN c) && s.flag (R.CH_ENG_STAT_LOADED c)
      let s := s.modEng e fun x =>
        let y := x.loadSlot h.slot h.slot.resume
        { y with running := runs, prog := h.mirror.prog.resumed, chan := some c, epoch := h.epoch
                 role := if giver.isSome then .home else .ctl
                 dram := match h.mirror.block with
                   | some b => memWrite y.dram 0 b
                   | none => y.dram }
      let s := (s.modCh c fun h => { h with takeover := none }).emptyFifos c
      match giver with
      | none => .next s
      | some g =>
        let s := s.modEng g fun x =>
          { x with role := .idle, chan := none, running := false, asleep := none, pend := 0, lock := none }
        .next (s.raise (chCode c 0x89) 0 (BitVec.ofNat 32 c.val))
    else .next s

/-! ### Deposed engines (R247 to R249) -/

/-- DEPOSED_RETIRE_TIMEOUT: an engine that has not stopped 2 ms after its deposition is retired (R247). -/
def execDeposedRetireTimeout (e : Eng) (s : State) : Res :=
  match (s.eng[e]).deposedAt with
  | none => .next s
  | some t => if s.clockOn && t + 400000 ≤ s.now then .next (s.retire e 1) else .next s

/-- The lowest channel in limp takes an idle spare (R249, R253); event 0x82. It comes after the self-tests and the declarations
of its tick, when the tick passes. -/
def State.limpTakes (s : State) (p : Spire) : State :=
  match (chansOfSpire p).find? (fun c => (s.ch c).limp), s.idleSpare p with
  | some c, some e =>
    let s := (s.startTakeover c e none).modCh c fun h => { h with limp := false }
    s.raise (spireCode p 0x82) 0 (BitVec.ofNat 32 (c.val + engCode e * 256))
  | _, _ => s

/-- SELF_TEST_DONE: 8,192 ticks of self-test end (R248). One that passes becomes the idle spare, one that fails is retired; the
test has overwritten both RAMs, which hold free values (assumption 5). -/
def execSelfTestDone (e : Eng) (passed : Bool) (s : State) : Res :=
  match (s.eng[e]).selfTest with
  | none => .next s
  | some t =>
    if s.clockOn && t + 8192 ≤ s.now then
      let k := s.free
      let s := { s with free := s.free + 1 }
      let s := s.modEng e fun x => { x.cleared with selfTest := none, dram := [], iram := [], codeLen := 0, ramFree := some k }
      if passed then
        let s := s.modEng e fun x => { x with role := .idle, chan := none }
        let p := spireOfEng e
        .next ((s.count (R.TKO_CNT_RETURNS p)).raise (spireCode p 0x84) 0 (engData e 0))
      else .next (s.retire e 0)
    else .next s

/-! ### Hand-back (R254) -/

/-- A write to `TKO_CTRL`. -/
def State.handback (s : State) (p : Spire) (v : W32) : State :=
  if v.getLsbD 4 then
    let c := chanAt p ⟨v.toNat % 16, Nat.mod_lt _ (by decide)⟩
    let home := homeOf c
    let x := s.eng[home]
    let ok := s.mode.mode ≠ .field && x.role = .idle && !x.retired && x.selfTest.isNone && (s.ch c).takeover.isNone
      && !s.isTaking p home
    match (s.ch c).ctl with
    | some g =>
      if ok && g ≠ home then s.startTakeover c home (some g)
      else s.raise (chCode c 0x8A) 0 (BitVec.ofNat 32 c.val)
    | none => s.raise (chCode c 0x8A) 0 (BitVec.ofNat 32 c.val)
  else s

/-- TKO_HANDBACK: a write to `TKO_CTRL` (R254). -/
def execTkoHandback (p : Spire) (v : W32) (s : State) : Res :=
  if s.hostWritable then .next (s.handback p v) else .next s

/-! ### CH_ENG_CTRL (Table 06.9, R165) -/

/-- The engine in control of a channel runs. -/
def State.engRunning (s : State) (c : Ch) : Bool :=
  match (s.ch c).ctl with
  | some e => (s.eng[e]).running && (s.ch c).takeover.isNone
  | none => false

/-- RUN cleared: the die is held at ON = 0, LAT_ENGINE clears, and the engine stops at its next WAIT (R152,
Table 06.9). -/
def State.runStop (s : State) (c : Ch) : State :=
  let s := (s.put (R.CH_ENG_CTRL_RUN c) 0).putFlag (R.CH_ENG_STAT_LAT_ENGINE c) false
  let s := s.sendOn c 0 none
  s.modCh c fun h => { h with stopReq := true, dueOpen := false }

/-- RUN written 1 (Table 06.9); the engine of a follower or member stays idle (R110). -/
def State.runStart (s : State) (c : Ch) : State :=
  if !s.flag (R.CH_ENG_STAT_LOADED c) || s.isMember c then s.put (R.CH_ENG_CTRL_RUN c) 0
  else if !s.flag (R.CH_ENG_CTRL_RUN c) || !s.engRunning c then (s.put (R.CH_ENG_CTRL_RUN c) 1).startProgram c
  else s

/-- A write of `CH_ENG_CTRL` (R165): discarded with event 0x56 in FIELD. -/
def State.engCtrlWrite (s : State) (c : Ch) (v : W32) : State :=
  if s.mode.mode = .field then s.raise (chCode c 0x56) 0 (BitVec.ofNat 32 c.val)
  else
    let was := s.flag (R.CH_ENG_CTRL_RUN c)
    let w := (v &&& 0x00003F06) ||| (s.reg (R.CH_ENG_CTRL c) &&& 1)
    let s := s.setReg (R.CH_ENG_CTRL c) w
    let s := if v.getLsbD 1 then s else s.modCh c fun h => { h with istrm := [] }
    let s := if v.getLsbD 2 then s else s.modCh c fun h => { h with vstrm := [] }
    let s := if v.getLsbD 0 then s.runStart c else if was then s.runStop c else s
    s.levelCh c

/-- CH_ENG_CTRL_WRITE (R165). -/
def execChEngCtrlWrite (c : Ch) (v : W32) (s : State) : Res :=
  if s.hostWritable then .next (s.engCtrlWrite c v) else .next s

/-! ### Role words (Tables 09.4, 09.5, R255) -/

/-- The role word of an engine (Table 09.4). -/
def State.roleWord (s : State) (e : Eng) : W32 :=
  let x := s.eng[e]
  let role := if x.retired then 3 else match x.role with
    | .home => 0 | .idle => 1 | .ctl => 2 | .deposed => 3
  let b (y : Bool) (k : Nat) : Nat := if y then 2 ^ k else 0
  let served := if x.retired then none else s.serves e
  BitVec.ofNat 32 ((match served with
      | some c => (s.ch c).epoch.toNat + c.val * 65536
      | none => 2 ^ 24)
    + role * 2 ^ 25 + b x.retired 27 + b x.selfTest.isSome 28 + x.deposed * 2 ^ 29)

/-- `TKO_STAT` of a spire (Table 09.5). `bites` are the tenure bites of its agent in the window. -/
def State.tkoStat (s : State) (p : Spire) : W32 :=
  let spare := match s.idleSpare p with
    | some e => engCode e
    | none => 0x1F
  let limp := (List.finRange 16).foldl (fun a k => a + if (s.ch (chanAt p k)).limp then 2 ^ k.val else 0) 0
  let rq : Rq := ⟨p.val, by omega⟩
  let bites := ((s.arb.rq[rq]).biteTicks.filter fun t => s.now < t + ticksPerS).length
  BitVec.ofNat 32 (spare + (s.spire[p]).agent.toNat * 32 + min bites 3 * 256 + limp * 65536)

/-- `TKO_RETIRED` of a spire (Table 09.5). -/
def State.tkoRetired (s : State) (p : Spire) : W32 :=
  BitVec.ofNat 32 ((engsOfSpire p).foldl (fun a e => a + if (s.eng[e]).retired then 2 ^ engCode e else 0) 0)

/-- The engine that `TKO_SEL` names. -/
def State.tkoSel (s : State) (p : Spire) : Eng :=
  (engsOfSpire p).getD (min 16 (s.get (R.TKO_SEL_ENGINE p))) (spareOf p)

end Sys2Proof.Machine
end

