-- ==== Sys2Proof/Machine/RegView.lean ====
section
/-! DEFINITION. Reads: every BAR0 word as it reads at an instant, the read paths with their high-half latches and RC
fields (R6, R9, R10, R263, R266), and the state window of BAR4 (R415, R417; 18_register_map.md). -/

namespace Sys2Proof.Machine

/-- A bit of a status word. -/
def bitAt (v : Bool) (k : Nat) : Nat := if v then 2 ^ k else 0

/-- The low or high word of a 64-bit register. -/
def halfOf (v : Nat) (high : Bool) : W32 := BitVec.ofNat 32 (if high then v / 2 ^ 32 else v)

/-! ### Words that show state kept elsewhere -/

/-- `CH_LEG` (Table 05.12). -/
def State.legWord (s : State) (c : Ch) : W32 :=
  let g := (s.ch c).stage
  BitVec.ofNat 32 (bitAt g.legA.inService 0 + bitAt g.legB.inService 1 + g.legA.why.toNat * 4 + g.legB.why.toNat * 16
    + min 3 g.legA.restores * 64 + min 3 g.legB.restores * 256 + bitAt g.legA.worn 10 + bitAt g.legB.worn 11 + bitAt g.stuck 12)

/-- `CH_STAGE_STAT` (Table 05.13). -/
def State.stageStat (s : State) (c : Ch) : W32 :=
  let g := (s.ch c).stage
  let gl := (s.ch (s.leadOf c)).stage
  BitVec.ofNat 32 (bitAt (s.driven c) 0 + bitAt g.highRange 1 + bitAt gl.hiccupUntil.isSome 2 + bitAt gl.peakExh 3
    + bitAt gl.limiting 4 + bitAt g.openLoad 5 + bitAt (s.outRank c = 3) 6 + bitAt s.mode.roadLock 7 + bitAt (s.dieHot c) 8
    + bitAt (s.isLost c) 9)

/-- `CH_ENG_STAT` (Table 06.10): IN_LOCK and the exception are those of the engine in control. -/
def State.engStat (s : State) (c : Ch) : W32 :=
  let kept := s.reg (R.CH_ENG_STAT c) &&& 0x15
  let x := (s.ch c).ctl.map fun e => s.eng[e]
  kept ||| BitVec.ofNat 32 (bitAt (s.engRunning c) 1 + bitAt (x.any fun x => x.lock.isSome) 3
    + (x.map fun x => x.exc.toNat * 256 + x.excPc.toNat * 4096).getD 0)

/-- Words of a compare unit: control, PERIOD, TARGET and match tick. -/
def CmpUnit.word (u : CmpUnit) (k : Nat) : W32 :=
  match k with
  | 0 => u.ctrl
  | 1 => u.period
  | 2 => halfOf u.target.toNat false
  | 3 => halfOf u.target.toNat true
  | 4 => halfOf u.matchTick.toNat false
  | _ => halfOf u.matchTick.toNat true

/-- A word of a channel's window (Table 18.16), by its offset in the window. -/
def State.chanWord (s : State) (c : Ch) (off : Nat) : W32 :=
  let h := s.ch c
  let kept := s.reg (R.CH_GEOM_Y c + off)
  match off with
  | 0x08 => halfOf (h.sRep % 2 ^ 64).toNat false
  | 0x0C => halfOf (h.sRep % 2 ^ 64).toNat true
  | 0x10 => i32 h.vRep
  | 0x18 => s.engStat c
  | 0x20 => (s.units[bndUnit c]).word 0
  | 0x24 => (s.units[bndUnit c]).word 1
  | 0x28 => (s.units[bndUnit c]).word 2
  | 0x2C => (s.units[bndUnit c]).word 3
  | 0x30 => (s.units[smpUnit c]).word 0
  | 0x34 => (s.units[smpUnit c]).word 1
  | 0x38 => (s.units[smpUnit c]).word 2
  | 0x3C => (s.units[smpUnit c]).word 3
  | 0x48 => withField (withField kept (R.CH_STAGE_CFG_ROLE c) (s.stageRole c)) (R.CH_STAGE_CFG_TOPO c) (s.topoOf c)
  | 0x60 => s.legWord c
  | 0x64 => s.stageStat c
  | 0x6C => h.stage.snsVal.zeroExtend 32
  | 0x70 => i32 h.smp.i
  | 0x74 => i32 h.smp.v
  | 0x7C => h.seqr.rqSt
  | _ => kept

/-- A word of a ring's registers (Table 10.17). -/
def State.ringWord (s : State) (q : Ring) (off : Nat) : W32 :=
  let r := s.hp.rings[q]
  match off with
  | 0x10 => s.ringStat q
  | 0x14 => BitVec.ofNat 32 r.pi
  | 0x18 => BitVec.ofNat 32 r.ci
  | 0x20 => BitVec.ofNat 32 (s.lendsOf q)
  | _ => s.reg (R.Q_BASE q + off)

/-- A word of a system compare (Table 04.3). -/
def State.scWord (s : State) (n : Fin 32) (off : Nat) : W32 :=
  let u := s.units[sysUnit n]
  match off with
  | 0x00 => u.word 0
  | 0x04 => u.word 1
  | 0x08 => u.word 2
  | 0x0C => u.word 3
  | 0x18 => u.word 4
  | 0x1C => u.word 5
  | _ => s.reg (R.SC_CTRL n + off)

/-- A word of a spire's takeover registers (Table 09.5). -/
def State.tkoWord (s : State) (p : Spire) (off : Nat) : W32 :=
  match off with
  | 0x00 => s.tkoStat p
  | 0x04 => s.tkoRetired p
  | 0x10 => s.roleWord (s.tkoSel p)
  | _ => s.reg (R.TKO_STAT p + off)

/-- The engine that EDDY_SEL names. -/
def State.eddySel (s : State) : Eng :=
  let p : Spire := ⟨s.get R.EDDY_SEL_SPIRE % 16, Nat.mod_lt _ (by decide)⟩
  (engsOfSpire p).getD (min 16 (s.get R.EDDY_SEL_ENGINE)) (spareOf p)

/-- Engines halted by the debug access path (`DBG_HALTS`). -/
def State.dbgHalts (s : State) : Nat := (allEng.filter fun e => (s.eng[e]).halted).length

/-- The words of the course engine (Table 03.11), from COURSE_STATUS on. -/
def State.courseWord (s : State) (a : Nat) : Option W32 :=
  let c := s.course
  let sref := (c.sRefRep % 2 ^ 64).toNat
  match a with
  | 0x1408 => some s.courseStatus
  | 0x1410 => some (halfOf sref false)
  | 0x1414 => some (halfOf sref true)
  | 0x1418 => some (i32 c.v)
  | 0x141C => some (BitVec.ofInt 32 c.headRep)
  | 0x1420 => some (i32 c.omega)
  | 0x1424 => some (i32 c.accel)
  | 0x1428 => some (i32 c.alpha)
  | 0x1430 => some (halfOf c.updTick.toNat false)
  | 0x1434 => some (halfOf c.updTick.toNat true)
  | _ => none

/-- The words of the ID, Mode, host-port, arbiter and tick blocks that show state. -/
def State.lowWord (s : State) (a : Nat) : Option W32 :=
  match a with
  | 0x000 => some ((Config.unitWord 0 &&& 0x0FFF0000) ||| 0x256)
  | 0x004 => some (Config.unitWord 1 &&& 0x00FFFFFF)
  | 0x008 => some (Config.unitWord 2)
  | 0x00C => some (Config.unitWord 3)
  | 0x010 => some (Config.unitWord 4)
  | 0x400 => some s.modeStatus
  | 0x404 => some (s.mode.resetCause.zeroExtend 32)
  | 0x410 => some (halfOf s.mode.entryTick.toNat false)
  | 0x414 => some (halfOf s.mode.entryTick.toNat true)
  | 0x800 => some (BitVec.ofNat 32 (s.hp.speed.toNat + s.hp.width.toNat * 16))
  | 0x1008 => some ((s.reg R.SNAP_STAT &&& 0xFF00) ||| BitVec.ofNat 32 (min 7 s.snapPending))
  | 0x1010 => some (halfOf s.arb.snapLast.toNat false)
  | 0x1014 => some (halfOf s.arb.snapLast.toNat true)
  | 0x1028 => some ((s.eng[s.eddySel]).eddy.cfg.zeroExtend 32)
  | 0x102C => some (s.eng[s.eddySel]).eddy.stat
  | 0x1800 => some (halfOf s.now false)
  | 0x1804 => some (halfOf s.now true)
  | _ => s.courseWord a

/-- The words of the power blocks that show state. -/
def State.powerWord (s : State) (a : Nat) : Option W32 :=
  match a with
  | 0x2480 => some (halfOf s.qDis false)
  | 0x2484 => some (halfOf s.qDis true)
  | 0x2488 => some (halfOf s.qChg false)
  | 0x248C => some (halfOf s.qChg true)
  | 0x2490 => some (halfOf s.qTf false)
  | 0x2494 => some (halfOf s.qTf true)
  | 0x2498 => some (halfOf s.buskeepTicks false)
  | 0x249C => some (halfOf s.buskeepTicks true)
  | 0x24A0 => some s.power.trims
  | 0x2800 => some ((s.reg R.RAIL_GLB &&& 3)
      ||| BitVec.ofNat 32 (s.mode.straps.vselCode.toNat * 4 + bitAt s.mode.straps.vselBad 4))
  | 0x2904 => some (BitVec.ofNat 32 s.mode.straps.vselMv)
  | _ => none

/-- The words of the fault, ring, OTP and two-wire blocks that show state. -/
def State.highWord (s : State) (a : Nat) : Option W32 :=
  match a with
  | 0x3440 => some s.siltStat
  | 0x3448 => some s.silt.seq
  | 0x3520 => some s.clockRatio
  | 0x3530 => some (BitVec.ofNat 32 s.dbgHalts)
  | 0x3804 => some s.rvStat
  | 0x3808 => some (BitVec.ofNat 32 (s.rv.ringN % 2048))
  | 0x380C => some (s.rv.headId.getD 0)
  | 0x3810 => some (i32 s.rv.e)
  | 0x3814 => some (i32 s.rv.d)
  | 0x3818 => some (BitVec.ofNat 32 (satU 32 s.rv.loop))
  | 0x381C => some (i32 s.rv.trim)
  | 0x3828 => some (s.rv.tokRes.zeroExtend 32)
  | 0x3E00 => some (Config.challenge s.otp.draws 0)
  | 0x3E04 => some (Config.challenge s.otp.draws 1)
  | 0x3E08 => some (Config.challenge s.otp.draws 2)
  | 0x3E0C => some (Config.challenge s.otp.draws 3)
  | 0x3E10 => some (BitVec.ofNat 32 (bitAt s.otp.unlockActive 0 + s.otp.unlockAns.toNat * 256))
  | 0x3E18 => some (halfOf s.otp.unlockExpiry.toNat false)
  | 0x3E1C => some (halfOf s.otp.unlockExpiry.toNat true)
  | 0x4004 => some (BitVec.ofNat 32 (s.mode.straps.addr.toNat + s.tw.lastResult.toNat * 256))
  | _ => none

/-- Channel of a window address (R12). -/
def winChan (a : Nat) : Ch := ⟨(a - 0x8000) / 128 % 256, Nat.mod_lt _ (by decide)⟩

/-- The word at BAR0 offset `a` (a multiple of 4) as the module holds it now; 0 where no register lies (R9). -/
def State.liveWord (s : State) (a : Nat) : W32 :=
  if (regRow a).isNone then 0
  else if 0x8000 ≤ a then s.chanWord (winChan a) (a % 128)
  else if 0xA00 ≤ a && a < 0x1000 then s.ringWord ⟨(a - 0xA00) / 64 % 24, Nat.mod_lt _ (by decide)⟩ (a % 64)
  else if 0x1900 ≤ a && a < 0x1D00 then s.scWord ⟨(a - 0x1900) / 32 % 32, Nat.mod_lt _ (by decide)⟩ (a % 32)
  else if 0x3600 ≤ a && a < 0x3800 then s.tkoWord ⟨(a - 0x3600) / 32 % 16, Nat.mod_lt _ (by decide)⟩ (a % 32)
  else ((if a < 0x2000 then s.lowWord a else if a < 0x3000 then s.powerWord a else s.highWord a)).getD (s.reg a)

/-- The state that the host reads in a freeze (Table 10.3): the parts of the module that run on as they were captured. -/
def State.captured (s : State) : State :=
  { s with
    regs := (s.frz.regs.filter fun x => x.1 < 0x3400) ++ (s.regs.filter fun x => 0x3400 ≤ x.1 && x.1 < 0x3600)
      ++ s.frz.regs.filter fun x => 0x3600 ≤ x.1
    power := s.frz.power
    mode := { s.mode with pins := s.frz.pins }
    tw := { s.tw with lastResult := s.frz.twResult }
    hp := { s.hp with speed := s.frz.speed, width := s.frz.width } }

/-- A word of BAR0 read without side effect (R266, R409, R418). -/
def State.peek (s : State) (a : Nat) : W32 := if s.mode.frozen then s.captured.liveWord a else s.liveWord a

/-! ### Reads with their side effects (R6, R8, R10) -/

/-- The low half of a 64-bit register (Tables 18.2 to 18.16). -/
def isWide (a : Nat) : Bool :=
  if 0x8000 ≤ a then a % 128 = 0x08 || a % 128 = 0x28 || a % 128 = 0x38
  else if 0xA00 ≤ a && a < 0x1000 then a % 64 = 0
  else if 0x1900 ≤ a && a < 0x1D00 then a % 32 = 0x08 || a % 32 = 0x18
  else [0x410, 0x1010, 0x1410, 0x1430, 0x1480, 0x1800, 0x1808, 0x1818, 0x1820, 0x2480, 0x2488, 0x2490, 0x2498, 0x3510, 0x3518,
        0x3E18].contains a

/-- The high half of a 64-bit register. -/
def isHigh (a : Nat) : Bool := 4 ≤ a && isWide (a - 4)

/-- The latch of an access path. -/
def State.latch (s : State) : Path → HLatch
  | .host => s.hp.latHost
  | .twoWire => s.hp.latTw
  | .keep => s.hp.latKeep

/-- The latch of an access path replaced. -/
def State.setLatch (s : State) (p : Path) (l : HLatch) : State :=
  s.modHp fun h => match p with
    | .host => { h with latHost := l }
    | .twoWire => { h with latTw := l }
    | .keep => { h with latKeep := l }

/-- A write to a 64-bit register empties each latch that belongs to it (R10). -/
def State.dropLatch (s : State) (a : Nat) : State :=
  let f (l : HLatch) : HLatch := if l.owner = some a then {} else l
  s.modHp fun h => { h with latHost := f h.latHost, latTw := f h.latTw, latKeep := f h.latKeep }

/-- The RC fields of a word cleared after a read (R6). -/
def State.rcClear (s : State) (a : Nat) : State :=
  match regRow a with
  | none => s
  | some r =>
    if r.rc = 0 then s
    else if a = R.EDDY_STAT then s.modEng s.eddySel fun g => { g with eddy := { g.eddy with dropped := 0 } }
    else s.setReg a (s.reg a &&& ~~~r.rc)

/-- Ranges of Table 18.18: true where the Turret itself answers, none outside the two-wire reach (R482). -/
def twReach (a : Nat) : Option Bool :=
  if a < 0x400 then some false
  else if a < 0x800 then some (a = R.RESET_CAUSE)
  else if a < 0xC00 then some false
  else if a < 0x2000 then none
  else if a < 0x2400 then some true
  else if a < 0x2800 then some false
  else if a < 0x3000 then some true
  else if a < 0x3900 then some false
  else if a < 0x3C00 then none
  else if a < 0x3F00 then some false
  else if a < 0x4000 then none
  else if a < 0x4100 then some true
  else none

/-- What a path reads of a word: the Turret answers a two-wire read of its own ranges with live values. -/
def State.pathWord (s : State) (p : Path) (a : Nat) : W32 :=
  if p = .twoWire && twReach a = some true then s.liveWord a else s.peek a

/-- RC fields clear on this path now: not for the host in a freeze (Table 10.3). -/
def State.rcNow (s : State) (p : Path) (a : Nat) : Bool :=
  !s.mode.frozen || (p = .twoWire && twReach a = some true)

/-- A 32-bit read (R10). -/
def State.read32 (s : State) (p : Path) (a : Nat) : W32 × State :=
  let v := s.pathWord p a
  if isWide a then (v, s.setLatch p { owner := some a, hi := s.pathWord p (a + 4) })
  else if isHigh a then
    let l := s.latch p
    if l.owner = some (a - 4) then (l.hi, s.setLatch p {}) else (v, s)
  else (v, if s.rcNow p a then s.rcClear a else s)

/-- A 64-bit read at an address divisible by 8 (R10, R263). -/
def State.read64 (s : State) (p : Path) (a : Nat) : W64 × State :=
  if isWide a then (s.pathWord p (a + 4) ++ s.pathWord p a, s)
  else
    let (lo, s) := s.read32 p a
    let (hi, s) := s.read32 p (a + 4)
    (hi ++ lo, s)

/-- The Dome is available to the two-wire target: its rail is on and its logic is out of reset (R474). -/
def State.domeLive (s : State) : Bool := s.mode.domeOn && (s.mode.domeRun || (s.mode.mode = .standby && !s.mode.starting))

/-- Whether a path can read an address now: the host needs the Dome out of reset; the two-wire target follows R482; the Keep
reads the power blocks for PWR_READ (Table 10.8). -/
def State.pathOpen (s : State) (p : Path) (a : Nat) : Bool :=
  match p with
  | .host => s.mode.domeRun
  | .twoWire => match twReach a with
    | some turret => turret || s.domeLive
    | none => false
  | .keep => s.mode.keep = .run && s.clockOn && 0x2000 ≤ a && a < 0x3000

/-- The bytes of a doubleword that its byte enables name, in address order (R263). -/
def enabledBytes (v : W32) (be : BitVec 4) : List Byte :=
  (List.range 4).filterMap fun k => if be.getLsbD k then some (v.extractLsb' (8 * k) 8) else none

/-- The bytes of a 64-bit value. -/
def wideBytes (v : W64) : List Byte := enabledBytes (v.extractLsb' 0 32) 15 ++ enabledBytes (v.extractLsb' 32 32) 15

/-- Successive 32-bit reads of the doublewords that a request touches, in address order (R263). -/
def State.readEach (s : State) (p : Path) (a : Nat) (be : List (BitVec 4)) : List Byte × State :=
  be.zipIdx.foldl (fun (x : List Byte × State) (b : BitVec 4 × Nat) =>
    if b.1 = 0 then x
    else let (v, t) := x.2.read32 p (a + 4 * b.2); (x.1 ++ enabledBytes v b.1, t)) ([], s)

/-- A read of BAR0 (R6, R10, R263): one 32-bit access, one 64-bit access at an address divisible by 8, or successive 32-bit accesses. -/
def State.read0 (s : State) (p : Path) (a : Nat) (be : List (BitVec 4)) : List Byte × State :=
  match be with
  | [b] => let (v, s) := s.read32 p a; (enabledBytes v b, s)
  | l =>
    if a % 8 = 0 && l = [15, 15] then let (v, s) := s.read64 p a; (wideBytes v, s)
    else s.readEach p a l

/-- A read on a path, with its answer sent; BAR2 and configuration space read without side effect, in a freeze too (R264, R266). -/
def State.readCmd (s : State) (p : Path) (space : Space) (addr : Nat) (be : List (BitVec 4)) : State :=
  let a := addr / 4 * 4
  let words (f : Nat → W32) : List Byte := be.zipIdx.flatMap fun b => enabledBytes (f (a + 4 * b.2)) b.1
  if !s.pathOpen p a then s
  else match space with
    | .bar0 => let (v, s) := s.read0 p a be; s.send (.readReply p v)
    | .bar2 => s.send (.readReply p (words s.bar2Word))
    | .config => s.send (.readReply p (words s.configWord))

/-- RC_READ: a read returns an RC field and clears it (R6, R8); the reads of BAR2 and of configuration space (R261, R264). -/
def execRcRead (p : Path) (addr : ReadAt) (be : List (BitVec 4)) (s : State) : Res :=
  .next (s.readCmd p addr.space addr.off.toNat be)

/-- LOW_HALF_READ: a 32-bit read of the low half of a 64-bit register loads the path's latch (R10). -/
def execLowHalfRead (p : Path) (addr : BitVec 16) (s : State) : Res := .next (s.readCmd p .bar0 addr.toNat [15])

/-- HIGH_HALF_READ: a 32-bit read of the high half returns the latched value and empties the latch, or the live half
(R10). -/
def execHighHalfRead (p : Path) (addr : BitVec 16) (s : State) : Res := .next (s.readCmd p .bar0 addr.toNat [15])

/-! ### The state window (R415, R417) -/

/-- A word of a byte list, little-endian. -/
def wordOfBytes (bs : List Byte) (off : Nat) : W32 := BitVec.ofNat 32 (leAt bs (off / 4 * 4) 4)

/-- The window's header (Table 15.8). -/
def State.winHeader (s : State) : List Byte :=
  let f := s.reg R.FRZ_STAT
  [0x46, 0x52, 0x5A, 0x4E, 0x01, 0x00, BitVec.ofNat 8 (bits f.toNat 0 4), BitVec.ofNat 8 (bits f.toNat 4 5)]
    ++ leBytes 8 (s.reg64 R.FRZ_LAST_TF).toNat ++ leBytes 4 f.toNat ++ leBytes 4 (s.peek R.MODE_STATUS).toNat

/-- The engine state record (Table 15.9). -/
def State.engRecord (s : State) (e : Eng) : List Byte :=
  let x := s.eng[e]
  let pend := x.pend.toNat + bitAt x.asleep.isSome 16 + bitAt x.lock.isSome 17 + bitAt x.halted 18
  let sv := match x.lock with
    | some l => leBytes 4 l.va.toNat ++ leBytes 4 l.vb.toNat
    | none => leBytes 8 0
  ((List.finRange 32).flatMap fun r => leBytes 4 (x.getG r).toNat) ++ leBytes 8 x.acc.toNat ++ leBytes 4 x.pc
    ++ leBytes 4 x.flags.toNat ++ leBytes 4 (s.roleWord e).toNat ++ leBytes 4 pend ++ sv ++ leBytes 4 x.wdog
    ++ leBytes 4 ((x.tmr.map (· - s.now)).getD 0) ++ leBytes 4 (x.eddy.oldest + x.eddy.recs.length * 256)

/-- The course record, and the 32 bytes of a channel (Table 15.8); a B that is not presented reads 0. -/
def State.winCourse (s : State) (off : Nat) : W32 :=
  let c := s.course
  let u (n : Nat) (x : Int) : List Byte := leBytes n (x % (256 ^ n : Nat)).toNat
  if off < 0x100 then
    wordOfBytes (u 16 c.sRefQ24 ++ u 4 c.v ++ u 4 c.headRep ++ u 4 c.omega ++ u 4 c.accel ++ u 4 c.alpha
      ++ leBytes 4 c.updTick.toNat ++ leBytes 8 c.updTick.toNat) off
  else if off < 0x2100 then
    let h := s.ch ⟨(off - 0x100) / 32 % 256, Nat.mod_lt _ (by decide)⟩
    wordOfBytes (u 8 h.sQ24 ++ u 8 h.viQ8 ++ u 8 ((h.seqr.bnd.map (·.1)).getD 0) ++ u 8 h.seqr.sigma) (off % 32)
  else 0

/-- The 4 KiB of a channel: its queue, in acceptance order from slot 0, and its parameter words (Table 15.8). -/
def State.winQueue (s : State) (c : Ch) (off : Nat) : W32 :=
  let h := s.ch c
  if off < 0x800 then match h.seqr.live[off / 32]? with
    | some r => (r.words c).getD (off % 32 / 4) 0
    | none => 0
  else if off < 0x900 then h.prm.getD ((off - 0x800) / 4) 0
  else if off < 0xA00 then h.shadow.getD ((off - 0x900) / 4) 0
  else 0

/-- A word of an engine's data RAM or instruction RAM; after a self-test both hold free values (R248). -/
def Engine.ramWord (x : Engine) (isData : Bool) (w : Nat) : W32 :=
  match x.ramFree with
  | some k => Config.ramWord k isData w
  | none => if isData then BitVec.ofNat 32 (memLe x.dram (4 * w) 4) else x.iram.getD w 0

/-- A word of a spare's instruction RAM: slot m of 8 KiB holds the code of the spire's channel m followed by its data image
(R138, R161). -/
def State.spareWord (s : State) (p : Spire) (off : Nat) : W32 :=
  let e := spareOf p
  if (s.eng[e]).ramFree.isSome then (s.eng[e]).ramWord false (off / 4)
  else
    let sl := (s.ch (chanAt p ⟨off / 8192 % 16, Nat.mod_lt _ (by decide)⟩)).slot
    (sl.code ++ sl.data).getD (off % 8192 / 4) 0

/-- A word of an engine's Eddy buffer, records in slot order (Table 15.8). -/
def Eddy.slotWord (x : Eddy) (off : Nat) : W32 :=
  let slot := off / 32 % 128
  let k := (slot + 128 - x.oldest % 128) % 128
  match x.recs[k]? with
  | some r => r.words.getD (off % 32 / 4) 0
  | none => 0

/-- An engine by the code e of Table 15.8. -/
def engOf (k : Nat) : Eng := ⟨k % 272, Nat.mod_lt _ (by decide)⟩

/-- A word of the regions that belong to one engine, with that engine. -/
def State.winEngine (s : State) (off : Nat) : Option (Eng × W32) :=
  if 0x20000 ≤ off && off < 0x31000 then
    let e := engOf ((off - 0x20000) / 256)
    some (e, wordOfBytes (s.engRecord e) (off % 256))
  else if 0x200000 ≤ off && off < 0x420000 then
    let e := engOf ((off - 0x200000) / 8192)
    some (e, (s.eng[e]).ramWord true (off % 8192 / 4))
  else if 0x500000 ≤ off && off < 0x700000 then
    let e := engOf ((off - 0x500000) / 8192)
    some (e, (s.eng[e]).ramWord false (off % 8192 / 4))
  else if 0x700000 ≤ off && off < 0x900000 then
    let p : Spire := ⟨(off - 0x700000) / 131072 % 16, Nat.mod_lt _ (by decide)⟩
    some (spareOf p, s.spareWord p (off % 131072))
  else if 0x900000 ≤ off && off < 0xA10000 then
    let e := engOf ((off - 0x900000) / 4096)
    some (e, (s.eng[e]).eddy.slotWord (off % 4096))
  else none

/-- A word of the mirror, the Weir and the queue regions. -/
def State.winChannel (s : State) (off : Nat) : W32 :=
  if 0x60000 ≤ off && off < 0x70000 then
    let c : Ch := ⟨(off - 0x60000) / 256 % 256, Nat.mod_lt _ (by decide)⟩
    wordOfBytes ((s.ch c).mirror.block.getD []) (off % 256)
  else if 0x70000 ≤ off && off < 0x71000 then
    let h := s.ch ⟨(off - 0x70000) / 16 % 256, Nat.mod_lt _ (by decide)⟩
    match off % 16 / 4 with
    | 0 => h.smp.seq
    | 1 => i32 h.lastOn
    | 2 => h.epoch.zeroExtend 32
    | _ => i32 (h.mirror.limpWord.getD 0)
  else if 0x100000 ≤ off && off < 0x200000 then
    s.winQueue ⟨(off - 0x100000) / 4096 % 256, Nat.mod_lt _ (by decide)⟩ (off % 4096)
  else 0

/-- A word of the state window in a freeze (Table 15.8). -/
def State.winWord (s : State) (off : Nat) : W32 :=
  if off < 0x1000 then wordOfBytes s.winHeader off
  else if 0x10000 ≤ off && off < 0x20000 then s.peek (off - 0x10000)
  else match s.winEngine off with
    | some (_, w) => w
    | none =>
      if 0x40000 ≤ off && off < 0x44400 then
        let u := s.units[(⟨(off - 0x40000) / 32 % 544, Nat.mod_lt _ (by decide)⟩ : CUnit)]
        match off % 32 / 4 with
        | 0 => u.word 2
        | 1 => u.word 3
        | 2 => u.word 1
        | 3 => u.word 0
        | 4 => u.word 4
        | 5 => u.word 5
        | _ => 0
      else if 0x50000 ≤ off && off < 0x52100 then s.winCourse (off - 0x50000)
      else s.winChannel off

/-- A word as BAR4 reads: outside a freeze only the header (R415). -/
def State.bar4Word (s : State) (off : Nat) : W32 := if s.mode.frozen || off < 0x1000 then s.winWord off else 0

/-- A word as DBG_READ reads: outside a freeze the BAR0 image and the regions of halted engines (R417). -/
def State.dbgWord (s : State) (off : Nat) : W32 :=
  if s.mode.frozen then s.winWord off
  else if 0x10000 ≤ off && off < 0x20000 then s.peek (off - 0x10000)
  else match s.winEngine off with
    | some (e, w) => if (s.eng[e]).halted then w else 0
    | none => 0

/-- BAR4_READ: a peek of `len` bytes (R415, R418). -/
def execBar4Read (off : BitVec 24) (len : Nat) (s : State) : Res :=
  if s.mode.domeRun then
    let byte (k : Nat) : Byte := (s.bar4Word (k / 4 * 4)).extractLsb' (8 * (k % 4)) 8
    .next (s.send (.bar4Reply ((List.range len).map fun k => byte (off.toNat + k))))
  else .next s

end Sys2Proof.Machine
end

