-- ==== Sys2Proof/Machine/RegWrite.lean ====
section
/-! DEFINITION. Writes: what a 32-bit write of each BAR0 word does (R6, R7, R9, and the rule that each field table names),
the Keep's application of the writes that wait for its decision boundary (R345, R369, R392), the accesses of one host write
(R263), and the Config setting pairs (R453). -/

namespace Sys2Proof.Machine

/-! ### Ranges -/

/-- A field that is stored saturated to a range: lowest bit, width, least and greatest value. -/
structure Range where
  lo : Nat
  w : Nat
  least : Nat
  most : Nat

/-- A word with one field saturated. -/
def Range.apply (w : W32) (r : Range) : W32 := withField w ⟨0, r.lo, r.w⟩ (clampN r.least r.most (bits w.toNat r.lo r.w))

/-- The ranges of the Charger and pack and Estimator words (Tables 12.6, 12.8). -/
def powerRanges (a : Nat) : List Range :=
  if a = R.CHG_I then [⟨0, 17, 1000, 80000⟩, ⟨24, 5, 5, 20⟩]
  else if a = R.CHG_IN then [⟨0, 17, 1000, 80000⟩]
  else if a = R.CHG_VIN then [⟨0, 16, 9000, 58000⟩, ⟨24, 8, 70, 95⟩]
  else if a = R.CHG_CTRL then [⟨8, 8, 10, 40⟩, ⟨16, 8, 1, 255⟩, ⟨24, 8, 1, 255⟩]
  else if a = R.CHG_TEMP then [⟨16, 8, 20, 255⟩]
  else if a = R.BK_CFG then [⟨0, 16, 24000, 56000⟩, ⟨16, 8, 0, 50⟩, ⟨24, 8, 70, 99⟩]
  else if a = R.PACK_SC then [⟨0, 16, 50, 1000⟩]
  else if a = R.BUD_CFG then [⟨0, 16, 10, 3000⟩, ⟨16, 9, 0, 256⟩]
  else if a = R.BUD_PULL then [⟨16, 8, 1, 20⟩, ⟨24, 8, 1, 200⟩]
  else if a = R.SHUNTS then [⟨0, 16, 20, 5000⟩, ⟨16, 16, 20, 5000⟩]
  else if a = R.EST_CFG then [⟨0, 16, 100, 65535⟩, ⟨16, 4, 1, 8⟩, ⟨20, 4, 1, 8⟩, ⟨24, 8, 20, 80⟩]
  else if a = R.EST_REST then [⟨0, 8, 5, 240⟩, ⟨16, 8, 1, 255⟩, ⟨24, 8, 0, 24⟩]
  else if a = R.EST_PROBE then [⟨0, 16, 100, 1500⟩]
  else []

/-- The ranges of a rail's words by their place in the block of the rail (Tables 13.3, 13.7). -/
def railRanges (off : Nat) : List Range :=
  match off with
  | 0x00 => [⟨8, 8, 4, 22⟩, ⟨16, 8, 5, 200⟩, ⟨24, 8, 50, 99⟩]
  | 0x08 => [⟨24, 8, 1, 255⟩]
  | 0x0C => [⟨0, 8, 1, 15⟩, ⟨8, 8, 2, 30⟩, ⟨16, 8, 1, 15⟩, ⟨24, 8, 2, 30⟩]
  | 0x10 => [⟨0, 8, 1, 255⟩, ⟨8, 8, 1, 200⟩]
  | _ => []

/-- The ranges of a channel's words by their place in the channel window (Tables 04.5, 05.10, 06.10). -/
def chanRanges (off : Nat) : List Range :=
  match off with
  | 0x50 => [⟨0, 16, 0, 48000⟩]
  | 0x54 => [⟨0, 8, 1, 255⟩, ⟨8, 8, 1, 200⟩]
  | 0x58 => [⟨0, 14, 0, 16000⟩, ⟨16, 4, 2, 15⟩]
  | _ => []

/-- The ranges of the other words (Tables 02.9, 03.6, 03.9, 10.16, 11.8, 14.9, 15.6, 15.9, 03.14, 09.7). -/
def plainRanges (a : Nat) : List Range :=
  if a = R.MODE_KEY then [⟨0, 16, 1, 600⟩]
  else if a = R.ARB_CFG then [⟨0, 8, 1, 255⟩, ⟨8, 8, 5, 200⟩]
  else if a = R.EDDY_SEL then [⟨4, 5, 0, 16⟩]
  else if a = R.COURSE_CTRL then [⟨8, 8, 1, 255⟩, ⟨16, 8, 0, 100⟩]
  else if a = R.ENC_CFG then [⟨16, 16, 1, 65535⟩]
  else if a = R.THM_CFG then [⟨8, 8, 1, 255⟩]
  else if a = R.FLT_ERR_CFG then [⟨16, 14, 100, 10000⟩]
  else if a = R.FRZ_CFG then [⟨0, 9, 1, 300⟩]
  else if a = R.GNSS_BAUD 0 || a = R.GNSS_BAUD 1 then [⟨0, 22, 4800, 3000000⟩]
  else if 0x3600 ≤ a && a < 0x3800 && (a - 0x3600) % 32 = 0x0C then [⟨0, 5, 0, 16⟩]
  else if 0x8000 ≤ a then chanRanges (a % 128)
  else []

/-- A word with the fields that a list names saturated. -/
def saturate (v : W32) (l : List Range) : W32 := l.foldl Range.apply v

/-- A write of a set-up word by its access codes (R6, R7, R9): RW bits take the value, RWL bits until they lock, W1C bits clear
on a 1, all others stay. -/
def State.plainWrite (s : State) (a : Nat) (v : W32) : State :=
  match regRow a with
  | none => s
  | some r =>
    let m := r.rw ||| (if s.mode.rwlLocked then 0 else r.rwl)
    s.setReg a ((v &&& m) ||| (s.reg a &&& ~~~m &&& ~~~(v &&& r.w1c)))

/-! ### Writes that the Keep applies (R345, R369, R392) -/

/-- The cell thresholds of Table 12.2 for a chemistry: OV, CV, then PRE and UV. -/
def cellRange (nmc : Bool) : (Nat × Nat) × (Nat × Nat) × (Nat × Nat) :=
  if nmc then ((4000, 4350), (3900, 4250), (2500, 3400)) else ((3500, 3900), (3300, 3650), (2000, 3000))

/-- The safe side of the new range after a change of CHEM, and the OCV table of the new chemistry where its points still hold
their reset values (R314, Table 12.5). -/
def State.chemChange (s : State) (nmc : Bool) : State :=
  let (ov, cv, lo) := cellRange nmc
  let s := s.put R.CELL_THR_OV_MV (min (s.get R.CELL_THR_OV_MV) ov.2)
  let s := s.put R.CHG_V_PRE_MV (clampN lo.1 lo.2 (s.get R.CHG_V_PRE_MV))
  let s := s.put R.CELL_THR_UV_MV (clampN lo.1 lo.2 (s.get R.CELL_THR_UV_MV))
  let s := s.put R.CHG_V_CV_MV (min (min (s.get R.CHG_V_CV_MV) cv.2) (s.get R.CELL_THR_OV_MV - 100))
  forAll (List.range 11) (fun j t =>
    if t.get (R.OCV_TBL_MV j) = (ocvTable (!nmc)).getD j 0 then t.put (R.OCV_TBL_MV j) ((ocvTable nmc).getD j 0) else t) s

/-- A write of `PACK_CFG` (Table 12.6, R314). -/
def State.packCfgWrite (s : State) (v : W32) : State :=
  let n := bits v.toNat 1 5
  let was := s.get R.PACK_CFG_CHEM
  let s := s.plainWrite R.PACK_CFG (withField v R.PACK_CFG_CELLS (if n = 0 then 0 else clampN 10 16 n))
  let now := s.get R.PACK_CFG_CHEM
  if now = was then s else s.chemChange (now = 1)

/-- A write of a word of the Charger and pack or Estimator block taking effect (R345). -/
def State.packWrite (s : State) (a : Nat) (v : W32) : State :=
  let (ov, cv, lo) := cellRange (s.get R.PACK_CFG_CHEM = 1)
  if a = R.PACK_CFG then s.packCfgWrite v
  else if a = R.CELL_THR then s.plainWrite a (saturate v [⟨0, 16, ov.1, ov.2⟩, ⟨16, 16, lo.1, lo.2⟩])
  else if a = R.CHG_V then s.plainWrite a (saturate v [⟨0, 16, cv.1, cv.2⟩, ⟨16, 16, lo.1, lo.2⟩])
  else
    let s := s.plainWrite a (saturate v (powerRanges a))
    if a = R.CHG_CTRL && v.getLsbD 1 then s.chgRestart else s

/-- A set voltage as stored (R348). -/
def vsetOf (r : Rail) (mv : Nat) : Nat :=
  if 8 ≤ r.val then (if mv = 10000 then 10000 else 5000) else clampN 600 24000 ((mv + 2) / 5 * 5)

/-- A fault percentage stored as at least its warning percentage + 1 (R355). -/
def lvlOf (v : W32) : W32 :=
  let v := saturate v (railRanges 0x0C)
  let up (v : W32) (lo : Nat) : W32 :=
    withField v ⟨0, lo + 8, 8⟩ (max (bits v.toNat (lo + 8) 8) (bits v.toNat lo 8 + 1))
  up (up v 0) 16

/-- A write of a rail's word taking effect (Table 13.7). -/
def State.railWrite (s : State) (r : Rail) (off : Nat) (v : W32) : State :=
  let a := R.RAIL_CFG r + off
  match off with
  | 0x00 => (s.plainWrite a (saturate v (railRanges off))).lightWrite r
  | 0x04 => if r.val = 0 || s.mode.rwlLocked then s else s.vsetWrite r (vsetOf r (bits v.toNat 0 16))
  | 0x0C => s.plainWrite a (lvlOf v)
  | 0x14 =>
    s.plainWrite a (withField v (R.RAIL_SHED_ADD_MA ⟨0, by decide⟩)
      (min 65535 (max (bits v.toNat 16 16) (bits v.toNat 0 16 + 500))))
  | 0x18 => s.railOnWrite r (v.getLsbD 0)
  | _ => s.plainWrite a (saturate v (railRanges off))

/-- A write of a word of the Rails and sequencing block taking effect (R369, R370). -/
def State.railsWrite (s : State) (a : Nat) (v : W32) : State :=
  if 0x2900 ≤ a && a < 0x2B80 then s.railWrite ⟨(a - 0x2900) / 64 % 10, Nat.mod_lt _ (by decide)⟩ (a % 64) v
  else if a = R.SEQ_CFG then s.plainWrite a (saturate v [⟨0, 8, 1, 255⟩])
  else if a = R.RAIL_FAILED then
    forAll allRails (fun r t => if v.getLsbD r.val then t.putFlag (R.RAIL_STAT_FAILED r) false else t) (s.plainWrite a v)
  else s.plainWrite a v

/-- A write of a word at 0x2000 to 0x2FFF as the Keep applies it (R345, R369, R392). -/
def State.keepApply (s : State) (a : Nat) (v : W32) : State :=
  if a < 0x2800 then s.packWrite a v
  else if a < 0x2C00 then s.railsWrite a v
  else if a = R.HK_CTRL then s.hkCtrlWrite v
  else if a = R.HK_DIAG then s.hkDiagWrite v
  else if R.HK_CFG 0 ≤ a && a ≤ R.HK_CFG 63 then s.hkCfgWrite ((a - R.HK_CFG 0) / 4) v
  else s.plainWrite a v

/-- The waiting writes applied in arrival order (R345). -/
def State.applyKeepWrites (s : State) : State :=
  s.keepWrites.foldl (fun t w => t.keepApply w.addr w.value) { s with keepWrites := [] }

/-! ### Writes with an effect of their own -/

/-- A write of `CH_BND_LAT` (Table 04.5): discarded with event 0x67 while the engine owns the latency. -/
def State.latWrite (s : State) (c : Ch) (v : W32) : State :=
  if s.flag (R.CH_ENG_STAT_LAT_ENGINE c) then s.raise (chCode c 0x67) 0 (BitVec.ofNat 32 c.val)
  else s.setReg (R.CH_BND_LAT c) (BitVec.ofNat 32 (min v.toNat 40000000))

/-- A 32-bit write in the channel window (Table 18.16). -/
def State.chanWrite (s : State) (c : Ch) (off : Nat) (v : W32) : State :=
  match off with
  | 0x00 => s.geomWrite c false v
  | 0x04 => s.geomWrite c true v
  | 0x14 => s.engCtrlWrite c v
  | 0x20 => s.cmpCtrlWrite (bndUnit c) v
  | 0x24 => s.cmpPeriodWrite (bndUnit c) v
  | 0x30 => s.cmpCtrlWrite (smpUnit c) v
  | 0x34 => s.cmpPeriodWrite (smpUnit c) v
  | 0x40 => s.latWrite c v
  | 0x48 => s.stageCfgWrite c v
  | 0x4C => s.pwmWrite c v
  | 0x50 | 0x54 | 0x58 => let a := R.CH_GEOM_Y c + off; (s.holdWord c a).plainWrite a (saturate v (chanRanges off))
  | 0x5C => s.snsCfgWrite c v
  | 0x60 => if v.getLsbD 16 then s.legRestore c else s
  | _ => let a := R.CH_GEOM_Y c + off; s.plainWrite a (saturate v (chanRanges off))

/-- A 32-bit write in a ring's registers (Table 10.17). -/
def State.ringWrite (s : State) (q : Ring) (off : Nat) (v : W32) : State :=
  match off with
  | 0x08 => s.qCfgWrite q v
  | 0x0C => if v.getLsbD 0 then s.ringResume q else s
  | _ => s

/-- A 32-bit write of a word with an effect of its own below 0x2000. -/
def State.lowWrite (s : State) (a : Nat) (v : W32) : Option State :=
  if a = R.RESET_CAUSE then some (s.modMode fun m => { m with resetCause := m.resetCause &&& ~~~(v.truncate 6) })
  else if a = R.EDDY_STRM then some (s.eddyStrmWrite v)
  else if a = R.EDDY_CFG then some (s.modEng s.eddySel fun g => { g with eddy := { g.eddy with cfg := v.truncate 25 } })
  else if a = R.COURSE_REBASE then some (s.rebaseWrite (v.getLsbD 0))
  else if a = R.HOST_POSE_COMMIT then some (if v.getLsbD 0 then s.poseCommit else s)
  else if a = R.GSTART then some (s.gstartWrite v)
  else none

/-- A 32-bit write of a word with an effect of its own from 0x3000 on. -/
def State.highWrite (s : State) (a : Nat) (v : W32) : Option State :=
  if R.THM_LIM 0 ≤ a && a ≤ R.THM_LIM 33 then
    some (s.plainWrite a (withField v ⟨0, 16, 16⟩ (min 65535 (max (bits v.toNat 16 16) (bits v.toNat 0 16 + 64)))))
  else if a = R.FLT_ERR_CFG then some (s.plainWrite a (saturate (v ||| 8) (plainRanges a)))
  else if a = R.FLT_ERR_CTRL then some (s.plainWrite a v).errLevel
  else if a = R.SILT_COPY_CTRL then
    some (let s := if v.getLsbD 0 then s.siltCopyGo else s; if v.getLsbD 2 then s.siltErase else s)
  else if a = R.FRZ_CTRL then some (if v.getLsbD 0 then s.thawWrite else s)
  else if 0x3600 ≤ a && a < 0x3800 && (a - 0x3600) % 32 = 0x18 then
    some (s.handback ⟨(a - 0x3600) / 32 % 16, Nat.mod_lt _ (by decide)⟩ v)
  else if a = R.OTP_CMD then some (s.otpCmd v)
  else if a = R.IMG_KEY_CTRL then some (if v.getLsbD 0 then s.keyLoad else s)
  else none

/-- A 32-bit write of BAR0 offset `a`, which is not half of a 64-bit register, taking effect at once. -/
def State.regWrite (s : State) (a : Nat) (v : W32) : State :=
  if (regRow a).isNone then s
  else if 0x8000 ≤ a then s.chanWrite (winChan a) (a % 128) v
  else if 0xA00 ≤ a && a < 0x1000 then s.ringWrite ⟨(a - 0xA00) / 64 % 24, Nat.mod_lt _ (by decide)⟩ (a % 64) v
  else if 0x1900 ≤ a && a < 0x1D00 then
    let n : Fin 32 := ⟨(a - 0x1900) / 32 % 32, Nat.mod_lt _ (by decide)⟩
    match a % 32 with
    | 0 => s.cmpCtrlWrite (sysUnit n) v
    | 4 => s.cmpPeriodWrite (sysUnit n) v
    | _ => s.plainWrite a v
  else if 0x2000 ≤ a && a < 0x3000 then s.keepApply a v
  else ((if a < 0x2000 then s.lowWrite a v else s.highWrite a v)).getD (s.plainWrite a (saturate v (plainRanges a)))

/-- A 64-bit write of the register at `a` (R10, Tables 03.9, 04.2, 04.5, 04.7, 10.17). -/
def State.wideWrite (s : State) (a : Nat) (v : W64) : State :=
  let s := s.dropLatch a
  if 0x8000 ≤ a then
    match a % 128 with
    | 0x28 => s.cmpTargetWrite (bndUnit (winChan a)) v
    | 0x38 => s.cmpTargetWrite (smpUnit (winChan a)) v
    | _ => s
  else if 0xA00 ≤ a && a < 0x1000 then
    let q : Ring := ⟨(a - 0xA00) / 64 % 24, Nat.mod_lt _ (by decide)⟩
    if s.ringOn q then s else s.setReg64 (R.Q_BASE q) (v &&& ~~~0xFFF)
  else if 0x1900 ≤ a && a < 0x1D00 then
    if a % 32 = 0x08 then s.cmpTargetWrite (sysUnit ⟨(a - 0x1900) / 32 % 32, Nat.mod_lt _ (by decide)⟩) v else s
  else if a = R.HOST_POSE_TICK || a = R.GSTART_TICK then s.setReg64 a v
  else s

/-! ### The host write (R6, R9, R263) -/

/-- A write that is not of full width changes nothing, is counted, and raises event 0x0202 (R263). -/
def State.partialWrite (s : State) : State := (s.count R.HP_CNT_PARTIAL).raise 0x0202 0 0xFF04

/-- One 32-bit access of a host write: the power blocks take it at the Keep's next decision boundary. A write that is discarded leaves
the high-half latch as it is (DEDUCED, assumption 43). -/
def State.hostWrite32 (s : State) (a : Nat) (v : W32) (be : BitVec 4) : State :=
  if s.mode.frozen then
    if a = R.FRZ_CTRL && be = 15 then (if v.getLsbD 0 then s.thawWrite else s) else s.countReg R.HP_FRZ_WR
  else if be ≠ 15 || isWide a || isHigh a then s.partialWrite
  else if 0x2000 ≤ a && a < 0x3000 then (if (regRow a).isNone then s else s.queueWrite a v)
  else s.regWrite a v

/-- One 64-bit access of a host write. -/
def State.hostWrite64 (s : State) (a : Nat) (v : W64) (full : Bool) : State :=
  if s.mode.frozen then s.countReg R.HP_FRZ_WR
  else if full then s.wideWrite a v else s.partialWrite

/-- The accesses of one host write (R263): two data words on a 64-bit register are one access; otherwise each data word is one,
unless it carries no byte of a longer write. -/
def State.hostWrite (s : State) (a : Nat) (l : List (W32 × BitVec 4)) : State :=
  match l with
  | [(lo, beLo), (hi, beHi)] =>
    if a % 8 = 0 && isWide a then s.hostWrite64 a (hi ++ lo) (beLo = 15 && beHi = 15)
    else
      let s := if beLo = 0 then s else s.hostWrite32 a lo beLo
      if beHi = 0 then s else s.hostWrite32 (a + 4) hi beHi
  | [(v, be)] => s.hostWrite32 a v be
  | l => (l.zipIdx.foldl (fun t x => if x.1.2 = 0 then t else t.hostWrite32 (a + 4 * x.2) x.1.1 x.1.2) s)

/-- REGISTER_WRITE: a host write of BAR0 (R6, R7, R9, R263, Table 10.3). -/
def execRegisterWrite (addr : BitVec 16) (dwords : List (W32 × BitVec 4)) (s : State) : Res :=
  if s.mode.domeRun then .next (s.hostWrite (addr.toNat / 4 * 4) dwords) else .next s

/-! ### Config setting pairs (R453) -/

/-- Offsets that a setting pair may write. -/
def pairMayWrite (a : Nat) : Bool :=
  a % 4 = 0 && ((0x1000 ≤ a && a < 0x1100) || (0x2000 ≤ a && a < 0x2C00) || (0x3000 ≤ a && a < 0x3600)
    || (0x3800 ≤ a && a < 0x3900) || (0x4000 ≤ a && a < 0x4100))

/-- Read-only bits of the words of mixed access that a setting pair may name; a word with no other access is read-only as a
whole, except those with reserved bits listed here. -/
def readOnlyBits (a : Nat) : W32 :=
  if a = R.SNAP_STAT then 0x0000FF07
  else if a = R.EDDY_STAT then 0x000003FF
  else if a = R.CHG_STAT then 0xFF
  else if a = R.PACK_STAT then 0x1FFF
  else if a = R.BUD_STAT then 0x7FF
  else if R.CELL_V 0 ≤ a && a ≤ R.CELL_V 15 then 0xFFFF
  else if a = R.EST_STAT then 0x3F
  else if a = R.RAIL_GLB then 0x1C
  else if a = R.SEQ_STAT then 0xF
  else if a = R.RAIL_GOOD then 0x3FF
  else if a = R.RAIL_CFG 0 then 0x01
  else if a = R.RAIL_VSET 0 then 0xFFFF
  else if a = R.RAIL_DEP 0 then 0x7FF
  else if 0x2900 ≤ a && a < 0x2B80 && a % 64 = 0x1C then 0x3FF
  else if R.THM_DSTAT 0 ≤ a && a ≤ R.THM_DSTAT 33 then 0x3F
  else if a = R.FLT_STAT then 0x02FFFFFF
  else if a = R.FLT_ERR_CTRL then 0x2
  else if a = R.SILT_STAT then 0x0FFFFFFF
  else if a = R.SILT_COPY_CTRL then 0x03FF0002
  else if a = R.FRZ_STAT then 0xFFFF03FF
  else if a = R.DBG_HALTS then 0x1FF
  else if a = R.RV_STAT then 0x03FF03FF
  else if a = R.RV_RING then 0x7FF
  else if a = R.RV_TOK_RES then 0xFFFF
  else if a = R.TW_STAT then 0xFF07
  else match regRow a with
    | some r => if r.rw ||| r.rwl ||| r.w1c ||| r.rc ||| r.wo = 0 && !(r.base = R.RAIL_SHED 8) then 0xFFFFFFFF else 0
    | none => 0

/-- The bits of a word that some field defines. -/
def definedBits (a : Nat) : W32 :=
  match regRow a with
  | some r => r.rw ||| r.rwl ||| r.w1c ||| r.rc ||| r.wo ||| readOnlyBits a
  | none => 0

/-- One setting pair: a whole-register write of an allowed word, or skipped with event 0x0D0B (R453). -/
def State.settingPair (s : State) (n : Nat) (place v : W32) : State :=
  let a := place.toNat % 65536
  if bits place.toNat 16 16 = 0 && pairMayWrite a && v &&& ~~~(definedBits a) = 0 then
    if isWide a || isHigh a then s else s.regWrite a v
  else s.raise 0x0D0B 0 (BitVec.ofNat 32 n)

end Sys2Proof.Machine
end

