-- ==== Sys2Proof/Machine/Modes.lean ====
section
/-! DEFINITION. Modes and the moves between them (R27 to R35, R500, R501), the resets of Table 02.3, the start-up steps of
Table 02.4 that belong to no other chapter, and the loss of a stage link or of the reference (R14, R18, R19). -/

namespace Sys2Proof.Machine

/-! ### Conditions of Table 02.2, as INFO of Table 10.9 names them -/

/-- Ground speed at or above 0.1 m/s. -/
def State.moving (s : State) : Bool := 100000 ≤ s.course.v.natAbs

/-- An enabled channel has no verified program; a member counts by its lead (R162). -/
def State.noProgram (s : State) : Bool :=
  allCh.any fun c => s.flag (R.CH_STAGE_CFG_ENABLE c) && !s.flag (R.CH_ENG_STAT_LOADED (s.leadOf c))

/-- The conditions of one hop that fail, as the bits of Table 10.9. -/
def State.hopCond (s : State) (from_ dst : Mode) : Nat :=
  match from_, dst with
  | .ready, .field =>
    bitAt (!s.mode.pins.key) 0 + bitAt s.mode.restricted 1 + bitAt s.noProgram 2 + bitAt (s.course.speedSrc = 0) 3
      + bitAt (s.inBuskeep && !s.flag R.PACK_STAT_BK_ACK) 4
  | .standby, .ready => bitAt s.noProgram 2
  | .road, .ready => bitAt s.moving 5
  | .ready, .service => bitAt s.moving 5 + bitAt (!s.otp.keyHashOk) 6
  | _, _ => 0

/-- The modes that a move enters, the last being its target (R30). -/
def hopsTo (from_ dst : Mode) : List Mode :=
  if from_ = dst then []
  else match from_, dst with
    | .ready, _ => [dst]
    | .field, .road => [.road]
    | _, .ready => [.ready]
    | .standby, .ship => [.ship]
    | _, _ => [.ready, dst]

/-- The conditions that fail anywhere along a path, each against the present state (R500). -/
def State.pathCond (s : State) : Mode → List Mode → Nat
  | _, [] => 0
  | m, h :: rest => s.hopCond m h ||| s.pathCond h rest

/-- The mode that the host port answers by: READY during step 0x0A (R501). -/
def State.hostMode (s : State) : Mode := if s.mode.starting && s.mode.bootStep = 10 then .ready else s.mode.mode

/-! ### Moves (R30 to R33, R500) -/

/-- The slot of the descriptor that a ring executes. -/
def State.execSlot (s : State) (q : Ring) : Nat :=
  match (s.hp.rings[q]).exec with
  | some x => x.slot
  | none => 0

/-- The request of a move completes. -/
def State.moveDone (s : State) (m : Move) (status : Byte) (info : W64) : State :=
  match m.req with
  | some (q, tag) => s.complete q tag (s.execSlot q) status info
  | none => s

/-- A hop begins: the output lock latch is set on the way into ROAD (R29, Table 02.2). -/
def State.hopBegin (s : State) : State :=
  match s.mode.move with
  | some m => match m.hops with
    | .road :: _ => s.modMode fun m => { m with roadLock := true }
    | _ => s
  | none => s

/-- A move begins: BUSY reads 1; a request for STANDBY completes now (R275). -/
def State.moveBegin (s : State) (m : Move) : State :=
  let s := { s with seqr := { s.seqr with stopDone := false } }.modMode fun x => { x with move := some m, moveFresh := true }
  let s :=
    if m.hops.getLast? = some .standby then
      (s.moveDone m 0 1).modMode fun x => { x with move := some { m with req := none } }
    else s
  s.hopBegin

/-- A move abandoned by a trigger of higher rank: its MODE_REQ completes with status 0x11 (R33). -/
def State.moveAbandon (s : State) : State :=
  match s.mode.move with
  | some m => (s.moveDone m 0x11 0).modMode fun x => { x with move := none }
  | none => s

/-- The rank of a move by its trigger and target (R33): ROAD, KEY-off, READY or STANDBY, FIELD or SERVICE. -/
def Move.rank (m : Move) : Nat :=
  match m.hops.getLast? with
  | some .road => 3
  | some .field => 0
  | some .service => 0
  | _ => if m.cause = .keyOff then 2 else 1

/-- A trigger that asks for a move on its own: it gives way to a move of its own rank or above, and abandons one below. -/
def State.moveTrigger (s : State) (m : Move) : State :=
  match s.mode.move with
  | none => s.moveBegin m
  | some old => if old.rank < m.rank then s.moveAbandon.moveBegin m else s

/-- A halted engine runs on from PC (R421); the miss count of its channel clears. -/
def State.resumeEng (s : State) (e : Eng) : State :=
  let x := s.eng[e]
  let s := s.modEng e fun g => { g with halted := false, haltPend := none }
  match x.halted, x.chan with
  | true, some c => s.modCh c fun h => { h with missRun := 0 }
  | _, _ => s

/-- Leaving SERVICE: manual channels turn off (R31), the unlock ends, a new challenge is drawn (R467, R469), and halted engines
resume (R421). -/
def State.leaveService (s : State) : State :=
  let s := forAll (allCh.filter fun c => (s.ch c).manual.isSome)
    (fun c t => (t.sendOn c 0 none).modCh c fun h => { h with manual := none }) s
  let s := s.modOtp fun o => { o with unlockActive := false, unlockExpiry := 0, draws := o.draws + 1 }
  let s := s.modMode fun m => { m with fastSince := none }
  forAll (allEng.filter fun e => (s.eng[e]).halted || (s.eng[e]).haltPend.isSome) (fun e t => t.resumeEng e) s

/-- What STANDBY keeps and loses (Table 01.4, R344): the estimator record is written, the link goes down, the engine memories
are lost, and the state clock stops. -/
def State.standbyEntry (s : State) : State :=
  let s := s.estRecord
  let s := if s.hp.linkUp then
      (s.dropTenure.modHp fun h => { h with linkUp := false, speed := 0, width := 0 }).raise 0x020A 0
    else s
  let s := { s with eng := s.eng.map fun (x : Engine) =>
      { x.cleared with running := false, iram := [], codeLen := 0, dram := [], pc := 0, prog := {} } }
  let s := forAll allCh (fun c t =>
    let t := ((t.putFlag (R.CH_ENG_STAT_LOADED c) false).put (R.CH_ENG_CTRL_RUN c) 0).putFlag (R.CH_ENG_STAT_LAT_ENGINE c) false
    t.modCh c fun h => { h with slot := {}, mirror := {}, copying := none, manual := none, stopReq := false, takeover := none }) s
  s.modMode fun m => { m with domeRun := false, keyoffWait := false }

/-- The tick and event of a mode entry (R48, R50). -/
def State.shown (s : State) (dst : Mode) : State :=
  (s.modMode fun m => { m with entryTick := s.tick.now }).raise 0x0100 0 (BitVec.ofNat 32 dst.code)

/-- SERVICE entered by an unlock (R468, R469). -/
def State.serviceEntry (s : State) (m : Move) : State :=
  (s.modOtp fun o => { o with unlockActive := true, unlockExpiry := s.tick.now + BitVec.ofNat 64 m.len }).raise 0x0D08 0
    (m.key.setWidth 32)

/-- The start is complete (Table 02.4 step 0x00): the RWL locks are set, and a `FREEZE_N` that is low now triggers. -/
def State.startDone (s : State) : State :=
  let first := s.mode.afterReset
  let s := s.modMode fun m => { m with bootStep := 0, starting := false, rwlLocked := true, afterReset := false }
  if first then s.raise 0x0105 0 (s.mode.resetCause.setWidth 32) else s

/-- One mode is entered. -/
def State.enterMode (s : State) (dst : Mode) (m : Move) : State :=
  let old := s.mode.mode
  let s := if old = .field then forAll allCh (fun c t => t.seqLeaveField c) s else s
  let s := if old = .service then s.leaveService else s
  let s := if old = .road then s.modMode fun m => { m with roadLock := false } else s
  match dst with
  | .ship => s.enterShip
  | .standby => ((s.modMode fun m => { m with mode := .standby }).shown .standby).standbyEntry
  | .ready =>
    let start := s.mode.starting
    let s := s.modMode fun m => { m with mode := .ready }
    if start then (s.startDone.shown .ready).pinTrigger else s.shown .ready
  | .field => ((s.modMode fun m => { m with mode := .field }).modCourse fun c => { c with fieldPass := false }).shown .field
  | .road => (s.modMode fun m => { m with mode := .road }).shown .road
  | .service => ((s.modMode fun m => { m with mode := .service }).shown .service).serviceEntry m

/-- Whether the hop in progress can end now: the rail stop order comes before STANDBY, and the moves between link modes run on the
state clock (R30, R33). -/
def State.hopReady (s : State) (dst : Mode) : Bool :=
  match dst with
  | .standby => s.keepRuns && s.seqr.stopDone
  | .ship => s.mode.mode = .standby && !s.mode.starting && !s.tfPresent
  | _ => s.clockOn

/-- What a completed MODE_REQ or UNLOCK returns. -/
def State.moveInfo (s : State) (dst : Mode) : W64 := if dst = .service then s.otp.unlockExpiry else BitVec.ofNat 64 dst.code

/-- MODE_ENTRY: a hop of the move ends and its mode is entered; the next hop's conditions are judged as it begins (R30, R500).
In the fault state no move runs on (R37). -/
def execModeEntry (s : State) : Res :=
  match s.mode.move with
  | none => .next s
  | some m => match m.hops with
    | [] => .next (s.modMode fun x => { x with move := none })
    | dst :: rest =>
      if !s.mode.fault && s.hopReady dst then
        let s := (s.enterMode dst m).modMode fun x => { x with move := none }
        match rest with
        | [] => .next (s.moveDone m 0 (s.moveInfo dst))
        | next :: _ =>
          let bad := s.hopCond dst next
          if bad = 0 then .next (s.modMode fun x => { x with move := some { m with hops := rest } }).hopBegin
          else .next (s.moveDone m 0x22 (BitVec.ofNat 64 bad))
      else .next s

/-! ### KEY (R35) -/

/-- The KEY-off move to STANDBY; in ROAD it waits for the ground speed, and for a ROAD move in progress to end. -/
def State.keyoffMove (s : State) : State :=
  let start (s : State) : State :=
    if s.mode.mode = .road && s.moving then s.modMode fun m => { m with keyoffWait := true }
    else s.moveBegin { hops := hopsTo s.mode.mode .standby, cause := .keyOff }
  match s.mode.move with
  | none => start s
  | some m =>
    if m.hops.getLast? = some .standby || m.hops.getLast? = some .ship then s
    else if m.rank = 3 then s.modMode fun x => { x with keyoffWait := true }
    else start s.moveAbandon

/-- KEYOFF_DELAY_EXPIRY. -/
def execKeyoffDelayExpiry (s : State) : Res :=
  match s.mode.keyoffFrom with
  | some t =>
    if s.clockOn && t + s.get R.MODE_KEY_KEYOFF_DELAY * ticksPerS ≤ s.tick.wall then
      let s := (s.modMode fun m => { m with keyoffFrom := none }).raise 0x0104 0
      .next (if s.flag R.MODE_KEY_KEYOFF_STANDBY && s.mode.mode.isLink && !s.mode.fault then s.keyoffMove else s)
    else .next s
  | none => .next s

/-- KEYOFF_ROAD_MOVE_START: the move that waits begins at a decision boundary with the ground speed below 0.1 m/s; one that waited
for a ROAD request begins from the mode reached. -/
def execKeyoffRoadMoveStart (s : State) : Res :=
  if s.mode.keyoffWait && s.keepRuns && s.clockOn && !s.mode.fault && s.mode.move.isNone && s.mode.mode.isLink
      && !(s.mode.mode = .road && s.moving) then
    .next ((s.modMode fun m => { m with keyoffWait := false }).moveBegin
      { hops := hopsTo s.mode.mode .standby, cause := .keyOff })
  else .next s

/-- The warm start: Table 02.4 from step 0x07 (R30). -/
def State.warmStart (s : State) : State :=
  if s.mode.mode = .standby && !s.mode.starting && !s.mode.fault then
    if s.mode.keep = .halted || s.mode.refLost then s.modMode fun m => { m with exitHeld := true }
    else
      s.moveAbandon.modMode fun m => { m with starting := true, bootStep := 7, domeRun := true, exitHeld := false }
  else s

/-- The cold start: MODE reads STANDBY while it runs (R43). -/
def State.coldStart (s : State) : State :=
  if s.mode.mode = .ship then s.modMode fun m => { m with mode := .standby, starting := true, bootStep := 1 } else s

/-- A trigger that starts the module from SHIP or from STANDBY (Table 02.2). -/
def State.startTrigger (s : State) : State := if s.mode.mode = .ship then s.coldStart else s.warmStart

/-- WARM_START: a STANDBY exit trigger (Table 02.2). -/
def execWarmStart (s : State) : Res := .next s.warmStart

/-- WAKE_QUALIFIED: `WAKE` high for 1 ms (Table 02.2). -/
def execWakeQualified (s : State) : Res :=
  .next (s.modMode fun m => { m with pins := { m.pins with wake := true, wakeAt := s.tick.wall } }).startTrigger

/-- TF_QUALIFIED: TF above 9 V for 20 ms (Table 02.2). -/
def execTfQualified (s : State) : Res :=
  .next (s.modMode fun m => { m with pins := { m.pins with tf := true } }).startTrigger

/-- KEY_RISING: cancels a running KEY-off delay or a move that waits, and starts the module from STANDBY (R35, Table 02.2). -/
def execKeyRising (s : State) : Res :=
  let s := s.modMode fun m => { m with pins := { m.pins with key := true }, keyoffFrom := none, keyoffWait := false }
  .next (if s.mode.mode = .standby then s.warmStart else s)

/-- KEY_FALLING: starts the KEY-off delay in READY, FIELD, ROAD and SERVICE (R35). -/
def execKeyFalling (s : State) : Res :=
  let s := s.modMode fun m => { m with pins := { m.pins with key := false } }
  .next (if s.mode.mode.isLink then s.modMode fun m => { m with keyoffFrom := some s.tick.wall } else s)

/-- SERVICE_OVERSPEED_EXIT: ground speed above 2 m/s for 1 s (Table 02.2). -/
def execServiceOverspeedExit (s : State) : Res :=
  match s.mode.fastSince with
  | some t =>
    if s.clockOn && s.mode.mode = .service && !s.mode.fault && t + ticksPerS ≤ s.now then
      let m : Move := { hops := [.ready], cause := .overspeed }
      let free := (s.mode.move.map fun x => decide (x.rank < m.rank)).getD true
      .next (if free then ((s.modMode fun x => { x with fastSince := none }).moveTrigger m).raise 0x0106 0 else s)
    else .next s
  | none => .next s

/-- UNLOCK_EXPIRY: the module leaves SERVICE (R469, Table 02.2). -/
def execUnlockExpiry (s : State) : Res :=
  if s.clockOn && s.otp.unlockActive && s.mode.mode = .service && !s.mode.fault && s.otp.unlockExpiry ≤ s.tick.now then
    let s := s.modOtp fun o => { o with unlockActive := false }
    .next ((s.moveTrigger { hops := [.ready], cause := .expiry }).raise 0x0D0A 0)
  else .next s

/-! ### Resets (R39 to R42) -/

/-- POWER_ON_RESET: the Turret supply rises through 8 V. -/
def execPowerOnReset (s : State) : Res := .next s.powerOn

/-- RESET_N_PIN: low for 10 µs; ignored in SHIP (Table 02.3). -/
def execResetNPin (s : State) : Res := if s.mode.mode = .ship then .next s else .next (s.resetBy .pin)

/-- Whether the RESET opcode's reset of a kind is due. -/
def State.resetDue (s : State) (k : ResetKind) : Bool :=
  match s.mode.pendingReset with
  | some (j, t) => j = k && s.clockOn && t ≤ s.now
  | none => false

/-- DEVICE_COMMAND_RESET: 20,000 ticks after the completion of RESET (R275). -/
def execDeviceCommandReset (s : State) : Res := if s.resetDue .command then .next (s.resetBy .command) else .next s

/-- FAULT_STATE_RESET: the same for a RESET taken in the fault state (R275). -/
def execFaultStateReset (s : State) : Res := if s.resetDue .fault then .next (s.resetBy .fault) else .next s

/-- The host port after a PCI Express fundamental reset (R41): reach completions wait on in the spires, each compare unit keeps the
entry it holds, and events stay in their store (R278). -/
def HostPort.perst (h : HostPort) (spires : Vector SpireSt 16) : HostPort :=
  let stalled (q : Ring) : Bool := if hq : q.val < 16 then (spires[q.val]'hq).agent = 2 else false
  { rings := Vector.ofFn fun q => { stalled := stalled q }
    cq := h.cq.map fun (l : List Held) => l.filter fun x => match x.e with
      | .reach .. => true
      | .cmp .. => true
      | _ => false
    events := h.events, lost := h.lost, lostTick := h.lostTick, rate := h.rate, latTw := h.latTw, latKeep := h.latKeep
    sent := h.sent }

/-- PERST_ASSERT: the configuration space, the Host port and rings block, the MSI-X table, the ring pointers and the lends return
to reset values; the mode and everything behind the rings stand (R41). -/
def execPerstAssert (s : State) : Res :=
  let s := s.modMode fun m => { m with pins := { m.pins with perstHigh := false } }
  if !s.domeLive then .next s
  else
    let s := s.hp.lends.foldl (fun t l => t.endLend l.tag) s
    let s := { s with regs := s.regs.filter fun r => r.1 < 0x800 || 0x1000 ≤ r.1 }
    let s := s.modHp fun h => h.perst s.spire
    let s := s.modArb fun a => { a with tenure := none, data := [], reads := [], redo := Vector.replicate 24 none, rq := a.rq.map fun (r : RqSt) => { r with since := none, wait := 0 } }
    let s := (s.modOtp fun o => { o with load := o.load.map fun (x : ImgLoad) => { x with req := none } }).imgKeep fun r =>
      match r with
      | .key .. => true
      | _ => false
    let s := s.modRv fun r => { r with mailA := [], mailB := [], recvs := [] }
    let s := { s with frz := { s.frz with req := none }
                      chan := s.chan.map fun (h : Chan) => { h with seqr := { h.seqr with
                        cancels := h.seqr.cancels.map fun (x : CancelReq) => { x with req := none } } } }
    let s := (s.resetCauseBit 2).modMode fun m =>
      { m with bootStep := if 9 ≤ m.bootStep then 9 else m.bootStep, move := m.move.map fun (x : Move) => { x with req := none } }
    .next (s.raise 0x020A 0 1)

/-- PERST_DEASSERT: the endpoint may train the link (R45). -/
def execPerstDeassert (s : State) : Res := .next (s.modMode fun m => { m with pins := { m.pins with perstHigh := true } })

/-- CORE_THERMAL_RELEASE: the comparator has released and 1 s has passed; a reset held meanwhile proceeds (R390). -/
def execCoreThermalRelease (turret : Bool) (s : State) : Res :=
  let d : DieIx := if turret then 1 else 0
  match (s.die[d]).shutAt with
  | some t =>
    if t + ticksPerS ≤ s.tick.wall then
      let s := s.modDie d fun x => { x with shutAt := none }
      .next (match s.mode.heldReset with
        | some k => s.resetBy k
        | none => s)
    else .next s
  | none => .next s

/-! ### Start-up steps (Table 02.4) -/

/-- Whether the start is at a step and not stopped by the fault state. -/
def State.atStep (s : State) (n : Nat) : Bool := s.mode.starting && s.mode.bootStep.toNat = n && !s.mode.fault

/-- The start goes on to a step. -/
def State.toStep (s : State) (n : Nat) : State := s.modMode fun m => { m with bootStep := BitVec.ofNat 5 n }

/-- AUX0 voltage, code and validity of the `VSEL0` strap (Table 02.6, `RAIL_GLB.VSEL`). -/
def vselOf (ohm : Option Nat) : Nat × BitVec 2 × Bool :=
  match ohm with
  | none => (3300, 3, false)
  | some r =>
    if r < 2000 then (3300, 0, false)
    else if 9000 ≤ r && r ≤ 11000 then (5000, 1, false)
    else if 20000 ≤ r && r ≤ 24000 then (12000, 2, false)
    else if 100000 < r then (3300, 3, false)
    else (3300, 3, true)

/-- BOOT_TURRET_WAKE: step 0x01 latches the straps and scans the Silt log (R46, R404, R488). -/
def execBootTurretWake (straps : StrapIn) (s : State) : Res :=
  if s.atStep 1 then
    let (mv, code, bad) := vselOf straps.vsel0Ohm
    let s := s.modMode fun m => { m with straps :=
      { vselMv := mv, vselCode := code, vselBad := bad, addr := straps.addr, headLow := straps.headLow, stbyLow := straps.stbyLow } }
    let s := if bad then s.raise 0x0101 0 else s
    .next (s.siltScan.toStep 2)
  else .next s

/-- A start without a sound pack: bus-keep operation with TF present; else a record in the Silt log and SHIP (Table 02.4). -/
def State.packFailed (s : State) : State :=
  if s.tfPresent then s.toStep 4 else (s.siltPush 4 2 0 (s.packPayload false)).enterShip

/-- BOOT_PACK_CHECK: step 0x02 tests the switch at `PSW` and checks the pack (R308, R311). -/
def execBootPackCheck (taps : PackTaps) (s : State) : Res :=
  if s.atStep 2 then
    let s := (s.putFlag R.PACK_STAT_SW_TYPE (taps.psw < 100)).modPower fun p =>
      { p with pswBad := 100 ≤ taps.psw && taps.psw ≤ 5000 }
    let s := s.packResult taps
    .next (if s.packCode = 1 then s.toStep 3 else s.packFailed)
  else .next s

/-- BOOT_SOFT_CLOSE: step 0x03 closes the pack switch; a close that fails is taken as a shorted pack (R309, Table 02.4). -/
def execBootSoftClose (ok : Bool) (s : State) : Res :=
  if s.atStep 3 then
    if ok then
      .next (s.closed.toStep 4)
    else
      let s := s.openSwitch.count R.PACK_CNT_CHECK_FAIL
      .next (if s.packCode = 3 then s else (s.put R.PACK_STAT_PACK 3).raise 0x0602 2).packFailed
  else .next s

/-- A frequency within ±2 % of 25 MHz or of 100 MHz (R18). -/
def refOk (hz : Nat) : Bool := (24500000 ≤ hz && hz ≤ 25500000) || (98000000 ≤ hz && hz ≤ 102000000)

/-- BOOT_DOME_RELEASE: step 0x04 releases the Dome and measures the reference (R18). -/
def execBootDomeRelease (refHz : Option Nat) (s : State) : Res :=
  if s.atStep 4 then
    let s := s.modMode fun m => { m with domeOn := true }
    .next (if (refHz.map refOk).getD false then (s.modMode fun m => { m with domeRun := true }).toStep 5
      else s.raiseSrc 0x50 0x0B03 3)
  else .next s

/-- BOOT_KEEP_BOOT: step 0x05 boots the Keep from ROM and runs the lockstep self-test. -/
def execBootKeepBoot (selfTestOk : Bool) (s : State) : Res :=
  if s.atStep 5 then
    if selfTestOk then .next ((s.modMode fun m => { m with keep := .run, keepPatched := false }).toStep 6)
    else .next (s.raiseSrc 0x42 0x0B02 3)
  else .next s

/-- The words that Config sets, back at their reset values (R47). -/
def State.configDefaults (s : State) : State :=
  { s with regs := s.regs.filter fun x => !pairMayWrite x.1 || (match regRow x.1 with
      | some r => r.rw ||| r.rwl = 0
      | none => true) }

/-- The setting pairs of Config in ascending number: pairs 0 to 14 in words 1 to 30, and 15 in each of blocks 1 and 2
(Table 17.2, R453). -/
def pairPlace (n : Nat) : Nat := if n < 15 then 1 + 2 * n else 32 * (n / 15) + 2 * (n % 15)

/-- BOOT_OTP_CONFIG_READ: step 0x06 reads Config, judges its blocks, and applies the setting pairs, or the restrictive defaults
(R44, R47, R452 to R454). -/
def execBootOtpConfigRead (unread : Bool) (s : State) : Res :=
  if s.atStep 6 && s.keepRuns then
    let (ws, s) := s.otpNormal 0 0 128
    let pass (b : Nat) : Bool := !unread && blockPasses ((ws.drop (32 * b)).take 32)
    let mask := bitAt (pass 0) 0 + bitAt (pass 1) 1 + bitAt (pass 2) 2 + bitAt (pass 3) 3
    let s := ((s.put R.OTP_INTEG_CFG_PASS mask).putFlag R.OTP_INTEG_CFG_UNREAD unread).modOtp fun o => { o with keyHashOk := pass 3 }
    let s := s.modMode fun m => { m with patchPend := true }
    let s :=
      if mask = 15 then
        let s := s.setReg R.OTP_CFG_ID (ws.getD 0 0)
        forAll (List.range 45) (fun n t =>
          let k := pairPlace n
          if ws.getD k 0 = 0 then t else t.settingPair n (ws.getD k 0) (ws.getD (k + 1) 0)) s
      else (s.configDefaults.modMode fun m => { m with restricted := true }).raise 0x0102 2
    .next (s.toStep 7)
  else .next s

/-- PATCH_VERIFY_DONE: the verification of the Keep patch ends (R44, R455). -/
def execPatchVerifyDone (s : State) : Res :=
  if s.mode.patchPend && s.keepRuns then
    let s := s.modMode fun m => { m with patchPend := false }
    let (present, ok, s) := s.patchCheck
    let s := (s.putFlag R.OTP_INTEG_PATCH_PRESENT present).putFlag R.OTP_INTEG_PATCH_OK ok
    .next (if ok then s.modMode fun m => { m with patchSwitch := true } else if present then s.raise 0x0103 2 else s)
  else .next s

/-! ### Stage links and the reference (R14, R18, R19) -/

/-- The first channel of a stage die. -/
def dieFirst (die : StageDie) : Ch := ⟨8 * die.val, by omega⟩

/-- Data of events 0x59 and 0x5A (R137). -/
def linkData (die : StageDie) : W32 := BitVec.ofNat 32 (8 * die.val + 256 * die.val)

/-- STAGE_LINK_LOSS: no valid frame for 2 µs (R14). -/
def execStageLinkLoss (die : StageDie) (s : State) : Res :=
  if s.clockOn && !(chansOfDie die).any (fun c => (s.ch c).stage.linkSafe) then
    let s := forAll (chansOfDie die) (fun c t => t.modStage c fun g => { g with linkSafe := true, waitSample := false }) s
    .next (s.raise (chCode (dieFirst die) 0x59) 2 (linkData die))
  else .next s

/-- STAGE_LINK_RESTORE: valid frames for 100 µs (R14); each channel resumes at its next sample instant (R128). -/
def execStageLinkRestore (die : StageDie) (s : State) : Res :=
  if s.clockOn && (chansOfDie die).any (fun c => (s.ch c).stage.linkSafe) then
    let s := forAll (chansOfDie die) (fun c t => t.modStage c fun g => { g with linkSafe := false, waitSample := true }) s
    .next (s.raise (chCode (dieFirst die) 0x5A) 0 (linkData die))
  else .next s

/-- KEEP_REFERENCE_LOSS: no reference edge for 5 ms in STANDBY halts the Keep; one that restarts halts as it comes back (R19). -/
def execKeepReferenceLoss (s : State) : Res :=
  if s.mode.mode = .standby && !s.mode.starting then
    match s.mode.keep with
    | .run => .next (s.modMode fun m => { m with keep := .halted })
    | .restart => .next (s.modMode fun m => { m with refLost := true })
    | _ => .next s
  else .next s

/-- KEEP_REFERENCE_RETURN: the reference is measured. The Keep resumes, with a STANDBY exit that was held; outside the windows of R18
the module enters the fault state (R19). -/
def execKeepReferenceReturn (refHz : Nat) (s : State) : Res :=
  if s.mode.keep = .halted || s.mode.refLost then
    if refOk refHz then
      let s := s.modMode fun m => { m with keep := if m.keep = .halted then .run else m.keep, refLost := false }
      .next (if s.mode.exitHeld then s.warmStart else s)
    else .next ((s.modMode fun m => { m with keep := .off, refLost := false, exitHeld := false }).raiseSrc 0x50 0x0B03 3)
  else .next s

end Sys2Proof.Machine
end

