-- ==== Sys2Proof/Machine/Programs.lean ====
section
/-! DEFINITION. The standard control programs (07_standard_programs.md): NOZZLE, METER and LINEAR. Their code is not in
the spec; what they compute at each wake is. A WAIT that returns to an engine running PROG_ID 1 to 3 computes what the
program writes next (`Prog.dutyDue` and its kin), and the OUT rows of the engine write it (assumption 17). -/

namespace Sys2Proof.Machine

/-! ### Parameter blocks (R169 to R171, Tables 07.3, 07.7, 07.10, 07.11) -/

/-- A parameter field with its range. -/
structure PField where
  word : Nat
  lo : Nat
  w : Nat
  min_ : Nat
  max_ : Nat

/-- The common fields (Table 07.3). -/
def commonFields : List PField :=
  [⟨2, 0, 32, 1000, 200000⟩, ⟨3, 0, 32, 0, 0x7FFFFFFF⟩, ⟨4, 0, 32, 0, 0x7FFFFFFF⟩, ⟨5, 16, 16, 20000, 60000⟩,
   ⟨6, 0, 16, 0, 48000⟩]

/-- A program's own fields that have a range narrower than their width. SPD_SRC = 0b11 acts as 0 and is not limited. -/
def ownFields (id : Nat) : List PField :=
  match id with
  | 1 => [⟨8, 0, 16, 100, 1000⟩, ⟨8, 16, 3, 0, 4⟩, ⟨10, 0, 16, 0, 16000⟩, ⟨10, 16, 16, 0, 16000⟩, ⟨11, 0, 16, 500, 50000⟩,
          ⟨11, 16, 16, 0, 20000⟩, ⟨12, 0, 16, 0, 5000⟩, ⟨12, 16, 16, 0, 20000⟩, ⟨13, 0, 16, 5, 1000⟩, ⟨13, 16, 16, 0, 1000⟩,
          ⟨14, 0, 16, 500, 50000⟩, ⟨14, 16, 16, 2, 500⟩, ⟨15, 0, 32, 0, 40000000⟩, ⟨16, 0, 32, 0, 40000000⟩,
          ⟨17, 0, 32, 0, 40000000⟩, ⟨18, 0, 32, 0, 40000000⟩, ⟨19, 0, 4, 1, 8⟩, ⟨19, 8, 4, 1, 8⟩, ⟨19, 16, 8, 10, 200⟩,
          ⟨20, 0, 32, 0, 40000000⟩]
  | 2 => [⟨8, 0, 32, 1, 1000000⟩, ⟨9, 0, 8, 2, 64⟩, ⟨10, 0, 32, 0x00010000, 0x03E80000⟩, ⟨11, 0, 32, 1, 100000⟩,
          ⟨12, 0, 32, 0, 1000000⟩, ⟨13, 0, 32, 0, 0x7FFFFFFF⟩, ⟨14, 0, 32, 0, 0x7FFFFFFF⟩, ⟨15, 0, 16, 1, 65535⟩,
          ⟨15, 16, 16, 1, 2000⟩, ⟨16, 0, 4, 2, 10⟩, ⟨16, 24, 4, 4, 15⟩, ⟨17, 0, 32, 0, 0x7FFFFFFF⟩, ⟨18, 0, 32, 0, 1000000⟩,
          ⟨19, 0, 32, 0, 0x7FFFFFFF⟩, ⟨20, 0, 32, 0, 40000000⟩, ⟨21, 0, 32, 0, 40000000⟩, ⟨22, 0, 32, 0, 40000000⟩,
          ⟨23, 0, 4, 1, 8⟩]
  | _ => [⟨10, 0, 32, 0, 0x7FFFFFFF⟩, ⟨11, 0, 32, 0, 0x7FFFFFFF⟩, ⟨12, 0, 16, 1, 2000⟩, ⟨13, 0, 16, 0, 16000⟩,
          ⟨13, 16, 16, 10, 10000⟩, ⟨14, 0, 32, 0, 40000000⟩, ⟨15, 0, 16, 1, 65535⟩]

/-- Reserved bits by word. -/
def rsvBits (id : Nat) : List (Nat × W32) :=
  let own : List (Nat × W32) := match id with
    | 1 => [(8, 0xFFF80000), (19, 0xFF00F0F0)]
    | 2 => [(9, 0xFFFFF800), (16, 0xF0C0FEF0), (23, 0xFFFFFFF0)]
    | _ => [(12, 0xFFFE0000), (15, 0xFFFF0000)]
  [(0, 0xFF000000), (1, 0xFFFFF0F8), (6, 0xFFFF0000), (7, 0xFFFFFFFF)] ++ own

/-- One field limited to its range, and the mask of words limited (R170). -/
def limitField (b : List W32 × Nat) (f : PField) : List W32 × Nat :=
  let w := b.1.getD f.word 0
  let v := bits w.toNat f.lo f.w
  let v' := clampN f.min_ f.max_ v
  if v' = v then b
  else (b.1.set f.word (withField w ⟨0, f.lo, f.w⟩ v'), b.2 ||| 2 ^ f.word)

/-- The block as used, and the words limited or ignored (R170): fields tied to another are checked after it. -/
def limitBlock (id : Nat) (prm : List W32) : List W32 × Nat :=
  let b := (commonFields ++ ownFields id).foldl limitField (prm, 0)
  let b := match id with
    | 1 => limitField b ⟨18, 0, 32, (b.1.getD 17 0).toNat, 40000000⟩
    | 3 => limitField b ⟨9, 16, 16, bits (b.1.getD 9 0).toNat 0 16, 65535⟩
    | _ => b
  (b.1, (rsvBits id).foldl (fun m r => if prm.getD r.1 0 &&& r.2 = 0 then m else m ||| 2 ^ r.1) b.2)

/-- A field of the block in effect. -/
def Prog.f (p : Prog) (word lo w : Nat) : Nat := bits (p.prm.getD word 0).toNat lo w
/-- A whole word of the block in effect. -/
def Prog.w (p : Prog) (word : Nat) : Nat := (p.prm.getD word 0).toNat

/-! ### Records, learning, current loop (R173 to R180) -/

/-- A record of Table 07.6 to be written. -/
def Prog.record (p : Prog) (id kind data : Nat) (ws : List Int) : Prog :=
  { p with traceDue := p.traceDue ++
      [BitVec.ofNat 32 (kind + id * 256 + data % 65536 * 65536) :: ws.map (BitVec.ofInt 32)] }

/-- Learning of one latency (R178): the value and count after a sample, and whether it was accepted. -/
def Prog.learn (p : Prog) (lo hi : Int) (sh : Nat) (l : Int) (n : Nat) (x : Int) : Int × Nat × Bool :=
  let ok := p.f 1 0 1 = 1 && decide (lo ≤ x ∧ x ≤ hi) && (n < 16 || decide (l ≤ 2 * x ∧ x ≤ 2 * l))
  if ok then (l + roundDiv (x - l) (2 ^ sh : Nat), min 65535 (n + 1), true) else (l, n, false)

/-- [L_MIN, L_MAX] of a program (Table 07.7, and the text after Table 07.10). LINEAR states none; its range is that of
the latency field. -/
def Prog.learnRange (p : Prog) (id : Nat) : Int × Int := if id = 1 then (p.w 17, p.w 18) else (0, 40000000)

/-- v_b (R174). -/
def Prog.vb (p : Prog) : Int := p.vB.getD (p.f 5 16 16)

/-- The current loop at a sample (R173): the on-time, i_pred, and the integrator. -/
def Prog.loop (p : Prog) (x : Smp) (p8 lo ref : Int) : Int × Int × Prog :=
  let lim : Int := p.f 6 0 16 * 1000
  let ref := clampI (-lim) lim ref
  let slope := if p.gap || x.lost then 0 else x.i - p.iPrev
  let pred := satI 32 (x.i + roundDiv (slope * bits x.dly.toNat 0 24) (p.w 2))
  let e := ref - pred
  let ff := roundDiv (ref * p.f 5 0 16 * p8) (p.vb * 1000000)
  let pr := roundDiv (p.w 3 * e) 65536000
  let on := clampI lo p8 (ff + pr + roundDiv p.xQ8 256)
  let windup := (on = p8 && decide (0 < e)) || (on = lo && decide (e < 0))
  (on, pred, if windup then p else { p with xQ8 := satI 32 (p.xQ8 + roundDiv (p.w 4 * e * 256) 65536000) })

/-- What the program sees at a wake. -/
structure Wake where
  id : Nat
  c : Ch
  now : Nat
  x : Smp
  /-- 8P. -/
  p8 : Int
  /-- Sample taken last: SMP_SEQ and instant. -/
  seq : W32
  inst : Nat
  on : Bool
  tag : Option Nat
  r : Int
  /-- `RQ_ST.ADV`. -/
  adv : BitVec 16
  exitKind : Bool
  vg : Int
  bridge : Bool

/-- A duty written now, awaited at its update point. -/
def Wake.awaits (k : Wake) : Await := ⟨k.seq, k.inst, k.now⟩

/-- The update point of an awaited duty, once DLY reports it (R151). -/
def Wake.effect (k : Wake) (a : Await) : Option Nat :=
  let t := a.inst + bits k.x.dly.toNat 0 24
  if k.x.dlySeq = a.seq && a.from_ ≤ t then some t else none

/-- The update point of the first of several duties that DLY reports: a duty that a later one replaced before its update point
is never reported. -/
def Wake.effectOf (k : Wake) (l : List Await) : Option Nat := l.findSome? k.effect

/-- The duty of this sample joins the awaited ones, of which the last four are kept. -/
def Wake.awaitAlso (k : Wake) (l : List Await) : List Await :=
  if l.isEmpty || l.getLast? = some k.awaits then l else (l ++ [k.awaits]).drop (l.length - 3)

/-- The set-point at the nearer end of the program's range (R172, Table 07.4). -/
def Wake.limited (k : Wake) : Int := clampI 0 (if k.id = 2 then 4000000 else 10000) k.r

/-! ### NOZZLE (R183 to R191) -/

/-- T_v of a frequency (R183). -/
def tvOf (freq : Nat) : Nat := (roundDiv 2000000000 freq).toNat

/-- φ (R183). -/
def Prog.phi (p : Prog) (c : Ch) (tv : Nat) : Nat :=
  let d := 2 ^ p.f 8 16 3
  ((c.val % 16 % d) * (tv / d) + p.w 9) % tv

/-- T_v in effect: a change of FREQ_DHZ acts at the next pulse start (R171). -/
def Prog.tvNow (p : Prog) : Nat := tvOf (if p.nz.freq = 0 then p.f 8 0 16 else p.nz.freq)

/-- The first grid point at or after a tick (R183). -/
def Prog.gridFrom (p : Prog) (c : Ch) (tv t : Nat) : Nat :=
  let phi := p.phi c tv
  t + (phi + tv - t % tv) % tv

/-- A signed µs trim field in ticks (R184). -/
def Prog.trimTicks (p : Prog) (lo : Nat) : Int := signed 16 (p.f 21 lo 16) * 200

/-- lo_e. -/
def Prog.loE (p : Prog) : Int := p.nz.lO + p.trimTicks 0
/-- lc_e. -/
def Prog.lcE (p : Prog) : Int := p.nz.lC + p.trimTicks 16

/-- STICK after an actuation or a change of L_o (R190). -/
def Prog.stickStep (p : Prog) : Prog :=
  let n := (List.range 8).countP fun k => p.nz.stick.getLsbD k
  let lim : Int := p.w 20
  let big := lim ≠ 0 && decide (lim < p.nz.lO)
  let set := p.f 19 8 4 ≤ n || big
  let clr := n = 0 && !big
  let now := if set then true else if clr then false else p.nz.stuckFlag
  if now = p.nz.stuckFlag then p
  else ({ p with nz := { p.nz with stuckFlag := now } }).record 1 0x11 (if now then 1 else 0) [p.nz.stick.toNat, p.nz.lO]

/-- The end of an actuation (R189): it is classed, learned from, and recorded. -/
def Prog.endAct (p : Prog) : Prog :=
  let z := p.nz
  if !z.acting then p
  else
    let xo : Option Int := match z.effTick with
      | some t => if z.opSt = 2 then some ((z.opTick : Int) - t) else none
      | none => none
    let xc : Option Int := match z.senseTick with
      | some t => if 1 ≤ z.clSt then some ((z.clTick : Int) - t) else none
      | none => none
    let stuck := z.pullMaxed && z.opSt ≠ 2 && z.hit90
    let slow := match xo with
      | some x => !z.actGap && 16 ≤ z.nO && decide (z.lO * (100 + p.f 19 16 8) < x * 100)
      | none => false
    let rng := p.learnRange 1
    let sh := p.f 19 0 4
    let (lO, nO, okO) := match xo with
      | some x => if z.actGap then (z.lO, z.nO, false) else p.learn rng.1 rng.2 sh z.lO z.nO x
      | none => (z.lO, z.nO, false)
    let (lC, nC, okC) := match xc with
      | some x => if z.actGap then (z.lC, z.nC, false) else p.learn rng.1 rng.2 sh z.lC z.nC x
      | none => (z.lC, z.nC, false)
    let b (y : Bool) (k : Nat) : Nat := if y then 2 ^ k else 0
    let data := b xo.isSome 0 + b xc.isSome 1 + b okO 2 + b okC 3 + b z.actGap 4 + b stuck 5 + b slow 6
    let hist := (z.stick <<< (1 : Nat)) ||| (if stuck || slow then 1 else 0)
    let p := { p with nz := { z with lO := lO, nO := nO, lC := lC, nC := nC, stick := hist, acting := false } }
    (p.record 1 0x10 data [xo.getD 0, xc.getD 0, lO, lC]).stickStep

/-- A pulse start (R184, Table 07.8): the on-time is fixed; from OFF or SENSE full on is written at once. A SENSE cut
short gives no closing sample (R185). -/
def Prog.pulseStart (p : Prog) (k : Wake) : Prog :=
  let cold := p.nz.phase = .off || p.nz.phase = .sense
  let p := if p.nz.phase = .sense then { p with nz := { p.nz with clSt := 0, clMn := none } } else p
  let p := p.endAct
  let freq := p.f 8 0 16
  let tv := tvOf freq
  let re := max k.r (p.f 12 0 16)
  let t := max (roundDiv (re * tv) 10000 + p.loE - p.lcE) (p.loE + p.f 11 16 16 * 200)
  let cont := 10000 ≤ re || decide ((tv : Int) - p.f 12 16 16 * 200 ≤ t)
  let p := { p with
    nz := { p.nz with phase := .pull, freq := freq, cont := cont, effTick := none, senseTick := none, endTick := none,
                      tOn := t, rPulse := k.r.toNat, blk := [], opSt := 0, opPk := 0, opMn := 0, clSt := 0, clMn := none,
                      hit90 := false, pullMaxed := false, acting := true, actGap := false }
    await := [] }
  if cold then { p with dutyDue := some k.p8, await := [k.awaits] } else p

/-- PULL or HOLD ends in SENSE with its fixed on-time (Table 07.8). -/
def Prog.toSense (p : Prog) (k : Wake) : Prog :=
  let on := clampI 0 k.p8 (roundDiv (p.f 13 16 16 * 1000 * p.f 5 0 16 * k.p8) (p.vb * 1000000))
  { p with nz := { p.nz with phase := .sense, senseOn := on, senseTick := none, endTick := none, cont := false, blk := [],
                             clSt := 0, clMn := none, offGrid := false }
           dutyDue := some on, await := [k.awaits] }

/-- SENSE ends in OFF. -/
def Prog.toOff (p : Prog) : Prog :=
  let p := p.endAct
  { p with nz := { p.nz with phase := .off }, dutyDue := some 0 }

/-- In PULL or HOLD. -/
def Prog.pulsing (p : Prog) : Bool := p.nz.phase = .pull || p.nz.phase = .hold

/-- The update point awaited: pulse effect tick or sense effect tick (R185, R186). -/
def Prog.nzEffect (p : Prog) (t : Nat) : Prog :=
  match p.nz.phase with
  | .sense => { p with nz := { p.nz with senseTick := some t } }
  | .off => p
  | _ =>
    let g := if p.nz.offGrid then t + (roundDiv (tvOf p.nz.freq) 2).toNat else p.nz.gridMin
    { p with nz := { p.nz with effTick := some t, endTick := some (t + p.nz.tOn.toNat), gridMin := g, offGrid := false } }

/-- What falls due by tick at a TIMER wake (R183, R185): the end of SENSE, the pulse end, a grid point. -/
def Prog.nzTimer (p : Prog) (k : Wake) : Prog :=
  let p := match p.nz.phase, p.nz.senseTick with
    | .sense, some t => if t + p.f 14 0 16 * 200 ≤ k.now then p.toOff else p
    | _, _ => p
  let p := match p.nz.endTick with
    | some t => if p.pulsing && !p.nz.cont && t ≤ k.now then p.toSense k else p
    | none => p
  match p.nz.nextGrid with
  | some g =>
    if g ≤ k.now then
      let go := k.on && decide (0 < k.r) && !p.nz.offGrid && decide (p.nz.gridMin ≤ g)
      let q := if go then p.pulseStart k else p
      let q := if go && p.pulsing && p.nz.cont && q.nz.cont then p else q
      { q with nz := { q.nz with nextGrid := some (q.gridFrom k.c q.tvNow (k.now + 1)) } }
    else p
  | none => p

/-- PULL gives way to HOLD at a control sample (Table 07.8). -/
def Prog.pullEnds (p : Prog) (k : Wake) : Prog :=
  if p.nz.phase = .pull then
    let open_ := p.nz.opSt = 2 && p.nz.opTick + p.f 11 16 16 * 200 ≤ k.now
    let maxed := match p.nz.effTick with
      | some t => t + p.f 11 0 16 * 200 ≤ k.now
      | none => false
    if open_ || maxed then
      { p with nz := { p.nz with phase := .hold, pullMaxed := maxed && !open_, blk := [] } }
    else p
  else p

/-- NOZZLE at a control sample: its state, the on-time, I_ref and i_pred. An entry, a hand-over among them (R226), that falls in
SENSE or OFF opens the valve at once (R186). A pulse start or a pulse end that a TIMER of the same wake made has written its own
duty (Table 07.8). In a SENSE that a resume takes up, the first duty of the resumed program is awaited. -/
def Prog.nzSample (p : Prog) (k : Wake) : Int × Int × Int × Prog :=
  let entry := k.on && (!p.onSeen || k.adv ≠ p.advSeen)
  let p := if p.gap then { p with nz := { p.nz with blk := [], opSt := 0, opPk := 0, clSt := 0, clMn := none, actGap := true } } else p
  let p :=
    if (!k.on || decide (k.r ≤ 0)) && p.pulsing then p.toSense k
    else if entry && decide (0 < k.r) && !p.pulsing then
      let q := p.pulseStart k
      { q with nz := { q.nz with offGrid := true, nextGrid := some (q.gridFrom k.c q.tvNow (k.now + 1)) } }
    else if p.nz.phase = .sense && p.nz.senseTick.isNone && p.await.isEmpty then p.toSense k
    else p.pullEnds k
  let p := if p.nz.nextGrid.isNone then { p with nz := { p.nz with nextGrid := some (p.gridFrom k.c p.tvNow k.now) } } else p
  match p.dutyDue, p.nz.phase with
  | some on, _ => (on, 0, 0, p)
  | none, .off => (0, 0, 0, p)
  | none, .sense => (p.nz.senseOn, 0, 0, p)
  | none, ph =>
    let ref : Int := (if ph = .pull then p.f 10 0 16 else p.f 10 16 16) * 1000
    let (on, pred, p) := p.loop k.x k.p8 0 ref
    (on, ref, pred, if ph = .pull && p.nz.effTick.isNone && p.await.isEmpty then { p with await := [k.awaits] } else p)

/-- A block of 8 entries for the opening detector (R187). -/
def Prog.openBlock (p : Prog) (m : Int) (tb : Nat) : Prog :=
  let z := p.nz
  let dip : Int := p.f 13 0 16 * 1000
  let z := { z with hit90 := z.hit90 || decide (9 * (p.f 10 0 16 * 1000 : Int) ≤ 10 * m) }
  let z :=
    if z.opSt = 0 then
      if z.opPk < m then { z with opPk := m }
      else if dip ≤ z.opPk - m then { z with opSt := 1, opMn := m, opTick := tb } else z
    else if z.opSt = 1 then
      if m < z.opMn then { z with opMn := m, opTick := tb }
      else if dip ≤ 4 * (m - z.opMn) then { z with opSt := 2 } else z
    else z
  { p with nz := z }

/-- A block of 8 entries for the closing detector (R188). -/
def Prog.closeBlock (p : Prog) (m : Int) (tb : Nat) : Prog :=
  let z := p.nz
  let th : Int := p.f 14 16 16 * 1000
  let z :=
    if z.clSt = 0 then
      match z.clMn with
      | none => { z with clMn := some m }
      | some mn => if m < mn then { z with clMn := some m }
        else if th ≤ m - mn then { z with clSt := 1, clPk := m, clTick := tb } else z
    else if z.clSt = 1 then
      if z.clPk < m then { z with clPk := m, clTick := tb }
      else if th ≤ 4 * (z.clPk - m) then { z with clSt := 2 } else z
    else z
  { p with nz := z }

/-- An ISTRM entry that the program reads: eight in succession make a block with their mean and mean tick (R187, R188). -/
def Prog.feedIstrm (p : Prog) (tick : Nat) (ua : Int) : Prog :=
  let runs := match p.nz.phase with
    | .pull => p.nz.effTick.any (· ≤ tick)
    | .sense => p.nz.senseTick.any (· ≤ tick)
    | _ => false
  if runs then
    let b := p.nz.blk ++ [(tick, ua)]
    if b.length < 8 then { p with nz := { p.nz with blk := b } }
    else
      let m := roundDiv (b.foldl (fun a x => a + x.2) 0) 8
      let tb := (roundDiv (b.foldl (fun a x => a + x.1) 0 : Nat) 8).toNat
      let q := { p with nz := { p.nz with blk := [] } }
      if p.nz.phase = .pull then q.openBlock m tb else q.closeBlock m tb
  else p

/-- Ticks to the next timed change (R183, R185). -/
def Prog.nzTmr (p : Prog) (now : Nat) : Option Nat :=
  let l := [if p.nz.phase = .sense then p.nz.senseTick.map (· + p.f 14 0 16 * 200) else none,
            if p.pulsing && !p.nz.cont then p.nz.endTick else none, p.nz.nextGrid].filterMap id
  (l.min?).map fun t => max 1 (t - now)

/-! ### METER (R192 to R202) -/

/-- SPD_SRC; 0b11, and any source but 0 beside ANG_SRC = 1, act as 0 (R192). -/
def Prog.spdSrc (p : Prog) : Nat :=
  let v := p.f 9 9 2
  if v = 3 || p.f 9 8 1 = 1 then 0 else v

/-- Ground speed (R192). -/
def Prog.groundSpeed (p : Prog) (k : Wake) : Int :=
  match p.spdSrc with
  | 1 =>
    match p.mt.edges with
    | a :: b :: rest =>
      if a + 100000000 ≤ k.now then 0
      else
        let w := (a :: b :: rest).filter fun t => k.now ≤ t + 2000000
        let w := if w.length < 2 then [a, b] else w
        let speed (n span : Nat) : Int := roundDiv (p.w 19 * n * ticksPerS : Nat) (65536 * span : Nat)
        let m := speed (w.length - 1) (a - w.getLastD b)
        if a - b < k.now - a then min m (speed 1 (k.now - a)) else m
    | _ => 0
  | 2 => roundDiv (k.x.sns.toNat * p.w 19 : Nat) 65536
  | _ => k.vg

/-- N_r in Q16 (R198). -/
def Prog.nr (p : Prog) : Nat := max 1 (p.f 9 0 8 * p.w 10)

/-- Mean accepted interval in ticks (R197), with the time since the latest ripple in its place while that is longer. -/
def Prog.rippleDelta (p : Prog) (now : Nat) : Option Rat :=
  match p.mt.ivals, p.mt.ripLast with
  | [], _ => none
  | _, none => none
  | l, some t =>
    let d : Rat := (l.foldl (· + ·) 0 : Nat) / ((12 * l.length : Nat) : Rat)
    some (max d ((now - t : Nat) : Rat))

/-- n_meas in mrev/s (R197). -/
def Prog.nMeas (p : Prog) (now : Nat) : Int :=
  match p.rippleDelta now, p.mt.ripLast with
  | some d, some t =>
    if t + 40000000 ≤ now || d ≤ 0 then 0
    else roundRat (1000 * 200000000 * 65536 / (d * (p.f 9 0 8 * p.w 10 : Nat)))
  | _, _ => 0

/-- The shaft bin (R198). -/
def Prog.bin (p : Prog) (now : Nat) : Nat :=
  let frac : Rat := match p.rippleDelta now, p.mt.ripLast with
    | some d, some t => if d ≤ 0 then 0 else min (((now - t : Nat) : Rat) / d) 1
    | _, _ => 0
  ((((p.mt.c : Rat) + frac * 65536) * 512 / (p.nr : Rat)).floor.toNat) % 512

/-- One ripple of the count; a wrap closes a revolution with its REV record (R198). -/
def Prog.ripple1 (p : Prog) : Prog :=
  let c := p.mt.c + 65536
  let p := { p with mt := { p.mt with c := c, idxCount := p.mt.idxCount.map (· + 1) } }
  if c < p.nr then p
  else
    let m := p.mt
    let units := (m.units + p.w 8) % 2 ^ 64
    let mean := if m.nNum = 0 then 0 else roundDiv m.nSum m.nNum
    let dist := roundDiv m.dist ticksPerS
    let p := { p with mt := { m with c := c - p.nr, units := units, nSum := 0, nNum := 0, dist := 0, rejects := 0, inserts := 0 } }
    p.record 2 0x20 0 [units, mean, (m.rejects % 65536 + m.inserts % 65536 * 65536 : Nat), dist]

/-- n + 1 ripples of the count. -/
def Prog.rippleN (p : Prog) : Nat → Prog
  | 0 => p.ripple1
  | n + 1 => (p.ripple1).rippleN n

/-- A ripple at a control sample, checked against the back-EMF (R196). -/
def Prog.ripple (p : Prog) (k : Wake) : Prog :=
  let t := k.x.tick
  let first := (({ p with mt := { p.mt with ripLast := some t } }) : Prog).ripple1
  match p.mt.ripLast with
  | none => first
  | some t0 =>
    let iv := t - t0
    let ne : Rat := ((p.vb * k.x.onAt : Int) / (k.p8 : Rat) - ((k.x.i * p.f 5 0 16 : Int) / (1000000 : Rat))) / (p.f 15 0 16 : Nat)
    let push (n : Nat) : Prog :=
      let l := (List.replicate (n + 1) (12 * iv / (n + 1)) ++ p.mt.ivals).take 4
      (({ p with mt := { p.mt with ripLast := some t, ivals := l, inserts := p.mt.inserts + n } }) : Prog).rippleN n
    if ne < 1 / 2 then push 0
    else
      let tx : Rat := 200000000 / (ne * (p.f 9 0 8 : Nat))
      if (iv : Rat) < tx / 2 then { p with mt := { p.mt with rejects := p.mt.rejects + 1 } }
      else if 3 * tx / 2 < (iv : Rat) then push (min (roundRat ((iv : Rat) / tx) - 1).toNat 3)
      else push 0

/-- The ripple detector at a control sample (R195). -/
def Prog.rippleStep (p : Prog) (k : Wake) : Prog :=
  let m := p.mt.mQ8 + roundDiv (k.x.i * 256 - p.mt.mQ8) (2 ^ p.f 16 0 4 : Nat)
  let y := k.x.i - roundDiv m 256
  let h : Int := p.f 15 16 16 * 1000
  let p := { p with mt := { p.mt with mQ8 := m } }
  if !p.mt.ripHigh && decide (h ≤ y) then
    let p := p.ripple k
    { p with mt := { p.mt with ripHigh := true } }
  else if p.mt.ripHigh && decide (y ≤ -h) then { p with mt := { p.mt with ripHigh := false } }
  else p

/-- An SNSE edge that the program reads: an index edge (R198) or a ground pulse (R192). -/
def Prog.feedSnse (p : Prog) (tick : Nat) (level : Bool) (sns : Nat) : Prog :=
  if p.f 9 8 1 = 1 then
    if level then
      let p := match p.mt.idxCount with
        | none => p
        | some n =>
          let bad := decide (p.nr < 10 * (n * 65536 - p.nr) ∨ p.nr < 10 * (p.nr - n * 65536))
          if bad then ({ p with mt := { p.mt with sensFault := true } }).record 2 0x22 1 [sns, n]
          else if p.mt.sensFault then ({ p with mt := { p.mt with sensFault := false } }).record 2 0x22 0 [sns, n]
          else p
      { p with mt := { p.mt with c := 0, idxCount := some 0 } }
    else p
  else
    match p.mt.edges with
    | [] => { p with mt := { p.mt with edges := [tick] } }
    | e :: rest => { p with mt := { p.mt with edges := tick :: e :: rest.filter (fun t => tick ≤ t + 2000000) } }

/-- The update point of a start or a stop (R201). -/
def Prog.mtEffect (p : Prog) (t : Nat) : Prog :=
  match p.mt.stopping with
  | some n => { p with mt := { p.mt with stopAt := some (t, n), startAt := none, stopping := none } }
  | none => { p with mt := { p.mt with startAt := some t, stopAt := none } }

/-- Spin-up and stop samples (R201). -/
def Prog.spinStep (p : Prog) (k : Wake) (n : Int) : Prog :=
  let sh := p.f 23 0 4
  let p := match p.mt.startAt with
    | some t =>
      if decide (0 < p.mt.nRef ∧ 9 * p.mt.nRef ≤ 2560 * n) then
        let x : Int := (k.x.tick : Int) - t
        let (l, c, _) := if p.gap then (p.mt.spin, p.mt.nSpin, false) else p.learn 0 40000000 sh p.mt.spin p.mt.nSpin x
        ({ p with mt := { p.mt with spin := l, nSpin := c, startAt := none } }).record 2 0x21 0 [x, l, p.mt.stop]
      else p
    | none => p
  match p.mt.stopAt with
  | some (t, n0) =>
    if decide (10 * n ≤ n0) then
      let x : Int := (k.x.tick : Int) - t
      let (l, c, _) := if p.gap then (p.mt.stop, p.mt.nStop, false) else p.learn 0 40000000 sh p.mt.stop p.mt.nStop x
      ({ p with mt := { p.mt with stop := l, nStop := c, stopAt := none } }).record 2 0x21 1 [x, p.mt.spin, l]
    else p
  | none => p

/-- An entry of the repetitive table (R200). -/
def Prog.uAt (p : Prog) (b : Nat) : Int := p.mt.u.getD b 0

/-- METER at a control sample. The speed integrator and the repetitive table follow e_s in every sample (R199); ON = 0 is written
while the meter is stopped (R194). -/
def Prog.mtSample (p : Prog) (k : Wake) : Int × Int × Int × Prog :=
  let p := if p.gap then
      { p with await := [], mt := { p.mt with ivals := [], ripLast := none, startAt := none, stopAt := none, stopping := none } }
    else p
  let p := p.rippleStep k
  let vg := p.groundSpeed k
  let n := p.nMeas k.x.tick
  let ts := p.w 2
  let p := { p with mt := { p.mt with dist := p.mt.dist + vg * ts, nSum := p.mt.nSum + n, nNum := p.mt.nNum + 1 } }
  let run := k.on && decide (0 < k.r)
  let tgt := if !run || vg < p.w 12 then 0 else clampI 0 1000000 (roundDiv (k.r * vg) (p.w 8 * 1000))
  let step := roundDiv (p.w 11 * ts * 256 : Nat) 200000000
  let ref := if run then p.mt.nRef + clampI (-step) step (tgt * 256 - p.mt.nRef) else 0
  let begins := p.mt.nRef = 0 && decide (0 < ref)
  let stops := p.mt.running && !run
  let p := { p with
    mt := { p.mt with nRef := ref, running := run
                      stopping := if stops then some n else if begins then none else p.mt.stopping }
    await := if begins || stops then [k.awaits] else p.await }
  let p := p.spinStep k n
  let es := roundDiv ref 256 - n
  let lim : Int := p.f 6 0 16 * 1000
  let xs := clampI 0 lim (p.mt.xs + roundDiv (p.w 14 * es * 1000) 65536)
  let pi := clampI 0 lim (roundDiv (p.w 13 * es * 1000) 65536 + xs)
  let b := p.bin k.x.tick
  let u := if p.f 16 8 1 = 1 && decide ((p.w 18 * 256 : Nat) ≤ ref) then
      let l := if p.mt.u.isEmpty then List.replicate 512 0 else p.mt.u
      let v := p.uAt b
      l.set b (satI 16 (v - v / (2 ^ p.f 16 24 4 : Nat) + roundDiv (p.w 17 * es) 65536))
    else p.mt.u
  let p := { p with mt := { p.mt with xs := xs, u := u } }
  if run then
    let iref := clampI 0 lim (pi + p.uAt ((b + p.f 16 16 6) % 512) * 1000)
    let (on, pred, p) := p.loop k.x k.p8 0 iref
    (on, iref, pred, p)
  else (0, 0, 0, p)

/-! ### LINEAR (R203 to R208) -/

/-- The position (R203), none where POS_HI = POS_LO. -/
def Prog.position (p : Prog) (k : Wake) : Option Int :=
  let lo : Int := p.f 8 0 16
  let hi : Int := p.f 8 16 16
  if hi = lo then none else some (clampI 0 10000 (roundDiv (((k.x.sns.toNat : Int) - lo) * 10000) (hi - lo)))

/-- The sensor check at a sample (R207). -/
def Prog.sensorStep (p : Prog) (k : Wake) (pos : Option Int) : Prog :=
  let v := k.x.sns.toNat
  let bad := v < p.f 9 0 16 || p.f 9 16 16 < v
  let z := p.ln
  let z := if bad then { z with badRun := z.badRun + 1 } else { z with badRun := 0 }
  let z := if bad || pos.isNone then { z with goodFor := 0 } else { z with goodFor := z.goodFor + p.w 2 }
  let p := { p with ln := z }
  match pos with
  | none => if z.fault then p else ({ p with ln := { z with fault := true } }).record 3 0x22 1 [v, 0]
  | some x =>
    if !z.fault && 3 ≤ z.badRun then ({ p with ln := { z with fault := true } }).record 3 0x22 1 [v, 0]
    else if z.fault && 20000000 ≤ z.goodFor then
      ({ p with ln := { z with fault := false, xp := 0, pRef := x * 256 } }).record 3 0x22 0 [v, 0]
    else p

/-- The stall check at a sample (R206). -/
def Prog.stallStep (p : Prog) (k : Wake) (x : Int) : Prog :=
  let z := p.ln
  let db : Int := p.f 12 0 16
  if z.stalled then
    if decide (db < (k.r - z.stallR).natAbs) || (k.tag.isSome && k.tag ≠ z.stallTag) then
      ({ p with ln := { z with stalled := false, stallTmr := 0 } }).record 3 0x31 0 [x, k.x.i]
    else p
  else if p.f 13 0 16 * 1000 ≤ k.x.i.natAbs then
    if z.stallTmr = 0 || decide (db < (x - z.stallPos).natAbs) then { p with ln := { z with stallTmr := p.w 2, stallPos := x } }
    else
      let t := z.stallTmr + p.w 2
      if p.f 13 16 16 * ticksPerMs ≤ t then
        ({ p with ln := { z with stalled := true, stallTmr := 0, stallR := k.r, stallTag := k.tag } }).record 3 0x31 1 [x, k.x.i]
      else { p with ln := { z with stallTmr := t } }
  else { p with ln := { z with stallTmr := 0 } }

/-- LINEAR at a control sample. -/
def Prog.lnSample (p : Prog) (k : Wake) : Int × Int × Int × Prog :=
  let pos := p.position k
  let p := p.sensorStep k pos
  let p := if p.ln.fresh then
      { p with ln := { p.ln with fresh := false, lastR := k.r, stallR := k.r, stallTag := k.tag, stallPos := pos.getD 0 } } else p
  let p := if k.r = p.ln.lastR then { p with ln := { p.ln with moveFor := p.ln.moveFor + p.w 2 } }
    else { p with ln := { p.ln with lastR := k.r, arrived := false, moveFor := 0 } }
  match pos with
  | none => (0, 0, 0, p)
  | some x =>
    let p := p.stallStep k x
    if p.ln.fault || p.ln.stalled then (0, 0, 0, p)
    else
      let step := roundDiv (p.f 15 0 16 * p.w 2 * 256 : Nat) 200000000
      let ref := p.ln.pRef + clampI (-step) step (k.r * 256 - p.ln.pRef)
      let p := { p with ln := { p.ln with pRef := ref } }
      let e := roundDiv ref 256 - x
      let lim : Int := p.f 6 0 16 * 1000
      if e.natAbs ≤ p.f 12 0 16 && ref = k.r * 256 then
        if p.ln.arrived then (0, 0, 0, p)
        else (0, 0, 0, ({ p with ln := { p.ln with arrived := true } }).record 3 0x30 0 [x, p.ln.moveFor])
      else
        let raw := roundDiv (p.w 10 * e * 1000) 65536 + p.ln.xp
        let iref := clampI (-lim) lim raw
        let atLim := (decide (lim ≤ raw) && decide (0 < e)) || (decide (raw ≤ -lim) && decide (e < 0))
        let xp := if atLim then p.ln.xp else satI 32 (p.ln.xp + roundDiv (p.w 11 * e * 1000) 65536)
        let p := { p with ln := { p.ln with xp := xp } }
        let lo := if k.bridge && p.f 12 16 1 = 0 then -k.p8 else 0
        let (on, pred, p) := p.loop k.x k.p8 lo iref
        (on, iref, pred, p)

/-! ### Common sample work (R169 to R172, R176, R177) -/

/-- Learned values at their seeds (R178). -/
def Prog.seed (p : Prog) (id : Nat) (p8 : Int) : Prog :=
  let p := { p with dB := some (p8 / 2), dBn := 0 }
  match id with
  | 1 => { p with nz := { p.nz with lO := p.w 15, lC := p.w 16, nO := 0, nC := 0 } }
  | 2 => { p with mt := { p.mt with spin := p.w 21, stop := p.w 22, nSpin := 0, nStop := 0, u := [] } }
  | _ => p

/-- A block taken at a sample (R169 to R171, R178, R200): at a commit with its PARAM record. -/
def Prog.takeBlock (p : Prog) (k : Wake) (prm : List W32) (prmSeq : W32) (commit : Bool) : Prog :=
  let w0 := prm.getD 0 0
  let ok := (w0.extractLsb' 0 16).toNat = k.id && w0.extractLsb' 16 8 = 1
  if ok then
    let (blk, mask) := limitBlock k.id prm
    let old := p.prm
    let changed := k.id = 2 && !old.isEmpty && ([8, 10].any (fun i => blk.getD i 0 ≠ old.getD i 0)
      || (blk.getD 9 0 &&& 0x1FF) ≠ (old.getD 9 0 &&& 0x1FF))
    let p := { p with prm := blk, valid := true, prmPend := false, started := true }
    let p := if p.dB.isNone || (commit && p.f 1 1 1 = 1) then p.seed k.id k.p8 else p
    let p := if changed then { p with mt := { p.mt with u := [] } } else p
    if commit then p.record k.id 0x02 0 [(mask % 2 ^ 32 : Nat), (mask / 2 ^ 32 : Nat), prmSeq.toNat] else p
  else
    let p := { p with prmPend := false, started := true, valid := if commit then false else p.valid }
    if commit then p.record k.id 0x02 1 [0, 0, prmSeq.toNat] else p

/-- The set-point in the program's range, with a RANGE record once for each reach (R172). -/
def Prog.setPoint (p : Prog) (k : Wake) : Int × Prog :=
  let r := k.limited
  match k.tag with
  | some t =>
    if r ≠ k.r && !p.rangeTags.contains t then
      (r, ({ p with rangeTags := p.rangeTags ++ [t] }).record k.id 0x04 0 [k.r, r])
    else (r, p)
  | none => (r, p)

/-- Actuation latency for a kind of boundary (R191, R201, R208). -/
def Prog.latency (p : Prog) (id : Nat) (exit : Bool) : Int :=
  match id with
  | 1 => if exit then p.lcE else p.loE
  | 2 => p.w 20 + if exit then p.mt.stop else p.mt.spin
  | _ => p.w 14

/-- The write of BND_LAT (R177): after a change of the boundary's kind, and when the value differs from the one last
written. -/
def Prog.latStep (p : Prog) (k : Wake) : Prog :=
  let v := (max 0 (p.latency k.id k.exitKind + p.dB.getD 0)).toNat
  let turned := p.lastKind.any (· ≠ k.exitKind)
  let p := { p with lastKind := some k.exitKind }
  if p.lastLat = some v && !turned then p
  else ({ p with latDue := some v, lastLat := some v }).record k.id 0x03 (if k.exitKind then 1 else 0) [v, p.dB.getD 0]

/-- A gap (R176): a sample later than TS after the one before it, or the first after a resume. -/
def Prog.gapStep (p : Prog) (k : Wake) : Prog :=
  let late := !k.x.lost && p.prevTick.any fun t => t + p.w 2 < k.x.tick
  if p.gap || late then ({ p with gap := true, bndTgt := none, bndAwait := none }).record k.id 0x05 0 [(k.x.tick - p.prevTick.getD k.x.tick : Nat)]
  else p

/-- The phase code of a record and of the checkpoint block; METER and LINEAR have no phases. -/
def NzPhase.code : NzPhase → Nat
  | .off => 0 | .pull => 1 | .hold => 2 | .sense => 3

/-- A control sample of a program with a valid block. -/
def Prog.validSample (p : Prog) (k : Wake) : Prog :=
  let p := p.gapStep k
  let p := if 80 ≤ k.x.onAt then { p with vB := some (clampI 10000 80000 k.x.v) } else p
  let (r, p) := p.setPoint k
  let k := { k with r := r }
  let p := match p.bndTgt with
    | some t => { p with bndTgt := none, bndAwait := some (t, [k.awaits]) }
    | none => { p with bndAwait := p.bndAwait.map fun (x : W32 × List Await) => (x.1, k.awaitAlso x.2) }
  let (on, ref, pred, p) := match k.id with
    | 1 => p.nzSample k
    | 2 => p.mtSample k
    | _ => p.lnSample k
  let p : Prog := { p with dutyDue := some on, await := k.awaitAlso p.await, onSeen := k.on, advSeen := k.adv }
  let p := ({ p with iPrev := k.x.i, prevTick := some k.x.tick, gap := false } : Prog).latStep k
  let due := p.f 1 2 1 = 1 && p.smpCount % 2 ^ p.f 1 8 4 = 0
  let p := if due then p.record k.id 0x01 (if k.id = 1 then p.nz.phase.code else 0) [ref, k.x.i, on, pred] else p
  { p with smpCount := p.smpCount + 1 }

/-- A control sample without a valid block (R169). -/
def Prog.idleSample (p : Prog) (k : Wake) : Prog :=
  { p with dutyDue := some 0, latDue := some 0, lastLat := some 0, onSeen := k.on, advSeen := k.adv, iPrev := k.x.i, prevTick := some k.x.tick,
           gap := false }

/-- What DLY reports at a wake (R151): effect ticks, and D_b (R177). -/
def Prog.dlyStep (p : Prog) (k : Wake) : Prog :=
  let p := match k.effectOf p.await with
    | some t =>
      let q := { p with await := [] }
      if k.id = 1 then q.nzEffect t else if k.id = 2 then q.mtEffect t else q
    | none => p
  match p.bndAwait with
  | some (tgt, l) => match k.effectOf l with
    | some t =>
      let x := (BitVec.ofNat 32 t - tgt).toInt
      let rng := p.learnRange k.id
      let (d, n, _) := p.learn rng.1 rng.2 3 (p.dB.getD 0) p.dBn x
      { p with bndAwait := none, dB := some d, dBn := n }
    | none => p
  | none => p

/-- A wake of a standard program on a set of events (Table 06.5). -/
def Prog.wake (p : Prog) (k : Wake) (hit : BitVec 16) (prm : List W32) (prmSeq : W32) (bndTgt : W32) : Prog :=
  let p := { p with dutyDue := none, latDue := none, tmrDue := none, prmPend := p.prmPend || hit.getLsbD 5 }
  let p := if hit.getLsbD 3 then { p with bndTgt := some bndTgt } else p
  let p := if p.valid then p.dlyStep k else p
  let p := if hit.getLsbD 6 && k.id = 1 && p.valid then p.nzTimer { k with r := k.limited } else p
  let p :=
    if hit.getLsbD 0 then
      let resumed := p.gap && !p.started
      let p := if p.prmPend || !p.started then p.takeBlock k prm prmSeq p.prmPend else p
      let p := if resumed then { p with onSeen := k.on, advSeen := k.adv } else p
      if p.valid then p.validSample k else p.idleSample k
    else p
  if k.id = 1 && p.valid then { p with tmrDue := p.nzTmr k.now } else p

/-! ### Checkpoint blocks (R179, Table 07.5) -/

/-- The block that a program checkpoints, as words. -/
def Prog.block (p : Prog) (id : Nat) : List W32 :=
  let i (x : Int) : W32 := BitVec.ofInt 32 x
  let b (y : Bool) (k : Nat) : Nat := if y then 2 ^ k else 0
  let head (phase : Nat) (settled : Bool) (stick n : Nat) : List W32 :=
    [BitVec.ofNat 32 (phase + b p.valid 4 + b settled 5 + stick * 256 + min n 65535 * 65536), i p.xQ8, i p.iPrev, i p.vb,
     BitVec.ofNat 32 (p.lastLat.getD 0), i (p.dB.getD 0)]
  match id with
  | 1 =>
    let z := p.nz
    head z.phase.code (16 ≤ z.nO && 16 ≤ z.nC) z.stick.toNat (min z.nO z.nC) ++
      [i z.lO, i z.lC, BitVec.ofNat 32 (z.nextGrid.getD 0), BitVec.ofNat 32 (z.effTick.getD 0),
       BitVec.ofNat 32 (z.endTick.getD 0), i z.tOn, BitVec.ofNat 32 z.rPulse, 0, 0, 0]
  | 2 =>
    let m := p.mt
    let mean := if m.ivals.isEmpty then 0 else m.ivals.foldl (· + ·) 0 / (12 * m.ivals.length)
    head 0 (16 ≤ m.nSpin && 16 ≤ m.nStop) 0 (min m.nSpin m.nStop) ++
      [i m.spin, i m.stop, i m.nRef, i m.xs, BitVec.ofNat 32 m.c, BitVec.ofNat 32 (m.ripLast.getD 0), BitVec.ofNat 32 mean,
       i m.mQ8, BitVec.ofNat 32 m.units, BitVec.ofNat 32 (m.units / 2 ^ 32), BitVec.ofNat 32 m.rejects,
       BitVec.ofNat 32 m.inserts, i (roundDiv m.dist ticksPerS), 0] ++ List.replicate 12 0
  | _ =>
    let z := p.ln
    head 0 false 0 0 ++ [BitVec.ofNat 32 z.stallTmr, i (roundDiv (z.xp * 256) 1000), i z.pRef, BitVec.ofNat 32 (b z.stalled 0 + b z.fault 1)]
      ++ List.replicate 6 0

/-! ### At an engine's WAIT -/

/-- The engine runs a standard program (Table 06.8): PROG_ID 1 to 3. -/
def State.stdProg (s : State) (e : Eng) : Option Nat :=
  match s.serves e with
  | some c => let id := (s.ch c).slot.progId.toNat; if 1 ≤ id && id ≤ 3 then some id else none
  | none => none

/-- What the program of a channel sees. -/
def State.wakeView (s : State) (e : Eng) (c : Ch) (id : Nat) : Wake :=
  let h := s.ch c
  { id := id, c := c, now := s.now, x := h.smp, p8 := 8 * s.pwmP c, seq := (s.eng[e]).tookSeq, inst := (s.eng[e]).tookInst,
    on := h.seqr.isOn, tag := h.seqr.sched.seq?, r := h.seqr.rPresented, adv := h.seqr.adv,
    exitKind := h.seqr.rqSt.getLsbD 8, vg := h.vRep, bridge := s.isBridgeLead c }

/-- A WAIT that returns the events `hit` to a standard program: what it computes, and its checkpoint block in data RAM. -/
def State.progWake (s : State) (e : Eng) (hit : BitVec 16) : State :=
  match s.serves e, s.stdProg e with
  | some c, some id =>
    let h := s.ch c
    s.modEng e fun x =>
      let p := x.prog.wake (s.wakeView e c id) hit h.prm h.prmSeq ((s.units[bndUnit c]).target.extractLsb' 0 32)
      { x with prog := p, dram := memWrite x.dram 0 (wordBytes (p.block id)) }
  | _, _ => s

/-- The tick of an ISTRM entry that is being read (R145, R187): entries of the grid follow the latest instant at 50 ticks
each, and the instants before the latest one lie TS apart. `rest` are the entries behind it. -/
def State.istrmTick (s : State) (c : Ch) (inst : Bool) (rest : List W32) (p : Prog) : Nat :=
  let h := s.ch c
  let latest := if h.latchDue.isSome then h.smpNext.tick else h.smp.tick
  let later := rest.countP fun w => w.getLsbD 31
  let base := latest - later * p.w 2
  if inst then base else p.nz.entryTick + 50

/-- What a standard program does with an entry that it reads from a FIFO. -/
def State.progFeed (s : State) (e : Eng) (port : Nat) (w : W32) : State :=
  match s.serves e, s.stdProg e with
  | some c, some 1 =>
    if port = 0x020 && !w.getLsbD 27 then
      let t := s.istrmTick c (w.getLsbD 31) (s.ch c).istrm (s.eng[e]).prog
      s.modEng e fun x =>
        { x with prog := { x.prog with nz := { x.prog.nz with entryTick := t } }.feedIstrm t (signed 27 w.toNat) }
    else s
  | some c, some 2 =>
    if port = 0x024 then
      let age := (s.now - w.toNat) % 2 ^ 31
      s.modEng e fun x => { x with prog := x.prog.feedSnse (s.now - age) (w.getLsbD 31) (s.ch c).smp.sns.toNat }
    else s
  | _, _ => s

end Sys2Proof.Machine
end

