-- ==== Sys2Proof/Machine/Ports.lean ====
section
/-! DEFINITION. The engine's ports (R144 to R154), locked sequences (R157), checkpoints (R155), and the Weir's judgement
of what an engine writes (R146, R149 to R152). -/

namespace Sys2Proof.Machine

/-! ### The port map (Table 06.4) -/

/-- What a port allows: read, write, fenced, removing; and the cycles of an access. -/
structure PortInfo where
  r : Bool := false
  w : Bool := false
  p : Bool := false
  cyc : Nat := 1

/-- The port map; none for a number outside it. -/
def portInfo (port : Nat) : Option PortInfo :=
  if port = 0x000 then some { r := true, w := true }
  else if port ≤ 0x003 then some { r := true }
  else if port ≤ 0x005 then some { r := true, cyc := 2 }
  else if port = 0x006 then some { w := true }
  else if 0x010 ≤ port && port ≤ 0x015 then some { r := true, cyc := 2 }
  else if 0x018 ≤ port && port ≤ 0x019 then some { r := true, cyc := 2 }
  else if port = 0x020 || port = 0x022 || port = 0x024 then some { r := true, p := true, cyc := 2 }
  else if port = 0x021 || port = 0x023 || port = 0x025 then some { r := true, cyc := 2 }
  else if 0x030 ≤ port && port ≤ 0x033 then some { w := true }
  else if 0x038 ≤ port && port ≤ 0x03F then some { r := true, cyc := 2 }
  else if 0x040 ≤ port && port ≤ 0x080 then some { r := true, cyc := 4 }
  else if 0x090 ≤ port && port ≤ 0x0A0 then some { r := true, cyc := 4 }
  else if port = 0x0B0 || port = 0x0B1 then some { w := true }
  else none

/-- Low 32 bits of an integer. -/
def low32 (x : Int) : W32 := BitVec.ofInt 32 x

/-- The role code of an engine (Table 09.1). -/
def Role.code : Role → W32
  | .home => 0 | .idle => 1 | .ctl => 2 | .deposed => 3

/-- The bits of SMP_FLG. -/
def Smp.flags (x : Smp) : W32 :=
  let b (y : Bool) (k : Nat) : Nat := if y then 2 ^ k else 0
  BitVec.ofNat 32 (b x.mark 0 + b x.high 1 + b x.overRange 2 + b x.lost 3)

/-- What a locked sequence latches at LOCK, or the present values (R157). -/
def State.lockView (s : State) (e : Eng) (ga gb : GReg) : LockSt :=
  let x := s.eng[e]
  match x.lock with
  | some l => l
  | none =>
    let crs := match s.serves e with
      | some c => ((s.ch c).vRep, (s.ch c).sRep, s.chAccel c)
      | none => (0, 0, 0)
    { ga := ga, gb := gb, va := x.getG ga, vb := x.getG gb, pc := x.pc, tick := s.tick.now, v := crs.1, s := crs.2.1,
      a := crs.2.2, upd := s.course.updTick }

/-- The value of a port of the channel that an engine serves (Table 06.4); the P ports are read by `portPop`. -/
def State.chanPort (s : State) (e : Eng) (c : Ch) (port : Nat) : W32 :=
  let h := s.ch c
  let l := s.lockView e 0 0
  match port with
  | 0x010 => low32 h.smp.i
  | 0x011 => low32 h.smp.v
  | 0x012 => h.smp.sns.zeroExtend 32
  | 0x013 => h.smp.flags
  | 0x014 => BitVec.ofNat 32 h.smp.tick
  | 0x015 => h.smp.seq
  | 0x018 => h.smp.dly
  | 0x019 => h.smp.dlySeq
  | 0x021 => BitVec.ofNat 32 h.istrm.length
  | 0x023 => BitVec.ofNat 32 h.vstrm.length
  | 0x025 => BitVec.ofNat 32 h.snse.length
  | 0x038 => low32 l.v
  | 0x039 => low32 l.s
  | 0x03A => low32 (l.s / 2 ^ 32)
  | 0x03B => low32 l.a
  | 0x03C => l.upd.extractLsb' 0 32
  | 0x03D => (s.units[bndUnit c]).target.extractLsb' 0 32
  | 0x03E => (s.units[bndUnit c]).target.extractLsb' 32 32
  | 0x03F => (s.units[bndUnit c]).ctrl
  | 0x080 => h.prmSeq
  | 0x0A0 => h.seqr.rqSt
  | _ =>
    if port < 0x080 then h.prm.getD (port - 0x040) 0
    else if port < 0x098 then (h.seqr.rqa c).getD (port - 0x090) 0
    else (h.seqr.rqn c).getD (port - 0x098) 0

/-- The value of a port that removes nothing (Table 06.4, R144). -/
def State.portRead (s : State) (e : Eng) (port : Nat) : W32 :=
  let x := s.eng[e]
  match port with
  | 0x000 => x.flags.zeroExtend 32
  | 0x001 => match s.serves e with
    | some c => BitVec.ofNat 32 c.val
    | none => 0xFFFFFFFF
  | 0x002 => x.epoch.zeroExtend 32
  | 0x003 => x.role.code
  | 0x004 => (s.lockView e 0 0).tick.extractLsb' 0 32
  | 0x005 => if x.lock.isSome then (s.lockView e 0 0).tick.extractLsb' 32 32 else x.tickH
  | _ => match s.serves e with
    | some c => s.chanPort e c port
    | none => 0

/-- The FIFO of a P port, its head and the channel without it. -/
def Chan.pop (h : Chan) (port : Nat) : Option (W32 × Chan) :=
  match port with
  | 0x020 => match h.istrm with | w :: r => some (w, { h with istrm := r }) | [] => none
  | 0x022 => match h.vstrm with | w :: r => some (w, { h with vstrm := r }) | [] => none
  | _ => match h.snse with | w :: r => some (w, { h with snse := r }) | [] => none

/-- A P read: the value and the state after it; EMPTY describes it (R144, R145). -/
def State.portPop (s : State) (e : Eng) (port : Nat) : W32 × State :=
  let empty (b : Bool) (s : State) : State := s.modEng e fun x => { x with flags := x.flags &&& 0x17 ||| if b then 8 else 0 }
  match s.serves e with
  | none => (0, empty true s)
  | some c => match (s.ch c).pop port with
    | some (w, h) => (w, empty false ((s.modCh c fun _ => h).progFeed e port w))
    | none => (0, empty true s)

/-- After an instruction with effects outside the engine: cycles, and PC where the engine has not stopped. -/
def State.retireInsn (s : State) (e : Eng) (reads : List GReg) (cyc : Nat) : State :=
  let x := s.eng[e]
  if x.running then (s.modEng e fun _ => x.charge x reads cyc none).seqPc e else s

/-- IN (R144): exception 0x6 for a destination or a P read that a locked sequence forbids, 0x5 for port misuse. -/
def inInsn (e : Eng) (d : GReg) (port : Nat) (s : State) : Res :=
  if s.canIssue e then
    let x := s.eng[e]
    if !x.mayWrite d then .next (s.engExc e .lock x.pc 0)
    else match portInfo port with
      | none => .next (s.engExc e .port x.pc 0)
      | some p =>
        if !p.r then .next (s.engExc e .port x.pc 0)
        else if p.p && x.lock.isSome then .next (s.engExc e .lock x.pc 0)
        else
          let (v, s) := if p.p then s.portPop e port else (s.portRead e port, s)
          let s := if port = 4 then s.modEng e fun x => { x with tickH := (s.lockView e 0 0).tick.extractLsb' 32 32 } else s
          .next ((s.modEng e fun x => x.setG d v).retireInsn e [] p.cyc)
  else .next s

/-- IN: d = port (R144). -/
def execPortIn (e : Eng) (d : GReg) (port : BitVec 16) (s : State) : Res := inInsn e d port.toNat s

/-- IN from a port that removes what it returns (R145). -/
def execInPop (e : Eng) (d : GReg) (port : BitVec 16) (s : State) : Res := inInsn e d port.toNat s

/-- IN from TICK_L, which latches TICK_H (Table 06.4). -/
def execInTickL (e : Eng) (d : GReg) (s : State) : Res := inInsn e d 0x004 s

/-! ### The Weir (R146, R149 to R152) -/

/-- The verdict on a fenced OUT: the engine serves a channel and carries its present epoch (R146). A refusal is counted on
the channel served or lost, and stops a deposed engine (R144, R247). -/
def State.fence (s : State) (e : Eng) : State × Option Ch :=
  let x := s.eng[e]
  let mark (b : Bool) (s : State) : State := s.modEng e fun x => { x with flags := x.flags &&& 0x1B ||| if b then 4 else 0 }
  let refuse : State :=
    let s := mark true s
    let s := match (s.serves e).or (if x.role = .deposed then x.lostCh else none) with
      | some c => s.count (R.CH_ENG_CNT_FENCED c)
      | none => s
    if x.role = .deposed then s.deposedStop e 1 else s
  match s.serves e with
  | some c => if x.epoch = (s.ch c).epoch then (mark false s, some c) else (refuse, none)
  | none => (refuse, none)

/-- The on-time of a DUTY word (R150). -/
def dutyOn (w : W32) : Int := (w.extractLsb' 0 24).toInt

/-- CHK of a DUTY word (R150). -/
def dutyChk (w : W32) : Byte := ~~~(w.extractLsb' 0 8 ^^^ w.extractLsb' 8 8 ^^^ w.extractLsb' 16 8)

/-- The word of an on-time (R150). -/
def dutyWord (on : Int) : W32 :=
  let lo := BitVec.ofInt 24 on
  let w : W32 := lo.zeroExtend 32
  dutyChk w ++ lo

/-- R150: the Weir takes the duty as implausible. -/
def State.implausible (s : State) (c : Ch) (w : W32) : Bool :=
  let on := dutyOn w
  let h := s.ch c
  w.extractLsb' 24 8 != dutyChk w || 8 * s.pwmP c < on.natAbs || (on < 0 && !s.isBridgeLead c)
    || (h.slot.dslew ≠ 0 && h.slot.dslew < (on - h.lastOn).natAbs)

/-- A pull-in guard starts when an accepted on-time exceeds the one before by 4P steps or more (R329). -/
def State.guardStart (s : State) (c : Ch) (prev on : Int) : State :=
  if prev.natAbs + 4 * s.pwmP c ≤ on.natAbs then
    s.modCh (s.leadOf c) fun h => { h with guardUntil := some (s.now + s.get R.BUD_PULL_GUARD_MS * ticksPerMs) }
  else s

/-- An accepted on-time: it meets the deadline of the sample that WAIT returned (R149), and the Weir forwards it while RUN
is 1, outside the fault state and a manual period, and neither during an image copy nor for an engine that debug steps (Table
06.9, R28, R163, R399, R421). -/
def State.acceptDuty (s : State) (e : Eng) (c : Ch) (on : Int) : State :=
  let x := s.eng[e]
  let prev := (s.ch c).lastOn
  let s := s.modCh c fun h =>
    { h with lastOn := on, dueMet := h.dueMet || (x.took && x.tookSeq = h.smp.seq) }
  if s.flag (R.CH_ENG_CTRL_RUN c) && !s.mode.fault && (s.ch c).copying.isNone && (s.ch c).manual.isNone && !x.stepping then
    let s := s.guardStart c prev on
    s.sendTrimmed c on (if x.took then some (x.tookSeq, x.tookInst) else none)
  else s

/-- A refused duty: IMPL, event 0x61, and the declaration of R242. -/
def State.refuseDuty (s : State) (c : Ch) : State :=
  ((s.count (R.CH_ENG_CNT_IMPL c)).raise (chCode c 0x61) 0 (BitVec.ofNat 32 c.val)).declareDead c 1

/-- An OUT to DUTY (R146, R150). -/
def State.weirDuty (s : State) (e : Eng) (w : W32) : State :=
  match s.fence e with
  | (s, none) => s
  | (s, some c) => if s.implausible c w then s.refuseDuty c else s.acceptDuty e c (dutyOn w)

/-- An OUT to DUTY_HOLD: the last accepted on-time again (Table 06.4). -/
def State.weirHold (s : State) (e : Eng) : State :=
  match s.fence e with
  | (s, none) => s
  | (s, some c) => s.acceptDuty e c (s.ch c).lastOn

/-- An OUT to BND_LAT (R152). -/
def State.weirLat (s : State) (e : Eng) (v : Nat) : State :=
  match s.fence e with
  | (s, none) => s
  | (s, some c) =>
    (s.setReg (R.CH_BND_LAT c) (BitVec.ofNat 32 (min v 40000000))).putFlag (R.CH_ENG_STAT_LAT_ENGINE c) true

/-- An OUT to SMP_PER (R89, R106). -/
def State.weirSmpPer (s : State) (e : Eng) (v : W32) : State :=
  match s.fence e with
  | (s, none) => s
  | (s, some c) => s.smpPeriodWrite c v

/-- An OUT to TMR: TIMER after that many ticks; 0 cancels (Table 06.4). -/
def State.outTmrOp (s : State) (e : Eng) (v : W32) : State :=
  s.modEng e fun x => { x with tmr := if v = 0 then none else some (s.now + v.toNat) }

/-- The Eddy record at TRACE_END (R154, R301). -/
def State.eddyRec (s : State) (e : Eng) (ws : List W32) : EddyRec :=
  let x := s.eng[e]
  let smp := match s.serves e with
    | some c => (s.ch c).smp
    | none => {}
  let chan := match s.serves e with
    | some c => c.val
    | none => 0xFF
  let prog := (List.range 5).map fun k => ws.getD k 0
  { words := prog ++ [smp.seq, BitVec.ofNat 32 (smp.dly.toNat % 2 ^ 25 + engCode e * 2 ^ 25),
      BitVec.ofNat 32 (smp.dlySeq.toNat % 65536 + chan * 65536 + x.epoch.toNat % 256 * 16777216)] }

/-- An OUT to TRACE_END: the open record closes and is stored (R154). -/
def State.traceEnd (s : State) (e : Eng) (ws : List W32) : State :=
  (s.eddyStore e (s.eddyRec e ws)).modEng e fun x => { x with trace := [] }

/-- OUT to a port with its effect; exception 0x6 in a locked sequence, 0x5 for port misuse (R144, R157). -/
def outInsn (e : Eng) (a : GReg) (port : Nat) (f : W32 → State → State) (s : State) : Res :=
  if s.canIssue e then
    let x := s.eng[e]
    if x.lock.isSome then .next (s.engExc e .lock x.pc 0)
    else match portInfo port with
      | none => .next (s.engExc e .port x.pc 0)
      | some p => if p.w then .next ((f (x.getG a) s).retireInsn e [a] p.cyc) else .next (s.engExc e .port x.pc 0)
  else .next s

/-- What a standard program writes: the due value where its sample computed one, else the register (assumption 17). -/
def State.dueWord (s : State) (e : Eng) (v : W32) (due : Prog → Option W32) : W32 :=
  if (s.stdProg e).isSome then (due (s.eng[e]).prog).getD v else v

/-- OUT to DUTY with a standard program's due on-time. -/
def State.outDutyOp (s : State) (e : Eng) (v : W32) : State :=
  let w := s.dueWord e v fun p => p.dutyDue.map dutyWord
  (s.modEng e fun x => { x with prog := { x.prog with dutyDue := none } }).weirDuty e w

/-- OUT to BND_LAT with a standard program's due latency. -/
def State.outLatOp (s : State) (e : Eng) (v : W32) : State :=
  let w := s.dueWord e v fun p => p.latDue.map (BitVec.ofNat 32)
  (s.modEng e fun x => { x with prog := { x.prog with latDue := none } }).weirLat e w.toNat

/-- OUT to TMR with a standard program's due count. -/
def State.outTmrStd (s : State) (e : Eng) (v : W32) : State :=
  let w := s.dueWord e v fun p => p.tmrDue.map (BitVec.ofNat 32)
  (s.modEng e fun x => { x with prog := { x.prog with tmrDue := none } }).outTmrOp e w

/-- OUT to TRACE_END with a standard program's due record. -/
def State.outTraceEndOp (s : State) (e : Eng) : State :=
  let x := s.eng[e]
  match (s.stdProg e).isSome, x.prog.traceDue with
  | true, r :: rest => (s.modEng e fun x => { x with prog := { x.prog with traceDue := rest } }).traceEnd e r
  | _, _ => s.traceEnd e x.trace

/-- OUT to TRACE: a sixth word is discarded (R154). -/
def State.outTraceOp (s : State) (e : Eng) (v : W32) : State :=
  s.modEng e fun x => { x with trace := if x.trace.length < 5 then x.trace ++ [v] else x.trace }

/-- OUT to FLAGS: a written 1 clears a bit. -/
def State.outFlagsOp (s : State) (e : Eng) (v : W32) : State :=
  s.modEng e fun x => { x with flags := x.flags &&& ~~~(v.extractLsb' 0 5) }

/-- The effect of an OUT by its port number. -/
def State.outPort (s : State) (e : Eng) (port : Nat) (v : W32) : State :=
  match port with
  | 0x000 => s.outFlagsOp e v
  | 0x006 => s.outTmrStd e v
  | 0x030 => s.outDutyOp e v
  | 0x031 => s.weirHold e
  | 0x032 => s.outLatOp e v
  | 0x033 => s.weirSmpPer e v
  | 0x0B0 => s.outTraceOp e v
  | 0x0B1 => s.outTraceEndOp e
  | _ => s

/-- OUT: port = a (R144). -/
def execPortOut (e : Eng) (a : GReg) (port : BitVec 16) (s : State) : Res :=
  outInsn e a port.toNat (fun v s => s.outPort e port.toNat v) s

/-- OUT DUTY (R150). -/
def execOutDuty (e : Eng) (a : GReg) (s : State) : Res := outInsn e a 0x030 (fun v s => s.outDutyOp e v) s
/-- OUT DUTY_HOLD (R149). -/
def execOutDutyHold (e : Eng) (a : GReg) (s : State) : Res := outInsn e a 0x031 (fun _ s => s.weirHold e) s
/-- OUT BND_LAT (R152). -/
def execOutBndLat (e : Eng) (a : GReg) (s : State) : Res := outInsn e a 0x032 (fun v s => s.outLatOp e v) s
/-- OUT SMP_PER (R89). -/
def execOutSmpPer (e : Eng) (a : GReg) (s : State) : Res := outInsn e a 0x033 (fun v s => s.weirSmpPer e v) s
/-- OUT TMR (Table 06.4). -/
def execOutTmr (e : Eng) (a : GReg) (s : State) : Res := outInsn e a 0x006 (fun v s => s.outTmrStd e v) s
/-- OUT FLAGS (Table 06.4). -/
def execOutFlags (e : Eng) (a : GReg) (s : State) : Res := outInsn e a 0x000 (fun v s => s.outFlagsOp e v) s
/-- OUT TRACE (R154). -/
def execOutTrace (e : Eng) (a : GReg) (s : State) : Res := outInsn e a 0x0B0 (fun v s => s.outTraceOp e v) s
/-- OUT TRACE_END (R154, R301). -/
def execOutTraceEnd (e : Eng) (a : GReg) (s : State) : Res := outInsn e a 0x0B1 (fun _ s => s.outTraceEndOp e) s

/-! ### Locked sequences and checkpoints (R155, R157) -/

/-- LOCK (R157): illegal unless ga and gb are distinct and neither is g0. -/
def execLock (e : Eng) (a b : GReg) (s : State) : Res :=
  if s.canIssue e then
    let x := s.eng[e]
    if a = b || a = 0 || b = 0 then .next (s.engExc e .illegal x.pc 0)
    else if x.lock.isSome then .next (s.engExc e .lock x.pc 0)
    else
      let l := s.lockView e a b
      .next ((s.modEng e fun x => { x with lock := some l }).retireInsn e [a, b] 2)
  else .next s

/-- An engine halts (R420): the Weir holds the stage die of its channel at ON = 0, and the open deadline is neither met nor missed
(R421); `lb` says that a lock was broken. -/
def State.haltEng (s : State) (e : Eng) (lb : Bool) : State :=
  let s := s.modEng e fun x => { x with halted := true, haltPend := none, lbHalt := lb }
  let s := match s.serves e with
    | some c =>
      if (s.ch c).ctl = some e then (s.sendOn c 0 none).modCh c fun h => { h with dueOpen := false, missDue := false } else s
    | none => s
  s.raise 0x0F07 0 (BitVec.ofNat 32 (e.val + if lb then 512 else 0))

/-- UNLOCK: the sequence ends; none is no effect (R157). A debug halt that waits for it takes the engine (R420). -/
def execUnlock (e : Eng) (s : State) : Res :=
  if s.canIssue e then
    let s := (s.modEng e fun x => { x with lock := none }).retireInsn e [] 1
    .next (if (s.eng[e]).haltPend.isSome then s.haltEng e false else s)
  else .next s

/-- The committed copy of a checkpoint in the channel's mirror slot (R155), and the limp word (R251). -/
def State.commitCkpt (s : State) (e : Eng) (c : Ch) : State :=
  let x := s.eng[e]
  let h := s.ch c
  let block := memBytes x.dram 0 (32 * h.slot.ckptLen)
  let limp := if h.seqr.isOn && 80 ≤ h.lastOn.natAbs then some h.lastOn else h.mirror.limpWord
  s.modCh c fun h => { h with ckptDone := true, mirror :=
    { block := some block, smpSeq := x.tookSeq, lastOn := h.lastOn, epoch := h.epoch, limpWord := limp, prog := x.prog } }

/-- CKPT: the checkpoint block goes to the mirror when the fence passes it (R146, R155). -/
def execCkpt (e : Eng) (s : State) : Res :=
  if s.canIssue e then
    let x := s.eng[e]
    if x.lock.isSome then .next (s.engExc e .lock x.pc 0)
    else
      let cyc := match s.serves e with
        | some c => 8 + 8 * (s.ch c).slot.ckptLen
        | none => 8
      let s := match s.fence e with
        | (s, none) => s
        | (s, some c) => s.commitCkpt e c
      .next (s.retireInsn e [] cyc)
  else .next s

/-! ### WAIT (R147, R160) -/

/-- The sample taken by a WAIT that returned SAMPLE (R149, R151). -/
def State.takeSample (s : State) (e : Eng) (hit : BitVec 16) : State :=
  match s.serves e with
  | some c =>
    if hit.getLsbD 0 then
      s.modEng e fun x => { x with took := true, tookSeq := (s.ch c).smp.seq, tookInst := (s.ch c).smp.tick }
    else s
  | none => s

/-- The engine gets the events in mask and goes on (R147); a standard program computes what it writes next. ISTRM and SNSE are
latched anew while their FIFOs still hold what Table 06.5 asks for. -/
def State.waitReturns (s : State) (e : Eng) (d : GReg) (mask : BitVec 16) (cyc : Nat) : State :=
  let hit := (s.eng[e]).pend &&& mask
  let s := (s.modEng e fun x =>
    { x with pend := x.pend &&& ~~~hit, asleep := none, wdog := cyc, lastLoad := none }.setG d (hit.zeroExtend 32)).takeSample
      e hit
  let s := s.progWake e hit
  let s := match s.serves e with
    | some c => s.levelCh c
    | none => s
  s.seqPc e

/-- Whether RUN = 0 stops this engine at its WAIT (Table 06.9). -/
def State.stopAtWait (s : State) (e : Eng) : Bool :=
  match s.serves e with
  | some c => (s.ch c).stopReq && (s.ch c).ctl = some e
  | none => false

/-- The issue of a WAIT outside a locked sequence: a deposed engine stops (R247), one whose RUN was cleared stops; else it
returns at once or sleeps. -/
def State.waitIssue (s : State) (e : Eng) (d : GReg) (mask : BitVec 16) : State :=
  let x := s.eng[e]
  if x.role = .deposed then s.deposedStop e 0
  else if s.stopAtWait e then
    let s := s.modEng e fun x => { x with running := false, wdog := 0 }
    match s.serves e with
    | some c => s.modCh c fun h => { h with stopReq := false }
    | none => s
  else if x.pend &&& mask ≠ 0 then s.waitReturns e d mask 1
  else s.modEng e fun x => { x with asleep := some (d, mask), wdog := 0, lastLoad := none }

/-- WAIT: exception 0x6 in a locked sequence (R157); the destination takes the pending events in the mask, at once or at
the wake (R147). -/
def execWait (e : Eng) (d : GReg) (mask : BitVec 16) (s : State) : Res :=
  if s.canIssue e then
    if (s.eng[e]).lock.isSome then .next (s.engExc e .lock (s.eng[e]).pc 0) else .next (s.waitIssue e d mask)
  else .next s

/-- WAIT_WAKE: an event of the mask latched while the engine sleeps wakes it 2 cycles later (R147). -/
def execWaitWake (e : Eng) (s : State) : Res :=
  let x := s.eng[e]
  match x.asleep with
  | some (d, m) =>
    if s.clockOn && x.running && !x.halted && !x.retired && x.pend &&& m ≠ 0 then .next (s.waitReturns e d m 2)
    else .next s
  | none => .next s

end Sys2Proof.Machine
end

