-- ==== Sys2Proof/Machine/Debug.lean ====
section
/-! DEFINITION. The TAP and the debug access path (15_faults_freeze_debug.md, R416 to R421; R158). The contents of the
boundary-scan register are terminal levels, outside the block. -/

namespace Sys2Proof.Machine

/-- The TAP works while the Dome core rail is on (R416). -/
def State.tapOn (s : State) : Bool := s.mode.domeOn

/-- An instruction in the TAP's instruction register. -/
def State.tapIr (s : State) (code : Byte) : State := { s with dbg := { s.dbg with ir := code } }

/-- EXTEST: honoured in SERVICE only, and BYPASS in every other mode (Table 15.10). -/
def execExtest (s : State) : Res :=
  if s.tapOn then
    let s := s.tapIr 0x00
    .next { s with dbg := { s.dbg with extest := s.mode.mode = .service } }
  else .next s

/-- SAMPLE/PRELOAD: the boundary-scan register is selected; the outputs are not driven from it. -/
def execSamplePreload (s : State) : Res :=
  if s.tapOn then
    let s := s.tapIr 0x01
    .next { s with dbg := { s.dbg with extest := false } }
  else .next s

/-- The identity code (Table 15.10). -/
def idCode : W32 := ((0 : BitVec 4) ++ (0x0256 : BitVec 16) ++ Config.jep106 ++ (1 : BitVec 1))

/-- A TAP instruction other than EXTEST, with the word that its data register captures. -/
def State.tapWord (s : State) (code : Byte) (w : W32) : State :=
  let s := s.tapIr code
  { s with dbg := { s.dbg with extest := false } }.send (.tapWord w)

/-- IDCODE. -/
def execIdcode (s : State) : Res := if s.tapOn then .next (s.tapWord 0x02 idCode) else .next s

/-- The codes of Table 15.10 but for BYPASS. -/
def tapCodes : List Byte := [0x00, 0x01, 0x02, 0x10, 0x11, 0x12, 0x13]

/-- BYPASS: 0xFF or a code that is not in Table 15.10; the 1-bit register captures 0 (IEEE 1149.1). -/
def execBypass (code : Byte) (s : State) : Res :=
  if s.tapOn && !tapCodes.contains code then .next (s.tapWord code 0) else .next s

/-- DBG_ADDR. -/
def execDbgAddr (addr : W32) (s : State) : Res :=
  if s.tapOn then
    let s := s.tapIr 0x10
    .next { s with dbg := { s.dbg with addr := addr, extest := false } }
  else .next s

/-- DBG_READ: a peek of the word at DBG_ADDR, which then advances by 4 (R417, R418). -/
def execDbgRead (s : State) : Res :=
  if s.tapOn then
    let s := s.tapWord 0x11 (s.dbgWord (s.dbg.addr.toNat / 4 * 4))
    .next { s with dbg := { s.dbg with addr := s.dbg.addr + 4 } }
  else .next s

/-! ### DBG_CTRL (R419 to R421) -/

/-- The engine that a code of Table 15.8 names. -/
def engOfCode (e : BitVec 9) : Option Eng := if h : e.toNat < 272 then some ⟨e.toNat, h⟩ else none

/-- DBG_CTRL names an engine. -/
def State.dbgName (s : State) (e : BitVec 9) : State :=
  let s := s.tapIr 0x12
  { s with dbg := { s.dbg with last := e, refused := false, extest := false } }

/-- A halt or a step is honoured in SERVICE, outside a freeze, for an engine that is not retired (R419). -/
def State.dbgAllows (s : State) (e : Eng) : Bool := s.mode.mode = .service && !s.mode.frozen && !(s.eng[e]).retired

/-- A refused halt or step (R419). -/
def State.dbgRefuse (s : State) (e : BitVec 9) : State :=
  { s with dbg := { s.dbg with refused := true } }.raise 0x0F05 0 (e.setWidth 32)

/-- Ticks of the 64 engine cycles for which a halt waits (R420): two cycles to the tick. -/
def haltWait : Nat := 32

/-- A halt asked for: at once, or after the UNLOCK of an open locked sequence (R420). -/
def State.haltAsked (s : State) (e : Eng) : State :=
  let x := s.eng[e]
  if x.halted || x.haltPend.isSome then s
  else if x.lock.isSome then s.modEng e fun x => { x with haltPend := some (s.now + haltWait) }
  else s.haltEng e false

/-- DBG_HALT (R419, R420). -/
def execDbgHalt (e : BitVec 9) (s : State) : Res :=
  if s.tapOn then
    let s := s.dbgName e
    .next (match engOfCode e with
      | some k => if s.dbgAllows k then s.haltAsked k else s.dbgRefuse e
      | none => s.dbgRefuse e)
  else .next s

/-- A lock break (R158): ga, gb and PC as at the LOCK, FLAGS.LB, event 0x65. -/
def State.lockBreak (s : State) (e : Eng) : State :=
  match (s.eng[e]).lock with
  | none => s
  | some l =>
    let s := s.modEng e fun x =>
      { ((x.setG l.ga l.va).setG l.gb l.vb) with pc := l.pc, lock := none, flags := x.flags ||| 0x10, lastLoad := none }
    s.raise (spireCode (spireOfEng e) 0x65) 0 (BitVec.ofNat 32 ((s.eng[e]).evtChan e))

/-- DBG_HALT_DEFERRAL_END: 64 cycles after the request the lock is broken and the engine halts at its LOCK (R420). -/
def execDbgHaltDeferralEnd (e : Eng) (s : State) : Res :=
  match (s.eng[e]).haltPend with
  | some t => if s.clockOn && t ≤ s.now then .next ((s.lockBreak e).haltEng e true) else .next s
  | none => .next s

/-- DBG_RESUME: a halted engine continues from PC; one that is not halted is left alone (R419, R421). -/
def execDbgResume (e : BitVec 9) (s : State) : Res :=
  if s.tapOn then
    let s := s.dbgName e
    .next (match engOfCode e with
      | some k => if (s.eng[k]).halted then s.resumeEng k else s
      | none => s)
  else .next s

/-- The meaning of an instruction word in an engine. -/
def runFrajan (e : Eng) (i : Frajan) (s : State) : Res :=
  match i with
  | .add d a b => execAdd e d a b s | .sub d a b => execSub e d a b s | .and d a b => execAnd e d a b s
  | .or d a b => execOr e d a b s | .xor d a b => execXor e d a b s | .shl d a b => execShl e d a b s
  | .shr d a b => execShr e d a b s | .sar d a b => execSar e d a b s | .adds d a b => execAdds e d a b s
  | .subs d a b => execSubs e d a b s | .min d a b => execMin e d a b s | .max d a b => execMax e d a b s
  | .slt d a b => execSlt e d a b s | .sltu d a b => execSltu e d a b s | .mul d a b => execMul e d a b s
  | .mulh d a b => execMulh e d a b s | .mulhu d a b => execMulhu e d a b s | .abss d a => execAbss e d a s
  | .rcp d a => execRcp e d a s | .rcps d a => execRcps e d a s | .addi d a imm => execAddi e d a imm s
  | .andi d a imm => execAndi e d a imm s | .ori d a imm => execOri e d a imm s | .xori d a imm => execXori e d a imm s
  | .slti d a imm => execSlti e d a imm s | .lw d a imm => execLw e d a imm s | .lh d a imm => execLh e d a imm s
  | .lhu d a imm => execLhu e d a imm s | .lb d a imm => execLb e d a imm s | .lbu d a imm => execLbu e d a imm s
  | .sw d a imm => execSw e d a imm s | .sh d a imm => execSh e d a imm s | .sb d a imm => execSb e d a imm s
  | .lui d imm => execLui e d imm s | .shli d a sh => execShli e d a sh s | .shri d a sh => execShri e d a sh s
  | .sari d a sh => execSari e d a sh s | .mac a b => execMac e a b s | .msu a b => execMsu e a b s
  | .macz a b => execMacz e a b s | .mtah a b => execMtah e a b s | .lock a b => execLock e a b s
  | .mfa d b => execMfa e d b s | .mfah d => execMfah e d s | .mta a => execMta e a s | .jr a => execJr e a s
  | .beq a b off => execBeq e a b off s | .bne a b off => execBne e a b off s | .blt a b off => execBlt e a b off s
  | .bge a b off => execBge e a b off s | .bltu a b off => execBltu e a b off s | .bgeu a b off => execBgeu e a b off s
  | .j off => execJ e off s | .jal off => execJal e off s | .portIn d p => execPortIn e d p s
  | .portOut a p => execPortOut e a p s | .wait d m => execWait e d m s | .unlock => execUnlock e s | .ckpt => execCkpt e s
  | .trap imm => execTrap e imm s

/-- The instruction at PC executed: the word of instruction RAM that PC names, or exception 0x1. -/
def State.stepInsn (s : State) (e : Eng) : State :=
  let x := s.eng[e]
  let r := match decodeFrajan (x.ramWord false (x.pc / 4)) with
    | some i => runFrajan e i s
    | none => execIllegalInstruction e (x.ramWord false (x.pc / 4)) s
  match r with
  | .next t => t
  | _ => s

/-- A step at a LOCK runs through the UNLOCK, while fewer than 64 engine cycles have passed since `w0` (R421). -/
def State.stepLocked (e : Eng) (w0 : Nat) : Nat → State → State
  | 0, s => s
  | n + 1, s =>
    let x := s.eng[e]
    if x.lock.isSome && x.running && x.wdog < w0 + 64 then State.stepLocked e w0 n (s.stepInsn e) else s

/-- One step of a halted engine, which halts again (R421); a sequence still open after 64 cycles is broken (R420). While it steps, the
Weir forwards no duty of it. An engine that is asleep or stopped has no instruction to execute. -/
def State.stepEng (s : State) (e : Eng) : State :=
  let x := s.eng[e]
  if x.asleep.isSome || !x.running then s
  else
    let s := s.modEng e fun x => { x with halted := false, haltPend := none, lbHalt := false, stepping := true }
    let s := State.stepLocked e x.wdog 64 (s.stepInsn e)
    let broken := (s.eng[e]).lock.isSome && (s.eng[e]).running
    let s := s.modEng e fun x => { x with stepping := false }
    if broken then (s.lockBreak e).haltEng e true else s.haltEng e false

/-- DBG_STEP (R419, R421). A step of an engine that is not halted halts it. -/
def execDbgStep (e : BitVec 9) (s : State) : Res :=
  if s.tapOn then
    let s := s.dbgName e
    .next (match engOfCode e with
      | some k =>
        if !s.dbgAllows k then s.dbgRefuse e
        else if (s.eng[k]).halted then s.stepEng k
        else s.haltAsked k
      | none => s.dbgRefuse e)
  else .next s

/-- DBG_THAW: THAW asks for a thaw as a write of 1 to the thaw control does (R412). -/
def execDbgThaw (s : State) : Res := if s.tapOn then .next (s.tapIr 0x12).thawWrite else .next s

/-- DBG_STAT: HALTED, PENDING, LB and REFUSED of the engine last named (Table 15.10). -/
def State.dbgStat (s : State) : W32 :=
  let b := match engOfCode s.dbg.last with
    | some e => let x := s.eng[e]; bitAt x.halted 0 + bitAt x.haltPend.isSome 1 + bitAt x.lbHalt 2
    | none => 0
  BitVec.ofNat 32 (b + bitAt s.dbg.refused 3)

/-- DBG_STAT. -/
def execDbgStat (s : State) : Res := if s.tapOn then .next (s.tapWord 0x13 s.dbgStat) else .next s

end Sys2Proof.Machine
end

