-- ==== Sys2Proof/Machine/Opcodes.lean ====
section
/-! DEFINITION. Submission entries: their checks (R276, Table 08.2) and what each opcode of Table 10.8 does
(10_host_rings.md, R273 to R284; 06_control_engines.md, R162 to R164; 17_otp_images_twowire.md, R464 to R469). -/

namespace Sys2Proof.Machine

/-! ### The entry (Table 10.6) -/

/-- Byte `i` of an entry, but for its opcode byte. -/
def descByte (d : Desc) (i : Nat) : Byte :=
  if i < 2 then BitVec.ofNat 8 (d.tag.toNat / 256 ^ i)
  else if i < 14 then byteAt d.ops (i - 2)
  else if i = 14 then 0
  else if i = 15 then d.rsv
  else byteAt d.ops2 (i - 16)

/-- Little-endian value of `n` bytes from byte `i` (R4). -/
def descLe (d : Desc) (i n : Nat) : Nat := leVal ((List.range n).map fun k => descByte d (i + k))

/-- A 32-bit operand. -/
def descWord (d : Desc) (i : Nat) : W32 := BitVec.ofNat 32 (descLe d i 4)

/-- CHAN, in byte 2. -/
def descChan (d : Desc) : Ch := ⟨(descByte d 2).toNat, (descByte d 2).isLt⟩

/-- The operands of an opcode: first byte and width in bits (Table 10.8). -/
def operandsOf (op : Nat) : List (Nat × Nat) :=
  match op with
  | 0x11 => [(2, 8), (4, 16)]
  | 0x12 => [(2, 8)]
  | 0x20 => [(2, 8), (3, 6), (4, 3), (5, 1), (16, 128)]
  | 0x21 => [(2, 8), (4, 32), (8, 32)]
  | 0x22 => [(2, 8), (3, 1)]
  | 0x23 => [(2, 8), (4, 32), (8, 16)]
  | 0x30 => [(2, 8), (3, 8), (4, 32), (8, 32)]
  | 0x31 => [(4, 32), (8, 32)]
  | 0x40 => [(4, 32), (8, 32), (16, 64)]
  | 0x41 => [(4, 32)]
  | 0x50 => [(4, 32), (8, 32), (16, 64)]
  | 0x51 => [(4, 16)]
  | 0x52 => [(2, 8), (3, 5), (4, 32), (8, 32), (16, 32)]
  | 0x53 => [(2, 8), (3, 5), (16, 32)]
  | 0x60 => [(2, 16), (4, 32), (8, 32)]
  | 0x61 => [(2, 16)]
  | 0x62 => [(2, 1)]
  | 0x70 => [(2, 4)]
  | 0x71 => [(2, 8)]
  | 0x73 => [(4, 32), (8, 32), (12, 16)]
  | 0x82 => [(2, 5)]
  | 0x90 => [(2, 10), (4, 32), (8, 32)]
  | 0x91 => [(4, 32), (8, 32)]
  | _ => []

/-- The bits of byte `i` that an opcode uses. -/
def usedBits (op i : Nat) : Byte :=
  (operandsOf op).foldl (fun m f =>
    if f.1 ≤ i && 8 * (i - f.1) < f.2 then m ||| BitVec.ofNat 8 (2 ^ min 8 (f.2 - 8 * (i - f.1)) - 1) else m) 0

/-- Operand bits that the opcode does not use, and byte 15, are 0 (R273). -/
def unusedZero (op : Nat) (d : Desc) : Bool :=
  (List.range 32).all fun i => i < 2 || i = 14 || descByte d i &&& ~~~(usedBits op i) = 0

/-- The opcodes of Table 10.8. -/
def opcodes : List Nat :=
  [0x10, 0x11, 0x12, 0x20, 0x21, 0x22, 0x23, 0x30, 0x31, 0x40, 0x41, 0x42, 0x50, 0x51, 0x52, 0x53] ++
  [0x60, 0x61, 0x62, 0x70, 0x71, 0x72, 0x73, 0x80, 0x81, 0x82, 0x90, 0x91]

/-- The opcode is in Table 10.8 and the ring takes it (R276 step 1). -/
def ringTakes (op q : Nat) : Bool :=
  opcodes.contains op && match op with
    | 0x10 | 0x11 | 0x12 => q < 16
    | 0x20 => q < 17
    | 0x40 | 0x41 | 0x42 => q = 16 || q = 18 || q = 19
    | 0x50 | 0x51 => q = 19
    | 0x52 | 0x53 => q = 18
    | 0x60 | 0x61 | 0x62 => q = 17
    | 0x80 | 0x81 => q < 20
    | _ => q = 16

/-- The opcodes that the fault state lets through (R276 step 2). -/
def faultTakes (op : Nat) : Bool := [0x41, 0x42, 0x52, 0x61, 0x71, 0x80, 0x81, 0x82].contains op

/-- The mode permits the opcode (R276 step 4, R501). -/
def State.modeTakes (s : State) (op : Nat) : Bool :=
  let m := s.hostMode
  match op with
  | 0x22 | 0x30 => m = .ready || m = .road || m = .service
  | 0x23 => m = .service
  | 0x71 => m = .ready || m = .road || m = .service || (m = .field && s.mode.fault)
  | 0x72 => m.isLink && !s.mode.starting
  | 0x73 => m = .ready && !s.mode.starting
  | _ => m.isLink

/-- Operand values inside their ranges (R276 step 6, Table 10.8). -/
def rangesOk (op : Nat) (d : Desc) : Bool :=
  let len := descLe d 8 4
  match op with
  | 0x20 =>
    let n := descLe d 4 1
    1 ≤ n && n ≤ 4 && descLe d 3 1 + n ≤ 64 && (List.range 4).all fun k => k < n || descLe d (16 + 4 * k) 4 = 0
  | 0x21 => len % 4 = 0
  | 0x23 => 1 ≤ descLe d 8 2 && descLe d 8 2 ≤ 10000
  | 0x30 => len % 4 = 0 && descLe d 2 1 ≤ descLe d 3 1
  | 0x40 => descLe d 4 4 ≠ 0 && len % 64 = 0 && 64 ≤ len && len ≤ 16777216 && descLe d 16 8 % 64 = 0
  | 0x50 => len % 64 = 0
  | 0x52 | 0x53 => descLe d 2 1 < 16 && descLe d 3 1 ≤ 16
  | 0x60 | 0x61 => 0x2000 ≤ descLe d 2 2 && descLe d 2 2 ≤ 0x2FFC && descLe d 2 2 % 4 = 0
  | 0x70 => 1 ≤ descLe d 2 1 && descLe d 2 1 ≤ 4
  | 0x71 => descLe d 2 1 = 0x5A
  | 0x73 => descLe d 12 2 = 128
  | 0x82 => descLe d 2 1 ≤ 23
  | 0x90 | 0x91 => len % 64 = 0
  | _ => true

/-- CHAN of the parameter, run and cancel opcodes (R276 step 7). -/
def State.chanCheck (s : State) (q : Ring) (op : Nat) (d : Desc) : Option Byte :=
  let c := descChan d
  if !([0x11, 0x12, 0x20, 0x21, 0x22, 0x23].contains op) then none
  else if q.val < 16 && (spireOf c).val ≠ q.val then some 0x12
  else if s.isMember c then some 0x15
  else if (op = 0x22 || op = 0x23) && (s.ch c).limp then some 0x15
  else none

/-- The engine that SPIRE and ENGINE name (Table 10.8). -/
def descEng (d : Desc) : Eng :=
  let p := descLe d 2 1 % 16
  let k := descLe d 3 1
  if h : k < 16 then ⟨16 * p + k, by omega⟩ else ⟨256 + p, by omega⟩

/-- The bytes that an opcode accesses in its lent buffer at the check (R276 step 8). -/
def State.lendNeed (s : State) (op : Nat) (d : Desc) : Option Nat :=
  match op with
  | 0x21 => some 256
  | 0x30 | 0x31 | 0x90 | 0x91 => some 64
  | 0x50 => some snapLen
  | 0x52 => some (32 * (s.eng[descEng d]).eddy.recs.length)
  | 0x73 => some 128
  | _ => none

/-- LTAG and OFFSET (R276 step 8). -/
def State.lendCheck (s : State) (q : Ring) (op : Nat) (d : Desc) : Option Byte :=
  match s.lendNeed op d with
  | none => none
  | some n => match s.lendOf (descWord d 4) with
    | none => some 0x1D
    | some l => if l.ring ≠ q then some 0x1E else if l.len < descLe d 8 4 + n then some 0x1C else none

/-- The mode of a code 0x1 to 0x4 of Table 02.7. -/
def modeOfCode (n : Nat) : Mode := match n with | 1 => .standby | 2 => .ready | 3 => .field | _ => .road

/-- A MODE_REQ that meets, within one decision period, a move that a trigger of lower rank has begun (R33). -/
def State.outranks (s : State) (d : Desc) : Bool :=
  let m : Move := { hops := [modeOfCode (descLe d 2 1)], cause := .request }
  s.mode.moveFresh && s.mode.move.any fun x => decide (x.rank < m.rank)

/-- The status of the first check of R276 that fails, of steps 1, 2 and 4 to 8. -/
def State.descCheck (s : State) (q : Ring) (op : Nat) (d : Desc) : Option Byte :=
  if !ringTakes op q.val then some 0x19
  else if s.mode.fault && !faultTakes op then some 0x24
  else if !s.modeTakes op then some 0x10
  else if op = 0x70 && s.mode.move.isSome && !s.outranks d then some 0x11
  else if !(unusedZero op d && rangesOk op d) then some 0x13
  else (s.chanCheck q op d).or (s.lendCheck q op d)

/-! ### Completion and acceptance (R271) -/

/-- A descriptor completes as it is executed. -/
def State.finish (s : State) (q : Ring) (x : InExec) (status : Byte) (info : W64) (r276 : Bool := true) : State :=
  if q.val < 16 then s.completeOne q x status info r276 else s.complete q x.tag x.slot status info r276

/-- A descriptor that completes later lets the next ones run (R271). -/
def State.accept (s : State) (q : Ring) (x : InExec) : State :=
  s.modRing q fun r => { r with exec := none, pend := r.pend ++ [x] }

/-! ### REACH_POST (R211, R274, Table 08.2) -/

/-- The record that an entry carries. -/
def reachOf (q : Ring) (d : Desc) : Reach :=
  let b := (descByte d 3).toNat
  { tag := d.tag, join := bits b 0 2 = 1, cont := bits b 2 2 = 1, dist := bits b 4 2 = 1
    sStart := signed 40 (descLe d 4 4 + descLe d 12 1 * 2 ^ 32), sEnd := signed 40 (descLe d 8 4 + descLe d 13 1 * 2 ^ 32)
    r := descLe d 16 4, rampLen := descLe d 20 4, seq := 0, ring := q }

/-- Check 3 of Table 08.2. -/
def reachFieldsOk (d : Desc) : Bool :=
  let b := (descByte d 3).toNat
  bits b 0 2 ≤ 1 && bits b 2 2 ≤ 1 && bits b 4 2 ≤ 1 && bits b 6 2 = 0 && d.rsv = 0 && descLe d 24 8 = 0
    && descLe d 16 4 ≤ 0x7FFFFFFF

/-- The status of the first check that a posted reach fails (R276 steps 1 to 3). -/
def State.postCheck (s : State) (q : Ring) (d : Desc) : Option Byte :=
  let c := descChan d
  let m := s.hostMode
  if 16 ≤ q.val then some 0x19
  else if s.mode.fault then some 0x24
  else if !(m = .ready || m = .field || m = .road) then some 0x10
  else if (spireOf c).val ≠ q.val then some 0x12
  else if !reachFieldsOk d then some 0x13
  else s.reachCheck c (reachOf q d)

/-- A posted reach is accepted, or refused with a reach entry (R211, R277). -/
def State.opReach (s : State) (q : Ring) (x : InExec) (d : Desc) : State :=
  let c := descChan d
  match s.postCheck q d with
  | none => s.reachAccept c (reachOf q d)
  | some st =>
    let s := s.hold (s.cqOf q) (s.rqOf q) (.reach s.tick.now d.tag c st q false false false)
    let s :=
      if st < 0x10 then s
      else (s.count (R.Q_CNT_REFUSED q)).raiseLimited 0x0203 0
        (BitVec.ofNat 32 (q.val + st.toNat * 256 + x.slot * 65536)) q.val
    s.modRing q fun r => { r with exec := none }

/-! ### Channels (R153, R231, R275) -/

/-- REACH_CANCEL and REACH_FLUSH wait for the next course update (R231). -/
def State.opCancel (s : State) (q : Ring) (x : InExec) (c : Ch) (rtag : Option (BitVec 16)) : State :=
  (s.accept q x).modSeq c fun y => { y with cancels := y.cancels ++ [⟨rtag, some (q, x.tag, x.slot)⟩] }

/-- Words written into the shadow parameter block (R153). -/
def State.prmSet (s : State) (c : Ch) (first : Nat) (ws : List W32) (commit : Bool) : State :=
  s.modCh c fun h =>
    { h with shadow := (ws.zipIdx first).foldl (fun l p => l.set p.2 p.1) h.shadow, prmCommit := h.prmCommit || commit }

/-- PRM_WRITE. -/
def State.opPrmWrite (s : State) (q : Ring) (x : InExec) (d : Desc) : State :=
  let c := descChan d
  let ws := (List.range (descLe d 4 1)).map fun k => descWord d (16 + 4 * k)
  (s.prmSet c (descLe d 3 1) ws (descLe d 5 1 = 1)).finish q x 0 ((s.ch c).prmSeq.zeroExtend 64)

/-- PRM_LOAD: 256 bytes of the lent buffer, committed as by COMMIT = 1. -/
def State.opPrmLoad (s : State) (q : Ring) (x : InExec) (d : Desc) : State :=
  let c := descChan d
  let ws := (List.range 64).map fun k => BitVec.ofNat 32 (leAt d.buf (4 * k) 4)
  ((s.pushReads (descWord d 4) (descLe d 8 4) 256).prmSet c 0 ws true).finish q x 0 ((s.ch c).prmSeq.zeroExtend 64)

/-- CH_RUN: `CH_ENG_CTRL.RUN` with the effects of Table 06.9. -/
def State.opChRun (s : State) (q : Ring) (x : InExec) (d : Desc) : State :=
  let c := descChan d
  let run : W32 := BitVec.ofNat 32 (descLe d 3 1 % 2)
  let s := s.engCtrlWrite c ((s.reg (R.CH_ENG_CTRL c) &&& ~~~1) ||| run)
  s.finish q x 0 (BitVec.ofNat 64 (s.get (R.CH_ENG_CTRL_RUN c)))

/-- MANUAL: RUN is cleared and the Weir sends ON for MS ms; a later one replaces it. -/
def State.opManual (s : State) (q : Ring) (x : InExec) (d : Desc) : State :=
  let c := descChan d
  let w := descWord d 4
  if s.implausible c w then s.finish q x 0x13 0
  else
    let prev := (s.ch c).lastOn
    let on := dutyOn w
    let s := if s.flag (R.CH_ENG_CTRL_RUN c) then s.runStop c else s
    let s := s.modCh c fun h => { h with lastOn := on, manual := some ⟨s.now + descLe d 8 2 * ticksPerMs⟩ }
    ((s.guardStart c prev on).sendTrimmed c on none).finish q x 0 0

/-- MANUAL_PERIOD_END: MS ms after the latest MANUAL the Weir sends 0 (R275). -/
def execManualPeriodEnd (c : Ch) (s : State) : Res :=
  match (s.ch c).manual with
  | some m =>
    if s.clockOn && m.until_ ≤ s.now then .next ((s.sendOn c 0 none).modCh c fun h => { h with manual := none }) else .next s
  | none => .next s

/-! ### Images (R161 to R164, R465, R466) -/

/-- The header lies inside Table 06.8. -/
def headerOk (b : List Byte) : Bool :=
  let code := leAt b 16 4
  let data := leAt b 20 4
  let ck := (byteAt b 28).toNat
  slice b 0 4 = [0x46, 0x52, 0x4A, 0x4E] && leAt b 4 2 = 1 && leAt b 6 2 = 64 && leAt b 8 4 ≠ 0
    && code % 4 = 0 && 4 ≤ code && code ≤ 8192 && data % 4 = 0 && code + data ≤ 8192
    && leAt b 24 2 < code / 4 && leAt b 26 2 < code / 4 && 1 ≤ ck && ck ≤ 8 && (byteAt b 29).toNat < 4
    && (slice b 33 31).all (· = 0)

/-- Length of an image with its signature. -/
def imageLen (b : List Byte) : Nat := 128 + leAt b 16 4 + leAt b 20 4

/-- What a channel keeps of an image. -/
def slotOfImage (b : List Byte) : Slot :=
  let code := leAt b 16 4
  let words (at_ n : Nat) : List W32 := (List.range n).map fun k => BitVec.ofNat 32 (leAt b (at_ + 4 * k) 4)
  { code := words 64 (code / 4), data := words (64 + code) (leAt b 20 4 / 4), entry := leAt b 24 2, resume := leAt b 26 2
    ckptLen := (byteAt b 28).toNat, dslew := leAt b 30 2, progId := BitVec.ofNat 32 (leAt b 8 4)
    istrm := (byteAt b 29).getLsbD 0, vstrm := (byteAt b 29).getLsbD 1 }

/-- IMG_LOAD and IMG_CHECK: the checks of R162 before the signature; the image then waits for its answer. -/
def State.opImage (s : State) (q : Ring) (x : InExec) (d : Desc) : State :=
  let len := match s.lendOf (descWord d 4) with
    | some l => l.len - descLe d 8 4
    | none => 0
  let s := s.pushReads (descWord d 4) (descLe d 8 4) 64
  if !headerOk d.buf then s.finish q x 0x1B 0
  else if len < imageLen d.buf then s.finish q x 0x1C 0
  else (s.pushReads (descWord d 4) (descLe d 8 4 + 64) (imageLen d.buf - 64)).imgPush
    (.image x.op (slice d.buf 0 (imageLen d.buf)) (descLe d 2 1) (descLe d 3 1) x.tag x.slot)

/-- The copy into a channel begins: the stage die is held at ON = 0 (R163 step 1). -/
def State.copyBegin (s : State) (c : Ch) (sl : Slot) : State :=
  (s.sendOn c 0 none).modCh c fun h => { h with copying := some sl, copyFrom := s.tick.wall }

/-- Ticks of a copy: 4 bytes per engine cycle, two cycles per tick (R164). -/
def Slot.copyTicks (sl : Slot) : Nat := (sl.code.length + sl.data.length + 1) / 2

/-- The next copy of a spire begins (R164). -/
def State.copyNext (s : State) (p : Spire) : State :=
  match s.otp.load with
  | none => s
  | some l => match l.todo.find? (fun c => spireOf c = p) with
    | none => s
    | some c => (s.modOtp fun o => { o with load := some { l with todo := l.todo.erase c } }).copyBegin c l.image

/-- A verified image is loaded: channels refused with event 0x0208, the others copied (R162, R164). -/
def State.loadStart (s : State) (sl : Slot) (first last : Nat) (tag : BitVec 16) (slot : Nat) : State :=
  let cs := allCh.filter fun c => first ≤ c.val && c.val ≤ last
  let takes (c : Ch) : Bool := !s.isMember c && (s.ch c).ctl = some (homeOf c)
  let bad := cs.filter fun c => !takes c
  let good := cs.filter takes
  let s := forAll bad (fun c t => t.raise 0x0208 0 (BitVec.ofNat 32 (c.val + 0x15 * 256))) s
  if good = [] then s.complete 16 tag slot 0x15 0
  else
    let l : ImgLoad := { image := sl, todo := good, loaded := good.length, refused := bad.length, req := some (tag, slot) }
    forAll allSpires (fun p t => t.copyNext p) (s.modOtp fun o => { o with load := some l })

/-- IMAGE_COPY_DONE: the channel runs the new program from ENTRY (R163 steps 2 to 5). After the last copy the load completes. -/
def execImageCopyDone (c : Ch) (s : State) : Res :=
  match (s.ch c).copying with
  | some sl =>
    if s.clockOn && (s.ch c).copyFrom + sl.copyTicks ≤ s.tick.wall then
      let s := s.modCh c fun h => { h with copying := none, slot := sl, mirror := {}, lastOn := 0 }
      let s := (s.startProgram c).copyNext (spireOf c)
      .next (if allCh.any (fun k => (s.ch k).copying.isSome) then s
        else match s.otp.load with
          | some l =>
            let info := l.loaded + l.refused * 65536 + l.image.progId.toNat % 65536 * 4294967296
            let s := s.modOtp fun o => { o with load := none }
            (match l.req with
              | some (tag, slot) => s.complete 16 tag slot 0 (BitVec.ofNat 64 info)
              | none => s)
          | none => s)
    else .next s
  | none => .next s

/-! ### UNLOCK (R467, R468) -/

/-- MAGIC, CHAL, SERIAL, MINUTES and the zero bytes of a token (Table 17.5). -/
def State.tokenOk (s : State) (t : List Byte) : Bool :=
  let chal := (List.range 4).flatMap fun k => leBytes 4 (Config.challenge s.otp.draws k).toNat
  let serial := (List.range 3).flatMap fun k => leBytes 4 (Config.unitWord (2 + k)).toNat
  slice t 0 4 = [0x55, 0x4E, 0x4C, 0x4B] && slice t 4 16 = chal && slice t 20 12 = serial && 1 ≤ leAt t 32 2 && leAt t 32 2 ≤ 480
    && (slice t 35 29).all (· = 0)

/-- UNLOCK refused with an answer other than VALID: event 0x0D09 (R468). -/
def State.unlockBad (s : State) (tag : BitVec 16) (slot : Nat) (ans : Byte) : State :=
  ((s.modOtp fun o => { o with unlockAns := ans }).raise 0x0D09 0 (ans.setWidth 32)).complete 16 tag slot 0x1A 0

/-- UNLOCK: the conditions of R30, then the token check, which draws a new challenge (R467). -/
def State.opUnlock (s : State) (q : Ring) (x : InExec) (d : Desc) : State :=
  let bad := s.hopCond .ready .service
  let t := slice d.buf 0 128
  if s.mode.move.isSome then s.finish q x 0x11 0
  else if bad ≠ 0 then s.finish q x 0x22 (BitVec.ofNat 64 bad)
  else
    let ok := s.tokenOk t
    let s := s.pushReads (descWord d 4) (descLe d 8 4) 128
    let s := s.modOtp fun o => { o with draws := o.draws + 1 }
    if ok then s.imgPush (.unlock t x.tag x.slot) else s.unlockBad x.tag x.slot 8

/-- The answer for a token; on VALID the move into SERVICE begins, if nothing has barred it meanwhile (R30, R32, R37). -/
def State.unlockServe (s : State) (t : List Byte) (tag : BitVec 16) (slot : Nat) : State :=
  let (ans, s) := s.imgAnswer (byteAt t 34) false (slice t 0 64) (slice t 64 64)
  if ans ≠ 0 then s.unlockBad tag slot ans
  else
    let s := s.modOtp fun o => { o with unlockAns := 0 }
    let bad := s.hopCond .ready .service
    if s.mode.fault then s.complete 16 tag slot 0x24 0
    else if s.mode.move.isSome then s.complete 16 tag slot 0x11 0
    else if s.mode.mode ≠ .ready then s.complete 16 tag slot 0x10 0
    else if bad ≠ 0 then s.complete 16 tag slot 0x22 (BitVec.ofNat 64 bad)
    else s.moveBegin { hops := [.service], cause := .unlock, req := some (16, tag), len := leAt t 32 2 * 12000000000,
                       key := byteAt t 34 }

/-- The request at the head of the image check engine is answered (R465). -/
def State.imgServe (s : State) : ImgReq → State
  | .key slot key => s.keyInstall slot key
  | .unlock t tag slot => s.unlockServe t tag slot
  | .image op b first last tag slot =>
    let n := imageLen b - 64
    let (ans, s) := s.imgAnswer (byteAt b 32) true (slice b 0 n) (slice b n 64)
    let s := if ans = 0 then s else s.raise 0x0D07 0 (BitVec.ofNat 32 (ans.toNat + op.toNat * 256))
    if op = 0x31 then s.complete 16 tag slot 0 (ans.setWidth 64)
    else if ans = 0 then s.loadStart (slotOfImage b) first last tag slot
    else s.complete 16 tag slot 0x1A 0

/-- Ticks of a signature check whose scalars and point are well formed, 1.8 ms (R465, Table 17.4). -/
def verifyTicks : Nat := 360000

/-- The time the engine takes for a request: 1.8 ms where it does the signature arithmetic, else no more than 3 µs. -/
def State.imgTicks (s : State) : ImgReq → Nat
  | .key .. => 0
  | .unlock t .. => if (s.imgAnswer (byteAt t 34) false (slice t 0 64) (slice t 64 64)).1.toNat ≤ 1 then verifyTicks else 0
  | .image _ b .. =>
    let n := imageLen b - 64
    if (s.imgAnswer (byteAt b 32) true (slice b 0 n) (slice b n 64)).1.toNat ≤ 1 then verifyTicks else 0

/-- IMAGE_CHECK_ANSWER: one request at a time, in order of arrival, each in its time (R465). -/
def execImageCheckAnswer (s : State) : Res :=
  match s.otp.reqs with
  | [] => .next s
  | r :: rest =>
    if s.clockOn && s.otp.load.isNone && s.otp.imgFrom + s.imgTicks r ≤ s.tick.wall then
      .next ((s.modOtp fun o => { o with reqs := rest, imgFrom := s.tick.wall }).imgServe r)
    else .next s

/-! ### Lends, snapshots, Eddy buffers (R280 to R283, R297 to R303) -/

/-- LEND: 0x1F for a tag already lent, 0x20 with 64 tags lent to the ring (R280). -/
def State.opLend (s : State) (q : Ring) (x : InExec) (d : Desc) : State :=
  let tag := descWord d 4
  if (s.lendOf tag).isSome then s.finish q x 0x1F 0
  else if 64 ≤ s.lendsOf q then s.finish q x 0x20 0
  else
    let s := s.modHp fun h => { h with lends := h.lends ++ [⟨tag, q, BitVec.ofNat 64 (descLe d 16 8), descLe d 8 4⟩] }
    s.finish q x 0 (BitVec.ofNat 64 (s.lendsOf q))

/-- RECLAIM: a refusal raises event 0x0204 (R281); what uses the tag completes first (R283). -/
def State.opReclaim (s : State) (q : Ring) (x : InExec) (d : Desc) : State :=
  let tag := descWord d 4
  match s.lendOf tag with
  | none => (s.raise 0x0204 0 tag).finish q x 0x1D 0 false
  | some l =>
    if l.ring = q then
      let s := s.endLend tag
      s.finish q x 0 (BitVec.ofNat 64 (s.lendsOf q))
    else (s.raise 0x0204 0 tag).finish q x 0x1E 0 false

/-- RECLAIM_ALL. -/
def State.opReclaimAll (s : State) (q : Ring) (x : InExec) : State :=
  let (n, s) := s.reclaimAll q
  s.finish q x 0 (BitVec.ofNat 64 n)

/-- SNAP_AT (R271, R297, R298). -/
def State.opSnapAt (s : State) (q : Ring) (x : InExec) (d : Desc) : State :=
  let t := descLe d 16 8
  let follow := t = 2 ^ 64 - 1
  if follow && s.rv.role ≠ .tributary then s.finish q x 0x13 0
  else if !follow && t < s.now + 100000 then s.finish q x 0x23 0
  else if 4 ≤ s.snapPending then s.finish q x 0x20 0
  else
    let r : SnapReq := { tag := x.tag, slot := x.slot, ltag := descWord d 4, off := descLe d 8 4
                         tick := if follow then none else some t
                         casc := follow || (s.isHead && s.flag R.SNAP_CFG_PUBLISH) }
    (s.accept q x).modArb fun a => { a with snaps := a.snaps ++ [r] }

/-- SNAP_CANCEL: a pending SNAP_AT that has not latched completes with 0x05 (R300). -/
def State.opSnapCancel (s : State) (q : Ring) (x : InExec) (d : Desc) : State :=
  match s.arb.snaps.find? fun r => r.tag.toNat = descLe d 4 2 with
  | some r => ((s.modArb fun a => { a with snaps := a.snaps.erase r }).complete 19 r.tag r.slot 5 0).finish q x 0 1
  | none => s.finish q x 0 0

/-- The role word that a command carries differs in ROLE, NONE, CHAN or EPOCH from the present one (R255). -/
def State.roleChanged (s : State) (d : Desc) : Bool :=
  (s.roleWord (descEng d)).toNat % 2 ^ 27 ≠ descLe d 16 4 % 2 ^ 27

/-- A role-changed completion (R255). -/
def State.opRoleChanged (s : State) (q : Ring) (x : InExec) (d : Desc) : State :=
  let p := spireOfEng (descEng d)
  ((s.count (R.TKO_CNT_ROLE_CHANGED p)).raise (spireCode p 0x86) 0 (BitVec.ofNat 32 (engCode (descEng d)))).finish q x 0x18 0

/-- EDDY_READ (R303). -/
def State.opEddyRead (s : State) (q : Ring) (x : InExec) (d : Desc) : State :=
  let e := descEng d
  let recs := (s.eng[e]).eddy.recs
  let tag := descWord d 4
  if s.roleChanged d then s.opRoleChanged q x d
  else
    let s := (s.accept q x).modEng e fun g => { g with eddy := { g.eddy with copying := true } }
    let s := s.modArb fun a => { a with copies := a.copies ++ [⟨e, tag, recs.length, x.tag, x.slot⟩] }
    match s.lendOf tag with
    | some l => s.pushData 19 (.eddy x.tag x.slot) tag (l.addr.toNat + descLe d 8 4) (recs.flatMap fun r => wordBytes r.words)
    | none => s

/-- EDDY_CLEAR (R303). -/
def State.opEddyClear (s : State) (q : Ring) (x : InExec) (d : Desc) : State :=
  let e := descEng d
  let n := (s.eng[e]).eddy.recs.length
  if s.roleChanged d then s.opRoleChanged q x d
  else
    (s.modEng e fun g => { g with eddy := { g.eddy with recs := [], triggered := false, holding := false, postLeft := 0, oldest := 0 } }).finish
      q x 0 (BitVec.ofNat 64 n)

/-! ### Power, modes, reset, freeze, mailboxes (R275, R326, R446, R500) -/

/-- PWR_WRITE: (old & ~MASK) | (VALUE & MASK). A write to a half of a 64-bit register empties that register's latch (R10). -/
def State.opPwrWrite (s : State) (q : Ring) (x : InExec) (d : Desc) : State :=
  let a := descLe d 2 2
  let m := descWord d 8
  let s := s.keepApply a ((s.liveWord a &&& ~~~m) ||| (descWord d 4 &&& m))
  let s := if isWide a then s.dropLatch a else if isHigh a then s.dropLatch (a - 4) else s
  s.finish q x 0 ((s.liveWord a).zeroExtend 64)

/-- PWR_READ. -/
def State.opPwrRead (s : State) (q : Ring) (x : InExec) (d : Desc) : State :=
  let (v, s) := s.read32 .keep (descLe d 2 2)
  s.finish q x 0 (v.zeroExtend 64)

/-- BUSKEEP_ACK (R326). -/
def State.opBuskeepAck (s : State) (q : Ring) (x : InExec) (d : Desc) : State :=
  (s.putFlag R.PACK_STAT_BK_ACK (descLe d 2 1 = 1)).finish q x 0 0

/-- MODE_REQ (R30, R32, R33, R500, R501). A KEY-off move that it abandons waits behind it. -/
def State.opModeReq (s : State) (q : Ring) (x : InExec) (d : Desc) : State :=
  let dst := modeOfCode (descLe d 2 1)
  let start := s.mode.starting
  let from_ := s.mode.mode
  let hops := if start then [.ready] else hopsTo from_ dst
  let bad := s.pathCond from_ hops
  if start && (dst = .field || dst = .road) then s.finish q x 0x10 0
  else if from_ = dst then s.finish q x 0 (BitVec.ofNat 64 dst.code)
  else if bad ≠ 0 then s.finish q x 0x22 (BitVec.ofNat 64 bad)
  else
    let s := if s.mode.move.any (·.cause = .keyOff) then s.modMode fun m => { m with keyoffWait := true } else s
    s.moveAbandon.moveBegin { hops := hops, cause := .request, req := some (q, x.tag) }

/-- RESET: the reset takes effect 20,000 ticks after its completion has been written (R275). -/
def State.opReset (s : State) (q : Ring) (x : InExec) : State :=
  (s.finish q x 0 0).modMode fun m => { m with resetWait := some (if m.fault then .fault else .command, x.tag) }

/-- FREEZE: it completes after the thaw (R408). -/
def State.opFreeze (s : State) (q : Ring) (x : InExec) : State :=
  if s.mode.mode.isLink && s.mode.bootStep = 0 && !s.mode.fault then
    { s with frz := { s.frz with req := some (x.tag, x.slot) } }.freezeTrigger 2 0
  else (s.freezeTrigger 2 0).finish q x 0x10 0

/-- BARRIER: it waits for every earlier descriptor of its ring. -/
def State.opBarrier (s : State) (q : Ring) (x : InExec) : State :=
  if (s.hp.rings[q]).pend = [] then s.finish q x 0 0 else s.accept q x

/-- RING_QUERY. -/
def State.opRingQuery (s : State) (q : Ring) (x : InExec) (d : Desc) : State :=
  let r : Ring := ⟨descLe d 2 1 % 24, Nat.mod_lt _ (by decide)⟩
  let y := s.hp.rings[r]
  s.finish q x 0 (BitVec.ofNat 64 (y.pi + y.ci * 65536 + bitAt y.halted 32 + bitAt y.stalled 33 + bitAt (s.ringFull r) 34))

/-- MBX_SEND: 0x13 when DEST is no other module of the ring (R446). -/
def State.opMbxSend (s : State) (q : Ring) (x : InExec) (d : Desc) : State :=
  let dst := descLe d 2 2
  let me := s.rv.pos
  if s.rv.role = .none_ || dst = me || s.rv.ringN ≤ dst then s.finish q x 0x13 0
  else
    let m : MailOut := ⟨⟨BitVec.ofNat 10 dst, BitVec.ofNat 10 me, slice d.buf 0 64⟩, x.tag, x.slot⟩
    (s.pushReads (descWord d 4) (descLe d 8 4) 64).modRv fun r => if me < dst || dst = 0 then { r with mailA := r.mailA ++ [m] } else { r with mailB := r.mailB ++ [m] }

/-- MBX_RECV: at most 4 wait (R271, R446). -/
def State.opMbxRecv (s : State) (q : Ring) (x : InExec) (d : Desc) : State :=
  if 4 ≤ s.rv.recvs.length then s.finish q x 0x20 0
  else
    ((s.accept q x).modRv fun r => { r with recvs := r.recvs ++ [⟨x.tag, x.slot, descWord d 4, descLe d 8 4⟩] }).mailServe

/-! ### Execution (R271, R276) -/

/-- The effect of an opcode whose checks have passed. -/
def State.opEffect (s : State) (q : Ring) (x : InExec) (d : Desc) : State :=
  match x.op.toNat with
  | 0x11 => s.opCancel q x (descChan d) (some (BitVec.ofNat 16 (descLe d 4 2)))
  | 0x12 => s.opCancel q x (descChan d) none
  | 0x20 => s.opPrmWrite q x d
  | 0x21 => s.opPrmLoad q x d
  | 0x22 => s.opChRun q x d
  | 0x23 => s.opManual q x d
  | 0x30 => s.opImage q x d
  | 0x31 => s.opImage q x d
  | 0x40 => s.opLend q x d
  | 0x41 => s.opReclaim q x d
  | 0x42 => s.opReclaimAll q x
  | 0x50 => s.opSnapAt q x d
  | 0x51 => s.opSnapCancel q x d
  | 0x52 => s.opEddyRead q x d
  | 0x53 => s.opEddyClear q x d
  | 0x60 => s.opPwrWrite q x d
  | 0x61 => s.opPwrRead q x d
  | 0x62 => s.opBuskeepAck q x d
  | 0x70 => s.opModeReq q x d
  | 0x71 => s.opReset q x
  | 0x72 => s.opFreeze q x
  | 0x73 => s.opUnlock q x d
  | 0x81 => s.opBarrier q x
  | 0x82 => s.opRingQuery q x d
  | 0x90 => s.opMbxSend q x d
  | 0x91 => s.opMbxRecv q x d
  | _ => s.finish q x 0 0

/-- A descriptor is checked and executed by the consumer of its ring. -/
def State.runOp (s : State) (q : Ring) (x : InExec) (d : Desc) : State :=
  let s := if q.val < 16 then s else s.modRing q fun r => { r with exec := some x }
  if x.op = 0x10 then s.opReach q x d
  else match s.descCheck q x.op.toNat d with
    | some st => s.finish q x st 0
    | none => s.opEffect q x d

/-- The consumer of a ring can start a descriptor: a spire's agent or relief agent serves; on Q16 and Q17 the Keep runs; on Q16 to
Q19 the descriptor before it has completed (R258, R271). -/
def State.canStart (s : State) (q : Ring) : Bool :=
  let r := s.hp.rings[q]
  s.clockOn && q.val < 20 && !r.stalled
    && (q.val < 16 || (r.exec.isNone && !r.pend.any (·.op = 0x81) && (17 < q.val || s.keepRuns)))

/-- The row of one opcode: the consumer of the ring executes a descriptor, the last one that `Qn_CI` has passed. -/
def State.opRow (s : State) (op : Byte) (q : Ring) (d : Desc) : Res :=
  if s.canStart q then
    let size := s.ringSize q
    let ci := (s.hp.rings[q]).ci
    .next (s.runOp q { op := op, tag := d.tag, slot := (ci + size - 1) % size, sqhd := ci } d)
  else .next s

/-- REACH_POST (R211). -/
def execReachPost (q : Ring) (d : Desc) (s : State) : Res := s.opRow 0x10 q d
/-- REACH_CANCEL (R231). -/
def execReachCancel (q : Ring) (d : Desc) (s : State) : Res := s.opRow 0x11 q d
/-- REACH_FLUSH (R231). -/
def execReachFlush (q : Ring) (d : Desc) (s : State) : Res := s.opRow 0x12 q d
/-- PRM_WRITE (R275). -/
def execPrmWrite (q : Ring) (d : Desc) (s : State) : Res := s.opRow 0x20 q d
/-- PRM_LOAD (R275). -/
def execPrmLoad (q : Ring) (d : Desc) (s : State) : Res := s.opRow 0x21 q d
/-- CH_RUN (R275). -/
def execChRun (q : Ring) (d : Desc) (s : State) : Res := s.opRow 0x22 q d
/-- MANUAL (R275). -/
def execManual (q : Ring) (d : Desc) (s : State) : Res := s.opRow 0x23 q d
/-- IMG_LOAD (R162). -/
def execImgLoad (q : Ring) (d : Desc) (s : State) : Res := s.opRow 0x30 q d
/-- IMG_CHECK (R466). -/
def execImgCheck (q : Ring) (d : Desc) (s : State) : Res := s.opRow 0x31 q d
/-- LEND (R280). -/
def execLend (q : Ring) (d : Desc) (s : State) : Res := s.opRow 0x40 q d
/-- RECLAIM (R281). -/
def execReclaim (q : Ring) (d : Desc) (s : State) : Res := s.opRow 0x41 q d
/-- RECLAIM_ALL (R275). -/
def execReclaimAll (q : Ring) (d : Desc) (s : State) : Res := s.opRow 0x42 q d
/-- SNAP_AT (R297). -/
def execSnapAt (q : Ring) (d : Desc) (s : State) : Res := s.opRow 0x50 q d
/-- SNAP_CANCEL (R300). -/
def execSnapCancel (q : Ring) (d : Desc) (s : State) : Res := s.opRow 0x51 q d
/-- EDDY_READ (R303). -/
def execEddyRead (q : Ring) (d : Desc) (s : State) : Res := s.opRow 0x52 q d
/-- EDDY_CLEAR (R303). -/
def execEddyClear (q : Ring) (d : Desc) (s : State) : Res := s.opRow 0x53 q d
/-- PWR_WRITE (R275). -/
def execPwrWrite (q : Ring) (d : Desc) (s : State) : Res := s.opRow 0x60 q d
/-- PWR_READ (R275). -/
def execPwrRead (q : Ring) (d : Desc) (s : State) : Res := s.opRow 0x61 q d
/-- BUSKEEP_ACK (R326). -/
def execBuskeepAck (q : Ring) (d : Desc) (s : State) : Res := s.opRow 0x62 q d
/-- MODE_REQ (R500). -/
def execModeReq (q : Ring) (d : Desc) (s : State) : Res := s.opRow 0x70 q d
/-- RESET (R275). -/
def execReset (q : Ring) (d : Desc) (s : State) : Res := s.opRow 0x71 q d
/-- FREEZE (R408). -/
def execFreeze (q : Ring) (d : Desc) (s : State) : Res := s.opRow 0x72 q d
/-- UNLOCK (R468). -/
def execServiceUnlock (q : Ring) (d : Desc) (s : State) : Res := s.opRow 0x73 q d
/-- NOP (R275). -/
def execNop (q : Ring) (d : Desc) (s : State) : Res := s.opRow 0x80 q d
/-- BARRIER (R275). -/
def execBarrier (q : Ring) (d : Desc) (s : State) : Res := s.opRow 0x81 q d
/-- RING_QUERY (R275). -/
def execRingQuery (q : Ring) (d : Desc) (s : State) : Res := s.opRow 0x82 q d
/-- MBX_SEND (R446). -/
def execMbxSend (q : Ring) (d : Desc) (s : State) : Res := s.opRow 0x90 q d
/-- MBX_RECV (R446). -/
def execMbxRecv (q : Ring) (d : Desc) (s : State) : Res := s.opRow 0x91 q d

/-! ### Arrival (R268, R271, R284) -/

/-- The oldest fetched descriptor of a ring is executed. -/
def State.startOne (s : State) (q : Ring) : State :=
  match (s.hp.rings[q]).fetched with
  | [] => s
  | f :: rest =>
    (s.modRing q fun r => { r with fetched := rest }).runOp q { op := f.op, tag := f.d.tag, slot := f.slot, sqhd := f.sqhd } f.d

/-- Fetched descriptors of a ring started in turn, each once the one before it has completed (R271). On Q16 and Q17 only those that
arrived before the present tick start. -/
def State.startRing (q : Ring) : Nat → State → State
  | 0, s => s
  | n + 1, s =>
    let ready := (s.hp.rings[q]).fetched.head?.any fun f => 18 ≤ q.val || f.at_ < s.now
    if s.canStart q && ready then State.startRing q n (s.startOne q) else s

/-- As many starts as a ring has fetched descriptors. -/
def State.startFetched (s : State) (q : Ring) : State := State.startRing q (s.hp.rings[q]).fetched.length s

/-- `Qn_CI` moves past the descriptors of the read request that has arrived (R268). -/
def State.moveCi (s : State) (q : Ring) : State :=
  match (s.hp.rings[q]).inFlight with
  | none => s
  | some (slot, n) =>
    let ci := (slot + n) % s.ringSize q
    (s.modRing q fun r => { r with ci := if r.stale then r.ci else ci, stale := false, parked := false, inFlight := none }).count
      (R.Q_CNT_ENTRIES q) n

/-- What arrived for Q16 or Q17 during a Keep restart is consumed once the Keep is back (R25). -/
def State.unpark (s : State) (q : Ring) : State := if (s.hp.rings[q]).parked then s.moveCi q else s

/-- DESCRIPTOR_ARRIVAL: the slots of a read request arrive; `Qn_CI` moves past them. Spire rings execute them at once in index order,
Q18 and Q19 as each can start; Q16 and Q17 wait for a decision boundary (R268, R271), and for the Keep to run (R25). -/
def execDescriptorArrival (q : Ring) (ds : List (Byte × Desc)) (s : State) : Res :=
  let r := s.hp.rings[q]
  match r.inFlight with
  | none => .next s
  | some (slot, n) =>
    if s.clockOn && ds.length = n && !r.stalled && !r.parked then
      let size := s.ringSize q
      let fs : List Fetched := ds.zipIdx.map fun p => ⟨p.1.1, p.1.2, (slot + p.2) % size, (slot + n) % size, s.now⟩
      let s := s.modRing q fun r => { r with fetched := r.fetched ++ fs }
      if !s.keepTakes q then .next (s.modRing q fun r => { r with parked := true })
      else
        let s := s.moveCi q
        .next (if q.val = 16 || q.val = 17 then s else s.startFetched q)
    else .next s

/-- The opcodes that read a lent buffer. -/
def readsLend (op : Nat) : Bool := [0x21, 0x30, 0x31, 0x73, 0x90].contains op

/-- Data of event 0x0205. -/
def dmaData (q : Ring) (kind : Fin 5) : W32 := BitVec.ofNat 32 (q.val + kind.val * 256)

/-- What AER and the Status register record of a failed read, by the kinds of Table 10.18 (R261, R284, R287): an Unsupported Request and a
Completer Abort set Received Master Abort and Received Target Abort; the others set their bit of Uncorrectable Error Status, and the first
one fills the header log, whose content no rule states (assumption 82). -/
def State.aerRecord (s : State) (kind : Fin 5) : State :=
  let bit : Nat := match kind.val with | 2 => 12 | 3 => 14 | _ => 19
  if kind.val = 0 then s.modHp fun h => { h with aer := { h.aer with masterAbort := true } }
  else if kind.val = 1 then s.modHp fun h => { h with aer := { h.aer with targetAbort := true } }
  else
    let (w0, s) := s.takeFree
    let (w1, s) := s.takeFree
    let (w2, s) := s.takeFree
    let (w3, s) := s.takeFree
    s.modHp fun h => { h with aer := { h.aer with
      status := h.aer.status ||| BitVec.ofNat 32 (2 ^ bit)
      log := if h.aer.log = [] then [w0, w1, w2, w3] else h.aer.log } }

/-- The request of an executing descriptor to the image check engine is withdrawn. -/
def ImgReq.of (r : ImgReq) (x : InExec) : Bool :=
  match r with
  | .image _ _ _ _ tag slot => tag = x.tag && slot = x.slot
  | .unlock _ tag slot => tag = x.tag && slot = x.slot
  | .key .. => false

/-- A failed read of a lent buffer (R284): the command that reads it completes with 0x21, be it the one that executes or the oldest
fetched one, whose checks pass. -/
def State.lentReadFails (s : State) (q : Ring) (kind : Fin 5) : State :=
  let ev (t : State) : State := (t.aerRecord kind).raise 0x0205 0 (dmaData q kind)
  match (s.hp.rings[q]).exec with
  | some x =>
    if s.otp.reqs.any (ImgReq.of · x) then
      (ev (s.imgKeep fun r => !r.of x)).complete q x.tag x.slot 0x21 0 false
    else s
  | none => match (s.hp.rings[q]).fetched with
    | f :: rest =>
      if s.canStart q && readsLend f.op.toNat && (s.descCheck q f.op.toNat f.d).isNone then
        let x : InExec := { op := f.op, tag := f.d.tag, slot := f.slot, sqhd := f.sqhd }
        let s := s.modRing q fun r => { r with fetched := rest, exec := some x }
        (ev s).complete q x.tag x.slot 0x21 0 false
      else s
    | [] => s

/-- DMA_READ_FAILURE: a failed fetch halts the ring with WHY 0x04 (R287); a failed read of a lent buffer ends its command (R284). -/
def execDmaReadFailure (q : Ring) (kind : Fin 5) (lent : Bool) (s : State) : Res :=
  if !s.clockOn then .next s
  else if lent then .next (s.lentReadFails q kind)
  else if (s.hp.rings[q]).inFlight.isSome then
    .next ((((s.modRing q fun r => { r with inFlight := none, stale := false }).aerRecord kind).raise 0x0205 0 (dmaData q kind)).haltRing
      q 4)
  else .next s

end Sys2Proof.Machine
end

