-- ==== Sys2Proof/Machine/KeepBoundary.lean ====
section
/-! DEFINITION. The Keep's decision boundary of 1 ms: the writes that waited for it, the charger, the budget and the rails, the Q16
and Q17 descriptors, and the mirror that the two-wire target reads (R44, R271, R321, R329, R345, R361, R369, R474). -/

namespace Sys2Proof.Machine

/-- The registers of the STATUS command, in its order (Table 17.6). -/
def twStatusRegs : List Nat :=
  [R.MODE_STATUS, R.RESET_CAUSE, R.FLT_STAT, R.PACK_STAT, R.CHG_STAT, R.RAIL_GOOD, R.EST_SOC, R.SILT_SEQ]

/-- The Keep refreshes the mirror of the STATUS words (R474). -/
def State.twRefresh (s : State) : State :=
  { s with tw := { s.tw with mirror := twStatusRegs.map s.liveWord, refreshed := s.tick.wall } }

/-- A Keep patch that has passed takes over (R44). -/
def State.patchTakes (s : State) : State :=
  if s.mode.patchSwitch then s.modMode fun m => { m with patchSwitch := false, keepPatched := true } else s

/-- What the Keep decides before it starts descriptors. -/
def State.keepDecides (s : State) : State :=
  (s.patchTakes.applyKeepWrites.budgetPeriod.chargerDecide).estInit

/-- A decision boundary falls now. -/
def State.boundary (s : State) : State := { s with pace := { s.pace with keep := some s.tick.wall } }

/-- KEEP_DECISION_BOUNDARY: in the order that the table's row gives: writes, charger and budget, rails, Q16 and Q17, mirror. A cut-off
that opens the pack switch here ends the rest (R317). -/
def execKeepDecisionBoundary (s : State) : Res :=
  if s.keepRuns && s.paced s.pace.keep ticksPerMs then
    let s := s.boundary.keepDecides
    if s.mode.mode = .ship then .next s
    else
      let s := s.railDecide
      let s := (((s.unpark 16).unpark 17 |>.startFetched 16).startFetched 17).twRefresh
      .next (s.modMode fun m => { m with moveFresh := false })
  else .next s

end Sys2Proof.Machine
end

