-- ==== Sys2Proof/Machine/TwoWire.lean ====
section
/-! DEFINITION. The two-wire target (17_otp_images_twowire.md, R470 to R475; 18_register_map.md, R482). -/

namespace Sys2Proof.Machine

/-- The target answers from the end of step 0x01 in every mode except SHIP (R470). -/
def State.twOpen (s : State) : Bool := s.mode.mode ≠ .ship && !(s.mode.starting && s.mode.bootStep = 1)

/-- A read transfer's STATUS byte and data, or a write transfer's acknowledgement. -/
def State.twAnswer (s : State) (status : Byte) (data : List Byte) : State := s.send (.twReply status data)

/-- A command not executed for its PEC: LAST_RESULT becomes 0x06 (R472). -/
def State.twNoPec (s : State) : State := { s with tw := { s.tw with lastResult := 6 } }.twAnswer 6 []

/-- A wrong PEC byte: NACKed, counted, event 0x0E00 (R472, Table 17.10). -/
def State.twBadPec (s : State) : State := (s.twNoPec.count R.TW_CNT_PEC_FAIL).raise 0x0E00 0

/-- A read transfer: a wrong byte after its last argument is a wrong PEC, and the target's own PEC ends the answer (R472). -/
def State.twRead (s : State) (pec : Pec) (f : State → State) : Res :=
  if !s.twOpen then .next s else if pec = .bad then .next s.twBadPec else .next (f s)

/-- A word of STATUS: the Turret's own registers live, the others from the mirror, in which the Turret writes BOOT_STEP during steps
0x01 to 0x04 (R474). -/
def State.twStatusWord (s : State) (k a : Nat) : W32 :=
  if twReach a = some true then s.liveWord a
  else
    let w := s.tw.mirror.getD k 0
    if a = R.MODE_STATUS && 1 ≤ s.mode.bootStep.toNat && s.mode.bootStep.toNat ≤ 4 then withField w R.MODE_STATUS_BOOT_STEP s.mode.bootStep.toNat
    else w

/-- TW_STATUS: the eight words, DOME_LIVE and AGE (Table 17.6). -/
def execTwStatus (pec : Pec) (s : State) : Res :=
  s.twRead pec fun s =>
    let ws := twStatusRegs.zipIdx.map fun p => s.twStatusWord p.2 p.1
    let age := min 255 ((s.tick.wall - s.tw.refreshed) / ticksPerMs)
    s.twAnswer 0 ((ws.flatMap fun w => leBytes 4 w.toNat) ++ [if s.domeLive then 1 else 0, BitVec.ofNat 8 age])

/-- TW_LAST_RESULT. -/
def execTwLastResult (pec : Pec) (s : State) : Res := s.twRead pec fun s => s.twAnswer 0 [s.tw.lastResult]

/-- TW_REG_READ: a read as the host's, with its effects (R474, R482). -/
def execTwRegRead (off : BitVec 16) (pec : Pec) (s : State) : Res :=
  s.twRead pec fun s =>
    let a := off.toNat
    if a % 4 ≠ 0 then s.twAnswer 2 []
    else match twReach a with
      | none => s.twAnswer 2 []
      | some turret =>
        if turret || s.domeLive then
          let (v, s) := s.read32 .twoWire a
          s.twAnswer 0 (leBytes 4 v.toNat)
        else s.twAnswer 3 []

/-- The record of a SEQ, or the newest for SEQ 0. -/
def Silt.find (x : Silt) (seq : W32) : Option (List Byte) :=
  let want := if seq = 0 then BitVec.ofNat 32 x.seq else seq
  x.slots.toList.findSome? fun sl => match sl with
    | .valid q b => if q = want then some (siltRecord q b) else none
    | _ => none

/-- TW_SILT_READ: 0x04 for a SEQ that no valid slot holds. -/
def execTwSiltRead (seq : W32) (pec : Pec) (s : State) : Res :=
  s.twRead pec fun s => match s.silt.find seq with
    | some b => s.twAnswer 0 b
    | none => s.twAnswer 4 []

/-- A write transfer judged by its PEC (R472): 0x06 when it is wrong, with event 0x0E00, or missing while `TW_CFG.PEC_REQ` = 1. -/
def State.twWrite (s : State) (pec : Pec) (f : State → State) : Res :=
  if !s.twOpen then .next s
  else match pec with
    | .bad => .next s.twBadPec
    | .absent => if s.flag R.TW_CFG_PEC_REQ then .next s.twNoPec else .next (f s)
    | .good => .next (f s)

/-- A write command's result, with event 0x0E02 or 0x0E03 (R475); `TW_CNT.REFUSED` counts the answers 0x05 and 0x07. -/
def State.twResult (s : State) (request : Nat) (code : Byte) : State :=
  let s := { s with tw := { s.tw with lastResult := code } }.twAnswer code []
  if code = 0 then s.raise 0x0E02 0 (BitVec.ofNat 32 request)
  else
    let s := if code = 5 || code = 7 then s.count R.TW_CNT_REFUSED else s
    s.raise 0x0E03 0 (BitVec.ofNat 32 (request + code.toNat * 256))

/-- A REQUEST acted on at its STOP: 0x07 in the fault state, 0x05 where its conditions fail (R475). -/
def State.twRequest (s : State) (request : Nat) (ok : Bool) (f : State → State) : State :=
  if s.mode.fault then s.twResult request 7
  else if ok then f (s.twResult request 0)
  else s.twResult request 5

/-- A move to STANDBY would not give way to one in progress (R33). -/
def State.mayMove (s : State) (m : Move) : Bool :=
  match s.mode.move with
  | none => true
  | some old => old.rank < m.rank

/-- TW_REQUEST_STANDBY: accepted in READY. -/
def execTwRequestStandby (pec : Pec) (s : State) : Res :=
  let m : Move := { hops := [.standby], cause := .twoWire }
  s.twWrite pec fun s => s.twRequest 1 (s.mode.mode = .ready && s.mayMove m) fun s => s.moveTrigger m

/-- TW_REQUEST_SHIP: accepted in STANDBY with TF low (Table 02.2). -/
def execTwRequestShip (pec : Pec) (s : State) : Res :=
  s.twWrite pec fun s =>
    s.twRequest 2 (s.mode.mode = .standby && !s.mode.starting && !s.tfPresent && s.mode.move.isNone) fun s =>
      s.moveTrigger { hops := [.ship], cause := .twoWire }

/-- TW_REQUEST_STANDBY_EXIT: accepted in STANDBY (Table 02.2). -/
def execTwRequestStandbyExit (pec : Pec) (s : State) : Res :=
  s.twWrite pec fun s => s.twRequest 3 (s.mode.mode = .standby && !s.mode.starting && s.mode.move.isNone) State.warmStart

/-- TW_RESET: the fault-state reset in the fault state, 0x05 at any other time, 0x02 for another CONFIRM (R475, Table 17.7). -/
def execTwReset (confirm : Byte) (pec : Pec) (s : State) : Res :=
  s.twWrite pec fun s =>
    if confirm ≠ 0x5A then s.twResult 0x30 2
    else if s.mode.fault then (s.twResult 0x30 0).resetBy .fault
    else s.twResult 0x30 5

/-- TW_STRETCH_TIMEOUT: a read whose data are not ready within 200 µs answers STATUS 0x08 and COUNT 0 (R473), counted in
`TW_CNT.BUSY`. -/
def execTwStretchTimeout (s : State) : Res := if s.twOpen then .next ((s.twAnswer 8 []).count R.TW_CNT_BUSY) else .next s

/-- TW_BUS_TIMEOUT: `SCL` low for 35 ms with `TW_CFG.TIMEOUT_EN` = 1 resets the target's interface (R473). -/
def execTwBusTimeout (s : State) : Res :=
  if s.twOpen && s.flag R.TW_CFG_TIMEOUT_EN then .next ((s.count R.TW_CNT_TIMEOUTS).raise 0x0E01 0) else .next s

end Sys2Proof.Machine
end

