-- ==== Sys2Proof/Machine/Dispatch.lean ====
section
/-! DEFINITION. The dispatcher: one arm per command, each a call of that command's own meaning. -/

namespace Sys2Proof.Machine

/-- The effect of a command on everything but the queue. -/
def exec (i : Instr) (s : State) : Host.Outcome State Fault Refusal :=
  match i with
  | .registerWrite addr dwords => Sys2Proof.Machine.execRegisterWrite addr dwords s
  | .rcRead p addr be => Sys2Proof.Machine.execRcRead p addr be s
  | .lowHalfRead p addr => Sys2Proof.Machine.execLowHalfRead p addr s
  | .highHalfRead p addr => Sys2Proof.Machine.execHighHalfRead p addr s
  | .bar4Read off len => Sys2Proof.Machine.execBar4Read off len s
  | .powerOnReset => Sys2Proof.Machine.execPowerOnReset s
  | .resetNPin => Sys2Proof.Machine.execResetNPin s
  | .perstAssert => Sys2Proof.Machine.execPerstAssert s
  | .perstDeassert => Sys2Proof.Machine.execPerstDeassert s
  | .deviceCommandReset => Sys2Proof.Machine.execDeviceCommandReset s
  | .faultStateReset => Sys2Proof.Machine.execFaultStateReset s
  | .wakeQualified => Sys2Proof.Machine.execWakeQualified s
  | .tfQualified => Sys2Proof.Machine.execTfQualified s
  | .keyRising => Sys2Proof.Machine.execKeyRising s
  | .keyFalling => Sys2Proof.Machine.execKeyFalling s
  | .keyoffDelayExpiry => Sys2Proof.Machine.execKeyoffDelayExpiry s
  | .keyoffRoadMoveStart => Sys2Proof.Machine.execKeyoffRoadMoveStart s
  | .serviceOverspeedExit => Sys2Proof.Machine.execServiceOverspeedExit s
  | .modeEntry => Sys2Proof.Machine.execModeEntry s
  | .bootTurretWake straps => Sys2Proof.Machine.execBootTurretWake straps s
  | .bootPackCheck taps => Sys2Proof.Machine.execBootPackCheck taps s
  | .bootSoftClose ok => Sys2Proof.Machine.execBootSoftClose ok s
  | .bootDomeRelease refHz => Sys2Proof.Machine.execBootDomeRelease refHz s
  | .bootKeepBoot selfTestOk => Sys2Proof.Machine.execBootKeepBoot selfTestOk s
  | .bootOtpConfigRead unread => Sys2Proof.Machine.execBootOtpConfigRead unread s
  | .bootHkSelfCal means => Sys2Proof.Machine.execBootHkSelfCal means s
  | .patchVerifyDone => Sys2Proof.Machine.execPatchVerifyDone s
  | .bootRailStart aux0Mv => Sys2Proof.Machine.execBootRailStart aux0Mv s
  | .warmStart => Sys2Proof.Machine.execWarmStart s
  | .stageLinkLoss die => Sys2Proof.Machine.execStageLinkLoss die s
  | .stageLinkRestore die => Sys2Proof.Machine.execStageLinkRestore die s
  | .keepReferenceLoss => Sys2Proof.Machine.execKeepReferenceLoss s
  | .keepReferenceReturn refHz => Sys2Proof.Machine.execKeepReferenceReturn refHz s
  | .keepLockstepMismatch => Sys2Proof.Machine.execKeepLockstepMismatch s
  | .keepRestartDone => Sys2Proof.Machine.execKeepRestartDone s
  | .keepDecisionBoundary => Sys2Proof.Machine.execKeepDecisionBoundary s
  | .courseUpdate => Sys2Proof.Machine.execCourseUpdate s
  | .speedSourceDisplace code => Sys2Proof.Machine.execSpeedSourceDisplace code s
  | .sourceTimeout code => Sys2Proof.Machine.execSourceTimeout code s
  | .coastTimeExpiry => Sys2Proof.Machine.execCoastTimeExpiry s
  | .blendEnd yaw => Sys2Proof.Machine.execBlendEnd yaw s
  | .crosscheckDisagree code => Sys2Proof.Machine.execCrosscheckDisagree code s
  | .courseRebaseGo => Sys2Proof.Machine.execCourseRebaseGo s
  | .chGeomWrite ch isX value => Sys2Proof.Machine.execChGeomWrite ch isX value s
  | .hostPoseCommit => Sys2Proof.Machine.execHostPoseCommit s
  | .encoderEdge n a b => Sys2Proof.Machine.execEncoderEdge n a b s
  | .encoderStop n => Sys2Proof.Machine.execEncoderStop n s
  | .radarPulse => Sys2Proof.Machine.execRadarPulse s
  | .radarStop => Sys2Proof.Machine.execRadarStop s
  | .spdanSample code => Sys2Proof.Machine.execSpdanSample code s
  | .gnssCharacter port samples early => Sys2Proof.Machine.execGnssCharacter port samples early s
  | .nmeaSentence port => Sys2Proof.Machine.execNmeaSentence port s
  | .gnssBinaryFrame port => Sys2Proof.Machine.execGnssBinaryFrame port s
  | .compareMatch u => Sys2Proof.Machine.execCompareMatch u s
  | .chainArrival u => Sys2Proof.Machine.execChainArrival u s
  | .gstartWrite value => Sys2Proof.Machine.execGstartWrite value s
  | .gstartRelease => Sys2Proof.Machine.execGstartRelease s
  | .predictorWrite => Sys2Proof.Machine.execPredictorWrite s
  | .chBndCtrlWrite ch value => Sys2Proof.Machine.execChBndCtrlWrite ch value s
  | .chBndTargetWrite ch value => Sys2Proof.Machine.execChBndTargetWrite ch value s
  | .compareReplayMatch => Sys2Proof.Machine.execCompareReplayMatch s
  | .controlSampleInstant ch inp => Sys2Proof.Machine.execControlSampleInstant ch inp s
  | .sampleEventLatch ch => Sys2Proof.Machine.execSampleEventLatch ch s
  | .deadlineMiss ch => Sys2Proof.Machine.execDeadlineMiss ch s
  | .takeoverResume ch => Sys2Proof.Machine.execTakeoverResume ch s
  | .deposedRetireTimeout e => Sys2Proof.Machine.execDeposedRetireTimeout e s
  | .selfTestDone e passed => Sys2Proof.Machine.execSelfTestDone e passed s
  | .tkoHandback sp value => Sys2Proof.Machine.execTkoHandback sp value s
  | .dutyCommandArrival ch => Sys2Proof.Machine.execDutyCommandArrival ch s
  | .carrierUpdatePoint ch centre => Sys2Proof.Machine.execCarrierUpdatePoint ch centre s
  | .dlyReport ch => Sys2Proof.Machine.execDlyReport ch s
  | .currentSample ch code => Sys2Proof.Machine.execCurrentSample ch code s
  | .voltageSample ch code => Sys2Proof.Machine.execVoltageSample ch code s
  | .snsEdge ch level => Sys2Proof.Machine.execSnsEdge ch level s
  | .currentLimitReached ch => Sys2Proof.Machine.execCurrentLimitReached ch s
  | .peakBudgetExhausted ch => Sys2Proof.Machine.execPeakBudgetExhausted ch s
  | .peakBudgetRestored ch => Sys2Proof.Machine.execPeakBudgetRestored ch s
  | .hiccupStart ch => Sys2Proof.Machine.execHiccupStart ch s
  | .hiccupEnd ch => Sys2Proof.Machine.execHiccupEnd ch s
  | .openLoadDetect ch => Sys2Proof.Machine.execOpenLoadDetect ch s
  | .desaturation ch leg highSide stuck => Sys2Proof.Machine.execDesaturation ch leg highSide stuck s
  | .legImbalance ch iA iB stuck => Sys2Proof.Machine.execLegImbalance ch iA iB stuck s
  | .chLegRestore ch => Sys2Proof.Machine.execChLegRestore ch s
  | .chStageCfgWrite ch value => Sys2Proof.Machine.execChStageCfgWrite ch value s
  | .chEngCtrlWrite ch value => Sys2Proof.Machine.execChEngCtrlWrite ch value s
  | .add e d a b => Sys2Proof.Machine.execAdd e d a b s
  | .sub e d a b => Sys2Proof.Machine.execSub e d a b s
  | .and e d a b => Sys2Proof.Machine.execAnd e d a b s
  | .or e d a b => Sys2Proof.Machine.execOr e d a b s
  | .xor e d a b => Sys2Proof.Machine.execXor e d a b s
  | .shl e d a b => Sys2Proof.Machine.execShl e d a b s
  | .shr e d a b => Sys2Proof.Machine.execShr e d a b s
  | .sar e d a b => Sys2Proof.Machine.execSar e d a b s
  | .adds e d a b => Sys2Proof.Machine.execAdds e d a b s
  | .subs e d a b => Sys2Proof.Machine.execSubs e d a b s
  | .min e d a b => Sys2Proof.Machine.execMin e d a b s
  | .max e d a b => Sys2Proof.Machine.execMax e d a b s
  | .slt e d a b => Sys2Proof.Machine.execSlt e d a b s
  | .sltu e d a b => Sys2Proof.Machine.execSltu e d a b s
  | .abss e d a => Sys2Proof.Machine.execAbss e d a s
  | .addi e d a imm => Sys2Proof.Machine.execAddi e d a imm s
  | .andi e d a imm => Sys2Proof.Machine.execAndi e d a imm s
  | .ori e d a imm => Sys2Proof.Machine.execOri e d a imm s
  | .xori e d a imm => Sys2Proof.Machine.execXori e d a imm s
  | .lui e d imm => Sys2Proof.Machine.execLui e d imm s
  | .shli e d a sh => Sys2Proof.Machine.execShli e d a sh s
  | .shri e d a sh => Sys2Proof.Machine.execShri e d a sh s
  | .sari e d a sh => Sys2Proof.Machine.execSari e d a sh s
  | .slti e d a imm => Sys2Proof.Machine.execSlti e d a imm s
  | .mul e d a b => Sys2Proof.Machine.execMul e d a b s
  | .mulh e d a b => Sys2Proof.Machine.execMulh e d a b s
  | .mulhu e d a b => Sys2Proof.Machine.execMulhu e d a b s
  | .mac e a b => Sys2Proof.Machine.execMac e a b s
  | .msu e a b => Sys2Proof.Machine.execMsu e a b s
  | .macz e a b => Sys2Proof.Machine.execMacz e a b s
  | .mfa e d b => Sys2Proof.Machine.execMfa e d b s
  | .mfah e d => Sys2Proof.Machine.execMfah e d s
  | .mta e a => Sys2Proof.Machine.execMta e a s
  | .mtah e a b => Sys2Proof.Machine.execMtah e a b s
  | .rcp e d a => Sys2Proof.Machine.execRcp e d a s
  | .rcps e d a => Sys2Proof.Machine.execRcps e d a s
  | .lw e d a imm => Sys2Proof.Machine.execLw e d a imm s
  | .lh e d a imm => Sys2Proof.Machine.execLh e d a imm s
  | .lhu e d a imm => Sys2Proof.Machine.execLhu e d a imm s
  | .lb e d a imm => Sys2Proof.Machine.execLb e d a imm s
  | .lbu e d a imm => Sys2Proof.Machine.execLbu e d a imm s
  | .sw e d a imm => Sys2Proof.Machine.execSw e d a imm s
  | .sh e d a imm => Sys2Proof.Machine.execSh e d a imm s
  | .sb e d a imm => Sys2Proof.Machine.execSb e d a imm s
  | .beq e a b off => Sys2Proof.Machine.execBeq e a b off s
  | .bne e a b off => Sys2Proof.Machine.execBne e a b off s
  | .blt e a b off => Sys2Proof.Machine.execBlt e a b off s
  | .bge e a b off => Sys2Proof.Machine.execBge e a b off s
  | .bltu e a b off => Sys2Proof.Machine.execBltu e a b off s
  | .bgeu e a b off => Sys2Proof.Machine.execBgeu e a b off s
  | .j e off => Sys2Proof.Machine.execJ e off s
  | .jal e off => Sys2Proof.Machine.execJal e off s
  | .jr e a => Sys2Proof.Machine.execJr e a s
  | .portIn e d port => Sys2Proof.Machine.execPortIn e d port s
  | .inPop e d port => Sys2Proof.Machine.execInPop e d port s
  | .inTickL e d => Sys2Proof.Machine.execInTickL e d s
  | .outDuty e a => Sys2Proof.Machine.execOutDuty e a s
  | .outDutyHold e a => Sys2Proof.Machine.execOutDutyHold e a s
  | .outBndLat e a => Sys2Proof.Machine.execOutBndLat e a s
  | .outSmpPer e a => Sys2Proof.Machine.execOutSmpPer e a s
  | .outTmr e a => Sys2Proof.Machine.execOutTmr e a s
  | .outFlags e a => Sys2Proof.Machine.execOutFlags e a s
  | .outTrace e a => Sys2Proof.Machine.execOutTrace e a s
  | .outTraceEnd e a => Sys2Proof.Machine.execOutTraceEnd e a s
  | .wait e d mask => Sys2Proof.Machine.execWait e d mask s
  | .waitWake e => Sys2Proof.Machine.execWaitWake e s
  | .engineTimerExpiry e => Sys2Proof.Machine.execEngineTimerExpiry e s
  | .lock e a b => Sys2Proof.Machine.execLock e a b s
  | .unlock e => Sys2Proof.Machine.execUnlock e s
  | .ckpt e => Sys2Proof.Machine.execCkpt e s
  | .trap e imm => Sys2Proof.Machine.execTrap e imm s
  | .illegalInstruction e word => Sys2Proof.Machine.execIllegalInstruction e word s
  | .engineWatchdog e => Sys2Proof.Machine.execEngineWatchdog e s
  | .reachPost q d => Sys2Proof.Machine.execReachPost q d s
  | .reachCancel q d => Sys2Proof.Machine.execReachCancel q d s
  | .reachFlush q d => Sys2Proof.Machine.execReachFlush q d s
  | .prmWrite q d => Sys2Proof.Machine.execPrmWrite q d s
  | .prmLoad q d => Sys2Proof.Machine.execPrmLoad q d s
  | .chRun q d => Sys2Proof.Machine.execChRun q d s
  | .manual q d => Sys2Proof.Machine.execManual q d s
  | .manualPeriodEnd ch => Sys2Proof.Machine.execManualPeriodEnd ch s
  | .imgLoad q d => Sys2Proof.Machine.execImgLoad q d s
  | .imageCopyDone ch => Sys2Proof.Machine.execImageCopyDone ch s
  | .imgCheck q d => Sys2Proof.Machine.execImgCheck q d s
  | .lend q d => Sys2Proof.Machine.execLend q d s
  | .reclaim q d => Sys2Proof.Machine.execReclaim q d s
  | .reclaimAll q d => Sys2Proof.Machine.execReclaimAll q d s
  | .snapAt q d => Sys2Proof.Machine.execSnapAt q d s
  | .snapCancel q d => Sys2Proof.Machine.execSnapCancel q d s
  | .eddyRead q d => Sys2Proof.Machine.execEddyRead q d s
  | .eddyClear q d => Sys2Proof.Machine.execEddyClear q d s
  | .pwrWrite q d => Sys2Proof.Machine.execPwrWrite q d s
  | .pwrRead q d => Sys2Proof.Machine.execPwrRead q d s
  | .buskeepAck q d => Sys2Proof.Machine.execBuskeepAck q d s
  | .modeReq q d => Sys2Proof.Machine.execModeReq q d s
  | .reset q d => Sys2Proof.Machine.execReset q d s
  | .freeze q d => Sys2Proof.Machine.execFreeze q d s
  | .serviceUnlock q d => Sys2Proof.Machine.execServiceUnlock q d s
  | .nop q d => Sys2Proof.Machine.execNop q d s
  | .barrier q d => Sys2Proof.Machine.execBarrier q d s
  | .ringQuery q d => Sys2Proof.Machine.execRingQuery q d s
  | .mbxSend q d => Sys2Proof.Machine.execMbxSend q d s
  | .mbxRecv q d => Sys2Proof.Machine.execMbxRecv q d s
  | .submissionDoorbell off value be => Sys2Proof.Machine.execSubmissionDoorbell off value be s
  | .completionDoorbell off value be => Sys2Proof.Machine.execCompletionDoorbell off value be s
  | .descriptorArrival q ds => Sys2Proof.Machine.execDescriptorArrival q ds s
  | .dmaReadFailure q kind lent => Sys2Proof.Machine.execDmaReadFailure q kind lent s
  | .qnCfgWrite q value => Sys2Proof.Machine.execQnCfgWrite q value s
  | .ringResume q => Sys2Proof.Machine.execRingResume q s
  | .arbitrationGrant => Sys2Proof.Machine.execArbitrationGrant s
  | .tenureBite => Sys2Proof.Machine.execTenureBite s
  | .reliefTakeover sp => Sys2Proof.Machine.execReliefTakeover sp s
  | .msixCoalesceTimeout q => Sys2Proof.Machine.execMsixCoalesceTimeout q s
  | .completionRingFullTimeout q => Sys2Proof.Machine.execCompletionRingFullTimeout q s
  | .linkUp speed width => Sys2Proof.Machine.execLinkUp speed width s
  | .linkDown => Sys2Proof.Machine.execLinkDown s
  | .snapshotLatch => Sys2Proof.Machine.execSnapshotLatch s
  | .snapshotWriteDone => Sys2Proof.Machine.execSnapshotWriteDone s
  | .eddyReadDone => Sys2Proof.Machine.execEddyReadDone s
  | .eddyStrmWrite value => Sys2Proof.Machine.execEddyStrmWrite value s
  | .packCheck taps => Sys2Proof.Machine.execPackCheck taps s
  | .buskeepPackCheckTimer taps => Sys2Proof.Machine.execBuskeepPackCheckTimer taps s
  | .chargeProbe dPackUa dChgUa => Sys2Proof.Machine.execChargeProbe dPackUa dChgUa s
  | .packSwitchClose vbusMv => Sys2Proof.Machine.execPackSwitchClose vbusMv s
  | .packCloseTimeout => Sys2Proof.Machine.execPackCloseTimeout s
  | .shortCircuitTrip => Sys2Proof.Machine.execShortCircuitTrip s
  | .cellOvTrip cell => Sys2Proof.Machine.execCellOvTrip cell s
  | .ovLatchClear => Sys2Proof.Machine.execOvLatchClear s
  | .cellDataStale => Sys2Proof.Machine.execCellDataStale s
  | .uvCutoff => Sys2Proof.Machine.execUvCutoff s
  | .chargerStart tfMv => Sys2Proof.Machine.execChargerStart tfMv s
  | .tfLoss => Sys2Proof.Machine.execTfLoss s
  | .prechargeDone => Sys2Proof.Machine.execPrechargeDone s
  | .chargeTimeout => Sys2Proof.Machine.execChargeTimeout s
  | .chargeTermination => Sys2Proof.Machine.execChargeTermination s
  | .recharge => Sys2Proof.Machine.execRecharge s
  | .chgRestart => Sys2Proof.Machine.execChgRestart s
  | .inputLimitTimeout volt => Sys2Proof.Machine.execInputLimitTimeout volt s
  | .buskeepEntry => Sys2Proof.Machine.execBuskeepEntry s
  | .buskeepExit => Sys2Proof.Machine.execBuskeepExit s
  | .buskeepLowVbus => Sys2Proof.Machine.execBuskeepLowVbus s
  | .pullInGuardEnd ch => Sys2Proof.Machine.execPullInGuardEnd ch s
  | .packSample iCode vCode tfUa => Sys2Proof.Machine.execPackSample iCode vCode tfUa s
  | .socUpdate => Sys2Proof.Machine.execSocUpdate s
  | .impedanceStep => Sys2Proof.Machine.execImpedanceStep s
  | .probeStart => Sys2Proof.Machine.execProbeStart s
  | .probeEnd => Sys2Proof.Machine.execProbeEnd s
  | .restPoint => Sys2Proof.Machine.execRestPoint s
  | .estimatorRecord => Sys2Proof.Machine.execEstimatorRecord s
  | .railStart r voutMv => Sys2Proof.Machine.execRailStart r voutMv s
  | .railSupervisionSample vout iout => Sys2Proof.Machine.execRailSupervisionSample vout iout s
  | .railGood r => Sys2Proof.Machine.execRailGood r s
  | .railUvWarn r => Sys2Proof.Machine.execRailUvWarn r s
  | .railOvWarn r => Sys2Proof.Machine.execRailOvWarn r s
  | .railUvFault r => Sys2Proof.Machine.execRailUvFault r s
  | .railOvFault r => Sys2Proof.Machine.execRailOvFault r s
  | .railWindowExpiry r => Sys2Proof.Machine.execRailWindowExpiry r s
  | .railHiccup r => Sys2Proof.Machine.execRailHiccup r s
  | .railHiccupEnd r voutMv => Sys2Proof.Machine.execRailHiccupEnd r voutMv s
  | .lightLoadChange r enter => Sys2Proof.Machine.execLightLoadChange r enter s
  | .seqInChange level => Sys2Proof.Machine.execSeqInChange level s
  | .seqinWaitExpiry => Sys2Proof.Machine.execSeqinWaitExpiry s
  | .railOnWrite r on => Sys2Proof.Machine.execRailOnWrite r on s
  | .railStopOrder => Sys2Proof.Machine.execRailStopOrder s
  | .railStopped r => Sys2Proof.Machine.execRailStopped r s
  | .hostHoldExpiry => Sys2Proof.Machine.execHostHoldExpiry s
  | .hkEntryDone raws => Sys2Proof.Machine.execHkEntryDone raws s
  | .hkStartWrite start => Sys2Proof.Machine.execHkStartWrite start s
  | .hkCal => Sys2Proof.Machine.execHkCal s
  | .hkCalDone means => Sys2Proof.Machine.execHkCalDone means s
  | .hkCfgWrite n value => Sys2Proof.Machine.execHkCfgWrite n value s
  | .hkDiagGo value => Sys2Proof.Machine.execHkDiagGo value s
  | .hkDiagDone raws => Sys2Proof.Machine.execHkDiagDone raws s
  | .thermalRateSample => Sys2Proof.Machine.execThermalRateSample s
  | .thermalLevelFall d => Sys2Proof.Machine.execThermalLevelFall d s
  | .stageThermalShutdown die => Sys2Proof.Machine.execStageThermalShutdown die s
  | .stageThermalRelease die => Sys2Proof.Machine.execStageThermalRelease die s
  | .coreThermalShutdown turret => Sys2Proof.Machine.execCoreThermalShutdown turret s
  | .faultPairQualify src => Sys2Proof.Machine.execFaultPairQualify src s
  | .faultPairBroken src => Sys2Proof.Machine.execFaultPairBroken src s
  | .faultStateEntry => Sys2Proof.Machine.execFaultStateEntry s
  | .errNPulseEnd => Sys2Proof.Machine.execErrNPulseEnd s
  | .siltRecordWriteDone readBackOk => Sys2Proof.Machine.execSiltRecordWriteDone readBackOk s
  | .turretSupplyLow => Sys2Proof.Machine.execTurretSupplyLow s
  | .siltCopyGo => Sys2Proof.Machine.execSiltCopyGo s
  | .siltCopyDone => Sys2Proof.Machine.execSiltCopyDone s
  | .siltErase => Sys2Proof.Machine.execSiltErase s
  | .freezeNFall => Sys2Proof.Machine.execFreezeNFall s
  | .freezeEntry q => Sys2Proof.Machine.execFreezeEntry q s
  | .freezeLimitExpiry => Sys2Proof.Machine.execFreezeLimitExpiry s
  | .thawWrite => Sys2Proof.Machine.execThawWrite s
  | .freezeNRise => Sys2Proof.Machine.execFreezeNRise s
  | .thaw nT => Sys2Proof.Machine.execThaw nT s
  | .f3ForcedThaw nT => Sys2Proof.Machine.execF3ForcedThaw nT s
  | .extest => Sys2Proof.Machine.execExtest s
  | .samplePreload => Sys2Proof.Machine.execSamplePreload s
  | .idcode => Sys2Proof.Machine.execIdcode s
  | .bypass code => Sys2Proof.Machine.execBypass code s
  | .dbgAddr addr => Sys2Proof.Machine.execDbgAddr addr s
  | .dbgRead => Sys2Proof.Machine.execDbgRead s
  | .dbgHalt e => Sys2Proof.Machine.execDbgHalt e s
  | .dbgHaltDeferralEnd e => Sys2Proof.Machine.execDbgHaltDeferralEnd e s
  | .dbgResume e => Sys2Proof.Machine.execDbgResume e s
  | .dbgStep e => Sys2Proof.Machine.execDbgStep e s
  | .dbgThaw => Sys2Proof.Machine.execDbgThaw s
  | .dbgStat => Sys2Proof.Machine.execDbgStat s
  | .ringFrameSend => Sys2Proof.Machine.execRingFrameSend s
  | .ringFrameAccept port f intact arrivePs => Sys2Proof.Machine.execRingFrameAccept port f intact arrivePs s
  | .ringJoin => Sys2Proof.Machine.execRingJoin s
  | .ringPortDown port => Sys2Proof.Machine.execRingPortDown port s
  | .ringPortUp port => Sys2Proof.Machine.execRingPortUp port s
  | .notOnRing => Sys2Proof.Machine.execNotOnRing s
  | .slavingLost => Sys2Proof.Machine.execSlavingLost s
  | .standbyTakeover => Sys2Proof.Machine.execStandbyTakeover s
  | .headwaterLost => Sys2Proof.Machine.execHeadwaterLost s
  | .otpRead value => Sys2Proof.Machine.execOtpRead value s
  | .burnBlock value => Sys2Proof.Machine.execBurnBlock value s
  | .marginScan value => Sys2Proof.Machine.execMarginScan value s
  | .reburnWeak value => Sys2Proof.Machine.execReburnWeak value s
  | .otpCommandDone cells => Sys2Proof.Machine.execOtpCommandDone cells s
  | .keyLoad => Sys2Proof.Machine.execKeyLoad s
  | .imageCheckAnswer => Sys2Proof.Machine.execImageCheckAnswer s
  | .unlockExpiry => Sys2Proof.Machine.execUnlockExpiry s
  | .twStatus pec => Sys2Proof.Machine.execTwStatus pec s
  | .twLastResult pec => Sys2Proof.Machine.execTwLastResult pec s
  | .twRegRead off pec => Sys2Proof.Machine.execTwRegRead off pec s
  | .twSiltRead seq pec => Sys2Proof.Machine.execTwSiltRead seq pec s
  | .twRequestStandby pec => Sys2Proof.Machine.execTwRequestStandby pec s
  | .twRequestShip pec => Sys2Proof.Machine.execTwRequestShip pec s
  | .twRequestStandbyExit pec => Sys2Proof.Machine.execTwRequestStandbyExit pec s
  | .twReset confirm pec => Sys2Proof.Machine.execTwReset confirm pec s
  | .twStretchTimeout => Sys2Proof.Machine.execTwStretchTimeout s
  | .twBusTimeout => Sys2Proof.Machine.execTwBusTimeout s
  | .gnssSearchReopen port => Sys2Proof.Machine.execGnssSearchReopen port s
  | .portOut e a port => Sys2Proof.Machine.execPortOut e a port s
  | .coreThermalRelease turret => Sys2Proof.Machine.execCoreThermalRelease turret s
  | .faultPairCleared src => Sys2Proof.Machine.execFaultPairCleared src s
  | .siltEraseDone => Sys2Proof.Machine.execSiltEraseDone s
  | .turretSupplyReturn => Sys2Proof.Machine.execTurretSupplyReturn s
  | .configSpaceWrite ctl conf => Sys2Proof.Machine.execConfigSpaceWrite ctl conf s

end Sys2Proof.Machine
end

