-- ==== Sys2Proof/Machine/Tick.lean ====
section
/-! DEFINITION. The passing of one tick of 5 ns, which is what a step does on an empty queue (assumption 1). -/

namespace Sys2Proof.Machine

/-- ON_TIME of Table 11.4 over one tick of the state clock: every channel whose output is driven counts it. -/
def State.onTimeTick (s : State) : State :=
  { s with chan := Vector.ofFn fun c =>
      let h := s.ch c
      if s.driven c then { h with cnt := { h.cnt with onTime := h.cnt.onTime + 1 } } else h }

/-- The channels in limp that take an idle spare after everything else of the tick (R249). -/
def State.limpOffers (s : State) : State :=
  if s.chan.toList.any (·.limp) then forAll allSpires (fun p t => t.limpTakes p) s else s

/-- One tick of 5 ns: outside time moves on, and the tick base moves on while the state clock makes edges (R85, R409). Requests
that have come up are noted (Table 11.5), and Q18 and Q19 start a descriptor whose predecessor has completed (R271). What else
falls due at a tick is a command of its own. -/
def tickPass (s : State) : State :=
  let s := { s with tick := { s.tick with wall := s.tick.wall + 1 } }
  if s.clockOn then
    let s := s.limpOffers.onTimeTick
    let s := { s with tick := { s.tick with now := s.tick.now + 1 } }
    (s.noteRequests.startFetched 18).startFetched 19
  else s

end Sys2Proof.Machine
end

