-- ==== Sys2Proof/Safety.lean ====
section
/-! DEFINITION. What a well-kept state of the module is, and the few shapes of change in which the statements say what a
command does and what it leaves alone. -/

namespace Sys2Proof.Machine

/-- The register file and every engine's data RAM are in canonical form. -/
def State.Canonical (s : State) : Prop :=
  wordsWf regReset s.regs = true ∧ ∀ e : Eng, memWf s.eng[e].dram = true

/-- A step that neither stops nor refuses. -/
def State.Runs (s : State) : Prop := ∃ t, step s = .next t

/-! ### Engines -/

/-- Engine `e` can issue an instruction, no locked sequence is open, and the instruction is not the last word of its code. -/
structure State.Free (s : State) (e : Eng) : Prop where
  issue : s.canIssue e = true
  unlocked : s.eng[e].lock = none
  inside : s.eng[e].pc + 4 < s.eng[e].codeLen

/-- Nothing but engine `e` differs. -/
structure OnlyEng (s t : State) (e : Eng) : Prop where
  others : ∀ k : Eng, k ≠ e → t.eng[k] = s.eng[k]
  rest : { t with eng := s.eng } = s

/-- Cycles that an instruction of engine `x` takes: its own, and one of load-use stall where it reads the register that the
load just before it wrote (R142). -/
def Engine.cyclesOf (x : Engine) (reads : List GReg) (cyc : Nat) : Nat :=
  cyc + match x.lastLoad with
    | some r => if reads.contains r then 1 else 0
    | none => 0

/-- What a computing instruction does: register `d` takes `v`, unless it is g0, which reads 0 before and after; the bits of `fl`
are set in FLAGS; ACC becomes `acc`; PC moves on one word; and nothing else of the module changes, data RAM included. -/
structure Computed (s t : State) (e : Eng) (reads : List GReg) (cyc : Nat) (d : GReg) (v : W32) (fl : BitVec 5) (acc : W64) :
    Prop where
  only : OnlyEng s t e
  result : d ≠ 0 → t.eng[e].getG d = v
  zero : t.eng[e].getG 0 = 0
  regs : ∀ r : GReg, r ≠ d → t.eng[e].getG r = s.eng[e].getG r
  flags : t.eng[e].flags = s.eng[e].flags ||| fl
  acc : t.eng[e].acc = acc
  pc : t.eng[e].pc = s.eng[e].pc + 4
  cycles : t.eng[e].wdog = s.eng[e].wdog + s.eng[e].cyclesOf reads cyc
  same : { t.eng[e] with g := s.eng[e].g, flags := s.eng[e].flags, acc := s.eng[e].acc, pc := s.eng[e].pc,
                         wdog := s.eng[e].wdog, lastLoad := s.eng[e].lastLoad } = s.eng[e]

/-- What a branch or jump does: PC becomes `pc`, g31 takes the return address where the instruction links, and nothing else
changes. -/
structure Jumped (s t : State) (e : Eng) (reads : List GReg) (cyc : Nat) (pc : Nat) (link : Option W32) : Prop where
  only : OnlyEng s t e
  pc : t.eng[e].pc = pc
  link31 : ∀ v, link = some v → t.eng[e].getG 31 = v
  regs : ∀ r : GReg, (link = none ∨ r ≠ 31) → t.eng[e].getG r = s.eng[e].getG r
  cycles : t.eng[e].wdog = s.eng[e].wdog + s.eng[e].cyclesOf reads cyc
  same : { t.eng[e] with g := s.eng[e].g, pc := s.eng[e].pc, wdog := s.eng[e].wdog, lastLoad := s.eng[e].lastLoad } = s.eng[e]

/-- Engine `e` serves channel `c` and holds its present epoch: the fence passes what it writes (R146). -/
structure State.Serving (s : State) (e : Eng) (c : Ch) : Prop where
  serves : s.serves e = some c
  epoch : s.eng[e].epoch = (s.ch c).epoch

/-- The event store has room for several more entries, and F0 events are stored (R286). -/
structure State.Room (s : State) : Prop where
  space : s.hp.events.length + 8 ≤ 256
  f0 : s.flag R.HP_EVT_CFG_F0_EN = true

/-- An event raised in this command stands in the event store. -/
def Stored (s t : State) (code : BitVec 16) (cls : BitVec 2) (data : W32) : Prop :=
  (⟨s.tick.now, data, code, cls⟩ : Evt) ∈ t.hp.events

/-- What an exception does (R159): the engine stops before the instruction changes anything, CH_ENG_STAT takes the cause and the
word index, event 0x62 tells the channel, the cause and the imm16 of a TRAP, and no other engine and no channel changes. -/
structure Excepted (s t : State) (e : Eng) (cause : BitVec 4) (imm : Nat) : Prop where
  stopped : t.eng[e].running = false
  code : t.eng[e].exc = cause
  index : t.eng[e].excPc = BitVec.ofNat 11 (s.eng[e].pc / 4)
  regs : t.eng[e].g = s.eng[e].g
  acc : t.eng[e].acc = s.eng[e].acc
  flags : t.eng[e].flags = s.eng[e].flags
  pc : t.eng[e].pc = s.eng[e].pc
  dram : t.eng[e].dram = s.eng[e].dram
  others : ∀ k : Eng, k ≠ e → t.eng[k] = s.eng[k]
  chan : t.chan = s.chan
  units : t.units = s.units
  event : s.Room → Stored s t (spireCode (spireOfEng e) 0x62) 0
    (BitVec.ofNat 32 (s.eng[e].evtChan e + cause.toNat * 256 + imm * 65536))

/-- The engine of a state reads its registers. -/
abbrev State.r (s : State) (e : Eng) (r : GReg) : W32 := s.eng[e].getG r

/-! ### Descriptors -/

/-- The slot of the descriptor that ring `q` starts next: the one before `Qn_CI`. -/
def State.lastSlot (s : State) (q : Ring) : Nat := ((s.hp.rings[q]).ci + s.ringSize q - 1) % s.ringSize q

/-- Ring `q` can start a descriptor, and one with opcode `op` passes the checks of R276. -/
def State.Takes (s : State) (q : Ring) (op : Byte) (d : Desc) : Prop := s.canStart q = true ∧ s.descCheck q op.toNat d = none

/-- A command entry with TAG, STATUS and INFO is held last for the completion ring of ring `q` (Table 10.9, R278); a stalled spire
keeps it in its store of 1,024 entries instead (R258). -/
def Answered (s t : State) (q : Ring) (d : Desc) (status : Byte) (info : W64) : Prop :=
  let e : Entry := .cmd info d.tag (s.hp.rings[q]).ci status q
  match s.stalledRq (s.rqOf q) with
  | none => t.hp.cq[s.cqOf q] = s.hp.cq[s.cqOf q] ++ [⟨s.rqOf q, e, s.now⟩]
  | some p => t.hp.cq[s.cqOf q] = s.hp.cq[s.cqOf q] ∧
      (t.spire[p]).store = if (s.spire[p]).store.length < 1024 then (s.spire[p]).store ++ [e] else (s.spire[p]).store

/-- The descriptor waits among those that ring `q` has accepted, and no entry is written yet (R271). -/
def Accepted (s t : State) (q : Ring) (op : Byte) (d : Desc) : Prop :=
  (t.hp.rings[q]).pend = (s.hp.rings[q]).pend ++ [⟨op, d.tag, s.lastSlot q, (s.hp.rings[q]).ci⟩] ∧ (t.hp.rings[q]).exec = none ∧
  t.hp.cq = s.hp.cq

/-- No lent buffer is in use: nothing copies, streams, snapshots or receives into one. -/
structure State.LendsIdle (s : State) : Prop where
  silt : s.silt.copy = none
  stream : s.flag R.EDDY_STRM_EN = false
  copies : s.arb.copies = []
  snaps : s.arb.snaps = []
  images : s.arb.images = []
  recvs : s.rv.recvs = []
  data : s.arb.data = []

end Sys2Proof.Machine
end

