-- ==== Sys2Proof/Certificates/Slice0/Obligations.lean ====
section
/-! DEFINITION. The statements for the provers. -/

open Sys2Proof Sys2Proof.Machine

/-! ### Control engines: Frajan instructions (06_control_engines.md) -/

/-- R142, Table 06.3, ALU group: each instruction writes its result to d, takes one cycle, and changes nothing else.

R142, Table 06.3, immediate group. -/
def Obligations.AluAndImmediateInstructionsCompute : Prop :=
  (∀ (s : State) (e : Eng) (d a b : GReg), s.Free e →
    let A := s.r e a
    let B := s.r e b
    let n := B.toNat % 32
    let does (i : Instr) (reads : List GReg) (v : W32) (fl : BitVec 5) : Prop :=
      ∃ t, exec i s = .next t ∧ Computed s t e reads 1 d v fl s.eng[e].acc
    let lt (p : Bool) : W32 := if p then 1 else 0
    let sat (x : Int) : W32 := if 2147483647 < x then 0x7FFFFFFF else if x < -2147483648 then 0x80000000 else BitVec.ofInt 32 x
    let out (x : Int) : BitVec 5 := if 2147483647 < x ∨ x < -2147483648 then 1 else 0
    does (.add e d a b) [a, b] (A + B) 0 ∧ does (.sub e d a b) [a, b] (A - B) 0 ∧
    does (.and e d a b) [a, b] (A &&& B) 0 ∧ does (.or e d a b) [a, b] (A ||| B) 0 ∧
    does (.xor e d a b) [a, b] (A ^^^ B) 0 ∧ does (.shl e d a b) [a, b] (A <<< n) 0 ∧
    does (.shr e d a b) [a, b] (A >>> n) 0 ∧ does (.sar e d a b) [a, b] (A.sshiftRight n) 0 ∧
    does (.adds e d a b) [a, b] (sat (A.toInt + B.toInt)) (out (A.toInt + B.toInt)) ∧
    does (.subs e d a b) [a, b] (sat (A.toInt - B.toInt)) (out (A.toInt - B.toInt)) ∧
    does (.min e d a b) [a, b] (BitVec.ofInt 32 (Min.min A.toInt B.toInt)) 0 ∧
    does (.max e d a b) [a, b] (BitVec.ofInt 32 (Max.max A.toInt B.toInt)) 0 ∧
    does (.slt e d a b) [a, b] (lt (A.toInt < B.toInt)) 0 ∧ does (.sltu e d a b) [a, b] (lt (A.toNat < B.toNat)) 0 ∧
    does (.abss e d a) [a] (sat A.toInt.natAbs) (out A.toInt.natAbs)) ∧
  (∀ (s : State) (e : Eng) (d a : GReg) (imm : BitVec 16) (sh : Fin 32), s.Free e →
    let A := s.r e a
    let does (i : Instr) (reads : List GReg) (v : W32) : Prop :=
      ∃ t, exec i s = .next t ∧ Computed s t e reads 1 d v 0 s.eng[e].acc
    does (.addi e d a imm) [a] (BitVec.ofInt 32 (A.toInt + imm.toInt)) ∧
    does (.andi e d a imm) [a] (A &&& BitVec.ofNat 32 imm.toNat) ∧
    does (.ori e d a imm) [a] (A ||| BitVec.ofNat 32 imm.toNat) ∧
    does (.xori e d a imm) [a] (A ^^^ BitVec.ofNat 32 imm.toNat) ∧
    does (.lui e d imm) [] (BitVec.ofNat 32 (imm.toNat * 65536)) ∧
    does (.shli e d a sh) [a] (BitVec.ofNat 32 (A.toNat * 2 ^ sh.val)) ∧
    does (.shri e d a sh) [a] (BitVec.ofNat 32 (A.toNat / 2 ^ sh.val)) ∧
    does (.sari e d a sh) [a] (BitVec.ofInt 32 (A.toInt / 2 ^ sh.val)) ∧
    does (.slti e d a imm) [a] (if A.toInt < imm.toInt then 1 else 0))

/-- R142 and R143, Table 06.3, multiply group and reciprocals: products, the accumulator with its saturation, and the
reciprocals with their zero cases, which take 4 cycles. -/
def Obligations.MultiplyInstructionsCompute : Prop :=
  ∀ (s : State) (e : Eng) (d a b : GReg) (sh : Fin 32), s.Free e →
    let A := s.r e a
    let B := s.r e b
    let acc := s.eng[e].acc
    let gives (i : Instr) (reads : List GReg) (cyc : Nat) (v : W32) (fl : BitVec 5) : Prop :=
      ∃ t, exec i s = .next t ∧ Computed s t e reads cyc d v fl acc
    let accs (i : Instr) (reads : List GReg) (v : W64) (fl : BitVec 5) : Prop :=
      ∃ t, exec i s = .next t ∧ Computed s t e reads 1 0 0 fl v
    let sat64 (x : Int) : W64 :=
      if 9223372036854775807 < x then 0x7FFFFFFFFFFFFFFF else if x < -9223372036854775808 then 0x8000000000000000
      else BitVec.ofInt 64 x
    let out64 (x : Int) : BitVec 5 := if 9223372036854775807 < x ∨ x < -9223372036854775808 then 1 else 0
    let sat32 (x : Int) : W32 :=
      if 2147483647 < x then 0x7FFFFFFF else if x < -2147483648 then 0x80000000 else BitVec.ofInt 32 x
    let out32 (x : Int) : BitVec 5 := if 2147483647 < x ∨ x < -2147483648 then 1 else 0
    gives (.mul e d a b) [a, b] 1 (BitVec.ofInt 32 (A.toInt * B.toInt)) 0 ∧
    gives (.mulh e d a b) [a, b] 1 (BitVec.ofInt 32 (A.toInt * B.toInt / 2 ^ 32)) 0 ∧
    gives (.mulhu e d a b) [a, b] 1 (BitVec.ofNat 32 (A.toNat * B.toNat / 2 ^ 32)) 0 ∧
    accs (.mac e a b) [a, b] (sat64 (acc.toInt + A.toInt * B.toInt)) (out64 (acc.toInt + A.toInt * B.toInt)) ∧
    accs (.msu e a b) [a, b] (sat64 (acc.toInt - A.toInt * B.toInt)) (out64 (acc.toInt - A.toInt * B.toInt)) ∧
    accs (.macz e a b) [a, b] (BitVec.ofInt 64 (A.toInt * B.toInt)) 0 ∧
    gives (.mfa e d sh) [] 1 (sat32 (roundDiv acc.toInt (2 ^ sh.val : Nat))) (out32 (roundDiv acc.toInt (2 ^ sh.val : Nat))) ∧
    gives (.mfah e d) [] 1 (BitVec.ofNat 32 (acc.toNat / 2 ^ 32)) 0 ∧
    accs (.mta e a) [a] (BitVec.ofInt 64 A.toInt) 0 ∧
    accs (.mtah e a b) [a, b] (BitVec.ofNat 64 (A.toNat * 2 ^ 32 + B.toNat)) 0 ∧
    (A = 0 → gives (.rcp e d a) [a] 4 0xFFFFFFFF 3 ∧ gives (.rcps e d a) [a] 4 0x7FFFFFFF 3) ∧
    (A = 1 → gives (.rcp e d a) [a] 4 0xFFFFFFFF 1) ∧
    (2 ≤ A.toNat → gives (.rcp e d a) [a] 4 (BitVec.ofNat 32 ((2 ^ 33 + A.toNat) / (2 * A.toNat))) 0) ∧
    (A ≠ 0 → gives (.rcps e d a) [a] 4 (sat32 (roundDiv (2 ^ 31) A.toInt)) (out32 (roundDiv (2 ^ 31) A.toInt)))

/-- R142, Table 06.3, loads and stores at an address that Table 06.7 allows: a load reads `size` bytes, low byte first; a store
writes them at the computed address and leaves every other byte of data RAM alone. -/
def Obligations.LoadsAndStoresMoveBytes : Prop :=
  ∀ (s : State) (e : Eng) (d a : GReg) (imm : BitVec 16), s.Free e →
    let ad := (s.r e a + BitVec.ofInt 32 imm.toInt).toNat
    let m := s.eng[e].dram
    let ok (size : Nat) : Prop := ad % size = 0 ∧ ad ≤ 0x1FFF
    let loads (i : Instr) (v : W32) : Prop :=
      ∃ t, exec i s = .next t ∧ Computed s t e [a] 1 d v 0 s.eng[e].acc ∧
        t.eng[e].lastLoad = if d = 0 then none else some d
    let stores (i : Instr) (size : Nat) : Prop :=
      ∃ t, exec i s = .next t ∧ OnlyEng s t e ∧ t.eng[e].pc = s.eng[e].pc + 4 ∧
        t.eng[e].wdog = s.eng[e].wdog + s.eng[e].cyclesOf [a, d] 1 ∧
        (∀ k, k < size → memGet t.eng[e].dram (ad + k) = BitVec.ofNat 8 ((s.r e d).toNat / 256 ^ k)) ∧
        (∀ x, (x < ad ∨ ad + size ≤ x) → memGet t.eng[e].dram x = memGet m x) ∧
        { t.eng[e] with dram := m, pc := s.eng[e].pc, wdog := s.eng[e].wdog, lastLoad := s.eng[e].lastLoad } = s.eng[e]
    let h := (memGet m ad).toNat + 256 * (memGet m (ad + 1)).toNat
    (ok 4 → loads (.lw e d a imm) (memGet m (ad + 3) ++ memGet m (ad + 2) ++ memGet m (ad + 1) ++ memGet m ad)) ∧
    (ok 2 → loads (.lh e d a imm) ((BitVec.ofNat 16 h).signExtend 32) ∧ loads (.lhu e d a imm) (BitVec.ofNat 32 h)) ∧
    (ok 1 → loads (.lb e d a imm) ((memGet m ad).signExtend 32) ∧ loads (.lbu e d a imm) ((memGet m ad).zeroExtend 32)) ∧
    (ok 4 → stores (.sw e d a imm) 4) ∧ (ok 2 → stores (.sh e d a imm) 2) ∧ (ok 1 → stores (.sb e d a imm) 1)

/-- R142, Table 06.3, branches and jumps: a taken branch or a jump whose target lies in the code goes there in 2 cycles; a branch
not taken goes on in 1; JAL leaves the return address in g31. -/
def Obligations.BranchesAndJumpsGoToTheirTarget : Prop :=
  ∀ (s : State) (e : Eng) (a b : GReg) (off : BitVec 16) (far : BitVec 26), s.Free e →
    let A := s.r e a
    let B := s.r e b
    let pc := s.eng[e].pc
    let target (o : Int) : Nat := (BitVec.ofInt 32 (pc + 4 + 4 * o)).toNat
    let inCode (p : Nat) : Prop := p % 4 = 0 ∧ p < s.eng[e].codeLen
    let goes (i : Instr) (reads : List GReg) (cyc p : Nat) (link : Option W32) : Prop :=
      ∃ t, exec i s = .next t ∧ Jumped s t e reads cyc p link
    let branch (i : Instr) (p : Prop) : Prop :=
      (p → inCode (target off.toInt) → goes i [a, b] 2 (target off.toInt) none) ∧ (¬p → goes i [a, b] 1 (pc + 4) none)
    branch (.beq e a b off) (A = B) ∧ branch (.bne e a b off) (A ≠ B) ∧
    branch (.blt e a b off) (A.toInt < B.toInt) ∧ branch (.bge e a b off) (B.toInt ≤ A.toInt) ∧
    branch (.bltu e a b off) (A.toNat < B.toNat) ∧ branch (.bgeu e a b off) (B.toNat ≤ A.toNat) ∧
    (inCode (target far.toInt) → goes (.j e far) [] 2 (target far.toInt) none) ∧
    (inCode (target far.toInt) → goes (.jal e far) [] 2 (target far.toInt) (some (BitVec.ofNat 32 (pc + 4)))) ∧
    (inCode A.toNat → goes (.jr e a) [a] 2 A.toNat none)

/-- Tables 06.2 and 06.3: the word of every instruction decodes to it, and every word that decodes is the word of what it decodes to:
no bit of an encoding is dropped and no illegal word is taken. -/
def Obligations.FrajanWordsRoundTrip : Prop :=
  (∀ (i : Frajan) (w : W32), encodeFrajan i = some w → decodeFrajan w = some i) ∧
  (∀ (w : W32) (i : Frajan), decodeFrajan w = some i → encodeFrajan i = some w)

/-- R159, R160, R141 and R157, Table 06.7: an exception stops the engine before the instruction changes anything. The causes: an
illegal word, a TRAP, the watchdog, a misaligned address, one above 0x1FFF, a jump outside the code, a port that the access misuses,
and, with a locked sequence open, a write of another register, of ACC or of memory, an OUT, a WAIT, a CKPT, a LOCK or a TRAP. -/
def Obligations.ExceptionsStopTheEngine : Prop :=
  ∀ (s : State) (e : Eng) (d a b : GReg) (imm port : BitVec 16), s.canIssue e = true → s.eng[e].role ≠ .deposed →
    let ad := (s.r e a + BitVec.ofInt 32 imm.toInt).toNat
    let A := (s.r e a).toNat
    let stops (i : Instr) (cause : BitVec 4) (n : Nat) : Prop := ∃ t, exec i s = .next t ∧ Excepted s t e cause n
    (∀ w, decodeFrajan w = none → stops (.illegalInstruction e w) 1 0) ∧
    (400000 ≤ s.eng[e].wdog → stops (.engineWatchdog e) 7 0) ∧
    (s.eng[e].lock = none →
      stops (.trap e imm) 8 imm.toNat ∧
      (ad % 4 ≠ 0 → stops (.lw e d a imm) 3 0 ∧ stops (.sw e d a imm) 3 0) ∧
      (ad % 2 ≠ 0 → stops (.lh e d a imm) 3 0 ∧ stops (.lhu e d a imm) 3 0 ∧ stops (.sh e d a imm) 3 0) ∧
      (0x1FFF < ad → stops (.lb e d a imm) 4 0 ∧ stops (.lbu e d a imm) 4 0 ∧ stops (.sb e d a imm) 4 0) ∧
      (A % 4 ≠ 0 ∨ s.eng[e].codeLen ≤ A → stops (.jr e a) 2 0) ∧
      (portInfo port.toNat = none → stops (.portIn e d port) 5 0 ∧ stops (.portOut e a port) 5 0) ∧
      (a = b ∨ a = 0 ∨ b = 0 → stops (.lock e a b) 1 0)) ∧
    (∀ l, s.eng[e].lock = some l →
      (d ≠ 0 → d ≠ l.ga → d ≠ l.gb → stops (.add e d a b) 6 0 ∧ stops (.lui e d imm) 6 0 ∧ stops (.lw e d a imm) 6 0 ∧
        stops (.portIn e d port) 6 0) ∧
      stops (.mac e a b) 6 0 ∧ stops (.mta e a) 6 0 ∧ stops (.sw e d a imm) 6 0 ∧ stops (.outDuty e a) 6 0 ∧
      stops (.portOut e a port) 6 0 ∧ stops (.wait e d imm) 6 0 ∧ stops (.ckpt e) 6 0 ∧ stops (.trap e imm) 6 0 ∧
      (a ≠ b → a ≠ 0 → b ≠ 0 → stops (.lock e a b) 6 0))

/-- R144, Table 06.4: what IN returns from the ports of the engine and of the channel that it serves, at the cycles of the table;
nothing but d changes. TICK_L latches the upper half of the tick base into TICK_H.

R145: a P read removes and returns the oldest entry of its FIFO and clears EMPTY; from an empty FIFO it returns 0 and sets
EMPTY. For an engine that runs no standard program. -/
def Obligations.PortReadsAndPops : Prop :=
  (∀ (s : State) (e : Eng) (d : GReg) (c : Ch), s.Free e → s.serves e = some c →
    let x := s.eng[e]
    let h := s.ch c
    let reads (port : BitVec 16) (cyc : Nat) (v : W32) : Prop :=
      ∃ t, exec (.portIn e d port) s = .next t ∧ Computed s t e [] cyc d v 0 x.acc
    reads 0x000 1 (x.flags.zeroExtend 32) ∧ reads 0x001 1 (BitVec.ofNat 32 c.val) ∧ reads 0x002 1 (x.epoch.zeroExtend 32) ∧
    reads 0x003 1 (match x.role with | .home => 0 | .idle => 1 | .ctl => 2 | .deposed => 3) ∧
    reads 0x005 2 x.tickH ∧
    reads 0x010 2 (BitVec.ofInt 32 h.smp.i) ∧ reads 0x011 2 (BitVec.ofInt 32 h.smp.v) ∧
    reads 0x012 2 (h.smp.sns.zeroExtend 32) ∧ reads 0x014 2 (BitVec.ofNat 32 h.smp.tick) ∧ reads 0x015 2 h.smp.seq ∧
    reads 0x018 2 h.smp.dly ∧ reads 0x019 2 h.smp.dlySeq ∧
    reads 0x021 2 (BitVec.ofNat 32 h.istrm.length) ∧ reads 0x023 2 (BitVec.ofNat 32 h.vstrm.length) ∧
    reads 0x025 2 (BitVec.ofNat 32 h.snse.length) ∧
    reads 0x03D 2 ((s.units[bndUnit c]).target.extractLsb' 0 32) ∧
    reads 0x03E 2 ((s.units[bndUnit c]).target.extractLsb' 32 32) ∧ reads 0x03F 2 (s.units[bndUnit c]).ctrl ∧
    (∀ k, k < 64 → reads (BitVec.ofNat 16 (0x040 + k)) 4 (h.prm.getD k 0)) ∧ reads 0x080 4 h.prmSeq ∧
    (∃ t, exec (.inTickL e d) s = .next t ∧ (d ≠ 0 → t.eng[e].getG d = s.tick.now.extractLsb' 0 32) ∧
      t.eng[e].tickH = s.tick.now.extractLsb' 32 32 ∧ t.eng[e].pc = x.pc + 4 ∧ OnlyEng s t e)) ∧
  (∀ (s : State) (e : Eng) (d : GReg) (c : Ch), s.Free e → s.serves e = some c → s.stdProg e = none → d ≠ 0 →
    let h := s.ch c
    let pops (port : BitVec 16) (l : List W32) (set : List W32 → Chan) : Prop :=
      (∀ w rest, l = w :: rest →
        ∃ t, exec (.inPop e d port) s = .next t ∧ t.eng[e].getG d = w ∧ t.ch c = set rest ∧
          t.eng[e].flags = s.eng[e].flags &&& 0x17 ∧ t.eng[e].pc = s.eng[e].pc + 4 ∧ (∀ k, k ≠ c → t.ch k = s.ch k)) ∧
      (l = [] →
        ∃ t, exec (.inPop e d port) s = .next t ∧ t.eng[e].getG d = 0 ∧ t.chan = s.chan ∧
          t.eng[e].flags = (s.eng[e].flags &&& 0x17) ||| 8 ∧ t.eng[e].pc = s.eng[e].pc + 4)
    pops 0x020 h.istrm (fun r => { h with istrm := r }) ∧ pops 0x022 h.vstrm (fun r => { h with vstrm := r }) ∧
    pops 0x024 h.snse (fun r => { h with snse := r }))

/-- Table 06.4, R152 and R154: OUT to the ports that the Weir does not judge as duties. FLAGS clears the bits written 1; TMR counts
the written ticks or is cancelled by 0; TRACE takes a word into the open record, a sixth being discarded, and TRACE_END closes it;
BND_LAT and SMP_PER set the channel's latency and sample period. For an engine that runs no standard program. -/
def Obligations.PortWritesSetThePort : Prop :=
  ∀ (s : State) (e : Eng) (a : GReg) (c : Ch), s.Free e → s.Serving e c → s.stdProg e = none →
    let A := s.r e a
    let x := s.eng[e]
    let p := max 1000 (min A.toNat 200000)
    (∃ t, exec (.outFlags e a) s = .next t ∧ OnlyEng s t e ∧ t.eng[e].flags = x.flags &&& ~~~(A.extractLsb' 0 5) ∧
      t.eng[e].g = x.g ∧ t.eng[e].pc = x.pc + 4) ∧
    (∃ t, exec (.outTmr e a) s = .next t ∧ OnlyEng s t e ∧ t.eng[e].tmr = (if A = 0 then none else some (s.now + A.toNat)) ∧
      t.eng[e].g = x.g ∧ t.eng[e].pc = x.pc + 4) ∧
    (∃ t, exec (.outTrace e a) s = .next t ∧ OnlyEng s t e ∧
      t.eng[e].trace = (if x.trace.length < 5 then x.trace ++ [A] else x.trace) ∧ t.eng[e].pc = x.pc + 4) ∧
    (∃ t, exec (.outTraceEnd e a) s = .next t ∧ t.eng[e].trace = [] ∧ t.chan = s.chan ∧ t.eng[e].pc = x.pc + 4 ∧
      (x.eddy.recs.length < 128 → x.eddy.copying = false → x.eddy.holding = false → x.eddy.trig ≠ 3 →
        t.eng[e].eddy.recs = x.eddy.recs ++ [s.eddyRec e x.trace])) ∧
    (∃ t, exec (.outBndLat e a) s = .next t ∧ t.reg (R.CH_BND_LAT c) = BitVec.ofNat 32 (min A.toNat 40000000) ∧
      t.flag (R.CH_ENG_STAT_LAT_ENGINE c) = true ∧ t.eng[e].flags = x.flags &&& 0x1B ∧ t.chan = s.chan ∧
      t.eng[e].pc = x.pc + 4) ∧
    (s.flag (R.CH_STAGE_CFG_ENABLE c) = false →
      ∃ t, exec (.outSmpPer e a) s = .next t ∧ (t.units[smpUnit c]).period = BitVec.ofNat 32 p ∧
        (∀ u : CUnit, u ≠ smpUnit c → t.units[u] = s.units[u]) ∧ t.chan = s.chan ∧ t.eng[e].pc = x.pc + 4) ∧
    (∃ t, exec (.portOut e a 0x000) s = .next t ∧ exec (.outFlags e a) s = .next t) ∧
    (∃ t, exec (.portOut e a 0x030) s = .next t ∧ exec (.outDuty e a) s = .next t)

/-- R146, R149, R150 and R151: the Weir forwards a plausible duty of the engine that holds the channel's epoch, which reaches the
stage die 12 ticks later and meets the deadline of the sample taken; DUTY_HOLD repeats the last accepted on-time; an implausible duty
is refused, counted and reported; and a duty with another epoch is refused and counted. For an engine that runs no standard program
and a channel that no trim touches.

R150: which duty words the Weir takes as implausible, with the two words that the spec works out. -/
def Obligations.TheWeirJudgesDuties : Prop :=
  (∀ (s : State) (e : Eng) (a : GReg) (c : Ch), s.Free e → s.serves e = some c → s.stdProg e = none → s.eng[e].role ≠ .deposed →
    s.flag (R.CH_ENG_CTRL_RUN c) = true → s.mode.fault = false → (s.ch c).copying = none → (s.ch c).manual = none →
    s.eng[e].stepping = false →
    (s.reg (R.BUD_TRIM (c.val / 32))).getLsbD (c.val % 32) = false →
    let w := s.r e a
    let x := s.eng[e]
    let answers := if x.took then some (x.tookSeq, x.tookInst) else none
    let forwards (i : Instr) (on : Int) : Prop :=
      ∃ t, exec i s = .next t ∧ (t.ch c).lastOn = on ∧
        (t.ch c).flight = (s.ch c).flight ++ [⟨on, s.now + 12, answers⟩] ∧
        (x.took = true → x.tookSeq = (s.ch c).smp.seq → (t.ch c).dueMet = true) ∧
        t.eng[e].flags = x.flags &&& 0x1B ∧ t.eng[e].pc = x.pc + 4 ∧ t.regs = s.regs
    (x.epoch = (s.ch c).epoch →
      (s.implausible c w = false → forwards (.outDuty e a) (w.extractLsb' 0 24).toInt) ∧
      forwards (.outDutyHold e a) (s.ch c).lastOn ∧
      (s.implausible c w = true →
        ∃ t, exec (.outDuty e a) s = .next t ∧ (t.ch c).lastOn = (s.ch c).lastOn ∧ (t.ch c).flight = (s.ch c).flight ∧
          (s.Room → Stored s t (chCode c 0x61) 0 (BitVec.ofNat 32 c.val)))) ∧
    (x.epoch ≠ (s.ch c).epoch →
      ∃ t, exec (.outDuty e a) s = .next t ∧ t.chan = s.chan ∧ t.eng[e].flags = (x.flags &&& 0x1B) ||| 4 ∧
        t.get (R.CH_ENG_CNT_FENCED c) = min (s.get (R.CH_ENG_CNT_FENCED c) + 1) 255 ∧ t.eng[e].pc = x.pc + 4)) ∧
  ((∀ (s : State) (c : Ch) (w : W32),
    let on := (w.extractLsb' 0 24).toInt
    let chk := ~~~(w.extractLsb' 0 8 ^^^ w.extractLsb' 8 8 ^^^ w.extractLsb' 16 8)
    s.implausible c w = true ↔
      (w.extractLsb' 24 8 ≠ chk ∨ 8 * s.pwmP c < on.natAbs ∨ (on < 0 ∧ s.isBridgeLead c = false) ∨
        ((s.ch c).slot.dslew ≠ 0 ∧ (s.ch c).slot.dslew < (on - (s.ch c).lastOn).natAbs))) ∧
  dutyWord 6400 = 0xE6001900 ∧ dutyWord (-6400) = 0xE7FFE700 ∧
  (∀ on : Int, -8388608 ≤ on → on ≤ 8388607 →
    dutyOn (dutyWord on) = on ∧ (dutyWord on).extractLsb' 24 8 = dutyChk (dutyWord on)))

/-- R147: a WAIT with an event of its mask pending returns at once with the events in the mask, which clear; otherwise the engine
sleeps at the WAIT. An event latched later wakes it 2 cycles on. ISTRM and SNSE are latched anew while their FIFOs hold what Table 06.5
asks for. The watchdog starts again at each WAIT (R160). For an engine in control that runs no standard program and that RUN does
not stop.

R155, R157 and Table 06.5: LOCK opens a locked sequence on a proper pair and latches the tick base; UNLOCK ends it; CKPT copies
the checkpoint block to the mirror with SMP_SEQ, the last accepted on-time and the epoch, in 8 + 8 × CKPT_LEN cycles; and the TIMER
event is latched when the TMR count expires. -/
def Obligations.WaitLockCheckpointAndTimer : Prop :=
  (∀ (s : State) (e : Eng) (d : GReg) (mask : BitVec 16), s.stdProg e = none → d ≠ 0 → s.eng[e].role ≠ .deposed →
    s.eng[e].pc + 4 < s.eng[e].codeLen → s.eng[e].lock = none →
    (∀ c, s.serves e = some c → (s.ch c).ctl = some e ∧ (s.ch c).takeover = none) →
    let x := s.eng[e]
    let hit := x.pend &&& mask
    let level : BitVec 16 := match s.serves e with
      | some c => (if s.get (R.CH_ENG_CTRL_ISTRM_THR c) < (s.ch c).istrm.length then 2 else 0) |||
          (if (s.ch c).snse = [] then 0 else 4)
      | none => 0
    let returns (i : Instr) (cyc : Nat) : Prop :=
      ∃ t, exec i s = .next t ∧ t.eng[e].getG d = hit.zeroExtend 32 ∧ t.eng[e].pend = x.pend &&& ~~~hit ||| level ∧
        t.eng[e].asleep = none ∧ t.eng[e].wdog = cyc ∧ t.eng[e].pc = x.pc + 4 ∧ OnlyEng s t e ∧
        (∀ c, s.serves e = some c → hit.getLsbD 0 = true →
          t.eng[e].took = true ∧ t.eng[e].tookSeq = (s.ch c).smp.seq ∧ t.eng[e].tookInst = (s.ch c).smp.tick)
    (s.canIssue e = true → s.stopAtWait e = false →
      (hit ≠ 0 → returns (.wait e d mask) 1) ∧
      (hit = 0 → ∃ t, exec (.wait e d mask) s = .next t ∧ t.eng[e].asleep = some (d, mask) ∧ t.eng[e].pc = x.pc ∧
        t.eng[e].wdog = 0 ∧ t.eng[e].g = x.g ∧ t.eng[e].pend = x.pend ∧ OnlyEng s t e)) ∧
    (x.asleep = some (d, mask) → s.clockOn = true → x.running = true → x.halted = false → x.retired = false →
      (hit ≠ 0 → returns (.waitWake e) 2) ∧ (hit = 0 → exec (.waitWake e) s = .next s))) ∧
  (∀ (s : State) (e : Eng) (a b : GReg),
    let x := s.eng[e]
    (s.Free e → a ≠ b → a ≠ 0 → b ≠ 0 →
      ∃ t, exec (.lock e a b) s = .next t ∧ OnlyEng s t e ∧ t.eng[e].pc = x.pc + 4 ∧ t.eng[e].g = x.g ∧
        ∃ l, t.eng[e].lock = some l ∧ l.ga = a ∧ l.gb = b ∧ l.va = x.getG a ∧ l.vb = x.getG b ∧ l.pc = x.pc ∧
          l.tick = s.tick.now ∧ l.upd = s.course.updTick) ∧
    (s.canIssue e = true → x.pc + 4 < x.codeLen → x.haltPend = none →
      ∃ t, exec (.unlock e) s = .next t ∧ OnlyEng s t e ∧ t.eng[e].lock = none ∧ t.eng[e].g = x.g ∧
        t.eng[e].pc = x.pc + 4) ∧
    (∀ c, s.Free e → s.Serving e c →
      ∃ t, exec (.ckpt e) s = .next t ∧
        (t.ch c).mirror.block = some (memBytes x.dram 0 (32 * (s.ch c).slot.ckptLen)) ∧
        (t.ch c).mirror.smpSeq = x.tookSeq ∧ (t.ch c).mirror.lastOn = (s.ch c).lastOn ∧
        (t.ch c).mirror.epoch = (s.ch c).epoch ∧ (t.ch c).ckptDone = true ∧ (∀ k, k ≠ c → t.ch k = s.ch k) ∧
        t.eng[e].wdog = x.wdog + x.cyclesOf [] (8 + 8 * (s.ch c).slot.ckptLen) ∧ t.eng[e].pc = x.pc + 4) ∧
    (∀ n, x.tmr = some n → s.clockOn = true → n ≤ s.now →
      ∃ t, exec (.engineTimerExpiry e) s = .next t ∧ t.eng[e].pend = x.pend ||| 0x40 ∧ t.eng[e].tmr = none ∧
        t.eng[e].g = x.g ∧ OnlyEng s t e))

/-! ### The machine, its registers and its reads (00_scope.md, 10_host_rings.md, 15_faults_freeze_debug.md, 18_register_map.md) -/

/-- A step takes the command at the front of the queue and runs it on the state with the queue's rest. -/
def Obligations.StepRunsTheFrontCommand : Prop :=
  ∀ (c : Instr) (rest : List Instr) (s : State), step { s with pending := c :: rest } = exec c { s with pending := rest }

/-- The model's choice (assumption 1): on an empty queue a step is one tick of 5 ns. The tick base moves on while the state clock
makes edges and stands in a freeze, in which nothing but outside time changes. -/
def Obligations.AnEmptyQueuePassesOneTick : Prop :=
  ∀ s : State, s.pending = [] →
    (s.clockOn = false → step s = .next { s with tick := { s.tick with wall := s.tick.wall + 1 } }) ∧
    (s.clockOn = true → (∀ c : Ch, (s.ch c).limp = false) → (s.hp.rings[18]).fetched = [] → (s.hp.rings[19]).fetched = [] →
      ∃ t, step s = .next t ∧ t.tick = { s.tick with wall := s.tick.wall + 1, now := s.tick.now + 1 } ∧ t.regs = s.regs ∧
        t.eng = s.eng ∧ t.mode = s.mode ∧ t.units = s.units ∧
        ∀ c : Ch, t.ch c = { s.ch c with cnt := { (s.ch c).cnt with
          onTime := (s.ch c).cnt.onTime + if s.driven c then 1 else 0 } })

/-- No command stops the module: the spec gives every row an effect or none, and the model answers each with a next state. -/
def Obligations.NoCommandStops : Prop :=
  ∀ (i : Instr) (s : State), ∃ t, exec i s = .next t

/-- The registers and the data RAMs of the reset state are in canonical form.

Reset values of the tables (R39, R479) as BAR0 reads them after a power-on reset: MODE_STATUS, RESET_CAUSE, MODE_KEY, HP_EVT_CFG,
HP_ERR_VEC, ARB_CFG, SNAP_CFG, COURSE_CTRL, COURSE_PRIO, the weights, a system compare's period, CHG_CTRL, CELL_THR, THM, FRZ_CFG, RV_CFG, a
channel's compare controls, and nothing where no register lies. -/
def Obligations.ResetIsAsTheTablesSay : Prop :=
  (State.reset.Canonical) ∧
  ((∀ x ∈ [(0x400, 0x101), (0x404, 1), (0x408, 0x1001E), (0x804, 7), (0x80C, 0x11F), (0x1000, 0x1410), (0x1004, 1), (0x1400, 0x140A00),
      (0x1404, 0x587641), (0x1468, 0x264800C8), (0x1478, 0xFA03E8), (0x1904, 2), (0x2018, 0x3C1E140D), (0x202C, 0x1F4),
      (0x2804, 0x10001), (0x3500, 0x632), (0x3800, 0x2805), (0x4000, 2), (0x8020, 0x800000), (0x8030, 0x42), (0x800, 0), (0x0FC, 0),
      (0x7000, 0)], State.reset.peek x.1 = BitVec.ofNat 32 x.2) ∧
  State.reset.mode.mode = .ship ∧ State.reset.pending = [] ∧ State.reset.now = 0 ∧ State.reset.hp.events = [] ∧
  (∀ e : Eng, State.reset.eng[e] = Engine.reset e) ∧ (∀ c : Ch, State.reset.ch c = Chan.reset c))

/-- R6, R9 and R263, Tables 00.5, 10.3 and 10.16: what a 32-bit host write does. A word without a register takes nothing; RW fields take the
written value, saturated to a stated range; a W1C bit clears on a 1; a write that does not cover its register is counted with event
0x0202; a write to the power blocks waits for the Keep; and in a freeze a write is counted and discarded. -/
def Obligations.HostWritesFollowTheAccessCodes : Prop :=
  ∀ (s : State) (v : W32), s.mode.domeRun = true →
    let writes (a : Nat) (be : BitVec 4) (p : State → Prop) : Prop :=
      ∃ t, exec (.registerWrite (BitVec.ofNat 16 a) [(v, be)]) s = .next t ∧ p t
    let sets (a : Nat) (w : W32) (t : State) : Prop :=
      t.reg a = w ∧ (∀ x, x ≠ a → t.reg x = s.reg x) ∧ { t with regs := s.regs } = s
    (s.mode.frozen = false →
      (∀ a, a % 4 = 0 → a < 0x10000 → regRow a = none → isWide a = false → isHigh a = false → writes a 15 (· = s)) ∧
      (∀ x ∈ [(0x804, 7), (0x80C, 0x11F), (0x1004, 1), (0x101C, 0xFFFFFFFF), (0x110C, 3), (0x1404, 0xFFFFFFFF), (0x1440, 0xFFFFFFFF),
          (0x1458, 0xFFFF), (0x1460, 0x1FFFF), (0x1494, 0xF)],
        let m : W32 := BitVec.ofNat 32 x.2
        writes x.1 15 (sets x.1 ((v &&& m) ||| (s.reg x.1 &&& ~~~m)))) ∧
      writes R.MODE_KEY 15 (fun t => t.get R.MODE_KEY_KEYOFF_DELAY = max 1 (min (v.toNat % 65536) 600) ∧
        t.flag R.MODE_KEY_KEYOFF_STANDBY = v.getLsbD 16 ∧ { t with regs := s.regs } = s) ∧
      writes R.RESET_CAUSE 15 (fun t => t.mode.resetCause = s.mode.resetCause &&& ~~~(v.extractLsb' 0 6) ∧
        { t with mode := s.mode } = s) ∧
      (∀ a, a % 4 = 0 → 0x2000 ≤ a → a < 0x3000 → (regRow a).isSome → isWide a = false → isHigh a = false →
        writes a 15 (fun t => t = { s with keepWrites := s.keepWrites ++ [⟨a, v⟩] })) ∧
      (∀ (a : Nat) (be : BitVec 4), a % 4 = 0 → a < 0x10000 → be ≠ 15 → s.Room →
        writes a be (fun t => t.get R.HP_CNT_PARTIAL = min (s.get R.HP_CNT_PARTIAL + 1) 65535 ∧ Stored s t 0x0202 0 0xFF04 ∧
          t.chan = s.chan ∧ t.eng = s.eng ∧ t.units = s.units ∧ t.keepWrites = s.keepWrites ∧ t.mode = s.mode))) ∧
    (s.mode.frozen = true → ∀ (a : Nat) (be : BitVec 4), a % 4 = 0 → a < 0x10000 → a ≠ R.FRZ_CTRL →
      writes a be (fun t => t.regN R.HP_FRZ_WR = min (s.regN R.HP_FRZ_WR + 1) 0xFFFFFFFF ∧
        (∀ x, x ≠ R.HP_FRZ_WR → t.reg x = s.reg x) ∧ { t with regs := s.regs } = s))

/-- R7: a host write of a word whose RWL fields are locked completes and leaves those fields as they are; and so does the Keep's
application of a write to a power block (R481), with the example of CHG_CTRL. -/
def Obligations.LockedFieldsKeepTheirValue : Prop :=
  ∀ (s : State) (a : Nat) (v : W32) (r : RegRow), s.mode.rwlLocked = true → a % 4 = 0 → a < 0x10000 → regRow a = some r →
    s.mode.domeRun = true →
    (∃ t, exec (.registerWrite (BitVec.ofNat 16 a) [(v, 15)]) s = .next t ∧ t.reg a &&& r.rwl = s.reg a &&& r.rwl) ∧
    (0x2000 ≤ a → a < 0x3000 → (s.keepApply a v).reg a &&& r.rwl = s.reg a &&& r.rwl) ∧
    (s.reg R.CHG_CTRL = 0x3C1E140D → (s.keepApply R.CHG_CTRL 0x3C1E1401).reg R.CHG_CTRL = 0x3C1E140D)

/-- R6, R8 and R10: a read of a word with RC bits returns the word and clears them; a read of a word without changes nothing but the
answer; a 32-bit read of a low half loads the latch of its path with the high half; the high half then returns what was latched,
once, and the live high half after that; and a 64-bit read takes both halves and leaves the latch. R263: a read with fewer byte enables
acts as one of the whole word and returns the bytes enabled. On the host path with the module not frozen.

R415, R418 and Table 15.8: a BAR4 read is a peek, so it changes nothing but the answer. Outside a freeze the window shows its
header, from the mark `FRZN` on, and 0 elsewhere; in a freeze the region at 0x10000 shows BAR0 as it reads. -/
def Obligations.ReadsAnswerAndPeek : Prop :=
  (∀ (s : State) (a : Nat), s.mode.domeRun = true → s.mode.frozen = false → a < 0x10000 →
    let answers (l : List Byte) (t : State) : Prop := t.hp.sent = s.hp.sent ++ [.readReply .host l]
    let bytes (v : W32) : List Byte := [v.extractLsb' 0 8, v.extractLsb' 8 8, v.extractLsb' 16 8, v.extractLsb' 24 8]
    let A := BitVec.ofNat 16 a
    let w := s.liveWord a
    (∀ (r : RegRow) (be : BitVec 4), a % 4 = 0 → isWide a = false → isHigh a = false → regRow a = some r → a ≠ R.EDDY_STAT →
      ∃ t, exec (.rcRead .host ⟨.bar0, A⟩ [be]) s = .next t ∧
        answers (((bytes w).zipIdx.filter fun x => be.getLsbD x.2).map (·.1)) t ∧
        t.reg a = (if r.rc = 0 then s.reg a else s.reg a &&& ~~~r.rc) ∧ (∀ x, x ≠ a → t.reg x = s.reg x) ∧
        { t with regs := s.regs, hp := s.hp } = s) ∧
    (∃ t, exec (.rcRead .host ⟨.bar0, BitVec.ofNat 16 R.EDDY_STAT⟩ [15]) s = .next t ∧
      answers (bytes (s.liveWord R.EDDY_STAT)) t ∧ (t.eng[s.eddySel]).eddy.dropped = 0 ∧ t.regs = s.regs) ∧
    (a % 8 = 0 → isWide a = true →
      let hi := s.liveWord (a + 4)
      ∃ t, exec (.lowHalfRead .host A) s = .next t ∧ answers (bytes w) t ∧ t.latch .host = ⟨some a, hi⟩ ∧
        t.latch .twoWire = s.latch .twoWire ∧ t.latch .keep = s.latch .keep ∧ { t with hp := s.hp } = s ∧
        exec (.rcRead .host ⟨.bar0, A⟩ [15, 15]) s = .next (s.send (.readReply .host (bytes w ++ bytes hi)))) ∧
    (a % 8 = 4 → isHigh a = true →
      (∀ hi, s.latch .host = ⟨some (a - 4), hi⟩ →
        ∃ t, exec (.highHalfRead .host A) s = .next t ∧ answers (bytes hi) t ∧ t.latch .host = {} ∧ { t with hp := s.hp } = s) ∧
      ((s.latch .host).owner ≠ some (a - 4) →
        exec (.highHalfRead .host A) s = .next (s.send (.readReply .host (bytes w)))))) ∧
  (∀ (s : State) (off : BitVec 24) (n : Nat), s.mode.domeRun = true →
    (∃ l : List Byte, l.length = n ∧ exec (.bar4Read off n) s = .next (s.send (.bar4Reply l)) ∧
      ∀ k, k < n → l[k]? = some ((s.bar4Word ((off.toNat + k) / 4 * 4)).extractLsb' (8 * ((off.toNat + k) % 4)) 8)) ∧
    s.bar4Word 0 = 0x4E5A5246 ∧
    (s.mode.frozen = false → ∀ a, 0x1000 ≤ a → s.bar4Word a = 0) ∧
    (s.mode.frozen = true → ∀ a, a < 0x10000 → s.bar4Word (0x10000 + a) = s.peek a))

/-! ### Modes, resets and start-up (02_modes_and_startup.md, 01_architecture.md) -/

/-- R39, R40, R42, R49, R390 and Table 02.3: what each reset of the Dome logic clears, keeps and sets. The power-on reset returns to
SHIP; the others resume the start at step 0x04 with the pack switch, the Turret's registers and WORN bits as they are. `RESET_N` is
ignored in SHIP, and a reset waits while a comparator of the Dome or the Turret holds its shutdown. -/
def Obligations.ResetsReachWhatTheTableMarks : Prop :=
  ∀ s : State,
    let kept (t : State) : Prop := t.silt.slots = s.silt.slots ∧
      (s.otp.run = none → t.otp.config = s.otp.config ∧ t.otp.patch = s.otp.patch ∧ t.otp.trim = s.otp.trim) ∧ t.mode.pins = s.mode.pins ∧ t.pending = s.pending
    let cleared (t : State) : Prop := t.now = 0 ∧ (∀ e : Eng, t.eng[e] = Engine.reset e) ∧ t.hp.lends = [] ∧ t.hp.events = [] ∧
      (∀ u : CUnit, t.units[u] = CmpUnit.reset u) ∧ t.mode.rwlLocked = false ∧ t.mode.fault = false ∧ t.mode.frozen = false
    let resumes (bit : BitVec 6) (i : Instr) : Prop :=
      ∃ t, exec i s = .next t ∧ kept t ∧ cleared t ∧ t.mode.resetCause = s.mode.resetCause ||| bit ∧ t.mode.mode = .standby ∧
        t.mode.bootStep = 4 ∧ t.mode.starting = true ∧ t.power.sw = s.power.sw ∧ t.silt.pon = s.silt.pon ∧
        (∀ c : Ch, { t.ch c with stage := (Chan.reset c).stage } = Chan.reset c ∧
          (t.ch c).stage.legA.worn = (s.ch c).stage.legA.worn ∧ (t.ch c).stage.legB.worn = (s.ch c).stage.legB.worn) ∧
        (∀ a, ((0x2000 ≤ a ∧ a < 0x2400) ∨ (0x2800 ≤ a ∧ a < 0x3000)) → a ≠ R.PACK_STAT → a ≠ R.SEQ_STAT →
          (∀ r : Rail, a ≠ R.RAIL_STAT r) → t.reg a = s.reg a) ∧
        (∀ a, (a < 0x2000 ∨ 0x3000 ≤ a) → a ≠ R.FLT_ERR_CTRL → t.reg a = regReset a)
    let d (turret : Bool) : DieIx := if turret then 1 else 0
    (∃ t, exec .powerOnReset s = .next t ∧ kept t ∧ cleared t ∧ t.mode.mode = .ship ∧ t.mode.resetCause = 1 ∧
      t.power.sw = .open_ ∧ t.silt.pon = (s.silt.pon + 1) % 65536 ∧ (∀ c : Ch, t.ch c = Chan.reset c) ∧
      ∀ a, t.reg a = regReset a) ∧
    (s.mode.mode = .ship → exec .resetNPin s = .next s) ∧
    ((s.die[d false]).shutAt = none → (s.die[d true]).shutAt = none →
      (s.mode.mode ≠ .ship → resumes 2 .resetNPin) ∧
      (∀ n, s.clockOn = true → n ≤ s.now →
        (s.mode.pendingReset = some (.command, n) → resumes 8 .deviceCommandReset) ∧
        (s.mode.pendingReset = some (.fault, n) → resumes 16 .faultStateReset))) ∧
    (s.mode.mode ≠ .ship → (s.die[d false]).shutAt.isSome →
      exec .resetNPin s = .next { s with mode := { s.mode with heldReset := some .pin } }) ∧
    (∀ (b : Bool) (n : Nat) (k : ResetKind), (s.die[d b]).shutAt = some n → n + 200000000 ≤ s.tick.wall →
      (s.die[d (!b)]).shutAt = none → s.mode.heldReset = some k → resumes (BitVec.ofNat 6 (2 ^ k.bit)) (.coreThermalRelease b))

/-- R41, R34 and Tables 02.3 and 10.18: a PCI Express fundamental reset returns the Host port and rings block, the ring pointers and the
lends to their reset values, sets its RESET_CAUSE bit and raises event 0x020A; the mode, the compare units, the queued reaches and what
the engines hold are untouched, and a start that has passed step 0x09 resumes there. With no lend to end it changes no register
outside the block but the event counters. While the Dome is unavailable it is only the level of PERST#. PERST# released lets the link
train. -/
def Obligations.PerstResetsTheHostPortOnly : Prop :=
  ∀ s : State,
    let pins (b : Bool) : ModeSt := { s.mode with pins := { s.mode.pins with perstHigh := b } }
    (s.domeLive = false → exec .perstAssert s = .next { s with mode := pins false }) ∧
    (s.domeLive = true →
      ∃ t, exec .perstAssert s = .next t ∧ t.mode.mode = s.mode.mode ∧ t.mode.rwlLocked = s.mode.rwlLocked ∧
        t.mode.fault = s.mode.fault ∧ t.mode.resetCause = s.mode.resetCause ||| 4 ∧ t.mode.pins = (pins false).pins ∧
        t.mode.bootStep.toNat = (if 9 ≤ s.mode.bootStep.toNat then 9 else s.mode.bootStep.toNat) ∧
        t.units = s.units ∧ t.course = s.course ∧ t.hp.lends = [] ∧ t.hp.busMaster = false ∧ t.hp.linkUp = false ∧
        (∀ c : Ch, (t.ch c).seqr.live = (s.ch c).seqr.live ∧ (t.ch c).ctl = (s.ch c).ctl ∧ (t.ch c).flight = (s.ch c).flight) ∧
        (∀ e : Eng, t.eng[e].g = s.eng[e].g ∧ t.eng[e].dram = s.eng[e].dram ∧ t.eng[e].running = s.eng[e].running) ∧
        (∀ q : Ring, (t.hp.rings[q]).pi = 0 ∧ (t.hp.rings[q]).ci = 0 ∧ (t.hp.rings[q]).fetched = []) ∧
        (s.hp.lends = [] → s.hp.events.length < 256 →
          Stored s t 0x020A 0 1 ∧ t.eng = s.eng ∧ (∀ a, 0x800 ≤ a → a < 0x1000 → t.reg a = regReset a) ∧
          (∀ a, (a < 0x800 ∨ 0x1000 ≤ a) → a ≠ R.FLT_CNT → a ≠ R.FLT_ERR_CTRL → t.reg a = s.reg a))) ∧
    exec .perstDeassert s = .next { s with mode := pins true }

/-- R19, R30, R35 and Table 02.2: the triggers of a start and the edges of `KEY`. From SHIP the cold start begins at step 0x01, from STANDBY
the warm start at step 0x07, held while the Keep is halted for want of its reference. Nothing but the mode block changes.

R35, R469 and Table 02.2: at the end of the KEY-off delay event 0x0104, and, with KEYOFF_STANDBY = 1, the move to STANDBY by its
intermediate modes, which waits in ROAD for the ground speed; and the ends of SERVICE by speed and by time, with events 0x0106
and 0x0D0A. With no move in progress. -/
def Obligations.StartTriggersKeyAndTimedMoves : Prop :=
  (∀ s : State,
    let m := s.mode
    let sets (i : Instr) (m' : ModeSt) : Prop := exec i s = .next { s with mode := m' }
    let cold (m : ModeSt) : ModeSt := { m with mode := .standby, starting := true, bootStep := 1 }
    let warm (m : ModeSt) : ModeSt := { m with starting := true, bootStep := 7, domeRun := true, exitHeld := false }
    let wake : ModeSt := { m with pins := { m.pins with wake := true, wakeAt := s.tick.wall } }
    let tf : ModeSt := { m with pins := { m.pins with tf := true } }
    let key : ModeSt := { m with pins := { m.pins with key := true }, keyoffFrom := none, keyoffWait := false }
    let off : ModeSt := { m with pins := { m.pins with key := false } }
    (m.mode = .ship → sets .wakeQualified (cold wake) ∧ sets .tfQualified (cold tf) ∧ sets .warmStart m ∧ sets .keyFalling off) ∧
    (m.mode = .standby → m.starting = false → m.fault = false → m.move = none →
      (m.keep ≠ .halted → m.refLost = false → sets .warmStart (warm m) ∧ sets .wakeQualified (warm wake) ∧ sets .tfQualified (warm tf) ∧
        sets .keyRising (warm key)) ∧
      (m.keep = .halted ∨ m.refLost = true → sets .warmStart { m with exitHeld := true }) ∧
      (m.keep = .run → sets .keepReferenceLoss { m with keep := .halted }) ∧
      (m.keep = .restart → sets .keepReferenceLoss { m with refLost := true }) ∧
      (∀ hz, m.keep = .halted → (24500000 ≤ hz ∧ hz ≤ 25500000 ∨ 98000000 ≤ hz ∧ hz ≤ 102000000) →
        sets (.keepReferenceReturn hz)
          (if m.exitHeld then warm { m with keep := .run, refLost := false } else { m with keep := .run, refLost := false }))) ∧
    (m.mode ≠ .standby → sets .keyRising key) ∧
    (m.mode = .ready ∨ m.mode = .field ∨ m.mode = .road ∨ m.mode = .service →
      sets .keyFalling { off with keyoffFrom := some s.tick.wall })) ∧
  (∀ s : State, s.clockOn = true → s.mode.fault = false → s.mode.move = none →
    let route (t : State) : Prop := ∃ m, t.mode.move = some m ∧ m.cause = .keyOff ∧ m.req = none ∧
      m.hops = if s.mode.mode = .ready then [.standby] else [.ready, .standby]
    let stops (i : Instr) (cause : MoveCause) (code : BitVec 16) : Prop :=
      ∃ t, exec i s = .next t ∧ (∃ m, t.mode.move = some m ∧ m.hops = [.ready] ∧ m.cause = cause ∧ m.req = none) ∧
        t.mode.mode = .service ∧ (s.Room → Stored s t code 0 0)
    (∀ n, s.mode.keyoffFrom = some n → n + s.get R.MODE_KEY_KEYOFF_DELAY * 200000000 ≤ s.tick.wall →
      ∃ t, exec .keyoffDelayExpiry s = .next t ∧ t.mode.keyoffFrom = none ∧ (s.Room → Stored s t 0x0104 0 0) ∧
        t.mode.mode = s.mode.mode ∧
        (s.flag R.MODE_KEY_KEYOFF_STANDBY = false → t.mode.move = none) ∧
        (s.flag R.MODE_KEY_KEYOFF_STANDBY = true →
          (s.mode.mode = .ready ∨ s.mode.mode = .field ∨ s.mode.mode = .service → route t) ∧
          (s.mode.mode = .road → s.course.v.natAbs < 100000 → route t) ∧
          (s.mode.mode = .road → 100000 ≤ s.course.v.natAbs → t.mode.move = none ∧ t.mode.keyoffWait = true))) ∧
    (s.mode.keyoffWait = true → s.keepRuns = true → s.mode.mode = .road → s.course.v.natAbs < 100000 →
      ∃ t, exec .keyoffRoadMoveStart s = .next t ∧ route t ∧ t.mode.keyoffWait = false) ∧
    (s.mode.mode = .service →
      (∀ n, s.mode.fastSince = some n → n + 200000000 ≤ s.now → stops .serviceOverspeedExit .overspeed 0x0106) ∧
      (s.otp.unlockActive = true → s.otp.unlockExpiry ≤ s.tick.now → stops .unlockExpiry .expiry 0x0D0A)))

/-- R29, R30, R50, Tables 01.4, 02.2 and 02.11: the end of a hop. The mode shows with its tick and event 0x0100; the start ends on READY
with the RWL locks set; READY from ROAD clears the output lock; STANDBY stops the state clock and loses the engine memories; SHIP
opens the pack switch; SERVICE begins the unlock's time; and a move with a further hop goes on. -/
def Obligations.ModeEntryShowsTheMode : Prop :=
  ∀ (s : State) (m : Move), s.mode.move = some m → m.req = none → s.mode.fault = false →
    let enters (dst : Mode) (code : W32) (p : State → Prop) : Prop :=
      ∃ t, exec .modeEntry s = .next t ∧ t.mode.mode = dst ∧ t.mode.entryTick = s.tick.now ∧ (s.Room → Stored s t 0x0100 0 code) ∧ p t
    (s.clockOn = true →
      (s.mode.mode = .ready → s.mode.starting = false →
        (m.hops = [.field] → enters .field 3 fun t => t.mode.move = none ∧ t.eng = s.eng ∧ t.chan = s.chan ∧
          t.mode.roadLock = s.mode.roadLock) ∧
        (m.hops = [.road] → enters .road 4 fun t => t.mode.move = none ∧ t.chan = s.chan ∧ t.mode.roadLock = s.mode.roadLock) ∧
        (m.hops = [.service] → enters .service 5 fun t => t.otp.unlockActive = true ∧
          t.otp.unlockExpiry = s.tick.now + BitVec.ofNat 64 m.len)) ∧
      (s.mode.mode = .road → s.mode.starting = false →
        (m.hops = [.ready] → enters .ready 2 fun t => t.mode.move = none ∧ t.mode.roadLock = false) ∧
        (m.hops = [.ready, .standby] → enters .ready 2 fun t => t.mode.move = some { m with hops := [.standby] })) ∧
      (s.mode.mode = .standby → s.mode.starting = true → s.mode.pins.freezeLow = false →
        (m.hops = [.ready] → enters .ready 2 fun t => t.mode.bootStep = 0 ∧ t.mode.starting = false ∧
          t.mode.rwlLocked = true))) ∧
    (s.mode.mode = .ready → s.keepRuns = true → s.seqr.stopDone = true → m.hops = [.standby] →
      ∃ t, exec .modeEntry s = .next t ∧ t.mode.mode = .standby ∧ t.mode.domeRun = false ∧
        (∀ e : Eng, t.eng[e].running = false ∧ t.eng[e].iram = [] ∧ t.eng[e].dram = []) ∧
        (∀ c : Ch, (t.ch c).slot.code = [] ∧ t.flag (R.CH_ENG_STAT_LOADED c) = false)) ∧
    (s.mode.mode = .standby → s.mode.starting = false → s.mode.pins.tf = false → m.hops = [.ship] →
      ∃ t, exec .modeEntry s = .next t ∧ t.mode.mode = .ship ∧ t.power.sw = .open_ ∧ t.mode.domeOn = false ∧
        t.flag R.PACK_STAT_SW_CLOSED = false ∧ t.reg R.RAIL_GOOD = 0)

/-- R43, R46, R47, R18, R308, R309, R311, R452, R453 and Table 02.4: the steps of a start, each from its own step, and what a step that fails does. -/
def Obligations.StartStepsRunInOrder : Prop :=
  ∀ s : State, s.mode.starting = true → s.mode.fault = false →
    let step (n : Nat) : Prop := s.mode.bootStep.toNat = n
    let goes (i : Instr) (n : Nat) (p : State → Prop) : Prop := ∃ t, exec i s = .next t ∧ t.mode.bootStep.toNat = n ∧ p t
    let f3 (code : BitVec 16) (src : Nat) (t : State) : Prop := t.mode.f3Pend = s.mode.f3Pend ++ [⟨code, src, false⟩]
    let calm (n : Fin 128) : Prop := s.flt.active.contains n = false
    (step 1 → ∀ x : StrapIn,
      (∀ mv, ((∃ r, x.vsel0Ohm = some r ∧ r < 2000 ∧ mv = 3300) ∨ (∃ r, x.vsel0Ohm = some r ∧ 9000 ≤ r ∧ r ≤ 11000 ∧ mv = 5000) ∨
          (∃ r, x.vsel0Ohm = some r ∧ 20000 ≤ r ∧ r ≤ 24000 ∧ mv = 12000) ∨ (x.vsel0Ohm = none ∧ mv = 3300)) →
        goes (.bootTurretWake x) 2 fun t => t.mode.straps.vselMv = mv ∧ t.mode.straps.addr = x.addr ∧
          t.mode.straps.headLow = x.headLow ∧ t.mode.straps.stbyLow = x.stbyLow) ∧
      (∀ r, x.vsel0Ohm = some r → 24000 < r → r ≤ 100000 →
        goes (.bootTurretWake x) 2 fun t => t.mode.straps.vselMv = 3300 ∧ (s.Room → Stored s t 0x0101 0 0))) ∧
    (step 2 → ∀ x : PackTaps,
      let n := (x.cells.takeWhile fun v => 500 ≤ v).length
      (x.rise < 2000 → 20000 ≤ x.vp → 10 ≤ n → n ≤ 16 → (∀ v ∈ x.cells.drop n, v < 50) → x.psw < 100 →
        goes (.bootPackCheck x) 3 fun t => t.get R.PACK_STAT_PACK = 1 ∧ t.get R.PACK_STAT_CELLS_DET = n ∧
          t.flag R.PACK_STAT_SW_TYPE = true) ∧
      (2000 ≤ x.rise →
        (s.mode.pins.tf = true → goes (.bootPackCheck x) 4 fun t => t.get R.PACK_STAT_PACK = 2) ∧
        (s.mode.pins.tf = false → ∃ t, exec (.bootPackCheck x) s = .next t ∧ t.mode.mode = .ship))) ∧
    (step 3 →
      goes (.bootSoftClose true) 4 (fun t => t.power.sw = .closed ∧ t.flag R.PACK_STAT_SW_CLOSED = true) ∧
      (s.mode.pins.tf = true → goes (.bootSoftClose false) 4 fun t => t.power.sw = .open_ ∧ t.get R.PACK_STAT_PACK = 3)) ∧
    (step 4 → ∀ hz,
      (24500000 ≤ hz ∧ hz ≤ 25500000 ∨ 98000000 ≤ hz ∧ hz ≤ 102000000 →
        goes (.bootDomeRelease (some hz)) 5 fun t => t.mode.domeOn = true ∧ t.mode.domeRun = true) ∧
      (hz < 24500000 ∨ 102000000 < hz → calm 0x50 →
        goes (.bootDomeRelease (some hz)) 4 fun t => f3 0x0B03 0x50 t ∧ t.mode.domeRun = s.mode.domeRun) ∧
      (calm 0x50 → goes (.bootDomeRelease none) 4 (f3 0x0B03 0x50))) ∧
    (step 5 →
      goes (.bootKeepBoot true) 6 (fun t => t.mode.keep = .run ∧ t.mode.keepPatched = false) ∧
      (calm 0x42 → goes (.bootKeepBoot false) 5 (f3 0x0B02 0x42))) ∧
    (s.keepRuns = true →
      (step 6 → ∀ unread : Bool,
        let words := (s.otpNormal 0 0 128).1
        let pass (b : Nat) : Prop := unread = false ∧ blockPasses ((words.drop (32 * b)).take 32) = true
        goes (.bootOtpConfigRead unread) 7 fun t => t.mode.patchPend = true ∧ t.flag R.OTP_INTEG_CFG_UNREAD = unread ∧
          (t.otp.keyHashOk = true ↔ pass 3) ∧ (∀ b, b < 4 → (t.get R.OTP_INTEG_CFG_PASS / 2 ^ b % 2 = 1 ↔ pass b)) ∧
          ((∀ b, b < 4 → pass b) → t.mode.restricted = s.mode.restricted ∧ t.reg R.OTP_CFG_ID = words.getD 0 0 ∧
            (words.getD 92 0 = 0x1004 → words.getD 93 0 &&& ~~~1 = 0 → t.reg R.SNAP_CFG = words.getD 93 0)) ∧
          ((∃ b, b < 4 ∧ ¬pass b) → t.mode.restricted = true ∧ (s.Room → Stored s t 0x0102 2 0))) ∧
      (step 7 → ∀ means, goes (.bootHkSelfCal means) 8 fun t => t.flag R.HK_CTRL_START = true) ∧
      (s.mode.patchPend = true → s.mode.patchSwitch = false →
        ∃ t, exec .patchVerifyDone s = .next t ∧ t.mode.patchPend = false ∧ t.mode.patchSwitch = t.flag R.OTP_INTEG_PATCH_OK ∧
          t.mode.bootStep = s.mode.bootStep) ∧
      (step 8 → s.seqr.active = false → ∀ mv, goes (.bootRailStart mv) 8 fun t => t.seqr.active = true ∧
        t.seqr.step8From = some s.tick.wall))

/-! ### Battery, charger and budget (12_battery_and_charger.md) -/

/-- R308 to R313, R317, Table 12.1 and Table 12.10: a pack check classes the pack and raises its event once per result; a probe that the
pack does not follow takes it as missing; after a check that gave PRESENT and outside bus-keep operation the switch closes within 1 V and
else ramps, at 2.0 V/ms until then; a close that takes 100 ms is a shorted pack; a short circuit opens the switch; and an under-voltage
cut-off, after 60 s below UV_MV, is ordered for 100 ms later. -/
def Obligations.PackChecksAndSwitch : Prop :=
  ∀ (s : State) (x : PackTaps), s.mode.mode ≠ .ship →
    let n := (x.cells.takeWhile fun v => 500 ≤ v).length
    let cls : Nat :=
      if 2000 ≤ x.rise then 2
      else if x.vp < 2000 ∨ (∃ v ∈ x.cells.drop n, 50 ≤ v) ∨ s.power.pswBad = true then 3
      else if x.vp < 20000 ∨ n < 10 ∨ 16 < n then 4 else 1
    let checks (i : Instr) : Prop :=
      ∃ t, exec i s = .next t ∧ t.get R.PACK_STAT_PACK = cls ∧ t.power.vpMv = x.vp ∧ t.power.riseMv = x.rise ∧
        t.power.lastCheck = s.tick.wall ∧ t.power.sw = s.power.sw ∧ t.chan = s.chan ∧ t.eng = s.eng ∧
        (cls = 2 → s.get R.PACK_STAT_PACK ≠ 2 → s.Room → Stored s t 0x0601 2 0) ∧
        (cls = 3 → s.get R.PACK_STAT_PACK ≠ 3 → s.Room → Stored s t 0x0602 2 0) ∧
        (cls ≠ 1 → cls = s.get R.PACK_STAT_PACK → t.hp.events = s.hp.events)
    (s.power.sw = .open_ → x.cells.length ≤ 16 → checks (.packCheck x) ∧
      (s.flag R.PACK_STAT_BUSKEEP = true → s.power.lastCheck + 2000000000 ≤ s.tick.wall → checks (.buskeepPackCheckTimer x))) ∧
    (∀ dPack dChg, 1 ≤ s.get R.CHG_STAT_STATE → s.get R.CHG_STAT_STATE ≤ 3 → s.power.lastProbe + 2000000000 ≤ s.tick.wall →
      ∃ t, exec (.chargeProbe dPack dChg) s = .next t ∧ t.power.lastProbe = s.tick.wall ∧
        t.power.halfUntil = some (s.tick.wall + 200000) ∧
        (10 * dPack < dChg → t.get R.PACK_STAT_PACK = 2 ∧ t.power.bkPend = true) ∧
        (dChg ≤ 10 * dPack → t.regs = s.regs ∧ t.power.bkPend = s.power.bkPend)) ∧
    (∀ v, s.get R.PACK_STAT_PACK = 1 → s.flag R.PACK_STAT_BUSKEEP = false →
      let near : Prop := v ≤ s.power.vpMv + 1000 ∧ s.power.vpMv ≤ v + 1000
      (s.power.sw = .open_ → s.power.checked = true →
        ∃ t, exec (.packSwitchClose v) s = .next t ∧
          (near → t.power.sw = .closed ∧ t.flag R.PACK_STAT_SW_CLOSED = true) ∧
          (¬near → t.power.sw = .closing ∧ t.power.closeFrom = some s.tick.wall ∧
            t.power.ramp = some ⟨s.tick.wall, v, s.power.vpMv⟩ ∧ t.regs = s.regs)) ∧
      (∀ r, s.power.sw = .closing → s.power.ramp = some r → near →
        s.flag R.PACK_STAT_SW_TYPE = true ∨ 1000 * (r.stop - 1000 - r.start) ≤ 11 * (s.tick.wall - r.at_) →
        ∃ t, exec (.packSwitchClose v) s = .next t ∧ t.power.sw = .closed ∧ t.flag R.PACK_STAT_SW_CLOSED = true)) ∧
    (∀ k, s.power.closeFrom = some k → s.power.sw = .closing → k + 20000000 ≤ s.tick.wall →
      ∃ t, exec .packCloseTimeout s = .next t ∧ t.power.sw = .open_ ∧ t.flag R.PACK_STAT_SW_CLOSED = false ∧
        t.get R.PACK_STAT_PACK = 3 ∧ (s.get R.PACK_STAT_PACK ≠ 3 → s.Room → Stored s t 0x0602 2 0)) ∧
    (s.power.sw ≠ .open_ → s.flt.active.contains 0x44 = false →
      ∃ t, exec .shortCircuitTrip s = .next t ∧ t.power.sw = .open_ ∧ t.flag R.PACK_STAT_SW_CLOSED = false ∧
        (s.mode.pins.tf = true → t.power.bkPend = true ∧ (s.Room → Stored s t 0x060F 2 0)) ∧
        (s.mode.pins.tf = false → t.mode.mode = .ship)) ∧
    ((∃ k, s.power.uvFrom = some k ∧ k + 12000000000 ≤ s.tick.wall) → s.keepRuns = true → s.mode.pins.tf = false → s.mode.mode ≠ .field →
      s.power.sw = .closed → s.power.uvCutAt = none →
      ∃ t, exec .uvCutoff s = .next t ∧ t.power.uvCutAt = some (s.tick.wall + 20000000) ∧ t.power.sw = .closed ∧
        (s.Room → Stored s t 0x060E 2 0))

/-- R315, R316, R319 to R322, R336 and Table 12.3: the moves of the charger between its states, each with event 0x0608, after
the times that Table 12.3 asks for, and what else each row does. -/
def Obligations.ChargerFollowsItsStates : Prop :=
  ∀ s : State,
    let st := s.get R.CHG_STAT_STATE
    let held (since : Option Nat) (n : Nat) : Prop := ∃ k, since = some k ∧ k + n * 200000000 ≤ s.tick.wall
    let first : Nat := if s.cellMv.any (fun v => v < s.get R.CHG_V_PRE_MV) then 1 else 2
    let moves (i : Instr) (new : Nat) (p : State → Prop) : Prop :=
      ∃ t, exec i s = .next t ∧ t.get R.CHG_STAT_STATE = new ∧ t.chan = s.chan ∧
        (st ≠ new → s.Room → Stored s t 0x0608 0 (BitVec.ofNat 32 (new + 16 * st))) ∧ p t
    (st = 0 → s.mode.pins.tf = true → s.get R.PACK_STAT_PACK = 1 → s.flag R.CHG_CTRL_EN = true → s.keepRuns = true →
      s.mode.fault = false → s.mode.mode ≠ .ship → s.power.sw = .closed → ∀ mv,
      moves (.chargerStart mv) first fun t => t.power.vinReg =
        if s.flag R.CHG_VIN_VIN_AUTO then max 9000 ((2 * (mv * s.get R.CHG_VIN_VIN_PCT) + 100) / 200)
        else s.get R.CHG_VIN_VIN_REG_MV) ∧
    (s.mode.pins.tf = true →
      (s.flag R.PACK_STAT_BUSKEEP = false → moves .tfLoss 0 fun t => t.mode.pins.tf = false) ∧
      (s.flag R.PACK_STAT_BUSKEEP = true → ∃ t, exec .tfLoss s = .next t ∧ t.mode.mode = .ship)) ∧
    (s.keepRuns = true →
      (st = 1 → held s.power.preFrom 10 → moves .prechargeDone 2 fun _ => True) ∧
      (st = 1 → s.power.chgFrom + s.get R.CHG_CTRL_PRE_TMO * 12000000000 ≤ s.tick.wall →
        moves .chargeTimeout 6 fun t => s.Room → Stored s t 0x060A 2 0) ∧
      ((st = 2 ∨ st = 3) → s.power.chgRun + s.get R.CHG_CTRL_CHG_TMO * 120000000000 ≤ s.tick.wall →
        moves .chargeTimeout 6 fun t => s.Room → Stored s t 0x060A 2 1) ∧
      (st = 3 → 300000 ≤ s.power.termRun → moves .chargeTermination 4 fun t => t.est.z = 10000 ∧ (s.Room → Stored s t 0x0609 0 0)) ∧
      (st = 4 → held s.power.rechFrom 10 → moves .recharge 2 fun _ => True) ∧
      (s.cellsStale = true → s.power.staleTold = false → 1 ≤ st → st ≤ 4 →
        moves .cellDataStale 5 fun t => t.power.chgPrev = st ∧ (s.Room → Stored s t 0x0614 0 0))) ∧
    (s.hostWritable = true → exec .chgRestart s =
      .next { s with keepWrites := s.keepWrites ++ [⟨R.CHG_CTRL, s.reg R.CHG_CTRL ||| 2⟩] }) ∧
    (st = 6 → ∀ v : W32, v.getLsbD 1 = true → (s.keepApply R.CHG_CTRL v).get R.CHG_STAT_STATE = first) ∧
    (st ≠ 0 → ∀ volt, moves (.inputLimitTimeout volt) st fun t =>
      t.flag (if volt then R.CHG_STAT_LIM_VIN else R.CHG_STAT_LIM_IIN) = true ∧
      (s.Room → Stored s t 0x060C 0 (if volt then 1 else 0))) ∧
    (s.mode.mode ≠ .ship → s.flag R.CHG_STAT_OV_LATCH = false → s.flt.active.contains 0x43 = false → ∀ cell : Fin 16,
      moves (.cellOvTrip cell) st fun t => t.flag R.CHG_STAT_OV_LATCH = true ∧ t.flag R.CHG_STAT_CHG_N = false ∧
        t.power.gatesOn = false ∧ (s.Room → Stored s t 0x0606 2 (BitVec.ofNat 32 cell.val))) ∧
    (let l := s.cellMv
      let low : Prop := l.foldl (· + ·) 0 + l.length * s.get R.CHG_TEMP_RECHG_MV < l.length * s.get R.CHG_V_CV_MV
      let since (p : Prop) [Decidable p] (old : Option Nat) : Option Nat := if p then some (old.getD s.tick.wall) else none
      s.cellTimers.power.preFrom = since (st = 1 ∧ ∀ v ∈ l, s.get R.CHG_V_PRE_MV + 100 ≤ v) s.power.preFrom ∧
      s.cellTimers.power.rechFrom = since (st = 4 ∧ low) s.power.rechFrom ∧
      s.cellTimers.power.ovLowFrom = since (∀ v ∈ l, v + 100 < s.get R.CELL_THR_OV_MV) s.power.ovLowFrom) ∧
    (s.flag R.CHG_STAT_OV_LATCH = true → held s.power.ovLowFrom 1 → st ≠ 0 → st ≠ 5 → st ≠ 7 → s.mode.fault = false →
      s.turretLevel < 2 → (s.die[(1 : DieIx)]).shutAt = none →
      moves .ovLatchClear (if s.cellsUsed * s.get R.CHG_V_CV_MV ≤ s.regN R.PACK_V then 3 else 2) fun t =>
        t.flag R.CHG_STAT_OV_LATCH = false ∧ t.flag R.CHG_STAT_CHG_N = true ∧ t.power.gatesOn = true ∧
        (s.Room → Stored s t 0x0607 0 0))

/-- R325 to R329, R333 and R334: bus-keep operation begins with the switch open and the charger regulating VBUS, and ends with the switch
closing and charging; a low VBUS and the end of a pull-in guard; and one sample of the pack: V_p, the mean of I_p, the TF current, the
change of gain, and the charge counted two samples late. -/
def Obligations.BusKeepAndThePackSamples : Prop :=
  ∀ s : State, s.mode.mode ≠ .ship →
    (s.mode.pins.tf = true → s.flag R.PACK_STAT_BUSKEEP = false →
      (s.power.bkPend = true ∨ (s.power.sw = .open_ ∧ 2 ≤ s.get R.PACK_STAT_PACK)) →
      ∃ t, exec .buskeepEntry s = .next t ∧ t.flag R.PACK_STAT_BUSKEEP = true ∧ t.flag R.PACK_STAT_SW_CLOSED = false ∧
        t.power.sw = .open_ ∧ t.get R.CHG_STAT_STATE = 7 ∧ t.power.bkFrom = some s.tick.wall ∧
        (s.Room → Stored s t 0x0604 2 0)) ∧
    (s.flag R.PACK_STAT_BUSKEEP = true →
      (s.get R.PACK_STAT_PACK = 1 → s.power.checked = true →
        ∃ t, exec .buskeepExit s = .next t ∧ t.flag R.PACK_STAT_BUSKEEP = false ∧ t.flag R.PACK_STAT_BK_ACK = false ∧
          t.power.sw = .closing ∧ t.power.closeFrom = some s.tick.wall ∧ t.power.bkFrom = none ∧
          t.get R.CHG_STAT_STATE = (if s.mode.fault = true then 0 else if s.cellMv.any (fun v => v < s.get R.CHG_V_PRE_MV) then 1 else 2) ∧
          (s.Room → Stored s t 0x0605 0 0)) ∧
      (∃ t, exec .buskeepLowVbus s = .next t ∧ (s.Room → Stored s t 0x0615 2 0) ∧ t.power = s.power)) ∧
    (∀ (c : Ch) (n : Nat), (s.ch c).guardUntil = some n → s.clockOn = true → n ≤ s.now →
      ∃ t, exec (.pullInGuardEnd c) s = .next t ∧ t.ch c = { s.ch c with guardUntil := none } ∧ (∀ k, k ≠ c → t.ch k = s.ch k) ∧
        { t with chan := s.chan } = s) ∧
    (∀ (iCode vCode : BitVec 16) (tf : Nat), tf < 2 ^ 32 → s.power.gainDue = none →
      (∀ k, s.pace.pack = some k → k + 20000 ≤ s.tick.wall) →
      let uA := roundDiv (iCode.toInt * (if s.power.lowGain then 1562500 else 156250)) (s.get R.SHUNTS_PACK_UOHM)
      ∃ t, exec (.packSample iCode vCode tf) s = .next t ∧ (t.reg R.PACK_V).toNat = (5 * vCode.toNat + 2) / 4 ∧
        (t.reg R.TF_I).toNat = tf ∧ t.power.ips = (uA :: s.power.ips).take 10 ∧ t.flag R.EST_STAT_LOW_GAIN = s.power.lowGain ∧
        t.est.nAcc = s.est.nAcc + 1 ∧ t.est.iAcc = s.est.iAcc + uA ∧ t.est.vAcc = s.est.vAcc + vCode.toNat ∧
        (s.power.lowGain = false → (t.power.gainDue = some true ↔ 30720 ≤ iCode.toInt.natAbs)) ∧
        (∀ a b, s.power.held = [a, b] → b.marked = false → 0 < a.ip →
          t.power.qChg = (s.power.qChg + (2 * (a.ip.natAbs * 65536) + 10000) / 20000) % 2 ^ 80 ∧
          t.power.qDis = s.power.qDis))

/-! ### Opcodes (10_host_rings.md, Tables 10.6 to 10.9) -/

/-- R276 and Tables 10.8, 10.9, 10.14: the order of the checks of a descriptor, and what a refusal does: its entry, its count, event
0x0203, and nothing else in the module. -/
def Obligations.DescriptorsAreCheckedInOrder : Prop :=
  ∀ (s : State) (q : Ring) (d : Desc),
    let bad (op : Nat) (st : Byte) : Prop := s.descCheck q op d = some st
    (∀ op, ringTakes op q.val = false → bad op 0x19) ∧
    (∀ op, ringTakes op q.val = true →
      (s.mode.fault = true → op ∉ [0x41, 0x42, 0x52, 0x61, 0x71, 0x80, 0x81, 0x82] → bad op 0x24) ∧
      (s.mode.fault = false →
        (s.hostMode = .field → op ∈ [0x22, 0x23, 0x30, 0x71, 0x73] → bad op 0x10) ∧
        (s.hostMode = .standby → bad op 0x10) ∧
        (op = 0x70 → s.hostMode.isLink = true → s.mode.move.isSome = true → s.outranks d = false → bad op 0x11) ∧
        (s.hostMode = .service → op ≠ 0x70 → op ≠ 0x73 → (op = 0x72 → s.mode.starting = false) →
          (d.rsv ≠ 0 → bad op 0x13) ∧
          (unusedZero op d = true → rangesOk op d = true → op ∈ [0x11, 0x12, 0x20, 0x21, 0x22, 0x23] →
            (q.val < 16 → (descChan d).val / 16 ≠ q.val → bad op 0x12) ∧
            (16 ≤ q.val → s.isMember (descChan d) = true → bad op 0x15))))) ∧
    (∀ p ∈ ([(.reachCancel, 0x11), (.reachFlush, 0x12), (.prmWrite, 0x20), (.prmLoad, 0x21), (.chRun, 0x22), (.manual, 0x23),
        (.imgLoad, 0x30), (.imgCheck, 0x31), (.lend, 0x40), (.reclaim, 0x41), (.reclaimAll, 0x42), (.snapAt, 0x50),
        (.snapCancel, 0x51), (.eddyRead, 0x52), (.eddyClear, 0x53), (.pwrWrite, 0x60), (.pwrRead, 0x61), (.buskeepAck, 0x62),
        (.modeReq, 0x70), (.reset, 0x71), (.freeze, 0x72), (.serviceUnlock, 0x73), (.nop, 0x80), (.barrier, 0x81),
        (.ringQuery, 0x82), (.mbxSend, 0x90), (.mbxRecv, 0x91)] : List ((Ring → Desc → Instr) × Nat)),
      s.canStart q = true → ∀ st : Byte, bad p.2 st →
      ∃ t, exec (p.1 q d) s = .next t ∧ Answered s t q d st 0 ∧ t.get (R.Q_CNT_REFUSED q) = min (s.get (R.Q_CNT_REFUSED q) + 1) 255 ∧
        (s.mayRaise 0x0203 q.val 200000000 = true → s.Room →
          Stored s t 0x0203 0 (BitVec.ofNat 32 (q.val + st.toNat * 256 + s.lastSlot q * 65536))) ∧
        t.chan = s.chan ∧ t.eng = s.eng ∧ t.units = s.units ∧ t.mode = s.mode ∧ t.otp = s.otp ∧ t.arb = s.arb ∧ t.power = s.power)

/-- R153, R231 and R275, Table 10.8: the parameter opcodes write the shadow block and return PRM_SEQ; REACH_CANCEL and REACH_FLUSH
wait for the next course update; CH_RUN writes RUN; MANUAL holds an on-time for MS milliseconds, after which the Weir sends 0. -/
def Obligations.ChannelOpcodesActOnTheirChannel : Prop :=
  ∀ (s : State) (q : Ring) (d : Desc),
    let c := descChan d
    let h := s.ch c
    let others (t : State) : Prop := ∀ k, k ≠ c → t.ch k = s.ch k
    let seq : W64 := h.prmSeq.zeroExtend 64
    (s.Takes q 0x20 d → h.shadow.length = 64 →
      let first := descLe d 3 1
      let n := descLe d 4 1
      ∃ t, exec (.prmWrite q d) s = .next t ∧ Answered s t q d 0 seq ∧ others t ∧
        (∀ k, k < n → (t.ch c).shadow[first + k]? = some (descWord d (16 + 4 * k))) ∧
        (∀ j, (j < first ∨ first + n ≤ j) → (t.ch c).shadow[j]? = h.shadow[j]?) ∧
        (t.ch c).prmCommit = (h.prmCommit || decide (descLe d 5 1 = 1)) ∧ (t.ch c).prm = h.prm) ∧
    (s.Takes q 0x21 d → h.shadow.length = 64 →
      ∃ t, exec (.prmLoad q d) s = .next t ∧ Answered s t q d 0 seq ∧ others t ∧
        (∀ k, k < 64 → (t.ch c).shadow[k]? = some (BitVec.ofNat 32 (leAt d.buf (4 * k) 4))) ∧ (t.ch c).prmCommit = true) ∧
    (s.Takes q 0x11 d →
      ∃ t, exec (.reachCancel q d) s = .next t ∧ Accepted s t q 0x11 d ∧ others t ∧ (t.ch c).seqr.live = h.seqr.live ∧
        (t.ch c).seqr.cancels = h.seqr.cancels ++ [⟨some (BitVec.ofNat 16 (descLe d 4 2)), some (q, d.tag, s.lastSlot q)⟩]) ∧
    (s.Takes q 0x12 d →
      ∃ t, exec (.reachFlush q d) s = .next t ∧ Accepted s t q 0x12 d ∧ others t ∧ (t.ch c).seqr.live = h.seqr.live ∧
        (t.ch c).seqr.cancels = h.seqr.cancels ++ [⟨none, some (q, d.tag, s.lastSlot q)⟩]) ∧
    (s.Takes q 0x22 d →
      (descLe d 3 1 = 0 → s.flag (R.CH_ENG_CTRL_RUN c) = true → s.mode.mode ≠ .field →
        ∃ t, exec (.chRun q d) s = .next t ∧ Answered s t q d 0 0 ∧ t.flag (R.CH_ENG_CTRL_RUN c) = false ∧
          (t.ch c).flight = h.flight ++ [⟨0, s.now + 12, none⟩] ∧ (t.ch c).stopReq = true) ∧
      (descLe d 3 1 = 1 → s.flag (R.CH_ENG_STAT_LOADED c) = true → s.flag (R.CH_ENG_CTRL_RUN c) = false → s.mode.mode ≠ .field →
        ∃ t, exec (.chRun q d) s = .next t ∧ Answered s t q d 0 1 ∧ t.flag (R.CH_ENG_CTRL_RUN c) = true ∧
          ∀ e, h.ctl = some e → t.eng[e].running = true ∧ t.eng[e].pc = 4 * h.slot.entry)) ∧
    (s.Takes q 0x23 d → (s.reg (R.BUD_TRIM (c.val / 32))).getLsbD (c.val % 32) = false → s.implausible c (descWord d 4) = false →
      let on := ((descWord d 4).extractLsb' 0 24).toInt
      ∃ t, exec (.manual q d) s = .next t ∧ Answered s t q d 0 0 ∧ t.flag (R.CH_ENG_CTRL_RUN c) = false ∧
        (t.ch c).lastOn = on ∧ (t.ch c).manual = some ⟨s.now + descLe d 8 2 * 200000⟩ ∧
        (t.ch c).flight = h.flight ++ (if s.flag (R.CH_ENG_CTRL_RUN c) then [⟨0, s.now + 12, none⟩] else []) ++ [⟨on, s.now + 12, none⟩]) ∧
    (s.Takes q 0x23 d → s.implausible c (descWord d 4) = true →
      ∃ t, exec (.manual q d) s = .next t ∧ Answered s t q d 0x13 0 ∧ t.chan = s.chan ∧ t.eng = s.eng) ∧
    (∀ (k : Ch) (n : Nat), (s.ch k).manual = some ⟨n⟩ → s.clockOn = true → n ≤ s.now →
      exec (.manualPeriodEnd k) s = .next (s.modCh k fun x => { x with flight := x.flight ++ [⟨0, s.now + 12, none⟩], manual := none }))

/-- R162 to R164, R465, R466, R468 and Tables 06.8, 17.4, 17.5: IMG_LOAD, IMG_CHECK and UNLOCK hand their image or token to the image
check engine, which answers in order, after 1.8 ms where it does the signature arithmetic. A bad header, a short buffer, a bad token or
an answer other than VALID refuses; IMG_CHECK completes with its answer; on VALID a load holds the stage die at 0 and copies into the
lowest channel of each spire that takes it, or is refused when none does; a token begins the move into SERVICE; and the end of a copy
runs the channel from ENTRY, the last one completing the load. -/
def Obligations.ImagesAndTokensAreChecked : Prop :=
  ∀ (s : State) (d : Desc),
    let q : Ring := 16
    let joins (o : Otp) (r : ImgReq) : Otp :=
      { o with reqs := o.reqs ++ [r], imgFrom := if o.reqs = [] then s.tick.wall else o.imgFrom }
    (∀ l, s.lendOf (descWord d 4) = some l →
      let judged (i : Instr) (op : Byte) : Prop :=
        (headerOk d.buf = false → ∃ t, exec i s = .next t ∧ Answered s t q d 0x1B 0 ∧ t.otp = s.otp) ∧
        (headerOk d.buf = true → l.len - descLe d 8 4 < imageLen d.buf →
          ∃ t, exec i s = .next t ∧ Answered s t q d 0x1C 0 ∧ t.otp = s.otp) ∧
        (headerOk d.buf = true → imageLen d.buf ≤ l.len - descLe d 8 4 →
          ∃ t, exec i s = .next t ∧ t.hp.cq = s.hp.cq ∧ t.chan = s.chan ∧ t.otp = joins s.otp
            (.image op (slice d.buf 0 (imageLen d.buf)) (descLe d 2 1) (descLe d 3 1) d.tag (s.lastSlot q)))
      (s.Takes q 0x30 d → judged (.imgLoad q d) 0x30) ∧ (s.Takes q 0x31 d → judged (.imgCheck q d) 0x31)) ∧
    (s.Takes q 0x73 d → s.mode.move = none → s.course.v.natAbs < 100000 → s.otp.keyHashOk = true →
      (s.tokenOk (slice d.buf 0 128) = true →
        ∃ t, exec (.serviceUnlock q d) s = .next t ∧ t.hp.cq = s.hp.cq ∧ t.mode = s.mode ∧
          t.otp = joins { s.otp with draws := s.otp.draws + 1 } (.unlock (slice d.buf 0 128) d.tag (s.lastSlot q))) ∧
      (s.tokenOk (slice d.buf 0 128) = false →
        ∃ t, exec (.serviceUnlock q d) s = .next t ∧ Answered s t q d 0x1A 0 ∧ t.otp.draws = s.otp.draws + 1 ∧ t.otp.unlockAns = 8 ∧
          t.mode = s.mode)) ∧
    (∀ (r : ImgReq) (rest : List ImgReq), s.clockOn = true → s.otp.load = none → s.otp.reqs = r :: rest →
      s.otp.imgFrom + 360000 ≤ s.tick.wall →
      let v : State := { s with otp := { s.otp with reqs := rest, imgFrom := s.tick.wall } }
      ∃ t, exec .imageCheckAnswer s = .next t ∧ t.otp.reqs = rest ∧ t.otp.imgFrom = s.tick.wall ∧
        (∀ op b first last tag slot x, r = .image op b first last tag slot →
          (s.hp.rings[q]).exec = some x → x.tag = tag → x.slot = slot → (s.hp.rings[q]).pend = [] →
          let n := imageLen b - 64
          let ans := (v.imgAnswer (byteAt b 32) true (slice b 0 n) (slice b n 64)).1
          let ends (status : Byte) (info : W64) : Prop :=
            t.hp.cq[s.cqOf q] = s.hp.cq[s.cqOf q] ++ [⟨17, .cmd info tag x.sqhd status q, s.now⟩] ∧ (t.hp.rings[q]).exec = none
          let takes (c : Ch) : Prop := first ≤ c.val ∧ c.val ≤ last ∧ s.isMember c = false ∧ (s.ch c).ctl = some (homeOf c)
          (op = 0x31 → ends 0 (ans.setWidth 64) ∧ t.chan = s.chan) ∧
          (op = 0x30 → ans ≠ 0 → ends 0x1A 0 ∧ t.chan = s.chan) ∧
          (op = 0x30 → ans = 0 → (∀ c, ¬takes c) → ends 0x15 0 ∧ t.chan = s.chan) ∧
          (op = 0x30 → ans = 0 → (∃ c, takes c) →
            (∃ l, t.otp.load = some l ∧ l.image = slotOfImage b ∧ l.req = some (tag, slot)) ∧ t.hp.cq = s.hp.cq ∧
            (∀ c, takes c → (∀ k, takes k → spireOf k = spireOf c → c.val ≤ k.val) →
              t.ch c = { s.ch c with flight := (s.ch c).flight ++ [⟨0, s.now + 12, none⟩], copying := some (slotOfImage b),
                                     copyFrom := s.tick.wall }) ∧
            (∀ c, ¬takes c → t.ch c = s.ch c))) ∧
        (∀ k tag slot, r = .unlock k tag slot →
          let ans := (v.imgAnswer (byteAt k 34) false (slice k 0 64) (slice k 64 64)).1
          t.otp.unlockAns = ans ∧
          (ans ≠ 0 → t.mode = s.mode ∧ (s.Room → Stored s t 0x0D09 0 (ans.setWidth 32))) ∧
          (ans = 0 → s.mode.mode = .ready → s.mode.fault = false → s.mode.move = none → s.course.v.natAbs < 100000 →
            s.otp.keyHashOk = true →
            t.mode.move = some { hops := [.service], cause := .unlock, req := some (q, tag), len := leAt k 32 2 * 12000000000,
                                 key := byteAt k 34 }))) ∧
    (∀ (c : Ch) (sl : Slot) (e : Eng), (s.ch c).copying = some sl → s.clockOn = true → (s.ch c).ctl = some e →
      (s.ch c).copyFrom + (sl.code.length + sl.data.length + 1) / 2 ≤ s.tick.wall →
      (∀ l, s.otp.load = some l → c ∉ l.todo) →
      ∃ t, exec (.imageCopyDone c) s = .next t ∧ (t.ch c).copying = none ∧ (t.ch c).slot = sl ∧ (t.ch c).lastOn = 0 ∧
        (t.ch c).mirror = {} ∧
        t.eng[e].running = true ∧ t.eng[e].pc = 4 * sl.entry ∧ t.flag (R.CH_ENG_CTRL_RUN c) = true ∧
        t.flag (R.CH_ENG_STAT_LOADED c) = true ∧
        (s.Room → Stored s t (chCode c 0x66) 0 (BitVec.ofNat 32 (c.val + sl.progId.toNat % 65536 * 65536))) ∧
        (∀ l tag slot x, s.otp.load = some l → l.todo = [] → (∀ k, k ≠ c → (s.ch k).copying = none) → l.req = some (tag, slot) →
          (s.hp.rings[q]).exec = some x → x.tag = tag → x.slot = slot → (s.hp.rings[q]).pend = [] →
          t.otp.load = none ∧ (t.hp.rings[q]).exec = none ∧
          t.hp.cq[s.cqOf q] = s.hp.cq[s.cqOf q] ++ [⟨17, .cmd (BitVec.ofNat 64
            (l.loaded + l.refused * 65536 + l.image.progId.toNat % 65536 * 4294967296)) tag x.sqhd 0 q, s.now⟩]))

/-- R280 to R283, R297 to R303, Tables 10.8 and 11.3: tags lent and reclaimed; SNAP_AT for a tick at least 100,000 ticks ahead waits for
its latch on that tick, or after a forward step that passed it, which captures every counter for it and completes it with its tick; EDDY_READ copies the records that a buffer holds,
which EDDY_CLEAR discards. -/
def Obligations.LendsSnapshotsAndEddyBuffers : Prop :=
  ∀ (s : State) (q : Ring) (d : Desc), 16 ≤ q.val →
    let tag := descWord d 4
    let e := descEng d
    let x := s.eng[e]
    let bytes (t : State) : List Byte := (t.arb.data.drop s.arb.data.length).flatMap (·.bytes)
    (s.Takes q 0x40 d →
      (s.lendOf tag = none → s.lendsOf q < 64 →
        ∃ t, exec (.lend q d) s = .next t ∧ Answered s t q d 0 (BitVec.ofNat 64 (s.lendsOf q + 1)) ∧
          t.hp.lends = s.hp.lends ++ [⟨tag, q, BitVec.ofNat 64 (descLe d 16 8), descLe d 8 4⟩] ∧ { t with hp := s.hp } = s) ∧
      ((s.lendOf tag).isSome → ∃ t, exec (.lend q d) s = .next t ∧ Answered s t q d 0x1F 0 ∧ t.hp.lends = s.hp.lends) ∧
      (s.lendOf tag = none → 64 ≤ s.lendsOf q →
        ∃ t, exec (.lend q d) s = .next t ∧ Answered s t q d 0x20 0 ∧ t.hp.lends = s.hp.lends)) ∧
    (s.Takes q 0x41 d →
      (∀ l, s.LendsIdle → s.lendOf tag = some l → l.ring = q →
        ∃ t, exec (.reclaim q d) s = .next t ∧ t.hp.lends = s.hp.lends.filter (·.tag ≠ tag) ∧
          Answered s t q d 0 (BitVec.ofNat 64 (t.lendsOf q))) ∧
      (s.lendOf tag = none → ∃ t, exec (.reclaim q d) s = .next t ∧ Answered s t q d 0x1D 0 ∧ t.hp.lends = s.hp.lends ∧
        (s.Room → Stored s t 0x0204 0 tag))) ∧
    (s.Takes q 0x42 d → s.LendsIdle → (s.hp.lends.map (·.tag)).Nodup →
      ∃ t, exec (.reclaimAll q d) s = .next t ∧ t.hp.lends = s.hp.lends.filter (·.ring ≠ q) ∧
        Answered s t q d 0 (BitVec.ofNat 64 (s.lendsOf q))) ∧
    (s.Takes q 0x50 d → descLe d 16 8 ≠ 2 ^ 64 - 1 →
      (s.now + 100000 ≤ descLe d 16 8 → s.arb.snaps.length + s.arb.images.length < 4 →
        ∃ t, exec (.snapAt q d) s = .next t ∧ Accepted s t q 0x50 d ∧ ∃ r : SnapReq, t.arb.snaps = s.arb.snaps ++ [r] ∧
          r.tag = d.tag ∧ r.slot = s.lastSlot q ∧ r.ltag = tag ∧ r.off = descLe d 8 4 ∧ r.tick = some (descLe d 16 8)) ∧
      (descLe d 16 8 < s.now + 100000 → ∃ t, exec (.snapAt q d) s = .next t ∧ Answered s t q d 0x23 0 ∧ t.arb = s.arb)) ∧
    (s.Takes q 0x51 d →
      ((∀ r ∈ s.arb.snaps, r.tag.toNat ≠ descLe d 4 2) →
        ∃ t, exec (.snapCancel q d) s = .next t ∧ Answered s t q d 0 0 ∧ { t with hp := s.hp } = s) ∧
      (∀ r, s.arb.snaps = [r] → r.tag.toNat = descLe d 4 2 →
        ∃ t, exec (.snapCancel q d) s = .next t ∧ t.arb.snaps = [])) ∧
    (s.Takes q 0x52 d → s.roleChanged d = false →
      ∃ t, exec (.eddyRead q d) s = .next t ∧ Accepted s t q 0x52 d ∧ t.eng[e] = { x with eddy := { x.eddy with copying := true } } ∧
        t.arb.copies = s.arb.copies ++ [⟨e, tag, x.eddy.recs.length, d.tag, s.lastSlot q⟩] ∧
        bytes t = x.eddy.recs.flatMap fun r => wordBytes r.words) ∧
    (s.Takes q 0x53 d →
      (s.roleChanged d = false → ∃ t, exec (.eddyClear q d) s = .next t ∧
        Answered s t q d 0 (BitVec.ofNat 64 x.eddy.recs.length) ∧ (t.eng[e]).eddy.recs = [] ∧ (t.eng[e]).eddy.holding = false ∧
        (t.eng[e]).eddy.triggered = false ∧ (∀ k : Eng, k ≠ e → t.eng[k] = s.eng[k])) ∧
      (s.roleChanged d = true → ∃ t, exec (.eddyClear q d) s = .next t ∧ Answered s t q d 0x18 0 ∧ t.eng = s.eng)) ∧
    (∀ (r : SnapReq) (n : Nat) (l : Lend), s.clockOn = true → s.arb.snaps = [r] → r.tick = some n → n = s.now ∨ (r.stepped = true ∧ n < s.now) →
      s.lendOf r.ltag = some l →
      ∃ t, exec .snapshotLatch s = .next t ∧ t.arb.snaps = [] ∧ t.arb.images = s.arb.images ++ [⟨r, s.now⟩] ∧
        t.arb.snapCount = s.arb.snapCount + 1 ∧ t.arb.snapLast = s.tick.now ∧ (bytes t).length = 17280) ∧
    (∀ (i : SnapImg) (y : InExec), s.clockOn = true → s.arb.images = [i] → s.dataLeft (.snap i.req.tag i.req.slot) = false →
      (s.hp.rings[(19 : Ring)]).exec = none → (s.hp.rings[(19 : Ring)]).pend = [y] → y.tag = i.req.tag → y.slot = i.req.slot →
      ∃ t, exec .snapshotWriteDone s = .next t ∧ t.arb.images = [] ∧ (t.hp.rings[(19 : Ring)]).pend = [] ∧
        t.hp.cq[s.cqOf 19] = s.hp.cq[s.cqOf 19] ++ [⟨20, .cmd (BitVec.ofNat 64 i.ts) y.tag y.sqhd 0 19, s.now⟩]) ∧
    (∀ (k : EddyCopy) (y : InExec), s.clockOn = true → s.arb.copies = [k] → s.dataLeft (.eddy k.tag k.slot) = false →
      (s.hp.rings[(18 : Ring)]).exec = none → (s.hp.rings[(18 : Ring)]).pend = [y] → y.tag = k.tag → y.slot = k.slot →
      ∃ t, exec .eddyReadDone s = .next t ∧ t.arb.copies = [] ∧ (t.eng[k.e]).eddy.copying = false ∧
        t.hp.cq[s.cqOf 18] = s.hp.cq[s.cqOf 18] ++ [⟨19, .cmd (BitVec.ofNat 64 k.held) y.tag y.sqhd 0 18, s.now⟩])

/-- R271, R275, R326, R408, R500, R501 and Tables 02.2, 10.8, 10.9: the power, mode, reset, freeze and housekeeping opcodes of the
admin rings; a MODE_REQ names the conditions that fail, and a RESET waits until its entry has been written. With no move in progress
where a MODE_REQ begins one. -/
def Obligations.PowerModeAndAdminOpcodes : Prop :=
  ∀ (s : State) (q : Ring) (d : Desc),
    let a := descLe d 2 2
    let m := descWord d 8
    let word (v : W32) : W64 := v.zeroExtend 64
    (s.Takes q 0x60 d → a = R.CHG_IN →
      ∃ t, exec (.pwrWrite q d) s = .next t ∧ Answered s t q d 0 (word (t.reg R.CHG_IN)) ∧
        t.get R.CHG_IN_IIN_MA = max 1000 (min (((s.reg a &&& ~~~m) ||| (descWord d 4 &&& m)).toNat % 131072) 80000) ∧
        (∀ k, k ≠ R.CHG_IN → t.reg k = s.reg k) ∧ { t with regs := s.regs, hp := s.hp } = s) ∧
    (s.Takes q 0x61 d → isWide a = false → isHigh a = false →
      ∃ t, exec (.pwrRead q d) s = .next t ∧ Answered s t q d 0 (word (s.liveWord a))) ∧
    (s.Takes q 0x62 d → ∃ t, exec (.buskeepAck q d) s = .next t ∧ Answered s t q d 0 0 ∧
      t.flag R.PACK_STAT_BK_ACK = decide (descLe d 2 1 = 1) ∧ { t with regs := s.regs, hp := s.hp } = s) ∧
    (s.Takes q 0x70 d → s.mode.starting = false → s.mode.move = none →
      let moves (hops : List Mode) (lock : Bool) : Prop :=
        ∃ t, exec (.modeReq q d) s = .next t ∧ t.hp.cq = s.hp.cq ∧ t.mode.mode = s.mode.mode ∧ t.mode.roadLock = lock ∧
          t.mode.move = some { hops := hops, cause := .request, req := some (q, d.tag) }
      let k := descLe d 2 1
      (∀ n, (s.mode.mode, n) ∈ ([(.standby, 1), (.ready, 2), (.field, 3), (.road, 4)] : List (Mode × Nat)) → k = n →
        ∃ t, exec (.modeReq q d) s = .next t ∧ Answered s t q d 0 (BitVec.ofNat 64 n) ∧ { t with hp := s.hp } = s) ∧
      (s.mode.mode = .ready →
        (k = 4 → moves [.road] true) ∧
        (k = 3 → s.mode.pins.key = true → s.mode.restricted = false → s.noProgram = false → s.course.speedSrc ≠ 0 →
          (s.flag R.PACK_STAT_BUSKEEP = false ∨ s.flag R.PACK_STAT_BK_ACK = true) → moves [.field] s.mode.roadLock) ∧
        (k = 3 → s.mode.pins.key = false → s.mode.restricted = false → s.noProgram = false → s.course.speedSrc ≠ 0 →
          s.flag R.PACK_STAT_BUSKEEP = false →
          ∃ t, exec (.modeReq q d) s = .next t ∧ Answered s t q d 0x22 1 ∧ t.mode = s.mode) ∧
        (k = 1 → ∃ t, exec (.modeReq q d) s = .next t ∧ Answered s t q d 0 1 ∧ ∃ v, t.mode.move = some v ∧ v.hops = [.standby])) ∧
      (s.mode.mode = .field → (k = 4 → moves [.road] true) ∧ (k = 2 → moves [.ready] s.mode.roadLock)) ∧
      (s.mode.mode = .road → k = 2 → s.course.v.natAbs < 100000 → moves [.ready] s.mode.roadLock) ∧
      (s.mode.mode = .road → k = 2 → 100000 ≤ s.course.v.natAbs →
        ∃ t, exec (.modeReq q d) s = .next t ∧ Answered s t q d 0x22 32 ∧ t.mode = s.mode)) ∧
    (s.Takes q 0x71 d → ∃ t, exec (.reset q d) s = .next t ∧ Answered s t q d 0 0 ∧ t.mode.mode = s.mode.mode ∧
      t.mode.resetWait = some (if s.mode.fault then .fault else .command, d.tag) ∧ t.mode.pendingReset = s.mode.pendingReset) ∧
    (s.Takes q 0x72 d → s.mode.mode.isLink = true → s.mode.bootStep = 0 → s.mode.fault = false → s.mode.frozen = false →
      ∃ t, exec (.freeze q d) s = .next t ∧ t.hp.cq = s.hp.cq ∧ t.frz.req = some (d.tag, s.lastSlot q) ∧ t.frz.trig.isSome = true ∧
        t.frz.tf = s.now) ∧
    (s.Takes q 0x80 d → ∃ t, exec (.nop q d) s = .next t ∧ Answered s t q d 0 0 ∧ { t with hp := s.hp } = s) ∧
    (s.Takes q 0x81 d →
      ((s.hp.rings[q]).pend = [] → ∃ t, exec (.barrier q d) s = .next t ∧ Answered s t q d 0 0 ∧ { t with hp := s.hp } = s) ∧
      ((s.hp.rings[q]).pend ≠ [] → ∃ t, exec (.barrier q d) s = .next t ∧ Accepted s t q 0x81 d ∧ { t with hp := s.hp } = s)) ∧
    (s.Takes q 0x82 d → ∀ r : Ring, r.val = descLe d 2 1 →
      let y := s.hp.rings[r]
      let bit (b : Bool) (n : Nat) : Nat := if b then 2 ^ n else 0
      ∃ t, exec (.ringQuery q d) s = .next t ∧ { t with hp := s.hp } = s ∧ Answered s t q d 0
        (BitVec.ofNat 64 (y.pi + y.ci * 65536 + bit y.halted 32 + bit y.stalled 33 + bit (s.ringFull r) 34)))

/-! ### Power stages (05_channel_power_stage.md, 01_architecture.md) -/

/-- R106, R115, R116, R119, R145, R148 and Table 06.5: the converters of a single channel whose range is fixed, which take a result on
their grids of 50 and 200 ticks from the sample instant, not within a step of the next, and off them none, their FIFO entries, an edge on
SNS, the control sample at its instant, and its record 60 ticks later, with SAMPLE latched in the engine in control. -/
def Obligations.ConvertersAndControlSamples : Prop :=
  ∀ (s : State) (c : Ch), s.clockOn = true → s.dieHot c = false → s.leadOf c = c → s.topoOf c = 0 →
    let h := s.ch c
    let g := h.stage
    let ua (high : Bool) (code : Int) : Int := roundDiv (code * 15625) (if high then 8 else 64)
    let grid (last : Option Nat) (step : Nat) : Prop := last ≠ some s.now ∧ (∃ t, g.phase = some t ∧ t ≤ s.now ∧ (s.now - t) % step = 0) ∧
      ∀ n, s.nextInstant c = some n → n ≤ s.now ∨ s.now + step ≤ n
    let off (step : Nat) : Prop := ∃ t, g.phase = some t ∧ t ≤ s.now ∧ (s.now - t) % step ≠ 0
    let put (on : Bool) (room : Nat) (l : List W32) (w : W32) : List W32 := if on = true ∧ l.length < room then l ++ [w] else l
    (∀ (high : Bool) (code : Int), s.fixedRange c = some high → code.natAbs ≤ 8191 → grid g.iAt 50 ∨ h.measI ≠ none →
      ∃ t, exec (.currentSample c code) s = .next t ∧ (t.ch c).stage.iNow = ua high code ∧ (t.ch c).stage.highRange = high ∧
        (t.ch c).stage.mark = false ∧ (t.ch c).stage.on = g.on ∧ (∀ k, k ≠ c → t.ch k = s.ch k) ∧
        (t.ch c).istrm = put (s.flag (R.CH_ENG_CTRL_ISTRM_EN c)) 64 h.istrm (istrmWord (ua high code) false high false false false)) ∧
    (∀ code : Int, off 50 → h.measI = none → exec (.currentSample c code) s = .next s) ∧
    (∀ code : BitVec 12, off 200 → h.measV = none → exec (.voltageSample c code) s = .next s) ∧
    (∀ code : BitVec 12, grid g.vAt 200 ∨ h.measV ≠ none → ∃ t, exec (.voltageSample c code) s = .next t ∧
      (t.ch c).stage.vNow = -16400 + 20 * (code.toNat : Int) ∧ (t.ch c).istrm = h.istrm ∧ (∀ k, k ≠ c → t.ch k = s.ch k) ∧
      (t.ch c).vstrm = put (s.flag (R.CH_ENG_CTRL_VSTRM_EN c)) 16 h.vstrm (vstrmWord (-16400 + 20 * (code.toNat : Int)) false)) ∧
    ((s.get (R.CH_STAGE_CFG_SNS c) = 4 ∨ s.get (R.CH_STAGE_CFG_SNS c) = 5) → g.snsVal.toNat < 65536 →
      ∃ t, exec (.snsEdge c true) s = .next t ∧ (t.ch c).stage.snsVal = BitVec.ofNat 17 ((g.snsVal.toNat + 1) % 65536 + 65536) ∧
        (t.ch c).snse = put true 8 h.snse (BitVec.ofNat 32 ((s.now - s.get (R.CH_SNS_CFG_FILT c)) % 2 ^ 31 + 2 ^ 31))) ∧
    (∀ (n : Nat) (high : Bool) (x : SampleIn), h.instant = some n → n ≤ s.now → s.fixedRange c = some high → x.iCode.natAbs ≤ 8191 →
      ∃ t, exec (.controlSampleInstant c x) s = .next t ∧ (t.ch c).instant = none ∧ (t.ch c).latchDue = some (n + 60) ∧
        (t.ch c).smpNext.i = ua high x.iCode ∧ (t.ch c).smpNext.v = -16400 + 20 * (x.vCode.toNat : Int) ∧
        (t.ch c).smpNext.tick = n ∧ (t.ch c).smpNext.onAt = (t.ch c).stage.on ∧ (t.ch c).stage.waitSample = false ∧
        (t.ch c).stage.phase = some n ∧ (t.ch c).smp = h.smp ∧ (g.waitSample = false → (t.ch c).stage.on = g.on) ∧
        (∀ d, g.waitSample = true → g.pend = some d → (t.ch c).stage.cmdOn = d.on ∧ (t.ch c).stage.pend = none)) ∧
    (∀ (n : Nat) (e : Eng), h.latchDue = some n → n ≤ s.now → h.ctl = some e → h.takeover = none →
      ∃ t, exec (.sampleEventLatch c) s = .next t ∧ t.eng[e] = { s.eng[e] with pend := s.eng[e].pend ||| 1 } ∧
        (∀ k : Eng, k ≠ e → t.eng[k] = s.eng[k]) ∧ (t.ch c).latchDue = none ∧ (t.ch c).dueMet = false ∧
        (t.ch c).smp = { h.smpNext with seq := h.smp.seq + 1, lost := s.eng[e].pend.getLsbD 0, dly := h.smp.dly, dlySeq := h.smp.dlySeq } ∧
        t.regs = s.regs)

/-- R107, R108, R112, R151: a command that has crossed the stage link waits for the update point two ticks or more after its arrival: a
centre, whole carrier periods from the sample instant, or a valley, half a period further. The point makes it the on-time in effect,
snapped to 0 and to the full period at the ends, a centre its turn-off edge alone; and the report of that point writes DLY and latches
it. For a single channel with no soft start.

R122 to R125: the current limit turns the high side off while a member of the group is in an on-time; the peak budget runs down above the continuous rating and is restored at half;
a hiccup lasts OFF_MS and ends in a soft start; and 100 periods without current report an open load. -/
def Obligations.DutiesAndLimitsOfTheStage : Prop :=
  (∀ (s : State) (c : Ch), s.clockOn = true →
    let h := s.ch c
    let p := s.acting c (R.CH_PWM_PERIOD c)
    (∀ d rest, h.flight = d :: rest → d.due ≤ s.now →
      exec (.dutyCommandArrival c) s = .next (s.modCh c fun x => { x with flight := rest, stage := { x.stage with pend := some d } })) ∧
    (∀ (d : DutyCmd) (centre : Bool) (n : Nat), h.stage.pend = some d → d.due + 2 ≤ s.now → s.leadOf c = c → s.topoOf c = 0 →
      h.stage.waitSample = false → h.stage.soft = false → h.stage.pointAt ≠ some s.now → h.stage.phase = some n → n ≤ s.now →
      (s.now - n) % p = (if centre then 0 else p / 2) →
      let p8 := 8 * if centre then p else s.get (R.CH_PWM_PERIOD c)
      let on : Int := if d.on.natAbs < 80 then 0
        else if p8 < d.on.natAbs + 80 then (if d.on < 0 then -(p8 : Int) else p8) else d.on
      ∃ t, exec (.carrierUpdatePoint c centre) s = .next t ∧ (t.ch c).stage.pend = none ∧ (t.ch c).stage.cmdOn = d.on ∧
        (t.ch c).stage.report = some (s.now, centre, d) ∧ (t.ch c).stage.hsOff = (centre && h.stage.hsOff) ∧
        (t.ch c).stage.on = on ∧ (t.ch c).stage.rise = (if centre then h.stage.rise else on) ∧
        (∀ k, k ≠ c → t.ch k = s.ch k) ∧ t.regs = s.regs ∧ t.eng = s.eng) ∧
    (∀ n, h.stage.phase = some n → n ≤ s.now → (s.now - n) % p ≠ 0 → exec (.carrierUpdatePoint c true) s = .next s) ∧
    (∀ d, h.stage.pend = some d → s.now < d.due + 2 → s.leadOf c = c →
      ∃ t, exec (.carrierUpdatePoint c false) s = .next t ∧ (t.ch c).stage.pend = some d ∧ (t.ch c).stage.cmdOn = h.stage.cmdOn) ∧
    (∀ n centre d seq inst e, h.stage.report = some (n, centre, d) → d.answers = some (seq, inst) → h.ctl = some e → h.takeover = none →
      ∃ t, exec (.dlyReport c) s = .next t ∧ (t.ch c).smp.dlySeq = seq ∧ (t.ch c).stage.report = none ∧
        (inst ≤ n → n < inst + 16777216 →
          (t.ch c).smp.dly = BitVec.ofNat 32 (n - inst + if centre then 16777216 else 0)) ∧
        t.eng[e] = { s.eng[e] with pend := s.eng[e].pend ||| 0x80 })) ∧
  (∀ (s : State) (c : Ch), s.clockOn = true → s.leadOf c = c →
    let g := (s.ch c).stage
    let g' (t : State) : Stage := (t.ch c).stage
    let data : W32 := BitVec.ofNat 32 c.val
    let above := s.contRating c * 1000 < (s.groupUa c).natAbs
    let left := if above then g.budget - 9 * (s.now - g.budgetAt) else min 36000000 (g.budget + (s.now - g.budgetAt))
    (s.topoOf c = 0 → s.driven c = true → g.on ≠ 0 → (s.output c).isPwm = true) ∧
    ((∃ m ∈ s.groupOf c, (s.output m).isPwm = true) →
      exec (.currentLimitReached c) s = .next (s.modStage c fun x => { x with hsOff := true })) ∧
    (left = 0 → g.peakExh = false →
      ∃ t, exec (.peakBudgetExhausted c) s = .next t ∧ g' t = { g with budget := 0, budgetAt := s.now, peakExh := true } ∧
        (s.Room → Stored s t (chCode c 0x54) 0 data)) ∧
    (18000000 ≤ left → g.peakExh = true →
      ∃ t, exec (.peakBudgetRestored c) s = .next t ∧ g' t = { g with budget := left, budgetAt := s.now, peakExh := false } ∧
        t.regs = s.regs) ∧
    (g.hiccupUntil = none → s.acting c (R.CH_HICCUP_COUNT c) ≤ g.limRun + (if g.hsOff then 1 else 0) →
      ∃ t, exec (.hiccupStart c) s = .next t ∧ (g' t).hiccupUntil = some (s.now + s.acting c (R.CH_HICCUP_OFF_MS c) * 200000) ∧
        (g' t).limRun = 0 ∧ (g' t).hsOff = false ∧ (g' t).limiting = true ∧
        (s.mayRaise (chCode c 0x53) c.val 200000000 = true → s.Room → Stored s t (chCode c 0x53) 0 data)) ∧
    (∀ n, g.hiccupUntil = some n → n ≤ s.now →
      exec (.hiccupEnd c) s = .next (s.modStage c fun x =>
        { x with hiccupUntil := none, limiting := false, soft := true, softOn := 0 })) ∧
    (100 ≤ g.openRun → g.openLoad = false →
      ∃ t, exec (.openLoadDetect c) s = .next t ∧ g' t = { g with openLoad := true } ∧
        (s.Room → Stored s t (chCode c 0x55) 0 data)))

/-- R14, R130 to R135, R137 and Table 05.5: a desaturated leg, or the weaker leg at the third successive imbalance, leaves service with its
event, F1 while the other leg stays and F2 when the channel is lost; CH_LEG.RESTORE puts a leg back, but not in FIELD; and the loss
and return of a stage link. -/
def Obligations.LegFaultsAndStageLinks : Prop :=
  ∀ (s : State) (c : Ch),
    let h := s.ch c
    let g := h.stage
    let other (l : Leg) : Leg := match l with | .a => .b | .b => .a
    let data (l : Leg) (why : Nat) : W32 := BitVec.ofNat 32 (c.val + (match l with | .a => 0 | .b => 256) + why * 512)
    let out (l : Leg) (why : Nat) (t : State) : Prop :=
      ((t.ch c).stage.leg l).inService = false ∧ ((t.ch c).stage.leg l).why = BitVec.ofNat 2 why ∧
      ((t.ch c).stage.leg l).worn = ((g.leg l).worn || decide (3 ≤ (g.leg l).restores)) ∧
      (t.ch c).stage.leg (other l) = g.leg (other l) ∧ ((t.ch c).stage.leg l).stuck = false ∧ (∀ k, k ≠ c → t.ch k = s.ch k) ∧
      (s.Room →
        ((g.leg (other l)).inService = true → Stored s t (chCode c 0x50) 1 (data l why)) ∧
        ((g.leg (other l)).inService = false → isGang (s.topoOf c) = false → Stored s t (chCode c 0x51) 2 (data l why)) ∧
        ((g.leg (other l)).inService = false → isGang (s.topoOf c) = true → Stored s t (chCode c 0x52) 2 (data l why)))
    (∀ (l : Leg) (hs : Bool), (g.leg l).inService = true →
      (s.mode.frozen = false → ∃ t, exec (.desaturation c l hs false) s = .next t ∧ out l (if hs then 2 else 3) t) ∧
      (s.mode.frozen = true → g.frzDesat = none → exec (.desaturation c l hs false) s =
        .next (s.modStage c fun x => { x with frzDesat := some (l, hs, false), holdRef := 0 }))) ∧
    (∀ iA iB : Int, s.clockOn = true → g.legs = 2 →
      (1000000 ≤ iA.natAbs + iB.natAbs → 3 * (iA.natAbs + iB.natAbs) < 10 * (iA - iB).natAbs →
        (g.imbRun < 2 → exec (.legImbalance c iA iB false) s = .next (s.modStage c fun x => { x with imbRun := x.imbRun + 1 })) ∧
        (2 ≤ g.imbRun → ∃ t, exec (.legImbalance c iA iB false) s = .next t ∧
          out (if iA.natAbs < iB.natAbs then .a else .b) 1 t)) ∧
      (iA.natAbs + iB.natAbs < 1000000 →
        exec (.legImbalance c iA iB false) s = .next (s.modStage c fun x => { x with imbRun := 0 }))) ∧
    (s.clockOn = true →
      (s.mode.mode = .field → ∃ t, exec (.chLegRestore c) s = .next t ∧ t.chan = s.chan ∧
        (s.Room → Stored s t (chCode c 0x56) 0 (BitVec.ofNat 32 c.val))) ∧
      (s.mode.mode ≠ .field → g.legA.inService = false → g.legA.worn = false → g.legB.inService = true →
        ∃ t, exec (.chLegRestore c) s = .next t ∧ (t.ch c).stage.legB = g.legB ∧
          (t.ch c).stage.legA = { g.legA with inService := true, why := 0, restores := min 3 (g.legA.restores + 1), stuck := false } ∧
          (s.Room → Stored s t (chCode c 0x58) 0 (data .a g.legA.why.toNat))) ∧
      (s.mode.mode ≠ .field → g.legA.inService = false → g.legA.worn = true → g.legB.inService = true →
        exec (.chLegRestore c) s = .next s)) ∧
    (∀ die : StageDie, s.clockOn = true →
      let mine (k : Ch) : Prop := k.val / 8 = die.val
      let data : W32 := BitVec.ofNat 32 (8 * die.val + 256 * die.val)
      let first : Ch := ⟨8 * die.val, by omega⟩
      ((∀ k, mine k → (s.ch k).stage.linkSafe = false) →
        ∃ t, exec (.stageLinkLoss die) s = .next t ∧ (s.Room → Stored s t (chCode first 0x59) 2 data) ∧
          (∀ k, mine k → (t.ch k).stage.linkSafe = true ∧ (t.ch k).flight = (s.ch k).flight) ∧ (∀ k, ¬mine k → t.ch k = s.ch k)) ∧
      ((∃ k, mine k ∧ (s.ch k).stage.linkSafe = true) →
        ∃ t, exec (.stageLinkRestore die) s = .next t ∧ (s.Room → Stored s t (chCode first 0x5A) 0 data) ∧
          (∀ k, mine k → (t.ch k).stage.linkSafe = false ∧ (t.ch k).stage.waitSample = true) ∧
          (∀ k, ¬mine k → t.ch k = s.ch k)))

/-- R105, R106, R109, R121, R136, R165 and Tables 05.6, 06.9: the set-up of a single channel: enabling it with a sample period that is a
multiple of its carrier period starts its soft start; one that is not is refused with event 0x56; FIELD keeps ENABLE and RUN; and
CH_ENG_CTRL empties a FIFO that it turns off, stops a running program and starts a loaded one. No engine changes
where no FIFO holds what its WAIT events ask for. -/
def Obligations.ChannelSetUpWrites : Prop :=
  ∀ (s : State) (c : Ch) (v : W32), s.clockOn = true →
    let h := s.ch c
    let refused (t : State) : Prop := s.Room → Stored s t (chCode c 0x56) 0 (BitVec.ofNat 32 c.val)
    let p := s.get (R.CH_PWM_PERIOD c)
    let n := (s.units[smpUnit c]).period.toNat
    let cfg := v &&& 0x1FCF
    let still (t : State) : Prop := (t.ch c).istrm = [] → h.snse = [] → t.eng = s.eng
    (s.mode.mode ≠ .field → s.leadOf c = c → s.topoOf c = 0 → fieldOf v (R.CH_STAGE_CFG_TOPO c) = 0 →
      s.flag (R.CH_STAGE_CFG_ENABLE c) = false → fieldOf v (R.CH_STAGE_CFG_ENABLE c) = 1 →
      (p ≠ 0 → n % p = 0 → 1 ≤ n / p → n / p ≤ 200 →
        ∃ t, exec (.chStageCfgWrite c v) s = .next t ∧ t.reg (R.CH_STAGE_CFG c) = cfg ∧ (t.ch c).stage.soft = true ∧
          (t.ch c).stage.softOn = 0 ∧ (t.ch c).stage.budget = 36000000 ∧ (t.ch c).stage.peakExh = false ∧
          (∀ k, k ≠ c → t.ch k = s.ch k) ∧ (∀ a, a ≠ R.CH_STAGE_CFG c → t.reg a = s.reg a)) ∧
      (p = 0 ∨ n % p ≠ 0 ∨ 200 < n / p →
        ∃ t, exec (.chStageCfgWrite c v) s = .next t ∧ t.flag (R.CH_STAGE_CFG_ENABLE c) = false ∧ refused t ∧
          (t.ch c).stage.soft = h.stage.soft)) ∧
    (s.mode.mode = .field → fieldOf v (R.CH_STAGE_CFG_ENABLE c) ≠ s.get (R.CH_STAGE_CFG_ENABLE c) →
      ∃ t, exec (.chStageCfgWrite c v) s = .next t ∧ refused t ∧
        t.get (R.CH_STAGE_CFG_ENABLE c) = s.get (R.CH_STAGE_CFG_ENABLE c)) ∧
    (s.mode.mode = .field → ∃ t, exec (.chEngCtrlWrite c v) s = .next t ∧ refused t ∧ t.chan = s.chan ∧ t.eng = s.eng ∧
      t.reg (R.CH_ENG_CTRL c) = s.reg (R.CH_ENG_CTRL c)) ∧
    (s.mode.mode ≠ .field →
      (v.getLsbD 0 = false → s.flag (R.CH_ENG_CTRL_RUN c) = true →
        ∃ t, exec (.chEngCtrlWrite c v) s = .next t ∧ t.reg (R.CH_ENG_CTRL c) = v &&& 0x3F06 ∧
          (t.ch c).flight = h.flight ++ [⟨0, s.now + 12, none⟩] ∧ (t.ch c).stopReq = true ∧ still t ∧
          (t.ch c).istrm = (if v.getLsbD 1 then h.istrm else []) ∧ (t.ch c).vstrm = (if v.getLsbD 2 then h.vstrm else [])) ∧
      (v.getLsbD 0 = false → s.flag (R.CH_ENG_CTRL_RUN c) = false →
        ∃ t, exec (.chEngCtrlWrite c v) s = .next t ∧ t.reg (R.CH_ENG_CTRL c) = v &&& 0x3F06 ∧ (t.ch c).flight = h.flight ∧
          still t) ∧
      (∀ e, v.getLsbD 0 = true → s.isMember c = false → s.flag (R.CH_ENG_CTRL_RUN c) = false → s.flag (R.CH_ENG_STAT_LOADED c) = true → h.ctl = some e →
        ∃ t, exec (.chEngCtrlWrite c v) s = .next t ∧ t.flag (R.CH_ENG_CTRL_RUN c) = true ∧ t.eng[e].running = true ∧
          t.eng[e].pc = 4 * h.slot.entry ∧ (∀ k : Eng, k ≠ e → t.eng[k] = s.eng[k])) ∧
      (v.getLsbD 0 = true → s.flag (R.CH_ENG_STAT_LOADED c) = false →
        ∃ t, exec (.chEngCtrlWrite c v) s = .next t ∧ t.flag (R.CH_ENG_CTRL_RUN c) = false ∧ still t))

/-! ### The Keep and the course engine (01_architecture.md, 02_modes_and_startup.md, 03_course_engine.md) -/

/-- R19, R25, R44, R271, R474: a first lockstep mismatch restarts the Keep with event 0x0B01, a second within 60 s is an F3; at the
end of the restart the Keep runs, or is halted where the reference was lost in it; and a decision boundary, 1 ms or more after
the latest, takes every write that waited for it, a patch that has passed, and refreshes the mirror of the two-wire target.
The 60 s run on the wall time (assumption 54).

R37, R395 to R400 and Tables 15.1, 15.3: a fault pair that qualifies latches its source and acts once; a broken pair adds event 0x0B00; a
source that clears may act again; the oldest F3 enters the fault state and records its cause; and ERR_N ends its pulse. -/
def Obligations.KeepRestartsAndFaultsAreCollected : Prop :=
  (∀ s : State,
    (s.mode.keep = .run → s.flt.told.contains 0x42 = false → s.flt.active.contains 0x42 = false →
      (s.mode.mismatchAt = none →
        ∃ t, exec .keepLockstepMismatch s = .next t ∧ t.mode.keep = .restart ∧ t.mode.mismatchAt = some s.tick.wall ∧
          (s.Room → Stored s t 0x0B01 2 0) ∧ t.eng = s.eng ∧ t.chan = s.chan) ∧
      (∀ n, s.mode.mismatchAt = some n → s.tick.wall < n + 12000000000 →
        ∃ t, exec .keepLockstepMismatch s = .next t ∧ t.mode.keep = .run ∧ t.mode.mismatchAt = some n ∧
          (s.Room → Stored s t 0x0B02 3 0))) ∧
    (s.mode.keep = .restart →
      ∃ t, exec .keepRestartDone s = .next t ∧
        t.mode = { s.mode with keep := if s.mode.refLost then .halted else .run, refLost := false } ∧
        t.flt.told.contains 0x42 = false ∧ t.flt.active.contains 0x42 = false ∧ t.eng = s.eng ∧ t.chan = s.chan) ∧
    (s.keepRuns = true → (∀ k, s.pace.keep = some k → k + 200000 ≤ s.tick.wall) →
      (s.hp.rings[(16 : Ring)]).fetched = [] → (s.hp.rings[(16 : Ring)]).parked = false →
      (s.hp.rings[(17 : Ring)]).fetched = [] → (s.hp.rings[(17 : Ring)]).parked = false →
      ∃ t, exec .keepDecisionBoundary s = .next t ∧ t.keepWrites = [] ∧ t.mode.patchSwitch = false ∧
        t.pace.keep = some s.tick.wall ∧ (s.mode.patchSwitch = true → t.mode.keepPatched = true) ∧
        (t.mode.mode ≠ .ship → t.tw.refreshed = s.tick.wall ∧ t.mode.moveFresh = false))) ∧
  (∀ (s : State),
    (∀ src : Fin 128, s.mode.mode ≠ .ship → s.flt.active.contains src = false → s.flt.told.contains src = false →
      src.val ≠ 0x42 → ∀ code cls data, s.srcEvent src.val = some (code, cls, data) →
      let latch : Fld := ⟨R.FLT_LATCH (src.val / 32), src.val % 32, 1⟩
      (∃ t, exec (.faultPairQualify src) s = .next t ∧ t.get latch = 1 ∧ t.flt.active.contains src = true ∧ t.eng = s.eng ∧
        t.chan = s.chan ∧ (s.Room → Stored s t code cls (BitVec.ofNat 32 data))) ∧
      (s.flt.brokenActive.contains src = false →
        ∃ t, exec (.faultPairBroken src) s = .next t ∧ t.get latch = 1 ∧ t.flt.brokenActive.contains src = true ∧
          t.get ⟨R.FLT_BROKEN (src.val / 32), src.val % 32, 1⟩ = 1 ∧
          (s.Room → Stored s t code cls (BitVec.ofNat 32 data) ∧ Stored s t 0x0B00 cls (BitVec.ofNat 32 src.val)))) ∧
    (∀ src : Fin 128, s.flt.active.contains src = true → exec (.faultPairQualify src) s = .next s) ∧
    (∀ src : Fin 128, ∃ t, exec (.faultPairCleared src) s = .next t ∧ t.flt.active.contains src = false ∧
      t.flt.brokenActive.contains src = false ∧ t.flt.told.contains src = false ∧ { t with flt := s.flt } = s) ∧
    (∀ f l, s.mode.f3Pend = f :: l → s.mode.mode ≠ .ship → s.mode.fault = false → s.mode.frozen = false →
      s.mode.starting = false → s.mode.move = none → ∃ t, exec .faultStateEntry s = .next t ∧ t.mode.fault = true ∧
        t.mode.mode = s.mode.mode ∧ t.mode.f3Pend = [] ∧ t.get R.FLT_STAT_F3_CODE = f.code.toNat ∧
        t.flag R.FLT_STAT_BROKEN = f.broken ∧ t.flag R.FLT_ERR_CTRL_HOLD = true ∧ t.flag R.FLT_ERR_CTRL_LOW = true ∧
        (s.inBuskeep = false → t.power.gatesOn = false) ∧ t.chan = s.chan ∧ t.eng = s.eng ∧ t.rail = s.rail) ∧
    (∀ n, s.flt.pulseUntil = some n → n ≤ s.tick.wall → ∃ t, exec .errNPulseEnd s = .next t ∧ t.flt.pulseUntil = none ∧
      t.flag R.FLT_ERR_CTRL_LOW = s.flag R.FLT_ERR_CTRL_HOLD ∧ t.flag R.FLT_ERR_CTRL_HOLD = s.flag R.FLT_ERR_CTRL_HOLD))

/-- R60 to R62, with the filter off and its levels settled: an edge of one line is counted, gives the direction and ends a stop; a
change of both lines is a quadrature error that changes no count, direction or speed. With a filter a new level is only noted,
and counts once it has held for FILT ticks; one that goes back before counts nothing. A pulse of the radar is counted; a
source without an edge for its stop time reads 0; and the analog converter keeps its last ten results. Which order of edges is
forwards, and the phase of the converter, are the model's choices (assumptions 13, 69 and 70). -/
def Obligations.SpeedSensorsAreCounted : Prop :=
  ∀ s : State, s.clockOn = true →
    let rest (t : State) : Prop := { t with course := s.course } = s
    let filt := s.get R.ENC_CFG_FILT
    (∀ (n : Fin 2) (a b : Bool), let e := s.enc n
      (e.rawA = e.a → e.rawB = e.b →
        (filt = 0 → a ≠ e.a → b ≠ e.b → ∃ t, exec (.encoderEdge n a b) s = .next t ∧
          t.enc n = { e with a := a, b := b, rawA := a, rawB := b, aAt := s.now, bAt := s.now, qerrs := 0 :: e.qerrs } ∧
          (∀ k, k ≠ n → t.enc k = s.enc k) ∧
          t.get (if n = 0 then R.COURSE_CNT_ENC0_QERR else R.COURSE_CNT_ENC1_QERR) =
            min 255 (s.get (if n = 0 then R.COURSE_CNT_ENC0_QERR else R.COURSE_CNT_ENC1_QERR) + 1)) ∧
        (filt = 0 → (a ≠ e.a ∧ b = e.b ∨ a = e.a ∧ b ≠ e.b) → ∃ t, exec (.encoderEdge n a b) s = .next t ∧ rest t ∧
          (t.enc n).a = a ∧ (t.enc n).b = b ∧ (t.enc n).edges.head? = some s.now ∧ (t.enc n).stopped = false ∧
          (t.enc n).qerrs = e.qerrs ∧ (∀ k, k ≠ n → t.enc k = s.enc k) ∧
          (t.enc n).dirNeg = (if a = e.a then a != b else a == b)) ∧
        (a = e.a → b = e.b → exec (.encoderEdge n a b) s = .next s) ∧
        (filt ≠ 0 → a ≠ e.a → b = e.b → ∃ t, exec (.encoderEdge n a b) s = .next t ∧ rest t ∧
          t.enc n = { e with rawA := a, aAt := s.now }) ∧
        (∀ x l, e.edges = x :: l → x + s.get R.ENC_CFG_STOP_MS * 200000 ≤ s.now →
          ∃ t, exec (.encoderStop n) s = .next t ∧ rest t ∧ t.enc n = { e with stopped := true } ∧ t.encSpeed n = 0)) ∧
      (e.rawA ≠ e.a → e.rawB = e.b → b = e.b →
        (e.aAt + filt ≤ s.now → a = e.rawA → ∃ t, exec (.encoderEdge n a b) s = .next t ∧ rest t ∧
          (t.enc n).a = a ∧ (t.enc n).b = b ∧ (t.enc n).edges.head? = some (e.aAt + filt) ∧ (t.enc n).stopped = false) ∧
        (s.now < e.aAt + filt → a = e.a → ∃ t, exec (.encoderEdge n a b) s = .next t ∧ rest t ∧
          t.enc n = { e with rawA := a, aAt := s.now }))) ∧
    (∃ t, exec .radarPulse s = .next t ∧ rest t ∧ t.course.radar.pulses.head? = some s.now ∧ t.course.radar.stopped = false ∧
      { t.course with radar := s.course.radar } = s.course) ∧
    (∀ x l, s.course.radar.pulses = x :: l → x + s.get R.RADAR_CFG_STOP_MS * 200000 ≤ s.now →
      ∃ t, exec .radarStop s = .next t ∧ rest t ∧ t.course = { s.course with radar := { s.course.radar with stopped := true } }) ∧
    (∀ code : BitVec 12,
      (s.now % 20000 = 0 → s.course.spdanAt ≠ some s.now → ∃ t, exec (.spdanSample code) s = .next t ∧ rest t ∧
        t.course = { s.course with spdan := (code.toNat :: s.course.spdan).take 10, spdanAt := some s.now }) ∧
      (s.now % 20000 ≠ 0 → exec (.spdanSample code) s = .next s))

/-- R58, R64, R66, R67, R68, R72: what moves the choice of the speed source between updates: a source of higher rank after 1 s, the
end of a validity time, the end of the coast time and of a blend, a disagreement of 1 s; and GO captures the host's pose. -/
def Obligations.SourcesAreChosenAndLost : Prop :=
  ∀ s : State, s.clockOn = true →
    let c := s.course
    let rest (t : State) : Prop := t.regs = s.regs ∧ t.chan = s.chan ∧ t.units = s.units ∧ t.eng = s.eng ∧ t.tick = s.tick
    (∀ k : BitVec 4, c.speedSrc ≠ 0 → s.ranking.contains c.speedSrc = true →
      (s.ranking.takeWhile (· ≠ c.speedSrc)).contains k.toNat = true → s.speedOk k.toNat = true → k ≠ 0 →
      (100000 ≤ c.validFor.getD k.toNat 0 → ∃ t, exec (.speedSourceDisplace k) s = .next t ∧ t.course.speedSrc = k.toNat ∧
        t.course.vBlend = some ⟨c.v, s.now⟩ ∧ t.course.v = c.v ∧
        (s.Room → Stored s t 0x0400 0 (BitVec.ofNat 32 (k.toNat + c.speedSrc * 16)))) ∧
      (c.validFor.getD k.toNat 0 < 100000 → exec (.speedSourceDisplace k) s = .next s)) ∧
    (c.host.got = true → s.isValid 8 = true → s.get R.HOST_CFG_TIMEOUT_MS * 100 ≤ c.host.age →
      ∃ t, exec (.sourceTimeout 8) s = .next t ∧ t.course.host.got = false ∧ t.isValid 8 = false ∧ t.course.speedSrc ≠ 8 ∧
        (s.Room → Stored s t 0x0401 0 8)) ∧
    (c.coasting = true → c.coastOver = false → c.coastAt + s.get R.COURSE_CTRL_COAST_10MS * 2000000 ≤ s.now →
      ∃ t, exec .coastTimeExpiry s = .next t ∧ t.course = { c with coastOver := true } ∧ (s.Room → Stored s t 0x0404 0 0)) ∧
    (∀ b, c.vBlend = some b → b.at_ + s.get R.COURSE_CTRL_BLEND_MS * 200000 ≤ s.now →
      ∃ t, exec (.blendEnd false) s = .next t ∧ t.course = { c with vBlend := none } ∧ rest t ∧ t.hp = s.hp) ∧
    (∀ b, c.wBlend = some b → b.at_ + s.get R.COURSE_CTRL_BLEND_MS * 200000 ≤ s.now →
      ∃ t, exec (.blendEnd true) s = .next t ∧ t.course = { c with wBlend := none } ∧ rest t ∧ t.hp = s.hp) ∧
    (∀ k : BitVec 4, c.disagree.getD k.toNat 0 = 100000 →
      ∃ t, exec (.crosscheckDisagree k) s = .next t ∧ t.course.speedSrc = c.speedSrc ∧ t.course.v = c.v ∧
        (s.Room → Stored s t 0x0405 0 (BitVec.ofNat 32 (c.speedSrc + k.toNat * 16)))) ∧
    (∃ t, exec .hostPoseCommit s = .next t ∧ rest t ∧ t.hp = s.hp ∧
      t.course = { c with pose := some { tick := s.reg64 R.HOST_POSE_TICK, v := s.regI R.HOST_POSE_V,
                                         heading := s.regN R.HOST_POSE_HEADING, omega := s.regI R.HOST_POSE_OMEGA,
                                         flags := (s.reg R.HOST_POSE_FLAGS).extractLsb' 0 4 } })

/-- R55, R56, R437: a rebase waits for the next update, except in FIELD and on a tributary, where it is discarded with event 0x0409;
geometry is saturated to 100,000,000 µm, a new x_i moves s_i at the next update, and FIELD keeps it.

R52, R53, R54, R56, R74: the course update of a tick divisible by 2,000, without a rebase: every s_i integrates its v_i over the
ticks since the update before, with what a new x_i adds; s_ref integrates v; the first update after a thaw integrates the
speeds held through the gap; a and α are the differences over 100 updates; and the update keeps its tick. On any other tick
there is no update, and no second one on a tick. -/
def Obligations.CourseRebaseAndIntegration : Prop :=
  (∀ s : State, s.clockOn = true →
    (s.mode.mode ≠ .field → s.rv.role ≠ .tributary →
      exec .courseRebaseGo s = .next { s with course := { s.course with rebaseGo := true } }) ∧
    (s.mode.mode = .field ∨ s.rv.role = .tributary → ∃ t, exec .courseRebaseGo s = .next t ∧ t.course = s.course ∧
      t.chan = s.chan ∧ (s.Room → Stored s t 0x0409 0 0)) ∧
    (∀ (c : Ch) (isX : Bool) (v : W32), let new := max (-100000000) (min v.toInt 100000000)
      (s.mode.mode = .field → ∃ t, exec (.chGeomWrite c isX v) s = .next t ∧ (∀ k, t.chX k = s.chX k ∧ t.chY k = s.chY k) ∧ t.chan = s.chan ∧
        (s.Room → Stored s t 0x0409 0 0)) ∧
      (s.mode.mode ≠ .field →
        ∃ t, exec (.chGeomWrite c isX v) s = .next t ∧ (if isX then t.chX c else t.chY c) = new ∧
          (if isX then t.chY c else t.chX c) = (if isX then s.chY c else s.chX c) ∧
          t.ch c = { s.ch c with dX := (s.ch c).dX + (if isX then new - s.chX c else 0) } ∧
          (∀ k, k ≠ c → t.ch k = s.ch k) ∧
          (∀ a, a ≠ R.CH_GEOM_X c → a ≠ R.CH_GEOM_Y c → t.reg a = s.reg a)))) ∧
  (∀ s : State, s.clockOn = true →
    let dt := s.now - s.course.updTick.toNat
    (s.now % 2000 ≠ 0 ∨ s.course.updAt = some s.now → exec .courseUpdate s = .next s) ∧
    (s.now % 2000 = 0 → s.course.updAt ≠ some s.now → s.course.rebaseGo = false → s.course.rebaseRing = false →
      ∃ t, exec .courseUpdate s = .next t ∧ t.course.updTick = s.tick.now ∧ t.course.updAt = some s.now ∧
        t.course.thawed = false ∧ t.units = s.units ∧
        t.course.overspeed = decide ((if s.mode.mode = .field then 20000000 else 25000000) < t.course.v.natAbs) ∧
        t.course.accel = satI 32 ((t.course.v - s.course.vHist.getD 99 0) * 1000) ∧
        t.course.alpha = satI 32 ((t.course.omega - s.course.omegaHist.getD 99 0) * 1000) ∧
        t.course.vHist = (t.course.v :: s.course.vHist).take 100 ∧
        (t.course.speedSrc ≠ 9 → t.course.sRefQ24 = wrapI 72 (s.course.sRefQ24 +
          roundDiv ((if s.course.thawed then s.course.v else t.course.v) * dt * 16777216) 200000000)) ∧
        ∀ c : Ch,
          (t.ch c).viQ8 = roundDiv ((t.course.v * 1000000 - t.course.omega * s.chY c) * 256) 1000000 ∧
          (t.ch c).sQ24 = wrapI 64 ((s.ch c).sQ24 +
            roundDiv ((if s.course.thawed then (s.ch c).viQ8 else (t.ch c).viQ8) * dt * 65536) 200000000 +
            (s.ch c).dX * 16777216) ∧
          (t.ch c).dX = 0))

/-! ### GNSS and compare units (03_course_engine.md, 04_tick_base_and_compares.md) -/

/-- R77 to R82 and Table 03.5: a high sample 0 starts no character; the majority of samples 16k + 7 to 16k + 9 is bit k, and a start
bit voted high is dropped; a stop bit voted low is a framing error that waits for the line to be
high again; in NMEA mode `$` begins a sentence; a bad sentence or frame is counted and dropped; and a binary frame with a right
type, length and CRC gives its speed, stamped AGE before its first byte. -/
def Obligations.GnssReceiversParse : Prop :=
  ∀ (s : State) (n : Fin 2), s.clockOn = true →
    let u := s.uart[n]
    (∀ (l : List Bool) (early : Bool), l.length = 154 → u.waitHigh = false →
      let x (i : Nat) : Bool := l.getD i true
      let bit (k : Nat) : Bool := (x (16 * k + 7) && x (16 * k + 8)) || (x (16 * k + 7) && x (16 * k + 9)) ||
        (x (16 * k + 8) && x (16 * k + 9))
      (x 0 = true → exec (.gnssCharacter n l early) s = .next s) ∧
      (x 0 = false → early = false → bit 0 = true → exec (.gnssCharacter n l early) s = .next s) ∧
      (x 0 = false → early = true → bit 0 = true → ∃ t, exec (.gnssCharacter n l early) s = .next t ∧ t.uart = s.uart ∧
        t.get (R.GNSS_CNT0_EARLY n) = min 65535 (s.get (R.GNSS_CNT0_EARLY n) + 1)) ∧
      (x 0 = false → early = false → bit 0 = false → bit 9 = false → ∃ t, exec (.gnssCharacter n l early) s = .next t ∧
        t.uart[n] = { u with waitHigh := true, nmeaOn := false, nmea := [], bin := [] } ∧
        t.get (R.GNSS_CNT0_FRAMING n) = min 65535 (s.get (R.GNSS_CNT0_FRAMING n) + 1) ∧ t.course = s.course) ∧
      (x 0 = false → early = false → bit 0 = false → bit 9 = true → s.get (R.GNSS_MODE_FORMAT n) = 1 →
        (∀ k : Nat, k < 8 → bit (k + 1) = (0x24 : Byte).getLsbD k) →
        exec (.gnssCharacter n l early) s =
          .next (s.modUart n fun x => { x with nmeaOn := true, nmea := [0x24], nmeaTick := s.startTick n }))) ∧
    exec (.gnssSearchReopen n) s = .next (s.modUart n fun x => { x with waitHigh := false }) ∧
    (∀ raw k, u.nmeaReady = some (raw, k) →
      (nmeaFields raw (s.flag (R.GNSS_MODE_CKSUM_REQ n)) = none → ∃ t, exec (.nmeaSentence n) s = .next t ∧
        t.uart[n] = { u with nmeaReady := none } ∧ t.course = s.course ∧
        t.get (R.GNSS_CNT1_BAD n) = min 65535 (s.get (R.GNSS_CNT1_BAD n) + 1)) ∧
      (∀ h t₀, nmeaFields raw (s.flag (R.GNSS_MODE_CKSUM_REQ n)) = some (h :: t₀) → nmeaType h = some .hdt →
        ∃ t, exec (.nmeaSentence n) s = .next t ∧ t.uart[n] = { u with nmeaReady := none } ∧
          (t.gnss n).speed = (s.gnss n).speed ∧
          (∀ v, decScaled (t₀.getD 0 []) 174532925 10000 = some v →
            (t.gnss n).heading = some ⟨v, (k : Int) - (s.regN (R.GNSS_LAT n) * 200 : Nat)⟩) ∧
          t.get (R.GNSS_CNT1_GOOD n) = min 65535 (s.get (R.GNSS_CNT1_GOOD n) + 1))) ∧
    (∀ fr, u.binReady = some fr → let f := fr.map Prod.fst
      (poseFrameOk f = false → ∃ t, exec (.gnssBinaryFrame n) s = .next t ∧ t.course = s.course ∧
        t.get (R.GNSS_CNT1_BAD n) = min 65535 (s.get (R.GNSS_CNT1_BAD n) + 1)) ∧
      (∀ b k rest, poseFrameOk f = true → fr = (b, k) :: rest → (byteAt f 20).getLsbD 0 = true →
        ∃ t, exec (.gnssBinaryFrame n) s = .next t ∧ (t.gnss n).got = true ∧ (t.gnss n).age = 0 ∧
          (t.gnss n).speed = some ⟨if (byteAt f 20).getLsbD 3 then signed 32 (leAt f 4 4) else (signed 32 (leAt f 4 4)).natAbs,
            (k : Int) - (leAt f 16 4 * 200 : Nat)⟩ ∧
          (t.gnss n).prevSpeed = (s.gnss n).speed ∧
          t.get (R.GNSS_CNT1_GOOD n) = min 65535 (s.get (R.GNSS_CNT1_GOOD n) + 1)))

/-- R87, R88, R91, R92, R99, R101: an armed, ungated unit whose TARGET is reached, as it stood at the start of the tick, matches: it keeps the tick and sets MATCHED; a one-shot disarms,
a periodic one adds whole periods until its TARGET lies ahead; a chain that arms sets ARM and one that starts sets TARGET as
well; and a tick of a replay with nothing due and no chain under way ends it with event 0x0503. -/
def Obligations.CompareUnitsMatchAndChain : Prop :=
  ∀ (s : State), s.clockOn = true →
    (∀ u : CUnit, s.tick.replay = none → let v := s.units[u]
      ((v.arm = false ∨ v.gated = true ∨ s.tick.now < v.target ∨ s.now < v.since) → exec (.compareMatch u) s = .next s) ∧
      (v.arm = true → v.gated = false → v.target ≤ s.tick.now → v.since ≤ s.now →
        ∃ t, exec (.compareMatch u) s = .next t ∧ t.units[u].matchTick = s.tick.now ∧ t.units[u].ctrl.getLsbD 24 = true ∧
          t.units[u].period = v.period ∧ (∀ k, k ≠ u → t.units[k] = s.units[k]) ∧
          (v.ctrl.getLsbD 1 = false → t.units[u].arm = false ∧ t.units[u].target = v.target ∧ t.units[u].missed = v.missed) ∧
          (v.ctrl.getLsbD 1 = true → s.now + v.period.toNat < 2 ^ 64 → v.period ≠ 0 →
            t.units[u].arm = true ∧ s.tick.now < t.units[u].target ∧
            t.units[u].target.toNat ≤ s.now + v.period.toNat ∧
            t.units[u].target.toNat % v.period.toNat = v.target.toNat % v.period.toNat ∧
            ∃ k, t.units[u].missed = v.missed + k ∧ t.units[u].target.toNat = v.target.toNat + (k + 1) * v.period.toNat) ∧
          (v.ctrl.getLsbD 10 = false → t.tick.chains = s.tick.chains) ∧
          (v.ctrl.getLsbD 10 = true → v.chainTgt < 544 → ∃ x : Chain, t.tick.chains = s.tick.chains ++ [x] ∧ x.due = s.now + 1 ∧
            x.tgt.val = v.chainTgt ∧ x.arm = v.ctrl.getLsbD 11 ∧ x.stamp = s.tick.now))) ∧
    (∀ (u : CUnit) (x : Chain), s.tick.chains = [x] → x.tgt = u → x.due ≤ s.now → (s.units[u]).due s.tick.now = false →
      ((bndChan u).isSome = true → (s.units[u]).pred = true → ∃ t, exec (.chainArrival u) s = .next t ∧ t.units = s.units ∧
        t.tick.chains = [] ∧ (s.Room → Stored s t 0x0502 0 (BitVec.ofNat 32 u.val))) ∧
      ((bndChan u).isSome = false ∨ (s.units[u]).pred = false → ∃ t, exec (.chainArrival u) s = .next t ∧
        t.tick.chains = [] ∧ t.units[u].arm = true ∧ t.units[u].since = s.now + 1 ∧ (∀ k, k ≠ u → t.units[k] = s.units[k]) ∧
        t.units[u].target = (if x.arm then (s.units[u]).target else x.stamp + (s.units[u]).period.zeroExtend 64))) ∧
    (∀ r, s.tick.replay = some r → s.tick.chains = [] → (∀ u : CUnit, (s.units[u]).due s.tick.now = false) →
      r.tend < s.now → r.lastAt ≠ some s.now →
      ∃ t, exec .compareReplayMatch s = .next t ∧ t.tick.replay = none ∧ t.units = s.units ∧
        (s.Room → Stored s t 0x0503 0 (BitVec.ofNat 32 r.count)))

/-- R94: a gated unit does not match; a write to GSTART with groups adds a release, at GSTART_TICK when that is asked for and lies 16 ticks ahead, else 16 ticks after
the write; and at the release each armed, gated unit of its groups starts from T_rel.

R95 to R97: the predictor's write arms a boundary compare at its result, or parks it; a result that was late is marked at the
match, with LATE, the lateness from the unclamped t_star and event 0x41; while PRED = 1 the predictor alone sets TARGET and ARM,
and FIELD keeps PRED. -/
def Obligations.GlobalStartAndPredictor : Prop :=
  (∀ s : State,
    (∀ u : CUnit, (s.units[u]).gated = true → exec (.compareMatch u) s = .next s) ∧
    (s.hostWritable = true → ∀ v : W32, let g : BitVec 8 := v.extractLsb' 0 8
      (g = 0 → exec (.gstartWrite v) s = .next s) ∧
      (g ≠ 0 → v.getLsbD 8 = false →
        exec (.gstartWrite v) s = .next { s with tick := { s.tick with gstarts := s.tick.gstarts ++ [(g, s.now + 16)] } }) ∧
      (g ≠ 0 → v.getLsbD 8 = true → s.now + 16 ≤ (s.reg64 R.GSTART_TICK).toNat →
        exec (.gstartWrite v) s = .next { s with tick :=
          { s.tick with gstarts := s.tick.gstarts ++ [(g, (s.reg64 R.GSTART_TICK).toNat)] } }) ∧
      (g ≠ 0 → v.getLsbD 8 = true → (s.reg64 R.GSTART_TICK).toNat < s.now + 16 →
        ∃ t, exec (.gstartWrite v) s = .next t ∧ t.tick.gstarts = s.tick.gstarts ++ [(g, s.now + 16)] ∧ t.units = s.units ∧
          (s.Room → Stored s t 0x0500 0 0))) ∧
    (s.clockOn = true → s.tick.chains = [] → (∀ c : Ch, (s.ch c).pred = none) →
      ∀ g n rest, s.tick.gstarts = (g, n) :: rest → n ≤ s.now →
      ∃ t, exec .gstartRelease s = .next t ∧ t.tick.gstarts = rest ∧ t.reg64 R.GSTART_LAST = BitVec.ofNat 64 n ∧
        ∀ u : CUnit, let v := s.units[u]
          (v.arm = true → v.gated = true → g.getLsbD v.group = true →
            t.units[u] = { v with target := BitVec.ofNat 64 (n + v.period.toNat), ctrl := v.ctrl &&& ~~~4, since := s.now + 1 }) ∧
          (v.arm = false ∨ v.gated = false ∨ g.getLsbD v.group = false → t.units[u] = v))) ∧
  (∀ (s : State) (c : Ch),
    let u := bndUnit c
    let v := s.units[u]
    let refused (t : State) : Prop := s.Room → Stored s t 0x0502 0 (BitVec.ofNat 32 (32 + c.val))
    let quiet : Prop := v.due s.tick.now = false ∧ s.tick.chains = []
    (s.clockOn = true → v.pred = true → quiet → (∀ k, k ≠ c → (s.ch k).pred = none) → ∀ r, (s.ch c).pred = some r →
      r.tEff ≤ s.now + 1 → (s.ch c).predHit = false →
      (r.tStar = none → ∃ t, exec .predictorWrite s = .next t ∧ t.units[u].arm = false ∧ t.units[u].parked = true ∧
        t.units[u].target = v.target ∧ (t.ch c).pred = none ∧ (∀ k, k ≠ u → t.units[k] = s.units[k])) ∧
      (∀ n, r.tStar = some n → v.parked = true ∨ (s.ch c).predSet = false →
        ∃ t, exec .predictorWrite s = .next t ∧ t.units[u].arm = true ∧ t.units[u].parked = false ∧
          t.units[u].target = BitVec.ofNat 64 n ∧ (t.ch c).pred = none ∧ (t.ch c).predSet = true ∧
          (r.late = true → (t.ch c).predLate = some r.unclamped) ∧ (∀ k, k ≠ u → t.units[k] = s.units[k]))) ∧
    (s.clockOn = true → s.tick.replay = none → v.due s.tick.now = true → (s.ch c).seqr.bnd = none → ∀ n, (s.ch c).predLate = some n →
      ∃ t, exec (.compareMatch u) s = .next t ∧ t.units[u].ctrl.getLsbD 26 = true ∧ t.units[u].matchTick = s.tick.now ∧
        t.reg (R.CH_BND_LATE c) = BitVec.ofNat 32 (satU 32 ((s.now : Int) - n)) ∧ (t.ch c).predLate = none ∧
        (t.ch c).predHit = true ∧ (s.Room → Stored s t (chCode c 0x41) 0 (BitVec.ofNat 32 c.val))) ∧
    (s.hostWritable = true → quiet → (s.ch c).pred = none → s.tick.gstarts = [] → ∀ x : W64,
      (v.pred = false →
        exec (.chBndTargetWrite c x) s = .next (s.modUnit u fun v => { v with target := x, since := s.now + 1 })) ∧
      (v.pred = true → ∃ t, exec (.chBndTargetWrite c x) s = .next t ∧ t.units = s.units ∧ refused t)) ∧
    (s.hostWritable = true → quiet → (s.ch c).pred = none → s.tick.gstarts = [] → ∀ w : W32,
      (s.mode.mode = .field → ∃ t, exec (.chBndCtrlWrite c w) s = .next t ∧ t.units[u].pred = v.pred ∧
        (w.getLsbD 23 ≠ v.pred → refused t)) ∧
      (s.mode.mode ≠ .field → ∃ t, exec (.chBndCtrlWrite c w) s = .next t ∧ t.units[u].pred = w.getLsbD 23 ∧
        t.units[u].arm = (if w.getLsbD 23 then v.arm else w.getLsbD 0) ∧
        t.units[u].ctrl.extractLsb' 2 20 = w.extractLsb' 2 20 ∧ t.units[u].ctrl.getLsbD 1 = v.ctrl.getLsbD 1 ∧
        (∀ k, k ≠ u → t.units[k] = s.units[k]) ∧
        (w.getLsbD 23 = true → w.getLsbD 0 ≠ v.arm → refused t))))

/-! ### Takeover (09_takeover_and_limp.md) -/

/-- R149, R242, R243, R247, R249, Tables 09.2 and 09.7: a missed deadline is counted; the third in succession gives the channel to the
spire's idle spare with a new epoch, or to limp where there is none; and the taking engine gets its role, channel and epoch and
resumes with its registers at 0, on the image of the slot and the committed checkpoint block. -/
def Obligations.DeadEnginesAreReplaced : Prop :=
  ∀ (s : State) (c : Ch), s.clockOn = true →
    let h := s.ch c
    let p := spireOf c
    (h.missDue = true → h.missRun < 2 → ∃ t, exec (.deadlineMiss c) s = .next t ∧
      t.ch c = { h with missDue := false, missRun := h.missRun + 1, cnt := { h.cnt with missed := h.cnt.missed + 1 } } ∧
      (∀ k, k ≠ c → t.ch k = s.ch k) ∧ t.eng = s.eng ∧ t.units = s.units ∧
      (s.mayRaise (chCode c 0x60) c.val 200000000 = true → s.Room → Stored s t (chCode c 0x60) 0 (BitVec.ofNat 32 c.val))) ∧
    (h.missDue = false → exec (.deadlineMiss c) s = .next s) ∧
    (∀ d : Eng, h.missDue = true → 2 ≤ h.missRun → h.takeover = none → h.ctl = some d → (s.eng[d]).role ≠ .idle →
      (∀ e : Eng, s.idleSpare p = some e → ∃ t, exec (.deadlineMiss c) s = .next t ∧ (t.ch c).ctl = some e ∧
        (t.ch c).epoch = h.epoch + 1 ∧ (t.ch c).missRun = 0 ∧ (t.ch c).limp = h.limp ∧
        (t.ch c).takeover = some (e, s.now, none) ∧ t.eng[d].role = .deposed ∧ t.eng[d].chan = none ∧
        (∀ k, k ≠ c → t.ch k = s.ch k) ∧ (∀ k : Eng, k ≠ d → t.eng[k] = s.eng[k]) ∧
        (s.Room → Stored s t (spireCode p 0x80) 1 (BitVec.ofNat 32 (c.val + engCode e * 256 + (h.epoch + 1).toNat * 65536)))) ∧
      (s.idleSpare p = none → ∃ t, exec (.deadlineMiss c) s = .next t ∧ (t.ch c).ctl = none ∧ (t.ch c).limp = true ∧
        (t.ch c).epoch = h.epoch + 1 ∧ t.eng[d].role = .deposed ∧ (∀ k, k ≠ c → t.ch k = s.ch k) ∧
        (s.Room → Stored s t (spireCode p 0x81) 2 (BitVec.ofNat 32 (c.val + (h.epoch + 1).toNat * 65536))))) ∧
    (∀ (e : Eng) (n : Nat), h.takeover = some (e, n, none) → n ≤ s.now →
      ∃ t, exec (.takeoverResume c) s = .next t ∧ (t.ch c).takeover = none ∧ (t.ch c).istrm = [] ∧ (t.ch c).vstrm = [] ∧
        (t.ch c).snse = h.snse ∧ t.eng[e].role = .ctl ∧ t.eng[e].chan = some c ∧ t.eng[e].epoch = h.epoch ∧ t.eng[e].pc = 4 * h.slot.resume ∧ (∀ r : GReg, t.eng[e].getG r = 0) ∧ t.eng[e].pend = 0 ∧
        t.eng[e].iram = h.slot.code ∧
        t.eng[e].running = (s.flag (R.CH_ENG_CTRL_RUN c) && s.flag (R.CH_ENG_STAT_LOADED c)) ∧
        (h.mirror.block = none → t.eng[e].dram = memWrite [] 0 (wordBytes h.slot.data)) ∧
        (∀ b, h.mirror.block = some b → ∀ a, a < b.length → memGet t.eng[e].dram a = b.getD a 0) ∧
        (∀ k : Eng, k ≠ e → t.eng[k] = s.eng[k]) ∧ t.regs = s.regs)

/-- R247, R248, R249, R254: a deposed engine that has not stopped after 2 ms is retired; a self-test leaves nothing in an engine's
RAMs; one that passes it becomes the idle spare, one that fails it is retired; at the end of a tick the lowest channel in limp
takes an idle spare; and a hand-back starts the home engine's takeover, which ends with the giver idle, but is refused with event
0x8A in FIELD. What the RAMs read after a self-test is free (assumption 5). -/
def Obligations.EnginesReturnAndHandBack : Prop :=
  ∀ s : State,
    (∀ (e : Eng) (n : Nat), s.clockOn = true → (s.eng[e]).deposedAt = some n →
      (n + 400000 ≤ s.now → ∃ t, exec (.deposedRetireTimeout e) s = .next t ∧ t.eng[e].retired = true ∧ t.eng[e].running = false ∧
        t.eng[e].deposedAt = none ∧ (∀ k : Eng, k ≠ e → t.eng[k] = s.eng[k]) ∧ t.chan = s.chan ∧
        (s.Room → Stored s t (spireCode (spireOfEng e) 0x85) 0 (BitVec.ofNat 32 (engCode e + 32)))) ∧
      (s.now < n + 400000 → exec (.deposedRetireTimeout e) s = .next s)) ∧
    (∀ (e : Eng) (n : Nat) (ok : Bool), s.clockOn = true → (s.eng[e]).selfTest = some n → n + 8192 ≤ s.now →
      ∃ t, exec (.selfTestDone e ok) s = .next t ∧ t.eng[e].selfTest = none ∧ (∀ r : GReg, t.eng[e].getG r = 0) ∧
        t.eng[e].dram = [] ∧ t.eng[e].iram = [] ∧ t.eng[e].ramFree = some s.free ∧ t.free = s.free + 1 ∧
        (∀ k : Eng, k ≠ e → t.eng[k] = s.eng[k]) ∧ t.chan = s.chan ∧
        (ok = true → t.eng[e].role = .idle ∧ t.eng[e].chan = none ∧ t.eng[e].retired = (s.eng[e]).retired ∧
          (s.Room → Stored s t (spireCode (spireOfEng e) 0x84) 0 (BitVec.ofNat 32 (engCode e)))) ∧
        (ok = false → t.eng[e].retired = true ∧
          (s.Room → Stored s t (spireCode (spireOfEng e) 0x85) 0 (BitVec.ofNat 32 (engCode e))))) ∧
    (∀ (p : Spire) (c : Ch) (e : Eng), s.pending = [] → s.clockOn = true → (s.hp.rings[(18 : Ring)]).fetched = [] →
      (s.hp.rings[(19 : Ring)]).fetched = [] → (chansOfSpire p).find? (fun k => (s.ch k).limp) = some c → s.idleSpare p = some e →
      ∃ t, step s = .next t ∧ (t.ch c).limp = false ∧ (t.ch c).ctl = some e ∧ (t.ch c).takeover = some (e, s.now, none) ∧
        (t.ch c).epoch = (s.ch c).epoch + 1 ∧ (s.Room → (∀ q, q ≠ p → ∀ k ∈ chansOfSpire q, (s.ch k).limp = false) →
          Stored s t (spireCode p 0x82) 0 (BitVec.ofNat 32 (c.val + engCode e * 256)))) ∧
    (s.hostWritable = true → ∀ (p : Spire) (k : Fin 16) (g : Eng), let c := chanAt p k
      let v : W32 := BitVec.ofNat 32 (16 + k.val)
      let x := s.eng[homeOf c]
      (s.ch c).ctl = some g → g ≠ homeOf c →
      (s.mode.mode = .field → ∃ t, exec (.tkoHandback p v) s = .next t ∧ t.eng = s.eng ∧ t.chan = s.chan ∧
        (s.Room → Stored s t (chCode c 0x8A) 0 (BitVec.ofNat 32 c.val))) ∧
      (s.mode.mode ≠ .field → x.role = .idle → x.retired = false → x.selfTest = none → (s.ch c).takeover = none →
        s.isTaking p (homeOf c) = false →
        ∃ t, exec (.tkoHandback p v) s = .next t ∧ (t.ch c).ctl = some (homeOf c) ∧ (t.ch c).epoch = (s.ch c).epoch + 1 ∧
          (t.ch c).takeover = some (homeOf c, s.now, some g) ∧ t.eng = s.eng ∧ t.regs = s.regs)) ∧
    (∀ (c : Ch) (e g : Eng) (n : Nat), s.clockOn = true → (s.ch c).takeover = some (e, n, some g) → e ≠ g → n ≤ s.now →
      ∃ t, exec (.takeoverResume c) s = .next t ∧ (t.ch c).takeover = none ∧ t.eng[e].role = .home ∧ t.eng[e].chan = some c ∧
        t.eng[e].epoch = (s.ch c).epoch ∧ t.eng[g].role = .idle ∧ t.eng[g].chan = none ∧ t.eng[g].running = false ∧
        (∀ k : Eng, k ≠ e → k ≠ g → t.eng[k] = s.eng[k]) ∧
        (s.Room → Stored s t (chCode c 0x89) 0 (BitVec.ofNat 32 c.val)))

/-! ### Rings, doorbells and the arbiter (10_host_rings.md, 11_arbiter_snapshots_trace.md) -/

/-- R269, R270, R287, R288, Table 10.14: a doorbell moves the producer index of a submission ring or the consumer index of a completion
ring; a wrong value halts the ring with event 0x0200; a disabled ring and a partial write are discarded; and RESUME ends a halt. -/
def Obligations.DoorbellsMoveRings : Prop :=
  ∀ (s : State) (q : Ring) (v : W32) (be : BitVec 4), s.mode.domeRun = true → s.mode.frozen = false →
    let off : BitVec 12 := BitVec.ofNat 12 (8 * q.val)
    let r := s.hp.rings[q]
    let size := s.ringSize q
    let bell : Instr := if q.val < 20 then .submissionDoorbell off v be else .completionDoorbell off v be
    let good := v.toNat < 4096 ∧ v.toNat < size ∧
      if q.val < 20 then ringDist r.pi r.ci size ≤ ringDist v.toNat r.ci size else ringDist v.toNat r.ci size ≤ ringDist r.pi r.ci size
    let same (t : State) : Prop := t.hp.rings = s.hp.rings ∧ t.chan = s.chan ∧ t.eng = s.eng
    let why : Byte := if 20 ≤ q.val then 3 else if 4096 ≤ v.toNat ∨ size ≤ v.toNat then 1 else 2
    (s.ringOn q = false → ∃ t, exec bell s = .next t ∧ same t ∧
      (s.Room → Stored s t 0x0202 0 (BitVec.ofNat 32 (2 + 256 * q.val)))) ∧
    (s.ringOn q = true → be ≠ 15 → ∃ t, exec bell s = .next t ∧ same t ∧
      (s.Room → Stored s t 0x0202 0 (BitVec.ofNat 32 (3 + 256 * q.val)))) ∧
    (s.ringOn q = true → be = 15 → good → q.val < 20 →
      exec bell s = .next (s.modRing q fun x => { x with pi := v.toNat, lastDb := v })) ∧
    (s.ringOn q = true → be = 15 → good → 20 ≤ q.val →
      exec bell s = .next (s.modRing q fun x => if (x.pi + 1) % size = v.toNat then { x with ci := v.toNat, lastDb := v }
        else { x with ci := v.toNat, lastDb := v, fullSince := none, fullTold := false })) ∧
    (s.ringOn q = true → be = 15 → ¬good → r.halted = false → ∃ t, exec bell s = .next t ∧
      (t.hp.rings[q]).halted = true ∧ (t.hp.rings[q]).why = why ∧ (t.hp.rings[q]).pi = r.pi ∧
      (t.hp.rings[q]).ci = r.ci ∧ (∀ k, k ≠ q → t.hp.rings[k] = s.hp.rings[k]) ∧ t.get R.HP_VIOL_RING = q.val ∧
      (s.Room → Stored s t 0x0200 0 (BitVec.ofNat 32 (q.val + why.toNat * 256)))) ∧
    (s.ringOn q = true → be = 15 → ¬good → r.halted = true → ∃ t, exec bell s = .next t ∧ same t ∧
      t.get R.HP_CNT_DB_DISC = min 65535 (s.get R.HP_CNT_DB_DISC + 1) ∧
      (s.Room → Stored s t 0x0202 0 (BitVec.ofNat 32 (5 + 256 * q.val)))) ∧
    (s.hostWritable = true → r.halted = true → ∃ t, exec (.ringResume q) s = .next t ∧ (t.hp.rings[q]).halted = false ∧
      (t.hp.rings[q]).pi = r.pi ∧ (t.hp.rings[q]).ci = (if q.val < 20 then r.ci else r.pi) ∧
      (∀ k, k ≠ q → t.hp.rings[k] = s.hp.rings[k]) ∧ (s.Room → Stored s t 0x0201 0 (BitVec.ofNat 32 q.val))) ∧
    (s.hostWritable = true → r.halted = false → exec (.ringResume q) s = .next s)

/-- R268, R271, R278, R285, R286, R304: enabling a ring starts it at index 0; the slots of a read move the consumer index, once the
Keep runs for Q16 and Q17; a message follows
the coalescing time; and event 0x0206 tells once of a ring full for a second. -/
def Obligations.RingsFetchAndTell : Prop :=
  ∀ (s : State) (q : Ring),
    let r := s.hp.rings[q]
    (s.hostWritable = true → s.ringOn q = false → ∀ v : W32, v.getLsbD 4 = true →
      ∃ t, exec (.qnCfgWrite q v) s = .next t ∧ t.ringOn q = true ∧ (t.hp.rings[q]).pi = 0 ∧ (t.hp.rings[q]).ci = 0 ∧
        (t.hp.rings[q]).phase = true ∧ (t.hp.rings[q]).halted = false ∧ (t.hp.rings[q]).why = r.why ∧
        (t.hp.rings[q]).inFlight = r.inFlight ∧ t.ringSize q = 2 ^ max 4 (min (v.toNat % 16) 12) ∧
        (∀ k, k ≠ q → t.hp.rings[k] = s.hp.rings[k])) ∧
    (s.clockOn = true → ∀ slot n (ds : List (Byte × Desc)), r.inFlight = some (slot, n) → ds.length = n → r.stalled = false → r.parked = false →
      r.stale = false → (q.val = 16 ∨ q.val = 17) → ∃ t, exec (.descriptorArrival q ds) s = .next t ∧
        (s.mode.keep = .run → (t.hp.rings[q]).ci = (slot + n) % s.ringSize q ∧ (t.hp.rings[q]).inFlight = none) ∧
        (s.mode.keep ≠ .run → (t.hp.rings[q]).ci = r.ci ∧ (t.hp.rings[q]).parked = true) ∧
        (t.hp.rings[q]).fetched.map (·.op) = r.fetched.map (·.op) ++ ds.map (·.1) ∧
        (t.hp.rings[q]).fetched.map (·.d) = r.fetched.map (·.d) ++ ds.map (·.2) ∧
        (∀ k, k ≠ q → t.hp.rings[k] = s.hp.rings[k]) ∧ t.hp.cq = s.hp.cq) ∧
    (s.clockOn = true → 20 ≤ q.val → ∀ n, r.coalAt = some n → s.get (R.Q_CFG_COAL_US q) ≠ 0 →
      n + s.get (R.Q_CFG_COAL_US q) * 200 ≤ s.now → ∃ t, exec (.msixCoalesceTimeout q) s = .next t ∧
        t.hp.msixPend = s.hp.msixPend ++ [s.get (R.Q_CFG_VEC q)] ∧ (t.hp.rings[q]).coal = 0 ∧ (t.hp.rings[q]).coalAt = none) ∧
    (s.clockOn = true → ∀ n, r.fullSince = some n → s.ringFull q = true → n + 200000000 ≤ s.now →
      (r.fullTold = true → exec (.completionRingFullTimeout q) s = .next s) ∧
      (r.fullTold = false → ∃ t, exec (.completionRingFullTimeout q) s = .next t ∧ (t.hp.rings[q]).fullTold = true ∧
        (s.Room → Stored s t 0x0206 0 (BitVec.ofNat 32 q.val)))) ∧
    (s.hostWritable = true → ∀ v : W32, let tag := s.reg R.EDDY_STRM_LTAG
      (v.getLsbD 0 = false → ∃ t, exec (.eddyStrmWrite v) s = .next t ∧ t.flag R.EDDY_STRM_EN = false ∧ t.arb.streamQ = []) ∧
      (v.getLsbD 0 = true → s.hp.lends.find? (fun l => l.tag = tag) = none → ∃ t, exec (.eddyStrmWrite v) s = .next t ∧
        t.flag R.EDDY_STRM_EN = false ∧ (s.Room → Stored s t 0x0304 0 tag)) ∧
      (∀ l, v.getLsbD 0 = true → s.hp.lends.find? (fun l => l.tag = tag) = some l → l.ring ≠ 18 →
        ∃ t, exec (.eddyStrmWrite v) s = .next t ∧ t.flag R.EDDY_STRM_EN = false ∧ (s.Room → Stored s t 0x0304 0 tag)) ∧
      (∀ l, v.getLsbD 0 = true → s.hp.lends.find? (fun l => l.tag = tag) = some l → l.ring = 18 →
        ∃ t, exec (.eddyStrmWrite v) s = .next t ∧ t.flag R.EDDY_STRM_EN = true ∧ t.arb = s.arb))

/-- R45, R256 to R258, R262, R272, R292, R295: the end of a tenure sends its TLP and gives the path to a requester; the watchdog ends a
tenure, whose TLP its requester starts again; the relief agent takes a failed agent's ring; a failed read is told and recorded for AER; a write of
the configuration settings takes effect; and the link's loss drops the tenure. -/
def Obligations.TheHostPathIsShared : Prop :=
  ∀ s : State,
    (s.clockOn = true →
      (∀ w n d, s.arb.tenure = some (w, n, .data d) → s.portUp = true →
        ∃ t, exec .arbitrationGrant s = .next t ∧ t.hp.sent = s.hp.sent ++ [.memWrite d.addr d.bytes] ∧ t.hp.rings = s.hp.rings) ∧
      (s.arb.tenure = none → (∀ w : Rq, s.requests w = false) → exec .arbitrationGrant s = .next s) ∧
      (∀ w : Rq, s.arb.tenure = none → s.requests w = true → (∀ k : Rq, k ≠ w → s.requests k = false) →
        ∃ t u, exec .arbitrationGrant s = .next t ∧ s.nextTlp w = some u ∧ t.arb.tenure = some (w, s.now, u) ∧
          t.hp = s.hp ∧ (t.arb.rq[w]).grants = (s.arb.rq[w]).grants + 1 ∧ (t.arb.rq[w]).wait = 0)) ∧
    (s.clockOn = true → ∀ (w : Rq) n u, s.arb.tenure = some (w, n, u) →
      (s.now < n + s.get R.ARB_CFG_TENURE * 20 → exec .tenureBite s = .next s) ∧
      (n + s.get R.ARB_CFG_TENURE * 20 ≤ s.now → (s.arb.rq[w]).biteTicks = [] →
        ∃ t, exec .tenureBite s = .next t ∧ t.arb.tenure = none ∧ (t.arb.rq[w]).bites = (s.arb.rq[w]).bites + 1 ∧
          ((∀ d, u ≠ .data d) → (∀ r, u = .read r → r.ltag ≠ 0) → t.arb.redo[w] = some u) ∧
          (t.arb.rq[w]).failed = (s.arb.rq[w]).failed ∧ (∀ k : Rq, k ≠ w → t.arb.rq[k] = s.arb.rq[k]) ∧
          (16 ≤ w.val → s.Room → Stored s t 0x0300 0 (BitVec.ofNat 32 w.val)))) ∧
    (s.clockOn = true → ∀ (p : Spire) n, s.arb.reliefPend = some (p, n) →
      ∃ t, exec (.reliefTakeover p) s = .next t ∧ t.arb.relief = some p ∧ t.arb.reliefPend = none ∧ t.spire[p].agent = 1 ∧
        (s.Room → Stored s t (spireCode p 0x87) 2 0)) ∧
    (∀ (q : Ring) (kind : Fin 5), s.clockOn = true → (s.hp.rings[q]).inFlight.isSome = true → q.val < 20 →
      ∃ t, exec (.dmaReadFailure q kind false) s = .next t ∧ (t.hp.rings[q]).halted = true ∧ (t.hp.rings[q]).why = 4 ∧
        (t.hp.rings[q]).inFlight = none ∧
        (kind = 0 → t.hp.aer = { s.hp.aer with masterAbort := true }) ∧ (kind = 1 → t.hp.aer = { s.hp.aer with targetAbort := true }) ∧
        (2 ≤ kind.val → t.hp.aer.status = s.hp.aer.status ||| (if kind = 2 then 0x1000 else if kind = 3 then 0x4000 else 0x80000)) ∧
        (s.Room → Stored s t 0x0205 0 (BitVec.ofNat 32 (q.val + kind.val * 256)))) ∧
    (∀ (sp : Fin 5) (w : Fin 3), s.mode.domeRun = true → s.mode.pins.perstHigh = true → s.hp.linkUp = false → sp ≠ 0 → w ≠ 0 →
      s.mode.bootStep = 9 → ∃ t, exec (.linkUp sp w) s = .next t ∧ t.hp.linkUp = true ∧ t.hp.speed = BitVec.ofNat 4 sp.val ∧
        t.hp.width = BitVec.ofNat 4 w.val ∧ t.mode = { s.mode with bootStep := 10 } ∧
        (s.Room → Stored s t 0x0209 0 (BitVec.ofNat 32 (sp.val + 16 * w.val)))) ∧
    (s.hp.linkUp = true →
      (∃ t, exec .linkDown s = .next t ∧ t.hp.linkUp = false ∧ t.arb.tenure = none ∧ t.hp.rings = s.hp.rings ∧
        (s.Room → Stored s t 0x020A 0 0)) ∧
      (s.mode.domeRun = true → ∀ (bm d3 : Bool) (conf : PciSet), ∃ t, exec (.configSpaceWrite ⟨bm, d3⟩ conf) s = .next t ∧
        t.hp.busMaster = bm ∧ t.hp.d3hot = d3 ∧ t.hp.pci = conf ∧ t.hp.rings = s.hp.rings ∧ t.regs = s.regs ∧ (bm = false ∨ d3 = true → t.arb.tenure = none)))

/-! ### Reaches, mailboxes and the estimator (08_reaches.md, 16_river_ring.md, 12_battery_and_charger.md) -/

/-- R211, R277, R446, Tables 08.2 and 10.8: a posted reach that passes the checks joins the end of its channel's queue, and one that fails
gets a reach entry with the status of the first check that fails; MBX_SEND waits for a frame and needs another module of the
ring; and of MBX_RECV at most four wait. -/
def Obligations.ReachesAndMailAreQueued : Prop :=
  ∀ (s : State) (q : Ring) (d : Desc),
    let c := descChan d
    let h := s.ch c
    let r := reachOf q d
    (s.canStart q = true →
      (s.postCheck q d = none → ∃ t, exec (.reachPost q d) s = .next t ∧
        t.ch c = { h with seqr := { h.seqr with live := h.seqr.live ++ [{ r with seq := h.seqr.nextSeq }],
                                                nextSeq := h.seqr.nextSeq + 1 } } ∧
        (∀ k, k ≠ c → t.ch k = s.ch k) ∧ t.hp.cq = s.hp.cq ∧ t.regs = s.regs) ∧
      (∀ st, s.postCheck q d = some st → ∃ t, exec (.reachPost q d) s = .next t ∧ t.chan = s.chan ∧ t.eng = s.eng ∧
        t.hp.cq[s.cqOf q] = s.hp.cq[s.cqOf q] ++ [⟨s.rqOf q, .reach s.tick.now d.tag c st q false false false, s.now⟩])) ∧
    (16 ≤ q.val → s.postCheck q d = some 0x19) ∧
    (q.val < 16 → s.mode.fault = false → s.hostMode = .field →
      ((spireOf c).val ≠ q.val → s.postCheck q d = some 0x12) ∧
      ((spireOf c).val = q.val → reachFieldsOk d = true →
        (r.len < 1000 ∨ 274877906944 < r.len → s.postCheck q d = some 0x14) ∧
        (1000 ≤ r.len → r.len ≤ 274877906944 →
          (s.isMember c = true → s.postCheck q d = some 0x15) ∧
          (s.isMember c = false → 0 ≤ sDiff h.sRep r.sEnd → s.postCheck q d = some 4) ∧
          (s.isMember c = false → sDiff h.sRep r.sEnd < 0 → sDiff r.sStart h.sRep < 274877906944 →
            (64 ≤ h.seqr.live.length → s.postCheck q d = some 0x17) ∧
            (h.seqr.live.length < 64 → s.postCheck q d = none))))) ∧
    (s.Takes q 0x90 d → let dst := descLe d 2 2
      (s.rv.role = .none_ ∨ dst = s.rv.pos ∨ s.rv.ringN ≤ dst →
        ∃ t, exec (.mbxSend q d) s = .next t ∧ Answered s t q d 0x13 0 ∧ t.rv = s.rv) ∧
      (s.rv.role ≠ .none_ → dst ≠ s.rv.pos → dst < s.rv.ringN →
        let m : MailOut := ⟨⟨BitVec.ofNat 10 dst, BitVec.ofNat 10 s.rv.pos, slice d.buf 0 64⟩, d.tag, s.lastSlot q⟩
        ∃ t, exec (.mbxSend q d) s = .next t ∧ t.hp.cq = s.hp.cq ∧
          t.rv = (if s.rv.pos < dst ∨ dst = 0 then { s.rv with mailA := s.rv.mailA ++ [m] }
            else { s.rv with mailB := s.rv.mailB ++ [m] }))) ∧
    (s.Takes q 0x91 d →
      (4 ≤ s.rv.recvs.length → ∃ t, exec (.mbxRecv q d) s = .next t ∧ Answered s t q d 0x20 0 ∧ t.rv = s.rv) ∧
      (s.rv.recvs.length < 4 → s.rv.inbox = [] → ∃ t, exec (.mbxRecv q d) s = .next t ∧ Accepted s t q 0x91 d ∧
        t.rv = { s.rv with recvs := s.rv.recvs ++ [⟨d.tag, s.lastSlot q, descWord d 4, descLe d 8 4⟩] }))

/-- R335 to R344: an update of the state of charge, 100 ms or more after the latest, with the pack switch open counts the charge alone, and the reported value moves only
with it; a step that fails a condition is rejected, and the first that passes is learned; a probe holds k at 0 for 2 W_MS + 2 ms;
a rest that has lasted sets z from the table, once; and the record is queued each hour. The rounding of each operation is the model's choice
(assumption 51). -/
def Obligations.TheEstimatorLearns : Prop :=
  ∀ s : State, s.keepRuns = true →
    let x := s.est
    let same (t : State) : Prop := t.chan = s.chan ∧ t.eng = s.eng ∧ t.units = s.units
    (x.nAcc ≠ 0 → (∀ k, s.pace.soc = some k → k + 20000000 ≤ s.tick.wall) → s.power.sw ≠ .closed → s.capC ≠ 0 →
      let dq : Rat := ((s.qNet - x.qNet : Int) : Rat)
      let dz := f64 (f64 (dq * 10000) / f64 (3600 * ((s.capC : Nat) : Rat)))
      ∃ t, exec .socUpdate s = .next t ∧ t.est.z = max 0 (min (f64 (x.z + dz)) 10000) ∧ t.est.nAcc = 0 ∧ t.est.iAcc = 0 ∧
        t.est.qNet = s.qNet ∧ (s.qNet = x.qNet → x.afterTerm = false → t.est.s = q256 x.s) ∧
        t.get R.EST_SOC_SOC = (roundRat t.est.s).toNat % 65536 ∧ same t) ∧
    (x.hist.length < 20 * s.get R.EST_PROBE_W_MS + 16 → exec .impedanceStep s = .next s) ∧
    (s.stepCandidate = some none → ∃ t, exec .impedanceStep s = .next t ∧ t.est = s.est ∧ t.reg R.EST_R0 = s.reg R.EST_R0 ∧
      t.get R.EST_CNT_STEPS_REJ = min 255 (s.get R.EST_CNT_STEPS_REJ + 1)) ∧
    (∀ r0 r1 tau, s.stepCandidate = some (some (r0, r1, tau)) → x.stepsOk = 0 → ∃ t, exec .impedanceStep s = .next t ∧
      t.reg R.EST_R0 = BitVec.ofNat 32 (satU 32 r0) ∧ t.reg R.EST_R1 = BitVec.ofNat 32 (satU 32 r1) ∧
      t.reg R.EST_TAU = BitVec.ofNat 32 (satU 32 tau) ∧ t.est.stepsOk = 1 ∧ t.est.lastStepAt = s.tick.wall ∧ same t) ∧
    (s.get R.EST_REST_PROBE_H ≠ 0 → s.mode.mode = .field → s.get R.BUD_STAT_K = 256 → s.power.probeUntil = none →
      x.lastStepAt + s.get R.EST_REST_PROBE_H * 720000000000 ≤ s.tick.wall → 12000000 ≤ s.budTerms.t →
      ∃ t, exec .probeStart s = .next t ∧ t.get R.BUD_STAT_K = 0 ∧ t.flag R.EST_STAT_PROBE = true ∧
        t.power.probeUntil = some (s.tick.wall + (2 * s.get R.EST_PROBE_W_MS + 2) * 200000) ∧ same t ∧
        (s.Room → Stored s t 0x0703 0 0)) ∧
    (∀ n, s.power.probeUntil = some n → n ≤ s.tick.wall → ∃ t, exec .probeEnd s = .next t ∧ t.get R.BUD_STAT_K = 256 ∧
      t.flag R.EST_STAT_PROBE = false ∧ t.power = { s.power with probeUntil := none } ∧ same t) ∧
    (∀ n, s.resting = true → x.restFrom = some n → n + s.get R.EST_REST_REST_MIN * 12000000000 ≤ s.tick.wall →
      x.restDone = false → let zi := roundRat (s.ocvInv (s.vpMv / (max 1 s.cellsUsed : Nat)))
      ∃ t, exec .restPoint s = .next t ∧ t.est.z = f64 (s.ocvInv (s.vpMv / (max 1 s.cellsUsed : Nat))) ∧ t.est.p = 100 ∧
        t.est.restDone = true ∧ t.est.s = x.s ∧ t.get R.EST_SOC_SOC_EST = zi.toNat % 65536 ∧ same t ∧
        (s.Room → Stored s t 0x0704 0 (BitVec.ofInt 32 zi))) ∧
    (x.lastRecAt + 720000000000 ≤ s.tick.wall → ∃ t, exec .estimatorRecord s = .next t ∧
      t.est = { x with lastRecAt := s.tick.wall } ∧ same t ∧
      (s.silt.queue = [] → s.silt.writing = none → s.silt.supplyLow = false → s.silt.erasing = false →
        ∃ b, t.silt.writing = some (b, false) ∧ b.type = 3 ∧ b.payload = s.estPayload))

/-! ### Auxiliary rails (13_aux_rails_sequencing.md) -/

/-- R352, R354, R361, R362, R367 to R369: a rail starts DELAY_MS after its dependencies were met and ramps from its output; a hiccup lasts OFF_MS
and ends in a ramp; a stopped rail goes off with its discharge; and a write of ON waits for the Keep's decision. For a rail with
no second phase. -/
def Obligations.RailsStartAndStop : Prop :=
  ∀ (s : State) (r : Rail), s.phase2Of r = none →
    let x := s.rail[r]
    let ms (f : Fld) : Nat := s.railGet f * 200000
    let others (t : State) : Prop := (∀ k : Rail, k ≠ r → t.rail[k] = s.rail[k]) ∧ t.chan = s.chan ∧ t.eng = s.eng
    (∀ n mv, x.depMetAt = some n → s.railState r = 1 → s.keepRuns = true → s.seqr.active = true → s.stopping = false →
      s.mode.fault = false →
      (n + ms (R.RAIL_DEP_DELAY_MS r) ≤ s.tick.wall → ∃ t, exec (.railStart r mv) s = .next t ∧ t.railState r = 2 ∧
        t.rail[r].refMv = mv ∧ t.rail[r].refAt = s.tick.wall ∧ t.rail[r].windowFrom = some s.tick.wall ∧
        t.rail[r].expired = false ∧ t.rail[r].discharge = false ∧ others t) ∧
      (s.tick.wall < n + ms (R.RAIL_DEP_DELAY_MS r) → exec (.railStart r mv) s = .next s)) ∧
    (s.railState r = 3 → s.follows r = false → ∃ t, exec (.railHiccup r) s = .next t ∧ t.railState r = 4 ∧
      t.rail[r].hicUntil = some (s.tick.wall + ms (R.RAIL_HIC_OFF_MS r)) ∧ others t ∧
      (s.mayRaise 0x0807 r.val 200000000 = true → s.Room → Stored s t 0x0807 0 (BitVec.ofNat 32 r.val))) ∧
    (∀ n mv, x.hicUntil = some n → n ≤ s.tick.wall → s.railState r = 4 → ∃ t, exec (.railHiccupEnd r mv) s = .next t ∧
      t.railState r = 2 ∧ t.rail[r].refMv = mv ∧ t.rail[r].hicUntil = none ∧ others t) ∧
    (∀ n, x.windowFrom = some n → s.railGood r = false → n + ms (R.RAIL_DEP_WINDOW_MS r) ≤ s.tick.wall →
      ∃ t, exec (.railWindowExpiry r) s = .next t ∧ t.rail[r] = { x with windowFrom := none, expired := true } ∧
        t.flag (R.RAIL_STAT_FAILED r) = true ∧ others t ∧ (s.Room → Stored s t 0x0801 2 (BitVec.ofNat 32 r.val))) ∧
    (s.railState r = 5 → x.refMv = 0 → x.refAt ≤ s.tick.wall → x.vout * 10 < s.railSet r → s.stopping = false →
      ∃ t, exec (.railStopped r) s = .next t ∧ t.railState r = 0 ∧ t.railGood r = false ∧ t.rail[r].discharge = true ∧ others t) ∧
    (∀ m l, s.mode.move = some m → m.hops = .standby :: l → s.stopping = false → s.keepRuns = true → s.mode.fault = false →
      s.seqr.stopDone = false → ∃ t, exec .railStopOrder s = .next t ∧ t.flag R.SEQ_STAT_STOPPING = true ∧
        t.flag R.SEQ_STAT_SEQ_OUT = false) ∧
    (∀ n, s.seqr.othersAt = some n → s.stopping = true → s.keepRuns = true → s.pair01 = false →
      n + s.get R.SEQ_CFG_HOST_HOLD * 2000000 ≤ s.tick.wall → s.railState 0 = 3 →
      ∃ t, exec .hostHoldExpiry s = .next t ∧ t.railState 0 = 5 ∧ t.railGood 0 = false ∧ t.stopping = true) ∧
    (s.hostWritable = true → ∀ on : Bool, exec (.railOnWrite r on) s =
      .next { s with keepWrites := s.keepWrites ++ [⟨R.RAIL_CTRL r, if on then 1 else 0⟩] })

/-- R355 to R358, R363 and Tables 13.2, 13.3: a rail is good after 10 samples in its band; warnings and faults follow their runs of
samples; an over-voltage fault is an F3 that turns the rail off; an under-voltage fault is an F2, or with CRIT an F3; burst follows a
light load; and SEQ_IN is shown, or waited for no longer than SEQIN_WAIT. For a rail with no second phase. -/
def Obligations.RailsAreSupervised : Prop :=
  ∀ (s : State) (r : Rail), s.phase2Of r = none → s.follows r = false →
    let x := s.rail[r]
    let data : W32 := BitVec.ofNat 32 r.val
    let st (t : State) : Nat := t.railState r
    let fresh : Prop := s.flt.active.contains (railSrc r) = false ∨ s.flt.told.contains (railSrc r) = true
    (∀ vout iout, s.mode.mode ≠ .ship → (∀ k, s.pace.rails = some k → k + 2000 ≤ s.tick.wall) → s.seqr.nSum < 99 →
      s.railState r = 0 → let i : Int := iout.getD r.val 0
      ∃ t, exec (.railSupervisionSample vout iout) s = .next t ∧ t.seqr.nSum = s.seqr.nSum + 1 ∧
        t.rail[r] = { x with vout := vout.getD r.val 0, vSum := x.vSum + vout.getD r.val 0, iSum := x.iSum + i, iNow := i,
                                 iLow := if i < s.get (R.RAIL_SHED_DROP_MA r) * 1000 then x.iLow + 1 else 0 }) ∧
    (s.railState r = 3 → 10 ≤ x.inBand → s.railGood r = false → ∃ t, exec (.railGood r) s = .next t ∧ t.railGood r = true ∧
      t.get ⟨R.RAIL_GOOD, r.val, 1⟩ = 1 ∧ t.rail[r] = { x with windowFrom := none } ∧ (s.Room → Stored s t 0x0800 0 data)) ∧
    (10 ≤ x.uvW → s.flag (R.RAIL_STAT_UV_WARN r) = false → ∃ t, exec (.railUvWarn r) s = .next t ∧
      t.flag (R.RAIL_STAT_UV_WARN r) = true ∧ t.rail = s.rail ∧ st t = st s ∧
      (s.mayRaise 0x0803 r.val 200000000 = true → s.Room → Stored s t 0x0803 0 data)) ∧
    (10 ≤ x.ovW → s.flag (R.RAIL_STAT_OV_WARN r) = false → ∃ t, exec (.railOvWarn r) s = .next t ∧
      t.flag (R.RAIL_STAT_OV_WARN r) = true ∧ t.rail = s.rail ∧ st t = st s ∧
      (s.mayRaise 0x0804 r.val 200000000 = true → s.Room → Stored s t 0x0804 0 data)) ∧
    (100 ≤ x.uvF → s.flag (R.RAIL_STAT_UV_FLT r) = false →
      ∃ t, exec (.railUvFault r) s = .next t ∧ t.railGood r = false ∧ t.flag (R.RAIL_STAT_UV_FLT r) = true ∧
        (s.railGet (R.RAIL_CFG_CRIT r) ≠ 1 → st t = st s ∧ (fresh → s.Room → Stored s t 0x0805 2 data)) ∧
        (s.railGet (R.RAIL_CFG_CRIT r) = 1 → st t = 6 ∧ (fresh → s.Room → Stored s t 0x0805 3 data))) ∧
    (2 ≤ x.ovF → s.railUp r = true → ∃ t, exec (.railOvFault r) s = .next t ∧ st t = 6 ∧ t.railGood r = false ∧
      t.rail[r].lowSide = decide (r.val < 8) ∧ (fresh → s.Room → Stored s t 0x0806 3 data)) ∧
    (∀ enter : Bool, r.val < 8 → s.railState r = 3 → s.railGet (R.RAIL_CFG_LIGHT r) ≠ 2 →
      exec (.lightLoadChange r enter) s = .next (s.putFlag (R.RAIL_STAT_BURST r) enter)) ∧
    (∀ level : Bool, s.mode.mode ≠ .ship → exec (.seqInChange level) s = .next (s.putFlag R.SEQ_STAT_SEQ_IN level)) ∧
    (∀ n, s.seqr.step8From = some n → n + s.get R.SEQ_CFG_SEQIN_WAIT * 2000000 ≤ s.tick.wall →
      s.flag R.SEQ_STAT_SEQ_IN = false → s.seqr.waitOver = false → s.railWanted r = true → (s.depsOf r).contains 10 = true →
      ∃ t, exec .seqinWaitExpiry s = .next t ∧ t.seqr = { s.seqr with waitOver := true } ∧
        t.flag R.SEQ_STAT_SEQIN_TMO = true ∧ (s.Room → Stored s t 0x0802 0 0))

/-! ### Housekeeping and temperature (14_housekeeping_adc_thermal.md) -/

/-- R374 to R381, R392: an entry of the sequence, after 4 µs and 2 µs for each conversion, ends with the mean of its corrected conversions in HK_RES, and the loop moves on; the writes of
START, CAL, HK_CFG and HK_DIAG wait for the Keep; a calibration that passes on every group sets its factors; and a path
diagnosis gives its result 36 µs after it took the path, with an F2 event when it fails. -/
def Obligations.HousekeepingMeasures : Prop :=
  ∀ s : State,
    let queued (i : Instr) (a : Nat) (v : W32) : Prop := exec i s = .next { s with keepWrites := s.keepWrites ++ [⟨a, v⟩] }
    (∀ raws, s.mode.mode ≠ .ship → s.flag R.HK_CTRL_START = true → s.flag R.HK_STAT_RUNNING = true → s.hk.entry < 64 →
      raws.length = bits s.hk.cfg.toNat 8 8 + 1 → s.hk.from_ + (6 + 2 * bits s.hk.cfg.toNat 8 8) * 200 ≤ s.tick.wall →
      let m := s.hkMean (bits s.hk.cfg.toNat 0 7) raws
      ∃ t, exec (.hkEntryDone raws) s = .next t ∧
        t.reg (R.HK_RES s.hk.entry) =
          BitVec.ofNat 32 (m.1 + s.get R.HK_STAT_LOOP * 65536 + 2 ^ 24 + (if m.2 then 2 ^ 25 else 0)) ∧
        (∀ k, k < 64 → k ≠ s.hk.entry → t.reg (R.HK_RES k) = s.reg (R.HK_RES k)) ∧
        (s.hk.entry < 63 → s.get (R.HK_CFG_SLOT (s.hk.entry + 1)) ≠ 0x7F →
          t.hk.entry = s.hk.entry + 1 ∧ t.hk.cfg = s.reg (R.HK_CFG (s.hk.entry + 1)))) ∧
    (s.hostWritable = true →
      (∀ b : Bool, queued (.hkStartWrite b) R.HK_CTRL (if b then 1 else 0)) ∧
      queued .hkCal R.HK_CTRL ((s.reg R.HK_CTRL &&& 1) ||| 2) ∧
      (∀ (n : Fin 64) (v : W32), queued (.hkCfgWrite n v) (R.HK_CFG n.val) v) ∧
      (∀ v : W32, queued (.hkDiagGo v) R.HK_DIAG (v ||| 0x80000000))) ∧
    (∀ n means, s.hk.calFrom = some n → n + 3600000 ≤ s.tick.wall →
      (∀ g, g < 4 → (calGroup g (means.getD g (0, 0))).isSome = true) →
      ∃ t, exec (.hkCalDone means) s = .next t ∧ t.hk.calFrom = none ∧ t.flag R.HK_STAT_CAL_BUSY = false ∧
        t.flag R.HK_STAT_CAL_FAIL = false ∧ (s.Room → Stored s t 0x0900 0 0) ∧
        ∀ g, g < 4 → ∀ gain offs, calGroup g (means.getD g (0, 0)) = some (gain, offs) →
          t.get (R.HK_CAL_GAIN g) = gain.toNat ∧ t.get (R.HK_CAL_OFFS g) = (offs % 65536).toNat) ∧
    (∀ slot code raws n, s.hk.diag = some (slot, code) → s.hk.diagFrom = some n → n + 7200 ≤ s.tick.wall →
      let m := (s.hkMean slot raws).1
      let e := roundDiv (code * 25 * 65536 : Nat) (10 * slotFs slot)
      ∃ t, exec (.hkDiagDone raws) s = .next t ∧ t.hk.diag = none ∧ t.hk.diagFrom = none ∧
        (100 * ((m : Int) - e).natAbs ≤ e.natAbs + 6400 → t.reg R.HK_DIAG_RES = BitVec.ofNat 32 (m + 2 ^ 16 + 2 ^ 17)) ∧
        (e.natAbs + 6400 < 100 * ((m : Int) - e).natAbs → t.reg R.HK_DIAG_RES = BitVec.ofNat 32 (m + 2 ^ 16) ∧
          (s.Room → Stored s t 0x0903 2 (BitVec.ofNat 32 slot))))

/-- R383 to R390: three bad results are a sensor fault, which stops the rate monitor; a die's rate is the change of T over 20 samples; its level falls after HOLD_S seconds of a low rate; a stage die's comparator
turns its channels off until a second later; and a shutdown of the Dome or the Turret is an F3 that stops the Dome. -/
def Obligations.TemperaturesAreWatched : Prop :=
  ∀ s : State,
    let frees (src : Fin 128) : Prop := s.flt.active.contains src = false ∨ s.flt.told.contains src = true
    (∀ d : DieIx, s.keepRuns = true → s.clockOn = true → s.flag R.HK_CTRL_START = true →
      (∀ k, s.pace.rate = some k → k + 2000000 ≤ s.tick.wall) → (s.die[d]).sensor = false →
      (3 ≤ (s.die[d]).badRun → ∃ t, exec .thermalRateSample s = .next t ∧ (t.die[d]).sensor = true ∧ (t.die[d]).valid = false) ∧
      ((s.die[d]).badRun < 3 → ∀ v, (s.die[d]).t = some v → (s.die[d]).temps.length = 20 →
      ∃ t, exec .thermalRateSample s = .next t ∧ (t.die[d]).valid = true ∧ (t.die[d]).temps = v :: (s.die[d]).temps ∧
        (t.die[d]).rate = satI 16 ((v - (s.die[d]).temps.getD 19 0) * 5))) ∧
    (∀ (d : DieIx) (n : Nat), s.keepRuns = true → s.clockOn = true → (s.die[d]).holdFrom = some n →
      ((s.die[d]).level = 1 ∨ (s.die[d]).level = 2 ∨ (s.die[d]).level = 3 ∧ (s.die[d]).t.getD 0 < 8960) →
      (n + s.get R.THM_CFG_HOLD_S * 200000000 ≤ s.now → ∃ t, exec (.thermalLevelFall d) s = .next t ∧
        (t.die[d]).level = (s.die[d]).level - 1 ∧ (t.die[d]).levelAt = some s.now ∧ (t.die[d]).holdFrom = some s.now ∧
        (∀ k : DieIx, k ≠ d → t.die[k] = s.die[k]) ∧ t.units = s.units ∧
        (s.Room → Stored s t 0x0A02 0 (BitVec.ofNat 32 (d.val + 256 * ((s.die[d]).level.toNat - 1))))) ∧
      (s.now < n + s.get R.THM_CFG_HOLD_S * 200000000 → exec (.thermalLevelFall d) s = .next s)) ∧
    (∀ die : StageDie, let d := dieIxOf die
      (s.mode.mode ≠ .ship → (s.die[d]).shutAt = none → ∃ t, exec (.stageThermalShutdown die) s = .next t ∧
        (t.die[d]).shutAt = some s.tick.wall ∧ (∀ c ∈ chansOfDie die, t.dieHot c = true) ∧
        (∀ k : DieIx, k ≠ d → t.die[k] = s.die[k]) ∧
        (frees ⟨0x20 + die.val, by omega⟩ → s.Room → Stored s t 0x0A04 2 (BitVec.ofNat 32 d.val))) ∧
      (∀ n, (s.die[d]).shutAt = some n →
        (n + 200000000 ≤ s.tick.wall → ∃ t, exec (.stageThermalRelease die) s = .next t ∧ (t.die[d]).shutAt = none ∧
          (∀ c ∈ chansOfDie die, (s.ch c).stage.linkSafe = false → (t.ch c).stage.waitSample = true) ∧
          (s.Room → Stored s t 0x0A05 0 (BitVec.ofNat 32 d.val))) ∧
        (s.tick.wall < n + 200000000 → exec (.stageThermalRelease die) s = .next s))) ∧
    (∀ turret : Bool, let d : DieIx := if turret then 1 else 0
      s.mode.mode ≠ .ship → (s.die[d]).shutAt = none → ∃ t, exec (.coreThermalShutdown turret) s = .next t ∧
        (t.die[d]).shutAt = some s.tick.wall ∧ t.mode.domeOn = false ∧ t.mode.domeRun = false ∧ t.mode.keep = .off ∧
        t.hp.linkUp = false ∧ t.arb.tenure = none ∧
        (s.inBuskeep = false ∨ turret = true → t.power.gatesOn = false) ∧
        (turret = true → ∀ r : Rail, t.railState r = 0) ∧
        (frees (if turret then 0x41 else 0x40) → s.Room → Stored s t 0x0A06 3 (BitVec.ofNat 32 d.val)))

/-! ### Faults and the Silt log (15_faults_freeze_debug.md) -/

/-- R401 to R406: a record whose read-back matches is committed with the next SEQ in the next slot; one that differs is written once more;
a supply that falls below 8.5 V abandons the write under way, and none starts until it is back at 9.0 V; a copy writes the records oldest
first into a buffer lent by ring 16; and an erase, in SERVICE only, empties every slot while SEQ goes on. -/
def Obligations.TheSiltLogKeepsRecords : Prop :=
  ∀ s : State,
    let x := s.silt
    (∀ b second, x.writing = some (b, second) → x.queue = [] →
      let slot := (x.head + if second then 2 else 1) % 512
      (∃ t, exec (.siltRecordWriteDone true) s = .next t ∧ t.silt.writing = none ∧ t.silt.seq = x.seq + 1 ∧ t.silt.head = slot ∧
        (∀ k : Fin 512, t.silt.slots[k] = if k.val = slot then .valid (BitVec.ofNat 32 (x.seq + 1)) b else x.slots[k]) ∧
        t.regs = s.regs) ∧
      (second = false → ∃ t, exec (.siltRecordWriteDone false) s = .next t ∧ t.silt.writing = some (b, true) ∧
        t.silt.head = x.head ∧ t.silt.seq = x.seq ∧ (s.Room → Stored s t 0x0B0A 2 (BitVec.ofNat 32 slot)))) ∧
    exec .turretSupplyLow s = .next { s with silt := { x with supplyLow := true, writing := none } } ∧
    (∃ t, exec .turretSupplyReturn s = .next t ∧ t.silt.supplyLow = false ∧
      (x.queue = [] → t.silt = { x with supplyLow := false })) ∧
    (s.hostWritable = true → let tag := s.reg R.SILT_COPY
      (∀ l, x.copy = none → s.lendOf tag = some l → l.ring = 16 → ∃ t, exec .siltCopyGo s = .next t ∧
        t.silt.copy = some (tag, min (l.len / 64) x.ordered.length) ∧ t.flag R.SILT_COPY_CTRL_DONE = false ∧
        (t.arb.data.drop s.arb.data.length).map (·.bytes) = (x.ordered.take (l.len / 64)).map (fun r => siltRecord r.1 r.2)) ∧
      (x.copy = none → s.lendOf tag = none → ∃ t, exec .siltCopyGo s = .next t ∧ t.silt = x ∧ t.arb = s.arb ∧
        (s.Room → Stored s t 0x0B09 0 tag)) ∧
      (s.mode.mode = .service → ∃ t, exec .siltErase s = .next t ∧ t.silt.erasing = true ∧ t.silt.seq = x.seq ∧
        ∀ k : Fin 512, t.silt.slots[k] = if x.slots[k] = .erased then .erased else .torn) ∧
      (s.mode.mode ≠ .service → ∃ t, exec .siltErase s = .next t ∧ t.silt = x ∧ (s.Room → Stored s t 0x0B09 0 0))) ∧
    (∀ tag n, s.clockOn = true → x.copy = some (tag, n) → (∀ d ∈ s.arb.data, d.job ≠ .silt) → s.arb.tenure = none →
      ∃ t, exec .siltCopyDone s = .next t ∧ t.silt = { x with copy := none } ∧ t.flag R.SILT_COPY_CTRL_DONE = true ∧
        (s.Room → Stored s t 0x0B08 0 (BitVec.ofNat 32 n))) ∧
    (x.erasing = true → x.queue = [] → ∃ t, exec .siltEraseDone s = .next t ∧ t.silt.erasing = false ∧ t.silt.seq = x.seq ∧
      ∀ k : Fin 512, t.silt.slots[k] = .erased)

/-! ### Freeze and debug (15_faults_freeze_debug.md) -/

/-- R98, R408 to R414: FREEZE_N and the freeze tick: the module is frozen on T_f with its cause and its ratio, and nothing of its channels, its
engines or its ticks moves; THAW, FREEZE_N and the debug port ask for a thaw; the thaw steps the tick base by D and begins the replay;
an F3 thaws into the fault state; and the limit resets the Dome logic. -/
def Obligations.TheFreezeHoldsAndThaws : Prop :=
  ∀ s : State,
    let thaws (t : State) (nT : Nat) : Prop := t.mode.frozen = false ∧ t.tick.now = BitVec.ofNat 64 (s.now + s.gapOf nT) ∧
      t.flag R.FRZ_STAT_FROZEN = false ∧ t.reg64 R.FRZ_LAST_D = BitVec.ofNat 64 (s.gapOf nT) ∧ t.frz.thawReq = false ∧
      (s.tick.replay = none → t.tick.replay = some { tf := s.now, tend := s.now + s.gapOf nT })
    (s.mode.frozen = false → s.flag R.FRZ_CFG_PIN_EN = true → s.frz.trig = none → s.mode.mode ≠ .ship →
      (s.mode.mode.isLink = true → s.mode.bootStep = 0 → s.mode.fault = false → ∃ t, exec .freezeNFall s = .next t ∧
        t.frz.trig = some (1, 0) ∧ t.frz.tf = s.now ∧ t.mode.pins.freezeLow = true ∧ t.regs = s.regs) ∧
      (s.mode.fault = true ∨ s.mode.mode.isLink = false ∨ s.mode.bootStep ≠ 0 → ∃ t, exec .freezeNFall s = .next t ∧ t.frz.trig = none ∧ (s.Room → Stored s t 0x0107 0 0))) ∧
    (∀ (cause : BitVec 3) (sc : BitVec 5) (q : W32), s.frz.trig = some (cause, sc) → s.clockOn = true → s.mode.mode.isLink = true →
      s.mode.bootStep = 0 → s.mode.fault = false → ∃ t, exec (.freezeEntry q) s = .next t ∧ t.mode.frozen = true ∧
        t.flag R.FRZ_STAT_FROZEN = true ∧ t.get R.FRZ_STAT_CAUSE = cause.toNat ∧ t.reg R.FRZ_RATIO = q ∧
        t.reg64 R.FRZ_LAST_TF = s.tick.now ∧ t.frz.trig = none ∧ t.chan = s.chan ∧ t.eng = s.eng ∧ t.units = s.units ∧
        t.tick = s.tick ∧ (s.Room → Stored s t 0x0F00 0 (BitVec.ofNat 32 (cause.toNat + sc.toNat * 8)))) ∧
    (s.mode.frozen = true →
      (s.mode.domeRun = true →
        (s.mode.pins.freezeLow = false → exec .thawWrite s = .next { s with frz := { s.frz with thawReq := true } }) ∧
        (s.mode.pins.freezeLow = true → s.flag R.FRZ_CFG_PIN_EN = true → ∃ t, exec .thawWrite s = .next t ∧
          t.frz = { s.frz with refused := s.frz.refused + 1 } ∧ t.mode = s.mode)) ∧
      (s.flag R.FRZ_CFG_PIN_THAW = true → ∃ t, exec .freezeNRise s = .next t ∧ t.frz = { s.frz with thawReq := true } ∧
        t.mode.pins.freezeLow = false) ∧
      (s.mode.domeOn = true → s.mode.pins.freezeLow = false → ∃ t, exec .dbgThaw s = .next t ∧
        t.frz = { s.frz with thawReq := true } ∧ t.mode = s.mode) ∧
      (∀ nT, s.frz.thawReq = true → s.mode.f3Pend = [] → ∃ t, exec (.thaw nT) s = .next t ∧ thaws t nT) ∧
      (∀ nT f l, s.mode.f3Pend = f :: l → ∃ t, exec (.f3ForcedThaw nT) s = .next t ∧ thaws t nT ∧ t.mode.fault = true ∧
        t.flag R.FRZ_STAT_F3_THAW = true) ∧
      (s.frz.from_ + s.get R.FRZ_CFG_LIMIT * 20000000 ≤ s.tick.wall → (s.die[(0 : DieIx)]).shutAt = none →
        (s.die[(1 : DieIx)]).shutAt = none → ∃ t, exec .freezeLimitExpiry s = .next t ∧ t.mode.frozen = false ∧ t.now = 0 ∧
          t.mode.bootStep = 4 ∧ t.mode.resetCause = s.mode.resetCause ||| BitVec.ofNat 6 (2 ^ ResetKind.freezeLimit.bit)))

/-- R416 to R421 and Table 15.10: the TAP takes each instruction and answers with its word; DBG_READ peeks and moves its address on by 4; in
SERVICE an engine halts, after the UNLOCK of an open sequence or by a lock break after 64 cycles, runs on at DBG_RESUME and executes
one instruction at DBG_STEP; in every other mode a halt is refused with event 0x0F05. -/
def Obligations.TheDebugPortActs : Prop :=
  ∀ s : State, s.mode.domeOn = true →
    let told (t : State) (w : W32) : Prop := t.hp.sent = s.hp.sent ++ [.tapWord w]
    let rest (t : State) : Prop := t.regs = s.regs ∧ t.eng = s.eng ∧ t.chan = s.chan ∧ t.mode = s.mode
    (∃ t, exec .extest s = .next t ∧ rest t ∧ t.dbg = { s.dbg with ir := 0, extest := decide (s.mode.mode = .service) }) ∧
    (∃ t, exec .samplePreload s = .next t ∧ rest t ∧ t.dbg = { s.dbg with ir := 1, extest := false }) ∧
    (∃ t, exec .idcode s = .next t ∧ rest t ∧ told t ((0x0256 : BitVec 20) ++ Config.jep106 ++ (1 : BitVec 1)) ∧ t.dbg.ir = 2) ∧
    (∃ t, exec (.bypass 0xFF) s = .next t ∧ rest t ∧ told t 0 ∧ t.dbg.ir = 0xFF) ∧
    (∀ a : W32, ∃ t, exec (.dbgAddr a) s = .next t ∧ rest t ∧ t.dbg.addr = a) ∧
    (∃ t, exec .dbgRead s = .next t ∧ rest t ∧ told t (s.dbgWord (s.dbg.addr.toNat / 4 * 4)) ∧ t.dbg.addr = s.dbg.addr + 4) ∧
    (∃ t, exec .dbgStat s = .next t ∧ rest t ∧ told t s.dbgStat) ∧
    (∀ e : Eng, let x := s.eng[e]
      let code : BitVec 9 := BitVec.ofNat 9 e.val
      let others (t : State) : Prop := ∀ k : Eng, k ≠ e → t.eng[k] = s.eng[k]
      (s.mode.mode ≠ .service → ∃ t, exec (.dbgHalt code) s = .next t ∧ t.eng = s.eng ∧ t.chan = s.chan ∧ t.dbg.refused = true ∧
        (s.Room → Stored s t 0x0F05 0 (BitVec.ofNat 32 e.val))) ∧
      (s.mode.mode = .service → s.mode.frozen = false → x.retired = false → x.halted = false → x.haltPend = none →
        (x.lock = none → ∃ t, exec (.dbgHalt code) s = .next t ∧ t.eng[e] = { x with halted := true, lbHalt := false } ∧ others t ∧
          (s.Room → Stored s t 0x0F07 0 (BitVec.ofNat 32 e.val))) ∧
        (x.lock.isSome = true → ∃ t, exec (.dbgHalt code) s = .next t ∧ t.eng[e] = { x with haltPend := some (s.now + 32) } ∧
          others t ∧ t.chan = s.chan)) ∧
      (∀ n l, s.clockOn = true → x.haltPend = some n → n ≤ s.now → x.lock = some l →
        ∃ t, exec (.dbgHaltDeferralEnd e) s = .next t ∧ t.eng[e].halted = true ∧ t.eng[e].lock = none ∧ t.eng[e].pc = l.pc ∧
          t.eng[e].flags = x.flags ||| 0x10 ∧ (∀ r : GReg, r ≠ l.ga → r ≠ l.gb → t.eng[e].getG r = x.getG r) ∧ others t ∧
          (s.Room → Stored s t (spireCode (spireOfEng e) 0x65) 0 (BitVec.ofNat 32 (x.evtChan e)))) ∧
      (x.halted = true → ∃ t, exec (.dbgResume code) s = .next t ∧ t.eng[e] = { x with halted := false, haltPend := none } ∧
        others t) ∧
      (∀ d a b : GReg, s.clockOn = true → s.mode.mode = .service → x.retired = false → x.halted = true → x.asleep = none →
        x.running = true → x.lock = none → x.pc + 4 < x.codeLen →
        decodeFrajan (x.ramWord false (x.pc / 4)) = some (.add d a b) → ∃ t, exec (.dbgStep code) s = .next t ∧
          t.eng[e].halted = true ∧ t.eng[e].pc = x.pc + 4 ∧ (d ≠ 0 → t.eng[e].getG d = x.getG a + x.getG b) ∧
          (∀ r : GReg, r ≠ d → t.eng[e].getG r = x.getG r) ∧ others t))

/-! ### The river ring (16_river_ring.md) -/

/-- R425 to R427, R430, R433, R434, R436: the headwater sends its frame on both rings, once, at every tick T with T mod 2,000 = 200; a frame that is
not intact is counted and forwarded as it is; an intact one gives a tributary the RING source; and after 16 accepted frames a
tributary joins, by a step forward where it lags by more than 1 µs, but not in FIELD. -/
def Obligations.RiverFramesTravel : Prop :=
  ∀ s : State, s.clockOn = true → s.mode.domeOn = true → s.mode.domeRun = true → s.mode.frozen = false →
    let r := s.rv
    (s.now % 2000 ≠ 200 ∨ r.sentAt = some s.tick.wall → exec .ringFrameSend s = .next s) ∧
    (s.now % 2000 = 200 → r.sentAt ≠ some s.tick.wall → s.isHead = true → r.portA.down = false → r.portB.down = false → r.noticeA = [] → r.noticeB = [] →
      r.mailA = [] → r.mailB = [] → ∃ t f, exec .ringFrameSend s = .next t ∧ t.rv.lastFrame = some f ∧
        t.hp.sent = s.hp.sent ++ [.frame .a f false, .frame .b { f with ring := .b } false] ∧ f.fseq = r.fseq + 1 ∧
        f.ftick = s.tick.now ∧ f.hops = 0 ∧ f.held = false ∧ f.v = s.course.v ∧ f.updTick = s.course.updTick ∧
        f.sRef = s.course.sRefRep ∧ t.rv.fseq = r.fseq + 1) ∧
    (∀ (p : RvRing) (f : RvFrame) (n : Nat), s.isHead = false →
      let crc := s.get R.RV_CNT_CRC_ERR
      let up := (r.port (otherRing f.ring)).down = false
      (f.hops ≤ 1023 → up → ∃ t, exec (.ringFrameAccept p f false n) s = .next t ∧ t.get R.RV_CNT_CRC_ERR = min 255 (crc + 1) ∧
        t.hp.sent = s.hp.sent ++ [.frame f.ring { f with hops := f.hops + 1 } true] ∧ t.rv.accepts = 0 ∧ t.course = s.course) ∧
      (1023 < f.hops → ∃ t, exec (.ringFrameAccept p f true n) s = .next t ∧ t.hp.sent = s.hp.sent ∧ t.rv.accepts = 0 ∧
        t.course = s.course) ∧
      (f.hops ≤ 1023 → f.held = false → ∃ t, exec (.ringFrameAccept p f true n) s = .next t ∧
        t.rv.lastTick = s.now ∧ t.rv.accepts = r.accepts + 1 ∧ t.rv.headId = some f.headId ∧ t.course.ring.got = true ∧
        t.course.ring.speed = some ⟨f.v, (f.updTick.toNat : Int)⟩ ∧ t.course.ring.yaw = some ⟨f.omega, (f.updTick.toNat : Int)⟩ ∧
        t.course.ringSRef = f.sRef)) ∧
    (r.role = .tributary → r.joined = false → r.fresh = true → 17 ≤ r.accepts →
      let data : W32 := BitVec.ofNat 32 r.pos
      (r.e.natAbs ≤ 1000000 → ∃ t, exec .ringJoin s = .next t ∧ t.rv = { r with fresh := false, joined := true } ∧
        t.tick = s.tick ∧ (s.Room → Stored s t 0x0C00 0 data)) ∧
      (r.e < -1000000 → s.mode.mode = .field → ∃ t, exec .ringJoin s = .next t ∧ t.rv = { r with fresh := false } ∧
        t.tick = s.tick ∧ (s.Room → Stored s t 0x0C0B 0 0)) ∧
      (r.e < -1000000 → s.mode.mode ≠ .field → ∃ t, exec .ringJoin s = .next t ∧ t.rv.joined = true ∧
        t.tick.now = BitVec.ofNat 64 (s.now + ((-r.e + 4999) / 5000).toNat)) ∧
      (1000000 < r.e → ∃ t, exec .ringJoin s = .next t ∧ t.rv.joined = false ∧ t.tick = s.tick ∧
        (s.Room → Stored s t 0x0C0A 0 (BitVec.ofNat 32 (satU 32 ((r.e + 999999) / 1000000))))))

/-- R428, R430, R435, R438, R441: a port is down after 30 µs without an accepted frame and up after 16; a module that no headwater reaches is
not on a ring; a tributary that is no longer slaved leaves the join; a standby headwater takes over 100 µs after the last sign of
one; and without a standby RING ceases to be valid. -/
def Obligations.RiverPortsAndHeadwaters : Prop :=
  ∀ s : State, s.mode.domeRun = true →
    let r := s.rv
    (∀ p : RvRing, let x := r.port p
      (x.down = false → x.lastAt + 6000 ≤ s.tick.wall → exec (.ringPortDown p) s =
        .next (s.modPort p fun y => { y with up := false, down := true, run := 0 })) ∧
      (s.tick.wall < x.lastAt + 6000 → exec (.ringPortDown p) s = .next s) ∧
      (x.up = false → 16 ≤ x.run → ∃ t, exec (.ringPortUp p) s = .next t ∧ t.rv.port p = { x with up := true, down := false } ∧
        t.rv.port (otherRing p) = r.port (otherRing p) ∧ (match p with | .a => t.rv.wrapB | .b => t.rv.wrapA) = false ∧
        ((match p with | .a => r.wrapB | .b => r.wrapA) = true → s.Room →
          Stored s t 0x0C02 0 (BitVec.ofNat 32 (match p with | .a => 0 | .b => 1))))) ∧
    (s.isHead = false → r.headId = none → exec .notOnRing s = .next { s with rv := { r with role := .none_ } }) ∧
    (s.clockOn = true →
      (r.role = .tributary → r.joined = true → (1000000 < r.e.natAbs ∨ r.lastTick + 20000 < s.now) →
        ∃ t, exec .slavingLost s = .next t ∧ t.rv.joined = false ∧ t.rv.locked = false ∧ t.rv.trim = r.trim ∧
          (s.Room → Stored s t 0x0C0B 0 0)) ∧
      (s.mode.straps.stbyLow = true → s.mode.straps.headLow = false → r.yielded = false → s.isHead = false →
        (r.lastSeen + 20000 ≤ s.tick.wall → ∃ t, exec .standbyTakeover s = .next t ∧ t.rv.role = .acting ∧ t.rv.pos = 0 ∧
          t.rv.headId = some (Config.unitWord 2 &&& 0x7FFFFFFF) ∧
          (s.Room → Stored s t 0x0C03 2 (Config.unitWord 2 &&& 0x7FFFFFFF))) ∧
        (s.tick.wall < r.lastSeen + 20000 → exec .standbyTakeover s = .next s)) ∧
      (r.role = .tributary → r.lostTold = false → r.lastSeen + 20000 ≤ s.tick.wall → ∃ t, exec .headwaterLost s = .next t ∧
        t.course.ring.got = false ∧ t.rv.lostTold = true ∧ t.rv.joined = r.joined ∧ t.rv.locked = r.locked ∧ (s.Room → Stored s t 0x0C0F 2 0)))

/-! ### OTP and the two-wire target (17_otp_images_twowire.md) -/

/-- R451, R457, R458, R460, R462 to R464 and Table 17.2: an OTP command is refused with its RESULT or runs, and takes 25 µs for
each word read and 500 µs for each word programmed; a read gives the word at its margin;
a scan holds the weak bits that it finds; a burn ends with RESULT 0 when every word reads back at the strict margin, else with 4; and
a staged key goes to the image check engine. -/
def Obligations.OtpCommandsRun : Prop :=
  ∀ s : State,
    let result (t : State) (n : Nat) : Prop := t.get R.OTP_STAT_RESULT = n
    let o := s.otp
    (s.hostWritable = true → ∀ v : W32, let a := bits v.toNat 4 2
      let m := bits v.toNat 6 2
      let addr := bits v.toNat 8 12
      let words := (List.range 31).map fun k => s.reg (R.OTP_STAGE k)
      let runs (i : Instr) (x : OtpRun) : Prop := ∃ t, exec i s = .next t ∧ t.otp = { o with run := some { x with since := s.tick.wall } } ∧
        t.flag R.OTP_STAT_BUSY = true
      let refused (i : Instr) (n : Nat) : Prop := ∃ t, exec i s = .next t ∧ t.otp = o ∧ result t n ∧
        (s.Room → Stored s t 0x0D01 0 (BitVec.ofNat 32 n))
      (s.flag R.OTP_STAT_BUSY = true → exec (.otpRead v) s = .next s ∧ exec (.burnBlock v) s = .next s ∧
        exec (.marginScan v) s = .next s ∧ exec (.reburnWeak v) s = .next s) ∧
      (s.flag R.OTP_STAT_BUSY = false → a < 3 →
        (addr < otpWords a → m ≠ 3 → runs (.otpRead v) ⟨1, BitVec.ofNat 2 a, addr, BitVec.ofNat 2 m, [], 0⟩) ∧
        (otpWords a ≤ addr → ∃ t, exec (.otpRead v) s = .next t ∧ t.otp = o ∧ result t 5) ∧
        (s.mode.mode ≠ .field → runs (.marginScan v) ⟨3, BitVec.ofNat 2 a, 0, 0, [], 0⟩) ∧
        (s.mode.mode = .field → refused (.marginScan v) 1) ∧
        (s.mode.mode ≠ .service → refused (.burnBlock v) 1 ∧ refused (.reburnWeak v) 1) ∧
        (s.mode.mode = .service → s.burnSafe = true → s.mode.keepPatched = false → 32 * addr + 32 ≤ otpWords a →
          (a < 2 → (∀ k, k < 32 → o.normal a (32 * addr + k) s.free = 0) →
            runs (.burnBlock v) ⟨2, BitVec.ofNat 2 a, addr, 0, words, 0⟩) ∧
          (a < 2 → (∃ k, k < 32 ∧ o.normal a (32 * addr + k) s.free ≠ 0) → refused (.burnBlock v) 3) ∧
          (a ≠ 1 → runs (.reburnWeak v) ⟨4, BitVec.ofNat 2 a, addr, 0, words, 0⟩)))) ∧
    (s.hostWritable = true → ∃ t, exec .keyLoad s = .next t ∧ t.otp = { o with
      reqs := o.reqs ++ [.key (BitVec.ofNat 8 (s.get R.IMG_KEY_SEL_SLOT)) ((List.range 16).flatMap fun k => leBytes 4 (s.regN (R.IMG_KEY_DATA k)))]
      imgFrom := if o.reqs = [] then s.tick.wall else o.imgFrom }) ∧
    (∀ x cells, o.run = some x → s.tick.wall < x.since + x.least o → exec (.otpCommandDone cells) s = .next s) ∧
    (∀ x : OtpRun, (x.op = 1 → x.least o = 5000) ∧ (x.op = 3 → x.least o = otpWords x.array.toNat * 10000) ∧
      (x.op = 2 → x.least o = ((x.words ++ [blockCrc x.words]).filter (· ≠ 0)).length * 100000 + 160000)) ∧
    (s.clockOn = true → ∀ x cells, o.run = some x → x.since + x.least o ≤ s.tick.wall → ∃ t, exec (.otpCommandDone cells) s = .next t ∧
      t.otp.run = none ∧ t.flag R.OTP_STAT_BUSY = false ∧
      (x.op = 1 → x.margin = 1 → t.reg R.OTP_DATA = o.strict x.array.toNat x.addr ∧ result t 0) ∧
      (x.op = 1 → x.margin = 2 → t.reg R.OTP_DATA = o.relaxed x.array.toNat x.addr ∧ result t 0) ∧
      (x.op = 2 → let ws := x.words ++ [blockCrc x.words]
        let b := o.burn x.array.toNat x.addr ws cells
        result t (if b.2 then 0 else 4) ∧ t.otp.config = b.1.config ∧ t.otp.patch = b.1.patch ∧
        (b.2 = true → s.Room → Stored s t 0x0D00 0 (BitVec.ofNat 32 (x.array.toNat + 16 * x.addr)))) ∧
      (x.op = 3 → cells = [] → t.otp = { o with run := none } ∧ result t 0 ∧
        t.get R.OTP_SCAN_WEAK = min (o.weakWords x.array.toNat).length 4095))

/-- R470 to R475, Tables 17.6 and 17.7: the two-wire target's reads; its requests, judged by their PEC and by the mode; the reset, which acts in
the fault state alone; and its timeouts. -/
def Obligations.TheTwoWireTargetAnswers : Prop :=
  ∀ s : State, s.twOpen = true →
    let tells (i : Instr) (st : Byte) (data : List Byte) : Prop := exec i s = .next (s.send (.twReply st data))
    let ends (i : Instr) (st : Byte) (code : BitVec 16) (data : W32) (t : State) : Prop := exec i s = .next t ∧
      t.tw.lastResult = st ∧ t.hp.sent = s.hp.sent ++ [.twReply st []] ∧ t.tw.mirror = s.tw.mirror ∧
      (s.Room → Stored s t code 0 data)
    (∀ p : Pec, p ≠ .bad →
      (∃ data, tells (.twStatus p) 0 data ∧ data.length = 34 ∧ data[32]? = some (if s.domeLive then 1 else 0) ∧
        data[33]? = some (BitVec.ofNat 8 (min 255 ((s.tick.wall - s.tw.refreshed) / 200000)))) ∧
      tells (.twLastResult p) 0 [s.tw.lastResult] ∧
      (∀ off : BitVec 16, (off.toNat % 4 ≠ 0 ∨ twReach off.toNat = none → tells (.twRegRead off p) 2 []) ∧
        (off.toNat % 4 = 0 → twReach off.toNat = some false → s.domeLive = false → tells (.twRegRead off p) 3 []) ∧
        (off.toNat % 4 = 0 → twReach off.toNat = some true → exec (.twRegRead off p) s =
          .next ((s.read32 .twoWire off.toNat).2.send (.twReply 0 (leBytes 4 (s.read32 .twoWire off.toNat).1.toNat))))) ∧
      (∀ seq : W32, (s.silt.find seq = none → tells (.twSiltRead seq p) 4 []) ∧
        (∀ b, s.silt.find seq = some b → tells (.twSiltRead seq p) 0 b))) ∧
    (∀ (off : BitVec 16) (seq : W32) (confirm : Byte), ∀ i ∈ ([.twRequestStandby, .twRequestShip, .twRequestStandbyExit, .twReset confirm,
        .twStatus, .twLastResult, .twRegRead off, .twSiltRead seq] : List (Pec → Instr)),
      ∃ t, ends (i .bad) 6 0x0E00 0 t ∧ t.mode = s.mode ∧ t.get R.TW_CNT_PEC_FAIL = min 255 (s.get R.TW_CNT_PEC_FAIL + 1)) ∧
    (∀ confirm : Byte, s.flag R.TW_CFG_PEC_REQ = true →
      ∀ i ∈ ([.twRequestStandby, .twRequestShip, .twRequestStandbyExit, .twReset confirm] : List (Pec → Instr)),
        exec (i .absent) s = .next ({ s with tw := { s.tw with lastResult := 6 } }.send (.twReply 6 []))) ∧
    (s.mode.fault = false → s.mode.move = none →
      (s.mode.mode = .ready → ∃ t m, ends (.twRequestStandby .good) 0 0x0E02 1 t ∧ t.mode.move = some m ∧ m.hops = [.standby] ∧
        m.cause = .twoWire) ∧
      (s.mode.mode ≠ .ready → ∃ t, ends (.twRequestStandby .good) 5 0x0E03 0x501 t ∧ t.mode = s.mode) ∧
      (s.mode.mode = .standby → s.mode.starting = false →
        (s.tfPresent = false → ∃ t m, ends (.twRequestShip .good) 0 0x0E02 2 t ∧ t.mode.move = some m ∧ m.hops = [.ship]) ∧
        (s.mode.keep ≠ .halted → s.mode.refLost = false → ∃ t, ends (.twRequestStandbyExit .good) 0 0x0E02 3 t ∧ t.mode.starting = true ∧
          t.mode.bootStep = 7)) ∧
      (s.mode.mode ≠ .standby → (∃ t, ends (.twRequestShip .good) 5 0x0E03 0x502 t ∧ t.mode = s.mode) ∧
        (∃ t, ends (.twRequestStandbyExit .good) 5 0x0E03 0x503 t ∧ t.mode = s.mode))) ∧
    (∀ confirm : Byte,
      (confirm ≠ 0x5A → ∃ t, ends (.twReset confirm .good) 2 0x0E03 0x230 t ∧ t.mode = s.mode) ∧
      (confirm = 0x5A → s.mode.fault = false → ∃ t, ends (.twReset confirm .good) 5 0x0E03 0x530 t ∧ t.mode = s.mode) ∧
      (confirm = 0x5A → s.mode.fault = true → (s.die[(0 : DieIx)]).shutAt = none → (s.die[(1 : DieIx)]).shutAt = none →
        ∃ t, exec (.twReset confirm .good) s = .next t ∧ t.mode.fault = false ∧ t.mode.bootStep = 4 ∧ t.now = 0)) ∧
    (∃ t, exec .twStretchTimeout s = .next t ∧ t.hp.sent = s.hp.sent ++ [.twReply 8 []] ∧ t.tw = s.tw ∧
      t.get R.TW_CNT_BUSY = min 255 (s.get R.TW_CNT_BUSY + 1)) ∧
    (s.flag R.TW_CFG_TIMEOUT_EN = true → ∃ t, exec .twBusTimeout s = .next t ∧ t.tw = s.tw ∧
      t.get R.TW_CNT_TIMEOUTS = min 255 (s.get R.TW_CNT_TIMEOUTS + 1) ∧ (s.Room → Stored s t 0x0E01 0 0))

/-! ### An invariant of every step -/

/-- The model's form of the words and bytes it holds: whatever command stands at the front of the queue, and on an empty queue, a step keeps the register file and every
engine's data RAM in canonical form, so that equal contents are equal data: addresses rise, and no entry equals what an unlisted
address reads as (a word its reset value of Table 18.1, a byte 0). -/
def Obligations.StepKeepsCanonical : Prop :=
  ∀ s t : State, s.Canonical → step s = .next t → t.Canonical
end

