-- ==== Sys2Proof/Laws/Dispatch.lean ====
section
/-! SUPPORT. The dispatcher, command by command. -/

set_option Elab.async false

namespace Sys2Proof.Machine

@[simp] theorem exec_registerWrite (addr : BitVec 16) (dwords : List (W32 × BitVec 4)) (s : State) : exec (.registerWrite addr dwords) s = execRegisterWrite addr dwords s := rfl
@[simp] theorem exec_rcRead (p : Path) (addr : ReadAt) (be : List (BitVec 4)) (s : State) : exec (.rcRead p addr be) s = execRcRead p addr be s := rfl
@[simp] theorem exec_lowHalfRead (p : Path) (addr : BitVec 16) (s : State) : exec (.lowHalfRead p addr) s = execLowHalfRead p addr s := rfl
@[simp] theorem exec_highHalfRead (p : Path) (addr : BitVec 16) (s : State) : exec (.highHalfRead p addr) s = execHighHalfRead p addr s := rfl
@[simp] theorem exec_bar4Read (off : BitVec 24) (len : Nat) (s : State) : exec (.bar4Read off len) s = execBar4Read off len s := rfl
@[simp] theorem exec_powerOnReset (s : State) : exec (.powerOnReset) s = execPowerOnReset s := rfl
@[simp] theorem exec_resetNPin (s : State) : exec (.resetNPin) s = execResetNPin s := rfl
@[simp] theorem exec_perstAssert (s : State) : exec (.perstAssert) s = execPerstAssert s := rfl
@[simp] theorem exec_perstDeassert (s : State) : exec (.perstDeassert) s = execPerstDeassert s := rfl
@[simp] theorem exec_deviceCommandReset (s : State) : exec (.deviceCommandReset) s = execDeviceCommandReset s := rfl
@[simp] theorem exec_faultStateReset (s : State) : exec (.faultStateReset) s = execFaultStateReset s := rfl
@[simp] theorem exec_wakeQualified (s : State) : exec (.wakeQualified) s = execWakeQualified s := rfl
@[simp] theorem exec_tfQualified (s : State) : exec (.tfQualified) s = execTfQualified s := rfl
@[simp] theorem exec_keyRising (s : State) : exec (.keyRising) s = execKeyRising s := rfl
@[simp] theorem exec_keyFalling (s : State) : exec (.keyFalling) s = execKeyFalling s := rfl
@[simp] theorem exec_keyoffDelayExpiry (s : State) : exec (.keyoffDelayExpiry) s = execKeyoffDelayExpiry s := rfl
@[simp] theorem exec_keyoffRoadMoveStart (s : State) : exec (.keyoffRoadMoveStart) s = execKeyoffRoadMoveStart s := rfl
@[simp] theorem exec_serviceOverspeedExit (s : State) : exec (.serviceOverspeedExit) s = execServiceOverspeedExit s := rfl
@[simp] theorem exec_modeEntry (s : State) : exec (.modeEntry) s = execModeEntry s := rfl
@[simp] theorem exec_bootTurretWake (straps : StrapIn) (s : State) : exec (.bootTurretWake straps) s = execBootTurretWake straps s := rfl
@[simp] theorem exec_bootPackCheck (taps : PackTaps) (s : State) : exec (.bootPackCheck taps) s = execBootPackCheck taps s := rfl
@[simp] theorem exec_bootSoftClose (ok : Bool) (s : State) : exec (.bootSoftClose ok) s = execBootSoftClose ok s := rfl
@[simp] theorem exec_bootDomeRelease (refHz : Option Nat) (s : State) : exec (.bootDomeRelease refHz) s = execBootDomeRelease refHz s := rfl
@[simp] theorem exec_bootKeepBoot (selfTestOk : Bool) (s : State) : exec (.bootKeepBoot selfTestOk) s = execBootKeepBoot selfTestOk s := rfl
@[simp] theorem exec_bootOtpConfigRead (unread : Bool) (s : State) : exec (.bootOtpConfigRead unread) s = execBootOtpConfigRead unread s := rfl
@[simp] theorem exec_bootHkSelfCal (means : List (Int × Int)) (s : State) : exec (.bootHkSelfCal means) s = execBootHkSelfCal means s := rfl
@[simp] theorem exec_patchVerifyDone (s : State) : exec (.patchVerifyDone) s = execPatchVerifyDone s := rfl
@[simp] theorem exec_bootRailStart (aux0Mv : Nat) (s : State) : exec (.bootRailStart aux0Mv) s = execBootRailStart aux0Mv s := rfl
@[simp] theorem exec_warmStart (s : State) : exec (.warmStart) s = execWarmStart s := rfl
@[simp] theorem exec_stageLinkLoss (die : StageDie) (s : State) : exec (.stageLinkLoss die) s = execStageLinkLoss die s := rfl
@[simp] theorem exec_stageLinkRestore (die : StageDie) (s : State) : exec (.stageLinkRestore die) s = execStageLinkRestore die s := rfl
@[simp] theorem exec_keepReferenceLoss (s : State) : exec (.keepReferenceLoss) s = execKeepReferenceLoss s := rfl
@[simp] theorem exec_keepReferenceReturn (refHz : Nat) (s : State) : exec (.keepReferenceReturn refHz) s = execKeepReferenceReturn refHz s := rfl
@[simp] theorem exec_keepLockstepMismatch (s : State) : exec (.keepLockstepMismatch) s = execKeepLockstepMismatch s := rfl
@[simp] theorem exec_keepRestartDone (s : State) : exec (.keepRestartDone) s = execKeepRestartDone s := rfl
@[simp] theorem exec_keepDecisionBoundary (s : State) : exec (.keepDecisionBoundary) s = execKeepDecisionBoundary s := rfl
@[simp] theorem exec_courseUpdate (s : State) : exec (.courseUpdate) s = execCourseUpdate s := rfl
@[simp] theorem exec_speedSourceDisplace (code : BitVec 4) (s : State) : exec (.speedSourceDisplace code) s = execSpeedSourceDisplace code s := rfl
@[simp] theorem exec_sourceTimeout (code : BitVec 4) (s : State) : exec (.sourceTimeout code) s = execSourceTimeout code s := rfl
@[simp] theorem exec_coastTimeExpiry (s : State) : exec (.coastTimeExpiry) s = execCoastTimeExpiry s := rfl
@[simp] theorem exec_blendEnd (yaw : Bool) (s : State) : exec (.blendEnd yaw) s = execBlendEnd yaw s := rfl
@[simp] theorem exec_crosscheckDisagree (code : BitVec 4) (s : State) : exec (.crosscheckDisagree code) s = execCrosscheckDisagree code s := rfl
@[simp] theorem exec_courseRebaseGo (s : State) : exec (.courseRebaseGo) s = execCourseRebaseGo s := rfl
@[simp] theorem exec_chGeomWrite (ch : Ch) (isX : Bool) (value : W32) (s : State) : exec (.chGeomWrite ch isX value) s = execChGeomWrite ch isX value s := rfl
@[simp] theorem exec_hostPoseCommit (s : State) : exec (.hostPoseCommit) s = execHostPoseCommit s := rfl
@[simp] theorem exec_encoderEdge (n : Fin 2) (a b : Bool) (s : State) : exec (.encoderEdge n a b) s = execEncoderEdge n a b s := rfl
@[simp] theorem exec_encoderStop (n : Fin 2) (s : State) : exec (.encoderStop n) s = execEncoderStop n s := rfl
@[simp] theorem exec_radarPulse (s : State) : exec (.radarPulse) s = execRadarPulse s := rfl
@[simp] theorem exec_radarStop (s : State) : exec (.radarStop) s = execRadarStop s := rfl
@[simp] theorem exec_spdanSample (code : BitVec 12) (s : State) : exec (.spdanSample code) s = execSpdanSample code s := rfl
@[simp] theorem exec_gnssCharacter (port : Fin 2) (samples : List Bool) (early : Bool) (s : State) : exec (.gnssCharacter port samples early) s = execGnssCharacter port samples early s := rfl
@[simp] theorem exec_nmeaSentence (port : Fin 2) (s : State) : exec (.nmeaSentence port) s = execNmeaSentence port s := rfl
@[simp] theorem exec_gnssBinaryFrame (port : Fin 2) (s : State) : exec (.gnssBinaryFrame port) s = execGnssBinaryFrame port s := rfl
@[simp] theorem exec_compareMatch (u : CUnit) (s : State) : exec (.compareMatch u) s = execCompareMatch u s := rfl
@[simp] theorem exec_chainArrival (u : CUnit) (s : State) : exec (.chainArrival u) s = execChainArrival u s := rfl
@[simp] theorem exec_gstartWrite (value : W32) (s : State) : exec (.gstartWrite value) s = execGstartWrite value s := rfl
@[simp] theorem exec_gstartRelease (s : State) : exec (.gstartRelease) s = execGstartRelease s := rfl
@[simp] theorem exec_predictorWrite (s : State) : exec (.predictorWrite) s = execPredictorWrite s := rfl
@[simp] theorem exec_chBndCtrlWrite (ch : Ch) (value : W32) (s : State) : exec (.chBndCtrlWrite ch value) s = execChBndCtrlWrite ch value s := rfl
@[simp] theorem exec_chBndTargetWrite (ch : Ch) (value : W64) (s : State) : exec (.chBndTargetWrite ch value) s = execChBndTargetWrite ch value s := rfl
@[simp] theorem exec_compareReplayMatch (s : State) : exec (.compareReplayMatch) s = execCompareReplayMatch s := rfl
@[simp] theorem exec_controlSampleInstant (ch : Ch) (inp : SampleIn) (s : State) : exec (.controlSampleInstant ch inp) s = execControlSampleInstant ch inp s := rfl
@[simp] theorem exec_sampleEventLatch (ch : Ch) (s : State) : exec (.sampleEventLatch ch) s = execSampleEventLatch ch s := rfl
@[simp] theorem exec_deadlineMiss (ch : Ch) (s : State) : exec (.deadlineMiss ch) s = execDeadlineMiss ch s := rfl
@[simp] theorem exec_takeoverResume (ch : Ch) (s : State) : exec (.takeoverResume ch) s = execTakeoverResume ch s := rfl
@[simp] theorem exec_deposedRetireTimeout (e : Eng) (s : State) : exec (.deposedRetireTimeout e) s = execDeposedRetireTimeout e s := rfl
@[simp] theorem exec_selfTestDone (e : Eng) (passed : Bool) (s : State) : exec (.selfTestDone e passed) s = execSelfTestDone e passed s := rfl
@[simp] theorem exec_tkoHandback (sp : Spire) (value : W32) (s : State) : exec (.tkoHandback sp value) s = execTkoHandback sp value s := rfl
@[simp] theorem exec_dutyCommandArrival (ch : Ch) (s : State) : exec (.dutyCommandArrival ch) s = execDutyCommandArrival ch s := rfl
@[simp] theorem exec_carrierUpdatePoint (ch : Ch) (centre : Bool) (s : State) : exec (.carrierUpdatePoint ch centre) s = execCarrierUpdatePoint ch centre s := rfl
@[simp] theorem exec_dlyReport (ch : Ch) (s : State) : exec (.dlyReport ch) s = execDlyReport ch s := rfl
@[simp] theorem exec_currentSample (ch : Ch) (code : Int) (s : State) : exec (.currentSample ch code) s = execCurrentSample ch code s := rfl
@[simp] theorem exec_voltageSample (ch : Ch) (code : BitVec 12) (s : State) : exec (.voltageSample ch code) s = execVoltageSample ch code s := rfl
@[simp] theorem exec_snsEdge (ch : Ch) (level : Bool) (s : State) : exec (.snsEdge ch level) s = execSnsEdge ch level s := rfl
@[simp] theorem exec_currentLimitReached (ch : Ch) (s : State) : exec (.currentLimitReached ch) s = execCurrentLimitReached ch s := rfl
@[simp] theorem exec_peakBudgetExhausted (ch : Ch) (s : State) : exec (.peakBudgetExhausted ch) s = execPeakBudgetExhausted ch s := rfl
@[simp] theorem exec_peakBudgetRestored (ch : Ch) (s : State) : exec (.peakBudgetRestored ch) s = execPeakBudgetRestored ch s := rfl
@[simp] theorem exec_hiccupStart (ch : Ch) (s : State) : exec (.hiccupStart ch) s = execHiccupStart ch s := rfl
@[simp] theorem exec_hiccupEnd (ch : Ch) (s : State) : exec (.hiccupEnd ch) s = execHiccupEnd ch s := rfl
@[simp] theorem exec_openLoadDetect (ch : Ch) (s : State) : exec (.openLoadDetect ch) s = execOpenLoadDetect ch s := rfl
@[simp] theorem exec_desaturation (ch : Ch) (leg : Leg) (highSide : Bool) (stuck : Bool) (s : State) : exec (.desaturation ch leg highSide stuck) s = execDesaturation ch leg highSide stuck s := rfl
@[simp] theorem exec_legImbalance (ch : Ch) (iA iB : Int) (stuck : Bool) (s : State) : exec (.legImbalance ch iA iB stuck) s = execLegImbalance ch iA iB stuck s := rfl
@[simp] theorem exec_chLegRestore (ch : Ch) (s : State) : exec (.chLegRestore ch) s = execChLegRestore ch s := rfl
@[simp] theorem exec_chStageCfgWrite (ch : Ch) (value : W32) (s : State) : exec (.chStageCfgWrite ch value) s = execChStageCfgWrite ch value s := rfl
@[simp] theorem exec_chEngCtrlWrite (ch : Ch) (value : W32) (s : State) : exec (.chEngCtrlWrite ch value) s = execChEngCtrlWrite ch value s := rfl
@[simp] theorem exec_add (e : Eng) (d a b : GReg) (s : State) : exec (.add e d a b) s = execAdd e d a b s := rfl
@[simp] theorem exec_sub (e : Eng) (d a b : GReg) (s : State) : exec (.sub e d a b) s = execSub e d a b s := rfl
@[simp] theorem exec_and (e : Eng) (d a b : GReg) (s : State) : exec (.and e d a b) s = execAnd e d a b s := rfl
@[simp] theorem exec_or (e : Eng) (d a b : GReg) (s : State) : exec (.or e d a b) s = execOr e d a b s := rfl
@[simp] theorem exec_xor (e : Eng) (d a b : GReg) (s : State) : exec (.xor e d a b) s = execXor e d a b s := rfl
@[simp] theorem exec_shl (e : Eng) (d a b : GReg) (s : State) : exec (.shl e d a b) s = execShl e d a b s := rfl
@[simp] theorem exec_shr (e : Eng) (d a b : GReg) (s : State) : exec (.shr e d a b) s = execShr e d a b s := rfl
@[simp] theorem exec_sar (e : Eng) (d a b : GReg) (s : State) : exec (.sar e d a b) s = execSar e d a b s := rfl
@[simp] theorem exec_adds (e : Eng) (d a b : GReg) (s : State) : exec (.adds e d a b) s = execAdds e d a b s := rfl
@[simp] theorem exec_subs (e : Eng) (d a b : GReg) (s : State) : exec (.subs e d a b) s = execSubs e d a b s := rfl
@[simp] theorem exec_min (e : Eng) (d a b : GReg) (s : State) : exec (.min e d a b) s = execMin e d a b s := rfl
@[simp] theorem exec_max (e : Eng) (d a b : GReg) (s : State) : exec (.max e d a b) s = execMax e d a b s := rfl
@[simp] theorem exec_slt (e : Eng) (d a b : GReg) (s : State) : exec (.slt e d a b) s = execSlt e d a b s := rfl
@[simp] theorem exec_sltu (e : Eng) (d a b : GReg) (s : State) : exec (.sltu e d a b) s = execSltu e d a b s := rfl
@[simp] theorem exec_abss (e : Eng) (d a : GReg) (s : State) : exec (.abss e d a) s = execAbss e d a s := rfl
@[simp] theorem exec_addi (e : Eng) (d a : GReg) (imm : BitVec 16) (s : State) : exec (.addi e d a imm) s = execAddi e d a imm s := rfl
@[simp] theorem exec_andi (e : Eng) (d a : GReg) (imm : BitVec 16) (s : State) : exec (.andi e d a imm) s = execAndi e d a imm s := rfl
@[simp] theorem exec_ori (e : Eng) (d a : GReg) (imm : BitVec 16) (s : State) : exec (.ori e d a imm) s = execOri e d a imm s := rfl
@[simp] theorem exec_xori (e : Eng) (d a : GReg) (imm : BitVec 16) (s : State) : exec (.xori e d a imm) s = execXori e d a imm s := rfl
@[simp] theorem exec_lui (e : Eng) (d : GReg) (imm : BitVec 16) (s : State) : exec (.lui e d imm) s = execLui e d imm s := rfl
@[simp] theorem exec_shli (e : Eng) (d a : GReg) (sh : Fin 32) (s : State) : exec (.shli e d a sh) s = execShli e d a sh s := rfl
@[simp] theorem exec_shri (e : Eng) (d a : GReg) (sh : Fin 32) (s : State) : exec (.shri e d a sh) s = execShri e d a sh s := rfl
@[simp] theorem exec_sari (e : Eng) (d a : GReg) (sh : Fin 32) (s : State) : exec (.sari e d a sh) s = execSari e d a sh s := rfl
@[simp] theorem exec_slti (e : Eng) (d a : GReg) (imm : BitVec 16) (s : State) : exec (.slti e d a imm) s = execSlti e d a imm s := rfl
@[simp] theorem exec_mul (e : Eng) (d a b : GReg) (s : State) : exec (.mul e d a b) s = execMul e d a b s := rfl
@[simp] theorem exec_mulh (e : Eng) (d a b : GReg) (s : State) : exec (.mulh e d a b) s = execMulh e d a b s := rfl
@[simp] theorem exec_mulhu (e : Eng) (d a b : GReg) (s : State) : exec (.mulhu e d a b) s = execMulhu e d a b s := rfl
@[simp] theorem exec_mac (e : Eng) (a b : GReg) (s : State) : exec (.mac e a b) s = execMac e a b s := rfl
@[simp] theorem exec_msu (e : Eng) (a b : GReg) (s : State) : exec (.msu e a b) s = execMsu e a b s := rfl
@[simp] theorem exec_macz (e : Eng) (a b : GReg) (s : State) : exec (.macz e a b) s = execMacz e a b s := rfl
@[simp] theorem exec_mfa (e : Eng) (d : GReg) (b : Fin 32) (s : State) : exec (.mfa e d b) s = execMfa e d b s := rfl
@[simp] theorem exec_mfah (e : Eng) (d : GReg) (s : State) : exec (.mfah e d) s = execMfah e d s := rfl
@[simp] theorem exec_mta (e : Eng) (a : GReg) (s : State) : exec (.mta e a) s = execMta e a s := rfl
@[simp] theorem exec_mtah (e : Eng) (a b : GReg) (s : State) : exec (.mtah e a b) s = execMtah e a b s := rfl
@[simp] theorem exec_rcp (e : Eng) (d a : GReg) (s : State) : exec (.rcp e d a) s = execRcp e d a s := rfl
@[simp] theorem exec_rcps (e : Eng) (d a : GReg) (s : State) : exec (.rcps e d a) s = execRcps e d a s := rfl
@[simp] theorem exec_lw (e : Eng) (d a : GReg) (imm : BitVec 16) (s : State) : exec (.lw e d a imm) s = execLw e d a imm s := rfl
@[simp] theorem exec_lh (e : Eng) (d a : GReg) (imm : BitVec 16) (s : State) : exec (.lh e d a imm) s = execLh e d a imm s := rfl
@[simp] theorem exec_lhu (e : Eng) (d a : GReg) (imm : BitVec 16) (s : State) : exec (.lhu e d a imm) s = execLhu e d a imm s := rfl
@[simp] theorem exec_lb (e : Eng) (d a : GReg) (imm : BitVec 16) (s : State) : exec (.lb e d a imm) s = execLb e d a imm s := rfl
@[simp] theorem exec_lbu (e : Eng) (d a : GReg) (imm : BitVec 16) (s : State) : exec (.lbu e d a imm) s = execLbu e d a imm s := rfl
@[simp] theorem exec_sw (e : Eng) (d a : GReg) (imm : BitVec 16) (s : State) : exec (.sw e d a imm) s = execSw e d a imm s := rfl
@[simp] theorem exec_sh (e : Eng) (d a : GReg) (imm : BitVec 16) (s : State) : exec (.sh e d a imm) s = execSh e d a imm s := rfl
@[simp] theorem exec_sb (e : Eng) (d a : GReg) (imm : BitVec 16) (s : State) : exec (.sb e d a imm) s = execSb e d a imm s := rfl
@[simp] theorem exec_beq (e : Eng) (a b : GReg) (off : BitVec 16) (s : State) : exec (.beq e a b off) s = execBeq e a b off s := rfl
@[simp] theorem exec_bne (e : Eng) (a b : GReg) (off : BitVec 16) (s : State) : exec (.bne e a b off) s = execBne e a b off s := rfl
@[simp] theorem exec_blt (e : Eng) (a b : GReg) (off : BitVec 16) (s : State) : exec (.blt e a b off) s = execBlt e a b off s := rfl
@[simp] theorem exec_bge (e : Eng) (a b : GReg) (off : BitVec 16) (s : State) : exec (.bge e a b off) s = execBge e a b off s := rfl
@[simp] theorem exec_bltu (e : Eng) (a b : GReg) (off : BitVec 16) (s : State) : exec (.bltu e a b off) s = execBltu e a b off s := rfl
@[simp] theorem exec_bgeu (e : Eng) (a b : GReg) (off : BitVec 16) (s : State) : exec (.bgeu e a b off) s = execBgeu e a b off s := rfl
@[simp] theorem exec_j (e : Eng) (off : BitVec 26) (s : State) : exec (.j e off) s = execJ e off s := rfl
@[simp] theorem exec_jal (e : Eng) (off : BitVec 26) (s : State) : exec (.jal e off) s = execJal e off s := rfl
@[simp] theorem exec_jr (e : Eng) (a : GReg) (s : State) : exec (.jr e a) s = execJr e a s := rfl
@[simp] theorem exec_portIn (e : Eng) (d : GReg) (port : BitVec 16) (s : State) : exec (.portIn e d port) s = execPortIn e d port s := rfl
@[simp] theorem exec_inPop (e : Eng) (d : GReg) (port : BitVec 16) (s : State) : exec (.inPop e d port) s = execInPop e d port s := rfl
@[simp] theorem exec_inTickL (e : Eng) (d : GReg) (s : State) : exec (.inTickL e d) s = execInTickL e d s := rfl
@[simp] theorem exec_outDuty (e : Eng) (a : GReg) (s : State) : exec (.outDuty e a) s = execOutDuty e a s := rfl
@[simp] theorem exec_outDutyHold (e : Eng) (a : GReg) (s : State) : exec (.outDutyHold e a) s = execOutDutyHold e a s := rfl
@[simp] theorem exec_outBndLat (e : Eng) (a : GReg) (s : State) : exec (.outBndLat e a) s = execOutBndLat e a s := rfl
@[simp] theorem exec_outSmpPer (e : Eng) (a : GReg) (s : State) : exec (.outSmpPer e a) s = execOutSmpPer e a s := rfl
@[simp] theorem exec_outTmr (e : Eng) (a : GReg) (s : State) : exec (.outTmr e a) s = execOutTmr e a s := rfl
@[simp] theorem exec_outFlags (e : Eng) (a : GReg) (s : State) : exec (.outFlags e a) s = execOutFlags e a s := rfl
@[simp] theorem exec_outTrace (e : Eng) (a : GReg) (s : State) : exec (.outTrace e a) s = execOutTrace e a s := rfl
@[simp] theorem exec_outTraceEnd (e : Eng) (a : GReg) (s : State) : exec (.outTraceEnd e a) s = execOutTraceEnd e a s := rfl
@[simp] theorem exec_wait (e : Eng) (d : GReg) (mask : BitVec 16) (s : State) : exec (.wait e d mask) s = execWait e d mask s := rfl
@[simp] theorem exec_waitWake (e : Eng) (s : State) : exec (.waitWake e) s = execWaitWake e s := rfl
@[simp] theorem exec_engineTimerExpiry (e : Eng) (s : State) : exec (.engineTimerExpiry e) s = execEngineTimerExpiry e s := rfl
@[simp] theorem exec_lock (e : Eng) (a b : GReg) (s : State) : exec (.lock e a b) s = execLock e a b s := rfl
@[simp] theorem exec_unlock (e : Eng) (s : State) : exec (.unlock e) s = execUnlock e s := rfl
@[simp] theorem exec_ckpt (e : Eng) (s : State) : exec (.ckpt e) s = execCkpt e s := rfl
@[simp] theorem exec_trap (e : Eng) (imm : BitVec 16) (s : State) : exec (.trap e imm) s = execTrap e imm s := rfl
@[simp] theorem exec_illegalInstruction (e : Eng) (word : W32) (s : State) : exec (.illegalInstruction e word) s = execIllegalInstruction e word s := rfl
@[simp] theorem exec_engineWatchdog (e : Eng) (s : State) : exec (.engineWatchdog e) s = execEngineWatchdog e s := rfl
@[simp] theorem exec_reachPost (q : Ring) (d : Desc) (s : State) : exec (.reachPost q d) s = execReachPost q d s := rfl
@[simp] theorem exec_reachCancel (q : Ring) (d : Desc) (s : State) : exec (.reachCancel q d) s = execReachCancel q d s := rfl
@[simp] theorem exec_reachFlush (q : Ring) (d : Desc) (s : State) : exec (.reachFlush q d) s = execReachFlush q d s := rfl
@[simp] theorem exec_prmWrite (q : Ring) (d : Desc) (s : State) : exec (.prmWrite q d) s = execPrmWrite q d s := rfl
@[simp] theorem exec_prmLoad (q : Ring) (d : Desc) (s : State) : exec (.prmLoad q d) s = execPrmLoad q d s := rfl
@[simp] theorem exec_chRun (q : Ring) (d : Desc) (s : State) : exec (.chRun q d) s = execChRun q d s := rfl
@[simp] theorem exec_manual (q : Ring) (d : Desc) (s : State) : exec (.manual q d) s = execManual q d s := rfl
@[simp] theorem exec_manualPeriodEnd (ch : Ch) (s : State) : exec (.manualPeriodEnd ch) s = execManualPeriodEnd ch s := rfl
@[simp] theorem exec_imgLoad (q : Ring) (d : Desc) (s : State) : exec (.imgLoad q d) s = execImgLoad q d s := rfl
@[simp] theorem exec_imageCopyDone (ch : Ch) (s : State) : exec (.imageCopyDone ch) s = execImageCopyDone ch s := rfl
@[simp] theorem exec_imgCheck (q : Ring) (d : Desc) (s : State) : exec (.imgCheck q d) s = execImgCheck q d s := rfl
@[simp] theorem exec_lend (q : Ring) (d : Desc) (s : State) : exec (.lend q d) s = execLend q d s := rfl
@[simp] theorem exec_reclaim (q : Ring) (d : Desc) (s : State) : exec (.reclaim q d) s = execReclaim q d s := rfl
@[simp] theorem exec_reclaimAll (q : Ring) (d : Desc) (s : State) : exec (.reclaimAll q d) s = execReclaimAll q d s := rfl
@[simp] theorem exec_snapAt (q : Ring) (d : Desc) (s : State) : exec (.snapAt q d) s = execSnapAt q d s := rfl
@[simp] theorem exec_snapCancel (q : Ring) (d : Desc) (s : State) : exec (.snapCancel q d) s = execSnapCancel q d s := rfl
@[simp] theorem exec_eddyRead (q : Ring) (d : Desc) (s : State) : exec (.eddyRead q d) s = execEddyRead q d s := rfl
@[simp] theorem exec_eddyClear (q : Ring) (d : Desc) (s : State) : exec (.eddyClear q d) s = execEddyClear q d s := rfl
@[simp] theorem exec_pwrWrite (q : Ring) (d : Desc) (s : State) : exec (.pwrWrite q d) s = execPwrWrite q d s := rfl
@[simp] theorem exec_pwrRead (q : Ring) (d : Desc) (s : State) : exec (.pwrRead q d) s = execPwrRead q d s := rfl
@[simp] theorem exec_buskeepAck (q : Ring) (d : Desc) (s : State) : exec (.buskeepAck q d) s = execBuskeepAck q d s := rfl
@[simp] theorem exec_modeReq (q : Ring) (d : Desc) (s : State) : exec (.modeReq q d) s = execModeReq q d s := rfl
@[simp] theorem exec_reset (q : Ring) (d : Desc) (s : State) : exec (.reset q d) s = execReset q d s := rfl
@[simp] theorem exec_freeze (q : Ring) (d : Desc) (s : State) : exec (.freeze q d) s = execFreeze q d s := rfl
@[simp] theorem exec_serviceUnlock (q : Ring) (d : Desc) (s : State) : exec (.serviceUnlock q d) s = execServiceUnlock q d s := rfl
@[simp] theorem exec_nop (q : Ring) (d : Desc) (s : State) : exec (.nop q d) s = execNop q d s := rfl
@[simp] theorem exec_barrier (q : Ring) (d : Desc) (s : State) : exec (.barrier q d) s = execBarrier q d s := rfl
@[simp] theorem exec_ringQuery (q : Ring) (d : Desc) (s : State) : exec (.ringQuery q d) s = execRingQuery q d s := rfl
@[simp] theorem exec_mbxSend (q : Ring) (d : Desc) (s : State) : exec (.mbxSend q d) s = execMbxSend q d s := rfl
@[simp] theorem exec_mbxRecv (q : Ring) (d : Desc) (s : State) : exec (.mbxRecv q d) s = execMbxRecv q d s := rfl
@[simp] theorem exec_submissionDoorbell (off : BitVec 12) (value : W32) (be : BitVec 4) (s : State) : exec (.submissionDoorbell off value be) s = execSubmissionDoorbell off value be s := rfl
@[simp] theorem exec_completionDoorbell (off : BitVec 12) (value : W32) (be : BitVec 4) (s : State) : exec (.completionDoorbell off value be) s = execCompletionDoorbell off value be s := rfl
@[simp] theorem exec_descriptorArrival (q : Ring) (ds : List (Byte × Desc)) (s : State) : exec (.descriptorArrival q ds) s = execDescriptorArrival q ds s := rfl
@[simp] theorem exec_dmaReadFailure (q : Ring) (kind : Fin 5) (lent : Bool) (s : State) : exec (.dmaReadFailure q kind lent) s = execDmaReadFailure q kind lent s := rfl
@[simp] theorem exec_qnCfgWrite (q : Ring) (value : W32) (s : State) : exec (.qnCfgWrite q value) s = execQnCfgWrite q value s := rfl
@[simp] theorem exec_ringResume (q : Ring) (s : State) : exec (.ringResume q) s = execRingResume q s := rfl
@[simp] theorem exec_arbitrationGrant (s : State) : exec (.arbitrationGrant) s = execArbitrationGrant s := rfl
@[simp] theorem exec_tenureBite (s : State) : exec (.tenureBite) s = execTenureBite s := rfl
@[simp] theorem exec_reliefTakeover (sp : Spire) (s : State) : exec (.reliefTakeover sp) s = execReliefTakeover sp s := rfl
@[simp] theorem exec_msixCoalesceTimeout (q : Ring) (s : State) : exec (.msixCoalesceTimeout q) s = execMsixCoalesceTimeout q s := rfl
@[simp] theorem exec_completionRingFullTimeout (q : Ring) (s : State) : exec (.completionRingFullTimeout q) s = execCompletionRingFullTimeout q s := rfl
@[simp] theorem exec_linkUp (speed : Fin 5) (width : Fin 3) (s : State) : exec (.linkUp speed width) s = execLinkUp speed width s := rfl
@[simp] theorem exec_linkDown (s : State) : exec (.linkDown) s = execLinkDown s := rfl
@[simp] theorem exec_snapshotLatch (s : State) : exec (.snapshotLatch) s = execSnapshotLatch s := rfl
@[simp] theorem exec_snapshotWriteDone (s : State) : exec (.snapshotWriteDone) s = execSnapshotWriteDone s := rfl
@[simp] theorem exec_eddyReadDone (s : State) : exec (.eddyReadDone) s = execEddyReadDone s := rfl
@[simp] theorem exec_eddyStrmWrite (value : W32) (s : State) : exec (.eddyStrmWrite value) s = execEddyStrmWrite value s := rfl
@[simp] theorem exec_packCheck (taps : PackTaps) (s : State) : exec (.packCheck taps) s = execPackCheck taps s := rfl
@[simp] theorem exec_buskeepPackCheckTimer (taps : PackTaps) (s : State) : exec (.buskeepPackCheckTimer taps) s = execBuskeepPackCheckTimer taps s := rfl
@[simp] theorem exec_chargeProbe (dPackUa dChgUa : Nat) (s : State) : exec (.chargeProbe dPackUa dChgUa) s = execChargeProbe dPackUa dChgUa s := rfl
@[simp] theorem exec_packSwitchClose (vbusMv : Nat) (s : State) : exec (.packSwitchClose vbusMv) s = execPackSwitchClose vbusMv s := rfl
@[simp] theorem exec_packCloseTimeout (s : State) : exec (.packCloseTimeout) s = execPackCloseTimeout s := rfl
@[simp] theorem exec_shortCircuitTrip (s : State) : exec (.shortCircuitTrip) s = execShortCircuitTrip s := rfl
@[simp] theorem exec_cellOvTrip (cell : Fin 16) (s : State) : exec (.cellOvTrip cell) s = execCellOvTrip cell s := rfl
@[simp] theorem exec_ovLatchClear (s : State) : exec (.ovLatchClear) s = execOvLatchClear s := rfl
@[simp] theorem exec_cellDataStale (s : State) : exec (.cellDataStale) s = execCellDataStale s := rfl
@[simp] theorem exec_uvCutoff (s : State) : exec (.uvCutoff) s = execUvCutoff s := rfl
@[simp] theorem exec_chargerStart (tfMv : Nat) (s : State) : exec (.chargerStart tfMv) s = execChargerStart tfMv s := rfl
@[simp] theorem exec_tfLoss (s : State) : exec (.tfLoss) s = execTfLoss s := rfl
@[simp] theorem exec_prechargeDone (s : State) : exec (.prechargeDone) s = execPrechargeDone s := rfl
@[simp] theorem exec_chargeTimeout (s : State) : exec (.chargeTimeout) s = execChargeTimeout s := rfl
@[simp] theorem exec_chargeTermination (s : State) : exec (.chargeTermination) s = execChargeTermination s := rfl
@[simp] theorem exec_recharge (s : State) : exec (.recharge) s = execRecharge s := rfl
@[simp] theorem exec_chgRestart (s : State) : exec (.chgRestart) s = execChgRestart s := rfl
@[simp] theorem exec_inputLimitTimeout (volt : Bool) (s : State) : exec (.inputLimitTimeout volt) s = execInputLimitTimeout volt s := rfl
@[simp] theorem exec_buskeepEntry (s : State) : exec (.buskeepEntry) s = execBuskeepEntry s := rfl
@[simp] theorem exec_buskeepExit (s : State) : exec (.buskeepExit) s = execBuskeepExit s := rfl
@[simp] theorem exec_buskeepLowVbus (s : State) : exec (.buskeepLowVbus) s = execBuskeepLowVbus s := rfl
@[simp] theorem exec_pullInGuardEnd (ch : Ch) (s : State) : exec (.pullInGuardEnd ch) s = execPullInGuardEnd ch s := rfl
@[simp] theorem exec_packSample (iCode : BitVec 16) (vCode : BitVec 16) (tfUa : Nat) (s : State) : exec (.packSample iCode vCode tfUa) s = execPackSample iCode vCode tfUa s := rfl
@[simp] theorem exec_socUpdate (s : State) : exec (.socUpdate) s = execSocUpdate s := rfl
@[simp] theorem exec_impedanceStep (s : State) : exec (.impedanceStep) s = execImpedanceStep s := rfl
@[simp] theorem exec_probeStart (s : State) : exec (.probeStart) s = execProbeStart s := rfl
@[simp] theorem exec_probeEnd (s : State) : exec (.probeEnd) s = execProbeEnd s := rfl
@[simp] theorem exec_restPoint (s : State) : exec (.restPoint) s = execRestPoint s := rfl
@[simp] theorem exec_estimatorRecord (s : State) : exec (.estimatorRecord) s = execEstimatorRecord s := rfl
@[simp] theorem exec_railStart (r : Rail) (voutMv : Nat) (s : State) : exec (.railStart r voutMv) s = execRailStart r voutMv s := rfl
@[simp] theorem exec_railSupervisionSample (vout : List Nat) (iout : List Int) (s : State) : exec (.railSupervisionSample vout iout) s = execRailSupervisionSample vout iout s := rfl
@[simp] theorem exec_railGood (r : Rail) (s : State) : exec (.railGood r) s = execRailGood r s := rfl
@[simp] theorem exec_railUvWarn (r : Rail) (s : State) : exec (.railUvWarn r) s = execRailUvWarn r s := rfl
@[simp] theorem exec_railOvWarn (r : Rail) (s : State) : exec (.railOvWarn r) s = execRailOvWarn r s := rfl
@[simp] theorem exec_railUvFault (r : Rail) (s : State) : exec (.railUvFault r) s = execRailUvFault r s := rfl
@[simp] theorem exec_railOvFault (r : Rail) (s : State) : exec (.railOvFault r) s = execRailOvFault r s := rfl
@[simp] theorem exec_railWindowExpiry (r : Rail) (s : State) : exec (.railWindowExpiry r) s = execRailWindowExpiry r s := rfl
@[simp] theorem exec_railHiccup (r : Rail) (s : State) : exec (.railHiccup r) s = execRailHiccup r s := rfl
@[simp] theorem exec_railHiccupEnd (r : Rail) (voutMv : Nat) (s : State) : exec (.railHiccupEnd r voutMv) s = execRailHiccupEnd r voutMv s := rfl
@[simp] theorem exec_lightLoadChange (r : Rail) (enter : Bool) (s : State) : exec (.lightLoadChange r enter) s = execLightLoadChange r enter s := rfl
@[simp] theorem exec_seqInChange (level : Bool) (s : State) : exec (.seqInChange level) s = execSeqInChange level s := rfl
@[simp] theorem exec_seqinWaitExpiry (s : State) : exec (.seqinWaitExpiry) s = execSeqinWaitExpiry s := rfl
@[simp] theorem exec_railOnWrite (r : Rail) (on : Bool) (s : State) : exec (.railOnWrite r on) s = execRailOnWrite r on s := rfl
@[simp] theorem exec_railStopOrder (s : State) : exec (.railStopOrder) s = execRailStopOrder s := rfl
@[simp] theorem exec_railStopped (r : Rail) (s : State) : exec (.railStopped r) s = execRailStopped r s := rfl
@[simp] theorem exec_hostHoldExpiry (s : State) : exec (.hostHoldExpiry) s = execHostHoldExpiry s := rfl
@[simp] theorem exec_hkEntryDone (raws : List (BitVec 16)) (s : State) : exec (.hkEntryDone raws) s = execHkEntryDone raws s := rfl
@[simp] theorem exec_hkStartWrite (start : Bool) (s : State) : exec (.hkStartWrite start) s = execHkStartWrite start s := rfl
@[simp] theorem exec_hkCal (s : State) : exec (.hkCal) s = execHkCal s := rfl
@[simp] theorem exec_hkCalDone (means : List (Int × Int)) (s : State) : exec (.hkCalDone means) s = execHkCalDone means s := rfl
@[simp] theorem exec_hkCfgWrite (n : Fin 64) (value : W32) (s : State) : exec (.hkCfgWrite n value) s = execHkCfgWrite n value s := rfl
@[simp] theorem exec_hkDiagGo (value : W32) (s : State) : exec (.hkDiagGo value) s = execHkDiagGo value s := rfl
@[simp] theorem exec_hkDiagDone (raws : List (BitVec 16)) (s : State) : exec (.hkDiagDone raws) s = execHkDiagDone raws s := rfl
@[simp] theorem exec_thermalRateSample (s : State) : exec (.thermalRateSample) s = execThermalRateSample s := rfl
@[simp] theorem exec_thermalLevelFall (d : DieIx) (s : State) : exec (.thermalLevelFall d) s = execThermalLevelFall d s := rfl
@[simp] theorem exec_stageThermalShutdown (die : StageDie) (s : State) : exec (.stageThermalShutdown die) s = execStageThermalShutdown die s := rfl
@[simp] theorem exec_stageThermalRelease (die : StageDie) (s : State) : exec (.stageThermalRelease die) s = execStageThermalRelease die s := rfl
@[simp] theorem exec_coreThermalShutdown (turret : Bool) (s : State) : exec (.coreThermalShutdown turret) s = execCoreThermalShutdown turret s := rfl
@[simp] theorem exec_faultPairQualify (src : Fin 128) (s : State) : exec (.faultPairQualify src) s = execFaultPairQualify src s := rfl
@[simp] theorem exec_faultPairBroken (src : Fin 128) (s : State) : exec (.faultPairBroken src) s = execFaultPairBroken src s := rfl
@[simp] theorem exec_faultStateEntry (s : State) : exec (.faultStateEntry) s = execFaultStateEntry s := rfl
@[simp] theorem exec_errNPulseEnd (s : State) : exec (.errNPulseEnd) s = execErrNPulseEnd s := rfl
@[simp] theorem exec_siltRecordWriteDone (readBackOk : Bool) (s : State) : exec (.siltRecordWriteDone readBackOk) s = execSiltRecordWriteDone readBackOk s := rfl
@[simp] theorem exec_turretSupplyLow (s : State) : exec (.turretSupplyLow) s = execTurretSupplyLow s := rfl
@[simp] theorem exec_siltCopyGo (s : State) : exec (.siltCopyGo) s = execSiltCopyGo s := rfl
@[simp] theorem exec_siltCopyDone (s : State) : exec (.siltCopyDone) s = execSiltCopyDone s := rfl
@[simp] theorem exec_siltErase (s : State) : exec (.siltErase) s = execSiltErase s := rfl
@[simp] theorem exec_freezeNFall (s : State) : exec (.freezeNFall) s = execFreezeNFall s := rfl
@[simp] theorem exec_freezeEntry (q : W32) (s : State) : exec (.freezeEntry q) s = execFreezeEntry q s := rfl
@[simp] theorem exec_freezeLimitExpiry (s : State) : exec (.freezeLimitExpiry) s = execFreezeLimitExpiry s := rfl
@[simp] theorem exec_thawWrite (s : State) : exec (.thawWrite) s = execThawWrite s := rfl
@[simp] theorem exec_freezeNRise (s : State) : exec (.freezeNRise) s = execFreezeNRise s := rfl
@[simp] theorem exec_thaw (nT : Nat) (s : State) : exec (.thaw nT) s = execThaw nT s := rfl
@[simp] theorem exec_f3ForcedThaw (nT : Nat) (s : State) : exec (.f3ForcedThaw nT) s = execF3ForcedThaw nT s := rfl
@[simp] theorem exec_extest (s : State) : exec (.extest) s = execExtest s := rfl
@[simp] theorem exec_samplePreload (s : State) : exec (.samplePreload) s = execSamplePreload s := rfl
@[simp] theorem exec_idcode (s : State) : exec (.idcode) s = execIdcode s := rfl
@[simp] theorem exec_bypass (code : Byte) (s : State) : exec (.bypass code) s = execBypass code s := rfl
@[simp] theorem exec_dbgAddr (addr : W32) (s : State) : exec (.dbgAddr addr) s = execDbgAddr addr s := rfl
@[simp] theorem exec_dbgRead (s : State) : exec (.dbgRead) s = execDbgRead s := rfl
@[simp] theorem exec_dbgHalt (e : BitVec 9) (s : State) : exec (.dbgHalt e) s = execDbgHalt e s := rfl
@[simp] theorem exec_dbgHaltDeferralEnd (e : Eng) (s : State) : exec (.dbgHaltDeferralEnd e) s = execDbgHaltDeferralEnd e s := rfl
@[simp] theorem exec_dbgResume (e : BitVec 9) (s : State) : exec (.dbgResume e) s = execDbgResume e s := rfl
@[simp] theorem exec_dbgStep (e : BitVec 9) (s : State) : exec (.dbgStep e) s = execDbgStep e s := rfl
@[simp] theorem exec_dbgThaw (s : State) : exec (.dbgThaw) s = execDbgThaw s := rfl
@[simp] theorem exec_dbgStat (s : State) : exec (.dbgStat) s = execDbgStat s := rfl
@[simp] theorem exec_ringFrameSend (s : State) : exec (.ringFrameSend) s = execRingFrameSend s := rfl
@[simp] theorem exec_ringFrameAccept (port : RvRing) (f : RvFrame) (intact : Bool) (arrivePs : Nat) (s : State) : exec (.ringFrameAccept port f intact arrivePs) s = execRingFrameAccept port f intact arrivePs s := rfl
@[simp] theorem exec_ringJoin (s : State) : exec (.ringJoin) s = execRingJoin s := rfl
@[simp] theorem exec_ringPortDown (port : RvRing) (s : State) : exec (.ringPortDown port) s = execRingPortDown port s := rfl
@[simp] theorem exec_ringPortUp (port : RvRing) (s : State) : exec (.ringPortUp port) s = execRingPortUp port s := rfl
@[simp] theorem exec_notOnRing (s : State) : exec (.notOnRing) s = execNotOnRing s := rfl
@[simp] theorem exec_slavingLost (s : State) : exec (.slavingLost) s = execSlavingLost s := rfl
@[simp] theorem exec_standbyTakeover (s : State) : exec (.standbyTakeover) s = execStandbyTakeover s := rfl
@[simp] theorem exec_headwaterLost (s : State) : exec (.headwaterLost) s = execHeadwaterLost s := rfl
@[simp] theorem exec_otpRead (value : W32) (s : State) : exec (.otpRead value) s = execOtpRead value s := rfl
@[simp] theorem exec_burnBlock (value : W32) (s : State) : exec (.burnBlock value) s = execBurnBlock value s := rfl
@[simp] theorem exec_marginScan (value : W32) (s : State) : exec (.marginScan value) s = execMarginScan value s := rfl
@[simp] theorem exec_reburnWeak (value : W32) (s : State) : exec (.reburnWeak value) s = execReburnWeak value s := rfl
@[simp] theorem exec_otpCommandDone (cells : List (Nat × W32 × W32)) (s : State) : exec (.otpCommandDone cells) s = execOtpCommandDone cells s := rfl
@[simp] theorem exec_keyLoad (s : State) : exec (.keyLoad) s = execKeyLoad s := rfl
@[simp] theorem exec_imageCheckAnswer (s : State) : exec (.imageCheckAnswer) s = execImageCheckAnswer s := rfl
@[simp] theorem exec_unlockExpiry (s : State) : exec (.unlockExpiry) s = execUnlockExpiry s := rfl
@[simp] theorem exec_twStatus (pec : Pec) (s : State) : exec (.twStatus pec) s = execTwStatus pec s := rfl
@[simp] theorem exec_twLastResult (pec : Pec) (s : State) : exec (.twLastResult pec) s = execTwLastResult pec s := rfl
@[simp] theorem exec_twRegRead (off : BitVec 16) (pec : Pec) (s : State) : exec (.twRegRead off pec) s = execTwRegRead off pec s := rfl
@[simp] theorem exec_twSiltRead (seq : W32) (pec : Pec) (s : State) : exec (.twSiltRead seq pec) s = execTwSiltRead seq pec s := rfl
@[simp] theorem exec_twRequestStandby (pec : Pec) (s : State) : exec (.twRequestStandby pec) s = execTwRequestStandby pec s := rfl
@[simp] theorem exec_twRequestShip (pec : Pec) (s : State) : exec (.twRequestShip pec) s = execTwRequestShip pec s := rfl
@[simp] theorem exec_twRequestStandbyExit (pec : Pec) (s : State) : exec (.twRequestStandbyExit pec) s = execTwRequestStandbyExit pec s := rfl
@[simp] theorem exec_twReset (confirm : Byte) (pec : Pec) (s : State) : exec (.twReset confirm pec) s = execTwReset confirm pec s := rfl
@[simp] theorem exec_twStretchTimeout (s : State) : exec (.twStretchTimeout) s = execTwStretchTimeout s := rfl
@[simp] theorem exec_twBusTimeout (s : State) : exec (.twBusTimeout) s = execTwBusTimeout s := rfl
@[simp] theorem exec_gnssSearchReopen (port : Fin 2) (s : State) : exec (.gnssSearchReopen port) s = execGnssSearchReopen port s := rfl
@[simp] theorem exec_portOut (e : Eng) (a : GReg) (port : BitVec 16) (s : State) : exec (.portOut e a port) s = execPortOut e a port s := rfl
@[simp] theorem exec_coreThermalRelease (turret : Bool) (s : State) : exec (.coreThermalRelease turret) s = execCoreThermalRelease turret s := rfl
@[simp] theorem exec_faultPairCleared (src : Fin 128) (s : State) : exec (.faultPairCleared src) s = execFaultPairCleared src s := rfl
@[simp] theorem exec_siltEraseDone (s : State) : exec (.siltEraseDone) s = execSiltEraseDone s := rfl
@[simp] theorem exec_turretSupplyReturn (s : State) : exec (.turretSupplyReturn) s = execTurretSupplyReturn s := rfl
@[simp] theorem exec_configSpaceWrite (ctl : PciCtl) (conf : PciSet) (s : State) : exec (.configSpaceWrite ctl conf) s = execConfigSpaceWrite ctl conf s := rfl

end Sys2Proof.Machine
end

