-- ==== Sys2Proof/Laws/State.lean ====
section
/-! SUPPORT. What each update of the state does to each field: one lemma per field and update. -/

namespace Sys2Proof.Machine

variable (s : State)

/-! ### `State.setReg` -/

@[simp] theorem State.setReg_pending (a : Nat) (v : W32) : (s.setReg a v).pending = s.pending := rfl
@[simp] theorem State.setReg_regs (a : Nat) (v : W32) : (s.setReg a v).regs = wordPut s.regs a v (regReset a) := rfl
@[simp] theorem State.setReg_mode (a : Nat) (v : W32) : (s.setReg a v).mode = s.mode := rfl
@[simp] theorem State.setReg_tick (a : Nat) (v : W32) : (s.setReg a v).tick = s.tick := rfl
@[simp] theorem State.setReg_units (a : Nat) (v : W32) : (s.setReg a v).units = s.units := rfl
@[simp] theorem State.setReg_course (a : Nat) (v : W32) : (s.setReg a v).course = s.course := rfl
@[simp] theorem State.setReg_uart (a : Nat) (v : W32) : (s.setReg a v).uart = s.uart := rfl
@[simp] theorem State.setReg_chan (a : Nat) (v : W32) : (s.setReg a v).chan = s.chan := rfl
@[simp] theorem State.setReg_eng (a : Nat) (v : W32) : (s.setReg a v).eng = s.eng := rfl
@[simp] theorem State.setReg_spire (a : Nat) (v : W32) : (s.setReg a v).spire = s.spire := rfl
@[simp] theorem State.setReg_hp (a : Nat) (v : W32) : (s.setReg a v).hp = s.hp := rfl
@[simp] theorem State.setReg_arb (a : Nat) (v : W32) : (s.setReg a v).arb = s.arb := rfl
@[simp] theorem State.setReg_power (a : Nat) (v : W32) : (s.setReg a v).power = s.power := rfl
@[simp] theorem State.setReg_est (a : Nat) (v : W32) : (s.setReg a v).est = s.est := rfl
@[simp] theorem State.setReg_rail (a : Nat) (v : W32) : (s.setReg a v).rail = s.rail := rfl
@[simp] theorem State.setReg_seqr (a : Nat) (v : W32) : (s.setReg a v).seqr = s.seqr := rfl
@[simp] theorem State.setReg_hk (a : Nat) (v : W32) : (s.setReg a v).hk = s.hk := rfl
@[simp] theorem State.setReg_die (a : Nat) (v : W32) : (s.setReg a v).die = s.die := rfl
@[simp] theorem State.setReg_silt (a : Nat) (v : W32) : (s.setReg a v).silt = s.silt := rfl
@[simp] theorem State.setReg_flt (a : Nat) (v : W32) : (s.setReg a v).flt = s.flt := rfl
@[simp] theorem State.setReg_frz (a : Nat) (v : W32) : (s.setReg a v).frz = s.frz := rfl
@[simp] theorem State.setReg_dbg (a : Nat) (v : W32) : (s.setReg a v).dbg = s.dbg := rfl
@[simp] theorem State.setReg_rv (a : Nat) (v : W32) : (s.setReg a v).rv = s.rv := rfl
@[simp] theorem State.setReg_otp (a : Nat) (v : W32) : (s.setReg a v).otp = s.otp := rfl
@[simp] theorem State.setReg_tw (a : Nat) (v : W32) : (s.setReg a v).tw = s.tw := rfl
@[simp] theorem State.setReg_keepWrites (a : Nat) (v : W32) : (s.setReg a v).keepWrites = s.keepWrites := rfl
@[simp] theorem State.setReg_pace (a : Nat) (v : W32) : (s.setReg a v).pace = s.pace := rfl
@[simp] theorem State.setReg_free (a : Nat) (v : W32) : (s.setReg a v).free = s.free := rfl

/-! ### `State.put` -/

@[simp] theorem State.put_pending (f : Fld) (v : Nat) : (s.put f v).pending = s.pending := rfl
@[simp] theorem State.put_mode (f : Fld) (v : Nat) : (s.put f v).mode = s.mode := rfl
@[simp] theorem State.put_tick (f : Fld) (v : Nat) : (s.put f v).tick = s.tick := rfl
@[simp] theorem State.put_units (f : Fld) (v : Nat) : (s.put f v).units = s.units := rfl
@[simp] theorem State.put_course (f : Fld) (v : Nat) : (s.put f v).course = s.course := rfl
@[simp] theorem State.put_uart (f : Fld) (v : Nat) : (s.put f v).uart = s.uart := rfl
@[simp] theorem State.put_chan (f : Fld) (v : Nat) : (s.put f v).chan = s.chan := rfl
@[simp] theorem State.put_eng (f : Fld) (v : Nat) : (s.put f v).eng = s.eng := rfl
@[simp] theorem State.put_spire (f : Fld) (v : Nat) : (s.put f v).spire = s.spire := rfl
@[simp] theorem State.put_hp (f : Fld) (v : Nat) : (s.put f v).hp = s.hp := rfl
@[simp] theorem State.put_arb (f : Fld) (v : Nat) : (s.put f v).arb = s.arb := rfl
@[simp] theorem State.put_power (f : Fld) (v : Nat) : (s.put f v).power = s.power := rfl
@[simp] theorem State.put_est (f : Fld) (v : Nat) : (s.put f v).est = s.est := rfl
@[simp] theorem State.put_rail (f : Fld) (v : Nat) : (s.put f v).rail = s.rail := rfl
@[simp] theorem State.put_seqr (f : Fld) (v : Nat) : (s.put f v).seqr = s.seqr := rfl
@[simp] theorem State.put_hk (f : Fld) (v : Nat) : (s.put f v).hk = s.hk := rfl
@[simp] theorem State.put_die (f : Fld) (v : Nat) : (s.put f v).die = s.die := rfl
@[simp] theorem State.put_silt (f : Fld) (v : Nat) : (s.put f v).silt = s.silt := rfl
@[simp] theorem State.put_flt (f : Fld) (v : Nat) : (s.put f v).flt = s.flt := rfl
@[simp] theorem State.put_frz (f : Fld) (v : Nat) : (s.put f v).frz = s.frz := rfl
@[simp] theorem State.put_dbg (f : Fld) (v : Nat) : (s.put f v).dbg = s.dbg := rfl
@[simp] theorem State.put_rv (f : Fld) (v : Nat) : (s.put f v).rv = s.rv := rfl
@[simp] theorem State.put_otp (f : Fld) (v : Nat) : (s.put f v).otp = s.otp := rfl
@[simp] theorem State.put_tw (f : Fld) (v : Nat) : (s.put f v).tw = s.tw := rfl
@[simp] theorem State.put_keepWrites (f : Fld) (v : Nat) : (s.put f v).keepWrites = s.keepWrites := rfl
@[simp] theorem State.put_pace (f : Fld) (v : Nat) : (s.put f v).pace = s.pace := rfl
@[simp] theorem State.put_free (f : Fld) (v : Nat) : (s.put f v).free = s.free := rfl

/-! ### `State.putFlag` -/

@[simp] theorem State.putFlag_pending (f : Fld) (b : Bool) : (s.putFlag f b).pending = s.pending := rfl
@[simp] theorem State.putFlag_mode (f : Fld) (b : Bool) : (s.putFlag f b).mode = s.mode := rfl
@[simp] theorem State.putFlag_tick (f : Fld) (b : Bool) : (s.putFlag f b).tick = s.tick := rfl
@[simp] theorem State.putFlag_units (f : Fld) (b : Bool) : (s.putFlag f b).units = s.units := rfl
@[simp] theorem State.putFlag_course (f : Fld) (b : Bool) : (s.putFlag f b).course = s.course := rfl
@[simp] theorem State.putFlag_uart (f : Fld) (b : Bool) : (s.putFlag f b).uart = s.uart := rfl
@[simp] theorem State.putFlag_chan (f : Fld) (b : Bool) : (s.putFlag f b).chan = s.chan := rfl
@[simp] theorem State.putFlag_eng (f : Fld) (b : Bool) : (s.putFlag f b).eng = s.eng := rfl
@[simp] theorem State.putFlag_spire (f : Fld) (b : Bool) : (s.putFlag f b).spire = s.spire := rfl
@[simp] theorem State.putFlag_hp (f : Fld) (b : Bool) : (s.putFlag f b).hp = s.hp := rfl
@[simp] theorem State.putFlag_arb (f : Fld) (b : Bool) : (s.putFlag f b).arb = s.arb := rfl
@[simp] theorem State.putFlag_power (f : Fld) (b : Bool) : (s.putFlag f b).power = s.power := rfl
@[simp] theorem State.putFlag_est (f : Fld) (b : Bool) : (s.putFlag f b).est = s.est := rfl
@[simp] theorem State.putFlag_rail (f : Fld) (b : Bool) : (s.putFlag f b).rail = s.rail := rfl
@[simp] theorem State.putFlag_seqr (f : Fld) (b : Bool) : (s.putFlag f b).seqr = s.seqr := rfl
@[simp] theorem State.putFlag_hk (f : Fld) (b : Bool) : (s.putFlag f b).hk = s.hk := rfl
@[simp] theorem State.putFlag_die (f : Fld) (b : Bool) : (s.putFlag f b).die = s.die := rfl
@[simp] theorem State.putFlag_silt (f : Fld) (b : Bool) : (s.putFlag f b).silt = s.silt := rfl
@[simp] theorem State.putFlag_flt (f : Fld) (b : Bool) : (s.putFlag f b).flt = s.flt := rfl
@[simp] theorem State.putFlag_frz (f : Fld) (b : Bool) : (s.putFlag f b).frz = s.frz := rfl
@[simp] theorem State.putFlag_dbg (f : Fld) (b : Bool) : (s.putFlag f b).dbg = s.dbg := rfl
@[simp] theorem State.putFlag_rv (f : Fld) (b : Bool) : (s.putFlag f b).rv = s.rv := rfl
@[simp] theorem State.putFlag_otp (f : Fld) (b : Bool) : (s.putFlag f b).otp = s.otp := rfl
@[simp] theorem State.putFlag_tw (f : Fld) (b : Bool) : (s.putFlag f b).tw = s.tw := rfl
@[simp] theorem State.putFlag_keepWrites (f : Fld) (b : Bool) : (s.putFlag f b).keepWrites = s.keepWrites := rfl
@[simp] theorem State.putFlag_pace (f : Fld) (b : Bool) : (s.putFlag f b).pace = s.pace := rfl
@[simp] theorem State.putFlag_free (f : Fld) (b : Bool) : (s.putFlag f b).free = s.free := rfl

/-! ### `State.count` -/

@[simp] theorem State.count_pending (f : Fld) (n : Nat) : (s.count f n).pending = s.pending := rfl
@[simp] theorem State.count_mode (f : Fld) (n : Nat) : (s.count f n).mode = s.mode := rfl
@[simp] theorem State.count_tick (f : Fld) (n : Nat) : (s.count f n).tick = s.tick := rfl
@[simp] theorem State.count_units (f : Fld) (n : Nat) : (s.count f n).units = s.units := rfl
@[simp] theorem State.count_course (f : Fld) (n : Nat) : (s.count f n).course = s.course := rfl
@[simp] theorem State.count_uart (f : Fld) (n : Nat) : (s.count f n).uart = s.uart := rfl
@[simp] theorem State.count_chan (f : Fld) (n : Nat) : (s.count f n).chan = s.chan := rfl
@[simp] theorem State.count_eng (f : Fld) (n : Nat) : (s.count f n).eng = s.eng := rfl
@[simp] theorem State.count_spire (f : Fld) (n : Nat) : (s.count f n).spire = s.spire := rfl
@[simp] theorem State.count_hp (f : Fld) (n : Nat) : (s.count f n).hp = s.hp := rfl
@[simp] theorem State.count_arb (f : Fld) (n : Nat) : (s.count f n).arb = s.arb := rfl
@[simp] theorem State.count_power (f : Fld) (n : Nat) : (s.count f n).power = s.power := rfl
@[simp] theorem State.count_est (f : Fld) (n : Nat) : (s.count f n).est = s.est := rfl
@[simp] theorem State.count_rail (f : Fld) (n : Nat) : (s.count f n).rail = s.rail := rfl
@[simp] theorem State.count_seqr (f : Fld) (n : Nat) : (s.count f n).seqr = s.seqr := rfl
@[simp] theorem State.count_hk (f : Fld) (n : Nat) : (s.count f n).hk = s.hk := rfl
@[simp] theorem State.count_die (f : Fld) (n : Nat) : (s.count f n).die = s.die := rfl
@[simp] theorem State.count_silt (f : Fld) (n : Nat) : (s.count f n).silt = s.silt := rfl
@[simp] theorem State.count_flt (f : Fld) (n : Nat) : (s.count f n).flt = s.flt := rfl
@[simp] theorem State.count_frz (f : Fld) (n : Nat) : (s.count f n).frz = s.frz := rfl
@[simp] theorem State.count_dbg (f : Fld) (n : Nat) : (s.count f n).dbg = s.dbg := rfl
@[simp] theorem State.count_rv (f : Fld) (n : Nat) : (s.count f n).rv = s.rv := rfl
@[simp] theorem State.count_otp (f : Fld) (n : Nat) : (s.count f n).otp = s.otp := rfl
@[simp] theorem State.count_tw (f : Fld) (n : Nat) : (s.count f n).tw = s.tw := rfl
@[simp] theorem State.count_keepWrites (f : Fld) (n : Nat) : (s.count f n).keepWrites = s.keepWrites := rfl
@[simp] theorem State.count_pace (f : Fld) (n : Nat) : (s.count f n).pace = s.pace := rfl
@[simp] theorem State.count_free (f : Fld) (n : Nat) : (s.count f n).free = s.free := rfl

/-! ### `State.countReg` -/

@[simp] theorem State.countReg_pending (a n : Nat) : (s.countReg a n).pending = s.pending := rfl
@[simp] theorem State.countReg_mode (a n : Nat) : (s.countReg a n).mode = s.mode := rfl
@[simp] theorem State.countReg_tick (a n : Nat) : (s.countReg a n).tick = s.tick := rfl
@[simp] theorem State.countReg_units (a n : Nat) : (s.countReg a n).units = s.units := rfl
@[simp] theorem State.countReg_course (a n : Nat) : (s.countReg a n).course = s.course := rfl
@[simp] theorem State.countReg_uart (a n : Nat) : (s.countReg a n).uart = s.uart := rfl
@[simp] theorem State.countReg_chan (a n : Nat) : (s.countReg a n).chan = s.chan := rfl
@[simp] theorem State.countReg_eng (a n : Nat) : (s.countReg a n).eng = s.eng := rfl
@[simp] theorem State.countReg_spire (a n : Nat) : (s.countReg a n).spire = s.spire := rfl
@[simp] theorem State.countReg_hp (a n : Nat) : (s.countReg a n).hp = s.hp := rfl
@[simp] theorem State.countReg_arb (a n : Nat) : (s.countReg a n).arb = s.arb := rfl
@[simp] theorem State.countReg_power (a n : Nat) : (s.countReg a n).power = s.power := rfl
@[simp] theorem State.countReg_est (a n : Nat) : (s.countReg a n).est = s.est := rfl
@[simp] theorem State.countReg_rail (a n : Nat) : (s.countReg a n).rail = s.rail := rfl
@[simp] theorem State.countReg_seqr (a n : Nat) : (s.countReg a n).seqr = s.seqr := rfl
@[simp] theorem State.countReg_hk (a n : Nat) : (s.countReg a n).hk = s.hk := rfl
@[simp] theorem State.countReg_die (a n : Nat) : (s.countReg a n).die = s.die := rfl
@[simp] theorem State.countReg_silt (a n : Nat) : (s.countReg a n).silt = s.silt := rfl
@[simp] theorem State.countReg_flt (a n : Nat) : (s.countReg a n).flt = s.flt := rfl
@[simp] theorem State.countReg_frz (a n : Nat) : (s.countReg a n).frz = s.frz := rfl
@[simp] theorem State.countReg_dbg (a n : Nat) : (s.countReg a n).dbg = s.dbg := rfl
@[simp] theorem State.countReg_rv (a n : Nat) : (s.countReg a n).rv = s.rv := rfl
@[simp] theorem State.countReg_otp (a n : Nat) : (s.countReg a n).otp = s.otp := rfl
@[simp] theorem State.countReg_tw (a n : Nat) : (s.countReg a n).tw = s.tw := rfl
@[simp] theorem State.countReg_keepWrites (a n : Nat) : (s.countReg a n).keepWrites = s.keepWrites := rfl
@[simp] theorem State.countReg_pace (a n : Nat) : (s.countReg a n).pace = s.pace := rfl
@[simp] theorem State.countReg_free (a n : Nat) : (s.countReg a n).free = s.free := rfl

/-! ### `State.setReg64` -/

@[simp] theorem State.setReg64_pending (a : Nat) (v : W64) : (s.setReg64 a v).pending = s.pending := rfl
@[simp] theorem State.setReg64_mode (a : Nat) (v : W64) : (s.setReg64 a v).mode = s.mode := rfl
@[simp] theorem State.setReg64_tick (a : Nat) (v : W64) : (s.setReg64 a v).tick = s.tick := rfl
@[simp] theorem State.setReg64_units (a : Nat) (v : W64) : (s.setReg64 a v).units = s.units := rfl
@[simp] theorem State.setReg64_course (a : Nat) (v : W64) : (s.setReg64 a v).course = s.course := rfl
@[simp] theorem State.setReg64_uart (a : Nat) (v : W64) : (s.setReg64 a v).uart = s.uart := rfl
@[simp] theorem State.setReg64_chan (a : Nat) (v : W64) : (s.setReg64 a v).chan = s.chan := rfl
@[simp] theorem State.setReg64_eng (a : Nat) (v : W64) : (s.setReg64 a v).eng = s.eng := rfl
@[simp] theorem State.setReg64_spire (a : Nat) (v : W64) : (s.setReg64 a v).spire = s.spire := rfl
@[simp] theorem State.setReg64_hp (a : Nat) (v : W64) : (s.setReg64 a v).hp = s.hp := rfl
@[simp] theorem State.setReg64_arb (a : Nat) (v : W64) : (s.setReg64 a v).arb = s.arb := rfl
@[simp] theorem State.setReg64_power (a : Nat) (v : W64) : (s.setReg64 a v).power = s.power := rfl
@[simp] theorem State.setReg64_est (a : Nat) (v : W64) : (s.setReg64 a v).est = s.est := rfl
@[simp] theorem State.setReg64_rail (a : Nat) (v : W64) : (s.setReg64 a v).rail = s.rail := rfl
@[simp] theorem State.setReg64_seqr (a : Nat) (v : W64) : (s.setReg64 a v).seqr = s.seqr := rfl
@[simp] theorem State.setReg64_hk (a : Nat) (v : W64) : (s.setReg64 a v).hk = s.hk := rfl
@[simp] theorem State.setReg64_die (a : Nat) (v : W64) : (s.setReg64 a v).die = s.die := rfl
@[simp] theorem State.setReg64_silt (a : Nat) (v : W64) : (s.setReg64 a v).silt = s.silt := rfl
@[simp] theorem State.setReg64_flt (a : Nat) (v : W64) : (s.setReg64 a v).flt = s.flt := rfl
@[simp] theorem State.setReg64_frz (a : Nat) (v : W64) : (s.setReg64 a v).frz = s.frz := rfl
@[simp] theorem State.setReg64_dbg (a : Nat) (v : W64) : (s.setReg64 a v).dbg = s.dbg := rfl
@[simp] theorem State.setReg64_rv (a : Nat) (v : W64) : (s.setReg64 a v).rv = s.rv := rfl
@[simp] theorem State.setReg64_otp (a : Nat) (v : W64) : (s.setReg64 a v).otp = s.otp := rfl
@[simp] theorem State.setReg64_tw (a : Nat) (v : W64) : (s.setReg64 a v).tw = s.tw := rfl
@[simp] theorem State.setReg64_keepWrites (a : Nat) (v : W64) : (s.setReg64 a v).keepWrites = s.keepWrites := rfl
@[simp] theorem State.setReg64_pace (a : Nat) (v : W64) : (s.setReg64 a v).pace = s.pace := rfl
@[simp] theorem State.setReg64_free (a : Nat) (v : W64) : (s.setReg64 a v).free = s.free := rfl

/-! ### `State.modCh` -/

@[simp] theorem State.modCh_pending (c : Ch) (f : Chan → Chan) : (s.modCh c f).pending = s.pending := rfl
@[simp] theorem State.modCh_regs (c : Ch) (f : Chan → Chan) : (s.modCh c f).regs = s.regs := rfl
@[simp] theorem State.modCh_mode (c : Ch) (f : Chan → Chan) : (s.modCh c f).mode = s.mode := rfl
@[simp] theorem State.modCh_tick (c : Ch) (f : Chan → Chan) : (s.modCh c f).tick = s.tick := rfl
@[simp] theorem State.modCh_units (c : Ch) (f : Chan → Chan) : (s.modCh c f).units = s.units := rfl
@[simp] theorem State.modCh_course (c : Ch) (f : Chan → Chan) : (s.modCh c f).course = s.course := rfl
@[simp] theorem State.modCh_uart (c : Ch) (f : Chan → Chan) : (s.modCh c f).uart = s.uart := rfl
@[simp] theorem State.modCh_chan (c : Ch) (f : Chan → Chan) : (s.modCh c f).chan = upd s.chan c f := rfl
@[simp] theorem State.modCh_eng (c : Ch) (f : Chan → Chan) : (s.modCh c f).eng = s.eng := rfl
@[simp] theorem State.modCh_spire (c : Ch) (f : Chan → Chan) : (s.modCh c f).spire = s.spire := rfl
@[simp] theorem State.modCh_hp (c : Ch) (f : Chan → Chan) : (s.modCh c f).hp = s.hp := rfl
@[simp] theorem State.modCh_arb (c : Ch) (f : Chan → Chan) : (s.modCh c f).arb = s.arb := rfl
@[simp] theorem State.modCh_power (c : Ch) (f : Chan → Chan) : (s.modCh c f).power = s.power := rfl
@[simp] theorem State.modCh_est (c : Ch) (f : Chan → Chan) : (s.modCh c f).est = s.est := rfl
@[simp] theorem State.modCh_rail (c : Ch) (f : Chan → Chan) : (s.modCh c f).rail = s.rail := rfl
@[simp] theorem State.modCh_seqr (c : Ch) (f : Chan → Chan) : (s.modCh c f).seqr = s.seqr := rfl
@[simp] theorem State.modCh_hk (c : Ch) (f : Chan → Chan) : (s.modCh c f).hk = s.hk := rfl
@[simp] theorem State.modCh_die (c : Ch) (f : Chan → Chan) : (s.modCh c f).die = s.die := rfl
@[simp] theorem State.modCh_silt (c : Ch) (f : Chan → Chan) : (s.modCh c f).silt = s.silt := rfl
@[simp] theorem State.modCh_flt (c : Ch) (f : Chan → Chan) : (s.modCh c f).flt = s.flt := rfl
@[simp] theorem State.modCh_frz (c : Ch) (f : Chan → Chan) : (s.modCh c f).frz = s.frz := rfl
@[simp] theorem State.modCh_dbg (c : Ch) (f : Chan → Chan) : (s.modCh c f).dbg = s.dbg := rfl
@[simp] theorem State.modCh_rv (c : Ch) (f : Chan → Chan) : (s.modCh c f).rv = s.rv := rfl
@[simp] theorem State.modCh_otp (c : Ch) (f : Chan → Chan) : (s.modCh c f).otp = s.otp := rfl
@[simp] theorem State.modCh_tw (c : Ch) (f : Chan → Chan) : (s.modCh c f).tw = s.tw := rfl
@[simp] theorem State.modCh_keepWrites (c : Ch) (f : Chan → Chan) : (s.modCh c f).keepWrites = s.keepWrites := rfl
@[simp] theorem State.modCh_pace (c : Ch) (f : Chan → Chan) : (s.modCh c f).pace = s.pace := rfl
@[simp] theorem State.modCh_free (c : Ch) (f : Chan → Chan) : (s.modCh c f).free = s.free := rfl

/-! ### `State.modStage` -/

@[simp] theorem State.modStage_pending (c : Ch) (f : Stage → Stage) : (s.modStage c f).pending = s.pending := rfl
@[simp] theorem State.modStage_regs (c : Ch) (f : Stage → Stage) : (s.modStage c f).regs = s.regs := rfl
@[simp] theorem State.modStage_mode (c : Ch) (f : Stage → Stage) : (s.modStage c f).mode = s.mode := rfl
@[simp] theorem State.modStage_tick (c : Ch) (f : Stage → Stage) : (s.modStage c f).tick = s.tick := rfl
@[simp] theorem State.modStage_units (c : Ch) (f : Stage → Stage) : (s.modStage c f).units = s.units := rfl
@[simp] theorem State.modStage_course (c : Ch) (f : Stage → Stage) : (s.modStage c f).course = s.course := rfl
@[simp] theorem State.modStage_uart (c : Ch) (f : Stage → Stage) : (s.modStage c f).uart = s.uart := rfl
@[simp] theorem State.modStage_chan (c : Ch) (f : Stage → Stage) : (s.modStage c f).chan = upd s.chan c fun h => { h with stage := f h.stage } := rfl
@[simp] theorem State.modStage_eng (c : Ch) (f : Stage → Stage) : (s.modStage c f).eng = s.eng := rfl
@[simp] theorem State.modStage_spire (c : Ch) (f : Stage → Stage) : (s.modStage c f).spire = s.spire := rfl
@[simp] theorem State.modStage_hp (c : Ch) (f : Stage → Stage) : (s.modStage c f).hp = s.hp := rfl
@[simp] theorem State.modStage_arb (c : Ch) (f : Stage → Stage) : (s.modStage c f).arb = s.arb := rfl
@[simp] theorem State.modStage_power (c : Ch) (f : Stage → Stage) : (s.modStage c f).power = s.power := rfl
@[simp] theorem State.modStage_est (c : Ch) (f : Stage → Stage) : (s.modStage c f).est = s.est := rfl
@[simp] theorem State.modStage_rail (c : Ch) (f : Stage → Stage) : (s.modStage c f).rail = s.rail := rfl
@[simp] theorem State.modStage_seqr (c : Ch) (f : Stage → Stage) : (s.modStage c f).seqr = s.seqr := rfl
@[simp] theorem State.modStage_hk (c : Ch) (f : Stage → Stage) : (s.modStage c f).hk = s.hk := rfl
@[simp] theorem State.modStage_die (c : Ch) (f : Stage → Stage) : (s.modStage c f).die = s.die := rfl
@[simp] theorem State.modStage_silt (c : Ch) (f : Stage → Stage) : (s.modStage c f).silt = s.silt := rfl
@[simp] theorem State.modStage_flt (c : Ch) (f : Stage → Stage) : (s.modStage c f).flt = s.flt := rfl
@[simp] theorem State.modStage_frz (c : Ch) (f : Stage → Stage) : (s.modStage c f).frz = s.frz := rfl
@[simp] theorem State.modStage_dbg (c : Ch) (f : Stage → Stage) : (s.modStage c f).dbg = s.dbg := rfl
@[simp] theorem State.modStage_rv (c : Ch) (f : Stage → Stage) : (s.modStage c f).rv = s.rv := rfl
@[simp] theorem State.modStage_otp (c : Ch) (f : Stage → Stage) : (s.modStage c f).otp = s.otp := rfl
@[simp] theorem State.modStage_tw (c : Ch) (f : Stage → Stage) : (s.modStage c f).tw = s.tw := rfl
@[simp] theorem State.modStage_keepWrites (c : Ch) (f : Stage → Stage) : (s.modStage c f).keepWrites = s.keepWrites := rfl
@[simp] theorem State.modStage_pace (c : Ch) (f : Stage → Stage) : (s.modStage c f).pace = s.pace := rfl
@[simp] theorem State.modStage_free (c : Ch) (f : Stage → Stage) : (s.modStage c f).free = s.free := rfl

/-! ### `State.modSeq` -/

@[simp] theorem State.modSeq_pending (c : Ch) (f : SeqSt → SeqSt) : (s.modSeq c f).pending = s.pending := rfl
@[simp] theorem State.modSeq_regs (c : Ch) (f : SeqSt → SeqSt) : (s.modSeq c f).regs = s.regs := rfl
@[simp] theorem State.modSeq_mode (c : Ch) (f : SeqSt → SeqSt) : (s.modSeq c f).mode = s.mode := rfl
@[simp] theorem State.modSeq_tick (c : Ch) (f : SeqSt → SeqSt) : (s.modSeq c f).tick = s.tick := rfl
@[simp] theorem State.modSeq_units (c : Ch) (f : SeqSt → SeqSt) : (s.modSeq c f).units = s.units := rfl
@[simp] theorem State.modSeq_course (c : Ch) (f : SeqSt → SeqSt) : (s.modSeq c f).course = s.course := rfl
@[simp] theorem State.modSeq_uart (c : Ch) (f : SeqSt → SeqSt) : (s.modSeq c f).uart = s.uart := rfl
@[simp] theorem State.modSeq_chan (c : Ch) (f : SeqSt → SeqSt) : (s.modSeq c f).chan = upd s.chan c fun h => { h with seqr := f h.seqr } := rfl
@[simp] theorem State.modSeq_eng (c : Ch) (f : SeqSt → SeqSt) : (s.modSeq c f).eng = s.eng := rfl
@[simp] theorem State.modSeq_spire (c : Ch) (f : SeqSt → SeqSt) : (s.modSeq c f).spire = s.spire := rfl
@[simp] theorem State.modSeq_hp (c : Ch) (f : SeqSt → SeqSt) : (s.modSeq c f).hp = s.hp := rfl
@[simp] theorem State.modSeq_arb (c : Ch) (f : SeqSt → SeqSt) : (s.modSeq c f).arb = s.arb := rfl
@[simp] theorem State.modSeq_power (c : Ch) (f : SeqSt → SeqSt) : (s.modSeq c f).power = s.power := rfl
@[simp] theorem State.modSeq_est (c : Ch) (f : SeqSt → SeqSt) : (s.modSeq c f).est = s.est := rfl
@[simp] theorem State.modSeq_rail (c : Ch) (f : SeqSt → SeqSt) : (s.modSeq c f).rail = s.rail := rfl
@[simp] theorem State.modSeq_seqr (c : Ch) (f : SeqSt → SeqSt) : (s.modSeq c f).seqr = s.seqr := rfl
@[simp] theorem State.modSeq_hk (c : Ch) (f : SeqSt → SeqSt) : (s.modSeq c f).hk = s.hk := rfl
@[simp] theorem State.modSeq_die (c : Ch) (f : SeqSt → SeqSt) : (s.modSeq c f).die = s.die := rfl
@[simp] theorem State.modSeq_silt (c : Ch) (f : SeqSt → SeqSt) : (s.modSeq c f).silt = s.silt := rfl
@[simp] theorem State.modSeq_flt (c : Ch) (f : SeqSt → SeqSt) : (s.modSeq c f).flt = s.flt := rfl
@[simp] theorem State.modSeq_frz (c : Ch) (f : SeqSt → SeqSt) : (s.modSeq c f).frz = s.frz := rfl
@[simp] theorem State.modSeq_dbg (c : Ch) (f : SeqSt → SeqSt) : (s.modSeq c f).dbg = s.dbg := rfl
@[simp] theorem State.modSeq_rv (c : Ch) (f : SeqSt → SeqSt) : (s.modSeq c f).rv = s.rv := rfl
@[simp] theorem State.modSeq_otp (c : Ch) (f : SeqSt → SeqSt) : (s.modSeq c f).otp = s.otp := rfl
@[simp] theorem State.modSeq_tw (c : Ch) (f : SeqSt → SeqSt) : (s.modSeq c f).tw = s.tw := rfl
@[simp] theorem State.modSeq_keepWrites (c : Ch) (f : SeqSt → SeqSt) : (s.modSeq c f).keepWrites = s.keepWrites := rfl
@[simp] theorem State.modSeq_pace (c : Ch) (f : SeqSt → SeqSt) : (s.modSeq c f).pace = s.pace := rfl
@[simp] theorem State.modSeq_free (c : Ch) (f : SeqSt → SeqSt) : (s.modSeq c f).free = s.free := rfl

/-! ### `State.modCnt` -/

@[simp] theorem State.modCnt_pending (c : Ch) (f : ChCnt → ChCnt) : (s.modCnt c f).pending = s.pending := rfl
@[simp] theorem State.modCnt_regs (c : Ch) (f : ChCnt → ChCnt) : (s.modCnt c f).regs = s.regs := rfl
@[simp] theorem State.modCnt_mode (c : Ch) (f : ChCnt → ChCnt) : (s.modCnt c f).mode = s.mode := rfl
@[simp] theorem State.modCnt_tick (c : Ch) (f : ChCnt → ChCnt) : (s.modCnt c f).tick = s.tick := rfl
@[simp] theorem State.modCnt_units (c : Ch) (f : ChCnt → ChCnt) : (s.modCnt c f).units = s.units := rfl
@[simp] theorem State.modCnt_course (c : Ch) (f : ChCnt → ChCnt) : (s.modCnt c f).course = s.course := rfl
@[simp] theorem State.modCnt_uart (c : Ch) (f : ChCnt → ChCnt) : (s.modCnt c f).uart = s.uart := rfl
@[simp] theorem State.modCnt_chan (c : Ch) (f : ChCnt → ChCnt) : (s.modCnt c f).chan = upd s.chan c fun h => { h with cnt := f h.cnt } := rfl
@[simp] theorem State.modCnt_eng (c : Ch) (f : ChCnt → ChCnt) : (s.modCnt c f).eng = s.eng := rfl
@[simp] theorem State.modCnt_spire (c : Ch) (f : ChCnt → ChCnt) : (s.modCnt c f).spire = s.spire := rfl
@[simp] theorem State.modCnt_hp (c : Ch) (f : ChCnt → ChCnt) : (s.modCnt c f).hp = s.hp := rfl
@[simp] theorem State.modCnt_arb (c : Ch) (f : ChCnt → ChCnt) : (s.modCnt c f).arb = s.arb := rfl
@[simp] theorem State.modCnt_power (c : Ch) (f : ChCnt → ChCnt) : (s.modCnt c f).power = s.power := rfl
@[simp] theorem State.modCnt_est (c : Ch) (f : ChCnt → ChCnt) : (s.modCnt c f).est = s.est := rfl
@[simp] theorem State.modCnt_rail (c : Ch) (f : ChCnt → ChCnt) : (s.modCnt c f).rail = s.rail := rfl
@[simp] theorem State.modCnt_seqr (c : Ch) (f : ChCnt → ChCnt) : (s.modCnt c f).seqr = s.seqr := rfl
@[simp] theorem State.modCnt_hk (c : Ch) (f : ChCnt → ChCnt) : (s.modCnt c f).hk = s.hk := rfl
@[simp] theorem State.modCnt_die (c : Ch) (f : ChCnt → ChCnt) : (s.modCnt c f).die = s.die := rfl
@[simp] theorem State.modCnt_silt (c : Ch) (f : ChCnt → ChCnt) : (s.modCnt c f).silt = s.silt := rfl
@[simp] theorem State.modCnt_flt (c : Ch) (f : ChCnt → ChCnt) : (s.modCnt c f).flt = s.flt := rfl
@[simp] theorem State.modCnt_frz (c : Ch) (f : ChCnt → ChCnt) : (s.modCnt c f).frz = s.frz := rfl
@[simp] theorem State.modCnt_dbg (c : Ch) (f : ChCnt → ChCnt) : (s.modCnt c f).dbg = s.dbg := rfl
@[simp] theorem State.modCnt_rv (c : Ch) (f : ChCnt → ChCnt) : (s.modCnt c f).rv = s.rv := rfl
@[simp] theorem State.modCnt_otp (c : Ch) (f : ChCnt → ChCnt) : (s.modCnt c f).otp = s.otp := rfl
@[simp] theorem State.modCnt_tw (c : Ch) (f : ChCnt → ChCnt) : (s.modCnt c f).tw = s.tw := rfl
@[simp] theorem State.modCnt_keepWrites (c : Ch) (f : ChCnt → ChCnt) : (s.modCnt c f).keepWrites = s.keepWrites := rfl
@[simp] theorem State.modCnt_pace (c : Ch) (f : ChCnt → ChCnt) : (s.modCnt c f).pace = s.pace := rfl
@[simp] theorem State.modCnt_free (c : Ch) (f : ChCnt → ChCnt) : (s.modCnt c f).free = s.free := rfl

/-! ### `State.modEng` -/

@[simp] theorem State.modEng_pending (e : Eng) (f : Engine → Engine) : (s.modEng e f).pending = s.pending := rfl
@[simp] theorem State.modEng_regs (e : Eng) (f : Engine → Engine) : (s.modEng e f).regs = s.regs := rfl
@[simp] theorem State.modEng_mode (e : Eng) (f : Engine → Engine) : (s.modEng e f).mode = s.mode := rfl
@[simp] theorem State.modEng_tick (e : Eng) (f : Engine → Engine) : (s.modEng e f).tick = s.tick := rfl
@[simp] theorem State.modEng_units (e : Eng) (f : Engine → Engine) : (s.modEng e f).units = s.units := rfl
@[simp] theorem State.modEng_course (e : Eng) (f : Engine → Engine) : (s.modEng e f).course = s.course := rfl
@[simp] theorem State.modEng_uart (e : Eng) (f : Engine → Engine) : (s.modEng e f).uart = s.uart := rfl
@[simp] theorem State.modEng_chan (e : Eng) (f : Engine → Engine) : (s.modEng e f).chan = s.chan := rfl
@[simp] theorem State.modEng_eng (e : Eng) (f : Engine → Engine) : (s.modEng e f).eng = upd s.eng e f := rfl
@[simp] theorem State.modEng_spire (e : Eng) (f : Engine → Engine) : (s.modEng e f).spire = s.spire := rfl
@[simp] theorem State.modEng_hp (e : Eng) (f : Engine → Engine) : (s.modEng e f).hp = s.hp := rfl
@[simp] theorem State.modEng_arb (e : Eng) (f : Engine → Engine) : (s.modEng e f).arb = s.arb := rfl
@[simp] theorem State.modEng_power (e : Eng) (f : Engine → Engine) : (s.modEng e f).power = s.power := rfl
@[simp] theorem State.modEng_est (e : Eng) (f : Engine → Engine) : (s.modEng e f).est = s.est := rfl
@[simp] theorem State.modEng_rail (e : Eng) (f : Engine → Engine) : (s.modEng e f).rail = s.rail := rfl
@[simp] theorem State.modEng_seqr (e : Eng) (f : Engine → Engine) : (s.modEng e f).seqr = s.seqr := rfl
@[simp] theorem State.modEng_hk (e : Eng) (f : Engine → Engine) : (s.modEng e f).hk = s.hk := rfl
@[simp] theorem State.modEng_die (e : Eng) (f : Engine → Engine) : (s.modEng e f).die = s.die := rfl
@[simp] theorem State.modEng_silt (e : Eng) (f : Engine → Engine) : (s.modEng e f).silt = s.silt := rfl
@[simp] theorem State.modEng_flt (e : Eng) (f : Engine → Engine) : (s.modEng e f).flt = s.flt := rfl
@[simp] theorem State.modEng_frz (e : Eng) (f : Engine → Engine) : (s.modEng e f).frz = s.frz := rfl
@[simp] theorem State.modEng_dbg (e : Eng) (f : Engine → Engine) : (s.modEng e f).dbg = s.dbg := rfl
@[simp] theorem State.modEng_rv (e : Eng) (f : Engine → Engine) : (s.modEng e f).rv = s.rv := rfl
@[simp] theorem State.modEng_otp (e : Eng) (f : Engine → Engine) : (s.modEng e f).otp = s.otp := rfl
@[simp] theorem State.modEng_tw (e : Eng) (f : Engine → Engine) : (s.modEng e f).tw = s.tw := rfl
@[simp] theorem State.modEng_keepWrites (e : Eng) (f : Engine → Engine) : (s.modEng e f).keepWrites = s.keepWrites := rfl
@[simp] theorem State.modEng_pace (e : Eng) (f : Engine → Engine) : (s.modEng e f).pace = s.pace := rfl
@[simp] theorem State.modEng_free (e : Eng) (f : Engine → Engine) : (s.modEng e f).free = s.free := rfl

/-! ### `State.modUnit` -/

@[simp] theorem State.modUnit_pending (u : CUnit) (f : CmpUnit → CmpUnit) : (s.modUnit u f).pending = s.pending := rfl
@[simp] theorem State.modUnit_regs (u : CUnit) (f : CmpUnit → CmpUnit) : (s.modUnit u f).regs = s.regs := rfl
@[simp] theorem State.modUnit_mode (u : CUnit) (f : CmpUnit → CmpUnit) : (s.modUnit u f).mode = s.mode := rfl
@[simp] theorem State.modUnit_tick (u : CUnit) (f : CmpUnit → CmpUnit) : (s.modUnit u f).tick = s.tick := rfl
@[simp] theorem State.modUnit_units (u : CUnit) (f : CmpUnit → CmpUnit) : (s.modUnit u f).units = upd s.units u f := rfl
@[simp] theorem State.modUnit_course (u : CUnit) (f : CmpUnit → CmpUnit) : (s.modUnit u f).course = s.course := rfl
@[simp] theorem State.modUnit_uart (u : CUnit) (f : CmpUnit → CmpUnit) : (s.modUnit u f).uart = s.uart := rfl
@[simp] theorem State.modUnit_chan (u : CUnit) (f : CmpUnit → CmpUnit) : (s.modUnit u f).chan = s.chan := rfl
@[simp] theorem State.modUnit_eng (u : CUnit) (f : CmpUnit → CmpUnit) : (s.modUnit u f).eng = s.eng := rfl
@[simp] theorem State.modUnit_spire (u : CUnit) (f : CmpUnit → CmpUnit) : (s.modUnit u f).spire = s.spire := rfl
@[simp] theorem State.modUnit_hp (u : CUnit) (f : CmpUnit → CmpUnit) : (s.modUnit u f).hp = s.hp := rfl
@[simp] theorem State.modUnit_arb (u : CUnit) (f : CmpUnit → CmpUnit) : (s.modUnit u f).arb = s.arb := rfl
@[simp] theorem State.modUnit_power (u : CUnit) (f : CmpUnit → CmpUnit) : (s.modUnit u f).power = s.power := rfl
@[simp] theorem State.modUnit_est (u : CUnit) (f : CmpUnit → CmpUnit) : (s.modUnit u f).est = s.est := rfl
@[simp] theorem State.modUnit_rail (u : CUnit) (f : CmpUnit → CmpUnit) : (s.modUnit u f).rail = s.rail := rfl
@[simp] theorem State.modUnit_seqr (u : CUnit) (f : CmpUnit → CmpUnit) : (s.modUnit u f).seqr = s.seqr := rfl
@[simp] theorem State.modUnit_hk (u : CUnit) (f : CmpUnit → CmpUnit) : (s.modUnit u f).hk = s.hk := rfl
@[simp] theorem State.modUnit_die (u : CUnit) (f : CmpUnit → CmpUnit) : (s.modUnit u f).die = s.die := rfl
@[simp] theorem State.modUnit_silt (u : CUnit) (f : CmpUnit → CmpUnit) : (s.modUnit u f).silt = s.silt := rfl
@[simp] theorem State.modUnit_flt (u : CUnit) (f : CmpUnit → CmpUnit) : (s.modUnit u f).flt = s.flt := rfl
@[simp] theorem State.modUnit_frz (u : CUnit) (f : CmpUnit → CmpUnit) : (s.modUnit u f).frz = s.frz := rfl
@[simp] theorem State.modUnit_dbg (u : CUnit) (f : CmpUnit → CmpUnit) : (s.modUnit u f).dbg = s.dbg := rfl
@[simp] theorem State.modUnit_rv (u : CUnit) (f : CmpUnit → CmpUnit) : (s.modUnit u f).rv = s.rv := rfl
@[simp] theorem State.modUnit_otp (u : CUnit) (f : CmpUnit → CmpUnit) : (s.modUnit u f).otp = s.otp := rfl
@[simp] theorem State.modUnit_tw (u : CUnit) (f : CmpUnit → CmpUnit) : (s.modUnit u f).tw = s.tw := rfl
@[simp] theorem State.modUnit_keepWrites (u : CUnit) (f : CmpUnit → CmpUnit) : (s.modUnit u f).keepWrites = s.keepWrites := rfl
@[simp] theorem State.modUnit_pace (u : CUnit) (f : CmpUnit → CmpUnit) : (s.modUnit u f).pace = s.pace := rfl
@[simp] theorem State.modUnit_free (u : CUnit) (f : CmpUnit → CmpUnit) : (s.modUnit u f).free = s.free := rfl

/-! ### `State.modRail` -/

@[simp] theorem State.modRail_pending (r : Rail) (f : RailSt → RailSt) : (s.modRail r f).pending = s.pending := rfl
@[simp] theorem State.modRail_regs (r : Rail) (f : RailSt → RailSt) : (s.modRail r f).regs = s.regs := rfl
@[simp] theorem State.modRail_mode (r : Rail) (f : RailSt → RailSt) : (s.modRail r f).mode = s.mode := rfl
@[simp] theorem State.modRail_tick (r : Rail) (f : RailSt → RailSt) : (s.modRail r f).tick = s.tick := rfl
@[simp] theorem State.modRail_units (r : Rail) (f : RailSt → RailSt) : (s.modRail r f).units = s.units := rfl
@[simp] theorem State.modRail_course (r : Rail) (f : RailSt → RailSt) : (s.modRail r f).course = s.course := rfl
@[simp] theorem State.modRail_uart (r : Rail) (f : RailSt → RailSt) : (s.modRail r f).uart = s.uart := rfl
@[simp] theorem State.modRail_chan (r : Rail) (f : RailSt → RailSt) : (s.modRail r f).chan = s.chan := rfl
@[simp] theorem State.modRail_eng (r : Rail) (f : RailSt → RailSt) : (s.modRail r f).eng = s.eng := rfl
@[simp] theorem State.modRail_spire (r : Rail) (f : RailSt → RailSt) : (s.modRail r f).spire = s.spire := rfl
@[simp] theorem State.modRail_hp (r : Rail) (f : RailSt → RailSt) : (s.modRail r f).hp = s.hp := rfl
@[simp] theorem State.modRail_arb (r : Rail) (f : RailSt → RailSt) : (s.modRail r f).arb = s.arb := rfl
@[simp] theorem State.modRail_power (r : Rail) (f : RailSt → RailSt) : (s.modRail r f).power = s.power := rfl
@[simp] theorem State.modRail_est (r : Rail) (f : RailSt → RailSt) : (s.modRail r f).est = s.est := rfl
@[simp] theorem State.modRail_rail (r : Rail) (f : RailSt → RailSt) : (s.modRail r f).rail = upd s.rail r f := rfl
@[simp] theorem State.modRail_seqr (r : Rail) (f : RailSt → RailSt) : (s.modRail r f).seqr = s.seqr := rfl
@[simp] theorem State.modRail_hk (r : Rail) (f : RailSt → RailSt) : (s.modRail r f).hk = s.hk := rfl
@[simp] theorem State.modRail_die (r : Rail) (f : RailSt → RailSt) : (s.modRail r f).die = s.die := rfl
@[simp] theorem State.modRail_silt (r : Rail) (f : RailSt → RailSt) : (s.modRail r f).silt = s.silt := rfl
@[simp] theorem State.modRail_flt (r : Rail) (f : RailSt → RailSt) : (s.modRail r f).flt = s.flt := rfl
@[simp] theorem State.modRail_frz (r : Rail) (f : RailSt → RailSt) : (s.modRail r f).frz = s.frz := rfl
@[simp] theorem State.modRail_dbg (r : Rail) (f : RailSt → RailSt) : (s.modRail r f).dbg = s.dbg := rfl
@[simp] theorem State.modRail_rv (r : Rail) (f : RailSt → RailSt) : (s.modRail r f).rv = s.rv := rfl
@[simp] theorem State.modRail_otp (r : Rail) (f : RailSt → RailSt) : (s.modRail r f).otp = s.otp := rfl
@[simp] theorem State.modRail_tw (r : Rail) (f : RailSt → RailSt) : (s.modRail r f).tw = s.tw := rfl
@[simp] theorem State.modRail_keepWrites (r : Rail) (f : RailSt → RailSt) : (s.modRail r f).keepWrites = s.keepWrites := rfl
@[simp] theorem State.modRail_pace (r : Rail) (f : RailSt → RailSt) : (s.modRail r f).pace = s.pace := rfl
@[simp] theorem State.modRail_free (r : Rail) (f : RailSt → RailSt) : (s.modRail r f).free = s.free := rfl

/-! ### `State.modDie` -/

@[simp] theorem State.modDie_pending (d : DieIx) (f : DieTh → DieTh) : (s.modDie d f).pending = s.pending := rfl
@[simp] theorem State.modDie_regs (d : DieIx) (f : DieTh → DieTh) : (s.modDie d f).regs = s.regs := rfl
@[simp] theorem State.modDie_mode (d : DieIx) (f : DieTh → DieTh) : (s.modDie d f).mode = s.mode := rfl
@[simp] theorem State.modDie_tick (d : DieIx) (f : DieTh → DieTh) : (s.modDie d f).tick = s.tick := rfl
@[simp] theorem State.modDie_units (d : DieIx) (f : DieTh → DieTh) : (s.modDie d f).units = s.units := rfl
@[simp] theorem State.modDie_course (d : DieIx) (f : DieTh → DieTh) : (s.modDie d f).course = s.course := rfl
@[simp] theorem State.modDie_uart (d : DieIx) (f : DieTh → DieTh) : (s.modDie d f).uart = s.uart := rfl
@[simp] theorem State.modDie_chan (d : DieIx) (f : DieTh → DieTh) : (s.modDie d f).chan = s.chan := rfl
@[simp] theorem State.modDie_eng (d : DieIx) (f : DieTh → DieTh) : (s.modDie d f).eng = s.eng := rfl
@[simp] theorem State.modDie_spire (d : DieIx) (f : DieTh → DieTh) : (s.modDie d f).spire = s.spire := rfl
@[simp] theorem State.modDie_hp (d : DieIx) (f : DieTh → DieTh) : (s.modDie d f).hp = s.hp := rfl
@[simp] theorem State.modDie_arb (d : DieIx) (f : DieTh → DieTh) : (s.modDie d f).arb = s.arb := rfl
@[simp] theorem State.modDie_power (d : DieIx) (f : DieTh → DieTh) : (s.modDie d f).power = s.power := rfl
@[simp] theorem State.modDie_est (d : DieIx) (f : DieTh → DieTh) : (s.modDie d f).est = s.est := rfl
@[simp] theorem State.modDie_rail (d : DieIx) (f : DieTh → DieTh) : (s.modDie d f).rail = s.rail := rfl
@[simp] theorem State.modDie_seqr (d : DieIx) (f : DieTh → DieTh) : (s.modDie d f).seqr = s.seqr := rfl
@[simp] theorem State.modDie_hk (d : DieIx) (f : DieTh → DieTh) : (s.modDie d f).hk = s.hk := rfl
@[simp] theorem State.modDie_die (d : DieIx) (f : DieTh → DieTh) : (s.modDie d f).die = upd s.die d f := rfl
@[simp] theorem State.modDie_silt (d : DieIx) (f : DieTh → DieTh) : (s.modDie d f).silt = s.silt := rfl
@[simp] theorem State.modDie_flt (d : DieIx) (f : DieTh → DieTh) : (s.modDie d f).flt = s.flt := rfl
@[simp] theorem State.modDie_frz (d : DieIx) (f : DieTh → DieTh) : (s.modDie d f).frz = s.frz := rfl
@[simp] theorem State.modDie_dbg (d : DieIx) (f : DieTh → DieTh) : (s.modDie d f).dbg = s.dbg := rfl
@[simp] theorem State.modDie_rv (d : DieIx) (f : DieTh → DieTh) : (s.modDie d f).rv = s.rv := rfl
@[simp] theorem State.modDie_otp (d : DieIx) (f : DieTh → DieTh) : (s.modDie d f).otp = s.otp := rfl
@[simp] theorem State.modDie_tw (d : DieIx) (f : DieTh → DieTh) : (s.modDie d f).tw = s.tw := rfl
@[simp] theorem State.modDie_keepWrites (d : DieIx) (f : DieTh → DieTh) : (s.modDie d f).keepWrites = s.keepWrites := rfl
@[simp] theorem State.modDie_pace (d : DieIx) (f : DieTh → DieTh) : (s.modDie d f).pace = s.pace := rfl
@[simp] theorem State.modDie_free (d : DieIx) (f : DieTh → DieTh) : (s.modDie d f).free = s.free := rfl

/-! ### `State.modSpire` -/

@[simp] theorem State.modSpire_pending (p : Spire) (f : SpireSt → SpireSt) : (s.modSpire p f).pending = s.pending := rfl
@[simp] theorem State.modSpire_regs (p : Spire) (f : SpireSt → SpireSt) : (s.modSpire p f).regs = s.regs := rfl
@[simp] theorem State.modSpire_mode (p : Spire) (f : SpireSt → SpireSt) : (s.modSpire p f).mode = s.mode := rfl
@[simp] theorem State.modSpire_tick (p : Spire) (f : SpireSt → SpireSt) : (s.modSpire p f).tick = s.tick := rfl
@[simp] theorem State.modSpire_units (p : Spire) (f : SpireSt → SpireSt) : (s.modSpire p f).units = s.units := rfl
@[simp] theorem State.modSpire_course (p : Spire) (f : SpireSt → SpireSt) : (s.modSpire p f).course = s.course := rfl
@[simp] theorem State.modSpire_uart (p : Spire) (f : SpireSt → SpireSt) : (s.modSpire p f).uart = s.uart := rfl
@[simp] theorem State.modSpire_chan (p : Spire) (f : SpireSt → SpireSt) : (s.modSpire p f).chan = s.chan := rfl
@[simp] theorem State.modSpire_eng (p : Spire) (f : SpireSt → SpireSt) : (s.modSpire p f).eng = s.eng := rfl
@[simp] theorem State.modSpire_spire (p : Spire) (f : SpireSt → SpireSt) : (s.modSpire p f).spire = upd s.spire p f := rfl
@[simp] theorem State.modSpire_hp (p : Spire) (f : SpireSt → SpireSt) : (s.modSpire p f).hp = s.hp := rfl
@[simp] theorem State.modSpire_arb (p : Spire) (f : SpireSt → SpireSt) : (s.modSpire p f).arb = s.arb := rfl
@[simp] theorem State.modSpire_power (p : Spire) (f : SpireSt → SpireSt) : (s.modSpire p f).power = s.power := rfl
@[simp] theorem State.modSpire_est (p : Spire) (f : SpireSt → SpireSt) : (s.modSpire p f).est = s.est := rfl
@[simp] theorem State.modSpire_rail (p : Spire) (f : SpireSt → SpireSt) : (s.modSpire p f).rail = s.rail := rfl
@[simp] theorem State.modSpire_seqr (p : Spire) (f : SpireSt → SpireSt) : (s.modSpire p f).seqr = s.seqr := rfl
@[simp] theorem State.modSpire_hk (p : Spire) (f : SpireSt → SpireSt) : (s.modSpire p f).hk = s.hk := rfl
@[simp] theorem State.modSpire_die (p : Spire) (f : SpireSt → SpireSt) : (s.modSpire p f).die = s.die := rfl
@[simp] theorem State.modSpire_silt (p : Spire) (f : SpireSt → SpireSt) : (s.modSpire p f).silt = s.silt := rfl
@[simp] theorem State.modSpire_flt (p : Spire) (f : SpireSt → SpireSt) : (s.modSpire p f).flt = s.flt := rfl
@[simp] theorem State.modSpire_frz (p : Spire) (f : SpireSt → SpireSt) : (s.modSpire p f).frz = s.frz := rfl
@[simp] theorem State.modSpire_dbg (p : Spire) (f : SpireSt → SpireSt) : (s.modSpire p f).dbg = s.dbg := rfl
@[simp] theorem State.modSpire_rv (p : Spire) (f : SpireSt → SpireSt) : (s.modSpire p f).rv = s.rv := rfl
@[simp] theorem State.modSpire_otp (p : Spire) (f : SpireSt → SpireSt) : (s.modSpire p f).otp = s.otp := rfl
@[simp] theorem State.modSpire_tw (p : Spire) (f : SpireSt → SpireSt) : (s.modSpire p f).tw = s.tw := rfl
@[simp] theorem State.modSpire_keepWrites (p : Spire) (f : SpireSt → SpireSt) : (s.modSpire p f).keepWrites = s.keepWrites := rfl
@[simp] theorem State.modSpire_pace (p : Spire) (f : SpireSt → SpireSt) : (s.modSpire p f).pace = s.pace := rfl
@[simp] theorem State.modSpire_free (p : Spire) (f : SpireSt → SpireSt) : (s.modSpire p f).free = s.free := rfl

/-! ### `State.modHp` -/

@[simp] theorem State.modHp_pending (f : HostPort → HostPort) : (s.modHp f).pending = s.pending := rfl
@[simp] theorem State.modHp_regs (f : HostPort → HostPort) : (s.modHp f).regs = s.regs := rfl
@[simp] theorem State.modHp_mode (f : HostPort → HostPort) : (s.modHp f).mode = s.mode := rfl
@[simp] theorem State.modHp_tick (f : HostPort → HostPort) : (s.modHp f).tick = s.tick := rfl
@[simp] theorem State.modHp_units (f : HostPort → HostPort) : (s.modHp f).units = s.units := rfl
@[simp] theorem State.modHp_course (f : HostPort → HostPort) : (s.modHp f).course = s.course := rfl
@[simp] theorem State.modHp_uart (f : HostPort → HostPort) : (s.modHp f).uart = s.uart := rfl
@[simp] theorem State.modHp_chan (f : HostPort → HostPort) : (s.modHp f).chan = s.chan := rfl
@[simp] theorem State.modHp_eng (f : HostPort → HostPort) : (s.modHp f).eng = s.eng := rfl
@[simp] theorem State.modHp_spire (f : HostPort → HostPort) : (s.modHp f).spire = s.spire := rfl
@[simp] theorem State.modHp_hp (f : HostPort → HostPort) : (s.modHp f).hp = f s.hp := rfl
@[simp] theorem State.modHp_arb (f : HostPort → HostPort) : (s.modHp f).arb = s.arb := rfl
@[simp] theorem State.modHp_power (f : HostPort → HostPort) : (s.modHp f).power = s.power := rfl
@[simp] theorem State.modHp_est (f : HostPort → HostPort) : (s.modHp f).est = s.est := rfl
@[simp] theorem State.modHp_rail (f : HostPort → HostPort) : (s.modHp f).rail = s.rail := rfl
@[simp] theorem State.modHp_seqr (f : HostPort → HostPort) : (s.modHp f).seqr = s.seqr := rfl
@[simp] theorem State.modHp_hk (f : HostPort → HostPort) : (s.modHp f).hk = s.hk := rfl
@[simp] theorem State.modHp_die (f : HostPort → HostPort) : (s.modHp f).die = s.die := rfl
@[simp] theorem State.modHp_silt (f : HostPort → HostPort) : (s.modHp f).silt = s.silt := rfl
@[simp] theorem State.modHp_flt (f : HostPort → HostPort) : (s.modHp f).flt = s.flt := rfl
@[simp] theorem State.modHp_frz (f : HostPort → HostPort) : (s.modHp f).frz = s.frz := rfl
@[simp] theorem State.modHp_dbg (f : HostPort → HostPort) : (s.modHp f).dbg = s.dbg := rfl
@[simp] theorem State.modHp_rv (f : HostPort → HostPort) : (s.modHp f).rv = s.rv := rfl
@[simp] theorem State.modHp_otp (f : HostPort → HostPort) : (s.modHp f).otp = s.otp := rfl
@[simp] theorem State.modHp_tw (f : HostPort → HostPort) : (s.modHp f).tw = s.tw := rfl
@[simp] theorem State.modHp_keepWrites (f : HostPort → HostPort) : (s.modHp f).keepWrites = s.keepWrites := rfl
@[simp] theorem State.modHp_pace (f : HostPort → HostPort) : (s.modHp f).pace = s.pace := rfl
@[simp] theorem State.modHp_free (f : HostPort → HostPort) : (s.modHp f).free = s.free := rfl

/-! ### `State.modRing` -/

@[simp] theorem State.modRing_pending (q : Ring) (f : RingSt → RingSt) : (s.modRing q f).pending = s.pending := rfl
@[simp] theorem State.modRing_regs (q : Ring) (f : RingSt → RingSt) : (s.modRing q f).regs = s.regs := rfl
@[simp] theorem State.modRing_mode (q : Ring) (f : RingSt → RingSt) : (s.modRing q f).mode = s.mode := rfl
@[simp] theorem State.modRing_tick (q : Ring) (f : RingSt → RingSt) : (s.modRing q f).tick = s.tick := rfl
@[simp] theorem State.modRing_units (q : Ring) (f : RingSt → RingSt) : (s.modRing q f).units = s.units := rfl
@[simp] theorem State.modRing_course (q : Ring) (f : RingSt → RingSt) : (s.modRing q f).course = s.course := rfl
@[simp] theorem State.modRing_uart (q : Ring) (f : RingSt → RingSt) : (s.modRing q f).uart = s.uart := rfl
@[simp] theorem State.modRing_chan (q : Ring) (f : RingSt → RingSt) : (s.modRing q f).chan = s.chan := rfl
@[simp] theorem State.modRing_eng (q : Ring) (f : RingSt → RingSt) : (s.modRing q f).eng = s.eng := rfl
@[simp] theorem State.modRing_spire (q : Ring) (f : RingSt → RingSt) : (s.modRing q f).spire = s.spire := rfl
@[simp] theorem State.modRing_hp (q : Ring) (f : RingSt → RingSt) : (s.modRing q f).hp = { s.hp with rings := upd s.hp.rings q f } := rfl
@[simp] theorem State.modRing_arb (q : Ring) (f : RingSt → RingSt) : (s.modRing q f).arb = s.arb := rfl
@[simp] theorem State.modRing_power (q : Ring) (f : RingSt → RingSt) : (s.modRing q f).power = s.power := rfl
@[simp] theorem State.modRing_est (q : Ring) (f : RingSt → RingSt) : (s.modRing q f).est = s.est := rfl
@[simp] theorem State.modRing_rail (q : Ring) (f : RingSt → RingSt) : (s.modRing q f).rail = s.rail := rfl
@[simp] theorem State.modRing_seqr (q : Ring) (f : RingSt → RingSt) : (s.modRing q f).seqr = s.seqr := rfl
@[simp] theorem State.modRing_hk (q : Ring) (f : RingSt → RingSt) : (s.modRing q f).hk = s.hk := rfl
@[simp] theorem State.modRing_die (q : Ring) (f : RingSt → RingSt) : (s.modRing q f).die = s.die := rfl
@[simp] theorem State.modRing_silt (q : Ring) (f : RingSt → RingSt) : (s.modRing q f).silt = s.silt := rfl
@[simp] theorem State.modRing_flt (q : Ring) (f : RingSt → RingSt) : (s.modRing q f).flt = s.flt := rfl
@[simp] theorem State.modRing_frz (q : Ring) (f : RingSt → RingSt) : (s.modRing q f).frz = s.frz := rfl
@[simp] theorem State.modRing_dbg (q : Ring) (f : RingSt → RingSt) : (s.modRing q f).dbg = s.dbg := rfl
@[simp] theorem State.modRing_rv (q : Ring) (f : RingSt → RingSt) : (s.modRing q f).rv = s.rv := rfl
@[simp] theorem State.modRing_otp (q : Ring) (f : RingSt → RingSt) : (s.modRing q f).otp = s.otp := rfl
@[simp] theorem State.modRing_tw (q : Ring) (f : RingSt → RingSt) : (s.modRing q f).tw = s.tw := rfl
@[simp] theorem State.modRing_keepWrites (q : Ring) (f : RingSt → RingSt) : (s.modRing q f).keepWrites = s.keepWrites := rfl
@[simp] theorem State.modRing_pace (q : Ring) (f : RingSt → RingSt) : (s.modRing q f).pace = s.pace := rfl
@[simp] theorem State.modRing_free (q : Ring) (f : RingSt → RingSt) : (s.modRing q f).free = s.free := rfl

/-! ### `State.send` -/

@[simp] theorem State.send_pending (o : Out) : (s.send o).pending = s.pending := rfl
@[simp] theorem State.send_regs (o : Out) : (s.send o).regs = s.regs := rfl
@[simp] theorem State.send_mode (o : Out) : (s.send o).mode = s.mode := rfl
@[simp] theorem State.send_tick (o : Out) : (s.send o).tick = s.tick := rfl
@[simp] theorem State.send_units (o : Out) : (s.send o).units = s.units := rfl
@[simp] theorem State.send_course (o : Out) : (s.send o).course = s.course := rfl
@[simp] theorem State.send_uart (o : Out) : (s.send o).uart = s.uart := rfl
@[simp] theorem State.send_chan (o : Out) : (s.send o).chan = s.chan := rfl
@[simp] theorem State.send_eng (o : Out) : (s.send o).eng = s.eng := rfl
@[simp] theorem State.send_spire (o : Out) : (s.send o).spire = s.spire := rfl
@[simp] theorem State.send_hp (o : Out) : (s.send o).hp = { s.hp with sent := s.hp.sent ++ [o] } := rfl
@[simp] theorem State.send_arb (o : Out) : (s.send o).arb = s.arb := rfl
@[simp] theorem State.send_power (o : Out) : (s.send o).power = s.power := rfl
@[simp] theorem State.send_est (o : Out) : (s.send o).est = s.est := rfl
@[simp] theorem State.send_rail (o : Out) : (s.send o).rail = s.rail := rfl
@[simp] theorem State.send_seqr (o : Out) : (s.send o).seqr = s.seqr := rfl
@[simp] theorem State.send_hk (o : Out) : (s.send o).hk = s.hk := rfl
@[simp] theorem State.send_die (o : Out) : (s.send o).die = s.die := rfl
@[simp] theorem State.send_silt (o : Out) : (s.send o).silt = s.silt := rfl
@[simp] theorem State.send_flt (o : Out) : (s.send o).flt = s.flt := rfl
@[simp] theorem State.send_frz (o : Out) : (s.send o).frz = s.frz := rfl
@[simp] theorem State.send_dbg (o : Out) : (s.send o).dbg = s.dbg := rfl
@[simp] theorem State.send_rv (o : Out) : (s.send o).rv = s.rv := rfl
@[simp] theorem State.send_otp (o : Out) : (s.send o).otp = s.otp := rfl
@[simp] theorem State.send_tw (o : Out) : (s.send o).tw = s.tw := rfl
@[simp] theorem State.send_keepWrites (o : Out) : (s.send o).keepWrites = s.keepWrites := rfl
@[simp] theorem State.send_pace (o : Out) : (s.send o).pace = s.pace := rfl
@[simp] theorem State.send_free (o : Out) : (s.send o).free = s.free := rfl

/-! ### `State.modMode` -/

@[simp] theorem State.modMode_pending (f : ModeSt → ModeSt) : (s.modMode f).pending = s.pending := rfl
@[simp] theorem State.modMode_regs (f : ModeSt → ModeSt) : (s.modMode f).regs = s.regs := rfl
@[simp] theorem State.modMode_mode (f : ModeSt → ModeSt) : (s.modMode f).mode = f s.mode := rfl
@[simp] theorem State.modMode_tick (f : ModeSt → ModeSt) : (s.modMode f).tick = s.tick := rfl
@[simp] theorem State.modMode_units (f : ModeSt → ModeSt) : (s.modMode f).units = s.units := rfl
@[simp] theorem State.modMode_course (f : ModeSt → ModeSt) : (s.modMode f).course = s.course := rfl
@[simp] theorem State.modMode_uart (f : ModeSt → ModeSt) : (s.modMode f).uart = s.uart := rfl
@[simp] theorem State.modMode_chan (f : ModeSt → ModeSt) : (s.modMode f).chan = s.chan := rfl
@[simp] theorem State.modMode_eng (f : ModeSt → ModeSt) : (s.modMode f).eng = s.eng := rfl
@[simp] theorem State.modMode_spire (f : ModeSt → ModeSt) : (s.modMode f).spire = s.spire := rfl
@[simp] theorem State.modMode_hp (f : ModeSt → ModeSt) : (s.modMode f).hp = s.hp := rfl
@[simp] theorem State.modMode_arb (f : ModeSt → ModeSt) : (s.modMode f).arb = s.arb := rfl
@[simp] theorem State.modMode_power (f : ModeSt → ModeSt) : (s.modMode f).power = s.power := rfl
@[simp] theorem State.modMode_est (f : ModeSt → ModeSt) : (s.modMode f).est = s.est := rfl
@[simp] theorem State.modMode_rail (f : ModeSt → ModeSt) : (s.modMode f).rail = s.rail := rfl
@[simp] theorem State.modMode_seqr (f : ModeSt → ModeSt) : (s.modMode f).seqr = s.seqr := rfl
@[simp] theorem State.modMode_hk (f : ModeSt → ModeSt) : (s.modMode f).hk = s.hk := rfl
@[simp] theorem State.modMode_die (f : ModeSt → ModeSt) : (s.modMode f).die = s.die := rfl
@[simp] theorem State.modMode_silt (f : ModeSt → ModeSt) : (s.modMode f).silt = s.silt := rfl
@[simp] theorem State.modMode_flt (f : ModeSt → ModeSt) : (s.modMode f).flt = s.flt := rfl
@[simp] theorem State.modMode_frz (f : ModeSt → ModeSt) : (s.modMode f).frz = s.frz := rfl
@[simp] theorem State.modMode_dbg (f : ModeSt → ModeSt) : (s.modMode f).dbg = s.dbg := rfl
@[simp] theorem State.modMode_rv (f : ModeSt → ModeSt) : (s.modMode f).rv = s.rv := rfl
@[simp] theorem State.modMode_otp (f : ModeSt → ModeSt) : (s.modMode f).otp = s.otp := rfl
@[simp] theorem State.modMode_tw (f : ModeSt → ModeSt) : (s.modMode f).tw = s.tw := rfl
@[simp] theorem State.modMode_keepWrites (f : ModeSt → ModeSt) : (s.modMode f).keepWrites = s.keepWrites := rfl
@[simp] theorem State.modMode_pace (f : ModeSt → ModeSt) : (s.modMode f).pace = s.pace := rfl
@[simp] theorem State.modMode_free (f : ModeSt → ModeSt) : (s.modMode f).free = s.free := rfl

/-! ### `State.modArb` -/

@[simp] theorem State.modArb_pending (f : Arb → Arb) : (s.modArb f).pending = s.pending := rfl
@[simp] theorem State.modArb_regs (f : Arb → Arb) : (s.modArb f).regs = s.regs := rfl
@[simp] theorem State.modArb_mode (f : Arb → Arb) : (s.modArb f).mode = s.mode := rfl
@[simp] theorem State.modArb_tick (f : Arb → Arb) : (s.modArb f).tick = s.tick := rfl
@[simp] theorem State.modArb_units (f : Arb → Arb) : (s.modArb f).units = s.units := rfl
@[simp] theorem State.modArb_course (f : Arb → Arb) : (s.modArb f).course = s.course := rfl
@[simp] theorem State.modArb_uart (f : Arb → Arb) : (s.modArb f).uart = s.uart := rfl
@[simp] theorem State.modArb_chan (f : Arb → Arb) : (s.modArb f).chan = s.chan := rfl
@[simp] theorem State.modArb_eng (f : Arb → Arb) : (s.modArb f).eng = s.eng := rfl
@[simp] theorem State.modArb_spire (f : Arb → Arb) : (s.modArb f).spire = s.spire := rfl
@[simp] theorem State.modArb_hp (f : Arb → Arb) : (s.modArb f).hp = s.hp := rfl
@[simp] theorem State.modArb_arb (f : Arb → Arb) : (s.modArb f).arb = f s.arb := rfl
@[simp] theorem State.modArb_power (f : Arb → Arb) : (s.modArb f).power = s.power := rfl
@[simp] theorem State.modArb_est (f : Arb → Arb) : (s.modArb f).est = s.est := rfl
@[simp] theorem State.modArb_rail (f : Arb → Arb) : (s.modArb f).rail = s.rail := rfl
@[simp] theorem State.modArb_seqr (f : Arb → Arb) : (s.modArb f).seqr = s.seqr := rfl
@[simp] theorem State.modArb_hk (f : Arb → Arb) : (s.modArb f).hk = s.hk := rfl
@[simp] theorem State.modArb_die (f : Arb → Arb) : (s.modArb f).die = s.die := rfl
@[simp] theorem State.modArb_silt (f : Arb → Arb) : (s.modArb f).silt = s.silt := rfl
@[simp] theorem State.modArb_flt (f : Arb → Arb) : (s.modArb f).flt = s.flt := rfl
@[simp] theorem State.modArb_frz (f : Arb → Arb) : (s.modArb f).frz = s.frz := rfl
@[simp] theorem State.modArb_dbg (f : Arb → Arb) : (s.modArb f).dbg = s.dbg := rfl
@[simp] theorem State.modArb_rv (f : Arb → Arb) : (s.modArb f).rv = s.rv := rfl
@[simp] theorem State.modArb_otp (f : Arb → Arb) : (s.modArb f).otp = s.otp := rfl
@[simp] theorem State.modArb_tw (f : Arb → Arb) : (s.modArb f).tw = s.tw := rfl
@[simp] theorem State.modArb_keepWrites (f : Arb → Arb) : (s.modArb f).keepWrites = s.keepWrites := rfl
@[simp] theorem State.modArb_pace (f : Arb → Arb) : (s.modArb f).pace = s.pace := rfl
@[simp] theorem State.modArb_free (f : Arb → Arb) : (s.modArb f).free = s.free := rfl

/-! ### `State.modPower` -/

@[simp] theorem State.modPower_pending (f : Power → Power) : (s.modPower f).pending = s.pending := rfl
@[simp] theorem State.modPower_regs (f : Power → Power) : (s.modPower f).regs = s.regs := rfl
@[simp] theorem State.modPower_mode (f : Power → Power) : (s.modPower f).mode = s.mode := rfl
@[simp] theorem State.modPower_tick (f : Power → Power) : (s.modPower f).tick = s.tick := rfl
@[simp] theorem State.modPower_units (f : Power → Power) : (s.modPower f).units = s.units := rfl
@[simp] theorem State.modPower_course (f : Power → Power) : (s.modPower f).course = s.course := rfl
@[simp] theorem State.modPower_uart (f : Power → Power) : (s.modPower f).uart = s.uart := rfl
@[simp] theorem State.modPower_chan (f : Power → Power) : (s.modPower f).chan = s.chan := rfl
@[simp] theorem State.modPower_eng (f : Power → Power) : (s.modPower f).eng = s.eng := rfl
@[simp] theorem State.modPower_spire (f : Power → Power) : (s.modPower f).spire = s.spire := rfl
@[simp] theorem State.modPower_hp (f : Power → Power) : (s.modPower f).hp = s.hp := rfl
@[simp] theorem State.modPower_arb (f : Power → Power) : (s.modPower f).arb = s.arb := rfl
@[simp] theorem State.modPower_power (f : Power → Power) : (s.modPower f).power = f s.power := rfl
@[simp] theorem State.modPower_est (f : Power → Power) : (s.modPower f).est = s.est := rfl
@[simp] theorem State.modPower_rail (f : Power → Power) : (s.modPower f).rail = s.rail := rfl
@[simp] theorem State.modPower_seqr (f : Power → Power) : (s.modPower f).seqr = s.seqr := rfl
@[simp] theorem State.modPower_hk (f : Power → Power) : (s.modPower f).hk = s.hk := rfl
@[simp] theorem State.modPower_die (f : Power → Power) : (s.modPower f).die = s.die := rfl
@[simp] theorem State.modPower_silt (f : Power → Power) : (s.modPower f).silt = s.silt := rfl
@[simp] theorem State.modPower_flt (f : Power → Power) : (s.modPower f).flt = s.flt := rfl
@[simp] theorem State.modPower_frz (f : Power → Power) : (s.modPower f).frz = s.frz := rfl
@[simp] theorem State.modPower_dbg (f : Power → Power) : (s.modPower f).dbg = s.dbg := rfl
@[simp] theorem State.modPower_rv (f : Power → Power) : (s.modPower f).rv = s.rv := rfl
@[simp] theorem State.modPower_otp (f : Power → Power) : (s.modPower f).otp = s.otp := rfl
@[simp] theorem State.modPower_tw (f : Power → Power) : (s.modPower f).tw = s.tw := rfl
@[simp] theorem State.modPower_keepWrites (f : Power → Power) : (s.modPower f).keepWrites = s.keepWrites := rfl
@[simp] theorem State.modPower_pace (f : Power → Power) : (s.modPower f).pace = s.pace := rfl
@[simp] theorem State.modPower_free (f : Power → Power) : (s.modPower f).free = s.free := rfl

/-! ### `State.modCourse` -/

@[simp] theorem State.modCourse_pending (f : Course → Course) : (s.modCourse f).pending = s.pending := rfl
@[simp] theorem State.modCourse_regs (f : Course → Course) : (s.modCourse f).regs = s.regs := rfl
@[simp] theorem State.modCourse_mode (f : Course → Course) : (s.modCourse f).mode = s.mode := rfl
@[simp] theorem State.modCourse_tick (f : Course → Course) : (s.modCourse f).tick = s.tick := rfl
@[simp] theorem State.modCourse_units (f : Course → Course) : (s.modCourse f).units = s.units := rfl
@[simp] theorem State.modCourse_course (f : Course → Course) : (s.modCourse f).course = f s.course := rfl
@[simp] theorem State.modCourse_uart (f : Course → Course) : (s.modCourse f).uart = s.uart := rfl
@[simp] theorem State.modCourse_chan (f : Course → Course) : (s.modCourse f).chan = s.chan := rfl
@[simp] theorem State.modCourse_eng (f : Course → Course) : (s.modCourse f).eng = s.eng := rfl
@[simp] theorem State.modCourse_spire (f : Course → Course) : (s.modCourse f).spire = s.spire := rfl
@[simp] theorem State.modCourse_hp (f : Course → Course) : (s.modCourse f).hp = s.hp := rfl
@[simp] theorem State.modCourse_arb (f : Course → Course) : (s.modCourse f).arb = s.arb := rfl
@[simp] theorem State.modCourse_power (f : Course → Course) : (s.modCourse f).power = s.power := rfl
@[simp] theorem State.modCourse_est (f : Course → Course) : (s.modCourse f).est = s.est := rfl
@[simp] theorem State.modCourse_rail (f : Course → Course) : (s.modCourse f).rail = s.rail := rfl
@[simp] theorem State.modCourse_seqr (f : Course → Course) : (s.modCourse f).seqr = s.seqr := rfl
@[simp] theorem State.modCourse_hk (f : Course → Course) : (s.modCourse f).hk = s.hk := rfl
@[simp] theorem State.modCourse_die (f : Course → Course) : (s.modCourse f).die = s.die := rfl
@[simp] theorem State.modCourse_silt (f : Course → Course) : (s.modCourse f).silt = s.silt := rfl
@[simp] theorem State.modCourse_flt (f : Course → Course) : (s.modCourse f).flt = s.flt := rfl
@[simp] theorem State.modCourse_frz (f : Course → Course) : (s.modCourse f).frz = s.frz := rfl
@[simp] theorem State.modCourse_dbg (f : Course → Course) : (s.modCourse f).dbg = s.dbg := rfl
@[simp] theorem State.modCourse_rv (f : Course → Course) : (s.modCourse f).rv = s.rv := rfl
@[simp] theorem State.modCourse_otp (f : Course → Course) : (s.modCourse f).otp = s.otp := rfl
@[simp] theorem State.modCourse_tw (f : Course → Course) : (s.modCourse f).tw = s.tw := rfl
@[simp] theorem State.modCourse_keepWrites (f : Course → Course) : (s.modCourse f).keepWrites = s.keepWrites := rfl
@[simp] theorem State.modCourse_pace (f : Course → Course) : (s.modCourse f).pace = s.pace := rfl
@[simp] theorem State.modCourse_free (f : Course → Course) : (s.modCourse f).free = s.free := rfl

/-! ### `State.modRv` -/

@[simp] theorem State.modRv_pending (f : River → River) : (s.modRv f).pending = s.pending := rfl
@[simp] theorem State.modRv_regs (f : River → River) : (s.modRv f).regs = s.regs := rfl
@[simp] theorem State.modRv_mode (f : River → River) : (s.modRv f).mode = s.mode := rfl
@[simp] theorem State.modRv_tick (f : River → River) : (s.modRv f).tick = s.tick := rfl
@[simp] theorem State.modRv_units (f : River → River) : (s.modRv f).units = s.units := rfl
@[simp] theorem State.modRv_course (f : River → River) : (s.modRv f).course = s.course := rfl
@[simp] theorem State.modRv_uart (f : River → River) : (s.modRv f).uart = s.uart := rfl
@[simp] theorem State.modRv_chan (f : River → River) : (s.modRv f).chan = s.chan := rfl
@[simp] theorem State.modRv_eng (f : River → River) : (s.modRv f).eng = s.eng := rfl
@[simp] theorem State.modRv_spire (f : River → River) : (s.modRv f).spire = s.spire := rfl
@[simp] theorem State.modRv_hp (f : River → River) : (s.modRv f).hp = s.hp := rfl
@[simp] theorem State.modRv_arb (f : River → River) : (s.modRv f).arb = s.arb := rfl
@[simp] theorem State.modRv_power (f : River → River) : (s.modRv f).power = s.power := rfl
@[simp] theorem State.modRv_est (f : River → River) : (s.modRv f).est = s.est := rfl
@[simp] theorem State.modRv_rail (f : River → River) : (s.modRv f).rail = s.rail := rfl
@[simp] theorem State.modRv_seqr (f : River → River) : (s.modRv f).seqr = s.seqr := rfl
@[simp] theorem State.modRv_hk (f : River → River) : (s.modRv f).hk = s.hk := rfl
@[simp] theorem State.modRv_die (f : River → River) : (s.modRv f).die = s.die := rfl
@[simp] theorem State.modRv_silt (f : River → River) : (s.modRv f).silt = s.silt := rfl
@[simp] theorem State.modRv_flt (f : River → River) : (s.modRv f).flt = s.flt := rfl
@[simp] theorem State.modRv_frz (f : River → River) : (s.modRv f).frz = s.frz := rfl
@[simp] theorem State.modRv_dbg (f : River → River) : (s.modRv f).dbg = s.dbg := rfl
@[simp] theorem State.modRv_rv (f : River → River) : (s.modRv f).rv = f s.rv := rfl
@[simp] theorem State.modRv_otp (f : River → River) : (s.modRv f).otp = s.otp := rfl
@[simp] theorem State.modRv_tw (f : River → River) : (s.modRv f).tw = s.tw := rfl
@[simp] theorem State.modRv_keepWrites (f : River → River) : (s.modRv f).keepWrites = s.keepWrites := rfl
@[simp] theorem State.modRv_pace (f : River → River) : (s.modRv f).pace = s.pace := rfl
@[simp] theorem State.modRv_free (f : River → River) : (s.modRv f).free = s.free := rfl

/-! ### `State.modOtp` -/

@[simp] theorem State.modOtp_pending (f : Otp → Otp) : (s.modOtp f).pending = s.pending := rfl
@[simp] theorem State.modOtp_regs (f : Otp → Otp) : (s.modOtp f).regs = s.regs := rfl
@[simp] theorem State.modOtp_mode (f : Otp → Otp) : (s.modOtp f).mode = s.mode := rfl
@[simp] theorem State.modOtp_tick (f : Otp → Otp) : (s.modOtp f).tick = s.tick := rfl
@[simp] theorem State.modOtp_units (f : Otp → Otp) : (s.modOtp f).units = s.units := rfl
@[simp] theorem State.modOtp_course (f : Otp → Otp) : (s.modOtp f).course = s.course := rfl
@[simp] theorem State.modOtp_uart (f : Otp → Otp) : (s.modOtp f).uart = s.uart := rfl
@[simp] theorem State.modOtp_chan (f : Otp → Otp) : (s.modOtp f).chan = s.chan := rfl
@[simp] theorem State.modOtp_eng (f : Otp → Otp) : (s.modOtp f).eng = s.eng := rfl
@[simp] theorem State.modOtp_spire (f : Otp → Otp) : (s.modOtp f).spire = s.spire := rfl
@[simp] theorem State.modOtp_hp (f : Otp → Otp) : (s.modOtp f).hp = s.hp := rfl
@[simp] theorem State.modOtp_arb (f : Otp → Otp) : (s.modOtp f).arb = s.arb := rfl
@[simp] theorem State.modOtp_power (f : Otp → Otp) : (s.modOtp f).power = s.power := rfl
@[simp] theorem State.modOtp_est (f : Otp → Otp) : (s.modOtp f).est = s.est := rfl
@[simp] theorem State.modOtp_rail (f : Otp → Otp) : (s.modOtp f).rail = s.rail := rfl
@[simp] theorem State.modOtp_seqr (f : Otp → Otp) : (s.modOtp f).seqr = s.seqr := rfl
@[simp] theorem State.modOtp_hk (f : Otp → Otp) : (s.modOtp f).hk = s.hk := rfl
@[simp] theorem State.modOtp_die (f : Otp → Otp) : (s.modOtp f).die = s.die := rfl
@[simp] theorem State.modOtp_silt (f : Otp → Otp) : (s.modOtp f).silt = s.silt := rfl
@[simp] theorem State.modOtp_flt (f : Otp → Otp) : (s.modOtp f).flt = s.flt := rfl
@[simp] theorem State.modOtp_frz (f : Otp → Otp) : (s.modOtp f).frz = s.frz := rfl
@[simp] theorem State.modOtp_dbg (f : Otp → Otp) : (s.modOtp f).dbg = s.dbg := rfl
@[simp] theorem State.modOtp_rv (f : Otp → Otp) : (s.modOtp f).rv = s.rv := rfl
@[simp] theorem State.modOtp_otp (f : Otp → Otp) : (s.modOtp f).otp = f s.otp := rfl
@[simp] theorem State.modOtp_tw (f : Otp → Otp) : (s.modOtp f).tw = s.tw := rfl
@[simp] theorem State.modOtp_keepWrites (f : Otp → Otp) : (s.modOtp f).keepWrites = s.keepWrites := rfl
@[simp] theorem State.modOtp_pace (f : Otp → Otp) : (s.modOtp f).pace = s.pace := rfl
@[simp] theorem State.modOtp_free (f : Otp → Otp) : (s.modOtp f).free = s.free := rfl

/-! ### `State.modSilt` -/

@[simp] theorem State.modSilt_pending (f : Silt → Silt) : (s.modSilt f).pending = s.pending := rfl
@[simp] theorem State.modSilt_regs (f : Silt → Silt) : (s.modSilt f).regs = s.regs := rfl
@[simp] theorem State.modSilt_mode (f : Silt → Silt) : (s.modSilt f).mode = s.mode := rfl
@[simp] theorem State.modSilt_tick (f : Silt → Silt) : (s.modSilt f).tick = s.tick := rfl
@[simp] theorem State.modSilt_units (f : Silt → Silt) : (s.modSilt f).units = s.units := rfl
@[simp] theorem State.modSilt_course (f : Silt → Silt) : (s.modSilt f).course = s.course := rfl
@[simp] theorem State.modSilt_uart (f : Silt → Silt) : (s.modSilt f).uart = s.uart := rfl
@[simp] theorem State.modSilt_chan (f : Silt → Silt) : (s.modSilt f).chan = s.chan := rfl
@[simp] theorem State.modSilt_eng (f : Silt → Silt) : (s.modSilt f).eng = s.eng := rfl
@[simp] theorem State.modSilt_spire (f : Silt → Silt) : (s.modSilt f).spire = s.spire := rfl
@[simp] theorem State.modSilt_hp (f : Silt → Silt) : (s.modSilt f).hp = s.hp := rfl
@[simp] theorem State.modSilt_arb (f : Silt → Silt) : (s.modSilt f).arb = s.arb := rfl
@[simp] theorem State.modSilt_power (f : Silt → Silt) : (s.modSilt f).power = s.power := rfl
@[simp] theorem State.modSilt_est (f : Silt → Silt) : (s.modSilt f).est = s.est := rfl
@[simp] theorem State.modSilt_rail (f : Silt → Silt) : (s.modSilt f).rail = s.rail := rfl
@[simp] theorem State.modSilt_seqr (f : Silt → Silt) : (s.modSilt f).seqr = s.seqr := rfl
@[simp] theorem State.modSilt_hk (f : Silt → Silt) : (s.modSilt f).hk = s.hk := rfl
@[simp] theorem State.modSilt_die (f : Silt → Silt) : (s.modSilt f).die = s.die := rfl
@[simp] theorem State.modSilt_silt (f : Silt → Silt) : (s.modSilt f).silt = f s.silt := rfl
@[simp] theorem State.modSilt_flt (f : Silt → Silt) : (s.modSilt f).flt = s.flt := rfl
@[simp] theorem State.modSilt_frz (f : Silt → Silt) : (s.modSilt f).frz = s.frz := rfl
@[simp] theorem State.modSilt_dbg (f : Silt → Silt) : (s.modSilt f).dbg = s.dbg := rfl
@[simp] theorem State.modSilt_rv (f : Silt → Silt) : (s.modSilt f).rv = s.rv := rfl
@[simp] theorem State.modSilt_otp (f : Silt → Silt) : (s.modSilt f).otp = s.otp := rfl
@[simp] theorem State.modSilt_tw (f : Silt → Silt) : (s.modSilt f).tw = s.tw := rfl
@[simp] theorem State.modSilt_keepWrites (f : Silt → Silt) : (s.modSilt f).keepWrites = s.keepWrites := rfl
@[simp] theorem State.modSilt_pace (f : Silt → Silt) : (s.modSilt f).pace = s.pace := rfl
@[simp] theorem State.modSilt_free (f : Silt → Silt) : (s.modSilt f).free = s.free := rfl

/-! ### Elements of vectors -/

/-- The element of an updated vector. -/
@[simp] theorem upd_getElem {α : Type} {n : Nat} (v : Vector α n) (i : Fin n) (f : α → α) (k : Nat) (hk : k < n) :
    (upd v i f)[k] = if k = i.val then f v[k] else v[k] := by
  by_cases h : k = i.val
  · subst h; simp [upd]
  · have h' : ¬i.val = k := fun e => h e.symm
    simp [upd, h, h']

theorem upd_same {α : Type} {n : Nat} (v : Vector α n) (i : Fin n) (f : α → α) : (upd v i f)[i] = f v[i] := by simp

theorem upd_other {α : Type} {n : Nat} (v : Vector α n) (i j : Fin n) (f : α → α) (h : j ≠ i) :
    (upd v i f)[j] = v[j] := by
  have h' : ¬j.val = i.val := fun e => h (Fin.ext e)
  simp [h']

@[simp] theorem State.modCh_ch (c d : Ch) (f : Chan → Chan) :
    (s.modCh c f).ch d = if d = c then f (s.ch d) else s.ch d := by
  simp [State.ch, Fin.ext_iff]

@[simp] theorem State.modStage_ch (c d : Ch) (f : Stage → Stage) :
    (s.modStage c f).ch d = if d = c then { s.ch d with stage := f (s.ch d).stage } else s.ch d := by
  simp [State.ch, Fin.ext_iff]

@[simp] theorem State.modSeq_ch (c d : Ch) (f : SeqSt → SeqSt) :
    (s.modSeq c f).ch d = if d = c then { s.ch d with seqr := f (s.ch d).seqr } else s.ch d := by
  simp [State.ch, Fin.ext_iff]

@[simp] theorem State.modCnt_ch (c d : Ch) (f : ChCnt → ChCnt) :
    (s.modCnt c f).ch d = if d = c then { s.ch d with cnt := f (s.ch d).cnt } else s.ch d := by
  simp [State.ch, Fin.ext_iff]

@[simp] theorem State.setReg_ch (a : Nat) (v : W32) (ch : Ch) : (s.setReg a v).ch ch = s.ch ch := rfl
@[simp] theorem State.setReg_now (a : Nat) (v : W32) : (s.setReg a v).now = s.now := rfl
@[simp] theorem State.setReg_clockOn (a : Nat) (v : W32) : (s.setReg a v).clockOn = s.clockOn := rfl
@[simp] theorem State.put_ch (f : Fld) (v : Nat) (ch : Ch) : (s.put f v).ch ch = s.ch ch := rfl
@[simp] theorem State.put_now (f : Fld) (v : Nat) : (s.put f v).now = s.now := rfl
@[simp] theorem State.put_clockOn (f : Fld) (v : Nat) : (s.put f v).clockOn = s.clockOn := rfl
@[simp] theorem State.putFlag_ch (f : Fld) (b : Bool) (ch : Ch) : (s.putFlag f b).ch ch = s.ch ch := rfl
@[simp] theorem State.putFlag_now (f : Fld) (b : Bool) : (s.putFlag f b).now = s.now := rfl
@[simp] theorem State.putFlag_clockOn (f : Fld) (b : Bool) : (s.putFlag f b).clockOn = s.clockOn := rfl
@[simp] theorem State.count_ch (f : Fld) (n : Nat) (ch : Ch) : (s.count f n).ch ch = s.ch ch := rfl
@[simp] theorem State.count_now (f : Fld) (n : Nat) : (s.count f n).now = s.now := rfl
@[simp] theorem State.count_clockOn (f : Fld) (n : Nat) : (s.count f n).clockOn = s.clockOn := rfl
@[simp] theorem State.countReg_ch (a n : Nat) (ch : Ch) : (s.countReg a n).ch ch = s.ch ch := rfl
@[simp] theorem State.countReg_now (a n : Nat) : (s.countReg a n).now = s.now := rfl
@[simp] theorem State.countReg_clockOn (a n : Nat) : (s.countReg a n).clockOn = s.clockOn := rfl
@[simp] theorem State.setReg64_ch (a : Nat) (v : W64) (ch : Ch) : (s.setReg64 a v).ch ch = s.ch ch := rfl
@[simp] theorem State.setReg64_now (a : Nat) (v : W64) : (s.setReg64 a v).now = s.now := rfl
@[simp] theorem State.setReg64_clockOn (a : Nat) (v : W64) : (s.setReg64 a v).clockOn = s.clockOn := rfl
@[simp] theorem State.modCh_now (c : Ch) (f : Chan → Chan) : (s.modCh c f).now = s.now := rfl
@[simp] theorem State.modCh_clockOn (c : Ch) (f : Chan → Chan) : (s.modCh c f).clockOn = s.clockOn := rfl
@[simp] theorem State.modCh_reg (c : Ch) (f : Chan → Chan) (x : Nat) : (s.modCh c f).reg x = s.reg x := rfl
@[simp] theorem State.modCh_get (c : Ch) (f : Chan → Chan) (x : Fld) : (s.modCh c f).get x = s.get x := rfl
@[simp] theorem State.modCh_flag (c : Ch) (f : Chan → Chan) (x : Fld) : (s.modCh c f).flag x = s.flag x := rfl
@[simp] theorem State.modStage_now (c : Ch) (f : Stage → Stage) : (s.modStage c f).now = s.now := rfl
@[simp] theorem State.modStage_clockOn (c : Ch) (f : Stage → Stage) : (s.modStage c f).clockOn = s.clockOn := rfl
@[simp] theorem State.modStage_reg (c : Ch) (f : Stage → Stage) (x : Nat) : (s.modStage c f).reg x = s.reg x := rfl
@[simp] theorem State.modStage_get (c : Ch) (f : Stage → Stage) (x : Fld) : (s.modStage c f).get x = s.get x := rfl
@[simp] theorem State.modStage_flag (c : Ch) (f : Stage → Stage) (x : Fld) : (s.modStage c f).flag x = s.flag x := rfl
@[simp] theorem State.modSeq_now (c : Ch) (f : SeqSt → SeqSt) : (s.modSeq c f).now = s.now := rfl
@[simp] theorem State.modSeq_clockOn (c : Ch) (f : SeqSt → SeqSt) : (s.modSeq c f).clockOn = s.clockOn := rfl
@[simp] theorem State.modSeq_reg (c : Ch) (f : SeqSt → SeqSt) (x : Nat) : (s.modSeq c f).reg x = s.reg x := rfl
@[simp] theorem State.modSeq_get (c : Ch) (f : SeqSt → SeqSt) (x : Fld) : (s.modSeq c f).get x = s.get x := rfl
@[simp] theorem State.modSeq_flag (c : Ch) (f : SeqSt → SeqSt) (x : Fld) : (s.modSeq c f).flag x = s.flag x := rfl
@[simp] theorem State.modCnt_now (c : Ch) (f : ChCnt → ChCnt) : (s.modCnt c f).now = s.now := rfl
@[simp] theorem State.modCnt_clockOn (c : Ch) (f : ChCnt → ChCnt) : (s.modCnt c f).clockOn = s.clockOn := rfl
@[simp] theorem State.modCnt_reg (c : Ch) (f : ChCnt → ChCnt) (x : Nat) : (s.modCnt c f).reg x = s.reg x := rfl
@[simp] theorem State.modCnt_get (c : Ch) (f : ChCnt → ChCnt) (x : Fld) : (s.modCnt c f).get x = s.get x := rfl
@[simp] theorem State.modCnt_flag (c : Ch) (f : ChCnt → ChCnt) (x : Fld) : (s.modCnt c f).flag x = s.flag x := rfl
@[simp] theorem State.modEng_ch (e : Eng) (f : Engine → Engine) (ch : Ch) : (s.modEng e f).ch ch = s.ch ch := rfl
@[simp] theorem State.modEng_now (e : Eng) (f : Engine → Engine) : (s.modEng e f).now = s.now := rfl
@[simp] theorem State.modEng_clockOn (e : Eng) (f : Engine → Engine) : (s.modEng e f).clockOn = s.clockOn := rfl
@[simp] theorem State.modEng_reg (e : Eng) (f : Engine → Engine) (x : Nat) : (s.modEng e f).reg x = s.reg x := rfl
@[simp] theorem State.modEng_get (e : Eng) (f : Engine → Engine) (x : Fld) : (s.modEng e f).get x = s.get x := rfl
@[simp] theorem State.modEng_flag (e : Eng) (f : Engine → Engine) (x : Fld) : (s.modEng e f).flag x = s.flag x := rfl
@[simp] theorem State.modUnit_ch (u : CUnit) (f : CmpUnit → CmpUnit) (ch : Ch) : (s.modUnit u f).ch ch = s.ch ch := rfl
@[simp] theorem State.modUnit_now (u : CUnit) (f : CmpUnit → CmpUnit) : (s.modUnit u f).now = s.now := rfl
@[simp] theorem State.modUnit_clockOn (u : CUnit) (f : CmpUnit → CmpUnit) : (s.modUnit u f).clockOn = s.clockOn := rfl
@[simp] theorem State.modUnit_reg (u : CUnit) (f : CmpUnit → CmpUnit) (x : Nat) : (s.modUnit u f).reg x = s.reg x := rfl
@[simp] theorem State.modUnit_get (u : CUnit) (f : CmpUnit → CmpUnit) (x : Fld) : (s.modUnit u f).get x = s.get x := rfl
@[simp] theorem State.modUnit_flag (u : CUnit) (f : CmpUnit → CmpUnit) (x : Fld) : (s.modUnit u f).flag x = s.flag x := rfl
@[simp] theorem State.modRail_ch (r : Rail) (f : RailSt → RailSt) (ch : Ch) : (s.modRail r f).ch ch = s.ch ch := rfl
@[simp] theorem State.modRail_now (r : Rail) (f : RailSt → RailSt) : (s.modRail r f).now = s.now := rfl
@[simp] theorem State.modRail_clockOn (r : Rail) (f : RailSt → RailSt) : (s.modRail r f).clockOn = s.clockOn := rfl
@[simp] theorem State.modRail_reg (r : Rail) (f : RailSt → RailSt) (x : Nat) : (s.modRail r f).reg x = s.reg x := rfl
@[simp] theorem State.modRail_get (r : Rail) (f : RailSt → RailSt) (x : Fld) : (s.modRail r f).get x = s.get x := rfl
@[simp] theorem State.modRail_flag (r : Rail) (f : RailSt → RailSt) (x : Fld) : (s.modRail r f).flag x = s.flag x := rfl
@[simp] theorem State.modDie_ch (d : DieIx) (f : DieTh → DieTh) (ch : Ch) : (s.modDie d f).ch ch = s.ch ch := rfl
@[simp] theorem State.modDie_now (d : DieIx) (f : DieTh → DieTh) : (s.modDie d f).now = s.now := rfl
@[simp] theorem State.modDie_clockOn (d : DieIx) (f : DieTh → DieTh) : (s.modDie d f).clockOn = s.clockOn := rfl
@[simp] theorem State.modDie_reg (d : DieIx) (f : DieTh → DieTh) (x : Nat) : (s.modDie d f).reg x = s.reg x := rfl
@[simp] theorem State.modDie_get (d : DieIx) (f : DieTh → DieTh) (x : Fld) : (s.modDie d f).get x = s.get x := rfl
@[simp] theorem State.modDie_flag (d : DieIx) (f : DieTh → DieTh) (x : Fld) : (s.modDie d f).flag x = s.flag x := rfl
@[simp] theorem State.modSpire_ch (p : Spire) (f : SpireSt → SpireSt) (ch : Ch) : (s.modSpire p f).ch ch = s.ch ch := rfl
@[simp] theorem State.modSpire_now (p : Spire) (f : SpireSt → SpireSt) : (s.modSpire p f).now = s.now := rfl
@[simp] theorem State.modSpire_clockOn (p : Spire) (f : SpireSt → SpireSt) : (s.modSpire p f).clockOn = s.clockOn := rfl
@[simp] theorem State.modSpire_reg (p : Spire) (f : SpireSt → SpireSt) (x : Nat) : (s.modSpire p f).reg x = s.reg x := rfl
@[simp] theorem State.modSpire_get (p : Spire) (f : SpireSt → SpireSt) (x : Fld) : (s.modSpire p f).get x = s.get x := rfl
@[simp] theorem State.modSpire_flag (p : Spire) (f : SpireSt → SpireSt) (x : Fld) : (s.modSpire p f).flag x = s.flag x := rfl
@[simp] theorem State.modHp_ch (f : HostPort → HostPort) (ch : Ch) : (s.modHp f).ch ch = s.ch ch := rfl
@[simp] theorem State.modHp_now (f : HostPort → HostPort) : (s.modHp f).now = s.now := rfl
@[simp] theorem State.modHp_clockOn (f : HostPort → HostPort) : (s.modHp f).clockOn = s.clockOn := rfl
@[simp] theorem State.modHp_reg (f : HostPort → HostPort) (x : Nat) : (s.modHp f).reg x = s.reg x := rfl
@[simp] theorem State.modHp_get (f : HostPort → HostPort) (x : Fld) : (s.modHp f).get x = s.get x := rfl
@[simp] theorem State.modHp_flag (f : HostPort → HostPort) (x : Fld) : (s.modHp f).flag x = s.flag x := rfl
@[simp] theorem State.modRing_ch (q : Ring) (f : RingSt → RingSt) (ch : Ch) : (s.modRing q f).ch ch = s.ch ch := rfl
@[simp] theorem State.modRing_now (q : Ring) (f : RingSt → RingSt) : (s.modRing q f).now = s.now := rfl
@[simp] theorem State.modRing_clockOn (q : Ring) (f : RingSt → RingSt) : (s.modRing q f).clockOn = s.clockOn := rfl
@[simp] theorem State.modRing_reg (q : Ring) (f : RingSt → RingSt) (x : Nat) : (s.modRing q f).reg x = s.reg x := rfl
@[simp] theorem State.modRing_get (q : Ring) (f : RingSt → RingSt) (x : Fld) : (s.modRing q f).get x = s.get x := rfl
@[simp] theorem State.modRing_flag (q : Ring) (f : RingSt → RingSt) (x : Fld) : (s.modRing q f).flag x = s.flag x := rfl
@[simp] theorem State.send_ch (o : Out) (ch : Ch) : (s.send o).ch ch = s.ch ch := rfl
@[simp] theorem State.send_now (o : Out) : (s.send o).now = s.now := rfl
@[simp] theorem State.send_clockOn (o : Out) : (s.send o).clockOn = s.clockOn := rfl
@[simp] theorem State.send_reg (o : Out) (x : Nat) : (s.send o).reg x = s.reg x := rfl
@[simp] theorem State.send_get (o : Out) (x : Fld) : (s.send o).get x = s.get x := rfl
@[simp] theorem State.send_flag (o : Out) (x : Fld) : (s.send o).flag x = s.flag x := rfl
@[simp] theorem State.modMode_ch (f : ModeSt → ModeSt) (ch : Ch) : (s.modMode f).ch ch = s.ch ch := rfl
@[simp] theorem State.modMode_now (f : ModeSt → ModeSt) : (s.modMode f).now = s.now := rfl
@[simp] theorem State.modMode_reg (f : ModeSt → ModeSt) (x : Nat) : (s.modMode f).reg x = s.reg x := rfl
@[simp] theorem State.modMode_get (f : ModeSt → ModeSt) (x : Fld) : (s.modMode f).get x = s.get x := rfl
@[simp] theorem State.modMode_flag (f : ModeSt → ModeSt) (x : Fld) : (s.modMode f).flag x = s.flag x := rfl
@[simp] theorem State.modArb_ch (f : Arb → Arb) (ch : Ch) : (s.modArb f).ch ch = s.ch ch := rfl
@[simp] theorem State.modArb_now (f : Arb → Arb) : (s.modArb f).now = s.now := rfl
@[simp] theorem State.modArb_clockOn (f : Arb → Arb) : (s.modArb f).clockOn = s.clockOn := rfl
@[simp] theorem State.modArb_reg (f : Arb → Arb) (x : Nat) : (s.modArb f).reg x = s.reg x := rfl
@[simp] theorem State.modArb_get (f : Arb → Arb) (x : Fld) : (s.modArb f).get x = s.get x := rfl
@[simp] theorem State.modArb_flag (f : Arb → Arb) (x : Fld) : (s.modArb f).flag x = s.flag x := rfl
@[simp] theorem State.modPower_ch (f : Power → Power) (ch : Ch) : (s.modPower f).ch ch = s.ch ch := rfl
@[simp] theorem State.modPower_now (f : Power → Power) : (s.modPower f).now = s.now := rfl
@[simp] theorem State.modPower_clockOn (f : Power → Power) : (s.modPower f).clockOn = s.clockOn := rfl
@[simp] theorem State.modPower_reg (f : Power → Power) (x : Nat) : (s.modPower f).reg x = s.reg x := rfl
@[simp] theorem State.modPower_get (f : Power → Power) (x : Fld) : (s.modPower f).get x = s.get x := rfl
@[simp] theorem State.modPower_flag (f : Power → Power) (x : Fld) : (s.modPower f).flag x = s.flag x := rfl
@[simp] theorem State.modCourse_ch (f : Course → Course) (ch : Ch) : (s.modCourse f).ch ch = s.ch ch := rfl
@[simp] theorem State.modCourse_now (f : Course → Course) : (s.modCourse f).now = s.now := rfl
@[simp] theorem State.modCourse_clockOn (f : Course → Course) : (s.modCourse f).clockOn = s.clockOn := rfl
@[simp] theorem State.modCourse_reg (f : Course → Course) (x : Nat) : (s.modCourse f).reg x = s.reg x := rfl
@[simp] theorem State.modCourse_get (f : Course → Course) (x : Fld) : (s.modCourse f).get x = s.get x := rfl
@[simp] theorem State.modCourse_flag (f : Course → Course) (x : Fld) : (s.modCourse f).flag x = s.flag x := rfl
@[simp] theorem State.modRv_ch (f : River → River) (ch : Ch) : (s.modRv f).ch ch = s.ch ch := rfl
@[simp] theorem State.modRv_now (f : River → River) : (s.modRv f).now = s.now := rfl
@[simp] theorem State.modRv_clockOn (f : River → River) : (s.modRv f).clockOn = s.clockOn := rfl
@[simp] theorem State.modRv_reg (f : River → River) (x : Nat) : (s.modRv f).reg x = s.reg x := rfl
@[simp] theorem State.modRv_get (f : River → River) (x : Fld) : (s.modRv f).get x = s.get x := rfl
@[simp] theorem State.modRv_flag (f : River → River) (x : Fld) : (s.modRv f).flag x = s.flag x := rfl
@[simp] theorem State.modOtp_ch (f : Otp → Otp) (ch : Ch) : (s.modOtp f).ch ch = s.ch ch := rfl
@[simp] theorem State.modOtp_now (f : Otp → Otp) : (s.modOtp f).now = s.now := rfl
@[simp] theorem State.modOtp_clockOn (f : Otp → Otp) : (s.modOtp f).clockOn = s.clockOn := rfl
@[simp] theorem State.modOtp_reg (f : Otp → Otp) (x : Nat) : (s.modOtp f).reg x = s.reg x := rfl
@[simp] theorem State.modOtp_get (f : Otp → Otp) (x : Fld) : (s.modOtp f).get x = s.get x := rfl
@[simp] theorem State.modOtp_flag (f : Otp → Otp) (x : Fld) : (s.modOtp f).flag x = s.flag x := rfl
@[simp] theorem State.modSilt_ch (f : Silt → Silt) (ch : Ch) : (s.modSilt f).ch ch = s.ch ch := rfl
@[simp] theorem State.modSilt_now (f : Silt → Silt) : (s.modSilt f).now = s.now := rfl
@[simp] theorem State.modSilt_clockOn (f : Silt → Silt) : (s.modSilt f).clockOn = s.clockOn := rfl
@[simp] theorem State.modSilt_reg (f : Silt → Silt) (x : Nat) : (s.modSilt f).reg x = s.reg x := rfl
@[simp] theorem State.modSilt_get (f : Silt → Silt) (x : Fld) : (s.modSilt f).get x = s.get x := rfl
@[simp] theorem State.modSilt_flag (f : Silt → Silt) (x : Fld) : (s.modSilt f).flag x = s.flag x := rfl

/-! ### `State.hold` -/

/-- An entry of a requester that is not stalled goes to its completion ring alone. -/
theorem State.hold_of_free {k : Fin 4} {rq : Rq} {e : Entry} (h : s.stalledRq rq = none) :
    s.hold k rq e = s.modHp fun p => { p with cq := upd p.cq k (· ++ [⟨rq, e, s.now⟩]) } := by
  simp only [State.hold, h]

/-- An entry of a stalled spire goes to that spire's store alone. -/
theorem State.hold_of_stalled {k : Fin 4} {rq : Rq} {e : Entry} {p : Spire} (h : s.stalledRq rq = some p) :
    s.hold k rq e = s.modSpire p fun x => { x with store := if x.store.length < 1024 then x.store ++ [e] else x.store } := by
  simp only [State.hold, h]

@[simp] theorem State.hold_rings (k : Fin 4) (rq : Rq) (e : Entry) : (s.hold k rq e).hp.rings = s.hp.rings := by
  unfold State.hold; split <;> rfl

@[simp] theorem State.hold_pending (k : Fin 4) (rq : Rq) (e : Entry) : (s.hold k rq e).pending = s.pending := by unfold State.hold; split <;> rfl
@[simp] theorem State.hold_regs (k : Fin 4) (rq : Rq) (e : Entry) : (s.hold k rq e).regs = s.regs := by unfold State.hold; split <;> rfl
@[simp] theorem State.hold_mode (k : Fin 4) (rq : Rq) (e : Entry) : (s.hold k rq e).mode = s.mode := by unfold State.hold; split <;> rfl
@[simp] theorem State.hold_tick (k : Fin 4) (rq : Rq) (e : Entry) : (s.hold k rq e).tick = s.tick := by unfold State.hold; split <;> rfl
@[simp] theorem State.hold_units (k : Fin 4) (rq : Rq) (e : Entry) : (s.hold k rq e).units = s.units := by unfold State.hold; split <;> rfl
@[simp] theorem State.hold_course (k : Fin 4) (rq : Rq) (e : Entry) : (s.hold k rq e).course = s.course := by unfold State.hold; split <;> rfl
@[simp] theorem State.hold_uart (k : Fin 4) (rq : Rq) (e : Entry) : (s.hold k rq e).uart = s.uart := by unfold State.hold; split <;> rfl
@[simp] theorem State.hold_chan (k : Fin 4) (rq : Rq) (e : Entry) : (s.hold k rq e).chan = s.chan := by unfold State.hold; split <;> rfl
@[simp] theorem State.hold_eng (k : Fin 4) (rq : Rq) (e : Entry) : (s.hold k rq e).eng = s.eng := by unfold State.hold; split <;> rfl
@[simp] theorem State.hold_arb (k : Fin 4) (rq : Rq) (e : Entry) : (s.hold k rq e).arb = s.arb := by unfold State.hold; split <;> rfl
@[simp] theorem State.hold_power (k : Fin 4) (rq : Rq) (e : Entry) : (s.hold k rq e).power = s.power := by unfold State.hold; split <;> rfl
@[simp] theorem State.hold_est (k : Fin 4) (rq : Rq) (e : Entry) : (s.hold k rq e).est = s.est := by unfold State.hold; split <;> rfl
@[simp] theorem State.hold_rail (k : Fin 4) (rq : Rq) (e : Entry) : (s.hold k rq e).rail = s.rail := by unfold State.hold; split <;> rfl
@[simp] theorem State.hold_seqr (k : Fin 4) (rq : Rq) (e : Entry) : (s.hold k rq e).seqr = s.seqr := by unfold State.hold; split <;> rfl
@[simp] theorem State.hold_hk (k : Fin 4) (rq : Rq) (e : Entry) : (s.hold k rq e).hk = s.hk := by unfold State.hold; split <;> rfl
@[simp] theorem State.hold_die (k : Fin 4) (rq : Rq) (e : Entry) : (s.hold k rq e).die = s.die := by unfold State.hold; split <;> rfl
@[simp] theorem State.hold_silt (k : Fin 4) (rq : Rq) (e : Entry) : (s.hold k rq e).silt = s.silt := by unfold State.hold; split <;> rfl
@[simp] theorem State.hold_flt (k : Fin 4) (rq : Rq) (e : Entry) : (s.hold k rq e).flt = s.flt := by unfold State.hold; split <;> rfl
@[simp] theorem State.hold_frz (k : Fin 4) (rq : Rq) (e : Entry) : (s.hold k rq e).frz = s.frz := by unfold State.hold; split <;> rfl
@[simp] theorem State.hold_dbg (k : Fin 4) (rq : Rq) (e : Entry) : (s.hold k rq e).dbg = s.dbg := by unfold State.hold; split <;> rfl
@[simp] theorem State.hold_rv (k : Fin 4) (rq : Rq) (e : Entry) : (s.hold k rq e).rv = s.rv := by unfold State.hold; split <;> rfl
@[simp] theorem State.hold_otp (k : Fin 4) (rq : Rq) (e : Entry) : (s.hold k rq e).otp = s.otp := by unfold State.hold; split <;> rfl
@[simp] theorem State.hold_tw (k : Fin 4) (rq : Rq) (e : Entry) : (s.hold k rq e).tw = s.tw := by unfold State.hold; split <;> rfl
@[simp] theorem State.hold_keepWrites (k : Fin 4) (rq : Rq) (e : Entry) : (s.hold k rq e).keepWrites = s.keepWrites := by unfold State.hold; split <;> rfl
@[simp] theorem State.hold_pace (k : Fin 4) (rq : Rq) (e : Entry) : (s.hold k rq e).pace = s.pace := by unfold State.hold; split <;> rfl
@[simp] theorem State.hold_free (k : Fin 4) (rq : Rq) (e : Entry) : (s.hold k rq e).free = s.free := by unfold State.hold; split <;> rfl
@[simp] theorem State.hold_now (k : Fin 4) (rq : Rq) (e : Entry) : (s.hold k rq e).now = s.now := by unfold State.hold; split <;> rfl
@[simp] theorem State.hold_clockOn (k : Fin 4) (rq : Rq) (e : Entry) : (s.hold k rq e).clockOn = s.clockOn := by unfold State.hold; split <;> rfl
@[simp] theorem State.hold_ch (k : Fin 4) (rq : Rq) (e : Entry) (x : Ch) : (s.hold k rq e).ch x = s.ch x := by unfold State.hold; split <;> rfl
@[simp] theorem State.hold_reg (k : Fin 4) (rq : Rq) (e : Entry) (x : Nat) : (s.hold k rq e).reg x = s.reg x := by unfold State.hold; split <;> rfl
@[simp] theorem State.hold_get (k : Fin 4) (rq : Rq) (e : Entry) (x : Fld) : (s.hold k rq e).get x = s.get x := by unfold State.hold; split <;> rfl
@[simp] theorem State.hold_flag (k : Fin 4) (rq : Rq) (e : Entry) (x : Fld) : (s.hold k rq e).flag x = s.flag x := by unfold State.hold; split <;> rfl

end Sys2Proof.Machine
end

