-- ==== Sys2Proof/Laws/Words.lean ====
section
/-! SUPPORT. The register file and the sparse memories: a read after a write, and the canonical forms that every write
keeps. -/

namespace Sys2Proof.Machine

/-! ### Word lists -/

theorem wordLookup_erase (l : List (Nat × W32)) (a b : Nat) :
    wordLookup (wordErase l a) b = if b = a then none else wordLookup l b := by
  induction l with
  | nil => simp [wordErase, wordLookup]
  | cons x rest ih =>
    obtain ⟨k, v⟩ := x
    by_cases h : k = a
    · by_cases hb : b = a
      · simp [wordErase, h, hb] at ih ⊢; exact ih
      · simp [wordErase, h, ih, hb, wordLookup, Ne.symm hb]
    · by_cases hk : k = b
      · subst hk; simp [wordErase, h, wordLookup]
      · simp [wordErase, h, wordLookup, hk, ih]

theorem wordLookup_insert (l : List (Nat × W32)) (a b : Nat) (v : W32) :
    wordLookup (wordInsert l a v) b = if b = a then some v else wordLookup l b := by
  induction l with
  | nil =>
    by_cases h : b = a
    · simp [wordInsert, wordLookup, h]
    · simp [wordInsert, wordLookup, h, Ne.symm h]
  | cons x rest ih =>
    obtain ⟨k, w⟩ := x
    simp only [wordInsert]
    by_cases h : b = a
    · subst h
      split
      · simp [wordLookup]
      · split
        · simp [wordLookup]
        · simp_all [wordLookup]
    · split
      · simp [wordLookup, h, Ne.symm h]
      · split
        · rename_i hk; subst hk; simp [wordLookup, h, Ne.symm h]
        · simp [wordLookup, h, ih]

/-- What a written word list reads as. -/
theorem wordPut_read (l : List (Nat × W32)) (a b : Nat) (v : W32) (dflt : Nat → W32) :
    (wordLookup (wordPut l a v (dflt a)) b).getD (dflt b) = if b = a then v else (wordLookup l b).getD (dflt b) := by
  unfold wordPut
  by_cases h : b = a
  · subst h
    split
    · rename_i hv; simp [wordLookup_erase, hv]
    · simp [wordLookup_insert]
  · split <;> simp [wordLookup_erase, wordLookup_insert, h]

/-- The first offset of a canonical list, and its tail. -/
theorem wordsWf_cons (dflt : Nat → W32) (a : Nat) (v : W32) (l : List (Nat × W32)) :
    wordsWf dflt ((a, v) :: l) = true ↔
      v ≠ dflt a ∧ wordsWf dflt l = true ∧ ∀ b w rest, l = (b, w) :: rest → a < b := by
  cases l with
  | nil => simp [wordsWf]
  | cons x rest =>
    obtain ⟨b, w⟩ := x
    simp [wordsWf]
    constructor
    · rintro ⟨⟨h1, h2⟩, h3⟩; exact ⟨h1, h3, h2⟩
    · rintro ⟨h1, h3, h2⟩; exact ⟨⟨h1, h2⟩, h3⟩

/-- Offsets of a canonical list below its head do not occur. -/
theorem wordsWf_below (dflt : Nat → W32) (l : List (Nat × W32)) (a : Nat) (v : W32)
    (h : wordsWf dflt ((a, v) :: l) = true) : ∀ x ∈ l, a < x.1 := by
  induction l generalizing a v with
  | nil => simp
  | cons y rest ih =>
    obtain ⟨b, w⟩ := y
    obtain ⟨-, ht, hlt⟩ := (wordsWf_cons ..).1 h
    have hab := hlt b w rest rfl
    intro x hx
    rcases List.mem_cons.1 hx with rfl | hx
    · exact hab
    · exact Nat.lt_trans hab (ih b w ht x hx)

/-- A list whose offsets all lie above `a` may take `a` in front. -/
theorem wordsWf_cons_of (dflt : Nat → W32) (l : List (Nat × W32)) (a : Nat) (v : W32) (hv : v ≠ dflt a)
    (hl : wordsWf dflt l = true) (hb : ∀ x ∈ l, a < x.1) : wordsWf dflt ((a, v) :: l) = true :=
  (wordsWf_cons ..).2 ⟨hv, hl, fun b w rest h => by subst h; exact hb (b, w) (by simp)⟩

theorem wordErase_mem (l : List (Nat × W32)) (a : Nat) : ∀ x ∈ wordErase l a, x ∈ l := by
  induction l with
  | nil => simp [wordErase]
  | cons y rest ih =>
    obtain ⟨k, v⟩ := y
    intro x hx
    simp only [wordErase] at hx
    split at hx
    · exact List.mem_cons_of_mem _ (ih x hx)
    · rcases List.mem_cons.1 hx with rfl | hx
      · simp
      · exact List.mem_cons_of_mem _ (ih x hx)

theorem wordErase_wf (dflt : Nat → W32) (l : List (Nat × W32)) (a : Nat) (h : wordsWf dflt l = true) :
    wordsWf dflt (wordErase l a) = true := by
  induction l with
  | nil => simp [wordErase, wordsWf]
  | cons y rest ih =>
    obtain ⟨k, v⟩ := y
    obtain ⟨hv, ht, -⟩ := (wordsWf_cons ..).1 h
    have hb := wordsWf_below dflt rest k v h
    simp only [wordErase]
    split
    · exact ih ht
    · exact wordsWf_cons_of dflt _ k v hv (ih ht) fun x hx => hb x (wordErase_mem rest a x hx)

theorem wordInsert_mem (l : List (Nat × W32)) (a : Nat) (v : W32) :
    ∀ x ∈ wordInsert l a v, x.1 = a ∨ x ∈ l := by
  induction l with
  | nil => simp [wordInsert]
  | cons y rest ih =>
    obtain ⟨k, w⟩ := y
    intro x hx
    simp only [wordInsert] at hx
    split at hx
    · rcases List.mem_cons.1 hx with rfl | hx
      · exact .inl rfl
      · exact .inr hx
    · split at hx
      · rcases List.mem_cons.1 hx with rfl | hx
        · exact .inl rfl
        · exact .inr (List.mem_cons_of_mem _ hx)
      · rcases List.mem_cons.1 hx with rfl | hx
        · exact .inr (by simp)
        · rcases ih x hx with h | h
          · exact .inl h
          · exact .inr (List.mem_cons_of_mem _ h)

theorem wordInsert_wf (dflt : Nat → W32) (l : List (Nat × W32)) (a : Nat) (v : W32) (hv : v ≠ dflt a)
    (h : wordsWf dflt l = true) : wordsWf dflt (wordInsert l a v) = true := by
  induction l with
  | nil => simpa [wordInsert, wordsWf] using hv
  | cons y rest ih =>
    obtain ⟨k, w⟩ := y
    obtain ⟨hw, ht, -⟩ := (wordsWf_cons ..).1 h
    have hb := wordsWf_below dflt rest k w h
    simp only [wordInsert]
    split
    · rename_i hak
      refine wordsWf_cons_of dflt _ a v hv h fun x hx => ?_
      rcases List.mem_cons.1 hx with rfl | hx
      · exact hak
      · exact Nat.lt_trans hak (hb x hx)
    · split
      · rename_i hka; subst hka
        exact wordsWf_cons_of dflt _ k v hv ht hb
      · rename_i h1 h2
        refine wordsWf_cons_of dflt _ k w hw (ih ht) fun x hx => ?_
        rcases wordInsert_mem rest a v x hx with h | h
        · omega
        · exact hb x h

/-- A write keeps a word list canonical. -/
theorem wordPut_wf (dflt : Nat → W32) (l : List (Nat × W32)) (a : Nat) (v : W32) (h : wordsWf dflt l = true) :
    wordsWf dflt (wordPut l a v (dflt a)) = true := by
  unfold wordPut
  split
  · exact wordErase_wf dflt l a h
  · rename_i hv; exact wordInsert_wf dflt l a v hv h

/-- A selection of a canonical list is canonical. -/
theorem wordsWf_filter (dflt : Nat → W32) (l : List (Nat × W32)) (p : Nat × W32 → Bool) (h : wordsWf dflt l = true) :
    wordsWf dflt (l.filter p) = true := by
  induction l with
  | nil => simp [wordsWf]
  | cons y rest ih =>
    obtain ⟨k, v⟩ := y
    obtain ⟨hv, ht, -⟩ := (wordsWf_cons ..).1 h
    have hb := wordsWf_below dflt rest k v h
    simp only [List.filter_cons]
    split
    · exact wordsWf_cons_of dflt _ k v hv (ih ht) fun x hx => hb x (List.mem_filter.1 hx).1
    · exact ih ht

/-! ### Registers -/

/-- A register reads as it was written last. -/
theorem State.reg_setReg (s : State) (a b : Nat) (v : W32) :
    (s.setReg a v).reg b = if b = a then v else s.reg b := by
  simp only [State.reg, State.setReg]
  exact wordPut_read s.regs a b v regReset

@[simp] theorem State.reg_setReg_same (s : State) (a : Nat) (v : W32) : (s.setReg a v).reg a = v := by
  simp [State.reg_setReg]

theorem State.reg_setReg_other (s : State) (a b : Nat) (v : W32) (h : b ≠ a) : (s.setReg a v).reg b = s.reg b := by
  simp [State.reg_setReg, h]

/-- The bits of a word with a field replaced. -/
theorem withField_getLsbD (w : W32) (f : Fld) (v i : Nat) (hi : i < 32) :
    (withField w f v).getLsbD i =
      if f.lo ≤ i ∧ i < f.lo + f.w then v.testBit (i - f.lo) else w.getLsbD i := by
  by_cases h : f.lo ≤ i ∧ i < f.lo + f.w
  · obtain ⟨h1, h2⟩ := h
    have h3 : i - f.lo < f.w := by omega
    simp [withField, hi, h1, h2, ← BitVec.getLsbD_eq_getElem, BitVec.getLsbD_ofNat, Nat.testBit_shiftLeft,
      Nat.testBit_two_pow_sub_one, h3, Nat.testBit_mod_two_pow]
  · have h' : ¬(f.lo ≤ i ∧ i - f.lo < f.w) := by omega
    simp only [h, if_false]
    by_cases h1 : f.lo ≤ i
    · have h2 : ¬(i - f.lo < f.w) := by omega
      simp [withField, hi, h1, ← BitVec.getLsbD_eq_getElem, BitVec.getLsbD_ofNat, Nat.testBit_shiftLeft,
        Nat.testBit_two_pow_sub_one, h2, Nat.testBit_mod_two_pow]
    · simp [withField, hi, h1, ← BitVec.getLsbD_eq_getElem, BitVec.getLsbD_ofNat, Nat.testBit_shiftLeft]

/-- The bits of a field. -/
theorem fieldOf_testBit (w : W32) (f : Fld) (i : Nat) :
    (fieldOf w f).testBit i = (decide (i < f.w) && w.getLsbD (f.lo + i)) := by
  simp [fieldOf, bits, Nat.testBit_mod_two_pow, Nat.testBit_shiftRight, BitVec.testBit_toNat]

/-- A field reads as it was written. -/
theorem fieldOf_withField_same (w : W32) (f : Fld) (v : Nat) (h : f.lo + f.w ≤ 32) :
    fieldOf (withField w f v) f = v % 2 ^ f.w := by
  apply Nat.eq_of_testBit_eq
  intro i
  rw [fieldOf_testBit, Nat.testBit_mod_two_pow]
  by_cases hi : i < f.w
  · rw [withField_getLsbD _ _ _ _ (by omega)]
    simp [hi]
  · simp [hi]

/-- A field that shares no bit with the one written keeps its value. -/
theorem fieldOf_withField_other (w : W32) (f g : Fld) (v : Nat) (hg : g.lo + g.w ≤ 32)
    (h : g.lo + g.w ≤ f.lo ∨ f.lo + f.w ≤ g.lo) : fieldOf (withField w f v) g = fieldOf w g := by
  apply Nat.eq_of_testBit_eq
  intro i
  rw [fieldOf_testBit, fieldOf_testBit]
  by_cases hi : i < g.w
  · rw [withField_getLsbD _ _ _ _ (by omega)]
    have : ¬(f.lo ≤ g.lo + i ∧ g.lo + i < f.lo + f.w) := by omega
    simp [this]
  · simp [hi]

/-- A register field reads as it was written. -/
theorem State.get_put_same (s : State) (f : Fld) (v : Nat) (h : f.lo + f.w ≤ 32) : (s.put f v).get f = v % 2 ^ f.w := by
  simp [State.get, State.put, State.reg_setReg, fieldOf_withField_same _ _ _ h]

/-- Two fields that share no bit of a register. -/
def Fld.Apart (f g : Fld) : Prop := f.addr ≠ g.addr ∨ (g.lo + g.w ≤ 32 ∧ (g.lo + g.w ≤ f.lo ∨ f.lo + f.w ≤ g.lo))

/-- A field apart from the one written keeps its value. -/
theorem State.get_put_other (s : State) (f g : Fld) (v : Nat) (h : f.Apart g) : (s.put f v).get g = s.get g := by
  rcases h with h | ⟨hg, h⟩
  · simp [State.get, State.put, State.reg_setReg, Ne.symm h]
  · by_cases ha : g.addr = f.addr
    · simp [State.get, State.put, State.reg_setReg, ha, fieldOf_withField_other _ _ _ _ hg h]
    · simp [State.get, State.put, State.reg_setReg, ha]

/-- A register field whose word is not written keeps its value. -/
theorem State.get_setReg_other (s : State) (a : Nat) (v : W32) (g : Fld) (h : g.addr ≠ a) :
    (s.setReg a v).get g = s.get g := by
  simp [State.get, State.reg_setReg, h]

theorem State.reg_put_other (s : State) (f : Fld) (v a : Nat) (h : a ≠ f.addr) : (s.put f v).reg a = s.reg a := by
  simp [State.put, State.reg_setReg, h]

theorem State.reg_putFlag_other (s : State) (f : Fld) (b : Bool) (a : Nat) (h : a ≠ f.addr) :
    (s.putFlag f b).reg a = s.reg a := by
  simp [State.putFlag, State.reg_put_other _ _ _ _ h]

theorem State.reg_count_other (s : State) (f : Fld) (n a : Nat) (h : a ≠ f.addr) : (s.count f n).reg a = s.reg a := by
  simp [State.count, State.reg_put_other _ _ _ _ h]

theorem State.reg_countReg_other (s : State) (a n b : Nat) (h : b ≠ a) : (s.countReg a n).reg b = s.reg b := by
  simp [State.countReg, State.reg_setReg, h]

/-- A one-bit field reads as it was written. -/
theorem State.flag_putFlag_same (s : State) (f : Fld) (b : Bool) (h : f.lo + f.w ≤ 32) (hw : f.w = 1) :
    (s.putFlag f b).flag f = b := by
  cases b <;> simp [State.flag, State.putFlag, State.get_put_same _ _ _ h, hw]

theorem State.flag_putFlag_other (s : State) (f g : Fld) (b : Bool) (h : f.Apart g) : (s.putFlag f b).flag g = s.flag g := by
  simp [State.flag, State.putFlag, State.get_put_other _ _ _ _ h]

/-- A counter field after a count: it saturates (R5). -/
theorem State.get_count_same (s : State) (f : Fld) (n : Nat) (h : f.lo + f.w ≤ 32) :
    (s.count f n).get f = min (s.get f + n) (2 ^ f.w - 1) := by
  have hp : 0 < 2 ^ f.w := Nat.two_pow_pos _
  rw [State.count, State.get_put_same _ _ _ h, Nat.mod_eq_of_lt]
  · simp [satU]; omega
  · simp [satU]

/-! ### Sparse memories -/

theorem memGet_erase (m : List Host.Cell) (a b : Nat) : memGet (memErase m a) b = if b = a then 0 else memGet m b := by
  induction m with
  | nil => simp [memErase, memGet]
  | cons x rest ih =>
    obtain ⟨k, v⟩ := x
    by_cases h : k = a
    · by_cases hb : b = a
      · simp [memErase, h, hb] at ih ⊢; exact ih
      · simp [memErase, h, ih, hb, memGet, Ne.symm hb]
    · by_cases hk : k = b
      · subst hk; simp [memErase, h, memGet]
      · simp [memErase, h, memGet, hk, ih]

theorem memGet_insert (m : List Host.Cell) (a b : Nat) (v : Byte) :
    memGet (memInsert m a v) b = if b = a then v else memGet m b := by
  induction m with
  | nil =>
    by_cases h : b = a
    · simp [memInsert, memGet, h]
    · simp [memInsert, memGet, h, Ne.symm h]
  | cons x rest ih =>
    obtain ⟨k, w⟩ := x
    simp only [memInsert]
    by_cases h : b = a
    · subst h
      split
      · simp [memGet]
      · split
        · simp [memGet]
        · simp_all [memGet]
    · split
      · simp [memGet, h, Ne.symm h]
      · split
        · rename_i hk; subst hk; simp [memGet, h, Ne.symm h]
        · simp [memGet, h, ih]

/-- A byte reads as it was written last. -/
@[simp] theorem memGet_put (m : List Host.Cell) (a b : Nat) (v : Byte) :
    memGet (memPut m a v) b = if b = a then v else memGet m b := by
  unfold memPut
  split
  · rename_i hv; simp [memGet_erase, hv]
  · simp [memGet_insert]

/-- What a memory reads as after bytes are written from `a` on. -/
theorem memGet_write (m : List Host.Cell) (a b : Nat) (l : List Byte) :
    memGet (memWrite m a l) b = if a ≤ b ∧ b < a + l.length then l.getD (b - a) 0 else memGet m b := by
  induction l generalizing m a with
  | nil =>
    have h : ¬(a ≤ b ∧ b < a + ([] : List Byte).length) := by simp
    simp [memWrite, h]
  | cons x rest ih =>
    simp only [memWrite, ih, memGet_put, List.length_cons]
    by_cases h1 : b = a
    · subst h1; simp
    · by_cases h2 : a + 1 ≤ b ∧ b < a + 1 + rest.length
      · have h3 : a ≤ b ∧ b < a + (rest.length + 1) := by omega
        have h4 : b - a = (b - (a + 1)) + 1 := by omega
        simp [h2, h3, h4]
      · have h3 : ¬(a ≤ b ∧ b < a + (rest.length + 1)) := by omega
        rw [if_neg h2, if_neg h3, if_neg h1]

theorem memWf_cons (a : Nat) (v : Byte) (l : List Host.Cell) :
    memWf ((a, v) :: l) = true ↔ v ≠ 0 ∧ memWf l = true ∧ ∀ b w rest, l = (b, w) :: rest → a < b := by
  cases l with
  | nil => simp [memWf]
  | cons x rest =>
    obtain ⟨b, w⟩ := x
    simp [memWf]
    constructor
    · rintro ⟨⟨h1, h2⟩, h3⟩; exact ⟨h1, h3, h2⟩
    · rintro ⟨h1, h3, h2⟩; exact ⟨⟨h1, h2⟩, h3⟩

theorem memWf_below (l : List Host.Cell) (a : Nat) (v : Byte) (h : memWf ((a, v) :: l) = true) : ∀ x ∈ l, a < x.1 := by
  induction l generalizing a v with
  | nil => simp
  | cons y rest ih =>
    obtain ⟨b, w⟩ := y
    obtain ⟨-, ht, hlt⟩ := (memWf_cons ..).1 h
    have hab := hlt b w rest rfl
    intro x hx
    rcases List.mem_cons.1 hx with rfl | hx
    · exact hab
    · exact Nat.lt_trans hab (ih b w ht x hx)

theorem memWf_cons_of (l : List Host.Cell) (a : Nat) (v : Byte) (hv : v ≠ 0) (hl : memWf l = true)
    (hb : ∀ x ∈ l, a < x.1) : memWf ((a, v) :: l) = true :=
  (memWf_cons ..).2 ⟨hv, hl, fun b w rest h => by subst h; exact hb (b, w) (by simp)⟩

theorem memErase_mem (l : List Host.Cell) (a : Nat) : ∀ x ∈ memErase l a, x ∈ l := by
  induction l with
  | nil => simp [memErase]
  | cons y rest ih =>
    obtain ⟨k, v⟩ := y
    intro x hx
    simp only [memErase] at hx
    split at hx
    · exact List.mem_cons_of_mem _ (ih x hx)
    · rcases List.mem_cons.1 hx with rfl | hx
      · simp
      · exact List.mem_cons_of_mem _ (ih x hx)

theorem memErase_wf (l : List Host.Cell) (a : Nat) (h : memWf l = true) : memWf (memErase l a) = true := by
  induction l with
  | nil => simp [memErase, memWf]
  | cons y rest ih =>
    obtain ⟨k, v⟩ := y
    obtain ⟨hv, ht, -⟩ := (memWf_cons ..).1 h
    have hb := memWf_below rest k v h
    simp only [memErase]
    split
    · exact ih ht
    · exact memWf_cons_of _ k v hv (ih ht) fun x hx => hb x (memErase_mem rest a x hx)

theorem memInsert_mem (l : List Host.Cell) (a : Nat) (v : Byte) : ∀ x ∈ memInsert l a v, x.1 = a ∨ x ∈ l := by
  induction l with
  | nil => simp [memInsert]
  | cons y rest ih =>
    obtain ⟨k, w⟩ := y
    intro x hx
    simp only [memInsert] at hx
    split at hx
    · rcases List.mem_cons.1 hx with rfl | hx
      · exact .inl rfl
      · exact .inr hx
    · split at hx
      · rcases List.mem_cons.1 hx with rfl | hx
        · exact .inl rfl
        · exact .inr (List.mem_cons_of_mem _ hx)
      · rcases List.mem_cons.1 hx with rfl | hx
        · exact .inr (by simp)
        · rcases ih x hx with h | h
          · exact .inl h
          · exact .inr (List.mem_cons_of_mem _ h)

theorem memInsert_wf (l : List Host.Cell) (a : Nat) (v : Byte) (hv : v ≠ 0) (h : memWf l = true) :
    memWf (memInsert l a v) = true := by
  induction l with
  | nil => simpa [memInsert, memWf] using hv
  | cons y rest ih =>
    obtain ⟨k, w⟩ := y
    obtain ⟨hw, ht, -⟩ := (memWf_cons ..).1 h
    have hb := memWf_below rest k w h
    simp only [memInsert]
    split
    · rename_i hak
      refine memWf_cons_of _ a v hv h fun x hx => ?_
      rcases List.mem_cons.1 hx with rfl | hx
      · exact hak
      · exact Nat.lt_trans hak (hb x hx)
    · split
      · rename_i hka; subst hka
        exact memWf_cons_of _ k v hv ht hb
      · rename_i h1 h2
        refine memWf_cons_of _ k w hw (ih ht) fun x hx => ?_
        rcases memInsert_mem rest a v x hx with h | h
        · omega
        · exact hb x h

/-- A write of a byte keeps a memory canonical. -/
theorem memPut_wf (m : List Host.Cell) (a : Nat) (v : Byte) (h : memWf m = true) : memWf (memPut m a v) = true := by
  unfold memPut
  split
  · exact memErase_wf m a h
  · rename_i hv; exact memInsert_wf m a v hv h

/-- A write of bytes keeps a memory canonical. -/
theorem memWrite_wf (m : List Host.Cell) (a : Nat) (l : List Byte) (h : memWf m = true) : memWf (memWrite m a l) = true := by
  induction l generalizing m a with
  | nil => exact h
  | cons b rest ih => exact ih _ _ (memPut_wf m a b h)

end Sys2Proof.Machine
end

