-- ==== Sys2Proof/Laws/Events.lean ====
section
/-! SUPPORT. What the raising of an event leaves alone, and what it stores. `State.still` blots out all that an event and
its class actions may touch: the counters of the register file, the event store, the Silt queue, the fault collector, the
notices on the river ring and the F3 causes. -/

set_option Elab.async false

namespace Sys2Proof.Machine

/-- The state without what an event may touch. -/
def State.still (s : State) : State :=
  { s with regs := [], silt := {}, flt := {}, mode := { s.mode with f3Pend := [] },
           hp := { s.hp with events := [], lost := 0, lostTick := 0, rate := [] },
           rv := { s.rv with noticeA := [], noticeB := [] } }

variable (s : State)

@[simp] theorem State.setReg_still (a : Nat) (v : W32) : (s.setReg a v).still = s.still := rfl
@[simp] theorem State.put_still (f : Fld) (v : Nat) : (s.put f v).still = s.still := rfl
@[simp] theorem State.putFlag_still (f : Fld) (b : Bool) : (s.putFlag f b).still = s.still := rfl
@[simp] theorem State.count_still (f : Fld) (n : Nat) : (s.count f n).still = s.still := rfl
@[simp] theorem State.countReg_still (a n : Nat) : (s.countReg a n).still = s.still := rfl
@[simp] theorem State.setReg64_still (a : Nat) (v : W64) : (s.setReg64 a v).still = s.still := rfl
@[simp] theorem State.modSilt_still (f : Silt → Silt) : (s.modSilt f).still = s.still := rfl

@[simp] theorem State.siltStart_still : s.siltStart.still = s.still := by
  unfold State.siltStart; repeat' split
  all_goals rfl

@[simp] theorem State.siltPush_still (t : Byte) (k : BitVec 2) (c : BitVec 16) (p : List Byte) :
    (s.siltPush t k c p).still = s.still := by
  unfold State.siltPush; dsimp only; repeat' split
  all_goals simp

@[simp] theorem State.storeEvent_still (e : Evt) : (s.storeEvent e).still = s.still := by
  unfold State.storeEvent; dsimp only; repeat' split
  all_goals rfl

@[simp] theorem State.errPulse_still : s.errPulse.still = s.still := by
  unfold State.errPulse; dsimp only; split <;> rfl

@[simp] theorem State.classCount_still (k : BitVec 2) : (s.classCount k).still = s.still := by
  unfold State.classCount; split <;> rfl

@[simp] theorem State.f2Record_still (c : BitVec 16) (p : List Byte) : (s.f2Record c p).still = s.still := by
  unfold State.f2Record; repeat' split
  all_goals simp

@[simp] theorem State.sendNotice_still (c : BitVec 16) (k : BitVec 2) (d : W32) : (s.sendNotice c k d).still = s.still := by
  unfold State.sendNotice; split <;> rfl

@[simp] theorem State.notice_still (c : BitVec 16) (k : BitVec 2) (d : W32) : (s.notice c k d).still = s.still := by
  unfold State.notice; split <;> simp

/-- An event and its class actions touch nothing else. -/
@[simp] theorem State.raiseWith_still (c : BitVec 16) (k : BitVec 2) (d : W32) (o : RaiseOpt) :
    (s.raiseWith c k d o).still = s.still := by
  have h3 (t : State) (l : List F3Cause) :
      (t.modMode fun m => { m with f3Pend := m.f3Pend ++ l }).still = t.still := rfl
  unfold State.raiseWith; dsimp only
  rw [State.notice_still]
  repeat' split
  all_goals simp [h3]

@[simp] theorem State.raise_still (c : BitVec 16) (k : BitVec 2) (d : W32) : (s.raise c k d).still = s.still :=
  State.raiseWith_still s c k d {}

@[simp] theorem State.raiseSrc_still (n : Fin 128) (c : BitVec 16) (k : BitVec 2) (d : W32) (o : Bool) :
    (s.raiseSrc n c k d o).still = s.still := by
  unfold State.raiseSrc; dsimp only; split
  · rfl
  · rw [State.raiseWith_still]; rfl

@[simp] theorem State.raiseLimited_still (c : BitVec 16) (k : BitVec 2) (d : W32) (u i : Nat) :
    (s.raiseLimited c k d u i).still = s.still := by
  unfold State.raiseLimited; split
  · rw [State.raise_still]; rfl
  · rfl

/-! ### Fields that `State.raiseWith` leaves alone -/

@[simp] theorem State.raiseWith_pending (c : BitVec 16) (k : BitVec 2) (d : W32) (o : RaiseOpt) : (s.raiseWith c k d o).pending = s.pending := (congrArg State.pending (State.raiseWith_still s c k d o) :)
@[simp] theorem State.raiseWith_tick (c : BitVec 16) (k : BitVec 2) (d : W32) (o : RaiseOpt) : (s.raiseWith c k d o).tick = s.tick := (congrArg State.tick (State.raiseWith_still s c k d o) :)
@[simp] theorem State.raiseWith_units (c : BitVec 16) (k : BitVec 2) (d : W32) (o : RaiseOpt) : (s.raiseWith c k d o).units = s.units := (congrArg State.units (State.raiseWith_still s c k d o) :)
@[simp] theorem State.raiseWith_course (c : BitVec 16) (k : BitVec 2) (d : W32) (o : RaiseOpt) : (s.raiseWith c k d o).course = s.course := (congrArg State.course (State.raiseWith_still s c k d o) :)
@[simp] theorem State.raiseWith_uart (c : BitVec 16) (k : BitVec 2) (d : W32) (o : RaiseOpt) : (s.raiseWith c k d o).uart = s.uart := (congrArg State.uart (State.raiseWith_still s c k d o) :)
@[simp] theorem State.raiseWith_chan (c : BitVec 16) (k : BitVec 2) (d : W32) (o : RaiseOpt) : (s.raiseWith c k d o).chan = s.chan := (congrArg State.chan (State.raiseWith_still s c k d o) :)
@[simp] theorem State.raiseWith_eng (c : BitVec 16) (k : BitVec 2) (d : W32) (o : RaiseOpt) : (s.raiseWith c k d o).eng = s.eng := (congrArg State.eng (State.raiseWith_still s c k d o) :)
@[simp] theorem State.raiseWith_spire (c : BitVec 16) (k : BitVec 2) (d : W32) (o : RaiseOpt) : (s.raiseWith c k d o).spire = s.spire := (congrArg State.spire (State.raiseWith_still s c k d o) :)
@[simp] theorem State.raiseWith_arb (c : BitVec 16) (k : BitVec 2) (d : W32) (o : RaiseOpt) : (s.raiseWith c k d o).arb = s.arb := (congrArg State.arb (State.raiseWith_still s c k d o) :)
@[simp] theorem State.raiseWith_power (c : BitVec 16) (k : BitVec 2) (d : W32) (o : RaiseOpt) : (s.raiseWith c k d o).power = s.power := (congrArg State.power (State.raiseWith_still s c k d o) :)
@[simp] theorem State.raiseWith_est (c : BitVec 16) (k : BitVec 2) (d : W32) (o : RaiseOpt) : (s.raiseWith c k d o).est = s.est := (congrArg State.est (State.raiseWith_still s c k d o) :)
@[simp] theorem State.raiseWith_rail (c : BitVec 16) (k : BitVec 2) (d : W32) (o : RaiseOpt) : (s.raiseWith c k d o).rail = s.rail := (congrArg State.rail (State.raiseWith_still s c k d o) :)
@[simp] theorem State.raiseWith_seqr (c : BitVec 16) (k : BitVec 2) (d : W32) (o : RaiseOpt) : (s.raiseWith c k d o).seqr = s.seqr := (congrArg State.seqr (State.raiseWith_still s c k d o) :)
@[simp] theorem State.raiseWith_hk (c : BitVec 16) (k : BitVec 2) (d : W32) (o : RaiseOpt) : (s.raiseWith c k d o).hk = s.hk := (congrArg State.hk (State.raiseWith_still s c k d o) :)
@[simp] theorem State.raiseWith_die (c : BitVec 16) (k : BitVec 2) (d : W32) (o : RaiseOpt) : (s.raiseWith c k d o).die = s.die := (congrArg State.die (State.raiseWith_still s c k d o) :)
@[simp] theorem State.raiseWith_frz (c : BitVec 16) (k : BitVec 2) (d : W32) (o : RaiseOpt) : (s.raiseWith c k d o).frz = s.frz := (congrArg State.frz (State.raiseWith_still s c k d o) :)
@[simp] theorem State.raiseWith_dbg (c : BitVec 16) (k : BitVec 2) (d : W32) (o : RaiseOpt) : (s.raiseWith c k d o).dbg = s.dbg := (congrArg State.dbg (State.raiseWith_still s c k d o) :)
@[simp] theorem State.raiseWith_otp (c : BitVec 16) (k : BitVec 2) (d : W32) (o : RaiseOpt) : (s.raiseWith c k d o).otp = s.otp := (congrArg State.otp (State.raiseWith_still s c k d o) :)
@[simp] theorem State.raiseWith_tw (c : BitVec 16) (k : BitVec 2) (d : W32) (o : RaiseOpt) : (s.raiseWith c k d o).tw = s.tw := (congrArg State.tw (State.raiseWith_still s c k d o) :)
@[simp] theorem State.raiseWith_keepWrites (c : BitVec 16) (k : BitVec 2) (d : W32) (o : RaiseOpt) : (s.raiseWith c k d o).keepWrites = s.keepWrites := (congrArg State.keepWrites (State.raiseWith_still s c k d o) :)
@[simp] theorem State.raiseWith_pace (c : BitVec 16) (k : BitVec 2) (d : W32) (o : RaiseOpt) : (s.raiseWith c k d o).pace = s.pace := (congrArg State.pace (State.raiseWith_still s c k d o) :)
@[simp] theorem State.raiseWith_free (c : BitVec 16) (k : BitVec 2) (d : W32) (o : RaiseOpt) : (s.raiseWith c k d o).free = s.free := (congrArg State.free (State.raiseWith_still s c k d o) :)
@[simp] theorem State.raiseWith_mode_mode (c : BitVec 16) (k : BitVec 2) (d : W32) (o : RaiseOpt) : (s.raiseWith c k d o).mode.mode = s.mode.mode := (congrArg (fun x : State => x.mode.mode) (State.raiseWith_still s c k d o) :)
@[simp] theorem State.raiseWith_mode_frozen (c : BitVec 16) (k : BitVec 2) (d : W32) (o : RaiseOpt) : (s.raiseWith c k d o).mode.frozen = s.mode.frozen := (congrArg (fun x : State => x.mode.frozen) (State.raiseWith_still s c k d o) :)
@[simp] theorem State.raiseWith_mode_fault (c : BitVec 16) (k : BitVec 2) (d : W32) (o : RaiseOpt) : (s.raiseWith c k d o).mode.fault = s.mode.fault := (congrArg (fun x : State => x.mode.fault) (State.raiseWith_still s c k d o) :)
@[simp] theorem State.raiseWith_mode_restricted (c : BitVec 16) (k : BitVec 2) (d : W32) (o : RaiseOpt) : (s.raiseWith c k d o).mode.restricted = s.mode.restricted := (congrArg (fun x : State => x.mode.restricted) (State.raiseWith_still s c k d o) :)
@[simp] theorem State.raiseWith_mode_bootStep (c : BitVec 16) (k : BitVec 2) (d : W32) (o : RaiseOpt) : (s.raiseWith c k d o).mode.bootStep = s.mode.bootStep := (congrArg (fun x : State => x.mode.bootStep) (State.raiseWith_still s c k d o) :)
@[simp] theorem State.raiseWith_mode_starting (c : BitVec 16) (k : BitVec 2) (d : W32) (o : RaiseOpt) : (s.raiseWith c k d o).mode.starting = s.mode.starting := (congrArg (fun x : State => x.mode.starting) (State.raiseWith_still s c k d o) :)
@[simp] theorem State.raiseWith_mode_move (c : BitVec 16) (k : BitVec 2) (d : W32) (o : RaiseOpt) : (s.raiseWith c k d o).mode.move = s.mode.move := (congrArg (fun x : State => x.mode.move) (State.raiseWith_still s c k d o) :)
@[simp] theorem State.raiseWith_mode_entryTick (c : BitVec 16) (k : BitVec 2) (d : W32) (o : RaiseOpt) : (s.raiseWith c k d o).mode.entryTick = s.mode.entryTick := (congrArg (fun x : State => x.mode.entryTick) (State.raiseWith_still s c k d o) :)
@[simp] theorem State.raiseWith_mode_keyoffFrom (c : BitVec 16) (k : BitVec 2) (d : W32) (o : RaiseOpt) : (s.raiseWith c k d o).mode.keyoffFrom = s.mode.keyoffFrom := (congrArg (fun x : State => x.mode.keyoffFrom) (State.raiseWith_still s c k d o) :)
@[simp] theorem State.raiseWith_mode_keyoffWait (c : BitVec 16) (k : BitVec 2) (d : W32) (o : RaiseOpt) : (s.raiseWith c k d o).mode.keyoffWait = s.mode.keyoffWait := (congrArg (fun x : State => x.mode.keyoffWait) (State.raiseWith_still s c k d o) :)
@[simp] theorem State.raiseWith_mode_resetCause (c : BitVec 16) (k : BitVec 2) (d : W32) (o : RaiseOpt) : (s.raiseWith c k d o).mode.resetCause = s.mode.resetCause := (congrArg (fun x : State => x.mode.resetCause) (State.raiseWith_still s c k d o) :)
@[simp] theorem State.raiseWith_mode_rwlLocked (c : BitVec 16) (k : BitVec 2) (d : W32) (o : RaiseOpt) : (s.raiseWith c k d o).mode.rwlLocked = s.mode.rwlLocked := (congrArg (fun x : State => x.mode.rwlLocked) (State.raiseWith_still s c k d o) :)
@[simp] theorem State.raiseWith_mode_resetWait (c : BitVec 16) (k : BitVec 2) (d : W32) (o : RaiseOpt) : (s.raiseWith c k d o).mode.resetWait = s.mode.resetWait := (congrArg (fun x : State => x.mode.resetWait) (State.raiseWith_still s c k d o) :)
@[simp] theorem State.raiseWith_mode_pendingReset (c : BitVec 16) (k : BitVec 2) (d : W32) (o : RaiseOpt) : (s.raiseWith c k d o).mode.pendingReset = s.mode.pendingReset := (congrArg (fun x : State => x.mode.pendingReset) (State.raiseWith_still s c k d o) :)
@[simp] theorem State.raiseWith_mode_heldReset (c : BitVec 16) (k : BitVec 2) (d : W32) (o : RaiseOpt) : (s.raiseWith c k d o).mode.heldReset = s.mode.heldReset := (congrArg (fun x : State => x.mode.heldReset) (State.raiseWith_still s c k d o) :)
@[simp] theorem State.raiseWith_mode_fastSince (c : BitVec 16) (k : BitVec 2) (d : W32) (o : RaiseOpt) : (s.raiseWith c k d o).mode.fastSince = s.mode.fastSince := (congrArg (fun x : State => x.mode.fastSince) (State.raiseWith_still s c k d o) :)
@[simp] theorem State.raiseWith_mode_domeOn (c : BitVec 16) (k : BitVec 2) (d : W32) (o : RaiseOpt) : (s.raiseWith c k d o).mode.domeOn = s.mode.domeOn := (congrArg (fun x : State => x.mode.domeOn) (State.raiseWith_still s c k d o) :)
@[simp] theorem State.raiseWith_mode_domeRun (c : BitVec 16) (k : BitVec 2) (d : W32) (o : RaiseOpt) : (s.raiseWith c k d o).mode.domeRun = s.mode.domeRun := (congrArg (fun x : State => x.mode.domeRun) (State.raiseWith_still s c k d o) :)
@[simp] theorem State.raiseWith_mode_keep (c : BitVec 16) (k : BitVec 2) (d : W32) (o : RaiseOpt) : (s.raiseWith c k d o).mode.keep = s.mode.keep := (congrArg (fun x : State => x.mode.keep) (State.raiseWith_still s c k d o) :)
@[simp] theorem State.raiseWith_mode_keepPatched (c : BitVec 16) (k : BitVec 2) (d : W32) (o : RaiseOpt) : (s.raiseWith c k d o).mode.keepPatched = s.mode.keepPatched := (congrArg (fun x : State => x.mode.keepPatched) (State.raiseWith_still s c k d o) :)
@[simp] theorem State.raiseWith_mode_mismatchAt (c : BitVec 16) (k : BitVec 2) (d : W32) (o : RaiseOpt) : (s.raiseWith c k d o).mode.mismatchAt = s.mode.mismatchAt := (congrArg (fun x : State => x.mode.mismatchAt) (State.raiseWith_still s c k d o) :)
@[simp] theorem State.raiseWith_mode_patchPend (c : BitVec 16) (k : BitVec 2) (d : W32) (o : RaiseOpt) : (s.raiseWith c k d o).mode.patchPend = s.mode.patchPend := (congrArg (fun x : State => x.mode.patchPend) (State.raiseWith_still s c k d o) :)
@[simp] theorem State.raiseWith_mode_patchSwitch (c : BitVec 16) (k : BitVec 2) (d : W32) (o : RaiseOpt) : (s.raiseWith c k d o).mode.patchSwitch = s.mode.patchSwitch := (congrArg (fun x : State => x.mode.patchSwitch) (State.raiseWith_still s c k d o) :)
@[simp] theorem State.raiseWith_mode_afterReset (c : BitVec 16) (k : BitVec 2) (d : W32) (o : RaiseOpt) : (s.raiseWith c k d o).mode.afterReset = s.mode.afterReset := (congrArg (fun x : State => x.mode.afterReset) (State.raiseWith_still s c k d o) :)
@[simp] theorem State.raiseWith_mode_refLost (c : BitVec 16) (k : BitVec 2) (d : W32) (o : RaiseOpt) : (s.raiseWith c k d o).mode.refLost = s.mode.refLost := (congrArg (fun x : State => x.mode.refLost) (State.raiseWith_still s c k d o) :)
@[simp] theorem State.raiseWith_mode_moveFresh (c : BitVec 16) (k : BitVec 2) (d : W32) (o : RaiseOpt) : (s.raiseWith c k d o).mode.moveFresh = s.mode.moveFresh := (congrArg (fun x : State => x.mode.moveFresh) (State.raiseWith_still s c k d o) :)
@[simp] theorem State.raiseWith_mode_exitHeld (c : BitVec 16) (k : BitVec 2) (d : W32) (o : RaiseOpt) : (s.raiseWith c k d o).mode.exitHeld = s.mode.exitHeld := (congrArg (fun x : State => x.mode.exitHeld) (State.raiseWith_still s c k d o) :)
@[simp] theorem State.raiseWith_mode_straps (c : BitVec 16) (k : BitVec 2) (d : W32) (o : RaiseOpt) : (s.raiseWith c k d o).mode.straps = s.mode.straps := (congrArg (fun x : State => x.mode.straps) (State.raiseWith_still s c k d o) :)
@[simp] theorem State.raiseWith_mode_pins (c : BitVec 16) (k : BitVec 2) (d : W32) (o : RaiseOpt) : (s.raiseWith c k d o).mode.pins = s.mode.pins := (congrArg (fun x : State => x.mode.pins) (State.raiseWith_still s c k d o) :)
@[simp] theorem State.raiseWith_mode_roadLock (c : BitVec 16) (k : BitVec 2) (d : W32) (o : RaiseOpt) : (s.raiseWith c k d o).mode.roadLock = s.mode.roadLock := (congrArg (fun x : State => x.mode.roadLock) (State.raiseWith_still s c k d o) :)
@[simp] theorem State.raiseWith_hp_rings (c : BitVec 16) (k : BitVec 2) (d : W32) (o : RaiseOpt) : (s.raiseWith c k d o).hp.rings = s.hp.rings := (congrArg (fun x : State => x.hp.rings) (State.raiseWith_still s c k d o) :)
@[simp] theorem State.raiseWith_hp_lends (c : BitVec 16) (k : BitVec 2) (d : W32) (o : RaiseOpt) : (s.raiseWith c k d o).hp.lends = s.hp.lends := (congrArg (fun x : State => x.hp.lends) (State.raiseWith_still s c k d o) :)
@[simp] theorem State.raiseWith_hp_cq (c : BitVec 16) (k : BitVec 2) (d : W32) (o : RaiseOpt) : (s.raiseWith c k d o).hp.cq = s.hp.cq := (congrArg (fun x : State => x.hp.cq) (State.raiseWith_still s c k d o) :)
@[simp] theorem State.raiseWith_hp_lossTold (c : BitVec 16) (k : BitVec 2) (d : W32) (o : RaiseOpt) : (s.raiseWith c k d o).hp.lossTold = s.hp.lossTold := (congrArg (fun x : State => x.hp.lossTold) (State.raiseWith_still s c k d o) :)
@[simp] theorem State.raiseWith_hp_busMaster (c : BitVec 16) (k : BitVec 2) (d : W32) (o : RaiseOpt) : (s.raiseWith c k d o).hp.busMaster = s.hp.busMaster := (congrArg (fun x : State => x.hp.busMaster) (State.raiseWith_still s c k d o) :)
@[simp] theorem State.raiseWith_hp_d3hot (c : BitVec 16) (k : BitVec 2) (d : W32) (o : RaiseOpt) : (s.raiseWith c k d o).hp.d3hot = s.hp.d3hot := (congrArg (fun x : State => x.hp.d3hot) (State.raiseWith_still s c k d o) :)
@[simp] theorem State.raiseWith_hp_pci (c : BitVec 16) (k : BitVec 2) (d : W32) (o : RaiseOpt) : (s.raiseWith c k d o).hp.pci = s.hp.pci := (congrArg (fun x : State => x.hp.pci) (State.raiseWith_still s c k d o) :)
@[simp] theorem State.raiseWith_hp_aer (c : BitVec 16) (k : BitVec 2) (d : W32) (o : RaiseOpt) : (s.raiseWith c k d o).hp.aer = s.hp.aer := (congrArg (fun x : State => x.hp.aer) (State.raiseWith_still s c k d o) :)
@[simp] theorem State.raiseWith_hp_linkUp (c : BitVec 16) (k : BitVec 2) (d : W32) (o : RaiseOpt) : (s.raiseWith c k d o).hp.linkUp = s.hp.linkUp := (congrArg (fun x : State => x.hp.linkUp) (State.raiseWith_still s c k d o) :)
@[simp] theorem State.raiseWith_hp_speed (c : BitVec 16) (k : BitVec 2) (d : W32) (o : RaiseOpt) : (s.raiseWith c k d o).hp.speed = s.hp.speed := (congrArg (fun x : State => x.hp.speed) (State.raiseWith_still s c k d o) :)
@[simp] theorem State.raiseWith_hp_width (c : BitVec 16) (k : BitVec 2) (d : W32) (o : RaiseOpt) : (s.raiseWith c k d o).hp.width = s.hp.width := (congrArg (fun x : State => x.hp.width) (State.raiseWith_still s c k d o) :)
@[simp] theorem State.raiseWith_hp_msix (c : BitVec 16) (k : BitVec 2) (d : W32) (o : RaiseOpt) : (s.raiseWith c k d o).hp.msix = s.hp.msix := (congrArg (fun x : State => x.hp.msix) (State.raiseWith_still s c k d o) :)
@[simp] theorem State.raiseWith_hp_latched (c : BitVec 16) (k : BitVec 2) (d : W32) (o : RaiseOpt) : (s.raiseWith c k d o).hp.latched = s.hp.latched := (congrArg (fun x : State => x.hp.latched) (State.raiseWith_still s c k d o) :)
@[simp] theorem State.raiseWith_hp_latHost (c : BitVec 16) (k : BitVec 2) (d : W32) (o : RaiseOpt) : (s.raiseWith c k d o).hp.latHost = s.hp.latHost := (congrArg (fun x : State => x.hp.latHost) (State.raiseWith_still s c k d o) :)
@[simp] theorem State.raiseWith_hp_latTw (c : BitVec 16) (k : BitVec 2) (d : W32) (o : RaiseOpt) : (s.raiseWith c k d o).hp.latTw = s.hp.latTw := (congrArg (fun x : State => x.hp.latTw) (State.raiseWith_still s c k d o) :)
@[simp] theorem State.raiseWith_hp_latKeep (c : BitVec 16) (k : BitVec 2) (d : W32) (o : RaiseOpt) : (s.raiseWith c k d o).hp.latKeep = s.hp.latKeep := (congrArg (fun x : State => x.hp.latKeep) (State.raiseWith_still s c k d o) :)
@[simp] theorem State.raiseWith_hp_msixPend (c : BitVec 16) (k : BitVec 2) (d : W32) (o : RaiseOpt) : (s.raiseWith c k d o).hp.msixPend = s.hp.msixPend := (congrArg (fun x : State => x.hp.msixPend) (State.raiseWith_still s c k d o) :)
@[simp] theorem State.raiseWith_hp_sent (c : BitVec 16) (k : BitVec 2) (d : W32) (o : RaiseOpt) : (s.raiseWith c k d o).hp.sent = s.hp.sent := (congrArg (fun x : State => x.hp.sent) (State.raiseWith_still s c k d o) :)
@[simp] theorem State.raiseWith_rv_role (c : BitVec 16) (k : BitVec 2) (d : W32) (o : RaiseOpt) : (s.raiseWith c k d o).rv.role = s.rv.role := (congrArg (fun x : State => x.rv.role) (State.raiseWith_still s c k d o) :)
@[simp] theorem State.raiseWith_rv_portA (c : BitVec 16) (k : BitVec 2) (d : W32) (o : RaiseOpt) : (s.raiseWith c k d o).rv.portA = s.rv.portA := (congrArg (fun x : State => x.rv.portA) (State.raiseWith_still s c k d o) :)
@[simp] theorem State.raiseWith_rv_portB (c : BitVec 16) (k : BitVec 2) (d : W32) (o : RaiseOpt) : (s.raiseWith c k d o).rv.portB = s.rv.portB := (congrArg (fun x : State => x.rv.portB) (State.raiseWith_still s c k d o) :)
@[simp] theorem State.raiseWith_rv_wrapA (c : BitVec 16) (k : BitVec 2) (d : W32) (o : RaiseOpt) : (s.raiseWith c k d o).rv.wrapA = s.rv.wrapA := (congrArg (fun x : State => x.rv.wrapA) (State.raiseWith_still s c k d o) :)
@[simp] theorem State.raiseWith_rv_wrapB (c : BitVec 16) (k : BitVec 2) (d : W32) (o : RaiseOpt) : (s.raiseWith c k d o).rv.wrapB = s.rv.wrapB := (congrArg (fun x : State => x.rv.wrapB) (State.raiseWith_still s c k d o) :)
@[simp] theorem State.raiseWith_rv_pos (c : BitVec 16) (k : BitVec 2) (d : W32) (o : RaiseOpt) : (s.raiseWith c k d o).rv.pos = s.rv.pos := (congrArg (fun x : State => x.rv.pos) (State.raiseWith_still s c k d o) :)
@[simp] theorem State.raiseWith_rv_posCand (c : BitVec 16) (k : BitVec 2) (d : W32) (o : RaiseOpt) : (s.raiseWith c k d o).rv.posCand = s.rv.posCand := (congrArg (fun x : State => x.rv.posCand) (State.raiseWith_still s c k d o) :)
@[simp] theorem State.raiseWith_rv_posRun (c : BitVec 16) (k : BitVec 2) (d : W32) (o : RaiseOpt) : (s.raiseWith c k d o).rv.posRun = s.rv.posRun := (congrArg (fun x : State => x.rv.posRun) (State.raiseWith_still s c k d o) :)
@[simp] theorem State.raiseWith_rv_ringN (c : BitVec 16) (k : BitVec 2) (d : W32) (o : RaiseOpt) : (s.raiseWith c k d o).rv.ringN = s.rv.ringN := (congrArg (fun x : State => x.rv.ringN) (State.raiseWith_still s c k d o) :)
@[simp] theorem State.raiseWith_rv_headId (c : BitVec 16) (k : BitVec 2) (d : W32) (o : RaiseOpt) : (s.raiseWith c k d o).rv.headId = s.rv.headId := (congrArg (fun x : State => x.rv.headId) (State.raiseWith_still s c k d o) :)
@[simp] theorem State.raiseWith_rv_yielded (c : BitVec 16) (k : BitVec 2) (d : W32) (o : RaiseOpt) : (s.raiseWith c k d o).rv.yielded = s.rv.yielded := (congrArg (fun x : State => x.rv.yielded) (State.raiseWith_still s c k d o) :)
@[simp] theorem State.raiseWith_rv_fseq (c : BitVec 16) (k : BitVec 2) (d : W32) (o : RaiseOpt) : (s.raiseWith c k d o).rv.fseq = s.rv.fseq := (congrArg (fun x : State => x.rv.fseq) (State.raiseWith_still s c k d o) :)
@[simp] theorem State.raiseWith_rv_sentAt (c : BitVec 16) (k : BitVec 2) (d : W32) (o : RaiseOpt) : (s.raiseWith c k d o).rv.sentAt = s.rv.sentAt := (congrArg (fun x : State => x.rv.sentAt) (State.raiseWith_still s c k d o) :)
@[simp] theorem State.raiseWith_rv_loop (c : BitVec 16) (k : BitVec 2) (d : W32) (o : RaiseOpt) : (s.raiseWith c k d o).rv.loop = s.rv.loop := (congrArg (fun x : State => x.rv.loop) (State.raiseWith_still s c k d o) :)
@[simp] theorem State.raiseWith_rv_e (c : BitVec 16) (k : BitVec 2) (d : W32) (o : RaiseOpt) : (s.raiseWith c k d o).rv.e = s.rv.e := (congrArg (fun x : State => x.rv.e) (State.raiseWith_still s c k d o) :)
@[simp] theorem State.raiseWith_rv_d (c : BitVec 16) (k : BitVec 2) (d : W32) (o : RaiseOpt) : (s.raiseWith c k d o).rv.d = s.rv.d := (congrArg (fun x : State => x.rv.d) (State.raiseWith_still s c k d o) :)
@[simp] theorem State.raiseWith_rv_approx (c : BitVec 16) (k : BitVec 2) (d : W32) (o : RaiseOpt) : (s.raiseWith c k d o).rv.approx = s.rv.approx := (congrArg (fun x : State => x.rv.approx) (State.raiseWith_still s c k d o) :)
@[simp] theorem State.raiseWith_rv_offset (c : BitVec 16) (k : BitVec 2) (d : W32) (o : RaiseOpt) : (s.raiseWith c k d o).rv.offset = s.rv.offset := (congrArg (fun x : State => x.rv.offset) (State.raiseWith_still s c k d o) :)
@[simp] theorem State.raiseWith_rv_trim (c : BitVec 16) (k : BitVec 2) (d : W32) (o : RaiseOpt) : (s.raiseWith c k d o).rv.trim = s.rv.trim := (congrArg (fun x : State => x.rv.trim) (State.raiseWith_still s c k d o) :)
@[simp] theorem State.raiseWith_rv_accepts (c : BitVec 16) (k : BitVec 2) (d : W32) (o : RaiseOpt) : (s.raiseWith c k d o).rv.accepts = s.rv.accepts := (congrArg (fun x : State => x.rv.accepts) (State.raiseWith_still s c k d o) :)
@[simp] theorem State.raiseWith_rv_fresh (c : BitVec 16) (k : BitVec 2) (d : W32) (o : RaiseOpt) : (s.raiseWith c k d o).rv.fresh = s.rv.fresh := (congrArg (fun x : State => x.rv.fresh) (State.raiseWith_still s c k d o) :)
@[simp] theorem State.raiseWith_rv_joined (c : BitVec 16) (k : BitVec 2) (d : W32) (o : RaiseOpt) : (s.raiseWith c k d o).rv.joined = s.rv.joined := (congrArg (fun x : State => x.rv.joined) (State.raiseWith_still s c k d o) :)
@[simp] theorem State.raiseWith_rv_locked (c : BitVec 16) (k : BitVec 2) (d : W32) (o : RaiseOpt) : (s.raiseWith c k d o).rv.locked = s.rv.locked := (congrArg (fun x : State => x.rv.locked) (State.raiseWith_still s c k d o) :)
@[simp] theorem State.raiseWith_rv_inRun (c : BitVec 16) (k : BitVec 2) (d : W32) (o : RaiseOpt) : (s.raiseWith c k d o).rv.inRun = s.rv.inRun := (congrArg (fun x : State => x.rv.inRun) (State.raiseWith_still s c k d o) :)
@[simp] theorem State.raiseWith_rv_outRun (c : BitVec 16) (k : BitVec 2) (d : W32) (o : RaiseOpt) : (s.raiseWith c k d o).rv.outRun = s.rv.outRun := (congrArg (fun x : State => x.rv.outRun) (State.raiseWith_still s c k d o) :)
@[simp] theorem State.raiseWith_rv_lastTick (c : BitVec 16) (k : BitVec 2) (d : W32) (o : RaiseOpt) : (s.raiseWith c k d o).rv.lastTick = s.rv.lastTick := (congrArg (fun x : State => x.rv.lastTick) (State.raiseWith_still s c k d o) :)
@[simp] theorem State.raiseWith_rv_lastSeen (c : BitVec 16) (k : BitVec 2) (d : W32) (o : RaiseOpt) : (s.raiseWith c k d o).rv.lastSeen = s.rv.lastSeen := (congrArg (fun x : State => x.rv.lastSeen) (State.raiseWith_still s c k d o) :)
@[simp] theorem State.raiseWith_rv_hopBad (c : BitVec 16) (k : BitVec 2) (d : W32) (o : RaiseOpt) : (s.raiseWith c k d o).rv.hopBad = s.rv.hopBad := (congrArg (fun x : State => x.rv.hopBad) (State.raiseWith_still s c k d o) :)
@[simp] theorem State.raiseWith_rv_heldTold (c : BitVec 16) (k : BitVec 2) (d : W32) (o : RaiseOpt) : (s.raiseWith c k d o).rv.heldTold = s.rv.heldTold := (congrArg (fun x : State => x.rv.heldTold) (State.raiseWith_still s c k d o) :)
@[simp] theorem State.raiseWith_rv_lostTold (c : BitVec 16) (k : BitVec 2) (d : W32) (o : RaiseOpt) : (s.raiseWith c k d o).rv.lostTold = s.rv.lostTold := (congrArg (fun x : State => x.rv.lostTold) (State.raiseWith_still s c k d o) :)
@[simp] theorem State.raiseWith_rv_rebase (c : BitVec 16) (k : BitVec 2) (d : W32) (o : RaiseOpt) : (s.raiseWith c k d o).rv.rebase = s.rv.rebase := (congrArg (fun x : State => x.rv.rebase) (State.raiseWith_still s c k d o) :)
@[simp] theorem State.raiseWith_rv_tokRes (c : BitVec 16) (k : BitVec 2) (d : W32) (o : RaiseOpt) : (s.raiseWith c k d o).rv.tokRes = s.rv.tokRes := (congrArg (fun x : State => x.rv.tokRes) (State.raiseWith_still s c k d o) :)
@[simp] theorem State.raiseWith_rv_lastFrame (c : BitVec 16) (k : BitVec 2) (d : W32) (o : RaiseOpt) : (s.raiseWith c k d o).rv.lastFrame = s.rv.lastFrame := (congrArg (fun x : State => x.rv.lastFrame) (State.raiseWith_still s c k d o) :)
@[simp] theorem State.raiseWith_rv_seen (c : BitVec 16) (k : BitVec 2) (d : W32) (o : RaiseOpt) : (s.raiseWith c k d o).rv.seen = s.rv.seen := (congrArg (fun x : State => x.rv.seen) (State.raiseWith_still s c k d o) :)
@[simp] theorem State.raiseWith_rv_mailA (c : BitVec 16) (k : BitVec 2) (d : W32) (o : RaiseOpt) : (s.raiseWith c k d o).rv.mailA = s.rv.mailA := (congrArg (fun x : State => x.rv.mailA) (State.raiseWith_still s c k d o) :)
@[simp] theorem State.raiseWith_rv_mailB (c : BitVec 16) (k : BitVec 2) (d : W32) (o : RaiseOpt) : (s.raiseWith c k d o).rv.mailB = s.rv.mailB := (congrArg (fun x : State => x.rv.mailB) (State.raiseWith_still s c k d o) :)
@[simp] theorem State.raiseWith_rv_inbox (c : BitVec 16) (k : BitVec 2) (d : W32) (o : RaiseOpt) : (s.raiseWith c k d o).rv.inbox = s.rv.inbox := (congrArg (fun x : State => x.rv.inbox) (State.raiseWith_still s c k d o) :)
@[simp] theorem State.raiseWith_rv_recvs (c : BitVec 16) (k : BitVec 2) (d : W32) (o : RaiseOpt) : (s.raiseWith c k d o).rv.recvs = s.rv.recvs := (congrArg (fun x : State => x.rv.recvs) (State.raiseWith_still s c k d o) :)
@[simp] theorem State.raiseWith_ch (c : BitVec 16) (k : BitVec 2) (d : W32) (o : RaiseOpt) (ch : Ch) : (s.raiseWith c k d o).ch ch = s.ch ch := by simp [State.ch]
@[simp] theorem State.raiseWith_now (c : BitVec 16) (k : BitVec 2) (d : W32) (o : RaiseOpt) : (s.raiseWith c k d o).now = s.now := by simp [State.now]
@[simp] theorem State.raiseWith_clockOn (c : BitVec 16) (k : BitVec 2) (d : W32) (o : RaiseOpt) : (s.raiseWith c k d o).clockOn = s.clockOn := by simp [State.clockOn]

/-! ### Fields that `State.raise` leaves alone -/

@[simp] theorem State.raise_pending (c : BitVec 16) (k : BitVec 2) (d : W32) : (s.raise c k d).pending = s.pending := (congrArg State.pending (State.raise_still s c k d) :)
@[simp] theorem State.raise_tick (c : BitVec 16) (k : BitVec 2) (d : W32) : (s.raise c k d).tick = s.tick := (congrArg State.tick (State.raise_still s c k d) :)
@[simp] theorem State.raise_units (c : BitVec 16) (k : BitVec 2) (d : W32) : (s.raise c k d).units = s.units := (congrArg State.units (State.raise_still s c k d) :)
@[simp] theorem State.raise_course (c : BitVec 16) (k : BitVec 2) (d : W32) : (s.raise c k d).course = s.course := (congrArg State.course (State.raise_still s c k d) :)
@[simp] theorem State.raise_uart (c : BitVec 16) (k : BitVec 2) (d : W32) : (s.raise c k d).uart = s.uart := (congrArg State.uart (State.raise_still s c k d) :)
@[simp] theorem State.raise_chan (c : BitVec 16) (k : BitVec 2) (d : W32) : (s.raise c k d).chan = s.chan := (congrArg State.chan (State.raise_still s c k d) :)
@[simp] theorem State.raise_eng (c : BitVec 16) (k : BitVec 2) (d : W32) : (s.raise c k d).eng = s.eng := (congrArg State.eng (State.raise_still s c k d) :)
@[simp] theorem State.raise_spire (c : BitVec 16) (k : BitVec 2) (d : W32) : (s.raise c k d).spire = s.spire := (congrArg State.spire (State.raise_still s c k d) :)
@[simp] theorem State.raise_arb (c : BitVec 16) (k : BitVec 2) (d : W32) : (s.raise c k d).arb = s.arb := (congrArg State.arb (State.raise_still s c k d) :)
@[simp] theorem State.raise_power (c : BitVec 16) (k : BitVec 2) (d : W32) : (s.raise c k d).power = s.power := (congrArg State.power (State.raise_still s c k d) :)
@[simp] theorem State.raise_est (c : BitVec 16) (k : BitVec 2) (d : W32) : (s.raise c k d).est = s.est := (congrArg State.est (State.raise_still s c k d) :)
@[simp] theorem State.raise_rail (c : BitVec 16) (k : BitVec 2) (d : W32) : (s.raise c k d).rail = s.rail := (congrArg State.rail (State.raise_still s c k d) :)
@[simp] theorem State.raise_seqr (c : BitVec 16) (k : BitVec 2) (d : W32) : (s.raise c k d).seqr = s.seqr := (congrArg State.seqr (State.raise_still s c k d) :)
@[simp] theorem State.raise_hk (c : BitVec 16) (k : BitVec 2) (d : W32) : (s.raise c k d).hk = s.hk := (congrArg State.hk (State.raise_still s c k d) :)
@[simp] theorem State.raise_die (c : BitVec 16) (k : BitVec 2) (d : W32) : (s.raise c k d).die = s.die := (congrArg State.die (State.raise_still s c k d) :)
@[simp] theorem State.raise_frz (c : BitVec 16) (k : BitVec 2) (d : W32) : (s.raise c k d).frz = s.frz := (congrArg State.frz (State.raise_still s c k d) :)
@[simp] theorem State.raise_dbg (c : BitVec 16) (k : BitVec 2) (d : W32) : (s.raise c k d).dbg = s.dbg := (congrArg State.dbg (State.raise_still s c k d) :)
@[simp] theorem State.raise_otp (c : BitVec 16) (k : BitVec 2) (d : W32) : (s.raise c k d).otp = s.otp := (congrArg State.otp (State.raise_still s c k d) :)
@[simp] theorem State.raise_tw (c : BitVec 16) (k : BitVec 2) (d : W32) : (s.raise c k d).tw = s.tw := (congrArg State.tw (State.raise_still s c k d) :)
@[simp] theorem State.raise_keepWrites (c : BitVec 16) (k : BitVec 2) (d : W32) : (s.raise c k d).keepWrites = s.keepWrites := (congrArg State.keepWrites (State.raise_still s c k d) :)
@[simp] theorem State.raise_pace (c : BitVec 16) (k : BitVec 2) (d : W32) : (s.raise c k d).pace = s.pace := (congrArg State.pace (State.raise_still s c k d) :)
@[simp] theorem State.raise_free (c : BitVec 16) (k : BitVec 2) (d : W32) : (s.raise c k d).free = s.free := (congrArg State.free (State.raise_still s c k d) :)
@[simp] theorem State.raise_mode_mode (c : BitVec 16) (k : BitVec 2) (d : W32) : (s.raise c k d).mode.mode = s.mode.mode := (congrArg (fun x : State => x.mode.mode) (State.raise_still s c k d) :)
@[simp] theorem State.raise_mode_frozen (c : BitVec 16) (k : BitVec 2) (d : W32) : (s.raise c k d).mode.frozen = s.mode.frozen := (congrArg (fun x : State => x.mode.frozen) (State.raise_still s c k d) :)
@[simp] theorem State.raise_mode_fault (c : BitVec 16) (k : BitVec 2) (d : W32) : (s.raise c k d).mode.fault = s.mode.fault := (congrArg (fun x : State => x.mode.fault) (State.raise_still s c k d) :)
@[simp] theorem State.raise_mode_restricted (c : BitVec 16) (k : BitVec 2) (d : W32) : (s.raise c k d).mode.restricted = s.mode.restricted := (congrArg (fun x : State => x.mode.restricted) (State.raise_still s c k d) :)
@[simp] theorem State.raise_mode_bootStep (c : BitVec 16) (k : BitVec 2) (d : W32) : (s.raise c k d).mode.bootStep = s.mode.bootStep := (congrArg (fun x : State => x.mode.bootStep) (State.raise_still s c k d) :)
@[simp] theorem State.raise_mode_starting (c : BitVec 16) (k : BitVec 2) (d : W32) : (s.raise c k d).mode.starting = s.mode.starting := (congrArg (fun x : State => x.mode.starting) (State.raise_still s c k d) :)
@[simp] theorem State.raise_mode_move (c : BitVec 16) (k : BitVec 2) (d : W32) : (s.raise c k d).mode.move = s.mode.move := (congrArg (fun x : State => x.mode.move) (State.raise_still s c k d) :)
@[simp] theorem State.raise_mode_entryTick (c : BitVec 16) (k : BitVec 2) (d : W32) : (s.raise c k d).mode.entryTick = s.mode.entryTick := (congrArg (fun x : State => x.mode.entryTick) (State.raise_still s c k d) :)
@[simp] theorem State.raise_mode_keyoffFrom (c : BitVec 16) (k : BitVec 2) (d : W32) : (s.raise c k d).mode.keyoffFrom = s.mode.keyoffFrom := (congrArg (fun x : State => x.mode.keyoffFrom) (State.raise_still s c k d) :)
@[simp] theorem State.raise_mode_keyoffWait (c : BitVec 16) (k : BitVec 2) (d : W32) : (s.raise c k d).mode.keyoffWait = s.mode.keyoffWait := (congrArg (fun x : State => x.mode.keyoffWait) (State.raise_still s c k d) :)
@[simp] theorem State.raise_mode_resetCause (c : BitVec 16) (k : BitVec 2) (d : W32) : (s.raise c k d).mode.resetCause = s.mode.resetCause := (congrArg (fun x : State => x.mode.resetCause) (State.raise_still s c k d) :)
@[simp] theorem State.raise_mode_rwlLocked (c : BitVec 16) (k : BitVec 2) (d : W32) : (s.raise c k d).mode.rwlLocked = s.mode.rwlLocked := (congrArg (fun x : State => x.mode.rwlLocked) (State.raise_still s c k d) :)
@[simp] theorem State.raise_mode_resetWait (c : BitVec 16) (k : BitVec 2) (d : W32) : (s.raise c k d).mode.resetWait = s.mode.resetWait := (congrArg (fun x : State => x.mode.resetWait) (State.raise_still s c k d) :)
@[simp] theorem State.raise_mode_pendingReset (c : BitVec 16) (k : BitVec 2) (d : W32) : (s.raise c k d).mode.pendingReset = s.mode.pendingReset := (congrArg (fun x : State => x.mode.pendingReset) (State.raise_still s c k d) :)
@[simp] theorem State.raise_mode_heldReset (c : BitVec 16) (k : BitVec 2) (d : W32) : (s.raise c k d).mode.heldReset = s.mode.heldReset := (congrArg (fun x : State => x.mode.heldReset) (State.raise_still s c k d) :)
@[simp] theorem State.raise_mode_fastSince (c : BitVec 16) (k : BitVec 2) (d : W32) : (s.raise c k d).mode.fastSince = s.mode.fastSince := (congrArg (fun x : State => x.mode.fastSince) (State.raise_still s c k d) :)
@[simp] theorem State.raise_mode_domeOn (c : BitVec 16) (k : BitVec 2) (d : W32) : (s.raise c k d).mode.domeOn = s.mode.domeOn := (congrArg (fun x : State => x.mode.domeOn) (State.raise_still s c k d) :)
@[simp] theorem State.raise_mode_domeRun (c : BitVec 16) (k : BitVec 2) (d : W32) : (s.raise c k d).mode.domeRun = s.mode.domeRun := (congrArg (fun x : State => x.mode.domeRun) (State.raise_still s c k d) :)
@[simp] theorem State.raise_mode_keep (c : BitVec 16) (k : BitVec 2) (d : W32) : (s.raise c k d).mode.keep = s.mode.keep := (congrArg (fun x : State => x.mode.keep) (State.raise_still s c k d) :)
@[simp] theorem State.raise_mode_keepPatched (c : BitVec 16) (k : BitVec 2) (d : W32) : (s.raise c k d).mode.keepPatched = s.mode.keepPatched := (congrArg (fun x : State => x.mode.keepPatched) (State.raise_still s c k d) :)
@[simp] theorem State.raise_mode_mismatchAt (c : BitVec 16) (k : BitVec 2) (d : W32) : (s.raise c k d).mode.mismatchAt = s.mode.mismatchAt := (congrArg (fun x : State => x.mode.mismatchAt) (State.raise_still s c k d) :)
@[simp] theorem State.raise_mode_patchPend (c : BitVec 16) (k : BitVec 2) (d : W32) : (s.raise c k d).mode.patchPend = s.mode.patchPend := (congrArg (fun x : State => x.mode.patchPend) (State.raise_still s c k d) :)
@[simp] theorem State.raise_mode_patchSwitch (c : BitVec 16) (k : BitVec 2) (d : W32) : (s.raise c k d).mode.patchSwitch = s.mode.patchSwitch := (congrArg (fun x : State => x.mode.patchSwitch) (State.raise_still s c k d) :)
@[simp] theorem State.raise_mode_afterReset (c : BitVec 16) (k : BitVec 2) (d : W32) : (s.raise c k d).mode.afterReset = s.mode.afterReset := (congrArg (fun x : State => x.mode.afterReset) (State.raise_still s c k d) :)
@[simp] theorem State.raise_mode_refLost (c : BitVec 16) (k : BitVec 2) (d : W32) : (s.raise c k d).mode.refLost = s.mode.refLost := (congrArg (fun x : State => x.mode.refLost) (State.raise_still s c k d) :)
@[simp] theorem State.raise_mode_moveFresh (c : BitVec 16) (k : BitVec 2) (d : W32) : (s.raise c k d).mode.moveFresh = s.mode.moveFresh := (congrArg (fun x : State => x.mode.moveFresh) (State.raise_still s c k d) :)
@[simp] theorem State.raise_mode_exitHeld (c : BitVec 16) (k : BitVec 2) (d : W32) : (s.raise c k d).mode.exitHeld = s.mode.exitHeld := (congrArg (fun x : State => x.mode.exitHeld) (State.raise_still s c k d) :)
@[simp] theorem State.raise_mode_straps (c : BitVec 16) (k : BitVec 2) (d : W32) : (s.raise c k d).mode.straps = s.mode.straps := (congrArg (fun x : State => x.mode.straps) (State.raise_still s c k d) :)
@[simp] theorem State.raise_mode_pins (c : BitVec 16) (k : BitVec 2) (d : W32) : (s.raise c k d).mode.pins = s.mode.pins := (congrArg (fun x : State => x.mode.pins) (State.raise_still s c k d) :)
@[simp] theorem State.raise_mode_roadLock (c : BitVec 16) (k : BitVec 2) (d : W32) : (s.raise c k d).mode.roadLock = s.mode.roadLock := (congrArg (fun x : State => x.mode.roadLock) (State.raise_still s c k d) :)
@[simp] theorem State.raise_hp_rings (c : BitVec 16) (k : BitVec 2) (d : W32) : (s.raise c k d).hp.rings = s.hp.rings := (congrArg (fun x : State => x.hp.rings) (State.raise_still s c k d) :)
@[simp] theorem State.raise_hp_lends (c : BitVec 16) (k : BitVec 2) (d : W32) : (s.raise c k d).hp.lends = s.hp.lends := (congrArg (fun x : State => x.hp.lends) (State.raise_still s c k d) :)
@[simp] theorem State.raise_hp_cq (c : BitVec 16) (k : BitVec 2) (d : W32) : (s.raise c k d).hp.cq = s.hp.cq := (congrArg (fun x : State => x.hp.cq) (State.raise_still s c k d) :)
@[simp] theorem State.raise_hp_lossTold (c : BitVec 16) (k : BitVec 2) (d : W32) : (s.raise c k d).hp.lossTold = s.hp.lossTold := (congrArg (fun x : State => x.hp.lossTold) (State.raise_still s c k d) :)
@[simp] theorem State.raise_hp_busMaster (c : BitVec 16) (k : BitVec 2) (d : W32) : (s.raise c k d).hp.busMaster = s.hp.busMaster := (congrArg (fun x : State => x.hp.busMaster) (State.raise_still s c k d) :)
@[simp] theorem State.raise_hp_d3hot (c : BitVec 16) (k : BitVec 2) (d : W32) : (s.raise c k d).hp.d3hot = s.hp.d3hot := (congrArg (fun x : State => x.hp.d3hot) (State.raise_still s c k d) :)
@[simp] theorem State.raise_hp_pci (c : BitVec 16) (k : BitVec 2) (d : W32) : (s.raise c k d).hp.pci = s.hp.pci := (congrArg (fun x : State => x.hp.pci) (State.raise_still s c k d) :)
@[simp] theorem State.raise_hp_aer (c : BitVec 16) (k : BitVec 2) (d : W32) : (s.raise c k d).hp.aer = s.hp.aer := (congrArg (fun x : State => x.hp.aer) (State.raise_still s c k d) :)
@[simp] theorem State.raise_hp_linkUp (c : BitVec 16) (k : BitVec 2) (d : W32) : (s.raise c k d).hp.linkUp = s.hp.linkUp := (congrArg (fun x : State => x.hp.linkUp) (State.raise_still s c k d) :)
@[simp] theorem State.raise_hp_speed (c : BitVec 16) (k : BitVec 2) (d : W32) : (s.raise c k d).hp.speed = s.hp.speed := (congrArg (fun x : State => x.hp.speed) (State.raise_still s c k d) :)
@[simp] theorem State.raise_hp_width (c : BitVec 16) (k : BitVec 2) (d : W32) : (s.raise c k d).hp.width = s.hp.width := (congrArg (fun x : State => x.hp.width) (State.raise_still s c k d) :)
@[simp] theorem State.raise_hp_msix (c : BitVec 16) (k : BitVec 2) (d : W32) : (s.raise c k d).hp.msix = s.hp.msix := (congrArg (fun x : State => x.hp.msix) (State.raise_still s c k d) :)
@[simp] theorem State.raise_hp_latched (c : BitVec 16) (k : BitVec 2) (d : W32) : (s.raise c k d).hp.latched = s.hp.latched := (congrArg (fun x : State => x.hp.latched) (State.raise_still s c k d) :)
@[simp] theorem State.raise_hp_latHost (c : BitVec 16) (k : BitVec 2) (d : W32) : (s.raise c k d).hp.latHost = s.hp.latHost := (congrArg (fun x : State => x.hp.latHost) (State.raise_still s c k d) :)
@[simp] theorem State.raise_hp_latTw (c : BitVec 16) (k : BitVec 2) (d : W32) : (s.raise c k d).hp.latTw = s.hp.latTw := (congrArg (fun x : State => x.hp.latTw) (State.raise_still s c k d) :)
@[simp] theorem State.raise_hp_latKeep (c : BitVec 16) (k : BitVec 2) (d : W32) : (s.raise c k d).hp.latKeep = s.hp.latKeep := (congrArg (fun x : State => x.hp.latKeep) (State.raise_still s c k d) :)
@[simp] theorem State.raise_hp_msixPend (c : BitVec 16) (k : BitVec 2) (d : W32) : (s.raise c k d).hp.msixPend = s.hp.msixPend := (congrArg (fun x : State => x.hp.msixPend) (State.raise_still s c k d) :)
@[simp] theorem State.raise_hp_sent (c : BitVec 16) (k : BitVec 2) (d : W32) : (s.raise c k d).hp.sent = s.hp.sent := (congrArg (fun x : State => x.hp.sent) (State.raise_still s c k d) :)
@[simp] theorem State.raise_rv_role (c : BitVec 16) (k : BitVec 2) (d : W32) : (s.raise c k d).rv.role = s.rv.role := (congrArg (fun x : State => x.rv.role) (State.raise_still s c k d) :)
@[simp] theorem State.raise_rv_portA (c : BitVec 16) (k : BitVec 2) (d : W32) : (s.raise c k d).rv.portA = s.rv.portA := (congrArg (fun x : State => x.rv.portA) (State.raise_still s c k d) :)
@[simp] theorem State.raise_rv_portB (c : BitVec 16) (k : BitVec 2) (d : W32) : (s.raise c k d).rv.portB = s.rv.portB := (congrArg (fun x : State => x.rv.portB) (State.raise_still s c k d) :)
@[simp] theorem State.raise_rv_wrapA (c : BitVec 16) (k : BitVec 2) (d : W32) : (s.raise c k d).rv.wrapA = s.rv.wrapA := (congrArg (fun x : State => x.rv.wrapA) (State.raise_still s c k d) :)
@[simp] theorem State.raise_rv_wrapB (c : BitVec 16) (k : BitVec 2) (d : W32) : (s.raise c k d).rv.wrapB = s.rv.wrapB := (congrArg (fun x : State => x.rv.wrapB) (State.raise_still s c k d) :)
@[simp] theorem State.raise_rv_pos (c : BitVec 16) (k : BitVec 2) (d : W32) : (s.raise c k d).rv.pos = s.rv.pos := (congrArg (fun x : State => x.rv.pos) (State.raise_still s c k d) :)
@[simp] theorem State.raise_rv_posCand (c : BitVec 16) (k : BitVec 2) (d : W32) : (s.raise c k d).rv.posCand = s.rv.posCand := (congrArg (fun x : State => x.rv.posCand) (State.raise_still s c k d) :)
@[simp] theorem State.raise_rv_posRun (c : BitVec 16) (k : BitVec 2) (d : W32) : (s.raise c k d).rv.posRun = s.rv.posRun := (congrArg (fun x : State => x.rv.posRun) (State.raise_still s c k d) :)
@[simp] theorem State.raise_rv_ringN (c : BitVec 16) (k : BitVec 2) (d : W32) : (s.raise c k d).rv.ringN = s.rv.ringN := (congrArg (fun x : State => x.rv.ringN) (State.raise_still s c k d) :)
@[simp] theorem State.raise_rv_headId (c : BitVec 16) (k : BitVec 2) (d : W32) : (s.raise c k d).rv.headId = s.rv.headId := (congrArg (fun x : State => x.rv.headId) (State.raise_still s c k d) :)
@[simp] theorem State.raise_rv_yielded (c : BitVec 16) (k : BitVec 2) (d : W32) : (s.raise c k d).rv.yielded = s.rv.yielded := (congrArg (fun x : State => x.rv.yielded) (State.raise_still s c k d) :)
@[simp] theorem State.raise_rv_fseq (c : BitVec 16) (k : BitVec 2) (d : W32) : (s.raise c k d).rv.fseq = s.rv.fseq := (congrArg (fun x : State => x.rv.fseq) (State.raise_still s c k d) :)
@[simp] theorem State.raise_rv_sentAt (c : BitVec 16) (k : BitVec 2) (d : W32) : (s.raise c k d).rv.sentAt = s.rv.sentAt := (congrArg (fun x : State => x.rv.sentAt) (State.raise_still s c k d) :)
@[simp] theorem State.raise_rv_loop (c : BitVec 16) (k : BitVec 2) (d : W32) : (s.raise c k d).rv.loop = s.rv.loop := (congrArg (fun x : State => x.rv.loop) (State.raise_still s c k d) :)
@[simp] theorem State.raise_rv_e (c : BitVec 16) (k : BitVec 2) (d : W32) : (s.raise c k d).rv.e = s.rv.e := (congrArg (fun x : State => x.rv.e) (State.raise_still s c k d) :)
@[simp] theorem State.raise_rv_d (c : BitVec 16) (k : BitVec 2) (d : W32) : (s.raise c k d).rv.d = s.rv.d := (congrArg (fun x : State => x.rv.d) (State.raise_still s c k d) :)
@[simp] theorem State.raise_rv_approx (c : BitVec 16) (k : BitVec 2) (d : W32) : (s.raise c k d).rv.approx = s.rv.approx := (congrArg (fun x : State => x.rv.approx) (State.raise_still s c k d) :)
@[simp] theorem State.raise_rv_offset (c : BitVec 16) (k : BitVec 2) (d : W32) : (s.raise c k d).rv.offset = s.rv.offset := (congrArg (fun x : State => x.rv.offset) (State.raise_still s c k d) :)
@[simp] theorem State.raise_rv_trim (c : BitVec 16) (k : BitVec 2) (d : W32) : (s.raise c k d).rv.trim = s.rv.trim := (congrArg (fun x : State => x.rv.trim) (State.raise_still s c k d) :)
@[simp] theorem State.raise_rv_accepts (c : BitVec 16) (k : BitVec 2) (d : W32) : (s.raise c k d).rv.accepts = s.rv.accepts := (congrArg (fun x : State => x.rv.accepts) (State.raise_still s c k d) :)
@[simp] theorem State.raise_rv_fresh (c : BitVec 16) (k : BitVec 2) (d : W32) : (s.raise c k d).rv.fresh = s.rv.fresh := (congrArg (fun x : State => x.rv.fresh) (State.raise_still s c k d) :)
@[simp] theorem State.raise_rv_joined (c : BitVec 16) (k : BitVec 2) (d : W32) : (s.raise c k d).rv.joined = s.rv.joined := (congrArg (fun x : State => x.rv.joined) (State.raise_still s c k d) :)
@[simp] theorem State.raise_rv_locked (c : BitVec 16) (k : BitVec 2) (d : W32) : (s.raise c k d).rv.locked = s.rv.locked := (congrArg (fun x : State => x.rv.locked) (State.raise_still s c k d) :)
@[simp] theorem State.raise_rv_inRun (c : BitVec 16) (k : BitVec 2) (d : W32) : (s.raise c k d).rv.inRun = s.rv.inRun := (congrArg (fun x : State => x.rv.inRun) (State.raise_still s c k d) :)
@[simp] theorem State.raise_rv_outRun (c : BitVec 16) (k : BitVec 2) (d : W32) : (s.raise c k d).rv.outRun = s.rv.outRun := (congrArg (fun x : State => x.rv.outRun) (State.raise_still s c k d) :)
@[simp] theorem State.raise_rv_lastTick (c : BitVec 16) (k : BitVec 2) (d : W32) : (s.raise c k d).rv.lastTick = s.rv.lastTick := (congrArg (fun x : State => x.rv.lastTick) (State.raise_still s c k d) :)
@[simp] theorem State.raise_rv_lastSeen (c : BitVec 16) (k : BitVec 2) (d : W32) : (s.raise c k d).rv.lastSeen = s.rv.lastSeen := (congrArg (fun x : State => x.rv.lastSeen) (State.raise_still s c k d) :)
@[simp] theorem State.raise_rv_hopBad (c : BitVec 16) (k : BitVec 2) (d : W32) : (s.raise c k d).rv.hopBad = s.rv.hopBad := (congrArg (fun x : State => x.rv.hopBad) (State.raise_still s c k d) :)
@[simp] theorem State.raise_rv_heldTold (c : BitVec 16) (k : BitVec 2) (d : W32) : (s.raise c k d).rv.heldTold = s.rv.heldTold := (congrArg (fun x : State => x.rv.heldTold) (State.raise_still s c k d) :)
@[simp] theorem State.raise_rv_lostTold (c : BitVec 16) (k : BitVec 2) (d : W32) : (s.raise c k d).rv.lostTold = s.rv.lostTold := (congrArg (fun x : State => x.rv.lostTold) (State.raise_still s c k d) :)
@[simp] theorem State.raise_rv_rebase (c : BitVec 16) (k : BitVec 2) (d : W32) : (s.raise c k d).rv.rebase = s.rv.rebase := (congrArg (fun x : State => x.rv.rebase) (State.raise_still s c k d) :)
@[simp] theorem State.raise_rv_tokRes (c : BitVec 16) (k : BitVec 2) (d : W32) : (s.raise c k d).rv.tokRes = s.rv.tokRes := (congrArg (fun x : State => x.rv.tokRes) (State.raise_still s c k d) :)
@[simp] theorem State.raise_rv_lastFrame (c : BitVec 16) (k : BitVec 2) (d : W32) : (s.raise c k d).rv.lastFrame = s.rv.lastFrame := (congrArg (fun x : State => x.rv.lastFrame) (State.raise_still s c k d) :)
@[simp] theorem State.raise_rv_seen (c : BitVec 16) (k : BitVec 2) (d : W32) : (s.raise c k d).rv.seen = s.rv.seen := (congrArg (fun x : State => x.rv.seen) (State.raise_still s c k d) :)
@[simp] theorem State.raise_rv_mailA (c : BitVec 16) (k : BitVec 2) (d : W32) : (s.raise c k d).rv.mailA = s.rv.mailA := (congrArg (fun x : State => x.rv.mailA) (State.raise_still s c k d) :)
@[simp] theorem State.raise_rv_mailB (c : BitVec 16) (k : BitVec 2) (d : W32) : (s.raise c k d).rv.mailB = s.rv.mailB := (congrArg (fun x : State => x.rv.mailB) (State.raise_still s c k d) :)
@[simp] theorem State.raise_rv_inbox (c : BitVec 16) (k : BitVec 2) (d : W32) : (s.raise c k d).rv.inbox = s.rv.inbox := (congrArg (fun x : State => x.rv.inbox) (State.raise_still s c k d) :)
@[simp] theorem State.raise_rv_recvs (c : BitVec 16) (k : BitVec 2) (d : W32) : (s.raise c k d).rv.recvs = s.rv.recvs := (congrArg (fun x : State => x.rv.recvs) (State.raise_still s c k d) :)
@[simp] theorem State.raise_ch (c : BitVec 16) (k : BitVec 2) (d : W32) (ch : Ch) : (s.raise c k d).ch ch = s.ch ch := by simp [State.ch]
@[simp] theorem State.raise_now (c : BitVec 16) (k : BitVec 2) (d : W32) : (s.raise c k d).now = s.now := by simp [State.now]
@[simp] theorem State.raise_clockOn (c : BitVec 16) (k : BitVec 2) (d : W32) : (s.raise c k d).clockOn = s.clockOn := by simp [State.clockOn]

/-! ### Fields that `State.raiseSrc` leaves alone -/

@[simp] theorem State.raiseSrc_pending (n : Fin 128) (c : BitVec 16) (k : BitVec 2) (d : W32) (o : Bool) : (s.raiseSrc n c k d o).pending = s.pending := (congrArg State.pending (State.raiseSrc_still s n c k d o) :)
@[simp] theorem State.raiseSrc_tick (n : Fin 128) (c : BitVec 16) (k : BitVec 2) (d : W32) (o : Bool) : (s.raiseSrc n c k d o).tick = s.tick := (congrArg State.tick (State.raiseSrc_still s n c k d o) :)
@[simp] theorem State.raiseSrc_units (n : Fin 128) (c : BitVec 16) (k : BitVec 2) (d : W32) (o : Bool) : (s.raiseSrc n c k d o).units = s.units := (congrArg State.units (State.raiseSrc_still s n c k d o) :)
@[simp] theorem State.raiseSrc_course (n : Fin 128) (c : BitVec 16) (k : BitVec 2) (d : W32) (o : Bool) : (s.raiseSrc n c k d o).course = s.course := (congrArg State.course (State.raiseSrc_still s n c k d o) :)
@[simp] theorem State.raiseSrc_uart (n : Fin 128) (c : BitVec 16) (k : BitVec 2) (d : W32) (o : Bool) : (s.raiseSrc n c k d o).uart = s.uart := (congrArg State.uart (State.raiseSrc_still s n c k d o) :)
@[simp] theorem State.raiseSrc_chan (n : Fin 128) (c : BitVec 16) (k : BitVec 2) (d : W32) (o : Bool) : (s.raiseSrc n c k d o).chan = s.chan := (congrArg State.chan (State.raiseSrc_still s n c k d o) :)
@[simp] theorem State.raiseSrc_eng (n : Fin 128) (c : BitVec 16) (k : BitVec 2) (d : W32) (o : Bool) : (s.raiseSrc n c k d o).eng = s.eng := (congrArg State.eng (State.raiseSrc_still s n c k d o) :)
@[simp] theorem State.raiseSrc_spire (n : Fin 128) (c : BitVec 16) (k : BitVec 2) (d : W32) (o : Bool) : (s.raiseSrc n c k d o).spire = s.spire := (congrArg State.spire (State.raiseSrc_still s n c k d o) :)
@[simp] theorem State.raiseSrc_arb (n : Fin 128) (c : BitVec 16) (k : BitVec 2) (d : W32) (o : Bool) : (s.raiseSrc n c k d o).arb = s.arb := (congrArg State.arb (State.raiseSrc_still s n c k d o) :)
@[simp] theorem State.raiseSrc_power (n : Fin 128) (c : BitVec 16) (k : BitVec 2) (d : W32) (o : Bool) : (s.raiseSrc n c k d o).power = s.power := (congrArg State.power (State.raiseSrc_still s n c k d o) :)
@[simp] theorem State.raiseSrc_est (n : Fin 128) (c : BitVec 16) (k : BitVec 2) (d : W32) (o : Bool) : (s.raiseSrc n c k d o).est = s.est := (congrArg State.est (State.raiseSrc_still s n c k d o) :)
@[simp] theorem State.raiseSrc_rail (n : Fin 128) (c : BitVec 16) (k : BitVec 2) (d : W32) (o : Bool) : (s.raiseSrc n c k d o).rail = s.rail := (congrArg State.rail (State.raiseSrc_still s n c k d o) :)
@[simp] theorem State.raiseSrc_seqr (n : Fin 128) (c : BitVec 16) (k : BitVec 2) (d : W32) (o : Bool) : (s.raiseSrc n c k d o).seqr = s.seqr := (congrArg State.seqr (State.raiseSrc_still s n c k d o) :)
@[simp] theorem State.raiseSrc_hk (n : Fin 128) (c : BitVec 16) (k : BitVec 2) (d : W32) (o : Bool) : (s.raiseSrc n c k d o).hk = s.hk := (congrArg State.hk (State.raiseSrc_still s n c k d o) :)
@[simp] theorem State.raiseSrc_die (n : Fin 128) (c : BitVec 16) (k : BitVec 2) (d : W32) (o : Bool) : (s.raiseSrc n c k d o).die = s.die := (congrArg State.die (State.raiseSrc_still s n c k d o) :)
@[simp] theorem State.raiseSrc_frz (n : Fin 128) (c : BitVec 16) (k : BitVec 2) (d : W32) (o : Bool) : (s.raiseSrc n c k d o).frz = s.frz := (congrArg State.frz (State.raiseSrc_still s n c k d o) :)
@[simp] theorem State.raiseSrc_dbg (n : Fin 128) (c : BitVec 16) (k : BitVec 2) (d : W32) (o : Bool) : (s.raiseSrc n c k d o).dbg = s.dbg := (congrArg State.dbg (State.raiseSrc_still s n c k d o) :)
@[simp] theorem State.raiseSrc_otp (n : Fin 128) (c : BitVec 16) (k : BitVec 2) (d : W32) (o : Bool) : (s.raiseSrc n c k d o).otp = s.otp := (congrArg State.otp (State.raiseSrc_still s n c k d o) :)
@[simp] theorem State.raiseSrc_tw (n : Fin 128) (c : BitVec 16) (k : BitVec 2) (d : W32) (o : Bool) : (s.raiseSrc n c k d o).tw = s.tw := (congrArg State.tw (State.raiseSrc_still s n c k d o) :)
@[simp] theorem State.raiseSrc_keepWrites (n : Fin 128) (c : BitVec 16) (k : BitVec 2) (d : W32) (o : Bool) : (s.raiseSrc n c k d o).keepWrites = s.keepWrites := (congrArg State.keepWrites (State.raiseSrc_still s n c k d o) :)
@[simp] theorem State.raiseSrc_pace (n : Fin 128) (c : BitVec 16) (k : BitVec 2) (d : W32) (o : Bool) : (s.raiseSrc n c k d o).pace = s.pace := (congrArg State.pace (State.raiseSrc_still s n c k d o) :)
@[simp] theorem State.raiseSrc_free (n : Fin 128) (c : BitVec 16) (k : BitVec 2) (d : W32) (o : Bool) : (s.raiseSrc n c k d o).free = s.free := (congrArg State.free (State.raiseSrc_still s n c k d o) :)
@[simp] theorem State.raiseSrc_mode_mode (n : Fin 128) (c : BitVec 16) (k : BitVec 2) (d : W32) (o : Bool) : (s.raiseSrc n c k d o).mode.mode = s.mode.mode := (congrArg (fun x : State => x.mode.mode) (State.raiseSrc_still s n c k d o) :)
@[simp] theorem State.raiseSrc_mode_frozen (n : Fin 128) (c : BitVec 16) (k : BitVec 2) (d : W32) (o : Bool) : (s.raiseSrc n c k d o).mode.frozen = s.mode.frozen := (congrArg (fun x : State => x.mode.frozen) (State.raiseSrc_still s n c k d o) :)
@[simp] theorem State.raiseSrc_mode_fault (n : Fin 128) (c : BitVec 16) (k : BitVec 2) (d : W32) (o : Bool) : (s.raiseSrc n c k d o).mode.fault = s.mode.fault := (congrArg (fun x : State => x.mode.fault) (State.raiseSrc_still s n c k d o) :)
@[simp] theorem State.raiseSrc_mode_restricted (n : Fin 128) (c : BitVec 16) (k : BitVec 2) (d : W32) (o : Bool) : (s.raiseSrc n c k d o).mode.restricted = s.mode.restricted := (congrArg (fun x : State => x.mode.restricted) (State.raiseSrc_still s n c k d o) :)
@[simp] theorem State.raiseSrc_mode_bootStep (n : Fin 128) (c : BitVec 16) (k : BitVec 2) (d : W32) (o : Bool) : (s.raiseSrc n c k d o).mode.bootStep = s.mode.bootStep := (congrArg (fun x : State => x.mode.bootStep) (State.raiseSrc_still s n c k d o) :)
@[simp] theorem State.raiseSrc_mode_starting (n : Fin 128) (c : BitVec 16) (k : BitVec 2) (d : W32) (o : Bool) : (s.raiseSrc n c k d o).mode.starting = s.mode.starting := (congrArg (fun x : State => x.mode.starting) (State.raiseSrc_still s n c k d o) :)
@[simp] theorem State.raiseSrc_mode_move (n : Fin 128) (c : BitVec 16) (k : BitVec 2) (d : W32) (o : Bool) : (s.raiseSrc n c k d o).mode.move = s.mode.move := (congrArg (fun x : State => x.mode.move) (State.raiseSrc_still s n c k d o) :)
@[simp] theorem State.raiseSrc_mode_entryTick (n : Fin 128) (c : BitVec 16) (k : BitVec 2) (d : W32) (o : Bool) : (s.raiseSrc n c k d o).mode.entryTick = s.mode.entryTick := (congrArg (fun x : State => x.mode.entryTick) (State.raiseSrc_still s n c k d o) :)
@[simp] theorem State.raiseSrc_mode_keyoffFrom (n : Fin 128) (c : BitVec 16) (k : BitVec 2) (d : W32) (o : Bool) : (s.raiseSrc n c k d o).mode.keyoffFrom = s.mode.keyoffFrom := (congrArg (fun x : State => x.mode.keyoffFrom) (State.raiseSrc_still s n c k d o) :)
@[simp] theorem State.raiseSrc_mode_keyoffWait (n : Fin 128) (c : BitVec 16) (k : BitVec 2) (d : W32) (o : Bool) : (s.raiseSrc n c k d o).mode.keyoffWait = s.mode.keyoffWait := (congrArg (fun x : State => x.mode.keyoffWait) (State.raiseSrc_still s n c k d o) :)
@[simp] theorem State.raiseSrc_mode_resetCause (n : Fin 128) (c : BitVec 16) (k : BitVec 2) (d : W32) (o : Bool) : (s.raiseSrc n c k d o).mode.resetCause = s.mode.resetCause := (congrArg (fun x : State => x.mode.resetCause) (State.raiseSrc_still s n c k d o) :)
@[simp] theorem State.raiseSrc_mode_rwlLocked (n : Fin 128) (c : BitVec 16) (k : BitVec 2) (d : W32) (o : Bool) : (s.raiseSrc n c k d o).mode.rwlLocked = s.mode.rwlLocked := (congrArg (fun x : State => x.mode.rwlLocked) (State.raiseSrc_still s n c k d o) :)
@[simp] theorem State.raiseSrc_mode_resetWait (n : Fin 128) (c : BitVec 16) (k : BitVec 2) (d : W32) (o : Bool) : (s.raiseSrc n c k d o).mode.resetWait = s.mode.resetWait := (congrArg (fun x : State => x.mode.resetWait) (State.raiseSrc_still s n c k d o) :)
@[simp] theorem State.raiseSrc_mode_pendingReset (n : Fin 128) (c : BitVec 16) (k : BitVec 2) (d : W32) (o : Bool) : (s.raiseSrc n c k d o).mode.pendingReset = s.mode.pendingReset := (congrArg (fun x : State => x.mode.pendingReset) (State.raiseSrc_still s n c k d o) :)
@[simp] theorem State.raiseSrc_mode_heldReset (n : Fin 128) (c : BitVec 16) (k : BitVec 2) (d : W32) (o : Bool) : (s.raiseSrc n c k d o).mode.heldReset = s.mode.heldReset := (congrArg (fun x : State => x.mode.heldReset) (State.raiseSrc_still s n c k d o) :)
@[simp] theorem State.raiseSrc_mode_fastSince (n : Fin 128) (c : BitVec 16) (k : BitVec 2) (d : W32) (o : Bool) : (s.raiseSrc n c k d o).mode.fastSince = s.mode.fastSince := (congrArg (fun x : State => x.mode.fastSince) (State.raiseSrc_still s n c k d o) :)
@[simp] theorem State.raiseSrc_mode_domeOn (n : Fin 128) (c : BitVec 16) (k : BitVec 2) (d : W32) (o : Bool) : (s.raiseSrc n c k d o).mode.domeOn = s.mode.domeOn := (congrArg (fun x : State => x.mode.domeOn) (State.raiseSrc_still s n c k d o) :)
@[simp] theorem State.raiseSrc_mode_domeRun (n : Fin 128) (c : BitVec 16) (k : BitVec 2) (d : W32) (o : Bool) : (s.raiseSrc n c k d o).mode.domeRun = s.mode.domeRun := (congrArg (fun x : State => x.mode.domeRun) (State.raiseSrc_still s n c k d o) :)
@[simp] theorem State.raiseSrc_mode_keep (n : Fin 128) (c : BitVec 16) (k : BitVec 2) (d : W32) (o : Bool) : (s.raiseSrc n c k d o).mode.keep = s.mode.keep := (congrArg (fun x : State => x.mode.keep) (State.raiseSrc_still s n c k d o) :)
@[simp] theorem State.raiseSrc_mode_keepPatched (n : Fin 128) (c : BitVec 16) (k : BitVec 2) (d : W32) (o : Bool) : (s.raiseSrc n c k d o).mode.keepPatched = s.mode.keepPatched := (congrArg (fun x : State => x.mode.keepPatched) (State.raiseSrc_still s n c k d o) :)
@[simp] theorem State.raiseSrc_mode_mismatchAt (n : Fin 128) (c : BitVec 16) (k : BitVec 2) (d : W32) (o : Bool) : (s.raiseSrc n c k d o).mode.mismatchAt = s.mode.mismatchAt := (congrArg (fun x : State => x.mode.mismatchAt) (State.raiseSrc_still s n c k d o) :)
@[simp] theorem State.raiseSrc_mode_patchPend (n : Fin 128) (c : BitVec 16) (k : BitVec 2) (d : W32) (o : Bool) : (s.raiseSrc n c k d o).mode.patchPend = s.mode.patchPend := (congrArg (fun x : State => x.mode.patchPend) (State.raiseSrc_still s n c k d o) :)
@[simp] theorem State.raiseSrc_mode_patchSwitch (n : Fin 128) (c : BitVec 16) (k : BitVec 2) (d : W32) (o : Bool) : (s.raiseSrc n c k d o).mode.patchSwitch = s.mode.patchSwitch := (congrArg (fun x : State => x.mode.patchSwitch) (State.raiseSrc_still s n c k d o) :)
@[simp] theorem State.raiseSrc_mode_afterReset (n : Fin 128) (c : BitVec 16) (k : BitVec 2) (d : W32) (o : Bool) : (s.raiseSrc n c k d o).mode.afterReset = s.mode.afterReset := (congrArg (fun x : State => x.mode.afterReset) (State.raiseSrc_still s n c k d o) :)
@[simp] theorem State.raiseSrc_mode_refLost (n : Fin 128) (c : BitVec 16) (k : BitVec 2) (d : W32) (o : Bool) : (s.raiseSrc n c k d o).mode.refLost = s.mode.refLost := (congrArg (fun x : State => x.mode.refLost) (State.raiseSrc_still s n c k d o) :)
@[simp] theorem State.raiseSrc_mode_moveFresh (n : Fin 128) (c : BitVec 16) (k : BitVec 2) (d : W32) (o : Bool) : (s.raiseSrc n c k d o).mode.moveFresh = s.mode.moveFresh := (congrArg (fun x : State => x.mode.moveFresh) (State.raiseSrc_still s n c k d o) :)
@[simp] theorem State.raiseSrc_mode_exitHeld (n : Fin 128) (c : BitVec 16) (k : BitVec 2) (d : W32) (o : Bool) : (s.raiseSrc n c k d o).mode.exitHeld = s.mode.exitHeld := (congrArg (fun x : State => x.mode.exitHeld) (State.raiseSrc_still s n c k d o) :)
@[simp] theorem State.raiseSrc_mode_straps (n : Fin 128) (c : BitVec 16) (k : BitVec 2) (d : W32) (o : Bool) : (s.raiseSrc n c k d o).mode.straps = s.mode.straps := (congrArg (fun x : State => x.mode.straps) (State.raiseSrc_still s n c k d o) :)
@[simp] theorem State.raiseSrc_mode_pins (n : Fin 128) (c : BitVec 16) (k : BitVec 2) (d : W32) (o : Bool) : (s.raiseSrc n c k d o).mode.pins = s.mode.pins := (congrArg (fun x : State => x.mode.pins) (State.raiseSrc_still s n c k d o) :)
@[simp] theorem State.raiseSrc_mode_roadLock (n : Fin 128) (c : BitVec 16) (k : BitVec 2) (d : W32) (o : Bool) : (s.raiseSrc n c k d o).mode.roadLock = s.mode.roadLock := (congrArg (fun x : State => x.mode.roadLock) (State.raiseSrc_still s n c k d o) :)
@[simp] theorem State.raiseSrc_hp_rings (n : Fin 128) (c : BitVec 16) (k : BitVec 2) (d : W32) (o : Bool) : (s.raiseSrc n c k d o).hp.rings = s.hp.rings := (congrArg (fun x : State => x.hp.rings) (State.raiseSrc_still s n c k d o) :)
@[simp] theorem State.raiseSrc_hp_lends (n : Fin 128) (c : BitVec 16) (k : BitVec 2) (d : W32) (o : Bool) : (s.raiseSrc n c k d o).hp.lends = s.hp.lends := (congrArg (fun x : State => x.hp.lends) (State.raiseSrc_still s n c k d o) :)
@[simp] theorem State.raiseSrc_hp_cq (n : Fin 128) (c : BitVec 16) (k : BitVec 2) (d : W32) (o : Bool) : (s.raiseSrc n c k d o).hp.cq = s.hp.cq := (congrArg (fun x : State => x.hp.cq) (State.raiseSrc_still s n c k d o) :)
@[simp] theorem State.raiseSrc_hp_lossTold (n : Fin 128) (c : BitVec 16) (k : BitVec 2) (d : W32) (o : Bool) : (s.raiseSrc n c k d o).hp.lossTold = s.hp.lossTold := (congrArg (fun x : State => x.hp.lossTold) (State.raiseSrc_still s n c k d o) :)
@[simp] theorem State.raiseSrc_hp_busMaster (n : Fin 128) (c : BitVec 16) (k : BitVec 2) (d : W32) (o : Bool) : (s.raiseSrc n c k d o).hp.busMaster = s.hp.busMaster := (congrArg (fun x : State => x.hp.busMaster) (State.raiseSrc_still s n c k d o) :)
@[simp] theorem State.raiseSrc_hp_d3hot (n : Fin 128) (c : BitVec 16) (k : BitVec 2) (d : W32) (o : Bool) : (s.raiseSrc n c k d o).hp.d3hot = s.hp.d3hot := (congrArg (fun x : State => x.hp.d3hot) (State.raiseSrc_still s n c k d o) :)
@[simp] theorem State.raiseSrc_hp_pci (n : Fin 128) (c : BitVec 16) (k : BitVec 2) (d : W32) (o : Bool) : (s.raiseSrc n c k d o).hp.pci = s.hp.pci := (congrArg (fun x : State => x.hp.pci) (State.raiseSrc_still s n c k d o) :)
@[simp] theorem State.raiseSrc_hp_aer (n : Fin 128) (c : BitVec 16) (k : BitVec 2) (d : W32) (o : Bool) : (s.raiseSrc n c k d o).hp.aer = s.hp.aer := (congrArg (fun x : State => x.hp.aer) (State.raiseSrc_still s n c k d o) :)
@[simp] theorem State.raiseSrc_hp_linkUp (n : Fin 128) (c : BitVec 16) (k : BitVec 2) (d : W32) (o : Bool) : (s.raiseSrc n c k d o).hp.linkUp = s.hp.linkUp := (congrArg (fun x : State => x.hp.linkUp) (State.raiseSrc_still s n c k d o) :)
@[simp] theorem State.raiseSrc_hp_speed (n : Fin 128) (c : BitVec 16) (k : BitVec 2) (d : W32) (o : Bool) : (s.raiseSrc n c k d o).hp.speed = s.hp.speed := (congrArg (fun x : State => x.hp.speed) (State.raiseSrc_still s n c k d o) :)
@[simp] theorem State.raiseSrc_hp_width (n : Fin 128) (c : BitVec 16) (k : BitVec 2) (d : W32) (o : Bool) : (s.raiseSrc n c k d o).hp.width = s.hp.width := (congrArg (fun x : State => x.hp.width) (State.raiseSrc_still s n c k d o) :)
@[simp] theorem State.raiseSrc_hp_msix (n : Fin 128) (c : BitVec 16) (k : BitVec 2) (d : W32) (o : Bool) : (s.raiseSrc n c k d o).hp.msix = s.hp.msix := (congrArg (fun x : State => x.hp.msix) (State.raiseSrc_still s n c k d o) :)
@[simp] theorem State.raiseSrc_hp_latched (n : Fin 128) (c : BitVec 16) (k : BitVec 2) (d : W32) (o : Bool) : (s.raiseSrc n c k d o).hp.latched = s.hp.latched := (congrArg (fun x : State => x.hp.latched) (State.raiseSrc_still s n c k d o) :)
@[simp] theorem State.raiseSrc_hp_latHost (n : Fin 128) (c : BitVec 16) (k : BitVec 2) (d : W32) (o : Bool) : (s.raiseSrc n c k d o).hp.latHost = s.hp.latHost := (congrArg (fun x : State => x.hp.latHost) (State.raiseSrc_still s n c k d o) :)
@[simp] theorem State.raiseSrc_hp_latTw (n : Fin 128) (c : BitVec 16) (k : BitVec 2) (d : W32) (o : Bool) : (s.raiseSrc n c k d o).hp.latTw = s.hp.latTw := (congrArg (fun x : State => x.hp.latTw) (State.raiseSrc_still s n c k d o) :)
@[simp] theorem State.raiseSrc_hp_latKeep (n : Fin 128) (c : BitVec 16) (k : BitVec 2) (d : W32) (o : Bool) : (s.raiseSrc n c k d o).hp.latKeep = s.hp.latKeep := (congrArg (fun x : State => x.hp.latKeep) (State.raiseSrc_still s n c k d o) :)
@[simp] theorem State.raiseSrc_hp_msixPend (n : Fin 128) (c : BitVec 16) (k : BitVec 2) (d : W32) (o : Bool) : (s.raiseSrc n c k d o).hp.msixPend = s.hp.msixPend := (congrArg (fun x : State => x.hp.msixPend) (State.raiseSrc_still s n c k d o) :)
@[simp] theorem State.raiseSrc_hp_sent (n : Fin 128) (c : BitVec 16) (k : BitVec 2) (d : W32) (o : Bool) : (s.raiseSrc n c k d o).hp.sent = s.hp.sent := (congrArg (fun x : State => x.hp.sent) (State.raiseSrc_still s n c k d o) :)
@[simp] theorem State.raiseSrc_rv_role (n : Fin 128) (c : BitVec 16) (k : BitVec 2) (d : W32) (o : Bool) : (s.raiseSrc n c k d o).rv.role = s.rv.role := (congrArg (fun x : State => x.rv.role) (State.raiseSrc_still s n c k d o) :)
@[simp] theorem State.raiseSrc_rv_portA (n : Fin 128) (c : BitVec 16) (k : BitVec 2) (d : W32) (o : Bool) : (s.raiseSrc n c k d o).rv.portA = s.rv.portA := (congrArg (fun x : State => x.rv.portA) (State.raiseSrc_still s n c k d o) :)
@[simp] theorem State.raiseSrc_rv_portB (n : Fin 128) (c : BitVec 16) (k : BitVec 2) (d : W32) (o : Bool) : (s.raiseSrc n c k d o).rv.portB = s.rv.portB := (congrArg (fun x : State => x.rv.portB) (State.raiseSrc_still s n c k d o) :)
@[simp] theorem State.raiseSrc_rv_wrapA (n : Fin 128) (c : BitVec 16) (k : BitVec 2) (d : W32) (o : Bool) : (s.raiseSrc n c k d o).rv.wrapA = s.rv.wrapA := (congrArg (fun x : State => x.rv.wrapA) (State.raiseSrc_still s n c k d o) :)
@[simp] theorem State.raiseSrc_rv_wrapB (n : Fin 128) (c : BitVec 16) (k : BitVec 2) (d : W32) (o : Bool) : (s.raiseSrc n c k d o).rv.wrapB = s.rv.wrapB := (congrArg (fun x : State => x.rv.wrapB) (State.raiseSrc_still s n c k d o) :)
@[simp] theorem State.raiseSrc_rv_pos (n : Fin 128) (c : BitVec 16) (k : BitVec 2) (d : W32) (o : Bool) : (s.raiseSrc n c k d o).rv.pos = s.rv.pos := (congrArg (fun x : State => x.rv.pos) (State.raiseSrc_still s n c k d o) :)
@[simp] theorem State.raiseSrc_rv_posCand (n : Fin 128) (c : BitVec 16) (k : BitVec 2) (d : W32) (o : Bool) : (s.raiseSrc n c k d o).rv.posCand = s.rv.posCand := (congrArg (fun x : State => x.rv.posCand) (State.raiseSrc_still s n c k d o) :)
@[simp] theorem State.raiseSrc_rv_posRun (n : Fin 128) (c : BitVec 16) (k : BitVec 2) (d : W32) (o : Bool) : (s.raiseSrc n c k d o).rv.posRun = s.rv.posRun := (congrArg (fun x : State => x.rv.posRun) (State.raiseSrc_still s n c k d o) :)
@[simp] theorem State.raiseSrc_rv_ringN (n : Fin 128) (c : BitVec 16) (k : BitVec 2) (d : W32) (o : Bool) : (s.raiseSrc n c k d o).rv.ringN = s.rv.ringN := (congrArg (fun x : State => x.rv.ringN) (State.raiseSrc_still s n c k d o) :)
@[simp] theorem State.raiseSrc_rv_headId (n : Fin 128) (c : BitVec 16) (k : BitVec 2) (d : W32) (o : Bool) : (s.raiseSrc n c k d o).rv.headId = s.rv.headId := (congrArg (fun x : State => x.rv.headId) (State.raiseSrc_still s n c k d o) :)
@[simp] theorem State.raiseSrc_rv_yielded (n : Fin 128) (c : BitVec 16) (k : BitVec 2) (d : W32) (o : Bool) : (s.raiseSrc n c k d o).rv.yielded = s.rv.yielded := (congrArg (fun x : State => x.rv.yielded) (State.raiseSrc_still s n c k d o) :)
@[simp] theorem State.raiseSrc_rv_fseq (n : Fin 128) (c : BitVec 16) (k : BitVec 2) (d : W32) (o : Bool) : (s.raiseSrc n c k d o).rv.fseq = s.rv.fseq := (congrArg (fun x : State => x.rv.fseq) (State.raiseSrc_still s n c k d o) :)
@[simp] theorem State.raiseSrc_rv_sentAt (n : Fin 128) (c : BitVec 16) (k : BitVec 2) (d : W32) (o : Bool) : (s.raiseSrc n c k d o).rv.sentAt = s.rv.sentAt := (congrArg (fun x : State => x.rv.sentAt) (State.raiseSrc_still s n c k d o) :)
@[simp] theorem State.raiseSrc_rv_loop (n : Fin 128) (c : BitVec 16) (k : BitVec 2) (d : W32) (o : Bool) : (s.raiseSrc n c k d o).rv.loop = s.rv.loop := (congrArg (fun x : State => x.rv.loop) (State.raiseSrc_still s n c k d o) :)
@[simp] theorem State.raiseSrc_rv_e (n : Fin 128) (c : BitVec 16) (k : BitVec 2) (d : W32) (o : Bool) : (s.raiseSrc n c k d o).rv.e = s.rv.e := (congrArg (fun x : State => x.rv.e) (State.raiseSrc_still s n c k d o) :)
@[simp] theorem State.raiseSrc_rv_d (n : Fin 128) (c : BitVec 16) (k : BitVec 2) (d : W32) (o : Bool) : (s.raiseSrc n c k d o).rv.d = s.rv.d := (congrArg (fun x : State => x.rv.d) (State.raiseSrc_still s n c k d o) :)
@[simp] theorem State.raiseSrc_rv_approx (n : Fin 128) (c : BitVec 16) (k : BitVec 2) (d : W32) (o : Bool) : (s.raiseSrc n c k d o).rv.approx = s.rv.approx := (congrArg (fun x : State => x.rv.approx) (State.raiseSrc_still s n c k d o) :)
@[simp] theorem State.raiseSrc_rv_offset (n : Fin 128) (c : BitVec 16) (k : BitVec 2) (d : W32) (o : Bool) : (s.raiseSrc n c k d o).rv.offset = s.rv.offset := (congrArg (fun x : State => x.rv.offset) (State.raiseSrc_still s n c k d o) :)
@[simp] theorem State.raiseSrc_rv_trim (n : Fin 128) (c : BitVec 16) (k : BitVec 2) (d : W32) (o : Bool) : (s.raiseSrc n c k d o).rv.trim = s.rv.trim := (congrArg (fun x : State => x.rv.trim) (State.raiseSrc_still s n c k d o) :)
@[simp] theorem State.raiseSrc_rv_accepts (n : Fin 128) (c : BitVec 16) (k : BitVec 2) (d : W32) (o : Bool) : (s.raiseSrc n c k d o).rv.accepts = s.rv.accepts := (congrArg (fun x : State => x.rv.accepts) (State.raiseSrc_still s n c k d o) :)
@[simp] theorem State.raiseSrc_rv_fresh (n : Fin 128) (c : BitVec 16) (k : BitVec 2) (d : W32) (o : Bool) : (s.raiseSrc n c k d o).rv.fresh = s.rv.fresh := (congrArg (fun x : State => x.rv.fresh) (State.raiseSrc_still s n c k d o) :)
@[simp] theorem State.raiseSrc_rv_joined (n : Fin 128) (c : BitVec 16) (k : BitVec 2) (d : W32) (o : Bool) : (s.raiseSrc n c k d o).rv.joined = s.rv.joined := (congrArg (fun x : State => x.rv.joined) (State.raiseSrc_still s n c k d o) :)
@[simp] theorem State.raiseSrc_rv_locked (n : Fin 128) (c : BitVec 16) (k : BitVec 2) (d : W32) (o : Bool) : (s.raiseSrc n c k d o).rv.locked = s.rv.locked := (congrArg (fun x : State => x.rv.locked) (State.raiseSrc_still s n c k d o) :)
@[simp] theorem State.raiseSrc_rv_inRun (n : Fin 128) (c : BitVec 16) (k : BitVec 2) (d : W32) (o : Bool) : (s.raiseSrc n c k d o).rv.inRun = s.rv.inRun := (congrArg (fun x : State => x.rv.inRun) (State.raiseSrc_still s n c k d o) :)
@[simp] theorem State.raiseSrc_rv_outRun (n : Fin 128) (c : BitVec 16) (k : BitVec 2) (d : W32) (o : Bool) : (s.raiseSrc n c k d o).rv.outRun = s.rv.outRun := (congrArg (fun x : State => x.rv.outRun) (State.raiseSrc_still s n c k d o) :)
@[simp] theorem State.raiseSrc_rv_lastTick (n : Fin 128) (c : BitVec 16) (k : BitVec 2) (d : W32) (o : Bool) : (s.raiseSrc n c k d o).rv.lastTick = s.rv.lastTick := (congrArg (fun x : State => x.rv.lastTick) (State.raiseSrc_still s n c k d o) :)
@[simp] theorem State.raiseSrc_rv_lastSeen (n : Fin 128) (c : BitVec 16) (k : BitVec 2) (d : W32) (o : Bool) : (s.raiseSrc n c k d o).rv.lastSeen = s.rv.lastSeen := (congrArg (fun x : State => x.rv.lastSeen) (State.raiseSrc_still s n c k d o) :)
@[simp] theorem State.raiseSrc_rv_hopBad (n : Fin 128) (c : BitVec 16) (k : BitVec 2) (d : W32) (o : Bool) : (s.raiseSrc n c k d o).rv.hopBad = s.rv.hopBad := (congrArg (fun x : State => x.rv.hopBad) (State.raiseSrc_still s n c k d o) :)
@[simp] theorem State.raiseSrc_rv_heldTold (n : Fin 128) (c : BitVec 16) (k : BitVec 2) (d : W32) (o : Bool) : (s.raiseSrc n c k d o).rv.heldTold = s.rv.heldTold := (congrArg (fun x : State => x.rv.heldTold) (State.raiseSrc_still s n c k d o) :)
@[simp] theorem State.raiseSrc_rv_lostTold (n : Fin 128) (c : BitVec 16) (k : BitVec 2) (d : W32) (o : Bool) : (s.raiseSrc n c k d o).rv.lostTold = s.rv.lostTold := (congrArg (fun x : State => x.rv.lostTold) (State.raiseSrc_still s n c k d o) :)
@[simp] theorem State.raiseSrc_rv_rebase (n : Fin 128) (c : BitVec 16) (k : BitVec 2) (d : W32) (o : Bool) : (s.raiseSrc n c k d o).rv.rebase = s.rv.rebase := (congrArg (fun x : State => x.rv.rebase) (State.raiseSrc_still s n c k d o) :)
@[simp] theorem State.raiseSrc_rv_tokRes (n : Fin 128) (c : BitVec 16) (k : BitVec 2) (d : W32) (o : Bool) : (s.raiseSrc n c k d o).rv.tokRes = s.rv.tokRes := (congrArg (fun x : State => x.rv.tokRes) (State.raiseSrc_still s n c k d o) :)
@[simp] theorem State.raiseSrc_rv_lastFrame (n : Fin 128) (c : BitVec 16) (k : BitVec 2) (d : W32) (o : Bool) : (s.raiseSrc n c k d o).rv.lastFrame = s.rv.lastFrame := (congrArg (fun x : State => x.rv.lastFrame) (State.raiseSrc_still s n c k d o) :)
@[simp] theorem State.raiseSrc_rv_seen (n : Fin 128) (c : BitVec 16) (k : BitVec 2) (d : W32) (o : Bool) : (s.raiseSrc n c k d o).rv.seen = s.rv.seen := (congrArg (fun x : State => x.rv.seen) (State.raiseSrc_still s n c k d o) :)
@[simp] theorem State.raiseSrc_rv_mailA (n : Fin 128) (c : BitVec 16) (k : BitVec 2) (d : W32) (o : Bool) : (s.raiseSrc n c k d o).rv.mailA = s.rv.mailA := (congrArg (fun x : State => x.rv.mailA) (State.raiseSrc_still s n c k d o) :)
@[simp] theorem State.raiseSrc_rv_mailB (n : Fin 128) (c : BitVec 16) (k : BitVec 2) (d : W32) (o : Bool) : (s.raiseSrc n c k d o).rv.mailB = s.rv.mailB := (congrArg (fun x : State => x.rv.mailB) (State.raiseSrc_still s n c k d o) :)
@[simp] theorem State.raiseSrc_rv_inbox (n : Fin 128) (c : BitVec 16) (k : BitVec 2) (d : W32) (o : Bool) : (s.raiseSrc n c k d o).rv.inbox = s.rv.inbox := (congrArg (fun x : State => x.rv.inbox) (State.raiseSrc_still s n c k d o) :)
@[simp] theorem State.raiseSrc_rv_recvs (n : Fin 128) (c : BitVec 16) (k : BitVec 2) (d : W32) (o : Bool) : (s.raiseSrc n c k d o).rv.recvs = s.rv.recvs := (congrArg (fun x : State => x.rv.recvs) (State.raiseSrc_still s n c k d o) :)
@[simp] theorem State.raiseSrc_ch (n : Fin 128) (c : BitVec 16) (k : BitVec 2) (d : W32) (o : Bool) (ch : Ch) : (s.raiseSrc n c k d o).ch ch = s.ch ch := by simp [State.ch]
@[simp] theorem State.raiseSrc_now (n : Fin 128) (c : BitVec 16) (k : BitVec 2) (d : W32) (o : Bool) : (s.raiseSrc n c k d o).now = s.now := by simp [State.now]
@[simp] theorem State.raiseSrc_clockOn (n : Fin 128) (c : BitVec 16) (k : BitVec 2) (d : W32) (o : Bool) : (s.raiseSrc n c k d o).clockOn = s.clockOn := by simp [State.clockOn]

/-! ### Fields that `State.raiseLimited` leaves alone -/

@[simp] theorem State.raiseLimited_pending (c : BitVec 16) (k : BitVec 2) (d : W32) (u i : Nat) : (s.raiseLimited c k d u i).pending = s.pending := (congrArg State.pending (State.raiseLimited_still s c k d u i) :)
@[simp] theorem State.raiseLimited_tick (c : BitVec 16) (k : BitVec 2) (d : W32) (u i : Nat) : (s.raiseLimited c k d u i).tick = s.tick := (congrArg State.tick (State.raiseLimited_still s c k d u i) :)
@[simp] theorem State.raiseLimited_units (c : BitVec 16) (k : BitVec 2) (d : W32) (u i : Nat) : (s.raiseLimited c k d u i).units = s.units := (congrArg State.units (State.raiseLimited_still s c k d u i) :)
@[simp] theorem State.raiseLimited_course (c : BitVec 16) (k : BitVec 2) (d : W32) (u i : Nat) : (s.raiseLimited c k d u i).course = s.course := (congrArg State.course (State.raiseLimited_still s c k d u i) :)
@[simp] theorem State.raiseLimited_uart (c : BitVec 16) (k : BitVec 2) (d : W32) (u i : Nat) : (s.raiseLimited c k d u i).uart = s.uart := (congrArg State.uart (State.raiseLimited_still s c k d u i) :)
@[simp] theorem State.raiseLimited_chan (c : BitVec 16) (k : BitVec 2) (d : W32) (u i : Nat) : (s.raiseLimited c k d u i).chan = s.chan := (congrArg State.chan (State.raiseLimited_still s c k d u i) :)
@[simp] theorem State.raiseLimited_eng (c : BitVec 16) (k : BitVec 2) (d : W32) (u i : Nat) : (s.raiseLimited c k d u i).eng = s.eng := (congrArg State.eng (State.raiseLimited_still s c k d u i) :)
@[simp] theorem State.raiseLimited_spire (c : BitVec 16) (k : BitVec 2) (d : W32) (u i : Nat) : (s.raiseLimited c k d u i).spire = s.spire := (congrArg State.spire (State.raiseLimited_still s c k d u i) :)
@[simp] theorem State.raiseLimited_arb (c : BitVec 16) (k : BitVec 2) (d : W32) (u i : Nat) : (s.raiseLimited c k d u i).arb = s.arb := (congrArg State.arb (State.raiseLimited_still s c k d u i) :)
@[simp] theorem State.raiseLimited_power (c : BitVec 16) (k : BitVec 2) (d : W32) (u i : Nat) : (s.raiseLimited c k d u i).power = s.power := (congrArg State.power (State.raiseLimited_still s c k d u i) :)
@[simp] theorem State.raiseLimited_est (c : BitVec 16) (k : BitVec 2) (d : W32) (u i : Nat) : (s.raiseLimited c k d u i).est = s.est := (congrArg State.est (State.raiseLimited_still s c k d u i) :)
@[simp] theorem State.raiseLimited_rail (c : BitVec 16) (k : BitVec 2) (d : W32) (u i : Nat) : (s.raiseLimited c k d u i).rail = s.rail := (congrArg State.rail (State.raiseLimited_still s c k d u i) :)
@[simp] theorem State.raiseLimited_seqr (c : BitVec 16) (k : BitVec 2) (d : W32) (u i : Nat) : (s.raiseLimited c k d u i).seqr = s.seqr := (congrArg State.seqr (State.raiseLimited_still s c k d u i) :)
@[simp] theorem State.raiseLimited_hk (c : BitVec 16) (k : BitVec 2) (d : W32) (u i : Nat) : (s.raiseLimited c k d u i).hk = s.hk := (congrArg State.hk (State.raiseLimited_still s c k d u i) :)
@[simp] theorem State.raiseLimited_die (c : BitVec 16) (k : BitVec 2) (d : W32) (u i : Nat) : (s.raiseLimited c k d u i).die = s.die := (congrArg State.die (State.raiseLimited_still s c k d u i) :)
@[simp] theorem State.raiseLimited_frz (c : BitVec 16) (k : BitVec 2) (d : W32) (u i : Nat) : (s.raiseLimited c k d u i).frz = s.frz := (congrArg State.frz (State.raiseLimited_still s c k d u i) :)
@[simp] theorem State.raiseLimited_dbg (c : BitVec 16) (k : BitVec 2) (d : W32) (u i : Nat) : (s.raiseLimited c k d u i).dbg = s.dbg := (congrArg State.dbg (State.raiseLimited_still s c k d u i) :)
@[simp] theorem State.raiseLimited_otp (c : BitVec 16) (k : BitVec 2) (d : W32) (u i : Nat) : (s.raiseLimited c k d u i).otp = s.otp := (congrArg State.otp (State.raiseLimited_still s c k d u i) :)
@[simp] theorem State.raiseLimited_tw (c : BitVec 16) (k : BitVec 2) (d : W32) (u i : Nat) : (s.raiseLimited c k d u i).tw = s.tw := (congrArg State.tw (State.raiseLimited_still s c k d u i) :)
@[simp] theorem State.raiseLimited_keepWrites (c : BitVec 16) (k : BitVec 2) (d : W32) (u i : Nat) : (s.raiseLimited c k d u i).keepWrites = s.keepWrites := (congrArg State.keepWrites (State.raiseLimited_still s c k d u i) :)
@[simp] theorem State.raiseLimited_pace (c : BitVec 16) (k : BitVec 2) (d : W32) (u i : Nat) : (s.raiseLimited c k d u i).pace = s.pace := (congrArg State.pace (State.raiseLimited_still s c k d u i) :)
@[simp] theorem State.raiseLimited_free (c : BitVec 16) (k : BitVec 2) (d : W32) (u i : Nat) : (s.raiseLimited c k d u i).free = s.free := (congrArg State.free (State.raiseLimited_still s c k d u i) :)
@[simp] theorem State.raiseLimited_mode_mode (c : BitVec 16) (k : BitVec 2) (d : W32) (u i : Nat) : (s.raiseLimited c k d u i).mode.mode = s.mode.mode := (congrArg (fun x : State => x.mode.mode) (State.raiseLimited_still s c k d u i) :)
@[simp] theorem State.raiseLimited_mode_frozen (c : BitVec 16) (k : BitVec 2) (d : W32) (u i : Nat) : (s.raiseLimited c k d u i).mode.frozen = s.mode.frozen := (congrArg (fun x : State => x.mode.frozen) (State.raiseLimited_still s c k d u i) :)
@[simp] theorem State.raiseLimited_mode_fault (c : BitVec 16) (k : BitVec 2) (d : W32) (u i : Nat) : (s.raiseLimited c k d u i).mode.fault = s.mode.fault := (congrArg (fun x : State => x.mode.fault) (State.raiseLimited_still s c k d u i) :)
@[simp] theorem State.raiseLimited_mode_restricted (c : BitVec 16) (k : BitVec 2) (d : W32) (u i : Nat) : (s.raiseLimited c k d u i).mode.restricted = s.mode.restricted := (congrArg (fun x : State => x.mode.restricted) (State.raiseLimited_still s c k d u i) :)
@[simp] theorem State.raiseLimited_mode_bootStep (c : BitVec 16) (k : BitVec 2) (d : W32) (u i : Nat) : (s.raiseLimited c k d u i).mode.bootStep = s.mode.bootStep := (congrArg (fun x : State => x.mode.bootStep) (State.raiseLimited_still s c k d u i) :)
@[simp] theorem State.raiseLimited_mode_starting (c : BitVec 16) (k : BitVec 2) (d : W32) (u i : Nat) : (s.raiseLimited c k d u i).mode.starting = s.mode.starting := (congrArg (fun x : State => x.mode.starting) (State.raiseLimited_still s c k d u i) :)
@[simp] theorem State.raiseLimited_mode_move (c : BitVec 16) (k : BitVec 2) (d : W32) (u i : Nat) : (s.raiseLimited c k d u i).mode.move = s.mode.move := (congrArg (fun x : State => x.mode.move) (State.raiseLimited_still s c k d u i) :)
@[simp] theorem State.raiseLimited_mode_entryTick (c : BitVec 16) (k : BitVec 2) (d : W32) (u i : Nat) : (s.raiseLimited c k d u i).mode.entryTick = s.mode.entryTick := (congrArg (fun x : State => x.mode.entryTick) (State.raiseLimited_still s c k d u i) :)
@[simp] theorem State.raiseLimited_mode_keyoffFrom (c : BitVec 16) (k : BitVec 2) (d : W32) (u i : Nat) : (s.raiseLimited c k d u i).mode.keyoffFrom = s.mode.keyoffFrom := (congrArg (fun x : State => x.mode.keyoffFrom) (State.raiseLimited_still s c k d u i) :)
@[simp] theorem State.raiseLimited_mode_keyoffWait (c : BitVec 16) (k : BitVec 2) (d : W32) (u i : Nat) : (s.raiseLimited c k d u i).mode.keyoffWait = s.mode.keyoffWait := (congrArg (fun x : State => x.mode.keyoffWait) (State.raiseLimited_still s c k d u i) :)
@[simp] theorem State.raiseLimited_mode_resetCause (c : BitVec 16) (k : BitVec 2) (d : W32) (u i : Nat) : (s.raiseLimited c k d u i).mode.resetCause = s.mode.resetCause := (congrArg (fun x : State => x.mode.resetCause) (State.raiseLimited_still s c k d u i) :)
@[simp] theorem State.raiseLimited_mode_rwlLocked (c : BitVec 16) (k : BitVec 2) (d : W32) (u i : Nat) : (s.raiseLimited c k d u i).mode.rwlLocked = s.mode.rwlLocked := (congrArg (fun x : State => x.mode.rwlLocked) (State.raiseLimited_still s c k d u i) :)
@[simp] theorem State.raiseLimited_mode_resetWait (c : BitVec 16) (k : BitVec 2) (d : W32) (u i : Nat) : (s.raiseLimited c k d u i).mode.resetWait = s.mode.resetWait := (congrArg (fun x : State => x.mode.resetWait) (State.raiseLimited_still s c k d u i) :)
@[simp] theorem State.raiseLimited_mode_pendingReset (c : BitVec 16) (k : BitVec 2) (d : W32) (u i : Nat) : (s.raiseLimited c k d u i).mode.pendingReset = s.mode.pendingReset := (congrArg (fun x : State => x.mode.pendingReset) (State.raiseLimited_still s c k d u i) :)
@[simp] theorem State.raiseLimited_mode_heldReset (c : BitVec 16) (k : BitVec 2) (d : W32) (u i : Nat) : (s.raiseLimited c k d u i).mode.heldReset = s.mode.heldReset := (congrArg (fun x : State => x.mode.heldReset) (State.raiseLimited_still s c k d u i) :)
@[simp] theorem State.raiseLimited_mode_fastSince (c : BitVec 16) (k : BitVec 2) (d : W32) (u i : Nat) : (s.raiseLimited c k d u i).mode.fastSince = s.mode.fastSince := (congrArg (fun x : State => x.mode.fastSince) (State.raiseLimited_still s c k d u i) :)
@[simp] theorem State.raiseLimited_mode_domeOn (c : BitVec 16) (k : BitVec 2) (d : W32) (u i : Nat) : (s.raiseLimited c k d u i).mode.domeOn = s.mode.domeOn := (congrArg (fun x : State => x.mode.domeOn) (State.raiseLimited_still s c k d u i) :)
@[simp] theorem State.raiseLimited_mode_domeRun (c : BitVec 16) (k : BitVec 2) (d : W32) (u i : Nat) : (s.raiseLimited c k d u i).mode.domeRun = s.mode.domeRun := (congrArg (fun x : State => x.mode.domeRun) (State.raiseLimited_still s c k d u i) :)
@[simp] theorem State.raiseLimited_mode_keep (c : BitVec 16) (k : BitVec 2) (d : W32) (u i : Nat) : (s.raiseLimited c k d u i).mode.keep = s.mode.keep := (congrArg (fun x : State => x.mode.keep) (State.raiseLimited_still s c k d u i) :)
@[simp] theorem State.raiseLimited_mode_keepPatched (c : BitVec 16) (k : BitVec 2) (d : W32) (u i : Nat) : (s.raiseLimited c k d u i).mode.keepPatched = s.mode.keepPatched := (congrArg (fun x : State => x.mode.keepPatched) (State.raiseLimited_still s c k d u i) :)
@[simp] theorem State.raiseLimited_mode_mismatchAt (c : BitVec 16) (k : BitVec 2) (d : W32) (u i : Nat) : (s.raiseLimited c k d u i).mode.mismatchAt = s.mode.mismatchAt := (congrArg (fun x : State => x.mode.mismatchAt) (State.raiseLimited_still s c k d u i) :)
@[simp] theorem State.raiseLimited_mode_patchPend (c : BitVec 16) (k : BitVec 2) (d : W32) (u i : Nat) : (s.raiseLimited c k d u i).mode.patchPend = s.mode.patchPend := (congrArg (fun x : State => x.mode.patchPend) (State.raiseLimited_still s c k d u i) :)
@[simp] theorem State.raiseLimited_mode_patchSwitch (c : BitVec 16) (k : BitVec 2) (d : W32) (u i : Nat) : (s.raiseLimited c k d u i).mode.patchSwitch = s.mode.patchSwitch := (congrArg (fun x : State => x.mode.patchSwitch) (State.raiseLimited_still s c k d u i) :)
@[simp] theorem State.raiseLimited_mode_afterReset (c : BitVec 16) (k : BitVec 2) (d : W32) (u i : Nat) : (s.raiseLimited c k d u i).mode.afterReset = s.mode.afterReset := (congrArg (fun x : State => x.mode.afterReset) (State.raiseLimited_still s c k d u i) :)
@[simp] theorem State.raiseLimited_mode_refLost (c : BitVec 16) (k : BitVec 2) (d : W32) (u i : Nat) : (s.raiseLimited c k d u i).mode.refLost = s.mode.refLost := (congrArg (fun x : State => x.mode.refLost) (State.raiseLimited_still s c k d u i) :)
@[simp] theorem State.raiseLimited_mode_moveFresh (c : BitVec 16) (k : BitVec 2) (d : W32) (u i : Nat) : (s.raiseLimited c k d u i).mode.moveFresh = s.mode.moveFresh := (congrArg (fun x : State => x.mode.moveFresh) (State.raiseLimited_still s c k d u i) :)
@[simp] theorem State.raiseLimited_mode_exitHeld (c : BitVec 16) (k : BitVec 2) (d : W32) (u i : Nat) : (s.raiseLimited c k d u i).mode.exitHeld = s.mode.exitHeld := (congrArg (fun x : State => x.mode.exitHeld) (State.raiseLimited_still s c k d u i) :)
@[simp] theorem State.raiseLimited_mode_straps (c : BitVec 16) (k : BitVec 2) (d : W32) (u i : Nat) : (s.raiseLimited c k d u i).mode.straps = s.mode.straps := (congrArg (fun x : State => x.mode.straps) (State.raiseLimited_still s c k d u i) :)
@[simp] theorem State.raiseLimited_mode_pins (c : BitVec 16) (k : BitVec 2) (d : W32) (u i : Nat) : (s.raiseLimited c k d u i).mode.pins = s.mode.pins := (congrArg (fun x : State => x.mode.pins) (State.raiseLimited_still s c k d u i) :)
@[simp] theorem State.raiseLimited_mode_roadLock (c : BitVec 16) (k : BitVec 2) (d : W32) (u i : Nat) : (s.raiseLimited c k d u i).mode.roadLock = s.mode.roadLock := (congrArg (fun x : State => x.mode.roadLock) (State.raiseLimited_still s c k d u i) :)
@[simp] theorem State.raiseLimited_hp_rings (c : BitVec 16) (k : BitVec 2) (d : W32) (u i : Nat) : (s.raiseLimited c k d u i).hp.rings = s.hp.rings := (congrArg (fun x : State => x.hp.rings) (State.raiseLimited_still s c k d u i) :)
@[simp] theorem State.raiseLimited_hp_lends (c : BitVec 16) (k : BitVec 2) (d : W32) (u i : Nat) : (s.raiseLimited c k d u i).hp.lends = s.hp.lends := (congrArg (fun x : State => x.hp.lends) (State.raiseLimited_still s c k d u i) :)
@[simp] theorem State.raiseLimited_hp_cq (c : BitVec 16) (k : BitVec 2) (d : W32) (u i : Nat) : (s.raiseLimited c k d u i).hp.cq = s.hp.cq := (congrArg (fun x : State => x.hp.cq) (State.raiseLimited_still s c k d u i) :)
@[simp] theorem State.raiseLimited_hp_lossTold (c : BitVec 16) (k : BitVec 2) (d : W32) (u i : Nat) : (s.raiseLimited c k d u i).hp.lossTold = s.hp.lossTold := (congrArg (fun x : State => x.hp.lossTold) (State.raiseLimited_still s c k d u i) :)
@[simp] theorem State.raiseLimited_hp_busMaster (c : BitVec 16) (k : BitVec 2) (d : W32) (u i : Nat) : (s.raiseLimited c k d u i).hp.busMaster = s.hp.busMaster := (congrArg (fun x : State => x.hp.busMaster) (State.raiseLimited_still s c k d u i) :)
@[simp] theorem State.raiseLimited_hp_d3hot (c : BitVec 16) (k : BitVec 2) (d : W32) (u i : Nat) : (s.raiseLimited c k d u i).hp.d3hot = s.hp.d3hot := (congrArg (fun x : State => x.hp.d3hot) (State.raiseLimited_still s c k d u i) :)
@[simp] theorem State.raiseLimited_hp_pci (c : BitVec 16) (k : BitVec 2) (d : W32) (u i : Nat) : (s.raiseLimited c k d u i).hp.pci = s.hp.pci := (congrArg (fun x : State => x.hp.pci) (State.raiseLimited_still s c k d u i) :)
@[simp] theorem State.raiseLimited_hp_aer (c : BitVec 16) (k : BitVec 2) (d : W32) (u i : Nat) : (s.raiseLimited c k d u i).hp.aer = s.hp.aer := (congrArg (fun x : State => x.hp.aer) (State.raiseLimited_still s c k d u i) :)
@[simp] theorem State.raiseLimited_hp_linkUp (c : BitVec 16) (k : BitVec 2) (d : W32) (u i : Nat) : (s.raiseLimited c k d u i).hp.linkUp = s.hp.linkUp := (congrArg (fun x : State => x.hp.linkUp) (State.raiseLimited_still s c k d u i) :)
@[simp] theorem State.raiseLimited_hp_speed (c : BitVec 16) (k : BitVec 2) (d : W32) (u i : Nat) : (s.raiseLimited c k d u i).hp.speed = s.hp.speed := (congrArg (fun x : State => x.hp.speed) (State.raiseLimited_still s c k d u i) :)
@[simp] theorem State.raiseLimited_hp_width (c : BitVec 16) (k : BitVec 2) (d : W32) (u i : Nat) : (s.raiseLimited c k d u i).hp.width = s.hp.width := (congrArg (fun x : State => x.hp.width) (State.raiseLimited_still s c k d u i) :)
@[simp] theorem State.raiseLimited_hp_msix (c : BitVec 16) (k : BitVec 2) (d : W32) (u i : Nat) : (s.raiseLimited c k d u i).hp.msix = s.hp.msix := (congrArg (fun x : State => x.hp.msix) (State.raiseLimited_still s c k d u i) :)
@[simp] theorem State.raiseLimited_hp_latched (c : BitVec 16) (k : BitVec 2) (d : W32) (u i : Nat) : (s.raiseLimited c k d u i).hp.latched = s.hp.latched := (congrArg (fun x : State => x.hp.latched) (State.raiseLimited_still s c k d u i) :)
@[simp] theorem State.raiseLimited_hp_latHost (c : BitVec 16) (k : BitVec 2) (d : W32) (u i : Nat) : (s.raiseLimited c k d u i).hp.latHost = s.hp.latHost := (congrArg (fun x : State => x.hp.latHost) (State.raiseLimited_still s c k d u i) :)
@[simp] theorem State.raiseLimited_hp_latTw (c : BitVec 16) (k : BitVec 2) (d : W32) (u i : Nat) : (s.raiseLimited c k d u i).hp.latTw = s.hp.latTw := (congrArg (fun x : State => x.hp.latTw) (State.raiseLimited_still s c k d u i) :)
@[simp] theorem State.raiseLimited_hp_latKeep (c : BitVec 16) (k : BitVec 2) (d : W32) (u i : Nat) : (s.raiseLimited c k d u i).hp.latKeep = s.hp.latKeep := (congrArg (fun x : State => x.hp.latKeep) (State.raiseLimited_still s c k d u i) :)
@[simp] theorem State.raiseLimited_hp_msixPend (c : BitVec 16) (k : BitVec 2) (d : W32) (u i : Nat) : (s.raiseLimited c k d u i).hp.msixPend = s.hp.msixPend := (congrArg (fun x : State => x.hp.msixPend) (State.raiseLimited_still s c k d u i) :)
@[simp] theorem State.raiseLimited_hp_sent (c : BitVec 16) (k : BitVec 2) (d : W32) (u i : Nat) : (s.raiseLimited c k d u i).hp.sent = s.hp.sent := (congrArg (fun x : State => x.hp.sent) (State.raiseLimited_still s c k d u i) :)
@[simp] theorem State.raiseLimited_rv_role (c : BitVec 16) (k : BitVec 2) (d : W32) (u i : Nat) : (s.raiseLimited c k d u i).rv.role = s.rv.role := (congrArg (fun x : State => x.rv.role) (State.raiseLimited_still s c k d u i) :)
@[simp] theorem State.raiseLimited_rv_portA (c : BitVec 16) (k : BitVec 2) (d : W32) (u i : Nat) : (s.raiseLimited c k d u i).rv.portA = s.rv.portA := (congrArg (fun x : State => x.rv.portA) (State.raiseLimited_still s c k d u i) :)
@[simp] theorem State.raiseLimited_rv_portB (c : BitVec 16) (k : BitVec 2) (d : W32) (u i : Nat) : (s.raiseLimited c k d u i).rv.portB = s.rv.portB := (congrArg (fun x : State => x.rv.portB) (State.raiseLimited_still s c k d u i) :)
@[simp] theorem State.raiseLimited_rv_wrapA (c : BitVec 16) (k : BitVec 2) (d : W32) (u i : Nat) : (s.raiseLimited c k d u i).rv.wrapA = s.rv.wrapA := (congrArg (fun x : State => x.rv.wrapA) (State.raiseLimited_still s c k d u i) :)
@[simp] theorem State.raiseLimited_rv_wrapB (c : BitVec 16) (k : BitVec 2) (d : W32) (u i : Nat) : (s.raiseLimited c k d u i).rv.wrapB = s.rv.wrapB := (congrArg (fun x : State => x.rv.wrapB) (State.raiseLimited_still s c k d u i) :)
@[simp] theorem State.raiseLimited_rv_pos (c : BitVec 16) (k : BitVec 2) (d : W32) (u i : Nat) : (s.raiseLimited c k d u i).rv.pos = s.rv.pos := (congrArg (fun x : State => x.rv.pos) (State.raiseLimited_still s c k d u i) :)
@[simp] theorem State.raiseLimited_rv_posCand (c : BitVec 16) (k : BitVec 2) (d : W32) (u i : Nat) : (s.raiseLimited c k d u i).rv.posCand = s.rv.posCand := (congrArg (fun x : State => x.rv.posCand) (State.raiseLimited_still s c k d u i) :)
@[simp] theorem State.raiseLimited_rv_posRun (c : BitVec 16) (k : BitVec 2) (d : W32) (u i : Nat) : (s.raiseLimited c k d u i).rv.posRun = s.rv.posRun := (congrArg (fun x : State => x.rv.posRun) (State.raiseLimited_still s c k d u i) :)
@[simp] theorem State.raiseLimited_rv_ringN (c : BitVec 16) (k : BitVec 2) (d : W32) (u i : Nat) : (s.raiseLimited c k d u i).rv.ringN = s.rv.ringN := (congrArg (fun x : State => x.rv.ringN) (State.raiseLimited_still s c k d u i) :)
@[simp] theorem State.raiseLimited_rv_headId (c : BitVec 16) (k : BitVec 2) (d : W32) (u i : Nat) : (s.raiseLimited c k d u i).rv.headId = s.rv.headId := (congrArg (fun x : State => x.rv.headId) (State.raiseLimited_still s c k d u i) :)
@[simp] theorem State.raiseLimited_rv_yielded (c : BitVec 16) (k : BitVec 2) (d : W32) (u i : Nat) : (s.raiseLimited c k d u i).rv.yielded = s.rv.yielded := (congrArg (fun x : State => x.rv.yielded) (State.raiseLimited_still s c k d u i) :)
@[simp] theorem State.raiseLimited_rv_fseq (c : BitVec 16) (k : BitVec 2) (d : W32) (u i : Nat) : (s.raiseLimited c k d u i).rv.fseq = s.rv.fseq := (congrArg (fun x : State => x.rv.fseq) (State.raiseLimited_still s c k d u i) :)
@[simp] theorem State.raiseLimited_rv_sentAt (c : BitVec 16) (k : BitVec 2) (d : W32) (u i : Nat) : (s.raiseLimited c k d u i).rv.sentAt = s.rv.sentAt := (congrArg (fun x : State => x.rv.sentAt) (State.raiseLimited_still s c k d u i) :)
@[simp] theorem State.raiseLimited_rv_loop (c : BitVec 16) (k : BitVec 2) (d : W32) (u i : Nat) : (s.raiseLimited c k d u i).rv.loop = s.rv.loop := (congrArg (fun x : State => x.rv.loop) (State.raiseLimited_still s c k d u i) :)
@[simp] theorem State.raiseLimited_rv_e (c : BitVec 16) (k : BitVec 2) (d : W32) (u i : Nat) : (s.raiseLimited c k d u i).rv.e = s.rv.e := (congrArg (fun x : State => x.rv.e) (State.raiseLimited_still s c k d u i) :)
@[simp] theorem State.raiseLimited_rv_d (c : BitVec 16) (k : BitVec 2) (d : W32) (u i : Nat) : (s.raiseLimited c k d u i).rv.d = s.rv.d := (congrArg (fun x : State => x.rv.d) (State.raiseLimited_still s c k d u i) :)
@[simp] theorem State.raiseLimited_rv_approx (c : BitVec 16) (k : BitVec 2) (d : W32) (u i : Nat) : (s.raiseLimited c k d u i).rv.approx = s.rv.approx := (congrArg (fun x : State => x.rv.approx) (State.raiseLimited_still s c k d u i) :)
@[simp] theorem State.raiseLimited_rv_offset (c : BitVec 16) (k : BitVec 2) (d : W32) (u i : Nat) : (s.raiseLimited c k d u i).rv.offset = s.rv.offset := (congrArg (fun x : State => x.rv.offset) (State.raiseLimited_still s c k d u i) :)
@[simp] theorem State.raiseLimited_rv_trim (c : BitVec 16) (k : BitVec 2) (d : W32) (u i : Nat) : (s.raiseLimited c k d u i).rv.trim = s.rv.trim := (congrArg (fun x : State => x.rv.trim) (State.raiseLimited_still s c k d u i) :)
@[simp] theorem State.raiseLimited_rv_accepts (c : BitVec 16) (k : BitVec 2) (d : W32) (u i : Nat) : (s.raiseLimited c k d u i).rv.accepts = s.rv.accepts := (congrArg (fun x : State => x.rv.accepts) (State.raiseLimited_still s c k d u i) :)
@[simp] theorem State.raiseLimited_rv_fresh (c : BitVec 16) (k : BitVec 2) (d : W32) (u i : Nat) : (s.raiseLimited c k d u i).rv.fresh = s.rv.fresh := (congrArg (fun x : State => x.rv.fresh) (State.raiseLimited_still s c k d u i) :)
@[simp] theorem State.raiseLimited_rv_joined (c : BitVec 16) (k : BitVec 2) (d : W32) (u i : Nat) : (s.raiseLimited c k d u i).rv.joined = s.rv.joined := (congrArg (fun x : State => x.rv.joined) (State.raiseLimited_still s c k d u i) :)
@[simp] theorem State.raiseLimited_rv_locked (c : BitVec 16) (k : BitVec 2) (d : W32) (u i : Nat) : (s.raiseLimited c k d u i).rv.locked = s.rv.locked := (congrArg (fun x : State => x.rv.locked) (State.raiseLimited_still s c k d u i) :)
@[simp] theorem State.raiseLimited_rv_inRun (c : BitVec 16) (k : BitVec 2) (d : W32) (u i : Nat) : (s.raiseLimited c k d u i).rv.inRun = s.rv.inRun := (congrArg (fun x : State => x.rv.inRun) (State.raiseLimited_still s c k d u i) :)
@[simp] theorem State.raiseLimited_rv_outRun (c : BitVec 16) (k : BitVec 2) (d : W32) (u i : Nat) : (s.raiseLimited c k d u i).rv.outRun = s.rv.outRun := (congrArg (fun x : State => x.rv.outRun) (State.raiseLimited_still s c k d u i) :)
@[simp] theorem State.raiseLimited_rv_lastTick (c : BitVec 16) (k : BitVec 2) (d : W32) (u i : Nat) : (s.raiseLimited c k d u i).rv.lastTick = s.rv.lastTick := (congrArg (fun x : State => x.rv.lastTick) (State.raiseLimited_still s c k d u i) :)
@[simp] theorem State.raiseLimited_rv_lastSeen (c : BitVec 16) (k : BitVec 2) (d : W32) (u i : Nat) : (s.raiseLimited c k d u i).rv.lastSeen = s.rv.lastSeen := (congrArg (fun x : State => x.rv.lastSeen) (State.raiseLimited_still s c k d u i) :)
@[simp] theorem State.raiseLimited_rv_hopBad (c : BitVec 16) (k : BitVec 2) (d : W32) (u i : Nat) : (s.raiseLimited c k d u i).rv.hopBad = s.rv.hopBad := (congrArg (fun x : State => x.rv.hopBad) (State.raiseLimited_still s c k d u i) :)
@[simp] theorem State.raiseLimited_rv_heldTold (c : BitVec 16) (k : BitVec 2) (d : W32) (u i : Nat) : (s.raiseLimited c k d u i).rv.heldTold = s.rv.heldTold := (congrArg (fun x : State => x.rv.heldTold) (State.raiseLimited_still s c k d u i) :)
@[simp] theorem State.raiseLimited_rv_lostTold (c : BitVec 16) (k : BitVec 2) (d : W32) (u i : Nat) : (s.raiseLimited c k d u i).rv.lostTold = s.rv.lostTold := (congrArg (fun x : State => x.rv.lostTold) (State.raiseLimited_still s c k d u i) :)
@[simp] theorem State.raiseLimited_rv_rebase (c : BitVec 16) (k : BitVec 2) (d : W32) (u i : Nat) : (s.raiseLimited c k d u i).rv.rebase = s.rv.rebase := (congrArg (fun x : State => x.rv.rebase) (State.raiseLimited_still s c k d u i) :)
@[simp] theorem State.raiseLimited_rv_tokRes (c : BitVec 16) (k : BitVec 2) (d : W32) (u i : Nat) : (s.raiseLimited c k d u i).rv.tokRes = s.rv.tokRes := (congrArg (fun x : State => x.rv.tokRes) (State.raiseLimited_still s c k d u i) :)
@[simp] theorem State.raiseLimited_rv_lastFrame (c : BitVec 16) (k : BitVec 2) (d : W32) (u i : Nat) : (s.raiseLimited c k d u i).rv.lastFrame = s.rv.lastFrame := (congrArg (fun x : State => x.rv.lastFrame) (State.raiseLimited_still s c k d u i) :)
@[simp] theorem State.raiseLimited_rv_seen (c : BitVec 16) (k : BitVec 2) (d : W32) (u i : Nat) : (s.raiseLimited c k d u i).rv.seen = s.rv.seen := (congrArg (fun x : State => x.rv.seen) (State.raiseLimited_still s c k d u i) :)
@[simp] theorem State.raiseLimited_rv_mailA (c : BitVec 16) (k : BitVec 2) (d : W32) (u i : Nat) : (s.raiseLimited c k d u i).rv.mailA = s.rv.mailA := (congrArg (fun x : State => x.rv.mailA) (State.raiseLimited_still s c k d u i) :)
@[simp] theorem State.raiseLimited_rv_mailB (c : BitVec 16) (k : BitVec 2) (d : W32) (u i : Nat) : (s.raiseLimited c k d u i).rv.mailB = s.rv.mailB := (congrArg (fun x : State => x.rv.mailB) (State.raiseLimited_still s c k d u i) :)
@[simp] theorem State.raiseLimited_rv_inbox (c : BitVec 16) (k : BitVec 2) (d : W32) (u i : Nat) : (s.raiseLimited c k d u i).rv.inbox = s.rv.inbox := (congrArg (fun x : State => x.rv.inbox) (State.raiseLimited_still s c k d u i) :)
@[simp] theorem State.raiseLimited_rv_recvs (c : BitVec 16) (k : BitVec 2) (d : W32) (u i : Nat) : (s.raiseLimited c k d u i).rv.recvs = s.rv.recvs := (congrArg (fun x : State => x.rv.recvs) (State.raiseLimited_still s c k d u i) :)
@[simp] theorem State.raiseLimited_ch (c : BitVec 16) (k : BitVec 2) (d : W32) (u i : Nat) (ch : Ch) : (s.raiseLimited c k d u i).ch ch = s.ch ch := by simp [State.ch]
@[simp] theorem State.raiseLimited_now (c : BitVec 16) (k : BitVec 2) (d : W32) (u i : Nat) : (s.raiseLimited c k d u i).now = s.now := by simp [State.now]
@[simp] theorem State.raiseLimited_clockOn (c : BitVec 16) (k : BitVec 2) (d : W32) (u i : Nat) : (s.raiseLimited c k d u i).clockOn = s.clockOn := by simp [State.clockOn]

/-! ### Fields that `State.siltPush` leaves alone -/

@[simp] theorem State.siltPush_pending (t : Byte) (k : BitVec 2) (c : BitVec 16) (p : List Byte) : (s.siltPush t k c p).pending = s.pending := (congrArg State.pending (State.siltPush_still s t k c p) :)
@[simp] theorem State.siltPush_tick (t : Byte) (k : BitVec 2) (c : BitVec 16) (p : List Byte) : (s.siltPush t k c p).tick = s.tick := (congrArg State.tick (State.siltPush_still s t k c p) :)
@[simp] theorem State.siltPush_units (t : Byte) (k : BitVec 2) (c : BitVec 16) (p : List Byte) : (s.siltPush t k c p).units = s.units := (congrArg State.units (State.siltPush_still s t k c p) :)
@[simp] theorem State.siltPush_course (t : Byte) (k : BitVec 2) (c : BitVec 16) (p : List Byte) : (s.siltPush t k c p).course = s.course := (congrArg State.course (State.siltPush_still s t k c p) :)
@[simp] theorem State.siltPush_uart (t : Byte) (k : BitVec 2) (c : BitVec 16) (p : List Byte) : (s.siltPush t k c p).uart = s.uart := (congrArg State.uart (State.siltPush_still s t k c p) :)
@[simp] theorem State.siltPush_chan (t : Byte) (k : BitVec 2) (c : BitVec 16) (p : List Byte) : (s.siltPush t k c p).chan = s.chan := (congrArg State.chan (State.siltPush_still s t k c p) :)
@[simp] theorem State.siltPush_eng (t : Byte) (k : BitVec 2) (c : BitVec 16) (p : List Byte) : (s.siltPush t k c p).eng = s.eng := (congrArg State.eng (State.siltPush_still s t k c p) :)
@[simp] theorem State.siltPush_spire (t : Byte) (k : BitVec 2) (c : BitVec 16) (p : List Byte) : (s.siltPush t k c p).spire = s.spire := (congrArg State.spire (State.siltPush_still s t k c p) :)
@[simp] theorem State.siltPush_arb (t : Byte) (k : BitVec 2) (c : BitVec 16) (p : List Byte) : (s.siltPush t k c p).arb = s.arb := (congrArg State.arb (State.siltPush_still s t k c p) :)
@[simp] theorem State.siltPush_power (t : Byte) (k : BitVec 2) (c : BitVec 16) (p : List Byte) : (s.siltPush t k c p).power = s.power := (congrArg State.power (State.siltPush_still s t k c p) :)
@[simp] theorem State.siltPush_est (t : Byte) (k : BitVec 2) (c : BitVec 16) (p : List Byte) : (s.siltPush t k c p).est = s.est := (congrArg State.est (State.siltPush_still s t k c p) :)
@[simp] theorem State.siltPush_rail (t : Byte) (k : BitVec 2) (c : BitVec 16) (p : List Byte) : (s.siltPush t k c p).rail = s.rail := (congrArg State.rail (State.siltPush_still s t k c p) :)
@[simp] theorem State.siltPush_seqr (t : Byte) (k : BitVec 2) (c : BitVec 16) (p : List Byte) : (s.siltPush t k c p).seqr = s.seqr := (congrArg State.seqr (State.siltPush_still s t k c p) :)
@[simp] theorem State.siltPush_hk (t : Byte) (k : BitVec 2) (c : BitVec 16) (p : List Byte) : (s.siltPush t k c p).hk = s.hk := (congrArg State.hk (State.siltPush_still s t k c p) :)
@[simp] theorem State.siltPush_die (t : Byte) (k : BitVec 2) (c : BitVec 16) (p : List Byte) : (s.siltPush t k c p).die = s.die := (congrArg State.die (State.siltPush_still s t k c p) :)
@[simp] theorem State.siltPush_frz (t : Byte) (k : BitVec 2) (c : BitVec 16) (p : List Byte) : (s.siltPush t k c p).frz = s.frz := (congrArg State.frz (State.siltPush_still s t k c p) :)
@[simp] theorem State.siltPush_dbg (t : Byte) (k : BitVec 2) (c : BitVec 16) (p : List Byte) : (s.siltPush t k c p).dbg = s.dbg := (congrArg State.dbg (State.siltPush_still s t k c p) :)
@[simp] theorem State.siltPush_otp (t : Byte) (k : BitVec 2) (c : BitVec 16) (p : List Byte) : (s.siltPush t k c p).otp = s.otp := (congrArg State.otp (State.siltPush_still s t k c p) :)
@[simp] theorem State.siltPush_tw (t : Byte) (k : BitVec 2) (c : BitVec 16) (p : List Byte) : (s.siltPush t k c p).tw = s.tw := (congrArg State.tw (State.siltPush_still s t k c p) :)
@[simp] theorem State.siltPush_keepWrites (t : Byte) (k : BitVec 2) (c : BitVec 16) (p : List Byte) : (s.siltPush t k c p).keepWrites = s.keepWrites := (congrArg State.keepWrites (State.siltPush_still s t k c p) :)
@[simp] theorem State.siltPush_pace (t : Byte) (k : BitVec 2) (c : BitVec 16) (p : List Byte) : (s.siltPush t k c p).pace = s.pace := (congrArg State.pace (State.siltPush_still s t k c p) :)
@[simp] theorem State.siltPush_free (t : Byte) (k : BitVec 2) (c : BitVec 16) (p : List Byte) : (s.siltPush t k c p).free = s.free := (congrArg State.free (State.siltPush_still s t k c p) :)
@[simp] theorem State.siltPush_mode_mode (t : Byte) (k : BitVec 2) (c : BitVec 16) (p : List Byte) : (s.siltPush t k c p).mode.mode = s.mode.mode := (congrArg (fun x : State => x.mode.mode) (State.siltPush_still s t k c p) :)
@[simp] theorem State.siltPush_mode_frozen (t : Byte) (k : BitVec 2) (c : BitVec 16) (p : List Byte) : (s.siltPush t k c p).mode.frozen = s.mode.frozen := (congrArg (fun x : State => x.mode.frozen) (State.siltPush_still s t k c p) :)
@[simp] theorem State.siltPush_mode_fault (t : Byte) (k : BitVec 2) (c : BitVec 16) (p : List Byte) : (s.siltPush t k c p).mode.fault = s.mode.fault := (congrArg (fun x : State => x.mode.fault) (State.siltPush_still s t k c p) :)
@[simp] theorem State.siltPush_mode_restricted (t : Byte) (k : BitVec 2) (c : BitVec 16) (p : List Byte) : (s.siltPush t k c p).mode.restricted = s.mode.restricted := (congrArg (fun x : State => x.mode.restricted) (State.siltPush_still s t k c p) :)
@[simp] theorem State.siltPush_mode_bootStep (t : Byte) (k : BitVec 2) (c : BitVec 16) (p : List Byte) : (s.siltPush t k c p).mode.bootStep = s.mode.bootStep := (congrArg (fun x : State => x.mode.bootStep) (State.siltPush_still s t k c p) :)
@[simp] theorem State.siltPush_mode_starting (t : Byte) (k : BitVec 2) (c : BitVec 16) (p : List Byte) : (s.siltPush t k c p).mode.starting = s.mode.starting := (congrArg (fun x : State => x.mode.starting) (State.siltPush_still s t k c p) :)
@[simp] theorem State.siltPush_mode_move (t : Byte) (k : BitVec 2) (c : BitVec 16) (p : List Byte) : (s.siltPush t k c p).mode.move = s.mode.move := (congrArg (fun x : State => x.mode.move) (State.siltPush_still s t k c p) :)
@[simp] theorem State.siltPush_mode_entryTick (t : Byte) (k : BitVec 2) (c : BitVec 16) (p : List Byte) : (s.siltPush t k c p).mode.entryTick = s.mode.entryTick := (congrArg (fun x : State => x.mode.entryTick) (State.siltPush_still s t k c p) :)
@[simp] theorem State.siltPush_mode_keyoffFrom (t : Byte) (k : BitVec 2) (c : BitVec 16) (p : List Byte) : (s.siltPush t k c p).mode.keyoffFrom = s.mode.keyoffFrom := (congrArg (fun x : State => x.mode.keyoffFrom) (State.siltPush_still s t k c p) :)
@[simp] theorem State.siltPush_mode_keyoffWait (t : Byte) (k : BitVec 2) (c : BitVec 16) (p : List Byte) : (s.siltPush t k c p).mode.keyoffWait = s.mode.keyoffWait := (congrArg (fun x : State => x.mode.keyoffWait) (State.siltPush_still s t k c p) :)
@[simp] theorem State.siltPush_mode_resetCause (t : Byte) (k : BitVec 2) (c : BitVec 16) (p : List Byte) : (s.siltPush t k c p).mode.resetCause = s.mode.resetCause := (congrArg (fun x : State => x.mode.resetCause) (State.siltPush_still s t k c p) :)
@[simp] theorem State.siltPush_mode_rwlLocked (t : Byte) (k : BitVec 2) (c : BitVec 16) (p : List Byte) : (s.siltPush t k c p).mode.rwlLocked = s.mode.rwlLocked := (congrArg (fun x : State => x.mode.rwlLocked) (State.siltPush_still s t k c p) :)
@[simp] theorem State.siltPush_mode_resetWait (t : Byte) (k : BitVec 2) (c : BitVec 16) (p : List Byte) : (s.siltPush t k c p).mode.resetWait = s.mode.resetWait := (congrArg (fun x : State => x.mode.resetWait) (State.siltPush_still s t k c p) :)
@[simp] theorem State.siltPush_mode_pendingReset (t : Byte) (k : BitVec 2) (c : BitVec 16) (p : List Byte) : (s.siltPush t k c p).mode.pendingReset = s.mode.pendingReset := (congrArg (fun x : State => x.mode.pendingReset) (State.siltPush_still s t k c p) :)
@[simp] theorem State.siltPush_mode_heldReset (t : Byte) (k : BitVec 2) (c : BitVec 16) (p : List Byte) : (s.siltPush t k c p).mode.heldReset = s.mode.heldReset := (congrArg (fun x : State => x.mode.heldReset) (State.siltPush_still s t k c p) :)
@[simp] theorem State.siltPush_mode_fastSince (t : Byte) (k : BitVec 2) (c : BitVec 16) (p : List Byte) : (s.siltPush t k c p).mode.fastSince = s.mode.fastSince := (congrArg (fun x : State => x.mode.fastSince) (State.siltPush_still s t k c p) :)
@[simp] theorem State.siltPush_mode_domeOn (t : Byte) (k : BitVec 2) (c : BitVec 16) (p : List Byte) : (s.siltPush t k c p).mode.domeOn = s.mode.domeOn := (congrArg (fun x : State => x.mode.domeOn) (State.siltPush_still s t k c p) :)
@[simp] theorem State.siltPush_mode_domeRun (t : Byte) (k : BitVec 2) (c : BitVec 16) (p : List Byte) : (s.siltPush t k c p).mode.domeRun = s.mode.domeRun := (congrArg (fun x : State => x.mode.domeRun) (State.siltPush_still s t k c p) :)
@[simp] theorem State.siltPush_mode_keep (t : Byte) (k : BitVec 2) (c : BitVec 16) (p : List Byte) : (s.siltPush t k c p).mode.keep = s.mode.keep := (congrArg (fun x : State => x.mode.keep) (State.siltPush_still s t k c p) :)
@[simp] theorem State.siltPush_mode_keepPatched (t : Byte) (k : BitVec 2) (c : BitVec 16) (p : List Byte) : (s.siltPush t k c p).mode.keepPatched = s.mode.keepPatched := (congrArg (fun x : State => x.mode.keepPatched) (State.siltPush_still s t k c p) :)
@[simp] theorem State.siltPush_mode_mismatchAt (t : Byte) (k : BitVec 2) (c : BitVec 16) (p : List Byte) : (s.siltPush t k c p).mode.mismatchAt = s.mode.mismatchAt := (congrArg (fun x : State => x.mode.mismatchAt) (State.siltPush_still s t k c p) :)
@[simp] theorem State.siltPush_mode_patchPend (t : Byte) (k : BitVec 2) (c : BitVec 16) (p : List Byte) : (s.siltPush t k c p).mode.patchPend = s.mode.patchPend := (congrArg (fun x : State => x.mode.patchPend) (State.siltPush_still s t k c p) :)
@[simp] theorem State.siltPush_mode_patchSwitch (t : Byte) (k : BitVec 2) (c : BitVec 16) (p : List Byte) : (s.siltPush t k c p).mode.patchSwitch = s.mode.patchSwitch := (congrArg (fun x : State => x.mode.patchSwitch) (State.siltPush_still s t k c p) :)
@[simp] theorem State.siltPush_mode_afterReset (t : Byte) (k : BitVec 2) (c : BitVec 16) (p : List Byte) : (s.siltPush t k c p).mode.afterReset = s.mode.afterReset := (congrArg (fun x : State => x.mode.afterReset) (State.siltPush_still s t k c p) :)
@[simp] theorem State.siltPush_mode_refLost (t : Byte) (k : BitVec 2) (c : BitVec 16) (p : List Byte) : (s.siltPush t k c p).mode.refLost = s.mode.refLost := (congrArg (fun x : State => x.mode.refLost) (State.siltPush_still s t k c p) :)
@[simp] theorem State.siltPush_mode_moveFresh (t : Byte) (k : BitVec 2) (c : BitVec 16) (p : List Byte) : (s.siltPush t k c p).mode.moveFresh = s.mode.moveFresh := (congrArg (fun x : State => x.mode.moveFresh) (State.siltPush_still s t k c p) :)
@[simp] theorem State.siltPush_mode_exitHeld (t : Byte) (k : BitVec 2) (c : BitVec 16) (p : List Byte) : (s.siltPush t k c p).mode.exitHeld = s.mode.exitHeld := (congrArg (fun x : State => x.mode.exitHeld) (State.siltPush_still s t k c p) :)
@[simp] theorem State.siltPush_mode_straps (t : Byte) (k : BitVec 2) (c : BitVec 16) (p : List Byte) : (s.siltPush t k c p).mode.straps = s.mode.straps := (congrArg (fun x : State => x.mode.straps) (State.siltPush_still s t k c p) :)
@[simp] theorem State.siltPush_mode_pins (t : Byte) (k : BitVec 2) (c : BitVec 16) (p : List Byte) : (s.siltPush t k c p).mode.pins = s.mode.pins := (congrArg (fun x : State => x.mode.pins) (State.siltPush_still s t k c p) :)
@[simp] theorem State.siltPush_mode_roadLock (t : Byte) (k : BitVec 2) (c : BitVec 16) (p : List Byte) : (s.siltPush t k c p).mode.roadLock = s.mode.roadLock := (congrArg (fun x : State => x.mode.roadLock) (State.siltPush_still s t k c p) :)
@[simp] theorem State.siltPush_hp_rings (t : Byte) (k : BitVec 2) (c : BitVec 16) (p : List Byte) : (s.siltPush t k c p).hp.rings = s.hp.rings := (congrArg (fun x : State => x.hp.rings) (State.siltPush_still s t k c p) :)
@[simp] theorem State.siltPush_hp_lends (t : Byte) (k : BitVec 2) (c : BitVec 16) (p : List Byte) : (s.siltPush t k c p).hp.lends = s.hp.lends := (congrArg (fun x : State => x.hp.lends) (State.siltPush_still s t k c p) :)
@[simp] theorem State.siltPush_hp_cq (t : Byte) (k : BitVec 2) (c : BitVec 16) (p : List Byte) : (s.siltPush t k c p).hp.cq = s.hp.cq := (congrArg (fun x : State => x.hp.cq) (State.siltPush_still s t k c p) :)
@[simp] theorem State.siltPush_hp_lossTold (t : Byte) (k : BitVec 2) (c : BitVec 16) (p : List Byte) : (s.siltPush t k c p).hp.lossTold = s.hp.lossTold := (congrArg (fun x : State => x.hp.lossTold) (State.siltPush_still s t k c p) :)
@[simp] theorem State.siltPush_hp_busMaster (t : Byte) (k : BitVec 2) (c : BitVec 16) (p : List Byte) : (s.siltPush t k c p).hp.busMaster = s.hp.busMaster := (congrArg (fun x : State => x.hp.busMaster) (State.siltPush_still s t k c p) :)
@[simp] theorem State.siltPush_hp_d3hot (t : Byte) (k : BitVec 2) (c : BitVec 16) (p : List Byte) : (s.siltPush t k c p).hp.d3hot = s.hp.d3hot := (congrArg (fun x : State => x.hp.d3hot) (State.siltPush_still s t k c p) :)
@[simp] theorem State.siltPush_hp_pci (t : Byte) (k : BitVec 2) (c : BitVec 16) (p : List Byte) : (s.siltPush t k c p).hp.pci = s.hp.pci := (congrArg (fun x : State => x.hp.pci) (State.siltPush_still s t k c p) :)
@[simp] theorem State.siltPush_hp_aer (t : Byte) (k : BitVec 2) (c : BitVec 16) (p : List Byte) : (s.siltPush t k c p).hp.aer = s.hp.aer := (congrArg (fun x : State => x.hp.aer) (State.siltPush_still s t k c p) :)
@[simp] theorem State.siltPush_hp_linkUp (t : Byte) (k : BitVec 2) (c : BitVec 16) (p : List Byte) : (s.siltPush t k c p).hp.linkUp = s.hp.linkUp := (congrArg (fun x : State => x.hp.linkUp) (State.siltPush_still s t k c p) :)
@[simp] theorem State.siltPush_hp_speed (t : Byte) (k : BitVec 2) (c : BitVec 16) (p : List Byte) : (s.siltPush t k c p).hp.speed = s.hp.speed := (congrArg (fun x : State => x.hp.speed) (State.siltPush_still s t k c p) :)
@[simp] theorem State.siltPush_hp_width (t : Byte) (k : BitVec 2) (c : BitVec 16) (p : List Byte) : (s.siltPush t k c p).hp.width = s.hp.width := (congrArg (fun x : State => x.hp.width) (State.siltPush_still s t k c p) :)
@[simp] theorem State.siltPush_hp_msix (t : Byte) (k : BitVec 2) (c : BitVec 16) (p : List Byte) : (s.siltPush t k c p).hp.msix = s.hp.msix := (congrArg (fun x : State => x.hp.msix) (State.siltPush_still s t k c p) :)
@[simp] theorem State.siltPush_hp_latched (t : Byte) (k : BitVec 2) (c : BitVec 16) (p : List Byte) : (s.siltPush t k c p).hp.latched = s.hp.latched := (congrArg (fun x : State => x.hp.latched) (State.siltPush_still s t k c p) :)
@[simp] theorem State.siltPush_hp_latHost (t : Byte) (k : BitVec 2) (c : BitVec 16) (p : List Byte) : (s.siltPush t k c p).hp.latHost = s.hp.latHost := (congrArg (fun x : State => x.hp.latHost) (State.siltPush_still s t k c p) :)
@[simp] theorem State.siltPush_hp_latTw (t : Byte) (k : BitVec 2) (c : BitVec 16) (p : List Byte) : (s.siltPush t k c p).hp.latTw = s.hp.latTw := (congrArg (fun x : State => x.hp.latTw) (State.siltPush_still s t k c p) :)
@[simp] theorem State.siltPush_hp_latKeep (t : Byte) (k : BitVec 2) (c : BitVec 16) (p : List Byte) : (s.siltPush t k c p).hp.latKeep = s.hp.latKeep := (congrArg (fun x : State => x.hp.latKeep) (State.siltPush_still s t k c p) :)
@[simp] theorem State.siltPush_hp_msixPend (t : Byte) (k : BitVec 2) (c : BitVec 16) (p : List Byte) : (s.siltPush t k c p).hp.msixPend = s.hp.msixPend := (congrArg (fun x : State => x.hp.msixPend) (State.siltPush_still s t k c p) :)
@[simp] theorem State.siltPush_hp_sent (t : Byte) (k : BitVec 2) (c : BitVec 16) (p : List Byte) : (s.siltPush t k c p).hp.sent = s.hp.sent := (congrArg (fun x : State => x.hp.sent) (State.siltPush_still s t k c p) :)
@[simp] theorem State.siltPush_rv_role (t : Byte) (k : BitVec 2) (c : BitVec 16) (p : List Byte) : (s.siltPush t k c p).rv.role = s.rv.role := (congrArg (fun x : State => x.rv.role) (State.siltPush_still s t k c p) :)
@[simp] theorem State.siltPush_rv_portA (t : Byte) (k : BitVec 2) (c : BitVec 16) (p : List Byte) : (s.siltPush t k c p).rv.portA = s.rv.portA := (congrArg (fun x : State => x.rv.portA) (State.siltPush_still s t k c p) :)
@[simp] theorem State.siltPush_rv_portB (t : Byte) (k : BitVec 2) (c : BitVec 16) (p : List Byte) : (s.siltPush t k c p).rv.portB = s.rv.portB := (congrArg (fun x : State => x.rv.portB) (State.siltPush_still s t k c p) :)
@[simp] theorem State.siltPush_rv_wrapA (t : Byte) (k : BitVec 2) (c : BitVec 16) (p : List Byte) : (s.siltPush t k c p).rv.wrapA = s.rv.wrapA := (congrArg (fun x : State => x.rv.wrapA) (State.siltPush_still s t k c p) :)
@[simp] theorem State.siltPush_rv_wrapB (t : Byte) (k : BitVec 2) (c : BitVec 16) (p : List Byte) : (s.siltPush t k c p).rv.wrapB = s.rv.wrapB := (congrArg (fun x : State => x.rv.wrapB) (State.siltPush_still s t k c p) :)
@[simp] theorem State.siltPush_rv_pos (t : Byte) (k : BitVec 2) (c : BitVec 16) (p : List Byte) : (s.siltPush t k c p).rv.pos = s.rv.pos := (congrArg (fun x : State => x.rv.pos) (State.siltPush_still s t k c p) :)
@[simp] theorem State.siltPush_rv_posCand (t : Byte) (k : BitVec 2) (c : BitVec 16) (p : List Byte) : (s.siltPush t k c p).rv.posCand = s.rv.posCand := (congrArg (fun x : State => x.rv.posCand) (State.siltPush_still s t k c p) :)
@[simp] theorem State.siltPush_rv_posRun (t : Byte) (k : BitVec 2) (c : BitVec 16) (p : List Byte) : (s.siltPush t k c p).rv.posRun = s.rv.posRun := (congrArg (fun x : State => x.rv.posRun) (State.siltPush_still s t k c p) :)
@[simp] theorem State.siltPush_rv_ringN (t : Byte) (k : BitVec 2) (c : BitVec 16) (p : List Byte) : (s.siltPush t k c p).rv.ringN = s.rv.ringN := (congrArg (fun x : State => x.rv.ringN) (State.siltPush_still s t k c p) :)
@[simp] theorem State.siltPush_rv_headId (t : Byte) (k : BitVec 2) (c : BitVec 16) (p : List Byte) : (s.siltPush t k c p).rv.headId = s.rv.headId := (congrArg (fun x : State => x.rv.headId) (State.siltPush_still s t k c p) :)
@[simp] theorem State.siltPush_rv_yielded (t : Byte) (k : BitVec 2) (c : BitVec 16) (p : List Byte) : (s.siltPush t k c p).rv.yielded = s.rv.yielded := (congrArg (fun x : State => x.rv.yielded) (State.siltPush_still s t k c p) :)
@[simp] theorem State.siltPush_rv_fseq (t : Byte) (k : BitVec 2) (c : BitVec 16) (p : List Byte) : (s.siltPush t k c p).rv.fseq = s.rv.fseq := (congrArg (fun x : State => x.rv.fseq) (State.siltPush_still s t k c p) :)
@[simp] theorem State.siltPush_rv_sentAt (t : Byte) (k : BitVec 2) (c : BitVec 16) (p : List Byte) : (s.siltPush t k c p).rv.sentAt = s.rv.sentAt := (congrArg (fun x : State => x.rv.sentAt) (State.siltPush_still s t k c p) :)
@[simp] theorem State.siltPush_rv_loop (t : Byte) (k : BitVec 2) (c : BitVec 16) (p : List Byte) : (s.siltPush t k c p).rv.loop = s.rv.loop := (congrArg (fun x : State => x.rv.loop) (State.siltPush_still s t k c p) :)
@[simp] theorem State.siltPush_rv_e (t : Byte) (k : BitVec 2) (c : BitVec 16) (p : List Byte) : (s.siltPush t k c p).rv.e = s.rv.e := (congrArg (fun x : State => x.rv.e) (State.siltPush_still s t k c p) :)
@[simp] theorem State.siltPush_rv_d (t : Byte) (k : BitVec 2) (c : BitVec 16) (p : List Byte) : (s.siltPush t k c p).rv.d = s.rv.d := (congrArg (fun x : State => x.rv.d) (State.siltPush_still s t k c p) :)
@[simp] theorem State.siltPush_rv_approx (t : Byte) (k : BitVec 2) (c : BitVec 16) (p : List Byte) : (s.siltPush t k c p).rv.approx = s.rv.approx := (congrArg (fun x : State => x.rv.approx) (State.siltPush_still s t k c p) :)
@[simp] theorem State.siltPush_rv_offset (t : Byte) (k : BitVec 2) (c : BitVec 16) (p : List Byte) : (s.siltPush t k c p).rv.offset = s.rv.offset := (congrArg (fun x : State => x.rv.offset) (State.siltPush_still s t k c p) :)
@[simp] theorem State.siltPush_rv_trim (t : Byte) (k : BitVec 2) (c : BitVec 16) (p : List Byte) : (s.siltPush t k c p).rv.trim = s.rv.trim := (congrArg (fun x : State => x.rv.trim) (State.siltPush_still s t k c p) :)
@[simp] theorem State.siltPush_rv_accepts (t : Byte) (k : BitVec 2) (c : BitVec 16) (p : List Byte) : (s.siltPush t k c p).rv.accepts = s.rv.accepts := (congrArg (fun x : State => x.rv.accepts) (State.siltPush_still s t k c p) :)
@[simp] theorem State.siltPush_rv_fresh (t : Byte) (k : BitVec 2) (c : BitVec 16) (p : List Byte) : (s.siltPush t k c p).rv.fresh = s.rv.fresh := (congrArg (fun x : State => x.rv.fresh) (State.siltPush_still s t k c p) :)
@[simp] theorem State.siltPush_rv_joined (t : Byte) (k : BitVec 2) (c : BitVec 16) (p : List Byte) : (s.siltPush t k c p).rv.joined = s.rv.joined := (congrArg (fun x : State => x.rv.joined) (State.siltPush_still s t k c p) :)
@[simp] theorem State.siltPush_rv_locked (t : Byte) (k : BitVec 2) (c : BitVec 16) (p : List Byte) : (s.siltPush t k c p).rv.locked = s.rv.locked := (congrArg (fun x : State => x.rv.locked) (State.siltPush_still s t k c p) :)
@[simp] theorem State.siltPush_rv_inRun (t : Byte) (k : BitVec 2) (c : BitVec 16) (p : List Byte) : (s.siltPush t k c p).rv.inRun = s.rv.inRun := (congrArg (fun x : State => x.rv.inRun) (State.siltPush_still s t k c p) :)
@[simp] theorem State.siltPush_rv_outRun (t : Byte) (k : BitVec 2) (c : BitVec 16) (p : List Byte) : (s.siltPush t k c p).rv.outRun = s.rv.outRun := (congrArg (fun x : State => x.rv.outRun) (State.siltPush_still s t k c p) :)
@[simp] theorem State.siltPush_rv_lastTick (t : Byte) (k : BitVec 2) (c : BitVec 16) (p : List Byte) : (s.siltPush t k c p).rv.lastTick = s.rv.lastTick := (congrArg (fun x : State => x.rv.lastTick) (State.siltPush_still s t k c p) :)
@[simp] theorem State.siltPush_rv_lastSeen (t : Byte) (k : BitVec 2) (c : BitVec 16) (p : List Byte) : (s.siltPush t k c p).rv.lastSeen = s.rv.lastSeen := (congrArg (fun x : State => x.rv.lastSeen) (State.siltPush_still s t k c p) :)
@[simp] theorem State.siltPush_rv_hopBad (t : Byte) (k : BitVec 2) (c : BitVec 16) (p : List Byte) : (s.siltPush t k c p).rv.hopBad = s.rv.hopBad := (congrArg (fun x : State => x.rv.hopBad) (State.siltPush_still s t k c p) :)
@[simp] theorem State.siltPush_rv_heldTold (t : Byte) (k : BitVec 2) (c : BitVec 16) (p : List Byte) : (s.siltPush t k c p).rv.heldTold = s.rv.heldTold := (congrArg (fun x : State => x.rv.heldTold) (State.siltPush_still s t k c p) :)
@[simp] theorem State.siltPush_rv_lostTold (t : Byte) (k : BitVec 2) (c : BitVec 16) (p : List Byte) : (s.siltPush t k c p).rv.lostTold = s.rv.lostTold := (congrArg (fun x : State => x.rv.lostTold) (State.siltPush_still s t k c p) :)
@[simp] theorem State.siltPush_rv_rebase (t : Byte) (k : BitVec 2) (c : BitVec 16) (p : List Byte) : (s.siltPush t k c p).rv.rebase = s.rv.rebase := (congrArg (fun x : State => x.rv.rebase) (State.siltPush_still s t k c p) :)
@[simp] theorem State.siltPush_rv_tokRes (t : Byte) (k : BitVec 2) (c : BitVec 16) (p : List Byte) : (s.siltPush t k c p).rv.tokRes = s.rv.tokRes := (congrArg (fun x : State => x.rv.tokRes) (State.siltPush_still s t k c p) :)
@[simp] theorem State.siltPush_rv_lastFrame (t : Byte) (k : BitVec 2) (c : BitVec 16) (p : List Byte) : (s.siltPush t k c p).rv.lastFrame = s.rv.lastFrame := (congrArg (fun x : State => x.rv.lastFrame) (State.siltPush_still s t k c p) :)
@[simp] theorem State.siltPush_rv_seen (t : Byte) (k : BitVec 2) (c : BitVec 16) (p : List Byte) : (s.siltPush t k c p).rv.seen = s.rv.seen := (congrArg (fun x : State => x.rv.seen) (State.siltPush_still s t k c p) :)
@[simp] theorem State.siltPush_rv_mailA (t : Byte) (k : BitVec 2) (c : BitVec 16) (p : List Byte) : (s.siltPush t k c p).rv.mailA = s.rv.mailA := (congrArg (fun x : State => x.rv.mailA) (State.siltPush_still s t k c p) :)
@[simp] theorem State.siltPush_rv_mailB (t : Byte) (k : BitVec 2) (c : BitVec 16) (p : List Byte) : (s.siltPush t k c p).rv.mailB = s.rv.mailB := (congrArg (fun x : State => x.rv.mailB) (State.siltPush_still s t k c p) :)
@[simp] theorem State.siltPush_rv_inbox (t : Byte) (k : BitVec 2) (c : BitVec 16) (p : List Byte) : (s.siltPush t k c p).rv.inbox = s.rv.inbox := (congrArg (fun x : State => x.rv.inbox) (State.siltPush_still s t k c p) :)
@[simp] theorem State.siltPush_rv_recvs (t : Byte) (k : BitVec 2) (c : BitVec 16) (p : List Byte) : (s.siltPush t k c p).rv.recvs = s.rv.recvs := (congrArg (fun x : State => x.rv.recvs) (State.siltPush_still s t k c p) :)
@[simp] theorem State.siltPush_ch (t : Byte) (k : BitVec 2) (c : BitVec 16) (p : List Byte) (ch : Ch) : (s.siltPush t k c p).ch ch = s.ch ch := by simp [State.ch]
@[simp] theorem State.siltPush_now (t : Byte) (k : BitVec 2) (c : BitVec 16) (p : List Byte) : (s.siltPush t k c p).now = s.now := by simp [State.now]
@[simp] theorem State.siltPush_clockOn (t : Byte) (k : BitVec 2) (c : BitVec 16) (p : List Byte) : (s.siltPush t k c p).clockOn = s.clockOn := by simp [State.clockOn]

/-! ### What an event stores -/

/-- Registers that an event and its class actions may write. -/
def eventRegs : List Nat :=
  [R.HP_EVT_LOST, R.FLT_ERR_CTRL_LOW.addr, R.FLT_STAT_DEGRADED.addr, R.FLT_CNT_F0.addr, R.FLT_CNT_F1.addr,
   R.FLT_CNT_F2.addr, R.FLT_CNT_F3.addr, R.FLT_ERR_CTRL_PULSES.addr, R.SILT_CNT_DROPPED.addr, R.SILT_CNT_SUPPRESSED.addr]

@[simp] theorem State.siltStart_reg (a : Nat) : s.siltStart.reg a = s.reg a := by
  unfold State.siltStart; repeat' split
  all_goals rfl

theorem State.siltPush_reg (t : Byte) (k : BitVec 2) (c : BitVec 16) (p : List Byte) (a : Nat) (h : a ∉ eventRegs) :
    (s.siltPush t k c p).reg a = s.reg a := by
  simp only [eventRegs, List.mem_cons, not_or] at h
  unfold State.siltPush; dsimp only; repeat' split
  all_goals simp [State.reg_count_other, h]

theorem State.storeEvent_reg (e : Evt) (a : Nat) (h : a ∉ eventRegs) : (s.storeEvent e).reg a = s.reg a := by
  simp only [eventRegs, List.mem_cons, not_or] at h
  unfold State.storeEvent; dsimp only; repeat' split
  all_goals simp [State.reg_countReg_other, h]

theorem State.errPulse_reg (a : Nat) (h : a ∉ eventRegs) : s.errPulse.reg a = s.reg a := by
  simp only [eventRegs, List.mem_cons, not_or] at h
  have he (t : State) (x : FaultSt) : ({ t with flt := x } : State).reg a = t.reg a := rfl
  unfold State.errPulse; dsimp only; rw [he]; split <;>
    simp [State.reg_count_other, State.reg_putFlag_other, h]

theorem State.classCount_reg (k : BitVec 2) (a : Nat) (h : a ∉ eventRegs) : (s.classCount k).reg a = s.reg a := by
  simp only [eventRegs, List.mem_cons, not_or] at h
  unfold State.classCount; split <;> simp [State.reg_count_other, h]

theorem State.f2Record_reg (c : BitVec 16) (p : List Byte) (a : Nat) (h : a ∉ eventRegs) :
    (s.f2Record c p).reg a = s.reg a := by
  have h' := h
  simp only [eventRegs, List.mem_cons, not_or] at h'
  unfold State.f2Record; repeat' split
  all_goals simp [State.siltPush_reg _ _ _ _ _ _ h, State.reg_count_other, h']

@[simp] theorem State.notice_reg (c : BitVec 16) (k : BitVec 2) (d : W32) (a : Nat) : (s.notice c k d).reg a = s.reg a := by
  unfold State.notice State.sendNotice; repeat' split
  all_goals rfl

/-- An event writes no register but the counters of `eventRegs`. -/
theorem State.raiseWith_reg (c : BitVec 16) (k : BitVec 2) (d : W32) (o : RaiseOpt) (a : Nat) (h : a ∉ eventRegs) :
    (s.raiseWith c k d o).reg a = s.reg a := by
  have h' := h
  simp only [eventRegs, List.mem_cons, not_or] at h'
  unfold State.raiseWith; dsimp only
  rw [State.notice_reg]
  repeat' split
  all_goals simp [State.siltPush_reg _ _ _ _ _ _ h, State.f2Record_reg _ _ _ _ h, State.errPulse_reg _ _ h,
    State.storeEvent_reg _ _ _ h, State.classCount_reg _ _ _ h, State.reg_putFlag_other, h']

theorem State.raise_reg (c : BitVec 16) (k : BitVec 2) (d : W32) (a : Nat) (h : a ∉ eventRegs) :
    (s.raise c k d).reg a = s.reg a := State.raiseWith_reg s c k d {} a h

theorem State.raiseSrc_reg (n : Fin 128) (c : BitVec 16) (k : BitVec 2) (d : W32) (o : Bool) (a : Nat) (h : a ∉ eventRegs) :
    (s.raiseSrc n c k d o).reg a = s.reg a := by
  unfold State.raiseSrc; dsimp only; split
  · rfl
  · rw [State.raiseWith_reg _ _ _ _ _ _ h]; rfl

theorem State.raiseLimited_reg (c : BitVec 16) (k : BitVec 2) (d : W32) (u i a : Nat) (h : a ∉ eventRegs) :
    (s.raiseLimited c k d u i).reg a = s.reg a := by
  unfold State.raiseLimited; split
  · rw [State.raise_reg _ _ _ _ _ h]; rfl
  · rfl

/-- A field of a register that no event writes. -/
theorem State.raise_get (c : BitVec 16) (k : BitVec 2) (d : W32) (f : Fld) (h : f.addr ∉ eventRegs) :
    (s.raise c k d).get f = s.get f := by simp [State.get, State.raise_reg _ _ _ _ _ h]

theorem State.raise_flag (c : BitVec 16) (k : BitVec 2) (d : W32) (f : Fld) (h : f.addr ∉ eventRegs) :
    (s.raise c k d).flag f = s.flag f := by simp [State.flag, State.raise_get _ _ _ _ _ h]

@[simp] theorem State.siltStart_hp : s.siltStart.hp = s.hp := by
  unfold State.siltStart; repeat' split
  all_goals rfl

@[simp] theorem State.siltPush_hp (t : Byte) (k : BitVec 2) (c : BitVec 16) (p : List Byte) : (s.siltPush t k c p).hp = s.hp := by
  unfold State.siltPush; dsimp only; repeat' split
  all_goals simp

@[simp] theorem State.f2Record_hp (c : BitVec 16) (p : List Byte) : (s.f2Record c p).hp = s.hp := by
  unfold State.f2Record; repeat' split
  all_goals simp

@[simp] theorem State.notice_hp (c : BitVec 16) (k : BitVec 2) (d : W32) : (s.notice c k d).hp = s.hp := by
  unfold State.notice State.sendNotice; repeat' split
  all_goals rfl

@[simp] theorem State.classCount_hp (k : BitVec 2) : (s.classCount k).hp = s.hp := by
  unfold State.classCount; split <;> rfl

@[simp] theorem State.errPulse_hp : s.errPulse.hp = s.hp := by
  unfold State.errPulse; dsimp only; split <;> rfl

/-- An event of class F1 to F3, or of F0 while F0 entries are enabled, is stored last while the store has room (R286). -/
theorem State.raiseWith_events (c : BitVec 16) (k : BitVec 2) (d : W32) (o : RaiseOpt) (hr : s.hp.events.length < 256)
    (hk : k ≠ 0 ∨ s.flag R.HP_EVT_CFG_F0_EN = true) :
    (s.raiseWith c k d o).hp.events = s.hp.events ++ [⟨s.tick.now, d, c, k⟩] := by
  have hf : (s.classCount k).flag R.HP_EVT_CFG_F0_EN = s.flag R.HP_EVT_CFG_F0_EN := by
    simp only [State.flag, State.get, State.classCount_reg s k R.HP_EVT_CFG_F0_EN.addr (by decide)]
  have ht : (s.classCount k).tick = s.tick := (congrArg State.tick (State.classCount_still s k) :)
  have hs (t : State) (e : Evt) (h : t.hp.events.length < 256) : (t.storeEvent e).hp.events = t.hp.events ++ [e] := by
    simp [State.storeEvent, h]
  have hc : (k ≠ 0 || (s.classCount k).flag R.HP_EVT_CFG_F0_EN) = true := by
    rcases hk with h | h
    · simp only [Bool.or_eq_true, decide_eq_true_eq]; exact .inl h
    · simp [hf, h]
  have he : ((s.classCount k).storeEvent ⟨(s.classCount k).tick.now, d, c, k⟩).hp.events =
      s.hp.events ++ [⟨s.tick.now, d, c, k⟩] := by
    rw [hs _ _ (by simpa using hr), ht]; simp
  unfold State.raiseWith; dsimp only
  rw [State.notice_hp]
  simp only [hc, if_true]
  repeat' split
  all_goals simpa using he

theorem State.raise_events (c : BitVec 16) (k : BitVec 2) (d : W32) (hr : s.hp.events.length < 256)
    (hk : k ≠ 0 ∨ s.flag R.HP_EVT_CFG_F0_EN = true) :
    (s.raise c k d).hp.events = s.hp.events ++ [⟨s.tick.now, d, c, k⟩] := State.raiseWith_events s c k d {} hr hk

end Sys2Proof.Machine
end

