-- ==== Sys2Proof/Laws/Engine.lean ====
section
/-! SUPPORT. Engine instructions: what the frame of every instruction answers, and the registers of an engine after a write. -/

set_option Elab.async false

namespace Sys2Proof.Machine

/-! ### Registers of an engine (R140) -/

@[simp] theorem Engine.getG_zero (x : Engine) : x.getG 0 = 0 := rfl

/-- A register after a write: g0 reads 0 and a write to it is discarded. -/
theorem Engine.getG_setG (x : Engine) (d r : GReg) (v : W32) :
    (x.setG d v).getG r = if r = 0 then 0 else if r = d then v else x.getG r := by
  unfold Engine.getG Engine.setG
  by_cases hr : r = 0
  · simp [hr]
  · by_cases hd : d = 0
    · have : ¬ r = d := fun h => hr (h.trans hd)
      simp [hr, hd]
    · by_cases h : r = d
      · subst h; simp [hd]
      · have h' : ¬ d.val = r.val := fun x => h (Fin.ext x.symm)
        simp [hd, hr, h, h']

@[simp] theorem Engine.setG_acc (x : Engine) (d : GReg) (v : W32) : (x.setG d v).acc = x.acc := by
  unfold Engine.setG; split <;> rfl
@[simp] theorem Engine.setG_pc (x : Engine) (d : GReg) (v : W32) : (x.setG d v).pc = x.pc := by
  unfold Engine.setG; split <;> rfl
@[simp] theorem Engine.setG_flags (x : Engine) (d : GReg) (v : W32) : (x.setG d v).flags = x.flags := by
  unfold Engine.setG; split <;> rfl
@[simp] theorem Engine.setG_role (x : Engine) (d : GReg) (v : W32) : (x.setG d v).role = x.role := by
  unfold Engine.setG; split <;> rfl
@[simp] theorem Engine.setG_retired (x : Engine) (d : GReg) (v : W32) : (x.setG d v).retired = x.retired := by
  unfold Engine.setG; split <;> rfl
@[simp] theorem Engine.setG_chan (x : Engine) (d : GReg) (v : W32) : (x.setG d v).chan = x.chan := by
  unfold Engine.setG; split <;> rfl
@[simp] theorem Engine.setG_epoch (x : Engine) (d : GReg) (v : W32) : (x.setG d v).epoch = x.epoch := by
  unfold Engine.setG; split <;> rfl
@[simp] theorem Engine.setG_pend (x : Engine) (d : GReg) (v : W32) : (x.setG d v).pend = x.pend := by
  unfold Engine.setG; split <;> rfl
@[simp] theorem Engine.setG_asleep (x : Engine) (d : GReg) (v : W32) : (x.setG d v).asleep = x.asleep := by
  unfold Engine.setG; split <;> rfl
@[simp] theorem Engine.setG_running (x : Engine) (d : GReg) (v : W32) : (x.setG d v).running = x.running := by
  unfold Engine.setG; split <;> rfl
@[simp] theorem Engine.setG_lock (x : Engine) (d : GReg) (v : W32) : (x.setG d v).lock = x.lock := by
  unfold Engine.setG; split <;> rfl
@[simp] theorem Engine.setG_tickH (x : Engine) (d : GReg) (v : W32) : (x.setG d v).tickH = x.tickH := by
  unfold Engine.setG; split <;> rfl
@[simp] theorem Engine.setG_wdog (x : Engine) (d : GReg) (v : W32) : (x.setG d v).wdog = x.wdog := by
  unfold Engine.setG; split <;> rfl
@[simp] theorem Engine.setG_tmr (x : Engine) (d : GReg) (v : W32) : (x.setG d v).tmr = x.tmr := by
  unfold Engine.setG; split <;> rfl
@[simp] theorem Engine.setG_trace (x : Engine) (d : GReg) (v : W32) : (x.setG d v).trace = x.trace := by
  unfold Engine.setG; split <;> rfl
@[simp] theorem Engine.setG_ramFree (x : Engine) (d : GReg) (v : W32) : (x.setG d v).ramFree = x.ramFree := by
  unfold Engine.setG; split <;> rfl
@[simp] theorem Engine.setG_dram (x : Engine) (d : GReg) (v : W32) : (x.setG d v).dram = x.dram := by
  unfold Engine.setG; split <;> rfl
@[simp] theorem Engine.setG_iram (x : Engine) (d : GReg) (v : W32) : (x.setG d v).iram = x.iram := by
  unfold Engine.setG; split <;> rfl
@[simp] theorem Engine.setG_codeLen (x : Engine) (d : GReg) (v : W32) : (x.setG d v).codeLen = x.codeLen := by
  unfold Engine.setG; split <;> rfl
@[simp] theorem Engine.setG_eddy (x : Engine) (d : GReg) (v : W32) : (x.setG d v).eddy = x.eddy := by
  unfold Engine.setG; split <;> rfl
@[simp] theorem Engine.setG_lastLoad (x : Engine) (d : GReg) (v : W32) : (x.setG d v).lastLoad = x.lastLoad := by
  unfold Engine.setG; split <;> rfl
@[simp] theorem Engine.setG_exc (x : Engine) (d : GReg) (v : W32) : (x.setG d v).exc = x.exc := by
  unfold Engine.setG; split <;> rfl
@[simp] theorem Engine.setG_excPc (x : Engine) (d : GReg) (v : W32) : (x.setG d v).excPc = x.excPc := by
  unfold Engine.setG; split <;> rfl
@[simp] theorem Engine.setG_deposed (x : Engine) (d : GReg) (v : W32) : (x.setG d v).deposed = x.deposed := by
  unfold Engine.setG; split <;> rfl
@[simp] theorem Engine.setG_deposedAt (x : Engine) (d : GReg) (v : W32) : (x.setG d v).deposedAt = x.deposedAt := by
  unfold Engine.setG; split <;> rfl
@[simp] theorem Engine.setG_lostCh (x : Engine) (d : GReg) (v : W32) : (x.setG d v).lostCh = x.lostCh := by
  unfold Engine.setG; split <;> rfl
@[simp] theorem Engine.setG_selfTest (x : Engine) (d : GReg) (v : W32) : (x.setG d v).selfTest = x.selfTest := by
  unfold Engine.setG; split <;> rfl
@[simp] theorem Engine.setG_tookInst (x : Engine) (d : GReg) (v : W32) : (x.setG d v).tookInst = x.tookInst := by
  unfold Engine.setG; split <;> rfl
@[simp] theorem Engine.setG_tookSeq (x : Engine) (d : GReg) (v : W32) : (x.setG d v).tookSeq = x.tookSeq := by
  unfold Engine.setG; split <;> rfl
@[simp] theorem Engine.setG_took (x : Engine) (d : GReg) (v : W32) : (x.setG d v).took = x.took := by
  unfold Engine.setG; split <;> rfl
@[simp] theorem Engine.setG_halted (x : Engine) (d : GReg) (v : W32) : (x.setG d v).halted = x.halted := by
  unfold Engine.setG; split <;> rfl
@[simp] theorem Engine.setG_haltPend (x : Engine) (d : GReg) (v : W32) : (x.setG d v).haltPend = x.haltPend := by
  unfold Engine.setG; split <;> rfl
@[simp] theorem Engine.setG_lbHalt (x : Engine) (d : GReg) (v : W32) : (x.setG d v).lbHalt = x.lbHalt := by
  unfold Engine.setG; split <;> rfl
@[simp] theorem Engine.setG_stepping (x : Engine) (d : GReg) (v : W32) : (x.setG d v).stepping = x.stepping := by
  unfold Engine.setG; split <;> rfl
@[simp] theorem Engine.setG_prog (x : Engine) (d : GReg) (v : W32) : (x.setG d v).prog = x.prog := by
  unfold Engine.setG; split <;> rfl

/-! ### The frame of every instruction (R142, R159) -/

/-- The state after an instruction that falls through: the engine is `y` with its cycles counted and PC one word on. -/
def State.fell (s : State) (e : Eng) (y : Engine) (reads : List GReg) (cyc : Nat) (ld : Option GReg) : State :=
  s.modEng e fun x => { x.charge y reads cyc ld with pc := x.pc + 4 }

theorem State.modEng_modEng (s : State) (e : Eng) (f g : Engine → Engine) :
    (s.modEng e f).modEng e g = s.modEng e fun x => g (f x) := by
  simp [State.modEng, upd, Vector.set_set]

theorem State.modEng_eng_same (s : State) (e : Eng) (f : Engine → Engine) : (s.modEng e f).eng[e] = f s.eng[e] := by simp

theorem State.modEng_eng_other (s : State) (e k : Eng) (f : Engine → Engine) (h : k ≠ e) :
    (s.modEng e f).eng[k] = s.eng[k] := by
  have h' : ¬ k.val = e.val := fun x => h (Fin.ext x)
  simp [h']

/-- PC moves one word on inside the code. -/
theorem State.seqPc_inside (s : State) (e : Eng) (h : s.eng[e].pc + 4 < s.eng[e].codeLen) :
    s.seqPc e = s.modEng e fun y => { y with pc := y.pc + 4 } := by
  simp only [State.seqPc]
  rw [if_neg (by omega)]

/-- An instruction that an engine can issue and that falls through inside the code. -/
theorem runInsn_fell (s : State) (e : Eng) (reads : List GReg) (cyc cycTaken : Nat) (f : Engine → EngRes) (y : Engine)
    (ld : Option GReg) (hi : s.canIssue e = true) (hf : f s.eng[e] = .seq y ld) (h : y.pc + 4 < y.codeLen)
    (hy : y.pc = s.eng[e].pc) : runInsn e reads cyc cycTaken f s = .next (s.fell e y reads cyc ld) := by
  unfold runInsn
  simp only [hi, if_true, hf]
  rw [State.seqPc_inside, State.modEng_modEng]
  · unfold State.fell State.modEng upd Engine.charge
    simp only [hy]
  · rw [State.modEng_eng_same]; exact h

/-- A taken branch or a jump whose target lies in the code. -/
theorem runInsn_jumped (s : State) (e : Eng) (reads : List GReg) (cyc cycTaken : Nat) (f : Engine → EngRes) (y : Engine)
    (t : W32) (hi : s.canIssue e = true) (hf : f s.eng[e] = .jump y t) (h1 : t.toNat % 4 = 0)
    (h2 : t.toNat < s.eng[e].codeLen) :
    runInsn e reads cyc cycTaken f s =
      .next (s.modEng e fun x => { x.charge y reads cycTaken none with pc := t.toNat }) := by
  unfold runInsn
  simp only [hi, if_true, hf, h1, h2, decide_true, Bool.and_self]
  rfl

/-- An instruction that raises an exception. -/
theorem runInsn_exc (s : State) (e : Eng) (reads : List GReg) (cyc cycTaken : Nat) (f : Engine → EngRes) (c : ExcCode)
    (hi : s.canIssue e = true) (hf : f s.eng[e] = .exc c) :
    runInsn e reads cyc cycTaken f s = .next (s.engExc e c s.eng[e].pc 0) := by
  unfold runInsn
  simp only [hi, if_true, hf]

/-- An engine that cannot issue does nothing. -/
theorem runInsn_idle (s : State) (e : Eng) (reads : List GReg) (cyc cycTaken : Nat) (f : Engine → EngRes)
    (hi : s.canIssue e = false) : runInsn e reads cyc cycTaken f s = .next s := by
  unfold runInsn; simp [hi]

/-- Every engine instruction of this frame answers a next state. -/
theorem runInsn_next (s : State) (e : Eng) (reads : List GReg) (cyc cycTaken : Nat) (f : Engine → EngRes) :
    ∃ t, runInsn e reads cyc cycTaken f s = .next t := by
  unfold runInsn; dsimp only
  repeat' split
  all_goals exact ⟨_, rfl⟩

/-! ### What the computing instructions do -/

theorem modEng_onlyEng (s : State) (e : Eng) (f : Engine → Engine) : OnlyEng s (s.modEng e f) e :=
  ⟨fun k h => State.modEng_eng_other s e k f h, rfl⟩

/-- Cycles are counted into the watchdog. -/
theorem Engine.charge_wdog (x y : Engine) (reads : List GReg) (cyc : Nat) (ld : Option GReg) :
    (x.charge y reads cyc ld).wdog = x.wdog + x.cyclesOf reads cyc := by
  unfold Engine.charge Engine.cyclesOf
  cases x.lastLoad <;> simp [Nat.add_assoc]

theorem Engine.charge_flags (x y : Engine) (reads : List GReg) (cyc : Nat) (ld : Option GReg) :
    (x.charge y reads cyc ld).flags = y.flags := rfl

/-- A register write changes nothing but the registers. -/
theorem Engine.setG_same (x : Engine) (d : GReg) (v : W32) : { x.setG d v with g := x.g } = x := by
  unfold Engine.setG; split <;> rfl

/-- An instruction that computes one register, in an engine that may run it. -/
theorem aluInsn_computed (s : State) (e : Eng) (d : GReg) (reads : List GReg) (cyc : Nat) (f : Engine → W32 × BitVec 5)
    (h : s.Free e) (v : W32) (fl : BitVec 5) (hv : f s.eng[e] = (v, fl)) :
    ∃ t, aluInsn e d reads cyc f s = .next t ∧ Computed s t e reads cyc d v fl s.eng[e].acc := by
  have hm : s.eng[e].mayWrite d = true := by simp only [Engine.mayWrite, h.unlocked]
  have hx : s.eng[e].pc + 4 < s.eng[e].codeLen := h.inside
  refine ⟨_, runInsn_fell s e reads cyc cyc _ ((s.eng[e].setG d v).orFlags fl) none h.issue (by simp only [hm, hv]; rfl)
    (by simpa [Engine.orFlags] using hx) (by simp [Engine.orFlags]), ?_⟩
  unfold State.fell
  have hs := Engine.setG_same s.eng[e] d v
  generalize hy : s.eng[e].setG d v = y at hs
  have hg : ∀ r, y.getG r = if r = 0 then 0 else if r = d then v else s.eng[e].getG r := by
    intro r; rw [← hy]; exact Engine.getG_setG ..
  refine ⟨modEng_onlyEng .., fun hd => ?_, ?_, fun r hr => ?_, ?_, ?_, ?_, ?_, ?_⟩
  all_goals simp only [State.modEng_eng_same]
  · exact (hg d).trans (by simp [hd])
  · rfl
  · refine (hg r).trans ?_
    by_cases h0 : r = 0
    · subst h0; rfl
    · simp [h0, hr]
  · rw [← hs]; rfl
  · rw [← hs]; rfl
  · exact Engine.charge_wdog ..
  · rw [← hs]; rfl

/-- An instruction that writes the accumulator, in an engine that may run it. -/
theorem accInsn_computed (s : State) (e : Eng) (reads : List GReg) (f : Engine → W64 × BitVec 5) (h : s.Free e) (v : W64)
    (fl : BitVec 5) (hv : f s.eng[e] = (v, fl)) :
    ∃ t, accInsn e reads f s = .next t ∧ Computed s t e reads 1 0 0 fl v := by
  refine ⟨_, runInsn_fell s e reads 1 1 _ ({ s.eng[e] with acc := v }.orFlags fl) none h.issue
    (by simp only [h.unlocked, hv]; rfl) h.inside rfl, ?_⟩
  unfold State.fell
  refine ⟨modEng_onlyEng .., fun hd => absurd rfl hd, ?_, fun r hr => ?_, ?_, ?_, ?_, ?_, ?_⟩
  all_goals simp only [State.modEng_eng_same]
  · rfl
  · rfl
  · rfl
  · rfl
  · exact Engine.charge_wdog ..
  · rfl

end Sys2Proof.Machine
end

