-- ==== Sys2Proof/WellFormed.lean ====
section
/-! DEFINITION. Which operand lists a sender of the module can form: the shapes of descriptors, frames, tables of
readings and transfers. A command that is not well formed names no transfer of the interface. -/

namespace Sys2Proof

/-- The operand bytes of a descriptor have the lengths of Table 10.6. -/
def Desc.wf (d : Desc) : Bool := d.ops.length == 12 && d.ops2.length == 16

/-- A frame has 8 fault and 14 mail slots, and a used mail slot carries 64 bytes (Tables 16.1 and 16.2). -/
def RvFrame.wf (f : RvFrame) : Bool :=
  f.faults.length == 8 && f.mails.length == 14 && f.mails.all (fun m => m.all fun x => x.data.length == 64)

/-- The readings of a pack check: 16 cells (R308, R311). -/
def PackTaps.wf (t : PackTaps) : Bool := t.cells.length == 16

/-- A BAR0 write of 1 to 1,024 doublewords at an address divisible by 4 that stays within BAR0 (R263). -/
def regWriteWf (addr : BitVec 16) (ds : List (W32 × BitVec 4)) : Bool :=
  addr.toNat % 4 == 0 && ds.length != 0 && addr.toNat + 4 * ds.length ≤ 0x10000

/-- A read of 1 to 1,024 doublewords at an address divisible by 4; the two-wire target and the Keep read one register of BAR0 (R263,
R473, R275). -/
def readWf (p : Path) (addr : ReadAt) (be : List (BitVec 4)) : Bool :=
  addr.off.toNat % 4 == 0 && be.length != 0 && (match addr.space with
    | .bar0 => addr.off.toNat + 4 * be.length ≤ 0x10000
    | .bar2 => addr.off.toNat + 4 * be.length ≤ 0x1000
    | .config => addr.off.toNat + 4 * be.length ≤ 0x1000)
  && (p == .host || (addr.space == .bar0 && be == [15]))

/-- Well-formedness of a command: the shape of its operands. -/
def Instr.WellFormed : Instr → Bool
  | .registerWrite a ds => regWriteWf a ds
  | .rcRead p a be => readWf p a be
  | .lowHalfRead _ a => a.toNat % 8 == 0
  | .highHalfRead _ a => a.toNat % 8 == 4
  | .bootPackCheck t => t.wf
  | .packCheck t => t.wf
  | .buskeepPackCheckTimer t => t.wf
  | .reachPost _ d => d.wf | .reachCancel _ d => d.wf | .reachFlush _ d => d.wf | .prmWrite _ d => d.wf
  | .prmLoad _ d => d.wf | .chRun _ d => d.wf | .manual _ d => d.wf | .imgLoad _ d => d.wf
  | .imgCheck _ d => d.wf | .lend _ d => d.wf | .reclaim _ d => d.wf | .reclaimAll _ d => d.wf
  | .snapAt _ d => d.wf | .snapCancel _ d => d.wf | .eddyRead _ d => d.wf | .eddyClear _ d => d.wf
  | .pwrWrite _ d => d.wf | .pwrRead _ d => d.wf | .buskeepAck _ d => d.wf | .modeReq _ d => d.wf
  | .reset _ d => d.wf | .freeze _ d => d.wf | .serviceUnlock _ d => d.wf | .nop _ d => d.wf
  | .barrier _ d => d.wf | .ringQuery _ d => d.wf | .mbxSend _ d => d.wf | .mbxRecv _ d => d.wf
  | .descriptorArrival _ ds => ds.length ≤ 16 && ds.all (fun p => p.2.wf)
  | .bootHkSelfCal means => means.length == 4
  | .hkCalDone means => means.length == 4
  | .railSupervisionSample vout iout => vout.length == 10 && iout.length == 10
  | .hkEntryDone raws => 1 ≤ raws.length && raws.length ≤ 256
  | .hkDiagDone raws => raws.length == 16
  | .gnssCharacter _ samples _ => samples.length == 154
  | .ringFrameAccept _ f _ _ => f.wf
  | _ => true

end Sys2Proof
end

