-- ==== Sys2Proof/Tests/Slice0.lean ====
section
/-! SUPPORT. Tests: ill-formed terms that WellFormed refuses, and for every statement a state and operands that meet its
hypotheses, with what the spec says follows there. -/

set_option maxRecDepth 20000
set_option Elab.async false

namespace Sys2Proof.Tests
open Sys2Proof Sys2Proof.Machine

/-! ### Small states -/

/-- The command answers a next state with the property. -/
def nx (o : Host.Outcome State Fault Refusal) (p : State → Bool) : Bool :=
  match o with
  | .next t => p t
  | _ => false

/-- The module up in SERVICE. -/
def m0 : State :=
  { State.reset with mode := { State.reset.mode with mode := .service, domeOn := true, domeRun := true, keep := .run, bootStep := 0 } }

/-- The module up in another mode. -/
def m0in (k : Mode) : State := { m0 with mode := { m0.mode with mode := k } }

/-- Engine 3 runs 16 words of code. -/
def e3 (f : Engine → Engine) : State := m0.modEng 3 fun x => f { x with running := true, codeLen := 64 }

/-- Engine 3 with values in g1 and g2. -/
def ab (a b : W32) : State := e3 fun x => (x.setG 1 a).setG 2 b

/-- g3 and FLAGS of engine 3 after a command. -/
def g3 (i : Instr) (s : State) (v : W32) (fl : BitVec 5 := 0) : Bool :=
  nx (exec i s) fun t => t.eng[(3 : Eng)].getG 3 == v && t.eng[(3 : Eng)].flags == fl && t.eng[(3 : Eng)].pc == s.eng[(3 : Eng)].pc + 4

/-- A change of the mode block. -/
def mm (s : State) (f : ModeSt → ModeSt) : State := { s with mode := f s.mode }
/-- A change of a die's thermal state. -/
def md (s : State) (d : DieIx) (f : DieTh → DieTh) : State := { s with die := s.die.set d (f s.die[d]) }
def mp (s : State) (f : Power → Power) : State := { s with power := f s.power }
def wall (s : State) (n : Nat) : State := { s with tick := { s.tick with wall := n } }
/-- Ten cells of 3.3 V, a supply of 33 V. -/
def taps : PackTaps := { vp := 33000, rise := 100, cells := List.replicate 10 3300 ++ List.replicate 6 0, psw := 0 }
/-- The module frozen. -/
def frozen : State := { m0 with mode := { m0.mode with frozen := true } }

/-- A descriptor with TAG 7 and the bytes listed. -/
def dsc (l : List (Nat × Byte)) (buf : List Byte := []) : Desc :=
  let at_ (i : Nat) : Byte := (l.lookup i).getD 0
  { tag := 7, ops := (List.range 12).map fun k => at_ (k + 2), rsv := at_ 15, ops2 := (List.range 16).map fun k => at_ (k + 16), buf := buf }
/-- STATUS and INFO of the entries held for the completion ring of a ring. -/
def ans (t : State) (q : Ring) : List (Byte × W64) :=
  t.hp.cq[t.cqOf q].filterMap fun h => match h.e with
    | .cmd info _ _ st _ => some (st, info)
    | _ => none
/-- The command is answered with STATUS and INFO. -/
def says_ (i : Instr) (s : State) (q : Ring) (st : Byte) (info : W64 := 0) : Bool := nx (exec i s) fun t => ans t q == [(st, info)]
def later (s : State) (n : Nat) : State := { s with tick := { s.tick with now := BitVec.ofNat 64 n } }
/-- A buffer of 4 KiB lent by ring q under tag 5. -/
def lent (q : Ring) (s : State := m0) : State := { s with hp := { s.hp with lends := [⟨5, q, 0x1000, 4096⟩] } }

/-! ### Control engines -/

/-- Engine 3 can issue, as the statements on instructions ask. -/
theorem wit_free : (ab 7 9).Free 3 := ⟨by decide, by decide, by decide⟩
theorem test_alu : g3 (.add 3 3 1 2) (ab 0xFFFFFFFF 2) 1 ∧ g3 (.sub 3 3 1 2) (ab 1 2) 0xFFFFFFFF ∧ g3 (.and 3 3 1 2) (ab 12 10) 8 ∧
    g3 (.or 3 3 1 2) (ab 12 10) 14 ∧ g3 (.xor 3 3 1 2) (ab 12 10) 6 ∧ g3 (.shl 3 3 1 2) (ab 1 33) 2 ∧
    g3 (.shr 3 3 1 2) (ab 0x80000000 31) 1 ∧ g3 (.sar 3 3 1 2) (ab 0x80000000 31) 0xFFFFFFFF := by decide
theorem test_alu_saturates : g3 (.adds 3 3 1 2) (ab 0x7FFFFFFF 1) 0x7FFFFFFF 1 ∧ g3 (.subs 3 3 1 2) (ab 0x80000000 1) 0x80000000 1 ∧
    g3 (.min 3 3 1 2) (ab 1 0xFFFFFFFF) 0xFFFFFFFF ∧ g3 (.max 3 3 1 2) (ab 1 0xFFFFFFFF) 1 ∧ g3 (.slt 3 3 1 2) (ab 0xFFFFFFFF 1) 1 ∧
    g3 (.sltu 3 3 1 2) (ab 0xFFFFFFFF 1) 0 ∧ g3 (.abss 3 3 1) (ab 0x80000000 0) 0x7FFFFFFF 1 := by decide
theorem test_immediate : g3 (.addi 3 3 1 0xFFFF) (ab 5 0) 4 ∧ g3 (.andi 3 3 1 0xFF00) (ab 0x12345678 0) 0x5600 ∧
    g3 (.ori 3 3 1 0x8000) (ab 1 0) 0x8001 ∧ g3 (.xori 3 3 1 3) (ab 5 0) 6 ∧ g3 (.lui 3 3 0x1234) (ab 0 0) 0x12340000 ∧
    g3 (.shli 3 3 1 4) (ab 0xF0000001 0) 16 ∧ g3 (.shri 3 3 1 4) (ab 0x80000000 0) 0x08000000 ∧
    g3 (.sari 3 3 1 4) (ab 0x80000000 0) 0xF8000000 ∧ g3 (.slti 3 3 1 0xFFFF) (ab 0xFFFFFFFE 0) 1 := by decide
theorem test_multiply : g3 (.mul 3 3 1 2) (ab 0xFFFFFFFF 3) 0xFFFFFFFD ∧ g3 (.mulh 3 3 1 2) (ab 0xFFFFFFFF 3) 0xFFFFFFFF ∧
    g3 (.mulhu 3 3 1 2) (ab 0xFFFFFFFF 3) 2 := by decide
/-- The zero and one cases of the reciprocals (R143), and round(2^32 / 3). -/
theorem test_reciprocals : g3 (.rcp 3 3 1) (ab 0 0) 0xFFFFFFFF 3 ∧ g3 (.rcps 3 3 1) (ab 0 0) 0x7FFFFFFF 3 ∧
    g3 (.rcp 3 3 1) (ab 1 0) 0xFFFFFFFF 1 ∧ g3 (.rcp 3 3 1) (ab 3 0) 0x55555555 ∧ g3 (.rcps 3 3 1) (ab 0xFFFFFFFF 0) 0x80000000 := by decide
/-- Engine 3 with ACC at a value. -/
def acc3 (v : W64) : State := e3 fun x => { (x.setG 1 0xFFFFFFFF).setG 2 2 with acc := v }
theorem test_accumulator : nx (exec (.mac 3 1 2) (acc3 5)) (fun t => t.eng[(3 : Eng)].acc == 3) ∧
    nx (exec (.msu 3 1 2) (acc3 0x7FFFFFFFFFFFFFFF)) (fun t => t.eng[(3 : Eng)].acc == 0x7FFFFFFFFFFFFFFF && t.eng[(3 : Eng)].flags == 1) ∧
    nx (exec (.macz 3 1 2) (acc3 5)) (fun t => t.eng[(3 : Eng)].acc == 0xFFFFFFFFFFFFFFFE) ∧
    nx (exec (.mta 3 1) (acc3 5)) (fun t => t.eng[(3 : Eng)].acc == 0xFFFFFFFFFFFFFFFF) ∧
    nx (exec (.mtah 3 2 1) (acc3 5)) (fun t => t.eng[(3 : Eng)].acc == 0x00000002FFFFFFFF) ∧
    g3 (.mfa 3 3 1) (acc3 5) 3 ∧ g3 (.mfa 3 3 0) (acc3 0x80000000) 0x7FFFFFFF 1 ∧ g3 (.mfah 3 3) (acc3 0x0000000700000001) 7 := by decide
/-- Engine 3 with the bytes 0x11, 0x82, 0x33, 0x84 from address 0x10 on, and that address in g1. -/
def ram3 : State := e3 fun x => { (x.setG 1 0x10).setG 2 0xAABBCCDD with dram := memWrite [] 0x10 [0x11, 0x82, 0x33, 0x84] }
theorem wit_loads_aligned : let ad := (ram3.r 3 1 + BitVec.ofInt 32 (0 : BitVec 16).toInt).toNat
    ad % 4 = 0 ∧ ad ≤ 0x1FFF := by decide
theorem test_loads : g3 (.lw 3 3 1 0) ram3 0x84338211 ∧ g3 (.lh 3 3 1 0) ram3 0xFFFF8211 ∧ g3 (.lhu 3 3 1 2) ram3 0x8433 ∧
    g3 (.lb 3 3 1 3) ram3 0xFFFFFF84 ∧ g3 (.lbu 3 3 1 1) ram3 0x82 := by decide
theorem test_stores : nx (exec (.sw 3 2 1 0xFFFC) ram3) (fun t => memBytes t.eng[(3 : Eng)].dram 0xC 5 == [0xDD, 0xCC, 0xBB, 0xAA, 0x11]) ∧
    nx (exec (.sh 3 2 1 2) ram3) (fun t => memBytes t.eng[(3 : Eng)].dram 0x11 4 == [0x82, 0xDD, 0xCC, 0]) ∧
    nx (exec (.sb 3 2 1 0x1FEF) ram3) (fun t => memGet t.eng[(3 : Eng)].dram 0x1FFF == 0xDD) := by decide
/-- PC and cycles of engine 3 after a command. -/
def goes (i : Instr) (s : State) (pc cyc : Nat) : Bool :=
  nx (exec i s) fun t => t.eng[(3 : Eng)].pc == pc && t.eng[(3 : Eng)].wdog == cyc
theorem wit_branch_in_code : let p := (BitVec.ofInt 32 ((ab 1 2).eng[(3 : Eng)].pc + 4 + 4 * (3 : BitVec 16).toInt)).toNat
    p % 4 = 0 ∧ p < (ab 1 2).eng[(3 : Eng)].codeLen := by decide
theorem test_branches : goes (.beq 3 1 2 3) (ab 7 7) 16 2 ∧ goes (.beq 3 1 2 3) (ab 7 8) 4 1 ∧ goes (.bne 3 1 2 3) (ab 7 8) 16 2 ∧
    goes (.blt 3 1 2 3) (ab 0xFFFFFFFF 0) 16 2 ∧ goes (.bge 3 1 2 3) (ab 0 0xFFFFFFFF) 16 2 ∧ goes (.bltu 3 1 2 3) (ab 0 0xFFFFFFFF) 16 2 ∧
    goes (.bgeu 3 1 2 3) (ab 0 0xFFFFFFFF) 4 1 := by decide
theorem test_jumps : goes (.j 3 0x3FFFFFF) (ab 0 0) 0 2 ∧ goes (.jr 3 1) (ab 32 0) 32 2 ∧ goes (.jal 3 2) (ab 0 0) 12 2 ∧
    nx (exec (.jal 3 2) (ab 0 0)) (fun t => t.eng[(3 : Eng)].getG 31 == 4) := by decide
/-- The words that R141 writes out, the no-operation, and words that are illegal. -/
theorem test_words : decodeFrajan 0x00611000 = some (.add 3 1 2) ∧ decodeFrajan 0xC4090030 = some (.portOut 9 0x030) ∧
    decodeFrajan 0 = some (.add 0 0 0) ∧ decodeFrajan 0xCA600041 = some (.wait 19 0x41) ∧
    decodeFrajan 0x2C000000 = none ∧ decodeFrajan 0x0000000F = none ∧ decodeFrajan 0x14210000 = none ∧
    decodeFrajan 0xCC010800 = none := by decide
/-- An exception at engine 3 with its cause. -/
def exc3 (i : Instr) (s : State) (cause : BitVec 4) : Bool :=
  nx (exec i s) fun t => !t.eng[(3 : Eng)].running && t.eng[(3 : Eng)].exc == cause && t.eng[(3 : Eng)].pc == s.eng[(3 : Eng)].pc &&
    t.hp.events.any fun x => x.code == 0x1062
theorem wit_exceptions : (ab 3 0).canIssue 3 = true ∧ (ab 3 0).eng[(3 : Eng)].role ≠ .deposed ∧ decodeFrajan 0x2C000000 = none ∧
    portInfo 0x0FFF = none ∧ (ab 3 0).Room := ⟨by decide, by decide, by decide, by decide, by decide, by decide⟩
theorem test_exceptions : exc3 (.illegalInstruction 3 0x2C000000) (ab 0 0) 1 ∧ exc3 (.trap 3 5) (ab 0 0) 8 ∧
    exc3 (.lw 3 3 1 0) (ab 3 0) 3 ∧ exc3 (.sh 3 3 1 0) (ab 3 0) 3 ∧ exc3 (.lb 3 3 1 0) (ab 0x2000 0) 4 ∧ exc3 (.jr 3 1) (ab 64 0) 2 ∧
    exc3 (.portIn 3 3 0x0FFF) (ab 0 0) 5 ∧ exc3 (.lock 3 1 1) (ab 0 0) 1 ∧
    exc3 (.engineWatchdog 3) (e3 fun x => { x with wdog := 400000 }) 7 := by decide
/-- Engine 3 inside a locked sequence on g1 and g2. -/
def locked3 : State := e3 fun x => { x with lock := some ⟨1, 2, 0, 0, 0, 0, 0, 0, 0, 0⟩ }
theorem wit_locked : locked3.canIssue 3 = true ∧ locked3.eng[(3 : Eng)].lock = some ⟨1, 2, 0, 0, 0, 0, 0, 0, 0, 0⟩ ∧
    locked3.eng[(3 : Eng)].role ≠ .deposed := by decide
theorem test_locked : exc3 (.add 3 3 1 2) locked3 6 ∧ exc3 (.mac 3 1 2) locked3 6 ∧ exc3 (.sw 3 1 2 0) locked3 6 ∧
    exc3 (.outDuty 3 1) locked3 6 ∧ exc3 (.wait 3 1 1) locked3 6 ∧ exc3 (.trap 3 1) locked3 6 ∧ g3 (.add 3 1 1 2) locked3 0 := by decide
/-- The port statements: engine 3 serves channel 3, holds its epoch and runs no standard program. -/
theorem wit_ports : (ab 0 0).serves 3 = some 3 ∧ (ab 0 0).Serving 3 3 ∧ (ab 0 0).stdProg 3 = none :=
  ⟨by decide, ⟨by decide, by decide⟩, by decide⟩
theorem test_port_reads : g3 (.portIn 3 3 0x001) (ab 0 0) 3 ∧ g3 (.portIn 3 3 0x003) (ab 0 0) 0 ∧
    g3 (.inTickL 3 3) { ab 0 0 with tick := { (ab 0 0).tick with now := 0x0000000100000002 } } 2 := by decide
/-- Engine 3 and channel 3 with a FIFO filled. -/
def fifo3 (l : List W32) : State := (ab 0 0).modCh 3 fun h => { h with istrm := l, vstrm := l, snse := l }
theorem wit_pops : (fifo3 [7, 8]).Free 3 ∧ (fifo3 [7, 8]).serves 3 = some 3 ∧ (fifo3 [7, 8]).stdProg 3 = none ∧
    ((fifo3 [7, 8]).ch 3).istrm = 7 :: [8] ∧ ((fifo3 []).ch 3).vstrm = [] :=
  ⟨⟨by decide, by decide, by decide⟩, by decide, by decide, by decide, by decide⟩
theorem test_pops : g3 (.inPop 3 3 0x020) (fifo3 [7, 8]) 7 ∧ g3 (.inPop 3 3 0x024) (fifo3 []) 0 8 ∧
    nx (exec (.inPop 3 3 0x022) (fifo3 [7, 8])) (fun t => (t.ch 3).vstrm == [8]) := by decide
theorem test_port_writes : nx (exec (.outTmr 3 1) (ab 40 0)) (fun t => t.eng[(3 : Eng)].tmr == some 40) ∧
    nx (exec (.outFlags 3 1) (e3 fun x => { x.setG 1 2 with flags := 7 })) (fun t => t.eng[(3 : Eng)].flags == 5) ∧
    nx (exec (.outTrace 3 1) (ab 9 0)) (fun t => t.eng[(3 : Eng)].trace == [9]) ∧
    nx (exec (.outTraceEnd 3 1) (ab 9 0)) (fun t => t.eng[(3 : Eng)].eddy.recs.length == 1) ∧
    nx (exec (.outBndLat 3 1) (ab 50000000 0)) (fun t => t.reg (R.CH_BND_LAT 3) == 40000000) ∧
    nx (exec (.outSmpPer 3 1) (ab 500 0)) (fun t => t.units[smpUnit 3].period == 1000) ∧
    nx (exec (.portOut 3 1 0x000) (ab 9 0)) (fun _ => true) ∧ nx (exec (.portOut 3 1 0x030) (ab 9 0)) (fun _ => true) := by decide +kernel
theorem wit_smp_per : (ab 0 0).flag (R.CH_STAGE_CFG_ENABLE 3) = false ∧ (ab 0 0).eng[(3 : Eng)].eddy.recs.length < 128 ∧
    (ab 0 0).eng[(3 : Eng)].eddy.trig ≠ 3 := by decide
/-- Channel 3 with RUN set and a duty in g1. -/
def duty3 (w : W32) (ep : BitVec 16) : State := (e3 fun x => { x.setG 1 w with epoch := ep }).putFlag (R.CH_ENG_CTRL_RUN 3) true
theorem wit_duty : let s := duty3 0xE6001900 0
    s.Free 3 ∧ s.serves 3 = some 3 ∧ s.stdProg 3 = none ∧ s.eng[(3 : Eng)].role ≠ .deposed ∧ s.flag (R.CH_ENG_CTRL_RUN 3) = true ∧
    s.mode.fault = false ∧ (s.ch 3).copying = none ∧ (s.ch 3).manual = none ∧ s.eng[(3 : Eng)].stepping = false ∧
    (s.reg (R.BUD_TRIM 0)).getLsbD 3 = false ∧ s.implausible 3 (s.r 3 1) = false ∧ (duty3 1 0).implausible 3 ((duty3 1 0).r 3 1) = true ∧
    (duty3 0 1).eng[(3 : Eng)].epoch ≠ ((duty3 0 1).ch 3).epoch :=
  ⟨⟨by decide, by decide, by decide⟩, by decide, by decide, by decide, by decide, by decide, by decide, by decide, by decide,
    by decide, by decide, by decide, by decide⟩
/-- The duty word of R150, a wrong CHK, and a deposed epoch. -/
theorem test_duty : nx (exec (.outDuty 3 1) (duty3 0xE6001900 0)) (fun t => (t.ch 3).flight == [⟨6400, 12, none⟩]) ∧
    nx (exec (.outDuty 3 1) (duty3 0xE5001900 0)) (fun t => (t.ch 3).flight == [] && t.get (R.CH_ENG_CNT_IMPL 3) == 1) ∧
    nx (exec (.outDuty 3 1) (duty3 0xE6001900 1)) (fun t => (t.ch 3).flight == [] && t.get (R.CH_ENG_CNT_FENCED 3) == 1) ∧
    nx (exec (.outDutyHold 3 1) (duty3 0 0)) (fun t => (t.ch 3).flight == [⟨0, 12, none⟩]) := by decide +kernel
theorem test_duty_words : dutyWord 6400 = 0xE6001900 ∧ dutyWord (-6400) = 0xE7FFE700 := by decide
/-- Engine 3 with an event pending, and asleep in a WAIT. -/
def pend3 (p : BitVec 16) (z : Option (GReg × BitVec 16)) : State := e3 fun x => { x with pend := p, asleep := z }
theorem wit_wait : let s := pend3 0x41 none
    s.stdProg 3 = none ∧ s.eng[(3 : Eng)].role ≠ .deposed ∧ s.eng[(3 : Eng)].pc + 4 < s.eng[(3 : Eng)].codeLen ∧
    s.serves 3 = some 3 ∧ (s.ch 3).ctl = some 3 ∧ (s.ch 3).takeover = none ∧
    s.eng[(3 : Eng)].lock = none ∧ s.canIssue 3 = true ∧ (s.putFlag (R.CH_ENG_CTRL_RUN 3) true).stopAtWait 3 = false ∧
    s.eng[(3 : Eng)].pend &&& 1 ≠ 0 ∧ s.eng[(3 : Eng)].pend &&& 2 = 0 := by decide
/-- The same with two samples waiting in ISTRM above a threshold of 1. -/
def level3 : State := (((pend3 0x41 none).putFlag (R.CH_ENG_CTRL_RUN 3) true).put (R.CH_ENG_CTRL_ISTRM_THR 3) 1).modCh 3 fun h => { h with istrm := [1, 2] }
theorem test_level : nx (exec (.wait 3 3 1) level3) (fun t => t.eng[(3 : Eng)].pend == 0x42) := by decide
theorem wit_wake : let s := pend3 0x41 (some (3, 1))
    s.eng[(3 : Eng)].asleep = some (3, 1) ∧ s.clockOn = true ∧ s.eng[(3 : Eng)].running = true ∧ s.eng[(3 : Eng)].halted = false ∧
    s.eng[(3 : Eng)].retired = false := by decide
theorem test_wait : g3 (.wait 3 3 1) ((pend3 0x41 none).putFlag (R.CH_ENG_CTRL_RUN 3) true) 1 ∧
    nx (exec (.wait 3 3 2) ((pend3 0x41 none).putFlag (R.CH_ENG_CTRL_RUN 3) true))
      (fun t => t.eng[(3 : Eng)].asleep == some (3, 2) && t.eng[(3 : Eng)].pc == 0) ∧
    nx (exec (.waitWake 3) (pend3 0x41 (some (3, 1)))) (fun t => t.eng[(3 : Eng)].getG 3 == 1 && t.eng[(3 : Eng)].pend == 0x40 &&
      t.eng[(3 : Eng)].wdog == 2) := by decide
theorem wit_unlock_timer : locked3.eng[(3 : Eng)].haltPend = none ∧ locked3.eng[(3 : Eng)].pc + 4 < locked3.eng[(3 : Eng)].codeLen ∧
    (e3 fun x => { x with tmr := some 0 }).eng[(3 : Eng)].tmr = some 0 ∧ (0 : Nat) ≤ m0.now := by decide
theorem test_lock_ckpt_timer : nx (exec (.lock 3 1 2) (ab 5 6)) (fun t => t.eng[(3 : Eng)].lock == some ⟨1, 2, 5, 6, 0, 0, 0, 0, 0, 0⟩) ∧
    nx (exec (.unlock 3) locked3) (fun t => t.eng[(3 : Eng)].lock == none) ∧
    nx (exec (.ckpt 3) (ab 0 0)) (fun t => (t.ch 3).mirror.block == some (List.replicate 32 0) && t.eng[(3 : Eng)].wdog == 16) ∧
    nx (exec (.engineTimerExpiry 3) (e3 fun x => { x with tmr := some 0 })) (fun t => t.eng[(3 : Eng)].pend == 0x40) := by decide

/-! ### The machine, its registers and its reads -/

/-- A command at the front of the queue runs; the rest of the queue stays. -/
theorem test_step : nx (step { e3 id with pending := [.addi 3 3 0 5, .keyRising] })
    (fun t => t.eng[(3 : Eng)].getG 3 == 5 && t.pending == [.keyRising]) := by decide
theorem test_word_spells_nothing : decodeTableWord 32 0 = none ∧ m0.withFetchWord 32 0 = m0 := ⟨rfl, rfl⟩
theorem wit_empty_queue : m0.pending = [] ∧ m0.clockOn = true ∧ m0.hp.rings[(18 : Ring)].fetched = [] ∧
    m0.hp.rings[(19 : Ring)].fetched = [] ∧ (∀ c : Ch, (m0.ch c).limp = false) ∧ State.reset.clockOn = false ∧ State.reset.pending = [] := by decide +kernel
theorem test_idle_tick : nx (step m0) (fun t => t.tick.now == 1 && t.tick.wall == 1) ∧
    nx (step State.reset) (fun t => t.tick.now == 0 && t.tick.wall == 1) := by decide
theorem wit_canonical : wordsWf regReset m0.regs = true ∧ memWf m0.eng[(3 : Eng)].dram = true ∧
    wordsWf regReset (duty3 0 0).regs = true := by decide
theorem test_reset_values : State.reset.peek 0x400 = 0x101 ∧ State.reset.peek 0x2018 = 0x3C1E140D ∧ State.reset.peek 0x7000 = 0 := by decide
/-- A host write of one word. -/
def wr (a : Nat) (v : W32) (be : BitVec 4 := 15) : Instr := .registerWrite (BitVec.ofNat 16 a) [(v, be)]
theorem wit_host_write : m0.mode.domeRun = true ∧ m0.mode.frozen = false ∧ regRow 0x7000 = none ∧ isWide 0x7000 = false ∧
    isHigh 0x7000 = false ∧ (regRow 0x2018).isSome ∧ isWide 0x2018 = false ∧ isHigh 0x2018 = false ∧ frozen.mode.frozen = true ∧
    m0.Room := ⟨by decide, by decide, by decide, by decide, by decide, by decide, by decide, by decide, by decide, by decide, by decide⟩
theorem test_host_write : nx (exec (wr 0x80C 0xFFFFFFFF) m0) (fun t => t.reg 0x80C == 0x11F) ∧
    nx (exec (wr 0x7000 5) m0) (fun t => t.reg 0x7000 == 0 && t.keepWrites == []) ∧ nx (exec (wr R.MODE_KEY 0) m0) (fun t => t.get R.MODE_KEY_KEYOFF_DELAY == 1) ∧
    nx (exec (wr R.RESET_CAUSE 1) m0) (fun t => t.mode.resetCause == 0) ∧
    nx (exec (wr 0x2018 7) m0) (fun t => t.keepWrites == [⟨0x2018, 7⟩]) ∧
    nx (exec (wr 0x80C 0 3) m0) (fun t => t.get R.HP_CNT_PARTIAL == 1 && t.reg 0x80C == 0x11F) ∧
    nx (exec (wr 0x80C 0) frozen) (fun t => t.regN R.HP_FRZ_WR == 1 && t.reg 0x80C == 0x11F) := by decide
/-- The module with the RWL locks set. -/
def lockedM : State := { m0 with mode := { m0.mode with rwlLocked := true } }
theorem wit_locked_field : lockedM.mode.rwlLocked = true ∧ (regRow R.CHG_CTRL).isSome ∧ lockedM.mode.domeRun = true ∧
    lockedM.reg R.CHG_CTRL = 0x3C1E140D := by decide
theorem test_locked_field : (lockedM.keepApply R.CHG_CTRL 0x3C1E1401).reg R.CHG_CTRL = 0x3C1E140D ∧
    (m0.keepApply R.CHG_CTRL 0x3C1E1401).reg R.CHG_CTRL = 0x3C1E1401 := by decide
/-- A word with RC bits, and the halves of the tick base. -/
def tick5 : State := { m0 with tick := { m0.tick with now := 0x0000000700000005 } }
theorem wit_reads : (regRow R.HP_CNT).isSome ∧ isWide R.HP_CNT = false ∧ isHigh R.HP_CNT = false ∧ R.HP_CNT ≠ R.EDDY_STAT ∧
    isWide 0x1800 = true ∧ isHigh 0x1804 = true ∧ (tick5.latch .host).owner ≠ some 0x1800 := by decide
theorem test_reads : nx (exec (.rcRead .host ⟨.bar0, BitVec.ofNat 16 R.HP_CNT⟩ [15]) (m0.put R.HP_CNT_DB_DISC 9))
      (fun t => t.hp.sent == [.readReply .host [9, 0, 0, 0]] && t.get R.HP_CNT_DB_DISC == 0) ∧
    nx (exec (.lowHalfRead .host 0x1800) tick5) (fun t => t.hp.sent == [.readReply .host [5, 0, 0, 0]] && t.latch .host == ⟨some 0x1800, 7⟩) ∧
    nx (exec (.highHalfRead .host 0x1804) tick5) (fun t => t.hp.sent == [.readReply .host [7, 0, 0, 0]]) ∧
    nx (exec (.rcRead .host ⟨.bar0, 0x1800⟩ [15, 15]) tick5) (fun t => t.hp.sent == [.readReply .host [5, 0, 0, 0, 7, 0, 0, 0]]) ∧
    nx (exec (.rcRead .host ⟨.bar0, BitVec.ofNat 16 R.HP_CNT⟩ [2]) (m0.put R.HP_CNT_DB_DISC 0x1234))
      (fun t => t.hp.sent == [.readReply .host [0x12]] && t.get R.HP_CNT_DB_DISC == 0) := by decide
theorem test_window : nx (exec (.bar4Read 0 4) m0) (fun t => t.hp.sent == [.bar4Reply [0x46, 0x52, 0x5A, 0x4E]]) ∧
    m0.bar4Word 0x1000 = 0 ∧ frozen.bar4Word 0x1080C = 0x11F := by decide

/-! ### Modes, resets and start-up -/

/-- The Dome's comparator has tripped and held a reset. -/
def hot : State := md (mm { m0 with tick := { m0.tick with wall := 200000000 } } fun m => { m with heldReset := some .pin }) 0 fun d => { d with shutAt := some 0 }
theorem wit_resets : m0.mode.mode ≠ .ship ∧ m0.die[(0 : DieIx)].shutAt = none ∧ m0.die[(1 : DieIx)].shutAt = none ∧
    (mm m0 fun m => { m with pendingReset := some (.command, 0) }).mode.pendingReset = some (.command, 0) ∧
    (mm m0 fun m => { m with pendingReset := some (.fault, 0) }).mode.pendingReset = some (.fault, 0) ∧ State.reset.mode.mode = .ship := by decide
theorem wit_held_reset : hot.mode.mode ≠ .ship ∧ hot.die[(0 : DieIx)].shutAt = some 0 ∧ 0 + 200000000 ≤ hot.tick.wall ∧
    hot.die[(1 : DieIx)].shutAt = none ∧ hot.mode.heldReset = some .pin := by decide
theorem test_resets : nx (exec .powerOnReset m0) (fun t => t.mode.mode == .ship && t.mode.resetCause == 1 && t.silt.pon == 1) ∧
    nx (exec .resetNPin m0) (fun t => t.mode.mode == .standby && t.mode.bootStep == 4 && t.mode.resetCause == 3) ∧
    nx (exec .resetNPin State.reset) (fun t => t.mode.mode == .ship && t.mode.resetCause == 1) ∧
    nx (exec .deviceCommandReset (mm m0 fun m => { m with pendingReset := some (.command, 0) })) (fun t => t.mode.resetCause == 9) ∧
    nx (exec .faultStateReset (mm m0 fun m => { m with pendingReset := some (.fault, 0) })) (fun t => t.mode.resetCause == 17) := by decide
theorem test_held_reset : nx (exec .resetNPin hot) (fun t => t.mode.mode == .service) ∧
    nx (exec (.coreThermalRelease false) hot) (fun t => t.mode.bootStep == 4 && t.mode.resetCause == 3) := by decide
theorem wit_perst : m0.domeLive = true ∧ m0.hp.lends = [] ∧ m0.hp.events.length < 256 ∧ State.reset.domeLive = false := by decide
theorem test_perst : nx (exec .perstAssert (m0.put R.HP_CNT_DB_DISC 9)) (fun t => t.get R.HP_CNT_DB_DISC == 0 && t.mode.mode == .service &&
      t.mode.bootStep == 0 && t.mode.resetCause == 5 &&
      t.hp.events.any fun x => x.code == 0x020A && x.data == 1) ∧
    nx (exec .perstAssert (mm State.reset fun m => { m with pins := { m.pins with perstHigh := true } })) (fun t => !t.mode.pins.perstHigh) ∧ nx (exec .perstDeassert m0) (fun t => t.mode.pins.perstHigh) := by decide
/-- The module in STANDBY, the Keep as given. -/
def stby (k : KeepState) : State := mm m0 fun m => { m with mode := .standby, domeRun := false, keep := k }
theorem wit_starts : State.reset.mode.mode = .ship ∧ (stby .run).mode.mode = .standby ∧ (stby .run).mode.starting = false ∧
    (stby .run).mode.fault = false ∧ (stby .run).mode.move = none ∧ (stby .run).mode.keep ≠ .halted ∧ (stby .run).mode.refLost = false ∧
    (stby .restart).mode.keep = .restart ∧ (stby .halted).mode.keep = .halted ∧
    m0.mode.mode ≠ .standby := by decide
theorem test_starts : nx (exec .wakeQualified State.reset) (fun t => t.mode.bootStep == 1 && t.mode.starting) ∧
    nx (exec .tfQualified State.reset) (fun t => t.mode.bootStep == 1 && t.mode.pins.tf) ∧
    nx (exec .warmStart (stby .run)) (fun t => t.mode.bootStep == 7 && t.mode.starting) ∧
    nx (exec .warmStart (stby .halted)) (fun t => t.mode.exitHeld && !t.mode.starting) ∧
    nx (exec .keepReferenceLoss (stby .run)) (fun t => t.mode.keep == .halted) ∧
    nx (exec .keepReferenceLoss (stby .restart)) (fun t => t.mode.keep == .restart && t.mode.refLost) ∧
    nx (exec .warmStart (mm (stby .restart) fun m => { m with refLost := true })) (fun t => t.mode.exitHeld && !t.mode.starting) ∧
    nx (exec (.keepReferenceReturn 25000000) (stby .halted)) (fun t => t.mode.keep == .run) ∧
    nx (exec .keyRising (stby .run)) (fun t => t.mode.bootStep == 7) ∧
    nx (exec .keyFalling m0) (fun t => t.mode.keyoffFrom == some 0) := by decide
/-- 40 s after a falling edge of KEY, with KEYOFF_STANDBY set, in a mode. -/
def keyoff (k : Mode) : State :=
  (mm { m0 with tick := { m0.tick with wall := 8000000000 } } fun m => { m with mode := k, keyoffFrom := some 0, keyoffWait := true }).putFlag
    R.MODE_KEY_KEYOFF_STANDBY true
theorem wit_keyoff : let s := keyoff .road
    s.clockOn = true ∧ s.mode.fault = false ∧ s.mode.move = none ∧ s.mode.keyoffFrom = some 0 ∧
    0 + s.get R.MODE_KEY_KEYOFF_DELAY * 200000000 ≤ s.tick.wall ∧ s.flag R.MODE_KEY_KEYOFF_STANDBY = true ∧ s.keepRuns = true ∧
    s.course.v.natAbs < 100000 ∧ s.mode.mode = .road ∧ (keyoff .ready).mode.mode = .ready ∧
    (m0.putFlag R.MODE_KEY_KEYOFF_STANDBY false).flag R.MODE_KEY_KEYOFF_STANDBY = false := by decide
theorem test_keyoff : nx (exec .keyoffDelayExpiry (keyoff .ready)) (fun t => (t.mode.move.map (·.hops)) == some [.standby]) ∧
    nx (exec .keyoffDelayExpiry (keyoff .field)) (fun t => (t.mode.move.map (·.hops)) == some [.ready, .standby]) ∧
    nx (exec .keyoffDelayExpiry { keyoff .road with course := { m0.course with v := 200000 } })
      (fun t => t.mode.move == none && t.mode.keyoffWait) ∧
    nx (exec .keyoffRoadMoveStart (keyoff .road)) (fun t => (t.mode.move.map (·.hops)) == some [.ready, .standby]) := by decide
/-- SERVICE at its ends. -/
def svcEnd : State := { mm { m0 with tick := { m0.tick with now := 200000000 } } fun m => { m with fastSince := some 0 } with
  otp := { m0.otp with unlockActive := true, unlockExpiry := 5 } }
theorem wit_service_end : svcEnd.mode.mode = .service ∧ svcEnd.mode.fastSince = some 0 ∧ 0 + 200000000 ≤ svcEnd.now ∧
    svcEnd.otp.unlockActive = true ∧ svcEnd.otp.unlockExpiry ≤ svcEnd.tick.now := by decide
theorem test_service_end : nx (exec .serviceOverspeedExit svcEnd) (fun t => (t.mode.move.map (·.hops)) == some [.ready]) ∧
    nx (exec .unlockExpiry svcEnd) (fun t => (t.mode.move.map (·.cause)) == some .expiry) := by decide
/-- A move in progress from a mode. -/
def moving (k : Mode) (hops : List Mode) (f : ModeSt → ModeSt := id) : State :=
  mm m0 fun m => f { m with mode := k, move := some { hops := hops, cause := .keyOff, len := 7 } }
theorem wit_hops : (moving .ready [.field]).mode.fault = false ∧ (moving .ready [.field]).clockOn = true ∧
    (moving .ready [.field]).mode.starting = false ∧ ((moving .ready [.field]).mode.move.map (·.req)) = some none ∧
    (moving .standby [.ready] fun m => { m with starting := true }).mode.pins.freezeLow = false ∧
    (moving .ready [.standby]).keepRuns = true ∧ { (moving .ready [.standby]).seqr with stopDone := true }.stopDone = true ∧
    (moving .standby [.ship]).mode.pins.tf = false := by decide
theorem test_hops : nx (exec .modeEntry (moving .ready [.field])) (fun t => t.mode.mode == .field && t.mode.move == none) ∧
    nx (exec .modeEntry (moving .ready [.road])) (fun t => t.mode.mode == .road) ∧
    nx (exec .modeEntry (moving .ready [.service])) (fun t => t.mode.mode == .service && t.otp.unlockExpiry == 7) ∧
    nx (exec .modeEntry (moving .road [.ready, .standby] fun m => { m with roadLock := true })) (fun t => t.mode.mode == .ready && !t.mode.roadLock) ∧
    nx (exec .modeEntry (moving .standby [.ready] fun m => { m with starting := true })) (fun t => t.mode.mode == .ready && t.mode.rwlLocked) ∧
    nx (exec .modeEntry { moving .ready [.standby] with seqr := { m0.seqr with stopDone := true } })
      (fun t => t.mode.mode == .standby && !t.mode.domeRun) ∧
    nx (exec .modeEntry (moving .standby [.ship])) (fun t => t.mode.mode == .ship && !t.mode.domeOn) := by decide
/-- A start at a step. -/
def boot (n : BitVec 5) : State := mm m0 fun m => { m with mode := .standby, starting := true, bootStep := n }
theorem wit_boot : (boot 2).mode.starting = true ∧ (boot 2).mode.fault = false ∧ taps.rise < 2000 ∧ 20000 ≤ taps.vp ∧
    (taps.cells.takeWhile fun v => 500 ≤ v).length = 10 ∧ taps.psw < 100 ∧ (boot 4).flt.active.contains 0x50 = false ∧
    (boot 5).flt.active.contains 0x42 = false ∧ (boot 6).keepRuns = true ∧ (boot 8).seqr.active = false ∧
    (mm (boot 8) fun m => { m with patchPend := true }).mode.patchPend = true ∧ (boot 8).mode.patchSwitch = false ∧
    (boot 2).mode.pins.tf = false ∧ (mm (boot 3) fun m => { m with pins := { m.pins with tf := true } }).mode.pins.tf = true := by decide
theorem test_boot : nx (exec (.bootTurretWake { vsel0Ohm := some 10000, addr := 3, headLow := true, stbyLow := false }) (boot 1))
      (fun t => t.mode.bootStep == 2 && t.mode.straps.vselMv == 5000) ∧
    nx (exec (.bootTurretWake { vsel0Ohm := some 50000, addr := 3, headLow := true, stbyLow := false }) (boot 1))
      (fun t => t.mode.straps.vselMv == 3300 && t.hp.events.any fun x => x.code == 0x0101) ∧
    nx (exec (.bootPackCheck taps) (boot 2)) (fun t => t.mode.bootStep == 3 && t.get R.PACK_STAT_CELLS_DET == 10) ∧
    nx (exec (.bootPackCheck { taps with rise := 2000 }) (boot 2)) (fun t => t.mode.mode == .ship) ∧
    nx (exec (.bootSoftClose true) (boot 3)) (fun t => t.mode.bootStep == 4 && t.power.sw == .closed) ∧
    nx (exec (.bootDomeRelease (some 25000000)) (boot 4)) (fun t => t.mode.bootStep == 5) ∧
    nx (exec (.bootDomeRelease (some 24499999)) (boot 4)) (fun t => t.mode.bootStep == 4 && t.mode.f3Pend == [⟨0x0B03, 0x50, false⟩]) := by decide
/-- Every Config block blank, and one with a word that its CRC does not cover. -/
def config (s : State) (b : Nat) : List W32 := ((s.otpNormal 0 0 128).1.drop (32 * b)).take 32
def spoilt : State := { boot 6 with otp := { m0.otp with config := [(40, 3)] } }
theorem wit_config : (∀ b, b < 4 → blockPasses (config (boot 6) b) = true) ∧ blockPasses (config spoilt 1) = false := by decide +kernel
theorem test_config : nx (exec (.bootOtpConfigRead false) (boot 6)) (fun t => t.mode.bootStep == 7 && !t.mode.restricted && t.otp.keyHashOk) ∧
    nx (exec (.bootOtpConfigRead false) spoilt) (fun t => t.mode.restricted &&
      t.get R.OTP_INTEG_CFG_PASS == 13 && t.hp.events.any fun x => x.code == 0x0102) := by decide +kernel
theorem test_boot_keep : nx (exec (.bootKeepBoot true) (boot 5)) (fun t => t.mode.bootStep == 6) ∧
    nx (exec (.bootKeepBoot false) (boot 5)) (fun t => t.mode.f3Pend == [⟨0x0B02, 0x42, false⟩]) ∧
    nx (exec (.bootOtpConfigRead true) (boot 6)) (fun t => t.mode.bootStep == 7 && t.mode.restricted) ∧
    nx (exec (.bootHkSelfCal [32768, 32768, 32768, 32768]) (boot 7)) (fun t => t.mode.bootStep == 8) ∧
    nx (exec (.bootRailStart 3300) (boot 8)) (fun t => t.seqr.active) := by decide

/-! ### Battery, charger and budget -/

/-- The switch and the charger in a state, with TF present. -/
def chg (st : Nat) (sw : SwState) (tf : Bool := true) : State :=
  (mp (mm m0 fun m => { m with pins := { m.pins with tf := tf } }) fun p => { p with sw := sw }).put R.CHG_STAT_STATE st
/-- 10 s on the wall clock. -/
def at10 (s : State) : State := wall s 2000000000
theorem wit_pack : (chg 0 .open_).mode.mode ≠ .ship ∧ (chg 0 .open_).power.sw = .open_ ∧ taps.cells.length ≤ 16 ∧
    ((chg 0 .open_).putFlag R.PACK_STAT_BUSKEEP true).flag R.PACK_STAT_BUSKEEP = true ∧ (at10 m0).power.lastCheck + 2000000000 ≤ (at10 m0).tick.wall ∧
    (at10 m0).power.lastProbe + 2000000000 ≤ (at10 m0).tick.wall ∧ 1 ≤ (chg 2 .closed).get R.CHG_STAT_STATE ∧ (chg 2 .closed).get R.CHG_STAT_STATE ≤ 3 := by decide
theorem test_pack : nx (exec (.packCheck taps) (chg 0 .open_)) (fun t => t.get R.PACK_STAT_PACK == 1 && t.power.vpMv == 33000) ∧
    nx (exec (.packCheck { taps with rise := 2000 }) (chg 0 .open_))
      (fun t => t.get R.PACK_STAT_PACK == 2 && t.hp.events.any fun x => x.code == 0x0601) ∧
    nx (exec (.packCheck { taps with vp := 1999 }) (chg 0 .open_)) (fun t => t.get R.PACK_STAT_PACK == 3) ∧
    nx (exec (.packCheck { taps with cells := List.replicate 9 3300 }) (chg 0 .open_)) (fun t => t.get R.PACK_STAT_PACK == 4) ∧
    nx (exec (.buskeepPackCheckTimer taps) (at10 ((chg 7 .open_).putFlag R.PACK_STAT_BUSKEEP true)))
      (fun t => t.get R.PACK_STAT_PACK == 1) ∧
    nx (exec (.chargeProbe 9 100) (at10 (chg 2 .closed))) (fun t => t.get R.PACK_STAT_PACK == 2 && t.power.bkPend) ∧
    nx (exec (.chargeProbe 10 100) (at10 (chg 2 .closed))) (fun t => !t.power.bkPend && t.power.halfUntil == some 2000200000) := by decide
/-- The pack found good, its switch open or closing. -/
def packOk (sw : SwState) : State := (mp (chg 0 sw) fun p => { p with
    vpMv := 33000, closeFrom := some 0, checked := true, ramp := some ⟨0, 30000, 33000⟩ }).put R.PACK_STAT_PACK 1
theorem wit_switch : (packOk .open_).get R.PACK_STAT_PACK = 1 ∧ (packOk .open_).power.sw = .open_ ∧
    (packOk .closing).power.closeFrom = some 0 ∧ 0 + 20000000 ≤ (wall (packOk .closing) 20000000).tick.wall ∧
    (packOk .closed).flt.active.contains 0x44 = false ∧
    (packOk .open_).power.checked = true ∧ (packOk .open_).flag R.PACK_STAT_BUSKEEP = false ∧
    (packOk .closing).power.ramp = some ⟨0, 30000, 33000⟩ ∧ 1000 * (33000 - 1000 - 30000) ≤ 11 * (182000 - 0) ∧ (chg 0 .closed false).mode.pins.tf = false := by decide
theorem test_switch : nx (exec (.packSwitchClose 34000) (packOk .open_)) (fun t => t.power.sw == .closed) ∧
    nx (exec (.packSwitchClose 34001) (packOk .open_)) (fun t => t.power.sw == .closing) ∧
    nx (exec (.packSwitchClose 32000) (wall (packOk .closing) 182000)) (fun t => t.power.sw == .closed) ∧
    nx (exec (.packSwitchClose 32000) (wall (packOk .closing) 180000)) (fun t => t.power.sw == .closing) ∧
    nx (exec (.packSwitchClose 33000) (mp (packOk .open_) fun p => { p with checked := false })) (fun t => t.power.sw == .open_) ∧
    nx (exec .packCloseTimeout (wall (packOk .closing) 20000000)) (fun t => t.power.sw == .open_ && t.get R.PACK_STAT_PACK == 3) ∧
    nx (exec .shortCircuitTrip (packOk .closed)) (fun t => t.power.sw == .open_ && t.power.bkPend) ∧
    nx (exec .shortCircuitTrip (chg 0 .closed false)) (fun t => t.mode.mode == .ship) := by decide
/-- Ten cells at a voltage. -/
def cells (s : State) (mv : Nat) : State :=
  (List.range 10).foldl (fun s k => s.put (R.CELL_V_MV k) mv) (s.put R.PACK_STAT_CELLS_DET 10)
/-- 60 s after every timer of the cells began. -/
def held60 (s : State) : State := mp (wall s 12000000000) fun p =>
  { p with uvFrom := some 0, preFrom := some 0, rechFrom := some 0, ovLowFrom := some 0, termRun := 300000 }
theorem wit_uv : (held60 m0).power.uvFrom = some 0 ∧ 0 + 12000000000 ≤ (held60 m0).tick.wall ∧
    (cells (chg 0 .closed false) 100).cellTimers.power.uvFrom = some 0 ∧
    (chg 0 .closed false).keepRuns = true ∧ (chg 0 .closed false).mode.mode ≠ .field ∧ (chg 0 .closed false).power.uvCutAt = none := by decide
theorem test_uv : nx (exec .uvCutoff (held60 (cells (chg 0 .closed false) 100))) (fun t => t.power.uvCutAt == some 12020000000) := by decide
theorem wit_charger : (packOk .closed).get R.CHG_STAT_STATE = 0 ∧ (packOk .closed).mode.pins.tf = true ∧
    (packOk .closed).flag R.CHG_CTRL_EN = true ∧ (packOk .closed).keepRuns = true ∧ (packOk .closed).mode.fault = false ∧ (held60 m0).power.termRun = 300000 ∧
    (chg 2 .closed).flag R.PACK_STAT_BUSKEEP = false ∧ (cells (chg 1 .closed) 3300).cellMv.all (fun v => m0.get R.CHG_V_PRE_MV + 100 ≤ v) ∧
    0 + m0.get R.CHG_CTRL_PRE_TMO * 12000000000 ≤ (wall m0 720000000000).tick.wall ∧
    0 + m0.get R.CHG_CTRL_CHG_TMO * 120000000000 ≤ (wall m0 7200000000000).tick.wall ∧ m0.hostWritable = true := by decide
theorem test_charger : nx (exec (.chargerStart 24000) (cells (packOk .closed) 3300)) (fun t => t.get R.CHG_STAT_STATE == 2) ∧
    nx (exec .tfLoss (chg 2 .closed)) (fun t => t.get R.CHG_STAT_STATE == 0 && !t.mode.pins.tf) ∧
    nx (exec .tfLoss ((chg 7 .open_).putFlag R.PACK_STAT_BUSKEEP true)) (fun t => t.mode.mode == .ship) ∧
    nx (exec .prechargeDone (held60 (chg 1 .closed))) (fun t => t.get R.CHG_STAT_STATE == 2) ∧
    nx (exec .chargeTimeout (wall (chg 1 .closed) 7200000000000)) (fun t => t.get R.CHG_STAT_STATE == 6) ∧
    nx (exec .chargeTimeout (wall (chg 3 .closed) 7200000000000)) (fun t => t.get R.CHG_STAT_STATE == 6) ∧
    nx (exec .chargeTermination (held60 (chg 3 .closed))) (fun t => t.get R.CHG_STAT_STATE == 4 && t.est.z == 10000) ∧
    nx (exec .recharge (held60 (chg 4 .closed))) (fun t => t.get R.CHG_STAT_STATE == 2) ∧
    nx (exec .recharge (chg 4 .closed)) (fun t => t.get R.CHG_STAT_STATE == 4) := by decide
theorem wit_charger_more : (cells (chg 4 .closed) 3000).cellMv.foldl (· + ·) 0 + 10 * m0.get R.CHG_TEMP_RECHG_MV < 10 * m0.get R.CHG_V_CV_MV ∧
    (cells (chg 2 .closed) 3000).cellsStale = true ∧ (chg 2 .closed).power.staleTold = false ∧
    (chg 2 .closed).flag R.CHG_STAT_OV_LATCH = false ∧ (chg 2 .closed).flt.active.contains 0x43 = false ∧
    ((chg 2 .closed).putFlag R.CHG_STAT_OV_LATCH true).flag R.CHG_STAT_OV_LATCH = true ∧ m0.turretLevel < 2 ∧
    (cells (chg 2 .closed) 3000).cellTimers.power.ovLowFrom = some 0 ∧ (cells (chg 4 .closed) 3000).cellTimers.power.rechFrom = some 0 ∧ (chg 2 .closed).get R.CHG_STAT_STATE ≠ 7 := by decide
theorem test_charger_more : nx (exec .cellDataStale (cells (chg 2 .closed) 3000)) (fun t => t.get R.CHG_STAT_STATE == 5) ∧
    nx (exec .chgRestart m0) (fun t => t.keepWrites.length == 1) ∧
    ((chg 6 .closed).keepApply R.CHG_CTRL 2).get R.CHG_STAT_STATE = 2 ∧
    nx (exec (.inputLimitTimeout true) (chg 2 .closed)) (fun t => t.flag R.CHG_STAT_LIM_VIN) ∧
    nx (exec (.cellOvTrip 5) (chg 2 .closed)) (fun t => t.flag R.CHG_STAT_OV_LATCH && !t.power.gatesOn) ∧
    nx (exec .ovLatchClear (held60 ((chg 2 .closed).putFlag R.CHG_STAT_OV_LATCH true))) (fun t => !t.flag R.CHG_STAT_OV_LATCH) ∧
    nx (exec .ovLatchClear ((chg 2 .closed).putFlag R.CHG_STAT_OV_LATCH true)) (fun t => t.flag R.CHG_STAT_OV_LATCH) := by decide
theorem wit_buskeep : (chg 2 .open_).mode.mode ≠ .ship ∧ (chg 2 .open_).mode.pins.tf = true ∧ (chg 2 .open_).flag R.PACK_STAT_BUSKEEP = false ∧
    2 ≤ ((chg 2 .open_).put R.PACK_STAT_PACK 2).get R.PACK_STAT_PACK ∧
    (m0.modCh 5 fun h => { h with guardUntil := some 0 }).ch 5 = { m0.ch 5 with guardUntil := some 0 } ∧ m0.power.gainDue = none :=
  ⟨by decide, by decide, by decide, by decide, rfl, by decide⟩
theorem test_buskeep : nx (exec .buskeepEntry ((chg 2 .open_).put R.PACK_STAT_PACK 2))
      (fun t => t.flag R.PACK_STAT_BUSKEEP && t.get R.CHG_STAT_STATE == 7) ∧
    nx (exec .buskeepExit ((mp (chg 7 .open_) fun p => { p with checked := true }).putFlag R.PACK_STAT_BUSKEEP true |>.put R.PACK_STAT_PACK 1))
      (fun t => t.power.sw == .closing && !t.flag R.PACK_STAT_BUSKEEP) ∧
    nx (exec .buskeepLowVbus ((chg 7 .open_).putFlag R.PACK_STAT_BUSKEEP true)) (fun t => t.hp.events.any fun x => x.code == 0x0615) ∧
    nx (exec (.pullInGuardEnd 5) (m0.modCh 5 fun h => { h with guardUntil := some 0 })) (fun t => (t.ch 5).guardUntil == none) := by decide
/-- A pack sample at full gain, and the charge counted two samples late (R333, R334). -/
def heldSmp : State := mp m0 fun p => { p with held := [⟨10000000, 26400, false, false, 0⟩, ⟨0, 26400, false, false, 0⟩] }
theorem test_pack_sample : nx (exec (.packSample 30720 26400 7) m0) (fun t => (t.reg R.PACK_V) == 33000 && (t.reg R.TF_I) == 7 &&
      t.power.gainDue == some true) ∧
    nx (exec (.packSample 0 26400 0) heldSmp) (fun t => t.power.qChg == 1000 * 65536 && t.power.qDis == 0) := by decide

/-! ### Opcodes -/

theorem wit_checks : ringTakes 0x30 3 = false ∧ ringTakes 0x20 1 = true ∧ (mm m0 fun m => { m with fault := true }).mode.fault = true ∧
    (m0in .field).hostMode = .field ∧ (m0in .standby).hostMode = .standby ∧ (m0in .ready).hostMode.isLink = true ∧
    ({ dsc [(15, 1)] with tag := 7 }).rsv ≠ 0 ∧ unusedZero 0x20 (dsc [(2, 3), (4, 1)]) = true ∧ rangesOk 0x20 (dsc [(2, 3), (4, 1)]) = true ∧
    (descChan (dsc [(2, 3)])).val / 16 ≠ 1 ∧ m0.hostMode = .service ∧ m0.mode.starting = false := by decide
theorem test_checks : m0.descCheck 3 0x30 (dsc []) = some 0x19 ∧ (mm m0 fun m => { m with fault := true }).descCheck 16 0x70 (dsc []) = some 0x24 ∧
    (m0in .field).descCheck 16 0x30 (dsc []) = some 0x10 ∧ m0.descCheck 16 0x22 (dsc [(15, 1)]) = some 0x13 ∧
    m0.descCheck 1 0x20 (dsc [(2, 3), (4, 1)]) = some 0x12 ∧ m0.descCheck 16 0x22 (dsc [(2, 3)]) = none := by decide
theorem wit_refused : m0.canStart 16 = true ∧ m0.mayRaise 0x0203 16 200000000 = true := by decide
theorem test_refused : says_ (.nop 16 (dsc [(15, 1)])) m0 16 0x13 ∧ says_ (.imgLoad 3 (dsc [])) m0 3 0x19 ∧
    nx (exec (.nop 16 (dsc [(15, 1)])) m0) (fun t => t.get (R.Q_CNT_REFUSED 16) == 1 && t.hp.events.any fun x => x.code == 0x0203) := by decide
/-- Channel opcodes: the ring can start them and the checks pass. -/
def prmW : Desc := dsc [(2, 3), (3, 5), (4, 2), (5, 1), (16, 9), (20, 8)]
/-- 256 bytes for PRM_LOAD in the lent buffer. -/
def prmL : Desc := dsc [(2, 3), (4, 5)] (List.replicate 256 1)
/-- A duty of 64 steps: CHK = NOT 0x40. -/
def man : Desc := dsc [(2, 3), (4, 0x40), (7, 0xBF), (8, 10)]
theorem wit_channel : m0.Takes 0 0x20 prmW ∧ (m0.ch 3).shadow.length = 64 ∧ (lent 16).Takes 16 0x21 prmL ∧
    m0.Takes 0 0x11 (dsc [(2, 3), (4, 9)]) ∧ m0.Takes 0 0x12 (dsc [(2, 3)]) ∧ m0.Takes 16 0x22 (dsc [(2, 3)]) ∧
    m0.Takes 16 0x22 (dsc [(2, 3), (3, 1)]) ∧ m0.Takes 16 0x23 man ∧ m0.implausible 3 (descWord man 4) = false ∧
    m0.implausible 3 (descWord (dsc [(2, 3), (8, 10)]) 4) = true ∧ m0.Takes 16 0x23 (dsc [(2, 3), (8, 10)]) ∧
    (m0.reg (R.BUD_TRIM 0)).getLsbD 3 = false :=
  ⟨⟨by decide +kernel, by decide +kernel⟩, by decide +kernel, ⟨by decide +kernel, by decide +kernel⟩, ⟨by decide +kernel, by decide +kernel⟩, ⟨by decide +kernel, by decide +kernel⟩,
    ⟨by decide +kernel, by decide +kernel⟩, ⟨by decide +kernel, by decide +kernel⟩, ⟨by decide +kernel, by decide +kernel⟩, by decide +kernel, by decide +kernel, ⟨by decide +kernel, by decide +kernel⟩, by decide +kernel⟩
theorem wit_run : (m0.putFlag (R.CH_ENG_CTRL_RUN 3) true).flag (R.CH_ENG_CTRL_RUN 3) = true ∧ m0.mode.mode ≠ .field ∧
    (m0.putFlag (R.CH_ENG_STAT_LOADED 3) true).flag (R.CH_ENG_STAT_LOADED 3) = true ∧ m0.flag (R.CH_ENG_CTRL_RUN 3) = false ∧
    (m0.ch 3).ctl = some 3 ∧ (m0.modCh 3 fun h => { h with manual := some ⟨0⟩ }).ch 3 = { m0.ch 3 with manual := some ⟨0⟩ } :=
  ⟨by decide, by decide, by decide, by decide, by decide, rfl⟩
theorem test_prm : nx (exec (.prmWrite 0 prmW) m0) (fun t => ans t 0 == [(0, 0)] && ((t.ch 3).shadow.drop 5).take 3 == [9, 8, 0] && (t.ch 3).prmCommit) ∧
    nx (exec (.prmLoad 16 prmL) (lent 16)) (fun t => (t.ch 3).shadow == List.replicate 64 0x01010101) := by decide +kernel
theorem test_channel_ops : nx (exec (.reachCancel 0 (dsc [(2, 3), (4, 9)])) m0) (fun t => (t.ch 3).seqr.cancels.length == 1 && ans t 0 == []) ∧
    nx (exec (.reachFlush 0 (dsc [(2, 3)])) m0) (fun t => (t.ch 3).seqr.cancels.length == 1) ∧
    nx (exec (.chRun 16 (dsc [(2, 3)])) (m0.putFlag (R.CH_ENG_CTRL_RUN 3) true)) (fun t => !t.flag (R.CH_ENG_CTRL_RUN 3) && (t.ch 3).stopReq) ∧
    nx (exec (.chRun 16 (dsc [(2, 3), (3, 1)])) (m0.putFlag (R.CH_ENG_STAT_LOADED 3) true))
      (fun t => t.flag (R.CH_ENG_CTRL_RUN 3) && t.eng[(3 : Eng)].running) ∧
    nx (exec (.manual 16 man) m0) (fun t => (t.ch 3).manual == some ⟨2000000⟩ && (t.ch 3).flight == [⟨64, 12, none⟩]) ∧
    says_ (.manual 16 (dsc [(2, 3), (8, 10)])) m0 16 0x13 ∧
    nx (exec (.manualPeriodEnd 3) (m0.modCh 3 fun h => { h with manual := some ⟨0⟩ })) (fun t => (t.ch 3).manual == none &&
      (t.ch 3).flight == [⟨0, 12, none⟩]) := by decide +kernel
/-- An image of one word of code, and its descriptor. -/
def img : List Byte :=
  [0x46, 0x52, 0x4A, 0x4E, 1, 0, 64, 0, 9, 0, 0, 0, 0, 0, 0, 0, 4, 0, 0, 0, 0, 0, 0, 0, 0, 0, 0, 0, 1, 0, 0, 0] ++ List.replicate 100 0
def imgD (b : List Byte) : Desc := dsc [(2, 3), (3, 3), (4, 5), (8, 132)] b
theorem wit_image : (lent 16).Takes 16 0x30 (imgD img) ∧ (lent 16).Takes 16 0x31 (dsc [(4, 5)] img) ∧
    (lent 16).lendOf 5 = some ⟨5, 16, 0x1000, 4096⟩ ∧ headerOk img = true ∧ headerOk [] = false ∧ imageLen img ≤ 4096 - 132 ∧
    4096 - 4000 < imageLen img := ⟨⟨by decide, by decide⟩, ⟨by decide, by decide⟩, by decide, by decide, by decide, by decide, by decide⟩
theorem test_image : nx (exec (.imgLoad 16 (imgD img)) (lent 16)) (fun t => t.otp.reqs.length == 1 && ans t 16 == []) ∧
    nx (exec (.imgCheck 16 (dsc [(4, 5)] img)) (lent 16)) (fun t => t.otp.reqs.length == 1) ∧
    says_ (.imgLoad 16 (imgD [])) (lent 16) 16 0x1B ∧
    says_ (.imgCheck 16 (dsc [(4, 5), (8, 0xA0), (9, 0x0F)] img)) (lent 16) 16 0x1C := by decide
/-- READY with a key digest that passed, and a token buffer. -/
def rdy : State := { lent 16 (m0in .ready) with otp := { m0.otp with keyHashOk := true } }
def unl (b : List Byte) : Desc := dsc [(4, 5), (12, 128)] b
/-- The token of the present challenge and of this unit, for 9 minutes. -/
def token : List Byte :=
  [0x55, 0x4E, 0x4C, 0x4B] ++ ((List.range 4).flatMap fun k => leBytes 4 (Config.challenge 0 k).toNat) ++
    ((List.range 3).flatMap fun k => leBytes 4 (Config.unitWord (2 + k)).toNat) ++ [9, 0] ++ List.replicate 94 0
theorem wit_unlock : rdy.Takes 16 0x73 (unl []) ∧ rdy.mode.move = none ∧ rdy.course.v.natAbs < 100000 ∧ rdy.otp.keyHashOk = true :=
  ⟨⟨by decide, by decide⟩, by decide, by decide, by decide⟩
theorem wit_token : rdy.tokenOk (slice (unl token).buf 0 128) = true := by
  have h1 : slice (slice (unl token).buf 0 128) 4 16 = (List.range 4).flatMap fun k => leBytes 4 (Config.challenge rdy.otp.draws k).toNat := rfl
  have h2 : slice (slice (unl token).buf 0 128) 20 12 = (List.range 3).flatMap fun k => leBytes 4 (Config.unitWord (2 + k)).toNat := rfl
  unfold State.tokenOk
  rw [h1, h2]
  simp only [decide_true, Bool.and_true]
  decide
theorem wit_no_token : rdy.tokenOk (slice (unl []).buf 0 128) = false := by decide
theorem test_unlock : nx (exec (.serviceUnlock 16 (unl [])) rdy) (fun t => ans t 16 == [(0x1A, 0)] && t.otp.draws == 1) := by decide

/-- An IMG_CHECK that waits for its answer: TAG 7 from slot 255 of ring 16. -/
def checking : State :=
  ((wall m0 360000).modRing 16 fun r => { r with exec := some ⟨0x31, 7, 255, 0⟩ }).modOtp fun o => { o with reqs := [.image 0x31 img 3 3 7 255] }
def checked : BitVec 8 × State :=
  let p := ({ checking with otp := { checking.otp with reqs := [] } }).imgAnswer (byteAt img 32) true (slice img 0 (imageLen img - 64))
    (slice img (imageLen img - 64) 64)
  (p.1.setWidth 8, p.2)
theorem wit_answer : checking.clockOn = true ∧ checking.otp.imgFrom + 360000 ≤ checking.tick.wall ∧ checking.otp.load = none ∧ checking.otp.reqs = [.image 0x31 img 3 3 7 255] ∧
    checked.2.hp.rings[(16 : Ring)].exec = some ⟨0x31, 7, 255, 0⟩ ∧ checked.2.hp.rings[(16 : Ring)].pend = [] := by decide
theorem test_answer : nx (exec .imageCheckAnswer checking) (fun t => t.hp.rings[(16 : Ring)].exec == none && (ans t 16).length == 1) := by decide
/-- A copy under way into channel 3. -/
def copying3 : State := (wall m0 1).modCh 3 fun h => { h with copying := some { code := [0], entry := 0 } }
theorem wit_copy : (copying3.ch 3).copyFrom + (1 + 0 + 1) / 2 ≤ copying3.tick.wall ∧ copying3.clockOn = true ∧ (copying3.ch 3).copying = some { code := [0], entry := 0 } ∧ (copying3.ch 3).ctl = some 3 ∧ copying3.otp.load = none := by decide
theorem test_copy : nx (exec (.imageCopyDone 3) (wall copying3 0)) (fun t => (t.ch 3).copying.isSome) ∧
    nx (exec (.imageCopyDone 3) copying3) (fun t => (t.ch 3).copying == none && t.eng[(3 : Eng)].running &&
    t.flag (R.CH_ENG_STAT_LOADED 3)) := by decide +kernel
/-- LEND of 64 bytes under tag 5 by ring 18, and RECLAIM. -/
def lendD : Desc := dsc [(4, 5), (8, 64), (17, 0x10)]
theorem wit_lend : m0.Takes 18 0x40 lendD ∧ m0.lendOf 5 = none ∧ m0.lendsOf 18 < 64 ∧ ((lent 18).lendOf 5).isSome ∧ (lent 18).Takes 18 0x40 lendD ∧
    (lent 18).Takes 18 0x41 (dsc [(4, 5)]) ∧ m0.Takes 18 0x41 (dsc [(4, 5)]) ∧ (lent 18).Takes 18 0x42 (dsc []) ∧
    ((lent 18).hp.lends.map (·.tag)).Nodup ∧ (lent 18).LendsIdle :=
  ⟨⟨by decide, by decide⟩, by decide, by decide, by decide, ⟨by decide, by decide⟩, ⟨by decide, by decide⟩, ⟨by decide, by decide⟩,
    ⟨by decide, by decide⟩, by decide, ⟨by decide, by decide, by decide, by decide, by decide, by decide, by decide⟩⟩
/-- 64 lends of one ring. -/
def full64 : State := { m0 with hp := { m0.hp with lends := (List.range 64).map fun k => ⟨BitVec.ofNat 32 (k + 100), 18, 0x1000, 64⟩ } }
theorem wit_lend_full : full64.Takes 18 0x40 lendD ∧ full64.lendOf 5 = none ∧ 64 ≤ full64.lendsOf 18 := ⟨⟨by decide, by decide⟩, by decide, by decide⟩
theorem test_lend : says_ (.lend 18 lendD) m0 18 0 1 ∧ says_ (.lend 18 lendD) (lent 18) 18 0x1F ∧ says_ (.lend 18 lendD) full64 18 0x20 ∧
    says_ (.reclaim 18 (dsc [(4, 5)])) (lent 18) 18 0 0 ∧ says_ (.reclaim 18 (dsc [(4, 5)])) m0 18 0x1D ∧
    says_ (.reclaimAll 18 (dsc [])) (lent 18) 18 0 1 := by decide
/-- A buffer of 32 KiB lent to ring 19, and a SNAP_AT for tick 100,000. -/
def lent19 : State := { m0 with hp := { m0.hp with lends := [⟨5, 19, 0x1000, 32768⟩] } }
def snapD (lo : Byte) : Desc := dsc [(4, 5), (16, lo), (17, 0x86), (18, 1)]
/-- The snapshot of TAG 7 pending, and latched with its image written. -/
def req7 : SnapReq := { tag := 7, slot := 255, ltag := 5, off := 0, tick := some 0, casc := false }
def snapping (f : Arb → Arb) : State :=
  { lent19.modRing 19 fun r => { r with pend := [⟨0x50, 7, 255, 0⟩] } with arb := f m0.arb }
theorem wit_snap : lent19.Takes 19 0x50 (snapD 0xA0) ∧ descLe (snapD 0xA0) 16 8 = 100000 ∧ lent19.now + 100000 ≤ descLe (snapD 0xA0) 16 8 ∧
    lent19.Takes 19 0x50 (snapD 0x9F) ∧ descLe (snapD 0x9F) 16 8 < lent19.now + 100000 ∧ lent19.arb.snaps.length + lent19.arb.images.length < 4 ∧
    lent19.Takes 19 0x51 (dsc [(4, 7)]) ∧ (snapping fun a => { a with snaps := [req7] }).Takes 19 0x51 (dsc [(4, 7)]) ∧
    req7.tag.toNat = descLe (dsc [(4, 7)]) 4 2 :=
  ⟨⟨by decide, by decide⟩, by decide, by decide, ⟨by decide, by decide⟩, by decide, by decide, ⟨by decide, by decide⟩, ⟨by decide, by decide⟩, by decide⟩
theorem wit_snap_latch : (snapping fun a => { a with snaps := [req7] }).lendOf req7.ltag = some ⟨5, 19, 0x1000, 32768⟩ ∧ req7.tick = some 0 ∧
    0 ≤ (snapping id).now ∧ (snapping fun a => { a with images := [⟨req7, 0⟩] }).dataLeft (.snap 7 255) = false ∧
    (snapping id).hp.rings[(19 : Ring)].exec = none ∧ (snapping id).hp.rings[(19 : Ring)].pend = [⟨0x50, 7, 255, 0⟩] := by decide
theorem test_snap : nx (exec (.snapAt 19 (snapD 0xA0)) lent19) (fun t => t.arb.snaps.length == 1 && ans t 19 == []) ∧
    says_ (.snapAt 19 (snapD 0x9F)) lent19 19 0x23 ∧ says_ (.snapCancel 19 (dsc [(4, 7)])) lent19 19 0 ∧
    nx (exec (.snapCancel 19 (dsc [(4, 7)])) (snapping fun a => { a with snaps := [req7] })) (fun t => t.arb.snaps == []) ∧
    nx (exec .snapshotLatch (snapping fun a => { a with snaps := [req7] })) (fun t => t.arb.snaps == [] && t.arb.images == [⟨req7, 0⟩]) ∧
    nx (exec .snapshotWriteDone (snapping fun a => { a with images := [⟨req7, 0⟩] })) (fun t => ans t 19 == [(0, 0)] && t.arb.images == []) := by decide
/-- Engine 3's Eddy buffer with one record, and its copy under TAG 7. -/
def eddy3 : State :=
  { (lent 18).modEng 3 fun x => { x with eddy := { x.eddy with recs := [⟨List.replicate 8 1⟩] } } with arb := m0.arb }
def eddyD : Desc := dsc [(3, 3), (4, 5), (18, 3)]
def copyE : EddyCopy := { e := 3, ltag := 5, held := 1, tag := 7, slot := 255 }
def eddyC : State := { eddy3.modRing 18 fun r => { r with pend := [⟨0x52, 7, 255, 0⟩] } with arb := { m0.arb with copies := [copyE] } }
theorem wit_eddy : eddy3.Takes 18 0x52 eddyD ∧ eddy3.roleChanged eddyD = false ∧ eddy3.Takes 18 0x53 (dsc [(3, 3), (18, 3)]) ∧
    eddy3.Takes 18 0x53 (dsc [(3, 3)]) ∧ eddy3.roleChanged (dsc [(3, 3)]) = true ∧ eddyC.arb.copies = [copyE] ∧ eddyC.dataLeft (.eddy 7 255) = false ∧
    eddyC.hp.rings[(18 : Ring)].exec = none ∧ eddyC.hp.rings[(18 : Ring)].pend = [⟨0x52, 7, 255, 0⟩] :=
  ⟨⟨by decide, by decide⟩, by decide, ⟨by decide, by decide⟩, ⟨by decide, by decide⟩, by decide, by decide, by decide, by decide, by decide⟩
theorem test_eddy : nx (exec (.eddyRead 18 eddyD) eddy3) (fun t => (t.arb.data.flatMap (·.bytes)).length == 32 && t.eng[(3 : Eng)].eddy.copying) ∧
    says_ (.eddyClear 18 (dsc [(3, 3), (18, 3)])) eddy3 18 0 1 ∧ says_ (.eddyClear 18 (dsc [(3, 3)])) eddy3 18 0x18 ∧
    nx (exec .eddyReadDone eddyC) (fun t => ans t 18 == [(0, 1)] && t.arb.copies == []) := by decide
/-- Power and admin opcodes. -/
def pwr (lo : Byte) : Desc := dsc [(2, lo), (3, 0x20), (4, 0x88), (5, 0x13), (8, 0xFF), (9, 0xFF)]
theorem wit_power : m0.Takes 17 0x60 (pwr 0x10) ∧ descLe (pwr 0x10) 2 2 = R.CHG_IN ∧ m0.Takes 17 0x61 (dsc [(2, 0x18), (3, 0x20)]) ∧
    isWide 0x2018 = false ∧ isHigh 0x2018 = false ∧ m0.Takes 17 0x62 (dsc [(2, 1)]) :=
  ⟨⟨by decide, by decide⟩, by decide, ⟨by decide, by decide⟩, by decide, by decide, ⟨by decide, by decide⟩⟩
theorem test_power : nx (exec (.pwrWrite 17 (pwr 0x10)) m0) (fun t => t.get R.CHG_IN_IIN_MA == 5000) ∧
    says_ (.pwrRead 17 (dsc [(2, 0x18), (3, 0x20)])) m0 17 0 0x3C1E140D ∧
    nx (exec (.buskeepAck 17 (dsc [(2, 1)])) m0) (fun t => t.flag R.PACK_STAT_BK_ACK) := by decide
/-- MODE_REQ for a mode. -/
def req (n : Byte) : Desc := dsc [(2, n)]
/-- READY with `KEY` high, a speed source and a program in every channel in use. -/
def rdyF (key : Bool) : State :=
  { mm (m0in .ready) (fun m => { m with pins := { m.pins with key := key } }) with course := { m0.course with speedSrc := 1 } }
theorem wit_mode_req : (m0in .ready).Takes 16 0x70 (req 2) ∧ (m0in .ready).mode.starting = false ∧ (rdyF true).Takes 16 0x70 (req 3) ∧
    (rdyF true).mode.pins.key = true ∧ (rdyF true).mode.restricted = false ∧ (rdyF true).noProgram = false ∧ (rdyF true).course.speedSrc ≠ 0 ∧
    (rdyF true).flag R.PACK_STAT_BUSKEEP = false ∧ (rdyF false).mode.pins.key = false ∧ (m0in .field).Takes 16 0x70 (req 4) ∧
    (m0in .road).Takes 16 0x70 (req 2) ∧ (m0in .road).course.v.natAbs < 100000 :=
  ⟨⟨by decide +kernel, by decide +kernel⟩, by decide +kernel, ⟨by decide +kernel, by decide +kernel⟩, by decide +kernel, by decide +kernel, by decide +kernel, by decide +kernel, by decide +kernel, by decide +kernel,
    ⟨by decide +kernel, by decide +kernel⟩, ⟨by decide +kernel, by decide +kernel⟩, by decide +kernel⟩
theorem test_mode_req : says_ (.modeReq 16 (req 2)) (m0in .ready) 16 0 2 ∧ says_ (.modeReq 16 (req 1)) (m0in .ready) 16 0 1 ∧
    nx (exec (.modeReq 16 (req 4)) (m0in .ready)) (fun t => (t.mode.move.map (·.hops)) == some [.road] && t.mode.roadLock) ∧
    nx (exec (.modeReq 16 (req 3)) (rdyF true)) (fun t => (t.mode.move.map (·.hops)) == some [.field]) ∧
    says_ (.modeReq 16 (req 3)) (rdyF false) 16 0x22 1 ∧
    nx (exec (.modeReq 16 (req 4)) (m0in .field)) (fun t => (t.mode.move.map (·.hops)) == some [.road]) ∧
    says_ (.modeReq 16 (req 2)) { m0in .road with course := { m0.course with v := 100000 } } 16 0x22 32 := by decide +kernel
theorem wit_admin : m0.Takes 16 0x71 (dsc [(2, 0x5A)]) ∧ m0.Takes 16 0x72 (dsc []) ∧ m0.mode.mode.isLink = true ∧ m0.mode.bootStep = 0 ∧ m0.mode.fault = false ∧ m0.mode.frozen = false ∧
    m0.Takes 16 0x80 (dsc []) ∧ m0.Takes 16 0x81 (dsc []) ∧ m0.hp.rings[(16 : Ring)].pend = [] ∧
    (m0.modRing 16 fun r => { r with pend := [⟨0x50, 7, 255, 0⟩] }).Takes 16 0x81 (dsc []) ∧ m0.Takes 16 0x82 (dsc [(2, 20)]) :=
  ⟨⟨by decide, by decide⟩, ⟨by decide, by decide⟩, by decide, by decide, by decide, by decide, ⟨by decide, by decide⟩, ⟨by decide, by decide⟩, by decide,
    ⟨by decide, by decide⟩, ⟨by decide, by decide⟩⟩
theorem test_admin : nx (exec (.reset 16 (dsc [(2, 0x5A)])) m0) (fun t => ans t 16 == [(0, 0)] && t.mode.resetWait == some (.command, 7) && t.mode.pendingReset == none) ∧
    nx (exec (.freeze 16 (dsc [])) m0) (fun t => t.frz.trig.isSome && ans t 16 == []) ∧ says_ (.nop 16 (dsc [])) m0 16 0 ∧
    says_ (.barrier 16 (dsc [])) m0 16 0 ∧
    says_ (.ringQuery 16 (dsc [(2, 20)])) (m0.modRing 20 fun r => { r with pi := 3, ci := 2 }) 16 0 0x20003 := by decide

/-! ### Power stages -/

/-- Channel 3 enabled in the high range, with a change of its state. -/
def on3 (f : Chan → Chan := id) : State :=
  (((m0.putFlag (R.CH_STAGE_CFG_ENABLE 3) true).put (R.CH_STAGE_CFG_RANGE 3) 2).putFlag (R.CH_ENG_CTRL_RUN 3) true).modCh 3 f
def st3 (f : Stage → Stage) : State := on3 fun h => { h with stage := f h.stage }
def smpIn : SampleIn := { iCode := 64, vCode := 820, snsMv := 0, ldoMv := 3300, members := [] }
/-- Channel 3 in FIELD, a carrier centre on tick 0, and 5,000 ticks later: a valley. -/
def run3 (f : Stage → Stage := id) : State :=
  { later (st3 fun g => { f g with phase := some 0 }) 5000 with mode := { m0.mode with mode := .field } }
theorem wit_grids : run3.clockOn = true ∧ run3.dieHot 3 = false ∧ (run3.ch 3).stage.iAt ≠ some run3.now ∧ (run3.ch 3).stage.phase = some 0 ∧
    (run3.now - 0) % 50 = 0 ∧ (run3.now - 0) % 200 = 0 ∧ (later run3 5010).now % 50 ≠ 0 ∧ run3.nextInstant 3 = none ∧
    (run3.ch 3).measI = none ∧ run3.output 3 = .low ∧ (run3 fun g => { g with on := 800 }).driven 3 = true := by decide
theorem wit_samples : on3.clockOn = true ∧ on3.dieHot 3 = false ∧ on3.leadOf 3 = 3 ∧ on3.topoOf 3 = 0 ∧ on3.fixedRange 3 = some true ∧
    (64 : Int).natAbs ≤ 8191 ∧ (on3.put (R.CH_STAGE_CFG_SNS 3) 4).get (R.CH_STAGE_CFG_SNS 3) = 4 ∧ (on3.ch 3).stage.snsVal.toNat < 65536 ∧
    ((on3 fun h => { h with instant := some 0 }).ch 3).instant = some 0 ∧ ((on3 fun h => { h with latchDue := some 0 }).ch 3).latchDue = some 0 ∧
    (on3.ch 3).ctl = some 3 ∧ (on3.ch 3).takeover = none := by decide
theorem test_samples : nx (exec (.currentSample 3 64) (run3.putFlag (R.CH_ENG_CTRL_ISTRM_EN 3) true)) (fun t => (t.ch 3).stage.iNow == 125000 &&
      (t.ch 3).istrm.length == 1) ∧
    nx (exec (.voltageSample 3 820) run3) (fun t => (t.ch 3).stage.vNow == 0 && (t.ch 3).vstrm == []) ∧
    nx (exec (.currentSample 3 64) (later run3 5010)) (fun t => (t.ch 3).stage.iNow == 0) ∧
    nx (exec (.snsEdge 3 true) (on3.put (R.CH_STAGE_CFG_SNS 3) 4)) (fun t => (t.ch 3).stage.snsVal == 65537 && (t.ch 3).snse.length == 1) ∧
    nx (exec (.controlSampleInstant 3 smpIn) (on3 fun h => { h with instant := some 0 }))
      (fun t => (t.ch 3).latchDue == some 60 && (t.ch 3).smpNext.i == 125000 && (t.ch 3).smpNext.v == 0 && (t.ch 3).stage.phase == some 0) ∧
    nx (exec (.controlSampleInstant 3 smpIn) (on3 fun h => { h with instant := some 0, stage := { h.stage with waitSample := true, pend := some ⟨800, 0, none⟩ } }))
      (fun t => (t.ch 3).stage.cmdOn == 800 && (t.ch 3).stage.pend == none) ∧
    nx (exec (.sampleEventLatch 3) (on3 fun h => { h with latchDue := some 0 })) (fun t => t.eng[(3 : Eng)].pend == 1 && (t.ch 3).smp.seq == 1) := by decide
def cmd (on : Int) (due : Nat) : DutyCmd := ⟨on, due, some (4, 0)⟩
theorem wit_update : (on3 fun h => { h with flight := [cmd 800 0] }).clockOn = true ∧ (cmd 800 0).due + 2 ≤ run3.now ∧
    run3.now < (cmd 800 4999).due + 2 ∧ run3.acting 3 (R.CH_PWM_PERIOD 3) = 10000 ∧ (run3.now - 0) % 10000 = 10000 / 2 ∧
    ((later run3 10000).now - 0) % 10000 = 0 ∧ run3.leadOf 3 = 3 ∧ run3.topoOf 3 = 0 ∧ (run3.ch 3).stage.pointAt ≠ some run3.now ∧ (on3.ch 3).stage.waitSample = false ∧ (on3.ch 3).stage.soft = false ∧
    (cmd 800 0).answers = some (4, 0) := by decide
theorem test_update : nx (exec (.dutyCommandArrival 3) (on3 fun h => { h with flight := [cmd 800 0] }))
      (fun t => (t.ch 3).flight == [] && (t.ch 3).stage.pend == some (cmd 800 0)) ∧
    nx (exec (.carrierUpdatePoint 3 false) (run3 fun g => { g with pend := some (cmd 800 0) }))
      (fun t => (t.ch 3).stage.on == 800 && (t.ch 3).stage.rise == 800 && (t.ch 3).stage.report == some (5000, false, cmd 800 0)) ∧
    nx (exec (.carrierUpdatePoint 3 true) (later (run3 fun g => { g with pend := some (cmd 800 0) }) 10000))
      (fun t => (t.ch 3).stage.on == 800 && (t.ch 3).stage.rise == 0) ∧
    nx (exec (.carrierUpdatePoint 3 true) (run3 fun g => { g with pend := some (cmd 800 0) })) (fun t => (t.ch 3).stage.on == 0) ∧
    nx (exec (.carrierUpdatePoint 3 false) (run3 fun g => { g with pend := some (cmd 79 0) })) (fun t => (t.ch 3).stage.on == 0) ∧
    nx (exec (.carrierUpdatePoint 3 false) (run3 fun g => { g with pend := some (cmd 800 4999) })) (fun t => (t.ch 3).stage.on == 0) ∧
    nx (exec (.dlyReport 3) (st3 fun g => { g with report := some (2, true, cmd 800 0) }))
      (fun t => (t.ch 3).smp.dly == 0x1000002 && (t.ch 3).smp.dlySeq == 4 && t.eng[(3 : Eng)].pend == 0x80) := by decide
theorem wit_limits : (run3 fun g => { g with on := 800 }).driven 3 = true ∧ (run3 fun g => { g with on := 800 }).topoOf 3 = 0 ∧
    (run3 fun g => { g with on := 800 }).leadOf 3 = 3 ∧ 3 ∈ run3.groupOf 3 ∧ ((run3 fun g => { g with on := 800 }).output 3).isPwm = true ∧
    (st3 fun g => { g with budget := 0 }).contRating 3 * 1000 ≥ ((st3 fun g => { g with budget := 0 }).groupUa 3).natAbs ∧
    min 36000000 ((st3 fun g => { g with budget := 0 }).ch 3).stage.budget = 0 ∧ (on3.ch 3).stage.peakExh = false ∧
    (on3.ch 3).stage.hiccupUntil = none ∧ on3.get (R.CH_HICCUP_COUNT 3) ≤ 255 ∧ on3.mayRaise (chCode 3 0x53) 3 200000000 = true ∧
    (on3.ch 3).stage.openLoad = false := by decide
theorem test_limits : nx (exec (.currentLimitReached 3) (run3 fun g => { g with on := 800, rise := 800 })) (fun t => (t.ch 3).stage.hsOff) ∧
    nx (exec (.peakBudgetExhausted 3) (st3 fun g => { g with budget := 0 })) (fun t => (t.ch 3).stage.peakExh) ∧
    nx (exec (.peakBudgetRestored 3) (st3 fun g => { g with budget := 18000000, peakExh := true })) (fun t => !(t.ch 3).stage.peakExh) ∧
    nx (exec (.hiccupStart 3) (st3 fun g => { g with limRun := 255 })) (fun t => (t.ch 3).stage.hiccupUntil.isSome) ∧
    nx (exec (.hiccupEnd 3) (st3 fun g => { g with hiccupUntil := some 0 })) (fun t => (t.ch 3).stage.soft) ∧
    nx (exec (.openLoadDetect 3) (st3 fun g => { g with openRun := 100 })) (fun t => (t.ch 3).stage.openLoad) := by decide
/-- Leg A out of service. -/
def outA (worn : Bool) : State := st3 fun g => { g with legA := { g.legA with inService := false, why := 2, worn := worn } }
theorem wit_legs : ((on3.ch 3).stage.leg .a).inService = true ∧ on3.mode.frozen = false ∧ (on3.ch 3).stage.frzDesat = none ∧
    (on3.ch 3).stage.legs = 2 ∧ 1000000 ≤ (2000000 : Int).natAbs + (0 : Int).natAbs ∧
    3 * ((2000000 : Int).natAbs + (0 : Int).natAbs) < 10 * ((2000000 : Int) - 0).natAbs ∧ ((outA true).ch 3).stage.legA.worn = true ∧
    ((outA false).ch 3).stage.legA.inService = false ∧ ((outA false).ch 3).stage.legB.inService = true ∧ on3.mode.mode ≠ .field ∧
    (frozen.ch 3).stage.frzDesat = none ∧ ((frozen.ch 3).stage.leg .a).inService = true := by decide
theorem test_legs : nx (exec (.desaturation 3 .a true false) on3) (fun t => !(t.ch 3).stage.legA.inService && (t.ch 3).stage.legA.why == 2 &&
      t.hp.events.any fun x => x.code == 0x1050 && x.cls == 1) ∧
    nx (exec (.desaturation 3 .a true false) (st3 fun g => { g with legB := { g.legB with inService := false } }))
      (fun t => t.hp.events.any fun x => x.code == 0x1051 && x.cls == 2) ∧
    nx (exec (.desaturation 3 .a true false) frozen) (fun t => (t.ch 3).stage.frzDesat == some (.a, true, false)) ∧
    nx (exec (.legImbalance 3 2000000 0 false) on3) (fun t => (t.ch 3).stage.imbRun == 1) ∧
    nx (exec (.legImbalance 3 2000000 0 false) (st3 fun g => { g with imbRun := 2 })) (fun t => !(t.ch 3).stage.legB.inService) ∧
    nx (exec (.chLegRestore 3) (outA false)) (fun t => (t.ch 3).stage.legA.inService && (t.ch 3).stage.legA.restores == 1) ∧
    nx (exec (.chLegRestore 3) (outA true)) (fun t => !(t.ch 3).stage.legA.inService) := by decide
theorem wit_links : (∀ k : Ch, k.val / 8 = 0 → (m0.ch k).stage.linkSafe = false) ∧
    ((st3 fun g => { g with linkSafe := true }).ch 3).stage.linkSafe = true := by decide
theorem test_links : nx (exec (.stageLinkLoss 0) m0) (fun t => (t.ch 7).stage.linkSafe && !(t.ch 8).stage.linkSafe) ∧
    nx (exec (.stageLinkRestore 0) (st3 fun g => { g with linkSafe := true })) (fun t => !(t.ch 3).stage.linkSafe && (t.ch 3).stage.waitSample) := by decide
theorem wit_set_up : m0.leadOf 3 = 3 ∧ m0.topoOf 3 = 0 ∧ fieldOf 1 (R.CH_STAGE_CFG_TOPO 3) = 0 ∧ m0.flag (R.CH_STAGE_CFG_ENABLE 3) = false ∧
    fieldOf 1 (R.CH_STAGE_CFG_ENABLE 3) = 1 ∧ m0.get (R.CH_PWM_PERIOD 3) ≠ 0 ∧
    (m0.units[smpUnit 3]).period.toNat % m0.get (R.CH_PWM_PERIOD 3) = 0 ∧
    1 ≤ (m0.units[smpUnit 3]).period.toNat / m0.get (R.CH_PWM_PERIOD 3) ∧ (m0.units[smpUnit 3]).period.toNat / m0.get (R.CH_PWM_PERIOD 3) ≤ 200 ∧
    (m0.units[smpUnit 3]).period.toNat % (m0.put (R.CH_PWM_PERIOD 3) 3001).get (R.CH_PWM_PERIOD 3) ≠ 0 ∧ (m0in .field).mode.mode = .field := by decide +kernel
theorem test_set_up : nx (exec (.chStageCfgWrite 3 1) m0) (fun t => (t.ch 3).stage.soft && t.reg (R.CH_STAGE_CFG 3) == 1) ∧
    nx (exec (.chStageCfgWrite 3 1) (m0.put (R.CH_PWM_PERIOD 3) 3001)) (fun t => !t.flag (R.CH_STAGE_CFG_ENABLE 3)) ∧
    nx (exec (.chStageCfgWrite 3 1) (m0in .field)) (fun t => !t.flag (R.CH_STAGE_CFG_ENABLE 3)) ∧
    nx (exec (.chEngCtrlWrite 3 1) (m0in .field)) (fun t => t.hp.events.any fun x => x.code == 0x1056) ∧
    nx (exec (.chEngCtrlWrite 3 0) on3) (fun t => (t.ch 3).stopReq && (t.ch 3).flight == [⟨0, 12, none⟩]) ∧
    nx (exec (.chEngCtrlWrite 3 1) (m0.putFlag (R.CH_ENG_STAT_LOADED 3) true)) (fun t => t.eng[(3 : Eng)].running) ∧
    nx (exec (.chEngCtrlWrite 3 1) m0) (fun t => !t.flag (R.CH_ENG_CTRL_RUN 3)) := by decide +kernel

/-! ### The Keep and the course engine -/

theorem wit_keep : m0.mode.keep = .run ∧ m0.flt.told.contains 0x42 = false ∧ m0.flt.active.contains 0x42 = false ∧ m0.mode.mismatchAt = none ∧
    (mm m0 fun m => { m with mismatchAt := some 0 }).tick.wall < 0 + 12000000000 ∧ m0.keepRuns = true ∧
    m0.hp.rings[(16 : Ring)].fetched = [] ∧ m0.hp.rings[(17 : Ring)].fetched = [] ∧ m0.hp.rings[(16 : Ring)].parked = false ∧ m0.hp.rings[(17 : Ring)].parked = false ∧
    m0.pace.keep = none ∧ (mm m0 fun m => { m with patchSwitch := true }).keepRuns = true := by decide
theorem test_keep : nx (exec .keepLockstepMismatch m0) (fun t => t.mode.keep == .restart && t.hp.events.any fun x => x.code == 0x0B01) ∧
    nx (exec .keepLockstepMismatch (mm m0 fun m => { m with mismatchAt := some 0 })) (fun t => t.mode.keep == .run &&
      t.hp.events.any fun x => x.code == 0x0B02 && x.cls == 3) ∧
    nx (exec .keepRestartDone (mm m0 fun m => { m with keep := .restart })) (fun t => t.mode.keep == .run) ∧
    nx (exec .keepRestartDone (mm m0 fun m => { m with keep := .restart, refLost := true })) (fun t => t.mode.keep == .halted) ∧
    nx (exec .keepDecisionBoundary (m0.queueWrite R.CHG_CTRL 0x3C1E1401)) (fun t => t.keepWrites == [] && t.reg R.CHG_CTRL == 0x3C1E1401 &&
      t.pace.keep == some 0) := by decide +kernel
/-- The course engine changed. -/
def crs (f : Course → Course) (s : State := m0) : State := { s with course := f s.course }
/-- Encoder 0 without its filter, and with one of 10 ticks after a new level of A on tick 0. -/
def bare : State := m0.put R.ENC_CFG_FILT 0
def noted : State := crs (fun c => { c with enc0 := { c.enc0 with rawA := true, aAt := 0 } }) (m0.put R.ENC_CFG_FILT 10)
theorem wit_filter : bare.get R.ENC_CFG_FILT = 0 ∧ (bare.enc 0).rawA = (bare.enc 0).a ∧ (bare.enc 0).rawB = (bare.enc 0).b ∧
    noted.get R.ENC_CFG_FILT = 10 ∧ (noted.enc 0).rawA ≠ (noted.enc 0).a ∧ (noted.enc 0).rawB = (noted.enc 0).b ∧
    (noted.enc 0).aAt + 10 ≤ (later noted 10).now ∧ (later noted 9).now < (noted.enc 0).aAt + 10 := by decide
theorem test_filter : nx (exec (.encoderEdge 0 true false) (later noted 10)) (fun t => (t.enc 0).edges == [10] && (t.enc 0).a) ∧
    nx (exec (.encoderEdge 0 false false) (later noted 9)) (fun t => (t.enc 0).edges == [] && !(t.enc 0).a && !(t.enc 0).rawA) ∧
    nx (exec (.encoderEdge 0 true false) (m0.put R.ENC_CFG_FILT 10)) (fun t => (t.enc 0).edges == [] && (t.enc 0).rawA) := by decide
theorem wit_sensors : m0.clockOn = true ∧ true ≠ (m0.enc 0).a ∧ true ≠ (m0.enc 0).b ∧ false = (m0.enc 0).b ∧
    ((crs fun c => { c with enc0 := { c.enc0 with edges := [0] } }).enc 0).edges = [0] ∧
    0 + m0.get R.ENC_CFG_STOP_MS * 200000 ≤ (later m0 200000000).now ∧ 0 + m0.get R.RADAR_CFG_STOP_MS * 200000 ≤ (later m0 200000000).now := by decide
theorem test_sensors : nx (exec (.encoderEdge 0 true true) bare) (fun t => (t.enc 0).qerrs == [0] && (t.enc 0).edges == [] && t.get R.COURSE_CNT_ENC0_QERR == 1) ∧
    nx (exec (.encoderEdge 0 true false) (later bare 9)) (fun t => (t.enc 0).edges == [9] && !(t.enc 0).dirNeg) ∧
    nx (exec (.encoderStop 0) (later (crs fun c => { c with enc0 := { c.enc0 with edges := [0] } }) 200000000)) (fun t => (t.enc 0).stopped) ∧
    nx (exec .radarPulse (later m0 9)) (fun t => t.course.radar.pulses == [9]) ∧
    nx (exec .radarStop (later (crs fun c => { c with radar := { c.radar with pulses := [0] } }) 200000000)) (fun t => t.course.radar.stopped) ∧
    nx (exec (.spdanSample 7) (later m0 40000)) (fun t => t.course.spdan == [7]) ∧
    nx (exec (.spdanSample 7) (later m0 40001)) (fun t => t.course.spdan == []) := by decide
/-- HOST, the second of COURSE_PRIO, gives the speed, and ENC, the first, has been valid for a second. -/
def ranked (n : Nat) : State :=
  crs (fun c => { c with speedSrc := 8, validFor := List.replicate 10 n, valid := List.replicate 10 true
                         host := { c.host with got := true, age := 1000, speed := some ⟨5, 0⟩ }
                         enc0 := { c.enc0 with edges := [0, 0] }, enc1 := { c.enc1 with edges := [0, 0] } }) (m0.put R.COURSE_CTRL_EN 0xFF)
theorem wit_sources : (ranked 100000).course.speedSrc ≠ 0 ∧ (ranked 100000).course.coasting = false ∧
    (ranked 100000).course.host.got = true ∧ (ranked 100000).isValid 8 = true ∧ (ranked 0).get R.HOST_CFG_TIMEOUT_MS * 100 ≤ 100000 := by decide
theorem wit_displace : (ranked 100000).ranking.contains 8 = true ∧ ((ranked 100000).ranking.takeWhile (· ≠ 8)).contains 1 = true ∧
    (ranked 100000).speedOk 1 = true ∧ 100000 ≤ (ranked 100000).course.validFor.getD 1 0 ∧ (ranked 99999).course.validFor.getD 1 0 < 100000 ∧
    (ranked 0).get R.HOST_CFG_TIMEOUT_MS * 100 ≤ 25000 ∧ 0 + m0.get R.COURSE_CTRL_COAST_10MS * 2000000 ≤ (later m0 40000000).now ∧
    0 + m0.get R.COURSE_CTRL_BLEND_MS * 200000 ≤ (later m0 40000000).now := by decide
theorem test_sources : nx (exec (.speedSourceDisplace 1) (ranked 100000)) (fun t => t.course.speedSrc == 1 && t.course.vBlend == some ⟨0, 0⟩) ∧
    nx (exec (.speedSourceDisplace 1) (ranked 99999)) (fun t => t.course.speedSrc == 8) ∧
    nx (exec (.sourceTimeout 8) (crs (fun c => { c with host := { c.host with age := 25000 } }) (ranked 0)))
      (fun t => !t.isValid 8 && t.course.speedSrc != 8) ∧
    nx (exec .coastTimeExpiry (later (crs fun c => { c with coasting := true }) 40000000)) (fun t => t.course.coastOver) ∧
    nx (exec (.blendEnd false) (later (crs fun c => { c with vBlend := some ⟨0, 0⟩ }) 40000000)) (fun t => t.course.vBlend == none) ∧
    nx (exec (.blendEnd true) (later (crs fun c => { c with wBlend := some ⟨0, 0⟩ }) 40000000)) (fun t => t.course.wBlend == none) ∧
    nx (exec (.crosscheckDisagree 1) (crs fun c => { c with disagree := List.replicate 10 100000 }))
      (fun t => t.hp.events.any fun x => x.code == 0x0405) ∧
    nx (exec .hostPoseCommit m0) (fun t => t.course.pose.isSome) := by decide
theorem wit_course : (m0in .ready).mode.mode ≠ .field ∧ m0.rv.role ≠ .tributary ∧ (later m0 4000).now % 2000 = 0 ∧ (later m0 4001).now % 2000 ≠ 0 ∧
    (later m0 4000).course.updAt ≠ some (later m0 4000).now ∧ m0.course.rebaseGo = false ∧ m0.course.rebaseRing = false := by decide
theorem test_course : nx (exec .courseRebaseGo m0) (fun t => t.course.rebaseGo) ∧
    nx (exec .courseRebaseGo (m0in .field)) (fun t => !t.course.rebaseGo && t.hp.events.any fun x => x.code == 0x0409) ∧
    nx (exec (.chGeomWrite 3 true 100000001) m0) (fun t => t.chX 3 == 100000000 && (t.ch 3).dX == 100000000) ∧
    nx (exec (.chGeomWrite 3 true 5) (m0in .field)) (fun t => t.chX 3 == 0) := by decide
theorem test_no_update : nx (exec .courseUpdate (later m0 4001)) (fun t => t.course.updTick == 0) := by decide

/-! ### GNSS, compare units, global start and the predictor -/

def ua (f : Uart → Uart) (s : State := m0) : State := { s with uart := s.uart.set 0 (f s.uart[0]) }
/-- The 154 samples of a character from its sample 0: sixteen of each bit. -/
def chr (b0 : Bool) (d : Byte) (stop : Bool) : List Bool :=
  ([b0, d.getLsbD 0, d.getLsbD 1, d.getLsbD 2, d.getLsbD 3, d.getLsbD 4, d.getLsbD 5, d.getLsbD 6, d.getLsbD 7].flatMap
    (List.replicate 16 ·)) ++ List.replicate 10 stop
/-- A low sample 0 before a line that is high through the start bit. -/
def spike : List Bool := false :: (chr true 0 true).drop 1
/-- A heading sentence of 90 degrees true. -/
def hdt : List Byte := [0x24, 0x47, 0x50, 0x48, 0x44, 0x54, 0x2C, 0x39, 0x30, 0x2C, 0x54]
/-- A sentence to be taken, without a checksum asked for. -/
def ready_ : State := ua (fun x => { x with nmeaReady := some (hdt, 1000) }) (m0.putFlag (R.GNSS_MODE_CKSUM_REQ 0) false)
/-- A pose frame of 1 m/s forward, with its CRC by R81, byte 0 at tick 1,000. -/
def pose : List (Byte × Nat) :=
  ([0xA5, 0x5C, 0x01, 20, 0x40, 0x42, 0x0F, 0] ++ List.replicate 12 0 ++ [9, 0, 0, 0, 0xD1, 0x39]).map fun b => (b, 1000)
def framed (l : List (Byte × Nat)) : State := ua fun x => { x with binReady := some l }
theorem wit_gnss : (chr false 0x24 true).length = 154 ∧ spike.length = 154 ∧ (chr true 0 true).getD 0 true = true ∧ m0.clockOn = true ∧ m0.uart[(0 : Fin 2)].waitHigh = false ∧ (m0.put (R.GNSS_MODE_FORMAT 0) 1).get (R.GNSS_MODE_FORMAT 0) = 1 ∧
    ready_.uart[(0 : Fin 2)].nmeaReady = some (hdt, 1000) ∧ poseFrameOk [] = false ∧
    nmeaFields hdt false = some [[0x47, 0x50, 0x48, 0x44, 0x54], [0x39, 0x30], [0x54]] ∧ nmeaFields hdt true = none ∧
    nmeaType [0x47, 0x50, 0x48, 0x44, 0x54] = some .hdt ∧ poseFrameOk (pose.map Prod.fst) = true ∧
    (byteAt (pose.map Prod.fst) 20).getLsbD 0 = true ∧ (framed pose).uart[(0 : Fin 2)].binReady = some pose := by decide
theorem test_gnss : nx (exec (.gnssCharacter 0 spike false) m0) (fun t => t.get (R.GNSS_CNT0_EARLY 0) == 0) ∧
    nx (exec (.gnssCharacter 0 (chr true 0 true) true) m0) (fun t => t.get (R.GNSS_CNT0_EARLY 0) == 0) ∧
    nx (exec (.gnssCharacter 0 spike true) m0) (fun t => t.get (R.GNSS_CNT0_EARLY 0) == 1) ∧
    nx (exec (.gnssCharacter 0 (chr false 0 false) false) m0) (fun t => t.uart[(0 : Fin 2)].waitHigh && t.get (R.GNSS_CNT0_FRAMING 0) == 1) ∧
    nx (exec (.gnssCharacter 0 (chr false 0x24 true) false) (m0.put (R.GNSS_MODE_FORMAT 0) 1)) (fun t => t.uart[(0 : Fin 2)].nmea == [0x24]) ∧
    nx (exec (.gnssSearchReopen 0) (ua fun x => { x with waitHigh := true })) (fun t => !t.uart[(0 : Fin 2)].waitHigh) := by decide
theorem test_gnss_taken : nx (exec (.nmeaSentence 0) ready_) (fun t => (t.gnss 0).heading == some ⟨1570796, 1000⟩ && t.get (R.GNSS_CNT1_GOOD 0) == 1) ∧
    nx (exec (.nmeaSentence 0) (ready_.putFlag (R.GNSS_MODE_CKSUM_REQ 0) true)) (fun t => t.get (R.GNSS_CNT1_BAD 0) == 1) ∧
    nx (exec (.gnssBinaryFrame 0) (framed pose)) (fun t => (t.gnss 0).speed == some ⟨1000000, 1000⟩ && t.get (R.GNSS_CNT1_GOOD 0) == 1) ∧
    nx (exec (.gnssBinaryFrame 0) (framed [])) (fun t => t.get (R.GNSS_CNT1_BAD 0) == 1) := by decide
/-- System compare 0 changed. -/
def cu (u : CUnit) (f : CmpUnit → CmpUnit) (s : State := m0) : State := s.modUnit u f
/-- Armed at tick 10, periodic with a period of 4 when asked, at tick 21. -/
def due0 (ctrl : W32) : State := later (cu 0 fun v => { v with target := 10, period := 4, ctrl := ctrl }) 21
theorem wit_compare : (due0 1).clockOn = true ∧ (due0 1).tick.replay = none ∧ (due0 1).units[(0 : CUnit)].arm = true ∧
    (due0 1).units[(0 : CUnit)].gated = false ∧ (due0 1).units[(0 : CUnit)].target ≤ (due0 1).tick.now ∧ (due0 1).units[(0 : CUnit)].since ≤ (due0 1).now ∧
    (cu 0 (fun v => { v with since := 22 }) (due0 1)).now < (cu 0 (fun v => { v with since := 22 }) (due0 1)).units[(0 : CUnit)].since ∧ (due0 5).units[(0 : CUnit)].gated = true ∧
    (due0 0).units[(0 : CUnit)].arm = false ∧ (due0 3).units[(0 : CUnit)].ctrl.getLsbD 1 = true ∧
    (due0 3).now + (due0 3).units[(0 : CUnit)].period.toNat < 2 ^ 64 ∧ (due0 0x00001401).units[(0 : CUnit)].ctrl.getLsbD 10 = true ∧
    (due0 0x00001401).units[(0 : CUnit)].chainTgt < 544 := by decide
/-- A sample compare, TARGET 10, period 4, matched at 21: the phase is kept, two periods are skipped (R88). -/
def dueAt (u : CUnit) (ctrl : W32) : State := later (cu u fun v => { v with target := 10, period := 4, ctrl := ctrl }) 21
theorem test_compare_periodic : nx (exec (.compareMatch 291) (dueAt 291 3)) (fun t => t.units[(291 : CUnit)].target == 22 &&
    t.units[(291 : CUnit)].missed == 2 && t.units[(291 : CUnit)].arm) := by decide +kernel
theorem test_compare_once : nx (exec (.compareMatch 35) (dueAt 35 0x401)) (fun t => !t.units[(35 : CUnit)].arm &&
    t.units[(35 : CUnit)].matchTick == 21 && t.tick.chains.map (·.due) == [22]) := by decide +kernel
theorem test_compare_since : nx (exec (.compareMatch 0) (cu 0 (fun v => { v with since := 22 }) (due0 1))) (fun t => t.units[(0 : CUnit)].arm &&
    t.units[(0 : CUnit)].matchTick == 0) := by decide
theorem test_compare_gated : nx (exec (.compareMatch 0) (due0 5)) (fun t => t.units[(0 : CUnit)].target == 10) := by decide
/-- A chain that reaches a unit. -/
def chained (u : CUnit) (arm : Bool) : State := { m0 with tick := { m0.tick with chains := [⟨0, u, 5, arm, 7⟩] } }
theorem wit_chain : (chained 1 true).tick.chains = [⟨0, 1, 5, true, 7⟩] ∧ (chained 1 true).clockOn = true ∧ (bndChan 1).isSome = false ∧ ((chained 40 true).units[(40 : CUnit)]).due (chained 40 true).tick.now = false ∧
    ((chained 1 true).units[(1 : CUnit)]).due (chained 1 true).tick.now = false ∧ (bndChan 40).isSome = true ∧
    (chained 40 true).units[(40 : CUnit)].pred = true ∧ (m0.units[(1 : CUnit)]).pred = false := by decide +kernel
theorem test_chain : nx (exec (.chainArrival 1) (chained 1 false)) (fun t => t.units[(1 : CUnit)].arm && t.units[(1 : CUnit)].target == 9 &&
    t.units[(1 : CUnit)].since == 1) ∧
    nx (exec (.chainArrival 40) (chained 40 true)) (fun t => !t.units[(40 : CUnit)].arm && t.hp.events.any fun x => x.code == 0x0502) := by decide +kernel
/-- A replay with nothing due. -/
def replaying : State := { m0 with tick := { m0.tick with now := 1, replay := some { tf := 0, tend := 0, count := 3 } } }
theorem wit_reset_unarmed (u : CUnit) : (State.reset.units[u]).arm = false := by
  show (CmpUnit.arm (Vector.ofFn CmpUnit.reset)[u]) = false
  rw [Fin.getElem_fin, Vector.getElem_ofFn]
  unfold CmpUnit.reset
  split
  · rfl
  · split <;> rfl
theorem wit_replay : replaying.tick.replay = some { tf := 0, tend := 0, count := 3 } ∧ replaying.tick.chains = [] ∧ replaying.clockOn = true ∧
    0 < replaying.now ∧ (none : Option Nat) ≠ some replaying.now ∧ (∀ u : CUnit, (replaying.units[u]).due replaying.tick.now = false) ∧ (∀ c : Ch, (replaying.ch c).pred = none) := by
  refine ⟨rfl, rfl, by decide, by decide, by decide, fun u => ?_, fun c => ?_⟩
  · show CmpUnit.due (State.reset.units[u]) 1 = false
    unfold CmpUnit.due; rw [wit_reset_unarmed]; rfl
  · show ((Vector.ofFn Chan.reset)[c]).pred = none
    rw [Fin.getElem_fin, Vector.getElem_ofFn]; rfl
/-- GSTART_TICK at 100, and a release of group 0 with a gated unit. -/
def gst : State := m0.setReg R.GSTART_TICK 100
def gated0 : State := { cu 0 (fun v => { v with period := 4, ctrl := 5 }) with tick := { m0.tick with gstarts := [(1, 0)] } }
theorem wit_gstart : gst.hostWritable = true ∧ (0x1FF : W32).getLsbD 8 = true ∧ gst.now + 16 ≤ (gst.reg64 R.GSTART_TICK).toNat ∧
    (m0.reg64 R.GSTART_TICK).toNat < m0.now + 16 ∧ gated0.tick.gstarts = (1, 0) :: [] ∧ gated0.units[(0 : CUnit)].arm = true ∧
    gated0.units[(0 : CUnit)].gated = true ∧ (1 : BitVec 8).getLsbD (gated0.units[(0 : CUnit)]).group = true := by decide
theorem wit_gstart_quiet : gated0.clockOn = true ∧ gated0.tick.chains = [] ∧ (0 ≤ gated0.now) ∧ ∀ c : Ch, (gated0.ch c).pred = none := by
  refine ⟨by decide, rfl, by decide, fun c => ?_⟩
  show ((Vector.ofFn Chan.reset)[c]).pred = none
  rw [Fin.getElem_fin, Vector.getElem_ofFn]; rfl
theorem test_gstart : nx (exec (.gstartWrite 0x1FF) gst) (fun t => t.tick.gstarts == [(0xFF, 100)]) ∧
    nx (exec (.gstartWrite 0x1FF) m0) (fun t => t.tick.gstarts == [(0xFF, 16)] && t.hp.events.any fun x => x.code == 0x0500) ∧
    nx (exec (.gstartWrite 0x0FF) gst) (fun t => t.tick.gstarts == [(0xFF, 16)]) ∧ nx (exec (.gstartWrite 0x100) gst) (fun t => t.tick.gstarts == []) ∧
    nx (exec .gstartRelease gated0) (fun t => t.units[(0 : CUnit)].target == 4 && t.units[(0 : CUnit)].ctrl == 1 && t.tick.gstarts == []) := by decide
/-- A result of the predictor for channel 3, in force from tick 400. -/
def predicted (tStar : Option Nat) (late : Bool := false) : State :=
  later (m0.modCh 3 fun h => { h with pred := some { tEff := 400, tStar := tStar, late := late } }) 400
theorem wit_predictor : (predicted none).clockOn = true ∧ (predicted none).units[bndUnit 3].pred = true ∧
    ((predicted none).ch 3).pred = some { tEff := 400, tStar := none } ∧ 400 ≤ (predicted none).now + 1 ∧ ((predicted none).ch 3).predHit = false ∧
    ((predicted (some 500)).ch 3).predSet = false ∧ ((predicted (some 400) true).ch 3).pred = some { tEff := 400, tStar := some 400, late := true } ∧
    (cu (bndUnit 3) fun v => { v with ctrl := 0 }).units[bndUnit 3].pred = false ∧ m0.mode.mode ≠ .field ∧ (predicted none).tick.chains = [] ∧
    ((predicted none).units[bndUnit 3]).due (predicted none).tick.now = false ∧ m0.hostWritable = true ∧ (m0.ch 3).pred = none ∧
    m0.tick.gstarts = [] ∧ (m0.units[bndUnit 3]).due m0.tick.now = false ∧ m0.tick.chains = [] := by decide +kernel
/-- The boundary compare of channel 3 due on tick 400 with a t_star of 390 that was late. -/
def lateHit : State :=
  later ((cu (bndUnit 3) fun v => { v with target := 400, ctrl := 0x800001 }).modCh 3 fun h => { h with predLate := some 390, predSet := true }) 400
theorem wit_late : lateHit.tick.replay = none ∧ (lateHit.units[bndUnit 3]).due lateHit.tick.now = true ∧ (lateHit.ch 3).seqr.bnd = none ∧
    (lateHit.ch 3).predLate = some 390 ∧ lateHit.clockOn = true := by decide +kernel
theorem test_late : nx (exec (.compareMatch (bndUnit 3)) lateHit) (fun t => t.units[bndUnit 3].ctrl.getLsbD 26 && t.reg (R.CH_BND_LATE 3) == 10 &&
    (t.ch 3).predHit && t.hp.events.any fun x => x.code == 0x1041) := by decide +kernel
theorem wit_predictor_alone : ∀ k : Ch, k ≠ 3 → ((predicted none).ch k).pred = none := by
  intro k hk
  have h : (predicted none).ch k = (Vector.ofFn Chan.reset)[k] := Vector.getElem_set_ne (by omega) (by omega) fun e => hk (Fin.ext e.symm)
  rw [h, Fin.getElem_fin, Vector.getElem_ofFn]; rfl
theorem test_predictor : nx (exec (.chBndTargetWrite 3 9) m0) (fun t => t.units[bndUnit 3].target == 0 && t.hp.events.any fun x => x.code == 0x0502) ∧
    nx (exec (.chBndTargetWrite 3 9) (cu (bndUnit 3) fun v => { v with ctrl := 0 })) (fun t => t.units[bndUnit 3].target == 9) ∧
    nx (exec (.chBndCtrlWrite 3 1) m0) (fun t => t.units[bndUnit 3].arm && !t.units[bndUnit 3].pred) ∧
    nx (exec (.chBndCtrlWrite 3 0x800001) m0) (fun t => !t.units[bndUnit 3].arm && t.hp.events.any fun x => x.code == 0x0502) ∧
    nx (exec (.chBndCtrlWrite 3 1) (m0in .field)) (fun t => t.units[bndUnit 3].pred) := by decide +kernel

/-! ### Takeover -/

/-- Channel 3 with a missed deadline after n others. -/
def missed3 (n : Nat) : State := m0.modCh 3 fun h => { h with missDue := true, missRun := n }
/-- The same with the spire's spare retired. -/
def noSpare : State := (missed3 2).modEng 256 fun x => { x with retired := true }
theorem wit_miss : (missed3 1).clockOn = true ∧ ((missed3 1).ch 3).missDue = true ∧ ((missed3 1).ch 3).missRun < 2 ∧
    (missed3 1).mayRaise (chCode 3 0x60) 3 200000000 = true ∧ (m0.ch 3).missDue = false ∧ 2 ≤ ((missed3 2).ch 3).missRun ∧
    ((missed3 2).ch 3).takeover = none ∧ ((missed3 2).ch 3).ctl = some 3 ∧ (missed3 2).eng[(3 : Eng)].role ≠ .idle ∧
    (missed3 2).idleSpare 0 = some 256 ∧ noSpare.idleSpare 0 = none := by decide +kernel
theorem test_miss : nx (exec (.deadlineMiss 3) (missed3 1)) (fun t => (t.ch 3).missRun == 2 && (t.ch 3).ctl == some 3) ∧
    nx (exec (.deadlineMiss 3) m0) (fun t => (t.ch 3).missRun == 0) ∧
    nx (exec (.deadlineMiss 3) (missed3 2)) (fun t => (t.ch 3).ctl == some 256 && (t.ch 3).epoch == 1 && t.eng[(256 : Eng)].role == .idle &&
      (t.ch 3).takeover == some (256, 0, none) && t.eng[(3 : Eng)].role == .deposed && t.hp.events.any fun x => x.code == 0x1080 && x.cls == 1) ∧
    nx (exec (.deadlineMiss 3) noSpare) (fun t => (t.ch 3).ctl == none && (t.ch 3).limp && t.hp.events.any fun x => x.code == 0x1081 && x.cls == 2) := by decide +kernel
/-- The spare takes channel 3 with a committed block. -/
def taking (b : Option (List Byte)) : State :=
  m0.modCh 3 fun h => { h with takeover := some (256, 0, none), slot := { h.slot with code := [0], resume := 0 }, mirror := { h.mirror with block := b } }
theorem wit_resume : ((taking none).ch 3).takeover = some (256, 0, none) ∧ 0 ≤ (taking none).now ∧ ((taking none).ch 3).mirror.block = none ∧
    ((taking (some [7])).ch 3).mirror.block = some [7] := by decide
theorem test_resume : nx (exec (.takeoverResume 3) (taking (some [7]))) (fun t => (t.ch 3).takeover == none &&
    memGet t.eng[(256 : Eng)].dram 0 == 7 && t.eng[(256 : Eng)].iram == [0] && t.eng[(256 : Eng)].role == .ctl && t.eng[(256 : Eng)].chan == some 3) := by decide +kernel
def en (e : Eng) (f : Engine → Engine) : State := m0.modEng e f
/-- The home engine of channel 3 idle, the spare in control. -/
def handed (k : Mode) : State :=
  mm ((en 3 fun x => { x with role := .idle, chan := none }).modCh 3 fun h => { h with ctl := some 256 }) fun m => { m with mode := k }
theorem wit_return : (en 3 fun x => { x with deposedAt := some 0 }).eng[(3 : Eng)].deposedAt = some 0 ∧ 0 + 400000 ≤ (later m0 400000).now ∧
    (later m0 399999).now < 0 + 400000 ∧ (en 3 fun x => { x with selfTest := some 0 }).eng[(3 : Eng)].selfTest = some 0 ∧
    0 + 8192 ≤ (later m0 8192).now ∧ (∀ c ∈ chansOfSpire 0, (m0.ch c).limp = false) ∧ (handed .ready).hostWritable = true ∧ chanAt 0 3 = 3 ∧
    ((handed .ready).ch 3).ctl = some 256 ∧ (256 : Eng) ≠ homeOf 3 ∧ (handed .ready).eng[homeOf 3].role = .idle ∧
    (handed .ready).eng[homeOf 3].retired = false ∧ (handed .ready).eng[homeOf 3].selfTest = none ∧ ((handed .ready).ch 3).takeover = none := by decide +kernel
theorem test_return : nx (exec (.deposedRetireTimeout 3) (later (en 3 fun x => { x with deposedAt := some 0 }) 400000)) (fun t => t.eng[(3 : Eng)].retired) ∧
    nx (exec (.deposedRetireTimeout 3) (later (en 3 fun x => { x with deposedAt := some 0 }) 399999)) (fun t => !t.eng[(3 : Eng)].retired) ∧
    nx (exec (.selfTestDone 3 true) (later (en 3 fun x => { x with selfTest := some 0, role := .deposed }) 8192)) (fun t => t.eng[(3 : Eng)].role == .idle &&
      t.eng[(3 : Eng)].ramFree == some 0 && t.free == 1) ∧
    nx (exec (.selfTestDone 3 false) (later (en 3 fun x => { x with selfTest := some 0 }) 8192)) (fun t => t.eng[(3 : Eng)].retired) ∧
    nx (exec (.tkoHandback 0 19) (handed .ready)) (fun t => (t.ch 3).ctl == some 3 && t.eng[(256 : Eng)].role == .idle &&
      (t.ch 3).takeover == some (3, 0, some 256) && (t.ch 3).epoch == 1) ∧
    nx (exec (.tkoHandback 0 19) (handed .field)) (fun t => (t.ch 3).ctl == some 256 && t.hp.events.any fun x => x.code == 0x108A) := by decide
/-- Channel 3 in limp with spare 256 idle, and channel 3 on its way back from the spare. -/
def limping : State := m0.modCh 3 fun h => { h with limp := true, ctl := none }
def giving : State :=
  (en 256 fun x => { x with role := .ctl, chan := some 3 }).modCh 3 fun h => { h with ctl := some 3, takeover := some (3, 0, some 256) }
theorem wit_limp : limping.pending = [] ∧ limping.clockOn = true ∧ limping.hp.rings[(18 : Ring)].fetched = [] ∧
    limping.hp.rings[(19 : Ring)].fetched = [] ∧ (chansOfSpire 0).find? (fun k => (limping.ch k).limp) = some 3 ∧
    limping.idleSpare 0 = some 256 ∧ (∀ k ∈ chansOfSpire 1, (limping.ch k).limp = false) ∧
    (handed .ready).isTaking 0 (homeOf 3) = false ∧ (giving.ch 3).takeover = some (3, 0, some 256) ∧ (3 : Eng) ≠ 256 ∧ 0 ≤ giving.now := by decide +kernel
theorem test_limp : nx (step limping) (fun t => !(t.ch 3).limp && (t.ch 3).takeover == some (256, 0, none) &&
      t.hp.events.any fun x => x.code == 0x1082) ∧
    nx (exec (.takeoverResume 3) giving) (fun t => t.eng[(3 : Eng)].role == .home && t.eng[(256 : Eng)].role == .idle &&
      t.eng[(256 : Eng)].chan == none && t.hp.events.any fun x => x.code == 0x1089) := by decide +kernel

/-! ### Rings, doorbells and the host path -/

/-- Ring q enabled with 16 slots and a state. -/
def ring (q : Ring) (f : RingSt → RingSt := id) : State :=
  ((m0.putFlag (R.Q_CFG_EN q) true).put (R.Q_CFG_SIZE_LOG2 q) 4).modRing q f
theorem wit_doorbell : (ring 3).mode.domeRun = true ∧ (ring 3).ringOn 3 = true ∧ m0.ringOn 3 = false ∧ (ring 3).ringSize 3 = 16 ∧
    ((5 : W32).toNat < 4096 ∧ (5 : W32).toNat < (ring 3).ringSize 3 ∧ ringDist 0 0 16 ≤ ringDist 5 0 16) ∧ ¬(16 : Nat) < (ring 3).ringSize 3 ∧
    (ring 3 fun r => { r with halted := true }).hp.rings[(3 : Ring)].halted = true ∧ ringDist 5 0 16 ≤ ringDist 7 0 16 := by decide
theorem test_doorbell : nx (exec (.submissionDoorbell 24 5 15) (ring 3)) (fun t => t.hp.rings[(3 : Ring)].pi == 5) ∧
    nx (exec (.submissionDoorbell 24 16 15) (ring 3)) (fun t => t.hp.rings[(3 : Ring)].halted && t.hp.rings[(3 : Ring)].why == 1) ∧
    nx (exec (.submissionDoorbell 24 3 15) (ring 3 fun r => { r with pi := 5 })) (fun t => t.hp.rings[(3 : Ring)].why == 2) ∧
    nx (exec (.submissionDoorbell 24 16 15) (ring 3 fun r => { r with halted := true })) (fun t => t.get R.HP_CNT_DB_DISC == 1) ∧
    nx (exec (.submissionDoorbell 24 5 3) (ring 3)) (fun t => t.hp.rings[(3 : Ring)].pi == 0 && t.hp.events.any fun x => x.data == 0x303) ∧
    nx (exec (.submissionDoorbell 24 5 15) m0) (fun t => t.hp.events.any fun x => x.data == 0x302) ∧
    nx (exec (.completionDoorbell 160 5 15) (ring 20 fun r => { r with pi := 7 })) (fun t => t.hp.rings[(20 : Ring)].ci == 5) ∧
    nx (exec (.completionDoorbell 160 8 15) (ring 20 fun r => { r with pi := 7 })) (fun t => t.hp.rings[(20 : Ring)].why == 3) ∧
    nx (exec (.completionDoorbell 160 5 15) (ring 20 fun r => { r with pi := 7, fullSince := some 3 })) (fun t => t.hp.rings[(20 : Ring)].fullSince == none) ∧
    nx (exec (.completionDoorbell 160 8 15) (ring 20 fun r => { r with pi := 7, ci := 8, fullSince := some 3 })) (fun t => t.hp.rings[(20 : Ring)].fullSince == some 3) := by decide
theorem test_resume_ring : nx (exec (.ringResume 20) (ring 20 fun r => { r with halted := true, pi := 7 }))
      (fun t => !t.hp.rings[(20 : Ring)].halted && t.hp.rings[(20 : Ring)].ci == 7) ∧
    nx (exec (.ringResume 3) (ring 3 fun r => { r with halted := true, pi := 7 })) (fun t => t.hp.rings[(3 : Ring)].ci == 0) := by decide
theorem wit_fetch : m0.hostWritable = true ∧ m0.ringOn 16 = false ∧ (0x18 : W32).getLsbD 4 = true ∧
    (ring 16 fun r => { r with inFlight := some (0, 1) }).hp.rings[(16 : Ring)].inFlight = some (0, 1) ∧
    (ring 16).hp.rings[(16 : Ring)].stalled = false ∧ (ring 20 fun r => { r with coalAt := some 0 }).hp.rings[(20 : Ring)].coalAt = some 0 ∧
    ((ring 20).put (R.Q_CFG_COAL_US 20) 1).get (R.Q_CFG_COAL_US 20) ≠ 0 ∧
    0 + ((ring 20).put (R.Q_CFG_COAL_US 20) 1).get (R.Q_CFG_COAL_US 20) * 200 ≤ (later m0 200000000).now ∧
    (ring 20 fun r => { r with pi := 15, fullSince := some 0 }).ringFull 20 = true ∧ 0 + 200000000 ≤ (later m0 200000000).now := by decide
theorem wit_parked : (ring 16).hp.rings[(16 : Ring)].parked = false ∧ (ring 16).hp.rings[(16 : Ring)].stale = false ∧
    (ring 16).mode.keep = .run ∧ (mm (ring 16) fun m => { m with keep := .restart }).mode.keep ≠ .run := by decide
theorem test_parked : nx (exec (.descriptorArrival 16 [(0x80, dsc [])]) (mm (ring 16 fun r => { r with inFlight := some (0, 1) }) fun m => { m with keep := .restart }))
    (fun t => t.hp.rings[(16 : Ring)].ci == 0 && t.hp.rings[(16 : Ring)].parked && t.hp.rings[(16 : Ring)].fetched.map (·.op) == [0x80]) := by decide
theorem test_fetch : nx (exec (.qnCfgWrite 16 0x18) m0) (fun t => t.ringOn 16 && t.ringSize 16 == 256) ∧
    nx (exec (.descriptorArrival 16 [(0x80, dsc [])]) (ring 16 fun r => { r with inFlight := some (0, 1) }))
      (fun t => t.hp.rings[(16 : Ring)].ci == 1 && t.hp.rings[(16 : Ring)].fetched.map (·.op) == [0x80]) ∧
    nx (exec (.msixCoalesceTimeout 20) (later ((ring 20 fun r => { r with coalAt := some 0 }).put (R.Q_CFG_COAL_US 20) 1) 200))
      (fun t => t.hp.msixPend == [0]) ∧
    nx (exec (.completionRingFullTimeout 20) (later (ring 20 fun r => { r with pi := 15, fullSince := some 0 }) 200000000))
      (fun t => t.hp.rings[(20 : Ring)].fullTold) := by decide
theorem wit_stream : (0 : W32).getLsbD 0 = false ∧ (1 : W32).getLsbD 0 = true ∧ m0.hp.lends.find? (fun l => l.tag = m0.reg R.EDDY_STRM_LTAG) = none ∧
    ((lent 18).setReg R.EDDY_STRM_LTAG 5).hp.lends.find? (fun l => l.tag = ((lent 18).setReg R.EDDY_STRM_LTAG 5).reg R.EDDY_STRM_LTAG) =
      some ⟨5, 18, 0x1000, 4096⟩ := by decide
theorem wit_stream_other : ((lent 16).setReg R.EDDY_STRM_LTAG 5).hp.lends.find? (fun l => l.tag = ((lent 16).setReg R.EDDY_STRM_LTAG 5).reg R.EDDY_STRM_LTAG) =
      some ⟨5, 16, 0x1000, 4096⟩ := by decide
theorem test_stream : nx (exec (.eddyStrmWrite 1) ((lent 18).setReg R.EDDY_STRM_LTAG 5)) (fun t => t.flag R.EDDY_STRM_EN) ∧
    nx (exec (.eddyStrmWrite 1) ((lent 16).setReg R.EDDY_STRM_LTAG 5)) (fun t => !t.flag R.EDDY_STRM_EN) ∧
    nx (exec (.eddyStrmWrite 1) m0) (fun t => !t.flag R.EDDY_STRM_EN && t.hp.events.any fun x => x.code == 0x0304) ∧
    nx (exec (.eddyStrmWrite 0) (m0.putFlag R.EDDY_STRM_EN true)) (fun t => !t.flag R.EDDY_STRM_EN) := by decide
/-- The link up and the bus master enabled, with a tenure. -/
def hpOn (u : Option (Rq × Nat × Tlp)) : State :=
  { m0 with hp := { m0.hp with linkUp := true, busMaster := true }, arb := { m0.arb with tenure := u } }
def wr3 : DataWr := { rq := 18, job := .silt, ltag := 5, addr := 0x1000, bytes := [1, 2] }
theorem wit_path : (hpOn (some (18, 0, .data wr3))).arb.tenure = some (18, 0, .data wr3) ∧ (hpOn none).portUp = true ∧
    (hpOn none).arb.tenure = none ∧ (∀ w : Rq, (hpOn none).requests w = false) ∧
    (later (hpOn none) 0).now < 0 + m0.get R.ARB_CFG_TENURE * 20 ∧ 0 + m0.get R.ARB_CFG_TENURE * 20 ≤ (later m0 200000).now ∧
    m0.arb.rq[(18 : Rq)].biteTicks = [] := by decide
/-- One data write asks for the path. -/
def asking : State := { hpOn none with arb := { m0.arb with data := [wr3] } }
theorem wit_grant : asking.arb.tenure = none ∧ asking.requests 18 = true ∧ (∀ k : Rq, k ≠ 18 → asking.requests k = false) := by decide
theorem test_path : nx (exec .arbitrationGrant (hpOn (some (18, 0, .data wr3)))) (fun t => t.hp.sent == [.memWrite 0x1000 [1, 2]]) ∧
    nx (exec .arbitrationGrant asking) (fun t => t.arb.tenure == some (18, 0, .data wr3) && (t.arb.rq[(18 : Rq)]).grants == 1) ∧
    nx (exec .tenureBite (later (hpOn (some (18, 0, .data wr3))) 399)) (fun t => t.arb.tenure.isSome) ∧
    nx (exec .tenureBite (later (hpOn (some (18, 0, .data wr3))) 400)) (fun t => t.arb.tenure == none && (t.arb.rq[(18 : Rq)]).bites == 1 && t.arb.redo[(18 : Rq)] == none && t.hp.events.any fun x => x.code == 0x0300) ∧
    nx (exec .tenureBite (later (hpOn (some (20, 0, .event))) 400)) (fun t => t.arb.redo[(20 : Rq)] == some .event) := by decide +kernel
theorem wit_relief : { m0.arb with reliefPend := some (2, 0) }.reliefPend = some ((2 : Spire), 0) ∧
    (ring 3 fun r => { r with inFlight := some (0, 1) }).hp.rings[(3 : Ring)].inFlight.isSome = true ∧ (hpOn none).hp.linkUp = true ∧
    m0.hp.linkUp = false ∧ (mm m0 fun m => { m with bootStep := 9, pins := { m.pins with perstHigh := true } }).mode.bootStep = 9 := by decide
theorem test_relief : nx (exec (.reliefTakeover 2) { m0 with arb := { m0.arb with reliefPend := some (2, 0) } })
      (fun t => t.arb.relief == some 2 && t.spire[(2 : Spire)].agent == 1) ∧
    nx (exec (.dmaReadFailure 3 0 false) (ring 3 fun r => { r with inFlight := some (0, 1) })) (fun t => t.hp.rings[(3 : Ring)].why == 4 &&
      t.hp.aer.masterAbort) ∧
    nx (exec (.dmaReadFailure 3 2 false) (ring 3 fun r => { r with inFlight := some (0, 1) })) (fun t => t.hp.aer.status == 0x1000) := by decide
theorem test_link : nx (exec (.linkUp 3 2) (mm m0 fun m => { m with bootStep := 9, pins := { m.pins with perstHigh := true } }))
      (fun t => t.hp.linkUp && t.mode.bootStep == 10) ∧
    nx (exec .linkDown (hpOn (some (18, 0, .data wr3)))) (fun t => !t.hp.linkUp && t.arb.tenure == none) ∧
    nx (exec (.configSpaceWrite ⟨false, false⟩ { msixMask := true }) (hpOn none)) (fun t => !t.hp.busMaster && t.hp.pci.msixMask) := by decide

/-! ### Reaches, mailboxes and the estimator -/

/-- A reach from 1 mm to 3 mm on channel 3, and descriptors that fail a check. -/
def reach : Desc := dsc [(2, 3), (4, 0xE8), (5, 3), (8, 0xB8), (9, 0x0B)]
def fieldM : State := m0in .field
/-- Sixty-four live reaches in channel 3. -/
def full3 : State := fieldM.modCh 3 fun h => { h with seqr := { h.seqr with live := List.replicate 64 (reachOf 0 reach) } }
theorem wit_reach : fieldM.canStart 0 = true ∧ fieldM.postCheck 0 reach = none ∧ fieldM.postCheck 16 reach = some 0x19 ∧
    fieldM.hostMode = .field ∧ (spireOf (descChan reach)).val = 0 ∧ reachFieldsOk reach = true ∧ (reachOf 0 reach).len = 2000 ∧
    fieldM.isMember 3 = false ∧ sDiff (fieldM.ch 3).sRep (reachOf 0 reach).sEnd < 0 ∧ sDiff (reachOf 0 reach).sStart (fieldM.ch 3).sRep < 274877906944 ∧
    64 ≤ (full3.ch 3).seqr.live.length ∧ (reachOf 0 (dsc [(2, 3)])).len < 1000 ∧
    0 ≤ sDiff ({ (fieldM.ch 3) with sQ24 := 3000 * 16777216 }).sRep (reachOf 0 reach).sEnd := by decide
theorem test_reach : nx (exec (.reachPost 0 reach) fieldM) (fun t => (t.ch 3).seqr.live.length == 1 && (t.ch 3).seqr.nextSeq == 2) ∧
    fieldM.postCheck 1 reach = some 0x12 ∧ fieldM.postCheck 0 (dsc [(2, 3)]) = some 0x14 ∧ full3.postCheck 0 reach = some 0x17 ∧
    (fieldM.modCh 3 fun h => { h with sQ24 := 3000 * 16777216 }).postCheck 0 reach = some 4 ∧
    nx (exec (.reachPost 0 (dsc [(2, 3)])) fieldM) (fun t => (t.hp.cq[t.cqOf 0]).length == 1) := by decide
/-- On a ring of four modules at place 1. -/
def onRing (r : RvRole) (f : River → River := id) (s : State := m0) : State := { s with rv := f { s.rv with role := r, pos := 1, ringN := 4 } }
def mbx (dst : Byte) : Desc := dsc [(2, dst), (4, 5)] (List.replicate 64 9)
theorem wit_mail : (onRing .head id (lent 16)).Takes 16 0x90 (mbx 2) ∧ (onRing .head).rv.role ≠ .none_ ∧ descLe (mbx 2) 2 2 ≠ (onRing .head).rv.pos ∧
    descLe (mbx 2) 2 2 < (onRing .head).rv.ringN ∧ (lent 16).rv.role = .none_ ∧ (lent 16).Takes 16 0x90 (mbx 2) ∧
    (lent 16).Takes 16 0x91 (dsc [(4, 5)]) ∧ m0.rv.recvs.length < 4 ∧ m0.rv.inbox = [] ∧
    4 ≤ (onRing .head fun v => { v with recvs := List.replicate 4 ⟨1, 0, 5, 0⟩ }).rv.recvs.length :=
  ⟨⟨by decide, by decide⟩, by decide, by decide, by decide, by decide, ⟨by decide, by decide⟩, ⟨by decide, by decide⟩, by decide, by decide, by decide⟩
theorem test_mail : nx (exec (.mbxSend 16 (mbx 2)) (onRing .head id (lent 16))) (fun t => t.rv.mailA.length == 1) ∧
    nx (exec (.mbxSend 16 (mbx 1)) (onRing .head id (lent 16))) (fun t => ans t 16 == [(0x13, 0)]) ∧
    nx (exec (.mbxRecv 16 (dsc [(4, 5)])) (lent 16)) (fun t => t.rv.recvs.length == 1) ∧
    says_ (.mbxRecv 16 (dsc [(4, 5)])) (onRing .head (fun v => { v with recvs := List.replicate 4 ⟨1, 0, 5, 0⟩ }) (lent 16)) 16 0x20 := by decide
def es (f : Est → Est) (s : State := m0) : State := { s with est := f s.est }
/-- A fall of 20 A that the module commanded, with 36 samples of it (W_MS = 1). -/
def smp (vp : Nat) (ip draw : Int) (sp : Bool := false) : StepSmp := { ip := ip, vp := vp, spoiled := sp, draw := draw }
def stepHist (sp : Bool) : List StepSmp :=
  (List.replicate 10 (smp 26400 0 0) ++ List.replicate 6 (smp 26000 (-20000000) 20000000) ++ List.replicate 10 (smp 25920 (-20000000) 20000000) ++
   List.replicate 10 (smp 25880 (-20000000) 20000000 sp)).reverse
def stepped (sp : Bool) : State := es (fun x => { x with hist := stepHist sp }) (m0.put R.EST_PROBE_W_MS 1)
theorem wit_step : (stepped false).stepCandidate = some (some (21000, 12462, 1)) ∧ (stepped true).stepCandidate = some none ∧
    (stepped false).est.stepsOk = 0 ∧ m0.est.hist.length < 20 * m0.get R.EST_PROBE_W_MS + 16 := by decide +kernel
theorem test_impedance : nx (exec .impedanceStep (stepped true)) (fun t => t.get R.EST_CNT_STEPS_REJ == 1) ∧
    nx (exec .impedanceStep (stepped false)) (fun t => t.reg R.EST_R0 == 21000 && t.reg R.EST_TAU == 1) := by decide +kernel
/-- A channel under trim that draws 12 A in FIELD, an hour after the last step; every other channel is lost. -/
def trimmed : State :=
  let s := ((m0in .field).put R.EST_REST_PROBE_H 1).setReg (R.BUD_TRIM 0) 8
  let out (b : Bool) (h : Chan) : Chan :=
    { h with stage := { h.stage with legA := { h.stage.legA with inService := b }, legB := { h.stage.legB with inService := b } } }
  wall (({ s with chan := s.chan.map (out false) } : State).modCh 3 fun h =>
    { out true h with lastOn := 80000, smp := { h.smp with i := 12000000 } }) 720000000000
/-- A pack of ten cells at rest, at 25 °C and 3.2 V. -/
def rest_ : State := es (fun x => { x with vpNow := 25600, restFrom := some 0 }) (((wall m0 10000000000000).put R.PACK_T_T0 1600).put R.PACK_STAT_CELLS_DET 10)
/-- A period of the estimator with the pack switch open: 1,000 µC taken. -/
def period : State := mp (es fun x => { x with nAcc := 1, z := 5000, s := 5000 }) fun p => { p with qDis := 1000 * 65536 }
theorem wit_probe : trimmed.get R.EST_REST_PROBE_H ≠ 0 ∧ trimmed.mode.mode = .field ∧ trimmed.get R.BUD_STAT_K = 256 ∧
    trimmed.power.probeUntil = none ∧ trimmed.est.lastStepAt + trimmed.get R.EST_REST_PROBE_H * 720000000000 ≤ trimmed.tick.wall ∧
    (mp m0 fun p => { p with probeUntil := some 0 }).power.probeUntil = some 0 ∧ 0 + 720000000000 ≤ trimmed.tick.wall ∧ m0.silt.queue = [] ∧
    m0.silt.writing = none ∧ m0.silt.supplyLow = false ∧ m0.silt.erasing = false := by decide
theorem wit_rest : rest_.resting = true ∧ rest_.keepRuns = true ∧ rest_.est.restDone = false ∧
    0 + rest_.get R.EST_REST_REST_MIN * 12000000000 ≤ rest_.tick.wall := by decide +kernel
theorem wit_period : period.est.nAcc ≠ 0 ∧ period.power.sw ≠ .closed ∧ period.capC ≠ 0 ∧ period.pace.soc = none := by decide
theorem test_probe_end : nx (exec .probeEnd (mp m0 fun p => { p with probeUntil := some 0 })) (fun t => t.get R.BUD_STAT_K == 256) := by decide
theorem test_rest : nx (exec .restPoint rest_) (fun t => t.est.z == 1000 && t.est.p == 100 && t.est.restDone && t.get R.EST_SOC_SOC_EST == 1000) := by decide +kernel
theorem test_record : nx (exec .estimatorRecord trimmed) (fun t => t.est.lastRecAt == 720000000000 && t.silt.writing.isSome) := by decide +kernel
theorem wit_trim : 12000000 ≤ trimmed.budTerms.t := by decide +kernel

/-! ### Auxiliary rails -/

/-- Rail r in a state of RAIL_STAT. -/
def rl (r : Rail) (st : Nat) (f : RailSt → RailSt) (s : State := wall m0 1000000000000) : State :=
  (s.put (R.RAIL_STAT_STATE r) st).modRail r f
def sq (f : SeqRail → SeqRail) (s : State := wall m0 1000000000000) : State := { s with seqr := f s.seqr }
def waiting : State := rl 4 1 (fun x => { x with depMetAt := some 0 }) (sq fun q => { q with active := true })
def early : State := rl 4 1 (fun x => { x with depMetAt := some 1000000000000 }) ((sq fun q => { q with active := true }).put (R.RAIL_DEP_DELAY_MS 4) 1)
/-- The hop into STANDBY is next. -/
def toStandby : State := mm m0 fun m => { m with move := some { hops := [.standby], cause := .twoWire } }
def stops (s : State) : State := s.putFlag R.SEQ_STAT_STOPPING true
theorem wit_rail : m0.phase2Of 4 = none ∧ waiting.rail[(4 : Rail)].depMetAt = some 0 ∧ waiting.railState 4 = 1 ∧ waiting.keepRuns = true ∧
    waiting.seqr.active = true ∧ waiting.stopping = false ∧ waiting.mode.fault = false ∧
    waiting.railGet (R.RAIL_DEP_DELAY_MS 4) * 200000 ≤ waiting.tick.wall ∧
    early.tick.wall < 1000000000000 + early.railGet (R.RAIL_DEP_DELAY_MS 4) * 200000 ∧
    (rl 4 3 id).railState 4 = 3 ∧ (rl 4 3 id).follows 4 = false ∧ (rl 4 3 id).mayRaise 0x0807 4 200000000 = true := by decide
theorem test_rail : nx (exec (.railStart 4 120) waiting) (fun t => t.railState 4 == 2 && t.rail[(4 : Rail)].refMv == 120) ∧
    nx (exec (.railStart 4 120) early) (fun t => t.railState 4 == 1) ∧
    nx (exec (.railHiccup 4) (rl 4 3 id)) (fun t => t.railState 4 == 4) ∧
    nx (exec (.railHiccupEnd 4 90) (rl 4 4 fun x => { x with hicUntil := some 0 })) (fun t => t.railState 4 == 2) ∧
    nx (exec (.railWindowExpiry 4) (rl 4 2 fun x => { x with windowFrom := some 0 })) (fun t => t.flag (R.RAIL_STAT_FAILED 4)) ∧
    nx (exec (.railStopped 4) (rl 4 5 id)) (fun t => t.railState 4 == 0 && t.rail[(4 : Rail)].discharge) ∧
    nx (exec .railStopOrder toStandby) (fun t => t.stopping) ∧
    nx (exec .hostHoldExpiry (stops (rl 0 3 id (sq fun q => { q with othersAt := some 0 })))) (fun t => t.railState 0 == 5) ∧
    nx (exec (.railOnWrite 4 true) m0) (fun t => t.keepWrites == [⟨R.RAIL_CTRL 4, 1⟩]) := by decide
theorem wit_rail_stop : (rl 4 5 id).rail[(4 : Rail)].refMv = 0 ∧ (rl 4 5 id).rail[(4 : Rail)].refAt ≤ (rl 4 5 id).tick.wall ∧
    (rl 4 5 id).rail[(4 : Rail)].vout * 10 < (rl 4 5 id).railSet 4 ∧ toStandby.stopping = false ∧ toStandby.seqr.stopDone = false ∧
    (stops m0).pair01 = false ∧ (rl 4 2 id).railGood 4 = false ∧ m0.hostWritable = true := by decide
def seq8 : State :=
  (((sq fun q => { q with step8From := some 0 }).putFlag (R.RAIL_CFG_EN 4) true).putFlag (R.RAIL_CTRL_ON 4) true).put (R.RAIL_DEP_MASK 4) 1024
theorem wit_supervised : m0.mode.mode ≠ .ship ∧ m0.pace.rails = none ∧ m0.follows 4 = false ∧ m0.seqr.nSum < 99 ∧ m0.railState 4 = 0 ∧ (rl 4 3 id).railGood 4 = false ∧
    m0.flag (R.RAIL_STAT_UV_WARN 4) = false ∧ m0.flag (R.RAIL_STAT_OV_WARN 4) = false ∧ m0.flag (R.RAIL_STAT_UV_FLT 4) = false ∧
    m0.mayRaise 0x0803 4 200000000 = true ∧ m0.mayRaise 0x0804 4 200000000 = true ∧ m0.flt.active.contains (railSrc 4) = false ∧
    m0.railGet (R.RAIL_CFG_CRIT 4) ≠ 1 ∧ (m0.put (R.RAIL_CFG_CRIT 4) 1).railGet (R.RAIL_CFG_CRIT 4) = 1 ∧ (rl 4 3 id).railUp 4 = true ∧
    (rl 4 3 id).railGet (R.RAIL_CFG_LIGHT 4) ≠ 2 ∧ seq8.seqr.step8From = some 0 ∧
    seq8.get R.SEQ_CFG_SEQIN_WAIT * 2000000 ≤ seq8.tick.wall ∧ seq8.flag R.SEQ_STAT_SEQ_IN = false ∧ seq8.seqr.waitOver = false ∧
    seq8.railWanted 4 = true ∧ (seq8.depsOf 4).contains 10 = true := by decide
theorem test_supervised :
    nx (exec (.railSupervisionSample (List.replicate 10 3300) (List.replicate 10 5)) (m0.put (R.RAIL_SHED_DROP_MA 9) 1)) (fun t => t.rail[(9 : Rail)].vSum == 3300 &&
      t.rail[(9 : Rail)].iNow == 5 && t.rail[(9 : Rail)].iLow == 1 && t.pace.rails == some 0) ∧
    nx (exec (.railSupervisionSample (List.replicate 10 3300) (List.replicate 10 5)) { wall m0 1999 with pace := { m0.pace with rails := some 0 } })
      (fun t => t.rail[(9 : Rail)].vSum == 0) ∧
    nx (exec (.railGood 4) (rl 4 3 fun x => { x with inBand := 10 })) (fun t => t.railGood 4) ∧
    nx (exec (.railUvWarn 4) (rl 4 3 fun x => { x with uvW := 10 })) (fun t => t.flag (R.RAIL_STAT_UV_WARN 4)) ∧
    nx (exec (.railOvWarn 4) (rl 4 3 fun x => { x with ovW := 10 })) (fun t => t.flag (R.RAIL_STAT_OV_WARN 4)) ∧
    nx (exec (.railUvFault 4) (rl 4 3 fun x => { x with uvF := 100 })) (fun t => t.railState 4 == 3) ∧
    nx (exec (.railUvFault 4) (rl 4 3 (fun x => { x with uvF := 100 }) (m0.put (R.RAIL_CFG_CRIT 4) 1))) (fun t => t.railState 4 == 6) ∧
    nx (exec (.railOvFault 4) (rl 4 3 fun x => { x with ovF := 2 })) (fun t => t.railState 4 == 6 && t.rail[(4 : Rail)].lowSide) ∧
    nx (exec (.lightLoadChange 4 true) (rl 4 3 id)) (fun t => t.flag (R.RAIL_STAT_BURST 4)) ∧
    nx (exec (.seqInChange true) m0) (fun t => t.flag R.SEQ_STAT_SEQ_IN) ∧
    nx (exec .seqinWaitExpiry seq8) (fun t => t.flag R.SEQ_STAT_SEQIN_TMO) := by decide

/-! ### Housekeeping, temperatures, faults and the Silt log -/

/-- The loop runs at entry n, for a slot with one conversion. -/
def loop (n slot : Nat) : State :=
  { ((m0.putFlag R.HK_CTRL_START true).putFlag R.HK_STAT_RUNNING true) with hk := { entry := n, cfg := BitVec.ofNat 32 slot }, tick := { m0.tick with wall := 1200 } }
def hk (f : Hk → Hk) : State := let s := wall m0 3600000; { s with hk := f s.hk }
/-- A calibration under way, and its passing means. -/
def calib : State := hk fun x => { x with calFrom := some 0 }
def good4 : List (Int × Int) := [(0, 16000), (10, 32010), (0, 32000), (0, 64000)]
/-- A path diagnosis of slot 0 with a code of 512. -/
def diagd : State := hk fun x => { x with diag := some (0, 512), diagFrom := some 0 }
theorem wit_hk : (loop 3 3).mode.mode ≠ .ship ∧ (loop 3 3).flag R.HK_CTRL_START = true ∧ (loop 3 3).flag R.HK_STAT_RUNNING = true ∧
    (loop 3 3).hk.entry < 63 ∧ (loop 3 3).hk.from_ + (6 + 2 * bits (loop 3 3).hk.cfg.toNat 8 8) * 200 ≤ (loop 3 3).tick.wall ∧
    (loop 3 3).hk.entry < 64 ∧ [(100 : BitVec 16)].length = bits (loop 3 3).hk.cfg.toNat 8 8 + 1 ∧
    (loop 3 3).get (R.HK_CFG_SLOT 4) ≠ 0x7F ∧ m0.hostWritable = true ∧ calib.hk.calFrom = some 0 ∧ 0 + 3600000 ≤ calib.tick.wall ∧
    (∀ g, g < 4 → (calGroup g (good4.getD g (0, 0))).isSome = true) ∧ diagd.hk.diag = some (0, 512) ∧ diagd.hk.diagFrom = some 0 ∧
    0 + 7200 ≤ diagd.tick.wall := by
  decide
theorem test_hk : nx (exec (.hkEntryDone [100]) (loop 3 3)) (fun t => t.reg (R.HK_RES 3) == 0x01000064 && t.hk.entry == 4) ∧
    nx (exec (.hkStartWrite true) m0) (fun t => t.keepWrites == [⟨R.HK_CTRL, 1⟩]) ∧
    nx (exec .hkCal m0) (fun t => t.keepWrites.length == 1) ∧
    nx (exec (.hkCfgWrite 60 5) m0) (fun t => t.keepWrites == [⟨R.HK_CFG 60, 5⟩]) ∧
    nx (exec (.hkDiagGo 512) m0) (fun t => t.keepWrites == [⟨R.HK_DIAG, 0x80000200⟩]) ∧
    nx (exec (.hkCalDone good4) calib) (fun t => !t.flag R.HK_STAT_CAL_FAIL && t.get (R.HK_CAL_OFFS 1) == 10) := by decide
theorem test_hk_time : nx (exec (.hkEntryDone [100]) (wall (loop 3 3) 1199)) (fun t => t.hk.entry == 3) ∧
    nx (exec (.hkDiagDone (List.replicate 16 16384)) (wall diagd 7199)) (fun t => t.hk.diag.isSome) := by decide
/-- 512 codes of 2.5 mV are 1.28 V, a quarter of a full scale of 5.12 V. -/
theorem test_diag : nx (exec (.hkDiagDone (List.replicate 16 16384)) diagd)
      (fun t => t.reg R.HK_DIAG_RES == 0x00034000) ∧
    nx (exec (.hkDiagDone (List.replicate 16 17000)) diagd)
      (fun t => t.reg R.HK_DIAG_RES == 0x00014268 && t.hp.events.any fun x => x.code == 0x0903) := by decide +kernel
/-- The Dome's die after 20 samples of 40 °C, now at 45 °C: 25 °C a second. -/
def warm : State := md (m0.putFlag R.HK_CTRL_START true) 0 fun x => { x with t := some 2880, temps := List.replicate 20 2560 }
theorem wit_die : warm.keepRuns = true ∧ warm.pace.rate = none ∧ warm.clockOn = true ∧ warm.flag R.HK_CTRL_START = true ∧ (warm.die[(0 : DieIx)]).sensor = false ∧
    (warm.die[(0 : DieIx)]).t = some 2880 ∧ (warm.die[(0 : DieIx)]).temps.length = 20 ∧
    m0.flt.active.contains 0x20 = false ∧ m0.flt.active.contains 0x41 = false ∧ (m0.die[(2 : DieIx)]).shutAt = none ∧ m0.inBuskeep = false := by decide
theorem wit_sensor : (md warm 0 fun x => { x with badRun := 3 }).keepRuns = true ∧ 3 ≤ ((md warm 0 fun x => { x with badRun := 3 }).die[(0 : DieIx)]).badRun ∧
    (warm.die[(0 : DieIx)]).badRun < 3 := by decide
theorem test_rate : nx (exec .thermalRateSample warm) (fun t => (t.die[(0 : DieIx)]).rate == 1600) ∧
    nx (exec .thermalRateSample (md warm 0 fun x => { x with badRun := 3 })) (fun t => (t.die[(0 : DieIx)]).sensor) := by decide
def lvl (n : BitVec 2) (t : Int) : State :=
  md (later m0 100000000000) 5 fun x => { x with level := n, holdFrom := some 0, t := some t }
theorem test_die_level : nx (exec (.thermalLevelFall 5) (lvl 3 8959)) (fun t => (t.die[(5 : DieIx)]).level == 2) ∧
    nx (exec (.thermalLevelFall 5) (lvl 3 8960)) (fun t => (t.die[(5 : DieIx)]).level == 3) ∧
    nx (exec (.thermalLevelFall 5) (later (lvl 1 0) 1)) (fun t => (t.die[(5 : DieIx)]).level == 1) ∧
    nx (exec (.stageThermalShutdown 0) m0) (fun t => t.dieHot 0) ∧
    nx (exec (.stageThermalRelease 0) (md (wall m0 200000000) 2 fun x => { x with shutAt := some 0 })) (fun t => !t.dieHot 0) ∧
    nx (exec (.stageThermalRelease 0) (md (wall m0 199999999) 2 fun x => { x with shutAt := some 0 })) (fun t => t.dieHot 0) ∧
    nx (exec (.coreThermalShutdown true) m0) (fun t => !t.mode.domeOn && t.railState 0 == 0 && !t.hp.linkUp && !t.power.gatesOn) := by decide
def fl (f : FaultSt → FaultSt) (s : State := wall m0 1000) : State := { s with flt := f s.flt }
def f3s (s : State := m0) : State := mm s fun m => { m with f3Pend := [⟨0x0A06, 0x40, false⟩] }
theorem wit_pair : m0.mode.mode ≠ .ship ∧ m0.flt.active.contains 3 = false ∧ m0.flt.told.contains 3 = false ∧
    m0.srcEvent 3 = some (chCode 24 0x57, 3, 24) ∧ m0.flt.brokenActive.contains 3 = false ∧
    (fl fun x => { x with active := [3] }).flt.active.contains 3 = true ∧ f3s.mode.f3Pend = [⟨0x0A06, 0x40, false⟩] ∧
    f3s.mode.fault = false ∧ f3s.mode.frozen = false ∧ f3s.mode.starting = false ∧ f3s.mode.move = none := by decide
theorem test_pair : nx (exec (.faultPairQualify 3) m0) (fun t => t.get ⟨R.FLT_LATCH 0, 3, 1⟩ == 1 && t.mode.f3Pend.length == 1) ∧
    nx (exec (.faultPairBroken 3) m0) (fun t => t.get ⟨R.FLT_BROKEN 0, 3, 1⟩ == 1) ∧
    nx (exec (.faultPairCleared 3) (fl fun x => { x with active := [3], told := [3, 4] })) (fun t => t.flt.active == [] && t.flt.told == [4]) ∧
    nx (exec .faultStateEntry f3s) (fun t => t.mode.fault && t.get R.FLT_STAT_F3_CODE == 0x0A06) ∧
    nx (exec .errNPulseEnd (fl fun x => { x with pulseUntil := some 1000 })) (fun t => t.flt.pulseUntil == none) := by decide
def silt (f : Silt → Silt) (s : State := m0) : State := { s with silt := f s.silt }
def rec0 : SiltBody := ⟨0, 0, 1, 0, 0x0900, []⟩
def aCopy : State := lent 16 (silt (fun x => { x with slots := x.slots.set 0 (.valid 1 rec0), head := 0, seq := 1 }) (m0.setReg R.SILT_COPY 5))
theorem wit_silt : (silt fun x => { x with writing := some (rec0, false) }).silt.queue = [] ∧ m0.hostWritable = true ∧ aCopy.silt.copy = none ∧
    (aCopy.lendOf (aCopy.reg R.SILT_COPY)).map (·.ring) = some 16 ∧ m0.lendOf (m0.reg R.SILT_COPY) = none ∧ m0.mode.mode = .service ∧
    (m0in .field).mode.mode ≠ .service ∧ (∀ d ∈ m0.arb.data, d.job ≠ .silt) ∧ m0.arb.tenure = none ∧ m0.clockOn = true := by decide +kernel
theorem test_silt : nx (exec (.siltRecordWriteDone true) (silt fun x => { x with writing := some (rec0, false) }))
      (fun t => t.silt.head == 0 && t.silt.seq == 1 && t.silt.slots[0] == .valid 1 rec0) ∧
    nx (exec (.siltRecordWriteDone false) (silt fun x => { x with writing := some (rec0, false) })) (fun t => t.silt.writing == some (rec0, true)) ∧
    nx (exec .turretSupplyLow (silt fun x => { x with writing := some (rec0, false) })) (fun t => t.silt.writing == none && t.silt.supplyLow) ∧
    nx (exec .turretSupplyReturn (silt fun x => { x with supplyLow := true })) (fun t => !t.silt.supplyLow) ∧
    nx (exec .siltErase (m0in .field)) (fun t => !t.silt.erasing) ∧
    nx (exec .siltCopyDone (silt fun x => { x with copy := some (5, 2) })) (fun t => t.flag R.SILT_COPY_CTRL_DONE && t.get R.SILT_COPY_CTRL_COUNT == 2) := by
  decide +kernel
theorem test_silt_all : nx (exec .siltCopyGo aCopy) (fun t => t.silt.copy == some (5, 1) && t.arb.data.length == 1) ∧
    nx (exec .siltErase aCopy) (fun t => t.silt.erasing && t.silt.slots[0] == .torn) ∧
    nx (exec .siltEraseDone (silt fun x => { x with erasing := true })) (fun t => t.silt.slots[0] == .erased) := by decide +kernel

/-! ### Freeze, debug, the river ring, OTP and two-wire -/

def fz (f : FreezeSt → FreezeSt) (s : State) : State := { s with frz := f s.frz }
/-- READY with a freeze trigger taken. -/
def trig : State := fz (fun x => { x with trig := some (1, 0) }) (m0in .ready)
theorem wit_freeze : (m0in .ready).mode.domeRun = true ∧ (m0in .ready).mode.frozen = false ∧ (m0in .ready).flag R.FRZ_CFG_PIN_EN = true ∧
    (m0in .ready).frz.trig = none ∧ (m0in .ready).mode.mode.isLink = true ∧ (m0in .ready).mode.bootStep = 0 ∧ (m0in .ready).mode.fault = false ∧
    trig.clockOn = true ∧ trig.frz.trig = some (1, 0) ∧ frozen.mode.frozen = true ∧ frozen.mode.domeOn = true ∧ frozen.mode.pins.freezeLow = false ∧
    (mm frozen fun m => { m with pins := { m.pins with freezeLow := true } }).mode.pins.freezeLow = true ∧
    (frozen.putFlag R.FRZ_CFG_PIN_THAW true).flag R.FRZ_CFG_PIN_THAW = true ∧ frozen.mode.f3Pend = [] ∧
    frozen.frz.from_ + frozen.get R.FRZ_CFG_LIMIT * 20000000 ≤ (wall frozen 20000000000).tick.wall ∧
    (frozen.die[(0 : DieIx)]).shutAt = none ∧ frozen.tick.replay = none ∧ (m0in .standby).mode.mode.isLink = false ∧
    (m0in .standby).mode.mode ≠ .ship := by decide
theorem test_freeze : nx (exec .freezeNFall (m0in .ready)) (fun t => t.frz.trig == some (1, 0)) ∧
    nx (exec .freezeNFall (mm (m0in .ready) fun m => { m with fault := true })) (fun t => t.frz.trig == none && t.hp.events.any fun x => x.code == 0x0107) ∧
    nx (exec .freezeNFall (m0in .standby)) (fun t => t.frz.trig == none && t.mode.pins.freezeLow && t.hp.events.any fun x => x.code == 0x0107) ∧
    nx (exec (.freezeEntry 0x80000) trig) (fun t => t.mode.frozen && t.get R.FRZ_STAT_CAUSE == 1) ∧
    nx (exec .thawWrite frozen) (fun t => t.frz.thawReq) ∧
    nx (exec .thawWrite (mm frozen fun m => { m with pins := { m.pins with freezeLow := true } })) (fun t => !t.frz.thawReq && t.frz.refused == 1) ∧
    nx (exec .freezeNRise (frozen.putFlag R.FRZ_CFG_PIN_THAW true)) (fun t => t.frz.thawReq) ∧
    nx (exec .dbgThaw frozen) (fun t => t.frz.thawReq) := by decide
/-- A gap of 40 Turret cycles at 5 ticks a cycle is 200 ticks. -/
theorem test_thaw : nx (exec (.thaw 40) (fz (fun x => { x with thawReq := true }) (frozen.setReg R.FRZ_RATIO 0x50000)))
      (fun t => !t.mode.frozen && t.now == 200) ∧
    nx (exec .freezeLimitExpiry (wall frozen 20000000000)) (fun t => !t.mode.frozen && t.mode.bootStep == 4) := by decide +kernel
/-- Engine 3 with one ADD g3, g1, g2 in its RAM, halted. -/
def addIn : State := m0.modEng 3 fun x => (({ x with running := true, codeLen := 64, halted := true, iram := [0x00611000] }).setG 1 5).setG 2 6
def lockOf3 : State := m0.modEng 3 fun x => { x with running := true, lock := some ⟨1, 2, 0, 0, 0, 0, 0, 0, 0, 0⟩, haltPend := some 0 }
theorem wit_debug : m0.mode.domeOn = true ∧ (m0in .field).mode.mode ≠ .service ∧ m0.mode.mode = .service ∧ m0.mode.frozen = false ∧
    (m0.eng[(3 : Eng)]).retired = false ∧ (m0.eng[(3 : Eng)]).halted = false ∧ (m0.eng[(3 : Eng)]).haltPend = none ∧
    (m0.eng[(3 : Eng)]).lock = none ∧ (lockOf3.eng[(3 : Eng)]).lock.isSome = true ∧ (lockOf3.eng[(3 : Eng)]).haltPend = some 0 ∧ m0.clockOn = true ∧
    (addIn.eng[(3 : Eng)]).halted = true ∧ (addIn.eng[(3 : Eng)]).asleep = none ∧ (addIn.eng[(3 : Eng)]).running = true ∧
    (addIn.eng[(3 : Eng)]).pc + 4 < (addIn.eng[(3 : Eng)]).codeLen ∧
    decodeFrajan ((addIn.eng[(3 : Eng)]).ramWord false ((addIn.eng[(3 : Eng)]).pc / 4)) = some (.add 3 1 2) := by decide
theorem test_debug : nx (exec .samplePreload m0) (fun t => t.dbg.ir == 1) ∧ nx (exec .extest m0) (fun t => t.dbg.extest) ∧
    nx (exec .idcode m0) (fun t => t.dbg.ir == 2) ∧ nx (exec (.bypass 0xFF) m0) (fun t => t.hp.sent == [.tapWord 0]) ∧
    nx (exec (.dbgAddr 0x10) m0) (fun t => t.dbg.addr == 0x10) ∧ nx (exec .dbgRead m0) (fun t => t.dbg.addr == 4) ∧
    nx (exec (.dbgHalt 3) (m0in .field)) (fun t => t.dbg.refused) ∧ nx (exec (.dbgHalt 3) m0) (fun t => (t.eng[(3 : Eng)]).halted) ∧
    nx (exec (.dbgHaltDeferralEnd 3) lockOf3) (fun t => (t.eng[(3 : Eng)]).halted && (t.eng[(3 : Eng)]).lock == none) ∧
    nx (exec (.dbgResume 3) addIn) (fun t => !(t.eng[(3 : Eng)]).halted) ∧
    nx (exec (.dbgStep 3) addIn) (fun t => (t.eng[(3 : Eng)]).getG 3 == 11 && (t.eng[(3 : Eng)]).pc == 4) := by decide
/-- A frame of ring A. -/
def frame : RvFrame :=
  { ring := .a, wrapped := false, held := false, acting := false, hops := 2, headId := 9, fseq := 4, ringN := 4, loop := 0, ftick := 1000, sRef := 7,
    v := 65536, heading := 0, omega := 0, accel := 0, alpha := 0, updTick := 2000, speedValid := true, dirUnknown := false, rebase := 0, snapTick := 0,
    tokAnd := 0, tokRes := 0, faults := List.replicate 8 none, mails := List.replicate 14 none }
def at200 (n : Nat) : State := onRing .head id (later m0 n)
def joining (e : Int) (s : State := m0) : State := onRing .tributary (fun v => { v with fresh := true, accepts := 17, e := e }) s
theorem wit_river : m0.clockOn = true ∧ m0.mode.domeOn = true ∧ m0.mode.domeRun = true ∧ m0.mode.frozen = false ∧ (at200 2200).rv.sentAt ≠ some (at200 2200).tick.wall ∧ (at200 2200).now % 2000 = 200 ∧ (at200 2200).isHead = true ∧ m0.rv.portA.down = false ∧
    m0.rv.portB.down = false ∧ m0.rv.noticeA = [] ∧ m0.rv.mailA = [] ∧ (onRing .tributary).isHead = false ∧ frame.hops ≤ 1023 ∧
    ((onRing .tributary).rv.port (otherRing frame.ring)).down = false ∧ 1023 < { frame with hops := 1024 }.hops ∧ frame.held = false ∧
    (joining 5).rv.joined = false ∧ 17 ≤ (joining 5).rv.accepts := by decide
theorem test_river : nx (exec .ringFrameSend (at200 2200)) (fun t => t.hp.sent.length == 2 && t.rv.fseq == 1 && t.rv.sentAt == some 0) ∧
    nx (exec .ringFrameSend (at200 2201)) (fun t => t.hp.sent.length == 0) ∧
    nx (exec (.ringFrameAccept .a frame true 900) (onRing .tributary)) (fun t => t.rv.accepts == 1 && t.rv.headId == some 9 && t.course.ringSRef == 7) ∧
    nx (exec (.ringFrameAccept .a frame false 900) (onRing .tributary)) (fun t => t.get R.RV_CNT_CRC_ERR == 1) ∧
    nx (exec (.ringFrameAccept .a { frame with hops := 1024 } true 900) (onRing .tributary)) (fun t => t.hp.sent.length == 0) := by decide
theorem test_join : nx (exec .ringJoin (joining 1000000)) (fun t => t.rv.joined && t.now == 0) ∧
    nx (exec .ringJoin (joining (-1000001) (m0in .field))) (fun t => !t.rv.joined) ∧
    nx (exec .ringJoin (joining (-1000001))) (fun t => t.rv.joined && t.now == 201) ∧
    nx (exec .ringJoin (joining 1000001)) (fun t => !t.rv.joined && t.now == 0) := by decide +kernel
def port (f : RvPort → RvPort) (s : State := wall m0 6000) : State := s.modPort .a f
def standbyHead : State := mm (wall m0 20000) fun m => { m with straps := { m.straps with stbyLow := true, headLow := false } }
def slave : State := onRing .tributary (fun v => { v with joined := true, e := 1000001 }) (wall m0 20000)
theorem wit_port : (m0.rv.port .a).down = false ∧ (m0.rv.port .a).lastAt + 6000 ≤ (wall m0 6000).tick.wall ∧
    (wall m0 5999).tick.wall < (m0.rv.port .a).lastAt + 6000 ∧ ((port fun x => { x with run := 16 }).rv.port .a).up = false ∧
    16 ≤ ((port fun x => { x with run := 16 }).rv.port .a).run ∧ m0.isHead = false ∧ m0.rv.headId = none ∧ slave.rv.role = .tributary ∧
    slave.rv.joined = true ∧ 1000000 < slave.rv.e.natAbs ∧ standbyHead.mode.straps.stbyLow = true ∧ standbyHead.mode.straps.headLow = false ∧
    standbyHead.rv.yielded = false ∧ standbyHead.rv.lastSeen + 20000 ≤ standbyHead.tick.wall ∧ slave.rv.lostTold = false := by decide
theorem test_port : nx (exec (.ringPortDown .a) (wall m0 6000)) (fun t => (t.rv.port .a).down) ∧
    nx (exec (.ringPortDown .a) (wall m0 5999)) (fun t => !(t.rv.port .a).down) ∧
    nx (exec (.ringPortUp .a) (port fun x => { x with run := 16 })) (fun t => (t.rv.port .a).up) ∧
    nx (exec .notOnRing (onRing .tributary)) (fun t => t.rv.role == .none_) ∧
    nx (exec .slavingLost slave) (fun t => !t.rv.joined) ∧
    nx (exec .standbyTakeover standbyHead) (fun t => t.rv.role == .acting) ∧
    nx (exec .headwaterLost slave) (fun t => t.rv.lostTold && !t.course.ring.got) := by decide
def ot (f : Otp → Otp) (s : State := m0) : State := { s with otp := f s.otp }
/-- The Dome's die at 25 °C and VBUS at 24 V. -/
def burnOk : State := (m0.put (R.THM_TEMP_T_LO 0) 1600).setReg R.VBUS_V 24000
theorem wit_otp : m0.flag R.OTP_STAT_BUSY = false ∧ (m0.putFlag R.OTP_STAT_BUSY true).flag R.OTP_STAT_BUSY = true ∧ burnOk.burnSafe = true ∧
    burnOk.mode.keepPatched = false ∧ 32 * 1 + 32 ≤ otpWords 0 ∧ (∀ k, k < 32 → m0.otp.normal 0 (32 * 1 + k) m0.free = 0) ∧
    (ot fun o => { o with config := [(40, 3)] }).otp.normal 0 (32 * 1 + 8) m0.free ≠ 0 ∧ bits (0x100 : W32).toNat 8 12 = 1 := by decide +kernel
theorem test_otp : nx (exec (.otpRead 0x140) m0) (fun t => t.otp.run == some ⟨1, 0, 1, 1, [], 0⟩) ∧
    nx (exec (.burnBlock 0x100) burnOk) (fun t => t.otp.run.isSome) ∧
    nx (exec (.burnBlock 0x100) (ot (fun o => { o with config := [(40, 3)] }) burnOk)) (fun t => t.get R.OTP_STAT_RESULT == 3) ∧
    nx (exec (.burnBlock 0x100) (m0in .ready)) (fun t => t.get R.OTP_STAT_RESULT == 1) ∧
    nx (exec (.marginScan 0) (m0in .field)) (fun t => t.get R.OTP_STAT_RESULT == 1) ∧
    nx (exec (.marginScan 0) m0) (fun t => t.flag R.OTP_STAT_BUSY) ∧
    nx (exec (.reburnWeak 0x100) burnOk) (fun t => t.flag R.OTP_STAT_BUSY) ∧
    nx (exec .keyLoad m0) (fun t => t.otp.reqs.length == 1) := by decide +kernel
/-- A command that began 10 ms ago. -/
def done_ (f : Otp → Otp) : State := ot f (wall m0 20000000)
theorem wit_otp_time : (OtpRun.mk 1 0 40 1 [] 0).least m0.otp = 5000 ∧ 0 + (OtpRun.mk 1 0 40 1 [] 0).least m0.otp ≤ (done_ id).tick.wall ∧
    (wall m0 4999).tick.wall < 0 + (OtpRun.mk 1 0 40 1 [] 0).least m0.otp ∧ (done_ id).clockOn = true ∧
    (OtpRun.mk 2 0 1 0 (List.replicate 31 5) 0).least m0.otp = 32 * 100000 + 160000 := by decide +kernel
theorem test_otp_early : nx (exec (.otpCommandDone []) (ot (fun o => { o with run := some ⟨1, 0, 40, 1, [], 0⟩ }) (wall m0 4999)))
    (fun t => t.otp.run.isSome) := by decide +kernel
theorem test_otp_done : nx (exec (.otpCommandDone []) (done_ fun o => { o with config := [(40, 3)], weakC := [(40, 1)], run := some ⟨1, 0, 40, 1, [], 0⟩ }))
      (fun t => t.reg R.OTP_DATA == 2 && t.otp.run == none) ∧
    nx (exec (.otpCommandDone []) (done_ fun o => { o with config := [(40, 3)], weakC := [(40, 1)], run := some ⟨1, 0, 40, 2, [], 0⟩ }))
      (fun t => t.reg R.OTP_DATA == 3) ∧
    nx (exec (.otpCommandDone []) (done_ fun o => { o with config := [(40, 3)], weakC := [(40, 1)], run := some ⟨3, 0, 0, 0, [], 0⟩ }))
      (fun t => t.get R.OTP_SCAN_WEAK == 1 && t.get R.OTP_SCAN_FIRST == 40) ∧
    nx (exec (.otpCommandDone [(33, 2, 0)]) (done_ fun o => { o with run := some ⟨2, 0, 1, 0, [5, 2], 0⟩ }))
      (fun t => t.get R.OTP_STAT_RESULT == 4) ∧
    nx (exec (.otpCommandDone []) (done_ fun o => { o with run := some ⟨2, 0, 1, 0, List.replicate 31 5, 0⟩ }))
      (fun t => t.get R.OTP_STAT_RESULT == 0 && t.otp.relaxed 0 33 == 5) := by decide +kernel
theorem wit_tw : m0.twOpen = true ∧ twReach 0x0C00 = none ∧ twReach 0 = some false ∧ (mm m0 fun m => { m with domeOn := false }).domeLive = false ∧
    twReach 0x2000 = some true ∧ m0.mode.move = none ∧ (m0in .ready).mode.mode = .ready ∧ (m0in .standby).mode.starting = false ∧
    (m0in .standby).tfPresent = false ∧ (m0in .standby).mode.keep ≠ .halted ∧ (m0in .standby).mode.refLost = false ∧ (m0.putFlag R.TW_CFG_TIMEOUT_EN true).flag R.TW_CFG_TIMEOUT_EN = true ∧
    (m0.putFlag R.TW_CFG_PEC_REQ true).flag R.TW_CFG_PEC_REQ = true ∧ m0.mode.fault = false ∧
    (mm m0 fun m => { m with fault := true }).mode.fault = true := by
  decide
theorem wit_tw_silt : m0.silt.find 7 = none ∧ (aCopy.silt.find 1).isSome = true := by decide +kernel
theorem test_tw : nx (exec (.twRegRead 0x0C00 .good) m0) (fun t => t.hp.sent == [.twReply 2 []]) ∧
    nx (exec (.twRegRead 0 .good) (mm m0 fun m => { m with domeOn := false })) (fun t => t.hp.sent == [.twReply 3 []]) ∧
    nx (exec (.twRequestStandby .bad) (m0in .ready)) (fun t => t.tw.lastResult == 6 && t.mode.move == none &&
      t.get R.TW_CNT_PEC_FAIL == 1) ∧
    nx (exec (.twStatus .bad) m0) (fun t => t.tw.lastResult == 6) ∧
    nx (exec .twStretchTimeout m0) (fun t => t.get R.TW_CNT_BUSY == 1) ∧
    nx (exec (.twRequestStandby .good) (m0in .ready)) (fun t => t.tw.lastResult == 0 && t.mode.move.isSome) ∧
    nx (exec (.twRequestStandby .good) m0) (fun t => t.tw.lastResult == 5 && t.mode.move == none) ∧
    nx (exec (.twRequestShip .good) (m0in .standby)) (fun t => t.mode.move.isSome) ∧
    nx (exec (.twRequestStandbyExit .good) (m0in .standby)) (fun t => t.mode.starting && t.mode.bootStep == 7) ∧
    nx (exec (.twReset 0x5A .good) (mm m0 fun m => { m with fault := true })) (fun t => !t.mode.fault && t.mode.bootStep == 4) ∧
    nx (exec (.twReset 0x5B .good) (mm m0 fun m => { m with fault := true })) (fun t => t.mode.fault && t.tw.lastResult == 2) ∧
    nx (exec .twBusTimeout m0) (fun t => t.get R.TW_CNT_TIMEOUTS == if m0.flag R.TW_CFG_TIMEOUT_EN then 1 else 0) := by decide

/-! ### Operands that no transfer can carry (WellFormed) -/

def badDesc : Desc := { tag := 1, ops := [1, 2, 3], rsv := 0, ops2 := [], buf := [] }
def shortDesc : Desc := { dsc [] with ops2 := [] }
theorem smoke_descriptors : (Instr.nop 16 (dsc [])).WellFormed ∧ ¬ (Instr.nop 16 badDesc).WellFormed ∧ ¬ (Instr.nop 16 shortDesc).WellFormed ∧
    ¬ (Instr.reachPost 0 badDesc).WellFormed ∧ ¬ (Instr.reachCancel 0 badDesc).WellFormed ∧ ¬ (Instr.reachFlush 0 badDesc).WellFormed ∧
    ¬ (Instr.prmWrite 0 badDesc).WellFormed ∧ ¬ (Instr.prmLoad 0 badDesc).WellFormed ∧ ¬ (Instr.chRun 0 badDesc).WellFormed ∧
    ¬ (Instr.manual 0 badDesc).WellFormed ∧ ¬ (Instr.imgLoad 0 badDesc).WellFormed ∧ ¬ (Instr.imgCheck 0 badDesc).WellFormed ∧
    ¬ (Instr.lend 0 badDesc).WellFormed ∧ ¬ (Instr.reclaim 0 badDesc).WellFormed ∧ ¬ (Instr.reclaimAll 0 badDesc).WellFormed ∧
    ¬ (Instr.snapAt 0 badDesc).WellFormed ∧ ¬ (Instr.snapCancel 0 badDesc).WellFormed ∧ ¬ (Instr.eddyRead 0 badDesc).WellFormed ∧
    ¬ (Instr.eddyClear 0 badDesc).WellFormed ∧ ¬ (Instr.pwrWrite 0 badDesc).WellFormed ∧ ¬ (Instr.pwrRead 0 badDesc).WellFormed ∧
    ¬ (Instr.buskeepAck 0 badDesc).WellFormed ∧ ¬ (Instr.modeReq 0 badDesc).WellFormed ∧ ¬ (Instr.reset 0 badDesc).WellFormed ∧
    ¬ (Instr.freeze 0 badDesc).WellFormed ∧ ¬ (Instr.serviceUnlock 0 badDesc).WellFormed ∧ ¬ (Instr.barrier 0 badDesc).WellFormed ∧
    ¬ (Instr.ringQuery 0 badDesc).WellFormed ∧ ¬ (Instr.mbxSend 0 badDesc).WellFormed ∧ ¬ (Instr.mbxRecv 0 badDesc).WellFormed ∧
    ¬ (Instr.descriptorArrival 0 [(0x90, badDesc)]).WellFormed ∧ ¬ (Instr.descriptorArrival 0 (List.replicate 17 (0x90, dsc []))).WellFormed := by
  decide
theorem smoke_accesses : (Instr.registerWrite 4 [(0, 15)]).WellFormed ∧ ¬ (Instr.registerWrite 2 [(0, 15)]).WellFormed ∧
    ¬ (Instr.registerWrite 4 []).WellFormed ∧ ¬ (Instr.registerWrite 0xFFFC [(0, 15), (0, 15)]).WellFormed ∧
    (Instr.rcRead .host ⟨.bar0, 4⟩ [15]).WellFormed ∧ ¬ (Instr.rcRead .host ⟨.bar0, 2⟩ [15]).WellFormed ∧ ¬ (Instr.rcRead .host ⟨.bar0, 4⟩ []).WellFormed ∧
    ¬ (Instr.rcRead .host ⟨.bar0, 0xFFFC⟩ [15, 15]).WellFormed ∧ ¬ (Instr.rcRead .host ⟨.bar2, 0x1000⟩ [15]).WellFormed ∧
    ¬ (Instr.rcRead .host ⟨.config, 0x1000⟩ [15]).WellFormed ∧ ¬ (Instr.rcRead .twoWire ⟨.bar0, 4⟩ [15, 15]).WellFormed ∧ ¬ (Instr.lowHalfRead .host 4).WellFormed ∧
    ¬ (Instr.highHalfRead .host 8).WellFormed := by decide
theorem smoke_readings : (Instr.packCheck taps).WellFormed ∧ ¬ (Instr.packCheck { taps with cells := [3300] }).WellFormed ∧
    ¬ (Instr.bootPackCheck { taps with cells := [] }).WellFormed ∧ ¬ (Instr.buskeepPackCheckTimer { taps with cells := [] }).WellFormed ∧
    ¬ (Instr.bootHkSelfCal [(0, 1)]).WellFormed ∧ ¬ (Instr.hkCalDone []).WellFormed ∧ ¬ (Instr.railSupervisionSample [1] []).WellFormed ∧
    ¬ (Instr.railSupervisionSample (List.replicate 10 1) [1]).WellFormed ∧ ¬ (Instr.hkEntryDone []).WellFormed ∧
    ¬ (Instr.hkEntryDone (List.replicate 257 0)).WellFormed ∧ ¬ (Instr.hkDiagDone [1]).WellFormed ∧ ¬ (Instr.gnssCharacter 0 [true] false).WellFormed := by
  decide +kernel
theorem smoke_frames : (Instr.ringFrameAccept .a frame true 0).WellFormed ∧ ¬ (Instr.ringFrameAccept .a { frame with faults := [] } true 0).WellFormed ∧
    ¬ (Instr.ringFrameAccept .a { frame with mails := [none] } true 0).WellFormed ∧
    ¬ (Instr.ringFrameAccept .a { frame with mails := some ⟨1, 2, [3]⟩ :: List.replicate 13 none } true 0).WellFormed := by decide
/-- The table gives no row bits: no word spells a command. -/
theorem test_no_words : decodeTableWord 32 5 = none ∧ (m0.withFetchWord 32 5).pending = [] := by decide

end Sys2Proof.Tests
end

section
/-! PROOFS. Locked fields (R7): the words that hold RWL bits, what the writes of such a word leave of them, and the statement. -/

namespace Sys2Proof.Machine

/-! ### The words with RWL fields -/

/-- Every row of the register tables. -/
def regRows : List RegRow :=
  regsHost ++ regsArbTick ++ regsPack ++ regsRail ++ regsHk1 ++ regsHk2 ++ regsThmFlt ++ regsTop ++ regsWin

/-- The offsets of a row's words. -/
def RegRow.words (r : RegRow) : List Nat := (List.range r.count).map (r.base + r.stride * ·)

/-- The rows with an RWL bit. -/
def rwlRows : List RegRow := regRows.filter (·.rwl != 0)

/-- The offsets of the words with an RWL bit. -/
def rwlWords : List Nat := rwlRows.flatMap RegRow.words

/-- A row that `has` an offset lists it among its words. -/
theorem RegRow.mem_words_of_has {r : RegRow} {a : Nat} (h : r.has a = true) : a ∈ r.words := by
  simp only [RegRow.has, Bool.and_eq_true, decide_eq_true_eq, beq_iff_eq] at h
  obtain ⟨⟨hlo, hhi⟩, hmod⟩ := h
  have hmul : r.stride * ((a - r.base) / r.stride) = a - r.base := Nat.mul_div_cancel' (Nat.dvd_of_mod_eq_zero hmod)
  have hlt : (a - r.base) / r.stride < r.count := Nat.div_lt_of_lt_mul (by omega)
  exact List.mem_map.2 ⟨_, List.mem_range.2 hlt, by omega⟩

theorem mem_regRows_of_mem_regBlock {r : RegRow} {a : Nat} (h : r ∈ regBlock a) : r ∈ regRows := by
  unfold regBlock at h
  simp only [regRows, List.mem_append]
  split_ifs at h <;> simp only [h, true_or, or_true]

/-- The row found at an offset is one of the tables' and has the offset. -/
theorem regRow_some {r : RegRow} {a : Nat} (h : regRow a = some r) : r ∈ regRows ∧ r.has a = true := by
  unfold regRow at h
  exact ⟨mem_regRows_of_mem_regBlock (List.mem_of_find?_eq_some h), by simpa using List.find?_some h⟩

theorem mem_rwlRows {r : RegRow} : r ∈ rwlRows ↔ r ∈ regRows ∧ r.rwl ≠ 0 := by
  simp only [rwlRows, List.mem_filter, bne_iff_ne]

/-- A word whose row has an RWL bit is one of `rwlWords`. -/
theorem mem_rwlWords_of_regRow {r : RegRow} {a : Nat} (h : regRow a = some r) (hr : r.rwl ≠ 0) : a ∈ rwlWords :=
  have ⟨hmem, hhas⟩ := regRow_some h
  List.mem_flatMap.2 ⟨r, mem_rwlRows.2 ⟨hmem, hr⟩, RegRow.mem_words_of_has hhas⟩

theorem rwlRows_apart : ∀ r ∈ rwlRows, r.rw &&& r.rwl = 0 ∧ r.w1c &&& r.rwl = 0 := by decide

/-- No bit is RWL and also RW or W1C. -/
theorem rwl_apart_of_mem_regRows {r : RegRow} (h : r ∈ regRows) : r.rw &&& r.rwl = 0 ∧ r.w1c &&& r.rwl = 0 := by
  by_cases h0 : r.rwl = 0
  · simp [h0]
  · exact rwlRows_apart r (mem_rwlRows.2 ⟨h, h0⟩)

/-- A word with an RWL bit is no half of a 64-bit register, and neither an event nor a discarded write in a freeze changes it. -/
theorem rwlWords_quiet : ∀ a ∈ rwlWords, isWide a = false ∧ isHigh a = false ∧ a ∉ eventRegs ∧ a ≠ R.HP_FRZ_WR ∧ a ≠ R.FRZ_CTRL := by
  decide

/-- In the Keep's range the words with an RWL bit lie in the power, estimator and rail blocks; of a rail they are `RAIL_CFG`,
`RAIL_VSET` and `RAIL_DEP`. -/
theorem rwlWords_keep : ∀ a ∈ rwlWords, a < 0x3000 → a < 0x2C00 ∧ a ≠ R.RAIL_FAILED ∧ a ≠ R.CHG_STAT ∧
    (0x2900 ≤ a → a < 0x2B80 → a % 64 = 0 ∨ a % 64 = 4 ∨ a % 64 = 8) := by decide

/-- The words with an RWL bit that a host write reaches at once. -/
theorem rwlWords_direct : ∀ a ∈ rwlWords, ¬(0x2000 ≤ a ∧ a < 0x3000) → a = R.FRZ_CFG ∨ a = R.RV_CFG ∨ a = R.TW_CFG := by
  decide

/-! ### What the writes leave of a word -/

theorem State.chgGo_reg (s : State) (n a : Nat) (hs : a ≠ R.CHG_STAT) (he : a ∉ eventRegs) : (s.chgGo n).reg a = s.reg a := by
  unfold State.chgGo
  dsimp only
  split
  · rfl
  · rw [State.raise_reg _ _ _ _ _ he, State.reg_putFlag_other _ _ _ _ hs, State.reg_putFlag_other _ _ _ _ hs,
      State.reg_putFlag_other _ _ _ _ hs, State.modPower_reg, State.reg_put_other _ _ _ _ hs]

/-- A restart of the charger writes `CHG_STAT` and the words that events count in, and no other. -/
theorem State.chgRestart_reg (s : State) (a : Nat) (hs : a ≠ R.CHG_STAT) (he : a ∉ eventRegs) : s.chgRestart.reg a = s.reg a := by
  unfold State.chgRestart
  split
  · rw [State.chgGo_reg _ _ _ hs he, State.modPower_reg]
  · rfl

/-- A new LIGHT of a rail shows in the `RAIL_STAT` of that rail alone. -/
theorem State.lightWrite_reg (s : State) (r : Rail) (a : Nat) (h : a ≠ R.RAIL_STAT r) : (s.lightWrite r).reg a = s.reg a := by
  unfold State.lightWrite
  dsimp only
  split_ifs
  · rw [State.reg_putFlag_other _ _ _ _ h, State.reg_putFlag_other _ _ _ _ h]
  · rw [State.reg_putFlag_other _ _ _ _ h]
  · rfl

/-- Bits that share none with the mask written and none with the bits cleared by a 1 stay as they are. -/
theorem bits_kept_apart (v w m w1c kept : W32) (hm : m &&& kept = 0) (hw1c : w1c &&& kept = 0) :
    ((v &&& m) ||| (w &&& ~~~m &&& ~~~(v &&& w1c))) &&& kept = w &&& kept := by
  ext i hi
  by_cases hk : kept[i] = true
  · have hmi : m[i] = false := by simpa [hk] using congrArg (·[i]) hm
    have hci : w1c[i] = false := by simpa [hk] using congrArg (·[i]) hw1c
    simp [hmi, hci]
  · simp [hk]

section LockedWord

variable {s : State} {a : Nat} {r : RegRow} (hl : s.mode.rwlLocked = true) (hr : regRow a = some r)
include hl hr

/-- R7: a write by access codes leaves locked RWL bits as they are. -/
theorem State.plainWrite_keeps_rwl (v : W32) : (s.plainWrite a v).reg a &&& r.rwl = s.reg a &&& r.rwl := by
  obtain ⟨hrw, hw1c⟩ := rwl_apart_of_mem_regRows (regRow_some hr).1
  simp only [State.plainWrite, hr, hl, if_true, State.reg_setReg_same]
  exact bits_kept_apart v (s.reg a) _ _ _ (by simpa using hrw) hw1c

/-- A word without RW and W1C bits keeps its value while the locks are set. -/
theorem State.plainWrite_reg_locked (hrw : r.rw = 0) (hw1c : r.w1c = 0) (v : W32) : (s.plainWrite a v).reg a = s.reg a := by
  have h := bits_kept_apart v (s.reg a) (r.rw ||| 0) r.w1c (BitVec.allOnes 32) (by simp [hrw]) (by simp [hw1c])
  simp only [State.plainWrite, hr, hl, if_true, State.reg_setReg_same]
  simpa only [BitVec.and_allOnes] using h

end LockedWord

/-- A locked chemistry does not change, so that a write of `PACK_CFG` moves no threshold with it. -/
theorem State.packCfgWrite_reg_locked {s : State} (hl : s.mode.rwlLocked = true) (v : W32) :
    (s.packCfgWrite v).reg R.PACK_CFG = s.reg R.PACK_CFG := by
  have hr : regRow R.PACK_CFG = some ⟨0x2000, 4, 1, 0, 0x3F, 0, 0, 0, 0⟩ := by decide
  have hreg (w : W32) : (s.plainWrite R.PACK_CFG w).reg R.PACK_CFG = s.reg R.PACK_CFG := State.plainWrite_reg_locked hl hr rfl rfl w
  have hchem (w : W32) : (s.plainWrite R.PACK_CFG w).get R.PACK_CFG_CHEM = s.get R.PACK_CFG_CHEM :=
    congrArg (fieldOf · R.PACK_CFG_CHEM) (hreg w)
  simp only [State.packCfgWrite, hchem, if_true, hreg]

section LockedWrites

variable {s : State} {a : Nat} {r : RegRow} (hl : s.mode.rwlLocked = true) (hr : regRow a = some r)
include hl hr

/-- A write in the charger, pack and estimator blocks. -/
theorem State.packWrite_keeps_rwl (v : W32) (hs : a ≠ R.CHG_STAT) (he : a ∉ eventRegs) :
    (s.packWrite a v).reg a &&& r.rwl = s.reg a &&& r.rwl := by
  unfold State.packWrite
  dsimp only
  split_ifs with hcfg hthr hv hrestart
  · subst hcfg; rw [State.packCfgWrite_reg_locked hl]
  · exact State.plainWrite_keeps_rwl hl hr _
  · exact State.plainWrite_keeps_rwl hl hr _
  · rw [State.chgRestart_reg _ _ hs he]; exact State.plainWrite_keeps_rwl hl hr _
  · exact State.plainWrite_keeps_rwl hl hr _

/-- A write of a rail's `RAIL_CFG`, `RAIL_VSET` or `RAIL_DEP`. -/
theorem State.railWrite_keeps_rwl (i : Rail) (off : Nat) (v : W32) (ha : a = R.RAIL_CFG i + off) (hoff : off = 0 ∨ off = 4 ∨ off = 8) :
    (s.railWrite i off v).reg a &&& r.rwl = s.reg a &&& r.rwl := by
  subst ha
  rcases hoff with rfl | rfl | rfl
  · have hne : R.RAIL_CFG i + 0 ≠ R.RAIL_STAT i := by simp only [R.RAIL_CFG, R.RAIL_STAT]; omega
    simp only [State.railWrite, State.lightWrite_reg _ _ _ hne]
    exact State.plainWrite_keeps_rwl hl hr _
  · simp [State.railWrite, hl]
  · exact State.plainWrite_keeps_rwl hl hr _

/-- R345, R369 and R7: the Keep's application of a write leaves locked RWL bits as they are. -/
theorem State.keepApply_keeps_rwl (v : W32) (ha : a ∈ rwlWords) (hhi : a < 0x3000) :
    (s.keepApply a v).reg a &&& r.rwl = s.reg a &&& r.rwl := by
  obtain ⟨-, -, hevent, -, -⟩ := rwlWords_quiet a ha
  obtain ⟨hblock, hfailed, hstat, hrail⟩ := rwlWords_keep a ha hhi
  unfold State.keepApply
  split_ifs with hpack
  · exact State.packWrite_keeps_rwl hl hr v hstat hevent
  · unfold State.railsWrite
    simp only [Bool.and_eq_true, decide_eq_true_eq]
    split_ifs with hin hseq
    · refine State.railWrite_keeps_rwl hl hr _ _ v ?_ (hrail hin.1 hin.2)
      simp only [R.RAIL_CFG]
      omega
    · exact State.plainWrite_keeps_rwl hl hr _
    · exact State.plainWrite_keeps_rwl hl hr _

/-- R7: a host write that takes effect at once leaves locked RWL bits as they are. -/
theorem State.regWrite_keeps_rwl (v : W32) (ha : a ∈ rwlWords) (hdirect : ¬(0x2000 ≤ a ∧ a < 0x3000)) :
    (s.regWrite a v).reg a &&& r.rwl = s.reg a &&& r.rwl := by
  have hplain : ∃ w, s.regWrite a v = s.plainWrite a w := by
    rcases rwlWords_direct a ha hdirect with rfl | rfl | rfl <;> exact ⟨_, rfl⟩
  obtain ⟨w, hw⟩ := hplain
  rw [hw]
  exact State.plainWrite_keeps_rwl hl hr w

/-- R7: a host write of a whole word leaves locked RWL bits as they are: in a freeze it is counted and discarded, in a power block it
waits for the Keep, and elsewhere it takes effect at once. -/
theorem State.hostWrite32_keeps_rwl (v : W32) (ha : a ∈ rwlWords) :
    (s.hostWrite32 a v 15).reg a &&& r.rwl = s.reg a &&& r.rwl := by
  obtain ⟨hwide, hhigh, -, hcnt, hthaw⟩ := rwlWords_quiet a ha
  by_cases hf : s.mode.frozen = true
  · simp [State.hostWrite32, hf, hthaw, State.reg_countReg_other _ _ _ _ hcnt]
  by_cases hkeep : 0x2000 ≤ a ∧ a < 0x3000
  · have hq : (s.queueWrite a v).reg a = s.reg a := rfl
    simp [State.hostWrite32, hf, hwide, hhigh, hkeep, hr, hq]
  · have hat : s.hostWrite32 a v 15 = s.regWrite a v := by
      simp [State.hostWrite32, hf, hwide, hhigh, ← Bool.decide_and, hkeep]
    rw [hat]
    exact State.regWrite_keeps_rwl hl hr v ha hkeep

end LockedWrites

/-- A host write of one word at an aligned offset while the Dome runs is that one access (R263). -/
theorem exec_registerWrite_one {s : State} {a : Nat} (hd : s.mode.domeRun = true) (h4 : a % 4 = 0) (ha : a < 0x10000) (v : W32)
    (be : BitVec 4) : exec (.registerWrite (BitVec.ofNat 16 a) [(v, be)]) s = .next (s.hostWrite32 a v be) := by
  have haddr : (BitVec.ofNat 16 a).toNat / 4 * 4 = a := by
    rw [BitVec.toNat_ofNat, Nat.mod_eq_of_lt ha]
    omega
  simp only [exec_registerWrite, execRegisterWrite, hd, if_true, haddr, State.hostWrite]

/-- The example of `CHG_CTRL`: of a write that clears PHASES while the locks are set, only the bits that may change arrive. -/
theorem State.keepApply_chgCtrl_locked {s : State} (hl : s.mode.rwlLocked = true) (hv : s.reg R.CHG_CTRL = 0x3C1E140D) :
    (s.keepApply R.CHG_CTRL 0x3C1E1401).reg R.CHG_CTRL = 0x3C1E140D := by
  have hr : regRow R.CHG_CTRL = some ⟨0x2018, 4, 1, 0xFFFFFF01, 0xC, 0, 0, 2, 0x3C1E140D⟩ := by decide
  have hsat : saturate 0x3C1E1401 (powerRanges R.CHG_CTRL) = 0x3C1E1401 := by decide
  have hkeep : s.keepApply R.CHG_CTRL 0x3C1E1401 = s.plainWrite R.CHG_CTRL (saturate 0x3C1E1401 (powerRanges R.CHG_CTRL)) := rfl
  rw [hkeep, hsat]
  simp [State.plainWrite, hr, hl, hv]

/-- Settles O16: of a word without RWL bits there is nothing to show, and a write that reaches a word with some either is discarded or
ends in `State.plainWrite`, whose mask leaves the locked bits out. -/
theorem lockedFieldsKeepTheirValue : Obligations.LockedFieldsKeepTheirValue := by
  intro s a v r hl h4 ha hr hd
  refine ⟨⟨_, exec_registerWrite_one hd h4 ha v 15, ?_⟩, fun _ hhi => ?_, State.keepApply_chgCtrl_locked hl⟩
  · by_cases h0 : r.rwl = 0
    · simp [h0]
    · exact State.hostWrite32_keeps_rwl hl hr v (mem_rwlWords_of_regRow hr h0)
  · by_cases h0 : r.rwl = 0
    · simp [h0]
    · exact State.keepApply_keeps_rwl hl hr v (mem_rwlWords_of_regRow hr h0) hhi

end Sys2Proof.Machine
end

section
/-! PROOFS. Compare units (R87 to R101): what a match, a chain and a replay do to the units and the tick base, and the statement on
them. -/

namespace Sys2Proof.Machine

/-! ### What leaves the compare units and the tick base alone -/

/-- What the compare units and the tick base hold. -/
def State.compares (s : State) : Vector CmpUnit 544 × TickSt := (s.units, s.tick)

section Compares

variable (s : State)

@[simp] theorem State.setReg_compares (a : Nat) (v : W32) : (s.setReg a v).compares = s.compares := rfl
@[simp] theorem State.put_compares (f : Fld) (v : Nat) : (s.put f v).compares = s.compares := rfl
@[simp] theorem State.count_compares (f : Fld) (n : Nat) : (s.count f n).compares = s.compares := rfl
@[simp] theorem State.modCh_compares (c : Ch) (f : Chan → Chan) : (s.modCh c f).compares = s.compares := rfl
@[simp] theorem State.modSeq_compares (c : Ch) (f : SeqSt → SeqSt) : (s.modSeq c f).compares = s.compares := rfl
@[simp] theorem State.modCnt_compares (c : Ch) (f : ChCnt → ChCnt) : (s.modCnt c f).compares = s.compares := rfl
@[simp] theorem State.modEng_compares (e : Eng) (f : Engine → Engine) : (s.modEng e f).compares = s.compares := rfl

@[simp] theorem State.raise_compares (c : BitVec 16) (k : BitVec 2) (d : W32) : (s.raise c k d).compares = s.compares := by
  simp [State.compares]

@[simp] theorem State.raiseLimited_compares (c : BitVec 16) (k : BitVec 2) (d : W32) (u i : Nat) :
    (s.raiseLimited c k d u i).compares = s.compares := by
  simp [State.compares]

theorem forAll_compares {α : Type} {f : α → State → State} (h : ∀ a t, (f a t).compares = t.compares) (l : List α) :
    (forAll l f s).compares = s.compares := by
  induction l generalizing s with
  | nil => rfl
  | cons a l ih => exact (ih (f a s)).trans (h a s)

@[simp] theorem State.latchCh_compares (c : Ch) (b : Nat) : (s.latchCh c b).compares = s.compares := by
  unfold State.latchCh State.latchEng
  repeat' split
  all_goals rfl

@[simp] theorem State.eddyTrigger_compares (e : Eng) (n : Nat) : (s.eddyTrigger e n).compares = s.compares := by
  unfold State.eddyTrigger
  dsimp only
  split <;> simp

@[simp] theorem State.measure_compares (n : Fin 32) : (s.measure n).compares = s.compares :=
  forAll_compares s (fun c t => by split <;> rfl) allCh

@[simp] theorem State.freezeTrigger_compares (k : BitVec 3) (n : BitVec 5) : (s.freezeTrigger k n).compares = s.compares := by
  unfold State.freezeTrigger
  split
  · rfl
  · split
    · rfl
    · exact State.raise_compares ..

/-! #### A sample match -/

@[simp] theorem State.nozzleHold_compares (c : Ch) (l : List W32) : (s.nozzleHold c l).compares = s.compares := by
  unfold State.nozzleHold
  dsimp only
  split
  · apply forAll_compares
    exact fun _ _ => rfl
  · rfl

@[simp] theorem State.prmCommitAt_compares (c : Ch) : (s.prmCommitAt c).compares = s.compares := by
  unfold State.prmCommitAt
  split <;> simp

@[simp] theorem State.deadlineAt_compares (c : Ch) (r : Bool) : (s.deadlineAt c r).compares = s.compares := rfl

@[simp] theorem State.ckptAt_compares (c : Ch) : (s.ckptAt c).compares = s.compares := by
  unfold State.ckptAt
  dsimp only
  split <;> simp

@[simp] theorem State.sampleMatch_compares (c : Ch) (conv r : Bool) : (s.sampleMatch c conv r).compares = s.compares := by
  unfold State.sampleMatch
  dsimp only
  split <;> simp

/-! #### A boundary match -/

@[simp] theorem State.writeREff_compares (c : Ch) : (s.writeREff c).compares = s.compares := by
  unfold State.writeREff
  split <;> rfl

@[simp] theorem State.limpDrive_compares (c : Ch) : (s.limpDrive c).compares = s.compares := by
  unfold State.limpDrive State.sendTrimmed State.sendOn
  split_ifs <;> rfl

@[simp] theorem State.dryBegin_compares (c : Ch) (n : Nat) : (s.dryBegin c n).compares = s.compares := by
  simp only [State.dryBegin, State.raise_compares, State.modSeq_compares]

@[simp] theorem State.advance_compares (c : Ch) (p : Option Int) (new : Sched) (n : Nat) (late rev dry : Bool) :
    (s.advance c p new n late rev dry).compares = s.compares := by
  simp only [State.advance, State.limpDrive_compares, State.writeREff_compares, apply_ite State.compares, State.modCnt_compares,
    State.modSeq_compares, State.raise_compares, ite_self]
  split <;> simp only [State.dryBegin_compares]

theorem State.seqChange_compares {c : Ch} {f : State → State} (h : (f s).compares = s.compares) :
    (s.seqChange c f).compares = s.compares := by
  unfold State.seqChange
  dsimp only
  split <;> simp [h]

@[simp] theorem State.boundaryMatch_compares (c : Ch) : (s.boundaryMatch c).compares = s.compares := by
  unfold State.boundaryMatch
  split
  · rfl
  · split
    · exact State.seqChange_compares s (by simp)
    · rfl

end Compares

/-! ### Compare units -/

section Units

variable (s : State) (u : CUnit) (f : CmpUnit → CmpUnit)

theorem State.modUnit_unit_same : (s.modUnit u f).units[u] = f s.units[u] := by simp

theorem State.modUnit_unit_other {k : CUnit} (h : k ≠ u) : (s.modUnit u f).units[k] = s.units[k] := upd_other _ _ _ _ h

theorem State.setUnit_unit_same : (s.setUnit u f).units[u] = { f s.units[u] with since := s.now + 1 } := by
  simp [State.setUnit]

theorem State.setUnit_unit_other {k : CUnit} (h : k ≠ u) : (s.setUnit u f).units[k] = s.units[k] := upd_other _ _ _ _ h

@[simp] theorem State.setUnit_ch (c : Ch) : (s.setUnit u f).ch c = s.ch c := rfl

end Units

/-- The index of a unit tells its kind (Table 04.1). -/
theorem cUnit_kind (u : CUnit) : (∃ n, u = sysUnit n) ∨ (∃ c, u = bndUnit c) ∨ ∃ c, u = smpUnit c := by
  rcases Nat.lt_or_ge u.val 32 with hsys | hsys
  · exact .inl ⟨⟨u.val, hsys⟩, rfl⟩
  · rcases Nat.lt_or_ge u.val 288 with hbnd | hbnd
    · exact .inr (.inl ⟨⟨u.val - 32, by omega⟩, Fin.ext (by simp only [bndUnit]; omega)⟩)
    · exact .inr (.inr ⟨⟨u.val - 288, by omega⟩, Fin.ext (by simp only [smpUnit]; omega)⟩)

@[simp] theorem smpChan_sysUnit (n : Fin 32) : smpChan (sysUnit n) = none := dif_neg (by simp only [sysUnit]; omega)
@[simp] theorem bndChan_sysUnit (n : Fin 32) : bndChan (sysUnit n) = none := dif_neg (by simp only [sysUnit]; omega)
@[simp] theorem sysNum_sysUnit (n : Fin 32) : sysNum (sysUnit n) = some n := dif_pos n.isLt

@[simp] theorem smpChan_bndUnit (c : Ch) : smpChan (bndUnit c) = none := dif_neg (by simp only [bndUnit]; omega)
@[simp] theorem bndChan_bndUnit (c : Ch) : bndChan (bndUnit c) = some c :=
  (dif_pos (by simp only [bndUnit]; omega)).trans (by simp only [bndUnit, Nat.add_sub_cancel_left])
@[simp] theorem sysNum_bndUnit (c : Ch) : sysNum (bndUnit c) = none := dif_neg (by simp only [bndUnit]; omega)

@[simp] theorem smpChan_smpUnit (c : Ch) : smpChan (smpUnit c) = some c := by simp [smpChan, smpUnit]
@[simp] theorem bndChan_smpUnit (c : Ch) : bndChan (smpUnit c) = none := dif_neg (by simp only [smpUnit]; omega)
@[simp] theorem sysNum_smpUnit (c : Ch) : sysNum (smpUnit c) = none := dif_neg (by simp only [smpUnit]; omega)

/-! ### Control bits -/

/-- A bit of a word set or cleared by its mask. -/
theorem getLsbD_putBit (x : W32) {k i : Nat} (hi : i < 32) (b : Bool) :
    (if b then x ||| BitVec.twoPow 32 k else x &&& ~~~BitVec.twoPow 32 k).getLsbD i = if i = k then b else x.getLsbD i := by
  by_cases h : i = k
  · subst h
    cases b <;> simp [hi]
  · cases b <;> simp [hi, h]

namespace CmpUnit

variable (v : CmpUnit)

@[simp] theorem setBit_target (k : Nat) (b : Bool) : (v.setBit k b).target = v.target := rfl
@[simp] theorem setBit_period (k : Nat) (b : Bool) : (v.setBit k b).period = v.period := rfl
@[simp] theorem setBit_matchTick (k : Nat) (b : Bool) : (v.setBit k b).matchTick = v.matchTick := rfl
@[simp] theorem setBit_missed (k : Nat) (b : Bool) : (v.setBit k b).missed = v.missed := rfl
@[simp] theorem setBit_since (k : Nat) (b : Bool) : (v.setBit k b).since = v.since := rfl

theorem setBit_ctrl {k i : Nat} (hi : i < 32) (b : Bool) :
    (v.setBit k b).ctrl.getLsbD i = if i = k then b else v.ctrl.getLsbD i := by
  have hm : BitVec.ofNat 32 (2 ^ k) = BitVec.twoPow 32 k := BitVec.eq_of_toNat_eq (by simp [BitVec.toNat_twoPow])
  simpa only [setBit, hm] using getLsbD_putBit v.ctrl hi b

@[simp] theorem setPark_target (w : Option (BitVec 2)) : (v.setPark w).target = v.target := rfl

@[simp] theorem setPark_arm (w : Option (BitVec 2)) : (v.setPark w).arm = v.arm := by
  cases w <;> simp [setPark, arm]

@[simp] theorem setPark_parked (w : Option (BitVec 2)) : (v.setPark w).parked = w.isSome := by
  cases w <;> simp [setPark, parked]

@[simp] theorem setBit_arm (b : Bool) : (v.setBit 0 b).arm = b := v.setBit_ctrl (by decide) b

theorem setBit_parked (b : Bool) : (v.setBit 0 b).parked = v.parked := v.setBit_ctrl (by decide) b

end CmpUnit

/-! ### A match (R87, R88) -/

/-- R88: whole periods are added until TARGET lies beyond the tick `t`, and all but one of them are skipped. -/
theorem periodicNext_ahead {target : W64} {period t : Nat} (hp : period ≠ 0) (hle : target.toNat ≤ t)
    (hlt : t + period < 2 ^ 64) :
    (periodicNext target period t).1.toNat = target.toNat + ((periodicNext target period t).2 + 1) * period ∧
      t < (periodicNext target period t).1.toNat ∧ (periodicNext target period t).1.toNat ≤ t + period := by
  have hpos : 0 < period := Nat.pos_of_ne_zero hp
  by_cases hnext : t < target.toNat + period
  · have hfit : target.toNat + period < 2 ^ 64 := by omega
    simp only [periodicNext, hp, hnext, if_true, if_false, BitVec.toNat_ofNat, Nat.mod_eq_of_lt hfit, Nat.zero_add,
      Nat.one_mul, true_and]
    omega
  · have hdiv := Nat.div_add_mod (t - (target.toNat + period)) period
    have hmod := Nat.mod_lt (t - (target.toNat + period)) hpos
    simp only [periodicNext, hp, hnext, if_false, BitVec.toNat_ofNat]
    generalize (t - (target.toNat + period)) / period = q at hdiv ⊢
    rw [Nat.mul_comm] at hdiv
    rw [Nat.succ_mul (q + 1), Nat.succ_mul q, Nat.mod_eq_of_lt (by omega)]
    omega

namespace CmpUnit

variable (v : CmpUnit) (stamp : W64) (t : Nat)

/-- A one-shot unit disarms (R88). -/
theorem afterMatch_once (h : v.ctrl.getLsbD 1 = false) :
    (v.afterMatch stamp t).1 = ({ v with matchTick := stamp }.setBit 24 true).setBit 0 false := by
  have hper : ({ v with matchTick := stamp }.setBit 24 true).ctrl.getLsbD 1 = false :=
    (setBit_ctrl _ (by decide) true).trans h
  simp only [afterMatch, hper, Bool.false_eq_true, if_false]

/-- A periodic unit moves its TARGET on, and marks the periods that it skips (R88). -/
theorem afterMatch_periodic (h : v.ctrl.getLsbD 1 = true) :
    (v.afterMatch stamp t).1 =
      let r := periodicNext v.target v.period.toNat t
      let m := { v with matchTick := stamp }.setBit 24 true
      if r.2 = 0 then { m with target := r.1 } else { m with target := r.1, missed := v.missed + r.2 }.setBit 25 true := by
  have hper : ({ v with matchTick := stamp }.setBit 24 true).ctrl.getLsbD 1 = true :=
    (setBit_ctrl _ (by decide) true).trans h
  simp only [afterMatch, hper, if_true]
  rfl

@[simp] theorem afterMatch_matchTick : (v.afterMatch stamp t).1.matchTick = stamp := by
  cases h : v.ctrl.getLsbD 1
  · rw [afterMatch_once _ _ _ h]; rfl
  · rw [afterMatch_periodic _ _ _ h]; dsimp only; split <;> rfl

@[simp] theorem afterMatch_period : (v.afterMatch stamp t).1.period = v.period := by
  cases h : v.ctrl.getLsbD 1
  · rw [afterMatch_once _ _ _ h]; rfl
  · rw [afterMatch_periodic _ _ _ h]; dsimp only; split <;> rfl

/-- MATCHED is set (R87). -/
theorem afterMatch_matched : (v.afterMatch stamp t).1.ctrl.getLsbD 24 = true := by
  have hset (w : CmpUnit) : (w.setBit 24 true).ctrl.getLsbD 24 = true := w.setBit_ctrl (by decide) true
  cases h : v.ctrl.getLsbD 1
  · rw [afterMatch_once _ _ _ h, setBit_ctrl _ (by decide)]
    exact hset _
  · rw [afterMatch_periodic _ _ _ h]
    dsimp only
    split
    · exact hset _
    · rw [setBit_ctrl _ (by decide)]
      exact hset _

/-- The fields of a periodic unit after its match. -/
theorem afterMatch_periodic_fields (h : v.ctrl.getLsbD 1 = true) :
    (v.afterMatch stamp t).1.arm = v.arm ∧
      (v.afterMatch stamp t).1.target = (periodicNext v.target v.period.toNat t).1 ∧
      (v.afterMatch stamp t).1.missed = v.missed + (periodicNext v.target v.period.toNat t).2 := by
  have harm (w : CmpUnit) {k : Nat} (hk : 0 ≠ k) (b : Bool) : (w.setBit k b).arm = w.arm :=
    (w.setBit_ctrl (by decide) b).trans (if_neg hk)
  rw [afterMatch_periodic _ _ _ h]
  dsimp only
  split
  case isTrue h0 => exact ⟨harm { v with matchTick := stamp } (by decide) true, rfl, by rw [h0]; rfl⟩
  case isFalse => exact ⟨(harm _ (by decide) true).trans (harm { v with matchTick := stamp } (by decide) true), rfl, rfl⟩

/-- The unit still has its TARGET, PERIOD, match tick, counts and every control bit but LATE. -/
structure Kept (v w : CmpUnit) : Prop where
  target : w.target = v.target
  period : w.period = v.period
  matchTick : w.matchTick = v.matchTick
  missed : w.missed = v.missed
  ctrl : ∀ i < 32, i ≠ 26 → w.ctrl.getLsbD i = v.ctrl.getLsbD i

theorem Kept.refl : Kept v v := ⟨rfl, rfl, rfl, rfl, fun _ _ _ => rfl⟩

theorem Kept.trans {v w x : CmpUnit} (h₁ : Kept v w) (h₂ : Kept w x) : Kept v x :=
  ⟨h₂.target.trans h₁.target, h₂.period.trans h₁.period, h₂.matchTick.trans h₁.matchTick, h₂.missed.trans h₁.missed,
    fun i hi h26 => (h₂.ctrl i hi h26).trans (h₁.ctrl i hi h26)⟩

theorem kept_setLate (b : Bool) : Kept v (v.setBit 26 b) :=
  ⟨rfl, rfl, rfl, rfl, fun _ hi h26 => (v.setBit_ctrl hi b).trans (if_neg h26)⟩

end CmpUnit

/-! ### The actions of a match (R90 to R93) -/

/-- What a match's actions leave of the compare units and the tick base: all but LATE and the held entry of the unit itself. -/
structure ActsOn (u : CUnit) (s t : State) : Prop where
  tick : t.tick = s.tick
  others : ∀ k, k ≠ u → t.units[k] = s.units[k]
  unit : (s.units[u]).Kept t.units[u]

theorem ActsOn.of_compares {u : CUnit} {s t : State} (h : t.compares = s.compares) : ActsOn u s t := by
  have hunits : t.units = s.units := congrArg Prod.fst h
  exact ⟨congrArg Prod.snd h, fun k _ => by rw [hunits], by rw [hunits]; exact .refl _⟩

theorem ActsOn.refl (u : CUnit) (s : State) : ActsOn u s s := .of_compares rfl

theorem ActsOn.trans {u : CUnit} {s t r : State} (h₁ : ActsOn u s t) (h₂ : ActsOn u t r) : ActsOn u s r :=
  ⟨h₂.tick.trans h₁.tick, fun k hk => (h₂.others k hk).trans (h₁.others k hk), h₁.unit.trans h₂.unit⟩

theorem ActsOn.ite {u : CUnit} {s t r : State} {p : Prop} [Decidable p] (h₁ : ActsOn u s t) (h₂ : ActsOn u t r) :
    ActsOn u s (if p then r else t) := by
  split
  · exact h₁.trans h₂
  · exact h₁

theorem ActsOn.modUnit {u : CUnit} {f : CmpUnit → CmpUnit} (s : State) (h : (s.units[u]).Kept (f s.units[u])) :
    ActsOn u s (s.modUnit u f) :=
  ⟨rfl, fun _ hk => State.modUnit_unit_other _ _ _ hk, by rwa [State.modUnit_unit_same]⟩

theorem State.lateMatch_acts (s : State) (c : Ch) (stamp : W64) : ActsOn (bndUnit c) s (s.lateMatch c stamp) := by
  unfold State.lateMatch
  split
  · exact .refl ..
  · exact (ActsOn.modUnit (f := (·.setBit 26 true)) s (CmpUnit.kept_setLate _ true)).trans (.of_compares (by simp))

theorem State.bndSignal_acts (s : State) (c : Ch) (stamp : W64) : ActsOn (bndUnit c) s (s.bndSignal c stamp) :=
  (s.lateMatch_acts c stamp).trans (.of_compares (by simp [State.bndSignal]))

theorem State.cmpXfer_acts (s : State) (u : CUnit) (old : CmpUnit) (stamp : W64) (replay : Bool) :
    ActsOn u s (s.cmpXfer u old stamp replay) := by
  unfold State.cmpXfer
  dsimp only
  split
  · exact .of_compares rfl
  · exact (ActsOn.modUnit (f := fun x => { x with held := true }) s ⟨rfl, rfl, rfl, rfl, fun _ _ _ => rfl⟩).trans
      (.of_compares rfl)

/-- What a match does to the compare units and the tick base: its own unit moves on by R88, and a chain goes out (R87 to R93). -/
theorem State.fireUnit_acts (s : State) (u : CUnit) (stamp : W64) (tAdv : Nat) (replay : Bool) :
    ∃ t, ActsOn u (s.modUnit u fun _ => (s.units[u].afterMatch stamp tAdv).1) t ∧
      s.fireUnit u stamp tAdv replay = if s.units[u].ctrl.getLsbD 10 then t.cmpChain u s.units[u] stamp else t := by
  unfold State.fireUnit
  dsimp only
  refine ⟨_, ActsOn.ite ?_ (State.cmpXfer_acts ..), rfl⟩
  rcases cUnit_kind u with ⟨n, rfl⟩ | ⟨c, rfl⟩ | ⟨c, rfl⟩
  · simp only [smpChan_sysUnit, bndChan_sysUnit, sysNum_sysUnit]
    refine ActsOn.ite (ActsOn.ite (.of_compares (forAll_compares _ (fun e t => ?_) _)) (.of_compares (by simp)))
      (.of_compares (by simp))
    split <;> simp
  · simp only [smpChan_bndUnit, bndChan_bndUnit, sysNum_bndUnit]
    exact State.bndSignal_acts ..
  · simp only [smpChan_smpUnit, bndChan_smpUnit, sysNum_smpUnit]
    refine .of_compares ?_
    rw [State.sampleMatch_compares]
    split <;> simp

/-! ### What a tick does before a happening on a unit (R92) -/

/-- The state with no chain under way. -/
def State.chainsTaken (s : State) : State := { s with tick := { s.tick with chains := [] } }

section Quiet

variable {s : State}

theorem State.matchNow_of_not_due {u : CUnit} (h : (s.units[u]).due s.tick.now = false) : s.matchNow u = s := by
  simp [State.matchNow, h, -Fin.getElem_fin]

theorem State.matchNow_of_due {u : CUnit} (hon : s.clockOn = true) (hreplay : s.tick.replay = none)
    (h : (s.units[u]).due s.tick.now = true) : s.matchNow u = s.fireUnit u s.tick.now s.now false := by
  simp [State.matchNow, hon, hreplay, h, -Fin.getElem_fin]

theorem State.chainNow_of_no_chains {u : CUnit} (h : s.tick.chains = []) : s.chainNow u = s := by
  simp [State.chainNow, h, lowestChain]

/-- The only chain under way takes effect on its unit (R91). -/
theorem State.chainNow_single {u : CUnit} {x : Chain} (hon : s.clockOn = true) (hx : s.tick.chains = [x]) (htgt : x.tgt = u)
    (hdue : x.due ≤ s.now) (h : (s.units[u]).due s.tick.now = false) : s.chainNow u = s.chainsTaken.applyChain u x := by
  simp [State.chainNow, hx, htgt, hdue, lowestChain, hon, State.matchNow_of_not_due h, forAll, State.chainsTaken]

theorem State.replayPick_none (h : ∀ u : CUnit, (s.units[u]).due s.tick.now = false) (tf : Nat) : s.replayPick tf = none := by
  simp [State.replayPick, h, -Fin.getElem_fin]

end Quiet

/-- R87 and R92: which units the match test of a tick takes. -/
theorem CmpUnit.due_eq_true {v : CmpUnit} {t : W64} :
    v.due t = true ↔ v.arm = true ∧ v.gated = false ∧ v.target ≤ t ∧ v.since ≤ t.toNat := by
  simp [CmpUnit.due, and_assoc]

theorem CmpUnit.due_eq_false {v : CmpUnit} {t : W64} :
    v.due t = false ↔ v.arm = false ∨ v.gated = true ∨ t < v.target ∨ t.toNat < v.since := by
  rw [← Bool.not_eq_true, due_eq_true]
  simp only [not_and_or, Bool.not_eq_true, Bool.not_eq_false, BitVec.not_le, Nat.not_le]

/-! ### Events (R101) -/

theorem State.flag_setReg_other (s : State) {a : Nat} {g : Fld} (h : g.addr ≠ a) (v : W32) : (s.setReg a v).flag g = s.flag g := by
  simp only [State.flag, State.get_setReg_other _ _ _ _ h]

theorem State.flag_count_other (s : State) {f g : Fld} (h : g.addr ≠ f.addr) (n : Nat) : (s.count f n).flag g = s.flag g :=
  s.flag_setReg_other h _

/-- An F0 event raised further on in a command is stored, where nothing before it has filled the event store. -/
theorem stored_raise {s t : State} (hr : s.Room) (htick : t.tick.now = s.tick.now) (hev : t.hp.events = s.hp.events)
    (hf0 : t.flag R.HP_EVT_CFG_F0_EN = s.flag R.HP_EVT_CFG_F0_EN) (code : BitVec 16) (data : W32) :
    Stored s (t.raise code 0 data) code 0 data := by
  have hspace := hr.space
  rw [Stored, State.raise_events t code 0 data (by rw [hev]; omega) (.inr (hf0.trans hr.f0)), htick]
  exact List.mem_append_right _ (List.mem_singleton_self _)

/-- An event stored earlier in a command stays when another one follows it. -/
theorem Stored.raise {s t : State} {code : BitVec 16} {cls : BitVec 2} {data : W32} (h : Stored s t code cls data)
    (hlen : t.hp.events.length < 256) (hf0 : t.flag R.HP_EVT_CFG_F0_EN = true) (code' : BitVec 16) (data' : W32) :
    Stored s (t.raise code' 0 data') code cls data := by
  rw [Stored, State.raise_events t code' 0 data' hlen (.inr hf0)]
  exact List.mem_append_left _ h

@[simp] theorem State.cmpChain_units (s : State) (u : CUnit) (v : CmpUnit) (stamp : W64) :
    (s.cmpChain u v stamp).units = s.units := by
  unfold State.cmpChain
  split <;> rfl

/-- A chain goes out to the tick after the match (R91). -/
theorem State.cmpChain_chains (s : State) (u : CUnit) {v : CmpUnit} (stamp : W64) (h : v.chainTgt < 544) :
    (s.cmpChain u v stamp).tick.chains =
      s.tick.chains ++ [⟨s.now + 1, ⟨v.chainTgt, h⟩, u, v.ctrl.getLsbD 11, stamp⟩] := by
  simp only [State.cmpChain, h, dif_pos]

/-! ### The statement -/

/-- A match of a periodic unit keeps the phase of its TARGET (R88). -/
theorem CmpUnit.afterMatch_periodic_phase {v : CmpUnit} {stamp : W64} {t : Nat} (hper : v.ctrl.getLsbD 1 = true)
    (hp : v.period ≠ 0) (hle : v.target.toNat ≤ t) (hlt : t + v.period.toNat < 2 ^ 64) :
    let w := (v.afterMatch stamp t).1
    t < w.target.toNat ∧ w.target.toNat ≤ t + v.period.toNat ∧
      w.target.toNat % v.period.toNat = v.target.toNat % v.period.toNat ∧
      ∃ k, w.missed = v.missed + k ∧ w.target.toNat = v.target.toNat + (k + 1) * v.period.toNat := by
  obtain ⟨-, htarget, hmissed⟩ := v.afterMatch_periodic_fields stamp t hper
  have hp' : v.period.toNat ≠ 0 := fun h => hp (BitVec.eq_of_toNat_eq h)
  obtain ⟨hnext, hahead, hnear⟩ := periodicNext_ahead hp' hle hlt
  simp only [htarget, hmissed]
  exact ⟨hahead, hnear, by rw [hnext, Nat.add_mul_mod_self_right], _, rfl, hnext⟩

section Match

variable {s : State} {u : CUnit} (hon : s.clockOn = true) (hreplay : s.tick.replay = none)
  (hdue : (s.units[u]).due s.tick.now = true)
include hon hreplay hdue

/-- The units after a match: the unit itself moves on by R88, and no other changes. -/
theorem State.matchNow_units : (s.units[u].afterMatch s.tick.now s.now).1.Kept (s.matchNow u).units[u] ∧
    ∀ k, k ≠ u → (s.matchNow u).units[k] = s.units[k] := by
  obtain ⟨t, ⟨-, hothers, hunit⟩, hfire⟩ := s.fireUnit_acts u s.tick.now s.now false
  have hunits : (s.matchNow u).units = t.units := by
    rw [State.matchNow_of_due hon hreplay hdue, hfire]
    split
    · exact State.cmpChain_units ..
    · rfl
  rw [State.modUnit_unit_same] at hunit
  rw [hunits]
  exact ⟨hunit, fun k hk => (hothers k hk).trans (State.modUnit_unit_other _ _ _ hk)⟩

theorem State.matchNow_chains_of_no_chain (h : s.units[u].ctrl.getLsbD 10 = false) :
    (s.matchNow u).tick.chains = s.tick.chains := by
  obtain ⟨t, ⟨htick, -, -⟩, hfire⟩ := s.fireUnit_acts u s.tick.now s.now false
  rw [State.matchNow_of_due hon hreplay hdue, hfire, h, if_neg Bool.false_ne_true, htick, State.modUnit_tick]

/-- A match with CHAIN set sends its chain to the next tick (R91). -/
theorem State.matchNow_chains (h : s.units[u].ctrl.getLsbD 10 = true) (htgt : s.units[u].chainTgt < 544) :
    (s.matchNow u).tick.chains =
      s.tick.chains ++ [⟨s.now + 1, ⟨_, htgt⟩, u, s.units[u].ctrl.getLsbD 11, s.tick.now⟩] := by
  obtain ⟨t, ⟨htick, -, -⟩, hfire⟩ := s.fireUnit_acts u s.tick.now s.now false
  rw [State.modUnit_tick] at htick
  rw [State.matchNow_of_due hon hreplay hdue, hfire, if_pos h, State.cmpChain_chains _ _ _ htgt, State.now, htick]
  rfl

end Match

/-! ### A chain (R91, R97) -/

section Chain

variable (s : State) {u : CUnit} (x : Chain)

theorem State.applyChain_refused (h : (bndChan u).isSome = true) (hpred : (s.units[u]).pred = true) :
    s.applyChain u x = s.cmpRefused u := by
  simp [State.applyChain, h, hpred, -Fin.getElem_fin]

/-- A chain arms its unit, and one that starts it sets TARGET as well. -/
theorem State.applyChain_taken (h : (bndChan u).isSome = false ∨ (s.units[u]).pred = false) :
    s.applyChain u x = s.setUnit u fun v =>
      { v with target := if x.arm then v.target else x.stamp + v.period.zeroExtend 64 }.setBit 0 true := by
  have hfree : ((bndChan u).isSome && (s.units[u]).pred) = false := by
    rcases h with h | h <;> simp [h, -Fin.getElem_fin]
  cases harm : x.arm <;> simp only [State.applyChain, hfree, harm, if_true, if_false, Bool.false_eq_true]

end Chain

/-! ### A replay (R99) -/

theorem State.replayCheck_ends {s : State} {r : Replay} (hchains : s.tick.chains = []) (hpick : s.replayPick r.tf = none) :
    s.replayCheck r = s.replayEnd r.count := by
  simp [State.replayCheck, hchains, hpick]

theorem State.replayEnd_stored {s : State} (hr : s.Room) (n : Nat) : Stored s (s.replayEnd n) 0x0503 0 (BitVec.ofNat 32 n) :=
  stored_raise (t := ({ s with tick := { s.tick with replay := none } } : State).count R.CMP_CNT_REPLAYED n) hr rfl rfl
    (State.flag_count_other _ (by decide) n) _ _

/-- A tick of a replay with nothing due and no chain under way ends it. -/
theorem State.replay_ends {s : State} {r : Replay} (hon : s.clockOn = true) (hr : s.tick.replay = some r)
    (hchains : s.tick.chains = []) (hquiet : ∀ u : CUnit, (s.units[u]).due s.tick.now = false) (hend : r.tend < s.now)
    (hlast : r.lastAt ≠ some s.now) : exec .compareReplayMatch s = .next (s.replayEnd r.count) := by
  have hpick := State.replayPick_none hquiet r.tf
  simp [execCompareReplayMatch, hr, hon, hend, hlast, hpick, State.replayCheck_ends hchains hpick]

/-- Settles O40: a match by what it leaves of the compare units and the tick base (`State.fireUnit_acts`), a chain by what it makes of
its unit (`State.applyChain_taken`), and a replay by the choice of its next match (`State.replay_ends`). -/
theorem compareUnitsMatchAndChain : Obligations.CompareUnitsMatchAndChain := by
  intro s hon
  refine ⟨fun u hreplay => ⟨fun h => ?_, fun harm hgated htarget hsince => ?_⟩, fun u x hx htgt hdue hquiet => ⟨?_, ?_⟩,
    fun r hr hchains hquiet hend hlast => ?_⟩
  · exact congrArg Host.Outcome.next (State.matchNow_of_not_due (CmpUnit.due_eq_false.2 h))
  · have hdue := CmpUnit.due_eq_true.2 ⟨harm, hgated, htarget, hsince⟩
    obtain ⟨hunit, hothers⟩ := State.matchNow_units hon hreplay hdue
    have harm' := hunit.ctrl 0 (by decide) (by decide)
    refine ⟨s.matchNow u, rfl, hunit.matchTick.trans (CmpUnit.afterMatch_matchTick ..),
      (hunit.ctrl 24 (by decide) (by decide)).trans (CmpUnit.afterMatch_matched ..),
      hunit.period.trans (CmpUnit.afterMatch_period ..), hothers, fun honce => ?_, fun hper hfit hp => ?_,
      State.matchNow_chains_of_no_chain hon hreplay hdue, fun h hchain => ?_⟩
    · rw [CmpUnit.afterMatch_once _ _ _ honce] at hunit harm'
      exact ⟨harm'.trans (CmpUnit.setBit_arm ..), hunit.target, hunit.missed⟩
    · obtain ⟨hkept, -, -⟩ := CmpUnit.afterMatch_periodic_fields s.units[u] s.tick.now s.now hper
      have hphase := CmpUnit.afterMatch_periodic_phase (stamp := s.tick.now) hper hp htarget hfit
      rw [hunit.target, hunit.missed]
      exact ⟨(harm'.trans hkept).trans harm, hphase⟩
    · exact ⟨_, State.matchNow_chains hon hreplay hdue h hchain, rfl, rfl, rfl, rfl⟩
  · intro hbnd hpred
    refine ⟨_, congrArg Host.Outcome.next (State.chainNow_single hon hx htgt hdue hquiet), ?_⟩
    rw [State.applyChain_refused s.chainsTaken x hbnd hpred]
    exact ⟨State.raise_units .., by simp [State.cmpRefused, State.chainsTaken], fun hr =>
      stored_raise (t := s.chainsTaken) hr rfl rfl rfl _ _⟩
  · intro hfree
    refine ⟨_, congrArg Host.Outcome.next (State.chainNow_single hon hx htgt hdue hquiet), ?_⟩
    rw [State.applyChain_taken s.chainsTaken x hfree, State.setUnit_unit_same]
    exact ⟨rfl, CmpUnit.setBit_arm .., rfl, fun k hk => State.setUnit_unit_other _ _ _ hk, rfl⟩
  · exact ⟨_, State.replay_ends hon hr hchains hquiet hend hlast, by simp [State.replayEnd], by simp [State.replayEnd],
      fun hroom => State.replayEnd_stored hroom r.count⟩

end Sys2Proof.Machine
end

section
/-! PROOFS. Global start and the boundary predictor (R94 to R97): releases, the predictor's write, host writes of a boundary compare, a
late match, and the statement on them. -/

namespace Sys2Proof.Machine

/-! ### Steps over a list of indices -/

theorem forAll_eq_self {α : Type} {f : α → State → State} {s : State} {l : List α} (h : ∀ a ∈ l, f a s = s) :
    forAll l f s = s := by
  induction l with
  | nil => rfl
  | cons a l ih =>
    have hhead : forAll (a :: l) f s = forAll l f (f a s) := rfl
    rw [hhead, h a List.mem_cons_self]
    exact ih fun b hb => h b (List.mem_cons_of_mem a hb)

/-- Where one index alone changes the state, the others add nothing to its step. -/
theorem forAll_eq_single {α : Type} {f : α → State → State} {s : State} {l : List α} {a : α} (hl : l.Nodup) (ha : a ∈ l)
    (hbefore : ∀ b, b ≠ a → f b s = s) (hafter : ∀ b, b ≠ a → f b (f a s) = f a s) : forAll l f s = f a s := by
  obtain ⟨l₁, l₂, rfl⟩ := List.append_of_mem ha
  obtain ⟨h₁, h₂⟩ : a ∉ l₁ ∧ a ∉ l₂ := by
    have hnodup := List.nodup_middle.1 hl
    simpa using (List.nodup_cons.1 hnodup).1
  have hsplit : forAll (l₁ ++ a :: l₂) f s = forAll l₂ f (f a (forAll l₁ f s)) := by
    simp only [forAll, List.foldl_append, List.foldl_cons]
  rw [hsplit, forAll_eq_self fun b hb => hbefore b (ne_of_mem_of_not_mem hb h₁)]
  exact forAll_eq_self fun b hb => hafter b (ne_of_mem_of_not_mem hb h₂)

/-! ### The predictor's write (R96) -/

section Predictor

variable {s : State} {c : Ch}

theorem State.predNow_of_none (h : (s.ch c).pred = none) : s.predNow c = s := by
  simp only [State.predNow, h]

theorem State.predWrite_of_none (h : ∀ c, (s.ch c).pred = none) : s.predWrite = s :=
  forAll_eq_self fun c _ => State.predNow_of_none (h c)

/-- Before the tick's match and chains nothing comes of a unit that is not due, with no chain under way. -/
theorem State.predNow_quiet {r : PredRes} (hr : (s.ch c).pred = some r) (hnow : r.tEff ≤ s.now + 1)
    (hdue : (s.units[bndUnit c]).due s.tick.now = false) (hchains : s.tick.chains = []) : s.predNow c = s.predApply c r := by
  simp only [State.predNow, hr, hnow, if_true, State.matchNow_of_not_due hdue, State.chainNow_of_no_chains hchains]

theorem State.predApply_ch_other (r : PredRes) {k : Ch} (h : k ≠ c) : (s.predApply c r).ch k = s.ch k := by
  unfold State.predApply
  dsimp only
  repeat' split
  all_goals simp [h]

/-- The state with the result of a channel taken up, and nothing written. -/
def State.predTaken (s : State) (c : Ch) : State := s.modCh c fun h => { h with pred := none }

section Taken

variable {r : PredRes} (hpred : (s.units[bndUnit c]).pred = true) (hhit : (s.ch c).predHit = false)
include hpred hhit

/-- While PRED = 1 and the unit has not matched on the boundary, a result is not discarded. -/
theorem State.predTaken_writes : (!((s.predTaken c).units[bndUnit c]).pred ||
    (((s.predTaken c).ch c).predFor.isSome && ((s.predTaken c).ch c).predHit)) = false := by
  simp [State.predTaken, hpred, hhit, -Fin.getElem_fin]

/-- R95: a park disarms the boundary compare and keeps its TARGET. -/
theorem State.predApply_park (hr : r.tStar = none) :
    s.predApply c r = (s.predTaken c).setUnit (bndUnit c) fun v => (v.setBit 0 false).setPark (some r.why) := by
  have hwrites := State.predTaken_writes hpred hhit
  unfold State.predTaken at hwrites
  simp only [State.predApply, State.predTaken, hwrites, hr, Bool.false_eq_true, if_false]

/-- R96: a result for a unit without a target for its boundary arms the unit there. -/
theorem State.predApply_target {n : Nat} (hr : r.tStar = some n)
    (hset : (s.units[bndUnit c]).parked = true ∨ (s.ch c).predSet = false) :
    s.predApply c r =
      let t := ((s.predTaken c).setUnit (bndUnit c) fun v =>
        { v.setPark none with target := BitVec.ofNat 64 n }.setBit 0 true).modCh c fun h => { h with predSet := true }
      if r.late then t.modCh c fun h => { h with predLate := some r.unclamped } else t := by
  have hwrites := State.predTaken_writes hpred hhit
  have hset' (far : Bool) :
      (((s.predTaken c).units[bndUnit c]).parked || !((s.predTaken c).ch c).predSet || far) = true := by
    rcases hset with h | h <;> simp [State.predTaken, h, -Fin.getElem_fin]
  unfold State.predTaken at hwrites hset'
  simp only [State.predApply, State.predTaken, hwrites, hset', hr, Bool.false_eq_true, if_false, if_true]

theorem State.predApply_park_units (hr : r.tStar = none) : (s.predApply c r).units =
    (s.setUnit (bndUnit c) fun v => (v.setBit 0 false).setPark (some r.why)).units := by
  rw [State.predApply_park hpred hhit hr]
  rfl

theorem State.predApply_park_ch (hr : r.tStar = none) : ((s.predApply c r).ch c).pred = none := by
  rw [State.predApply_park hpred hhit hr]
  simp [State.predTaken]

section Target

variable {n : Nat} (hr : r.tStar = some n) (hset : (s.units[bndUnit c]).parked = true ∨ (s.ch c).predSet = false)
include hr hset

theorem State.predApply_target_units : (s.predApply c r).units =
    (s.setUnit (bndUnit c) fun v => { v.setPark none with target := BitVec.ofNat 64 n }.setBit 0 true).units := by
  rw [State.predApply_target hpred hhit hr hset]
  dsimp only
  split <;> rfl

theorem State.predApply_target_ch : (s.predApply c r).ch c =
    { s.ch c with pred := none, predSet := true, predLate := if r.late then some r.unclamped else (s.ch c).predLate } := by
  rw [State.predApply_target hpred hhit hr hset]
  cases r.late <;> simp [State.predTaken]

end Target

end Taken

/-- One channel's result in hand is all that the predictor writes. -/
theorem State.predWrite_single {r : PredRes} (hr : (s.ch c).pred = some r) (hnow : r.tEff ≤ s.now + 1)
    (hdue : (s.units[bndUnit c]).due s.tick.now = false) (hchains : s.tick.chains = [])
    (hothers : ∀ k, k ≠ c → (s.ch k).pred = none) : s.predWrite = s.predApply c r := by
  have hstep := State.predNow_quiet hr hnow hdue hchains
  have hafter : ∀ k, k ≠ c → (s.predApply c r).predNow k = s.predApply c r := fun k hk =>
    State.predNow_of_none ((congrArg Chan.pred (State.predApply_ch_other r hk)).trans (hothers k hk))
  rw [← hstep] at hafter
  rw [← hstep]
  exact forAll_eq_single (List.nodup_finRange 256) (List.mem_finRange c) (fun k hk => State.predNow_of_none (hothers k hk)) hafter

end Predictor

/-! ### Global start (R94) -/

section GlobalStart

variable {s : State}

theorem State.releaseNow_of_none (h : s.tick.gstarts = []) : s.releaseNow = s := by
  simp [State.releaseNow, h]

/-- The state with a release of groups `g` on tick `n` pending. -/
def State.addRelease (s : State) (g : BitVec 8) (n : Nat) : State :=
  { s with tick := { s.tick with gstarts := s.tick.gstarts ++ [(g, n)] } }

theorem State.gstartWrite_zero {v : W32} (h : v.extractLsb' 0 8 = 0) : s.gstartWrite v = s := by
  simp only [State.gstartWrite, h, if_true]

section Groups

variable {v : W32} (hg : v.extractLsb' 0 8 ≠ 0)
include hg

theorem State.gstartWrite_now (hat : v.getLsbD 8 = false) :
    s.gstartWrite v = s.addRelease (v.extractLsb' 0 8) (s.now + 16) := by
  simp only [State.gstartWrite, hg, hat, Bool.false_and, Bool.false_eq_true, if_false]
  rfl

theorem State.gstartWrite_at (hat : v.getLsbD 8 = true) (hfar : s.now + 16 ≤ (s.reg64 R.GSTART_TICK).toNat) :
    s.gstartWrite v = s.addRelease (v.extractLsb' 0 8) (s.reg64 R.GSTART_TICK).toNat := by
  simp only [State.gstartWrite, hg, hat, hfar, decide_true, Bool.true_and, Bool.not_true, Bool.false_eq_true, if_true, if_false]
  rfl

theorem State.gstartWrite_near (hat : v.getLsbD 8 = true) (hnear : (s.reg64 R.GSTART_TICK).toNat < s.now + 16) :
    s.gstartWrite v = (s.addRelease (v.extractLsb' 0 8) (s.now + 16)).raise 0x0500 0 := by
  simp only [State.gstartWrite, hg, hat, Nat.not_le.2 hnear, decide_false, Bool.true_and, Bool.not_false, Bool.false_eq_true,
    if_true, if_false]
  rfl

end Groups

theorem State.reg64_setReg64 (s : State) (a : Nat) (v : W64) : (s.setReg64 a v).reg64 a = v := by
  simp only [State.reg64, State.setReg64, State.reg_setReg_same, State.reg_setReg_other _ _ _ _ (Nat.ne_of_lt (by omega : a < a + 4))]
  exact BitVec.extractLsb'_append_extractLsb' ..

/-- A unit at a release that takes it (R94). -/
theorem CmpUnit.released_taken {v : CmpUnit} {g : BitVec 8} (harm : v.arm = true) (hgated : v.gated = true)
    (hgroup : g.getLsbD v.group = true) (n now : Nat) :
    v.released g n now =
      { v with target := BitVec.ofNat 64 (n + v.period.toNat), ctrl := v.ctrl &&& ~~~4, since := now + 1 } := by
  simp only [released, harm, hgated, hgroup, Bool.and_self, if_true]
  rfl

theorem CmpUnit.released_passed {v : CmpUnit} {g : BitVec 8} (h : v.arm = false ∨ v.gated = false ∨ g.getLsbD v.group = false)
    (n now : Nat) : v.released g n now = v := by
  rcases h with h | h | h <;> simp [released, h]

/-- The state after the release of groups `g` at `n`, with the releases `rest` still pending. -/
def State.released (s : State) (g : BitVec 8) (n : Nat) (rest : List (BitVec 8 × Nat)) : State :=
  State.setReg64 { s with tick := { s.tick with gstarts := rest }
                          units := Vector.ofFn fun u => (s.units[u]).released g n s.now }
    R.GSTART_LAST (BitVec.ofNat 64 n)

theorem State.released_unit (g : BitVec 8) (n : Nat) (rest : List (BitVec 8 × Nat)) (u : CUnit) :
    (s.released g n rest).units[u] = (s.units[u]).released g n s.now := by
  simp [State.released]

/-- The first release pending, where nothing of the tick comes before it. -/
theorem State.releaseNow_quiet {g : BitVec 8} {n : Nat} {rest : List (BitVec 8 × Nat)} (hon : s.clockOn = true)
    (hchains : s.tick.chains = []) (hpred : ∀ c, (s.ch c).pred = none) (hg : s.tick.gstarts = (g, n) :: rest) (hn : n ≤ s.now) :
    s.releaseNow = s.released g n rest := by
  simp [State.releaseNow, State.released, hg, hn, hon, hchains, State.predWrite_of_none hpred, forAll]

end GlobalStart

/-! ### Host writes of a boundary compare (R97) -/

section HostWrite

variable {s : State} {c : Ch}

/-- Steps 1 to 5 of R92 bring nothing to a boundary compare on this tick. -/
structure State.Quiet (s : State) (c : Ch) : Prop where
  notDue : (s.units[bndUnit c]).due s.tick.now = false
  noChain : s.tick.chains = []
  noPred : (s.ch c).pred = none
  noRelease : s.tick.gstarts = []

theorem State.beforeWrite_quiet (h : s.Quiet c) : s.beforeWrite (bndUnit c) = s := by
  simp only [State.beforeWrite, State.matchNow_of_not_due h.notDue, State.chainNow_of_no_chains h.noChain, bndChan_bndUnit,
    State.predNow_of_none h.noPred, State.releaseNow_of_none h.noRelease, ite_self]

theorem State.cmpTargetWrite_free (h : s.Quiet c) (hpred : (s.units[bndUnit c]).pred = false) (x : W64) :
    s.cmpTargetWrite (bndUnit c) x = s.setUnit (bndUnit c) fun v => { v with target := x } := by
  simp [State.cmpTargetWrite, State.beforeWrite_quiet h, hpred, -Fin.getElem_fin]

theorem State.cmpTargetWrite_pred (h : s.Quiet c) (hpred : (s.units[bndUnit c]).pred = true) (x : W64) :
    s.cmpTargetWrite (bndUnit c) x = s.cmpRefused (bndUnit c) := by
  simp [State.cmpTargetWrite, State.beforeWrite_quiet h, hpred, -Fin.getElem_fin]

end HostWrite

/-- A word written over a boundary compare's control register: the writable bits, and the W1C bits that a 1 clears. -/
def bndWord (old w : W32) : W32 := (w &&& 0x00BFFFFD) ||| (old &&& ~~~0x00BFFFFD &&& ~~~(w &&& 0x07000000))

@[simp] theorem cmpWritable_bndUnit (c : Ch) : cmpWritable (bndUnit c) = 0x00BFFFFD := by
  have hlow : ¬(bndUnit c).val < 32 := by simp only [bndUnit]; omega
  have hhigh : (bndUnit c).val < 288 := by simp only [bndUnit]; omega
  simp only [cmpWritable, hlow, hhigh, if_true, if_false]

@[simp] theorem cmpW1c_bndUnit (c : Ch) : cmpW1c (bndUnit c) = 0x07000000 := by
  have hlow : 32 ≤ (bndUnit c).val := by simp only [bndUnit]; omega
  have hhigh : (bndUnit c).val < 288 := by simp only [bndUnit]; omega
  simp only [cmpW1c, hlow, hhigh, decide_true, Bool.and_self, if_true]

/-- A writable bit takes the written value. -/
theorem bndWord_written (old w : W32) {i : Nat} (hi : i < 32) (hm : (0x00BFFFFD : W32).getLsbD i = true) :
    (bndWord old w).getLsbD i = w.getLsbD i := by
  simp only [bndWord, BitVec.getLsbD_or, BitVec.getLsbD_and, BitVec.getLsbD_not, hm, hi, decide_true, Bool.and_true, Bool.not_true,
    Bool.and_false, Bool.false_and, Bool.or_false]

/-- PERIODIC of a boundary compare is not written (Table 04.4). -/
theorem bndWord_periodic (old w : W32) : (bndWord old w).getLsbD 1 = old.getLsbD 1 := by
  simp [bndWord]

/-- Bit `k` of a word, held at `b` where a write of it is refused. -/
def holdBit (no : Bool) (k : Nat) (b : Bool) (x : W32) : W32 :=
  if no then if b then x ||| BitVec.twoPow 32 k else x &&& ~~~BitVec.twoPow 32 k else x

theorem holdBit_getLsbD (no : Bool) (k : Nat) (b : Bool) (x : W32) {i : Nat} (hi : i < 32) :
    (holdBit no k b x).getLsbD i = if no = true ∧ i = k then b else x.getLsbD i := by
  cases no
  · simp [holdBit]
  · simpa [holdBit] using getLsbD_putBit x hi b

theorem bndWord_eq (old w : W32) :
    (w &&& 0x00BFFFFD) ||| (old &&& ~~~0x00BFFFFD &&& ~~~(w &&& 0x07000000)) = bndWord old w := rfl

theorem holdBit_pred (no b : Bool) (x : W32) :
    (if no then if b then x ||| 0x00800000 else x &&& 0xFF7FFFFF else x) = holdBit no 23 b x := rfl

theorem holdBit_arm (no b : Bool) (x : W32) :
    (if no then if b then x ||| 1 else x &&& 0xFFFFFFFE else x) = holdBit no 0 b x := rfl

section CtrlWrite

variable (s : State) (c : Ch) (w : W32)

/-- A write of PRED in FIELD is refused where it would change it. -/
def State.predKept : Bool := s.mode.mode = .field && w.getLsbD 23 != (s.units[bndUnit c]).pred

/-- PRED after a write of the control register. -/
def State.predAfter : Bool := if s.mode.mode = .field then (s.units[bndUnit c]).pred else w.getLsbD 23

/-- A write of ARM is refused where PRED = 1 and it would change it. -/
def State.armKept : Bool := s.predAfter c w && w.getLsbD 0 != (s.units[bndUnit c]).arm

/-- The control register after a write, but for ARM. -/
def State.bndCtrlPred : W32 := holdBit (s.predKept c w) 23 (s.units[bndUnit c]).pred (bndWord (s.units[bndUnit c]).ctrl w)

/-- The control register after a write: PRED and ARM are as they were where R97 keeps them. -/
def State.bndCtrl : W32 := holdBit (s.armKept c w) 0 (s.units[bndUnit c]).arm (s.bndCtrlPred c w)

theorem State.bndCtrlPred_pred : (s.bndCtrlPred c w).getLsbD 23 = s.predAfter c w := by
  rw [bndCtrlPred, holdBit_getLsbD _ _ _ _ (by decide), bndWord_written _ _ (by decide) (by decide), State.predKept,
    State.predAfter]
  generalize w.getLsbD 23 = written
  generalize (s.units[bndUnit c]).pred = old
  by_cases hfield : s.mode.mode = .field
  · by_cases hsame : written = old
    · simp [hsame]
    · simp [hfield, hsame]
  · simp [hfield]

theorem State.bndCtrlPred_other {i : Nat} (hi : i < 32) (h : i ≠ 23) :
    (s.bndCtrlPred c w).getLsbD i = (bndWord (s.units[bndUnit c]).ctrl w).getLsbD i := by
  rw [bndCtrlPred, holdBit_getLsbD _ _ _ _ hi, if_neg (fun hno => h hno.2)]

theorem State.bndCtrlPred_arm : (s.bndCtrlPred c w).getLsbD 0 = w.getLsbD 0 := by
  rw [s.bndCtrlPred_other c w (by decide) (by decide), bndWord_written _ _ (by decide) (by decide)]

theorem State.bndCtrl_arm :
    (s.bndCtrl c w).getLsbD 0 = if s.predAfter c w then (s.units[bndUnit c]).arm else w.getLsbD 0 := by
  rw [bndCtrl, holdBit_getLsbD _ _ _ _ (by decide), bndCtrlPred_arm, armKept]
  generalize w.getLsbD 0 = written
  generalize (s.units[bndUnit c]).arm = old
  by_cases hsame : written = old
  · simp [hsame]
  · cases s.predAfter c w <;> simp [hsame]

theorem State.bndCtrl_pred : (s.bndCtrl c w).getLsbD 23 = s.predAfter c w := by
  rw [bndCtrl, holdBit_getLsbD _ _ _ _ (by decide), if_neg (fun hno => absurd hno.2 (by decide)),
    bndCtrlPred_pred]

theorem State.bndCtrl_other {i : Nat} (hi : i < 32) (h0 : i ≠ 0) (h23 : i ≠ 23) :
    (s.bndCtrl c w).getLsbD i = (bndWord (s.units[bndUnit c]).ctrl w).getLsbD i := by
  rw [bndCtrl, holdBit_getLsbD _ _ _ _ hi, if_neg (fun hno => h0 hno.2), s.bndCtrlPred_other c w hi h23]

/-- The bits from GATED to the top of CHAIN_TGT are taken as written. -/
theorem State.bndCtrl_fields : (s.bndCtrl c w).extractLsb' 2 20 = w.extractLsb' 2 20 := by
  have hmask : ∀ i < 20, (0x00BFFFFD : W32).getLsbD (2 + i) = true := by decide
  refine BitVec.eq_of_getLsbD_eq fun i hi => ?_
  simp only [BitVec.getLsbD_extractLsb', hi, decide_true, Bool.true_and]
  rw [s.bndCtrl_other c w (by omega) (by omega) (by omega), bndWord_written _ _ (by omega) (hmask i hi)]

variable {s} {c}

/-- R97: what a control write to a boundary compare leaves, where the tick brings nothing before it. -/
theorem State.cmpCtrlWrite_bnd (h : s.Quiet c) :
    ∃ t : State, t.hp = s.hp ∧ t.tick = s.tick ∧ t.regs = s.regs ∧
      t.units = (s.setUnit (bndUnit c) fun v => { v with ctrl := s.bndCtrl c w }).units ∧
      s.cmpCtrlWrite (bndUnit c) w =
        let r := if s.predKept c w then t.cmpRefused (bndUnit c) else t
        if s.armKept c w then r.cmpRefused (bndUnit c) else r := by
  have hpred : (decide (s.mode.mode = .field) && (bndWord (s.units[bndUnit c]).ctrl w).getLsbD 23 != (s.units[bndUnit c]).pred) =
      s.predKept c w := by
    rw [bndWord_written _ _ (by decide) (by decide)]; rfl
  have harm : ((s.bndCtrlPred c w).getLsbD 23 && (s.bndCtrlPred c w).getLsbD 0 != (s.units[bndUnit c]).arm) = s.armKept c w := by
    rw [bndCtrlPred_pred, bndCtrlPred_arm]; rfl
  unfold bndCtrlPred at harm
  simp only [State.cmpCtrlWrite, State.beforeWrite_quiet h, bndChan_bndUnit, cmpWritable_bndUnit, cmpW1c_bndUnit, bndWord_eq,
    holdBit_pred, holdBit_arm, hpred, harm]
  refine ⟨_, ?_, ?_, ?_, ?_, rfl⟩
  all_goals split <;> rfl

theorem State.cmpCtrlWrite_units (h : s.Quiet c) : (s.cmpCtrlWrite (bndUnit c) w).units =
    (s.setUnit (bndUnit c) fun v => { v with ctrl := s.bndCtrl c w }).units := by
  obtain ⟨t, -, -, -, hunits, hwrite⟩ := State.cmpCtrlWrite_bnd w h
  have hrefuse (r : State) : (r.cmpRefused (bndUnit c)).units = r.units := State.raise_units ..
  rw [hwrite, ← hunits]
  dsimp only
  split_ifs <;> simp only [hrefuse]

theorem State.cmpCtrlWrite_unit (h : s.Quiet c) : (s.cmpCtrlWrite (bndUnit c) w).units[bndUnit c] =
    { s.units[bndUnit c] with ctrl := s.bndCtrl c w, since := s.now + 1 } := by
  rw [State.cmpCtrlWrite_units w h, State.setUnit_unit_same]

theorem State.cmpCtrlWrite_other (h : s.Quiet c) {k : CUnit} (hk : k ≠ bndUnit c) :
    (s.cmpCtrlWrite (bndUnit c) w).units[k] = s.units[k] := by
  rw [State.cmpCtrlWrite_units w h, State.setUnit_unit_other _ _ _ hk]

/-- Event 0x0502 of a control write that R97 keeps from PRED or ARM. -/
theorem State.cmpCtrlWrite_stored (h : s.Quiet c) (hr : s.Room) (hkept : s.predKept c w = true ∨ s.armKept c w = true) :
    Stored s (s.cmpCtrlWrite (bndUnit c) w) 0x0502 0 (BitVec.ofNat 32 (32 + c.val)) := by
  obtain ⟨t, hhp, htick, hregs, -, hwrite⟩ := State.cmpCtrlWrite_bnd w h
  have hspace := hr.space
  have hnow : t.tick.now = s.tick.now := congrArg TickSt.now htick
  have hev : t.hp.events = s.hp.events := congrArg HostPort.events hhp
  have hf0 : t.flag R.HP_EVT_CFG_F0_EN = s.flag R.HP_EVT_CFG_F0_EN := by simp only [State.flag, State.get, State.reg, hregs]
  have hstored : Stored s (t.cmpRefused (bndUnit c)) 0x0502 0 (BitVec.ofNat 32 (32 + c.val)) := stored_raise hr hnow hev hf0 _ _
  rw [hwrite]
  dsimp only
  cases hp : s.predKept c w
  · rw [if_neg Bool.false_ne_true, if_pos (hkept.resolve_left (by simp [hp]))]
    exact hstored
  · rw [if_pos rfl]
    split
    · have hlen : (t.cmpRefused (bndUnit c)).hp.events.length = t.hp.events.length + 1 := by
        rw [State.cmpRefused, State.raise_events t _ 0 _ (by rw [hev]; omega) (.inr (hf0.trans hr.f0)), List.length_append,
          List.length_singleton]
      exact hstored.raise (by rw [hlen, hev]; omega) ((State.raise_flag _ _ _ _ _ (by decide)).trans (hf0.trans hr.f0)) _ _
    · exact hstored

end CtrlWrite

/-! ### A late match (R96) -/

section Latch

variable (s : State) (c : Ch) (b : Nat)

@[simp] theorem State.latchCh_chan : (s.latchCh c b).chan = s.chan := by
  unfold State.latchCh State.latchEng
  repeat' split
  all_goals rfl

@[simp] theorem State.latchCh_hp : (s.latchCh c b).hp = s.hp := by
  unfold State.latchCh State.latchEng
  repeat' split
  all_goals rfl

@[simp] theorem State.latchCh_units : (s.latchCh c b).units = s.units := congrArg Prod.fst (s.latchCh_compares c b)

@[simp] theorem State.latchCh_regs : (s.latchCh c b).regs = s.regs := by
  unfold State.latchCh State.latchEng
  repeat' split
  all_goals rfl

@[simp] theorem State.latchCh_ch (d : Ch) : (s.latchCh c b).ch d = s.ch d := by simp [State.ch]

@[simp] theorem State.latchCh_reg (a : Nat) : (s.latchCh c b).reg a = s.reg a := by simp [State.reg]

end Latch

/-- With no boundary in hand a match moves no sequencer. -/
theorem State.boundaryMatch_of_none {s : State} {c : Ch} (h : (s.ch c).seqr.bnd = none) : s.boundaryMatch c = s := by
  simp only [State.boundaryMatch, h]

/-- What the requests of a match leave alone: the channels, the stored events, the control bits, and every register but the counts of
lost entries. -/
structure RequestsOnly (s t : State) : Prop where
  chan : t.chan = s.chan
  events : t.hp.events = s.hp.events
  ctrl : ∀ k : CUnit, t.units[k].ctrl = s.units[k].ctrl
  reg : ∀ a, (∀ k, a ≠ R.Q_CNT (cqRing k)) → t.reg a = s.reg a

theorem RequestsOnly.trans {s t r : State} (h₁ : RequestsOnly s t) (h₂ : RequestsOnly t r) : RequestsOnly s r :=
  ⟨h₂.chan.trans h₁.chan, h₂.events.trans h₁.events, fun k => (h₂.ctrl k).trans (h₁.ctrl k),
    fun a ha => (h₂.reg a ha).trans (h₁.reg a ha)⟩

theorem RequestsOnly.ite {s t : State} {p : Prop} [Decidable p] (h : RequestsOnly s t) : RequestsOnly s (if p then t else s) := by
  split
  · exact h
  · exact ⟨rfl, rfl, fun _ => rfl, fun _ _ => rfl⟩

theorem State.cmpXfer_requests (s : State) (u : CUnit) (old : CmpUnit) (stamp : W64) (replay : Bool) :
    RequestsOnly s (s.cmpXfer u old stamp replay) := by
  unfold State.cmpXfer
  dsimp only
  split
  · exact ⟨rfl, rfl, fun _ => rfl, fun a ha => State.reg_count_other _ _ _ _ (ha old.xferRing)⟩
  · refine ⟨rfl, rfl, fun k => ?_, fun _ _ => rfl⟩
    by_cases hk : k = u
    · subst hk
      rw [State.modHp_units, State.modUnit_unit_same]
    · rw [State.modHp_units, State.modUnit_unit_other _ _ _ hk]

theorem State.cmpChain_requests (s : State) (u : CUnit) (old : CmpUnit) (stamp : W64) :
    RequestsOnly s (s.cmpChain u old stamp) := by
  unfold State.cmpChain
  split <;> exact ⟨rfl, rfl, fun _ => rfl, fun _ _ => rfl⟩

/-- Of a boundary match, the signal comes first, and the requests after it leave its marks. -/
theorem State.fireUnit_bndUnit (s : State) (c : Ch) (stamp : W64) (tAdv : Nat) (replay : Bool) :
    RequestsOnly
      ((s.modUnit (bndUnit c) fun _ => (s.units[bndUnit c].afterMatch stamp tAdv).1).bndSignal c stamp)
      (s.fireUnit (bndUnit c) stamp tAdv replay) := by
  simp only [State.fireUnit, smpChan_bndUnit, bndChan_bndUnit, sysNum_bndUnit]
  exact (RequestsOnly.ite (State.cmpXfer_requests ..)).trans (RequestsOnly.ite (State.cmpChain_requests ..))

theorem bndLate_not_mem_eventRegs (c : Ch) : R.CH_BND_LATE c ∉ eventRegs := by
  have hlow : ∀ a ∈ eventRegs, a < 0x8000 := by decide
  intro h
  have := hlow _ h
  simp only [R.CH_BND_LATE] at this
  omega

theorem bndLate_ne_qCnt (c : Ch) (q : Ring) : R.CH_BND_LATE c ≠ R.Q_CNT q := by
  simp only [R.CH_BND_LATE, R.Q_CNT]
  omega

section Late

variable {s : State} {c : Ch} {n : Int} (hlate : (s.ch c).predLate = some n) (stamp : W64)
include hlate

/-- LATE, the lateness and event 0x41 of a match on a result that was late. -/
theorem State.lateMatch_spec :
    (s.lateMatch c stamp).units[bndUnit c].ctrl.getLsbD 26 = true ∧
      (s.lateMatch c stamp).reg (R.CH_BND_LATE c) = BitVec.ofNat 32 (satU 32 ((stamp.toNat : Int) - n)) ∧
      ((s.lateMatch c stamp).ch c).seqr = (s.ch c).seqr ∧
      (s.Room → Stored s (s.lateMatch c stamp) (chCode c 0x41) 0 (BitVec.ofNat 32 c.val)) := by
  have hcfg : R.HP_EVT_CFG_F0_EN.addr ≠ R.CH_BND_LATE c := by
    simp only [R.HP_EVT_CFG_F0_EN, R.HP_EVT_CFG, R.CH_BND_LATE]
    omega
  simp only [State.lateMatch, hlate]
  refine ⟨?_, ?_, ?_, fun hr => stored_raise hr (by simp only [State.setReg_tick, State.modCnt_tick, State.modUnit_tick])
    (by simp only [State.setReg_hp, State.modCnt_hp, State.modUnit_hp]) ?_ _ _⟩
  · simp only [State.raise_units, State.setReg_units, State.modCnt_units, State.modUnit_unit_same]
    exact CmpUnit.setBit_ctrl _ (by decide) true
  · rw [State.raise_reg _ _ _ _ _ (bndLate_not_mem_eventRegs c), State.reg_setReg_same]
  · simp
  · rw [State.flag_setReg_other _ hcfg, State.modCnt_flag, State.modUnit_flag]

/-- A boundary match on a late result, with no boundary in the sequencer's hand: what its signal leaves. -/
theorem State.bndSignal_late (hbnd : (s.ch c).seqr.bnd = none) :
    (s.bndSignal c stamp).units[bndUnit c].ctrl.getLsbD 26 = true ∧
      (s.bndSignal c stamp).reg (R.CH_BND_LATE c) = BitVec.ofNat 32 (satU 32 ((stamp.toNat : Int) - n)) ∧
      ((s.bndSignal c stamp).ch c).predHit = true ∧ ((s.bndSignal c stamp).ch c).predLate = none ∧
      (s.Room → Stored s (s.bndSignal c stamp) (chCode c 0x41) 0 (BitVec.ofNat 32 c.val)) := by
  obtain ⟨hctrl, hreg, hseqr, hstored⟩ := State.lateMatch_spec hlate stamp
  have hbnd' : ((s.lateMatch c stamp).ch c).seqr.bnd = none := (congrArg SeqSt.bnd hseqr).trans hbnd
  unfold State.bndSignal
  dsimp only
  rw [State.boundaryMatch_of_none (by simpa using hbnd')]
  refine ⟨?_, ?_, ?_, ?_, ?_⟩
  · simpa using hctrl
  · simpa using hreg
  · simp
  · simp
  · simpa [Stored] using hstored

end Late

/-- R96 in a channel whose match signals late: what the match leaves. -/
theorem State.matchNow_late {s : State} {c : Ch} {n : Int} (hon : s.clockOn = true) (hreplay : s.tick.replay = none)
    (hdue : (s.units[bndUnit c]).due s.tick.now = true) (hbnd : (s.ch c).seqr.bnd = none) (hlate : (s.ch c).predLate = some n) :
    (s.matchNow (bndUnit c)).units[bndUnit c].ctrl.getLsbD 26 = true ∧
      (s.matchNow (bndUnit c)).reg (R.CH_BND_LATE c) = BitVec.ofNat 32 (satU 32 ((s.now : Int) - n)) ∧
      ((s.matchNow (bndUnit c)).ch c).predLate = none ∧ ((s.matchNow (bndUnit c)).ch c).predHit = true ∧
      (s.Room → Stored s (s.matchNow (bndUnit c)) (chCode c 0x41) 0 (BitVec.ofNat 32 c.val)) := by
  have hreq := s.fireUnit_bndUnit c s.tick.now s.now false
  rw [← State.matchNow_of_due hon hreplay hdue] at hreq
  obtain ⟨hctrl, hreg, hhit, htaken, hstored⟩ := State.bndSignal_late
    (s := s.modUnit (bndUnit c) fun _ => (s.units[bndUnit c].afterMatch s.tick.now s.now).1) hlate s.tick.now hbnd
  have hch := congrArg (fun l : Vector Chan 256 => l[c]) hreq.chan
  refine ⟨(congrArg (·.getLsbD 26) (hreq.ctrl (bndUnit c))).trans hctrl,
    (hreq.reg _ fun k => bndLate_ne_qCnt c (cqRing k)).trans hreg, (congrArg Chan.predLate hch).trans htaken,
    (congrArg Chan.predHit hch).trans hhit, fun hr => ?_⟩
  rw [Stored, hreq.events]
  exact hstored ⟨hr.space, hr.f0⟩

/-! ### The statement -/

/-- Settles O41: with nothing else on the tick, a release is one map over the units (`State.releaseNow_quiet`), the predictor's write
is that of one channel (`State.predWrite_single`), and a control write is the word with PRED and ARM held where R97 keeps them
(`State.cmpCtrlWrite_bnd`); a late match is followed through its signal and its requests (`State.matchNow_late`). -/
theorem globalStartAndPredictor : Obligations.GlobalStartAndPredictor := by
  refine ⟨fun s => ⟨fun u hgated => ?_,
    fun hw v => ⟨fun hg => ?_, fun hg hat => ?_, fun hg hat hfar => ?_, fun hg hat hnear => ?_⟩,
    fun hon hchains hpred g n rest hg hn => ?_⟩, fun s c => ⟨fun hon hpred hquiet hothers r hr hnow hhit => ?_,
    fun hon hreplay hdue hbnd n hlate => ?_, fun hw hquiet hnone hrelease x => ?_, fun hw hquiet hnone hrelease w => ?_⟩⟩
  · exact congrArg Host.Outcome.next (State.matchNow_of_not_due (CmpUnit.due_eq_false.2 (.inr (.inl hgated))))
  · rw [exec_gstartWrite, execGstartWrite, if_pos hw, State.gstartWrite_zero hg]
  · rw [exec_gstartWrite, execGstartWrite, if_pos hw, State.gstartWrite_now hg hat]
    rfl
  · rw [exec_gstartWrite, execGstartWrite, if_pos hw, State.gstartWrite_at hg hat hfar]
    rfl
  · rw [exec_gstartWrite, execGstartWrite, if_pos hw, State.gstartWrite_near hg hat hnear]
    exact ⟨_, rfl, congrArg TickSt.gstarts (State.raise_tick ..), State.raise_units .., fun hr =>
      stored_raise (t := s.addRelease _ _) hr rfl rfl rfl _ _⟩
  · refine ⟨_, congrArg Host.Outcome.next (State.releaseNow_quiet hon hchains hpred hg hn), rfl,
      State.reg64_setReg64 .., fun u => ?_⟩
    rw [State.released_unit]
    exact ⟨fun harm hgated hgroup => CmpUnit.released_taken harm hgated hgroup n s.now, fun h => CmpUnit.released_passed h n s.now⟩
  · obtain ⟨hdue, hchains⟩ := hquiet
    have hwrite : exec .predictorWrite s = .next (s.predApply c r) := by
      rw [exec_predictorWrite, execPredictorWrite, if_pos hon, State.predWrite_single hr hnow hdue hchains hothers]
    refine ⟨fun hpark => ⟨_, hwrite, ?_⟩, fun n htarget hset => ⟨_, hwrite, ?_⟩⟩
    · rw [State.predApply_park_ch hpred hhit hpark, State.predApply_park_units hpred hhit hpark, State.setUnit_unit_same]
      have harm := CmpUnit.setPark_arm ((s.units[bndUnit c]).setBit 0 false) (some r.why)
      have hparked := CmpUnit.setPark_parked ((s.units[bndUnit c]).setBit 0 false) (some r.why)
      exact ⟨harm.trans (CmpUnit.setBit_arm _ false), hparked, rfl, rfl,
        fun k hk => State.setUnit_unit_other _ _ _ hk⟩
    · rw [State.predApply_target_ch hpred hhit htarget hset, State.predApply_target_units hpred hhit htarget hset,
        State.setUnit_unit_same]
      have hparked := CmpUnit.setBit_parked { (s.units[bndUnit c]).setPark none with target := BitVec.ofNat 64 n } true
      exact ⟨CmpUnit.setBit_arm _ true, hparked.trans (CmpUnit.setPark_parked (s.units[bndUnit c]) none), rfl, rfl, rfl,
        fun hlate => if_pos hlate, fun k hk => State.setUnit_unit_other _ _ _ hk⟩
  · obtain ⟨hunit, -⟩ := State.matchNow_units hon hreplay hdue
    obtain ⟨hctrl, hreg, htaken, hhit, hstored⟩ := State.matchNow_late hon hreplay hdue hbnd hlate
    exact ⟨_, rfl, hctrl, hunit.matchTick.trans (CmpUnit.afterMatch_matchTick ..), hreg, htaken, hhit, hstored⟩
  · have hbefore : s.Quiet c := ⟨hquiet.1, hquiet.2, hnone, hrelease⟩
    refine ⟨fun hpred => ?_, fun hpred => ?_⟩
    · rw [exec_chBndTargetWrite, execChBndTargetWrite, if_pos hw, State.cmpTargetWrite_free hbefore hpred]
      rfl
    · rw [exec_chBndTargetWrite, execChBndTargetWrite, if_pos hw, State.cmpTargetWrite_pred hbefore hpred]
      exact ⟨_, rfl, State.raise_units .., fun hr => stored_raise (t := s) hr rfl rfl rfl _ _⟩
  · have hbefore : s.Quiet c := ⟨hquiet.1, hquiet.2, hnone, hrelease⟩
    rw [exec_chBndCtrlWrite, execChBndCtrlWrite, if_pos hw]
    have hunit := State.cmpCtrlWrite_unit w hbefore
    refine ⟨fun hfield => ⟨_, rfl, ?_, fun hne hr => ?_⟩,
      fun hfield => ⟨_, rfl, ?_, ?_, ?_, ?_, fun k => State.cmpCtrlWrite_other w hbefore, fun hw23 hne hr => ?_⟩⟩
    · rw [hunit]
      exact (s.bndCtrl_pred c w).trans (if_pos hfield)
    · exact State.cmpCtrlWrite_stored w hbefore hr (.inl (by simpa [State.predKept, hfield] using hne))
    · rw [hunit]
      exact (s.bndCtrl_pred c w).trans (if_neg hfield)
    · rw [hunit]
      exact (s.bndCtrl_arm c w).trans (by rw [State.predAfter, if_neg hfield])
    · rw [hunit]
      exact s.bndCtrl_fields c w
    · rw [hunit]
      exact (s.bndCtrl_other c w (by decide) (by decide) (by decide)).trans (bndWord_periodic ..)
    · exact State.cmpCtrlWrite_stored w hbefore hr (.inr (by simpa [State.armKept, State.predAfter, hfield, hw23] using hne))

end Sys2Proof.Machine
end

section
/-! PROOFS. Doorbells and RESUME (R269, R270, R287, R288): how a doorbell's value is judged, what a ring does on it, and the
statement. -/

namespace Sys2Proof.Machine

/-! ### Judging a value (R269, R270, Table 10.14) -/

theorem RingSt.subCheck_good {r : RingSt} {size v : Nat} (hv : v < 4096) (hsize : v < size)
    (hdist : ringDist r.pi r.ci size ≤ ringDist v r.ci size) : r.subCheck size v = none := by
  simp [subCheck, Nat.not_le.2 hv, Nat.not_le.2 hsize, Nat.not_lt.2 hdist]

/-- A submission doorbell that is not accepted halts with WHY 1 for its range and WHY 2 for a retracted index. -/
theorem RingSt.subCheck_bad {r : RingSt} {size v : Nat}
    (h : ¬(v < 4096 ∧ v < size ∧ ringDist r.pi r.ci size ≤ ringDist v r.ci size)) :
    r.subCheck size v = some (if 4096 ≤ v ∨ size ≤ v then 1 else 2) := by
  by_cases hrange : 4096 ≤ v ∨ size ≤ v
  · simp [subCheck, hrange]
  · have hback : ringDist v r.ci size < ringDist r.pi r.ci size := by omega
    simp [subCheck, hrange, hback]

theorem RingSt.cplCheck_good {r : RingSt} {size v : Nat} (hv : v < 4096) (hsize : v < size)
    (hdist : ringDist v r.ci size ≤ ringDist r.pi r.ci size) : r.cplCheck size v = none := by
  simp [cplCheck, Nat.not_le.2 hv, Nat.not_le.2 hsize, Nat.not_lt.2 hdist]

theorem RingSt.cplCheck_bad {r : RingSt} {size v : Nat}
    (h : ¬(v < 4096 ∧ v < size ∧ ringDist v r.ci size ≤ ringDist r.pi r.ci size)) : r.cplCheck size v = some 3 := by
  have hbad : (4096 ≤ v ∨ size ≤ v) ∨ ringDist r.pi r.ci size < ringDist v r.ci size := by omega
  simp [cplCheck, hbad]

section Doorbell

variable (s : State) (q : Ring) (v : W32) (be : BitVec 4)

/-- A value that R269 (Q00 to Q19) or R270 (Q20 to Q23) accepts. -/
def State.DoorbellGood : Prop :=
  let r := s.hp.rings[q]
  let size := s.ringSize q
  v.toNat < 4096 ∧ v.toNat < size ∧
    if q.val < 20 then ringDist r.pi r.ci size ≤ ringDist v.toNat r.ci size else ringDist v.toNat r.ci size ≤ ringDist r.pi r.ci size

/-- WHY of a value that is not accepted (Table 10.14). -/
def State.doorbellWhy : Byte := if 20 ≤ q.val then 3 else if 4096 ≤ v.toNat ∨ s.ringSize q ≤ v.toNat then 1 else 2

/-- The answer of Table 10.14 to the value of a whole doorbell of an enabled ring. -/
def State.doorbellCheck : Option Byte :=
  if q.val < 20 then (s.hp.rings[q]).subCheck (s.ringSize q) v.toNat else (s.hp.rings[q]).cplCheck (s.ringSize q) v.toNat

variable {s q v be}

theorem State.doorbellCheck_good (h : s.DoorbellGood q v) : s.doorbellCheck q v = none := by
  obtain ⟨hv, hsize, hdist⟩ := h
  by_cases hq : q.val < 20
  · rw [if_pos hq] at hdist
    exact (if_pos hq).trans (RingSt.subCheck_good hv hsize hdist)
  · rw [if_neg hq] at hdist
    exact (if_neg hq).trans (RingSt.cplCheck_good hv hsize hdist)

theorem State.doorbellCheck_bad (h : ¬s.DoorbellGood q v) : s.doorbellCheck q v = some (s.doorbellWhy q v) := by
  by_cases hq : q.val < 20
  · rw [DoorbellGood, if_pos hq] at h
    rw [doorbellCheck, doorbellWhy, if_pos hq, if_neg (by omega), RingSt.subCheck_bad h]
  · rw [DoorbellGood, if_neg hq] at h
    rw [doorbellCheck, doorbellWhy, if_neg hq, if_pos (by omega), RingSt.cplCheck_bad h]

/-! ### Which answer a doorbell takes -/

theorem State.doorbell_off (hon : s.ringOn q = false) : s.doorbell q v be = s.dbDiscard 2 q.val := by
  simp [doorbell, hon]

theorem State.doorbell_partial (hon : s.ringOn q = true) (hbe : be ≠ 15) : s.doorbell q v be = s.dbDiscard 3 q.val := by
  rw [doorbell]
  exact (if_neg (by rw [hon]; decide)).trans (if_pos hbe)

/-- A whole doorbell of an enabled ring goes by its value alone. -/
theorem State.doorbell_whole (hon : s.ringOn q = true) (hbe : be = 15) : s.doorbell q v be =
    match s.doorbellCheck q v with
    | none => s.dbAccept q v
    | some why => if (s.hp.rings[q]).halted then s.dbDiscard 5 q.val else s.haltRing q why := by
  simp only [doorbell, hon, hbe]
  rfl

theorem State.doorbell_good (hon : s.ringOn q = true) (hbe : be = 15) (h : s.DoorbellGood q v) :
    s.doorbell q v be = s.dbAccept q v := by
  rw [doorbell_whole hon hbe, doorbellCheck_good h]

theorem State.doorbell_bad_running (hon : s.ringOn q = true) (hbe : be = 15) (h : ¬s.DoorbellGood q v)
    (hhalt : (s.hp.rings[q]).halted = false) : s.doorbell q v be = s.haltRing q (s.doorbellWhy q v) := by
  rw [doorbell_whole hon hbe, doorbellCheck_bad h]
  exact if_neg (by rw [hhalt]; decide)

theorem State.doorbell_bad_halted (hon : s.ringOn q = true) (hbe : be = 15) (h : ¬s.DoorbellGood q v)
    (hhalt : (s.hp.rings[q]).halted = true) : s.doorbell q v be = s.dbDiscard 5 q.val := by
  rw [doorbell_whole hon hbe, doorbellCheck_bad h]
  exact if_pos hhalt

/-- Outside a freeze, a doorbell's offset in BAR2 names its ring (Table 10.2). -/
theorem exec_doorbell (hrun : s.mode.domeRun = true) (hfrozen : s.mode.frozen = false) :
    exec (if q.val < 20 then .submissionDoorbell (BitVec.ofNat 12 (8 * q.val)) v be
      else .completionDoorbell (BitVec.ofNat 12 (8 * q.val)) v be) s = .next (s.doorbell q v be) := by
  have hq := q.isLt
  have hoff : (BitVec.ofNat 12 (8 * q.val)).toNat = 8 * q.val := by
    rw [BitVec.toNat_ofNat]; omega
  have hbar : s.bar2Write (8 * q.val) v be = s.doorbell q v be := by
    have h₁ : ¬2048 ≤ 8 * q.val := by omega
    have h₂ : ¬192 ≤ 8 * q.val := by omega
    have h₃ : 8 * q.val < 192 := by omega
    simp [State.bar2Write, h₁, h₂, h₃, hfrozen]
  split
  · rw [exec_submissionDoorbell, execSubmissionDoorbell, if_pos hrun, hoff, hbar]
  · rw [exec_completionDoorbell, execCompletionDoorbell, if_pos hrun, hoff, hbar]

end Doorbell

/-! ### What each answer does -/

section Answers

variable {s : State} {q : Ring}

theorem State.dbAccept_submission (hq : q.val < 20) (v : W32) :
    s.dbAccept q v = s.modRing q fun x => { x with pi := v.toNat, lastDb := v } := by
  simp only [dbAccept, if_pos hq]

/-- A consumer index that leaves room ends the time of a full ring (R278). -/
theorem State.dbAccept_completion (hq : 20 ≤ q.val) (v : W32) :
    s.dbAccept q v = s.modRing q fun x => if (x.pi + 1) % s.ringSize q = v.toNat then { x with ci := v.toNat, lastDb := v }
      else { x with ci := v.toNat, lastDb := v, fullSince := none, fullTold := false } := by
  refine congrArg (s.modRing q) (funext fun x => ?_)
  by_cases hfull : (x.pi + 1) % s.ringSize q = v.toNat <;> simp [hfull, Nat.not_lt.2 hq]

theorem State.dbDiscard_same (reason ring : Nat) :
    (s.dbDiscard reason ring).hp.rings = s.hp.rings ∧ (s.dbDiscard reason ring).chan = s.chan ∧
      (s.dbDiscard reason ring).eng = s.eng :=
  ⟨raise_hp_rings .., raise_chan .., raise_eng ..⟩

theorem State.dbDiscard_count (reason ring : Nat) :
    (s.dbDiscard reason ring).get R.HP_CNT_DB_DISC = min 65535 (s.get R.HP_CNT_DB_DISC + 1) := by
  rw [dbDiscard, raise_get _ _ _ _ _ (by decide), get_count_same _ _ _ (by decide)]
  exact Nat.min_comm ..

theorem State.dbDiscard_stored (hr : s.Room) (reason ring : Nat) :
    Stored s (s.dbDiscard reason ring) 0x0202 0 (BitVec.ofNat 32 (reason + ring * 256)) :=
  stored_raise (t := s.count R.HP_CNT_DB_DISC) hr rfl rfl (s.flag_count_other (by decide) 1) _ _

/-- A ring marked as halted, with HP_VIOL: what event 0x0200 of R287 follows. -/
def State.markHalted (s : State) (q : Ring) (why : Byte) : State :=
  ((s.modRing q fun r => { r with halted := true, why := why }).put R.HP_VIOL_RING q.val).put R.HP_VIOL_WHY why.toNat

/-- A halt marks the ring and raises its event; a message on the error vector, where one is enabled, is all that follows. -/
theorem State.haltRing_outcome (why : Byte) :
    let t := (s.markHalted q why).raise 0x0200 0 (BitVec.ofNat 32 (q.val + why.toNat * 256))
    s.haltRing q why = t ∨ ∃ vec, s.haltRing q why = t.msixAsk vec := by
  unfold haltRing
  dsimp only
  split
  · exact .inr ⟨_, rfl⟩
  · exact .inl rfl

theorem State.haltRing_rings (why : Byte) :
    (s.haltRing q why).hp.rings = upd s.hp.rings q fun r => { r with halted := true, why := why } := by
  obtain h | ⟨vec, h⟩ := haltRing_outcome (s := s) (q := q) why <;> rw [h] <;> exact raise_hp_rings ..

theorem State.markHalted_viol (why : Byte) : (s.markHalted q why).get R.HP_VIOL_RING = q.val := by
  rw [markHalted, get_put_other _ _ _ _ (.inr (by decide)), get_put_same _ _ _ (by decide)]
  exact Nat.mod_eq_of_lt (q.isLt.trans (by decide))

theorem State.haltRing_viol (why : Byte) : (s.haltRing q why).get R.HP_VIOL_RING = q.val := by
  obtain h | ⟨vec, h⟩ := haltRing_outcome (s := s) (q := q) why <;> rw [h] <;>
    exact (raise_get _ _ _ _ _ (by decide)).trans (markHalted_viol why)

theorem State.haltRing_stored (hr : s.Room) (why : Byte) :
    Stored s (s.haltRing q why) 0x0200 0 (BitVec.ofNat 32 (q.val + why.toNat * 256)) := by
  have hflag : (s.markHalted q why).flag R.HP_EVT_CFG_F0_EN = s.flag R.HP_EVT_CFG_F0_EN :=
    (flag_setReg_other _ (by decide) _).trans (flag_setReg_other _ (by decide) _)
  obtain h | ⟨vec, h⟩ := haltRing_outcome (s := s) (q := q) why <;> rw [h] <;>
    exact stored_raise (t := s.markHalted q why) hr rfl rfl hflag _ _

theorem State.ringResume_running (h : (s.hp.rings[q]).halted = false) : s.ringResume q = s :=
  if_neg (by rw [h]; decide)

/-- R288: a submission ring keeps its indices, a completion ring takes every written entry as consumed. -/
theorem State.ringResume_halted (h : (s.hp.rings[q]).halted = true) :
    (s.ringResume q).hp.rings = upd s.hp.rings q (fun r =>
      { r with halted := false, ci := if q.val < 20 then r.ci else r.pi,
               fullSince := if q.val < 20 then r.fullSince else none }) ∧
    (s.Room → Stored s (s.ringResume q) 0x0201 0 (BitVec.ofNat 32 q.val)) := by
  rw [ringResume, if_pos h]
  exact ⟨raise_hp_rings .., fun hr => stored_raise (t := s.modRing q _) hr rfl rfl rfl _ _⟩

end Answers

/-! ### The statement -/

/-- Settles O44: outside a freeze the write reaches `State.doorbell` of its ring (`exec_doorbell`), whose value is judged by
`State.doorbellCheck`; what is left is what the accepting, the discarding, the halting and the resuming of a ring each do. -/
theorem doorbellsMoveRings : Obligations.DoorbellsMoveRings := by
  intro s q v be hrun hfrozen off r size bell good same why
  have hbell : exec bell s = .next (s.doorbell q v be) := exec_doorbell hrun hfrozen
  rw [hbell]
  refine ⟨fun hoff => ?disabled, fun hon hbe => ?part, fun hon hbe hgood hq => ?submission,
    fun hon hbe hgood hq => ?completion, fun hon hbe hbad hhalt => ?halts, fun hon hbe hbad hhalt => ?discarded,
    fun hw hhalt => ?resumes, fun hw hhalt => ?running⟩
  case disabled =>
    refine ⟨_, rfl, ?_⟩
    rw [State.doorbell_off hoff, Nat.mul_comm 256]
    exact ⟨State.dbDiscard_same .., fun hr => State.dbDiscard_stored hr ..⟩
  case part =>
    refine ⟨_, rfl, ?_⟩
    rw [State.doorbell_partial hon hbe, Nat.mul_comm 256]
    exact ⟨State.dbDiscard_same .., fun hr => State.dbDiscard_stored hr ..⟩
  case submission => rw [State.doorbell_good hon hbe hgood, State.dbAccept_submission hq]
  case completion => rw [State.doorbell_good hon hbe hgood, State.dbAccept_completion hq]
  case halts =>
    refine ⟨_, rfl, ?_⟩
    rw [State.doorbell_bad_running hon hbe hbad hhalt, State.haltRing_rings, upd_same]
    exact ⟨rfl, rfl, rfl, rfl, fun k hk => upd_other _ _ _ _ hk, State.haltRing_viol _,
      fun hr => State.haltRing_stored hr _⟩
  case discarded =>
    refine ⟨_, rfl, ?_⟩
    rw [State.doorbell_bad_halted hon hbe hbad hhalt, Nat.mul_comm 256]
    exact ⟨State.dbDiscard_same .., State.dbDiscard_count .., fun hr => State.dbDiscard_stored hr ..⟩
  case resumes =>
    obtain ⟨hrings, hstored⟩ := State.ringResume_halted hhalt
    refine ⟨_, if_pos hw, ?_⟩
    rw [hrings, upd_same]
    exact ⟨rfl, rfl, rfl, fun k hk => upd_other _ _ _ _ hk, hstored⟩
  case running => rw [exec_ringResume, execRingResume, if_pos hw, State.ringResume_running hhalt]

end Sys2Proof.Machine
end

section
/-! PROOFS. Frajan words (R141, Tables 06.2 and 06.3): the fields of a word, a word from its fields, and the statement that decoding
and encoding agree. -/

namespace Sys2Proof.Machine

/-! ### The fields of a word -/

theorem wordReg_eq {w : W32} {lo : Nat} {r : GReg} (h : w.toNat / 2 ^ lo % 32 = r.val) : wordReg w lo = r :=
  Fin.ext ((congrArg (· % 32) (Nat.shiftRight_eq_div_pow ..)).trans h)

theorem wordReg_val (w : W32) (lo : Nat) : (wordReg w lo).val = w.toNat / 2 ^ lo % 32 :=
  congrArg (· % 32) (Nat.shiftRight_eq_div_pow ..)

section FormatA

variable {op fn : Nat} (d a b : GReg)

theorem wordA_toNat (hop : op < 64) (hfn : fn < 2048) :
    (wordA op d a b fn).toNat = op * 67108864 + d.val * 2097152 + a.val * 65536 + b.val * 2048 + fn := by
  rw [wordA, BitVec.toNat_ofNat]
  omega

theorem wordA_op (hop : op < 64) (hfn : fn < 2048) : (wordA op d a b fn).toNat / 67108864 = op := by
  rw [wordA_toNat d a b hop hfn]; omega

theorem wordA_d (hop : op < 64) (hfn : fn < 2048) : wordReg (wordA op d a b fn) 21 = d :=
  wordReg_eq (by rw [wordA_toNat d a b hop hfn]; omega)

theorem wordA_a (hop : op < 64) (hfn : fn < 2048) : wordReg (wordA op d a b fn) 16 = a :=
  wordReg_eq (by rw [wordA_toNat d a b hop hfn]; omega)

theorem wordA_b (hop : op < 64) (hfn : fn < 2048) : wordReg (wordA op d a b fn) 11 = b :=
  wordReg_eq (by rw [wordA_toNat d a b hop hfn]; omega)

theorem wordA_fn (hop : op < 64) (hfn : fn < 2048) : (wordA op d a b fn).toNat % 2048 = fn := by
  rw [wordA_toNat d a b hop hfn]; omega

/-- The 26 bits below the op of a word without operands. -/
theorem wordA_bare (hop : op < 64) : (wordA op 0 0 0 0).toNat % 67108864 = 0 := by
  rw [wordA_toNat 0 0 0 hop (by decide)]; omega

end FormatA

section FormatI

variable {op : Nat} (d a : GReg) (imm : BitVec 16)

theorem wordI_toNat (hop : op < 64) :
    (wordI op d a imm).toNat = op * 67108864 + d.val * 2097152 + a.val * 65536 + imm.toNat := by
  rw [wordI, BitVec.toNat_ofNat]
  omega

theorem wordI_op (hop : op < 64) : (wordI op d a imm).toNat / 67108864 = op := by
  rw [wordI_toNat d a imm hop]; omega

theorem wordI_d (hop : op < 64) : wordReg (wordI op d a imm) 21 = d :=
  wordReg_eq (by rw [wordI_toNat d a imm hop]; omega)

theorem wordI_a (hop : op < 64) : wordReg (wordI op d a imm) 16 = a :=
  wordReg_eq (by rw [wordI_toNat d a imm hop]; omega)

theorem wordI_low (hop : op < 64) : (wordI op d a imm).toNat % 65536 = imm.toNat := by
  rw [wordI_toNat d a imm hop]; omega

theorem wordI_imm (hop : op < 64) : BitVec.ofNat 16 (wordI op d a imm).toNat = imm :=
  BitVec.eq_of_toNat_eq (by rw [BitVec.toNat_ofNat]; exact wordI_low d a imm hop)

/-- The shift count of a word whose 16 bits are one. -/
theorem wordI_shift (hop : op < 64) (sh : Fin 32) : (wordI op d a (BitVec.ofNat 16 sh.val)).toNat % 32 = sh.val := by
  have hlow := wordI_low d a (BitVec.ofNat 16 sh.val) hop
  rw [BitVec.toNat_ofNat] at hlow
  omega

theorem wordI_shOk (hop : op < 64) (sh : Fin 32) :
    (wordI op d a (BitVec.ofNat 16 sh.val)).toNat % 65536 / 32 = 0 := by
  have hlow := wordI_low d a (BitVec.ofNat 16 sh.val) hop
  rw [BitVec.toNat_ofNat] at hlow
  omega

end FormatI

theorem wordJ_toNat {op : Nat} (off : BitVec 26) (hop : op < 64) : (wordJ op off).toNat = op * 67108864 + off.toNat := by
  rw [wordJ, BitVec.toNat_ofNat]
  omega

theorem wordJ_op {op : Nat} (off : BitVec 26) (hop : op < 64) : (wordJ op off).toNat / 67108864 = op := by
  rw [wordJ_toNat off hop]; omega

theorem wordJ_off {op : Nat} (off : BitVec 26) (hop : op < 64) : BitVec.ofNat 26 (wordJ op off).toNat = off :=
  BitVec.eq_of_toNat_eq (by rw [BitVec.toNat_ofNat, wordJ_toNat off hop]; omega)

/-! ### A word from its fields -/

section Fields

variable {w : W32} {op : Nat}

theorem wordA_fields {fn : Nat} (hop : w.toNat / 67108864 = op) (hfn : w.toNat % 2048 = fn) :
    wordA op (wordReg w 21) (wordReg w 16) (wordReg w 11) fn = w := by
  have hw := w.isLt
  refine BitVec.eq_of_toNat_eq ?_
  rw [wordA_toNat _ _ _ (by omega) (by omega), wordReg_val, wordReg_val, wordReg_val]
  omega

theorem wordI_fields (hop : w.toNat / 67108864 = op) :
    wordI op (wordReg w 21) (wordReg w 16) (BitVec.ofNat 16 w.toNat) = w := by
  have hw := w.isLt
  refine BitVec.eq_of_toNat_eq ?_
  rw [wordI_toNat _ _ _ (by omega), wordReg_val, wordReg_val, BitVec.toNat_ofNat]
  omega

theorem wordJ_fields (hop : w.toNat / 67108864 = op) : wordJ op (BitVec.ofNat 26 w.toNat) = w := by
  have hw := w.isLt
  refine BitVec.eq_of_toNat_eq ?_
  rw [wordJ_toNat _ (by omega), BitVec.toNat_ofNat]
  omega

/-- A shift's 16 bits are its count. -/
theorem shift_imm (h : w.toNat % 65536 / 32 = 0) : BitVec.ofNat 16 (w.toNat % 32) = BitVec.ofNat 16 w.toNat :=
  BitVec.eq_of_toNat_eq (by rw [BitVec.toNat_ofNat, BitVec.toNat_ofNat]; omega)

/-- A word without operands. -/
theorem wordA_bare_fields (hop : w.toNat / 67108864 = op) (h : w.toNat % 67108864 = 0) : wordA op 0 0 0 0 = w := by
  have hw := w.isLt
  refine BitVec.eq_of_toNat_eq ?_
  rw [wordA_toNat _ _ _ (by omega) (by decide)]
  simp only [Fin.val_zero]
  omega

end Fields

/-! ### The statement -/

theorem decodeFrajan_encodeFrajan {i : Frajan} {w : W32} (h : encodeFrajan i = some w) : decodeFrajan w = some i := by
  cases i
  case lock a b =>
    simp only [encodeFrajan, Option.ite_none_right_eq_some, Option.some.injEq] at h
    obtain ⟨hpair, rfl⟩ := h
    simp only [decodeFrajan, wordA_op, wordA_d, wordA_a, wordA_b, wordA_fn, Nat.reduceLT]
    simpa [and_assoc] using hpair
  all_goals
    rw [encodeFrajan, Option.some.injEq] at h
    subst h
  case shli | shri | sari =>
    simp only [decodeFrajan, wordI_op, wordI_d, wordI_a, wordI_shift, wordI_shOk, Nat.reduceLT]
    rfl
  case j | jal => simp only [decodeFrajan, wordJ_op, wordJ_off, Nat.reduceLT]
  case unlock | ckpt => simp only [decodeFrajan, wordA_op, wordA_bare, Nat.reduceLT, if_true]
  case lui | addi | andi | ori | xori | slti | lw | lh | lhu | lb | lbu | sw | sh | sb | beq | bne | blt | bge | bltu | bgeu |
      portIn | portOut | wait | trap =>
    simp only [decodeFrajan, wordI_op, wordI_d, wordI_a, wordI_imm, Nat.reduceLT, if_true, decide_true, Bool.and_true]
  all_goals simp [decodeFrajan, decodeAlu, decodeMul, wordA_op, wordA_d, wordA_a, wordA_b, wordA_fn]

theorem encodeFrajan_decodeAlu {fn : Nat} {d a b : GReg} {i : Frajan} (h : decodeAlu fn d a b = some i) :
    encodeFrajan i = some (wordA 0 d a b fn) := by
  unfold decodeAlu at h
  split at h
  case h_15 =>
    split at h <;> cases h
    rename_i hb
    rw [hb, encodeFrajan]
  case h_16 => cases h
  all_goals
    cases h
    rfl

theorem encodeFrajan_decodeMul {fn : Nat} {d a b : GReg} {i : Frajan} (h : decodeMul fn d a b = some i) :
    encodeFrajan i = some (wordA 12 d a b fn) := by
  unfold decodeMul at h
  split at h
  case h_1 | h_2 | h_3 => cases h; rfl
  case h_11 => cases h
  all_goals obtain ⟨hz, ⟨⟩⟩ := Option.ite_none_right_eq_some.1 h
  case h_8 | h_9 =>
    simp only [Bool.and_eq_true, decide_eq_true_eq] at hz
    rw [encodeFrajan, hz.1, hz.2]
  all_goals rw [encodeFrajan, hz]

theorem encodeFrajan_decodeFrajan {w : W32} {i : Frajan} (h : decodeFrajan w = some i) : encodeFrajan i = some w := by
  unfold decodeFrajan at h
  dsimp only at h
  split at h
  all_goals rename_i hop
  case h_1 => rw [encodeFrajan_decodeAlu h, wordA_fields hop rfl]
  case h_11 => rw [encodeFrajan_decodeMul h, wordA_fields hop rfl]
  case h_12 =>
    have hw := wordA_fields hop rfl
    split at h
    case h_3 => cases h
    all_goals
      rename_i hfn
      obtain ⟨hb, ⟨⟩⟩ := Option.ite_none_right_eq_some.1 h
      rw [hb, hfn] at hw
      rw [encodeFrajan, hw]
  case h_7 | h_8 | h_9 =>
    obtain ⟨hsh, ⟨⟩⟩ := Option.ite_none_right_eq_some.1 h
    rw [encodeFrajan, shift_imm (beq_iff_eq.1 hsh), wordI_fields hop]
  case h_6 | h_30 | h_31 | h_32 =>
    have hw := wordI_fields hop
    obtain ⟨hz, ⟨⟩⟩ := Option.ite_none_right_eq_some.1 h
    rw [hz] at hw
    rw [encodeFrajan, hw]
  case h_36 =>
    have hw := wordI_fields hop
    obtain ⟨hz, ⟨⟩⟩ := Option.ite_none_right_eq_some.1 h
    simp only [Bool.and_eq_true, decide_eq_true_eq] at hz
    rw [hz.1, hz.2] at hw
    rw [encodeFrajan, hw]
  case h_27 | h_28 => cases h; rw [encodeFrajan, wordJ_fields hop]
  case h_29 =>
    obtain ⟨hz, ⟨⟩⟩ := Option.ite_none_right_eq_some.1 h
    simp only [Bool.and_eq_true, decide_eq_true_eq] at hz
    obtain ⟨⟨hd, hb⟩, hfn⟩ := hz
    have hw := wordA_fields hop hfn
    rw [hd, hb] at hw
    rw [encodeFrajan, hw]
  case h_33 =>
    obtain ⟨hz, ⟨⟩⟩ := Option.ite_none_right_eq_some.1 h
    simp only [Bool.and_eq_true, decide_eq_true_eq] at hz
    obtain ⟨⟨⟨⟨hd, hfn⟩, ha⟩, hb⟩, hab⟩ := hz
    have hw := wordA_fields hop hfn
    rw [hd] at hw
    simp [encodeFrajan, ha, hb, hab, hw]
  case h_34 | h_35 =>
    obtain ⟨hz, ⟨⟩⟩ := Option.ite_none_right_eq_some.1 h
    rw [encodeFrajan, wordA_bare_fields hop hz]
  case h_37 => cases h
  all_goals cases h; rw [encodeFrajan, wordI_fields hop]

/-- Settles O5: the fields of a word that an encoding builds are those that decoding reads, and a word is built back from them. -/
theorem frajanWordsRoundTrip : Obligations.FrajanWordsRoundTrip :=
  ⟨fun _ _ => decodeFrajan_encodeFrajan, fun _ _ => encodeFrajan_decodeFrajan⟩

end Sys2Proof.Machine
end

section
/-! PROOFS. Engine instructions that act on the engine alone (R141 to R143, Table 06.3): the words that they compute, and the
statements on arithmetic, loads, stores, branches and jumps. -/

namespace Sys2Proof.Machine

/-! ### Words that the arithmetic instructions compute (R143) -/

theorem sat32_eq (x : Int) : sat32 x =
    (if 2147483647 < x then 0x7FFFFFFF else if x < -2147483648 then 0x80000000 else BitVec.ofInt 32 x,
      if 2147483647 < x ∨ x < -2147483648 then 1 else 0) := by
  unfold sat32 flagSAT
  by_cases hi : 2147483647 < x
  · simp [hi]
  · by_cases lo : x < -2147483648 <;> simp [hi, lo]

theorem sat64_eq (x : Int) : sat64 x =
    (if 9223372036854775807 < x then 0x7FFFFFFFFFFFFFFF else if x < -9223372036854775808 then 0x8000000000000000
      else BitVec.ofInt 64 x,
      if 9223372036854775807 < x ∨ x < -9223372036854775808 then 1 else 0) := by
  unfold sat64 flagSAT
  by_cases hi : 9223372036854775807 < x
  · simp [hi]
  · by_cases lo : x < -9223372036854775808 <;> simp [hi, lo]

section Words

variable (x y : W32) (imm : BitVec 16)

theorem min_word : (if x.slt y then x else y) = BitVec.ofInt 32 (Min.min x.toInt y.toInt) := by
  by_cases h : x.toInt < y.toInt
  · simp [BitVec.slt, h, Int.min_eq_left (Int.le_of_lt h)]
  · simp [BitVec.slt, h, Int.min_eq_right (Int.not_lt.1 h)]

theorem max_word : (if x.slt y then y else x) = BitVec.ofInt 32 (Max.max x.toInt y.toInt) := by
  by_cases h : x.toInt < y.toInt
  · simp [BitVec.slt, h, Int.max_eq_right (Int.le_of_lt h)]
  · simp [BitVec.slt, h, Int.max_eq_left (Int.not_lt.1 h)]

theorem add_sext16 : x + sext16 imm = BitVec.ofInt 32 (x.toInt + imm.toInt) := by
  rw [BitVec.ofInt_add, BitVec.ofInt_toInt]
  rfl

theorem sext16_toInt : (sext16 imm).toInt = imm.toInt := BitVec.toInt_signExtend_of_le (by decide)

theorem zext16_eq : zext16 imm = BitVec.ofNat 32 imm.toNat := BitVec.eq_of_toNat_eq (by simp [zext16])

theorem lui_word : zext16 imm <<< 16 = BitVec.ofNat 32 (imm.toNat * 65536) :=
  BitVec.eq_of_toNat_eq (by simp [zext16, Nat.shiftLeft_eq])

theorem shl_word (n : Nat) : x <<< n = BitVec.ofNat 32 (x.toNat * 2 ^ n) :=
  BitVec.eq_of_toNat_eq (by simp [Nat.shiftLeft_eq])

theorem shr_word (n : Nat) : x >>> n = BitVec.ofNat 32 (x.toNat / 2 ^ n) :=
  BitVec.eq_of_toNat_eq (by
    rw [BitVec.toNat_ushiftRight, Nat.shiftRight_eq_div_pow, BitVec.toNat_ofNat]
    exact (Nat.mod_eq_of_lt (Nat.lt_of_le_of_lt (Nat.div_le_self ..) x.isLt)).symm)

theorem sar_word (n : Nat) : x.sshiftRight n = BitVec.ofInt 32 (x.toInt / 2 ^ n) := by
  rw [BitVec.sshiftRight, Int.shiftRight_eq_div_pow]
  norm_cast

theorem mul_word : x * y = BitVec.ofInt 32 (x.toInt * y.toInt) := by
  rw [BitVec.ofInt_mul, BitVec.ofInt_toInt, BitVec.ofInt_toInt]

theorem mulhu_word : (BitVec.ofNat 64 (x.toNat * y.toNat)).extractLsb' 32 32 = BitVec.ofNat 32 (x.toNat * y.toNat / 2 ^ 32) := by
  have h : x.toNat * y.toNat < 2 ^ 64 := Nat.mul_lt_mul'' (c := 2 ^ 32) (d := 2 ^ 32) x.isLt y.isLt
  refine BitVec.eq_of_toNat_eq ?_
  rw [BitVec.extractLsb'_toNat, BitVec.toNat_ofNat, BitVec.toNat_ofNat, Nat.shiftRight_eq_div_pow, Nat.mod_eq_of_lt h]

theorem mulh_word :
    (BitVec.ofInt 64 (x.toInt * y.toInt)).extractLsb' 32 32 = BitVec.ofInt 32 (x.toInt * y.toInt / 2 ^ 32) := by
  refine BitVec.eq_of_toNat_eq ?_
  rw [BitVec.extractLsb'_toNat, BitVec.toNat_ofInt, BitVec.toNat_ofInt, Nat.shiftRight_eq_div_pow]
  generalize x.toInt * y.toInt = p
  omega

theorem mtah_word : x ++ y = BitVec.ofNat 64 (x.toNat * 2 ^ 32 + y.toNat) := by
  refine BitVec.eq_of_toNat_eq ?_
  have hx := x.isLt
  have hy := y.isLt
  rw [BitVec.toNat_append, BitVec.toNat_ofNat, ← Nat.shiftLeft_add_eq_or_of_lt hy, Nat.shiftLeft_eq]
  omega

theorem mfah_word (acc : W64) : acc.extractLsb' 32 32 = BitVec.ofNat 32 (acc.toNat / 2 ^ 32) :=
  BitVec.eq_of_toNat_eq (by rw [BitVec.extractLsb'_toNat, BitVec.toNat_ofNat, Nat.shiftRight_eq_div_pow])

theorem rcpU_zero : rcpU 0 = (0xFFFFFFFF, 3) := rfl
theorem rcpU_one : rcpU 1 = (0xFFFFFFFF, 1) := rfl
theorem rcpS_zero : rcpS 0 = (0x7FFFFFFF, 3) := rfl

theorem rcpU_large (h : 2 ≤ x.toNat) : rcpU x = (BitVec.ofNat 32 ((2 ^ 33 + x.toNat) / (2 * x.toNat)), 0) := by
  have h0 : x ≠ 0 := by rintro rfl; exact absurd h (by decide)
  have h1 : x ≠ 1 := by rintro rfl; exact absurd h (by decide)
  have hpos : ¬(x.toNat : Int) = 0 := by omega
  have hsign : ¬(x.toNat : Int) < 0 := by omega
  simp only [rcpU, h0, h1, if_false, roundDiv, hpos]
  simp [hsign]
  norm_cast

theorem rcpS_nonzero (h : x ≠ 0) : rcpS x = sat32 (roundDiv (2 ^ 31) x.toInt) := if_neg h

end Words

/-! ### Arithmetic -/

/-- Settles O1: each instruction is `aluInsn` of a function of the engine's registers (`aluInsn_computed`), whose word is the one stated. -/
theorem aluAndImmediateInstructionsCompute : Obligations.AluAndImmediateInstructionsCompute := by
  refine ⟨fun s e d a b h => ?_, fun s e d a imm sh h => ?_⟩
  · have does {i : Instr} {reads : List GReg} {f : Engine → W32 × BitVec 5} {v : W32} {fl : BitVec 5}
        (hi : exec i s = aluInsn e d reads 1 f s) (hv : f s.eng[e] = (v, fl)) :
        ∃ t, exec i s = .next t ∧ Computed s t e reads 1 d v fl s.eng[e].acc := by
      rw [hi]; exact aluInsn_computed s e d reads 1 f h v fl hv
    exact ⟨does (exec_add ..) rfl, does (exec_sub ..) rfl, does (exec_and ..) rfl, does (exec_or ..) rfl, does (exec_xor ..) rfl,
      does (exec_shl ..) rfl, does (exec_shr ..) rfl, does (exec_sar ..) rfl, does (exec_adds ..) (sat32_eq _),
      does (exec_subs ..) (sat32_eq _), does (exec_min ..) (Prod.ext (min_word ..) rfl),
      does (exec_max ..) (Prod.ext (max_word ..) rfl), does (exec_slt ..) rfl, does (exec_sltu ..) rfl,
      does (exec_abss ..) (sat32_eq _)⟩
  · have does {i : Instr} {reads : List GReg} {f : Engine → W32 × BitVec 5} {v : W32}
        (hi : exec i s = aluInsn e d reads 1 f s) (hv : f s.eng[e] = (v, 0)) :
        ∃ t, exec i s = .next t ∧ Computed s t e reads 1 d v 0 s.eng[e].acc := by
      rw [hi]; exact aluInsn_computed s e d reads 1 f h v 0 hv
    have hslti (x : W32) : (if x.slt (sext16 imm) then (1 : W32) else 0) = if x.toInt < imm.toInt then 1 else 0 := by
      simp only [BitVec.slt, sext16_toInt, decide_eq_true_eq]
    exact ⟨does (exec_addi ..) (Prod.ext (add_sext16 ..) rfl), does (exec_andi ..) (congrArg (fun z => (s.r e a &&& z, 0)) (zext16_eq imm)),
      does (exec_ori ..) (congrArg (fun z => (s.r e a ||| z, 0)) (zext16_eq imm)),
      does (exec_xori ..) (congrArg (fun z => (s.r e a ^^^ z, 0)) (zext16_eq imm)), does (exec_lui ..) (Prod.ext (lui_word imm) rfl),
      does (exec_shli ..) (Prod.ext (shl_word ..) rfl), does (exec_shri ..) (Prod.ext (shr_word ..) rfl),
      does (exec_sari ..) (Prod.ext (sar_word ..) rfl), does (exec_slti ..) (Prod.ext (hslti _) rfl)⟩

/-- Settles O2: as O1, with the products, the saturations of R143 (`sat32_eq`, `sat64_eq`) and the reciprocals (`rcpU_large`,
`rcpS_nonzero`). -/
theorem multiplyInstructionsCompute : Obligations.MultiplyInstructionsCompute := by
  intro s e d a b sh h
  have gives {i : Instr} {reads : List GReg} {cyc : Nat} {f : Engine → W32 × BitVec 5} {v : W32} {fl : BitVec 5}
      (hi : exec i s = aluInsn e d reads cyc f s) (hv : f s.eng[e] = (v, fl)) :
      ∃ t, exec i s = .next t ∧ Computed s t e reads cyc d v fl s.eng[e].acc := by
    rw [hi]; exact aluInsn_computed s e d reads cyc f h v fl hv
  have accs {i : Instr} {reads : List GReg} {f : Engine → W64 × BitVec 5} {v : W64} {fl : BitVec 5}
      (hi : exec i s = accInsn e reads f s) (hv : f s.eng[e] = (v, fl)) :
      ∃ t, exec i s = .next t ∧ Computed s t e reads 1 0 0 fl v := by
    rw [hi]; exact accInsn_computed s e reads f h v fl hv
  exact ⟨gives (exec_mul ..) (Prod.ext (mul_word ..) rfl), gives (exec_mulh ..) (Prod.ext (mulh_word ..) rfl),
    gives (exec_mulhu ..) (Prod.ext (mulhu_word ..) rfl), accs (exec_mac ..) (sat64_eq _), accs (exec_msu ..) (sat64_eq _),
    accs (exec_macz ..) rfl, gives (exec_mfa ..) (sat32_eq _), gives (exec_mfah ..) (Prod.ext (mfah_word _) rfl),
    accs (exec_mta ..) rfl, accs (exec_mtah ..) (Prod.ext (mtah_word ..) rfl),
    fun h0 => ⟨gives (exec_rcp ..) ((congrArg rcpU h0).trans rcpU_zero), gives (exec_rcps ..) ((congrArg rcpS h0).trans rcpS_zero)⟩,
    fun h1 => gives (exec_rcp ..) ((congrArg rcpU h1).trans rcpU_one), fun h2 => gives (exec_rcp ..) (rcpU_large _ h2),
    fun h0 => gives (exec_rcps ..) ((rcpS_nonzero _ h0).trans (sat32_eq _))⟩

/-! ### Loads and stores -/

theorem dataAddr_ok {x : Engine} {a : GReg} {imm : BitVec 16} {size : Nat}
    (h : (x.getG a + sext16 imm).toNat % size = 0 ∧ (x.getG a + sext16 imm).toNat ≤ 0x1FFF) :
    dataAddr x a imm size = .ok (x.getG a + sext16 imm).toNat := by
  simp only [dataAddr, h.1, Nat.not_lt.2 h.2, ne_eq, not_true, if_false]

section Fell

variable (s : State) (e : Eng) (y : Engine) (reads : List GReg) (cyc : Nat) (ld : Option GReg)

theorem State.fell_onlyEng : OnlyEng s (s.fell e y reads cyc ld) e := modEng_onlyEng ..

theorem State.fell_eng :
    (s.fell e y reads cyc ld).eng[e] = { s.eng[e].charge y reads cyc ld with pc := s.eng[e].pc + 4 } :=
  State.modEng_eng_same ..

theorem State.fell_pc : (s.fell e y reads cyc ld).eng[e].pc = s.eng[e].pc + 4 := by rw [fell_eng]

theorem State.fell_wdog : (s.fell e y reads cyc ld).eng[e].wdog = s.eng[e].wdog + s.eng[e].cyclesOf reads cyc := by
  rw [fell_eng]; exact Engine.charge_wdog s.eng[e] y reads cyc ld

theorem State.fell_dram : (s.fell e y reads cyc ld).eng[e].dram = y.dram := by rw [fell_eng]; rfl

end Fell

/-- A load at an allowed address in an engine that may run it. -/
theorem loadInsn_computed {s : State} {e : Eng} {d a : GReg} {imm : BitVec 16} {size : Nat} (ext : Nat → W32) (h : s.Free e)
    (had : (s.r e a + sext16 imm).toNat % size = 0 ∧ (s.r e a + sext16 imm).toNat ≤ 0x1FFF) {v : W32}
    (hv : ext (memLe s.eng[e].dram (s.r e a + sext16 imm).toNat size) = v) :
    ∃ t, loadInsn e d a imm size ext s = .next t ∧ Computed s t e [a] 1 d v 0 s.eng[e].acc ∧
      t.eng[e].lastLoad = if d = 0 then none else some d := by
  have hm : s.eng[e].mayWrite d = true := by simp only [Engine.mayWrite, h.unlocked]
  have hx : s.eng[e].pc + 4 < s.eng[e].codeLen := h.inside
  refine ⟨_, runInsn_fell s e [a] 1 1 _ (s.eng[e].setG d v) (if d = 0 then none else some d) h.issue
    (by simp only [hm, dataAddr_ok had, hv]; rfl) (by simpa using hx) (by simp), ?_, ?_⟩
  · unfold State.fell
    have hs := Engine.setG_same s.eng[e] d v
    have hg : ∀ r, (s.eng[e].setG d v).getG r = if r = 0 then 0 else if r = d then v else s.eng[e].getG r :=
      fun r => Engine.getG_setG ..
    generalize s.eng[e].setG d v = y at hs hg
    refine ⟨modEng_onlyEng .., fun hd => ?_, ?_, fun r hr => ?_, ?_, ?_, ?_, ?_, ?_⟩
    all_goals simp only [State.modEng_eng_same]
    · exact (hg d).trans (by simp [hd])
    · rfl
    · refine (hg r).trans ?_
      by_cases h0 : r = 0
      · subst h0; rfl
      · simp [h0, hr]
    · rw [← hs]; simp [Engine.charge]
    · rw [← hs]; rfl
    · exact Engine.charge_wdog ..
    · rw [← hs]; rfl
  · rw [State.fell, State.modEng_eng_same]
    rfl

theorem leBytes_length (n v : Nat) : (leBytes n v).length = n := by
  induction n generalizing v with
  | zero => rfl
  | succ n ih => exact congrArg (· + 1) (ih _)

theorem leBytes_getD (n v k : Nat) (h : k < n) : (leBytes n v).getD k 0 = BitVec.ofNat 8 (v / 256 ^ k) := by
  induction n generalizing v k with
  | zero => exact absurd h (Nat.not_lt_zero k)
  | succ n ih =>
    cases k with
    | zero => simp [leBytes]
    | succ k =>
      have hk := ih (v / 256) k (Nat.lt_of_succ_lt_succ h)
      rw [Nat.div_div_eq_div_mul, ← Nat.pow_succ'] at hk
      exact hk

/-- A store at an allowed address in an engine that may run it. -/
theorem storeInsn_stores {s : State} {e : Eng} {d a : GReg} {imm : BitVec 16} {size : Nat} (h : s.Free e)
    (had : (s.r e a + sext16 imm).toNat % size = 0 ∧ (s.r e a + sext16 imm).toNat ≤ 0x1FFF) :
    let ad := (s.r e a + sext16 imm).toNat
    let m := s.eng[e].dram
    ∃ t, storeInsn e d a imm size s = .next t ∧ OnlyEng s t e ∧ t.eng[e].pc = s.eng[e].pc + 4 ∧
      t.eng[e].wdog = s.eng[e].wdog + s.eng[e].cyclesOf [a, d] 1 ∧
      (∀ k, k < size → memGet t.eng[e].dram (ad + k) = BitVec.ofNat 8 ((s.r e d).toNat / 256 ^ k)) ∧
      (∀ x, (x < ad ∨ ad + size ≤ x) → memGet t.eng[e].dram x = memGet m x) ∧
      { t.eng[e] with dram := m, pc := s.eng[e].pc, wdog := s.eng[e].wdog, lastLoad := s.eng[e].lastLoad } = s.eng[e] := by
  intro ad m
  refine ⟨_, runInsn_fell s e [a, d] 1 1 _ { s.eng[e] with dram := memWrite m ad (leBytes size (s.r e d).toNat) } none h.issue
    (by simp only [h.unlocked, dataAddr_ok had]; rfl) h.inside rfl, ?_⟩
  refine ⟨State.fell_onlyEng .., State.fell_pc .., State.fell_wdog .., fun k hk => ?_, fun x hx => ?_, ?_⟩
  · rw [State.fell_dram, memGet_write, leBytes_length, if_pos (by omega), Nat.add_sub_cancel_left, leBytes_getD _ _ _ hk]
  · rw [State.fell_dram, memGet_write, leBytes_length, if_neg (by omega)]
  · rw [State.fell_eng]; rfl

/-! ### Words read from data RAM, low byte first (R4) -/

section Reads

variable (m : List Host.Cell) (ad : Nat)

theorem memLe_one : memLe m ad 1 = (memGet m ad).toNat := by simp [memLe, memBytes, leVal]

theorem memLe_two : memLe m ad 2 = (memGet m ad).toNat + 256 * (memGet m (ad + 1)).toNat := by
  simp [memLe, memBytes, leVal, List.range_succ]

theorem memLe_four : BitVec.ofNat 32 (memLe m ad 4) = memGet m (ad + 3) ++ memGet m (ad + 2) ++ memGet m (ad + 1) ++ memGet m ad := by
  refine BitVec.eq_of_toNat_eq ?_
  have h0 := (memGet m ad).isLt
  have h1 := (memGet m (ad + 1)).isLt
  have h2 := (memGet m (ad + 2)).isLt
  have h3 := (memGet m (ad + 3)).isLt
  simp only [memLe, memBytes, leVal, List.range_succ, List.range_zero, List.nil_append, List.cons_append, List.map_cons, List.map_nil,
    Nat.add_zero, BitVec.toNat_ofNat, BitVec.toNat_append, Nat.shiftLeft_eq]
  rw [← Nat.shiftLeft_eq, ← Nat.shiftLeft_eq, ← Nat.shiftLeft_eq, ← Nat.shiftLeft_add_eq_or_of_lt h2,
    ← Nat.shiftLeft_add_eq_or_of_lt h1, ← Nat.shiftLeft_add_eq_or_of_lt h0]
  simp only [Nat.shiftLeft_eq]
  omega

end Reads

/-- Settles O3: a load is `loadInsn` of what it makes of the bytes read (`loadInsn_computed`), a store is `storeInsn`
(`storeInsn_stores`). -/
theorem loadsAndStoresMoveBytes : Obligations.LoadsAndStoresMoveBytes := by
  intro s e d a imm h
  refine ⟨fun had => ?_, fun had => ⟨?_, ?_⟩, fun had => ⟨?_, ?_⟩, fun had => ?_, fun had => ?_, fun had => ?_⟩
  · exact loadInsn_computed (BitVec.ofNat 32) h had (memLe_four ..)
  · exact loadInsn_computed (fun v => (BitVec.ofNat 16 v).signExtend 32) h had (by rw [memLe_two]; rfl)
  · exact loadInsn_computed (BitVec.ofNat 32) h had (by rw [memLe_two]; rfl)
  · exact loadInsn_computed (fun v => (BitVec.ofNat 8 v).signExtend 32) h had (by rw [memLe_one, BitVec.ofNat_toNat]; simp; rfl)
  · exact loadInsn_computed (BitVec.ofNat 32) h had (by rw [memLe_one, BitVec.ofNat_toNat]; rfl)
  · exact storeInsn_stores h had
  · exact storeInsn_stores h had
  · exact storeInsn_stores h had

/-! ### Branches and jumps -/

theorem relTarget_signExtend {w : Nat} (x : Engine) (off : BitVec w) :
    relTarget x (off.signExtend 32) = BitVec.ofInt 32 (x.pc + 4 + 4 * off.toInt) := by
  have hoff : off.signExtend 32 <<< 2 = BitVec.ofInt 32 (4 * off.toInt) := by
    rw [BitVec.shiftLeft_eq_mul_twoPow, BitVec.ofInt_mul, BitVec.mul_comm]
    rfl
  rw [relTarget, hoff, BitVec.ofInt_add]
  rfl

/-- The state after a jump to `p` in an engine that is `y` then. -/
def State.went (s : State) (e : Eng) (y : Engine) (reads : List GReg) (cyc p : Nat) : State :=
  s.modEng e fun x => { x.charge y reads cyc none with pc := p }

theorem State.went_eng (s : State) (e : Eng) (y : Engine) (reads : List GReg) (cyc p : Nat) :
    (s.went e y reads cyc p).eng[e] = { s.eng[e].charge y reads cyc none with pc := p } := State.modEng_eng_same ..

theorem State.fell_eq_went (s : State) (e : Eng) (y : Engine) (reads : List GReg) (cyc : Nat) :
    s.fell e y reads cyc none = s.went e y reads cyc (s.eng[e].pc + 4) := rfl

/-- A jump changes PC, the registers as far as `y` does, and the cycles. -/
theorem State.went_jumped {s : State} {e : Eng} {y : Engine} {reads : List GReg} {cyc p : Nat} {link : Option W32}
    (hsame : { y with g := s.eng[e].g } = s.eng[e]) (hlink : ∀ v, link = some v → y.getG 31 = v)
    (hregs : ∀ r : GReg, (link = none ∨ r ≠ 31) → y.getG r = s.eng[e].getG r) :
    Jumped s (s.went e y reads cyc p) e reads cyc p link := by
  refine ⟨modEng_onlyEng .., ?_, fun v hv => ?_, fun r hr => ?_, ?_, ?_⟩ <;> rw [went_eng]
  · exact hlink v hv
  · exact hregs r hr
  · exact Engine.charge_wdog s.eng[e] y reads cyc none
  · rw [← hsame]; rfl

/-- A jump that may be made, to a target in the code. -/
theorem runInsn_jumps {s : State} {e : Eng} {reads : List GReg} {cyc cycTaken : Nat} {f : Engine → EngRes} {t : W32} {r : Res}
    (hr : r = runInsn e reads cyc cycTaken f s) (h : s.Free e) (hf : f s.eng[e] = .jump s.eng[e] t) (hin : t.toNat % 4 = 0 ∧ t.toNat < s.eng[e].codeLen) :
    ∃ u, r = .next u ∧ Jumped s u e reads cycTaken t.toNat none :=
  ⟨_, hr.trans <| runInsn_jumped s e reads cyc cycTaken f _ t h.issue hf hin.1 hin.2,
    State.went_jumped rfl (fun _ hv => nomatch hv) fun _ _ => rfl⟩

/-- A branch goes to its target where its condition holds, else to the next word. -/
theorem branchInsn_goes {s : State} {e : Eng} {a b : GReg} {off : BitVec 16} {q : W32 → W32 → Bool} {p : Prop} {r : Res}
    (hr : r = branchInsn e a b off q s) (h : s.Free e) (hp : q (s.r e a) (s.r e b) = true ↔ p) :
    let target := (BitVec.ofInt 32 (s.eng[e].pc + 4 + 4 * off.toInt)).toNat
    (p → target % 4 = 0 ∧ target < s.eng[e].codeLen →
      ∃ t, r = .next t ∧ Jumped s t e [a, b] 2 target none) ∧
    (¬p → ∃ t, r = .next t ∧ Jumped s t e [a, b] 1 (s.eng[e].pc + 4) none) := by
  refine ⟨fun hyes hin => ?_, fun hno => ?_⟩
  · rw [← relTarget_signExtend] at hin ⊢
    exact runInsn_jumps hr h (if_pos (hp.2 hyes)) hin
  · exact ⟨_, hr.trans <| runInsn_fell s e [a, b] 1 2 _ s.eng[e] none h.issue (if_neg (mt hp.1 hno)) h.inside rfl,
      State.went_jumped rfl (fun _ hv => nomatch hv) fun _ _ => rfl⟩

/-- Settles O4: a branch is `branchInsn` of its comparison (`branchInsn_goes`), J and JR jump (`runInsn_jumps`), and JAL jumps from an
engine whose g31 holds the return address (`State.went_jumped`). -/
theorem branchesAndJumpsGoToTheirTarget : Obligations.BranchesAndJumpsGoToTheirTarget := by
  intro s e a b off far h
  refine ⟨branchInsn_goes (exec_beq ..) h (by simp), branchInsn_goes (exec_bne ..) h (by simp), branchInsn_goes (exec_blt ..) h (by simp [BitVec.slt]),
    branchInsn_goes (exec_bge ..) h (by simp [BitVec.slt]), branchInsn_goes (exec_bltu ..) h (by simp [BitVec.ult]),
    branchInsn_goes (exec_bgeu ..) h (by simp [BitVec.ult]), fun hin => ?_, fun hin => ?_, fun hin => runInsn_jumps (exec_jr ..) h rfl hin⟩
  · dsimp only at hin ⊢
    rw [← relTarget_signExtend] at hin ⊢
    exact runInsn_jumps (exec_j ..) h rfl hin
  · dsimp only at hin ⊢
    rw [← relTarget_signExtend] at hin ⊢
    have hm : s.eng[e].mayWrite 31 = true := by simp only [Engine.mayWrite, h.unlocked]
    have hg (r : GReg) := Engine.getG_setG s.eng[e] 31 r (BitVec.ofNat 32 (s.eng[e].pc + 4))
    refine ⟨_, (exec_jal ..).trans <| runInsn_jumped s e [] 2 2 _ _ _ h.issue (if_pos hm) hin.1 hin.2,
      State.went_jumped (Engine.setG_same ..) (fun v hv => ?_) fun r hr => ?_⟩
    · cases hv
      exact hg 31
    · have hr' : r ≠ 31 := hr.resolve_left (by simp)
      rw [hg, if_neg hr']
      split
      · next h0 => rw [h0]; rfl
      · rfl

end Sys2Proof.Machine
end

section
/-! PROOFS. Exceptions of an engine (R157, R159, Table 06.7): what an exception leaves, and the statement on its causes. -/

namespace Sys2Proof.Machine

section Exceptions

variable (s : State) (e : Eng)

theorem upd_upd {α : Type} {n : Nat} (v : Vector α n) (i : Fin n) (f g : α → α) : upd (upd v i f) i g = upd v i fun x => g (f x) := by
  simp [upd, Vector.set_set]

theorem upd_eq_self {α : Type} {n : Nat} {v : Vector α n} {i : Fin n} {f : α → α} (h : f v[i] = v[i]) : upd v i f = v := by
  rw [upd, h]
  exact Vector.set_getElem_self ..

/-- A trigger marks the buffer of its engine and raises event 0x0303, or does nothing (R302). -/
theorem State.eddyTrigger_cases (src : Nat) :
    s.eddyTrigger e src = s ∨ ∃ (x : Eddy) (data : W32),
      s.eddyTrigger e src = (s.modEng e fun g => { g with eddy := x }).raise 0x0303 0 data := by
  unfold State.eddyTrigger
  dsimp only
  split
  · exact .inr ⟨_, _, rfl⟩
  · exact .inl rfl

theorem State.eddyTrigger_chan (src : Nat) : (s.eddyTrigger e src).chan = s.chan := by
  obtain h | ⟨x, data, h⟩ := s.eddyTrigger_cases e src <;> rw [h]
  exact State.raise_chan ..

theorem State.eddyTrigger_units (src : Nat) : (s.eddyTrigger e src).units = s.units := by
  obtain h | ⟨x, data, h⟩ := s.eddyTrigger_cases e src <;> rw [h]
  exact State.raise_units ..

/-- A trigger changes the buffer of its engine alone. -/
theorem State.eddyTrigger_eng (src : Nat) :
    ∃ x : Eddy, (s.eddyTrigger e src).eng = upd s.eng e fun g => { g with eddy := x } := by
  obtain h | ⟨x, data, h⟩ := s.eddyTrigger_cases e src
  · exact ⟨s.eng[e].eddy, by rw [h]; exact (upd_eq_self rfl).symm⟩
  · exact ⟨x, by rw [h, State.raise_eng]; rfl⟩

variable {s e}

theorem Stored.eddyTrigger {t : State} {code : BitVec 16} {cls : BitVec 2} {data : W32} (h : Stored s t code cls data)
    (hlen : t.hp.events.length < 256) (hf0 : t.flag R.HP_EVT_CFG_F0_EN = true) (src : Nat) :
    Stored s (t.eddyTrigger e src) code cls data := by
  obtain he | ⟨x, data', he⟩ := t.eddyTrigger_cases e src <;> rw [he]
  · exact h
  · exact Stored.raise (t := t.modEng e _) h hlen hf0 _ _

/-- What an exception of an engine that is not deposed does to the engine. -/
theorem State.engExc_eng (hrole : s.eng[e].role ≠ .deposed) (c : ExcCode) (pc imm : Nat) :
    ∃ x : Eddy, (s.engExc e c pc imm).eng = upd s.eng e fun y =>
      { y with running := false, exc := c.code, excPc := BitVec.ofNat 11 (pc / 4), eddy := x } := by
  simp only [engExc, if_neg hrole]
  obtain ⟨x, h⟩ := State.eddyTrigger_eng ((s.modEng e fun y =>
    { y with running := false, exc := c.code, excPc := BitVec.ofNat 11 (pc / 4) }).raise (spireCode (spireOfEng e) 0x62) 0
      (BitVec.ofNat 32 (s.eng[e].evtChan e + c.code.toNat * 256 + imm * 65536))) e 2
  exact ⟨x, by rw [h, raise_eng, modEng_eng, upd_upd]⟩

/-- R159: an exception of an engine that is not deposed. -/
theorem State.engExc_excepted (hrole : s.eng[e].role ≠ .deposed) (c : ExcCode) (imm : Nat) :
    Excepted s (s.engExc e c s.eng[e].pc imm) e c.code imm := by
  obtain ⟨x, heng⟩ := State.engExc_eng hrole c s.eng[e].pc imm
  have hsame := congrArg (·[e]) heng
  rw [upd_same] at hsame
  have hrest : s.engExc e c s.eng[e].pc imm = ((s.modEng e fun y =>
      { y with running := false, exc := c.code, excPc := BitVec.ofNat 11 (s.eng[e].pc / 4) }).raise (spireCode (spireOfEng e) 0x62) 0
        (BitVec.ofNat 32 (s.eng[e].evtChan e + c.code.toNat * 256 + imm * 65536))).eddyTrigger e 2 := by
    simp only [engExc, if_neg hrole]
  refine ⟨?_, ?_, ?_, ?_, ?_, ?_, ?_, ?_, fun k hk => ?_, ?_, ?_, fun hr => ?_⟩
  iterate 8 rw [hsame]
  · exact (congrArg (·[k]) heng).trans (upd_other _ _ _ _ hk)
  · rw [hrest, eddyTrigger_chan, raise_chan, modEng_chan]
  · rw [hrest, eddyTrigger_units, raise_units, modEng_units]
  · rw [hrest]
    have hspace := hr.space
    generalize hu : (s.modEng e fun y =>
      { y with running := false, exc := c.code, excPc := BitVec.ofNat 11 (s.eng[e].pc / 4) }) = u
    have htick : u.tick.now = s.tick.now := by rw [← hu]; rfl
    have hev : u.hp.events = s.hp.events := by rw [← hu]; rfl
    have hf0 : u.flag R.HP_EVT_CFG_F0_EN = s.flag R.HP_EVT_CFG_F0_EN := by rw [← hu]; rfl
    refine (stored_raise hr htick hev hf0 _ _).eddyTrigger ?_ ?_ _
    · rw [raise_events _ _ _ _ (by rw [hev]; omega) (.inr (hf0.trans hr.f0)), List.length_append, hev]
      exact Nat.lt_of_lt_of_le (Nat.add_lt_add_left (by decide : 1 < 2) _) (by omega)
    · rw [raise_flag _ _ _ _ _ (by decide), hf0]
      exact hr.f0

/-- An instruction of the common frame whose own effect is an exception. -/
theorem runInsn_stops {reads : List GReg} {cyc cycTaken : Nat} {f : Engine → EngRes} {c : ExcCode} {r : Res}
    (hr : r = runInsn e reads cyc cycTaken f s) (hi : s.canIssue e = true) (hrole : s.eng[e].role ≠ .deposed)
    (hf : f s.eng[e] = .exc c) : ∃ t, r = .next t ∧ Excepted s t e c.code 0 :=
  ⟨_, hr.trans (runInsn_exc s e reads cyc cycTaken f c hi hf), State.engExc_excepted hrole c 0⟩

end Exceptions

/-! ### The causes -/

theorem dataAddr_align {x : Engine} {a : GReg} {imm : BitVec 16} {size : Nat} (h : (x.getG a + sext16 imm).toNat % size ≠ 0) :
    dataAddr x a imm size = .error .align := if_pos h

theorem dataAddr_range {x : Engine} {a : GReg} {imm : BitVec 16} {size : Nat} (h : (x.getG a + sext16 imm).toNat % size = 0)
    (hr : 0x1FFF < (x.getG a + sext16 imm).toNat) : dataAddr x a imm size = .error .range :=
  (if_neg (not_not.2 h)).trans (if_pos hr)

section Causes

variable {s : State} {e : Eng} (hi : s.canIssue e = true) (hrole : s.eng[e].role ≠ .deposed)
include hi hrole

theorem loadInsn_stops {d a : GReg} {imm : BitVec 16} {size : Nat} {ext : Nat → W32} {c : ExcCode} {r : Res}
    (hr : r = loadInsn e d a imm size ext s) (hl : s.eng[e].lock = none) (hd : dataAddr s.eng[e] a imm size = .error c) :
    ∃ t, r = .next t ∧ Excepted s t e c.code 0 :=
  runInsn_stops hr hi hrole (by simp only [Engine.mayWrite, hl, hd, if_true])

theorem storeInsn_stops {d a : GReg} {imm : BitVec 16} {size : Nat} {c : ExcCode} {r : Res}
    (hr : r = storeInsn e d a imm size s) (hl : s.eng[e].lock = none) (hd : dataAddr s.eng[e] a imm size = .error c) :
    ∃ t, r = .next t ∧ Excepted s t e c.code 0 :=
  runInsn_stops hr hi hrole (by simp only [hl, hd, Option.isSome_none, Bool.false_eq_true, if_false])

theorem aluInsn_locked {d : GReg} {reads : List GReg} {cyc : Nat} {f : Engine → W32 × BitVec 5} {r : Res}
    (hr : r = aluInsn e d reads cyc f s) (hm : s.eng[e].mayWrite d = false) : ∃ t, r = .next t ∧ Excepted s t e 6 0 :=
  runInsn_stops (c := .lock) hr hi hrole (if_neg (by rw [hm]; decide))

theorem loadInsn_locked {d a : GReg} {imm : BitVec 16} {size : Nat} {ext : Nat → W32} {r : Res}
    (hr : r = loadInsn e d a imm size ext s) (hm : s.eng[e].mayWrite d = false) : ∃ t, r = .next t ∧ Excepted s t e 6 0 :=
  runInsn_stops (c := .lock) hr hi hrole (if_neg (by rw [hm]; decide))

theorem accInsn_locked {reads : List GReg} {f : Engine → W64 × BitVec 5} {r : Res} (hr : r = accInsn e reads f s)
    (hl : s.eng[e].lock.isSome = true) : ∃ t, r = .next t ∧ Excepted s t e 6 0 :=
  runInsn_stops (c := .lock) hr hi hrole (if_pos hl)

theorem storeInsn_locked {d a : GReg} {imm : BitVec 16} {size : Nat} {r : Res} (hr : r = storeInsn e d a imm size s)
    (hl : s.eng[e].lock.isSome = true) : ∃ t, r = .next t ∧ Excepted s t e 6 0 :=
  runInsn_stops (c := .lock) hr hi hrole (if_pos hl)

/-- A jump outside the code. -/
theorem execJr_stops {a : GReg} (h : (s.r e a).toNat % 4 ≠ 0 ∨ s.eng[e].codeLen ≤ (s.r e a).toNat) :
    ∃ t, execJr e a s = .next t ∧ Excepted s t e 2 0 := by
  have hout : ((s.r e a).toNat % 4 = 0 && (s.r e a).toNat < s.eng[e].codeLen) = false := by
    simp only [Bool.and_eq_false_iff, decide_eq_false_iff_not]
    omega
  refine ⟨_, ?_, State.engExc_excepted hrole .pc 0⟩
  simp only [execJr, runInsn, hi, if_true, hout, Bool.false_eq_true, if_false]

omit hi in
/-- Instructions with effects outside the engine, whose own frame raises the exception. -/
theorem engExc_stops {i : Instr} {c : ExcCode} {n : Nat} (h : exec i s = .next (s.engExc e c s.eng[e].pc n)) :
    ∃ t, exec i s = .next t ∧ Excepted s t e c.code n := ⟨_, h, State.engExc_excepted hrole c n⟩

end Causes

/-- Settles O6: every cause reaches `State.engExc` with its code, of which `State.engExc_excepted` says what it leaves. -/
theorem exceptionsStopTheEngine : Obligations.ExceptionsStopTheEngine := by
  intro s e d a b imm port hi hrole
  refine ⟨fun w hw => ?illegal, fun hw => ?watchdog, fun hl => ?unlocked, fun l hl => ?locked⟩
  case illegal => exact runInsn_stops ((exec_illegalInstruction ..).trans (if_neg (by simp [hw]))) hi hrole rfl
  case watchdog => exact engExc_stops hrole (c := .watchdog) (if_pos (by simp [hi, hw, -Fin.getElem_fin]))
  case unlocked =>
    refine ⟨engExc_stops hrole (c := .trap) (by simp [execTrap, hi, hl, -Fin.getElem_fin]), fun had => ⟨?_, ?_⟩, fun had => ⟨?_, ?_, ?_⟩,
      fun had => ⟨?_, ?_, ?_⟩, fun hout => execJr_stops hi hrole hout, fun hp => ⟨?_, ?_⟩, fun hpair => ?_⟩
    · exact loadInsn_stops hi hrole (exec_lw ..) hl (dataAddr_align had)
    · exact storeInsn_stops hi hrole (exec_sw ..) hl (dataAddr_align had)
    · exact loadInsn_stops hi hrole (exec_lh ..) hl (dataAddr_align had)
    · exact loadInsn_stops hi hrole (exec_lhu ..) hl (dataAddr_align had)
    · exact storeInsn_stops hi hrole (exec_sh ..) hl (dataAddr_align had)
    · exact loadInsn_stops hi hrole (exec_lb ..) hl (dataAddr_range (Nat.mod_one _) had)
    · exact loadInsn_stops hi hrole (exec_lbu ..) hl (dataAddr_range (Nat.mod_one _) had)
    · exact storeInsn_stops hi hrole (exec_sb ..) hl (dataAddr_range (Nat.mod_one _) had)
    · exact engExc_stops hrole (c := .port) (by simp [execPortIn, inInsn, hi, Engine.mayWrite, hl, hp, -Fin.getElem_fin])
    · exact engExc_stops hrole (c := .port) (by simp [execPortOut, outInsn, hi, hl, hp, -Fin.getElem_fin])
    · exact engExc_stops hrole (c := .illegal) (by simp [execLock, hi, or_assoc, hpair, -Fin.getElem_fin])
  case locked =>
    have hopen : s.eng[e].lock.isSome = true := by rw [hl]; rfl
    refine ⟨fun hd0 hga hgb => ?_, ?_, ?_, ?_, ?_, ?_, ?_, ?_, ?_, fun hab ha hb => ?_⟩
    · have hm : s.eng[e].mayWrite d = false := by simp [Engine.mayWrite, hl, hd0, hga, hgb, -Fin.getElem_fin]
      refine ⟨?_, ?_, ?_, ?_⟩
      · exact aluInsn_locked hi hrole (exec_add ..) hm
      · exact aluInsn_locked hi hrole (exec_lui ..) hm
      · exact loadInsn_locked hi hrole (exec_lw ..) hm
      · exact engExc_stops hrole (c := .lock) (by simp [execPortIn, inInsn, hi, hm, -Fin.getElem_fin])
    · exact accInsn_locked hi hrole (exec_mac ..) hopen
    · exact accInsn_locked hi hrole (exec_mta ..) hopen
    · exact storeInsn_locked hi hrole (exec_sw ..) hopen
    · exact engExc_stops hrole (c := .lock) (by simp [execOutDuty, outInsn, hi, hopen, -Fin.getElem_fin])
    · exact engExc_stops hrole (c := .lock) (by simp [execPortOut, outInsn, hi, hopen, -Fin.getElem_fin])
    · exact engExc_stops hrole (c := .lock) (by simp [execWait, hi, hopen, -Fin.getElem_fin])
    · exact engExc_stops hrole (c := .lock) (by simp [execCkpt, hi, hopen, -Fin.getElem_fin])
    · exact engExc_stops hrole (c := .lock) (by simp [execTrap, hi, hopen, -Fin.getElem_fin])
    · exact engExc_stops hrole (c := .lock) (by simp [execLock, hi, hopen, hab, ha, hb, -Fin.getElem_fin])

end Sys2Proof.Machine
end

section
/-! PROOFS. Ports of an engine (R144, R145, R152, R154, Table 06.4): what IN returns and removes, what OUT to the ports that are no duties
does, and the two statements. -/

namespace Sys2Proof.Machine

/-! ### The end of an instruction with effects outside the engine -/

section Retire

variable {s t : State} {e : Eng}

theorem State.canIssue_running (h : s.canIssue e = true) : s.eng[e].running = true := by
  simp only [canIssue, Bool.and_eq_true] at h
  exact h.1.1.1.2

/-- The state after an instruction's own effect `t`, where the engine still runs inside its code. -/
theorem State.retireInsn_inside (hrun : t.eng[e].running = true) (hin : t.eng[e].pc + 4 < t.eng[e].codeLen) (reads : List GReg)
    (cyc : Nat) : t.retireInsn e reads cyc = t.fell e t.eng[e] reads cyc none := by
  rw [retireInsn, if_pos hrun, seqPc_inside, modEng_modEng]
  · unfold State.fell State.modEng upd Engine.charge
    rfl
  · rw [modEng_eng_same]
    exact hin

end Retire

theorem Engine.orFlags_zero (x : Engine) : x.orFlags 0 = x := by simp [orFlags]

/-! ### Ports -/

theorem portInfo_prm {k : Nat} (h : k < 64) : portInfo (0x040 + k) = some { r := true, cyc := 4 } := by
  interval_cases k <;> rfl

section Reads

variable {s : State} {e : Eng} {d : GReg} {c : Ch}

/-- IN from a port that removes nothing computes d, TICK_L apart. -/
theorem inInsn_computed {port cyc : Nat} {w : Bool} {v : W32} {r : Res} (hr : r = inInsn e d port s) (h : s.Free e)
    (hp : portInfo port = some { r := true, w := w, cyc := cyc }) (h4 : port ≠ 4) (hv : s.portRead e port = v) :
    ∃ t, r = .next t ∧ Computed s t e [] cyc d v 0 s.eng[e].acc := by
  have hm : s.eng[e].mayWrite d = true := by simp only [Engine.mayWrite, h.unlocked]
  have halu : inInsn e d port s = aluInsn e d [] cyc (fun _ => (v, 0)) s := by
    have hin : (s.eng[e].setG d v).pc + 4 < (s.eng[e].setG d v).codeLen := by simpa using h.inside
    have hrun : (s.eng[e].setG d v).running = true := (Engine.setG_running ..).trans (State.canIssue_running h.issue)
    have hseq : (if s.eng[e].mayWrite d then EngRes.seq ((s.eng[e].setG d v).orFlags 0) none else .exc .lock) =
        .seq (s.eng[e].setG d v) none := by
      rw [if_pos hm, Engine.orFlags_zero]
    rw [aluInsn, runInsn_fell s e [] cyc cyc _ (s.eng[e].setG d v) none h.issue hseq hin (by simp)]
    simp only [inInsn, h.issue, hm, hp, hv, h4, if_true, if_false, Bool.not_true, Bool.false_eq_true, Bool.false_and]
    rw [State.retireInsn_inside (by rw [State.modEng_eng_same]; exact hrun) (by rw [State.modEng_eng_same]; exact hin),
      State.modEng_eng_same, State.fell, State.modEng_modEng, State.fell]
    unfold Engine.charge State.modEng upd
    simp only [Engine.setG_wdog, Engine.setG_lastLoad, Engine.setG_pc]
  rw [hr, halu]
  exact aluInsn_computed s e d [] cyc _ h v 0 rfl

/-- A port of the channel that the engine serves. -/
theorem State.portRead_chan (hc : s.serves e = some c) {port : Nat} (h : 5 < port) : s.portRead e port = s.chanPort e c port := by
  unfold portRead
  dsimp only
  split
  case h_7 => rw [hc]
  all_goals omega

theorem State.chanPort_prm {k : Nat} (h : k < 64) : s.chanPort e c (0x040 + k) = (s.ch c).prm.getD k 0 := by
  unfold chanPort
  dsimp only
  split
  case h_22 => rw [if_pos (by omega), Nat.add_sub_cancel_left]
  all_goals omega

/-- IN from TICK_L gives the low half of the tick base and latches the high half (Table 06.4). -/
theorem execInTickL_reads (h : s.Free e) :
    ∃ t, execInTickL e d s = .next t ∧ (d ≠ 0 → t.eng[e].getG d = s.tick.now.extractLsb' 0 32) ∧
      t.eng[e].tickH = s.tick.now.extractLsb' 32 32 ∧ t.eng[e].pc = s.eng[e].pc + 4 ∧ OnlyEng s t e := by
  have hm : s.eng[e].mayWrite d = true := by simp only [Engine.mayWrite, h.unlocked]
  have htick : (s.lockView e 0 0).tick = s.tick.now := by simp only [State.lockView, h.unlocked]
  have hread : s.portRead e 4 = s.tick.now.extractLsb' 0 32 := congrArg (fun x : W64 => x.extractLsb' 0 32) htick
  let y : Engine := { s.eng[e] with tickH := s.tick.now.extractLsb' 32 32 }
  let u : State := s.modEng e fun _ => y.setG d (s.tick.now.extractLsb' 0 32)
  have hu : u.eng[e] = y.setG d (s.tick.now.extractLsb' 0 32) := State.modEng_eng_same ..
  have hexec : execInTickL e d s = .next (u.retireInsn e [] 2) := by
    have hinfo : portInfo 4 = some { r := true, cyc := 2 } := rfl
    simp only [execInTickL, inInsn, h.issue, hm, hinfo, hread, htick, if_true, Bool.not_true, Bool.false_eq_true, if_false,
      Bool.false_and, State.modEng_modEng]
    rfl
  rw [hexec, State.retireInsn_inside (by rw [hu, Engine.setG_running]; exact State.canIssue_running h.issue)
    (by rw [hu, Engine.setG_pc, Engine.setG_codeLen]; exact h.inside)]
  refine ⟨_, rfl, fun hd => ?_, ?_, ?_, ?_⟩
  · rw [State.fell_eng, hu]
    exact (Engine.getG_setG ..).trans (by simp [hd])
  · rw [State.fell_eng, hu]
    exact Engine.setG_tickH ..
  · rw [State.fell_pc, hu]
    exact congrArg (· + 4) (Engine.setG_pc ..)
  · rw [State.fell, State.modEng_modEng]
    exact modEng_onlyEng ..

end Reads

/-! ### Pops (R145) -/

section Pops

variable {s : State} {e : Eng} {d : GReg} {c : Ch}

theorem State.progFeed_other {t : State} (h : t.stdProg e = none) (port : Nat) (w : W32) : t.progFeed e port w = t := by
  unfold progFeed
  rw [h]
  split <;> simp_all

/-- Nothing but the FIFOs of a channel is touched by a pop. -/
theorem State.stdProg_pop {g : Chan} (hslot : g.slot = (s.ch c).slot) : (s.modCh c fun _ => g).stdProg e = s.stdProg e := by
  have hserves : (s.modCh c fun _ => g).serves e = s.serves e := rfl
  unfold stdProg
  rw [hserves]
  cases s.serves e with
  | none => rfl
  | some k =>
    have hk : ((s.modCh c fun _ => g).ch k).slot = (s.ch k).slot := by
      by_cases hck : k = c
      · subst hck
        exact (congrArg Chan.slot (upd_same s.chan k fun _ => g)).trans hslot
      · exact congrArg Chan.slot (upd_other s.chan c k (fun _ => g) hck)
    dsimp only
    rw [hk]

/-- The end of a pop: the value in d, EMPTY as found, and the channels as the FIFO left them. -/
theorem inInsn_pops {port : Nat} {w : W32} {t : State} {b : Bool} (h : s.Free e) (hd : d ≠ 0)
    (hp : portInfo port = some { r := true, p := true, cyc := 2 }) (h4 : port ≠ 4) (heng : t.eng = s.eng)
    (hpop : s.portPop e port = (w, t.modEng e fun x => { x with flags := x.flags &&& 0x17 ||| if b then 8 else 0 })) :
    ∃ u, inInsn e d port s = .next u ∧ u.eng[e].getG d = w ∧ u.chan = t.chan ∧
      u.eng[e].flags = (s.eng[e].flags &&& 0x17 ||| if b then 8 else 0) ∧ u.eng[e].pc = s.eng[e].pc + 4 := by
  have hm : s.eng[e].mayWrite d = true := by simp only [Engine.mayWrite, h.unlocked]
  let y : Engine := { s.eng[e] with flags := s.eng[e].flags &&& 0x17 ||| if b then 8 else 0 }
  let v : State := t.modEng e fun _ => y.setG d w
  have hv : v.eng[e] = y.setG d w := State.modEng_eng_same ..
  have hexec : inInsn e d port s = .next (v.retireInsn e [] 2) := by
    have hmod : (t.modEng e fun x => { x with flags := x.flags &&& 0x17 ||| if b then 8 else 0 }).modEng e (fun x => x.setG d w) = v := by
      rw [State.modEng_modEng]
      simp only [State.modEng, upd, heng, v, y]
    simp only [inInsn, h.issue, hm, hp, hpop, h4, h.unlocked, if_true, Bool.not_true, Bool.false_eq_true, if_false,
      Option.isSome_none, Bool.and_false, hmod]
  rw [hexec, State.retireInsn_inside (by rw [hv, Engine.setG_running]; exact State.canIssue_running h.issue)
    (by rw [hv, Engine.setG_pc, Engine.setG_codeLen]; exact h.inside)]
  refine ⟨_, rfl, ?_, rfl, ?_, ?_⟩
  · rw [State.fell_eng, hv]
    exact (Engine.getG_setG ..).trans (by simp [hd])
  · rw [State.fell_eng, hv]
    exact Engine.setG_flags ..
  · rw [State.fell_pc, hv]
    exact congrArg (· + 4) (Engine.setG_pc ..)

theorem State.portPop_some {port : Nat} {w : W32} {g : Chan} (hc : s.serves e = some c) (hstd : s.stdProg e = none)
    (hg : (s.ch c).pop port = some (w, g)) (hslot : g.slot = (s.ch c).slot) :
    s.portPop e port = (w, (s.modCh c fun _ => g).modEng e fun x => { x with flags := x.flags &&& 0x17 ||| if false then 8 else 0 }) := by
  simp only [portPop, hc, hg]
  rw [progFeed_other ((stdProg_pop hslot).trans hstd)]

theorem State.portPop_none {port : Nat} (hc : s.serves e = some c) (hg : (s.ch c).pop port = none) :
    s.portPop e port = (0, s.modEng e fun x => { x with flags := x.flags &&& 0x17 ||| if true then 8 else 0 }) := by
  simp only [portPop, hc, hg]

/-- A P read of a FIFO `l`, which `set` puts back without its oldest entry. -/
theorem execInPop_pops {port : Nat} {l : List W32} {set : List W32 → Chan} (h : s.Free e) (hc : s.serves e = some c)
    (hstd : s.stdProg e = none) (hd : d ≠ 0) (hp : portInfo port = some { r := true, p := true, cyc := 2 }) (h4 : port ≠ 4)
    (hpop : (s.ch c).pop port = match l with | w :: rest => some (w, set rest) | [] => none)
    (hslot : ∀ rest, (set rest).slot = (s.ch c).slot) :
    (∀ w rest, l = w :: rest →
      ∃ t, inInsn e d port s = .next t ∧ t.eng[e].getG d = w ∧ t.ch c = set rest ∧
        t.eng[e].flags = s.eng[e].flags &&& 0x17 ∧ t.eng[e].pc = s.eng[e].pc + 4 ∧ (∀ k, k ≠ c → t.ch k = s.ch k)) ∧
    (l = [] →
      ∃ t, inInsn e d port s = .next t ∧ t.eng[e].getG d = 0 ∧ t.chan = s.chan ∧
        t.eng[e].flags = (s.eng[e].flags &&& 0x17) ||| 8 ∧ t.eng[e].pc = s.eng[e].pc + 4) := by
  refine ⟨fun w rest hl => ?_, fun hl => ?_⟩
  · subst hl
    obtain ⟨t, ht, hg, hch, hf, hpc⟩ :=
      inInsn_pops h hd hp h4 (t := s.modCh c fun _ => set rest) rfl (State.portPop_some hc hstd hpop (hslot rest))
    refine ⟨t, ht, hg, ?_, by rw [hf]; simp, hpc, fun k hk => ?_⟩
    · rw [State.ch, hch]
      exact upd_same ..
    · rw [State.ch, hch]
      exact upd_other _ _ _ _ hk
  · subst hl
    obtain ⟨t, ht, hg, hch, hf, hpc⟩ := inInsn_pops h hd hp h4 rfl (State.portPop_none hc hpop)
    exact ⟨t, ht, hg, hch, hf, hpc⟩

end Pops

/-- Settles O7: a port that removes nothing is read as an instruction computes (`inInsn_computed`), TICK_L latches
(`execInTickL_reads`), and a P read takes the head of its FIFO (`execInPop_pops`). -/
theorem portReadsAndPops : Obligations.PortReadsAndPops := by
  refine ⟨fun s e d c h hc => ?_, fun s e d c h hc hstd hd => ?_⟩
  · have chan {port : BitVec 16} {cyc : Nat} {v : W32} (hport : 5 < port.toNat)
        (hp : portInfo port.toNat = some { r := true, cyc := cyc }) (hv : s.chanPort e c port.toNat = v) :
        ∃ t, exec (.portIn e d port) s = .next t ∧ Computed s t e [] cyc d v 0 s.eng[e].acc :=
      inInsn_computed (exec_portIn ..) h hp (by omega) ((State.portRead_chan hc hport).trans hv)
    refine ⟨inInsn_computed (exec_portIn ..) h rfl (by decide) rfl, inInsn_computed (exec_portIn ..) h rfl (by decide) ?_,
      inInsn_computed (exec_portIn ..) h rfl (by decide) rfl, inInsn_computed (exec_portIn ..) h rfl (by decide) ?_,
      inInsn_computed (exec_portIn ..) h rfl (by decide) ?_,
      chan (by decide) rfl rfl, chan (by decide) rfl rfl, chan (by decide) rfl rfl, chan (by decide) rfl rfl,
      chan (by decide) rfl rfl, chan (by decide) rfl rfl, chan (by decide) rfl rfl, chan (by decide) rfl rfl,
      chan (by decide) rfl rfl, chan (by decide) rfl rfl, chan (by decide) rfl rfl, chan (by decide) rfl rfl,
      chan (by decide) rfl rfl, fun k hk => ?_, chan (by decide) rfl rfl, execInTickL_reads h⟩
    · simp only [State.portRead, hc]
      rfl
    · cases hrole : s.eng[e].role <;> simp only [State.portRead, hrole] <;> rfl
    · simp only [State.portRead, h.unlocked]
      rfl
    · have hport : (BitVec.ofNat 16 (0x040 + k)).toNat = 0x040 + k := by
        rw [BitVec.toNat_ofNat]; omega
      exact chan (by omega) (by rw [hport]; exact portInfo_prm hk) (by rw [hport]; exact State.chanPort_prm hk)
  · exact ⟨
      execInPop_pops (port := 0x020) (l := (s.ch c).istrm) (set := fun r => { s.ch c with istrm := r }) h hc hstd hd rfl
        (by decide) rfl fun _ => rfl,
      execInPop_pops (port := 0x022) (l := (s.ch c).vstrm) (set := fun r => { s.ch c with vstrm := r }) h hc hstd hd rfl
        (by decide) rfl fun _ => rfl,
      execInPop_pops (port := 0x024) (l := (s.ch c).snse) (set := fun r => { s.ch c with snse := r }) h hc hstd hd rfl
        (by decide) rfl fun _ => rfl⟩

end Sys2Proof.Machine
end

section
/-! PROOFS. OUT to the ports that are no duties (R144, R146, R152, R154, Table 06.4), and the statement. -/

namespace Sys2Proof.Machine

section Out

variable {s : State} {e : Eng} {a : GReg} {c : Ch}

theorem State.fell_reg {y : Engine} {reads : List GReg} {cyc : Nat} {ld : Option GReg} (k : Nat) :
    (s.fell e y reads cyc ld).reg k = s.reg k := rfl

theorem State.fell_flag {y : Engine} {reads : List GReg} {cyc : Nat} {ld : Option GReg} (f : Fld) :
    (s.fell e y reads cyc ld).flag f = s.flag f := rfl

/-- OUT to a writable port outside a locked sequence: its effect, and the end of the instruction. -/
theorem outInsn_eq {port cyc : Nat} {r : Bool} (f : W32 → State → State) (h : s.Free e)
    (hp : portInfo port = some { r := r, w := true, cyc := cyc }) :
    outInsn e a port f s = .next ((f (s.r e a) s).retireInsn e [a] cyc) := by
  simp only [outInsn, h.issue, h.unlocked, hp, if_true, Option.isSome_none, Bool.false_eq_true, if_false]

/-- The end of an OUT whose effect has left the engine `y`, running inside its code. -/
theorem outInsn_ends {port cyc : Nat} {r : Bool} {f : W32 → State → State} {u : State} (h : s.Free e)
    (hp : portInfo port = some { r := r, w := true, cyc := cyc }) (hf : f (s.r e a) s = u)
    (hrun : u.eng[e].running = s.eng[e].running) (hpc : u.eng[e].pc = s.eng[e].pc) (hlen : u.eng[e].codeLen = s.eng[e].codeLen) :
    outInsn e a port f s = .next (u.fell e u.eng[e] [a] cyc none) := by
  rw [outInsn_eq f h hp, hf, State.retireInsn_inside (hrun.trans (State.canIssue_running h.issue))]
  rw [hpc, hlen]
  exact h.inside

/-- The engine after an OUT that changes the engine alone. -/
theorem outInsn_engine {port cyc : Nat} {r : Bool} {f : W32 → State → State} {g : Engine → Engine} (h : s.Free e)
    (hp : portInfo port = some { r := r, w := true, cyc := cyc }) (hf : f (s.r e a) s = s.modEng e g)
    (hrun : (g s.eng[e]).running = s.eng[e].running) (hpc : (g s.eng[e]).pc = s.eng[e].pc)
    (hlen : (g s.eng[e]).codeLen = s.eng[e].codeLen) :
    ∃ t, outInsn e a port f s = .next t ∧ OnlyEng s t e ∧
      t.eng[e] = { s.eng[e].charge (g s.eng[e]) [a] cyc none with
        pc := s.eng[e].pc + 4, wdog := (g s.eng[e]).wdog + (g s.eng[e]).cyclesOf [a] cyc } := by
  have heng := State.modEng_eng_same s e g
  refine ⟨_, outInsn_ends h hp hf (by rw [heng, hrun]) (by rw [heng, hpc]) (by rw [heng, hlen]), ?_, ?_⟩
  · rw [State.fell, State.modEng_modEng]
    exact modEng_onlyEng ..
  · rw [State.fell_eng, heng, hpc]
    have hcharge := Engine.charge_wdog (g s.eng[e]) (g s.eng[e]) [a] cyc none
    rw [← hcharge]
    rfl

/-- An engine whose OUT the fence has passed. -/
def Engine.passed (x : Engine) : Engine := { x with flags := x.flags &&& 0x1B }

/-- The fence passes an OUT of an engine that serves the channel with its present epoch (R146). -/
theorem State.fence_serving (h : s.Serving e c) : s.fence e = (s.modEng e Engine.passed, some c) := by
  have hflags (x : Engine) : ({ x with flags := x.flags &&& 0x1B ||| if false then 4 else 0 } : Engine) = x.passed := by
    simp [Engine.passed]
  simp only [fence, h.serves, h.epoch, if_true, hflags]

/-- Which channel an engine serves depends on its channel and its role. -/
theorem State.serves_modEng {f : Engine → Engine} (hchan : (f s.eng[e]).chan = s.eng[e].chan)
    (hrole : (f s.eng[e]).role = s.eng[e].role) : (s.modEng e f).serves e = s.serves e := by
  unfold serves
  rw [modEng_eng_same, hchan, hrole]
  rfl

theorem State.Serving.modEng {f : Engine → Engine} (h : s.Serving e c) (hchan : (f s.eng[e]).chan = s.eng[e].chan)
    (hrole : (f s.eng[e]).role = s.eng[e].role) (hepoch : (f s.eng[e]).epoch = s.eng[e].epoch) : (s.modEng e f).Serving e c :=
  ⟨(serves_modEng hchan hrole).trans h.serves, by rw [modEng_eng_same, hepoch]; exact h.epoch⟩

theorem State.dueWord_own (h : s.stdProg e = none) (v : W32) (due : Prog → Option W32) : s.dueWord e v due = v := by
  simp only [dueWord, h, Option.isSome_none, Bool.false_eq_true, if_false]

theorem State.weirLat_serving (h : s.Serving e c) (v : Nat) : s.weirLat e v =
    ((s.modEng e Engine.passed).setReg (R.CH_BND_LAT c) (BitVec.ofNat 32 (min v 40000000))).putFlag
      (R.CH_ENG_STAT_LAT_ENGINE c) true := by
  rw [weirLat, fence_serving h]

/-- A sample period is not judged by the carrier period while the stage is not enabled (R106). -/
theorem State.weirSmpPer_serving (h : s.Serving e c) (hoff : s.flag (R.CH_STAGE_CFG_ENABLE c) = false) (v : W32) :
    s.weirSmpPer e v = (s.modEng e Engine.passed).modUnit (smpUnit c) fun y =>
      { y with period := BitVec.ofNat 32 (clampN 1000 200000 v.toNat) } := by
  rw [weirSmpPer, fence_serving h]
  exact if_neg (by rw [modEng_flag, hoff]; simp)

theorem R.CH_BND_LAT_ne (c : Ch) : R.CH_BND_LAT c ≠ (R.CH_ENG_STAT_LAT_ENGINE c).addr := by
  simp only [R.CH_BND_LAT, R.CH_ENG_STAT_LAT_ENGINE, R.CH_ENG_STAT]
  omega

/-! ### TRACE_END -/

/-- Of the engines, nothing but the Eddy buffer of engine `e` differs. -/
def OnlyEddy (s t : State) (e : Eng) : Prop := ∃ x : Eddy, t.eng = upd s.eng e fun g => { g with eddy := x }

theorem OnlyEddy.refl (s : State) (e : Eng) : OnlyEddy s s e := ⟨s.eng[e].eddy, (upd_eq_self rfl).symm⟩

theorem OnlyEddy.modEng {t : State} (h : OnlyEddy s t e) (f : Engine → Eddy) :
    OnlyEddy s (t.modEng e fun g => { g with eddy := f g }) e := by
  obtain ⟨x, hx⟩ := h
  refine ⟨f t.eng[e], ?_⟩
  rw [State.modEng_eng, hx, upd_upd]
  simp [upd]

/-- A record stored or dropped changes the buffer of its engine alone (R302). -/
theorem State.eddyStore_onlyEddy (r : EddyRec) : OnlyEddy s (s.eddyStore e r) e := by
  have htrig : OnlyEddy s (if s.eng[e].eddy.trig = 3 && (r.words.headD 0).toNat % 256 = s.eng[e].eddy.kind then s.eddyTrigger e 3
      else s) e := by
    split
    · exact s.eddyTrigger_eng e 3
    · exact OnlyEddy.refl s e
  unfold eddyStore
  dsimp only
  generalize (if s.eng[e].eddy.trig = 3 && (r.words.headD 0).toNat % 256 = s.eng[e].eddy.kind then s.eddyTrigger e 3 else s) = t
    at htrig ⊢
  split
  · exact htrig.modEng fun g => { g.eddy with dropped := min 65535 (g.eddy.dropped + 1) }
  · split
    · exact htrig.modEng fun g => g.eddy.push r
    · exact htrig.modEng fun g => g.eddy.push r

theorem State.eddyStore_chan (r : EddyRec) : (s.eddyStore e r).chan = s.chan := by
  have htrig : (if s.eng[e].eddy.trig = 3 && (r.words.headD 0).toNat % 256 = s.eng[e].eddy.kind then s.eddyTrigger e 3
      else s).chan = s.chan := by
    split
    · exact State.eddyTrigger_chan ..
    · rfl
  unfold eddyStore
  dsimp only
  rw [← htrig]
  repeat' split
  all_goals rfl

/-- A buffer with room that nothing holds takes the record last. -/
theorem State.eddyStore_room (r : EddyRec) (hroom : s.eng[e].eddy.recs.length < 128) (hcopy : s.eng[e].eddy.copying = false)
    (hhold : s.eng[e].eddy.holding = false) (htrig : s.eng[e].eddy.trig ≠ 3) :
    (s.eddyStore e r).eng[e].eddy.recs = s.eng[e].eddy.recs ++ [r] := by
  have hpush : (s.eng[e].eddy.push r).recs = s.eng[e].eddy.recs ++ [r] := by
    simp only [Eddy.push, Nat.not_le.2 hroom, if_false]
  unfold eddyStore
  simp only [htrig, hcopy, hhold, Nat.not_le.2 hroom, decide_false, Bool.false_and, Bool.and_false, Bool.or_false, Bool.false_eq_true,
    if_false]
  split
  · exact (congrArg (fun x : Engine => x.eddy.recs) (modEng_eng_same ..)).trans hpush
  · exact (congrArg (fun x : Engine => x.eddy.recs) (modEng_eng_same ..)).trans hpush

end Out

/-- Settles O8: the OUT of each port is `outInsn` of its effect; the fence passes that of a serving engine (`State.fence_serving`). -/
theorem portWritesSetThePort : Obligations.PortWritesSetThePort := by
  intro s e a c h hserv hstd A x p
  have hout := outInsn_eq (a := a) (port := 0) (fun v s => s.outFlagsOp e v) h rfl
  have hduty := outInsn_eq (a := a) (port := 0x030) (fun v s => s.outDutyOp e v) h rfl
  refine ⟨?flags, ?tmr, ?trace, ?traceEnd, ?lat, fun hoff => ?smp, ⟨_, hout, hout⟩, ⟨_, hduty, hduty⟩⟩
  case flags =>
    obtain ⟨t, ht, honly, heng⟩ := outInsn_engine (a := a) (port := 0) (f := fun v s => s.outFlagsOp e v) h rfl rfl rfl rfl rfl
    exact ⟨t, ht, honly, by rw [heng]; rfl, by rw [heng]; rfl, by rw [heng]⟩
  case tmr =>
    have hf : s.outTmrStd e A = s.modEng e fun x =>
        { x with prog := { x.prog with tmrDue := none }, tmr := if A = 0 then none else some (s.now + A.toNat) } := by
      rw [State.outTmrStd, State.dueWord_own hstd, State.outTmrOp, State.modEng_modEng]
      rfl
    obtain ⟨t, ht, honly, heng⟩ := outInsn_engine (a := a) (port := 6) (f := fun v s => s.outTmrStd e v) h rfl hf rfl rfl rfl
    exact ⟨t, ht, honly, by rw [heng]; rfl, by rw [heng]; rfl, by rw [heng]⟩
  case trace =>
    obtain ⟨t, ht, honly, heng⟩ := outInsn_engine (a := a) (port := 0x0B0) (f := fun v s => s.outTraceOp e v) h rfl rfl rfl rfl rfl
    exact ⟨t, ht, honly, by rw [heng]; rfl, by rw [heng]⟩
  case traceEnd =>
    have hf : s.outTraceEndOp e = (s.eddyStore e (s.eddyRec e x.trace)).modEng e fun x => { x with trace := [] } := by
      simp only [State.outTraceEndOp, hstd, State.traceEnd]
      rfl
    obtain ⟨y, hy⟩ := State.eddyStore_onlyEddy (s := s) (e := e) (s.eddyRec e x.trace)
    have heng := State.modEng_eng_same (s.eddyStore e (s.eddyRec e x.trace)) e fun x => { x with trace := [] }
    have hye : (s.eddyStore e (s.eddyRec e x.trace)).eng[e] = { s.eng[e] with eddy := y } := by rw [hy, upd_same]
    refine ⟨_, outInsn_ends (a := a) (port := 0x0B1) (f := fun _ s => s.outTraceEndOp e) h rfl hf
      (by rw [heng, hye]) (by rw [heng, hye]) (by rw [heng, hye]), ?_, ?_, ?_, fun hroom hcopy hhold htrig => ?_⟩
    · rw [State.fell_eng, heng]
      rfl
    · exact State.eddyStore_chan _
    · rw [State.fell_pc, heng, hye]
    · rw [State.fell_eng, heng]
      exact State.eddyStore_room _ hroom hcopy hhold htrig
  case lat =>
    let own : Engine → Engine := fun x => { x with prog := { x.prog with latDue := none } }
    have hf : s.outLatOp e A = (((s.modEng e own).modEng e Engine.passed).setReg (R.CH_BND_LAT c)
        (BitVec.ofNat 32 (min A.toNat 40000000))).putFlag (R.CH_ENG_STAT_LAT_ENGINE c) true := by
      rw [State.outLatOp, State.dueWord_own hstd]
      exact State.weirLat_serving (hserv.modEng rfl rfl rfl) _
    have heng : ((((s.modEng e own).modEng e Engine.passed).setReg (R.CH_BND_LAT c)
        (BitVec.ofNat 32 (min A.toNat 40000000))).putFlag (R.CH_ENG_STAT_LAT_ENGINE c) true).eng[e] = (own x).passed := by
      rw [State.putFlag_eng, State.setReg_eng, State.modEng_eng_same, State.modEng_eng_same]
    refine ⟨_, outInsn_ends (a := a) (port := 0x032) (f := fun v s => s.outLatOp e v) h rfl hf (by rw [heng]; rfl)
      (by rw [heng]; rfl) (by rw [heng]; rfl), ?_, ?_, ?_, rfl, ?_⟩
    · rw [State.fell_reg, State.reg_putFlag_other _ _ _ _ (R.CH_BND_LAT_ne c), State.reg_setReg_same]
    · exact (State.fell_flag _).trans (State.flag_putFlag_same _ (R.CH_ENG_STAT_LAT_ENGINE c) true (by exact (by decide : 3 ≤ 32)) rfl)
    · rw [State.fell_eng, heng]
      rfl
    · rw [State.fell_pc, heng]
      rfl
  case smp =>
    have hf := State.weirSmpPer_serving hserv hoff A
    have heng : ((s.modEng e Engine.passed).modUnit (smpUnit c) fun y =>
        { y with period := BitVec.ofNat 32 (clampN 1000 200000 A.toNat) }).eng[e] = x.passed := by
      rw [State.modUnit_eng, State.modEng_eng_same]
    refine ⟨_, outInsn_ends (a := a) (port := 0x033) (f := fun v s => s.weirSmpPer e v) h rfl hf (by rw [heng]; rfl)
      (by rw [heng]; rfl) (by rw [heng]; rfl), ?_, fun k hk => upd_other _ _ _ _ hk, rfl, ?_⟩
    · exact congrArg CmpUnit.period (upd_same s.units (smpUnit c) _)
    · rw [State.fell_pc, heng]
      rfl

end Sys2Proof.Machine
end

section
/-! PROOFS. How the event store grows within a command (R286): the number of entries that a command's steps may add, and which event
stands in the store at its end. -/

namespace Sys2Proof.Machine

/-- From `s` to `t` the event store gains at most `n` entries, where it has room for them; tick and F0 switch stay. -/
structure Grows (s t : State) (n : Nat) : Prop where
  tick : t.tick.now = s.tick.now
  f0 : t.flag R.HP_EVT_CFG_F0_EN = s.flag R.HP_EVT_CFG_F0_EN
  events : s.hp.events.length + n ≤ 256 → ∃ l, l.length ≤ n ∧ t.hp.events = s.hp.events ++ l

section Grows

variable {s t u : State} {m n : Nat}

theorem Grows.of_same (htick : t.tick.now = s.tick.now) (hf0 : t.flag R.HP_EVT_CFG_F0_EN = s.flag R.HP_EVT_CFG_F0_EN)
    (hev : t.hp.events = s.hp.events) : Grows s t 0 :=
  ⟨htick, hf0, fun _ => ⟨[], Nat.le_refl 0, hev.trans (List.append_nil _).symm⟩⟩

theorem Grows.refl (s : State) : Grows s s 0 := .of_same rfl rfl rfl

theorem Grows.mono (h : Grows s t m) (hn : m ≤ n) : Grows s t n :=
  ⟨h.tick, h.f0, fun hlen => by
    obtain ⟨l, hl, he⟩ := h.events (by omega)
    exact ⟨l, by omega, he⟩⟩

theorem Grows.trans (h : Grows s t m) (k : Grows t u n) : Grows s u (m + n) := by
  refine ⟨k.tick.trans h.tick, k.f0.trans h.f0, fun hlen => ?_⟩
  obtain ⟨l, hl, he⟩ := h.events (by omega)
  obtain ⟨l', hl', he'⟩ := k.events (by rw [he, List.length_append]; omega)
  exact ⟨l ++ l', by rw [List.length_append]; omega, by rw [he', he, List.append_assoc]⟩

/-- What the store holds already stays in it. -/
theorem Stored.grows {code : BitVec 16} {cls : BitVec 2} {data : W32} {r : State} (h : Stored r t code cls data) (g : Grows t u n)
    (hlen : t.hp.events.length + n ≤ 256) : Stored r u code cls data := by
  obtain ⟨l, -, he⟩ := g.events hlen
  rw [Stored, he]
  exact List.mem_append_left _ h

/-- An F0 event raised after the store has grown a little from one with room. -/
theorem Grows.stored (hr : s.Room) (h : Grows s t n) (hn : n < 8) (code : BitVec 16) (cls : BitVec 2) (data : W32) (o : RaiseOpt) :
    Stored s (t.raiseWith code cls data o) code cls data := by
  have hspace := hr.space
  obtain ⟨l, hl, he⟩ := h.events (by omega)
  rw [Stored, State.raiseWith_events t code cls data o (by rw [he, List.length_append]; omega) (.inr (h.f0.trans hr.f0)), h.tick]
  exact List.mem_append_right _ (List.mem_singleton_self _)

/-- The event is stored by a raising after `t` and stays through what follows. -/
theorem Grows.stored_then (hr : s.Room) (h : Grows s t m) (code : BitVec 16) (cls : BitVec 2) (data : W32) (o : RaiseOpt)
    (g : Grows (t.raiseWith code cls data o) u n) (hn : m + n < 8) : Stored s u code cls data := by
  have hspace := hr.space
  refine (h.stored hr (by omega) code cls data o).grows g ?_
  obtain ⟨l, hl, he⟩ := h.events (by omega)
  rw [State.raiseWith_events t code cls data o (by rw [he, List.length_append]; omega) (.inr (h.f0.trans hr.f0)), List.length_append,
    he, List.length_append, List.length_singleton]
  omega

end Grows

section Raise

variable (s : State)

theorem State.storeEvent_grows (e : Evt) : Grows s (s.storeEvent e) 1 := by
  refine ⟨?_, ?_, fun hlen => ⟨[e], Nat.le_refl 1, ?_⟩⟩
  · exact (congrArg (fun x : State => x.tick.now) (s.storeEvent_still e) :)
  · simp only [flag, get, s.storeEvent_reg e R.HP_EVT_CFG_F0_EN.addr (by decide)]
  · rw [storeEvent, if_pos (by omega)]
    rfl

theorem State.raiseWith_grows (c : BitVec 16) (k : BitVec 2) (d : W32) (o : RaiseOpt) : Grows s (s.raiseWith c k d o) 1 := by
  refine ⟨congrArg TickSt.now (s.raiseWith_tick c k d o), ?_, fun hlen => ?_⟩
  · simp only [flag, get, s.raiseWith_reg c k d o R.HP_EVT_CFG_F0_EN.addr (by decide)]
  · by_cases hk : k ≠ 0 ∨ s.flag R.HP_EVT_CFG_F0_EN = true
    · exact ⟨[_], Nat.le_refl 1, s.raiseWith_events c k d o (by omega) hk⟩
    · refine ⟨[], Nat.zero_le 1, ?_⟩
      obtain ⟨rfl, hf⟩ : k = 0 ∧ s.flag R.HP_EVT_CFG_F0_EN = false := by simpa using hk
      have hf' : (s.classCount 0).flag R.HP_EVT_CFG_F0_EN = false := by
        simp only [← hf, flag, get, s.classCount_reg 0 R.HP_EVT_CFG_F0_EN.addr (by decide)]
      unfold raiseWith
      dsimp only
      rw [notice_hp, List.append_nil]
      simp only [hf']
      repeat' split
      all_goals simp_all

theorem State.raise_grows (c : BitVec 16) (k : BitVec 2) (d : W32) : Grows s (s.raise c k d) 1 := s.raiseWith_grows c k d {}

theorem State.raiseLimited_grows (c : BitVec 16) (k : BitVec 2) (d : W32) (i n : Nat) : Grows s (s.raiseLimited c k d i n) 1 := by
  unfold raiseLimited
  split
  · refine Grows.trans (m := 0) ?_ (raise_grows _ c k d)
    exact .of_same rfl rfl rfl
  · exact (Grows.refl s).mono (Nat.zero_le 1)

theorem State.raiseSrc_grows (n : Fin 128) (c : BitVec 16) (k : BitVec 2) (d : W32) (own : Bool) :
    Grows s (s.raiseSrc n c k d own) 1 := by
  unfold raiseSrc
  dsimp only
  split
  · refine Grows.mono (m := 0) ?_ (Nat.zero_le 1)
    exact .of_same rfl rfl rfl
  · refine Grows.trans (m := 0) ?_ (raiseWith_grows _ c k d _)
    exact .of_same rfl rfl rfl

theorem Stored.of_raise (hr : s.Room) (c : BitVec 16) (k : BitVec 2) (d : W32) : Stored s (s.raise c k d) c k d :=
  (Grows.refl s).stored hr (by decide) c k d {}

end Raise

section Fields

variable {s t : State} {n : Nat}

/-- A field of a word that holds no event counter. -/
theorem Grows.put (h : Grows s t n) {f : Fld} (hf : f.addr ≠ R.HP_EVT_CFG_F0_EN.addr) (v : Nat) : Grows s (t.put f v) n :=
  h.trans (.of_same (t := t.put f v) rfl (State.flag_setReg_other t hf.symm _) rfl)

theorem Grows.count (h : Grows s t n) {f : Fld} (hf : f.addr ≠ R.HP_EVT_CFG_F0_EN.addr) (k : Nat) : Grows s (t.count f k) n :=
  h.trans (.of_same (t := t.count f k) rfl (State.flag_setReg_other t hf.symm _) rfl)

theorem Grows.raise (h : Grows s t n) (c : BitVec 16) (k : BitVec 2) (d : W32) : Grows s (t.raise c k d) (n + 1) :=
  h.trans (t.raise_grows c k d)

theorem Grows.same {u : State} (h : Grows s t n) (htick : u.tick.now = t.tick.now)
    (hf0 : u.flag R.HP_EVT_CFG_F0_EN = t.flag R.HP_EVT_CFG_F0_EN) (hev : u.hp.events = t.hp.events) : Grows s u n :=
  h.trans (.of_same htick hf0 hev)

theorem Grows.modCh (h : Grows s t n) (c : Ch) (f : Chan → Chan) : Grows s (t.modCh c f) n := h.same rfl rfl rfl
theorem Grows.modStage (h : Grows s t n) (c : Ch) (f : Stage → Stage) : Grows s (t.modStage c f) n := h.same rfl rfl rfl
theorem Grows.modEng (h : Grows s t n) (e : Eng) (f : Engine → Engine) : Grows s (t.modEng e f) n := h.same rfl rfl rfl
theorem Grows.modUnit (h : Grows s t n) (x : CUnit) (f : CmpUnit → CmpUnit) : Grows s (t.modUnit x f) n := h.same rfl rfl rfl
theorem Grows.modRail (h : Grows s t n) (r : Rail) (f : RailSt → RailSt) : Grows s (t.modRail r f) n := h.same rfl rfl rfl
theorem Grows.modDie (h : Grows s t n) (d : DieIx) (f : DieTh → DieTh) : Grows s (t.modDie d f) n := h.same rfl rfl rfl
theorem Grows.modSpire (h : Grows s t n) (p : Spire) (f : SpireSt → SpireSt) : Grows s (t.modSpire p f) n := h.same rfl rfl rfl
theorem Grows.modRing (h : Grows s t n) (q : Ring) (f : RingSt → RingSt) : Grows s (t.modRing q f) n := h.same rfl rfl rfl
theorem Grows.modMode (h : Grows s t n) (f : ModeSt → ModeSt) : Grows s (t.modMode f) n := h.same rfl rfl rfl
theorem Grows.modArb (h : Grows s t n) (f : Arb → Arb) : Grows s (t.modArb f) n := h.same rfl rfl rfl
theorem Grows.modPower (h : Grows s t n) (f : Power → Power) : Grows s (t.modPower f) n := h.same rfl rfl rfl
theorem Grows.modCourse (h : Grows s t n) (f : Course → Course) : Grows s (t.modCourse f) n := h.same rfl rfl rfl
theorem Grows.modRv (h : Grows s t n) (f : River → River) : Grows s (t.modRv f) n := h.same rfl rfl rfl
theorem Grows.modOtp (h : Grows s t n) (f : Otp → Otp) : Grows s (t.modOtp f) n := h.same rfl rfl rfl
theorem Grows.modSilt (h : Grows s t n) (f : Silt → Silt) : Grows s (t.modSilt f) n := h.same rfl rfl rfl

end Fields

end Sys2Proof.Machine
end

section
/-! PROOFS. The Weir (R146, R149 to R151): duties forwarded, held, refused and fenced, duty words, and the statement. -/

namespace Sys2Proof.Machine

/-! ### Duty words (R150) -/

theorem dutyWord_low (on : Int) : (dutyWord on).extractLsb' 0 24 = BitVec.ofInt 24 on := by
  simp only [dutyWord]
  exact BitVec.extractLsb'_append_eq_right

theorem dutyOn_dutyWord {on : Int} (hlo : -8388608 ≤ on) (hhi : on ≤ 8388607) : dutyOn (dutyWord on) = on := by
  rw [dutyOn, dutyWord_low]
  exact BitVec.toInt_ofInt_eq_self (by decide) (by omega) (by omega)

theorem dutyWord_chk (on : Int) : (dutyWord on).extractLsb' 24 8 = dutyChk (dutyWord on) := by
  have hbyte (k : Nat) (hk : k + 8 ≤ 24) (lo : BitVec 24) (chk : Byte) : (chk ++ lo).extractLsb' k 8 = (lo.zeroExtend 32).extractLsb' k 8 := by
    refine BitVec.eq_of_getLsbD_eq fun i hi => ?_
    simp only [BitVec.getLsbD_extractLsb', BitVec.getLsbD_append, BitVec.getLsbD_setWidth, hi, decide_true, Bool.true_and]
    simp [(by omega : k + i < 24), (by omega : k + i < 32)]
  have htop : (dutyWord on).extractLsb' 24 8 = dutyChk ((BitVec.ofInt 24 on).zeroExtend 32) := by
    simp only [dutyWord]
    exact BitVec.extractLsb'_append_eq_left
  rw [htop]
  simp only [dutyChk, dutyWord]
  rw [hbyte 0 (by decide), hbyte 8 (by decide), hbyte 16 (by decide)]

section Weir

variable {s : State} {e : Eng} {c : Ch}

theorem State.implausible_iff (w : W32) :
    let on := (w.extractLsb' 0 24).toInt
    let chk := ~~~(w.extractLsb' 0 8 ^^^ w.extractLsb' 8 8 ^^^ w.extractLsb' 16 8)
    s.implausible c w = true ↔
      (w.extractLsb' 24 8 ≠ chk ∨ 8 * s.pwmP c < on.natAbs ∨ (on < 0 ∧ s.isBridgeLead c = false) ∨
        ((s.ch c).slot.dslew ≠ 0 ∧ (s.ch c).slot.dslew < (on - (s.ch c).lastOn).natAbs)) := by
  simp [implausible, dutyOn, dutyChk, or_assoc]

/-! ### A duty accepted (R149, R151) -/

/-- A pull-in guard is the mark of one channel. -/
theorem State.guardStart_eq (prev on : Int) :
    ∃ v : Vector Chan 256, s.guardStart c prev on = { s with chan := v } ∧ ∃ g, v[c] = { s.chan[c] with guardUntil := g } := by
  unfold guardStart
  split
  · refine ⟨_, rfl, ?_⟩
    by_cases hlead : c = s.leadOf c
    · rw [← hlead]
      exact ⟨_, upd_same ..⟩
    · exact ⟨_, upd_other _ _ _ _ hlead⟩
  · exact ⟨s.chan, rfl, s.chan[c].guardUntil, rfl⟩

/-- What accepting a duty does to the channel, where the Weir forwards and no trim touches the channel. -/
theorem State.acceptDuty_forwards (hrun : s.flag (R.CH_ENG_CTRL_RUN c) = true) (hfault : s.mode.fault = false)
    (hcopy : (s.ch c).copying = none) (hman : (s.ch c).manual = none) (hstep : s.eng[e].stepping = false)
    (htrim : (s.reg (R.BUD_TRIM (c.val / 32))).getLsbD (c.val % 32) = false) (on : Int) :
    ∃ v : Vector Chan 256, s.acceptDuty e c on = { s with chan := v } ∧ ∃ g, v[c] =
      { s.ch c with
        lastOn := on, dueMet := (s.ch c).dueMet || (s.eng[e].took && s.eng[e].tookSeq = (s.ch c).smp.seq), guardUntil := g,
        flight := (s.ch c).flight ++ [⟨on, s.now + 12, if s.eng[e].took then some (s.eng[e].tookSeq, s.eng[e].tookInst) else none⟩] } := by
  let met : Chan → Chan := fun h => { h with lastOn := on, dueMet := h.dueMet || (s.eng[e].took && s.eng[e].tookSeq = h.smp.seq) }
  have hmet : (s.modCh c met).ch c = met (s.ch c) := upd_same ..
  obtain ⟨v, hv, g, hg⟩ := State.guardStart_eq (s := s.modCh c met) (c := c) (s.ch c).lastOn on
  have htrim' : ({ s.modCh c met with chan := v } : State).isTrimmed c = false := by
    have hreg : ({ s.modCh c met with chan := v } : State).reg (R.BUD_TRIM (c.val / 32)) = s.reg (R.BUD_TRIM (c.val / 32)) := rfl
    rw [isTrimmed, hreg, htrim, Bool.false_and]
  have haccept : s.acceptDuty e c on = ({ s.modCh c met with chan := v } : State).sendOn c on
      (if s.eng[e].took then some (s.eng[e].tookSeq, s.eng[e].tookInst) else none) := by
    have hcond : ((s.modCh c met).flag (R.CH_ENG_CTRL_RUN c) && !(s.modCh c met).mode.fault && ((s.modCh c met).ch c).copying.isNone &&
        ((s.modCh c met).ch c).manual.isNone && !s.eng[e].stepping) = true := by
      rw [hmet]
      simp only [met, modCh_flag, modCh_mode, hrun, hfault, hcopy, hman, hstep]
      rfl
    rw [acceptDuty]
    dsimp only
    rw [if_pos hcond, hv, sendTrimmed, htrim', Bool.false_and]
    rfl
  refine ⟨_, haccept, g, (upd_same ..).trans ?_⟩
  have hvch : v[c] = { met (s.ch c) with guardUntil := g } := hg.trans (congrArg (fun h : Chan => { h with guardUntil := g }) hmet)
  simp only [hvch, met]
  rfl

end Weir

/-! ### A duty refused (R146, R242) -/

section Refused

variable {s : State} {e : Eng} {c : Ch}

theorem State.eddyTrigger_grows (src : Nat) : Grows s (s.eddyTrigger e src) 1 := by
  obtain h | ⟨x, data, h⟩ := s.eddyTrigger_cases e src <;> rw [h]
  · exact (Grows.refl s).mono (Nat.zero_le 1)
  · exact ((Grows.refl s).modEng e _).raise _ _ _

theorem State.deposedStop_grows (reason : Nat) : Grows s (s.deposedStop e reason) 1 :=
  ((Grows.refl s).modEng e _).raise _ _ _

theorem State.deposedStop_chan (reason : Nat) : (s.deposedStop e reason).chan = s.chan := raise_chan ..

theorem State.engExc_grows (cause : ExcCode) (pc imm : Nat) : Grows s (s.engExc e cause pc imm) 3 := by
  unfold engExc
  dsimp only
  have hstop (f : Engine → Engine) (code : BitVec 16) (data : W32) : Grows s (((s.modEng e f).raise code 0 data).eddyTrigger e 2) 2 :=
    (((Grows.refl s).modEng e f).raise code 0 data).trans (eddyTrigger_grows 2)
  split
  · exact (hstop _ _ _).trans (deposedStop_grows 2)
  · exact (hstop _ _ _).mono (by decide)

theorem State.engExc_chan (cause : ExcCode) (pc imm : Nat) : (s.engExc e cause pc imm).chan = s.chan := by
  unfold engExc
  dsimp only
  have hstop (f : Engine → Engine) (code : BitVec 16) (data : W32) :
      (((s.modEng e f).raise code 0 data).eddyTrigger e 2).chan = s.chan := by
    rw [eddyTrigger_chan, raise_chan, modEng_chan]
  split
  · exact (deposedStop_chan 2).trans (hstop _ _ _)
  · exact hstop _ _ _

/-- An instruction's end may raise an exception and touches no channel. -/
theorem State.retireInsn_grows (reads : List GReg) (cyc : Nat) : Grows s (s.retireInsn e reads cyc) 3 := by
  unfold retireInsn
  dsimp only
  split
  · unfold seqPc
    dsimp only
    split
    · refine Grows.trans (m := 0) ?_ (engExc_grows ..)
      exact .of_same rfl rfl rfl
    · refine Grows.mono (m := 0) ?_ (by decide)
      exact .of_same rfl rfl rfl
  · exact (Grows.refl s).mono (by decide)

theorem State.retireInsn_chan (reads : List GReg) (cyc : Nat) : (s.retireInsn e reads cyc).chan = s.chan := by
  unfold retireInsn
  dsimp only
  split
  · unfold seqPc
    dsimp only
    split
    · exact engExc_chan ..
    · rfl
  · rfl

theorem State.retire_grows (reason : Nat) : Grows s (s.retire e reason) 1 :=
  ((Grows.refl s).modEng e _).raise _ _ _

theorem State.depose_grows : Grows s (s.depose e c) 2 := by
  have htrig (f : Engine → Engine) : Grows s ((s.modEng e f).eddyTrigger e 1) 1 :=
    ((Grows.refl s).modEng e f).trans (eddyTrigger_grows 1)
  unfold depose
  dsimp only
  split
  · exact (htrig _).trans (retire_grows 2)
  · split
    · exact (htrig _).trans (deposedStop_grows 3)
    · exact (htrig _).mono (by decide)

theorem State.depose_chan : (s.depose e c).chan = s.chan := by
  have htrig (f : Engine → Engine) : ((s.modEng e f).eddyTrigger e 1).chan = s.chan := eddyTrigger_chan ..
  unfold depose
  dsimp only
  split
  · exact (raise_chan ..).trans (htrig _)
  · split
    · exact (deposedStop_chan 3).trans (htrig _)
    · exact htrig _

theorem R.CH_ENG_CNT_ne (c : Ch) : R.CH_ENG_CNT c ≠ R.HP_EVT_CFG := by
  simp only [R.CH_ENG_CNT, R.HP_EVT_CFG]
  omega

theorem R.TKO_CNT_ne (p : Spire) : R.TKO_CNT p ≠ R.HP_EVT_CFG := by
  simp only [R.TKO_CNT, R.HP_EVT_CFG]
  omega

theorem State.declareDead_grows (cause : Nat) : Grows s (s.declareDead c cause) 3 := by
  unfold declareDead
  split
  · exact (Grows.refl s).mono (by decide)
  · dsimp only
    split
    · exact (((depose_grows.modCh c _).modCh c _).count (R.TKO_CNT_ne _) 1).raise _ _ _
    · exact (((depose_grows.modCh c _).modCh c _).count (R.TKO_CNT_ne _) 1).raise _ _ _

/-- A declaration leaves the commanded on-time of the channel and what travels to its stage die. -/
theorem State.declareDead_duty (cause : Nat) :
    ((s.declareDead c cause).ch c).lastOn = (s.ch c).lastOn ∧ ((s.declareDead c cause).ch c).flight = (s.ch c).flight := by
  unfold declareDead
  split
  · exact ⟨rfl, rfl⟩
  · next dead hctl =>
    have hdep : (s.depose dead c).chan[c] = s.chan[c] := congrArg (·[c]) depose_chan
    dsimp only
    split <;> simp only [ch, raise_chan, startTakeover, newEpoch, count_chan, modCh_chan, upd_upd, upd_same, hdep, and_self]

/-- A refused duty leaves the last on-time and the commands on the stage link, and event 0x61 tells it. -/
theorem State.refuseDuty_keeps {t : State} (ht : t.chan = s.chan) (hg : Grows s t 0) :
    ((t.refuseDuty c).ch c).lastOn = (s.ch c).lastOn ∧ ((t.refuseDuty c).ch c).flight = (s.ch c).flight ∧
      ∀ {u n}, Grows (t.refuseDuty c) u n → n < 5 → s.Room → Stored s u (chCode c 0x61) 0 (BitVec.ofNat 32 c.val) := by
  have hch : (((t.count (R.CH_ENG_CNT_IMPL c)).raise (chCode c 0x61) 0 (BitVec.ofNat 32 c.val)).ch c) = s.ch c := by
    rw [raise_ch, ch, count_chan, ht]
    rfl
  obtain ⟨hon, hflight⟩ := declareDead_duty (s := (t.count (R.CH_ENG_CNT_IMPL c)).raise (chCode c 0x61) 0 (BitVec.ofNat 32 c.val)) (c := c) 1
  rw [hch] at hon hflight
  exact ⟨hon, hflight, fun g hn hr => (hg.count (R.CH_ENG_CNT_ne c) 1).stored_then hr _ _ _ _ ((declareDead_grows 1).trans g) (by omega)⟩

end Refused

/-! ### The statement -/

section Statement

variable {s : State} {e : Eng} {c : Ch}

/-- An OUT to DUTY of an own program starts from the engine without a due on-time. -/
theorem State.outDutyOp_own (h : s.stdProg e = none) (w : W32) : s.outDutyOp e w =
    (s.modEng e fun x => { x with prog := { x.prog with dutyDue := none } }).weirDuty e w := by
  rw [outDutyOp, dueWord_own h]

theorem State.weirDuty_serving (h : s.Serving e c) (w : W32) : s.weirDuty e w =
    if s.implausible c w then (s.modEng e Engine.passed).refuseDuty c else (s.modEng e Engine.passed).acceptDuty e c (dutyOn w) := by
  rw [weirDuty, fence_serving h]
  rfl

/-- An engine with another epoch is refused: FENCE, and the count of the channel that it serves (R146). -/
theorem State.fence_other (hc : s.serves e = some c) (hrole : s.eng[e].role ≠ .deposed) (hepoch : s.eng[e].epoch ≠ (s.ch c).epoch) :
    s.fence e = ((s.modEng e fun x => { x with flags := x.flags &&& 0x1B ||| 4 }).count (R.CH_ENG_CNT_FENCED c), none) := by
  have hserves (f : Engine → Engine) (hchan : (f s.eng[e]).chan = s.eng[e].chan) (hf : (f s.eng[e]).role = s.eng[e].role) :
      (s.modEng e f).serves e = some c := (serves_modEng hchan hf).trans hc
  unfold fence
  dsimp only
  rw [hc]
  dsimp only
  rw [if_neg hepoch, hserves _ rfl rfl, if_neg hrole]
  rfl

end Statement

section Answers

variable {s : State} {e : Eng} {a : GReg} {c : Ch}

/-- A duty word of an own program taken by the fence: its due mark is gone and the fence has passed it. -/
def Engine.dutyPassed (x : Engine) : Engine := { x with flags := x.flags &&& 0x1B, prog := { x.prog with dutyDue := none } }

theorem State.outDutyOp_serving (h : s.Serving e c) (hstd : s.stdProg e = none) (w : W32) : s.outDutyOp e w =
    if s.implausible c w then (s.modEng e Engine.dutyPassed).refuseDuty c
    else (s.modEng e Engine.dutyPassed).acceptDuty e c (dutyOn w) := by
  rw [outDutyOp_own hstd, weirDuty_serving (h.modEng rfl rfl rfl), State.modEng_modEng]
  rfl

/-- What a forwarded duty leaves: the OUT ends, and the command is on the stage link. -/
theorem outInsn_acceptDuty {port : Nat} {r : Bool} {f : W32 → State → State} {g : Engine → Engine} {on : Int} (h : s.Free e)
    (hp : portInfo port = some { r := r, w := true, cyc := 1 }) (hf : f (s.r e a) s = (s.modEng e g).acceptDuty e c on)
    (hg : g = Engine.passed ∨ g = Engine.dutyPassed)
    (hrun : s.flag (R.CH_ENG_CTRL_RUN c) = true) (hfault : s.mode.fault = false)
    (hcopy : (s.ch c).copying = none) (hman : (s.ch c).manual = none) (hstep : s.eng[e].stepping = false)
    (htrim : (s.reg (R.BUD_TRIM (c.val / 32))).getLsbD (c.val % 32) = false) :
    ∃ t, outInsn e a port f s = .next t ∧ (t.ch c).lastOn = on ∧
      (t.ch c).flight = (s.ch c).flight ++
        [⟨on, s.now + 12, if s.eng[e].took then some (s.eng[e].tookSeq, s.eng[e].tookInst) else none⟩] ∧
      (s.eng[e].took = true → s.eng[e].tookSeq = (s.ch c).smp.seq → (t.ch c).dueMet = true) ∧
      t.eng[e].flags = s.eng[e].flags &&& 0x1B ∧ t.eng[e].pc = s.eng[e].pc + 4 ∧ t.regs = s.regs := by
  have heng : (s.modEng e g).eng[e] = g s.eng[e] := State.modEng_eng_same ..
  have hstep' : (s.modEng e g).eng[e].stepping = false := by rcases hg with rfl | rfl <;> exact heng ▸ hstep
  have htook : (g s.eng[e]).took = s.eng[e].took ∧ (g s.eng[e]).tookSeq = s.eng[e].tookSeq ∧ (g s.eng[e]).tookInst = s.eng[e].tookInst := by
    rcases hg with rfl | rfl <;> exact ⟨rfl, rfl, rfl⟩
  have hpcs : (g s.eng[e]).running = s.eng[e].running ∧ (g s.eng[e]).pc = s.eng[e].pc ∧ (g s.eng[e]).codeLen = s.eng[e].codeLen ∧
      (g s.eng[e]).flags = s.eng[e].flags &&& 0x1B := by
    rcases hg with rfl | rfl <;> exact ⟨rfl, rfl, rfl, rfl⟩
  obtain ⟨hseq, hsq, hinst⟩ := htook
  obtain ⟨hgrun, hgpc, hglen, hgflags⟩ := hpcs
  obtain ⟨v, hv, y, hy⟩ := State.acceptDuty_forwards (s := s.modEng e g) (e := e) (c := c) hrun hfault hcopy hman hstep' htrim on
  rw [heng, hseq, hsq, hinst] at hy
  refine ⟨_, outInsn_ends h hp (hf.trans hv) ?_ ?_ ?_, ?_⟩
  · exact (congrArg Engine.running heng).trans hgrun
  · exact (congrArg Engine.pc heng).trans hgpc
  · exact (congrArg Engine.codeLen heng).trans hglen
  refine ⟨congrArg Chan.lastOn hy, congrArg Chan.flight hy, fun ht hs => ?_, ?_, ?_, rfl⟩
  · refine (congrArg Chan.dueMet hy).trans ?_
    have hseq' : s.eng[e].tookSeq = ((s.modEng e g).ch c).smp.seq := hs
    simp only [ht, ← hseq', decide_true, Bool.and_true, Bool.or_true]
  · rw [State.fell_eng]
    exact (congrArg Engine.flags heng).trans hgflags
  · rw [State.fell_eng]
    exact congrArg (· + 4) ((congrArg Engine.pc heng).trans hgpc)

/-- What a refused duty leaves (R150, R242). -/
theorem outDuty_refused (h : s.Free e) (hserv : s.Serving e c) (hstd : s.stdProg e = none) (himpl : s.implausible c (s.r e a) = true) :
    ∃ t, outInsn e a 0x030 (fun v s => s.outDutyOp e v) s = .next t ∧ (t.ch c).lastOn = (s.ch c).lastOn ∧
      (t.ch c).flight = (s.ch c).flight ∧ (s.Room → Stored s t (chCode c 0x61) 0 (BitVec.ofNat 32 c.val)) := by
  obtain ⟨hon, hflight, hstored⟩ := State.refuseDuty_keeps (s := s) (t := s.modEng e Engine.dutyPassed) (c := c) rfl
    ((Grows.refl s).modEng e _)
  refine ⟨_, outInsn_eq (fun v s => s.outDutyOp e v) h rfl, ?_, ?_, fun hr => ?_⟩ <;>
    rw [State.outDutyOp_serving hserv hstd, if_pos himpl]
  · rw [State.ch, State.retireInsn_chan]
    exact hon
  · rw [State.ch, State.retireInsn_chan]
    exact hflight
  · exact hstored (State.retireInsn_grows [a] 1) (by decide) hr

/-- What a fenced duty leaves (R146). -/
theorem outDuty_fenced (h : s.Free e) (hc : s.serves e = some c) (hstd : s.stdProg e = none) (hrole : s.eng[e].role ≠ .deposed)
    (hepoch : s.eng[e].epoch ≠ (s.ch c).epoch) :
    ∃ t, outInsn e a 0x030 (fun v s => s.outDutyOp e v) s = .next t ∧ t.chan = s.chan ∧
      t.eng[e].flags = (s.eng[e].flags &&& 0x1B) ||| 4 ∧
      t.get (R.CH_ENG_CNT_FENCED c) = min (s.get (R.CH_ENG_CNT_FENCED c) + 1) 255 ∧ t.eng[e].pc = s.eng[e].pc + 4 := by
  let own : Engine → Engine := fun x => { x with prog := { x.prog with dutyDue := none } }
  let fenced : Engine → Engine := fun x => { x with flags := x.flags &&& 0x1B ||| 4 }
  let u := ((s.modEng e own).modEng e fenced).count (R.CH_ENG_CNT_FENCED c)
  have hown : (s.modEng e own).eng[e] = own s.eng[e] := State.modEng_eng_same ..
  have hf : s.outDutyOp e (s.r e a) = u := by
    rw [State.outDutyOp_own hstd, State.weirDuty, State.fence_other (c := c)]
    · exact (State.serves_modEng rfl rfl).trans hc
    · exact (congrArg Engine.role hown).trans_ne hrole
    · exact (congrArg Engine.epoch hown).trans_ne hepoch
  have heng : u.eng[e] = fenced (own s.eng[e]) := (State.modEng_eng_same ..).trans (congrArg fenced hown)
  refine ⟨_, outInsn_ends (f := fun v s => s.outDutyOp e v) h rfl hf ?_ ?_ ?_, rfl, ?_, ?_, ?_⟩
  · rw [heng]
  · rw [heng]
  · rw [heng]
  · rw [State.fell_eng, heng]
    rfl
  · exact State.get_count_same ((s.modEng e own).modEng e fenced) (R.CH_ENG_CNT_FENCED c) 1 (by exact (by decide : 16 + 8 ≤ 32))
  · rw [State.fell_eng, heng]

end Answers

/-- Settles O9: a duty passes the fence (`State.fence_serving`) or not (`State.fence_other`), and is judged, then accepted
(`State.acceptDuty_forwards`) or refused (`State.refuseDuty_keeps`). -/
theorem theWeirJudgesDuties : Obligations.TheWeirJudgesDuties := by
  refine ⟨fun s e a c h hc hstd hrole hrun hfault hcopy hman hstep htrim => ?_, fun s c w => s.implausible_iff w, by decide, by decide,
    fun on hlo hhi => ⟨dutyOn_dutyWord hlo hhi, dutyWord_chk on⟩⟩
  refine ⟨fun hepoch => ⟨fun hplaus => ?_, ?_, fun himpl => ?_⟩, fun hepoch => outDuty_fenced h hc hstd hrole hepoch⟩
  · refine outInsn_acceptDuty (port := 0x030) (f := fun v s => s.outDutyOp e v) h rfl ?_ (.inr rfl) hrun hfault hcopy hman hstep htrim
    exact (State.outDutyOp_serving ⟨hc, hepoch⟩ hstd (s.r e a)).trans (if_neg (ne_true_of_eq_false hplaus))
  · exact outInsn_acceptDuty (port := 0x031) (f := fun _ s => s.weirHold e) (on := (s.ch c).lastOn) h rfl
      (by rw [State.weirHold, State.fence_serving ⟨hc, hepoch⟩]; rfl) (.inl rfl) hrun hfault hcopy hman hstep htrim
  · exact outDuty_refused h ⟨hc, hepoch⟩ hstd himpl

end Sys2Proof.Machine
end

section
/-! PROOFS. WAIT, LOCK, UNLOCK, CKPT and TIMER (R147, R155, R157, R160, Table 06.5), and the statement. -/

namespace Sys2Proof.Machine

section Wait

variable {s : State} {e : Eng} {c : Ch} {d : GReg} {mask : BitVec 16}

/-- The level events of a channel: what its FIFOs ask for (Table 06.5). -/
def State.fifoLevel (s : State) (c : Ch) : BitVec 16 :=
  (if s.get (R.CH_ENG_CTRL_ISTRM_THR c) < (s.ch c).istrm.length then 2 else 0) ||| (if (s.ch c).snse = [] then 0 else 4)

theorem State.latchCh_ctl (hctl : (s.ch c).ctl = some e) (htake : (s.ch c).takeover = none) (bit : Nat) :
    s.latchCh c bit = s.latchEng e bit := by
  simp only [latchCh, hctl, htake, Option.isNone_none, if_true]

theorem State.modEng_eq_self {f : Engine → Engine} (h : f s.eng[e] = s.eng[e]) : s.modEng e f = s := by
  rw [modEng, upd_eq_self h]

/-- The level events are latched in the engine in control. -/
theorem State.levelCh_ctl (hctl : (s.ch c).ctl = some e) (htake : (s.ch c).takeover = none) :
    s.levelCh c = s.modEng e fun x => { x with pend := x.pend ||| s.fifoLevel c } := by
  have hmod (f : Engine → Engine) : ((s.modEng e f).ch c).ctl = some e ∧ ((s.modEng e f).ch c).takeover = none := ⟨hctl, htake⟩
  by_cases hi : s.get (R.CH_ENG_CTRL_ISTRM_THR c) < (s.ch c).istrm.length <;> by_cases hn : (s.ch c).snse = []
  · simp [levelCh, fifoLevel, hi, hn, latchCh_ctl hctl htake, latchEng]
  · simp only [levelCh, fifoLevel, hi, hn, if_true, if_false, latchCh_ctl hctl htake, latchEng, modEng_ch, List.isEmpty_iff]
    rw [latchCh_ctl (hmod _).1 (hmod _).2, latchEng, modEng_modEng]
    simp only [BitVec.or_assoc]
    rfl
  · simp only [levelCh, fifoLevel, hi, hn, if_true, if_false, List.isEmpty_nil]
    exact (modEng_eq_self (by simp)).symm
  · simp [levelCh, fifoLevel, hi, hn, latchCh_ctl hctl htake, latchEng]

/-- The level events that an engine's WAIT latches anew. -/
def State.waitLevel (s : State) (e : Eng) : BitVec 16 :=
  match s.serves e with
  | some c => s.fifoLevel c
  | none => 0

/-- The sample that a WAIT with the events `hit` takes (R149). -/
def State.sampled (s : State) (e : Eng) (hit : BitVec 16) (x : Engine) : Engine :=
  match s.serves e with
  | some c => if hit.getLsbD 0 then { x with took := true, tookSeq := (s.ch c).smp.seq, tookInst := (s.ch c).smp.tick } else x
  | none => x

/-- The engine that a WAIT returns to. -/
def State.wakes (s : State) (e : Eng) (d : GReg) (mask : BitVec 16) (cyc : Nat) (x : Engine) : Engine :=
  let hit := x.pend &&& mask
  let y := s.sampled e hit ({ x with pend := x.pend &&& ~~~hit, asleep := none, wdog := cyc, lastLoad := none }.setG d (hit.zeroExtend 32))
  { y with pend := y.pend ||| s.waitLevel e, pc := y.pc + 4 }

theorem State.sampled_fields (hit : BitVec 16) (x : Engine) : (s.sampled e hit x).pend = x.pend ∧ (s.sampled e hit x).pc = x.pc ∧
    (s.sampled e hit x).wdog = x.wdog ∧ (s.sampled e hit x).asleep = x.asleep ∧ (s.sampled e hit x).g = x.g ∧
    (s.sampled e hit x).codeLen = x.codeLen ∧ (s.sampled e hit x).chan = x.chan ∧ (s.sampled e hit x).role = x.role := by
  unfold sampled
  repeat' split
  all_goals exact ⟨rfl, rfl, rfl, rfl, rfl, rfl, rfl, rfl⟩

theorem State.takeSample_eq (hit : BitVec 16) (f : Engine → Engine) (hf : (f s.eng[e]).chan = s.eng[e].chan)
    (hr : (f s.eng[e]).role = s.eng[e].role) :
    (s.modEng e f).takeSample e hit = s.modEng e fun x => s.sampled e hit (f x) := by
  unfold takeSample sampled
  rw [serves_modEng hf hr]
  cases s.serves e with
  | none => rfl
  | some c =>
    dsimp only
    split
    · exact modEng_modEng ..
    · rfl

theorem State.modEng_congr {f g : Engine → Engine} (h : f s.eng[e] = g s.eng[e]) : s.modEng e f = s.modEng e g := by
  simp only [modEng, upd, h]

theorem State.progWake_own (hstd : s.stdProg e = none) (hit : BitVec 16) : s.progWake e hit = s := by
  unfold progWake
  rw [hstd]
  cases s.serves e <;> rfl

theorem State.stdProg_modEng {f : Engine → Engine} (hf : (f s.eng[e]).chan = s.eng[e].chan)
    (hr : (f s.eng[e]).role = s.eng[e].role) : (s.modEng e f).stdProg e = s.stdProg e := by
  unfold stdProg
  rw [serves_modEng hf hr]
  rfl

/-- A WAIT of an own program that returns changes its engine alone. -/
theorem State.waitReturns_own (hstd : s.stdProg e = none) (hin : s.eng[e].pc + 4 < s.eng[e].codeLen)
    (hctl : ∀ c, s.serves e = some c → (s.ch c).ctl = some e ∧ (s.ch c).takeover = none) (cyc : Nat) :
    s.waitReturns e d mask cyc = s.modEng e (s.wakes e d mask cyc) := by
  let y : Engine → Engine := fun x => s.sampled e (s.eng[e].pend &&& mask)
    ({ x with pend := x.pend &&& ~~~(s.eng[e].pend &&& mask), asleep := none, wdog := cyc, lastLoad := none }.setG d
      ((s.eng[e].pend &&& mask).zeroExtend 32))
  have hy : (y s.eng[e]).chan = s.eng[e].chan ∧ (y s.eng[e]).role = s.eng[e].role ∧ (y s.eng[e]).pc = s.eng[e].pc ∧
      (y s.eng[e]).codeLen = s.eng[e].codeLen := by
    simp only [y, sampled_fields, Engine.setG_chan, Engine.setG_role, Engine.setG_pc, Engine.setG_codeLen, and_self]
  obtain ⟨hchan, hrole, hpc, hlen⟩ := hy
  have hlevel : (match (s.modEng e y).serves e with
      | some c => (s.modEng e y).levelCh c
      | none => s.modEng e y) = s.modEng e fun x => { y x with pend := (y x).pend ||| s.waitLevel e } := by
    rw [serves_modEng hchan hrole, waitLevel]
    cases hc : s.serves e with
    | none => exact modEng_congr (by simp)
    | some c =>
      dsimp only
      rw [levelCh_ctl (s := s.modEng e y) (hctl c hc).1 (hctl c hc).2, modEng_modEng]
      rfl
  unfold waitReturns
  dsimp only
  rw [takeSample_eq _ _ (Engine.setG_chan ..) (Engine.setG_role ..),
    progWake_own ((stdProg_modEng (f := y) hchan hrole).trans hstd)]
  refine (congrArg (State.seqPc · e) hlevel).trans ?_
  rw [seqPc_inside, modEng_modEng]
  · exact modEng_congr rfl
  · rw [modEng_eng_same]
    exact hpc ▸ hlen ▸ hin

/-- What the statement says of a WAIT that returns. -/
theorem State.wakes_returned {y : Engine} {cyc : Nat} (hy : y = s.wakes e d mask cyc s.eng[e]) (hd : d ≠ 0) :
    let x := s.eng[e]
    y.getG d = (x.pend &&& mask).zeroExtend 32 ∧ y.pend = x.pend &&& ~~~(x.pend &&& mask) ||| s.waitLevel e ∧
      y.asleep = none ∧ y.wdog = cyc ∧ y.pc = x.pc + 4 ∧
      ∀ c, s.serves e = some c → (x.pend &&& mask).getLsbD 0 = true →
        y.took = true ∧ y.tookSeq = (s.ch c).smp.seq ∧ y.tookInst = (s.ch c).smp.tick := by
  subst hy
  intro x
  refine ⟨?_, ?_, ?_, ?_, ?_, fun c hc hit => ?_⟩
  · have hg : (s.wakes e d mask cyc s.eng[e]).g = (x.setG d ((x.pend &&& mask).zeroExtend 32)).g := by
      simp only [wakes, sampled_fields, Engine.setG]
      split <;> rfl
    rw [Engine.getG, hg, ← Engine.getG, Engine.getG_setG, if_neg hd, if_pos rfl]
  · simp only [wakes, sampled_fields, Engine.setG_pend, x]
  · simp only [wakes, sampled_fields, Engine.setG_asleep]
  · simp only [wakes, sampled_fields, Engine.setG_wdog]
  · simp only [wakes, sampled_fields, Engine.setG_pc, x]
  · simp only [wakes, sampled, hc, x, hit, if_true, and_self]

end Wait

section Ckpt

variable {s : State} {e : Eng} {c : Ch}

theorem State.commitCkpt_ch : ∃ l, (s.commitCkpt e c).ch c = { s.ch c with ckptDone := true, mirror :=
    { block := some (memBytes s.eng[e].dram 0 (32 * (s.ch c).slot.ckptLen)), smpSeq := s.eng[e].tookSeq,
      lastOn := (s.ch c).lastOn, epoch := (s.ch c).epoch, limpWord := l, prog := s.eng[e].prog } } := ⟨_, upd_same ..⟩

/-- The engine that a CKPT leaves before its cycles are counted has passed the fence. -/
theorem execCkpt_serving (h : s.Free e) (hserv : s.Serving e c) :
    execCkpt e s = .next (((s.modEng e Engine.passed).commitCkpt e c).fell e
      ((s.modEng e Engine.passed).commitCkpt e c).eng[e] [] (8 + 8 * (s.ch c).slot.ckptLen) none) := by
  have heng : ((s.modEng e Engine.passed).commitCkpt e c).eng[e] = s.eng[e].passed := State.modEng_eng_same s e Engine.passed
  simp only [execCkpt, h.issue, h.unlocked, State.fence_serving hserv, hserv.serves, Option.isSome_none, Bool.false_eq_true, if_true,
    if_false]
  rw [State.retireInsn_inside]
  · rw [heng]
    exact State.canIssue_running h.issue
  · rw [heng]
    exact h.inside

end Ckpt

/-- Settles O10: a WAIT that returns is `State.waitReturns_own`; LOCK and UNLOCK change their engine, CKPT the mirror. -/
theorem waitLockCheckpointAndTimer : Obligations.WaitLockCheckpointAndTimer := by
  refine ⟨fun s e d mask hstd hd hrole hin hlock hctl => ?_, fun s e a b => ⟨fun h hab ha hb => ?_, fun hissue hin hhalt => ?_,
    fun c h hserv => ?_, fun n hn hclock hle => ?_⟩⟩
  · have returned (cyc : Nat) := State.wakes_returned (State.modEng_eng_same s e (s.wakes e d mask cyc)) hd
    have hown := State.waitReturns_own (d := d) (mask := mask) hstd hin hctl
    refine ⟨fun hissue hstop => ⟨fun hhit => ?_, fun hhit => ?_⟩, fun hasleep hclock hrun hhalt hret =>
      ⟨fun hhit => ?_, fun hhit => ?_⟩⟩
    · obtain ⟨hg, hpend, hasleep, hwdog, hpc, htook⟩ := returned 1
      refine ⟨_, ?_, hg, hpend, hasleep, hwdog, hpc, modEng_onlyEng .., htook⟩
      simp only [exec_wait, execWait, hissue, hlock, State.waitIssue, hrole, hstop, ← hown, ne_eq, hhit, not_false_eq_true,
        Option.isSome_none, Bool.false_eq_true, if_true, if_false]
    · refine ⟨s.modEng e fun x => { x with asleep := some (d, mask), wdog := 0, lastLoad := none }, ?_, ?_⟩
      · simp only [exec_wait, execWait, hissue, hlock, State.waitIssue, hrole, hstop, hhit]
        rfl
      · rw [State.modEng_eng_same]
        exact ⟨rfl, rfl, rfl, rfl, rfl, modEng_onlyEng ..⟩
    · obtain ⟨hg, hpend, hawake, hwdog, hpc, htook⟩ := returned 2
      refine ⟨_, ?_, hg, hpend, hawake, hwdog, hpc, modEng_onlyEng .., htook⟩
      simp only [exec_waitWake, execWaitWake, hasleep, hclock, hrun, hhalt, hret, ← hown, ne_eq, hhit, not_false_eq_true,
        decide_true, Bool.not_false, Bool.and_true, if_true]
    · simp only [exec_waitWake, execWaitWake, hasleep, ne_eq, hhit, not_true, decide_false, Bool.and_false, if_false,
        Bool.false_eq_true]
  · let lock : Engine → Engine := fun x => { x with lock := some (s.lockView e a b) }
    have heng : (s.modEng e lock).eng[e] = lock s.eng[e] := State.modEng_eng_same ..
    have hview : s.lockView e a b = { s.lockView e a b with
        ga := a, gb := b, va := s.eng[e].getG a, vb := s.eng[e].getG b, pc := s.eng[e].pc, tick := s.tick.now,
        upd := s.course.updTick } := by
      simp only [State.lockView, h.unlocked]
    have hexec : exec (.lock e a b) s = .next ((s.modEng e lock).fell e (s.modEng e lock).eng[e] [a, b] 2 none) := by
      rw [← State.retireInsn_inside (by rw [heng]; exact State.canIssue_running h.issue) (by rw [heng]; exact h.inside)]
      simp only [exec_lock, execLock, h.issue, h.unlocked, hab, ha, hb, decide_false, Bool.or_false, Option.isSome_none,
        Bool.false_eq_true, if_true, if_false]
      rfl
    refine ⟨_, hexec, ?_, ?_, ?_, s.lockView e a b, ?_, ?_, ?_, ?_, ?_, ?_, ?_, ?_⟩
    · rw [State.fell, State.modEng_modEng]
      exact modEng_onlyEng ..
    · rw [State.fell_pc, heng]
    · rw [State.fell_eng, heng]; rfl
    · rw [State.fell_eng, heng]; rfl
    all_goals rw [hview]
  · let unlock : Engine → Engine := fun x => { x with lock := none }
    have heng : (s.modEng e unlock).eng[e] = unlock s.eng[e] := State.modEng_eng_same ..
    have hexec : exec (.unlock e) s = .next ((s.modEng e unlock).fell e (s.modEng e unlock).eng[e] [] 1 none) := by
      rw [exec_unlock, execUnlock, if_pos hissue]
      dsimp only
      rw [State.retireInsn_inside (by rw [heng]; exact State.canIssue_running hissue) (by rw [heng]; exact hin), if_neg]
      rw [State.fell_eng, heng]
      exact ne_true_of_eq_false (congrArg Option.isSome hhalt)
    refine ⟨_, hexec, ?_, ?_, ?_, ?_⟩
    · rw [State.fell, State.modEng_modEng]
      exact modEng_onlyEng ..
    · rw [State.fell_eng, heng]; rfl
    · rw [State.fell_eng, heng]; rfl
    · rw [State.fell_pc, heng]
  · let u := (s.modEng e Engine.passed).commitCkpt e c
    have heng : u.eng[e] = s.eng[e].passed := State.modEng_eng_same s e Engine.passed
    have hown : (s.modEng e Engine.passed).eng[e] = s.eng[e].passed := State.modEng_eng_same ..
    obtain ⟨l, hch⟩ := (s.modEng e Engine.passed).commitCkpt_ch (e := e) (c := c)
    rw [hown] at hch
    refine ⟨_, (exec_ckpt ..).trans (execCkpt_serving h hserv), ?_, ?_, ?_, ?_, ?_, fun k hk => ?_, ?_, ?_⟩
    · exact congrArg (fun x : Chan => x.mirror.block) hch
    · exact congrArg (fun x : Chan => x.mirror.smpSeq) hch
    · exact congrArg (fun x : Chan => x.mirror.lastOn) hch
    · exact congrArg (fun x : Chan => x.mirror.epoch) hch
    · exact congrArg Chan.ckptDone hch
    · exact upd_other _ _ _ _ hk
    · rw [State.fell_wdog, heng]
      rfl
    · rw [State.fell_pc, heng]
      rfl
  · refine ⟨s.modEng e fun x => { x with tmr := none, pend := x.pend ||| 0x40 }, ?_, ?_⟩
    · simp only [exec_engineTimerExpiry, execEngineTimerExpiry, hn, hclock, hle, decide_true, Bool.and_true, if_true]
    · rw [State.modEng_eng_same]
      exact ⟨rfl, rfl, rfl, modEng_onlyEng ..⟩

end Sys2Proof.Machine
end

section
/-! PROOFS. Steps: the front command, a tick on an empty queue, and that every command answers a next state (assumption 1). -/

namespace Sys2Proof.Machine

/-- Settles O11. -/
theorem stepRunsTheFrontCommand : Obligations.StepRunsTheFrontCommand := fun _ _ _ => rfl

section Tick

variable {s : State}

theorem State.limpOffers_none (h : ∀ c : Ch, (s.ch c).limp = false) : s.limpOffers = s := by
  have hany : s.chan.toList.any (·.limp) = false := by
    rw [List.any_eq_false]
    intro x hx
    obtain ⟨i, hi, rfl⟩ := List.getElem_of_mem hx
    rw [Vector.getElem_toList]
    exact ne_true_of_eq_false (h ⟨i, by simpa using hi⟩)
  rw [limpOffers, hany]
  rfl

theorem State.startFetched_nil {q : Ring} (h : (s.hp.rings[q]).fetched = []) : s.startFetched q = s := by
  rw [startFetched, h]
  rfl

theorem State.onTimeTick_ch (c : Ch) :
    s.onTimeTick.ch c = { s.ch c with cnt := { (s.ch c).cnt with onTime := (s.ch c).cnt.onTime + if s.driven c then 1 else 0 } } := by
  have hget : s.onTimeTick.ch c =
      if s.driven c then { s.ch c with cnt := { (s.ch c).cnt with onTime := (s.ch c).cnt.onTime + 1 } } else s.ch c := by
    simp only [onTimeTick, ch, Fin.getElem_fin, Vector.getElem_ofFn, Fin.eta]
  rw [hget]
  cases s.driven c <;> rfl

end Tick

/-- Settles O12: with the clock on and nothing in limp or fetched, a tick counts on-times and moves both clocks. -/
theorem anEmptyQueuePassesOneTick : Obligations.AnEmptyQueuePassesOneTick := by
  intro s hpend
  have hstep : step s = .next (tickPass s) := by rw [step, hpend]
  refine ⟨fun hoff => ?_, fun hon hlimp h18 h19 => ?_⟩
  · rw [hstep, tickPass]
    exact congrArg _ (if_neg (ne_true_of_eq_false hoff))
  · let w : State := { s with tick := { s.tick with wall := s.tick.wall + 1 } }
    let t : State := ({ w.onTimeTick with tick := { w.tick with now := w.tick.now + 1 } } : State).noteRequests
    have ht : tickPass s = t := by
      rw [tickPass]
      refine (if_pos hon).trans ?_
      rw [State.limpOffers_none (s := w) hlimp]
      exact (congrArg (State.startFetched · 19) (State.startFetched_nil (s := t) h18)).trans (State.startFetched_nil (s := t) h19)
    refine ⟨t, hstep.trans (congrArg _ ht), rfl, rfl, rfl, rfl, rfl, fun c => State.onTimeTick_ch (s := w) c⟩

end Sys2Proof.Machine
end

section
/-! PROOFS. The reset state (R39, R479). -/

namespace Sys2Proof.Machine

theorem State.reset_eng (e : Eng) : State.reset.eng[e] = Engine.reset e := by
  simp only [State.reset, Fin.getElem_fin, Vector.getElem_ofFn, Fin.eta]

theorem State.reset_ch (c : Ch) : State.reset.ch c = Chan.reset c := by
  simp only [State.reset, State.ch, Fin.getElem_fin, Vector.getElem_ofFn, Fin.eta]

theorem Engine.reset_dram (e : Eng) : (Engine.reset e).dram = [] := by
  unfold Engine.reset
  split <;> rfl

theorem State.reset_canonical : State.reset.Canonical :=
  ⟨rfl, fun e => by rw [reset_eng, Engine.reset_dram]; rfl⟩

/-- The values of the tables, as BAR0 reads them. -/
theorem State.reset_peek :
    ∀ x ∈ [(0x400, 0x101), (0x404, 1), (0x408, 0x1001E), (0x804, 7), (0x80C, 0x11F), (0x1000, 0x1410), (0x1004, 1), (0x1400, 0x140A00),
      (0x1404, 0x587641), (0x1468, 0x264800C8), (0x1478, 0xFA03E8), (0x1904, 2), (0x2018, 0x3C1E140D), (0x202C, 0x1F4),
      (0x2804, 0x10001), (0x3500, 0x632), (0x3800, 0x2805), (0x4000, 2), (0x8020, 0x800000), (0x8030, 0x42), (0x800, 0), (0x0FC, 0),
      (0x7000, 0)], State.reset.peek x.1 = BitVec.ofNat 32 x.2 := by
  decide +kernel

/-- Settles O14: the tables' values are evaluated, the rest is how `State.reset` is built. -/
theorem resetIsAsTheTablesSay : Obligations.ResetIsAsTheTablesSay :=
  ⟨State.reset_canonical, State.reset_peek, rfl, rfl, rfl, rfl, State.reset_eng, State.reset_ch⟩

end Sys2Proof.Machine
end

section
/-! PROOFS. What an event that is no F3 leaves of the mode block (Table 15.2). -/

namespace Sys2Proof.Machine

section Quiet

variable (s : State)

theorem State.classCount_mode (k : BitVec 2) : (s.classCount k).mode = s.mode := by
  unfold classCount
  split <;> rfl

theorem State.storeEvent_mode (e : Evt) : (s.storeEvent e).mode = s.mode := by
  unfold storeEvent
  dsimp only
  repeat' split
  all_goals rfl

theorem State.errPulse_mode : s.errPulse.mode = s.mode := by
  unfold errPulse
  dsimp only
  split <;> rfl

theorem State.siltStart_mode : s.siltStart.mode = s.mode := by
  unfold siltStart
  repeat' split
  all_goals rfl

theorem State.siltPush_mode (t : Byte) (k : BitVec 2) (c : BitVec 16) (p : List Byte) : (s.siltPush t k c p).mode = s.mode := by
  unfold siltPush
  dsimp only
  repeat' split
  · exact siltStart_mode _
  all_goals rfl

theorem State.f2Record_mode (c : BitVec 16) (p : List Byte) : (s.f2Record c p).mode = s.mode := by
  unfold f2Record
  repeat' split
  · rfl
  all_goals exact siltPush_mode ..

theorem State.notice_mode (c : BitVec 16) (k : BitVec 2) (d : W32) : (s.notice c k d).mode = s.mode := by
  unfold notice sendNotice
  repeat' split
  all_goals rfl

/-- Only an F3 event waits for the entry of the fault state. -/
theorem State.raiseWith_mode {k : BitVec 2} (hk : k ≠ 3) (c : BitVec 16) (d : W32) (o : RaiseOpt) :
    (s.raiseWith c k d o).mode = s.mode := by
  unfold raiseWith
  simp only [hk, if_false, notice_mode]
  repeat' split
  all_goals simp only [f2Record_mode, putFlag_mode, errPulse_mode, storeEvent_mode, classCount_mode]

theorem State.raise_mode {k : BitVec 2} (hk : k ≠ 3) (c : BitVec 16) (d : W32) : (s.raise c k d).mode = s.mode :=
  s.raiseWith_mode hk c d {}

end Quiet

end Sys2Proof.Machine
end

section
/-! PROOFS. The host write (R6, R9, R263, Tables 00.5, 10.3, 10.16): by access codes, to the Keep, partial and in a freeze. -/

namespace Sys2Proof.Machine

section HostWrite

variable {s : State} {a : Nat} {v : W32}

theorem State.hostWrite32_thawed (hf : s.mode.frozen = false) (hw : isWide a = false) (hh : isHigh a = false) :
    s.hostWrite32 a v 15 =
      if 0x2000 ≤ a ∧ a < 0x3000 then (if (regRow a).isNone then s else s.queueWrite a v) else s.regWrite a v := by
  simp only [hostWrite32, hf, hw, hh, ne_eq, not_true, decide_false, Bool.or_false, Bool.false_eq_true, if_false, Bool.and_eq_true,
    decide_eq_true_eq]

theorem State.hostWrite32_partial {be : BitVec 4} (hf : s.mode.frozen = false) (hbe : be ≠ 15) :
    s.hostWrite32 a v be = s.partialWrite := by
  simp only [hostWrite32, hf, hbe, ne_eq, not_false_eq_true, decide_true, Bool.true_or, Bool.false_eq_true, if_false, if_true]

theorem State.hostWrite32_frozen {be : BitVec 4} (hf : s.mode.frozen = true) (ha : a ≠ R.FRZ_CTRL) :
    s.hostWrite32 a v be = s.countReg R.HP_FRZ_WR := by
  simp only [hostWrite32, hf, ha, decide_false, Bool.false_and, Bool.false_eq_true, if_false, if_true]

theorem State.regWrite_none (h : regRow a = none) : s.regWrite a v = s := by
  rw [regWrite, h]
  rfl

/-- A word of RW bits alone takes them. -/
theorem State.plainWrite_rw {r : RegRow} (h : regRow a = some r) (hl : r.rwl = 0) (hc : r.w1c = 0) :
    s.plainWrite a v = s.setReg a ((v &&& r.rw) ||| (s.reg a &&& ~~~r.rw)) := by
  have hones (w : W32) : w &&& 4294967295#32 = w := BitVec.and_allOnes
  simp [plainWrite, h, hl, hc, hones]

/-- A field whose bits a mask covers reads as written through the mask. -/
theorem fieldOf_masked (w old m : W32) (f : Fld) (hf : ∀ i, i < f.w → m.getLsbD (f.lo + i) = true) :
    fieldOf ((w &&& m) ||| (old &&& ~~~m)) f = fieldOf w f := by
  refine Nat.eq_of_testBit_eq fun i => ?_
  rw [fieldOf_testBit, fieldOf_testBit]
  by_cases hi : i < f.w
  · simp [hf i hi]
  · simp [hi]

/-- A field of one bit is set when its bit is. -/
theorem fieldOf_bit (w : W32) {f : Fld} (h : f.w = 1) : (fieldOf w f != 0) = w.getLsbD f.lo := by
  have hbit := fieldOf_testBit w f 0
  have hlt : fieldOf w f < 2 := by
    rw [fieldOf, bits, h]
    exact Nat.mod_lt _ (by decide)
  simp only [h, Nat.lt_one_iff, decide_true, Bool.true_and, Nat.add_zero] at hbit
  rw [← hbit]
  generalize fieldOf w f = n at hlt
  interval_cases n <;> rfl

/-- The words of the statement have RW bits alone, no range and no effect of their own. -/
theorem plainWords : ∀ x ∈ [(0x804, 7), (0x80C, 0x11F), (0x1004, 1), (0x101C, 0xFFFFFFFF), (0x110C, 3), (0x1404, 0xFFFFFFFF),
    (0x1440, 0xFFFFFFFF), (0x1458, 0xFFFF), (0x1460, 0x1FFFF), (0x1494, 0xF)],
    (isWide x.1 = false ∧ isHigh x.1 = false ∧ x.1 % 4 = 0 ∧ x.1 < 0x2000) ∧
      (regRow x.1).map (fun r => (r.rw, r.rwl, r.w1c)) = some (BitVec.ofNat 32 x.2, 0, 0) ∧
      ∀ (s : State) (v : W32), s.regWrite x.1 v = s.plainWrite x.1 v := by
  intro x hx
  simp only [List.mem_cons, List.not_mem_nil, or_false] at hx
  rcases hx with rfl | rfl | rfl | rfl | rfl | rfl | rfl | rfl | rfl | rfl <;>
    exact ⟨by decide, by decide, fun _ _ => rfl⟩

end HostWrite

/-- Settles O15. -/
theorem hostWritesFollowTheAccessCodes : Obligations.HostWritesFollowTheAccessCodes := by
  intro s v hd writes sets
  have hexec {a : Nat} (be : BitVec 4) (h4 : a % 4 = 0) (ha : a < 0x10000) {p : State → Prop} (h : p (s.hostWrite32 a v be)) :
      writes a be p := ⟨_, exec_registerWrite_one hd h4 ha v be, h⟩
  refine ⟨fun hf => ⟨fun a h4 ha hrow hw hh => hexec 15 h4 ha ?_, fun x hx => ?_, ?_, ?_, fun a h4 hlo hhi hrow hw hh =>
    hexec 15 h4 (by omega) ?_, fun a be h4 ha hbe hr => hexec be h4 ha ?_⟩, fun hf a be h4 ha hne => hexec be h4 ha ?_⟩
  · rw [State.hostWrite32_thawed hf hw hh, hrow, State.regWrite_none hrow]
    simp
  · obtain ⟨⟨hw, hh, h4, hlt⟩, hmap, hwrite⟩ := plainWords x hx
    obtain ⟨r, hrow, hr⟩ := Option.map_eq_some_iff.1 hmap
    obtain ⟨hrw, hl, hc⟩ : r.rw = BitVec.ofNat 32 x.2 ∧ r.rwl = 0 ∧ r.w1c = 0 := by simpa using hr
    refine hexec 15 h4 (by omega) ?_
    rw [State.hostWrite32_thawed hf hw hh, if_neg (by omega), hwrite, State.plainWrite_rw hrow hl hc, hrw]
    exact ⟨State.reg_setReg_same .., fun y hy => State.reg_setReg_other _ _ _ _ hy, rfl⟩
  · refine hexec 15 (by decide) (by decide) ?_
    have hrow : regRow R.MODE_KEY = some ⟨0x408, 0x4, 1, 0x0001FFFF, 0, 0, 0, 0, 0x0001001E⟩ := by decide
    have hwrite : s.regWrite R.MODE_KEY v = s.plainWrite R.MODE_KEY (withField v ⟨0, 0, 16⟩ (clampN 1 600 (bits v.toNat 0 16))) := rfl
    rw [State.hostWrite32_thawed hf (by decide) (by decide), if_neg (by decide), hwrite, State.plainWrite_rw hrow rfl rfl]
    refine ⟨?_, ?_, rfl⟩
    · have hcov : ∀ i, i < 16 → (0x0001FFFF : W32).getLsbD (0 + i) = true := by decide
      refine (congrArg (fieldOf · R.MODE_KEY_KEYOFF_DELAY) (State.reg_setReg_same ..)).trans ?_
      rw [fieldOf_masked _ _ _ _ hcov]
      refine (fieldOf_withField_same v ⟨0, 0, 16⟩ _ (by decide)).trans ?_
      simp only [clampN, bits, Nat.shiftRight_zero]
      omega
    · have hcov : ∀ i, i < 1 → (0x0001FFFF : W32).getLsbD (16 + i) = true := by decide
      have hget : ∀ w : W32, (s.setReg R.MODE_KEY w).get R.MODE_KEY_KEYOFF_STANDBY = fieldOf w R.MODE_KEY_KEYOFF_STANDBY :=
        fun w => congrArg (fieldOf · R.MODE_KEY_KEYOFF_STANDBY) (State.reg_setReg_same ..)
      rw [State.flag, hget, fieldOf_masked _ _ _ _ hcov]
      exact (fieldOf_bit _ rfl).trans (by rw [withField_getLsbD _ _ _ _ (by decide)]; rfl)
  · refine hexec 15 (by decide) (by decide) ?_
    rw [State.hostWrite32_thawed hf (by decide) (by decide), if_neg (by decide)]
    exact ⟨rfl, rfl⟩
  · rw [State.hostWrite32_thawed hf hw hh, if_pos ⟨hlo, hhi⟩, if_neg (by simp [Option.isNone_iff_eq_none, Option.isSome_iff_ne_none.1 hrow])]
    rfl
  · rw [State.hostWrite32_partial hf hbe, State.partialWrite]
    refine ⟨?_, ?_, ?_, ?_, ?_, ?_, ?_⟩
    · rw [State.raise_get _ _ _ _ _ (by decide), State.get_count_same _ _ _ (by decide)]
      rfl
    · exact ((Grows.refl s).count (by decide) 1).stored hr (by decide) _ _ _ _
    · exact State.raise_chan ..
    · exact State.raise_eng ..
    · exact State.raise_units ..
    · exact State.raise_keepWrites ..
    · exact State.raise_mode _ (by decide) ..
  · rw [State.hostWrite32_frozen hf hne]
    refine ⟨?_, fun x hx => State.reg_countReg_other _ _ _ _ hx, rfl⟩
    have hreg : (s.countReg R.HP_FRZ_WR).reg R.HP_FRZ_WR = BitVec.ofNat 32 (satU 32 ((s.reg R.HP_FRZ_WR).toNat + 1)) :=
      State.reg_setReg_same ..
    rw [State.regN, hreg, State.regN, BitVec.toNat_ofNat, satU]
    omega

end Sys2Proof.Machine
end

section
/-! PROOFS. Reads (R6, R8, R10, R263) and the state window (R415, R418). -/

namespace Sys2Proof.Machine

section Reads

variable {s : State} {a : Nat}

/-- The bytes of a word that byte enables name, as a filter of its four bytes. -/
theorem enabledBytes_eq (w : W32) (be : BitVec 4) : enabledBytes w be =
    (([w.extractLsb' 0 8, w.extractLsb' 8 8, w.extractLsb' 16 8, w.extractLsb' 24 8].zipIdx.filter fun x => be.getLsbD x.2).map (·.1)) := by
  have hrange : List.range 4 = [0, 1, 2, 3] := rfl
  simp only [enabledBytes, hrange, List.zipIdx, List.filterMap, List.filter, Nat.zero_add]
  cases be.getLsbD 0 <;> cases be.getLsbD 1 <;> cases be.getLsbD 2 <;> cases be.getLsbD 3 <;> rfl

theorem enabledBytes_all (w : W32) :
    enabledBytes w 15 = [w.extractLsb' 0 8, w.extractLsb' 8 8, w.extractLsb' 16 8, w.extractLsb' 24 8] := rfl

theorem State.peek_thawed (hf : s.mode.frozen = false) : s.peek a = s.liveWord a := by
  rw [peek, hf]
  rfl

theorem State.pathWord_host (hf : s.mode.frozen = false) : s.pathWord .host a = s.liveWord a := peek_thawed hf

theorem State.readCmd_bar0 (hd : s.mode.domeRun = true) (ha : a < 0x10000) (h4 : a % 4 = 0) (be : List (BitVec 4)) :
    s.readCmd .host .bar0 (BitVec.ofNat 16 a).toNat be = (s.read0 .host a be).2.send (.readReply .host (s.read0 .host a be).1) := by
  have haddr : (BitVec.ofNat 16 a).toNat / 4 * 4 = a := by
    rw [BitVec.toNat_ofNat, Nat.mod_eq_of_lt ha]
    omega
  simp only [readCmd, pathOpen, hd, haddr]
  rfl

theorem State.read0_one (be : BitVec 4) :
    s.read0 .host a [be] = (enabledBytes (s.read32 .host a).1 be, (s.read32 .host a).2) := rfl

/-- A read of a whole 32-bit register (R6). -/
theorem State.read32_plain (hf : s.mode.frozen = false) (hw : isWide a = false) (hh : isHigh a = false) :
    s.read32 .host a = (s.liveWord a, s.rcClear a) := by
  simp only [read32, hw, hh, Bool.false_eq_true, if_false, pathWord_host hf, rcNow, hf, Bool.not_false, Bool.true_or, if_true]

theorem State.read32_low (hf : s.mode.frozen = false) (hw : isWide a = true) :
    s.read32 .host a = (s.liveWord a, s.setLatch .host ⟨some a, s.liveWord (a + 4)⟩) := by
  simp only [read32, hw, if_true, pathWord_host hf]

/-- No word is both the low and the high half of a 64-bit register. -/
theorem isWide_high (h8 : a % 8 = 4) : isWide a = false := by
  unfold isWide
  simp only [List.contains_eq_mem, List.mem_cons, List.not_mem_nil]
  split_ifs <;> simp <;> omega

theorem State.read32_latched {hi : W32} (h8 : a % 8 = 4) (hh : isHigh a = true)
    (hl : s.latch .host = ⟨some (a - 4), hi⟩) : s.read32 .host a = (hi, s.setLatch .host {}) := by
  simp only [read32, isWide_high h8, hh, hl, Bool.false_eq_true, if_false, if_true]

theorem State.read32_high (hf : s.mode.frozen = false) (h8 : a % 8 = 4) (hh : isHigh a = true)
    (hl : (s.latch .host).owner ≠ some (a - 4)) : s.read32 .host a = (s.liveWord a, s) := by
  simp only [read32, isWide_high h8, hh, hl, Bool.false_eq_true, if_false, if_true, pathWord_host hf]

/-- The two halves of a 64-bit read. -/
theorem State.read0_wide (hf : s.mode.frozen = false) (h8 : a % 8 = 0) (hw : isWide a = true) :
    s.read0 .host a [15, 15] = (enabledBytes (s.liveWord a) 15 ++ enabledBytes (s.liveWord (a + 4)) 15, s) := by
  have hlo (hi lo : W32) : (hi ++ lo).extractLsb' 0 32 = lo := BitVec.extractLsb'_append_eq_right
  have hhi (hi lo : W32) : (hi ++ lo).extractLsb' 32 32 = hi := BitVec.extractLsb'_append_eq_left
  simp only [read0, h8, decide_true, Bool.true_and, if_true, read64, hw, pathWord_host hf, wideBytes, hlo, hhi]

/-- The RC fields of a word, where they are bits of the register file. -/
theorem State.rcClear_eq {r : RegRow} (hr : regRow a = some r) (ha : a ≠ R.EDDY_STAT) :
    s.rcClear a = if r.rc = 0 then s else s.setReg a (s.reg a &&& ~~~r.rc) := by
  simp only [rcClear, hr, ha, if_false]

end Reads

/-- Settles O17: a read is its word (`State.liveWord`), its answer sent and the effect that `State.read32` gives it. -/
theorem readsAnswerAndPeek : Obligations.ReadsAnswerAndPeek := by
  refine ⟨fun s a hd hf ha => ⟨fun r be h4 hw hh hr hne => ?_, ?_, fun h8 hw => ?_, fun h8 hh => ⟨fun hi hl => ?_,
    fun hl => ?_⟩⟩, fun s off n hd => ⟨?_, ?_, fun hf a ha => ?_, fun hf a ha => ?_⟩⟩
  · have hexec := State.readCmd_bar0 hd ha h4 [be]
    rw [State.read0_one, State.read32_plain hf hw hh, State.rcClear_eq hr hne, enabledBytes_eq] at hexec
    refine ⟨_, congrArg Host.Outcome.next hexec, ?_, ?_, fun x hx => ?_, ?_⟩
    · show (_ ++ _ : List Out) = _
      split <;> rfl
    · split
      · rfl
      · exact State.reg_setReg_same ..
    · split
      · rfl
      · exact State.reg_setReg_other _ _ _ _ hx
    · split <;> rfl
  · have hexec := State.readCmd_bar0 (a := R.EDDY_STAT) hd (by decide) (by decide) [15]
    rw [State.read0_one, State.read32_plain hf (by decide) (by decide)] at hexec
    have hclear : s.rcClear R.EDDY_STAT = s.modEng s.eddySel fun g => { g with eddy := { g.eddy with dropped := 0 } } := by
      have hrow : regRow R.EDDY_STAT = some ⟨0x102c, 4, 1, 0, 0, 0, 0xFFFF0000, 0, 0⟩ := by decide
      simp only [State.rcClear, hrow, if_true]
      exact if_neg (by decide)
    rw [hclear] at hexec
    exact ⟨_, congrArg Host.Outcome.next hexec, rfl, congrArg (fun g : Engine => g.eddy.dropped) (State.modEng_eng_same ..), rfl⟩
  · have hexec := State.readCmd_bar0 hd ha (by omega) [15]
    have hexec2 := State.readCmd_bar0 hd ha (by omega) [15, 15]
    rw [State.read0_one, State.read32_low hf hw] at hexec
    rw [State.read0_wide hf h8 hw] at hexec2
    exact ⟨_, congrArg Host.Outcome.next hexec, rfl, rfl, rfl, rfl, rfl, congrArg Host.Outcome.next hexec2⟩
  · have hexec := State.readCmd_bar0 hd ha (by omega) [15]
    rw [State.read0_one, State.read32_latched h8 hh hl] at hexec
    exact ⟨_, congrArg Host.Outcome.next hexec, rfl, rfl, rfl⟩
  · have hexec := State.readCmd_bar0 hd ha (by omega) [15]
    rw [State.read0_one, State.read32_high hf h8 hh hl] at hexec
    exact congrArg Host.Outcome.next hexec
  · refine ⟨(List.range n).map fun k => (s.bar4Word ((off.toNat + k) / 4 * 4)).extractLsb' (8 * ((off.toNat + k) % 4)) 8, ?_, ?_,
      fun k hk => ?_⟩
    · rw [List.length_map, List.length_range]
    · rw [exec_bar4Read, execBar4Read, if_pos hd]
    · rw [List.getElem?_map, List.getElem?_range hk]
      rfl
  · have hwin : s.bar4Word 0 = wordOfBytes s.winHeader 0 := by
      simp only [State.bar4Word, State.winWord, Nat.zero_lt_succ, decide_true, Bool.or_true, if_true]
    obtain ⟨l, hl⟩ : ∃ l, s.winHeader = 0x46 :: 0x52 :: 0x5A :: 0x4E :: l := ⟨_, rfl⟩
    rw [hwin, hl]
    simp [wordOfBytes, leAt, slice, byteAt, leVal, List.range_succ]
  · simp only [State.bar4Word, hf, Bool.false_or, decide_eq_true_eq, Nat.not_lt.2 ha, if_false]
  · have hat : 0x10000 + a - 0x10000 = a := Nat.add_sub_cancel_left ..
    simp only [State.bar4Word, State.winWord, hf, Bool.true_or, if_true, hat,
      (by omega : 0x10000 ≤ 0x10000 + a), (by omega : 0x10000 + a < 0x20000), decide_true, Bool.and_true]
    exact if_neg (by omega)

end Sys2Proof.Machine
end

section
/-! PROOFS. Resets of the Dome logic (R39, R40, R42, R49, R390, Table 02.3). -/

namespace Sys2Proof.Machine

/-! ### Changes of the register file alone -/

/-- From `s` to `t` nothing but the register file changes. -/
def OnlyRegs (s t : State) : Prop := ∃ r, t = { s with regs := r }

section OnlyRegs

variable {s t : State}

theorem OnlyRegs.refl (s : State) : OnlyRegs s s := ⟨s.regs, rfl⟩

theorem OnlyRegs.setReg (h : OnlyRegs s t) (a : Nat) (v : W32) : OnlyRegs s (t.setReg a v) := by
  obtain ⟨r, rfl⟩ := h
  exact ⟨_, rfl⟩

theorem OnlyRegs.put (h : OnlyRegs s t) (f : Fld) (v : Nat) : OnlyRegs s (t.put f v) := h.setReg ..
theorem OnlyRegs.putFlag (h : OnlyRegs s t) (f : Fld) (b : Bool) : OnlyRegs s (t.putFlag f b) := h.put ..
theorem OnlyRegs.count (h : OnlyRegs s t) (f : Fld) (n : Nat) : OnlyRegs s (t.count f n) := h.put ..

theorem OnlyRegs.forAll {α : Type} {f : α → State → State} (h : OnlyRegs s t) (hf : ∀ a u, OnlyRegs s u → OnlyRegs s (f a u))
    (l : List α) : OnlyRegs s (forAll l f t) := by
  induction l generalizing t with
  | nil => exact h
  | cons a l ih => exact ih (hf a t h)

/-- A word that no step of a sweep writes keeps its value. -/
theorem forAll_reg {α : Type} {f : α → State → State} {x : Nat} {l : List α} (hf : ∀ a ∈ l, ∀ u, (f a u).reg x = u.reg x) :
    (Machine.forAll l f s).reg x = s.reg x := by
  induction l generalizing s with
  | nil => rfl
  | cons a l ih =>
    exact (ih (s := f a s) fun b hb => hf b (List.mem_cons_of_mem a hb)).trans (hf a List.mem_cons_self s)

end OnlyRegs

/-- A word list filtered by offset. -/
theorem wordLookup_filter (l : List (Nat × W32)) (p : Nat → Bool) (a : Nat) :
    wordLookup (l.filter fun r => p r.1) a = if p a then wordLookup l a else none := by
  induction l with
  | nil => exact (ite_self _).symm
  | cons x l ih =>
    obtain ⟨k, v⟩ := x
    by_cases hk : k = a
    · subst hk
      by_cases hp : p k = true <;> simp [List.filter, wordLookup, hp, ih]
    · by_cases hp : p k = true <;> simp [List.filter, wordLookup, hp, hk, ih]

/-! ### The Dome-logic reset -/

section Reset

variable {s : State}

theorem State.ocvReset_onlyRegs : OnlyRegs s s.ocvReset := (OnlyRegs.refl s).forAll (fun _ _ h => h.put ..) _

/-- The OCV table lies in the Estimator block. -/
theorem State.ocvReset_reg {a : Nat} (ha : a < 0x2400 ∨ 0x2800 ≤ a) : s.ocvReset.reg a = s.reg a :=
  forAll_reg fun j hj u => reg_put_other _ _ _ _ <| by
    have hlt := List.mem_range.1 hj
    simp only [R.OCV_TBL_MV, R.OCV_TBL]
    omega

/-- What the words that a Dome-logic reset writes on their own are. -/
def resetWords : List Nat := [R.SEQ_STAT, R.PACK_STAT, R.FLT_ERR_CTRL]

theorem State.domeLogicReset_reg {a : Nat} (ha : a ∉ resetWords) (ho : a < 0x2400 ∨ 0x2800 ≤ a) :
    s.domeLogicReset.reg a = if turretHeld a then s.reg a else regReset a := by
  simp only [resetWords, List.mem_cons, List.not_mem_nil, or_false, not_or] at ha
  obtain ⟨hseq, hpack, herr⟩ := ha
  unfold domeLogicReset
  dsimp only
  rw [ocvReset_reg ho, reg_putFlag_other _ _ _ _ herr, reg_putFlag_other _ _ _ _ hpack, reg_putFlag_other _ _ _ _ hseq,
    reg_putFlag_other _ _ _ _ hseq, reg_putFlag_other _ _ _ _ hseq]
  simp only [reg, wordLookup_filter]
  split <;> rfl

/-- The state that a Dome-logic reset leaves but for its register file. -/
theorem State.domeLogicReset_rest : ∃ r, s.domeLogicReset =
    { pending := s.pending, regs := r, mode := s.mode.domeReset, tick := { wall := s.tick.wall }, units := Vector.ofFn CmpUnit.reset,
      course := { enc0 := s.course.enc0.domeReset, enc1 := s.course.enc1.domeReset },
      chan := Vector.ofFn fun c : Fin 256 => s.chan[c].domeReset c, eng := Vector.ofFn Engine.reset, hp := { sent := s.hp.sent },
      power := s.power.domeReset s.tick.wall, est := { lastStepAt := s.tick.wall }, rail := s.rail, hk := s.hk,
      die := s.die.map DieTh.domeReset, silt := { s.silt with copy := none }, flt := { pulseUntil := s.flt.pulseUntil },
      dbg := { s.dbg with refused := false }, otp := s.otp.domeReset s.tick.wall s.free, tw := s.tw, free := s.free + 1 } :=
  ocvReset_onlyRegs

theorem State.domeLogicReset_eng (e : Eng) : s.domeLogicReset.eng[e] = Engine.reset e := by
  obtain ⟨r, hr⟩ := s.domeLogicReset_rest
  rw [hr]
  simp only [Fin.getElem_fin, Vector.getElem_ofFn, Fin.eta]

theorem State.domeLogicReset_units (u : CUnit) : s.domeLogicReset.units[u] = CmpUnit.reset u := by
  obtain ⟨r, hr⟩ := s.domeLogicReset_rest
  rw [hr]
  simp only [Fin.getElem_fin, Vector.getElem_ofFn, Fin.eta]

theorem State.domeLogicReset_ch (c : Ch) : s.domeLogicReset.ch c = (s.ch c).domeReset c := by
  obtain ⟨r, hr⟩ := s.domeLogicReset_rest
  rw [hr]
  simp only [ch, Fin.getElem_fin, Vector.getElem_ofFn, Fin.eta]

/-- The arrays of an OTP without a command in progress keep their contents. -/
theorem Otp.domeReset_arrays {o : Otp} (h : o.run = none) (wall free : Nat) :
    (o.domeReset wall free).config = o.config ∧ (o.domeReset wall free).patch = o.patch ∧ (o.domeReset wall free).trim = o.trim := by
  simp only [domeReset, cutOff, h, and_self]

theorem LegSt.domeReset_worn (x : LegSt) : x.domeReset.worn = x.worn := by
  unfold domeReset
  split <;> rfl

/-- A rail that is marked as faulted returns to sequencing at a fault reset. -/
def State.railsReturn (s : State) : State :=
  forAll allRails (fun r t => if t.get (R.RAIL_STAT_STATE r) = 6 then t.put (R.RAIL_STAT_STATE r) 0 else t) s

theorem State.railsReturn_onlyRegs : OnlyRegs s s.railsReturn := by
  refine (OnlyRegs.refl s).forAll (fun r u h => ?_) _
  split
  · exact h.put ..
  · exact h

theorem State.railsReturn_reg {a : Nat} (h : ∀ r : Rail, a ≠ R.RAIL_STAT r) : s.railsReturn.reg a = s.reg a := by
  refine forAll_reg fun r _ u => ?_
  split
  · exact reg_put_other _ _ _ _ (h r)
  · rfl

/-- A reset of the Dome logic of kind `k`, before the start is resumed. -/
def State.resetDome (s : State) (k : ResetKind) : State :=
  ((s.resetCauseBit k.bit).domeLogicReset).modMode fun m => { m with heldReset := none }

/-- A reset that no comparator holds: the Dome-logic reset, and the start resumed at step 0x04. -/
theorem State.resetBy_resume (k : ResetKind) (h0 : (s.die[0]).shutAt = none) (h1 : (s.die[1]).shutAt = none) :
    ∃ t, s.resetBy k = t.resumeStart4 ∧ OnlyRegs (s.resetDome k) t ∧
      ∀ a, (∀ r : Rail, a ≠ R.RAIL_STAT r) → t.reg a = (s.resetCauseBit k.bit).domeLogicReset.reg a := by
  have hfree : s.resetBy k =
      (if k = .fault || k = .freezeLimit then (s.resetDome k).railsReturn else s.resetDome k).resumeStart4 := by
    have hnot : ¬((s.die[0]).shutAt.isSome || (s.die[1]).shutAt.isSome) = true := by simp [h0, h1]
    exact if_neg hnot
  refine ⟨_, hfree, ?_⟩
  split
  · exact ⟨railsReturn_onlyRegs, fun a ha => (railsReturn_reg ha).trans (modMode_reg ..)⟩
  · exact ⟨OnlyRegs.refl _, fun a _ => modMode_reg ..⟩

/-- What Table 02.3 marks of a reset that resumes the start. -/
structure Resumed (s t : State) (bit : BitVec 6) : Prop where
  slots : t.silt.slots = s.silt.slots
  arrays : s.otp.run = none → t.otp.config = s.otp.config ∧ t.otp.patch = s.otp.patch ∧ t.otp.trim = s.otp.trim
  outside : t.mode.pins = s.mode.pins ∧ t.pending = s.pending
  now : t.now = 0
  eng : ∀ e : Eng, t.eng[e] = Engine.reset e
  port : t.hp.lends = [] ∧ t.hp.events = []
  units : ∀ u : CUnit, t.units[u] = CmpUnit.reset u
  locks : t.mode.rwlLocked = false ∧ t.mode.fault = false ∧ t.mode.frozen = false
  cause : t.mode.resetCause = s.mode.resetCause ||| bit
  start : t.mode.mode = .standby ∧ t.mode.bootStep = 4 ∧ t.mode.starting = true
  power : t.power.sw = s.power.sw ∧ t.silt.pon = s.silt.pon
  chan : ∀ c : Ch, t.ch c = (s.ch c).domeReset c
  turret : ∀ a, (0x2000 ≤ a ∧ a < 0x2400) ∨ (0x2800 ≤ a ∧ a < 0x3000) → a ≠ R.PACK_STAT → a ≠ R.SEQ_STAT →
    (∀ r : Rail, a ≠ R.RAIL_STAT r) → t.reg a = s.reg a
  dome : ∀ a, a < 0x2000 ∨ 0x3000 ≤ a → a ≠ R.FLT_ERR_CTRL → t.reg a = regReset a

theorem State.resetBy_resumed (k : ResetKind) (h0 : (s.die[0]).shutAt = none) (h1 : (s.die[1]).shutAt = none) :
    Resumed s (s.resetBy k) (BitVec.ofNat 6 (2 ^ k.bit)) := by
  obtain ⟨t, ht, ⟨r, rfl⟩, hreg⟩ := s.resetBy_resume k h0 h1
  rw [ht]
  have heng := (s.resetCauseBit k.bit).domeLogicReset_eng
  have hunits := (s.resetCauseBit k.bit).domeLogicReset_units
  have hch := (s.resetCauseBit k.bit).domeLogicReset_ch
  have hword {a : Nat} := (s.resetCauseBit k.bit).domeLogicReset_reg (a := a)
  obtain ⟨r', hr⟩ := (s.resetCauseBit k.bit).domeLogicReset_rest
  exact {
    slots := by rw [resetDome, hr]; rfl
    arrays := fun h => by rw [resetDome, hr]; exact Otp.domeReset_arrays h _ _
    outside := by rw [resetDome, hr]; exact ⟨rfl, rfl⟩
    now := by rw [resetDome, hr]; rfl
    eng := heng
    port := by rw [resetDome, hr]; exact ⟨rfl, rfl⟩
    units := hunits
    locks := by rw [resetDome, hr]; exact ⟨rfl, rfl, rfl⟩
    cause := by rw [resetDome, hr]; rfl
    start := ⟨rfl, rfl, rfl⟩
    power := by rw [resetDome, hr]; exact ⟨rfl, rfl⟩
    chan := hch
    turret := fun a ha hp hs hrail => by
      have hmem : a ∉ resetWords := by
        have he : a ≠ R.FLT_ERR_CTRL := by simp only [R.FLT_ERR_CTRL]; omega
        simp only [resetWords, List.mem_cons, List.not_mem_nil, or_false, not_or]
        exact ⟨hs, hp, he⟩
      have hheld : turretHeld a = true := by
        simp only [turretHeld, Bool.or_eq_true, Bool.and_eq_true, decide_eq_true_eq]
        exact ha
      exact (hreg a hrail).trans ((hword hmem (by omega)).trans (if_pos hheld))
    dome := fun a ha he => by
      have hmem : a ∉ resetWords := by
        simp only [resetWords, List.mem_cons, List.not_mem_nil, or_false, not_or, R.SEQ_STAT, R.PACK_STAT]
        exact ⟨by omega, by omega, he⟩
      have hheld : turretHeld a ≠ true := by
        simp only [turretHeld, ne_eq, Bool.or_eq_true, Bool.and_eq_true, decide_eq_true_eq]
        omega
      have hrail (r : Rail) : a ≠ R.RAIL_STAT r := by
        simp only [R.RAIL_STAT]
        omega
      exact (hreg a hrail).trans ((hword hmem (by omega)).trans (if_neg hheld)) }

theorem State.reset_units (u : CUnit) : State.reset.units[u] = CmpUnit.reset u := by
  simp only [State.reset, Fin.getElem_fin, Vector.getElem_ofFn, Fin.eta]

theorem State.resetDue_of {k : ResetKind} {n : Nat} (hp : s.mode.pendingReset = some (k, n)) (hc : s.clockOn = true) (hn : n ≤ s.now) :
    s.resetDue k = true := by
  simp only [resetDue, hp, hc, hn, decide_true, Bool.and_self]

/-- The release of a comparator gives the reset that waited for it, which then resumes the start. -/
theorem execCoreThermalRelease_held {b : Bool} {n : Nat} {k : ResetKind} (hshut : (s.die[if b then (1 : DieIx) else 0]).shutAt = some n)
    (hn : n + 200000000 ≤ s.tick.wall) (hk : s.mode.heldReset = some k) :
    execCoreThermalRelease b s = .next ((s.modDie (if b then 1 else 0) fun x => { x with shutAt := none }).resetBy k) := by
  have hwall : n + ticksPerS ≤ s.tick.wall := hn
  simp only [execCoreThermalRelease, hshut, hwall, if_true, State.modDie_mode, hk]

end Reset

/-- Settles O18. -/
theorem resetsReachWhatTheTableMarks : Obligations.ResetsReachWhatTheTableMarks := by
  intro s kept cleared resumes d
  have hresumes {i : Instr} {t : State} {bit : BitVec 6} (hi : exec i s = .next t) (h : Resumed s t bit) : resumes bit i := by
    refine ⟨t, hi, ⟨h.slots, h.arrays, h.outside⟩, ⟨h.now, h.eng, h.port.1, h.port.2, h.units, h.locks⟩, h.cause, h.start.1,
      h.start.2.1, h.start.2.2, h.power.1, h.power.2, fun c => ?_, h.turret, h.dome⟩
    rw [h.chan c]
    exact ⟨rfl, LegSt.domeReset_worn _, LegSt.domeReset_worn _⟩
  refine ⟨⟨_, rfl, ⟨rfl, fun h => Otp.domeReset_arrays h _ _, rfl, rfl⟩, ?_, rfl, rfl, rfl, rfl, State.reset_ch, fun a => rfl⟩,
    fun hship => if_pos hship, fun h0 h1 => ⟨fun hship => ?_, fun n hclock hn => ⟨fun hp => ?_, fun hp => ?_⟩⟩,
    fun hship hshut => ?_, fun b n k hshut hn hother hk => ?_⟩
  · exact ⟨rfl, State.reset_eng, rfl, rfl, State.reset_units, rfl, rfl, rfl⟩
  · exact hresumes (t := s.resetBy .pin) (if_neg hship) (s.resetBy_resumed .pin h0 h1)
  · exact hresumes (t := s.resetBy .command) (if_pos (State.resetDue_of hp hclock hn)) (s.resetBy_resumed .command h0 h1)
  · exact hresumes (t := s.resetBy .fault) (if_pos (State.resetDue_of hp hclock hn)) (s.resetBy_resumed .fault h0 h1)
  · have hheld : ((s.die[0]).shutAt.isSome || (s.die[1]).shutAt.isSome) = true := by
      rw [Bool.or_eq_true]
      exact .inl hshut
    rw [exec_resetNPin, execResetNPin, if_neg hship, State.resetBy, if_pos hheld]
    rfl
  · let u := s.modDie (d b) fun x => { x with shutAt := none }
    have hown : (u.die[d b]).shutAt = none := congrArg DieTh.shutAt (upd_same ..)
    have hkept : (u.die[d (!b)]).shutAt = none := by
      have hne : d (!b) ≠ d b := by cases b <;> decide
      exact (congrArg DieTh.shutAt (upd_other _ _ _ _ hne)).trans hother
    have hboth : (u.die[0]).shutAt = none ∧ (u.die[1]).shutAt = none := by
      cases b
      · exact ⟨hown, hkept⟩
      · exact ⟨hkept, hown⟩
    have hres := u.resetBy_resumed k hboth.1 hboth.2
    have hsame : Resumed s (u.resetBy k) (BitVec.ofNat 6 (2 ^ k.bit)) := { hres with }
    exact hresumes (execCoreThermalRelease_held hshut hn hk) hsame

end Sys2Proof.Machine
end

section
/-! PROOFS. What lies behind the host port: the parts of the state that answering the host leaves alone (R41, R271, R277, R283). -/

namespace Sys2Proof.Machine

/-- The state without what events, answers to the host and the end of a lend may touch. -/
def State.behind (s : State) : State :=
  { s.still with hp := {}, arb := {}, rv := {}, spire := Vector.replicate 16 {}, eng := s.eng.map fun x => { x with eddy := {} } }

section Behind

variable {s t : State}

theorem State.behind_of_still (h : t.still = s.still) : t.behind = s.behind :=
  congrArg (fun x : State => { x with
    hp := {}, arb := {}, rv := {}, spire := Vector.replicate 16 {}, eng := x.eng.map fun y : Engine => { y with eddy := {} } }) h

theorem State.raiseLimited_behind (c : BitVec 16) (k : BitVec 2) (d : W32) (i n : Nat) : (s.raiseLimited c k d i n).behind = s.behind :=
  behind_of_still (raiseLimited_still ..)

theorem State.raise_behind (c : BitVec 16) (k : BitVec 2) (d : W32) : (s.raise c k d).behind = s.behind :=
  behind_of_still (raise_still ..)

theorem State.modHp_behind (f : HostPort → HostPort) : (s.modHp f).behind = s.behind := rfl
theorem State.modArb_behind (f : Arb → Arb) : (s.modArb f).behind = s.behind := rfl
theorem State.modRv_behind (f : River → River) : (s.modRv f).behind = s.behind := rfl

theorem State.hold_behind (k : Fin 4) (rq : Rq) (e : Entry) : (s.hold k rq e).behind = s.behind := by
  unfold hold
  split <;> rfl

theorem State.modEng_eddy_behind (e : Eng) (f : Engine → Eddy) : (s.modEng e fun g => { g with eddy := f g }).behind = s.behind := by
  have hmap : (upd s.eng e fun g => { g with eddy := f g }).map (fun x : Engine => { x with eddy := {} }) =
      s.eng.map (fun x : Engine => { x with eddy := {} }) := by
    refine Vector.ext fun i hi => ?_
    by_cases h : e.val = i
    · simp [upd, h]
    · simp [upd, h]
  have hrest : (s.modEng e fun g => { g with eddy := f g }).behind =
      { s.behind with eng := (upd s.eng e fun g => { g with eddy := f g }).map fun x : Engine => { x with eddy := {} } } := rfl
  rw [hrest, hmap]
  rfl

theorem foldl_behind {α : Type} {f : State → α → State} (hf : ∀ u a, (f u a).behind = u.behind) (l : List α) :
    (l.foldl f s).behind = s.behind := by
  induction l generalizing s with
  | nil => rfl
  | cons a l ih => exact ih.trans (hf s a)

theorem State.completeOne_behind (q : Ring) (x : InExec) (status : Byte) (info : W64) (r276 : Bool) :
    (s.completeOne q x status info r276).behind = s.behind := by
  unfold completeOne
  refine Eq.trans ?_ (hold_behind (s.cqOf q) (s.rqOf q) (.cmd (if status = 0 || status = 0x22 then info else 0) x.tag x.sqhd status q))
  dsimp only
  split
  · rfl
  · split
    · exact raiseLimited_behind ..
    · rfl

theorem State.barriers_behind (q : Ring) : (s.barriers q).behind = s.behind := foldl_behind (fun _ _ => completeOne_behind ..) _

theorem State.complete_behind (q : Ring) (tag : BitVec 16) (slot : Nat) (status : Byte) (info : W64) (r276 : Bool) :
    (s.complete q tag slot status info r276).behind = s.behind := by
  unfold complete
  split
  · exact (barriers_behind q).trans (completeOne_behind ..)
  · rfl

theorem State.siltCopyEnd_behind : s.siltCopyEnd.behind = s.behind := by
  unfold siltCopyEnd
  split
  · rfl
  · exact raise_behind ..

theorem State.streamOff_behind : s.streamOff.behind = s.behind := rfl

theorem State.eddyCopyEnd_behind (x : EddyCopy) (status : Byte) : (s.eddyCopyEnd x status).behind = s.behind := by
  unfold eddyCopyEnd
  dsimp only
  rw [complete_behind, modArb_behind]
  exact modEng_eddy_behind ..

theorem ite_behind {p : Prop} [Decidable p] (h : t.behind = s.behind) : (if p then t else s).behind = s.behind := by
  split
  · exact h
  · rfl

/-- The end of a lend touches nothing behind the host port. -/
theorem State.endLend_behind (tag : W32) : (s.endLend tag).behind = s.behind := by
  unfold endLend
  dsimp only
  rw [modArb_behind, foldl_behind fun _ _ => complete_behind .., modRv_behind, modArb_behind, foldl_behind fun _ _ => complete_behind ..,
    modArb_behind, foldl_behind fun _ _ => eddyCopyEnd_behind .., ite_behind streamOff_behind, ite_behind siltCopyEnd_behind, modHp_behind]

end Behind

end Sys2Proof.Machine
end

section
/-! PROOFS. The PCI Express fundamental reset (R34, R41, R45, Tables 02.3, 10.18). -/

namespace Sys2Proof.Machine

/-- `ERR_N`'s word is the only one that a pulse writes. -/
theorem State.errPulse_reg_other {s : State} {a : Nat} (h : a ≠ R.FLT_ERR_CTRL) : s.errPulse.reg a = s.reg a := by
  have hflt (t : State) (x : FaultSt) : ({ t with flt := x } : State).reg a = t.reg a := rfl
  unfold errPulse
  dsimp only
  rw [hflt, reg_putFlag_other _ _ _ _ h]
  split
  · exact reg_count_other _ _ _ _ h
  · rfl

/-- An F0 event with room in the store writes no register but its counter and `ERR_N`'s word. -/
theorem State.raise_f0_reg {s : State} (hlen : s.hp.events.length < 256) (c : BitVec 16) (d : W32) {a : Nat} (hcnt : a ≠ R.FLT_CNT)
    (herr : a ≠ R.FLT_ERR_CTRL) : (s.raise c 0 d).reg a = s.reg a := by
  have hcount : (s.classCount 0).reg a = s.reg a := reg_count_other _ _ _ _ hcnt
  have hstore (p : Prop) [Decidable p] (e : Evt) : (if p then (s.classCount 0).storeEvent e else s.classCount 0).reg a = s.reg a := by
    split
    · rw [storeEvent, if_pos (by rw [classCount_hp]; exact hlen)]
      exact hcount
    · exact hcount
  have hpulse (p : Prop) [Decidable p] (t : State) : (if p then t.errPulse else t).reg a = t.reg a := by
    split
    · exact errPulse_reg_other herr
    · rfl
  unfold raise raiseWith
  dsimp only
  rw [notice_reg, if_neg (by decide), if_neg (by decide), hpulse, hstore]

section Perst

variable {s : State}

/-- A fundamental reset before its event: the lends end, then the host port and all that it held is reset. -/
def State.perstReset (s : State) : State :=
  let s := { s with regs := s.regs.filter fun r => r.1 < 0x800 || 0x1000 ≤ r.1 }
  let s := s.modHp fun h => h.perst s.spire
  let s := s.modArb fun a => { a with tenure := none, data := [], reads := [], redo := Vector.replicate 24 none, rq := a.rq.map fun (r : RqSt) => { r with since := none, wait := 0 } }
  let s := (s.modOtp fun o => { o with load := o.load.map fun (x : ImgLoad) => { x with req := none } }).imgKeep fun r =>
    match r with
    | .key .. => true
    | _ => false
  let s := s.modRv fun r => { r with mailA := [], mailB := [], recvs := [] }
  let s := { s with frz := { s.frz with req := none }
                    chan := s.chan.map fun (h : Chan) => { h with seqr := { h.seqr with
                      cancels := h.seqr.cancels.map fun (x : CancelReq) => { x with req := none } } } }
  (s.resetCauseBit 2).modMode fun m =>
    { m with bootStep := if 9 ≤ m.bootStep then 9 else m.bootStep, move := m.move.map fun (x : Move) => { x with req := none } }

/-- `PERST#` noted low and the lends ended. -/
def State.lendsEnd (s : State) : State :=
  let s := s.modMode fun m => { m with pins := { m.pins with perstHigh := false } }
  s.hp.lends.foldl (fun t l => t.endLend l.tag) s

theorem execPerstAssert_live (h : s.domeLive = true) : execPerstAssert s = .next (s.lendsEnd.perstReset.raise 0x020A 0 1) := by
  have hl : (s.modMode fun m => { m with pins := { m.pins with perstHigh := false } }).domeLive = true := h
  unfold execPerstAssert
  dsimp only
  rw [hl]
  rfl

theorem State.lendsEnd_behind : s.lendsEnd.behind = (s.modMode fun m => { m with pins := { m.pins with perstHigh := false } }).behind :=
  foldl_behind (fun _ _ => endLend_behind _) _

/-- What a fundamental reset leaves of the mode block. -/
theorem State.perstReset_mode : s.perstReset.mode = { s.mode with
    resetCause := s.mode.resetCause ||| 4, bootStep := if 9 ≤ s.mode.bootStep then 9 else s.mode.bootStep,
    move := s.mode.move.map fun (x : Move) => { x with req := none } } := rfl

theorem State.perstReset_reg (a : Nat) : s.perstReset.reg a = if a < 0x800 ∨ 0x1000 ≤ a then s.reg a else regReset a := by
  have hregs : s.perstReset.regs = s.regs.filter fun r => r.1 < 0x800 || 0x1000 ≤ r.1 := rfl
  rw [reg, hregs, wordLookup_filter _ fun x => x < 0x800 || 0x1000 ≤ x]
  simp only [Bool.or_eq_true, decide_eq_true_eq]
  split <;> rfl

theorem State.perstReset_ch (c : Ch) : (s.perstReset.ch c).seqr.live = (s.ch c).seqr.live ∧ (s.perstReset.ch c).ctl = (s.ch c).ctl ∧
    (s.perstReset.ch c).flight = (s.ch c).flight := by
  have hchan : s.perstReset.chan = s.chan.map fun (h : Chan) => { h with seqr := { h.seqr with
      cancels := h.seqr.cancels.map fun (x : CancelReq) => { x with req := none } } } := rfl
  simp only [ch, hchan, Fin.getElem_fin, Vector.getElem_map, and_self]

theorem State.perstReset_ring (q : Ring) : (s.perstReset.hp.rings[q]).pi = 0 ∧ (s.perstReset.hp.rings[q]).ci = 0 ∧
    (s.perstReset.hp.rings[q]).fetched = [] := by
  have hrings : s.perstReset.hp.rings = (s.hp.perst s.spire).rings := rfl
  simp only [hrings, HostPort.perst, Fin.getElem_fin, Vector.getElem_ofFn, and_self]

/-- What lies behind the host port and is no Eddy buffer stands. -/
theorem State.behind_eng {t : State} (h : t.behind = s.behind) (e : Eng) :
    t.eng[e].g = s.eng[e].g ∧ t.eng[e].dram = s.eng[e].dram ∧ t.eng[e].running = s.eng[e].running := by
  have heng : (t.eng.map fun x : Engine => { x with eddy := {} })[e] = (s.eng.map fun x : Engine => { x with eddy := {} })[e] :=
    congrArg (fun x : State => x.eng[e]) h
  simp only [Fin.getElem_fin, Vector.getElem_map] at heng
  exact ⟨(congrArg Engine.g heng :), (congrArg Engine.dram heng :), (congrArg Engine.running heng :)⟩

theorem State.perstReset_hp : s.perstReset.hp = s.hp.perst s.spire := rfl

theorem State.perstReset_events : s.perstReset.hp.events = s.hp.events := by
  rw [perstReset_hp]
  simp only [HostPort.perst]

theorem State.perstReset_tick : s.perstReset.tick = s.tick := rfl
theorem State.perstReset_eng : s.perstReset.eng = s.eng := rfl

theorem State.lendsEnd_none (h : s.hp.lends = []) :
    s.lendsEnd = s.modMode fun m => { m with pins := { m.pins with perstHigh := false } } := by
  rw [lendsEnd]
  dsimp only
  rw [modMode_hp, h]
  rfl

/-- A fundamental reset tells its event and, its lends ended, touches no register outside the block but the event's. -/
theorem State.perstReset_told (hlen : s.hp.events.length < 256) :
    Stored s (s.perstReset.raise 0x020A 0 1) 0x020A 0 1 ∧
      (∀ a, 0x800 ≤ a → a < 0x1000 → (s.perstReset.raise 0x020A 0 1).reg a = regReset a) ∧
      ∀ a, a < 0x800 ∨ 0x1000 ≤ a → a ≠ R.FLT_CNT → a ≠ R.FLT_ERR_CTRL → (s.perstReset.raise 0x020A 0 1).reg a = s.reg a := by
  have hev : s.perstReset.hp.events.length < 256 := by rwa [perstReset_events]
  have hf0 : s.perstReset.flag R.HP_EVT_CFG_F0_EN = true := by
    rw [flag, get, perstReset_reg, if_neg (by decide)]
    decide
  refine ⟨?_, fun a hlo hhi => ?_, fun a ha hcnt herr => ?_⟩
  · rw [Stored, raise, raiseWith_events _ _ _ _ _ hev (.inr hf0), perstReset_tick]
    exact List.mem_append_right _ (List.mem_singleton_self _)
  · have hcnt : a ≠ R.FLT_CNT := by simp only [R.FLT_CNT]; omega
    have herr : a ≠ R.FLT_ERR_CTRL := by simp only [R.FLT_ERR_CTRL]; omega
    rw [raise_f0_reg hev _ _ hcnt herr, perstReset_reg, if_neg (by omega)]
  · rw [raise_f0_reg hev _ _ hcnt herr, perstReset_reg, if_pos ha]

end Perst

/-- Settles O19. -/
theorem perstResetsTheHostPortOnly : Obligations.PerstResetsTheHostPortOnly := by
  intro s pins
  refine ⟨fun hoff => ?_, fun hon => ⟨_, execPerstAssert_live hon, ?_⟩, rfl⟩
  · have hl : (s.modMode fun m => { m with pins := { m.pins with perstHigh := false } }).domeLive = false := hoff
    rw [exec_perstAssert, execPerstAssert]
    dsimp only
    rw [hl]
    rfl
  · have hbeh := s.lendsEnd_behind
    have hmode := s.lendsEnd.perstReset.raise_mode (k := 0) (by decide) 0x020A 1
    rw [hmode, State.perstReset_mode]
    refine ⟨(congrArg (fun x : State => x.mode.mode) hbeh :), (congrArg (fun x : State => x.mode.rwlLocked) hbeh :),
      (congrArg (fun x : State => x.mode.fault) hbeh :), (congrArg (fun x : State => x.mode.resetCause ||| 4) hbeh :),
      (congrArg (fun x : State => x.mode.pins) hbeh :), ?_, ?_, ?_, ?_, ?_, ?_, fun c => ?_, fun e => ?_, fun q => ?_, fun hl hlen => ?_⟩
    · have hstep : s.lendsEnd.mode.bootStep = s.mode.bootStep := (congrArg (fun x : State => x.mode.bootStep) hbeh :)
      simp only [hstep, BitVec.le_def]
      exact apply_ite BitVec.toNat ..
    · exact (State.raise_units ..).trans (congrArg State.units hbeh :)
    · exact (State.raise_course ..).trans (congrArg State.course hbeh :)
    · exact State.raise_hp_lends ..
    · exact State.raise_hp_busMaster ..
    · exact State.raise_hp_linkUp ..
    · have hchan : s.lendsEnd.chan = s.chan := (congrArg State.chan hbeh :)
      have hperst := s.lendsEnd.perstReset_ch c
      rw [State.raise_ch]
      rwa [State.ch, State.ch, hchan] at hperst
    · rw [State.raise_eng]
      exact State.behind_eng hbeh e
    · rw [State.raise_hp_rings]
      exact State.perstReset_ring q
    · rw [State.lendsEnd_none hl]
      obtain ⟨hstored, hblock, hrest⟩ :=
        (s.modMode fun m => { m with pins := { m.pins with perstHigh := false } }).perstReset_told hlen
      exact ⟨hstored, State.raise_eng .., hblock, hrest⟩

end Sys2Proof.Machine
end

section
/-! PROOFS. Triggers of a start, the edges of `KEY` and the moves that time starts (R19, R30, R35, R469, Table 02.2). -/

namespace Sys2Proof.Machine

section Starts

variable {s : State}

/-- The warm start from STANDBY with no move in progress, the Keep having its reference. -/
theorem State.warmStart_go (hmode : s.mode.mode = .standby) (hstart : s.mode.starting = false) (hfault : s.mode.fault = false)
    (hmove : s.mode.move = none) (hkeep : s.mode.keep ≠ .halted) (href : s.mode.refLost = false) :
    s.warmStart = s.modMode fun m => { m with starting := true, bootStep := 7, domeRun := true, exitHeld := false } := by
  have habandon : s.moveAbandon = s := by rw [moveAbandon, hmove]
  simp only [warmStart, hmode, hstart, hfault, hkeep, href, habandon]
  rfl

theorem State.warmStart_held (hmode : s.mode.mode = .standby) (hstart : s.mode.starting = false) (hfault : s.mode.fault = false)
    (hheld : s.mode.keep = .halted ∨ s.mode.refLost = true) : s.warmStart = s.modMode fun m => { m with exitHeld := true } := by
  have hcond : (s.mode.keep = .halted || s.mode.refLost) = true := by simpa using hheld
  simp only [warmStart, hmode, hstart, hfault]
  exact if_pos hcond

theorem State.warmStart_other (hmode : s.mode.mode ≠ .standby) : s.warmStart = s := by
  simp only [warmStart, hmode, decide_false, Bool.false_and, Bool.false_eq_true, if_false]

theorem State.coldStart_ship (hmode : s.mode.mode = .ship) :
    s.coldStart = s.modMode fun m => { m with mode := .standby, starting := true, bootStep := 1 } := if_pos hmode

theorem State.startTrigger_ship (hmode : s.mode.mode = .ship) : s.startTrigger = s.coldStart := if_pos hmode

theorem State.startTrigger_standby (hmode : s.mode.mode = .standby) : s.startTrigger = s.warmStart :=
  if_neg (by rw [hmode]; decide)

/-- The return of the reference to a halted Keep in one of its windows. -/
theorem execKeepReferenceReturn_ok {hz : Nat} (hkeep : s.mode.keep = .halted)
    (hok : 24500000 ≤ hz ∧ hz ≤ 25500000 ∨ 98000000 ≤ hz ∧ hz ≤ 102000000) :
    execKeepReferenceReturn hz s = .next (if s.mode.exitHeld then
      (s.modMode fun m => { m with keep := .run, refLost := false }).warmStart else
      s.modMode fun m => { m with keep := .run, refLost := false }) := by
  have href : refOk hz = true := by simpa [refOk] using hok
  have hrun : (s.modMode fun m => { m with keep := if m.keep = .halted then .run else m.keep, refLost := false }) =
      s.modMode fun m => { m with keep := .run, refLost := false } := by
    simp only [State.modMode, hkeep, if_true]
  simp only [execKeepReferenceReturn, hkeep, href, decide_true, Bool.true_or, if_true, hrun]
  rfl

theorem execKeepReferenceLoss_standby (hmode : s.mode.mode = .standby) (hstart : s.mode.starting = false) : execKeepReferenceLoss s =
    match s.mode.keep with
    | .run => .next (s.modMode fun m => { m with keep := .halted })
    | .restart => .next (s.modMode fun m => { m with refLost := true })
    | _ => .next s :=
  if_pos (by rw [hmode, hstart]; rfl)

/-- The edge of `KEY` that starts the delay. -/
theorem execKeyFalling_link (h : s.mode.mode.isLink = true) : execKeyFalling s =
    .next (s.modMode fun m => { m with pins := { m.pins with key := false }, keyoffFrom := some s.tick.wall }) := by
  have hlink : (s.modMode fun m => { m with pins := { m.pins with key := false } }).mode.mode.isLink = true := h
  rw [execKeyFalling]
  dsimp only
  rw [if_pos hlink]
  rfl

theorem execKeyFalling_other (h : s.mode.mode.isLink = false) : execKeyFalling s =
    .next (s.modMode fun m => { m with pins := { m.pins with key := false } }) := by
  have hlink : ¬(s.modMode fun m => { m with pins := { m.pins with key := false } }).mode.mode.isLink = true := ne_true_of_eq_false h
  rw [execKeyFalling]
  dsimp only
  rw [if_neg hlink]

end Starts

section Moves

variable {s : State} {m : Move}

/-- What the beginning of a move leaves: the rail sequencer's mark and the mode block alone change. -/
structure Begins (s t : State) (m : Move) : Prop where
  move : t.mode.move = some m
  mode : ∃ b, t.mode = { s.mode with move := t.mode.move, moveFresh := true, roadLock := b }
  hp : t.hp = s.hp
  tick : t.tick = s.tick
  regs : t.regs = s.regs

theorem State.hopBegin_eq (s : State) : ∃ b, s.hopBegin = s.modMode fun m => { m with roadLock := b } := by
  unfold hopBegin
  repeat' split
  · exact ⟨true, rfl⟩
  all_goals exact ⟨s.mode.roadLock, rfl⟩

/-- A move without a request begins. -/
theorem State.moveBegin_begins (hreq : m.req = none) : Begins s (s.moveBegin m) m := by
  have hsame : { m with req := none } = m := by rw [← hreq]
  have hdone (t : State) (x : Byte) (y : W64) : t.moveDone m x y = t := by rw [moveDone, hreq]
  have heq : s.moveBegin m = ({ s with seqr := { s.seqr with stopDone := false } }.modMode fun x =>
      { x with move := some m, moveFresh := true }).hopBegin := by
    unfold moveBegin
    dsimp only
    rw [hdone, hsame]
    split <;> rfl
  obtain ⟨b, hb⟩ := ({ s with seqr := { s.seqr with stopDone := false } }.modMode fun x =>
      { x with move := some m, moveFresh := true }).hopBegin_eq
  rw [heq, hb]
  exact ⟨rfl, ⟨b, rfl⟩, rfl, rfl, rfl⟩

theorem State.moveTrigger_none (h : s.mode.move = none) : s.moveTrigger m = s.moveBegin m := by
  rw [moveTrigger, h]

theorem Begins.grows {t : State} (h : Begins s t m) : Grows s t 0 := by
  refine .of_same (congrArg TickSt.now h.tick) ?_ (congrArg HostPort.events h.hp)
  simp only [State.flag, State.get, State.reg, h.regs]

/-- A move that begins, told by an F0 event. -/
theorem Begins.raised {t : State} (h : Begins s t m) (code : BitVec 16) :
    (t.raise code 0 0).mode.move = some m ∧ (t.raise code 0 0).mode.mode = s.mode.mode ∧
      (s.Room → Stored s (t.raise code 0 0) code 0 0) := by
  obtain ⟨b, hmode⟩ := h.mode
  refine ⟨?_, ?_, fun hr => h.grows.stored hr (by decide) _ _ _ _⟩
  · rw [State.raise_mode _ (by decide)]
    exact h.move
  · rw [State.raise_mode_mode, hmode]

theorem State.keyoffMove_none (h : s.mode.move = none) : s.keyoffMove =
    if s.mode.mode = .road ∧ s.moving = true then s.modMode fun m => { m with keyoffWait := true }
    else s.moveBegin { hops := hopsTo s.mode.mode .standby, cause := .keyOff } := by
  rw [keyoffMove, h]
  simp only [Bool.and_eq_true, decide_eq_true_eq]

theorem hopsTo_standby {x : Mode} (h : x = .ready ∨ x = .field ∨ x = .road ∨ x = .service) :
    hopsTo x .standby = if x = .ready then [.standby] else [.ready, .standby] := by
  rcases h with rfl | rfl | rfl | rfl <;> rfl

/-- The move to STANDBY by its intermediate modes. -/
def KeyoffRoute (s t : State) : Prop := ∃ m, t.mode.move = some m ∧ m.cause = .keyOff ∧ m.req = none ∧
  m.hops = if s.mode.mode = .ready then [.standby] else [.ready, .standby]

/-- What the end of the KEY-off delay decides, once its event is raised. -/
def State.keyoffDecided (s : State) : State :=
  if s.flag R.MODE_KEY_KEYOFF_STANDBY && s.mode.mode.isLink && !s.mode.fault then s.keyoffMove else s

theorem State.keyoffDecided_stay (h : (s.flag R.MODE_KEY_KEYOFF_STANDBY && s.mode.mode.isLink && !s.mode.fault) = false) :
    s.keyoffDecided = s := if_neg (ne_true_of_eq_false h)

theorem State.keyoffDecided_wait (hmove : s.mode.move = none) (hfault : s.mode.fault = false)
    (hflag : s.flag R.MODE_KEY_KEYOFF_STANDBY = true) (hroad : s.mode.mode = .road) (hfast : s.moving = true) :
    s.keyoffDecided = s.modMode fun m => { m with keyoffWait := true } := by
  have hlink : s.mode.mode.isLink = true := by rw [hroad]; rfl
  rw [keyoffDecided, hflag, hlink, hfault]
  exact (if_pos rfl).trans ((keyoffMove_none hmove).trans (if_pos ⟨hroad, hfast⟩))

theorem State.keyoffDecided_go (hmove : s.mode.move = none) (hfault : s.mode.fault = false)
    (hflag : s.flag R.MODE_KEY_KEYOFF_STANDBY = true) (hlink : s.mode.mode.isLink = true)
    (hslow : ¬(s.mode.mode = .road ∧ s.moving = true)) :
    s.keyoffDecided = s.moveBegin { hops := hopsTo s.mode.mode .standby, cause := .keyOff } := by
  rw [keyoffDecided, hflag, hlink, hfault]
  exact (if_pos rfl).trans ((keyoffMove_none hmove).trans (if_neg hslow))

/-- The decision leaves the mode, the delay and the event store. -/
theorem State.keyoffDecided_keeps (hmove : s.mode.move = none) : s.keyoffDecided.mode.mode = s.mode.mode ∧
    s.keyoffDecided.mode.keyoffFrom = s.mode.keyoffFrom ∧ Grows s s.keyoffDecided 0 := by
  unfold keyoffDecided
  split
  · rw [keyoffMove_none hmove]
    split
    · exact ⟨rfl, rfl, (Grows.refl s).modMode _⟩
    · have hb := s.moveBegin_begins (m := { hops := hopsTo s.mode.mode .standby, cause := .keyOff }) rfl
      obtain ⟨b, hmode⟩ := hb.mode
      exact ⟨by rw [hmode], by rw [hmode], hb.grows⟩
  · exact ⟨rfl, rfl, Grows.refl s⟩

theorem execKeyoffDelayExpiry_due {n : Nat} (hn : s.mode.keyoffFrom = some n) (hclock : s.clockOn = true)
    (hdue : n + s.get R.MODE_KEY_KEYOFF_DELAY * 200000000 ≤ s.tick.wall) : execKeyoffDelayExpiry s =
    .next ((s.modMode fun m => { m with keyoffFrom := none }).raise 0x0104 0).keyoffDecided := by
  have hdue' : n + s.get R.MODE_KEY_KEYOFF_DELAY * ticksPerS ≤ s.tick.wall := hdue
  simp only [execKeyoffDelayExpiry, hn, hclock, hdue', decide_true, Bool.and_self, if_true]
  rfl

end Moves

/-- Settles O20. -/
theorem startTriggersKeyAndTimedMoves : Obligations.StartTriggersKeyAndTimedMoves := by
  refine ⟨fun s => ⟨fun hship => ⟨?_, ?_, ?_, ?_⟩, fun hmode hstart hfault hmove => ⟨fun hkeep href => ⟨?_, ?_, ?_, ?_⟩, fun hheld => ?_,
    fun hrun => ?_, fun hres => ?_, fun hz hhalt hok => ?_⟩, fun hmode => ?_, fun hlink => ?_⟩, fun s hclock hfault hmove => ?_⟩
  · have h := State.startTrigger_ship
      (s := s.modMode fun m => { m with pins := { m.pins with wake := true, wakeAt := s.tick.wall } }) hship
    exact congrArg Host.Outcome.next (h.trans (State.coldStart_ship hship))
  · have h := State.startTrigger_ship (s := s.modMode fun m => { m with pins := { m.pins with tf := true } }) hship
    exact congrArg Host.Outcome.next (h.trans (State.coldStart_ship hship))
  · exact congrArg Host.Outcome.next (State.warmStart_other (by rw [hship]; decide))
  · exact execKeyFalling_other (by rw [hship]; rfl)
  · exact congrArg Host.Outcome.next (State.warmStart_go hmode hstart hfault hmove hkeep href)
  · have h := State.startTrigger_standby
      (s := s.modMode fun m => { m with pins := { m.pins with wake := true, wakeAt := s.tick.wall } }) hmode
    exact congrArg Host.Outcome.next (h.trans (State.warmStart_go hmode hstart hfault hmove hkeep href))
  · have h := State.startTrigger_standby (s := s.modMode fun m => { m with pins := { m.pins with tf := true } }) hmode
    exact congrArg Host.Outcome.next (h.trans (State.warmStart_go hmode hstart hfault hmove hkeep href))
  · have h := State.warmStart_go
      (s := s.modMode fun m => { m with pins := { m.pins with key := true }, keyoffFrom := none, keyoffWait := false })
      hmode hstart hfault hmove hkeep href
    exact congrArg Host.Outcome.next ((if_pos hmode).trans h)
  · exact congrArg Host.Outcome.next (State.warmStart_held hmode hstart hfault hheld)
  · have h := execKeepReferenceLoss_standby hmode hstart
    rw [hrun] at h
    exact h
  · have h := execKeepReferenceLoss_standby hmode hstart
    rw [hres] at h
    exact h
  · have h := execKeepReferenceReturn_ok hhalt hok
    rw [State.warmStart_go (s := s.modMode fun m => { m with keep := .run, refLost := false }) hmode hstart hfault hmove
      (by simp) rfl] at h
    exact h.trans (congrArg Host.Outcome.next (apply_ite (fun x : ModeSt => ({ s with mode := x } : State)) _ _ _).symm)
  · exact congrArg Host.Outcome.next (if_neg hmode)
  · refine execKeyFalling_link ?_
    rcases hlink with h | h | h | h <;> rw [h] <;> rfl
  · have hbegins (u : State) (hops : List Mode) (cause : MoveCause) := u.moveBegin_begins (m := { hops := hops, cause := cause }) rfl
    refine ⟨fun n hn hdue => ?_, fun hwait hkeep hroad hslow => ?_, fun hserv => ⟨fun n hn hfast => ?_, fun hact hexp => ?_⟩⟩
    · let u := (s.modMode fun m => { m with keyoffFrom := none }).raise 0x0104 0
      have hmode : u.mode = { s.mode with keyoffFrom := none } := State.raise_mode _ (by decide) ..
      have hstored (hr : s.Room) : Stored s u 0x0104 0 0 := Stored.of_raise (s := s.modMode _) ⟨hr.space, hr.f0⟩ 0x0104 0 0
      have hflag : u.flag R.MODE_KEY_KEYOFF_STANDBY = s.flag R.MODE_KEY_KEYOFF_STANDBY := State.raise_flag _ _ _ _ _ (by decide)
      have hmoving : u.moving = s.moving := by rw [State.moving, State.raise_course]; rfl
      have humove : u.mode.move = none := by rw [hmode]; exact hmove
      have hufault : u.mode.fault = false := by rw [hmode]; exact hfault
      have humd : u.mode.mode = s.mode.mode := by rw [hmode]
      obtain ⟨hkept, hfrom, hgrows⟩ := u.keyoffDecided_keeps humove
      have hroute (hf : s.flag R.MODE_KEY_KEYOFF_STANDBY = true)
          (hlink : s.mode.mode = .ready ∨ s.mode.mode = .field ∨ s.mode.mode = .road ∨ s.mode.mode = .service)
          (hslow : ¬(s.mode.mode = .road ∧ s.moving = true)) : KeyoffRoute s u.keyoffDecided := by
        rw [State.keyoffDecided_go humove hufault (hflag.trans hf) (by rw [humd]; rcases hlink with h | h | h | h <;> rw [h] <;> rfl)
          (by rwa [humd, hmoving])]
        exact ⟨_, (hbegins u _ .keyOff).move, rfl, rfl, by rw [humd]; exact hopsTo_standby hlink⟩
      refine ⟨_, execKeyoffDelayExpiry_due hn hclock hdue, hfrom.trans (by rw [hmode]), fun hr => ?_, hkept.trans humd, fun hf => ?_,
        fun hf => ⟨fun hlink => hroute hf ?_ ?_, fun hroad hslow => hroute hf ?_ ?_, fun hroad hfast => ?_⟩⟩
      · exact Grows.stored_then (s := s.modMode _) ⟨hr.space, hr.f0⟩ (Grows.refl _) 0x0104 0 0 {} hgrows (by decide)
      · rw [State.keyoffDecided_stay (by rw [hflag, hf]; rfl), hmode]
        exact hmove
      · rcases hlink with h | h | h <;> simp [h]
      · rcases hlink with h | h | h <;> simp [h]
      · exact .inr (.inr (.inl hroad))
      · simp [State.moving, hslow]
      · rw [State.keyoffDecided_wait humove hufault (hflag.trans hf) (humd.trans hroad)
          (hmoving.trans (by simpa [State.moving] using hfast))]
        exact ⟨humove, rfl⟩
    · have hb := hbegins (s.modMode fun m => { m with keyoffWait := false }) (hopsTo s.mode.mode .standby) .keyOff
      obtain ⟨b, hmode⟩ := hb.mode
      refine ⟨_, if_pos ?_, ⟨_, hb.move, rfl, rfl, hopsTo_standby (.inr (.inr (.inl hroad)))⟩, ?_⟩
      · have hstill : s.moving = false := by simpa [State.moving] using hslow
        simp [hwait, hkeep, hroad, hclock, hfault, hmove, hstill, Mode.isLink]
      · rw [hmode]
        rfl
    · obtain ⟨hmv, hmd, hst⟩ := (hbegins (s.modMode fun x => { x with fastSince := none }) [.ready] .overspeed).raised 0x0106
      refine ⟨_, ?_, ⟨_, hmv, rfl, rfl, rfl⟩, hmd.trans hserv, fun hr => hst ⟨hr.space, hr.f0⟩⟩
      have hwall : n + ticksPerS ≤ s.now := hfast
      simp only [exec_serviceOverspeedExit, execServiceOverspeedExit, hn, hclock, hserv, hfault, hwall, hmove, decide_true, Bool.and_self,
        Bool.not_false, Option.map_none, Option.getD_none, if_true]
      rw [State.moveTrigger_none (s := s.modMode fun x => { x with fastSince := none }) hmove]
    · obtain ⟨hmv, hmd, hst⟩ := (hbegins (s.modOtp fun o => { o with unlockActive := false }) [.ready] .expiry).raised 0x0D0A
      refine ⟨_, ?_, ⟨_, hmv, rfl, rfl, rfl⟩, hmd.trans hserv, fun hr => hst ⟨hr.space, hr.f0⟩⟩
      simp only [exec_unlockExpiry, execUnlockExpiry, hact, hclock, hserv, hfault, hexp, decide_true, Bool.and_self,
        Bool.not_false, if_true]
      rw [State.moveTrigger_none (s := s.modOtp fun o => { o with unlockActive := false }) hmove]

end Sys2Proof.Machine
end

section
/-! PROOFS. The entry of a mode (R29, R30, R50, Tables 01.4, 02.2, 02.11). -/

namespace Sys2Proof.Machine

/-! ### Sweeps -/

section Sweeps

variable {α : Type} {f : α → State → State}

/-- What each step of a sweep keeps, the sweep keeps. -/
theorem forAll_keeps {β : Type} (g : State → β) (hf : ∀ a t, g (f a t) = g t) (l : List α) (s : State) : g (forAll l f s) = g s := by
  induction l generalizing s with
  | nil => rfl
  | cons a l ih => exact (ih (f a s)).trans (hf a s)

/-- What one step of a sweep sets up and the others keep holds after it. -/
theorem forAll_establishes {P : State → Prop} {a : α} (hset : ∀ t, P (f a t)) (hkeep : ∀ b t, P t → P (f b t)) {l : List α} (ha : a ∈ l)
    (s : State) : P (forAll l f s) := by
  have hstay (l : List α) (s : State) (h : P s) : P (forAll l f s) := by
    induction l generalizing s with
    | nil => exact h
    | cons b l ih => exact ih _ (hkeep b s h)
  induction l generalizing s with
  | nil => exact absurd ha List.not_mem_nil
  | cons b l ih =>
    rcases List.mem_cons.1 ha with rfl | ha
    · exact hstay l _ (hset s)
    · exact ih ha _

end Sweeps

section Entry

variable {s : State} {m : Move} {dst : Mode}

/-- The end of a move's last hop, for a move without a request. -/
theorem execModeEntry_last (hmove : s.mode.move = some m) (hhops : m.hops = [dst]) (hreq : m.req = none) (hfault : s.mode.fault = false)
    (hready : s.hopReady dst = true) : execModeEntry s = .next ((s.enterMode dst m).modMode fun x => { x with move := none }) := by
  simp only [execModeEntry, hmove, hhops, hfault, hready, Bool.not_false, Bool.and_self, if_true, State.moveDone, hreq]

/-- A hop to READY of a move that goes on to STANDBY, on which there is no condition. -/
theorem execModeEntry_further (hmove : s.mode.move = some m) (hhops : m.hops = [dst, .standby]) (hfault : s.mode.fault = false)
    (hready : s.hopReady dst = true) (hcond : ∀ t : State, t.hopCond dst .standby = 0) : execModeEntry s =
    .next (((s.enterMode dst m).modMode fun x => { x with move := none }).modMode fun x => { x with
      move := some { m with hops := [.standby] } }) := by
  simp only [execModeEntry, hmove, hhops, hfault, hready, Bool.not_false, Bool.and_self, if_true, hcond]
  rfl

theorem State.enterMode_from_ready (h : s.mode.mode = .ready) : s.enterMode .field m =
      (((s.modMode fun m => { m with mode := .field }).modCourse fun c => { c with fieldPass := false }).shown .field) ∧
    s.enterMode .road m = (s.modMode fun m => { m with mode := .road }).shown .road ∧
    s.enterMode .service m = ((s.modMode fun m => { m with mode := .service }).shown .service).serviceEntry m ∧
    s.enterMode .standby m = ((s.modMode fun m => { m with mode := .standby }).shown .standby).standbyEntry := by
  have hne (x : Mode) (hx : x ≠ .ready) : ¬s.mode.mode = x := by rw [h]; exact hx.symm
  simp only [enterMode, hne .field (by decide), hne .service (by decide), hne .road (by decide), if_false, and_self]

theorem State.enterMode_ready_from_road (h : s.mode.mode = .road) (hstart : s.mode.starting = false) : s.enterMode .ready m =
    ((s.modMode fun m => { m with roadLock := false }).modMode fun m => { m with mode := .ready }).shown .ready := by
  simp [enterMode, h, hstart]

theorem State.enterMode_ready_from_start (h : s.mode.mode = .standby) (hstart : s.mode.starting = true) : s.enterMode .ready m =
    ((s.modMode fun m => { m with mode := .ready }).startDone.shown .ready).pinTrigger := by
  simp [enterMode, h, hstart]

theorem State.shown_mode : (s.shown dst).mode = { s.mode with entryTick := s.tick.now } := raise_mode _ (by decide) ..

theorem State.shown_stored {t : State} {n : Nat} (hr : s.Room) (h : Grows s t n) (hn : n < 8) {d : W32} (hd : BitVec.ofNat 32 dst.code = d) :
    Stored s (t.shown dst) 0x0100 0 d :=
  hd ▸ Grows.stored hr (h.modMode _) hn ..

theorem Stored.modMode {t : State} {code : BitVec 16} {cls : BitVec 2} {data : W32} (h : Stored s t code cls data) (f : ModeSt → ModeSt) :
    Stored s (t.modMode f) code cls data := h

theorem State.serviceEntry_mode : (s.serviceEntry m).mode = s.mode := raise_mode _ (by decide) ..

/-- The mode entry of SERVICE stays stored under the event of its unlock. -/
theorem State.serviceEntry_stored {t : State} (hr : s.Room) (h : Grows s t 0) :
    Stored s ((t.shown .service).serviceEntry m) 0x0100 0 5 :=
  Grows.stored_then hr (h.modMode _) 0x0100 0 5 {} (((Grows.refl (t.shown .service)).modOtp _).raise _ _ _) (by decide)

/-! ### READY at the end of the start -/

theorem State.startDone_mode :
    s.startDone.mode = { s.mode with bootStep := 0, starting := false, rwlLocked := true, afterReset := false } := by
  unfold startDone
  dsimp only
  split
  · exact raise_mode _ (by decide) ..
  · rfl

theorem State.startDone_grows : Grows s s.startDone 1 := by
  unfold startDone
  dsimp only
  split
  · exact ((Grows.refl s).modMode _).raise _ _ _
  · exact ((Grows.refl s).modMode _).mono (by decide)

theorem State.pinTrigger_high (h : s.mode.pins.freezeLow = false) : s.pinTrigger = s := by
  simp only [pinTrigger, h, Bool.false_and, Bool.false_eq_true, if_false]

/-! ### STANDBY -/

theorem State.dropTenure_mode : s.dropTenure.mode = s.mode := by
  unfold dropTenure
  dsimp only
  repeat' split
  all_goals rfl

/-- What STANDBY takes from a channel. -/
def State.unloadCh (s : State) (c : Ch) : State :=
  (((s.putFlag (R.CH_ENG_STAT_LOADED c) false).put (R.CH_ENG_CTRL_RUN c) 0).putFlag (R.CH_ENG_STAT_LAT_ENGINE c) false).modCh c fun h =>
    { h with slot := {}, mirror := {}, copying := none, manual := none, stopReq := false, takeover := none }

/-- The link goes down, which event 0x020A tells. -/
def State.linkLeft (s : State) : State :=
  if s.hp.linkUp then (s.dropTenure.modHp fun h => { h with linkUp := false, speed := 0, width := 0 }).raise 0x020A 0 else s

theorem State.linkLeft_mode : s.linkLeft.mode = s.mode := by
  unfold linkLeft
  split
  · exact (raise_mode _ (by decide) ..).trans dropTenure_mode
  · rfl

/-- An engine without its program and its memories. -/
def Engine.unloaded (x : Engine) : Engine :=
  { x.cleared with running := false, iram := [], codeLen := 0, dram := [], pc := 0, prog := {} }

/-- An entry to STANDBY: the link goes down, the engines lose their programs, then the channels theirs. -/
theorem State.standbyEntry_eq (s : State) : s.standbyEntry =
    (forAll allCh (fun c t => t.unloadCh c) { s.estRecord.linkLeft with eng := s.estRecord.linkLeft.eng.map Engine.unloaded }).modMode
      fun m => { m with domeRun := false, keyoffWait := false } := rfl

/-- The mode block of an entry to STANDBY. -/
theorem State.standbyEntry_mode : s.standbyEntry.mode = { s.mode with domeRun := false, keyoffWait := false } := by
  have hmode : s.estRecord.linkLeft.mode = s.mode := linkLeft_mode.trans (siltPush_mode ..)
  rw [standbyEntry_eq, modMode_mode, forAll_keeps (f := fun c t => t.unloadCh c) State.mode fun _ _ => rfl, hmode]

theorem State.standbyEntry_eng (e : Eng) : s.standbyEntry.eng[e].running = false ∧ s.standbyEntry.eng[e].iram = [] ∧
    s.standbyEntry.eng[e].dram = [] := by
  rw [standbyEntry_eq, modMode_eng, forAll_keeps (f := fun c t => t.unloadCh c) State.eng fun _ _ => rfl]
  simp only [Fin.getElem_fin, Vector.getElem_map, Engine.unloaded, and_self]

theorem mem_allCh (c : Ch) : c ∈ allCh := List.mem_finRange c

theorem State.unloadCh_same (c : Ch) : ((s.unloadCh c).ch c).slot.code = [] ∧ (s.unloadCh c).flag (R.CH_ENG_STAT_LOADED c) = false := by
  refine ⟨congrArg (fun h : Chan => h.slot.code) (upd_same ..), ?_⟩
  have hctrl : R.CH_ENG_CTRL c ≠ R.CH_ENG_STAT c := by simp only [R.CH_ENG_CTRL, R.CH_ENG_STAT]; omega
  rw [unloadCh, modCh_flag, flag_putFlag_other _ _ _ _ (.inr (by exact (by decide : 0 + 1 ≤ 32 ∧ (0 + 1 ≤ 2 ∨ 2 + 1 ≤ 0)))), flag,
    get_put_other _ _ _ _ (.inl hctrl), ← flag]
  exact flag_putFlag_same _ _ _ (by exact (by decide : 0 + 1 ≤ 32)) rfl

theorem State.unloadCh_other {b c : Ch} (h : c ≠ b) :
    (s.unloadCh b).ch c = s.ch c ∧ (s.unloadCh b).flag (R.CH_ENG_STAT_LOADED c) = s.flag (R.CH_ENG_STAT_LOADED c) := by
  have hval : c.val ≠ b.val := fun e => h (Fin.ext e)
  have hstat : R.CH_ENG_STAT b ≠ R.CH_ENG_STAT c := by simp only [R.CH_ENG_STAT]; omega
  have hctrl : R.CH_ENG_CTRL b ≠ R.CH_ENG_STAT c := by simp only [R.CH_ENG_CTRL, R.CH_ENG_STAT]; omega
  refine ⟨upd_other _ _ _ _ h, ?_⟩
  rw [unloadCh, modCh_flag, flag_putFlag_other _ _ _ _ (.inl hstat), flag, get_put_other _ _ _ _ (.inl hctrl), ← flag,
    flag_putFlag_other _ _ _ _ (.inl hstat)]

theorem State.standbyEntry_slot (c : Ch) : (s.standbyEntry.ch c).slot.code = [] ∧
    s.standbyEntry.flag (R.CH_ENG_STAT_LOADED c) = false := by
  rw [standbyEntry_eq, modMode_ch, modMode_flag]
  refine forAll_establishes (f := fun c t => t.unloadCh c) (a := c)
    (P := fun t => (t.ch c).slot.code = [] ∧ t.flag (R.CH_ENG_STAT_LOADED c) = false) (fun t => unloadCh_same c) (fun b t h => ?_)
    (mem_allCh c) _
  by_cases hb : c = b
  · subst hb
    exact unloadCh_same c
  · rw [(unloadCh_other hb).1, (unloadCh_other hb).2]
    exact h

/-! ### SHIP -/

/-- The registers of the power blocks that an entry to SHIP clears. -/
def State.powerOff (s : State) : State :=
  (forAll allRails (fun r t => t.setReg (R.RAIL_STAT r) 0)
    ((((s.put R.CHG_STAT_STATE 0).putFlag R.CHG_STAT_CHG_N false).putFlag R.PACK_STAT_SW_CLOSED false).putFlag
      R.PACK_STAT_BUSKEEP false)).setReg R.RAIL_GOOD 0

theorem State.enterShip_regs (s : State) : s.enterShip.regs = s.domeLogicReset.powerOff.regs := rfl

theorem State.powerOff_words : s.powerOff.flag R.PACK_STAT_SW_CLOSED = false ∧ s.powerOff.reg R.RAIL_GOOD = 0 := by
  refine ⟨?_, reg_setReg_same ..⟩
  have hrails (u : State) : (forAll allRails (fun r t => t.setReg (R.RAIL_STAT r) 0) u).reg R.PACK_STAT = u.reg R.PACK_STAT := by
    refine forAll_keeps (fun t => t.reg R.PACK_STAT) (fun r t => reg_setReg_other _ _ _ _ ?_) _ u
    simp only [R.PACK_STAT, R.RAIL_STAT]
    omega
  have hflag (u : State) : (forAll allRails (fun r t => t.setReg (R.RAIL_STAT r) 0) u).flag R.PACK_STAT_SW_CLOSED =
      u.flag R.PACK_STAT_SW_CLOSED := congrArg (fun w => fieldOf w R.PACK_STAT_SW_CLOSED != 0) (hrails u)
  rw [powerOff, flag_setReg_other _ (by decide), hflag, flag_putFlag_other _ _ _ _ (.inr (by decide))]
  exact flag_putFlag_same _ _ _ (by decide) rfl

theorem State.enterShip_words (s : State) : s.enterShip.flag R.PACK_STAT_SW_CLOSED = false ∧ s.enterShip.reg R.RAIL_GOOD = 0 := by
  have hreg (a : Nat) : s.enterShip.reg a = s.domeLogicReset.powerOff.reg a := by rw [reg, enterShip_regs, ← reg]
  rw [flag, get, hreg, hreg, ← get, ← flag]
  exact powerOff_words

end Entry

/-- Settles O21. -/
theorem modeEntryShowsTheMode : Obligations.ModeEntryShowsTheMode := by
  intro s m hmove hreq hfault enters
  refine ⟨fun hclock => ⟨fun hmode hstart => ?_, fun hmode hstart => ⟨fun hhops => ?_, fun hhops => ?_⟩,
    fun hmode hstart hfz hhops => ?_⟩, fun hmode hkeep hstop hhops => ?_, fun hmode hstart htf hhops => ?_⟩
  · obtain ⟨hfield, hroad, hservice, -⟩ := State.enterMode_from_ready (m := m) hmode
    have hexec {dst : Mode} {u : State} (hhops : m.hops = [dst]) (hready : s.hopReady dst = true) (hu : s.enterMode dst m = u) :
        exec .modeEntry s = .next (u.modMode fun x => { x with move := none }) :=
      hu ▸ execModeEntry_last hmove hhops hreq hfault hready
    refine ⟨fun hhops => ?_, fun hhops => ?_, fun hhops => ?_⟩
    · refine ⟨_, hexec hhops hclock hfield, ?_, ?_, fun hr => ?_, ?_, ?_, ?_, ?_⟩
      · rw [State.modMode_mode, State.shown_mode]; rfl
      · rw [State.modMode_mode, State.shown_mode]; rfl
      · exact (State.shown_stored hr (((Grows.refl s).modMode _).modCourse _) (by decide) rfl).modMode _
      · rfl
      · exact State.raise_eng ..
      · exact State.raise_chan ..
      · rw [State.modMode_mode, State.shown_mode]; rfl
    · refine ⟨_, hexec hhops hclock hroad, ?_, ?_, fun hr => ?_, ?_, ?_, ?_⟩
      · rw [State.modMode_mode, State.shown_mode]; rfl
      · rw [State.modMode_mode, State.shown_mode]; rfl
      · exact (State.shown_stored hr ((Grows.refl s).modMode _) (by decide) rfl).modMode _
      · rfl
      · exact State.raise_chan ..
      · rw [State.modMode_mode, State.shown_mode]; rfl
    · refine ⟨_, hexec hhops hclock hservice, ?_, ?_, fun hr => ?_, ?_, ?_⟩
      · rw [State.modMode_mode, State.serviceEntry_mode, State.shown_mode]; rfl
      · rw [State.modMode_mode, State.serviceEntry_mode, State.shown_mode]; rfl
      · exact (State.serviceEntry_stored hr ((Grows.refl s).modMode _)).modMode _
      · exact congrArg Otp.unlockActive (State.raise_otp ..)
      · exact (congrArg Otp.unlockExpiry (State.raise_otp ..)).trans
          (congrArg (· + BitVec.ofNat 64 m.len) (congrArg TickSt.now (State.raise_tick ..)))
  · have hexec := execModeEntry_last hmove hhops hreq hfault hclock
    rw [State.enterMode_ready_from_road hmode hstart] at hexec
    refine ⟨_, hexec, ?_, ?_, fun hr => ?_, rfl, ?_⟩
    · rw [State.modMode_mode, State.shown_mode]; rfl
    · rw [State.modMode_mode, State.shown_mode]; rfl
    · exact (State.shown_stored hr (((Grows.refl s).modMode _).modMode _) (by decide) rfl).modMode _
    · rw [State.modMode_mode, State.shown_mode]; rfl
  · have hexec := execModeEntry_further hmove hhops hfault hclock fun _ => rfl
    rw [State.enterMode_ready_from_road hmode hstart] at hexec
    refine ⟨_, hexec, ?_, ?_, fun hr => ?_, rfl⟩
    · rw [State.modMode_mode, State.modMode_mode, State.shown_mode]; rfl
    · rw [State.modMode_mode, State.modMode_mode, State.shown_mode]; rfl
    · exact ((State.shown_stored hr (((Grows.refl s).modMode _).modMode _) (by decide) rfl).modMode _).modMode _
  · have hexec := execModeEntry_last hmove hhops hreq hfault hclock
    have hmid : ((s.modMode fun m => { m with mode := .ready }).startDone.shown .ready).mode.pins.freezeLow = false := by
      rw [State.shown_mode, State.startDone_mode]
      exact hfz
    rw [State.enterMode_ready_from_start hmode hstart, State.pinTrigger_high hmid] at hexec
    refine ⟨_, hexec, ?_, ?_, fun hr => ?_, ?_, ?_, ?_⟩
    · rw [State.modMode_mode, State.shown_mode, State.startDone_mode]; rfl
    · rw [State.modMode_mode, State.shown_mode]
      exact (State.startDone_grows (s := s.modMode fun m => { m with mode := .ready })).tick
    · exact (State.shown_stored hr (((Grows.refl s).modMode _).trans State.startDone_grows) (by decide) rfl).modMode _
    · rw [State.modMode_mode, State.shown_mode, State.startDone_mode]
    · rw [State.modMode_mode, State.shown_mode, State.startDone_mode]
    · rw [State.modMode_mode, State.shown_mode, State.startDone_mode]
  · obtain ⟨-, -, -, hstandby⟩ := State.enterMode_from_ready (m := m) hmode
    have hexec := execModeEntry_last hmove hhops hreq hfault (by simp [State.hopReady, hkeep, hstop])
    rw [hstandby] at hexec
    refine ⟨_, hexec, ?_, ?_, fun e => ?_, fun c => ?_⟩
    · rw [State.modMode_mode, State.standbyEntry_mode, State.shown_mode]; rfl
    · rw [State.modMode_mode, State.standbyEntry_mode]
    · rw [State.modMode_eng]
      exact State.standbyEntry_eng e
    · rw [State.modMode_ch, State.modMode_flag]
      exact State.standbyEntry_slot c
  · have hexec := execModeEntry_last hmove hhops hreq hfault (by simp [State.hopReady, hmode, hstart, State.tfPresent, htf])
    have hship : s.enterMode .ship m = s.enterShip := by simp [State.enterMode, hmode]
    rw [hship] at hexec
    obtain ⟨hsw, hgood⟩ := s.enterShip_words
    refine ⟨_, hexec, ?_, ?_, ?_, ?_, ?_⟩
    · rw [State.modMode_mode]; rfl
    · rw [State.modMode_power]; rfl
    · rw [State.modMode_mode]; rfl
    · rw [State.modMode_flag]
      exact hsw
    · rw [State.modMode_reg]
      exact hgood

end Sys2Proof.Machine
end

section
/-! PROOFS. Reading a field after a write of another one or after an event: the rules of the register file with premises that `decide`
settles for named fields, for `simp (disch := decide)`. -/

namespace Sys2Proof.Machine

section Far

variable (s : State) (f g : Fld) (v n : Nat) (b : Bool)

@[simp] theorem State.get_put_far (h : f.addr ≠ g.addr ∨ (g.lo + g.w ≤ 32 ∧ (g.lo + g.w ≤ f.lo ∨ f.lo + f.w ≤ g.lo))) :
    (s.put f v).get g = s.get g := s.get_put_other f g v h
@[simp] theorem State.get_putFlag_far (h : f.addr ≠ g.addr ∨ (g.lo + g.w ≤ 32 ∧ (g.lo + g.w ≤ f.lo ∨ f.lo + f.w ≤ g.lo))) :
    (s.putFlag f b).get g = s.get g := s.get_put_other f g _ h
@[simp] theorem State.get_count_far (h : f.addr ≠ g.addr ∨ (g.lo + g.w ≤ 32 ∧ (g.lo + g.w ≤ f.lo ∨ f.lo + f.w ≤ g.lo))) :
    (s.count f n).get g = s.get g := s.get_put_other f g _ h
@[simp] theorem State.flag_put_far (h : f.addr ≠ g.addr ∨ (g.lo + g.w ≤ 32 ∧ (g.lo + g.w ≤ f.lo ∨ f.lo + f.w ≤ g.lo))) :
    (s.put f v).flag g = s.flag g := by rw [flag, get_put_other _ _ _ _ h, flag]
@[simp] theorem State.flag_putFlag_far (h : f.addr ≠ g.addr ∨ (g.lo + g.w ≤ 32 ∧ (g.lo + g.w ≤ f.lo ∨ f.lo + f.w ≤ g.lo))) :
    (s.putFlag f b).flag g = s.flag g := s.flag_put_far f g _ h
@[simp] theorem State.flag_count_far (h : f.addr ≠ g.addr ∨ (g.lo + g.w ≤ 32 ∧ (g.lo + g.w ≤ f.lo ∨ f.lo + f.w ≤ g.lo))) :
    (s.count f n).flag g = s.flag g := s.flag_put_far f g _ h
@[simp] theorem State.get_put_near (h : f.lo + f.w ≤ 32) : (s.put f v).get f = v % 2 ^ f.w := s.get_put_same f v h
@[simp] theorem State.flag_putFlag_near (h : f.lo + f.w ≤ 32 ∧ f.w = 1) : (s.putFlag f b).flag f = b :=
  s.flag_putFlag_same f b h.1 h.2
@[simp] theorem State.get_setReg_far (a : Nat) (w : W32) (h : g.addr ≠ a) : (s.setReg a w).get g = s.get g :=
  s.get_setReg_other a w g h
@[simp] theorem State.flag_setReg_far (a : Nat) (w : W32) (h : g.addr ≠ a) : (s.setReg a w).flag g = s.flag g :=
  State.flag_setReg_other s h w
@[simp] theorem State.reg_setReg_far (a c : Nat) (w : W32) (h : c ≠ a) : (s.setReg a w).reg c = s.reg c := by
  rw [reg_setReg, if_neg h]
@[simp] theorem State.reg_put_far (a : Nat) (h : a ≠ f.addr) : (s.put f v).reg a = s.reg a := s.reg_put_other f v a h
@[simp] theorem State.reg_putFlag_far (a : Nat) (h : a ≠ f.addr) : (s.putFlag f b).reg a = s.reg a := s.reg_put_other f _ a h
@[simp] theorem State.reg_count_far (a : Nat) (h : a ≠ f.addr) : (s.count f n).reg a = s.reg a := s.reg_put_other f _ a h

end Far

section Events

variable (s : State) (c : BitVec 16) (k : BitVec 2) (d : W32) (g : Fld)

@[simp] theorem State.raise_get_far (h : g.addr ∉ eventRegs) : (s.raise c k d).get g = s.get g := s.raise_get c k d g h
@[simp] theorem State.raise_flag_far (h : g.addr ∉ eventRegs) : (s.raise c k d).flag g = s.flag g := s.raise_flag c k d g h
@[simp] theorem State.raiseWith_get_far (o : RaiseOpt) (h : g.addr ∉ eventRegs) : (s.raiseWith c k d o).get g = s.get g := by
  rw [get, raiseWith_reg _ _ _ _ _ _ h, get]
@[simp] theorem State.raiseWith_flag_far (o : RaiseOpt) (h : g.addr ∉ eventRegs) : (s.raiseWith c k d o).flag g = s.flag g := by
  rw [flag, raiseWith_get_far _ _ _ _ _ _ h, flag]
@[simp] theorem State.raiseSrc_get_far (n : Fin 128) (o : Bool) (h : g.addr ∉ eventRegs) :
    (s.raiseSrc n c k d o).get g = s.get g := by rw [get, raiseSrc_reg _ _ _ _ _ _ _ h, get]
@[simp] theorem State.raiseSrc_flag_far (n : Fin 128) (o : Bool) (h : g.addr ∉ eventRegs) :
    (s.raiseSrc n c k d o).flag g = s.flag g := by rw [flag, raiseSrc_get_far _ _ _ _ _ _ _ h, flag]
@[simp] theorem State.siltPush_get_far (t : Byte) (p : List Byte) (h : g.addr ∉ eventRegs) :
    (s.siltPush t k c p).get g = s.get g := by rw [get, siltPush_reg _ _ _ _ _ _ h, get]
@[simp] theorem State.siltPush_flag_far (t : Byte) (p : List Byte) (h : g.addr ∉ eventRegs) :
    (s.siltPush t k c p).flag g = s.flag g := by rw [flag, siltPush_get_far _ _ _ _ _ _ h, flag]

end Events

section Grows

variable {s t : State} {n : Nat}

theorem Grows.raiseSrc (h : Grows s t n) (i : Fin 128) (c : BitVec 16) (k : BitVec 2) (d : W32) (o : Bool) :
    Grows s (t.raiseSrc i c k d o) (n + 1) := h.trans (t.raiseSrc_grows i c k d o)

theorem Grows.raiseWith (h : Grows s t n) (c : BitVec 16) (k : BitVec 2) (d : W32) (o : RaiseOpt) :
    Grows s (t.raiseWith c k d o) (n + 1) := h.trans (t.raiseWith_grows c k d o)

theorem Grows.siltPush (h : Grows s t n) (r : Byte) (k : BitVec 2) (c : BitVec 16) (p : List Byte) :
    Grows s (t.siltPush r k c p) n :=
  h.same (congrArg TickSt.now (t.siltPush_tick r k c p)) (by rw [State.siltPush_flag_far _ _ _ _ _ _ (by decide)])
    (congrArg HostPort.events (t.siltPush_hp r k c p))

theorem Grows.putFlag (h : Grows s t n) {f : Fld} (hf : f.addr ≠ R.HP_EVT_CFG_F0_EN.addr) (b : Bool) :
    Grows s (t.putFlag f b) n := h.put hf _

/-- The event of a source that is not active yet is stored. -/
theorem Grows.stored_src (hr : s.Room) (h : Grows s t n) (hn : n < 8) (i : Fin 128) (c : BitVec 16) (k : BitVec 2) (d : W32) (o : Bool)
    (hcalm : t.flt.active.contains i = false) : Stored s (t.raiseSrc i c k d o) c k d := by
  unfold State.raiseSrc
  dsimp only
  rw [hcalm, Bool.false_and, Bool.false_and, if_neg (by decide)]
  refine Grows.stored hr ?_ hn c k d _
  exact h.same rfl rfl rfl

theorem Stored.same {u : State} {c : BitVec 16} {k : BitVec 2} {d : W32} (h : Stored s t c k d) (hev : u.hp.events = t.hp.events) :
    Stored s u c k d := by rwa [Stored, hev]

end Grows

end Sys2Proof.Machine
end

section
/-! PROOFS. Pack checks, the probe and the pack switch with its protections (R308 to R313, R317). -/

namespace Sys2Proof.Machine

section PackResult

variable (s : State) (x : PackTaps)

theorem nDet_le (x : PackTaps) (h : x.cells.length ≤ 16) : nDet x ≤ 16 :=
  (List.takeWhile_prefix _).length_le.trans h

theorem packClass_lt (x : PackTaps) (b : Bool) : packClass x b < 8 := by
  unfold packClass; dsimp only; repeat' split
  all_goals decide

theorem packClass_pos (x : PackTaps) (b : Bool) : 0 < packClass x b := by
  unfold packClass; dsimp only; repeat' split
  all_goals decide

/-- The state of a pack check before its event. -/
def State.packNoted (s : State) (x : PackTaps) : State :=
  ((s.put R.PACK_STAT_PACK (packClass x s.power.pswBad)).put R.PACK_STAT_CELLS_DET (nDet x)).modPower fun p =>
    { p with vpMv := x.vp, riseMv := x.rise, lastCheck := s.tick.wall, checked := true }

/-- The event of a pack check, or none (Table 12.10). -/
def State.packTold (s : State) (x : PackTaps) (r old : Nat) : State :=
  if r = 1 then s.raise 0x0600 0 (BitVec.ofNat 32 (nDet x * 256 + s.get R.PACK_STAT_SW_TYPE * 8192))
  else if r = old then s.count R.PACK_CNT_CHECK_FAIL
  else if r = 2 then (s.count R.PACK_CNT_CHECK_FAIL).raise 0x0601 2
  else if r = 3 then (s.count R.PACK_CNT_CHECK_FAIL).raise 0x0602 2
  else (s.count R.PACK_CNT_CHECK_FAIL).raise 0x0603 2 (BitVec.ofNat 32 (satU 16 (roundDiv x.vp 10)))

theorem State.packResult_eq : s.packResult x = (s.packNoted x).packTold x (packClass x s.power.pswBad) s.packCode := rfl

theorem State.packNoted_grows : Grows s (s.packNoted x) 0 :=
  (((Grows.refl s).put (by decide) _).put (by decide) _).modPower _

theorem State.packNoted_code : (s.packNoted x).get R.PACK_STAT_PACK = packClass x s.power.pswBad := by
  simp (disch := decide) [packNoted]
  exact Nat.mod_eq_of_lt (packClass_lt x _)

variable (t : State) (r old : Nat)

theorem State.packTold_power : (t.packTold x r old).power = t.power := by
  unfold packTold; repeat' split
  all_goals simp

theorem State.packTold_chan : (t.packTold x r old).chan = t.chan := by
  unfold packTold; repeat' split
  all_goals simp

theorem State.packTold_eng : (t.packTold x r old).eng = t.eng := by
  unfold packTold; repeat' split
  all_goals simp only [raise_eng, count_eng]

theorem State.packTold_get (f : Fld) (h : f.addr ∉ eventRegs) (hc : R.PACK_CNT_CHECK_FAIL.addr ≠ f.addr) :
    (t.packTold x r old).get f = t.get f := by
  unfold packTold; repeat' split
  all_goals simp only [raise_get _ _ _ _ _ h, count, get_put_other _ _ _ _ (.inl hc)]

theorem State.packTold_missing (hr : s.Room) (h : Grows s t 0) (ho : old ≠ 2) : Stored s (t.packTold x 2 old) 0x0601 2 0 := by
  rw [packTold, if_neg (by decide), if_neg (Ne.symm ho), if_pos rfl]
  exact (h.count (by decide) 1).stored hr (by decide) _ _ _ _

theorem State.packTold_shorted (hr : s.Room) (h : Grows s t 0) (ho : old ≠ 3) : Stored s (t.packTold x 3 old) 0x0602 2 0 := by
  rw [packTold, if_neg (by decide), if_neg (Ne.symm ho), if_neg (by decide), if_pos rfl]
  exact (h.count (by decide) 1).stored hr (by decide) _ _ _ _

theorem State.packTold_again (h1 : r ≠ 1) : (t.packTold x r r).hp = t.hp := by
  rw [packTold, if_neg h1, if_pos rfl]
  rfl

/-- What a pack check leaves behind (R308, Table 12.1, Table 12.10). -/
structure PackChecked (s : State) (x : PackTaps) (t : State) : Prop where
  code : t.get R.PACK_STAT_PACK = packClass x s.power.pswBad
  vp : t.power.vpMv = x.vp
  rise : t.power.riseMv = x.rise
  last : t.power.lastCheck = s.tick.wall
  sw : t.power.sw = s.power.sw
  chan : t.chan = s.chan
  eng : t.eng = s.eng
  missing : packClass x s.power.pswBad = 2 → s.get R.PACK_STAT_PACK ≠ 2 → s.Room → Stored s t 0x0601 2 0
  shorted : packClass x s.power.pswBad = 3 → s.get R.PACK_STAT_PACK ≠ 3 → s.Room → Stored s t 0x0602 2 0
  again : packClass x s.power.pswBad ≠ 1 → packClass x s.power.pswBad = s.get R.PACK_STAT_PACK → t.hp.events = s.hp.events

theorem State.packResult_checked : PackChecked s x (s.packResult x) := by
  rw [packResult_eq]
  have hpow := (s.packNoted x).packTold_power x (packClass x s.power.pswBad) s.packCode
  constructor
  case code => rw [packTold_get _ _ _ _ _ (by decide) (by decide), packNoted_code]
  case vp => rw [hpow]; rfl
  case rise => rw [hpow]; rfl
  case last => rw [hpow]; rfl
  case sw => rw [hpow]; rfl
  case chan => exact packTold_chan ..
  case eng => exact packTold_eng ..
  case missing =>
    intro h2 hold hr
    rw [h2]
    exact s.packTold_missing x _ _ hr (s.packNoted_grows x) hold
  case shorted =>
    intro h3 hold hr
    rw [h3]
    exact s.packTold_shorted x _ _ hr (s.packNoted_grows x) hold
  case again =>
    intro h1 hold
    have hcode : packClass x s.power.pswBad = s.packCode := hold
    rw [← hcode, packTold_again _ _ _ h1]
    rfl

end PackResult

section Switch

variable (s : State)

/-- The Turret takes the pack as missing or shorted, with the event of the result once (R309, R312). -/
def State.packTaken (s : State) (r : Nat) (code : BitVec 16) : State :=
  if s.packCode = r then s else (s.put R.PACK_STAT_PACK r).raise code 2

theorem State.packTaken_code (r : Nat) (hr : r < 8) (code : BitVec 16) : (s.packTaken r code).get R.PACK_STAT_PACK = r := by
  unfold packTaken
  split
  · assumption
  · simp (disch := decide)
    exact Nat.mod_eq_of_lt hr

theorem State.packTaken_stored {t : State} (hr : s.Room) (h : Grows s t 0) (r : Nat) (code : BitVec 16) (hne : t.packCode ≠ r) :
    Stored s (t.packTaken r code) code 2 0 := by
  rw [packTaken, if_neg hne]
  exact (h.put (by decide) r).stored hr (by decide) _ _ _ _

theorem State.packTaken_power (r : Nat) (code : BitVec 16) : (s.packTaken r code).power = s.power := by
  unfold packTaken; split <;> simp

theorem State.packTaken_flag (r : Nat) (code : BitVec 16) (f : Fld) (he : f.addr ∉ eventRegs)
    (hf : R.PACK_STAT_PACK.addr ≠ f.addr ∨
      (f.lo + f.w ≤ 32 ∧ (f.lo + f.w ≤ R.PACK_STAT_PACK.lo ∨ R.PACK_STAT_PACK.lo + R.PACK_STAT_PACK.w ≤ f.lo))) :
    (s.packTaken r code).flag f = s.flag f := by
  unfold packTaken
  split
  · rfl
  · rw [raise_flag _ _ _ _ _ he, flag_put_far _ _ _ _ hf]

theorem State.openSwitch_flag : s.openSwitch.flag R.PACK_STAT_SW_CLOSED = false := by simp (disch := decide) [openSwitch]

theorem State.openSwitch_grows : Grows s s.openSwitch 0 := ((Grows.refl s).putFlag (by decide) _).modPower _

theorem State.openSwitch_code : s.openSwitch.get R.PACK_STAT_PACK = s.get R.PACK_STAT_PACK := by
  simp (disch := decide) [openSwitch]

theorem State.closed_flag : s.closed.flag R.PACK_STAT_SW_CLOSED = true := by simp (disch := decide) [closed]

end Switch

theorem chargeProbe_exec (s : State) (dPack dChg : Nat) (h1 : 1 ≤ s.get R.CHG_STAT_STATE) (h3 : s.get R.CHG_STAT_STATE ≤ 3)
    (hl : s.power.lastProbe + 2000000000 ≤ s.tick.wall) :
    ∃ t, exec (.chargeProbe dPack dChg) s = .next t ∧ t.power.lastProbe = s.tick.wall ∧
      t.power.halfUntil = some (s.tick.wall + 200000) ∧
      (10 * dPack < dChg → t.get R.PACK_STAT_PACK = 2 ∧ t.power.bkPend = true) ∧
      (dChg ≤ 10 * dPack → t.regs = s.regs ∧ t.power.bkPend = s.power.bkPend) := by
  have hgo : (decide (1 ≤ s.chgState) && decide (s.chgState ≤ 3) &&
      decide (s.power.lastProbe + 10 * ticksPerS ≤ s.tick.wall)) = true := by
    simp only [Bool.and_eq_true, decide_eq_true_eq]
    exact ⟨⟨h1, h3⟩, hl⟩
  rw [exec_chargeProbe, execChargeProbe]
  dsimp only
  rw [if_pos hgo]
  by_cases hd : 10 * dPack < dChg
  · rw [if_pos hd]
    refine ⟨_, rfl, ?_, ?_, fun _ => ⟨?_, rfl⟩, fun h => absurd hd (by omega)⟩
    · exact congrArg Power.lastProbe (State.packTaken_power _ 2 0x0601)
    · exact congrArg Power.halfUntil (State.packTaken_power _ 2 0x0601)
    · exact State.packTaken_code _ 2 (by decide) 0x0601
  · rw [if_neg hd]
    exact ⟨_, rfl, rfl, rfl, fun h => absurd h hd, fun _ => ⟨rfl, rfl⟩⟩

theorem packSwitchClose_open (s : State) (v : Nat) (hm : s.mode.mode ≠ .ship) (hp : s.get R.PACK_STAT_PACK = 1)
    (hb : s.flag R.PACK_STAT_BUSKEEP = false) (ho : s.power.sw = .open_) (hc : s.power.checked = true) :
    exec (.packSwitchClose v) s =
      .next (if v ≤ s.power.vpMv + 1000 ∧ s.power.vpMv ≤ v + 1000 then s.closed else s.beginClose v) := by
  rw [exec_packSwitchClose, execPackSwitchClose]
  simp [hm, State.packCode, hp, State.inBuskeep, hb, ho, hc]

theorem packSwitchClose_closing (s : State) (v : Nat) (r : VRamp) (hm : s.mode.mode ≠ .ship) (hp : s.get R.PACK_STAT_PACK = 1)
    (hb : s.flag R.PACK_STAT_BUSKEEP = false) (ho : s.power.sw = .closing) (hr : s.power.ramp = some r)
    (hn : v ≤ s.power.vpMv + 1000 ∧ s.power.vpMv ≤ v + 1000)
    (hd : s.flag R.PACK_STAT_SW_TYPE = true ∨ 1000 * (r.stop - 1000 - r.start) ≤ 11 * (s.tick.wall - r.at_)) :
    exec (.packSwitchClose v) s = .next s.closed := by
  have hdone : s.rampDone = true := by simp [State.rampDone, hr, hd]
  rw [exec_packSwitchClose, execPackSwitchClose]
  simp [hm, State.packCode, hp, State.inBuskeep, hb, ho, hn, hdone]

theorem packCloseTimeout_exec (s : State) (k : Nat) (hk : s.power.closeFrom = some k) (hs : s.power.sw = .closing)
    (ht : k + 20000000 ≤ s.tick.wall) : exec .packCloseTimeout s = .next (s.openSwitch.packTaken 3 0x0602) := by
  have ht' : k + 100 * ticksPerMs ≤ s.tick.wall := ht
  simp only [exec_packCloseTimeout, execPackCloseTimeout, hk, hs, ht', decide_true, Bool.and_self, if_true, State.packTaken]

/-- The state after the trip of a short circuit, before the supply is looked at (R313). -/
def State.tripped (s : State) : State := (s.openSwitch.count R.PACK_CNT_SC_TRIPS).raiseSrc 0x44 0x060F 2

theorem State.tripped_flag (s : State) : s.tripped.flag R.PACK_STAT_SW_CLOSED = false := by
  rw [tripped, raiseSrc_flag_far _ _ _ _ _ _ _ (by decide), flag_count_far _ _ _ _ (by decide), openSwitch_flag]

theorem shortCircuitTrip_exec (s : State) (ho : s.power.sw ≠ .open_) :
    exec .shortCircuitTrip s =
      .next (if s.mode.pins.tf then s.tripped.modPower fun p => { p with bkPend := true } else s.tripped.enterShip) := by
  have htf : s.tripped.tfPresent = s.mode.pins.tf := congrArg Pins.tf (State.raiseSrc_mode_pins ..)
  rw [← htf, exec_shortCircuitTrip, execShortCircuitTrip, if_neg ho]
  rfl

theorem sixtySeconds : 60 * ticksPerS = 12000000000 := rfl

theorem uvCutoff_exec (s : State) (hu : ∃ k, s.power.uvFrom = some k ∧ k + 12000000000 ≤ s.tick.wall) (hk : s.keepRuns = true)
    (htf : s.mode.pins.tf = false) (hm : s.mode.mode ≠ .field) (hs : s.power.sw = .closed) (hn : s.power.uvCutAt = none) :
    ∃ t, exec .uvCutoff s = .next t ∧ t.power.uvCutAt = some (s.tick.wall + 20000000) ∧ t.power.sw = .closed ∧
      (s.Room → Stored s t 0x060E 2 0) := by
  obtain ⟨k, hk', hle⟩ := hu
  have hheld : heldFor s.tick.wall (60 * ticksPerS) s.power.uvFrom = true := by
    rw [hk', heldFor, Option.any_some, decide_eq_true_eq, sixtySeconds]
    exact hle
  rw [exec_uvCutoff, execUvCutoff]
  dsimp only
  rw [if_pos (by simp [hheld, hk, State.tfPresent, htf, hm, hs, hn])]
  refine ⟨_, rfl, ?_, ?_, fun hr => ?_⟩
  · rw [State.modPower_power]
    simp [ticksPerMs]
  · rw [State.modPower_power]
    simp [hs]
  · exact (((Grows.refl s).siltPush _ _ _ _).stored hr (by decide) _ _ _ _).same rfl

/-- Settles O23. -/
theorem packChecksAndSwitch : Obligations.PackChecksAndSwitch := by
  intro s x hm n cls
  have hcls : packClass x s.power.pswBad = cls := by
    simp only [cls, n]
    unfold packClass nDet
    dsimp only
    simp only [List.any_eq_true, Bool.or_eq_true, decide_eq_true_eq, or_assoc]
  have hres := s.packResult_checked x
  have hchecks : ∀ i, exec i s = .next (s.packResult x) → _ := fun i hi =>
    (⟨_, hi, hcls ▸ hres.code, hres.vp, hres.rise, hres.last, hres.sw, hres.chan, hres.eng, hcls ▸ hres.missing, hcls ▸ hres.shorted,
      hcls ▸ hres.again⟩ :
      ∃ t, exec i s = .next t ∧ t.get R.PACK_STAT_PACK = cls ∧ t.power.vpMv = x.vp ∧ t.power.riseMv = x.rise ∧
        t.power.lastCheck = s.tick.wall ∧ t.power.sw = s.power.sw ∧ t.chan = s.chan ∧ t.eng = s.eng ∧
        (cls = 2 → s.get R.PACK_STAT_PACK ≠ 2 → s.Room → Stored s t 0x0601 2 0) ∧
        (cls = 3 → s.get R.PACK_STAT_PACK ≠ 3 → s.Room → Stored s t 0x0602 2 0) ∧
        (cls ≠ 1 → cls = s.get R.PACK_STAT_PACK → t.hp.events = s.hp.events))
  intro checks
  refine ⟨fun ho hlen => ⟨hchecks _ ?_, fun hb hl => hchecks _ ?_⟩, fun dPack dChg => chargeProbe_exec s dPack dChg,
    fun v hp hb => ⟨fun ho hc => ?_, fun r hc hr hn hd => ?_⟩, fun k hk hs ht => ?_, fun ho hcalm => ?_, uvCutoff_exec s⟩
  · simp [execPackCheck, hm, ho]
  · have hl' : s.power.lastCheck + 10 * ticksPerS ≤ s.tick.wall := hl
    simp [execBuskeepPackCheckTimer, State.inBuskeep, hb, ho, hl']
  · refine ⟨_, packSwitchClose_open s v hm hp hb ho hc, fun hnear => ?_, fun hfar => ?_⟩
    · rw [if_pos hnear]
      exact ⟨rfl, s.closed_flag⟩
    · rw [if_neg hfar]
      exact ⟨rfl, rfl, rfl, rfl⟩
  · exact ⟨_, packSwitchClose_closing s v r hm hp hb hc hr hn hd, rfl, s.closed_flag⟩
  · refine ⟨_, packCloseTimeout_exec s k hk hs ht, ?_, ?_, s.openSwitch.packTaken_code 3 (by decide) _, fun hne hr => ?_⟩
    · exact congrArg Power.sw (s.openSwitch.packTaken_power ..)
    · rw [State.packTaken_flag _ _ _ _ (by decide) (by decide), State.openSwitch_flag]
    · exact s.packTaken_stored hr s.openSwitch_grows _ _ (s.openSwitch_code.trans_ne hne)
  · refine ⟨_, shortCircuitTrip_exec s ho, ?_⟩
    cases htf : s.mode.pins.tf
    · exact ⟨rfl, s.tripped.enterShip_words.1, fun h => absurd h (by decide), fun _ => rfl⟩
    · refine ⟨congrArg Power.sw (State.raiseSrc_power ..), s.tripped_flag, fun _ => ⟨rfl, fun hr => ?_⟩, fun h => absurd h (by decide)⟩
      exact (Grows.stored_src hr (s.openSwitch_grows.count (by decide) 1) (by decide) 0x44 0x060F 2 0 false hcalm).same rfl

end Sys2Proof.Machine
end

section
/-! PROOFS. The charger's states: what a change of state does, and the rows of Table 12.3 (R315, R316, R319 to R322, R336). -/

namespace Sys2Proof.Machine

section ChgGo

variable (s : State) (new : Nat)

/-- A change of the charger's state before its event. -/
def State.chgTurned (s : State) (new : Nat) : State :=
  let t := (s.put R.CHG_STAT_STATE new).modPower fun p =>
    { p with chgFrom := s.tick.wall, chgRun := if s.chgState = 0 then s.tick.wall else p.chgRun,
             gatesOn := s.gatesMay new, preFrom := none, rechFrom := none, termRun := 0 }
  (((t.putFlag R.CHG_STAT_CHG_N (t.chargeMay new)).putFlag R.CHG_STAT_LIM_IIN false).putFlag R.CHG_STAT_LIM_VIN false)

theorem State.chgGo_same (h : s.chgState = new) : s.chgGo new = s := by rw [chgGo, if_pos h]

theorem State.chgGo_turned (h : s.chgState ≠ new) :
    s.chgGo new = (s.chgTurned new).raise 0x0608 0 (BitVec.ofNat 32 (new + s.chgState * 16)) := by
  rw [chgGo, if_neg h]
  rfl

theorem State.chgTurned_grows {r : State} {n : Nat} (h : Grows r s n) : Grows r (s.chgTurned new) n := by
  refine Grows.putFlag (Grows.putFlag (Grows.putFlag (Grows.modPower (h.put ?_ _) _) ?_ _) ?_ _) ?_ _
  all_goals decide

theorem State.chgGo_grows {r : State} {n : Nat} (h : Grows r s n) : Grows r (s.chgGo new) (n + 1) := by
  by_cases hs : s.chgState = new
  · rw [chgGo_same _ _ hs]
    exact h.mono (Nat.le_succ n)
  · rw [chgGo_turned _ _ hs]
    exact (s.chgTurned_grows new h).raise ..

theorem State.chgGo_state (h : new < 8) : (s.chgGo new).get R.CHG_STAT_STATE = new := by
  by_cases hs : s.chgState = new
  · rw [chgGo_same _ _ hs]
    exact hs
  · rw [chgGo_turned _ _ hs]
    simp (disch := decide) [chgTurned]
    exact Nat.mod_eq_of_lt h

theorem State.chgGo_stored {r : State} {n : Nat} (hr : r.Room) (h : Grows r s n) (hn : n < 8) (hs : s.chgState ≠ new) :
    Stored r (s.chgGo new) 0x0608 0 (BitVec.ofNat 32 (new + 16 * s.chgState)) := by
  rw [chgGo_turned _ _ hs, Nat.mul_comm]
  exact (s.chgTurned_grows new h).stored hr hn ..

/-- What stands in the event store stays there. -/
theorem State.chgGo_keeps {r : State} {n : Nat} {c : BitVec 16} {k : BitVec 2} {d : W32} (h : Stored r s c k d) (hr : r.Room)
    (g : Grows r s n) (hn : n < 8) : Stored r (s.chgGo new) c k d := by
  refine h.grows (s.chgGo_grows new (.refl s)) ?_
  have hspace := hr.space
  obtain ⟨l, hl, he⟩ := g.events (by omega)
  rw [he, List.length_append]
  omega

theorem State.chgGo_chan : (s.chgGo new).chan = s.chan := by
  unfold chgGo; dsimp only; split <;> simp

theorem State.chgGo_mode : (s.chgGo new).mode = s.mode := by
  unfold chgGo; dsimp only; split
  · rfl
  · rw [raise_mode _ (by decide)]
    rfl

theorem State.chgGo_get (f : Fld) (he : f.addr ∉ eventRegs) (hf : R.CHG_STAT ≠ f.addr) : (s.chgGo new).get f = s.get f := by
  have h1 (t : State) (b : Bool) (g : Fld) (hg : g.addr = R.CHG_STAT) : (t.putFlag g b).get f = t.get f :=
    t.get_putFlag_far g f b (.inl (hg ▸ hf))
  by_cases hs : s.chgState = new
  · rw [chgGo_same _ _ hs]
  · rw [chgGo_turned _ _ hs, raise_get _ _ _ _ _ he, chgTurned, h1 _ _ _ rfl, h1 _ _ _ rfl, h1 _ _ _ rfl, modPower_get, get_put_far _ _ _ _ (.inl hf)]

/-- The power fields that no change of state touches. -/
theorem State.chgGo_power : ∃ a b c d e f, (s.chgGo new).power =
    { s.power with chgFrom := a, chgRun := b, gatesOn := c, preFrom := d, rechFrom := e, termRun := f } := by
  by_cases hs : s.chgState = new
  · rw [chgGo_same _ _ hs]
    exact ⟨_, _, _, _, _, _, rfl⟩
  · rw [chgGo_turned _ _ hs, raise_power]
    exact ⟨_, _, _, _, _, _, rfl⟩

theorem State.chgFirst_eq : s.chgFirst = if s.cellMv.any (fun v => v < s.get R.CHG_V_PRE_MV) then 1 else 2 := rfl

theorem State.chgFirst_lt : s.chgFirst < 8 := by
  rw [chgFirst_eq]; split <;> decide

end ChgGo

/-- The charger has moved to a state, with event 0x0608 where it is another one (R321). -/
structure ChgMoved (s t : State) (new : Nat) : Prop where
  state : t.get R.CHG_STAT_STATE = new
  chan : t.chan = s.chan
  grows : Grows s t 6
  stored : s.get R.CHG_STAT_STATE ≠ new → s.Room → Stored s t 0x0608 0 (BitVec.ofNat 32 (new + 16 * s.get R.CHG_STAT_STATE))

section ChgMoved

variable {s t u : State} {new n : Nat}

theorem ChgMoved.of_chgGo (hst : u.chgState = s.chgState) (hchan : u.chan = s.chan) (g : Grows s u n) (hn : n ≤ 5) (h : new < 8) :
    ChgMoved s (u.chgGo new) new :=
  ⟨u.chgGo_state new h, (u.chgGo_chan new).trans hchan, (u.chgGo_grows new g).mono (by omega), fun hne hr => by
    have hst' : s.get R.CHG_STAT_STATE = u.chgState := hst.symm
    rw [hst']
    exact u.chgGo_stored new hr g (by omega) (hst' ▸ hne)⟩

theorem ChgMoved.chgGo (s : State) (h : new < 8) : ChgMoved s (s.chgGo new) new := .of_chgGo rfl rfl (.refl s) (by decide) h

/-- The charger stays in its state. -/
theorem ChgMoved.stays (hst : u.get R.CHG_STAT_STATE = s.get R.CHG_STAT_STATE) (hchan : u.chan = s.chan) (g : Grows s u n)
    (hn : n ≤ 6) : ChgMoved s u (s.get R.CHG_STAT_STATE) := ⟨hst, hchan, g.mono hn, fun h => absurd rfl h⟩

/-- What follows the move leaves it standing. -/
theorem ChgMoved.then (h : ChgMoved s t new) (hst : u.get R.CHG_STAT_STATE = t.get R.CHG_STAT_STATE) (hchan : u.chan = t.chan)
    (g : Grows s t n) (k : Grows t u 1) (hn : n ≤ 5) : ChgMoved s u new := by
  refine ⟨hst.trans h.state, hchan.trans h.chan, (g.trans k).mono (by omega), fun hne hr => (h.stored hne hr).grows k ?_⟩
  obtain ⟨l, hl, he⟩ := g.events (by have := hr.space; omega)
  have := hr.space
  rw [he, List.length_append]
  omega

theorem ChgMoved.raise (h : ChgMoved s t new) (g : Grows s t n) (hn : n ≤ 5) (c : BitVec 16) (k : BitVec 2) (d : W32) :
    ChgMoved s (t.raise c k d) new :=
  h.then (t.raise_get _ _ _ _ (by decide)) (t.raise_chan ..) g (t.raise_grows ..) hn

end ChgMoved

section Rows

variable (s : State)

/-- VIN_REG of a start (R320). -/
def State.vinOf (s : State) (mv : Nat) : Nat :=
  if s.flag R.CHG_VIN_VIN_AUTO then max 9000 (roundDiv (mv * s.get R.CHG_VIN_VIN_PCT : Nat) 100).toNat
  else s.get R.CHG_VIN_VIN_REG_MV

theorem roundDiv_hundred (n : Nat) : (roundDiv (n : Int) 100).toNat = (2 * n + 100) / 200 := by
  rw [roundDiv, if_neg (by decide)]
  have h1 : ((n : Int) < 0) = False := eq_false (by omega)
  simp only [h1, decide_false, Int.natAbs_natCast]
  rw [if_neg (by decide), Int.toNat_natCast]
  rfl

theorem chargerStart_exec (mv : Nat) (h0 : s.get R.CHG_STAT_STATE = 0) (htf : s.mode.pins.tf = true) (hp : s.get R.PACK_STAT_PACK = 1)
    (he : s.flag R.CHG_CTRL_EN = true) (hk : s.keepRuns = true) (hf : s.mode.fault = false) (hm : s.mode.mode ≠ .ship)
    (hs : s.power.sw = .closed) :
    exec (.chargerStart mv) s =
      .next ((s.modPower fun p => { p with vinReg := s.vinOf mv, lastProbe := s.tick.wall }).chgGo s.chgFirst) := by
  rw [exec_chargerStart, execChargerStart, if_pos (by simp [State.chgState, h0, State.tfPresent, htf, State.packCode, hp, he, hk, hf, hm, hs])]
  rfl

theorem chargeTimeout_exec (b : Bool) (hk : s.keepRuns = true)
    (hpre : (decide (s.chgState = 1) && decide (s.power.chgFrom + s.get R.CHG_CTRL_PRE_TMO * 60 * ticksPerS ≤ s.tick.wall)) = b)
    (hany : (b || (decide (1 ≤ s.chgState) && decide (s.chgState ≤ 3) &&
      decide (s.power.chgRun + s.get R.CHG_CTRL_CHG_TMO * 600 * ticksPerS ≤ s.tick.wall))) = true) :
    exec .chargeTimeout s = .next ((s.chgGo 6).raise 0x060A 2 (if b then 0 else 1)) := by
  rw [exec_chargeTimeout, execChargeTimeout, hpre, if_pos (by simp only [hk, hany, Bool.and_self])]

theorem State.cellsStale_congr {t : State} (hstart : t.flag R.HK_CTRL_START = s.flag R.HK_CTRL_START)
    (hused : t.cellsUsed = s.cellsUsed) (hat : t.power.cellAt = s.power.cellAt) (hwall : t.tick.wall = s.tick.wall) :
    t.cellsStale = s.cellsStale := by
  rw [cellsStale, hstart, hused, hat, hwall, ← cellsStale]

theorem State.cellsUsed_congr {t : State} (h1 : t.get R.PACK_CFG_CELLS = s.get R.PACK_CFG_CELLS)
    (h2 : t.get R.PACK_STAT_CELLS_DET = s.get R.PACK_STAT_CELLS_DET) : t.cellsUsed = s.cellsUsed := by
  rw [cellsUsed, h1, h2, ← cellsUsed]

theorem State.chgFirst_congr {t : State} (h : ∀ a, a ≠ R.CHG_CTRL → t.reg a = s.reg a) : t.chgFirst = s.chgFirst := by
  have hget (f : Fld) (hf : f.addr ≠ R.CHG_CTRL) : t.get f = s.get f := by rw [get, h _ hf, ← get]
  have hcells : t.cellMv = s.cellMv := by
    rw [cellMv, cellMv, cellsUsed_congr s (hget _ (by decide)) (hget _ (by decide))]
    refine List.map_congr_left fun k _ => hget _ ?_
    simp only [R.CELL_V_MV, R.CELL_V, R.CHG_CTRL]
    omega
  rw [chgFirst, hcells, hget _ (by decide), ← chgFirst]

theorem State.plainWrite_reg_other (a b : Nat) (v : W32) (h : b ≠ a) : (s.plainWrite a v).reg b = s.reg b := by
  unfold plainWrite
  cases regRow a with
  | none => rfl
  | some r => exact s.reg_setReg_far a b _ h

theorem State.chgCtrl_restart (v : W32) (hv : v.getLsbD 1 = true) (h6 : s.get R.CHG_STAT_STATE = 6) :
    (s.keepApply R.CHG_CTRL v).get R.CHG_STAT_STATE = s.chgFirst := by
  have hother := s.plainWrite_reg_other R.CHG_CTRL
  have hstate (v : W32) : (s.plainWrite R.CHG_CTRL v).chgState = 6 := by
    rw [chgState, get, hother _ v (by decide), ← get, h6]
  have happly : s.keepApply R.CHG_CTRL v =
      (s.plainWrite R.CHG_CTRL (saturate v (powerRanges R.CHG_CTRL))).chgRestart := by
    rw [keepApply, if_pos (by decide), packWrite]
    dsimp only
    rw [if_neg (by decide), if_neg (by decide), if_neg (by decide), hv, if_pos (by decide)]
  rw [happly, chgRestart, if_pos (hstate _)]
  set u := s.plainWrite R.CHG_CTRL (saturate v (powerRanges R.CHG_CTRL)) with hu
  rw [chgGo_state _ _ u.chgFirst_lt]
  exact s.chgFirst_congr fun a ha => hother a _ ha

section Stale

theorem State.cellEvents_get (f : Fld) (he : f.addr ∉ eventRegs) : s.cellEvents.get f = s.get f := by
  unfold cellEvents; dsimp only; repeat' split
  all_goals simp only [modPower_get, raise_get _ _ _ _ _ he]

theorem State.cellEvents_chan : s.cellEvents.chan = s.chan := by
  unfold cellEvents; dsimp only; repeat' split
  all_goals simp only [modPower_chan, raise_chan]

theorem State.cellEvents_tick : s.cellEvents.tick = s.tick := by
  unfold cellEvents; dsimp only; repeat' split
  all_goals simp only [modPower_tick, raise_tick]

theorem State.cellEvents_cellAt : s.cellEvents.power.cellAt = s.power.cellAt := by
  unfold cellEvents; dsimp only; repeat' split
  all_goals simp only [modPower_power, raise_power]

theorem State.cellEvents_stale : s.cellEvents.cellsStale = s.cellsStale :=
  s.cellsStale_congr (by rw [flag, cellEvents_get _ _ (by decide), flag])
    (s.cellsUsed_congr (s.cellEvents_get _ (by decide)) (s.cellEvents_get _ (by decide))) s.cellEvents_cellAt
    (congrArg TickSt.wall s.cellEvents_tick)

/-- The second event of the cells, or none, and what has been told. -/
def State.cellsToldOf (u : State) : State :=
  (if u.cellsDiffer && !u.power.cellsTold then u.raise 0x0612 0 else u).modPower fun p =>
    { p with staleTold := (if u.cellsDiffer && !u.power.cellsTold then u.raise 0x0612 0 else u).cellsStale,
             cellsTold := (if u.cellsDiffer && !u.power.cellsTold then u.raise 0x0612 0 else u).cellsDiffer }

theorem State.cellEvents_first (hs : s.cellsStale = true) (ht : s.power.staleTold = false) :
    s.cellEvents = (s.raise 0x0614 0).cellsToldOf := by
  rw [cellEvents, hs, ht]
  rfl

theorem State.cellsToldOf_grows (u : State) : Grows u u.cellsToldOf 1 := by
  refine Grows.modPower ?_ _
  split
  · exact u.raise_grows ..
  · exact (Grows.refl u).mono (Nat.zero_le 1)

theorem State.cellEvents_grows (hs : s.cellsStale = true) (ht : s.power.staleTold = false) : Grows s s.cellEvents 2 := by
  rw [cellEvents_first _ hs ht]
  exact (s.raise_grows ..).trans (cellsToldOf_grows _)

theorem State.cellEvents_stored (hr : s.Room) (hs : s.cellsStale = true) (ht : s.power.staleTold = false) :
    Stored s s.cellEvents 0x0614 0 0 := by
  rw [cellEvents_first _ hs ht]
  exact (Grows.refl s).stored_then hr 0x0614 0 0 {} (cellsToldOf_grows _) (by decide)

/-- The charger in SUSPEND (R321). -/
def State.suspended (s : State) : State :=
  ((s.putFlag R.CHG_STAT_TEMP_HOLD s.tempHold).modPower fun p => { p with chgPrev := s.chgState }).chgGo 5

/-- Event 0x060B where the temperature holds the charger. -/
def State.suspTold (v : State) (st : Nat) : State :=
  if v.tempHold && st ≠ 5 && v.chgState = 5 then v.raise 0x060B 0 (BitVec.ofInt 32 (v.packTemp.getD 0)) else v

theorem State.suspStep_stale (hs : s.cellsStale = true) (h1 : 1 ≤ s.chgState) (h4 : s.chgState ≤ 4) :
    s.suspStep = s.suspended.suspTold s.chgState := by
  have hstale : (s.putFlag R.CHG_STAT_TEMP_HOLD s.tempHold).cellsStale = true := by
    refine (State.cellsStale_congr (t := s.putFlag R.CHG_STAT_TEMP_HOLD s.tempHold) s ?_ ?_ rfl rfl).trans hs
    · exact s.flag_putFlag_far _ _ _ (by decide)
    · exact s.cellsUsed_congr (s.get_putFlag_far _ _ _ (by decide)) (s.get_putFlag_far _ _ _ (by decide))
  have hcause : (s.putFlag R.CHG_STAT_TEMP_HOLD s.tempHold).suspCause = true := by rw [suspCause, hstale]; rfl
  have hin : (decide (1 ≤ s.chgState) && decide (s.chgState ≤ 4)) = true := by simp [h1, h4]
  rw [suspStep]
  dsimp only
  rw [hcause, if_pos rfl, hin, if_pos rfl]
  rfl

theorem State.suspTold_grows (v : State) (st : Nat) : Grows v (v.suspTold st) 1 := by
  unfold suspTold
  split
  · exact v.raise_grows ..
  · exact (Grows.refl v).mono (Nat.zero_le 1)

theorem State.suspTold_get (v : State) (st : Nat) (f : Fld) (he : f.addr ∉ eventRegs) : (v.suspTold st).get f = v.get f := by
  unfold suspTold; split
  · rw [raise_get _ _ _ _ _ he]
  · rfl

theorem State.suspTold_chan (v : State) (st : Nat) : (v.suspTold st).chan = v.chan := by
  unfold suspTold; split <;> simp

theorem State.suspTold_power (v : State) (st : Nat) : (v.suspTold st).power = v.power := by
  unfold suspTold; split <;> simp

theorem State.suspended_grows {r : State} {n : Nat} (g : Grows r s n) : Grows r s.suspended (n + 1) :=
  chgGo_grows _ _ ((g.putFlag (by decide) _).modPower _)

theorem State.suspended_prev : s.suspended.power.chgPrev = s.chgState := by
  obtain ⟨_, _, _, _, _, _, h⟩ :=
    ((s.putFlag R.CHG_STAT_TEMP_HOLD s.tempHold).modPower fun p => { p with chgPrev := s.chgState }).chgGo_power 5
  exact congrArg Power.chgPrev h

/-- Stale cell data put the charger in SUSPEND (R316, R321). -/
theorem cellDataStale_moves (hk : s.keepRuns = true) (hs : s.cellsStale = true) (ht : s.power.staleTold = false)
    (h1 : 1 ≤ s.get R.CHG_STAT_STATE) (h4 : s.get R.CHG_STAT_STATE ≤ 4) :
    ∃ t, exec .cellDataStale s = .next t ∧ ChgMoved s t 5 ∧ t.power.chgPrev = s.get R.CHG_STAT_STATE ∧
      (s.Room → Stored s t 0x0614 0 0) := by
  have hst : s.cellEvents.chgState = s.chgState := s.cellEvents_get _ (by decide)
  have g2 := s.cellEvents_grows hs ht
  have g3 := s.cellEvents.suspended_grows g2
  have hstale : s.cellEvents.cellsStale = true := s.cellEvents_stale.trans hs
  have hexec : exec .cellDataStale s = .next (s.cellEvents.suspended.suspTold s.cellEvents.chgState) := by
    rw [exec_cellDataStale, execCellDataStale, hk, hs, if_pos (by decide),
      s.cellEvents.suspStep_stale hstale (hst ▸ h1) (hst ▸ h4)]
  have hmoved : ChgMoved s s.cellEvents.suspended 5 := by
    unfold State.suspended
    refine ChgMoved.of_chgGo (n := 2) ?_ ?_ ((g2.putFlag (by decide) _).modPower _) (by decide) (by decide)
    · simp (disch := decide) only [State.chgState, State.modPower_get, State.get_putFlag_far]
      exact hst
    · exact s.cellEvents_chan
  refine ⟨_, hexec, hmoved.then (State.suspTold_get _ _ _ (by decide)) (State.suspTold_chan ..) g3 (State.suspTold_grows ..) (by decide),
    ?_, fun hr => ?_⟩
  · rw [State.suspTold_power, State.suspended_prev, hst]
    rfl
  · refine (s.cellEvents_stored hr hs ht).grows ((s.cellEvents.suspended_grows (.refl _)).trans (State.suspTold_grows ..)) ?_
    have := hr.space
    obtain ⟨l, hl, he⟩ := g2.events (by omega)
    rw [he, List.length_append]
    omega

end Stale

section OverVoltage

/-- The over-voltage latch set, before its event (R315). -/
def State.ovLatched (s : State) : State :=
  (((s.putFlag R.CHG_STAT_OV_LATCH true).putFlag R.CHG_STAT_CHG_N false).modPower fun p =>
    { p with gatesOn := false, ovLowFrom := none }).count R.PACK_CNT_OV_TRIPS

theorem cellOvTrip_exec (cell : Fin 16) (hm : s.mode.mode ≠ .ship) (hl : s.flag R.CHG_STAT_OV_LATCH = false) :
    exec (.cellOvTrip cell) s = .next (s.ovLatched.raiseSrc 0x43 0x0606 2 (BitVec.ofNat 32 cell.val)) := by
  rw [exec_cellOvTrip, execCellOvTrip, if_neg (by simp [hm, hl])]
  rfl

theorem State.ovLatched_grows : Grows s s.ovLatched 0 :=
  ((((Grows.refl s).putFlag (by decide) _).putFlag (by decide) _).modPower _).count (by decide) _

theorem cellOvTrip_moves (cell : Fin 16) (hm : s.mode.mode ≠ .ship) (hl : s.flag R.CHG_STAT_OV_LATCH = false)
    (hcalm : s.flt.active.contains 0x43 = false) :
    ∃ t, exec (.cellOvTrip cell) s = .next t ∧ ChgMoved s t (s.get R.CHG_STAT_STATE) ∧ t.flag R.CHG_STAT_OV_LATCH = true ∧
      t.flag R.CHG_STAT_CHG_N = false ∧ t.power.gatesOn = false ∧ (s.Room → Stored s t 0x0606 2 (BitVec.ofNat 32 cell.val)) := by
  refine ⟨_, cellOvTrip_exec s cell hm hl, .stays ?_ ?_ (s.ovLatched_grows.raiseSrc _ _ _ _ _) (by decide), ?_, ?_, ?_, fun hr => ?_⟩
  · simp (disch := decide) [State.ovLatched]
  · exact State.raiseSrc_chan ..
  · simp (disch := decide) [State.ovLatched]
  · simp (disch := decide) [State.ovLatched]
  · exact congrArg Power.gatesOn (State.raiseSrc_power ..)
  · exact Grows.stored_src hr s.ovLatched_grows (by decide) _ _ _ _ _ hcalm

/-- The over-voltage latch released, with its event. -/
def State.ovFreed (s : State) : State := (s.putFlag R.CHG_STAT_OV_LATCH false).raise 0x0607 0

/-- `CHG_N` and the gates as the charger's state asks for. -/
def State.chgDriven (u : State) : State :=
  (u.putFlag R.CHG_STAT_CHG_N (u.chargeMay u.chgState)).modPower fun p =>
    { p with gatesOn := u.gatesMay u.chgState }

theorem State.ovFreed_flag : s.ovFreed.flag R.CHG_STAT_OV_LATCH = false := by simp (disch := decide) [ovFreed]

theorem State.ovFreed_get (f : Fld) (he : f.addr ∉ eventRegs) (hf : R.CHG_STAT ≠ f.addr ∨
    (f.lo + f.w ≤ 32 ∧ (f.lo + f.w ≤ R.CHG_STAT_OV_LATCH.lo ∨ R.CHG_STAT_OV_LATCH.lo + R.CHG_STAT_OV_LATCH.w ≤ f.lo))) :
    s.ovFreed.get f = s.get f := by
  rw [ovFreed, raise_get _ _ _ _ _ he, get_putFlag_far _ _ _ _ hf]

theorem State.ovFreed_mode : s.ovFreed.mode = s.mode := raise_mode _ (by decide) ..

theorem State.ovFreed_grows : Grows s s.ovFreed 1 := ((Grows.refl s).putFlag (by decide) _).raise ..

theorem State.chgGo_flag_ov (new : Nat) : (s.chgGo new).flag R.CHG_STAT_OV_LATCH = s.flag R.CHG_STAT_OV_LATCH := by
  by_cases hs : s.chgState = new
  · rw [chgGo_same _ _ hs]
  · rw [chgGo_turned _ _ hs]
    simp (disch := decide) [chgTurned]

theorem State.chgGo_die (new : Nat) : (s.chgGo new).die = s.die := by
  unfold chgGo; dsimp only; split <;> simp

/-- The state in which the charger restarts after the latch (R315). -/
def State.ovNext (s : State) : Nat := if s.cellsUsed * s.get R.CHG_V_CV_MV ≤ s.regN R.PACK_V then 3 else 2

theorem State.ovNext_freed : s.ovFreed.ovNext = s.ovNext := by
  have hv : s.ovFreed.reg R.PACK_V = s.reg R.PACK_V := by
    rw [ovFreed, raise_reg _ _ _ _ _ (by decide), reg_putFlag_far _ _ _ _ (by decide)]
  rw [ovNext, s.cellsUsed_congr (s.ovFreed_get _ (by decide) (by decide)) (s.ovFreed_get _ (by decide) (by decide)),
    s.ovFreed_get _ (by decide) (by decide), regN, hv, ← regN, ← ovNext]

theorem ovLatchClear_exec (hl : s.flag R.CHG_STAT_OV_LATCH = true) (hh : heldFor s.tick.wall ticksPerS s.power.ovLowFrom = true)
    (h0 : s.get R.CHG_STAT_STATE ≠ 0) (h5 : s.get R.CHG_STAT_STATE ≠ 5) (h7 : s.get R.CHG_STAT_STATE ≠ 7) (hf : s.mode.fault = false) :
    exec .ovLatchClear s = .next (s.ovFreed.chgGo s.ovNext).chgDriven := by
  have hst : s.ovFreed.chgState = s.get R.CHG_STAT_STATE := s.ovFreed_get _ (by decide) (by decide)
  have hmid : (if s.ovFreed.chgState = 0 || s.ovFreed.chgState = 7 || s.ovFreed.mode.fault then s.ovFreed
      else if s.ovFreed.chgState = 5 then s.ovFreed.modPower fun p => { p with chgPrev := s.ovFreed.ovNext }
      else s.ovFreed.chgGo s.ovFreed.ovNext) = s.ovFreed.chgGo s.ovNext := by
    rw [hst, s.ovFreed_mode, hf, s.ovNext_freed]
    simp [h0, h5, h7]
  rw [← hmid, exec_ovLatchClear, execOvLatchClear, hl, hh, if_pos (by decide)]
  rfl

theorem ovLatchClear_moves (hl : s.flag R.CHG_STAT_OV_LATCH = true) (hh : heldFor s.tick.wall ticksPerS s.power.ovLowFrom = true)
    (h0 : s.get R.CHG_STAT_STATE ≠ 0) (h5 : s.get R.CHG_STAT_STATE ≠ 5) (h7 : s.get R.CHG_STAT_STATE ≠ 7) (hf : s.mode.fault = false)
    (hlev : s.turretLevel < 2) (hshut : (s.die[(1 : DieIx)]).shutAt = none) :
    ∃ t, exec .ovLatchClear s = .next t ∧ ChgMoved s t s.ovNext ∧ t.flag R.CHG_STAT_OV_LATCH = false ∧
      t.flag R.CHG_STAT_CHG_N = true ∧ t.power.gatesOn = true ∧ (s.Room → Stored s t 0x0607 0 0) := by
  have hst : s.ovFreed.chgState = s.chgState := s.ovFreed_get _ (by decide) (by decide)
  have hnext : s.ovNext = 2 ∨ s.ovNext = 3 := by unfold State.ovNext; split <;> simp
  have hmoved : ChgMoved s (s.ovFreed.chgGo s.ovNext) s.ovNext :=
    .of_chgGo hst (State.raise_chan ..) s.ovFreed_grows (by decide) (by omega)
  have hgrows := State.chgGo_grows s.ovFreed s.ovNext s.ovFreed_grows
  have hexec := ovLatchClear_exec s hl hh h0 h5 h7 hf
  have hstored {v : State} (h : Grows (s.ovFreed.chgGo s.ovNext) v 0) (hr : s.Room) : Stored s v 0x0607 0 0 :=
    ((Grows.refl s).putFlag (by decide) false).stored_then hr 0x0607 0 0 {} ((State.chgGo_grows _ _ (.refl _)).trans h) (by decide)
  obtain ⟨u, hu⟩ : ∃ u, u = s.ovFreed.chgGo s.ovNext := ⟨_, rfl⟩
  rw [← hu] at hexec hmoved hgrows hstored
  have hov : u.flag R.CHG_STAT_OV_LATCH = false := by rw [hu, State.chgGo_flag_ov, s.ovFreed_flag]
  have hfault : u.mode.fault = false := by rw [hu, State.chgGo_mode, s.ovFreed_mode, hf]
  have hdie : u.die = s.die := by rw [hu, State.chgGo_die]; exact State.raise_die ..
  have hust : u.chgState = s.ovNext := hmoved.state
  have hdriven : Grows u u.chgDriven 0 := ((Grows.refl u).putFlag (by decide) _).modPower _
  refine ⟨_, hexec, hmoved.then ?_ rfl hgrows (hdriven.mono (by decide)) (by decide), ?_, ?_, ?_, hstored hdriven⟩
  · simp (disch := decide) only [State.chgDriven, State.modPower_get, State.get_putFlag_far]
  · simp (disch := decide) only [State.chgDriven, State.modPower_flag, State.flag_putFlag_far, hov]
  · have : u.chargeMay u.chgState = true := by
      rw [State.chargeMay, hust, hov, hfault]
      rcases hnext with h | h <;> rw [h] <;> rfl
    simp (disch := decide) only [State.chgDriven, State.modPower_flag, State.flag_putFlag_near, this]
  · have hlev' : u.turretLevel = s.turretLevel := by rw [State.turretLevel, hdie, ← State.turretLevel]
    have hgates : u.gatesMay u.chgState = true := by
      rw [State.gatesMay, hov, hfault, hdie, hshut, hlev', decide_eq_true hlev, hust]
      rcases hnext with h | h <;> rw [h] <;> rfl
    exact hgates

end OverVoltage

section Simple

theorem chargerStart_moves (mv : Nat) (h0 : s.get R.CHG_STAT_STATE = 0) (htf : s.mode.pins.tf = true)
    (hp : s.get R.PACK_STAT_PACK = 1) (he : s.flag R.CHG_CTRL_EN = true) (hk : s.keepRuns = true) (hf : s.mode.fault = false)
    (hm : s.mode.mode ≠ .ship) (hs : s.power.sw = .closed) :
    ∃ t, exec (.chargerStart mv) s = .next t ∧ ChgMoved s t s.chgFirst ∧ t.power.vinReg = s.vinOf mv := by
  refine ⟨_, chargerStart_exec s mv h0 htf hp he hk hf hm hs,
    .of_chgGo rfl rfl ((Grows.refl s).modPower _) (by decide) s.chgFirst_lt, ?_⟩
  obtain ⟨_, _, _, _, _, _, h⟩ :=
    (s.modPower fun p => { p with vinReg := s.vinOf mv, lastProbe := s.tick.wall }).chgGo_power s.chgFirst
  exact congrArg Power.vinReg h

theorem tfLoss_moves (htf : s.mode.pins.tf = true) (hb : s.flag R.PACK_STAT_BUSKEEP = false) :
    ∃ t, exec .tfLoss s = .next t ∧ ChgMoved s t 0 ∧ t.mode.pins.tf = false := by
  refine ⟨_, ?_, .of_chgGo (u := s.modMode fun m => { m with pins := { m.pins with tf := false } }) rfl rfl
    ((Grows.refl s).modMode _) (by decide) (by decide), ?_⟩
  · have hb' : (s.modMode fun m => { m with pins := { m.pins with tf := false } }).inBuskeep = false := hb
    rw [exec_tfLoss, execTfLoss, if_pos (c := s.tfPresent = true) htf]
    dsimp only
    rw [hb', if_neg (by decide)]
  · rw [State.chgGo_mode]
    rfl

theorem tfLoss_buskeep (htf : s.mode.pins.tf = true) (hb : s.flag R.PACK_STAT_BUSKEEP = true) :
    ∃ t, exec .tfLoss s = .next t ∧ t.mode.mode = .ship := by
  have hb' : (s.modMode fun m => { m with pins := { m.pins with tf := false } }).inBuskeep = true := hb
  refine ⟨(s.modMode fun m => { m with pins := { m.pins with tf := false } }).leaveBuskeep.enterShip, ?_, rfl⟩
  rw [exec_tfLoss, execTfLoss, if_pos (c := s.tfPresent = true) htf]
  dsimp only
  rw [hb', if_pos rfl]

theorem heldFor_of {since : Option Nat} {wall span : Nat} (h : ∃ k, since = some k ∧ k + span ≤ wall) :
    heldFor wall span since = true := by
  obtain ⟨k, rfl, hk⟩ := h
  exact decide_eq_true hk

theorem chargeTimeout_moves (b : Bool) (hexec : exec .chargeTimeout s = .next ((s.chgGo 6).raise 0x060A 2 (if b then 0 else 1))) :
    ∃ t, exec .chargeTimeout s = .next t ∧ ChgMoved s t 6 ∧ (s.Room → Stored s t 0x060A 2 (if b then 0 else 1)) := by
  have g := s.chgGo_grows 6 (.refl s)
  exact ⟨_, hexec, (ChgMoved.chgGo s (by decide)).raise g (by decide) _ _ _, fun hr => g.stored hr (by decide) _ _ _ _⟩

theorem chargeTermination_moves (h3 : s.get R.CHG_STAT_STATE = 3) (hk : s.keepRuns = true) (hn : 300000 ≤ s.power.termRun) :
    ∃ t, exec .chargeTermination s = .next t ∧ ChgMoved s t 4 ∧ t.est.z = 10000 ∧ (s.Room → Stored s t 0x0609 0 0) := by
  have g := s.chgGo_grows 4 (.refl s)
  have hmoved := (ChgMoved.chgGo (new := 4) s (by decide)).raise g (by decide) 0x0609 0 0
  have hgo : (decide (s.chgState = 3) && s.keepRuns && decide (300000 ≤ s.power.termRun)) = true := by
    simp [State.chgState, h3, hk, hn]
  refine ⟨{ (s.chgGo 4).raise 0x0609 0 with est := { ((s.chgGo 4).raise 0x0609 0).est with z := 10000, p := 1, afterTerm := true } },
    ?_, ?_, rfl, fun hr => (g.stored hr (by decide) _ _ _ _).same rfl⟩
  · rw [exec_chargeTermination, execChargeTermination, hgo, if_pos rfl]
  · exact ⟨hmoved.state, hmoved.chan, hmoved.grows.same rfl rfl rfl, fun hne hr => (hmoved.stored hne hr).same rfl⟩

theorem inputLimitTimeout_moves (volt : Bool) (h0 : s.get R.CHG_STAT_STATE ≠ 0) :
    ∃ t, exec (.inputLimitTimeout volt) s = .next t ∧ ChgMoved s t (s.get R.CHG_STAT_STATE) ∧
      t.flag (if volt then R.CHG_STAT_LIM_VIN else R.CHG_STAT_LIM_IIN) = true ∧
      (s.Room → Stored s t 0x060C 0 (if volt then 1 else 0)) := by
  have hexec : exec (.inputLimitTimeout volt) s =
      .next ((s.putFlag (if volt then R.CHG_STAT_LIM_VIN else R.CHG_STAT_LIM_IIN) true).raise 0x060C 0 (if volt then 1 else 0)) := by
    rw [exec_inputLimitTimeout, execInputLimitTimeout, if_neg (c := s.chgState = 0) h0]
  have g : Grows s (s.putFlag (if volt then R.CHG_STAT_LIM_VIN else R.CHG_STAT_LIM_IIN) true) 0 := by
    refine (Grows.refl s).putFlag ?_ _
    cases volt <;> decide
  refine ⟨_, hexec, .stays ?_ (State.raise_chan ..) (g.raise _ _ _) (by decide), ?_, fun hr => g.stored hr (by decide) _ _ _ _⟩
  · cases volt <;> simp (disch := decide)
  · cases volt <;> simp (disch := decide)

end Simple

end Rows

/-- Settles O24. -/
theorem chargerFollowsItsStates : Obligations.ChargerFollowsItsStates := by
  intro s st held first moves
  have close {i : Instr} {new : Nat} {p : State → Prop} (h : ∃ t, exec i s = .next t ∧ ChgMoved s t new ∧ p t) : moves i new p := by
    obtain ⟨t, hexec, hmoved, hp⟩ := h
    exact ⟨t, hexec, hmoved.state, hmoved.chan, hmoved.stored, hp⟩
  have hfirst : first = s.chgFirst := rfl
  have plain {i : Instr} {new : Nat} (hnew : new < 8) (h : exec i s = .next (s.chgGo new)) : moves i new fun _ => True :=
    close ⟨_, h, .chgGo s hnew, trivial⟩
  refine ⟨fun h0 htf hp he hk hf hm hs mv => ?_, fun htf => ⟨fun hb => close (tfLoss_moves s htf hb), tfLoss_buskeep s htf⟩,
    fun hk => ⟨fun h1 hh => plain (by decide) ?_, fun h1 ht => close ?_, fun h23 ht => close ?_,
      fun h3 hn => close (chargeTermination_moves s h3 hk hn), fun h4 hh => plain (by decide) ?_,
      fun hs ht h1 h4 => close (cellDataStale_moves s hk hs ht h1 h4)⟩,
    fun hw => ?_, fun h6 v hv => s.chgCtrl_restart v hv h6, fun h0 volt => close (inputLimitTimeout_moves s volt h0),
    fun hm hl hc cell => close (cellOvTrip_moves s cell hm hl hc), ⟨?_, ?_, ?_⟩,
    fun hl hh h0 h5 h7 hf hlev hshut => close (ovLatchClear_moves s hl (heldFor_of ?_) h0 h5 h7 hf hlev hshut)⟩
  · exact hfirst ▸ close (chargerStart_moves s mv h0 htf hp he hk hf hm hs)
  · rw [exec_prechargeDone, execPrechargeDone, if_pos]
    simp only [Bool.and_eq_true, decide_eq_true_eq]
    exact ⟨⟨h1, hk⟩, heldFor_of hh⟩
  · have hpre : s.power.chgFrom + s.get R.CHG_CTRL_PRE_TMO * 60 * ticksPerS ≤ s.tick.wall := by
      rw [Nat.mul_assoc]
      exact ht
    refine chargeTimeout_moves s true (chargeTimeout_exec s true hk ?_ rfl)
    rw [Bool.and_eq_true, decide_eq_true_eq, decide_eq_true_eq]
    exact ⟨h1, hpre⟩
  · have hst : s.chgState ≠ 1 ∧ 1 ≤ s.chgState ∧ s.chgState ≤ 3 := by
      have : s.chgState = 2 ∨ s.chgState = 3 := h23
      omega
    have hchg : s.power.chgRun + s.get R.CHG_CTRL_CHG_TMO * 600 * ticksPerS ≤ s.tick.wall := by
      rw [Nat.mul_assoc]
      exact ht
    obtain ⟨hne, hge, hle⟩ := hst
    refine chargeTimeout_moves s false (chargeTimeout_exec s false hk ?_ ?_)
    · rw [decide_eq_false hne, Bool.false_and]
    · rw [decide_eq_true hge, decide_eq_true hle, decide_eq_true hchg]
      rfl
  · rw [exec_recharge, execRecharge, if_pos]
    simp only [Bool.and_eq_true, decide_eq_true_eq]
    exact ⟨⟨h4, hk⟩, heldFor_of hh⟩
  · rw [exec_chgRestart, execChgRestart, if_pos hw]
    rfl
  · simp only [State.cellTimers, sinceWhen, State.modPower_power, Bool.and_eq_true, decide_eq_true_eq, List.all_eq_true]
    rfl
  · simp only [State.cellTimers, sinceWhen, State.modPower_power, Bool.and_eq_true, decide_eq_true_eq]
    rfl
  · simp only [State.cellTimers, sinceWhen, State.modPower_power, decide_eq_true_eq, List.all_eq_true]
  · obtain ⟨k, hk, hle⟩ := hh
    exact ⟨k, hk, hle⟩

end Sys2Proof.Machine
end

section
/-! PROOFS. Bus-keep operation, the pull-in guard and the samples of the pack (R325 to R329, R333, R334). -/

namespace Sys2Proof.Machine

section Buskeep

variable (s : State)

/-- The switch open and the charger regulating VBUS, before the event (R325). -/
def State.bkEntered (s : State) : State :=
  (s.openSwitch.putFlag R.PACK_STAT_BUSKEEP true).chgGo 7

/-- The times and the ramp of bus-keep operation. -/
def State.bkTimed (u : State) : State :=
  u.modPower fun p =>
    { p with bkPend := false, bkFrom := some u.tick.wall, lastCheck := u.tick.wall
             ramp := if decide (u.regN R.VBUS_V ≤ u.get R.BK_CFG_VBK_MV + 1000 ∧ u.get R.BK_CFG_VBK_MV ≤ u.regN R.VBUS_V + 1000)
               then none else some { at_ := u.tick.wall, start := u.regN R.VBUS_V, stop := u.get R.BK_CFG_VBK_MV } }

theorem State.chgGo_flag (new : Nat) (f : Fld) (he : f.addr ∉ eventRegs) (hf : R.CHG_STAT ≠ f.addr) :
    (s.chgGo new).flag f = s.flag f := by rw [flag, chgGo_get _ _ _ he hf, flag]

theorem State.chgGo_sw (new : Nat) : (s.chgGo new).power.sw = s.power.sw := by
  obtain ⟨_, _, _, _, _, _, h⟩ := s.chgGo_power new
  rw [h]

theorem State.chgGo_tick (new : Nat) : (s.chgGo new).tick = s.tick := by
  unfold chgGo; dsimp only; split <;> simp

theorem State.bkEntered_grows : Grows s s.bkEntered 1 :=
  chgGo_grows _ _ (s.openSwitch_grows.putFlag (by decide) _)

theorem buskeepEntry_moves (hm : s.mode.mode ≠ .ship) (htf : s.mode.pins.tf = true) (hb : s.flag R.PACK_STAT_BUSKEEP = false)
    (hc : s.power.bkPend = true ∨ (s.power.sw = .open_ ∧ 2 ≤ s.get R.PACK_STAT_PACK)) :
    ∃ t, exec .buskeepEntry s = .next t ∧ t.flag R.PACK_STAT_BUSKEEP = true ∧ t.flag R.PACK_STAT_SW_CLOSED = false ∧
      t.power.sw = .open_ ∧ t.get R.CHG_STAT_STATE = 7 ∧ t.power.bkFrom = some s.tick.wall ∧ (s.Room → Stored s t 0x0604 2 0) := by
  have hgo : (decide (s.mode.mode ≠ .ship) && s.tfPresent && (s.power.bkPend || (decide (s.power.sw = .open_) && decide (2 ≤ s.packCode))) &&
      !s.inBuskeep) = true := by
    simp only [Bool.and_eq_true, Bool.or_eq_true, decide_eq_true_eq, Bool.not_eq_true']
    exact ⟨⟨⟨hm, htf⟩, hc⟩, hb⟩
  refine ⟨s.bkEntered.bkTimed.raise 0x0604 2, ?_, ?_, ?_, ?_, ?_, ?_, fun hr => ?_⟩
  · rw [exec_buskeepEntry, execBuskeepEntry, if_pos hgo]
    rfl
  · rw [State.raise_flag _ _ _ _ _ (by decide), State.bkTimed, State.modPower_flag, State.bkEntered,
      State.chgGo_flag _ _ _ (by decide) (by decide), State.flag_putFlag_near _ _ _ (by decide)]
  · rw [State.raise_flag _ _ _ _ _ (by decide), State.bkTimed, State.modPower_flag, State.bkEntered,
      State.chgGo_flag _ _ _ (by decide) (by decide), State.flag_putFlag_far _ _ _ _ (by decide), State.openSwitch_flag]
  · rw [State.raise_power, State.bkTimed, State.modPower_power]
    exact State.chgGo_sw ..
  · rw [State.raise_get _ _ _ _ _ (by decide), State.bkTimed, State.modPower_get]
    exact State.chgGo_state _ _ (by decide)
  · rw [State.raise_power, State.bkTimed, State.modPower_power]
    exact congrArg (fun t : TickSt => some t.wall) (State.chgGo_tick (s.openSwitch.putFlag R.PACK_STAT_BUSKEEP true) 7)
  · exact (s.bkEntered_grows.modPower _).stored hr (by decide) _ _ _ _

/-- The end of bus-keep operation with its close begun, before the charger moves (R328). -/
def State.bkLeft (s : State) : State :=
  (s.leaveBuskeep.beginClose (s.regN R.VBUS_V)).modPower fun p => { p with lastProbe := s.tick.wall }

theorem State.bkLeft_get (f : Fld) (h : R.PACK_STAT ≠ f.addr ∨ f = R.PACK_STAT_CELLS_DET) : s.bkLeft.get f = s.get f := by
  have h5 : R.PACK_STAT_BK_ACK.Apart f := h.elim .inl fun e => .inr (e ▸ by decide)
  have h6 : R.PACK_STAT_BUSKEEP.Apart f := h.elim .inl fun e => .inr (e ▸ by decide)
  rw [bkLeft, modPower_get, beginClose, modPower_get, leaveBuskeep, modPower_get, get_putFlag_far _ _ _ _ h5,
    get_putFlag_far _ _ _ _ h6]

theorem State.bkLeft_chgFirst : s.bkLeft.chgFirst = s.chgFirst := by
  have hcells : s.bkLeft.cellMv = s.cellMv := by
    rw [cellMv, cellMv, s.cellsUsed_congr (s.bkLeft_get _ (.inl (by decide))) (s.bkLeft_get _ (.inr rfl))]
    refine List.map_congr_left fun k _ => s.bkLeft_get _ (.inl ?_)
    simp only [R.CELL_V_MV, R.CELL_V, R.PACK_STAT]
    omega
  rw [chgFirst, hcells, s.bkLeft_get _ (.inl (by decide)), ← chgFirst]

theorem State.bkLeft_flag : s.bkLeft.flag R.PACK_STAT_BUSKEEP = false ∧ s.bkLeft.flag R.PACK_STAT_BK_ACK = false := by
  simp (disch := decide) [bkLeft, beginClose, leaveBuskeep]

theorem State.bkLeft_grows : Grows s s.bkLeft 0 := by
  unfold bkLeft beginClose leaveBuskeep
  exact (((((Grows.refl s).putFlag (by decide) _).putFlag (by decide) _).modPower _).modPower _).modPower _

theorem buskeepExit_moves (hb : s.flag R.PACK_STAT_BUSKEEP = true) (hp : s.get R.PACK_STAT_PACK = 1) (hc : s.power.checked = true) :
    ∃ t, exec .buskeepExit s = .next t ∧ t.flag R.PACK_STAT_BUSKEEP = false ∧ t.flag R.PACK_STAT_BK_ACK = false ∧
      t.power.sw = .closing ∧ t.power.closeFrom = some s.tick.wall ∧ t.power.bkFrom = none ∧
      t.get R.CHG_STAT_STATE = (if s.mode.fault = true then 0 else s.chgFirst) ∧ (s.Room → Stored s t 0x0605 0 0) := by
  have hexec : exec .buskeepExit s = .next ((s.bkLeft.chgGo (if s.mode.fault = true then 0 else s.chgFirst)).raise 0x0605 0) := by
    have hfault : s.bkLeft.mode.fault = s.mode.fault := rfl
    rw [← s.bkLeft_chgFirst, ← hfault, exec_buskeepExit, execBuskeepExit,
      if_pos (by simp [State.inBuskeep, hb, State.packCode, hp, hc])]
    rfl
  have hnew : (if s.mode.fault = true then 0 else s.chgFirst) < 8 := by
    have := s.chgFirst_lt
    split <;> omega
  obtain ⟨new, hn⟩ : ∃ n, n = if s.mode.fault = true then 0 else s.chgFirst := ⟨_, rfl⟩
  rw [← hn] at hexec hnew ⊢
  obtain ⟨_, _, _, _, _, _, hpow⟩ := s.bkLeft.chgGo_power new
  refine ⟨_, hexec, ?_, ?_, ?_, ?_, ?_, ?_, fun hr => ?_⟩
  · rw [State.raise_flag _ _ _ _ _ (by decide), State.chgGo_flag _ _ _ (by decide) (by decide), s.bkLeft_flag.1]
  · rw [State.raise_flag _ _ _ _ _ (by decide), State.chgGo_flag _ _ _ (by decide) (by decide), s.bkLeft_flag.2]
  · rw [State.raise_power, hpow]
    rfl
  · rw [State.raise_power, hpow]
    rfl
  · rw [State.raise_power, hpow]
    rfl
  · rw [State.raise_get _ _ _ _ _ (by decide), State.chgGo_state _ _ hnew]
  · exact (s.bkLeft.chgGo_grows new s.bkLeft_grows).stored hr (by decide) _ _ _ _

end Buskeep

section Sample

variable (s : State)

theorem roundDiv_nat (n d : Nat) (hd : 0 < d) : (roundDiv (n : Int) (d : Int)).toNat = (2 * n + d) / (2 * d) := by
  have h1 : ((n : Int) < 0) = False := eq_false (by omega)
  have h2 : ((d : Int) < 0) = False := eq_false (by omega)
  have h3 : ((d : Int) = 0) = False := eq_false (by omega)
  simp only [roundDiv, h1, h2, h3, decide_false, Int.natAbs_natCast, if_false, bne_self_eq_false, Bool.false_eq_true, Int.toNat_natCast]

theorem chargeQ16_eq (ua : Nat) : chargeQ16 ua = (2 * (ua * 65536) + 10000) / 20000 := roundDiv_nat (ua * 65536) 10000 (by decide)

/-- A sample whose successor is not marked enters the counters as it was taken (R333, R334). -/
theorem Power.pushSample_charge {p : Power} {a b x : PackSmp} (hp : p.held = [a, b]) (hb : b.marked = false) (ha : 0 < a.ip) :
    (p.pushSample x).qChg = (p.qChg + chargeQ16 a.ip.natAbs) % 2 ^ 80 ∧ (p.pushSample x).qDis = p.qDis := by
  simp only [pushSample, hp, hb, Bool.false_and, Bool.false_eq_true, if_false, countSample, if_pos ha]
  exact ⟨rfl, if_neg (by omega)⟩

/-- The words of a sample of the pack (R333). -/
def State.sampleWords (u : State) (low : Bool) (v : Nat) (ips : List Int) (tf : Nat) : State :=
  (((u.putFlag R.EST_STAT_LOW_GAIN low).setReg R.PACK_V (BitVec.ofNat 32 (roundDiv (v * 5 : Nat) 4).toNat)).setReg R.PACK_I
    (i32 (roundDiv (ips.foldl (· + ·) 0) ips.length))).setReg R.TF_I (BitVec.ofNat 32 tf)

theorem State.sampleWords_v (u : State) (low : Bool) (v : Nat) (ips : List Int) (tf : Nat) (hv : v < 65536) :
    ((u.sampleWords low v ips tf).reg R.PACK_V).toNat = (5 * v + 2) / 4 := by
  have hq : (roundDiv (v * 5 : Nat) 4).toNat = (2 * (v * 5) + 4) / 8 := roundDiv_nat (v * 5) 4 (by decide)
  rw [sampleWords, reg_setReg_far _ _ _ _ (by decide), reg_setReg_far _ _ _ _ (by decide), reg_setReg_same, BitVec.toNat_ofNat, hq,
    show 2 * (v * 5) + 4 = 2 * (5 * v + 2) by ring, show 8 = 2 * 4 from rfl, Nat.mul_div_mul_left _ _ (by decide)]
  omega

theorem State.sampleWords_tf (u : State) (low : Bool) (v : Nat) (ips : List Int) (tf : Nat) (h : tf < 2 ^ 32) :
    ((u.sampleWords low v ips tf).reg R.TF_I).toNat = tf := by
  rw [sampleWords, reg_setReg_same, BitVec.toNat_ofNat, Nat.mod_eq_of_lt h]

theorem State.sampleWords_low (u : State) (low : Bool) (v : Nat) (ips : List Int) (tf : Nat) :
    (u.sampleWords low v ips tf).flag R.EST_STAT_LOW_GAIN = low := by
  simp (disch := decide) [sampleWords]

/-- Whether the gain changes with the next sample (R333). -/
def gainNext (low : Bool) (code : Int) (run : Nat) : Option Bool :=
  if !low && 30720 ≤ code.natAbs then some true
  else if low && 100 ≤ run then some false
  else none

theorem gainNext_high (code : Int) (run : Nat) : gainNext false code run = some true ↔ 30720 ≤ code.natAbs := by
  simp [gainNext]

/-- One unmarked sample (R333, R334). -/
def State.smpOf (s : State) (iCode vCode : BitVec 16) (tf : Nat) : PackSmp :=
  { ip := s.packUa s.power.lowGain iCode.toInt, vp := vCode.toNat, marked := false,
    full := decide (iCode.toInt = 32767 ∨ iCode.toInt = -32768), tf := tf }

/-- What a sample leaves in the counters of the pack (R333, R334). -/
def State.smpPower (s : State) (iCode vCode : BitVec 16) (tf : Nat) (p : Power) : Power :=
  let low := s.power.lowGain
  let run := if low && iCode.toInt.natAbs ≤ 2560 then s.power.smallRun + 1 else 0
  let due := gainNext low iCode.toInt run
  { (p.pushSample (s.smpOf iCode vCode tf)) with
    lowGain := low, smallRun := if due.isSome then 0 else run, gainDue := due,
    ips := ((s.smpOf iCode vCode tf).ip :: s.power.ips).take 10,
    termRun := if ({ s with pace := { s.pace with pack := some s.tick.wall } } : State).chgState ≠ 3 ||
        !({ s with pace := { s.pace with pack := some s.tick.wall } } : State).termLow (s.smpOf iCode vCode tf).ip then 0
      else if ({ s with pace := { s.pace with pack := some s.tick.wall } } : State).cvHeldOff then s.power.termRun
      else s.power.termRun + 1 }

/-- The state of a sample before the estimator takes it. -/
def State.smpTaken (s : State) (iCode vCode : BitVec 16) (tf : Nat) : State :=
  (({ s with pace := { s.pace with pack := some s.tick.wall } } : State).modPower (s.smpPower iCode vCode tf)).sampleWords
    s.power.lowGain vCode.toNat (((s.smpOf iCode vCode tf).ip :: s.power.ips).take 10) tf

theorem packSample_eq (iCode vCode : BitVec 16) (tf : Nat) (hm : s.mode.mode ≠ .ship) (hg : s.power.gainDue = none)
    (hp : ∀ k, s.pace.pack = some k → k + 20000 ≤ s.tick.wall) :
    ∃ marked ipNow vpNow target hist, exec (.packSample iCode vCode tf) s = .next { s.smpTaken iCode vCode tf with est :=
      { s.est with nAcc := s.est.nAcc + 1, iAcc := s.est.iAcc + (s.smpOf iCode vCode tf).ip, vAcc := s.est.vAcc + vCode.toNat,
                   marked := marked, ipNow := ipNow, vpNow := vpNow, target := target, hist := hist } } := by
  have hpaced : s.paced s.pace.pack (100 * ticksPerUs) = true := by
    cases hk : s.pace.pack with
    | none => rfl
    | some k => exact decide_eq_true (hp k hk)
  rw [exec_packSample, execPackSample, if_neg (by simp [hm, hpaced])]
  simp only [hg, Option.getD_none, Option.isSome_none, Bool.false_eq_true, if_false]
  exact ⟨_, _, _, _, _, rfl⟩

variable (iCode vCode : BitVec 16) (tf : Nat)

theorem State.smpTaken_v : ((s.smpTaken iCode vCode tf).reg R.PACK_V).toNat = (5 * vCode.toNat + 2) / 4 :=
  sampleWords_v _ _ _ _ _ vCode.isLt

theorem State.smpTaken_tf (h : tf < 2 ^ 32) : ((s.smpTaken iCode vCode tf).reg R.TF_I).toNat = tf := sampleWords_tf _ _ _ _ _ h

theorem State.smpTaken_low : (s.smpTaken iCode vCode tf).flag R.EST_STAT_LOW_GAIN = s.power.lowGain := sampleWords_low _ _ _ _ _

theorem State.smpTaken_gain (h : s.power.lowGain = false) :
    (s.smpTaken iCode vCode tf).power.gainDue = some true ↔ 30720 ≤ iCode.toInt.natAbs := by
  have hdue : (s.smpTaken iCode vCode tf).power.gainDue = gainNext s.power.lowGain iCode.toInt
    (if s.power.lowGain && iCode.toInt.natAbs ≤ 2560 then s.power.smallRun + 1 else 0) := rfl
  rw [hdue, h, gainNext_high]

theorem State.smpTaken_charge (a b : PackSmp) (hh : s.power.held = [a, b]) (hb : b.marked = false) (ha : 0 < a.ip) :
    (s.smpTaken iCode vCode tf).power.qChg = (s.power.qChg + (2 * (a.ip.natAbs * 65536) + 10000) / 20000) % 2 ^ 80 ∧
      (s.smpTaken iCode vCode tf).power.qDis = s.power.qDis := by
  rw [← chargeQ16_eq]
  exact Power.pushSample_charge hh hb ha

end Sample

/-- Settles O25. -/
theorem busKeepAndThePackSamples : Obligations.BusKeepAndThePackSamples := by
  intro s hm
  refine ⟨buskeepEntry_moves s hm, fun hb => ⟨buskeepExit_moves s hb, ?_⟩, fun c n hg hc hn => ?_, fun iCode vCode tf htf hg hp => ?_⟩
  · refine ⟨s.raise 0x0615 2, ?_, fun hr => .of_raise s hr _ _ _, State.raise_power ..⟩
    rw [exec_buskeepLowVbus, execBuskeepLowVbus, if_pos (c := s.inBuskeep = true) hb]
  · refine ⟨s.modCh c fun h => { h with guardUntil := none }, ?_, ?_, fun k hk => ?_, ?_⟩
    · rw [exec_pullInGuardEnd, execPullInGuardEnd, hg]
      dsimp only
      rw [if_pos (by simp [hc, hn])]
    · rw [State.modCh_ch, if_pos rfl]
    · rw [State.modCh_ch, if_neg hk]
    · rfl
  · obtain ⟨_, _, _, _, _, hexec⟩ := packSample_eq s iCode vCode tf hm hg hp
    refine ⟨_, hexec, s.smpTaken_v iCode vCode tf, s.smpTaken_tf iCode vCode tf htf, rfl, s.smpTaken_low iCode vCode tf, rfl, rfl, rfl,
      s.smpTaken_gain iCode vCode tf, s.smpTaken_charge iCode vCode tf⟩

end Sys2Proof.Machine
end

section
/-! PROOFS. How a descriptor is started, answered and accepted (R271, R276, R277): the state in which an opcode acts, the entry of its
completion, and what completing leaves alone. -/

namespace Sys2Proof.Machine

section Start

variable (s : State) (q : Ring)

/-- The descriptor that ring `q` starts next. -/
def State.nextExec (s : State) (q : Ring) (op : Byte) (d : Desc) : InExec :=
  { op := op, tag := d.tag, slot := s.lastSlot q, sqhd := (s.hp.rings[q]).ci }

/-- On Q16 to Q19 a descriptor under way is kept until it completes or waits (R271). -/
def State.starting (s : State) (q : Ring) (x : InExec) : State :=
  if q.val < 16 then s else s.modRing q fun r => { r with exec := some x }

theorem State.starting_spire_ring (x : InExec) (h : q.val < 16) : s.starting q x = s := if_pos h

theorem State.starting_admin (x : InExec) (h : ¬q.val < 16) : s.starting q x = s.modRing q fun r => { r with exec := some x } := if_neg h

theorem State.starting_hp (x : InExec) : ∃ r, s.starting q x = { s with hp := { s.hp with rings := r } } := by
  unfold starting
  split
  · exact ⟨s.hp.rings, rfl⟩
  · exact ⟨_, rfl⟩

theorem State.descCheck_rings (r : Vector RingSt 24) (op : Nat) (d : Desc) :
    ({ s with hp := { s.hp with rings := r } } : State).descCheck q op d = s.descCheck q op d := rfl

theorem State.starting_descCheck (x : InExec) (op : Nat) (d : Desc) : (s.starting q x).descCheck q op d = s.descCheck q op d := by
  obtain ⟨r, h⟩ := s.starting_hp q x
  rw [h, descCheck_rings]

/-- A descriptor that passes its checks acts on the state that has started it (R276). -/
theorem State.opRow_takes {op : Byte} {d : Desc} (hop : op ≠ 0x10) (h : s.Takes q op d) :
    s.opRow op q d = .next ((s.starting q (s.nextExec q op d)).opEffect q (s.nextExec q op d) d) := by
  obtain ⟨hcan, hcheck⟩ := h
  have hrun (x : InExec) (hx : x.op = op) : s.runOp q x d = (s.starting q x).opEffect q x d := by
    rw [runOp, ← starting, hx, if_neg hop, s.starting_descCheck, hcheck]
  rw [opRow, if_pos hcan]
  exact congrArg Host.Outcome.next (hrun _ rfl)

end Start

section Complete

variable (s u : State) (q : Ring) (x : InExec) (status : Byte) (info : W64) (b : Bool)

/-- What INFO shows with a status (Table 10.9). -/
def shownInfo (status : Byte) (info : W64) : W64 := if status = 0 || status = 0x22 then info else 0

/-- The state with the entry of a completion held for its completion ring. -/
def State.told (u : State) (q : Ring) (x : InExec) (status : Byte) (info : W64) : State :=
  u.modHp fun h => { h with cq := upd h.cq (u.cqOf q) (· ++ [⟨u.rqOf q, .cmd (shownInfo status info) x.tag x.sqhd status q, u.now⟩]) }

theorem State.told_cq : (u.told q x status info).hp.cq[u.cqOf q] =
    u.hp.cq[u.cqOf q] ++ [⟨u.rqOf q, .cmd (shownInfo status info) x.tag x.sqhd status q, u.now⟩] := upd_same ..

/-- The count and the event of a refusal (R276), where the status is one. -/
def State.refusedBy (t : State) (q : Ring) (x : InExec) (status : Byte) (b : Bool) : State :=
  if status < 0x10 then t
  else if b then (t.count (R.Q_CNT_REFUSED q)).raiseLimited 0x0203 0
    (BitVec.ofNat 32 (q.val + status.toNat * 256 + x.slot * 65536)) q.val
  else t.count (R.Q_CNT_REFUSED q)

theorem State.completeOne_told (h : u.stalledRq (u.rqOf q) = none) :
    u.completeOne q x status info b = (u.told q x status info).refusedBy q x status b := by
  rw [completeOne, hold]
  simp only [h]
  rfl

/-- A part of the state that answering a descriptor leaves alone: no lend, no register but the count of refusals, and nothing that a
class F0 event touches. -/
structure Unanswered {α : Sort*} (g : State → α) (q : Ring) : Prop where
  hp : ∀ (t : State) (h : HostPort), h.lends = t.hp.lends → g { t with hp := h } = g t
  count : ∀ t : State, g (t.count (R.Q_CNT_REFUSED q)) = g t
  raise : ∀ (t : State) (c : BitVec 16) (d : W32), g (t.raise c 0 d) = g t

variable {q} {g : State → α} (hg : Unanswered g q)
include hg

theorem Unanswered.told : g (u.told q x status info) = g u := hg.hp u _ rfl

theorem Unanswered.modRing (f : RingSt → RingSt) : g (u.modRing q f) = g u := hg.hp u _ rfl

theorem Unanswered.raiseLimited (c : BitVec 16) (d : W32) (i n : Nat) : g (u.raiseLimited c 0 d i n) = g u := by
  unfold State.raiseLimited
  split
  · exact (hg.raise _ c d).trans (hg.hp u _ rfl)
  · rfl

theorem Unanswered.refusedBy : g (u.refusedBy q x status b) = g u := by
  unfold State.refusedBy
  split
  · rfl
  · split
    · exact (hg.raiseLimited _ _ _ _ _).trans (hg.count u)
    · exact hg.count u

theorem Unanswered.completeOne (h : u.stalledRq (u.rqOf q) = none) : g (u.completeOne q x status info b) = g u := by
  rw [u.completeOne_told q x status info b h]
  exact (hg.refusedBy _ x status b).trans (hg.told u x status info)

end Complete

section River

variable (s : State)

theorem State.classCount_rv (k : BitVec 2) : (s.classCount k).rv = s.rv := by
  unfold classCount; split <;> rfl

theorem State.storeEvent_rv (e : Evt) : (s.storeEvent e).rv = s.rv := by
  unfold storeEvent; dsimp only; repeat' split
  all_goals rfl

theorem State.errPulse_rv : s.errPulse.rv = s.rv := by
  unfold errPulse; dsimp only; split <;> rfl

/-- Only events of class F2 and F3 are told on the river ring. -/
theorem State.raise_rv {k : BitVec 2} (h2 : k ≠ 2) (h3 : k ≠ 3) (c : BitVec 16) (d : W32) : (s.raise c k d).rv = s.rv := by
  unfold raise raiseWith notice
  simp only [h2, h3, decide_false, Bool.false_and, Bool.or_self, Bool.false_eq_true, if_false, Bool.false_or]
  split <;> split <;> simp only [errPulse_rv, storeEvent_rv, classCount_rv]

end River

section Unanswered

variable {q : Ring}

theorem unanswered_chan : Unanswered State.chan q := ⟨fun _ _ _ => rfl, fun _ => rfl, fun t c d => t.raise_chan c 0 d⟩
theorem unanswered_eng : Unanswered State.eng q := ⟨fun _ _ _ => rfl, fun _ => rfl, fun t c d => t.raise_eng c 0 d⟩
theorem unanswered_units : Unanswered State.units q := ⟨fun _ _ _ => rfl, fun _ => rfl, fun t c d => t.raise_units c 0 d⟩
theorem unanswered_mode : Unanswered State.mode q := ⟨fun _ _ _ => rfl, fun _ => rfl, fun t c d => t.raise_mode (by decide) c d⟩
theorem unanswered_otp : Unanswered State.otp q := ⟨fun _ _ _ => rfl, fun _ => rfl, fun t c d => t.raise_otp c 0 d⟩
theorem unanswered_arb : Unanswered State.arb q := ⟨fun _ _ _ => rfl, fun _ => rfl, fun t c d => t.raise_arb c 0 d⟩
theorem unanswered_power : Unanswered State.power q := ⟨fun _ _ _ => rfl, fun _ => rfl, fun t c d => t.raise_power c 0 d⟩
theorem unanswered_spire : Unanswered State.spire q := ⟨fun _ _ _ => rfl, fun _ => rfl, fun t c d => t.raise_spire c 0 d⟩
theorem unanswered_tick : Unanswered State.tick q := ⟨fun _ _ _ => rfl, fun _ => rfl, fun t c d => t.raise_tick c 0 d⟩
theorem unanswered_keepWrites : Unanswered State.keepWrites q :=
  ⟨fun _ _ _ => rfl, fun _ => rfl, fun t c d => t.raise_keepWrites c 0 d⟩
theorem unanswered_lends : Unanswered (fun t : State => t.hp.lends) q := ⟨fun _ _ h => h, fun _ => rfl, fun t c d => t.raise_hp_lends c 0 d⟩
theorem unanswered_reg {a : Nat} (h : a ≠ (R.Q_CNT_REFUSED q).addr) (he : a ∉ eventRegs) : Unanswered (fun t : State => t.reg a) q :=
  ⟨fun _ _ _ => rfl, fun t => t.reg_count_far _ _ a h, fun t c d => t.raise_reg c 0 d a he⟩
theorem unanswered_rv : Unanswered State.rv q :=
  ⟨fun _ _ _ => rfl, fun _ => rfl, fun t c d => t.raise_rv (by decide) (by decide) c d⟩

end Unanswered

section Finish

variable {s u : State} {q : Ring} {x : InExec}

theorem State.stalledRq_high (u : State) {rq : Rq} (h : 16 ≤ rq.val) : u.stalledRq rq = none := by
  rw [stalledRq, dif_neg (by omega)]

theorem State.rqOf_high (u : State) (h : 16 ≤ q.val) : 16 ≤ (u.rqOf q).val := by
  rw [rqOf, dif_neg (by omega)]
  repeat' split
  all_goals decide

/-- The requester of a ring whose consumer is not stalled. -/
theorem State.stalledRq_rqOf (u : State) (h : (u.hp.rings[q]).stalled = false) : u.stalledRq (u.rqOf q) = none := by
  by_cases hq : q.val < 16
  · rw [rqOf, dif_pos hq]
    split
    · exact stalledRq_high u (by decide)
    · rw [stalledRq, dif_pos hq, if_neg (by rw [h]; decide)]
  · exact stalledRq_high u (u.rqOf_high (by omega))

/-- The parts of a state that an answer to ring `q` is made of are those of the state in which its descriptor was started. -/
structure Starts (s u : State) (q : Ring) (x : InExec) : Prop where
  relief : u.arb.relief = s.arb.relief
  rings : u.hp.rings = (s.starting q x).hp.rings
  cq : u.hp.cq = s.hp.cq
  now : u.now = s.now
  cfg : u.get (R.Q_CFG_CQ q) = s.get (R.Q_CFG_CQ q)

theorem Starts.refl (s : State) (q : Ring) (x : InExec) : Starts s (s.starting q x) q x := by
  obtain ⟨r, h⟩ := s.starting_hp q x
  exact ⟨by rw [h], rfl, by rw [h], by rw [h]; rfl, by rw [h]; rfl⟩

/-- Answering and starting leave the ring's place free to start. -/
theorem State.canStart_stalled (h : s.canStart q = true) : (s.hp.rings[q]).stalled = false := by
  simp only [canStart, Bool.and_eq_true, Bool.not_eq_true'] at h
  exact h.1.2

theorem State.canStart_admin (h : s.canStart q = true) (hq : ¬q.val < 16) :
    (s.hp.rings[q]).exec = none ∧ ∀ y ∈ (s.hp.rings[q]).pend, y.op ≠ 0x81 := by
  simp only [canStart, Bool.and_eq_true, Bool.or_eq_true, decide_eq_true_eq, hq, false_or, Option.isNone_iff_eq_none,
    Bool.not_eq_true', List.any_eq_false] at h
  exact ⟨h.2.1.1, h.2.1.2⟩

theorem State.starting_ring_same (hq : ¬q.val < 16) :
    (s.starting q x).hp.rings[q] = { s.hp.rings[q] with exec := some x } := by
  rw [starting_admin _ _ _ hq]
  exact upd_same ..

theorem Starts.ring (h : Starts s u q x) (hq : ¬q.val < 16) : u.hp.rings[q] = { s.hp.rings[q] with exec := some x } := by
  rw [h.rings, State.starting_ring_same hq]

theorem Starts.stalled (h : Starts s u q x) (hs : s.canStart q = true) : (u.hp.rings[q]).stalled = false := by
  have hst := State.canStart_stalled hs
  by_cases hq : q.val < 16
  · rw [h.rings, State.starting_spire_ring _ _ _ hq, hst]
  · rw [h.ring hq, hst]

theorem Starts.rqOf (h : Starts s u q x) : u.rqOf q = s.rqOf q := by
  rw [State.rqOf, h.relief, ← State.rqOf]

theorem Starts.cqOf (h : Starts s u q x) : u.cqOf q = s.cqOf q := Fin.ext (congrArg (· % 4) h.cfg)

theorem State.modRing_congr (v : State) {f g : RingSt → RingSt} (h : f (v.hp.rings[q]) = g (v.hp.rings[q])) :
    v.modRing q f = v.modRing q g := by
  have hupd : upd v.hp.rings q f = upd v.hp.rings q g := by rw [upd, h, upd]
  exact congrArg (fun r : Vector RingSt 24 => v.modHp fun h => { h with rings := r }) hupd

/-- A ring without a barrier at its front has none to release. -/
theorem State.barriers_none (v : State) (h : ∀ y ∈ (v.hp.rings[q]).pend, y.op ≠ 0x81) : v.barriers q = v := by
  have htake : (v.hp.rings[q]).pend.takeWhile (fun y => decide (y.op = 0x81)) = [] := by
    cases hl : (v.hp.rings[q]).pend with
    | nil => rfl
    | cons y l =>
      have hy : decide (y.op = 0x81) = false := decide_eq_false (h y (hl ▸ List.mem_cons_self))
      rw [List.takeWhile_cons, hy]
      rfl
  have hdrop : (v.hp.rings[q]).pend.dropWhile (fun y => decide (y.op = 0x81)) = (v.hp.rings[q]).pend := by
    rw [← List.takeWhile_append_dropWhile (p := fun y => decide (y.op = 0x81)) (l := (v.hp.rings[q]).pend), htake, List.nil_append,
      List.dropWhile_idempotent]
  rw [barriers, htake, hdrop, List.foldl_nil, modRing, modHp, upd_eq_self rfl]

/-- The end of a descriptor under way on Q16 to Q19 behind which no barrier waits (R271). -/
theorem State.complete_exec {tag : BitVec 16} {slot : Nat} {status : Byte} {info : W64} {b : Bool} (hx : (u.hp.rings[q]).exec = some x)
    (htag : x.tag = tag) (hslot : x.slot = slot) (hpend : ∀ y ∈ (u.hp.rings[q]).pend, y.op ≠ 0x81)
    (hst : u.stalledRq (u.rqOf q) = none) :
    u.complete q tag slot status info b = (u.completeOne q x status info b).modRing q fun r => { r with exec := none } := by
  have hring : (u.completeOne q x status info b).hp.rings = u.hp.rings := by
    rw [u.completeOne_told q x status info b hst]
    unfold State.refusedBy
    split
    · rfl
    · split
      · rw [State.raiseLimited_hp_rings]
        rfl
      · rfl
  have hfind : (u.hp.rings[q]).find tag slot = some x := by
    rw [RingSt.find, hx]
    simp [htag, hslot]
  rw [complete, hfind]
  dsimp only
  generalize u.completeOne q x status info b = v at hring ⊢
  have hone : (v.modRing q fun r => if r.exec = some x then { r with exec := none } else { r with pend := r.pend.erase x }) =
      v.modRing q fun r => { r with exec := none } := v.modRing_congr (if_pos (by rw [hring, hx]))
  rw [hone]
  refine State.barriers_none _ fun y hy => hpend y ?_
  have hsame : ((v.modRing q fun r => { r with exec := none }).hp.rings[q]).pend = (v.hp.rings[q]).pend :=
    (congrArg RingSt.pend (upd_same v.hp.rings q fun r => { r with exec := none }) :)
  rwa [hsame, hring] at hy

/-- The state in which a descriptor of ring `q` has ended. -/
def State.ringDone (t : State) (q : Ring) : State := if q.val < 16 then t else t.modRing q fun r => { r with exec := none }

variable {status : Byte} {info : W64} {b : Bool}

theorem Starts.finish {op : Byte} {d : Desc} (hs : s.canStart q = true) (h : Starts s u q (s.nextExec q op d)) :
    u.finish q (s.nextExec q op d) status info b = (u.completeOne q (s.nextExec q op d) status info b).ringDone q := by
  rw [State.finish, State.ringDone]
  by_cases hq : q.val < 16
  · rw [if_pos hq, if_pos hq]
  · rw [if_neg hq, if_neg hq]
    have hring := h.ring hq
    refine State.complete_exec (by rw [hring]) rfl rfl ?_ (u.stalledRq_rqOf (h.stalled hs))
    rw [hring]
    exact (State.canStart_admin hs hq).2

theorem Unanswered.ringDone {α : Sort*} {g : State → α} (hg : Unanswered g q) (t : State) : g (t.ringDone q) = g t := by
  unfold State.ringDone
  split
  · rfl
  · exact hg.modRing t _

/-- What answering leaves alone is as the opcode left it. -/
theorem Starts.finish_keeps {op : Byte} {d : Desc} (hs : s.canStart q = true) (h : Starts s u q (s.nextExec q op d)) {α : Sort*}
    {g : State → α} (hg : Unanswered g q) : g (u.finish q (s.nextExec q op d) status info b) = g u := by
  rw [h.finish hs, hg.ringDone]
  exact hg.completeOne u _ _ _ _ (u.stalledRq_rqOf (h.stalled hs))

theorem State.refusedBy_cq (t : State) : (t.refusedBy q x status b).hp.cq = t.hp.cq := by
  unfold refusedBy
  split
  · rfl
  · split
    · rw [raiseLimited_hp_cq]
      rfl
    · rfl

theorem State.ringDone_cq (t : State) : (t.ringDone q).hp.cq = t.hp.cq := by
  unfold ringDone; split <;> rfl

/-- A descriptor that completes as it is executed is answered (Table 10.9). -/
theorem Starts.answered {op : Byte} {d : Desc} (hs : s.canStart q = true) (h : Starts s u q (s.nextExec q op d)) :
    Answered s (u.finish q (s.nextExec q op d) status info b) q d status (shownInfo status info) := by
  have hst := u.stalledRq_rqOf (h.stalled hs)
  have hst' := s.stalledRq_rqOf (State.canStart_stalled hs)
  rw [Answered, hst', h.finish hs]
  dsimp only
  rw [State.ringDone_cq, u.completeOne_told _ _ _ _ _ hst, State.refusedBy_cq]
  have htold := u.told_cq q (s.nextExec q op d) status info
  simp only [h.cqOf, h.rqOf, h.cq, h.now] at htold
  exact htold

/-- The answer of status 0 changes the host port alone. -/
theorem Starts.finish_ok {op : Byte} {d : Desc} (hs : s.canStart q = true) (h : Starts s u q (s.nextExec q op d)) :
    ∃ r c, u.finish q (s.nextExec q op d) 0 info b = { u with hp := { u.hp with rings := r, cq := c } } := by
  rw [h.finish hs, u.completeOne_told _ _ _ _ _ (u.stalledRq_rqOf (h.stalled hs)), State.refusedBy, if_pos (by decide), State.ringDone]
  split
  · exact ⟨u.hp.rings, _, rfl⟩
  · exact ⟨_, _, rfl⟩

/-- An accepted descriptor waits (R271). -/
theorem Starts.accepted {t : State} {op : Byte} {d : Desc} (h : Starts s u q (s.nextExec q op d))
    (hrings : t.hp.rings = (u.accept q (s.nextExec q op d)).hp.rings) (hcq : t.hp.cq = u.hp.cq) : Accepted s t q op d := by
  have hring : t.hp.rings[q] = { u.hp.rings[q] with exec := none, pend := (u.hp.rings[q]).pend ++ [s.nextExec q op d] } := by
    rw [hrings]
    exact upd_same ..
  have hpend : (u.hp.rings[q]).pend = (s.hp.rings[q]).pend := by
    by_cases hq : q.val < 16
    · rw [h.rings, State.starting_spire_ring _ _ _ hq]
    · rw [h.ring hq]
  exact ⟨by rw [hring, hpend]; rfl, by rw [hring], hcq.trans h.cq⟩

end Finish

end Sys2Proof.Machine
end

section
/-! PROOFS. The opcodes of a channel: parameters, cancels, RUN and MANUAL (R153, R231, R275). -/

namespace Sys2Proof.Machine

section Words

/-- The registers that an event writes lie below the channel windows. -/
theorem not_mem_eventRegs_of_high {a : Nat} (h : 0x8000 ≤ a) : a ∉ eventRegs := by
  have hlow : ∀ b ∈ eventRegs, b < 0x8000 := by decide
  exact fun hm => absurd (hlow a hm) (by omega)

theorem qCntRefused_low (q : Ring) : (R.Q_CNT_REFUSED q).addr < 0x8000 := by
  simp only [R.Q_CNT_REFUSED, R.Q_CNT]
  omega

theorem qCfg_low (q : Ring) : (R.Q_CFG_CQ q).addr < 0x8000 := by
  simp only [R.Q_CFG_CQ, R.Q_CFG]
  omega

theorem qCfg_not_event (q : Ring) : R.Q_CFG q ∉ eventRegs := by
  revert q
  decide

theorem engCtrl_high (c : Ch) : 0x8000 ≤ R.CH_ENG_CTRL c := by
  simp only [R.CH_ENG_CTRL]
  omega

theorem engStat_high (c : Ch) : 0x8000 ≤ R.CH_ENG_STAT c := by
  simp only [R.CH_ENG_STAT]
  omega

theorem budTrim_low (c : Ch) : R.BUD_TRIM (c.val / 32) < 0x8000 := by
  simp only [R.BUD_TRIM]
  omega

theorem budTrim_not_event (c : Ch) : R.BUD_TRIM (c.val / 32) ∉ eventRegs := by
  have h : ∀ k < 8, R.BUD_TRIM k ∉ eventRegs := by decide
  exact h _ (by omega)

theorem engStat_ne_engCtrl (c : Ch) : R.CH_ENG_STAT c ≠ R.CH_ENG_CTRL c := by
  simp only [R.CH_ENG_STAT, R.CH_ENG_CTRL]
  omega

/-- A word of the channel windows is none of those that answering writes. -/
theorem unanswered_high {a : Nat} (h : 0x8000 ≤ a) {q : Ring} : Unanswered (fun t : State => t.reg a) q :=
  unanswered_reg (by have := qCntRefused_low q; omega) (not_mem_eventRegs_of_high h)

theorem foldl_set_getElem? {α : Type} (ws : List α) (first : Nat) (l : List α) (i : Nat) :
    ((ws.zipIdx first).foldl (fun l p => l.set p.2 p.1) l)[i]? =
      if first ≤ i ∧ i < first + ws.length ∧ i < l.length then ws[i - first]? else l[i]? := by
  induction ws generalizing first l with
  | nil =>
    rw [if_neg (by simp only [List.length_nil]; omega)]
    rfl
  | cons w ws ih =>
    rw [List.zipIdx_cons, List.foldl_cons, ih, List.length_set, List.length_cons]
    by_cases h1 : i = first
    · subst h1
      by_cases h2 : i < l.length
      · rw [if_neg (by omega), if_pos (by omega), Nat.sub_self, List.getElem?_set_self h2]
        rfl
      · rw [if_neg (by omega), if_neg (by omega), List.getElem?_eq_none (by rw [List.length_set]; omega),
          List.getElem?_eq_none (by omega)]
    · rw [List.getElem?_set_ne (Ne.symm h1)]
      by_cases h3 : first + 1 ≤ i ∧ i < first + 1 + ws.length ∧ i < l.length
      · rw [if_pos h3, if_pos (by omega), show i - first = (i - (first + 1)) + 1 by omega, List.getElem?_cons_succ]
      · rw [if_neg h3, if_neg (by omega)]

end Words

section Opcodes

variable {s u : State} {q : Ring} {x : InExec} {d : Desc}

theorem Starts.same {v : State} (h : Starts s u q x) (harb : v.arb.relief = u.arb.relief) (hrings : v.hp.rings = u.hp.rings) (hcq : v.hp.cq = u.hp.cq) (htick : v.tick = u.tick)
    (hcfg : v.reg (R.Q_CFG q) = u.reg (R.Q_CFG q)) : Starts s v q x :=
  ⟨harb.trans h.relief, hrings.trans h.rings, hcq.trans h.cq, by rw [State.now, htick, ← State.now, h.now], by
    have hq : (R.Q_CFG_CQ q).addr = R.Q_CFG q := rfl
    rw [State.get, hq, hcfg, ← hq, ← State.get, h.cfg]⟩

theorem State.Takes.fields {op : Byte} (h : s.Takes q op d) : unusedZero op.toNat d = true ∧ rangesOk op.toNat d = true := by
  have hcheck := h.2
  unfold descCheck at hcheck
  repeat' split at hcheck
  all_goals simp_all

theorem State.Takes.notMember {op : Byte} (hop : op.toNat ∈ [0x11, 0x12, 0x20, 0x21, 0x22, 0x23]) (h : s.Takes q op d) :
    s.isMember (descChan d) = false := by
  have hcheck := h.2
  unfold descCheck at hcheck
  split at hcheck; · simp at hcheck
  split at hcheck; · simp at hcheck
  split at hcheck; · simp at hcheck
  split at hcheck; · simp at hcheck
  split at hcheck; · simp at hcheck
  have hchan := (Option.or_eq_none_iff.mp hcheck).1
  unfold chanCheck at hchan
  dsimp only at hchan
  rw [if_neg (by rw [List.contains_eq_mem, decide_eq_true hop]; decide)] at hchan
  split at hchan
  · simp at hchan
  · split at hchan
    · simp at hchan
    · simp_all

/-- The two bounds of a PRM_WRITE's words (Table 10.8). -/
theorem prmWrite_bounds (h : s.Takes q 0x20 d) : descLe d 3 1 + descLe d 4 1 ≤ 64 := by
  have hr := h.fields.2
  simp only [rangesOk, BitVec.reduceToNat, Bool.and_eq_true, decide_eq_true_eq] at hr
  exact hr.1.2

theorem State.prmSet_starts (h : Starts s u q x) (c : Ch) (first : Nat) (ws : List W32) (b : Bool) : Starts s (u.prmSet c first ws b) q x :=
  h.same rfl rfl rfl rfl rfl

theorem State.starting_chan (x : InExec) : (s.starting q x).chan = s.chan := by
  obtain ⟨r, h⟩ := s.starting_hp q x
  rw [h]

theorem prmWrite_answers (h : s.Takes q 0x20 d) :
    ∃ t, exec (.prmWrite q d) s = .next t ∧ Answered s t q d 0 ((s.ch (descChan d)).prmSeq.zeroExtend 64) ∧
      t.chan = (s.prmSet (descChan d) (descLe d 3 1) ((List.range (descLe d 4 1)).map fun k => descWord d (16 + 4 * k))
        (descLe d 5 1 = 1)).chan := by
  have hst := State.prmSet_starts (Starts.refl s q (s.nextExec q 0x20 d)) (descChan d) (descLe d 3 1)
    ((List.range (descLe d 4 1)).map fun k => descWord d (16 + 4 * k)) (descLe d 5 1 = 1)
  have hch : (s.starting q (s.nextExec q 0x20 d)).ch (descChan d) = s.ch (descChan d) := by
    rw [State.ch, State.starting_chan, ← State.ch]
  refine ⟨_, (s.opRow_takes q (by decide) h :), ?_, ?_⟩
  · rw [← hch]
    exact hst.answered h.1
  · refine (hst.finish_keeps h.1 unanswered_chan).trans ?_
    rw [State.prmSet, State.modCh_chan, State.starting_chan]
    rfl

theorem State.pushReads_hp (ltag : W32) (off n : Nat) : (u.pushReads ltag off n).hp = u.hp := by
  unfold pushReads; split <;> rfl

/-- Reads of a lent buffer wait at the arbiter alone. -/
theorem State.pushReads_eq (ltag : W32) (off n : Nat) : ∃ r, u.pushReads ltag off n = { u with arb := { u.arb with reads := r } } := by
  unfold pushReads
  split
  · exact ⟨u.arb.reads, rfl⟩
  · exact ⟨_, rfl⟩

theorem Starts.pushReads (h : Starts s u q x) (ltag : W32) (off n : Nat) : Starts s (u.pushReads ltag off n) q x := by
  obtain ⟨r, hr⟩ := u.pushReads_eq ltag off n
  rw [hr]
  exact h.same rfl rfl rfl rfl rfl

theorem State.pushReads_chan (ltag : W32) (off n : Nat) : (u.pushReads ltag off n).chan = u.chan := by
  obtain ⟨r, hr⟩ := u.pushReads_eq ltag off n
  rw [hr]

theorem prmLoad_answers (h : s.Takes q 0x21 d) :
    ∃ t, exec (.prmLoad q d) s = .next t ∧ Answered s t q d 0 ((s.ch (descChan d)).prmSeq.zeroExtend 64) ∧
      t.chan = (s.prmSet (descChan d) 0 ((List.range 64).map fun k => BitVec.ofNat 32 (leAt d.buf (4 * k) 4)) true).chan := by
  have hst := State.prmSet_starts ((Starts.refl s q (s.nextExec q 0x21 d)).pushReads (descWord d 4) (descLe d 8 4) 256) (descChan d) 0
    ((List.range 64).map fun k => BitVec.ofNat 32 (leAt d.buf (4 * k) 4)) true
  have hch : (s.starting q (s.nextExec q 0x21 d)).ch (descChan d) = s.ch (descChan d) := by
    rw [State.ch, State.starting_chan, ← State.ch]
  refine ⟨_, (s.opRow_takes q (by decide) h :), ?_, ?_⟩
  · rw [← hch]
    exact hst.answered h.1
  · refine (hst.finish_keeps h.1 unanswered_chan).trans ?_
    rw [State.prmSet, State.modCh_chan, State.pushReads_chan, State.starting_chan]
    rfl

/-- A cancel or a flush waits for the next course update (R231). -/
theorem opCancel_accepted {op : Byte} (hop : op ≠ 0x10) (h : s.Takes q op d) (rtag : Option (BitVec 16))
    (heff : (s.starting q (s.nextExec q op d)).opEffect q (s.nextExec q op d) d =
      (s.starting q (s.nextExec q op d)).opCancel q (s.nextExec q op d) (descChan d) rtag) :
    ∃ t, s.opRow op q d = .next t ∧ Accepted s t q op d ∧ (∀ k, k ≠ descChan d → t.ch k = s.ch k) ∧
      (t.ch (descChan d)).seqr.live = (s.ch (descChan d)).seqr.live ∧
      (t.ch (descChan d)).seqr.cancels = (s.ch (descChan d)).seqr.cancels ++ [⟨rtag, some (q, d.tag, s.lastSlot q)⟩] := by
  have hchan : ((s.starting q (s.nextExec q op d)).opCancel q (s.nextExec q op d) (descChan d) rtag).chan =
      upd s.chan (descChan d) fun c => { c with seqr := { c.seqr with cancels := c.seqr.cancels ++ [⟨rtag, some (q, d.tag, s.lastSlot q)⟩] } } := by
    rw [← s.starting_chan (q := q) (s.nextExec q op d)]
    rfl
  refine ⟨_, (s.opRow_takes q hop h).trans (congrArg Host.Outcome.next heff), (Starts.refl s q _).accepted rfl rfl, fun k hk => ?_, ?_, ?_⟩
  · rw [State.ch, hchan, upd_other _ _ _ _ hk, ← State.ch]
  · rw [State.ch, hchan, upd_same, ← State.ch]
  · rw [State.ch, hchan, upd_same, ← State.ch]

end Opcodes

section Run

variable (s : State) (c : Ch)

/-- Level events change the events pending in an engine, and nothing else. -/
theorem State.latchCh_eq (bit : Nat) :
    ∃ v : Vector Engine 272, s.latchCh c bit = { s with eng := v } ∧ ∀ e : Eng, ∃ p, v[e] = { s.eng[e] with pend := p } := by
  unfold latchCh
  split
  · split
    · rename_i e _ _
      refine ⟨_, rfl, fun k => ?_⟩
      by_cases hk : k = e
      · subst hk
        exact ⟨_, upd_same ..⟩
      · exact ⟨s.eng[k].pend, upd_other _ _ _ _ hk⟩
    · exact ⟨s.eng, rfl, fun k => ⟨s.eng[k].pend, rfl⟩⟩
  · exact ⟨s.eng, rfl, fun k => ⟨s.eng[k].pend, rfl⟩⟩

theorem State.levelCh_eq :
    ∃ v : Vector Engine 272, s.levelCh c = { s with eng := v } ∧ ∀ e : Eng, ∃ p, v[e] = { s.eng[e] with pend := p } := by
  have hkeep (t : State) (ht : ∃ v : Vector Engine 272, t = { s with eng := v } ∧ ∀ e : Eng, ∃ p, v[e] = { s.eng[e] with pend := p }) :
      ∃ v : Vector Engine 272, (if (t.ch c).snse.isEmpty then t else t.latchCh c 2) = { s with eng := v } ∧
        ∀ e : Eng, ∃ p, v[e] = { s.eng[e] with pend := p } := by
    split
    · exact ht
    · obtain ⟨v, rfl, hv⟩ := ht
      obtain ⟨w, hw, hwe⟩ := State.latchCh_eq { s with eng := v } c 2
      refine ⟨w, hw, fun e => ?_⟩
      obtain ⟨p, hp⟩ := hwe e
      obtain ⟨p', hp'⟩ := hv e
      exact ⟨p, hp.trans (by rw [hp'])⟩
  refine hkeep _ ?_
  split
  · exact s.latchCh_eq c 1
  · exact ⟨s.eng, rfl, fun e => ⟨s.eng[e].pend, rfl⟩⟩

/-- The words that a write of `CH_ENG_CTRL` leaves before RUN acts, and the FIFOs that it turns off (R145, Table 06.9). -/
def State.ctrlWritten (s : State) (c : Ch) (v : W32) : State :=
  let s := s.setReg (R.CH_ENG_CTRL c) ((v &&& 0x00003F06) ||| (s.reg (R.CH_ENG_CTRL c) &&& 1))
  let s := if v.getLsbD 1 then s else s.modCh c fun h => { h with istrm := [] }
  if v.getLsbD 2 then s else s.modCh c fun h => { h with vstrm := [] }

theorem State.engCtrlWrite_eq (v : W32) (hm : s.mode.mode ≠ .field) :
    s.engCtrlWrite c v = (if v.getLsbD 0 then (s.ctrlWritten c v).runStart c
      else if s.flag (R.CH_ENG_CTRL_RUN c) then (s.ctrlWritten c v).runStop c else s.ctrlWritten c v).levelCh c := by
  rw [engCtrlWrite, if_neg hm]
  rfl

/-- What a state of the channels alone, their words and the engines leaves of the host port. -/
structure ChanOnly (s t : State) (c : Ch) : Prop where
  rings : t.hp.rings = s.hp.rings
  cq : t.hp.cq = s.hp.cq
  arb : t.arb = s.arb
  tick : t.tick = s.tick
  reg : ∀ a, a ≠ R.CH_ENG_CTRL c → a ≠ R.CH_ENG_STAT c → a ∉ eventRegs → t.reg a = s.reg a

variable {s c}

theorem State.isMember_congr {t : State} (h : ∀ k, t.ownTopo k = s.ownTopo k) : t.isMember c = s.isMember c := by
  simp only [isMember, leadOf, h]

theorem ChanOnly.refl (s : State) (c : Ch) : ChanOnly s s c := ⟨rfl, rfl, rfl, rfl, fun _ _ _ _ => rfl⟩

theorem ChanOnly.trans {t u : State} (h : ChanOnly s t c) (k : ChanOnly t u c) : ChanOnly s u c :=
  ⟨k.rings.trans h.rings, k.cq.trans h.cq, k.arb.trans h.arb, k.tick.trans h.tick,
    fun a h1 h2 h3 => (k.reg a h1 h2 h3).trans (h.reg a h1 h2 h3)⟩

theorem ChanOnly.starts {u v : State} {q : Ring} {x : InExec} (h : Starts s u q x) (k : ChanOnly u v c) : Starts s v q x := by
  have hq : R.Q_CFG q < 0x8000 := qCfg_low q
  have h1 := engCtrl_high c
  have h2 := engStat_high c
  exact h.same (by rw [k.arb]) k.rings k.cq k.tick (k.reg _ (by omega) (by omega) (qCfg_not_event q))

theorem State.levelCh_only (s : State) (c k : Ch) : ChanOnly s (s.levelCh k) c := by
  obtain ⟨v, h, -⟩ := s.levelCh_eq k
  rw [h]
  exact ⟨rfl, rfl, rfl, rfl, fun _ _ _ _ => rfl⟩

theorem State.levelCh_ch (s : State) (c k : Ch) : (s.levelCh c).ch k = s.ch k := by
  obtain ⟨v, h, -⟩ := s.levelCh_eq c
  rw [h]
  rfl

theorem State.levelCh_flag (s : State) (c : Ch) (f : Fld) : (s.levelCh c).flag f = s.flag f := by
  obtain ⟨v, h, -⟩ := s.levelCh_eq c
  rw [h]
  rfl

theorem State.ctrlWritten_only (s : State) (c : Ch) (v : W32) : ChanOnly s (s.ctrlWritten c v) c := by
  have hreg : ChanOnly s (s.setReg (R.CH_ENG_CTRL c) ((v &&& 0x00003F06) ||| (s.reg (R.CH_ENG_CTRL c) &&& 1))) c :=
    ⟨rfl, rfl, rfl, rfl, fun a h _ _ => s.reg_setReg_far _ _ _ h⟩
  have hmod (t : State) (f : Chan → Chan) : ChanOnly t (t.modCh c f) c := ⟨rfl, rfl, rfl, rfl, fun _ _ _ _ => rfl⟩
  unfold ctrlWritten
  dsimp only
  split <;> split
  · exact hreg
  · exact hreg.trans (hmod _ _)
  · exact hreg.trans (hmod _ _)
  · exact (hreg.trans (hmod _ _)).trans (hmod _ _)

theorem State.ctrlWritten_ch (s : State) (c : Ch) (v : W32) :
    ∃ i w, (s.ctrlWritten c v).ch c = { s.ch c with istrm := i, vstrm := w } := by
  have hsame : (s.setReg (R.CH_ENG_CTRL c) ((v &&& 0x00003F06) ||| (s.reg (R.CH_ENG_CTRL c) &&& 1))).ch c = s.ch c := rfl
  unfold ctrlWritten
  dsimp only
  split <;> split
  · exact ⟨(s.ch c).istrm, (s.ch c).vstrm, rfl⟩
  · exact ⟨[], (s.ch c).vstrm, by rw [modCh_ch, if_pos rfl, hsame]⟩
  · exact ⟨(s.ch c).istrm, [], by rw [modCh_ch, if_pos rfl, hsame]⟩
  · exact ⟨[], [], by rw [modCh_ch, if_pos rfl, modCh_ch, if_pos rfl, hsame]⟩

theorem State.ctrlWritten_word (s : State) (c : Ch) (v : W32) :
    (s.ctrlWritten c v).reg (R.CH_ENG_CTRL c) = (v &&& 0x00003F06) ||| (s.reg (R.CH_ENG_CTRL c) &&& 1) := by
  unfold ctrlWritten
  dsimp only
  split <;> split <;> simp [reg_setReg_same]

theorem State.run_bit (t : State) (c : Ch) : t.flag (R.CH_ENG_CTRL_RUN c) = (t.reg (R.CH_ENG_CTRL c)).getLsbD 0 :=
  fieldOf_bit (t.reg (R.CH_ENG_CTRL c)) (f := R.CH_ENG_CTRL_RUN c) rfl

theorem State.ctrlWritten_reg (s : State) (c : Ch) (v : W32) (a : Nat) (h : a ≠ R.CH_ENG_CTRL c) :
    (s.ctrlWritten c v).reg a = s.reg a := by
  unfold ctrlWritten
  dsimp only
  split <;> split <;> simp [h]

/-- RUN stays until it acts. -/
theorem State.ctrlWritten_run (s : State) (c : Ch) (v : W32) :
    (s.ctrlWritten c v).flag (R.CH_ENG_CTRL_RUN c) = s.flag (R.CH_ENG_CTRL_RUN c) := by
  rw [run_bit, run_bit, ctrlWritten_word]
  simp

theorem State.runStop_ch (s : State) (c : Ch) : (s.runStop c).ch c =
    { s.ch c with flight := (s.ch c).flight ++ [⟨0, s.now + 12, none⟩], stopReq := true, dueOpen := false } := by
  simp only [runStop, sendOn, modCh_ch, if_true, putFlag_ch, put_ch, putFlag_now, put_now]

theorem State.runStop_only (s : State) (c : Ch) : ChanOnly s (s.runStop c) c :=
  ⟨rfl, rfl, rfl, rfl, fun a h1 h2 _ => ((s.put (R.CH_ENG_CTRL_RUN c) 0).reg_putFlag_far (R.CH_ENG_STAT_LAT_ENGINE c) false a h2).trans
    (s.reg_put_far (R.CH_ENG_CTRL_RUN c) 0 a h1)⟩

theorem State.runStop_flag (s : State) (c : Ch) : (s.runStop c).flag (R.CH_ENG_CTRL_RUN c) = false := by
  have hfar : (R.CH_ENG_STAT_LAT_ENGINE c).addr ≠ (R.CH_ENG_CTRL_RUN c).addr := engStat_ne_engCtrl c
  have hput : (s.put (R.CH_ENG_CTRL_RUN c) 0).flag (R.CH_ENG_CTRL_RUN c) = false := by
    rw [flag, get_put_same _ _ _ (by exact (by decide : 0 + 1 ≤ 32))]
    rfl
  exact ((s.put (R.CH_ENG_CTRL_RUN c) 0).flag_putFlag_far _ _ false (.inl hfar)).trans hput

end Run

section ChRun

variable {s : State} {q : Ring} {d : Desc}

theorem State.get_lt (t : State) (f : Fld) : t.get f < 2 ^ f.w := Nat.mod_lt _ (Nat.two_pow_pos _)

theorem State.get_of_flag {t : State} {f : Fld} (hf : f.w = 1) {b : Bool} (h : t.flag f = b) : t.get f = b.toNat := by
  have hlt := t.get_lt f
  rw [hf] at hlt
  subst h
  simp only [flag]
  rcases (by omega : t.get f = 0 ∨ t.get f = 1) with h | h <;> rw [h] <;> rfl

/-- The program of a channel in the engine in control, before the event (R163 steps 3 to 5). -/
def State.programmed (s : State) (c : Ch) (e : Eng) : State :=
  let sl := (s.ch c).slot
  let s := s.modEng e fun x => { x.loadSlot sl sl.entry with running := true, prog := {} }
  let s := s.modCh c fun h =>
    { h with stopReq := false, istrm := if sl.istrm then h.istrm else [], vstrm := if sl.vstrm then h.vstrm else [] }
  let s := ((s.put (R.CH_ENG_CTRL_RUN c) 1).putFlag (R.CH_ENG_CTRL_ISTRM_EN c) sl.istrm).putFlag (R.CH_ENG_CTRL_VSTRM_EN c) sl.vstrm
  (s.putFlag (R.CH_ENG_STAT_LOADED c) true).putFlag (R.CH_ENG_STAT_LAT_ENGINE c) false

theorem State.startProgram_some (s : State) {c : Ch} {e : Eng} (h : (s.ch c).ctl = some e) : s.startProgram c =
    (s.programmed c e).raise (chCode c 0x66) 0 (BitVec.ofNat 32 (c.val + (s.ch c).slot.progId.toNat % 65536 * 65536)) := by
  unfold startProgram
  rw [h]
  rfl

theorem State.startProgram_none (s : State) {c : Ch} (h : (s.ch c).ctl = none) : s.startProgram c = s := by
  unfold startProgram
  rw [h]

theorem State.programmed_eng (s : State) (c : Ch) (e : Eng) :
    (s.programmed c e).eng[e].running = true ∧ (s.programmed c e).eng[e].pc = 4 * (s.ch c).slot.entry := by
  have h : (s.programmed c e).eng[e] = { (s.eng[e]).loadSlot (s.ch c).slot (s.ch c).slot.entry with running := true, prog := {} } :=
    upd_same ..
  rw [h]
  exact ⟨rfl, rfl⟩

theorem State.programmed_run (s : State) (c : Ch) (e : Eng) : (s.programmed c e).flag (R.CH_ENG_CTRL_RUN c) = true := by
  have hfar : (R.CH_ENG_STAT c) ≠ (R.CH_ENG_CTRL c) := engStat_ne_engCtrl c
  have hput (t : State) : (t.put (R.CH_ENG_CTRL_RUN c) 1).flag (R.CH_ENG_CTRL_RUN c) = true := by
    rw [flag, get_put_same _ _ _ (by exact (by decide : 0 + 1 ≤ 32))]
    rfl
  unfold programmed
  dsimp only
  rw [flag_putFlag_far _ _ _ _ (.inl hfar), flag_putFlag_far _ _ _ _ (.inl hfar), flag_putFlag_far, flag_putFlag_far, hput]
  · exact .inr (by exact (by decide : 0 + 1 ≤ 32 ∧ (0 + 1 ≤ 1 ∨ 1 + 1 ≤ 0)))
  · exact .inr (by exact (by decide : 0 + 1 ≤ 32 ∧ (0 + 1 ≤ 2 ∨ 2 + 1 ≤ 0)))

theorem State.programmed_loaded (s : State) (c : Ch) (e : Eng) : (s.programmed c e).flag (R.CH_ENG_STAT_LOADED c) = true := by
  unfold programmed
  dsimp only
  rw [flag_putFlag_far]
  · exact flag_putFlag_near _ _ _ ⟨by exact (by decide : 0 + 1 ≤ 32), rfl⟩
  · exact .inr (by exact (by decide : 0 + 1 ≤ 32 ∧ (0 + 1 ≤ 2 ∨ 2 + 1 ≤ 0)))

theorem State.programmed_only (s : State) (c : Ch) (e : Eng) : ChanOnly s (s.programmed c e) c := by
  refine ⟨rfl, rfl, rfl, rfl, fun a h1 h2 _ => ?_⟩
  unfold programmed
  dsimp only
  rw [reg_putFlag_far _ _ _ _ h2, reg_putFlag_far _ _ _ _ h2, reg_putFlag_far _ _ _ _ h1, reg_putFlag_far _ _ _ _ h1, reg_put_far _ _ _ _ h1]
  rfl

theorem ChanOnly.raise {t : State} {c : Ch} (h : ChanOnly s t c) (code : BitVec 16) (k : BitVec 2) (data : W32) :
    ChanOnly s (t.raise code k data) c :=
  ⟨(t.raise_hp_rings code k data).trans h.rings, (t.raise_hp_cq code k data).trans h.cq, (t.raise_arb code k data).trans h.arb,
    (t.raise_tick code k data).trans h.tick, fun a h1 h2 h3 => (t.raise_reg code k data a h3).trans (h.reg a h1 h2 h3)⟩

theorem State.startProgram_only (s : State) (c : Ch) : ChanOnly s (s.startProgram c) c := by
  cases h : (s.ch c).ctl with
  | none =>
    rw [s.startProgram_none h]
    exact .refl s c
  | some e =>
    rw [s.startProgram_some h]
    exact (s.programmed_only c e).raise _ _ _

/-- CH_RUN with RUN = 0 (Table 06.9). -/
theorem State.ctrlStop_eq (u : State) (c : Ch) (v : W32) (hm : u.mode.mode ≠ .field) (hv : v.getLsbD 0 = false)
    (hrun : u.flag (R.CH_ENG_CTRL_RUN c) = true) :
    ChanOnly u (u.engCtrlWrite c v) c ∧ (u.engCtrlWrite c v).flag (R.CH_ENG_CTRL_RUN c) = false ∧
      ((u.engCtrlWrite c v).ch c).flight = (u.ch c).flight ++ [⟨0, u.now + 12, none⟩] ∧ ((u.engCtrlWrite c v).ch c).stopReq = true := by
  have heq : u.engCtrlWrite c v = ((u.ctrlWritten c v).runStop c).levelCh c := by
    rw [u.engCtrlWrite_eq c v hm, hv, hrun]
    rfl
  obtain ⟨i, w, hch⟩ := u.ctrlWritten_ch c v
  have honly := u.ctrlWritten_only c v
  rw [heq, State.levelCh_flag, State.levelCh_ch, State.runStop_ch, State.runStop_flag]
  refine ⟨(honly.trans (State.runStop_only _ c)).trans (State.levelCh_only _ c c), rfl, ?_, rfl⟩
  rw [hch, State.now, honly.tick]
  rfl

theorem State.ownTopo_ctrlWritten (u : State) (c k : Ch) (v : W32) : (u.ctrlWritten c v).ownTopo k = u.ownTopo k := by
  rw [ownTopo, get, (u.ctrlWritten_only c v).reg, ← get, ← ownTopo]
  · simp only [R.CH_STAGE_CFG_TOPO, R.CH_STAGE_CFG, R.CH_ENG_CTRL]
    omega
  · simp only [R.CH_STAGE_CFG_TOPO, R.CH_STAGE_CFG, R.CH_ENG_STAT]
    omega
  · refine not_mem_eventRegs_of_high ?_
    simp only [R.CH_STAGE_CFG_TOPO, R.CH_STAGE_CFG]
    omega

/-- CH_RUN with RUN = 1 on a loaded channel that does not run (Table 06.9). -/
theorem State.ctrlStart_eq (u : State) (c : Ch) (v : W32) (hm : u.mode.mode ≠ .field) (hv : v.getLsbD 0 = true)
    (hrun : u.flag (R.CH_ENG_CTRL_RUN c) = false) (hload : u.flag (R.CH_ENG_STAT_LOADED c) = true) (hmem : u.isMember c = false) :
    ChanOnly u (u.engCtrlWrite c v) c ∧ (u.engCtrlWrite c v).flag (R.CH_ENG_CTRL_RUN c) = true ∧
      ∀ e, (u.ch c).ctl = some e → (u.engCtrlWrite c v).eng[e].running = true ∧ (u.engCtrlWrite c v).eng[e].pc = 4 * (u.ch c).slot.entry := by
  have honly := u.ctrlWritten_only c v
  have hload' : (u.ctrlWritten c v).flag (R.CH_ENG_STAT_LOADED c) = true := by
    rw [flag, get, u.ctrlWritten_reg c v (R.CH_ENG_STAT_LOADED c).addr (engStat_ne_engCtrl c), ← get, ← flag, hload]
  have heq : u.engCtrlWrite c v = (((u.ctrlWritten c v).put (R.CH_ENG_CTRL_RUN c) 1).startProgram c).levelCh c := by
    rw [u.engCtrlWrite_eq c v hm, hv, if_pos rfl, runStart, hload', State.isMember_congr fun k => u.ownTopo_ctrlWritten c k v, hmem,
      u.ctrlWritten_run, hrun]
    rfl
  have hput : ChanOnly u ((u.ctrlWritten c v).put (R.CH_ENG_CTRL_RUN c) 1) c :=
    honly.trans ⟨rfl, rfl, rfl, rfl, fun a h1 _ _ => (u.ctrlWritten c v).reg_put_far _ _ _ h1⟩
  obtain ⟨i, w, hch⟩ := u.ctrlWritten_ch c v
  have hch' : ((u.ctrlWritten c v).put (R.CH_ENG_CTRL_RUN c) 1).ch c = { u.ch c with istrm := i, vstrm := w } := hch
  rw [heq, State.levelCh_flag]
  refine ⟨(hput.trans (State.startProgram_only _ c)).trans (State.levelCh_only _ c c), ?_, fun e he => ?_⟩
  · cases hctl : (u.ch c).ctl with
    | none =>
      rw [State.startProgram_none _ (by rw [hch', hctl]), flag, get_put_same _ _ _ (by exact (by decide : 0 + 1 ≤ 32))]
      rfl
    | some e =>
      rw [State.startProgram_some (e := e) _ (by rw [hch', hctl]),
        State.raise_flag _ _ _ _ _ (not_mem_eventRegs_of_high (engCtrl_high c)), State.programmed_run]
  · have hprog := State.programmed_eng ((u.ctrlWritten c v).put (R.CH_ENG_CTRL_RUN c) 1) c e
    rw [hch'] at hprog
    rw [State.startProgram_some (e := e) _ (by rw [hch', he])]
    obtain ⟨en, hlev, hen⟩ := State.levelCh_eq (((u.ctrlWritten c v).put (R.CH_ENG_CTRL_RUN c) 1).programmed c e |>.raise (chCode c 0x66) 0
      (BitVec.ofNat 32 (c.val + (((u.ctrlWritten c v).put (R.CH_ENG_CTRL_RUN c) 1).ch c).slot.progId.toNat % 65536 * 65536))) c
    obtain ⟨p, hp⟩ := hen e
    rw [hlev]
    simp only
    rw [hp, State.raise_eng]
    exact hprog

end ChRun

section Manual

variable {s : State} {q : Ring} {d : Desc}

/-- MANUAL before its on-time is sent: RUN is cleared (R275). -/
def State.manualStopped (u : State) (c : Ch) : State := if u.flag (R.CH_ENG_CTRL_RUN c) then u.runStop c else u

theorem State.manualStopped_only (u : State) (c : Ch) : ChanOnly u (u.manualStopped c) c := by
  unfold manualStopped
  split
  · exact u.runStop_only c
  · exact .refl u c

theorem State.manualStopped_flag (u : State) (c : Ch) : (u.manualStopped c).flag (R.CH_ENG_CTRL_RUN c) = false := by
  unfold manualStopped
  split
  · exact u.runStop_flag c
  · rename_i h
    exact Bool.eq_false_iff.mpr h

theorem State.manualStopped_flight (u : State) (c : Ch) : ((u.manualStopped c).ch c).flight =
    (u.ch c).flight ++ (if u.flag (R.CH_ENG_CTRL_RUN c) then [⟨0, u.now + 12, none⟩] else []) := by
  unfold manualStopped
  split
  · rw [runStop_ch]
  · rw [List.append_nil]

/-- An on-time of MANUAL, held until a tick (R275). -/
def State.manualHeld (u : State) (c : Ch) (on : Int) (n : Nat) : State := u.modCh c fun h => { h with lastOn := on, manual := some ⟨n⟩ }

/-- What MANUAL leaves of its channel where no trim touches it. -/
structure ManualSent (u t : State) (c : Ch) (on : Int) (n : Nat) : Prop where
  only : ChanOnly u t c
  run : t.flag (R.CH_ENG_CTRL_RUN c) = false
  lastOn : (t.ch c).lastOn = on
  manual : (t.ch c).manual = some ⟨n⟩
  flight : (t.ch c).flight = (u.ch c).flight ++ (if u.flag (R.CH_ENG_CTRL_RUN c) then [⟨0, u.now + 12, none⟩] else []) ++
    [⟨on, u.now + 12, none⟩]

theorem State.manual_sent (u : State) (c : Ch) (prev on : Int) (n : Nat)
    (htrim : (u.reg (R.BUD_TRIM (c.val / 32))).getLsbD (c.val % 32) = false) :
    ManualSent u ((((u.manualStopped c).manualHeld c on n).guardStart c prev on).sendTrimmed c on none) c on n := by
  have honly := u.manualStopped_only c
  obtain ⟨v, hguard, g, hv⟩ := State.guardStart_eq (s := (u.manualStopped c).manualHeld c on n) (c := c) prev on
  have hreg : ∀ a, ((u.manualStopped c).manualHeld c on n).reg a = (u.manualStopped c).reg a := fun _ => rfl
  have hbud : ((u.manualStopped c).reg (R.BUD_TRIM (c.val / 32))).getLsbD (c.val % 32) = false := by
    have hlow := budTrim_low c
    have h1 := engCtrl_high c
    have h2 := engStat_high c
    rw [honly.reg _ (by omega) (by omega) (budTrim_not_event c), htrim]
  obtain ⟨t, ht⟩ : ∃ t : State, t = { (u.manualStopped c).manualHeld c on n with chan := v } := ⟨_, rfl⟩
  have hsend : t.sendTrimmed c on none = t.sendOn c on none := by
    have hbit : (t.reg (R.BUD_TRIM (c.val / 32))).getLsbD (c.val % 32) = false := by
      rw [ht]
      exact hbud
    have htrimmed : t.isTrimmed c = false := by rw [State.isTrimmed, hbit, Bool.false_and]
    rw [State.sendTrimmed, htrimmed, Bool.false_and, if_neg (by decide)]
  have htc : t.ch c = { (u.manualStopped c).ch c with lastOn := on, manual := some ⟨n⟩, guardUntil := g } := by
    rw [ht]
    refine hv.trans ?_
    rw [manualHeld, modCh_chan, upd_same]
    rfl
  have hnow : t.now = u.now := by
    rw [ht, State.now, State.now]
    exact congrArg (fun x : TickSt => x.now.toNat) honly.tick
  have hsent : (t.sendOn c on none).ch c = { t.ch c with flight := (t.ch c).flight ++ [⟨on, t.now + 12, none⟩] } := by
    rw [State.sendOn, modCh_ch, if_pos rfl]
  rw [hguard, ← ht, hsend]
  refine ⟨?_, ?_, ?_, ?_, ?_⟩
  · subst ht
    exact honly.trans ⟨rfl, rfl, rfl, rfl, fun _ _ _ _ => rfl⟩
  · subst ht
    exact u.manualStopped_flag c
  · rw [hsent, htc]
  · rw [hsent, htc]
  · rw [hsent, htc, hnow, manualStopped_flight]

theorem State.starting_eq_hp (x : InExec) {α : Sort*} (g : State → α) (hg : ∀ (t : State) (h : HostPort), g { t with hp := h } = g t) :
    g (s.starting q x) = g s := by
  obtain ⟨r, h⟩ := s.starting_hp q x
  rw [h]
  exact hg s _

theorem manual_answers (h : s.Takes q 0x23 d) (htrim : (s.reg (R.BUD_TRIM ((descChan d).val / 32))).getLsbD ((descChan d).val % 32) = false)
    (hplaus : s.implausible (descChan d) (descWord d 4) = false) :
    ∃ t, exec (.manual q d) s = .next t ∧ Answered s t q d 0 0 ∧ t.flag (R.CH_ENG_CTRL_RUN (descChan d)) = false ∧
      (t.ch (descChan d)).lastOn = ((descWord d 4).extractLsb' 0 24).toInt ∧
      (t.ch (descChan d)).manual = some ⟨s.now + descLe d 8 2 * 200000⟩ ∧
      (t.ch (descChan d)).flight = (s.ch (descChan d)).flight ++
        (if s.flag (R.CH_ENG_CTRL_RUN (descChan d)) then [⟨0, s.now + 12, none⟩] else []) ++
        [⟨((descWord d 4).extractLsb' 0 24).toInt, s.now + 12, none⟩] := by
  generalize hc : descChan d = c at htrim hplaus ⊢
  obtain ⟨u, hu⟩ : ∃ u, u = s.starting q (s.nextExec q 0x23 d) := ⟨_, rfl⟩
  have hst : Starts s u q (s.nextExec q 0x23 d) := hu ▸ Starts.refl s q _
  have hch : u.ch c = s.ch c := hu ▸ s.starting_eq_hp _ (fun t => t.ch c) fun _ _ => rfl
  have hrun : u.flag (R.CH_ENG_CTRL_RUN c) = s.flag (R.CH_ENG_CTRL_RUN c) :=
    hu ▸ s.starting_eq_hp _ (fun t => t.flag (R.CH_ENG_CTRL_RUN c)) fun _ _ => rfl
  have hsent := u.manual_sent c (u.ch c).lastOn (dutyOn (descWord d 4)) ((u.manualStopped c).now + descLe d 8 2 * ticksPerMs) (by
    rw [hu, s.starting_eq_hp _ (fun t => t.reg (R.BUD_TRIM (c.val / 32))) fun _ _ => rfl, htrim])
  have hexec : exec (.manual q d) s = .next (((((u.manualStopped c).manualHeld c (dutyOn (descWord d 4))
      ((u.manualStopped c).now + descLe d 8 2 * ticksPerMs)).guardStart c (u.ch c).lastOn (dutyOn (descWord d 4))).sendTrimmed c
      (dutyOn (descWord d 4)) none).finish q (s.nextExec q 0x23 d) 0 0) := by
    have himp : u.implausible c (descWord d 4) = false := by
      rw [hu, s.starting_eq_hp _ (fun t => t.implausible c (descWord d 4)) fun _ _ => rfl, hplaus]
    refine (s.opRow_takes q (by decide) h : exec (.manual q d) s = _).trans (congrArg Host.Outcome.next ?_)
    rw [← hu]
    have hop : u.opEffect q (s.nextExec q 0x23 d) d = u.opManual q (s.nextExec q 0x23 d) d := rfl
    rw [hop, State.opManual, hc, himp]
    rfl
  obtain ⟨honly, hfl, hon, hman, hflight⟩ := hsent
  have hnow : u.now = s.now := hst.now
  have hsnow : (u.manualStopped c).now = s.now := by
    rw [State.now, (u.manualStopped_only c).tick]
    exact hnow
  have hst' := honly.starts hst
  have hkeep (k : Ch) : ((State.finish _ q (s.nextExec q 0x23 d) 0 0).ch k) = _ :=
    congrArg (fun v : Vector Chan 256 => v[k]) (hst'.finish_keeps (status := 0) (info := 0) (b := true) h.1 unanswered_chan)
  refine ⟨_, hexec, hst'.answered h.1, ?_, ?_, ?_, ?_⟩
  · rw [State.run_bit, hst'.finish_keeps h.1 (unanswered_high (engCtrl_high c)), ← State.run_bit, hfl]
  · exact (congrArg Chan.lastOn (hkeep c)).trans hon
  · refine (congrArg Chan.manual (hkeep c)).trans (hman.trans ?_)
    rw [hsnow]
    rfl
  · refine (congrArg Chan.flight (hkeep c)).trans (hflight.trans ?_)
    rw [hrun, hch, hnow]
    rfl

end Manual

section Answers

variable {s : State} {q : Ring} {d : Desc}

theorem runWord_bit (w : W32) (n : Nat) (hn : n < 2) : ((w &&& ~~~1) ||| BitVec.ofNat 32 n).getLsbD 0 = decide (n = 1) := by
  rcases (by omega : n = 0 ∨ n = 1) with rfl | rfl <;> simp

/-- CH_RUN ends with RUN as it then stands (R275). -/
theorem opChRun_answers (h : s.Takes q 0x22 d) {u : State} (hu : u = s.starting q (s.nextExec q 0x22 d)) {v : W32} {run : Bool}
    (hv : v = (u.reg (R.CH_ENG_CTRL (descChan d)) &&& ~~~1) ||| BitVec.ofNat 32 (descLe d 3 1 % 2))
    (honly : ChanOnly u (u.engCtrlWrite (descChan d) v) (descChan d))
    (hrun : (u.engCtrlWrite (descChan d) v).flag (R.CH_ENG_CTRL_RUN (descChan d)) = run) :
    ∃ t, exec (.chRun q d) s = .next t ∧ Answered s t q d 0 (BitVec.ofNat 64 run.toNat) ∧
      t.flag (R.CH_ENG_CTRL_RUN (descChan d)) = run ∧ t.chan = (u.engCtrlWrite (descChan d) v).chan ∧
      t.eng = (u.engCtrlWrite (descChan d) v).eng := by
  have hst := honly.starts (hu ▸ Starts.refl s q (s.nextExec q 0x22 d))
  have hexec : exec (.chRun q d) s =
      .next ((u.engCtrlWrite (descChan d) v).finish q (s.nextExec q 0x22 d) 0 (BitVec.ofNat 64 run.toNat)) := by
    refine (s.opRow_takes q (by decide) h : exec (.chRun q d) s = _).trans (congrArg Host.Outcome.next ?_)
    rw [← hu, ← State.get_of_flag (f := R.CH_ENG_CTRL_RUN (descChan d)) rfl hrun, hv]
    rfl
  refine ⟨_, hexec, hst.answered h.1, ?_, hst.finish_keeps h.1 unanswered_chan, hst.finish_keeps h.1 unanswered_eng⟩
  rw [State.run_bit, hst.finish_keeps h.1 (unanswered_high (engCtrl_high (descChan d))), ← State.run_bit, hrun]

theorem chRun_stops (h : s.Takes q 0x22 d) (h0 : descLe d 3 1 = 0) (hrun : s.flag (R.CH_ENG_CTRL_RUN (descChan d)) = true)
    (hm : s.mode.mode ≠ .field) :
    ∃ t, exec (.chRun q d) s = .next t ∧ Answered s t q d 0 0 ∧ t.flag (R.CH_ENG_CTRL_RUN (descChan d)) = false ∧
      (t.ch (descChan d)).flight = (s.ch (descChan d)).flight ++ [⟨0, s.now + 12, none⟩] ∧ (t.ch (descChan d)).stopReq = true := by
  obtain ⟨u, hu⟩ : ∃ u, u = s.starting q (s.nextExec q 0x22 d) := ⟨_, rfl⟩
  have hm' : u.mode.mode ≠ .field := by rwa [hu, s.starting_eq_hp _ (fun t => t.mode) fun _ _ => rfl]
  have hrun' : u.flag (R.CH_ENG_CTRL_RUN (descChan d)) = true := by
    rwa [hu, s.starting_eq_hp _ (fun t => t.flag (R.CH_ENG_CTRL_RUN (descChan d))) fun _ _ => rfl]
  obtain ⟨honly, hfl, hflight, hstop⟩ := u.ctrlStop_eq (descChan d)
    ((u.reg (R.CH_ENG_CTRL (descChan d)) &&& ~~~1) ||| BitVec.ofNat 32 (descLe d 3 1 % 2)) hm'
    (by rw [runWord_bit _ _ (Nat.mod_lt _ (by decide)), h0]; rfl) hrun'
  obtain ⟨t, hexec, hans, hflag, hchan, -⟩ := opChRun_answers h hu rfl honly hfl
  have hch : u.ch (descChan d) = s.ch (descChan d) := hu ▸ s.starting_eq_hp _ (fun t => t.ch (descChan d)) fun _ _ => rfl
  have hnow : u.now = s.now := hu ▸ s.starting_eq_hp _ State.now fun _ _ => rfl
  refine ⟨t, hexec, hans, hflag, ?_, ?_⟩
  · rw [State.ch, hchan, ← State.ch, hflight, hch, hnow]
  · rw [State.ch, hchan, ← State.ch, hstop]

theorem chRun_runs (h : s.Takes q 0x22 d) (h1 : descLe d 3 1 = 1) (hload : s.flag (R.CH_ENG_STAT_LOADED (descChan d)) = true)
    (hrun : s.flag (R.CH_ENG_CTRL_RUN (descChan d)) = false) (hm : s.mode.mode ≠ .field) :
    ∃ t, exec (.chRun q d) s = .next t ∧ Answered s t q d 0 1 ∧ t.flag (R.CH_ENG_CTRL_RUN (descChan d)) = true ∧
      ∀ e, (s.ch (descChan d)).ctl = some e → t.eng[e].running = true ∧ t.eng[e].pc = 4 * (s.ch (descChan d)).slot.entry := by
  obtain ⟨u, hu⟩ : ∃ u, u = s.starting q (s.nextExec q 0x22 d) := ⟨_, rfl⟩
  have hm' : u.mode.mode ≠ .field := by rwa [hu, s.starting_eq_hp _ (fun t => t.mode) fun _ _ => rfl]
  have hflag (f : Fld) : u.flag f = s.flag f := hu ▸ s.starting_eq_hp _ (fun t => t.flag f) fun _ _ => rfl
  have hmem : u.isMember (descChan d) = false := by
    rw [hu, s.starting_eq_hp _ (fun t => t.isMember (descChan d)) fun _ _ => rfl]
    exact h.notMember (by decide)
  have hch : u.ch (descChan d) = s.ch (descChan d) := hu ▸ s.starting_eq_hp _ (fun t => t.ch (descChan d)) fun _ _ => rfl
  obtain ⟨honly, hfl, heng⟩ := u.ctrlStart_eq (descChan d)
    ((u.reg (R.CH_ENG_CTRL (descChan d)) &&& ~~~1) ||| BitVec.ofNat 32 (descLe d 3 1 % 2)) hm'
    (by rw [runWord_bit _ _ (Nat.mod_lt _ (by decide)), h1]; rfl) ((hflag _).trans hrun) ((hflag _).trans hload) hmem
  obtain ⟨t, hexec, hans, hflag', -, heng'⟩ := opChRun_answers h hu rfl honly hfl
  refine ⟨t, hexec, hans, hflag', fun e he => ?_⟩
  rw [heng', ← hch]
  exact heng e (hch.symm ▸ he)

/-- MANUAL with a duty word that the Weir would refuse (R150). -/
theorem manual_refused (h : s.Takes q 0x23 d) (hplaus : s.implausible (descChan d) (descWord d 4) = true) :
    ∃ t, exec (.manual q d) s = .next t ∧ Answered s t q d 0x13 0 ∧ t.chan = s.chan ∧ t.eng = s.eng := by
  have hst := Starts.refl s q (s.nextExec q 0x23 d)
  have hexec : exec (.manual q d) s = .next ((s.starting q (s.nextExec q 0x23 d)).finish q (s.nextExec q 0x23 d) 0x13 0) := by
    refine (s.opRow_takes q (by decide) h : exec (.manual q d) s = _).trans (congrArg Host.Outcome.next ?_)
    have hop (u : State) : u.opEffect q (s.nextExec q 0x23 d) d = u.opManual q (s.nextExec q 0x23 d) d := rfl
    rw [hop, State.opManual, s.starting_eq_hp _ (fun t => t.implausible (descChan d) (descWord d 4)) fun _ _ => rfl, hplaus]
    rfl
  refine ⟨_, hexec, hst.answered h.1, ?_, ?_⟩
  · exact (hst.finish_keeps h.1 unanswered_chan).trans (s.starting_eq_hp _ State.chan fun _ _ => rfl)
  · exact (hst.finish_keeps h.1 unanswered_eng).trans (s.starting_eq_hp _ State.eng fun _ _ => rfl)

end Answers

/-- Settles O27. -/
theorem channelOpcodesActOnTheirChannel : Obligations.ChannelOpcodesActOnTheirChannel := by
  intro s q d c h others seq
  have hprm (first : Nat) (ws : List W32) (b : Bool) (t : State) (ht : t.chan = (s.prmSet c first ws b).chan) :
      others t ∧ t.ch c = { h with shadow := (ws.zipIdx first).foldl (fun l p => l.set p.2 p.1) h.shadow, prmCommit := h.prmCommit || b } := by
    refine ⟨fun k hk => ?_, ?_⟩
    · rw [State.ch, ht, ← State.ch, State.prmSet, State.modCh_ch, if_neg hk]
    · rw [State.ch, ht, ← State.ch, State.prmSet, State.modCh_ch, if_pos rfl]
  refine ⟨fun ht hlen => ?_, fun ht hlen => ?_, fun ht => opCancel_accepted (by decide) ht _ rfl,
    fun ht => opCancel_accepted (by decide) ht _ rfl, fun ht => ⟨chRun_stops ht, chRun_runs ht⟩, fun ht htrim hplaus => manual_answers ht htrim hplaus,
    fun ht hplaus => manual_refused ht hplaus, fun k n hman hclk hn => ?_⟩
  · obtain ⟨t, hexec, hans, hchan⟩ := prmWrite_answers ht
    obtain ⟨hothers, hc⟩ := hprm _ _ _ t hchan
    have hbound := prmWrite_bounds ht
    refine ⟨t, hexec, hans, hothers, fun k hk => ?_, fun j hj => ?_, ?_, ?_⟩
    · rw [hc, foldl_set_getElem?, List.length_map, List.length_range, if_pos (by omega), Nat.add_sub_cancel_left, List.getElem?_map,
        List.getElem?_range hk]
      rfl
    · rw [hc, foldl_set_getElem?, List.length_map, List.length_range, if_neg (by omega)]
    · rw [hc]
    · rw [hc]
  · obtain ⟨t, hexec, hans, hchan⟩ := prmLoad_answers ht
    obtain ⟨hothers, hc⟩ := hprm _ _ _ t hchan
    refine ⟨t, hexec, hans, hothers, fun k hk => ?_, ?_⟩
    · rw [hc, foldl_set_getElem?, List.length_map, List.length_range, if_pos (by omega), Nat.sub_zero, List.getElem?_map,
        List.getElem?_range hk]
      rfl
    · rw [hc, Bool.or_true]
  · rw [exec_manualPeriodEnd, execManualPeriodEnd, hman]
    dsimp only
    rw [if_pos (by rw [hclk, decide_eq_true hn]; rfl), State.sendOn]
    refine congrArg Host.Outcome.next ?_
    simp only [State.modCh, upd_upd]

end Sys2Proof.Machine
end

section
/-! PROOFS. Images and unlock tokens: the image check engine, the load of an image and the copies into the channels (R162 to R164, R465 to
R468). -/

namespace Sys2Proof.Machine

section Complete

variable {s u : State} {q : Ring} {x : InExec} {tag : BitVec 16} {slot : Nat} {status : Byte} {info : W64} {b : Bool}

/-- What answering leaves alone stays at every completion of an admin ring. -/
theorem Unanswered.complete {α : Sort*} {g : State → α} (hg : Unanswered g q) (hq : 16 ≤ q.val) (u : State) (tag : BitVec 16)
    (slot : Nat) (status : Byte) (info : W64) (b : Bool) : g (u.complete q tag slot status info b) = g u := by
  have hone (t : State) (y : InExec) (st : Byte) (i : W64) (b : Bool) : g (t.completeOne q y st i b) = g t :=
    hg.completeOne t y st i b (t.stalledRq_high (t.rqOf_high hq))
  have hfold (l : List InExec) (t : State) : g (l.foldl (fun v y => v.completeOne q y 0 0) t) = g t := by
    induction l generalizing t with
    | nil => rfl
    | cons y l ih => exact (ih _).trans (hone t y 0 0 true)
  unfold State.complete
  split
  · rw [State.barriers]
    exact (hfold _ _).trans ((hg.modRing _ _).trans ((hg.modRing _ _).trans (hone ..)))
  · rfl

/-- A completion stores one event at most. -/
theorem State.complete_grows (hq : 16 ≤ q.val) (u : State) (tag : BitVec 16) (slot : Nat) (status : Byte) (info : W64) (b : Bool)
    (hF : (R.Q_CNT_REFUSED q).addr ≠ R.HP_EVT_CFG_F0_EN.addr) : Grows u (u.complete q tag slot status info b) 1 := by
  have htold (t : State) (y : InExec) (st : Byte) (i : W64) : Grows t (t.told q y st i) 0 := .of_same rfl rfl rfl
  have hone (t : State) (y : InExec) (st : Byte) (i : W64) (b : Bool) : Grows t (t.completeOne q y st i b) 1 := by
    rw [t.completeOne_told q y st i b (t.stalledRq_high (t.rqOf_high hq)), State.refusedBy]
    split
    · exact (htold t y st i).mono (by decide)
    · split
      · exact ((htold t y st i).count hF 1).trans (State.raiseLimited_grows ..)
      · exact ((htold t y st i).count hF 1).mono (by decide)
  have hzero (t : State) (y : InExec) : Grows t (t.completeOne q y 0 0) 0 := by
    rw [t.completeOne_told q y 0 0 true (t.stalledRq_high (t.rqOf_high hq)), State.refusedBy, if_pos (by decide)]
    exact htold t y 0 0
  have hfold (l : List InExec) (t : State) : Grows t (l.foldl (fun v y => v.completeOne q y 0 0) t) 0 := by
    induction l generalizing t with
    | nil => exact .refl t
    | cons y l ih => exact (hzero t y).trans (ih _)
  unfold State.complete
  split
  · rw [State.barriers]
    exact (((hone ..).modRing q _).modRing q _).trans (hfold _ _)
  · exact (Grows.refl u).mono (by decide)

theorem qCntRefused_ne_evtCfg (q : Ring) : (R.Q_CNT_REFUSED q).addr ≠ R.HP_EVT_CFG_F0_EN.addr := by
  revert q
  decide

/-- The part of the state that the answer of an admin ring's descriptor is made of. -/
structure KeepsRing (s u : State) (q : Ring) : Prop where
  rings : u.hp.rings = s.hp.rings
  cq : u.hp.cq = s.hp.cq
  now : u.now = s.now
  cfg : u.reg (R.Q_CFG q) = s.reg (R.Q_CFG q)

theorem KeepsRing.refl (s : State) (q : Ring) : KeepsRing s s q := ⟨rfl, rfl, rfl, rfl⟩

theorem KeepsRing.trans {t : State} (h : KeepsRing s u q) (k : KeepsRing u t q) : KeepsRing s t q :=
  ⟨k.rings.trans h.rings, k.cq.trans h.cq, k.now.trans h.now, k.cfg.trans h.cfg⟩

theorem KeepsRing.raise (h : KeepsRing s u q) (c : BitVec 16) (k : BitVec 2) (d : W32) : KeepsRing s (u.raise c k d) q :=
  ⟨(u.raise_hp_rings c k d).trans h.rings, (u.raise_hp_cq c k d).trans h.cq, (u.raise_now c k d).trans h.now,
    (u.raise_reg c k d _ (qCfg_not_event q)).trans h.cfg⟩

theorem KeepsRing.modOtp (h : KeepsRing s u q) (f : Otp → Otp) : KeepsRing s (u.modOtp f) q := ⟨h.rings, h.cq, h.now, h.cfg⟩

theorem KeepsRing.modCh (h : KeepsRing s u q) (c : Ch) (f : Chan → Chan) : KeepsRing s (u.modCh c f) q := ⟨h.rings, h.cq, h.now, h.cfg⟩

theorem KeepsRing.cqOf (h : KeepsRing s u q) : u.cqOf q = s.cqOf q := by
  exact Fin.ext (congrArg (fun w => fieldOf w (R.Q_CFG_CQ q) % 4) h.cfg)

/-- The end of the descriptor that Q16 has under way. -/
theorem KeepsRing.ends (h : KeepsRing s u 16) (hx : (s.hp.rings[(16 : Ring)]).exec = some x) (htag : x.tag = tag) (hslot : x.slot = slot)
    (hpend : (s.hp.rings[(16 : Ring)]).pend = []) :
    (u.complete 16 tag slot status info b).hp.cq[s.cqOf 16] =
      s.hp.cq[s.cqOf 16] ++ [⟨17, .cmd (shownInfo status info) tag x.sqhd status 16, s.now⟩] ∧
    ((u.complete 16 tag slot status info b).hp.rings[(16 : Ring)]).exec = none := by
  have hst := u.stalledRq_high (u.rqOf_high (q := 16) (by decide))
  have hrq : u.rqOf 16 = 17 := rfl
  rw [State.complete_exec (by rw [h.rings, hx]) htag hslot (by rw [h.rings, hpend]; simp) hst]
  refine ⟨?_, congrArg RingSt.exec (upd_same ..)⟩
  have hcq : ((u.completeOne 16 x status info b).modRing 16 fun r => { r with exec := none }).hp.cq =
      (u.told 16 x status info).hp.cq := by
    rw [u.completeOne_told 16 x status info b hst]
    exact State.refusedBy_cq _
  have htold := u.told_cq 16 x status info
  simp only [h.cqOf, hrq, h.cq, h.now, htag] at htold
  rw [hcq]
  exact htold

end Complete

section Answers

variable {s : State} {d : Desc}

/-- A request joins those of the image check engine (R465). -/
def Otp.joined (o : Otp) (wall : Nat) (r : ImgReq) : Otp :=
  { o with reqs := o.reqs ++ [r], imgFrom := if o.reqs = [] then wall else o.imgFrom }

theorem State.starting_lendOf (q : Ring) (x : InExec) (tag : W32) : (s.starting q x).lendOf tag = s.lendOf tag := by
  obtain ⟨r, h⟩ := s.starting_hp q x
  rw [h]
  rfl

/-- The state in which the header of an image is judged. -/
def State.imgRead (s : State) (op : Byte) (d : Desc) : State :=
  (s.starting 16 (s.nextExec 16 op d)).pushReads (descWord d 4) (descLe d 8 4) 64

theorem opImage_eq {op : Byte} {l : Lend} (hl : s.lendOf (descWord d 4) = some l) :
    (s.starting 16 (s.nextExec 16 op d)).opImage 16 (s.nextExec 16 op d) d =
      if !headerOk d.buf then (s.imgRead op d).finish 16 (s.nextExec 16 op d) 0x1B 0
      else if l.len - descLe d 8 4 < imageLen d.buf then (s.imgRead op d).finish 16 (s.nextExec 16 op d) 0x1C 0
      else ((s.imgRead op d).pushReads (descWord d 4) (descLe d 8 4 + 64) (imageLen d.buf - 64)).imgPush
        (.image op (slice d.buf 0 (imageLen d.buf)) (descLe d 2 1) (descLe d 3 1) d.tag (s.lastSlot 16)) := by
  rw [State.opImage, State.starting_lendOf, hl]
  rfl

theorem image_judged {op : Byte} {l : Lend} (hop : op = 0x30 ∨ op = 0x31) (h : s.Takes 16 op d)
    (hl : s.lendOf (descWord d 4) = some l) :
    (headerOk d.buf = false → ∃ t, s.opRow op 16 d = .next t ∧ Answered s t 16 d 0x1B 0 ∧ t.otp = s.otp) ∧
    (headerOk d.buf = true → l.len - descLe d 8 4 < imageLen d.buf →
      ∃ t, s.opRow op 16 d = .next t ∧ Answered s t 16 d 0x1C 0 ∧ t.otp = s.otp) ∧
    (headerOk d.buf = true → imageLen d.buf ≤ l.len - descLe d 8 4 →
      ∃ t, s.opRow op 16 d = .next t ∧ t.hp.cq = s.hp.cq ∧ t.chan = s.chan ∧
        t.otp = s.otp.joined s.tick.wall (.image op (slice d.buf 0 (imageLen d.buf)) (descLe d 2 1) (descLe d 3 1) d.tag (s.lastSlot 16))) := by
  have hst : Starts s (s.imgRead op d) 16 (s.nextExec 16 op d) := (Starts.refl s 16 _).pushReads ..
  have hexec : s.opRow op 16 d = .next ((s.starting 16 (s.nextExec 16 op d)).opImage 16 (s.nextExec 16 op d) d) := by
    refine (s.opRow_takes 16 ?_ h).trans (congrArg Host.Outcome.next ?_)
    · rcases hop with rfl | rfl <;> decide
    · rcases hop with rfl | rfl <;> rfl
  have hotp : (s.imgRead op d).otp = s.otp := by
    obtain ⟨r, hr⟩ := State.pushReads_eq (u := s.starting 16 (s.nextExec 16 op d)) (descWord d 4) (descLe d 8 4) 64
    rw [State.imgRead, hr]
    exact s.starting_eq_hp _ State.otp fun _ _ => rfl
  rw [hexec, opImage_eq hl]
  refine ⟨fun hh => ?_, fun hh hlen => ?_, fun hh hlen => ?_⟩
  · rw [hh]
    exact ⟨_, rfl, hst.answered h.1, (hst.finish_keeps h.1 unanswered_otp).trans hotp⟩
  · rw [hh, if_neg (by decide), if_pos hlen]
    exact ⟨_, rfl, hst.answered h.1, (hst.finish_keeps h.1 unanswered_otp).trans hotp⟩
  · rw [hh, if_neg (by decide), if_neg (by omega)]
    obtain ⟨r, hr⟩ := State.pushReads_eq (u := s.imgRead op d) (descWord d 4) (descLe d 8 4 + 64) (imageLen d.buf - 64)
    have hchan : (s.imgRead op d).chan = s.chan := (State.pushReads_chan ..).trans (State.starting_chan _)
    have htick : (s.imgRead op d).tick = s.tick := by
      obtain ⟨r, hr⟩ := State.pushReads_eq (u := s.starting 16 (s.nextExec 16 op d)) (descWord d 4) (descLe d 8 4) 64
      rw [State.imgRead, hr]
      exact s.starting_eq_hp _ State.tick fun _ _ => rfl
    refine ⟨_, rfl, ?_, ?_, ?_⟩
    · rw [hr]
      exact hst.cq
    · rw [hr]
      exact hchan
    · rw [hr, State.imgPush, State.modOtp_otp]
      simp only [hotp, htick]
      rfl

end Answers

section Unlock

variable {s : State} {d : Desc}

/-- A token refused: its answer and the event, before its descriptor ends (R468). -/
def State.tokenRefused (u : State) (ans : Byte) : State :=
  (u.modOtp fun o => { o with unlockAns := ans }).raise 0x0D09 0 (ans.setWidth 32)

theorem State.unlockBad_eq (u : State) (tag : BitVec 16) (slot : Nat) (ans : Byte) :
    u.unlockBad tag slot ans = (u.tokenRefused ans).complete 16 tag slot 0x1A 0 := rfl

theorem State.unlockBad_otp (u : State) (tag : BitVec 16) (slot : Nat) (ans : Byte) :
    (u.unlockBad tag slot ans).otp = { u.otp with unlockAns := ans } := by
  rw [unlockBad_eq, unanswered_otp.complete (by decide), tokenRefused, raise_otp]
  rfl

theorem State.unlockBad_mode (u : State) (tag : BitVec 16) (slot : Nat) (ans : Byte) : (u.unlockBad tag slot ans).mode = u.mode := by
  rw [unlockBad_eq, unanswered_mode.complete (by decide), tokenRefused, raise_mode _ (by decide)]
  rfl

theorem State.hopCond_service (hv : s.course.v.natAbs < 100000) (hk : s.otp.keyHashOk = true) : s.hopCond .ready .service = 0 := by
  rw [hopCond, moving, hk, decide_eq_false (by omega)]
  rfl

theorem unlock_takes (h : s.Takes 16 0x73 d) (hm : s.mode.move = none) (hv : s.course.v.natAbs < 100000) (hk : s.otp.keyHashOk = true) :
    (s.tokenOk (slice d.buf 0 128) = true →
      ∃ t, exec (.serviceUnlock 16 d) s = .next t ∧ t.hp.cq = s.hp.cq ∧ t.mode = s.mode ∧
        t.otp = { s.otp with draws := s.otp.draws + 1 }.joined s.tick.wall (.unlock (slice d.buf 0 128) d.tag (s.lastSlot 16))) ∧
    (s.tokenOk (slice d.buf 0 128) = false →
      ∃ t, exec (.serviceUnlock 16 d) s = .next t ∧ Answered s t 16 d 0x1A 0 ∧ t.otp.draws = s.otp.draws + 1 ∧ t.otp.unlockAns = 8 ∧
        t.mode = s.mode) := by
  obtain ⟨u, hu⟩ : ∃ u, u = s.starting 16 (s.nextExec 16 0x73 d) := ⟨_, rfl⟩
  have hmode : u.mode = s.mode := hu ▸ s.starting_eq_hp _ State.mode fun _ _ => rfl
  have hcond : u.hopCond .ready .service = 0 := by
    rw [hu, s.starting_eq_hp _ (fun t => t.hopCond .ready .service) fun _ _ => rfl, State.hopCond_service hv hk]
  have htok (t : List Byte) : u.tokenOk t = s.tokenOk t := hu ▸ s.starting_eq_hp _ (fun v => v.tokenOk t) fun _ _ => rfl
  have hotp : u.otp = s.otp := hu ▸ s.starting_eq_hp _ State.otp fun _ _ => rfl
  have htick : u.tick = s.tick := hu ▸ s.starting_eq_hp _ State.tick fun _ _ => rfl
  obtain ⟨r, hr⟩ := State.pushReads_eq (u := u) (descWord d 4) (descLe d 8 4) 128
  obtain ⟨w, hw⟩ : ∃ w : State, w = ({ u with arb := { u.arb with reads := r } } : State).modOtp fun o => { o with draws := o.draws + 1 } :=
    ⟨_, rfl⟩
  have hexec : exec (.serviceUnlock 16 d) s = .next (if s.tokenOk (slice d.buf 0 128) then
      w.imgPush (.unlock (slice d.buf 0 128) d.tag (s.lastSlot 16)) else w.unlockBad d.tag (s.lastSlot 16) 8) := by
    refine (s.opRow_takes 16 (by decide) h : exec (.serviceUnlock 16 d) s = _).trans (congrArg Host.Outcome.next ?_)
    rw [← hu]
    have hop : u.opEffect 16 (s.nextExec 16 0x73 d) d = u.opUnlock 16 (s.nextExec 16 0x73 d) d := rfl
    rw [hop, State.opUnlock, hmode, hm, hcond, htok, hr, hw]
    rfl
  have hst : Starts s w 16 (s.nextExec 16 0x73 d) := by
    rw [hw]
    exact (hu ▸ Starts.refl s 16 (s.nextExec 16 0x73 d)).same rfl rfl rfl rfl rfl
  have hwotp : w.otp = { s.otp with draws := s.otp.draws + 1 } := by
    rw [hw, State.modOtp_otp, hotp]
  have hwmode : w.mode = s.mode := by
    rw [hw]
    exact hmode
  have hwtick : w.tick = s.tick := by
    rw [hw]
    exact htick
  rw [hexec]
  refine ⟨fun hok => ?_, fun hbad => ?_⟩
  · rw [hok, if_pos rfl]
    refine ⟨_, rfl, hst.cq, hwmode, ?_⟩
    rw [State.imgPush, State.modOtp_otp]
    simp only [hwotp, hwtick]
    rfl
  · rw [hbad, if_neg (by decide)]
    refine ⟨_, rfl, ?_, ?_, ?_, ?_⟩
    · have hst' : Starts s (w.tokenRefused 8) 16 (s.nextExec 16 0x73 d) :=
        hst.same (congrArg Arb.relief (State.raise_arb ..)) (State.raise_hp_rings ..) (State.raise_hp_cq ..) (State.raise_tick ..)
          (State.raise_reg _ _ _ _ _ (qCfg_not_event 16))
      exact hst'.answered h.1
    · rw [State.unlockBad_otp, hwotp]
    · rw [State.unlockBad_otp]
    · rw [State.unlockBad_mode, hwmode]

end Unlock

section Check

variable {s : State}

/-- What reading a key's digest may touch (R461, R464). -/
structure Asked (s t : State) : Prop where
  ring : KeepsRing s t 16
  mode : t.mode = s.mode
  chan : t.chan = s.chan
  arb : t.arb = s.arb
  tick : t.tick = s.tick
  course : t.course = s.course
  otp : ∃ r, t.otp = { s.otp with trimRead := r }
  reg : ∀ a, 0x8000 ≤ a → t.reg a = s.reg a
  grows : Grows s t 1

theorem Asked.free (s : State) (n : Nat) : Asked s { s with free := n } :=
  ⟨⟨rfl, rfl, rfl, rfl⟩, rfl, rfl, rfl, rfl, rfl, ⟨s.otp.trimRead, rfl⟩, fun _ _ => rfl, Grows.mono (m := 0) (.of_same rfl rfl rfl) (by decide)⟩

theorem Asked.refl (s : State) : Asked s s := Asked.free s s.free

theorem trimBlock_asked (s : State) (b : Nat) : Asked s (s.trimBlock b).2 := by
  have hread (r : Option (List W32)) : Asked s (({ s with free := s.free + 1 } : State).modOtp fun o => { o with trimRead := (b, r) :: o.trimRead }) :=
    ⟨⟨rfl, rfl, rfl, rfl⟩, rfl, rfl, rfl, rfl, rfl, ⟨_, rfl⟩, fun _ _ => rfl, Grows.mono (m := 0) (.of_same rfl rfl rfl) (by decide)⟩
  unfold State.trimBlock
  split
  · exact .refl s
  · dsimp only
    split
    · exact hread _
    · obtain ⟨u, hu⟩ : ∃ u : State, u = ({ s with free := s.free + 1 } : State).modOtp fun o => { o with trimRead := (b, none) :: o.trimRead } :=
        ⟨_, rfl⟩
      have h : Asked s u := hu ▸ hread none
      have hg : Grows s u 0 := by
        rw [hu]
        exact (Grows.refl s).same rfl rfl rfl
      have hcfg : R.Q_CFG 16 ≠ R.OTP_INTEG_TRIM_FAIL.addr := by decide
      have hhigh (a : Nat) (ha : 0x8000 ≤ a) : a ≠ R.OTP_INTEG_TRIM_FAIL.addr := by
        have : R.OTP_INTEG_TRIM_FAIL.addr < 0x8000 := by decide
        omega
      have hcount : KeepsRing s (u.count R.OTP_INTEG_TRIM_FAIL) 16 :=
        ⟨h.ring.rings, h.ring.cq, h.ring.now, (u.reg_count_far _ _ _ hcfg).trans h.ring.cfg⟩
      suffices hfail : Asked s ((u.count R.OTP_INTEG_TRIM_FAIL).raise 0x0D0C 2 (BitVec.ofNat 32 b)) by
        rw [hu] at hfail
        exact hfail
      refine ⟨hcount.raise .., ?_, ?_, ?_, ?_, ?_, ?_, fun a ha => ?_, (hg.count (by decide) 1).raise ..⟩
      · exact (State.raise_mode _ (by decide) ..).trans h.mode
      · exact (State.raise_chan ..).trans h.chan
      · exact (State.raise_arb ..).trans h.arb
      · exact (State.raise_tick ..).trans h.tick
      · exact (State.raise_course ..).trans h.course
      · obtain ⟨r, hr⟩ := h.otp
        exact ⟨r, (State.raise_otp ..).trans hr⟩
      · exact (State.raise_reg _ _ _ _ _ (not_mem_eventRegs_of_high ha)).trans ((u.reg_count_far _ _ _ (hhigh a ha)).trans (h.reg a ha))

theorem keyDigest_asked (s : State) (id : Byte) (image : Bool) : Asked s (s.keyDigest id image).2 := by
  unfold State.keyDigest
  dsimp only
  split
  · split
    · exact .refl s
    · exact .free s _
  · split
    · exact trimBlock_asked s 127
    · exact .refl s

theorem imgAnswer_asked (s : State) (id : Byte) (image : Bool) (msg sig : List Byte) : Asked s (s.imgAnswer id image msg sig).2 := by
  unfold State.imgAnswer
  dsimp only
  split
  · exact keyDigest_asked s id image
  · split <;> exact keyDigest_asked s id image

theorem Asked.reqs {t : State} (h : Asked s t) : t.otp.reqs = s.otp.reqs ∧ t.otp.imgFrom = s.otp.imgFrom := by
  obtain ⟨r, hr⟩ := h.otp
  rw [hr]
  exact ⟨rfl, rfl⟩

/-- The requests that wait for the image check engine, and the time from which it serves the oldest. -/
def State.imgQueue (s : State) : List ImgReq × Nat := (s.otp.reqs, s.otp.imgFrom)

theorem unanswered_imgQueue {q : Ring} : Unanswered State.imgQueue q :=
  ⟨fun _ _ _ => rfl, fun _ => rfl, fun t c d => congrArg (fun o : Otp => (o.reqs, o.imgFrom)) (t.raise_otp c 0 d)⟩

theorem State.raise_imgQueue (t : State) (c : BitVec 16) (k : BitVec 2) (d : W32) : (t.raise c k d).imgQueue = t.imgQueue :=
  congrArg (fun o : Otp => (o.reqs, o.imgFrom)) (t.raise_otp c k d)

theorem Asked.imgQueue {t : State} (h : Asked s t) : t.imgQueue = s.imgQueue := by
  obtain ⟨r, hr⟩ := h.otp
  rw [State.imgQueue, hr]
  rfl

theorem State.hopBegin_imgQueue (t : State) : t.hopBegin.imgQueue = t.imgQueue := by
  obtain ⟨b, h⟩ := t.hopBegin_eq
  rw [h]
  rfl

/-- The move into SERVICE that a token asks for (R32, R37). -/
def serviceMove (t : List Byte) (tag : BitVec 16) : Move :=
  { hops := [.service], cause := .unlock, req := some (16, tag), len := leAt t 32 2 * 12000000000, key := byteAt t 34 }

theorem State.moveBegin_service (t : State) {m : Move} (hm : m.hops = [.service]) : ∃ b, t.moveBegin m =
    ({ t with seqr := { t.seqr with stopDone := false } } : State).modMode fun x =>
      { x with move := some m, moveFresh := true, roadLock := b } := by
  have hlast : m.hops.getLast? ≠ some .standby := by rw [hm]; decide
  unfold moveBegin
  dsimp only
  rw [if_neg hlast]
  obtain ⟨b, h⟩ := (({ t with seqr := { t.seqr with stopDone := false } } : State).modMode fun x =>
    { x with move := some m, moveFresh := true }).hopBegin_eq
  exact ⟨b, h⟩

theorem copyNext_imgQueue (t : State) (p : Spire) : (t.copyNext p).imgQueue = t.imgQueue := by
  unfold State.copyNext
  repeat' split
  all_goals rfl

/-- The end of a key's installation with its answer (R464). -/
def State.keyAnswered (u : State) (slot : Byte) (key : List Byte) (ans : Byte) : State :=
  let u := u.put R.IMG_KEY_STAT_ANSWER ans.toNat
  if ans = 0 then
    ((u.modOtp fun o => { o with keys := upd o.keys (keyIx slot) fun _ => some key }).put ⟨R.IMG_KEY_STAT, (keyIx slot).val, 1⟩ 1).raise
      0x0D05 0 (slot.setWidth 32)
  else u.raise 0x0D06 0 (BitVec.ofNat 32 (ans.toNat + slot.toNat * 256))

theorem keyInstall_answered (s : State) (slot : Byte) (key : List Byte) :
    ∃ ans, s.keyInstall slot key = (s.keyDigest slot false).2.keyAnswered slot key ans := ⟨_, rfl⟩

theorem keyInstall_imgQueue (s : State) (slot : Byte) (key : List Byte) : (s.keyInstall slot key).imgQueue = s.imgQueue := by
  obtain ⟨ans, h⟩ := keyInstall_answered s slot key
  have hput (t : State) (f : Fld) (v : Nat) : (t.put f v).imgQueue = t.imgQueue := rfl
  have hkeys (t : State) (f : Otp → Vector (Option (List Byte)) 4) : (t.modOtp fun o => { o with keys := f o }).imgQueue = t.imgQueue := rfl
  rw [h, ← (keyDigest_asked s slot false).imgQueue, State.keyAnswered]
  split
  · rw [State.raise_imgQueue, hput, hkeys, hput]
  · rw [State.raise_imgQueue, hput]

theorem loadStart_imgQueue (s : State) (sl : Slot) (first last : Nat) (tag : BitVec 16) (slot : Nat) :
    (s.loadStart sl first last tag slot).imgQueue = s.imgQueue := by
  have hbad (l : List Ch) : (forAll l (fun c t => t.raise 0x0208 0 (BitVec.ofNat 32 (c.val + 0x15 * 256))) s).imgQueue = s.imgQueue :=
    forAll_keeps State.imgQueue (fun _ _ => State.raise_imgQueue ..) l s
  unfold State.loadStart
  dsimp only
  split
  · exact (unanswered_imgQueue.complete (by decide) ..).trans (hbad _)
  · exact (forAll_keeps State.imgQueue (fun p t => copyNext_imgQueue t p) ..).trans (hbad _)

theorem unlockServe_imgQueue (s : State) (t : List Byte) (tag : BitVec 16) (slot : Nat) : (s.unlockServe t tag slot).imgQueue = s.imgQueue := by
  have h := (imgAnswer_asked s (byteAt t 34) false (slice t 0 64) (slice t 64 64)).imgQueue
  have hc (u : State) (st : Byte) (i : W64) : (u.complete 16 tag slot st i).imgQueue = u.imgQueue :=
    unanswered_imgQueue.complete (by decide) ..
  unfold State.unlockServe
  dsimp only
  split
  · exact (hc _ _ _).trans ((State.raise_imgQueue ..).trans h)
  · repeat' split
    · exact (hc _ _ _).trans h
    · exact (hc _ _ _).trans h
    · exact (hc _ _ _).trans h
    · exact (hc _ _ _).trans h
    · obtain ⟨b, hb⟩ := State.moveBegin_service ((s.imgAnswer (byteAt t 34) false (slice t 0 64) (slice t 64 64)).2.modOtp fun o =>
        { o with unlockAns := 0 }) (m := serviceMove t tag) rfl
      refine (congrArg State.imgQueue hb).trans ?_
      exact h

/-- The answer for an image, and the state that has looked for its key. -/
def State.imageAnswer (s : State) (b : List Byte) : Byte × State :=
  s.imgAnswer (byteAt b 32) true (slice b 0 (imageLen b - 64)) (slice b (imageLen b - 64) 64)

/-- The event of an image that is not valid (R466). -/
def State.imageTold (u : State) (ans op : Byte) : State :=
  if ans = 0 then u else u.raise 0x0D07 0 (BitVec.ofNat 32 (ans.toNat + op.toNat * 256))

theorem State.imgServe_image (s : State) (op : Byte) (b : List Byte) (first last : Nat) (tag : BitVec 16) (slot : Nat) :
    s.imgServe (.image op b first last tag slot) =
      if op = 0x31 then ((s.imageAnswer b).2.imageTold (s.imageAnswer b).1 op).complete 16 tag slot 0 ((s.imageAnswer b).1.setWidth 64)
      else if (s.imageAnswer b).1 = 0 then
        ((s.imageAnswer b).2.imageTold (s.imageAnswer b).1 op).loadStart (slotOfImage b) first last tag slot
      else ((s.imageAnswer b).2.imageTold (s.imageAnswer b).1 op).complete 16 tag slot 0x1A 0 := rfl

theorem State.imageTold_imgQueue (u : State) (ans op : Byte) : (u.imageTold ans op).imgQueue = u.imgQueue := by
  unfold imageTold
  split
  · rfl
  · exact State.raise_imgQueue ..

/-- Serving a request leaves the others waiting. -/
theorem imgServe_imgQueue (s : State) (r : ImgReq) : (s.imgServe r).imgQueue = s.imgQueue := by
  have hc (u : State) (tag : BitVec 16) (slot : Nat) (st : Byte) (i : W64) : (u.complete 16 tag slot st i).imgQueue = u.imgQueue :=
    unanswered_imgQueue.complete (by decide) ..
  cases r with
  | key slot key => exact keyInstall_imgQueue ..
  | unlock t tag slot => exact unlockServe_imgQueue ..
  | image op b first last tag slot =>
    have h : (s.imageAnswer b).2.imgQueue = s.imgQueue := (imgAnswer_asked ..).imgQueue
    rw [State.imgServe_image]
    split
    · rw [hc, State.imageTold_imgQueue, h]
    · split
      · rw [loadStart_imgQueue, State.imageTold_imgQueue, h]
      · rw [hc, State.imageTold_imgQueue, h]

end Check

section Copies

theorem find?_erase_of_not {α : Type} [DecidableEq α] {p : α → Bool} {c : α} (hc : p c = false) (l : List α) :
    (l.erase c).find? p = l.find? p := by
  induction l with
  | nil => rfl
  | cons a l ih =>
    by_cases ha : a = c
    · subst ha
      rw [List.erase_cons_head, List.find?_cons, hc]
    · rw [List.erase_cons_tail (by simpa using ha), List.find?_cons, List.find?_cons, ih]

/-- In an ascending list the first element with a property is the least one. -/
theorem find?_least {n : Nat} {p : Fin n → Bool} {c : Fin n} (l : List (Fin n)) (hl : l.Pairwise (· < ·)) (hc : c ∈ l) (hp : p c = true)
    (hleast : ∀ k ∈ l, p k = true → c ≤ k) : l.find? p = some c := by
  induction l with
  | nil => cases hc
  | cons a l ih =>
    rw [List.pairwise_cons] at hl
    rw [List.find?_cons]
    cases ha : p a with
    | true =>
      have hle := hleast a List.mem_cons_self ha
      rcases List.mem_cons.mp hc with rfl | hmem
      · rfl
      · exact absurd (hl.1 c hmem) (by omega)
    | false =>
      rcases List.mem_cons.mp hc with rfl | hmem
      · rw [hp] at ha
        cases ha
      · exact ih hl.2 hmem fun k hk => hleast k (List.mem_cons_of_mem _ hk)

/-- A channel whose copy begins: its stage die is held at 0 (R163). -/
def Chan.copyBegun (h : Chan) (sl : Slot) (now wall : Nat) : Chan :=
  { h with flight := h.flight ++ [⟨0, now + 12, none⟩], copying := some sl, copyFrom := wall }

/-- What the beginning of copies leaves as it is. -/
structure CopiesOnly (s t : State) : Prop where
  hp : t.hp = s.hp
  tick : t.tick = s.tick
  regs : t.regs = s.regs
  eng : t.eng = s.eng
  arb : t.arb = s.arb

theorem CopiesOnly.refl (s : State) : CopiesOnly s s := ⟨rfl, rfl, rfl, rfl, rfl⟩

theorem CopiesOnly.trans {s t u : State} (h : CopiesOnly s t) (k : CopiesOnly t u) : CopiesOnly s u :=
  ⟨k.hp.trans h.hp, k.tick.trans h.tick, k.regs.trans h.regs, k.eng.trans h.eng, k.arb.trans h.arb⟩

variable {s t : State} {l : ImgLoad} {p : Spire}

theorem State.copyNext_none (h : ∀ l, t.otp.load = some l → l.todo.find? (fun c => spireOf c = p) = none) : t.copyNext p = t := by
  unfold copyNext
  cases hl : t.otp.load with
  | none => rfl
  | some l =>
    dsimp only
    rw [h l hl]

theorem State.copyNext_some (hl : t.otp.load = some l) {c : Ch} (hc : l.todo.find? (fun c => spireOf c = p) = some c) :
    CopiesOnly t (t.copyNext p) ∧ (t.copyNext p).otp = { t.otp with load := some { l with todo := l.todo.erase c } } ∧
      (t.copyNext p).ch c = (t.ch c).copyBegun l.image t.now t.tick.wall ∧ ∀ k, k ≠ c → (t.copyNext p).ch k = t.ch k := by
  have heq : t.copyNext p = (t.modOtp fun o => { o with load := some { l with todo := l.todo.erase c } }).copyBegin c l.image := by
    unfold copyNext
    rw [hl]
    dsimp only
    rw [hc]
  rw [heq]
  refine ⟨⟨rfl, rfl, rfl, rfl, rfl⟩, rfl, ?_, fun k hk => ?_⟩
  · rw [copyBegin, modCh_ch, if_pos rfl, sendOn, modCh_ch, if_pos rfl]
    rfl
  · rw [copyBegin, modCh_ch, if_neg hk, sendOn, modCh_ch, if_neg hk]
    rfl

/-- The first copy of every spire begins. -/
theorem copies_begin (ps : List Spire) (hps : ps.Nodup) (t : State) (l : ImgLoad) (hl : t.otp.load = some l) :
    let u := forAll ps (fun p v => v.copyNext p) t
    CopiesOnly t u ∧ (∃ td, u.otp.load = some { l with todo := td }) ∧
      ∀ k, u.ch k = if spireOf k ∈ ps ∧ l.todo.find? (fun c => spireOf c = spireOf k) = some k then
        (t.ch k).copyBegun l.image t.now t.tick.wall else t.ch k := by
  induction ps generalizing t l with
  | nil => exact ⟨.refl t, ⟨l.todo, hl⟩, fun k => by rw [if_neg (by simp)]; rfl⟩
  | cons p ps ih =>
    obtain ⟨hp, hps⟩ := List.nodup_cons.mp hps
    have hstep : forAll (p :: ps) (fun p v => v.copyNext p) t = forAll ps (fun p v => v.copyNext p) (t.copyNext p) := rfl
    rw [hstep]
    cases hf : l.todo.find? (fun c => spireOf c = p) with
    | none =>
      have hsame : t.copyNext p = t := State.copyNext_none fun l' hl' => by
        obtain rfl : l' = l := by rw [hl] at hl'; exact (Option.some.inj hl').symm
        exact hf
      rw [hsame]
      obtain ⟨honly, hload, hch⟩ := ih hps t l hl
      refine ⟨honly, hload, fun k => (hch k).trans (if_congr ⟨fun h => ⟨List.mem_cons_of_mem _ h.1, h.2⟩, fun h => ⟨?_, h.2⟩⟩ rfl rfl)⟩
      rcases List.mem_cons.mp h.1 with hk | hk
      · have := h.2
        rw [hk, hf] at this
        cases this
      · exact hk
    | some c =>
      obtain ⟨honly, hotp, hc, hother⟩ := State.copyNext_some hl hf
      have hcp : spireOf c = p := by simpa using List.find?_some hf
      obtain ⟨honly', ⟨td, htd⟩, hch⟩ := ih hps (t.copyNext p) { l with todo := l.todo.erase c } (by rw [hotp])
      refine ⟨honly.trans honly', ⟨td, htd⟩, fun k => ?_⟩
      have hnow : (t.copyNext p).now = t.now := by rw [State.now, honly.tick, ← State.now]
      rw [hch k, hnow, honly.tick]
      by_cases hk : spireOf k ∈ ps
      · have hkp : spireOf k ≠ p := fun e => hp (e ▸ hk)
        have hkc : k ≠ c := fun e => hkp (e ▸ hcp)
        have hfind : (l.todo.erase c).find? (fun c => decide (spireOf c = spireOf k)) = l.todo.find? fun c => decide (spireOf c = spireOf k) :=
          find?_erase_of_not (p := fun c => decide (spireOf c = spireOf k)) (decide_eq_false fun e : spireOf c = spireOf k => hkp (e.symm.trans hcp)) _
        rw [hother k hkc]
        simp only [hfind, hk, List.mem_cons_of_mem _ hk, true_and]
      · rw [if_neg fun h => hk h.1]
        by_cases hkc : k = c
        · subst hkc
          rw [hc, if_pos ⟨hcp ▸ List.mem_cons_self, hcp ▸ hf⟩]
        · rw [hother k hkc, if_neg]
          rintro ⟨hmem, hfind⟩
          rcases List.mem_cons.mp hmem with hkp | hkp
          · rw [hkp, hf] at hfind
            exact hkc (Option.some.inj hfind).symm
          · exact hk hkp

end Copies

section Image

variable {s v : State} {op : Byte} {b : List Byte} {first last : Nat} {tag : BitVec 16} {slot : Nat} {x : InExec}

/-- A channel that takes an image (R162). -/
def State.imageTakes (s : State) (first last : Nat) (c : Ch) : Prop :=
  first ≤ c.val ∧ c.val ≤ last ∧ s.isMember c = false ∧ (s.ch c).ctl = some (homeOf c)

theorem Asked.isMember (h : Asked s v) (c : Ch) : v.isMember c = s.isMember c := by
  refine State.isMember_congr fun k => ?_
  rw [State.ownTopo, State.get, h.reg, ← State.get, ← State.ownTopo]
  simp only [R.CH_STAGE_CFG_TOPO, R.CH_STAGE_CFG]
  omega

/-- The channels of a load that take its image. -/
def State.takers (u : State) (first last : Nat) : List Ch :=
  (allCh.filter fun c => first ≤ c.val && c.val ≤ last).filter fun c => !u.isMember c && (u.ch c).ctl = some (homeOf c)

theorem Asked.mem_takers (h : Asked s v) (c : Ch) : c ∈ v.takers first last ↔ s.imageTakes first last c := by
  simp only [State.takers, State.imageTakes, List.mem_filter, mem_allCh, h.isMember c, State.ch, h.chan, Bool.and_eq_true, Bool.not_eq_true',
    decide_eq_true_eq, true_and]
  exact ⟨fun ⟨⟨h1, h2⟩, h3, h4⟩ => ⟨h1, h2, h3, h4⟩, fun ⟨h1, h2, h3, h4⟩ => ⟨⟨h1, h2⟩, h3, h4⟩⟩

theorem takers_pairwise (u : State) (first last : Nat) : (u.takers first last).Pairwise (· < ·) :=
  ((List.pairwise_lt_finRange 256).filter _).filter _

/-- The channels refused, told one by one (R162). -/
def State.loadRefused (u : State) (first last : Nat) : State :=
  forAll ((allCh.filter fun c => first ≤ c.val && c.val ≤ last).filter fun c => !(!u.isMember c && (u.ch c).ctl = some (homeOf c)))
    (fun c t => t.raise 0x0208 0 (BitVec.ofNat 32 (c.val + 0x15 * 256))) u

/-- The load of an image as it begins. -/
def State.newLoad (u : State) (sl : Slot) (first last : Nat) (tag : BitVec 16) (slot : Nat) : ImgLoad :=
  { image := sl, todo := u.takers first last, loaded := (u.takers first last).length,
    refused := ((allCh.filter fun c => first ≤ c.val && c.val ≤ last).filter fun c =>
      !(!u.isMember c && (u.ch c).ctl = some (homeOf c))).length,
    req := some (tag, slot) }

theorem State.loadStart_eq (u : State) (sl : Slot) : u.loadStart sl first last tag slot =
    if u.takers first last = [] then (u.loadRefused first last).complete 16 tag slot 0x15 0
    else forAll allSpires (fun p t => t.copyNext p) ((u.loadRefused first last).modOtp fun o =>
      { o with load := some (u.newLoad sl first last tag slot) }) := rfl

theorem State.loadRefused_chan (u : State) : (u.loadRefused first last).chan = u.chan :=
  forAll_keeps State.chan (fun _ _ => State.raise_chan ..) _ u

theorem State.loadRefused_tick (u : State) : (u.loadRefused first last).tick = u.tick :=
  forAll_keeps State.tick (fun _ _ => State.raise_tick ..) _ u

theorem State.loadRefused_ring (u : State) : KeepsRing u (u.loadRefused first last) 16 :=
  ⟨forAll_keeps (fun t : State => t.hp.rings) (fun _ _ => State.raise_hp_rings ..) _ u,
    forAll_keeps (fun t : State => t.hp.cq) (fun _ _ => State.raise_hp_cq ..) _ u,
    congrArg (fun t : TickSt => t.now.toNat) u.loadRefused_tick,
    forAll_keeps (fun t : State => t.reg (R.Q_CFG 16)) (fun _ _ => State.raise_reg _ _ _ _ _ (qCfg_not_event 16)) _ u⟩

/-- A verified image is loaded by the channels that take it (R162, R164). -/
theorem loadStart_begins (h : Asked s v) (sl : Slot) (c₀ : Ch) (h₀ : s.imageTakes first last c₀) :
    let t := v.loadStart sl first last tag slot
    (∃ l, t.otp.load = some l ∧ l.image = sl ∧ l.req = some (tag, slot)) ∧ t.hp.cq = s.hp.cq ∧
      (∀ c, s.imageTakes first last c → (∀ k, s.imageTakes first last k → spireOf k = spireOf c → c.val ≤ k.val) →
        t.ch c = (s.ch c).copyBegun sl s.now s.tick.wall) ∧
      (∀ c, ¬s.imageTakes first last c → t.ch c = s.ch c) := by
  have hne : v.takers first last ≠ [] := List.ne_nil_of_mem ((h.mem_takers c₀).mpr h₀)
  intro t
  have ht : t = _ := (v.loadStart_eq sl).trans (if_neg hne)
  obtain ⟨honly, ⟨td, hload⟩, hch⟩ := copies_begin allSpires (List.nodup_finRange 16) ((v.loadRefused first last).modOtp
    fun o => { o with load := some (v.newLoad sl first last tag slot) }) _ rfl
  rw [← ht] at honly hload hch
  have hchan (k : Ch) : (v.loadRefused first last).ch k = s.ch k := by
    rw [State.ch, State.loadRefused_chan, h.chan, ← State.ch]
  have htick : (v.loadRefused first last).tick = s.tick := v.loadRefused_tick.trans h.tick
  refine ⟨⟨_, hload, rfl, rfl⟩, ?_, fun c hc hmin => ?_, fun c hc => ?_⟩
  · rw [honly.hp]
    exact v.loadRefused_ring.cq.trans h.ring.cq
  · rw [hch c, if_pos]
    · have hbase := hchan c
      simp only [State.modOtp_ch, State.modOtp_tick, hbase, State.now, htick]
      rfl
    · refine ⟨List.mem_finRange _, find?_least _ (takers_pairwise ..) ((h.mem_takers c).mpr hc) (by simp) fun k hk hsp => ?_⟩
      exact hmin k ((h.mem_takers k).mp hk) (by simpa using hsp)
  · rw [hch c, if_neg]
    · exact hchan c
    · exact fun hf => hc ((h.mem_takers c).mp (List.mem_of_find?_eq_some hf.2))

end Image

section Served

variable {s v : State} {rest : List ImgReq}

/-- The state in which the image check engine has taken its oldest request. -/
def State.served (s : State) (rest : List ImgReq) : State := s.modOtp fun o => { o with reqs := rest, imgFrom := s.tick.wall }

theorem imageCheckAnswer_exec {r : ImgReq} (hclk : s.clockOn = true) (hload : s.otp.load = none) (hreqs : s.otp.reqs = r :: rest)
    (ht : s.otp.imgFrom + 360000 ≤ s.tick.wall) : exec .imageCheckAnswer s = .next ((s.served rest).imgServe r) := by
  have hle : s.imgTicks r ≤ verifyTicks := by
    cases r <;> unfold State.imgTicks <;> dsimp only
    · split <;> simp
    · split <;> simp
    · exact Nat.zero_le _
  have hw : s.otp.imgFrom + s.imgTicks r ≤ s.tick.wall := Nat.le_trans (Nat.add_le_add_left hle _) ht
  rw [exec_imageCheckAnswer, execImageCheckAnswer, hreqs]
  dsimp only
  rw [hclk, hload, decide_eq_true hw]
  rfl

theorem served_queue (r : ImgReq) : ((s.served rest).imgServe r).otp.reqs = rest ∧ ((s.served rest).imgServe r).otp.imgFrom = s.tick.wall := by
  have h := imgServe_imgQueue (s.served rest) r
  exact ⟨congrArg Prod.fst h, congrArg Prod.snd h⟩

theorem Asked.imageTold (h : Asked s v) (ans op : Byte) :
    KeepsRing s (v.imageTold ans op) 16 ∧ (v.imageTold ans op).chan = s.chan := by
  unfold State.imageTold
  split
  · exact ⟨h.ring, h.chan⟩
  · exact ⟨h.ring.raise .., (State.raise_chan ..).trans h.chan⟩

theorem served_ring : KeepsRing s (s.served rest) 16 := (KeepsRing.refl s 16).modOtp _

/-- What serving an image does, where its descriptor is under way (R162, R466). -/
theorem image_served {op : Byte} {b : List Byte} {first last : Nat} {tag : BitVec 16} {slot : Nat} {x : InExec}
    (hx : (s.hp.rings[(16 : Ring)]).exec = some x) (htag : x.tag = tag) (hslot : x.slot = slot)
    (hpend : (s.hp.rings[(16 : Ring)]).pend = []) :
    let t := (s.served rest).imgServe (.image op b first last tag slot)
    let ans := ((s.served rest).imageAnswer b).1
    let ends (status : Byte) (info : W64) : Prop :=
      t.hp.cq[s.cqOf 16] = s.hp.cq[s.cqOf 16] ++ [⟨17, .cmd info tag x.sqhd status 16, s.now⟩] ∧ (t.hp.rings[(16 : Ring)]).exec = none
    (op = 0x31 → ends 0 (ans.setWidth 64) ∧ t.chan = s.chan) ∧
    (op = 0x30 → ans ≠ 0 → ends 0x1A 0 ∧ t.chan = s.chan) ∧
    (op = 0x30 → ans = 0 → (∀ c, ¬s.imageTakes first last c) → ends 0x15 0 ∧ t.chan = s.chan) ∧
    (op = 0x30 → ans = 0 → (∃ c, s.imageTakes first last c) →
      (∃ l, t.otp.load = some l ∧ l.image = slotOfImage b ∧ l.req = some (tag, slot)) ∧ t.hp.cq = s.hp.cq ∧
      (∀ c, s.imageTakes first last c → (∀ k, s.imageTakes first last k → spireOf k = spireOf c → c.val ≤ k.val) →
        t.ch c = (s.ch c).copyBegun (slotOfImage b) s.now s.tick.wall) ∧
      (∀ c, ¬s.imageTakes first last c → t.ch c = s.ch c)) := by
  have hask : Asked (s.served rest) ((s.served rest).imageAnswer b).2 := imgAnswer_asked ..
  obtain ⟨hring, hchan⟩ := hask.imageTold ((s.served rest).imageAnswer b).1 op
  have hends (u : State) (hu : KeepsRing s u 16) (status : Byte) (info : W64) :=
    hu.ends (status := status) (info := info) (b := true) hx htag hslot hpend
  have hkeep (u : State) (hu : u.chan = s.chan) (status : Byte) (info : W64) : (u.complete 16 tag slot status info).chan = s.chan :=
    (unanswered_chan.complete (by decide) ..).trans hu
  intro t ans ends
  have ht : t = _ := (s.served rest).imgServe_image op b first last tag slot
  have hwring : KeepsRing s (((s.served rest).imageAnswer b).2.imageTold ans op) 16 := served_ring.trans hring
  refine ⟨fun hop => ?_, fun hop hans => ?_, fun hop hans hnone => ?_, fun hop hans hsome => ?_⟩
  · rw [if_pos hop] at ht
    simp only [ends, ht]
    exact ⟨hends _ hwring 0 _, hkeep _ hchan 0 _⟩
  · rw [if_neg (by rw [hop]; decide), if_neg hans] at ht
    simp only [ends, ht]
    exact ⟨hends _ hwring 0x1A 0, hkeep _ hchan 0x1A 0⟩
  · have htold : ((s.served rest).imageAnswer b).2.imageTold ans op = ((s.served rest).imageAnswer b).2 := if_pos hans
    have hnil : ((s.served rest).imageAnswer b).2.takers first last = [] :=
      List.eq_nil_iff_forall_not_mem.mpr fun c hc => hnone c ((hask.mem_takers c).mp hc)
    rw [if_neg (by rw [hop]; decide), if_pos hans, htold, State.loadStart_eq, if_pos hnil] at ht
    simp only [ends, ht]
    exact ⟨hends _ ((served_ring.trans hask.ring).trans (State.loadRefused_ring _)) 0x15 0,
      hkeep _ ((State.loadRefused_chan _).trans hask.chan) 0x15 0⟩
  · have htold : ((s.served rest).imageAnswer b).2.imageTold ans op = ((s.served rest).imageAnswer b).2 := if_pos hans
    obtain ⟨c₀, h₀⟩ := hsome
    rw [if_neg (by rw [hop]; decide), if_pos hans, htold] at ht
    rw [ht]
    exact loadStart_begins hask (slotOfImage b) c₀ h₀

/-- What serving a token does (R467, R468). -/
theorem unlock_served (k : List Byte) (tag : BitVec 16) (slot : Nat) :
    let t := (s.served rest).imgServe (.unlock k tag slot)
    let ans := ((s.served rest).imgAnswer (byteAt k 34) false (slice k 0 64) (slice k 64 64)).1
    t.otp.unlockAns = ans ∧
    (ans ≠ 0 → t.mode = s.mode ∧ (s.Room → Stored s t 0x0D09 0 (ans.setWidth 32))) ∧
    (ans = 0 → s.mode.mode = .ready → s.mode.fault = false → s.mode.move = none → s.course.v.natAbs < 100000 →
      s.otp.keyHashOk = true → t.mode.move = some (serviceMove k tag)) := by
  have hask := imgAnswer_asked (s.served rest) (byteAt k 34) false (slice k 0 64) (slice k 64 64)
  obtain ⟨⟨ans, u⟩, hu⟩ : ∃ a, a = (s.served rest).imgAnswer (byteAt k 34) false (slice k 0 64) (slice k 64 64) := ⟨_, rfl⟩
  have hserve : (s.served rest).imgServe (.unlock k tag slot) =
      if ans ≠ 0 then u.unlockBad tag slot ans
      else
        let w := u.modOtp fun o => { o with unlockAns := 0 }
        if w.mode.fault then w.complete 16 tag slot 0x24 0
        else if w.mode.move.isSome then w.complete 16 tag slot 0x11 0
        else if w.mode.mode ≠ .ready then w.complete 16 tag slot 0x10 0
        else if w.hopCond .ready .service ≠ 0 then w.complete 16 tag slot 0x22 (BitVec.ofNat 64 (w.hopCond .ready .service))
        else w.moveBegin (serviceMove k tag) := by
    have h : (s.served rest).imgServe (.unlock k tag slot) = (s.served rest).unlockServe k tag slot := rfl
    rw [h, State.unlockServe, ← hu]
    rfl
  rw [← hu] at hask ⊢
  dsimp only at hask ⊢
  rw [hserve]
  by_cases hans : ans = 0
  · subst hans
    rw [if_neg (by decide)]
    dsimp only
    have hotp (t : State) (st : Byte) (i : W64) : (t.complete 16 tag slot st i).otp = t.otp := unanswered_otp.complete (by decide) ..
    obtain ⟨w, hw⟩ : ∃ w : State, w = u.modOtp fun o => { o with unlockAns := 0 } := ⟨_, rfl⟩
    have hwans : w.otp.unlockAns = 0 := by rw [hw]; rfl
    rw [← hw]
    refine ⟨?_, fun h => absurd rfl h, fun _ hm hf hmove hv hk => ?_⟩
    · repeat' split
      · rw [hotp, hwans]
      · rw [hotp, hwans]
      · rw [hotp, hwans]
      · rw [hotp, hwans]
      · obtain ⟨b, hb⟩ := w.moveBegin_service (m := serviceMove k tag) rfl
        rw [hb]
        exact hwans
    · have hmode : w.mode = s.mode := by rw [hw]; exact hask.mode
      have hkey : w.otp.keyHashOk = true := by
        obtain ⟨r, hr⟩ := hask.otp
        rw [hw, State.modOtp_otp, hr]
        exact hk
      have hcond : w.hopCond .ready .service = 0 := State.hopCond_service (by rw [hw]; exact hask.course ▸ hv) hkey
      rw [hcond, hmode, hf, hmove, hm]
      obtain ⟨b, hb⟩ := w.moveBegin_service (m := serviceMove k tag) rfl
      rw [if_neg (by decide), if_neg (by decide), if_neg (by decide), if_neg (by decide), hb]
      rfl
  · rw [if_pos hans, State.unlockBad_otp, State.unlockBad_mode]
    refine ⟨rfl, fun _ => ⟨hask.mode, fun hr => ?_⟩, fun h => absurd h hans⟩
    have hserved : Grows s (s.served rest) 0 := .of_same rfl rfl rfl
    have hg : Grows s u 1 := hserved.trans hask.grows
    exact (hg.modOtp fun o => { o with unlockAns := ans }).stored_then hr 0x0D09 0 (ans.setWidth 32) {}
      (State.complete_grows (by decide) _ tag slot 0x1A 0 true (qCntRefused_ne_evtCfg 16)) (by decide)

end Served

section CopyDone

variable {s : State} {c : Ch} {sl : Slot} {e : Eng}

/-- The channel with its copy done, before its program starts (R163). -/
def State.copied (s : State) (c : Ch) (sl : Slot) : State :=
  s.modCh c fun h => { h with copying := none, slot := sl, mirror := {}, lastOn := 0 }

/-- The end of a copy: the program started and the next copy of the spire begun. -/
def State.copyEnded (s : State) (c : Ch) (sl : Slot) : State := ((s.copied c sl).startProgram c).copyNext (spireOf c)

/-- The end of the load after its last copy (R164). -/
def State.loadEnds (u : State) : State :=
  if allCh.any (fun k => (u.ch k).copying.isSome) then u
  else match u.otp.load with
    | some l =>
      match l.req with
      | some (tag, slot) => (u.modOtp fun o => { o with load := none }).complete 16 tag slot 0
          (BitVec.ofNat 64 (l.loaded + l.refused * 65536 + l.image.progId.toNat % 65536 * 4294967296))
      | none => u.modOtp fun o => { o with load := none }
    | none => u

theorem imageCopyDone_exec (hcop : (s.ch c).copying = some sl) (hclk : s.clockOn = true)
    (ht : (s.ch c).copyFrom + (sl.code.length + sl.data.length + 1) / 2 ≤ s.tick.wall) :
    exec (.imageCopyDone c) s = .next (s.copyEnded c sl).loadEnds := by
  have ht' : (s.ch c).copyFrom + sl.copyTicks ≤ s.tick.wall := ht
  rw [exec_imageCopyDone, execImageCopyDone, hcop]
  dsimp only
  rw [hclk, decide_eq_true ht', if_pos (by decide)]
  rfl

theorem State.loadEnds_cases (u : State) : u.loadEnds = u ∨ u.loadEnds = u.modOtp (fun o => { o with load := none }) ∨
    ∃ tag slot i, u.loadEnds = (u.modOtp fun o => { o with load := none }).complete 16 tag slot 0 i := by
  unfold loadEnds
  split
  · exact .inl rfl
  · split
    · split
      · exact .inr (.inr ⟨_, _, _, rfl⟩)
      · exact .inr (.inl rfl)
    · exact .inl rfl

/-- What the end of a load leaves alone. -/
theorem State.loadEnds_keeps {α : Sort*} {g : State → α} (hg : Unanswered g 16) (hotp : ∀ (t : State) (f : Otp → Otp), g (t.modOtp f) = g t)
    (u : State) : g u.loadEnds = g u := by
  rcases u.loadEnds_cases with h | h | ⟨tag, slot, i, h⟩ <;> rw [h]
  · exact hotp u _
  · exact (hg.complete (by decide) ..).trans (hotp u _)

theorem State.loadEnds_grows (u : State) : Grows u u.loadEnds 1 := by
  rcases u.loadEnds_cases with h | h | ⟨tag, slot, i, h⟩ <;> rw [h]
  · exact (Grows.refl u).mono (by decide)
  · exact ((Grows.refl u).modOtp _).mono (by decide)
  · exact ((Grows.refl u).modOtp _).trans (State.complete_grows (by decide) _ tag slot 0 i true (qCntRefused_ne_evtCfg 16))

theorem State.copyNext_only (u : State) (p : Spire) : CopiesOnly u (u.copyNext p) := by
  cases hl : u.otp.load with
  | none =>
    rw [State.copyNext_none fun l h => by rw [hl] at h; cases h]
    exact .refl u
  | some l =>
    cases hf : l.todo.find? (fun c => spireOf c = p) with
    | none =>
      rw [State.copyNext_none fun l' h => by rw [hl] at h; cases h; exact hf]
      exact .refl u
    | some k => exact (State.copyNext_some hl hf).1

theorem State.copyNext_ch_other (u : State) (p : Spire) (h : ∀ l, u.otp.load = some l → c ∉ l.todo) : (u.copyNext p).ch c = u.ch c := by
  cases hl : u.otp.load with
  | none => rw [State.copyNext_none fun l h => by rw [hl] at h; cases h]
  | some l =>
    cases hf : l.todo.find? (fun c => spireOf c = p) with
    | none => rw [State.copyNext_none fun l' h => by rw [hl] at h; cases h; exact hf]
    | some k =>
      refine (State.copyNext_some hl hf).2.2.2 c fun e => h l hl ?_
      exact e ▸ List.mem_of_find?_eq_some hf

theorem unanswered_ch (k : Ch) {q : Ring} : Unanswered (fun t : State => t.ch k) q :=
  ⟨fun _ _ _ => rfl, fun _ => rfl, fun t c d => congrArg (fun v : Vector Chan 256 => v[k]) (t.raise_chan c 0 d)⟩

/-- The program of a copied channel, started in the engine in control. -/
def State.copyRuns (s : State) (c : Ch) (sl : Slot) (e : Eng) : State :=
  ((s.copied c sl).programmed c e).raise (chCode c 0x66) 0 (BitVec.ofNat 32 (c.val + sl.progId.toNat % 65536 * 65536))

theorem State.copied_ch : (s.copied c sl).ch c = { s.ch c with copying := none, slot := sl, mirror := {}, lastOn := 0 } := by
  rw [copied, modCh_ch, if_pos rfl]

theorem State.copyEnded_eq (hctl : (s.ch c).ctl = some e) : s.copyEnded c sl = (s.copyRuns c sl e).copyNext (spireOf c) := by
  have hch := s.copied_ch (c := c) (sl := sl)
  rw [copyEnded, State.startProgram_some (e := e) _ (by rw [hch]; exact hctl), hch]
  rfl

theorem State.copyRuns_ch (k : Ch) : ∃ i w, (s.copyRuns c sl e).ch k = if k = c then
    { s.ch c with copying := none, slot := sl, mirror := {}, lastOn := 0, stopReq := false, istrm := i, vstrm := w } else s.ch k := by
  have hprog : ((s.copied c sl).programmed c e).ch k = if k = c then { (s.copied c sl).ch k with
      stopReq := false, istrm := if ((s.copied c sl).ch c).slot.istrm then ((s.copied c sl).ch k).istrm else [],
      vstrm := if ((s.copied c sl).ch c).slot.vstrm then ((s.copied c sl).ch k).vstrm else [] } else (s.copied c sl).ch k := by
    exact modCh_ch ((s.copied c sl).modEng e _) c k _
  rw [copyRuns, raise_ch, hprog]
  by_cases hk : k = c
  · subst hk
    simp only [if_pos, s.copied_ch]
    exact ⟨_, _, rfl⟩
  · simp only [if_neg hk]
    refine ⟨[], [], ?_⟩
    rw [copied, modCh_ch, if_neg hk]

theorem State.copyRuns_only : ChanOnly s (s.copyRuns c sl e) c := by
  have hcopied : ChanOnly s (s.copied c sl) c := ⟨rfl, rfl, rfl, rfl, fun _ _ _ _ => rfl⟩
  exact (hcopied.trans (State.programmed_only _ c e)).raise ..

theorem State.copyRuns_otp : (s.copyRuns c sl e).otp = s.otp := State.raise_otp ..

theorem State.copyRuns_words : (s.copyRuns c sl e).flag (R.CH_ENG_CTRL_RUN c) = true ∧ (s.copyRuns c sl e).flag (R.CH_ENG_STAT_LOADED c) = true := by
  rw [copyRuns, raise_flag _ _ _ _ _ (not_mem_eventRegs_of_high (engCtrl_high c)),
    raise_flag _ _ _ _ _ (not_mem_eventRegs_of_high (engStat_high c))]
  exact ⟨State.programmed_run .., State.programmed_loaded ..⟩

theorem State.copyRuns_eng : (s.copyRuns c sl e).eng[e].running = true ∧ (s.copyRuns c sl e).eng[e].pc = 4 * sl.entry := by
  have h := State.programmed_eng (s.copied c sl) c e
  rw [s.copied_ch] at h
  rw [copyRuns, raise_eng]
  exact h

theorem State.programmed_grows (u : State) : Grows u (u.programmed c e) 0 := by
  refine .of_same rfl ?_ rfl
  have hne : R.HP_EVT_CFG_F0_EN.addr ≠ R.CH_ENG_CTRL c ∧ R.HP_EVT_CFG_F0_EN.addr ≠ R.CH_ENG_STAT c := by
    have h1 := engCtrl_high c
    have h2 := engStat_high c
    have h3 : R.HP_EVT_CFG_F0_EN.addr < 0x8000 := by decide
    omega
  have hreg : (u.programmed c e).reg R.HP_EVT_CFG_F0_EN.addr = u.reg R.HP_EVT_CFG_F0_EN.addr :=
    (State.programmed_only u c e).reg _ hne.1 hne.2 (by decide)
  rw [flag, get, hreg, ← get, ← flag]

theorem State.copyRuns_stored {u : State} (hr : s.Room) (h : Grows (s.copyRuns c sl e) u 1) :
    Stored s u (chCode c 0x66) 0 (BitVec.ofNat 32 (c.val + sl.progId.toNat % 65536 * 65536)) := by
  have hcopied : Grows s (s.copied c sl) 0 := .of_same rfl rfl rfl
  have hg : Grows s ((s.copied c sl).programmed c e) 0 := hcopied.trans (State.programmed_grows _)
  exact hg.stored_then hr _ 0 _ {} h (by decide)

/-- The last copy completes the load (R164). -/
theorem copyRuns_ends {l : ImgLoad} {tag : BitVec 16} {slot : Nat} {x : InExec} (hl : s.otp.load = some l) (htodo : l.todo = [])
    (hothers : ∀ k, k ≠ c → (s.ch k).copying = none) (hreq : l.req = some (tag, slot)) (hx : (s.hp.rings[(16 : Ring)]).exec = some x)
    (htag : x.tag = tag) (hslot : x.slot = slot) (hpend : (s.hp.rings[(16 : Ring)]).pend = []) :
    let t := ((s.copyRuns c sl e).copyNext (spireOf c)).loadEnds
    t.otp.load = none ∧ (t.hp.rings[(16 : Ring)]).exec = none ∧
      t.hp.cq[s.cqOf 16] = s.hp.cq[s.cqOf 16] ++ [⟨17, .cmd (BitVec.ofNat 64
        (l.loaded + l.refused * 65536 + l.image.progId.toNat % 65536 * 4294967296)) tag x.sqhd 0 16, s.now⟩] := by
  have hload : (s.copyRuns c sl e).otp.load = some l := by rw [State.copyRuns_otp, hl]
  have hnext : (s.copyRuns c sl e).copyNext (spireOf c) = s.copyRuns c sl e := State.copyNext_none fun l' h => by
    rw [hload] at h
    cases h
    rw [htodo]
    rfl
  have hcop (k : Ch) : ((s.copyRuns c sl e).ch k).copying = none := by
    obtain ⟨i, w, h⟩ := s.copyRuns_ch (c := c) (sl := sl) (e := e) k
    rw [h]
    split
    · rfl
    · exact hothers k ‹_›
  have hany : (allCh.any fun k => ((s.copyRuns c sl e).ch k).copying.isSome) = false := by
    rw [List.any_eq_false]
    exact fun k _ => by rw [hcop k]; decide
  have hends : (s.copyRuns c sl e).loadEnds = ((s.copyRuns c sl e).modOtp fun o => { o with load := none }).complete 16 tag slot 0
      (BitVec.ofNat 64 (l.loaded + l.refused * 65536 + l.image.progId.toNat % 65536 * 4294967296)) := by
    rw [State.loadEnds, hany, if_neg (by decide), hload]
    dsimp only
    rw [hreq]
  have honly := s.copyRuns_only (c := c) (sl := sl) (e := e)
  have hring : KeepsRing s (s.copyRuns c sl e) 16 :=
    ⟨honly.rings, honly.cq, congrArg (fun t : TickSt => t.now.toNat) honly.tick,
      honly.reg _ (by have := engCtrl_high c; have : R.Q_CFG 16 < 0x8000 := qCfg_low 16; omega)
        (by have := engStat_high c; have : R.Q_CFG 16 < 0x8000 := qCfg_low 16; omega) (qCfg_not_event 16)⟩
  obtain ⟨hcq, hexec⟩ := (hring.modOtp fun o => { o with load := none }).ends (status := 0) (info := BitVec.ofNat 64
    (l.loaded + l.refused * 65536 + l.image.progId.toNat % 65536 * 4294967296)) (b := true) hx htag hslot hpend
  intro t
  have ht : t = _ := (congrArg State.loadEnds hnext).trans hends
  rw [ht]
  refine ⟨?_, hexec, hcq⟩
  rw [unanswered_otp.complete (by decide)]
  rfl

end CopyDone

/-- Settles O28. -/
theorem imagesAndTokensAreChecked : Obligations.ImagesAndTokensAreChecked := by
  intro s d q joins
  refine ⟨fun l hl => ⟨fun h => image_judged (.inl rfl) h hl, fun h => image_judged (.inr rfl) h hl⟩,
    fun h hm hv hk => unlock_takes h hm hv hk, fun r rest hclk hload hreqs ht => ?_, fun c sl e hcop hclk hctl ht htodo => ?_⟩
  · obtain ⟨hq, hfrom⟩ := served_queue (s := s) (rest := rest) r
    refine ⟨_, imageCheckAnswer_exec hclk hload hreqs ht, hq, hfrom, fun op b first last tag slot x hr hx htag hslot hpend => ?_,
      fun k tag slot hr => ?_⟩
    · subst hr
      exact image_served hx htag hslot hpend
    · subst hr
      exact unlock_served k tag slot
  · have hexec := imageCopyDone_exec hcop hclk ht
    rw [State.copyEnded_eq hctl] at hexec
    have htodo' : ∀ l, (s.copyRuns c sl e).otp.load = some l → c ∉ l.todo := by rwa [State.copyRuns_otp]
    obtain ⟨i, w, hch⟩ := s.copyRuns_ch (c := c) (sl := sl) (e := e) c
    rw [if_pos rfl] at hch
    have honly := (s.copyRuns c sl e).copyNext_only (spireOf c)
    have hct : ((((s.copyRuns c sl e).copyNext (spireOf c)).loadEnds).ch c) = _ :=
      (State.loadEnds_keeps (unanswered_ch c) (fun _ _ => rfl) _).trans (((s.copyRuns c sl e).copyNext_ch_other _ htodo').trans hch)
    have heng : (((s.copyRuns c sl e).copyNext (spireOf c)).loadEnds).eng = (s.copyRuns c sl e).eng :=
      (State.loadEnds_keeps unanswered_eng (fun _ _ => rfl) _).trans honly.eng
    have hflag (f : Fld) (hf : 0x8000 ≤ f.addr) : (((s.copyRuns c sl e).copyNext (spireOf c)).loadEnds).flag f = (s.copyRuns c sl e).flag f := by
      have hreg := (State.loadEnds_keeps (unanswered_high hf) (fun _ _ => rfl) ((s.copyRuns c sl e).copyNext (spireOf c)))
      rw [State.flag, State.get, hreg, State.reg, honly.regs]
      rfl
    refine ⟨_, hexec, ?_, ?_, ?_, ?_, ?_, ?_, ?_, ?_, fun hr => ?_, fun l tag slot x hl htd hothers hreq hx htag hslot hpend =>
      copyRuns_ends hl htd hothers hreq hx htag hslot hpend⟩
    · rw [hct]
    · rw [hct]
    · rw [hct]
    · rw [hct]
    · rw [heng]
      exact s.copyRuns_eng.1
    · rw [heng]
      exact s.copyRuns_eng.2
    · rw [hflag _ (engCtrl_high c)]
      exact s.copyRuns_words.1
    · rw [hflag _ (engStat_high c)]
      exact s.copyRuns_words.2
    · refine State.copyRuns_stored (e := e) hr (Grows.trans (m := 0) (.of_same ?_ ?_ ?_) (State.loadEnds_grows _))
      · rw [honly.tick]
      · rw [State.flag, State.get, State.reg, honly.regs]
        rfl
      · rw [honly.hp]

end Sys2Proof.Machine
end

section
/-! PROOFS. Lends, snapshots and Eddy buffers (R280 to R283, R297 to R303). -/

namespace Sys2Proof.Machine

section Waiting

variable {s u : State} {q : Ring} {y : InExec} {tag : BitVec 16} {slot : Nat} {status : Byte} {info : W64} {b : Bool}

/-- The end of the one descriptor that waits on an admin ring (R271). -/
theorem State.complete_waiting (hx : (u.hp.rings[q]).exec = none) (hpend : (u.hp.rings[q]).pend = [y]) (htag : y.tag = tag)
    (hslot : y.slot = slot) (hst : u.stalledRq (u.rqOf q) = none) :
    u.complete q tag slot status info b = (u.completeOne q y status info b).modRing q fun r => { r with pend := [] } := by
  have hring : (u.completeOne q y status info b).hp.rings = u.hp.rings := by
    rw [u.completeOne_told q y status info b hst]
    unfold State.refusedBy
    split
    · rfl
    · split
      · rw [State.raiseLimited_hp_rings]
        rfl
      · rfl
  have hfind : (u.hp.rings[q]).find tag slot = some y := by
    rw [RingSt.find, hx, hpend]
    simp [htag, hslot]
  rw [complete, hfind]
  dsimp only
  generalize u.completeOne q y status info b = v at hring ⊢
  have hone : (v.modRing q fun r => if r.exec = some y then { r with exec := none } else { r with pend := r.pend.erase y }) =
      v.modRing q fun r => { r with pend := [] } := by
    refine v.modRing_congr ?_
    rw [hring, hx, hpend, if_neg (by simp), List.erase_cons_head]
  rw [hone]
  refine State.barriers_none _ fun z hz => ?_
  have hsame : ((v.modRing q fun r => { r with pend := [] }).hp.rings[q]).pend = [] :=
    (congrArg RingSt.pend (upd_same v.hp.rings q fun r => { r with pend := [] }) :)
  rw [hsame] at hz
  cases hz

theorem KeepsRing.ends_waiting (h : KeepsRing s u q) (hq : 16 ≤ q.val) (hx : (s.hp.rings[q]).exec = none)
    (hpend : (s.hp.rings[q]).pend = [y]) (htag : y.tag = tag) (hslot : y.slot = slot) :
    (u.complete q tag slot status info b).hp.cq[s.cqOf q] =
      s.hp.cq[s.cqOf q] ++ [⟨u.rqOf q, .cmd (shownInfo status info) y.tag y.sqhd status q, s.now⟩] ∧
    ((u.complete q tag slot status info b).hp.rings[q]).pend = [] := by
  have hst := u.stalledRq_high (u.rqOf_high hq)
  rw [State.complete_waiting (by rw [h.rings, hx]) (by rw [h.rings, hpend]) htag hslot hst]
  refine ⟨?_, congrArg RingSt.pend (upd_same ..)⟩
  have hcq : ((u.completeOne q y status info b).modRing q fun r => { r with pend := [] }).hp.cq = (u.told q y status info).hp.cq := by
    rw [u.completeOne_told q y status info b hst]
    exact State.refusedBy_cq _
  have htold := u.told_cq q y status info
  simp only [h.cqOf, h.cq, h.now] at htold
  rw [hcq]
  exact htold

end Waiting

section Lend

variable {s : State} {q : Ring} {d : Desc}

/-- The lent buffers with another one. -/
def State.lent (u : State) (l : Lend) : State := u.modHp fun h => { h with lends := h.lends ++ [l] }

theorem State.starting_same (x : InExec) : { s.starting q x with hp := s.hp } = s := by
  obtain ⟨r, h⟩ := s.starting_hp q x
  rw [h]

theorem State.starting_lends (x : InExec) : (s.starting q x).hp.lends = s.hp.lends := by
  obtain ⟨r, h⟩ := s.starting_hp q x
  rw [h]

theorem State.starting_lendsOf (x : InExec) (k : Ring) : (s.starting q x).lendsOf k = s.lendsOf k := by
  rw [lendsOf, starting_lends, ← lendsOf]

theorem lend_lends (h : s.Takes q 0x40 d) (hn : s.lendOf (descWord d 4) = none) (hl : s.lendsOf q < 64) :
    ∃ t, exec (.lend q d) s = .next t ∧ Answered s t q d 0 (BitVec.ofNat 64 (s.lendsOf q + 1)) ∧
      t.hp.lends = s.hp.lends ++ [⟨descWord d 4, q, BitVec.ofNat 64 (descLe d 16 8), descLe d 8 4⟩] ∧ { t with hp := s.hp } = s := by
  obtain ⟨u, hu⟩ : ∃ u, u = s.starting q (s.nextExec q 0x40 d) := ⟨_, rfl⟩
  have hst : Starts s (u.lent ⟨descWord d 4, q, BitVec.ofNat 64 (descLe d 16 8), descLe d 8 4⟩) q (s.nextExec q 0x40 d) :=
    (hu ▸ Starts.refl s q (s.nextExec q 0x40 d)).same rfl rfl rfl rfl rfl
  have hcount : (u.lent ⟨descWord d 4, q, BitVec.ofNat 64 (descLe d 16 8), descLe d 8 4⟩).lendsOf q = s.lendsOf q + 1 := by
    have hlends : (u.lent ⟨descWord d 4, q, BitVec.ofNat 64 (descLe d 16 8), descLe d 8 4⟩).hp.lends =
        s.hp.lends ++ [⟨descWord d 4, q, BitVec.ofNat 64 (descLe d 16 8), descLe d 8 4⟩] := by
      rw [← s.starting_lends (q := q) (s.nextExec q 0x40 d), ← hu]
      rfl
    rw [State.lendsOf, hlends, List.filter_append, List.length_append, ← State.lendsOf]
    simp
  have hexec : exec (.lend q d) s = .next ((u.lent ⟨descWord d 4, q, BitVec.ofNat 64 (descLe d 16 8), descLe d 8 4⟩).finish q
      (s.nextExec q 0x40 d) 0 (BitVec.ofNat 64 (s.lendsOf q + 1))) := by
    refine (s.opRow_takes q (by decide) h : exec (.lend q d) s = _).trans (congrArg Host.Outcome.next ?_)
    have hop : u.opEffect q (s.nextExec q 0x40 d) d = u.opLend q (s.nextExec q 0x40 d) d := rfl
    rw [← hu, hop, State.opLend, ← hcount, hu, State.starting_lendOf, hn, State.starting_lendsOf, if_neg (by decide), if_neg (by omega)]
    rfl
  refine ⟨_, hexec, hst.answered h.1, ?_, ?_⟩
  · refine (hst.finish_keeps h.1 unanswered_lends).trans ?_
    rw [← s.starting_lends (q := q) (s.nextExec q 0x40 d), ← hu]
    rfl
  · obtain ⟨r, c, hfin⟩ := hst.finish_ok (info := BitVec.ofNat 64 (s.lendsOf q + 1)) (b := true) h.1
    have hs := s.starting_same (q := q) (s.nextExec q 0x40 d)
    rw [hfin]
    rw [← hu] at hs
    exact hs

/-- A descriptor whose opcode ends at once with a refusal. -/
theorem refused_at_once {op st : Byte} (hop : op ≠ 0x10) (h : s.Takes q op d)
    (heff : (s.starting q (s.nextExec q op d)).opEffect q (s.nextExec q op d) d =
      (s.starting q (s.nextExec q op d)).finish q (s.nextExec q op d) st 0) :
    ∃ t, s.opRow op q d = .next t ∧ Answered s t q d st (shownInfo st 0) ∧ t.hp.lends = s.hp.lends ∧ t.arb = s.arb ∧ t.eng = s.eng ∧
      t.mode = s.mode := by
  have hst := Starts.refl s q (s.nextExec q op d)
  refine ⟨_, (s.opRow_takes q hop h).trans (congrArg Host.Outcome.next heff), hst.answered h.1, ?_, ?_, ?_, ?_⟩
  · exact (hst.finish_keeps h.1 unanswered_lends).trans (s.starting_lends _)
  · exact (hst.finish_keeps h.1 unanswered_arb).trans (s.starting_eq_hp _ State.arb fun _ _ => rfl)
  · exact (hst.finish_keeps h.1 unanswered_eng).trans (s.starting_eq_hp _ State.eng fun _ _ => rfl)
  · exact (hst.finish_keeps h.1 unanswered_mode).trans (s.starting_eq_hp _ State.mode fun _ _ => rfl)

theorem lend_again (h : s.Takes q 0x40 d) (hn : (s.lendOf (descWord d 4)).isSome = true) :
    ∃ t, exec (.lend q d) s = .next t ∧ Answered s t q d 0x1F 0 ∧ t.hp.lends = s.hp.lends := by
  obtain ⟨t, hexec, hans, hl, -⟩ := refused_at_once (st := 0x1F) (by decide) h (by
    have hop (u : State) : u.opEffect q (s.nextExec q 0x40 d) d = u.opLend q (s.nextExec q 0x40 d) d := rfl
    rw [hop, State.opLend, State.starting_lendOf, if_pos hn])
  exact ⟨t, hexec, hans, hl⟩

theorem lend_full (h : s.Takes q 0x40 d) (hn : s.lendOf (descWord d 4) = none) (hl : 64 ≤ s.lendsOf q) :
    ∃ t, exec (.lend q d) s = .next t ∧ Answered s t q d 0x20 0 ∧ t.hp.lends = s.hp.lends := by
  obtain ⟨t, hexec, hans, hl, -⟩ := refused_at_once (st := 0x20) (by decide) h (by
    have hop (u : State) : u.opEffect q (s.nextExec q 0x40 d) d = u.opLend q (s.nextExec q 0x40 d) d := rfl
    rw [hop, State.opLend, State.starting_lendOf, State.starting_lendsOf, hn, if_neg (by decide), if_pos hl])
  exact ⟨t, hexec, hans, hl⟩

end Lend

section Reclaim

variable {s u : State} {q : Ring} {d : Desc}

theorem State.modRv_recvs_nil {v : State} (h : v.rv.recvs = []) (f : MailReq → Bool) :
    v.modRv (fun r => { r with recvs := r.recvs.filter f }) = v := by
  have hrv : { v.rv with recvs := v.rv.recvs.filter f } = v.rv := by rw [h, List.filter_nil, ← h]
  exact congrArg (fun r : River => { v with rv := r }) hrv

/-- A lend that nothing uses ends: its tag goes, and reads of it (R281, R283). -/
theorem endLend_idle (h : u.LendsIdle) (tag : W32) : ∃ a : Arb, u.endLend tag =
    { u with hp := { u.hp with lends := u.hp.lends.filter (·.tag ≠ tag) }, arb := a } ∧
    a.relief = u.arb.relief ∧ a.copies = [] ∧ a.snaps = [] ∧ a.images = [] ∧ a.data = [] := by
  obtain ⟨hsilt, hstream, hcopies, hsnaps, himages, hrecvs, hdata⟩ := h
  simp only [State.endLend, State.modHp_silt, hsilt, Option.any_none, Bool.false_eq_true, if_false, State.modHp_flag, hstream, Bool.false_and,
    State.modHp_arb, hcopies, List.filter_nil, List.foldl_nil, hsnaps, himages, List.map_nil, List.append_nil, State.modArb_rv, State.modHp_rv,
    hrecvs]
  rw [State.modRv_recvs_nil]
  · refine ⟨_, rfl, rfl, hcopies, ?_, ?_, ?_⟩
    · exact congrArg (List.filter _) hsnaps
    · exact congrArg (List.filter _) himages
    · exact congrArg (List.filter _) hdata
  · exact hrecvs

theorem State.LendsIdle.starting (h : s.LendsIdle) (x : InExec) : (s.starting q x).LendsIdle := by
  obtain ⟨r, hr⟩ := s.starting_hp q x
  rw [hr]
  exact ⟨h.silt, h.stream, h.copies, h.snaps, h.images, h.recvs, h.data⟩

theorem reclaim_own (h : s.Takes q 0x41 d) (hidle : s.LendsIdle) {l : Lend} (hl : s.lendOf (descWord d 4) = some l) (hq : l.ring = q) :
    ∃ t, exec (.reclaim q d) s = .next t ∧ t.hp.lends = s.hp.lends.filter (·.tag ≠ descWord d 4) ∧
      Answered s t q d 0 (BitVec.ofNat 64 (t.lendsOf q)) := by
  obtain ⟨u, hu⟩ : ∃ u, u = s.starting q (s.nextExec q 0x41 d) := ⟨_, rfl⟩
  obtain ⟨a, hend, hrel, -⟩ := endLend_idle (u := u) (hu ▸ hidle.starting _) (descWord d 4)
  have hst : Starts s (u.endLend (descWord d 4)) q (s.nextExec q 0x41 d) :=
    (hu ▸ Starts.refl s q (s.nextExec q 0x41 d)).same (by rw [hend, hrel]) (by rw [hend]) (by rw [hend]) (by rw [hend]) (by rw [hend]; rfl)
  have hexec : exec (.reclaim q d) s = .next ((u.endLend (descWord d 4)).finish q (s.nextExec q 0x41 d) 0
      (BitVec.ofNat 64 ((u.endLend (descWord d 4)).lendsOf q))) := by
    refine (s.opRow_takes q (by decide) h : exec (.reclaim q d) s = _).trans (congrArg Host.Outcome.next ?_)
    have hop : u.opEffect q (s.nextExec q 0x41 d) d = u.opReclaim q (s.nextExec q 0x41 d) d := rfl
    rw [← hu, hop, State.opReclaim, hu, State.starting_lendOf, hl]
    exact if_pos hq
  have hlends : (u.endLend (descWord d 4)).hp.lends = s.hp.lends.filter (·.tag ≠ descWord d 4) := by
    rw [hend, ← s.starting_lends (q := q) (s.nextExec q 0x41 d), ← hu]
  have hkept := hst.finish_keeps (status := 0) (info := BitVec.ofNat 64 ((u.endLend (descWord d 4)).lendsOf q)) (b := true) h.1
    unanswered_lends
  refine ⟨_, hexec, hkept.trans hlends, ?_⟩
  have hcount : ((u.endLend (descWord d 4)).finish q (s.nextExec q 0x41 d) 0
      (BitVec.ofNat 64 ((u.endLend (descWord d 4)).lendsOf q))).lendsOf q = (u.endLend (descWord d 4)).lendsOf q := by
    rw [State.lendsOf, hkept, ← State.lendsOf]
  rw [hcount]
  exact hst.answered h.1

theorem reclaim_unlent (hq : 16 ≤ q.val) (h : s.Takes q 0x41 d) (hl : s.lendOf (descWord d 4) = none) :
    ∃ t, exec (.reclaim q d) s = .next t ∧ Answered s t q d 0x1D 0 ∧ t.hp.lends = s.hp.lends ∧
      (s.Room → Stored s t 0x0204 0 (descWord d 4)) := by
  obtain ⟨u, hu⟩ : ∃ u, u = s.starting q (s.nextExec q 0x41 d) := ⟨_, rfl⟩
  have hst : Starts s (u.raise 0x0204 0 (descWord d 4)) q (s.nextExec q 0x41 d) :=
    (hu ▸ Starts.refl s q (s.nextExec q 0x41 d)).same (by simp) (by simp) (by simp) (by simp) (by
      exact State.raise_reg _ _ _ _ _ (qCfg_not_event q))
  have hexec : exec (.reclaim q d) s = .next ((u.raise 0x0204 0 (descWord d 4)).finish q (s.nextExec q 0x41 d) 0x1D 0 false) := by
    refine (s.opRow_takes q (by decide) h : exec (.reclaim q d) s = _).trans (congrArg Host.Outcome.next ?_)
    have hop : u.opEffect q (s.nextExec q 0x41 d) d = u.opReclaim q (s.nextExec q 0x41 d) d := rfl
    rw [← hu, hop, State.opReclaim, hu, State.starting_lendOf, hl]
  refine ⟨_, hexec, hst.answered h.1, ?_, fun hroom => ?_⟩
  · refine (hst.finish_keeps h.1 unanswered_lends).trans ?_
    rw [State.raise_hp_lends, hu, State.starting_lends]
  · have hgrow := State.complete_grows hq (u.raise 0x0204 0 (descWord d 4)) d.tag (s.lastSlot q) 0x1D 0 false
    have hsame : Grows s u 0 := hu ▸ by
      obtain ⟨r, hr⟩ := s.starting_hp q (s.nextExec q 0x41 d)
      rw [hr]
      exact .of_same rfl rfl rfl
    rw [State.finish, if_neg (by omega)]
    exact hsame.stored_then hroom _ _ _ _ (hgrow (qCntRefused_ne_evtCfg q)) (by decide)

theorem endLends_idle (h : u.LendsIdle) (tags : List W32) : ∃ a : Arb, tags.foldl (fun v t => v.endLend t) u =
    { u with hp := { u.hp with lends := u.hp.lends.filter (·.tag ∉ tags) }, arb := a } ∧ a.relief = u.arb.relief := by
  induction tags generalizing u with
  | nil =>
    refine ⟨u.arb, ?_, rfl⟩
    have hall : u.hp.lends.filter (·.tag ∉ ([] : List W32)) = u.hp.lends := List.filter_eq_self.mpr fun l _ => by simp
    rw [List.foldl_nil, hall]
  | cons t l ih =>
    obtain ⟨a, hend, hrel, hcopies, hsnaps, himages, hdata⟩ := endLend_idle h t
    obtain ⟨b, hb, hbrel⟩ := ih (u := u.endLend t) (by rw [hend]; exact ⟨h.silt, h.stream, hcopies, hsnaps, himages, h.recvs, hdata⟩)
    have hfilter : (u.hp.lends.filter (·.tag ≠ t)).filter (·.tag ∉ l) = u.hp.lends.filter (·.tag ∉ t :: l) := by
      rw [List.filter_filter]
      refine List.filter_congr fun x _ => ?_
      simp [Bool.and_comm]
    refine ⟨b, ?_, by rw [hbrel, hend, hrel]⟩
    rw [List.foldl_cons, hb, hend]
    simp only [hfilter]

/-- Of lends with tags of their own, those without the tags of ring `q` are those of the other rings. -/
theorem lends_others (l : List Lend) (hn : (l.map (·.tag)).Nodup) (q : Ring) :
    l.filter (·.tag ∉ (l.filter (·.ring = q)).map (·.tag)) = l.filter (·.ring ≠ q) := by
  refine List.filter_congr fun x hx => ?_
  have hiff : x.tag ∈ (l.filter (·.ring = q)).map (·.tag) ↔ x.ring = q := by
    constructor
    · intro h
      obtain ⟨y, hy, hxy⟩ := List.mem_map.mp h
      obtain ⟨hyl, hyq⟩ := List.mem_filter.mp hy
      rw [← List.inj_on_of_nodup_map hn hyl hx hxy]
      simpa using hyq
    · intro h
      exact List.mem_map.mpr ⟨x, List.mem_filter.mpr ⟨hx, by simpa using h⟩, rfl⟩
  exact decide_eq_decide.mpr (not_congr hiff)

theorem reclaimAll_own (h : s.Takes q 0x42 d) (hidle : s.LendsIdle) (hn : (s.hp.lends.map (·.tag)).Nodup) :
    ∃ t, exec (.reclaimAll q d) s = .next t ∧ t.hp.lends = s.hp.lends.filter (·.ring ≠ q) ∧
      Answered s t q d 0 (BitVec.ofNat 64 (s.lendsOf q)) := by
  obtain ⟨u, hu⟩ : ∃ u, u = s.starting q (s.nextExec q 0x42 d) := ⟨_, rfl⟩
  have hul : u.hp.lends = s.hp.lends := by rw [hu, State.starting_lends]
  obtain ⟨a, hend, hrel⟩ := endLends_idle (u := u) (hu ▸ hidle.starting _) ((u.hp.lends.filter (·.ring = q)).map (·.tag))
  have hall : u.reclaimAll q = (s.lendsOf q, ((u.hp.lends.filter (·.ring = q)).map (·.tag)).foldl (fun v t => v.endLend t) u) := by
    rw [State.reclaimAll, List.length_map, hul, State.lendsOf]
  obtain ⟨v, hv⟩ : ∃ v, v = ((u.hp.lends.filter (·.ring = q)).map (·.tag)).foldl (fun v t => v.endLend t) u := ⟨_, rfl⟩
  rw [← hv] at hend hall
  have hst : Starts s v q (s.nextExec q 0x42 d) :=
    (hu ▸ Starts.refl s q (s.nextExec q 0x42 d)).same (by rw [hend, hrel]) (by rw [hend]) (by rw [hend]) (by rw [hend]) (by rw [hend]; rfl)
  have hexec : exec (.reclaimAll q d) s = .next (v.finish q (s.nextExec q 0x42 d) 0 (BitVec.ofNat 64 (s.lendsOf q))) := by
    refine (s.opRow_takes q (by decide) h : exec (.reclaimAll q d) s = _).trans (congrArg Host.Outcome.next ?_)
    have hop : u.opEffect q (s.nextExec q 0x42 d) d = u.opReclaimAll q (s.nextExec q 0x42 d) := rfl
    rw [← hu, hop, State.opReclaimAll, hall]
  refine ⟨_, hexec, (hst.finish_keeps h.1 unanswered_lends).trans ?_, hst.answered h.1⟩
  rw [hend, hul]
  exact lends_others _ hn q

end Reclaim

section SnapAt

variable {s u : State} {q : Ring} {d : Desc}

/-- Cut data are the data. -/
theorem chunks_flatten (m addr : Nat) (hm : 0 < m) (bs : List Byte) : (chunks m addr bs).flatMap (·.2) = bs := by
  have htake (n : Nat) : ((List.range n).map fun k => (bs.drop (m * k)).take m).flatten = bs.take (m * n) := by
    induction n with
    | zero => simp
    | succ n ih => rw [List.range_succ, List.map_append, List.flatten_append, ih, Nat.mul_succ, List.take_add]; simp
  have hlen : bs.length ≤ m * ((bs.length + m - 1) / m) := by
    have hdiv := Nat.div_add_mod (bs.length + m - 1) m
    have hmod := Nat.mod_lt (bs.length + m - 1) hm
    omega
  rw [chunks, List.flatMap_map, List.flatMap, htake, List.take_of_length_le hlen]

theorem State.maxPayload_pos (u : State) : 0 < u.maxPayload := by
  unfold maxPayload
  split <;> decide

/-- The bytes that wait for the host path. -/
def State.dataBytes (u : State) : List Byte := u.arb.data.flatMap (·.bytes)

theorem State.pushData_bytes (u : State) (rq : Rq) (job : Job) (ltag : W32) (addr : Nat) (bs : List Byte) :
    ∃ l : List DataWr, u.pushData rq job ltag addr bs = u.modArb (fun a => { a with data := a.data ++ l }) ∧ l.flatMap (·.bytes) = bs := by
  refine ⟨_, rfl, ?_⟩
  rw [List.flatMap_map]
  exact chunks_flatten _ _ u.maxPayload_pos bs

/-- The SNAP_AT that a descriptor of tick `n` asks for. -/
def State.snapAsked (s : State) (q : Ring) (d : Desc) : SnapReq :=
  { tag := d.tag, slot := s.lastSlot q, ltag := descWord d 4, off := descLe d 8 4, tick := some (descLe d 16 8),
    casc := s.isHead && s.flag R.SNAP_CFG_PUBLISH }

theorem snapAt_accepted (h : s.Takes q 0x50 d) (hne : descLe d 16 8 ≠ 2 ^ 64 - 1) (hlate : s.now + 100000 ≤ descLe d 16 8)
    (hroom : s.arb.snaps.length + s.arb.images.length < 4) :
    ∃ t, exec (.snapAt q d) s = .next t ∧ Accepted s t q 0x50 d ∧ ∃ r : SnapReq, t.arb.snaps = s.arb.snaps ++ [r] ∧
      r.tag = d.tag ∧ r.slot = s.lastSlot q ∧ r.ltag = descWord d 4 ∧ r.off = descLe d 8 4 ∧ r.tick = some (descLe d 16 8) := by
  obtain ⟨u, hu⟩ : ∃ u, u = s.starting q (s.nextExec q 0x50 d) := ⟨_, rfl⟩
  have hst : Starts s u q (s.nextExec q 0x50 d) := hu ▸ Starts.refl s q (s.nextExec q 0x50 d)
  have harb : u.arb = s.arb := hu ▸ s.starting_eq_hp _ State.arb fun _ _ => rfl
  have hhead : (u.isHead && u.flag R.SNAP_CFG_PUBLISH) = (s.isHead && s.flag R.SNAP_CFG_PUBLISH) :=
    hu ▸ s.starting_eq_hp _ (fun v => v.isHead && v.flag R.SNAP_CFG_PUBLISH) fun _ _ => rfl
  have hexec : exec (.snapAt q d) s = .next ((u.accept q (s.nextExec q 0x50 d)).modArb fun a =>
      { a with snaps := a.snaps ++ [s.snapAsked q d] }) := by
    refine (s.opRow_takes q (by decide) h : exec (.snapAt q d) s = _).trans (congrArg Host.Outcome.next ?_)
    have hop : u.opEffect q (s.nextExec q 0x50 d) d = u.opSnapAt q (s.nextExec q 0x50 d) d := rfl
    rw [← hu, hop, State.opSnapAt]
    have hpend : ¬4 ≤ u.snapPending := by
      rw [State.snapPending, harb]
      omega
    have hnow : ¬descLe d 16 8 < u.now + 100000 := by
      rw [hst.now]
      omega
    simp only [hne, decide_false, Bool.false_and, Bool.false_eq_true, if_false, Bool.not_false, Bool.true_and, hnow, hpend, Bool.false_or,
      hhead]
    rfl
  refine ⟨_, hexec, hst.accepted rfl rfl, s.snapAsked q d, ?_, rfl, rfl, rfl, rfl, rfl⟩
  exact congrArg (fun a : Arb => a.snaps ++ [s.snapAsked q d]) harb

theorem snapAt_early (h : s.Takes q 0x50 d) (hne : descLe d 16 8 ≠ 2 ^ 64 - 1) (hearly : descLe d 16 8 < s.now + 100000) :
    ∃ t, exec (.snapAt q d) s = .next t ∧ Answered s t q d 0x23 0 ∧ t.arb = s.arb := by
  obtain ⟨t, hexec, hans, -, harb, -⟩ := refused_at_once (st := 0x23) (by decide) h (by
    have hop (u : State) : u.opEffect q (s.nextExec q 0x50 d) d = u.opSnapAt q (s.nextExec q 0x50 d) d := rfl
    have hnow : descLe d 16 8 < (s.starting q (s.nextExec q 0x50 d)).now + 100000 := by
      rw [(Starts.refl s q (s.nextExec q 0x50 d)).now]
      exact hearly
    rw [hop, State.opSnapAt]
    simp only [hne, decide_false, Bool.false_and, Bool.false_eq_true, if_false, Bool.not_false, Bool.true_and, hnow, decide_true, if_true])
  exact ⟨t, hexec, hans, harb⟩

theorem snapCancel_none (h : s.Takes q 0x51 d) (hnone : ∀ r ∈ s.arb.snaps, r.tag.toNat ≠ descLe d 4 2) :
    ∃ t, exec (.snapCancel q d) s = .next t ∧ Answered s t q d 0 0 ∧ { t with hp := s.hp } = s := by
  obtain ⟨u, hu⟩ : ∃ u, u = s.starting q (s.nextExec q 0x51 d) := ⟨_, rfl⟩
  have hst : Starts s u q (s.nextExec q 0x51 d) := hu ▸ Starts.refl s q (s.nextExec q 0x51 d)
  have harb : u.arb = s.arb := hu ▸ s.starting_eq_hp _ State.arb fun _ _ => rfl
  have hexec : exec (.snapCancel q d) s = .next (u.finish q (s.nextExec q 0x51 d) 0 0) := by
    refine (s.opRow_takes q (by decide) h : exec (.snapCancel q d) s = _).trans (congrArg Host.Outcome.next ?_)
    have hop : u.opEffect q (s.nextExec q 0x51 d) d = u.opSnapCancel q (s.nextExec q 0x51 d) d := rfl
    have hfind : u.arb.snaps.find? (fun r => decide (r.tag.toNat = descLe d 4 2)) = none := by
      rw [harb, List.find?_eq_none]
      intro r hr
      simpa using hnone r hr
    rw [← hu, hop, State.opSnapCancel, hfind]
  refine ⟨_, hexec, hst.answered h.1, ?_⟩
  obtain ⟨r, c, hfin⟩ := hst.finish_ok (info := 0) (b := true) h.1
  have hs := s.starting_same (q := q) (s.nextExec q 0x51 d)
  rw [hfin]
  rw [← hu] at hs
  exact hs

theorem snapCancel_one (h : s.Takes q 0x51 d) {r : SnapReq} (hq : 16 ≤ q.val) (hr : s.arb.snaps = [r]) (htag : r.tag.toNat = descLe d 4 2) :
    ∃ t, exec (.snapCancel q d) s = .next t ∧ t.arb.snaps = [] := by
  obtain ⟨u, hu⟩ : ∃ u, u = s.starting q (s.nextExec q 0x51 d) := ⟨_, rfl⟩
  have harb : u.arb = s.arb := hu ▸ s.starting_eq_hp _ State.arb fun _ _ => rfl
  have hexec : exec (.snapCancel q d) s = .next (((u.modArb fun a => { a with snaps := a.snaps.erase r }).complete 19 r.tag r.slot 5 0).finish q
      (s.nextExec q 0x51 d) 0 1) := by
    refine (s.opRow_takes q (by decide) h : exec (.snapCancel q d) s = _).trans (congrArg Host.Outcome.next ?_)
    have hop : u.opEffect q (s.nextExec q 0x51 d) d = u.opSnapCancel q (s.nextExec q 0x51 d) d := rfl
    have hfind : u.arb.snaps.find? (fun r => decide (r.tag.toNat = descLe d 4 2)) = some r := by
      rw [harb, hr, List.find?_cons_of_pos (by simpa using htag)]
    rw [← hu, hop, State.opSnapCancel, hfind]
  refine ⟨_, hexec, ?_⟩
  have hkeep : (((u.modArb fun a => { a with snaps := a.snaps.erase r }).complete 19 r.tag r.slot 5 0).finish q
      (s.nextExec q 0x51 d) 0 1).arb = (u.modArb fun a => { a with snaps := a.snaps.erase r }).arb := by
    rw [State.finish, if_neg (by omega)]
    exact (unanswered_arb.complete hq _ _ _ _ _ _).trans (unanswered_arb.complete (by decide) _ _ _ _ _ _)
  rw [hkeep]
  have hsnaps : (u.modArb fun a => { a with snaps := a.snaps.erase r }).arb.snaps = u.arb.snaps.erase r := rfl
  rw [hsnaps, harb, hr]
  exact List.erase_cons_head ..

end SnapAt

section EddyBuffers

variable {s u : State} {q : Ring} {d : Desc}

theorem State.roleChanged_starting (x : InExec) : (s.starting q x).roleChanged d = s.roleChanged d := s.starting_eq_hp x (State.roleChanged · d) fun _ _ => rfl

theorem roleChanged_of_starting {b : Bool} {x : InExec} (hu : u = s.starting q x) (hrole : s.roleChanged d = b) : u.roleChanged d = b :=
  (congrArg (State.roleChanged · d) hu).trans ((State.roleChanged_starting x).trans hrole)

theorem State.opEffect_eddyRead (u : State) (q : Ring) (x : InExec) (d : Desc) (hx : x.op.toNat = 0x52) :
    u.opEffect q x d = u.opEddyRead q x d := by
  simp only [State.opEffect, hx]

theorem State.opEffect_eddyClear (u : State) (q : Ring) (x : InExec) (d : Desc) (hx : x.op.toNat = 0x53) :
    u.opEffect q x d = u.opEddyClear q x d := by
  simp only [State.opEffect, hx]

/-- A descriptor that passes its checks names a lent buffer where its opcode needs one. -/
theorem State.Takes.lent {op : Byte} (h : s.Takes q op d) {n : Nat} (hn : s.lendNeed op.toNat d = some n) :
    ∃ l, s.lendOf (descWord d 4) = some l := by
  have hcheck := h.2
  unfold descCheck at hcheck
  split at hcheck; · simp at hcheck
  split at hcheck; · simp at hcheck
  split at hcheck; · simp at hcheck
  split at hcheck; · simp at hcheck
  split at hcheck; · simp at hcheck
  have hlend := (Option.or_eq_none_iff.mp hcheck).2
  rw [State.lendCheck, hn] at hlend
  cases hl : s.lendOf (descWord d 4) with
  | none => simp [hl] at hlend
  | some l => exact ⟨l, rfl⟩

theorem eddyRead_accepted (h : s.Takes q 0x52 d) (hrole : s.roleChanged d = false) :
    ∃ t, exec (.eddyRead q d) s = .next t ∧ Accepted s t q 0x52 d ∧
      t.eng[descEng d] = { s.eng[descEng d] with eddy := { (s.eng[descEng d]).eddy with copying := true } } ∧
      t.arb.copies = s.arb.copies ++ [⟨descEng d, descWord d 4, (s.eng[descEng d]).eddy.recs.length, d.tag, s.lastSlot q⟩] ∧
      (t.arb.data.drop s.arb.data.length).flatMap (·.bytes) = (s.eng[descEng d]).eddy.recs.flatMap fun r => wordBytes r.words := by
  obtain ⟨u, hu⟩ : ∃ u, u = s.starting q (s.nextExec q 0x52 d) := ⟨_, rfl⟩
  have hst : Starts s u q (s.nextExec q 0x52 d) := hu ▸ Starts.refl s q (s.nextExec q 0x52 d)
  have harb : u.arb = s.arb := hu ▸ s.starting_eq_hp _ State.arb fun _ _ => rfl
  have heng : u.eng = s.eng := hu ▸ s.starting_eq_hp _ State.eng fun _ _ => rfl
  obtain ⟨l, hl⟩ := h.lent (n := 32 * (s.eng[descEng d]).eddy.recs.length) rfl
  obtain ⟨v, hv⟩ : ∃ v, v = ((u.accept q (s.nextExec q 0x52 d)).modEng (descEng d)
      fun g => { g with eddy := { g.eddy with copying := true } }).modArb fun a =>
        { a with copies := a.copies ++ [⟨descEng d, descWord d 4, (s.eng[descEng d]).eddy.recs.length, d.tag, s.lastSlot q⟩] } := ⟨_, rfl⟩
  have hvl : v.lendOf (descWord d 4) = some l := by
    rw [← hl, hv]
    exact hu ▸ State.starting_lendOf ..
  obtain ⟨w, hpush, hbytes⟩ := v.pushData_bytes 19 (.eddy d.tag (s.lastSlot q)) (descWord d 4) (l.addr.toNat + descLe d 8 4)
    ((s.eng[descEng d]).eddy.recs.flatMap fun r => wordBytes r.words)
  have hexec : exec (.eddyRead q d) s = .next (v.modArb fun a => { a with data := a.data ++ w }) := by
    refine (s.opRow_takes q (by decide) h : exec (.eddyRead q d) s = _).trans (congrArg Host.Outcome.next ?_)
    have hop := State.opEffect_eddyRead u q (s.nextExec q 0x52 d) d rfl
    have hstay : u.roleChanged d = false := roleChanged_of_starting hu hrole
    rw [← hu, hop, State.opEddyRead, hstay, heng, if_neg (by decide), ← hpush]
    have hrec : ((u.accept q (s.nextExec q 0x52 d)).modEng (descEng d) fun g => { g with eddy := { g.eddy with copying := true } }).modArb
        (fun a => { a with copies := a.copies ++ [⟨descEng d, descWord d 4, (s.eng[descEng d]).eddy.recs.length, (s.nextExec q 0x52 d).tag,
          (s.nextExec q 0x52 d).slot⟩] }) = v := hv.symm
    dsimp only
    rw [hrec, hvl]
    rfl
  refine ⟨_, hexec, hst.accepted (by rw [hv]; rfl) (by rw [hv]; rfl), ?_, ?_, ?_⟩
  · have hve : v.eng = upd u.eng (descEng d) fun g => { g with eddy := { g.eddy with copying := true } } := by
      rw [hv]
      rfl
    have hsame := upd_same u.eng (descEng d) fun g => { g with eddy := { g.eddy with copying := true } }
    rw [heng] at hve hsame
    rw [State.modArb_eng, hve]
    exact hsame
  · rw [← harb, hv]
    rfl
  · have hdata : v.arb.data = s.arb.data := by
      rw [← harb, hv]
      rfl
    have hdrop : (v.modArb fun a => { a with data := a.data ++ w }).arb.data = v.arb.data ++ w := rfl
    rw [hdrop, hdata, List.drop_left, hbytes]

/-- The state in which the records of an engine's buffer have been discarded. -/
def State.eddyCleared (u : State) (e : Eng) : State :=
  u.modEng e fun g => { g with eddy := { g.eddy with recs := [], triggered := false, holding := false, postLeft := 0, oldest := 0 } }

theorem eddyClear_done (h : s.Takes q 0x53 d) (hrole : s.roleChanged d = false) :
    ∃ t, exec (.eddyClear q d) s = .next t ∧ Answered s t q d 0 (BitVec.ofNat 64 (s.eng[descEng d]).eddy.recs.length) ∧
      (t.eng[descEng d]).eddy.recs = [] ∧ (t.eng[descEng d]).eddy.holding = false ∧
      (t.eng[descEng d]).eddy.triggered = false ∧ (∀ k : Eng, k ≠ descEng d → t.eng[k] = s.eng[k]) := by
  obtain ⟨u, hu⟩ : ∃ u, u = s.starting q (s.nextExec q 0x53 d) := ⟨_, rfl⟩
  have heng : u.eng = s.eng := hu ▸ s.starting_eq_hp _ State.eng fun _ _ => rfl
  have hst : Starts s (u.eddyCleared (descEng d)) q (s.nextExec q 0x53 d) :=
    (hu ▸ Starts.refl s q (s.nextExec q 0x53 d)).same rfl rfl rfl rfl rfl
  have hexec : exec (.eddyClear q d) s = .next ((u.eddyCleared (descEng d)).finish q (s.nextExec q 0x53 d) 0
      (BitVec.ofNat 64 (s.eng[descEng d]).eddy.recs.length)) := by
    refine (s.opRow_takes q (by decide) h : exec (.eddyClear q d) s = _).trans (congrArg Host.Outcome.next ?_)
    have hop := State.opEffect_eddyClear u q (s.nextExec q 0x53 d) d rfl
    have hstay : u.roleChanged d = false := roleChanged_of_starting hu hrole
    rw [← hu, hop, State.opEddyClear, hstay, heng, if_neg (by decide)]
    rfl
  have hkept := (hst.finish_keeps (status := 0) (info := BitVec.ofNat 64 (s.eng[descEng d]).eddy.recs.length) (b := true) h.1 unanswered_eng)
  have hsame : (u.eddyCleared (descEng d)).eng[descEng d] =
      { u.eng[descEng d] with eddy := { (u.eng[descEng d]).eddy with recs := [], triggered := false, holding := false, postLeft := 0, oldest := 0 } } :=
    u.modEng_eng_same ..
  refine ⟨_, hexec, hst.answered h.1, ?_, ?_, ?_, fun k hk => ?_⟩
  iterate 3 rw [hkept, hsame]
  rw [hkept, ← heng]
  exact u.modEng_eng_other _ _ _ hk

theorem eddyClear_changed (h : s.Takes q 0x53 d) (hrole : s.roleChanged d = true) :
    ∃ t, exec (.eddyClear q d) s = .next t ∧ Answered s t q d 0x18 0 ∧ t.eng = s.eng := by
  obtain ⟨p, hp⟩ : ∃ p, p = spireOfEng (descEng d) := ⟨_, rfl⟩
  obtain ⟨u, hu⟩ : ∃ u, u = s.starting q (s.nextExec q 0x53 d) := ⟨_, rfl⟩
  have heng : u.eng = s.eng := hu ▸ s.starting_eq_hp _ State.eng fun _ _ => rfl
  have hcfg (q : Ring) (p : Spire) : R.Q_CFG q ≠ (R.TKO_CNT_ROLE_CHANGED p).addr := by revert q p; decide
  have hst : Starts s ((u.count (R.TKO_CNT_ROLE_CHANGED p)).raise (spireCode p 0x86) 0 (BitVec.ofNat 32 (engCode (descEng d)))) q
      (s.nextExec q 0x53 d) :=
    (hu ▸ Starts.refl s q (s.nextExec q 0x53 d)).same (by simp) (by simp) (by simp) (by simp) (by
      rw [State.raise_reg _ _ _ _ _ (qCfg_not_event q), State.reg_count_far (h := hcfg q p)])
  have hexec : exec (.eddyClear q d) s = .next (((u.count (R.TKO_CNT_ROLE_CHANGED p)).raise (spireCode p 0x86) 0
      (BitVec.ofNat 32 (engCode (descEng d)))).finish q (s.nextExec q 0x53 d) 0x18 0) := by
    refine (s.opRow_takes q (by decide) h : exec (.eddyClear q d) s = _).trans (congrArg Host.Outcome.next ?_)
    have hop := State.opEffect_eddyClear u q (s.nextExec q 0x53 d) d rfl
    have hgo : u.roleChanged d = true := roleChanged_of_starting hu hrole
    rw [← hu, hop, State.opEddyClear, hgo, hp]
    rfl
  refine ⟨_, hexec, hst.answered h.1, ?_⟩
  rw [hst.finish_keeps h.1 unanswered_eng, State.raise_eng, State.count_eng, heng]

end EddyBuffers

section Snapshots

variable {s : State}

theorem snapChan_length (u : State) (c : Ch) : (u.snapChan c).length = 64 := by
  unfold State.snapChan
  simp [leBytes_length]

theorem snapRq_length (u : State) (a : Rq) : (u.snapRq a).length = 32 := by
  unfold State.snapRq
  simp [leBytes_length]

theorem snapPower_length (u : State) : u.snapPower.length = 64 := by
  unfold State.snapPower
  simp [leBytes_length]

theorem snapHeader_length (u : State) (r : SnapReq) (ts : Nat) (stepped : Bool) : (u.snapHeader r ts stepped).length = 64 := by
  unfold State.snapHeader
  simp [leBytes_length]

/-- The image without its header (Table 11.3). -/
theorem snapBody_length (u : State) : u.snapBody.length = 17216 := by
  have hch : (allCh.map fun c => (u.snapChan c).length).sum = 16384 := by
    rw [List.map_congr_left fun c _ => snapChan_length u c, List.map_const', List.sum_replicate, allCh, List.length_finRange, smul_eq_mul]
  have hrq : (allRq.map fun a => (u.snapRq a).length).sum = 768 := by
    rw [List.map_congr_left fun a _ => snapRq_length u a, List.map_const', List.sum_replicate, allRq, List.length_finRange, smul_eq_mul]
  rw [State.snapBody, List.length_append, List.length_append, List.length_flatMap, List.length_flatMap, hch, hrq, snapPower_length]

theorem snapWrite_data (u : State) (body : List Byte) (r : SnapReq) {l : Lend} (hl : u.lendOf r.ltag = some l) :
    ∃ w : List DataWr, u.snapWrite body r = u.modArb (fun a => { a with data := a.data ++ w }) ∧
      (w.flatMap (·.bytes)).length = body.length + 64 := by
  obtain ⟨w1, h1, hb1⟩ := u.pushData_bytes 20 (.snap r.tag r.slot) r.ltag (l.addr.toNat + r.off + 64) body
  obtain ⟨w2, h2, hb2⟩ := (u.pushData 20 (.snap r.tag r.slot) r.ltag (l.addr.toNat + r.off + 64) body).pushData_bytes 20 (.snap r.tag r.slot)
    r.ltag (l.addr.toNat + r.off) (u.snapHeader r u.now (r.tick != some u.now))
  refine ⟨w1 ++ w2, ?_, ?_⟩
  · rw [State.snapWrite, hl]
    dsimp only
    rw [h2, h1]
    simp only [State.modArb, List.append_assoc]
  · rw [List.flatMap_append, List.length_append, hb1, hb2, snapHeader_length]

/-- A latch taken: the SNAP_AT that still wait, and the images of the others (R299). -/
def State.snapLatched (s : State) (rest : List SnapReq) (i : List SnapImg) : State :=
  s.modArb fun a => { a with snaps := rest, snapCount := a.snapCount + 1, snapLast := s.tick.now, images := a.images ++ i }

theorem snapshotLatch_one {r : SnapReq} {n : Nat} {l : Lend} (hclk : s.clockOn = true) (hr : s.arb.snaps = [r]) (ht : r.tick = some n)
    (hn : n = s.now ∨ (r.stepped = true ∧ n < s.now)) (hl : s.lendOf r.ltag = some l) :
    ∃ t, exec .snapshotLatch s = .next t ∧ t.arb.snaps = [] ∧ t.arb.images = s.arb.images ++ [⟨r, s.now⟩] ∧
      t.arb.snapCount = s.arb.snapCount + 1 ∧ t.arb.snapLast = s.tick.now ∧
      ((t.arb.data.drop s.arb.data.length).flatMap (·.bytes)).length = 17280 := by
  have hdue : s.snapDue r = true := by
    rw [State.snapDue, ht]
    rcases hn with hn | ⟨hs, hlt⟩
    · simp [hn]
    · simp [hs, hlt]
  obtain ⟨u, hu⟩ : ∃ u, u = s.snapLatched [] [⟨r, s.now⟩] := ⟨_, rfl⟩
  obtain ⟨w, hw, hbytes⟩ := snapWrite_data u u.snapBody r (l := l) (by rw [← hl, hu]; rfl)
  have hexec : exec .snapshotLatch s = .next (u.snapWrite u.snapBody r) := by
    have hmine : [r].filter s.snapDue = [r] := by simp [hdue]
    have hrest : [r].filter (fun r => !s.snapDue r) = [] := by simp [hdue]
    rw [exec_snapshotLatch, execSnapshotLatch, hr, hmine, hclk, if_neg (by simp), hu]
    have hmod : (s.snapLatched (s.arb.snaps.filter fun r => !s.snapDue r) ([r].map fun r => { req := r, ts := s.now })) =
        s.snapLatched [] [⟨r, s.now⟩] := by
      rw [hr, hrest]
      rfl
    refine congrArg Host.Outcome.next ?_
    have hfold : ([r].foldl (fun v x => v.snapWrite (s.snapLatched (s.arb.snaps.filter fun r => !s.snapDue r)
        ([r].map fun r => { req := r, ts := s.now })).snapBody x)
        (s.snapLatched (s.arb.snaps.filter fun r => !s.snapDue r) ([r].map fun r => { req := r, ts := s.now }))) =
        (s.snapLatched [] [⟨r, s.now⟩]).snapWrite (s.snapLatched [] [⟨r, s.now⟩]).snapBody r := by
      rw [hmod]
      rfl
    exact hfold
  rw [hw] at hexec
  refine ⟨_, hexec, by rw [hu]; rfl, by rw [hu]; rfl, by rw [hu]; rfl, by rw [hu]; rfl, ?_⟩
  have hdata : (u.modArb fun a => { a with data := a.data ++ w }).arb.data = s.arb.data ++ w := by
    rw [hu]
    rfl
  rw [hdata, List.drop_left, hbytes, snapBody_length]

theorem snapshotWriteDone_one {i : SnapImg} {y : InExec} (hclk : s.clockOn = true) (hi : s.arb.images = [i])
    (hleft : s.dataLeft (.snap i.req.tag i.req.slot) = false) (hx : (s.hp.rings[(19 : Ring)]).exec = none)
    (hpend : (s.hp.rings[(19 : Ring)]).pend = [y]) (htag : y.tag = i.req.tag) (hslot : y.slot = i.req.slot) :
    ∃ t, exec .snapshotWriteDone s = .next t ∧ t.arb.images = [] ∧ (t.hp.rings[(19 : Ring)]).pend = [] ∧
      t.hp.cq[s.cqOf 19] = s.hp.cq[s.cqOf 19] ++ [⟨20, .cmd (BitVec.ofNat 64 i.ts) y.tag y.sqhd 0 19, s.now⟩] := by
  obtain ⟨u, hu⟩ : ∃ u, u = s.modArb fun a => { a with images := [] } := ⟨_, rfl⟩
  have hkeep : KeepsRing s u 19 := hu ▸ ⟨rfl, rfl, rfl, rfl⟩
  have hexec : exec .snapshotWriteDone s = .next (u.complete 19 i.req.tag i.req.slot 0 (BitVec.ofNat 64 i.ts)) := by
    have hmod : (s.modArb fun a => { a with images := a.images.erase i }) = u := by
      rw [hu]
      simp only [State.modArb, hi, List.erase_cons_head]
    rw [exec_snapshotWriteDone, execSnapshotWriteDone, hi, List.find?_cons_of_pos (by rw [hleft]; rfl)]
    dsimp only
    rw [if_pos hclk, hmod]
  have hend := hkeep.ends_waiting (status := 0) (info := BitVec.ofNat 64 i.ts) (b := true) (by decide) hx hpend htag hslot
  refine ⟨_, hexec, ?_, hend.2, hend.1⟩
  exact (congrArg Arb.images (unanswered_arb.complete (q := 19) (by decide) ..)).trans (by rw [hu]; rfl)

theorem eddyReadDone_one {k : EddyCopy} {y : InExec} (hclk : s.clockOn = true) (hk : s.arb.copies = [k])
    (hleft : s.dataLeft (.eddy k.tag k.slot) = false) (hx : (s.hp.rings[(18 : Ring)]).exec = none)
    (hpend : (s.hp.rings[(18 : Ring)]).pend = [y]) (htag : y.tag = k.tag) (hslot : y.slot = k.slot) :
    ∃ t, exec .eddyReadDone s = .next t ∧ t.arb.copies = [] ∧ (t.eng[k.e]).eddy.copying = false ∧
      t.hp.cq[s.cqOf 18] = s.hp.cq[s.cqOf 18] ++ [⟨19, .cmd (BitVec.ofNat 64 k.held) y.tag y.sqhd 0 18, s.now⟩] := by
  obtain ⟨u, hu⟩ : ∃ u, u = (s.modEng k.e fun g => { g with eddy := { g.eddy with copying := false } }).modArb fun a =>
      { a with copies := [], data := a.data.filter (·.job ≠ .eddy k.tag k.slot) } := ⟨_, rfl⟩
  have hkeep : KeepsRing s u 18 := hu ▸ ⟨rfl, rfl, rfl, rfl⟩
  have hexec : exec .eddyReadDone s = .next (u.complete 18 k.tag k.slot 0 (BitVec.ofNat 64 k.held)) := by
    rw [exec_eddyReadDone, execEddyReadDone, hk, List.find?_cons_of_pos (by rw [hleft]; rfl)]
    dsimp only
    have herase : s.arb.copies.erase k = [] := by rw [hk, List.erase_cons_head]
    have hmod : ((s.modEng k.e fun g => { g with eddy := { g.eddy with copying := (s.arb.copies.erase k).any (·.e = k.e) } }).modArb fun a =>
        { a with copies := a.copies.erase k, data := a.data.filter (·.job ≠ .eddy k.tag k.slot) }) = u := by
      rw [hu, herase]
      simp only [State.modArb, State.modEng_arb, herase, List.any_nil]
    rw [if_pos hclk, State.eddyCopyEnd, hmod]
  have hend := hkeep.ends_waiting (status := 0) (info := BitVec.ofNat 64 k.held) (b := true) (by decide) hx hpend htag hslot
  refine ⟨_, hexec, ?_, ?_, hend.1⟩
  · exact (congrArg Arb.copies (unanswered_arb.complete (q := 18) (by decide) ..)).trans (by rw [hu]; rfl)
  · rw [unanswered_eng.complete (q := 18) (by decide), hu, State.modArb_eng, State.modEng_eng_same]

end Snapshots

/-- Settles O29: what ends a lend, a snapshot or a copy is answered on the ring that asked for it; what waits is kept with its ring's
descriptor. -/
theorem lendsSnapshotsAndEddyBuffers : Obligations.LendsSnapshotsAndEddyBuffers := by
  intro s q d hq
  refine ⟨fun h => ⟨lend_lends h, lend_again h, lend_full h⟩,
    fun h => ⟨fun l hidle hl hlq => reclaim_own h hidle hl hlq, reclaim_unlent hq h⟩,
    fun h => reclaimAll_own h, fun h hne => ⟨snapAt_accepted h hne, snapAt_early h hne⟩,
    fun h => ⟨snapCancel_none h, fun r => snapCancel_one h hq⟩, fun h => eddyRead_accepted h,
    fun h => ⟨eddyClear_done h, eddyClear_changed h⟩, fun r n l => snapshotLatch_one, fun i y => snapshotWriteDone_one,
    fun k y => eddyReadDone_one⟩

end Sys2Proof.Machine
end

section
/-! PROOFS. Power, mode, reset, freeze and housekeeping opcodes of the admin rings (R271, R275, R326, R408, R500, R501). -/

namespace Sys2Proof.Machine

section AtOnce

variable {s v : State} {q : Ring} {d : Desc} {op : Byte} {info : W64} {status : Byte}

/-- A descriptor whose opcode ends at once with status 0 changes besides its effect the rings and their completions alone. -/
theorem ends_with (hop : op ≠ 0x10) (h : s.Takes q op d) (hst : Starts s v q (s.nextExec q op d))
    (heff : (s.starting q (s.nextExec q op d)).opEffect q (s.nextExec q op d) d = v.finish q (s.nextExec q op d) 0 info) :
    ∃ t, s.opRow op q d = .next t ∧ Answered s t q d 0 info ∧ ∃ r c, t = { v with hp := { v.hp with rings := r, cq := c } } :=
  ⟨_, (s.opRow_takes q hop h).trans (congrArg Host.Outcome.next heff), hst.answered h.1, hst.finish_ok h.1⟩

/-- A descriptor that completes with status 0 and does nothing else. -/
theorem ends_only (hop : op ≠ 0x10) (h : s.Takes q op d)
    (heff : (s.starting q (s.nextExec q op d)).opEffect q (s.nextExec q op d) d =
      (s.starting q (s.nextExec q op d)).finish q (s.nextExec q op d) 0 info) :
    ∃ t, s.opRow op q d = .next t ∧ Answered s t q d 0 info ∧ { t with hp := s.hp } = s := by
  obtain ⟨t, hexec, hans, r, c, ht⟩ := ends_with hop h (.refl s q _) heff
  exact ⟨t, hexec, hans, by rw [ht]; exact s.starting_same _⟩

/-- A descriptor that is refused by its opcode leaves the mode alone. -/
theorem refused_mode (hop : op ≠ 0x10) (h : s.Takes q op d)
    (heff : (s.starting q (s.nextExec q op d)).opEffect q (s.nextExec q op d) d =
      (s.starting q (s.nextExec q op d)).finish q (s.nextExec q op d) status info) :
    ∃ t, s.opRow op q d = .next t ∧ Answered s t q d status (shownInfo status info) ∧ t.mode = s.mode :=
  ⟨_, (s.opRow_takes q hop h).trans (congrArg Host.Outcome.next heff), (Starts.refl s q (s.nextExec q op d)).answered h.1,
    ((Starts.refl s q (s.nextExec q op d)).finish_keeps h.1 unanswered_mode).trans (s.starting_eq_hp _ State.mode fun _ _ => rfl)⟩

theorem State.Takes.clockOn (h : s.Takes q op d) : s.clockOn = true := by
  have hcan := h.1
  simp only [State.canStart, Bool.and_eq_true] at hcan
  exact hcan.1.1.1

theorem State.Takes.thawed (h : s.Takes q op d) : s.mode.frozen = false := by
  have hclk := h.clockOn
  simp only [State.clockOn, Bool.and_eq_true, Bool.not_eq_true'] at hclk
  exact hclk.2

theorem State.Takes.ring (h : s.Takes q op d) : ringTakes op.toNat q.val = true := by
  have hcheck := h.2
  unfold descCheck at hcheck
  split at hcheck
  · simp at hcheck
  · simp_all

end AtOnce

section Power

variable {s u : State} {q : Ring} {d : Desc}

theorem State.opEffect_pwrWrite (u : State) (q : Ring) (x : InExec) (d : Desc) (hx : x.op.toNat = 0x60) :
    u.opEffect q x d = u.opPwrWrite q x d := by
  simp only [State.opEffect, hx]

theorem State.opEffect_pwrRead (u : State) (q : Ring) (x : InExec) (d : Desc) (hx : x.op.toNat = 0x61) :
    u.opEffect q x d = u.opPwrRead q x d := by
  simp only [State.opEffect, hx]

theorem State.opEffect_buskeepAck (u : State) (q : Ring) (x : InExec) (d : Desc) (hx : x.op.toNat = 0x62) :
    u.opEffect q x d = u.opBuskeepAck q x d := by
  simp only [State.opEffect, hx]

/-- A word of CHG_IN with IIN_MA in its range (Table 12.7). -/
def chgInWord (w : W32) : W32 := withField w ⟨0, 0, 17⟩ (clampN 1000 80000 (bits w.toNat 0 17))

theorem State.keepApply_chgIn (u : State) (w : W32) : u.keepApply R.CHG_IN w =
    u.setReg R.CHG_IN ((chgInWord w &&& 0x1FFFF) ||| (u.reg R.CHG_IN &&& ~~~0x1FFFF)) := by
  have hrow : (regRow R.CHG_IN).map (fun r => (r.rw, r.rwl, r.w1c)) = some (0x1FFFF, 0, 0) := by decide
  obtain ⟨r, hr, hm⟩ := Option.map_eq_some_iff.1 hrow
  obtain ⟨hrw, hl, hc⟩ : r.rw = 0x1FFFF ∧ r.rwl = 0 ∧ r.w1c = 0 := by simpa using hm
  rw [← hrw, ← State.plainWrite_rw hr hl hc, State.keepApply, if_pos (by decide), State.packWrite]
  rfl

theorem pwrWrite_chgIn (h : s.Takes q 0x60 d) (ha : descLe d 2 2 = R.CHG_IN) :
    ∃ t, exec (.pwrWrite q d) s = .next t ∧ Answered s t q d 0 ((t.reg R.CHG_IN).zeroExtend 64) ∧
      t.get R.CHG_IN_IIN_MA =
        max 1000 (min (((s.reg (descLe d 2 2) &&& ~~~descWord d 8) ||| (descWord d 4 &&& descWord d 8)).toNat % 131072) 80000) ∧
      (∀ k, k ≠ R.CHG_IN → t.reg k = s.reg k) ∧ { t with regs := s.regs, hp := s.hp } = s := by
  obtain ⟨u, hu⟩ : ∃ u, u = s.starting q (s.nextExec q 0x60 d) := ⟨_, rfl⟩
  have hreg (k : Nat) : u.reg k = s.reg k := hu ▸ s.starting_eq_hp _ (State.reg · k) fun _ _ => rfl
  have hlive (v : State) : v.liveWord R.CHG_IN = v.reg R.CHG_IN := rfl
  obtain ⟨w, hw⟩ : ∃ w, w = (s.reg R.CHG_IN &&& ~~~descWord d 8) ||| (descWord d 4 &&& descWord d 8) := ⟨_, rfl⟩
  obtain ⟨x, hx⟩ : ∃ x, x = (chgInWord w &&& 0x1FFFF) ||| (u.reg R.CHG_IN &&& ~~~0x1FFFF) := ⟨_, rfl⟩
  have hcfg (q : Ring) : R.Q_CFG q ≠ R.CHG_IN := by revert q; decide
  have hst : Starts s (u.setReg R.CHG_IN x) q (s.nextExec q 0x60 d) :=
    (hu ▸ Starts.refl s q (s.nextExec q 0x60 d)).same rfl rfl rfl rfl (State.reg_setReg_other _ _ _ _ (hcfg q))
  obtain ⟨t, hexec, hans, r, c, ht⟩ := ends_with (by decide) h hst (info := ((u.setReg R.CHG_IN x).reg R.CHG_IN).zeroExtend 64) (by
    rw [← hu, State.opEffect_pwrWrite _ _ _ _ rfl, State.opPwrWrite, ha, hlive, hreg, ← hw, State.keepApply_chgIn, ← hx,
      if_neg (by decide), if_neg (by decide), hlive])
  have htreg (k : Nat) : t.reg k = (u.setReg R.CHG_IN x).reg k := by
    rw [ht]
    rfl
  refine ⟨t, hexec, by rw [htreg]; exact hans, ?_, fun k hk => ?_, ?_⟩
  · have hcov : ∀ i, i < 17 → (0x1FFFF : W32).getLsbD (0 + i) = true := by decide
    have hget : t.get R.CHG_IN_IIN_MA = fieldOf x R.CHG_IN_IIN_MA :=
      congrArg (fieldOf · R.CHG_IN_IIN_MA) ((htreg R.CHG_IN).trans (State.reg_setReg_same ..))
    rw [hget, hx, fieldOf_masked _ _ _ _ hcov, chgInWord]
    refine (fieldOf_withField_same w ⟨0, 0, 17⟩ _ (by decide)).trans ?_
    rw [ha, ← hw]
    simp only [clampN, bits, Nat.shiftRight_zero]
    omega
  · rw [htreg, State.reg_setReg_other _ _ _ _ hk, hreg]
  · have hs := s.starting_same (q := q) (s.nextExec q 0x60 d)
    rw [← hu] at hs
    rw [ht]
    exact congrArg (fun v : State => { v with regs := s.regs }) hs

/-- The Keep's read of a word of one half is the word, and clears its RC bits. -/
theorem pwrRead_plain (h : s.Takes q 0x61 d) (hw : isWide (descLe d 2 2) = false) (hh : isHigh (descLe d 2 2) = false) :
    ∃ t, exec (.pwrRead q d) s = .next t ∧ Answered s t q d 0 ((s.liveWord (descLe d 2 2)).zeroExtend 64) := by
  have hrange := h.fields.2
  simp only [rangesOk, BitVec.reduceToNat, Bool.and_eq_true, decide_eq_true_eq] at hrange
  obtain ⟨a, ha⟩ : ∃ a, a = descLe d 2 2 := ⟨_, rfl⟩
  rw [← ha] at hw hh hrange ⊢
  obtain ⟨u, hu⟩ : ∃ u, u = s.starting q (s.nextExec q 0x61 d) := ⟨_, rfl⟩
  have hpower (v : State) : v.liveWord a = if (regRow a).isNone then 0 else (v.powerWord a).getD (v.reg a) := by
    rw [State.liveWord]
    refine congrArg (fun w => if (regRow a).isNone then 0 else w) ?_
    rw [if_neg (by omega), if_neg (by simp; omega), if_neg (by simp; omega), if_neg (by simp; omega), if_neg (by omega), if_pos (by omega)]
  have hlive : u.liveWord a = s.liveWord a := by
    rw [hpower, hpower]
    exact congrArg (fun w => if (regRow a).isNone then 0 else w) (hu ▸ s.starting_eq_hp _ (fun v => (v.powerWord a).getD (v.reg a)) fun _ _ => rfl)
  have hthaw : u.mode.frozen = false := (hu ▸ s.starting_eq_hp _ (fun v => v.mode.frozen) fun _ _ => rfl : u.mode.frozen = _).trans h.thawed
  have hread : u.read32 .keep a = (s.liveWord a, u.rcClear a) := by
    simp only [State.read32, hw, hh, State.pathWord, State.peek, State.rcNow, hthaw, hlive, reduceCtorEq, decide_false, Bool.false_and,
      Bool.false_eq_true, if_false, Bool.not_false, Bool.true_or, if_true]
  have hclear : u.rcClear a = u ∨ ∃ w, u.rcClear a = u.setReg a w := by
    cases hr : regRow a with
    | none => exact .inl (by rw [State.rcClear, hr])
    | some r =>
      have he : a ≠ R.EDDY_STAT := fun he => absurd (he ▸ hrange.1.1 : 0x2000 ≤ R.EDDY_STAT) (by decide)
      rw [State.rcClear_eq hr he]
      split
      · exact .inl rfl
      · exact .inr ⟨_, rfl⟩
  have hst : Starts s (u.rcClear a) q (s.nextExec q 0x61 d) := by
    have hu0 := hu ▸ Starts.refl s q (s.nextExec q 0x61 d)
    have hcfg (q : Ring) : R.Q_CFG q < 0x2000 := by revert q; decide
    rcases hclear with hc | ⟨w, hc⟩
    · rw [hc]
      exact hu0
    · rw [hc]
      exact hu0.same rfl rfl rfl rfl (State.reg_setReg_other _ _ _ _ (by have := hcfg q; omega))
  obtain ⟨t, hexec, hans, -⟩ := ends_with (by decide) h hst (info := (s.liveWord a).zeroExtend 64) (by
    rw [← hu, State.opEffect_pwrRead _ _ _ _ rfl, State.opPwrRead, ← ha, hread])
  exact ⟨t, hexec, hans⟩

theorem buskeepAck_answers (h : s.Takes q 0x62 d) : ∃ t, exec (.buskeepAck q d) s = .next t ∧ Answered s t q d 0 0 ∧
    t.flag R.PACK_STAT_BK_ACK = decide (descLe d 2 1 = 1) ∧ { t with regs := s.regs, hp := s.hp } = s := by
  obtain ⟨u, hu⟩ : ∃ u, u = s.starting q (s.nextExec q 0x62 d) := ⟨_, rfl⟩
  have hcfg (q : Ring) : R.Q_CFG q ≠ R.PACK_STAT_BK_ACK.addr := by revert q; decide
  have hst : Starts s (u.putFlag R.PACK_STAT_BK_ACK (descLe d 2 1 = 1)) q (s.nextExec q 0x62 d) :=
    (hu ▸ Starts.refl s q (s.nextExec q 0x62 d)).same rfl rfl rfl rfl (State.reg_putFlag_far (h := hcfg q) ..)
  obtain ⟨t, hexec, hans, r, c, ht⟩ := ends_with (by decide) h hst (info := 0) (by
    rw [← hu, State.opEffect_buskeepAck _ _ _ _ rfl, State.opBuskeepAck])
  refine ⟨t, hexec, hans, ?_, ?_⟩
  · have hflag : t.flag R.PACK_STAT_BK_ACK = (u.putFlag R.PACK_STAT_BK_ACK (descLe d 2 1 = 1)).flag R.PACK_STAT_BK_ACK := by
      rw [ht]
      rfl
    rw [hflag]
    exact State.flag_putFlag_near (h := by decide) ..
  · have hs := s.starting_same (q := q) (s.nextExec q 0x62 d)
    rw [← hu] at hs
    rw [ht]
    exact congrArg (fun v : State => { v with regs := s.regs }) hs

end Power

section ModeRequest

variable {s u : State} {q : Ring} {d : Desc}

theorem State.opEffect_modeReq (u : State) (q : Ring) (x : InExec) (d : Desc) (hx : x.op.toNat = 0x70) :
    u.opEffect q x d = u.opModeReq q x d := by
  simp only [State.opEffect, hx]

theorem State.pathCond_starting (x : InExec) (m : Mode) (l : List Mode) : (s.starting q x).pathCond m l = s.pathCond m l :=
  s.starting_eq_hp x (fun v => v.pathCond m l) fun v h => by
    induction l generalizing m with
    | nil => rfl
    | cons k l ih => rw [State.pathCond, ih, State.pathCond]; rfl

/-- A request for the present mode completes at once (Table 10.8). -/
theorem modeReq_same (h : s.Takes q 0x70 d) (hstart : s.mode.starting = false) {n : Nat}
    (hn : (s.mode.mode, n) ∈ ([(.standby, 1), (.ready, 2), (.field, 3), (.road, 4)] : List (Mode × Nat))) (hk : descLe d 2 1 = n) :
    ∃ t, exec (.modeReq q d) s = .next t ∧ Answered s t q d 0 (BitVec.ofNat 64 n) ∧ { t with hp := s.hp } = s := by
  have hcode : s.mode.mode = modeOfCode (descLe d 2 1) ∧ (modeOfCode (descLe d 2 1)).code = n := by
    rw [hk]
    simp only [List.mem_cons, Prod.mk.injEq, List.not_mem_nil, or_false] at hn
    rcases hn with ⟨hm, rfl⟩ | ⟨hm, rfl⟩ | ⟨hm, rfl⟩ | ⟨hm, rfl⟩ <;> exact ⟨hm, rfl⟩
  refine ends_only (by decide) h ?_
  have hmode := s.starting_eq_hp (q := q) (s.nextExec q 0x70 d) State.mode fun _ _ => rfl
  rw [State.opEffect_modeReq _ _ _ _ rfl, State.opModeReq]
  dsimp only
  simp only [hmode, hstart, Bool.false_and, Bool.false_eq_true, if_false, hcode.1, hcode.2, if_true]

/-- A path of which a condition fails is refused with the conditions that fail (R500). -/
theorem modeReq_refused (h : s.Takes q 0x70 d) (hstart : s.mode.starting = false) (hne : s.mode.mode ≠ modeOfCode (descLe d 2 1))
    {c : Nat} (hc : c ≠ 0) (hcond : s.pathCond s.mode.mode (hopsTo s.mode.mode (modeOfCode (descLe d 2 1))) = c) :
    ∃ t, exec (.modeReq q d) s = .next t ∧ Answered s t q d 0x22 (BitVec.ofNat 64 c) ∧ t.mode = s.mode := by
  refine refused_mode (by decide) h ?_
  have hmode := s.starting_eq_hp (q := q) (s.nextExec q 0x70 d) State.mode fun _ _ => rfl
  rw [State.opEffect_modeReq _ _ _ _ rfl, State.opModeReq]
  dsimp only
  simp only [hmode, hstart, Bool.false_and, Bool.false_eq_true, if_false, if_neg hne, State.pathCond_starting, hcond]
  exact if_pos hc

/-- Otherwise the move begins. -/
theorem modeReq_begins (h : s.Takes q 0x70 d) (hstart : s.mode.starting = false) (hmove : s.mode.move = none)
    (hne : s.mode.mode ≠ modeOfCode (descLe d 2 1))
    (hcond : s.pathCond s.mode.mode (hopsTo s.mode.mode (modeOfCode (descLe d 2 1))) = 0) :
    exec (.modeReq q d) s = .next ((s.starting q (s.nextExec q 0x70 d)).moveBegin
      { hops := hopsTo s.mode.mode (modeOfCode (descLe d 2 1)), cause := .request, req := some (q, d.tag) }) := by
  refine (s.opRow_takes q (by decide) h : exec (.modeReq q d) s = _).trans (congrArg Host.Outcome.next ?_)
  have hmode := s.starting_eq_hp (q := q) (s.nextExec q 0x70 d) State.mode fun _ _ => rfl
  rw [State.opEffect_modeReq _ _ _ _ rfl, State.opModeReq]
  dsimp only
  simp only [hmode, hstart, Bool.false_and, Bool.false_eq_true, if_false, if_neg hne, State.pathCond_starting, hcond, ne_eq, not_true,
    hmove, Option.any_none, State.moveAbandon]
  rfl

/-- A move to a mode other than STANDBY answers nothing as it begins. -/
theorem modeReq_moves (h : s.Takes q 0x70 d) (hstart : s.mode.starting = false) (hmove : s.mode.move = none) {m : Mode} {lock : Bool}
    (hne : s.mode.mode ≠ modeOfCode (descLe d 2 1)) (hhops : hopsTo s.mode.mode (modeOfCode (descLe d 2 1)) = [m])
    (hm : m ≠ .standby) (hcond : s.hopCond s.mode.mode m = 0) (hlock : lock = if m = .road then true else s.mode.roadLock) :
    ∃ t, exec (.modeReq q d) s = .next t ∧ t.hp.cq = s.hp.cq ∧ t.mode.mode = s.mode.mode ∧ t.mode.roadLock = lock ∧
      t.mode.move = some { hops := [m], cause := .request, req := some (q, d.tag) } := by
  have hexec := modeReq_begins h hstart hmove hne (by rw [hhops, State.pathCond, State.pathCond, hcond]; rfl)
  rw [hhops] at hexec
  refine ⟨_, hexec, ?_⟩
  obtain ⟨u, hu⟩ : ∃ u, u = s.starting q (s.nextExec q 0x70 d) := ⟨_, rfl⟩
  have hmode : u.mode = s.mode := hu ▸ s.starting_eq_hp _ State.mode fun _ _ => rfl
  have hcq : u.hp.cq = s.hp.cq := (hu ▸ Starts.refl s q (s.nextExec q 0x70 d)).cq
  rw [← hu, ← hcq, hlock, ← hmode]
  cases m with
  | standby => exact absurd rfl hm
  | _ => exact ⟨rfl, rfl, rfl, rfl⟩

/-- A request for STANDBY completes as its move begins (R275). -/
theorem modeReq_standby (h : s.Takes q 0x70 d) (hstart : s.mode.starting = false) (hmove : s.mode.move = none)
    (hm : s.mode.mode = .ready) (hk : descLe d 2 1 = 1) :
    ∃ t, exec (.modeReq q d) s = .next t ∧ Answered s t q d 0 1 ∧ ∃ v, t.mode.move = some v ∧ v.hops = [.standby] := by
  have hhops : hopsTo .ready (modeOfCode 1) = [.standby] := rfl
  have hexec := modeReq_begins h hstart hmove (by rw [hm, hk]; decide) (by
    rw [hm, hk, hhops, State.pathCond, State.pathCond, Nat.or_zero]
    rfl)
  rw [hm, hk, hhops] at hexec
  obtain ⟨u, hu⟩ : ∃ u, u = s.starting q (s.nextExec q 0x70 d) := ⟨_, rfl⟩
  obtain ⟨v, hv⟩ : ∃ v, v = { u with seqr := { u.seqr with stopDone := false } }.modMode fun x =>
      { x with move := some { hops := [.standby], cause := .request, req := some (q, d.tag) }, moveFresh := true } := ⟨_, rfl⟩
  have hq : q.val = 16 := by
    have hring := h.ring
    simpa [ringTakes, opcodes] using hring
  have hst : Starts s v q (s.nextExec q 0x70 d) := hv ▸ (hu ▸ Starts.refl s q (s.nextExec q 0x70 d)).same rfl rfl rfl rfl rfl
  have hslot : v.execSlot q = s.lastSlot q := by
    rw [State.execSlot, hst.ring (by omega)]
    rfl
  have hfin : v.finish q (s.nextExec q 0x70 d) 0 1 = v.complete q d.tag (v.execSlot q) 0 1 := by
    rw [State.finish, if_neg (by omega), hslot]
    rfl
  have hbegin : u.moveBegin { hops := [.standby], cause := .request, req := some (q, d.tag) } =
      ((v.complete q d.tag (v.execSlot q) 0 1).modMode fun x =>
        { x with move := some { hops := [.standby], cause := .request, req := none } }).hopBegin := by
    rw [hv]
    rfl
  have hstay (w : State) : (w.modMode fun x =>
      { x with move := some { hops := [.standby], cause := .request, req := none } }).hopBegin =
      w.modMode fun x => { x with move := some { hops := [.standby], cause := .request, req := none } } := rfl
  rw [← hu, hbegin, ← hfin, hstay] at hexec
  exact ⟨_, hexec, hst.answered h.1, _, rfl, rfl⟩

end ModeRequest

section Admin

variable {s u : State} {q : Ring} {d : Desc}

theorem State.opEffect_reset (u : State) (q : Ring) (x : InExec) (d : Desc) (hx : x.op.toNat = 0x71) : u.opEffect q x d = u.opReset q x := by
  simp only [State.opEffect, hx]

theorem State.opEffect_freeze (u : State) (q : Ring) (x : InExec) (d : Desc) (hx : x.op.toNat = 0x72) :
    u.opEffect q x d = u.opFreeze q x := by
  simp only [State.opEffect, hx]

theorem State.opEffect_nop (u : State) (q : Ring) (x : InExec) (d : Desc) (hx : x.op.toNat = 0x80) : u.opEffect q x d = u.finish q x 0 0 := by
  simp only [State.opEffect, hx]

theorem State.opEffect_barrier (u : State) (q : Ring) (x : InExec) (d : Desc) (hx : x.op.toNat = 0x81) :
    u.opEffect q x d = u.opBarrier q x := by
  simp only [State.opEffect, hx]

theorem State.opEffect_ringQuery (u : State) (q : Ring) (x : InExec) (d : Desc) (hx : x.op.toNat = 0x82) :
    u.opEffect q x d = u.opRingQuery q x d := by
  simp only [State.opEffect, hx]

/-- RESET is answered, and waits for its completion to be written (R275). -/
theorem reset_waits (h : s.Takes q 0x71 d) : ∃ t, exec (.reset q d) s = .next t ∧ Answered s t q d 0 0 ∧ t.mode.mode = s.mode.mode ∧
    t.mode.resetWait = some (if s.mode.fault then .fault else .command, d.tag) ∧ t.mode.pendingReset = s.mode.pendingReset := by
  obtain ⟨u, hu⟩ : ∃ u, u = s.starting q (s.nextExec q 0x71 d) := ⟨_, rfl⟩
  have hmode : u.mode = s.mode := hu ▸ s.starting_eq_hp _ State.mode fun _ _ => rfl
  have hst : Starts s u q (s.nextExec q 0x71 d) := hu ▸ Starts.refl s q _
  have hkeep := hst.finish_keeps (status := 0) (info := 0) (b := true) h.1 unanswered_mode
  rw [hmode] at hkeep
  refine ⟨_, (s.opRow_takes q (by decide) h : exec (.reset q d) s = _), ?_⟩
  rw [State.opEffect_reset _ _ _ _ rfl, ← hu, State.opReset]
  refine ⟨hst.answered h.1, (congrArg ModeSt.mode hkeep :), ?_, (congrArg ModeSt.pendingReset hkeep :)⟩
  exact (congrArg (fun m : ModeSt => some (if m.fault then ResetKind.fault else ResetKind.command, d.tag)) hkeep :)

/-- FREEZE triggers, and completes after the thaw (R408). -/
theorem freeze_triggers (h : s.Takes q 0x72 d) (hlink : s.mode.mode.isLink = true) (hboot : s.mode.bootStep = 0)
    (hfault : s.mode.fault = false) (hthaw : s.mode.frozen = false) :
    ∃ t, exec (.freeze q d) s = .next t ∧ t.hp.cq = s.hp.cq ∧ t.frz.req = some (d.tag, s.lastSlot q) ∧ t.frz.trig.isSome = true ∧
      t.frz.tf = s.now := by
  obtain ⟨u, hu⟩ : ∃ u, u = s.starting q (s.nextExec q 0x72 d) := ⟨_, rfl⟩
  have hmode : u.mode = s.mode := hu ▸ s.starting_eq_hp _ State.mode fun _ _ => rfl
  have hst : Starts s u q (s.nextExec q 0x72 d) := hu ▸ Starts.refl s q _
  have hgo : (u.mode.mode.isLink && decide (u.mode.bootStep = 0) && !u.mode.fault) = true := by rw [hmode, hlink, hboot, hfault]; rfl
  obtain ⟨v, hv⟩ : ∃ v, v = { u with frz := { u.frz with req := some (d.tag, s.lastSlot q) } } := ⟨_, rfl⟩
  have hvthaw : v.mode.frozen = false := by rw [hv]; exact hmode ▸ hthaw
  have hvgo : (v.mode.mode.isLink && decide (v.mode.bootStep = 0) && !v.mode.fault) = true := by rw [hv]; exact hgo
  refine ⟨v.freezeTrigger 2 0, ?_, ?_⟩
  · refine (s.opRow_takes q (by decide) h : exec (.freeze q d) s = _).trans (congrArg Host.Outcome.next ?_)
    rw [State.opEffect_freeze _ _ _ _ rfl, ← hu, State.opFreeze, if_pos hgo, hv]
    rfl
  · rw [State.freezeTrigger, if_neg (by rw [hvthaw]; decide), if_pos hvgo]
    refine ⟨?_, ?_, rfl, ?_⟩
    · rw [← hst.cq, hv]
    · rw [hv]
    · rw [← hst.now, hv]
      rfl

theorem starting_pend (x : InExec) : ((s.starting q x).hp.rings[q]).pend = (s.hp.rings[q]).pend := by
  by_cases hq : q.val < 16
  · rw [State.starting_spire_ring _ _ _ hq]
  · rw [State.starting_ring_same hq]

theorem barrier_first (h : s.Takes q 0x81 d) (hp : (s.hp.rings[q]).pend = []) :
    ∃ t, exec (.barrier q d) s = .next t ∧ Answered s t q d 0 0 ∧ { t with hp := s.hp } = s :=
  ends_only (by decide) h (by rw [State.opEffect_barrier _ _ _ _ rfl, State.opBarrier, starting_pend, if_pos hp])

theorem barrier_waits (h : s.Takes q 0x81 d) (hp : (s.hp.rings[q]).pend ≠ []) :
    ∃ t, exec (.barrier q d) s = .next t ∧ Accepted s t q 0x81 d ∧ { t with hp := s.hp } = s := by
  refine ⟨_, (s.opRow_takes q (by decide) h : exec (.barrier q d) s = _), ?_⟩
  rw [State.opEffect_barrier _ _ _ _ rfl, State.opBarrier, starting_pend, if_neg hp]
  exact ⟨(Starts.refl s q _).accepted rfl rfl, s.starting_same _⟩

/-- What RING_QUERY tells of a ring is not changed by starting a descriptor. -/
theorem starting_queried (x : InExec) (r : Ring) : let y := (s.starting q x).hp.rings[r]; let z := s.hp.rings[r]
    y.pi = z.pi ∧ y.ci = z.ci ∧ y.halted = z.halted ∧ y.stalled = z.stalled := by
  by_cases hq : q.val < 16
  · rw [State.starting_spire_ring _ _ _ hq]
    exact ⟨rfl, rfl, rfl, rfl⟩
  · by_cases hr : r = q
    · subst hr
      rw [State.starting_ring_same hq]
      exact ⟨rfl, rfl, rfl, rfl⟩
    · rw [State.starting_admin _ _ _ hq]
      have hother : (s.modRing q fun r => { r with exec := some x }).hp.rings[r] = s.hp.rings[r] := upd_other _ _ _ _ hr
      rw [hother]
      exact ⟨rfl, rfl, rfl, rfl⟩

/-- What RING_QUERY tells of a ring (Table 10.8). -/
def State.queried (s : State) (r : Ring) : W64 :=
  BitVec.ofNat 64 ((s.hp.rings[r]).pi + (s.hp.rings[r]).ci * 65536 + bitAt (s.hp.rings[r]).halted 32 + bitAt (s.hp.rings[r]).stalled 33 +
    bitAt (s.ringFull r) 34)

theorem State.opRingQuery_eq (u : State) (q : Ring) (x : InExec) (d : Desc) :
    u.opRingQuery q x d = u.finish q x 0 (u.queried ⟨descLe d 2 1 % 24, Nat.mod_lt _ (by decide)⟩) := rfl

theorem ringQuery_answers (h : s.Takes q 0x82 d) {r : Ring} (hr : r.val = descLe d 2 1) :
    ∃ t, exec (.ringQuery q d) s = .next t ∧ { t with hp := s.hp } = s ∧ Answered s t q d 0
      (BitVec.ofNat 64 ((s.hp.rings[r]).pi + (s.hp.rings[r]).ci * 65536 + bitAt (s.hp.rings[r]).halted 32 +
        bitAt (s.hp.rings[r]).stalled 33 + bitAt (s.ringFull r) 34)) := by
  obtain ⟨u, hu⟩ : ∃ u, u = s.starting q (s.nextExec q 0x82 d) := ⟨_, rfl⟩
  obtain ⟨hpi, hci, hhalt, hstall⟩ := starting_queried (s := s) (q := q) (s.nextExec q 0x82 d) r
  have hsize : u.ringSize r = s.ringSize r := hu ▸ s.starting_eq_hp _ (State.ringSize · r) fun _ _ => rfl
  have hfull : u.ringFull r = s.ringFull r := by
    rw [State.ringFull, State.ringFull, hsize, hu, hpi, hci]
  obtain ⟨t, hexec, hans, ht⟩ := ends_only (q := q) (info := BitVec.ofNat 64 ((s.hp.rings[r]).pi + (s.hp.rings[r]).ci * 65536 +
      bitAt (s.hp.rings[r]).halted 32 + bitAt (s.hp.rings[r]).stalled 33 + bitAt (s.ringFull r) 34)) (by decide) h (by
    have hat : (⟨descLe d 2 1 % 24, Nat.mod_lt _ (by decide)⟩ : Ring) = r := Fin.ext (by
      have := r.isLt
      show descLe d 2 1 % 24 = r.val
      omega)
    rw [State.opEffect_ringQuery _ _ _ _ rfl, State.opRingQuery_eq, hat, State.queried, hpi, hci, hhalt, hstall, ← hu, hfull])
  exact ⟨t, hexec, ht, hans⟩

end Admin

/-- Settles O30. -/
theorem powerModeAndAdminOpcodes : Obligations.PowerModeAndAdminOpcodes := by
  intro s q d
  refine ⟨pwrWrite_chgIn, fun h hw hh => pwrRead_plain h hw hh, buskeepAck_answers, fun h hstart hmove => ⟨?_, ?_, ?_, ?_, ?_⟩, reset_waits,
    fun h => freeze_triggers h, fun h => ends_only (by decide) h (State.opEffect_nop _ _ _ _ rfl),
    fun h => ⟨barrier_first h, barrier_waits h⟩, fun h r => ringQuery_answers h⟩
  · exact fun n hn hk => modeReq_same h hstart hn hk
  · intro hm
    refine ⟨fun hk => ?_, fun hk hkey hres hprog hsrc hbk => ?_, fun hk hkey hres hprog hsrc hbk => ?_, modeReq_standby h hstart hmove hm⟩
    · exact modeReq_moves h hstart hmove (m := .road) (by rw [hm, hk]; decide) (by rw [hm, hk]; rfl) (by decide) (by rw [hm]; rfl) rfl
    · refine modeReq_moves h hstart hmove (m := .field) (by rw [hm, hk]; decide) (by rw [hm, hk]; rfl) (by decide) ?_ rfl
      have hack : (s.inBuskeep && !s.flag R.PACK_STAT_BK_ACK) = false := by
        rcases hbk with hb | hb
        · rw [State.inBuskeep, hb]; rfl
        · rw [hb]; simp
      rw [hm]
      simp only [State.hopCond, hkey, hres, hprog, hsrc, hack]
      rfl
    · have hack : (s.inBuskeep && !s.flag R.PACK_STAT_BK_ACK) = false := by
        rw [State.inBuskeep, hbk]; rfl
      refine modeReq_refused h hstart (by rw [hm, hk]; decide) (c := 1) (by decide) ?_
      have hhops : hopsTo .ready (modeOfCode 3) = [.field] := rfl
      rw [hm, hk, hhops, State.pathCond, State.pathCond, Nat.or_zero]
      simp only [State.hopCond, hkey, hres, hprog, hsrc, hack]
      rfl
  · intro hm
    exact ⟨fun hk => modeReq_moves h hstart hmove (m := .road) (by rw [hm, hk]; decide) (by rw [hm, hk]; rfl) (by decide) (by rw [hm]; rfl) rfl,
      fun hk => modeReq_moves h hstart hmove (m := .ready) (by rw [hm, hk]; decide) (by rw [hm, hk]; rfl) (by decide) (by rw [hm]; rfl) rfl⟩
  · intro hm hk hv
    refine modeReq_moves h hstart hmove (m := .ready) (by rw [hm, hk]; decide) (by rw [hm, hk]; rfl) (by decide) ?_ rfl
    have hslow : s.moving = false := decide_eq_false (by omega)
    rw [hm, State.hopCond, hslow]
    rfl
  · intro hm hk hv
    refine modeReq_refused h hstart (by rw [hm, hk]; decide) (c := 32) (by decide) ?_
    have hfast : s.moving = true := decide_eq_true hv
    have hhops : hopsTo .road (modeOfCode 2) = [.ready] := rfl
    rw [hm, hk, hhops, State.pathCond, State.pathCond, Nat.or_zero, State.hopCond, hfast]
    rfl

end Sys2Proof.Machine
end

section
/-! PROOFS. Converter samples, their FIFOs, and the control sample (R106, R115, R116, R119, R145, R148). -/

namespace Sys2Proof.Machine

section OnCh

variable {s t u : State} {c : Ch} {h h' : Chan}

/-- A state as another one but for one channel, its status word, the engines and what an event writes. -/
structure OnCh (s t : State) (c : Ch) (h : Chan) : Prop where
  ch : t.ch c = h
  other : ∀ k, k ≠ c → t.ch k = s.ch k
  reg : ∀ a, a ≠ R.CH_ENG_STAT c → a ∉ eventRegs → t.reg a = s.reg a
  tick : t.tick = s.tick
  units : t.units = s.units
  die : t.die = s.die

theorem OnCh.refl (s : State) (c : Ch) : OnCh s s c (s.ch c) := ⟨rfl, fun _ _ => rfl, fun _ _ _ => rfl, rfl, rfl, rfl⟩

theorem OnCh.trans (a : OnCh s t c h) (b : OnCh t u c h') : OnCh s u c h' :=
  ⟨b.ch, fun k hk => (b.other k hk).trans (a.other k hk), fun x h1 h2 => (b.reg x h1 h2).trans (a.reg x h1 h2), b.tick.trans a.tick,
    b.units.trans a.units, b.die.trans a.die⟩

theorem OnCh.modCh (a : OnCh s t c h) (f : Chan → Chan) : OnCh s (t.modCh c f) c (f h) :=
  ⟨by rw [State.modCh_ch, if_pos rfl, a.ch], fun k hk => by rw [State.modCh_ch, if_neg hk, a.other k hk], a.reg, a.tick, a.units, a.die⟩

theorem OnCh.modStage (a : OnCh s t c h) (f : Stage → Stage) : OnCh s (t.modStage c f) c { h with stage := f h.stage } :=
  a.modCh fun h => { h with stage := f h.stage }

theorem OnCh.modCnt (a : OnCh s t c h) (f : ChCnt → ChCnt) : OnCh s (t.modCnt c f) c { h with cnt := f h.cnt } :=
  a.modCh fun h => { h with cnt := f h.cnt }

theorem OnCh.latchCh (a : OnCh s t c h) (bit : Nat) : OnCh s (t.latchCh c bit) c h := by
  obtain ⟨v, hv, -⟩ := t.latchCh_eq c bit
  rw [hv]
  exact ⟨a.ch, a.other, a.reg, a.tick, a.units, a.die⟩

theorem OnCh.now (a : OnCh s t c h) : t.now = s.now := by rw [State.now, a.tick, ← State.now]

theorem OnCh.get (a : OnCh s t c h) (f : Fld) (hf : f.addr ≠ R.CH_ENG_STAT c) (he : f.addr ∉ eventRegs) : t.get f = s.get f := by
  rw [State.get, a.reg _ hf he, ← State.get]

/-- The words of a channel's set-up are neither its status nor written by events. -/
theorem engStat_ne {a : Nat} (k c : Ch) (ha : ∃ o, o < 0x80 ∧ o ≠ 0x18 ∧ a = 0x8000 + o + 0x80 * k.val) :
    a ≠ R.CH_ENG_STAT c ∧ a ∉ eventRegs := by
  obtain ⟨o, ho, hne, rfl⟩ := ha
  refine ⟨?_, not_mem_eventRegs_of_high (by omega)⟩
  simp only [R.CH_ENG_STAT]
  omega

theorem stageCfg_ne (k c : Ch) : R.CH_STAGE_CFG k ≠ R.CH_ENG_STAT c ∧ R.CH_STAGE_CFG k ∉ eventRegs :=
  engStat_ne k c ⟨0x48, by decide, by decide, rfl⟩

theorem engCtrl_ne (k c : Ch) : R.CH_ENG_CTRL k ≠ R.CH_ENG_STAT c ∧ R.CH_ENG_CTRL k ∉ eventRegs :=
  engStat_ne k c ⟨0x14, by decide, by decide, rfl⟩

theorem OnCh.ownTopo (a : OnCh s t c h) (k : Ch) : t.ownTopo k = s.ownTopo k := a.get _ (stageCfg_ne k c).1 (stageCfg_ne k c).2

theorem OnCh.leadOf (a : OnCh s t c h) (k : Ch) : t.leadOf k = s.leadOf k := by simp only [State.leadOf, a.ownTopo]

theorem OnCh.topoOf (a : OnCh s t c h) (k : Ch) : t.topoOf k = s.topoOf k := by rw [State.topoOf, a.leadOf, a.ownTopo, ← State.topoOf]

theorem OnCh.isMember (a : OnCh s t c h) (k : Ch) : t.isMember k = s.isMember k := by rw [State.isMember, a.leadOf, ← State.isMember]

theorem OnCh.dieHot (a : OnCh s t c h) (k : Ch) : t.dieHot k = s.dieHot k := by rw [State.dieHot, a.die, ← State.dieHot]

theorem OnCh.groupOf (a : OnCh s t c h) (k : Ch) : t.groupOf k = s.groupOf k := by rw [State.groupOf, a.topoOf, ← State.groupOf]

theorem OnCh.ctrl (a : OnCh s t c h) (f : Fld) (hf : f.addr = R.CH_ENG_CTRL c) : t.flag f = s.flag f := by
  have hne := engCtrl_ne c c
  rw [State.flag, a.get f (hf ▸ hne.1) (hf ▸ hne.2), ← State.flag]

theorem State.strmOverflow_onCh (a : OnCh s t c h) : OnCh s (t.strmOverflow c) c h := by
  rw [State.strmOverflow]
  refine ⟨?_, fun k hk => ?_, fun x hx he => ?_, ?_, ?_, ?_⟩
  · rw [State.ch, State.raiseLimited_chan]
    exact a.ch
  · rw [State.ch, State.raiseLimited_chan]
    exact a.other k hk
  · rw [State.raiseLimited_reg _ _ _ _ _ _ _ he, State.reg_putFlag_far (h := hx), a.reg x hx he]
  · rw [State.raiseLimited_tick]
    exact a.tick
  · rw [State.raiseLimited_units]
    exact a.units
  · rw [State.raiseLimited_die]
    exact a.die

/-- A list with another entry where its FIFO is on and has room (R145). -/
def fifoPut (on : Bool) (room : Nat) (l : List W32) (w : W32) : List W32 := if on = true ∧ l.length < room then l ++ [w] else l

theorem OnCh.pushIstrm (a : OnCh s t c h) (w : W32) :
    OnCh s (t.pushIstrm c w) c { h with istrm := fifoPut (s.flag (R.CH_ENG_CTRL_ISTRM_EN c)) 64 h.istrm w } := by
  have hflag := a.ctrl (R.CH_ENG_CTRL_ISTRM_EN c) rfl
  rw [State.pushIstrm, hflag, a.ch, fifoPut]
  by_cases hon : s.flag (R.CH_ENG_CTRL_ISTRM_EN c) = true
  · rw [if_pos hon]
    by_cases hroom : h.istrm.length < 64
    · rw [if_pos hroom, if_pos (c := _ ∧ _) ⟨hon, hroom⟩]
      have hput := a.modCh fun h => { h with istrm := h.istrm ++ [w] }
      dsimp only
      split
      · exact hput.latchCh 1
      · exact hput
    · rw [if_neg hroom, if_neg fun hb => hroom hb.2]
      exact State.strmOverflow_onCh a
  · rw [if_neg hon, if_neg fun hb => hon hb.1]
    exact a

theorem OnCh.pushVstrm (a : OnCh s t c h) (w : W32) :
    OnCh s (t.pushVstrm c w) c { h with vstrm := fifoPut (s.flag (R.CH_ENG_CTRL_VSTRM_EN c)) 16 h.vstrm w } := by
  have hflag := a.ctrl (R.CH_ENG_CTRL_VSTRM_EN c) rfl
  rw [State.pushVstrm, hflag, a.ch, fifoPut]
  by_cases hon : s.flag (R.CH_ENG_CTRL_VSTRM_EN c) = true
  · rw [if_pos hon]
    by_cases hroom : h.vstrm.length < 16
    · rw [if_pos hroom, if_pos ⟨hon, hroom⟩]
      exact a.modCh fun h => { h with vstrm := h.vstrm ++ [w] }
    · rw [if_neg hroom, if_neg fun hb => hroom hb.2]
      exact State.strmOverflow_onCh a
  · rw [if_neg hon, if_neg fun hb => hon hb.1]
    exact a

theorem OnCh.pushSnse (a : OnCh s t c h) (w : W32) : OnCh s (t.pushSnse c w) c { h with snse := fifoPut true 8 h.snse w } := by
  rw [State.pushSnse, a.ch, fifoPut]
  by_cases hroom : h.snse.length < 8
  · rw [if_pos hroom, if_pos ⟨rfl, hroom⟩]
    exact (a.modCh fun h => { h with snse := h.snse ++ [w] }).latchCh 2
  · rw [if_neg hroom, if_neg fun hb => hroom hb.2]
    exact State.strmOverflow_onCh a

end OnCh

section Sample

variable {s t : State} {c : Ch} {h : Chan}

theorem State.modCh_congr {f g : Chan → Chan} (h : f (t.ch c) = g (t.ch c)) : t.modCh c f = t.modCh c g := by
  have hupd : upd t.chan c f = upd t.chan c g := by
    rw [upd, upd]
    exact congrArg (fun x => t.chan.set c x) h
  rw [State.modCh, hupd, ← State.modCh]

/-- A stage with a result of its current converter in a fixed range. -/
def Stage.sampled (g : Stage) (high : Bool) (ua : Int) (now run lrun : Nat) (last : List Int) : Stage :=
  { g with highRange := high, rangeDue := none, lowRun := lrun, iLast := last, iRun := run, iAt := some now, iNow := ua, mark := false,
           overRange := false }

theorem State.currentResult_fixed {high : Bool} (hfix : t.fixedRange c = some high) {code : Int} (hcode : code.natAbs ≤ 8191) :
    ∃ run lrun last, t.currentResult c code =
      t.modStage c fun g => g.sampled high (roundDiv (code * 15625) (if high then 8 else 64)) t.now run lrun last := by
  have hclamp : clampI (-8191) 8191 code = code := by
    rw [clampI]
    omega
  have hovr : decide (code < -8191 ∨ 8191 < code) = false := by
    rw [decide_eq_false_iff_not]
    omega
  refine ⟨min 2 ((t.ch c).stage.iRun + 1), if high && code.natAbs ≤ 768 then (t.ch c).stage.lowRun + 1 else 0,
    (roundDiv (code * 15625) (if high then 8 else 64) :: (t.ch c).stage.iLast).take 2, ?_⟩
  rw [State.currentResult]
  simp only [hfix, Option.isNone_some, Option.isSome_some, Bool.false_and, Bool.not_false, Bool.true_and, Bool.false_eq_true, if_false, if_true,
    hclamp, hovr, codeUa, Bool.and_true, Option.isNone_none]
  rw [State.modStage, State.modStage]
  refine State.modCh_congr ?_
  rfl

/-- A stage with its peak budget brought up to a tick (R123). -/
def Stage.budgeted (g : Stage) (now : Nat) (ovr : Bool) : Stage :=
  { g with budget := budgetAfter g.budget (now - g.budgetAt) ovr, budgetAt := now }

theorem not_gang : isGang 0 = false := by decide

/-- A grid sample of a single channel whose range is fixed (R115 to R117, R145). -/
theorem OnCh.gridSample (a : OnCh s t c h) (hlead : s.leadOf c = c) (htopo : s.topoOf c = 0) {high : Bool}
    (hfix : t.fixedRange c = some high) {code : Int} (hcode : code.natAbs ≤ 8191) (inst : Bool) :
    ∃ run lrun last budget, OnCh s (t.gridSample c code inst) c
      { h with stage := { h.stage.sampled high (roundDiv (code * 15625) (if high then 8 else 64)) s.now run lrun last with
                            budget := budget, budgetAt := s.now },
               istrm := fifoPut (s.flag (R.CH_ENG_CTRL_ISTRM_EN c)) 64 h.istrm
                (istrmWord (roundDiv (code * 15625) (if high then 8 else 64)) false high false false inst) } := by
  obtain ⟨run, lrun, last, hcur⟩ := State.currentResult_fixed hfix hcode
  obtain ⟨v, hv⟩ : ∃ v, v = t.currentResult c code := ⟨_, rfl⟩
  have hva := a.modStage fun g => g.sampled high (roundDiv (code * 15625) (if high then 8 else 64)) t.now run lrun last
  rw [← hcur, ← hv, a.now] at hva
  have hword : v.streamEntry c inst = v.pushIstrm c (istrmWord (roundDiv (code * 15625) (if high then 8 else 64)) false high false false inst) := by
    rw [State.streamEntry, if_pos ((hva.leadOf c).trans hlead)]
    simp only [State.groupUa, State.groupFlag, hva.topoOf, htopo, not_gang, Bool.false_eq_true, if_false, hva.ch]
    rfl
  have hpush := hva.pushIstrm (istrmWord (roundDiv (code * 15625) (if high then 8 else 64)) false high false false inst)
  obtain ⟨w, hw⟩ : ∃ w, w = v.streamEntry c inst := ⟨_, rfl⟩
  rw [← hword, ← hw] at hpush
  have hgrid : t.gridSample c code inst = w.budgetStep c := by
    rw [State.gridSample, ← hv, ← hw, if_pos ((hpush.leadOf c).trans hlead)]
  refine ⟨run, lrun, last, budgetAfter h.stage.budget (w.now - h.stage.budgetAt) (decide (w.contRating c * 1000 < (w.groupUa c).natAbs)), ?_⟩
  have hbud := hpush.modStage fun g => g.budgeted w.now (decide (w.contRating c * 1000 < (w.groupUa c).natAbs))
  rw [hgrid, State.budgetStep]
  rw [hpush.now] at hbud
  rw [hpush.now]
  exact hbud

theorem State.groupOf_single (htopo : s.topoOf c = 0) : s.groupOf c = [c] := by
  have hn : (if (0 : Nat) = topoGANG4 then 4 else if (0 : Nat) = 0 then 1 else 2) = 1 := by decide
  rw [State.groupOf, htopo, hn]
  simp

theorem State.resultDue_of (hclk : s.clockOn = true) (hdie : s.dieHot c = false) (hlead : s.leadOf c = c) {last meas : Option Nat} {step : Nat}
    (h : (last ≠ some s.now ∧ (∃ t, (s.ch c).stage.phase = some t ∧ t ≤ s.now ∧ (s.now - t) % step = 0) ∧
      ∀ n, s.nextInstant c = some n → n ≤ s.now ∨ s.now + step ≤ n) ∨ meas ≠ none) : s.resultDue c last meas step = true := by
  simp only [State.resultDue, State.converting, hclk, hdie, hlead, Bool.not_false, Bool.true_and, Bool.or_eq_true, Bool.and_true]
  rcases h with ⟨hlast, ⟨t, ht, hle, hmod⟩, hnext⟩ | hmeas
  · right
    have hn : (match s.nextInstant c with | some n => !(decide (s.now < n) && decide (n < s.now + step)) | none => true) = true := by
      cases hi : s.nextInstant c with
      | none => rfl
      | some n =>
        have hor := hnext n hi
        simp only [Bool.not_eq_true', Bool.and_eq_false_iff, decide_eq_false_iff_not]
        omega
    have hl : (last != some s.now) = true := by simpa using hlast
    simp only [onGrid, ht, hl, decide_eq_true hle, decide_eq_true hmod, Bool.true_and]
    exact hn
  · left
    exact Option.isSome_iff_ne_none.2 hmeas

theorem State.resultDue_off (hlead : s.leadOf c = c) {last : Option Nat} {step : Nat}
    (h : ∃ t, (s.ch c).stage.phase = some t ∧ t ≤ s.now ∧ (s.now - t) % step ≠ 0) : s.resultDue c last none step = false := by
  obtain ⟨t, ht, hle, hmod⟩ := h
  simp only [State.resultDue, hlead, onGrid, ht, decide_eq_false hmod, Option.isSome_none, Bool.and_false, Bool.false_and, Bool.false_or]

theorem OnCh.voltResult (a : OnCh s t c h) (hlead : s.leadOf c = c) (code : BitVec 12) (inst : Bool) :
    OnCh s (t.voltResult c code inst) c
      { h with stage := { h.stage with vNow := codeMv code, vAt := some s.now },
               vstrm := fifoPut (s.flag (R.CH_ENG_CTRL_VSTRM_EN c)) 16 h.vstrm (vstrmWord (codeMv code) inst) } := by
  have hva := a.modStage fun g => { g with vNow := codeMv code, vAt := some t.now }
  have hown : s.isMember c = false := by simp [State.isMember, hlead]
  rw [a.now] at hva
  rw [State.voltResult, a.now]
  refine (if_neg (c := _ = true) ?_ : _ = _) ▸ hva.pushVstrm (vstrmWord (codeMv code) inst)
  rw [hva.isMember, hown]
  decide

theorem OnCh.snsConvert (a : OnCh s t c h) (mv ldo : Nat) : ∃ v, OnCh s (t.snsConvert c mv ldo) c { h with stage := { h.stage with snsVal := v } } := by
  have hput (v : Nat) : ∃ w, OnCh s (t.modStage c fun g => { g with snsVal := BitVec.ofNat 17 v }) c { h with stage := { h.stage with snsVal := w } } :=
    ⟨_, a.modStage fun g => { g with snsVal := BitVec.ofNat 17 v }⟩
  unfold State.snsConvert
  dsimp only
  split
  · exact hput _
  · exact hput _
  · exact hput _
  · exact ⟨h.stage.snsVal, a⟩
  · exact ⟨h.stage.snsVal, a⟩
  · exact hput _

theorem currentSample_due (hlead : s.leadOf c = c) (htopo : s.topoOf c = 0)
    {high : Bool} {code : Int} (hfix : s.fixedRange c = some high) (hcode : code.natAbs ≤ 8191)
    (hdue : s.resultDue c (s.ch c).stage.iAt (s.ch c).measI 50 = true) :
    ∃ t, exec (.currentSample c code) s = .next t ∧ (t.ch c).stage.iNow = roundDiv (code * 15625) (if high then 8 else 64) ∧
      (t.ch c).stage.highRange = high ∧ (t.ch c).stage.mark = false ∧ (t.ch c).stage.on = (s.ch c).stage.on ∧
      (∀ k, k ≠ c → t.ch k = s.ch k) ∧ (t.ch c).istrm = fifoPut (s.flag (R.CH_ENG_CTRL_ISTRM_EN c)) 64 (s.ch c).istrm
        (istrmWord (roundDiv (code * 15625) (if high then 8 else 64)) false high false false false) := by
  obtain ⟨run, lrun, last, budget, hgrid⟩ := (OnCh.refl s c).gridSample hlead htopo hfix hcode false
  have hend := hgrid.modCh fun h => { h with measI := none }
  refine ⟨_, (if_pos hdue : exec (.currentSample c code) s = _), ?_⟩
  rw [hend.ch]
  exact ⟨rfl, rfl, rfl, rfl, hend.other, rfl⟩

theorem voltageSample_due (hlead : s.leadOf c = c) (code : BitVec 12) (hdue : s.resultDue c (s.ch c).stage.vAt (s.ch c).measV 200 = true) :
    ∃ t, exec (.voltageSample c code) s = .next t ∧ (t.ch c).stage.vNow = -16400 + 20 * (code.toNat : Int) ∧ (t.ch c).istrm = (s.ch c).istrm ∧
      (∀ k, k ≠ c → t.ch k = s.ch k) ∧ (t.ch c).vstrm = fifoPut (s.flag (R.CH_ENG_CTRL_VSTRM_EN c)) 16 (s.ch c).vstrm
        (vstrmWord (-16400 + 20 * (code.toNat : Int)) false) := by
  have hend := ((OnCh.refl s c).voltResult hlead code false).modCh fun h => { h with measV := none }
  refine ⟨_, (if_pos hdue : exec (.voltageSample c code) s = _), ?_⟩
  rw [hend.ch]
  exact ⟨rfl, rfl, hend.other, rfl⟩

/-- A rising level of a digital SNS input is counted and stamped (R119, R120). -/
theorem snsEdge_rises (hclk : s.clockOn = true) (hdie : s.dieHot c = false) (hlead : s.leadOf c = c)
    (hsns : s.get (R.CH_STAGE_CFG_SNS c) = 4 ∨ s.get (R.CH_STAGE_CFG_SNS c) = 5) (hlow : (s.ch c).stage.snsVal.toNat < 65536) :
    ∃ t, exec (.snsEdge c true) s = .next t ∧
      (t.ch c).stage.snsVal = BitVec.ofNat 17 (((s.ch c).stage.snsVal.toNat + 1) % 65536 + 65536) ∧
      (t.ch c).snse = fifoPut true 8 (s.ch c).snse (BitVec.ofNat 32 ((s.now - s.get (R.CH_SNS_CFG_FILT c)) % 2 ^ 31 + 2 ^ 31)) := by
  obtain ⟨stamp, hstamp⟩ : ∃ w, w = BitVec.ofNat 32 ((s.now - s.get (R.CH_SNS_CFG_FILT c)) % 2 ^ 31 + 2 ^ 31) := ⟨_, rfl⟩
  have hdig : s.snsDigital c = true := by
    rcases hsns with hs | hs <;> simp [State.snsDigital, hs]
  have hown : s.isMember c = false := by simp [State.isMember, hlead]
  have hmod : (s.ch c).stage.snsVal.toNat % 65536 = (s.ch c).stage.snsVal.toNat := Nat.mod_eq_of_lt hlow
  have hend := ((OnCh.refl s c).modStage fun g =>
    { g with snsVal := BitVec.ofNat 17 (((s.ch c).stage.snsVal.toNat + 1) % 65536 + 65536) }).pushSnse stamp
  have hexec : exec (.snsEdge c true) s = .next ((s.modStage c fun g =>
      { g with snsVal := BitVec.ofNat 17 (((s.ch c).stage.snsVal.toNat + 1) % 65536 + 65536) }).pushSnse c stamp) := by
    rw [exec_snsEdge, execSnsEdge, if_pos (by simp [State.converting, hclk, hdie, hdig, hlow])]
    simp only [Bool.true_or, if_true, hmod, Bool.true_and]
    rw [if_pos]
    · rw [hstamp]
      rfl
    · exact (congrArg (!·) hown :)
  refine ⟨_, hexec, ?_⟩
  rw [hend.ch, ← hstamp]
  exact ⟨rfl, rfl⟩

end Sample

section Instant

variable {s t : State} {c : Ch} {h : Chan}

theorem OnCh.fixedRange (a : OnCh s t c h) (hheld : h.stage.held = (s.ch c).stage.held) : t.fixedRange c = s.fixedRange c := by
  have hget := a.get (R.CH_STAGE_CFG_RANGE c) (stageCfg_ne c c).1 (stageCfg_ne c c).2
  rw [State.fixedRange, State.acting, a.ch, hheld, hget, ← State.acting, ← State.fixedRange]

/-- A stage with another on-time in effect (R107). -/
def Stage.driven (g : Stage) (valley : Bool) (x : Int) : Stage := { g with on := x, rise := if valley then x else g.rise }

theorem State.putOn_single (htopo : t.topoOf c = 0) (valley : Bool) : ∃ f : Stage → Int, t.putOn c valley = t.modStage c fun g => g.driven valley (f g) := by
  refine ⟨fun g => t.memberOn c (if valley then t.pwmP c else t.acting c (R.CH_PWM_PERIOD c)) (t.effectiveOn c) g.trim, ?_⟩
  rw [State.putOn, State.groupOf_single htopo]
  rfl

theorem OnCh.putOn (a : OnCh s t c h) (htopo : s.topoOf c = 0) (valley : Bool) : ∃ on rise, OnCh s (t.putOn c valley) c
    { h with stage := { h.stage with on := on, rise := rise } } := by
  obtain ⟨f, hf⟩ := State.putOn_single (c := c) ((a.topoOf c).trans htopo) valley
  rw [hf]
  exact ⟨_, _, a.modStage fun g => g.driven valley (f g)⟩

/-- The last command is taken where the channel waits for its first sample instant. -/
theorem OnCh.restartAt (a : OnCh s t c h) (htopo : s.topoOf c = 0) (n : Nat) : ∃ g k, OnCh s (t.restartAt c n) c { h with stage := g, cnt := k } ∧
    g.iNow = h.stage.iNow ∧ g.vNow = h.stage.vNow ∧ (h.stage.waitSample = false → g.on = h.stage.on) ∧
    ∀ d, h.stage.waitSample = true → h.stage.pend = some d → g.cmdOn = d.on ∧ g.pend = none := by
  rw [State.restartAt, a.ch]
  by_cases hw : h.stage.waitSample = true
  · rw [if_pos hw]
    cases hp : h.stage.pend with
    | none =>
      obtain ⟨on, rise, hput⟩ := a.putOn htopo true
      exact ⟨_, _, hput, rfl, rfl, fun hf => absurd (hw.symm.trans hf) (by decide), fun d _ hd => nomatch hd⟩
    | some d =>
      obtain ⟨on, rise, hput⟩ := ((a.modCnt _).modStage fun g => { g with pend := none, cmdOn := d.on, report := some (n, true, d) }).putOn htopo true
      refine ⟨_, _, hput, rfl, rfl, fun hf => absurd (hw.symm.trans hf) (by decide), fun e _ he => ?_⟩
      injection he with he
      subst he
      exact ⟨rfl, rfl⟩
  · rw [if_neg hw]
    exact ⟨_, _, a, rfl, rfl, fun _ => rfl, fun _ ht => absurd ht hw⟩

theorem OnCh.openClear (a : OnCh s t c h) : ∃ b n, OnCh s (t.openClear c) c { h with stage := { h.stage with openLoad := b, openRun := n } } := by
  unfold State.openClear
  split
  · exact ⟨_, _, a.modStage _⟩
  · exact ⟨h.stage.openLoad, h.stage.openRun, a⟩

/-- The results of a lead at its sample instant (R106, R148). -/
def State.leadResults (s : State) (c : Ch) (x : SampleIn) : State :=
  ((s.gridSample c x.iCode true).voltResult c x.vCode true).snsConvert c x.snsMv x.ldoMv

/-- The sample that becomes the record of a lead at its next latch (R148). -/
def State.leadSample (s : State) (c : Ch) (n : Nat) : Smp :=
  { i := s.groupUa c, v := (s.ch c).stage.vNow, sns := (s.ch c).stage.snsVal, mark := s.groupFlag c (·.mark),
    high := s.groupFlag c (·.highRange), overRange := s.groupFlag c (·.overRange), tick := n, onAt := (s.ch c).stage.on }

/-- A sample instant of a group with the given followers (R106, R110). -/
def State.instantWith (s : State) (c : Ch) (x : SampleIn) (n : Nat) (mems : List (Ch × MemberIn)) : State :=
  let s := forAll mems (fun m t => t.memberResult m.1 m.2 x.ldoMv) s
  let s := if s.dieHot c then s else s.leadResults c x
  let s := forAll (mems.filter fun m => !s.dieHot m.1) (fun m t => t.streamEntry m.1 true) s
  let s := (forAll (s.groupOf c) (State.atInstant n) (s.restartAt c n)).openClear c
  s.modCh c fun h => { h with smpNext := s.leadSample c n }

theorem controlSampleInstant_eq {n : Nat} {x : SampleIn} (hclk : s.clockOn = true) (hi : (s.ch c).instant = some n) (hn : n ≤ s.now)
    (htopo : s.topoOf c = 0) : exec (.controlSampleInstant c x) s =
      .next ((s.modCh c fun h => { h with instant := none, latchDue := some (n + 60) }).instantWith c x n []) := by
  have hmems : ((s.modCh c fun h => { h with instant := none, latchDue := some (n + 60) }).groupOf c).tail.zip x.members = [] := by
    have hgroup : (s.modCh c fun h => { h with instant := none, latchDue := some (n + 60) }).groupOf c = [c] := State.groupOf_single htopo
    rw [hgroup]
    rfl
  have hgo : (s.clockOn && decide (n ≤ s.now)) = true := by simp [hclk, hn]
  rw [← hmems, exec_controlSampleInstant, execControlSampleInstant, hi]
  exact if_pos hgo

theorem State.instantWith_single {n : Nat} {x : SampleIn} (hdie : s.dieHot c = false) (hgroup : (s.leadResults c x).groupOf c = [c]) :
    ∃ w, w = (State.atInstant n c ((s.leadResults c x).restartAt c n)).openClear c ∧
      s.instantWith c x n [] = w.modCh c fun h => { h with smpNext := w.leadSample c n } := by
  refine ⟨_, rfl, ?_⟩
  have hforAll (v : State) : forAll [c] (State.atInstant n) v = State.atInstant n c v := rfl
  have hnil (f : Ch × MemberIn → State → State) (v : State) : forAll [] f v = v := rfl
  simp only [State.instantWith, hnil, List.filter_nil, hdie, Bool.false_eq_true, if_false, hgroup, hforAll]

theorem OnCh.leadResults (a : OnCh s t c h) (hlead : s.leadOf c = c) (htopo : s.topoOf c = 0) {high : Bool}
    (hfix : t.fixedRange c = some high) {x : SampleIn} (hcode : x.iCode.natAbs ≤ 8191) :
    ∃ k, OnCh s (t.leadResults c x) c k ∧ (k.instant = h.instant ∧ k.latchDue = h.latchDue ∧ k.smp = h.smp) ∧
      k.stage.iNow = roundDiv (x.iCode * 15625) (if high then 8 else 64) ∧ k.stage.vNow = codeMv x.vCode ∧
      k.stage.waitSample = h.stage.waitSample ∧ k.stage.pend = h.stage.pend ∧ k.stage.on = h.stage.on := by
  obtain ⟨run, lrun, last, budget, h1⟩ := a.gridSample hlead htopo hfix hcode true
  obtain ⟨sns, h2⟩ := (h1.voltResult hlead x.vCode true).snsConvert x.snsMv x.ldoMv
  exact ⟨_, h2, ⟨rfl, rfl, rfl⟩, rfl, rfl, rfl, rfl, rfl⟩

/-- What a sample instant leaves of a lead whose results are in. -/
theorem OnCh.instant (a : OnCh s t c h) (htopo : s.topoOf c = 0) (n : Nat) :
    ∃ k, OnCh s ((State.atInstant n c (t.restartAt c n)).openClear c) c k ∧ (k.instant = h.instant ∧ k.latchDue = h.latchDue ∧ k.smp = h.smp) ∧
      k.stage.iNow = h.stage.iNow ∧ k.stage.vNow = h.stage.vNow ∧ k.stage.waitSample = false ∧ k.stage.phase = some n ∧
      (h.stage.waitSample = false → k.stage.on = h.stage.on) ∧
      ∀ d, h.stage.waitSample = true → h.stage.pend = some d → k.stage.cmdOn = d.on ∧ k.stage.pend = none := by
  obtain ⟨g, k, h3, hi3, hv3, hon3, hcmd3⟩ := a.restartAt htopo n
  have h4 := h3.modStage fun g => { g with waitSample := false, linkSafe := if g.waitSample then false else g.linkSafe, holdRef := (t.restartAt c n).holdReference c, phase := some n }
  obtain ⟨b, r, h5⟩ := h4.openClear
  exact ⟨_, h5, ⟨rfl, rfl, rfl⟩, hi3, hv3, rfl, rfl, hon3, hcmd3⟩

theorem controlSample_taken {n : Nat} {high : Bool} {x : SampleIn} (hclk : s.clockOn = true) (hdie : s.dieHot c = false)
    (hlead : s.leadOf c = c) (htopo : s.topoOf c = 0) (hi : (s.ch c).instant = some n) (hn : n ≤ s.now) (hfix : s.fixedRange c = some high)
    (hcode : x.iCode.natAbs ≤ 8191) :
    ∃ t, exec (.controlSampleInstant c x) s = .next t ∧ (t.ch c).instant = none ∧ (t.ch c).latchDue = some (n + 60) ∧
      (t.ch c).smpNext.i = roundDiv (x.iCode * 15625) (if high then 8 else 64) ∧
      (t.ch c).smpNext.v = -16400 + 20 * (x.vCode.toNat : Int) ∧
      (t.ch c).smpNext.tick = n ∧ (t.ch c).smpNext.onAt = (t.ch c).stage.on ∧ (t.ch c).stage.waitSample = false ∧
      (t.ch c).stage.phase = some n ∧ (t.ch c).smp = (s.ch c).smp ∧
      ((s.ch c).stage.waitSample = false → (t.ch c).stage.on = (s.ch c).stage.on) ∧
      (∀ d, (s.ch c).stage.waitSample = true → (s.ch c).stage.pend = some d → (t.ch c).stage.cmdOn = d.on ∧ (t.ch c).stage.pend = none) := by
  refine ⟨_, controlSampleInstant_eq hclk hi hn htopo, ?_⟩
  obtain ⟨u, hu⟩ : ∃ u, u = s.modCh c fun h => { h with instant := none, latchDue := some (n + 60) } := ⟨_, rfl⟩
  have h0 := (OnCh.refl s c).modCh fun h => { h with instant := none, latchDue := some (n + 60) }
  rw [← hu] at h0
  obtain ⟨h1, h1on, ⟨hinst1, hdue1, hsmp1⟩, hi1, hv1, hwait1, hpend1, hon1⟩ := h0.leadResults hlead htopo ((h0.fixedRange rfl).trans hfix) hcode
  obtain ⟨w, hw, hend⟩ := State.instantWith_single (n := n) ((h0.dieHot c).trans hdie) ((h1on.groupOf c).trans (State.groupOf_single htopo))
  obtain ⟨h2, h2on, ⟨hinst2, hdue2, hsmp2⟩, hi2, hv2, hwait2, hphase2, hon2, hcmd2⟩ := h1on.instant htopo n
  rw [← hw] at h2on
  have h3 := h2on.modCh fun h => { h with smpNext := w.leadSample c n }
  rw [← hu, hend, h3.ch]
  refine ⟨hinst2.trans hinst1, hdue2.trans hdue1, ?_, ?_, rfl, ?_, hwait2, hphase2, hsmp2.trans hsmp1, fun hf => ?_, fun d hw hp => ?_⟩
  · refine Eq.trans ?_ (hi2.trans hi1)
    have hua : w.groupUa c = (w.ch c).stage.iNow := by
      rw [State.groupUa, h2on.topoOf, htopo, not_gang, if_neg (by decide)]
    rw [← h2on.ch, ← hua]
    rfl
  · refine Eq.trans ?_ (hv2.trans hv1)
    rw [← h2on.ch]
    rfl
  · rw [← h2on.ch]
    rfl
  · exact (hon2 (hwait1.trans hf)).trans hon1
  · exact hcmd2 d (hwait1.trans hw) (hpend1.trans hp)

/-- A channel whose latest sample has become its record (R148). -/
def Chan.latched (h : Chan) (owes lost : Bool) (e : Int) : Chan :=
  let smp : Smp := { h.smpNext with seq := h.smp.seq + 1, lost := lost, dly := h.smp.dly, dlySeq := h.smp.dlySeq }
  { h with latchDue := none, dueOpen := owes, dueMet := false, smp := smp, cnt := { h.cnt with energy := h.cnt.energy + e } }

/-- The record is latched 60 ticks after the instant, with SAMPLE in the engine in control (R148). -/
theorem sampleEventLatch_latches {n : Nat} {e : Eng} (hclk : s.clockOn = true) (hdue : (s.ch c).latchDue = some n) (hn : n ≤ s.now)
    (hctl : (s.ch c).ctl = some e) (htake : (s.ch c).takeover = none) :
    ∃ t, exec (.sampleEventLatch c) s = .next t ∧ t.eng[e] = { s.eng[e] with pend := s.eng[e].pend ||| 1 } ∧
      (∀ k : Eng, k ≠ e → t.eng[k] = s.eng[k]) ∧ (t.ch c).latchDue = none ∧ (t.ch c).dueMet = false ∧
      (t.ch c).smp = { (s.ch c).smpNext with seq := (s.ch c).smp.seq + 1, lost := s.eng[e].pend.getLsbD 0, dly := (s.ch c).smp.dly,
                                             dlySeq := (s.ch c).smp.dlySeq } ∧
      t.regs = s.regs := by
  have hgo : (s.clockOn && decide (n ≤ s.now)) = true := by simp [hclk, hn]
  obtain ⟨owes, howes⟩ : ∃ b, b = (s.flag (R.CH_ENG_CTRL_RUN c) && (s.ch c).ctl.any (fun e => !(s.eng[e]).halted) && (s.ch c).takeover.isNone) :=
    ⟨_, rfl⟩
  obtain ⟨f, hf⟩ : ∃ f : Chan → Chan, f = fun h => h.latched owes (s.eng[e].pend.getLsbD 0) (s.sampleEnergy c) := ⟨_, rfl⟩
  have hch : (s.modCh c f).ch c = f (s.ch c) := by rw [State.modCh_ch, if_pos rfl]
  have hexec : exec (.sampleEventLatch c) s = .next ((s.modCh c f).latchEng e 0) := by
    have hlatch : (s.modCh c f).latchCh c 0 = (s.modCh c f).latchEng e 0 := by
      have hc : (f (s.ch c)).ctl = some e := by rw [hf]; exact hctl
      have ht : (f (s.ch c)).takeover.isNone = true := by rw [hf]; exact htake ▸ rfl
      rw [State.latchCh, hch, hc]
      exact if_pos ht
    rw [← hlatch, hf, howes, exec_sampleEventLatch, execSampleEventLatch, hdue]
    dsimp only
    rw [if_pos hgo, hctl]
    rfl
  refine ⟨_, hexec, State.modEng_eng_same .., fun k hk => State.modEng_eng_other _ _ _ _ hk, ?_⟩
  have hlch : ((s.modCh c f).latchEng e 0).ch c = f (s.ch c) := hch
  rw [hlch, hf]
  exact ⟨rfl, rfl, rfl, rfl⟩

end Instant

/-- Settles O31: each result is followed to the fields of its channel by `OnCh`. -/
theorem convertersAndControlSamples : Obligations.ConvertersAndControlSamples := by
  intro s c hclk hdie hlead htopo
  refine ⟨fun high code hfix hcode hgrid => ?_, fun code hoff hmeas => ?_, fun code hoff hmeas => ?_, fun code hgrid => ?_,
    fun hsns hlow => ?_, fun n high x hi hn hfix hcode => ?_, fun n e hdue hn hctl htake => ?_⟩
  · exact currentSample_due hlead htopo hfix hcode (State.resultDue_of hclk hdie hlead hgrid)
  · have hno := State.resultDue_off (last := (s.ch c).stage.iAt) hlead hoff
    rw [← hmeas] at hno
    exact (if_neg (by rw [hno]; decide) : exec (.currentSample c code) s = _)
  · have hno := State.resultDue_off (last := (s.ch c).stage.vAt) hlead hoff
    rw [← hmeas] at hno
    exact (if_neg (by rw [hno]; decide) : exec (.voltageSample c code) s = _)
  · exact voltageSample_due hlead code (State.resultDue_of hclk hdie hlead hgrid)
  · exact snsEdge_rises hclk hdie hlead hsns hlow
  · exact controlSample_taken hclk hdie hlead htopo hi hn hfix hcode
  · exact sampleEventLatch_latches hclk hdue hn hctl htake

end Sys2Proof.Machine
end

section
/-! PROOFS. Update points, the current limit, the peak budget, hiccup and open load of a power stage (R107, R108, R112, R121 to R125). -/

namespace Sys2Proof.Machine

section WithCh

variable {s : State} {c : Ch} {h : Chan}

/-- The state with another channel `c`. -/
def State.withCh (s : State) (c : Ch) (h : Chan) : State := s.modCh c fun _ => h

theorem State.withCh_same (s : State) (c : Ch) : s.withCh c (s.ch c) = s :=
  congrArg (fun v : Vector Chan 256 => { s with chan := v }) (upd_eq_self rfl)

theorem State.withCh_ch (s : State) (c : Ch) (h : Chan) : (s.withCh c h).ch c = h := by rw [withCh, modCh_ch, if_pos rfl]

theorem State.withCh_other (s : State) (c : Ch) (h : Chan) {k : Ch} (hk : k ≠ c) : (s.withCh c h).ch k = s.ch k := by
  rw [withCh, modCh_ch, if_neg hk]

theorem State.withCh_modCh (s : State) (c : Ch) (h : Chan) (f : Chan → Chan) : (s.withCh c h).modCh c f = s.withCh c (f h) :=
  congrArg (fun v : Vector Chan 256 => { s with chan := v }) (upd_upd ..)

theorem State.withCh_modStage (s : State) (c : Ch) (h : Chan) (f : Stage → Stage) :
    (s.withCh c h).modStage c f = s.withCh c { h with stage := f h.stage } := s.withCh_modCh c h _

theorem State.withCh_modCnt (s : State) (c : Ch) (h : Chan) (f : ChCnt → ChCnt) :
    (s.withCh c h).modCnt c f = s.withCh c { h with cnt := f h.cnt } := s.withCh_modCh c h _

theorem State.withCh_groupOf (htopo : s.topoOf c = 0) (h : Chan) : (s.withCh c h).groupOf c = [c] := State.groupOf_single htopo

/-- A sweep over the group of a single channel. -/
theorem State.withCh_group (htopo : s.topoOf c = 0) (h h' : Chan) (f : Stage → Stage) :
    forAll ((s.withCh c h').groupOf c) (fun m t => t.modStage m f) (s.withCh c h) = s.withCh c { h with stage := f h.stage } := by
  rw [State.withCh_groupOf htopo]
  exact s.withCh_modStage c h f

end WithCh

section UpdatePoint

variable {s : State} {c : Ch} {h : Chan} {d : DutyCmd}

theorem State.isBridgeLead_single (hlead : s.leadOf c = c) (htopo : s.topoOf c = 0) : s.isBridgeLead c = false := by
  have hown : s.ownTopo c = 0 := by
    rw [State.topoOf, hlead] at htopo
    exact htopo
  rw [State.isBridgeLead, hown]
  rfl

theorem State.withCh_takeDuty (hlead : s.leadOf c = c) (htopo : s.topoOf c = 0) (hpend : h.stage.pend = some d) (hdue : d.due + 2 ≤ s.now)
    (centre : Bool) : ∃ k, (s.withCh c h).takeDuty c centre =
      s.withCh c { h with cnt := k, stage := { h.stage with pend := none, cmdOn := d.on, report := some (s.now, centre, d) } } := by
  have hbridge : (s.withCh c h).isBridgeLead c = false := s.isBridgeLead_single hlead htopo
  have hlate : ¬(s.withCh c h).now < d.due + 2 := by
    have hnow : (s.withCh c h).now = s.now := rfl
    omega
  rw [State.takeDuty, s.withCh_ch, hpend]
  dsimp only
  rw [hbridge, if_neg (by simpa using hlate), State.effectCount, s.withCh_modCnt]
  exact ⟨_, s.withCh_modStage ..⟩

theorem State.withCh_putOn (htopo : s.topoOf c = 0) (hsoft : h.stage.soft = false) (valley : Bool) :
    (s.withCh c h).putOn c valley = s.withCh c { h with stage := h.stage.driven valley (snapOn (if valley then s.pwmP c else (s.withCh c h).acting c (R.CH_PWM_PERIOD c)) h.stage.cmdOn) } := by
  have hon : (s.withCh c h).effectiveOn c = h.stage.cmdOn := by
    rw [State.effectiveOn, s.withCh_ch, hsoft]
    rfl
  have hmember (p : Nat) (on trim : Int) : (s.withCh c h).memberOn c p on trim = snapOn p on := by
    have hgang : isGang ((s.withCh c h).topoOf c) = false := by
      have htop : (s.withCh c h).topoOf c = s.topoOf c := rfl
      rw [htop, htopo, not_gang]
    rw [State.memberOn, hgang, Bool.false_and, if_neg (by decide)]
  rw [State.putOn, State.withCh_groupOf htopo, hon]
  refine (s.withCh_modStage c h fun g => g.driven valley ((s.withCh c h).memberOn c (if valley then (s.withCh c h).pwmP c
    else (s.withCh c h).acting c (R.CH_PWM_PERIOD c)) h.stage.cmdOn g.trim)).trans ?_
  rw [hmember]
  rfl

theorem State.withCh_softStep (hsoft : h.stage.soft = false) : (s.withCh c h).softStep c = s.withCh c h := by
  rw [State.softStep]
  refine (s.withCh_modStage c h _).trans ?_
  rw [hsoft]
  rfl

theorem State.withCh_openCount : ∃ n, (s.withCh c h).openCount c = s.withCh c { h with stage := { h.stage with openRun := n } } := by
  rw [State.openCount]
  generalize hx : (decide (8 * (s.withCh c h).pwmP c ≤ 5 * h.stage.on.natAbs) && decide (((s.withCh c h).ch c).smpNext.i.natAbs < 20000)) = b
  refine ⟨if b then h.stage.openRun + 1 else 0, (s.withCh_modStage c h _).trans ?_⟩
  rw [hx]
  cases b <;> rfl

/-- Half of an update point: a centre trims shares, a valley ends a carrier period (R108, R113, R124, R125). -/
def State.pointTurn (s : State) (c : Ch) (centre : Bool) : State :=
  if centre then s.shareTrim c
  else ((s.openCount c).softStep c).modStage c fun g => { g with limiting := g.hsOff, limRun := if g.hsOff then g.limRun + 1 else 0, hsOff := false }

theorem State.withCh_pointTurn (htopo : s.topoOf c = 0) (hsoft : h.stage.soft = false) (centre : Bool) :
    ∃ n b k, (s.withCh c h).pointTurn c centre = s.withCh c
      { h with stage := { h.stage with openRun := n, limiting := b, limRun := k, hsOff := centre && h.stage.hsOff } } := by
  cases centre with
  | true =>
    have hgang : isGang ((s.withCh c h).topoOf c) = false := by
      have htop : (s.withCh c h).topoOf c = s.topoOf c := rfl
      rw [htop, htopo, not_gang]
    refine ⟨h.stage.openRun, h.stage.limiting, h.stage.limRun, ?_⟩
    rw [State.pointTurn, if_pos rfl, State.shareTrim, hgang]
    rfl
  | false =>
    obtain ⟨n, hn⟩ := State.withCh_openCount (s := s) (c := c) (h := h)
    have hsoft' : ({ h with stage := { h.stage with openRun := n } } : Chan).stage.soft = false := hsoft
    refine ⟨n, h.stage.hsOff, if h.stage.hsOff then h.stage.limRun + 1 else 0, ?_⟩
    rw [State.pointTurn, if_neg (by decide), hn, State.withCh_softStep hsoft', s.withCh_modStage]
    rfl

/-- What ends an update point: a valley frees the held words, and a group of which nothing drives loses its trims (R113, R114, R136). -/
def State.pointEnd (s : State) (c : Ch) (centre : Bool) : State :=
  let s := if centre then s else forAll (s.groupOf c) (fun m t => t.modStage m fun g => { g with held := [] }) s
  if (s.groupOf c).any s.driven then s
  else forAll (s.groupOf c) (fun m t => t.modStage m fun g => { g with trim := 0 }) s

theorem State.withCh_pointEnd (htopo : s.topoOf c = 0) (centre : Bool) :
    ∃ l n, (s.withCh c h).pointEnd c centre = s.withCh c { h with stage := { h.stage with held := l, trim := n } } := by
  have htrim (h' : Chan) : ∃ n, (if ((s.withCh c h').groupOf c).any (s.withCh c h').driven then s.withCh c h'
      else forAll ((s.withCh c h').groupOf c) (fun m t => t.modStage m fun g => { g with trim := 0 }) (s.withCh c h')) =
      s.withCh c { h' with stage := { h'.stage with trim := n } } := by
    split
    · exact ⟨h'.stage.trim, rfl⟩
    · exact ⟨0, State.withCh_group htopo h' h' fun g => { g with trim := 0 }⟩
  cases centre with
  | true =>
    obtain ⟨n, hn⟩ := htrim h
    exact ⟨h.stage.held, n, hn⟩
  | false =>
    obtain ⟨n, hn⟩ := htrim { h with stage := { h.stage with held := [] } }
    refine ⟨[], n, Eq.trans ?_ hn⟩
    have hfree := State.withCh_group htopo h h fun g => { g with held := [] }
    simp only [State.pointEnd, hfree, Bool.false_eq_true, if_false]

theorem carrierUpdatePoint_eq {centre : Bool} (hclk : s.clockOn = true) (hlead : s.leadOf c = c) (hwait : (s.ch c).stage.waitSample = false)
    (hon : s.onPoint c centre = true) : exec (.carrierUpdatePoint c centre) s =
      .next ((((((s.modStage c fun g => { g with pointAt := some s.now }).takeDuty c centre).pointTurn c centre).putOn c (!centre)).pointEnd c
        centre)) := by
  have hown : s.isMember c = false := by simp [State.isMember, hlead]
  rw [exec_carrierUpdatePoint, execCarrierUpdatePoint]
  exact if_pos (by rw [hclk, hown, hwait, hon]; rfl)

/-- The acting set-up of a channel follows the words that it holds. -/
theorem State.withCh_acting (hheld : h.stage.held = (s.ch c).stage.held) (f : Fld) : (s.withCh c h).acting c f = s.acting c f := by
  have hget : (s.withCh c h).get f = s.get f := rfl
  rw [State.acting, s.withCh_ch, hheld, hget, ← State.acting]

/-- A command whose time has come takes effect at an update point (R108). -/
theorem carrierUpdatePoint_takes {centre : Bool} {n : Nat} (hclk : s.clockOn = true) (hpend : (s.ch c).stage.pend = some d)
    (hdue : d.due + 2 ≤ s.now) (hlead : s.leadOf c = c) (htopo : s.topoOf c = 0) (hwait : (s.ch c).stage.waitSample = false)
    (hsoft : (s.ch c).stage.soft = false) (hnew : (s.ch c).stage.pointAt ≠ some s.now) (hphase : (s.ch c).stage.phase = some n) (hn : n ≤ s.now)
    (hmod : (s.now - n) % s.acting c (R.CH_PWM_PERIOD c) = if centre then 0 else s.acting c (R.CH_PWM_PERIOD c) / 2) :
    ∃ h, exec (.carrierUpdatePoint c centre) s = .next (s.withCh c h) ∧ h.stage.pend = none ∧ h.stage.cmdOn = d.on ∧
      h.stage.report = some (s.now, centre, d) ∧ h.stage.hsOff = (centre && (s.ch c).stage.hsOff) ∧
      h.stage.on = snapOn (if centre then s.acting c (R.CH_PWM_PERIOD c) else s.get (R.CH_PWM_PERIOD c)) d.on ∧
      h.stage.rise = if centre then (s.ch c).stage.rise
        else snapOn (if centre then s.acting c (R.CH_PWM_PERIOD c) else s.get (R.CH_PWM_PERIOD c)) d.on := by
  have hon : s.onPoint c centre = true := by
    have hp : ((s.ch c).stage.pointAt != some s.now) = true := by simpa using hnew
    simp only [State.onPoint, hp, hphase, decide_eq_true hn, decide_eq_true hmod, Bool.true_and]
  have hexec := carrierUpdatePoint_eq hclk hlead hwait hon
  obtain ⟨h0, hh0⟩ : ∃ h0 : Chan, h0 = { s.ch c with stage := { (s.ch c).stage with pointAt := some s.now } } := ⟨_, rfl⟩
  have hstart : (s.modStage c fun g => { g with pointAt := some s.now }) = s.withCh c h0 := by
    rw [hh0]
    exact (congrArg (fun t : State => t.modStage c fun g => { g with pointAt := some s.now }) (s.withCh_same c)).symm.trans (s.withCh_modStage ..)
  obtain ⟨k, htake⟩ := State.withCh_takeDuty (s := s) (c := c) (h := h0) (d := d) hlead htopo (by rw [hh0]; exact hpend) hdue centre
  obtain ⟨h1, hh1⟩ : ∃ h1 : Chan, h1 = { h0 with cnt := k, stage := { h0.stage with pend := none, cmdOn := d.on, report := some (s.now, centre, d) } } :=
    ⟨_, rfl⟩
  rw [← hh1] at htake
  have hsoft1 : h1.stage.soft = false := by rw [hh1, hh0]; exact hsoft
  obtain ⟨m, b, r, hturn⟩ := State.withCh_pointTurn (s := s) (c := c) (h := h1) htopo hsoft1 centre
  obtain ⟨h2, hh2⟩ : ∃ h2 : Chan, h2 = { h1 with stage := { h1.stage with openRun := m, limiting := b, limRun := r, hsOff := centre && h1.stage.hsOff } } :=
    ⟨_, rfl⟩
  rw [← hh2] at hturn
  have hsoft2 : h2.stage.soft = false := by rw [hh2]; exact hsoft1
  have hput := State.withCh_putOn (s := s) (c := c) (h := h2) htopo hsoft2 (!centre)
  have hheld : h2.stage.held = (s.ch c).stage.held := by rw [hh2, hh1, hh0]
  have hcmd : h2.stage.cmdOn = d.on := by rw [hh2, hh1]
  rw [State.withCh_acting hheld, hcmd] at hput
  obtain ⟨x, hx⟩ : ∃ x, x = snapOn (if !centre then s.pwmP c else s.acting c (R.CH_PWM_PERIOD c)) d.on := ⟨_, rfl⟩
  obtain ⟨h3, hh3⟩ : ∃ h3 : Chan, h3 = { h2 with stage := h2.stage.driven (!centre) x } := ⟨_, rfl⟩
  rw [← hx, ← hh3] at hput
  obtain ⟨l, t, hpoint⟩ := State.withCh_pointEnd (s := s) (c := c) (h := h3) htopo centre
  rw [hstart, htake, hturn, hput, hpoint] at hexec
  have hxp : x = snapOn (if centre then s.acting c (R.CH_PWM_PERIOD c) else s.get (R.CH_PWM_PERIOD c)) d.on := by
    rw [hx]
    cases centre <;> rfl
  rw [← hxp]
  refine ⟨_, hexec, ?_, ?_, ?_, ?_, ?_, ?_⟩
  · rw [hh3, hh2, hh1]
    rfl
  · rw [hh3]
    exact hcmd
  · rw [hh3, hh2, hh1]
    rfl
  · rw [hh3, hh2, hh1, hh0]
    rfl
  · rw [hh3]
    rfl
  · rw [hh3, hh2, hh1, hh0]
    cases centre <;> rfl

/-- The pending command and the commanded on-time. -/
def State.command (s : State) (c : Ch) : Option DutyCmd × Int := ((s.ch c).stage.pend, (s.ch c).stage.cmdOn)

theorem State.command_modStage (m : Ch) {f : Stage → Stage} (hf : ∀ g, (f g).pend = g.pend ∧ (f g).cmdOn = g.cmdOn) :
    (s.modStage m f).command c = s.command c := by
  rw [State.command, State.modStage, State.modCh_ch]
  split
  · rename_i hm
    subst hm
    exact Prod.ext (hf _).1 (hf _).2
  · rfl

theorem State.openCount_command (s : State) (c : Ch) : (s.openCount c).command c = s.command c :=
  State.command_modStage c fun g => by split <;> exact ⟨rfl, rfl⟩

theorem State.softStep_command (s : State) (c : Ch) : (s.softStep c).command c = s.command c := by
  rw [State.softStep]
  refine s.command_modStage c fun g => ?_
  by_cases hs : g.soft = true
  · rw [if_pos hs]
    split <;> exact ⟨rfl, rfl⟩
  · rw [if_neg hs]
    exact ⟨rfl, rfl⟩

/-- A valley that ends a carrier period changes no command. -/
theorem State.valleyTurn_command (s : State) (c : Ch) : (s.pointTurn c false).command c = s.command c := by
  have hturn (u : State) : (u.modStage c fun g =>
      { g with limiting := g.hsOff, limRun := if g.hsOff then g.limRun + 1 else 0, hsOff := false }).command c = u.command c :=
    u.command_modStage c fun g => ⟨rfl, rfl⟩
  exact (hturn _).trans ((State.softStep_command _ c).trans (s.openCount_command c))

theorem State.group_command (s : State) (c : Ch) {f : Stage → Stage} (hf : ∀ g, (f g).pend = g.pend ∧ (f g).cmdOn = g.cmdOn) :
    (forAll (s.groupOf c) (fun m t => t.modStage m f) s).command c = s.command c :=
  forAll_keeps (fun t => t.command c) (fun m t => t.command_modStage m hf) _ s

theorem State.putOn_command (s : State) (c : Ch) (valley : Bool) : (s.putOn c valley).command c = s.command c :=
  s.group_command c fun _ => ⟨rfl, rfl⟩

theorem State.valleyEnd_command (s : State) (c : Ch) : (s.pointEnd c false).command c = s.command c := by
  have hfree := s.group_command c (f := fun g => { g with held := [] }) fun g => ⟨rfl, rfl⟩
  obtain ⟨x, hx⟩ : ∃ x, x = forAll (s.groupOf c) (fun m t => t.modStage m fun g => { g with held := [] }) s := ⟨_, rfl⟩
  have hend : s.pointEnd c false = if (x.groupOf c).any x.driven then x
      else forAll (x.groupOf c) (fun m t => t.modStage m fun g => { g with trim := 0 }) x := by
    rw [hx]
    rfl
  rw [← hfree, ← hx, hend]
  split
  · rfl
  · exact x.group_command c fun g => ⟨rfl, rfl⟩

theorem carrierUpdatePoint_waits (hpend : (s.ch c).stage.pend = some d) (hdue : s.now < d.due + 2) :
    ∃ t, exec (.carrierUpdatePoint c false) s = .next t ∧ t.command c = s.command c := by
  by_cases hgo : (s.clockOn && !s.isMember c && !(s.ch c).stage.waitSample && s.onPoint c false) = true
  · obtain ⟨v, hv⟩ : ∃ v, v = s.modStage c fun g => { g with pointAt := some s.now } := ⟨_, rfl⟩
    have hvpend : (v.ch c).stage.pend = some d := by
      rw [hv, State.modStage, State.modCh_ch, if_pos rfl]
      exact hpend
    have htake : v.takeDuty c false = v := by
      have hvdue : v.now < d.due + 2 := by rw [hv]; exact hdue
      rw [State.takeDuty, hvpend]
      exact if_pos (by simp [hvdue])
    have hexec : exec (.carrierUpdatePoint c false) s = .next ((((v.takeDuty c false).pointTurn c false).putOn c (!false)).pointEnd c false) := by
      rw [hv, exec_carrierUpdatePoint, execCarrierUpdatePoint]
      exact if_pos hgo
    rw [htake] at hexec
    refine ⟨_, hexec, ?_⟩
    have hkeep : v.command c = s.command c := by
      rw [hv]
      exact State.command_modStage c fun g => ⟨rfl, rfl⟩
    rw [State.valleyEnd_command, State.putOn_command, State.valleyTurn_command, hkeep]
  · exact ⟨s, if_neg hgo, rfl⟩

end UpdatePoint

section Limits

/-- An on-time near an end of the grid of a period of `p` ticks is that end (R107). -/
theorem snapOn_eq (p : Nat) (on : Int) : snapOn p on =
    if on.natAbs < 80 then 0 else if 8 * p < on.natAbs + 80 then (if on < 0 then -((8 * p : Nat) : Int) else (8 * p : Nat)) else on := by
  simp only [snapOn, Nat.cast_mul, Nat.cast_ofNat]

variable {s : State} {c : Ch}

theorem dutyCommandArrival_first {d : DutyCmd} {rest : List DutyCmd} (hclk : s.clockOn = true) (hf : (s.ch c).flight = d :: rest)
    (hdue : d.due ≤ s.now) : exec (.dutyCommandArrival c) s =
      .next (s.modCh c fun x => { x with flight := rest, stage := { x.stage with pend := some d } }) := by
  rw [exec_dutyCommandArrival, execDutyCommandArrival, hf]
  exact if_pos (by simp [hclk, hdue])

theorem carrierUpdatePoint_off {n : Nat} (hphase : (s.ch c).stage.phase = some n) (hn : n ≤ s.now)
    (hmod : (s.now - n) % s.acting c (R.CH_PWM_PERIOD c) ≠ 0) : exec (.carrierUpdatePoint c true) s = .next s := by
  have hoff : s.onPoint c true = false := by
    simp only [State.onPoint, hphase, if_true, decide_eq_true hn, decide_eq_false hmod, Bool.and_false]
  exact if_neg (by rw [hoff]; simp)

/-- The report of an update point writes DLY and latches its event (R108, R151). -/
theorem dlyReport_writes {n : Nat} {centre : Bool} {d : DutyCmd} {seq : W32} {inst : Nat} {e : Eng} (hclk : s.clockOn = true)
    (hrep : (s.ch c).stage.report = some (n, centre, d)) (hans : d.answers = some (seq, inst)) (hctl : (s.ch c).ctl = some e)
    (htake : (s.ch c).takeover = none) :
    ∃ t, exec (.dlyReport c) s = .next t ∧ (t.ch c).smp.dlySeq = seq ∧ (t.ch c).stage.report = none ∧
      (inst ≤ n → n < inst + 16777216 → (t.ch c).smp.dly = BitVec.ofNat 32 (n - inst + if centre then 16777216 else 0)) ∧
      t.eng[e] = { s.eng[e] with pend := s.eng[e].pend ||| 0x80 } := by
  obtain ⟨w, hw⟩ : ∃ w, w = satU 24 ((n : Int) - inst) + if centre then 2 ^ 24 else 0 := ⟨_, rfl⟩
  obtain ⟨h, hh⟩ : ∃ h : Chan, h = { s.ch c with stage := { (s.ch c).stage with report := none }, smp := { (s.ch c).smp with dly := BitVec.ofNat 32 w, dlySeq := seq } } :=
    ⟨_, rfl⟩
  have hmod : ((s.modStage c fun g => { g with report := none }).modCh c fun h => { h with smp := { h.smp with dly := BitVec.ofNat 32 w, dlySeq := seq } }) =
      s.withCh c h := by
    rw [hh]
    have hstage : (s.modStage c fun g => { g with report := none }) = s.withCh c { s.ch c with stage := { (s.ch c).stage with report := none } } :=
      (congrArg (fun t : State => t.modStage c fun g => { g with report := none }) (s.withCh_same c)).symm.trans (s.withCh_modStage ..)
    rw [hstage]
    exact s.withCh_modCh ..
  have hlatch : (s.withCh c h).latchCh c 7 = (s.withCh c h).latchEng e 7 := by
    have hc : h.ctl = some e := by rw [hh]; exact hctl
    have ht : h.takeover.isNone = true := by rw [hh]; exact htake ▸ rfl
    rw [State.latchCh, s.withCh_ch, hc]
    exact if_pos ht
  have hexec : exec (.dlyReport c) s = .next ((s.withCh c h).latchEng e 7) := by
    rw [← hlatch, ← hmod, hw, exec_dlyReport, execDlyReport, hrep]
    dsimp only
    rw [if_pos hclk, hans]
  have hch : ((s.withCh c h).latchEng e 7).ch c = h := s.withCh_ch c h
  refine ⟨_, hexec, by rw [hch, hh], by rw [hch, hh], fun hle hlt => ?_, State.modEng_eng_same ..⟩
  have hsat : satU 24 ((n : Int) - inst) = n - inst := by
    rw [satU]
    omega
  rw [hch, hh, hw, hsat]
  rfl

/-- A single channel that is driven with an on-time is in one (R107, Table 05.4). -/
theorem output_isPwm (htopo : s.topoOf c = 0) (hdrive : s.driven c = true) (hon : (s.ch c).stage.on ≠ 0) :
    (s.output c).isPwm = true := by
  have hrank : s.outRank c = 8 ∨ s.outRank c = 9 ∨ s.outRank c = 10 ∨ s.outRank c = 11 := by
    have h8 : 8 ≤ s.outRank c := of_decide_eq_true hdrive
    have h11 : s.outRank c ≤ 11 := by
      unfold State.outRank
      dsimp only
      repeat' split
      all_goals decide
    omega
  have hcarrier : s.output c = s.carrierDrive c := by
    rw [State.output]
    rcases hrank with h | h | h | h <;> simp only [h]
  have habs : (s.ch c).stage.on.natAbs ≠ 0 := Int.natAbs_ne_zero.2 hon
  rw [hcarrier, State.carrierDrive, htopo]
  dsimp only
  rw [if_neg (by decide), halfDrive, if_neg (by simp [habs])]
  rfl

theorem currentLimit_reached (hclk : s.clockOn = true) (hlead : s.leadOf c = c) (hm : ∃ m ∈ s.groupOf c, (s.output m).isPwm = true) :
    exec (.currentLimitReached c) s = .next (s.modStage c fun x => { x with hsOff := true }) := by
  have hown : s.isMember c = false := by simp [State.isMember, hlead]
  have hany : (s.groupOf c).any (fun m => (s.output m).isPwm) = true := List.any_eq_true.2 hm
  exact if_pos (by rw [hclk, hown, hany]; rfl)

theorem State.budgetStep_eq (s : State) (c : Ch) : s.budgetStep c = s.withCh c
    { s.ch c with stage := (s.ch c).stage.budgeted s.now (decide (s.contRating c * 1000 < (s.groupUa c).natAbs)) } :=
  (congrArg (fun t : State => t.modStage c fun g => g.budgeted s.now (decide (s.contRating c * 1000 < (s.groupUa c).natAbs)))
    (s.withCh_same c)).symm.trans (s.withCh_modStage ..)

/-- The peak budget brought up to the present tick (R123). -/
def State.budgetLeft (s : State) (c : Ch) : Nat :=
  budgetAfter (s.ch c).stage.budget (s.now - (s.ch c).stage.budgetAt) (decide (s.contRating c * 1000 < (s.groupUa c).natAbs))

theorem State.budgetLeft_eq (s : State) (c : Ch) : s.budgetLeft c = if s.contRating c * 1000 < (s.groupUa c).natAbs
    then (s.ch c).stage.budget - 9 * (s.now - (s.ch c).stage.budgetAt)
    else min 36000000 ((s.ch c).stage.budget + (s.now - (s.ch c).stage.budgetAt)) := by
  simp only [budgetLeft, budgetAfter, decide_eq_true_eq]

theorem peakBudget_exhausted (hclk : s.clockOn = true) (hlead : s.leadOf c = c) (hleft : s.budgetLeft c = 0) (hexh : (s.ch c).stage.peakExh = false) :
    ∃ t, exec (.peakBudgetExhausted c) s = .next t ∧ (t.ch c).stage = { (s.ch c).stage with budget := 0, budgetAt := s.now, peakExh := true } ∧
      (s.Room → Stored s t (chCode c 0x54) 0 (BitVec.ofNat 32 c.val)) := by
  have hown : s.isMember c = false := by simp [State.isMember, hlead]
  have hstep := s.budgetStep_eq c
  obtain ⟨g, hg⟩ : ∃ g, g = (s.ch c).stage.budgeted s.now (decide (s.contRating c * 1000 < (s.groupUa c).natAbs)) := ⟨_, rfl⟩
  have hbud : g.budget = 0 := by rw [hg]; exact hleft
  have hpk : g.peakExh = false := by rw [hg]; exact hexh
  rw [← hg] at hstep
  have hexec : exec (.peakBudgetExhausted c) s = .next ((s.withCh c { s.ch c with stage := { g with peakExh := true } }).raise (chCode c 0x54) 0
      (BitVec.ofNat 32 c.val)) := by
    rw [exec_peakBudgetExhausted, execPeakBudgetExhausted, hstep]
    dsimp only
    rw [s.withCh_ch, if_pos (by rw [hclk, hown, hbud, hpk]; rfl), s.withCh_modStage]
  refine ⟨_, hexec, ?_, fun hr => ?_⟩
  · rw [State.ch, State.raise_chan, ← State.ch, s.withCh_ch, hg, Stage.budgeted]
    exact congrArg (fun b => { (s.ch c).stage with budget := b, budgetAt := s.now, peakExh := true }) hleft
  · have hsame : Grows s (s.withCh c { s.ch c with stage := { g with peakExh := true } }) 0 := .of_same rfl rfl rfl
    exact hsame.stored hr (by decide) _ _ _ _

theorem peakBudget_restored (hclk : s.clockOn = true) (hlead : s.leadOf c = c) (hleft : 18000000 ≤ s.budgetLeft c)
    (hexh : (s.ch c).stage.peakExh = true) :
    ∃ t, exec (.peakBudgetRestored c) s = .next t ∧
      (t.ch c).stage = { (s.ch c).stage with budget := s.budgetLeft c, budgetAt := s.now, peakExh := false } ∧ t.regs = s.regs := by
  have hown : s.isMember c = false := by simp [State.isMember, hlead]
  have hstep := s.budgetStep_eq c
  obtain ⟨g, hg⟩ : ∃ g, g = (s.ch c).stage.budgeted s.now (decide (s.contRating c * 1000 < (s.groupUa c).natAbs)) := ⟨_, rfl⟩
  have hbud : g.budget = s.budgetLeft c := by rw [hg]; rfl
  have hpk : g.peakExh = true := by rw [hg]; exact hexh
  rw [← hg] at hstep
  have hexec : exec (.peakBudgetRestored c) s = .next (s.withCh c { s.ch c with stage := { g with peakExh := false } }) := by
    rw [exec_peakBudgetRestored, execPeakBudgetRestored, hstep]
    dsimp only
    rw [s.withCh_ch, if_pos (by rw [hclk, hown, hbud, hpk]; simp [hleft]), s.withCh_modStage]
  refine ⟨_, hexec, ?_, rfl⟩
  rw [s.withCh_ch, hg]
  rfl

/-- An event that may be raised now is raised. -/
theorem State.raiseLimited_may (code : BitVec 16) (k : BitVec 2) (data : W32) (u i : Nat) (h : s.mayRaise code u i = true) :
    ∃ r, s.raiseLimited code k data u i = (s.modHp fun h => { h with rate := r }).raise code k data := by
  rw [State.raiseLimited, if_pos h]
  exact ⟨_, rfl⟩

theorem hiccup_starts (hclk : s.clockOn = true) (hlead : s.leadOf c = c) (hnone : (s.ch c).stage.hiccupUntil = none)
    (hcount : s.acting c (R.CH_HICCUP_COUNT c) ≤ (s.ch c).stage.limRun + if (s.ch c).stage.hsOff then 1 else 0) :
    ∃ t, exec (.hiccupStart c) s = .next t ∧ (t.ch c).stage.hiccupUntil = some (s.now + s.acting c (R.CH_HICCUP_OFF_MS c) * 200000) ∧
      (t.ch c).stage.limRun = 0 ∧ (t.ch c).stage.hsOff = false ∧ (t.ch c).stage.limiting = true ∧
      (s.mayRaise (chCode c 0x53) c.val 200000000 = true → s.Room → Stored s t (chCode c 0x53) 0 (BitVec.ofNat 32 c.val)) := by
  have hown : s.isMember c = false := by simp [State.isMember, hlead]
  obtain ⟨g, hg⟩ : ∃ g : Stage, g = { (s.ch c).stage with hiccupUntil := some (s.now + s.acting c (R.CH_HICCUP_OFF_MS c) * 200000), limRun := 0, hsOff := false, limiting := true } :=
    ⟨_, rfl⟩
  obtain ⟨v, hv⟩ : ∃ v, v = (s.withCh c { s.ch c with stage := g }).count (R.CH_STAGE_CNT_HICCUP c) := ⟨_, rfl⟩
  have hexec : exec (.hiccupStart c) s = .next (v.raiseLimited (chCode c 0x53) 0 (BitVec.ofNat 32 c.val) c.val) := by
    have hmod : (s.modStage c fun g => { g with hiccupUntil := some (s.now + s.acting c (R.CH_HICCUP_OFF_MS c) * ticksPerMs), limRun := 0, hsOff := false, limiting := true }) =
        s.withCh c { s.ch c with stage := g } := by
      rw [hg]
      exact (congrArg (fun t : State => t.modStage c fun g =>
        { g with hiccupUntil := some (s.now + s.acting c (R.CH_HICCUP_OFF_MS c) * ticksPerMs), limRun := 0, hsOff := false, limiting := true })
        (s.withCh_same c)).symm.trans (s.withCh_modStage ..)
    rw [exec_hiccupStart, execHiccupStart]
    dsimp only
    rw [if_pos (by rw [hclk, hown, hnone]; simpa using hcount), hmod, hv]
  have hch : (v.raiseLimited (chCode c 0x53) 0 (BitVec.ofNat 32 c.val) c.val).ch c = { s.ch c with stage := g } := by
    rw [State.ch, State.raiseLimited_chan, hv, State.count_chan]
    exact s.withCh_ch ..
  refine ⟨_, hexec, by rw [hch, hg], by rw [hch, hg], by rw [hch, hg], by rw [hch, hg], fun hmay hr => ?_⟩
  obtain ⟨r, hr'⟩ := v.raiseLimited_may (chCode c 0x53) 0 (BitVec.ofNat 32 c.val) c.val ticksPerS (by rw [hv]; exact hmay)
  rw [hr']
  have hF : (R.CH_STAGE_CNT_HICCUP c).addr ≠ R.HP_EVT_CFG_F0_EN.addr := by
    simp only [R.CH_STAGE_CNT_HICCUP, R.CH_STAGE_CNT, R.HP_EVT_CFG_F0_EN, R.HP_EVT_CFG]
    omega
  have hsame : Grows s (s.withCh c { s.ch c with stage := g }) 0 := .of_same rfl rfl rfl
  have hgrow : Grows s (v.modHp fun h => { h with rate := r }) 0 := by
    rw [hv]
    exact (hsame.count hF 1).same rfl rfl rfl
  exact hgrow.stored hr (by decide) _ _ _ _

theorem hiccup_ends {n : Nat} (hclk : s.clockOn = true) (hu : (s.ch c).stage.hiccupUntil = some n) (hn : n ≤ s.now) :
    exec (.hiccupEnd c) s = .next (s.modStage c fun x => { x with hiccupUntil := none, limiting := false, soft := true, softOn := 0 }) := by
  rw [exec_hiccupEnd, execHiccupEnd, hu]
  exact if_pos (by simp [hclk, hn])

theorem openLoad_detected (hclk : s.clockOn = true) (hlead : s.leadOf c = c) (hrun : 100 ≤ (s.ch c).stage.openRun)
    (hopen : (s.ch c).stage.openLoad = false) :
    ∃ t, exec (.openLoadDetect c) s = .next t ∧ (t.ch c).stage = { (s.ch c).stage with openLoad := true } ∧
      (s.Room → Stored s t (chCode c 0x55) 0 (BitVec.ofNat 32 c.val)) := by
  have hown : s.isMember c = false := by simp [State.isMember, hlead]
  refine ⟨_, (if_pos (by rw [hclk, hown, hopen]; simp [hrun]) : exec (.openLoadDetect c) s = _), ?_, fun hr => ?_⟩
  · rw [State.ch, State.raise_chan, ← State.ch, State.modStage, State.modCh_ch, if_pos rfl]
  · have hsame : Grows s (s.modStage c fun g => { g with openLoad := true }) 0 := .of_same rfl rfl rfl
    exact hsame.stored hr (by decide) _ _ _ _

end Limits

/-- Settles O32. -/
theorem dutiesAndLimitsOfTheStage : Obligations.DutiesAndLimitsOfTheStage := by
  refine ⟨fun s c hclk => ⟨fun d rest => dutyCommandArrival_first hclk, ?_, fun n => carrierUpdatePoint_off, ?_,
    fun n centre d seq inst e => dlyReport_writes hclk⟩, fun s c hclk hlead => ⟨output_isPwm, currentLimit_reached hclk hlead, ?_, ?_,
    hiccup_starts hclk hlead, fun n => hiccup_ends hclk, openLoad_detected hclk hlead⟩⟩
  · intro d centre n hpend hdue hlead htopo hwait hsoft hnew hphase hn hmod
    obtain ⟨h, hexec, h1, h2, h3, h4, h5, h6⟩ := carrierUpdatePoint_takes hclk hpend hdue hlead htopo hwait hsoft hnew hphase hn hmod
    refine ⟨_, hexec, ?_⟩
    rw [s.withCh_ch, h1, h2, h3, h4, h5, h6]
    refine ⟨rfl, rfl, rfl, rfl, snapOn_eq _ _, ?_, fun k hk => s.withCh_other c h hk, rfl, rfl⟩
    cases centre with
    | true => rfl
    | false => exact snapOn_eq _ _
  · intro d hpend hdue _
    obtain ⟨t, hexec, hcmd⟩ := carrierUpdatePoint_waits hpend hdue
    obtain ⟨hp, hc⟩ := Prod.mk.inj hcmd
    exact ⟨t, hexec, hp.trans hpend, hc⟩
  · exact fun hleft => peakBudget_exhausted hclk hlead ((s.budgetLeft_eq c).trans hleft)
  · intro hleft hexh
    have hl := s.budgetLeft_eq c
    obtain ⟨t, hexec, ht⟩ := peakBudget_restored hclk hlead (le_of_le_of_eq hleft hl.symm) hexh
    rw [hl] at ht
    exact ⟨t, hexec, ht⟩

end Sys2Proof.Machine
end

section
/-! PROOFS. Legs that leave and return to service, and the stage link (R14, R130 to R135, R137, Table 05.5). -/

namespace Sys2Proof.Machine

section Leg

variable {s : State} {c : Ch} {l : Leg} {why : Nat}

/-- The other leg of a stage. -/
def otherLeg (l : Leg) : Leg := match l with | .a => .b | .b => .a

/-- A leg out of service (Table 05.5). -/
def LegSt.faulted (x : LegSt) (why : Nat) : LegSt :=
  { x with inService := false, why := BitVec.ofNat 2 why, worn := x.worn || 3 ≤ x.restores, stuck := false }

/-- A stage with a leg out of service. -/
def Stage.faulted (g : Stage) (l : Leg) (why : Nat) : Stage := { (g.modLeg l fun x => x.faulted why) with imbRun := 0 }

theorem Stage.faulted_leg (g : Stage) (l : Leg) (why : Nat) :
    (g.faulted l why).leg l = (g.leg l).faulted why ∧ (g.faulted l why).leg (otherLeg l) = g.leg (otherLeg l) := by
  cases l <;> exact ⟨rfl, rfl⟩

/-- The event of a leg fault (Table 05.5). -/
def State.legEvent (s : State) (c : Ch) (l : Leg) : BitVec 16 × BitVec 2 :=
  if ((s.ch c).stage.leg (otherLeg l)).inService then (chCode c 0x50, 1)
  else if isGang (s.topoOf c) then (chCode c 0x52, 2) else (chCode c 0x51, 2)

theorem legFlt_ne (c k : Ch) : R.CH_STAGE_CFG k ≠ (R.CH_STAGE_CNT_LEGFLT c).addr := by
  simp only [R.CH_STAGE_CFG, R.CH_STAGE_CNT_LEGFLT, R.CH_STAGE_CNT]
  omega

theorem State.legFault_loose (hin : ((s.ch c).stage.leg l).inService = true) : s.legFault c l why false =
    ((s.withCh c { s.ch c with stage := (s.ch c).stage.faulted l why }).count (R.CH_STAGE_CNT_LEGFLT c)).raise (s.legEvent c l).1
      (s.legEvent c l).2 (legData c l why) := by
  obtain ⟨v, hv⟩ : ∃ v, v = (s.withCh c { s.ch c with stage := (s.ch c).stage.faulted l why }).count (R.CH_STAGE_CNT_LEGFLT c) := ⟨_, rfl⟩
  have hmod : (s.modStage c fun g =>
      { (g.modLeg l fun x => { x with inService := false, why := BitVec.ofNat 2 why, worn := x.worn || 3 ≤ x.restores, stuck := false }) with imbRun := 0 }) =
      s.withCh c { s.ch c with stage := (s.ch c).stage.faulted l why } :=
    (congrArg (fun t : State => t.modStage c fun g => g.faulted l why) (s.withCh_same c)).symm.trans (s.withCh_modStage ..)
  have htopo : v.topoOf c = s.topoOf c := by
    have hown (k : Ch) : v.ownTopo k = s.ownTopo k := by
      rw [hv]
      exact State.get_count_far (h := .inl (legFlt_ne c k).symm) ..
    simp only [State.topoOf, State.leadOf, hown]
  have hfault : s.legFault c l why false =
      if ((s.ch c).stage.leg (otherLeg l)).inService then v.raise (chCode c 0x50) 1 (legData c l why)
      else if isGang (v.topoOf c) then v.raise (chCode c 0x52) 2 (legData c l why) else v.raise (chCode c 0x51) 2 (legData c l why) := by
    rw [State.legFault.eq_def, if_neg (by rw [hin]; decide)]
    dsimp only
    rw [hmod, ← hv, if_neg (by decide)]
    cases l <;> rfl
  rw [hfault, htopo, State.legEvent, ← hv]
  by_cases ho : ((s.ch c).stage.leg (otherLeg l)).inService = true
  · rw [if_pos ho, if_pos ho]
  · rw [if_neg ho, if_neg ho]
    by_cases hg : isGang (s.topoOf c) = true
    · rw [if_pos hg, if_pos hg]
    · rw [if_neg hg, if_neg hg]

/-- What a leg fault without a stuck leg does (R132 to R134). -/
theorem legFault_out (hin : ((s.ch c).stage.leg l).inService = true) :
    ((s.legFault c l why false).ch c).stage = (s.ch c).stage.faulted l why ∧ (∀ k, k ≠ c → (s.legFault c l why false).ch k = s.ch k) ∧
      (s.Room → Stored s (s.legFault c l why false) (s.legEvent c l).1 (s.legEvent c l).2 (legData c l why)) := by
  rw [State.legFault_loose hin]
  refine ⟨?_, fun k hk => ?_, fun hr => ?_⟩
  · rw [State.ch, State.raise_chan, State.count_chan, ← State.ch, s.withCh_ch]
  · rw [State.ch, State.raise_chan, State.count_chan, ← State.ch, s.withCh_other _ _ hk]
  · have hF : (R.CH_STAGE_CNT_LEGFLT c).addr ≠ R.HP_EVT_CFG_F0_EN.addr := by
      simp only [R.CH_STAGE_CNT_LEGFLT, R.CH_STAGE_CNT, R.HP_EVT_CFG_F0_EN, R.HP_EVT_CFG]
      omega
    have hsame : Grows s (s.withCh c { s.ch c with stage := (s.ch c).stage.faulted l why }) 0 := .of_same rfl rfl rfl
    exact (hsame.count hF 1).stored hr (by decide) _ _ _ _

/-- The leg fault as the obligation describes it. -/
theorem legFault_response (hin : ((s.ch c).stage.leg l).inService = true) (t : State) (ht : t = s.legFault c l why false) :
    ((t.ch c).stage.leg l).inService = false ∧ ((t.ch c).stage.leg l).why = BitVec.ofNat 2 why ∧
      ((t.ch c).stage.leg l).worn = (((s.ch c).stage.leg l).worn || decide (3 ≤ ((s.ch c).stage.leg l).restores)) ∧
      (t.ch c).stage.leg (otherLeg l) = (s.ch c).stage.leg (otherLeg l) ∧ ((t.ch c).stage.leg l).stuck = false ∧
      (∀ k, k ≠ c → t.ch k = s.ch k) ∧ (s.Room →
        (((s.ch c).stage.leg (otherLeg l)).inService = true → Stored s t (chCode c 0x50) 1 (legData c l why)) ∧
        (((s.ch c).stage.leg (otherLeg l)).inService = false → isGang (s.topoOf c) = false → Stored s t (chCode c 0x51) 2 (legData c l why)) ∧
        (((s.ch c).stage.leg (otherLeg l)).inService = false → isGang (s.topoOf c) = true → Stored s t (chCode c 0x52) 2 (legData c l why))) := by
  obtain ⟨hstage, hothers, hstored⟩ := legFault_out (why := why) hin
  obtain ⟨hleg, hother⟩ := (s.ch c).stage.faulted_leg l why
  rw [ht, hstage, hleg, hother]
  refine ⟨rfl, rfl, rfl, rfl, rfl, hothers, fun hr => ⟨fun ho => ?_, fun ho hg => ?_, fun ho hg => ?_⟩⟩
  · simpa only [State.legEvent, ho, if_true] using hstored hr
  · simpa only [State.legEvent, ho, hg, Bool.false_eq_true, if_false] using hstored hr
  · simpa only [State.legEvent, ho, hg, Bool.false_eq_true, if_false, if_true] using hstored hr

theorem Stage.legs_two {g : Stage} (h : g.legs = 2) (l : Leg) : (g.leg l).inService = true := by
  unfold Stage.legs at h
  cases ha : g.legA.inService <;> cases hb : g.legB.inService <;> cases l <;> simp_all [Stage.leg]

theorem legImbalance_eq (iA iB : Int) (hclk : s.clockOn = true) (hlegs : (s.ch c).stage.legs = 2) : exec (.legImbalance c iA iB false) s =
    if imbalanced iA iB then
      (if 2 ≤ (s.ch c).stage.imbRun then .next (s.legFault c (if iA.natAbs < iB.natAbs then .a else .b) 1 false)
        else .next (s.modStage c fun x => { x with imbRun := x.imbRun + 1 }))
    else .next (s.modStage c fun x => { x with imbRun := 0 }) := if_pos (by simp [hclk, hlegs])

theorem State.restoreLeg_in (h : (((s.ch c).stage.leg l).inService || ((s.ch c).stage.leg l).worn) = true) : s.restoreLeg c l = s := if_pos h

theorem chLegRestore_eq (hclk : s.clockOn = true) (hmode : s.mode.mode ≠ .field) :
    exec (.chLegRestore c) s = .next ((s.restoreLeg c .a).restoreLeg c .b) := by
  refine (if_pos hclk : exec (.chLegRestore c) s = _).trans ?_
  rw [State.legRestore, if_neg hmode]

/-- Leg A returns to service beside leg B (R134). -/
theorem chLegRestore_returns (hclk : s.clockOn = true) (hmode : s.mode.mode ≠ .field) (ha : (s.ch c).stage.legA.inService = false)
    (hw : (s.ch c).stage.legA.worn = false) (hb : (s.ch c).stage.legB.inService = true) :
    ∃ t, exec (.chLegRestore c) s = .next t ∧ (t.ch c).stage.legB = (s.ch c).stage.legB ∧
      (t.ch c).stage.legA = { (s.ch c).stage.legA with inService := true, why := 0, restores := min 3 ((s.ch c).stage.legA.restores + 1), stuck := false } ∧
      (s.Room → Stored s t (chCode c 0x58) 0 (legData c .a (s.ch c).stage.legA.why.toNat)) := by
  obtain ⟨h, hh⟩ : ∃ h : Chan, h = { s.ch c with stage := (s.ch c).stage.modLeg .a fun x => { x with inService := true, why := 0, restores := min 3 (x.restores + 1), stuck := false } } :=
    ⟨_, rfl⟩
  obtain ⟨t, ht⟩ : ∃ t, t = (s.withCh c h).raise (chCode c 0x58) 0 (legData c .a (s.ch c).stage.legA.why.toNat) := ⟨_, rfl⟩
  have hfirst : s.restoreLeg c .a = t := by
    have hmod : (s.modStage c fun g => g.modLeg .a fun x => { x with inService := true, why := 0, restores := min 3 (x.restores + 1), stuck := false }) =
        s.withCh c h := by
      rw [hh]
      exact (congrArg (fun t : State => t.modStage c fun g => g.modLeg .a fun x =>
        { x with inService := true, why := 0, restores := min 3 (x.restores + 1), stuck := false }) (s.withCh_same c)).symm.trans (s.withCh_modStage ..)
    have hgo : ¬(((s.ch c).stage.leg .a).inService || ((s.ch c).stage.leg .a).worn) = true := by
      have h1 : ((s.ch c).stage.leg .a).inService = false := ha
      have h2 : ((s.ch c).stage.leg .a).worn = false := hw
      rw [h1, h2]
      decide
    rw [ht, ← hmod]
    exact if_neg hgo
  have hch : t.ch c = h := by
    rw [ht, State.ch, State.raise_chan, ← State.ch, s.withCh_ch]
  have hbt : (t.ch c).stage.legB = (s.ch c).stage.legB := by
    rw [hch, hh]
    rfl
  have hsecond : t.restoreLeg c .b = t := State.restoreLeg_in (by
    have h1 : ((t.ch c).stage.leg .b).inService = true := (congrArg LegSt.inService hbt).trans hb
    rw [h1]
    rfl)
  refine ⟨t, (chLegRestore_eq hclk hmode).trans (by rw [hfirst, hsecond]), hbt, by rw [hch, hh]; rfl, fun hr => ?_⟩
  have hsame : Grows s (s.withCh c h) 0 := .of_same rfl rfl rfl
  rw [ht]
  exact hsame.stored hr (by decide) _ _ _ _

end Leg

section Link

variable {s : State} {die : StageDie}

theorem mem_chansOfDie (die : StageDie) (k : Ch) : k ∈ chansOfDie die ↔ k.val / 8 = die.val := by
  simp only [chansOfDie, List.mem_map, List.mem_finRange, true_and]
  constructor
  · rintro ⟨i, rfl⟩
    show (8 * die.val + i.val) / 8 = die.val
    omega
  · intro h
    exact ⟨⟨k.val % 8, Nat.mod_lt _ (by decide)⟩, Fin.ext (by show 8 * die.val + k.val % 8 = k.val; omega)⟩

/-- A sweep over channels that sets a stage of each by a function that acts once. -/
theorem forAll_modStage (f : Stage → Stage) (hf : ∀ g, f (f g) = f g) (l : List Ch) (s : State) (k : Ch) :
    (forAll l (fun c t => t.modStage c f) s).ch k =
      if k ∈ l then { s.ch k with stage := f (s.ch k).stage } else s.ch k := by
  induction l generalizing s with
  | nil => rfl
  | cons c l ih =>
    have hstep : (forAll (c :: l) (fun c t => t.modStage c f) s) = forAll l (fun c t => t.modStage c f) (s.modStage c f) := rfl
    rw [hstep, ih, State.modStage, State.modCh_ch]
    by_cases hk : k = c
    · subst hk
      rw [if_pos rfl, if_pos List.mem_cons_self]
      split
      · exact congrArg (fun g => { s.ch k with stage := g }) (hf _)
      · rfl
    · rw [if_neg hk]
      simp only [List.mem_cons, hk, false_or]

theorem forAll_modStage_only (f : Stage → Stage) (l : List Ch) (s : State) :
    { forAll l (fun c t => t.modStage c f) s with chan := s.chan } = s := by
  induction l generalizing s with
  | nil => rfl
  | cons c l ih => exact congrArg (fun t : State => { t with chan := s.chan }) (ih (s.modStage c f))

/-- A change of the stages of a die, and its event (R14). -/
theorem linkEvent {f : Stage → Stage} (hf : ∀ g, f (f g) = f g) (code : BitVec 16) (k : BitVec 2) (data : W32) :
    let t := (forAll (chansOfDie die) (fun c t => t.modStage c f) s).raise code k data
    (s.Room → Stored s t code k data) ∧ (∀ k : Ch, k.val / 8 = die.val → t.ch k = { s.ch k with stage := f (s.ch k).stage }) ∧
      ∀ k : Ch, ¬k.val / 8 = die.val → t.ch k = s.ch k := by
  have honly := forAll_modStage_only f (chansOfDie die) s
  have hch := forAll_modStage f hf (chansOfDie die) s
  obtain ⟨v, hv⟩ : ∃ v, v = forAll (chansOfDie die) (fun c t => t.modStage c f) s := ⟨_, rfl⟩
  rw [← hv] at honly hch ⊢
  have hkeep (k' : Ch) : (v.raise code k data).ch k' = v.ch k' := by rw [State.ch, State.raise_chan, ← State.ch]
  refine ⟨fun hr => ?_, fun k' hk => ?_, fun k' hk => ?_⟩
  · have hgrow : Grows s v 0 := by
      rw [← honly]
      exact .of_same rfl rfl rfl
    exact hgrow.stored hr (by decide) _ _ _ _
  · rw [hkeep, hch, if_pos ((mem_chansOfDie die k').2 hk)]
  · rw [hkeep, hch, if_neg fun hm => hk ((mem_chansOfDie die k').1 hm)]

theorem stageLinkLoss_safe (hclk : s.clockOn = true) (hup : ∀ k : Ch, k.val / 8 = die.val → (s.ch k).stage.linkSafe = false) :
    exec (.stageLinkLoss die) s = .next ((forAll (chansOfDie die) (fun c t => t.modStage c fun g => { g with linkSafe := true, waitSample := false }) s).raise
      (chCode (dieFirst die) 0x59) 2 (linkData die)) := by
  have hany : (chansOfDie die).any (fun c => (s.ch c).stage.linkSafe) = false :=
    List.any_eq_false.2 fun k hk => by rw [hup k ((mem_chansOfDie die k).1 hk)]; decide
  exact if_pos (by rw [hclk, hany]; rfl)

theorem stageLinkRestore_waits (hclk : s.clockOn = true) (hdown : ∃ k : Ch, k.val / 8 = die.val ∧ (s.ch k).stage.linkSafe = true) :
    exec (.stageLinkRestore die) s = .next ((forAll (chansOfDie die) (fun c t => t.modStage c fun g => { g with linkSafe := false, waitSample := true }) s).raise
      (chCode (dieFirst die) 0x5A) 0 (linkData die)) := by
  obtain ⟨k, hk, hsafe⟩ := hdown
  have hany : (chansOfDie die).any (fun c => (s.ch c).stage.linkSafe) = true :=
    List.any_eq_true.2 ⟨k, (mem_chansOfDie die k).2 hk, hsafe⟩
  exact if_pos (by rw [hclk, hany]; rfl)

end Link

/-- Settles O33. -/
theorem legFaultsAndStageLinks : Obligations.LegFaultsAndStageLinks := by
  intro s c
  have hresponse {l : Leg} (hin : ((s.ch c).stage.leg l).inService = true) (why : Nat) (t : State) (ht : t = s.legFault c l why false) :=
    legFault_response (why := why) hin t ht
  refine ⟨fun l hs hin => ⟨fun hthaw => ?_, fun hfrz hnone => ?_⟩, fun iA iB hclk hlegs => ⟨fun hsum himb => ⟨fun hrun => ?_, fun hrun => ?_⟩,
    fun hsum => ?_⟩, fun hclk => ⟨fun hfield => ?_, fun hmode ha hw hb => ?_, fun hmode ha hw hb => ?_⟩, fun die hclk => ⟨fun hup => ?_, fun hdown => ?_⟩⟩
  · have hexec : exec (.desaturation c l hs false) s = .next (s.legFault c l (desatWhy hs) false) := by
      rw [exec_desaturation, execDesaturation, hin, hthaw]
      rfl
    refine ⟨_, hexec, ?_⟩
    cases l <;> exact hresponse hin _ _ rfl
  · rw [exec_desaturation, execDesaturation, hin, hfrz]
    simp only [Bool.not_true, Bool.false_eq_true, if_false, if_true]
    refine congrArg Host.Outcome.next (State.modCh_congr ?_)
    dsimp only
    rw [hnone, Option.none_or]
  · have hi : imbalanced iA iB = true := by simp [imbalanced, hsum, himb]
    rw [legImbalance_eq iA iB hclk hlegs, hi, if_pos rfl, if_neg (by omega)]
  · have hi : imbalanced iA iB = true := by simp [imbalanced, hsum, himb]
    refine ⟨_, (legImbalance_eq iA iB hclk hlegs).trans (by rw [hi, if_pos rfl, if_pos hrun]), ?_⟩
    by_cases hlt : iA.natAbs < iB.natAbs
    · rw [if_pos hlt]
      exact hresponse (l := .a) (Stage.legs_two hlegs _) _ _ rfl
    · rw [if_neg hlt]
      exact hresponse (l := .b) (Stage.legs_two hlegs _) _ _ rfl
  · have hi : imbalanced iA iB = false := by
      have hlow : decide (1000000 ≤ iA.natAbs + iB.natAbs) = false := decide_eq_false (by omega)
      rw [imbalanced, hlow]
      rfl
    rw [legImbalance_eq iA iB hclk hlegs, hi, if_neg (by decide)]
  · refine ⟨_, (if_pos hclk : exec (.chLegRestore c) s = _), ?_⟩
    rw [State.legRestore, if_pos hfield]
    exact ⟨State.raise_chan .., fun hr => Stored.of_raise s hr _ _ _⟩
  · exact chLegRestore_returns hclk hmode ha hw hb
  · have ha2 : (((s.ch c).stage.leg .a).inService || ((s.ch c).stage.leg .a).worn) = true := by
      have h2 : ((s.ch c).stage.leg .a).worn = true := hw
      rw [h2, Bool.or_true]
    have hb2 : (((s.ch c).stage.leg .b).inService || ((s.ch c).stage.leg .b).worn) = true := by
      have h1 : ((s.ch c).stage.leg .b).inService = true := hb
      rw [h1]
      rfl
    rw [chLegRestore_eq hclk hmode, State.restoreLeg_in ha2, State.restoreLeg_in hb2]
  · obtain ⟨hev, hmine, hrest⟩ := linkEvent (s := s) (die := die) (f := fun g => { g with linkSafe := true, waitSample := false }) (fun _ => rfl)
      (chCode (dieFirst die) 0x59) 2 (linkData die)
    refine ⟨_, stageLinkLoss_safe hclk hup, hev, fun k hk => ?_, hrest⟩
    rw [hmine k hk]
    exact ⟨rfl, rfl⟩
  · obtain ⟨hev, hmine, hrest⟩ := linkEvent (s := s) (die := die) (f := fun g => { g with linkSafe := false, waitSample := true }) (fun _ => rfl)
      (chCode (dieFirst die) 0x5A) 0 (linkData die)
    refine ⟨_, stageLinkRestore_waits hclk hdown, hev, fun k hk => ?_, hrest⟩
    rw [hmine k hk]
    exact ⟨rfl, rfl⟩

end Sys2Proof.Machine
end

section
/-! PROOFS. Writes of a channel's set-up: its engine's control word (Table 06.9) and its stage's configuration (R106, R109, Table 05.6). -/

namespace Sys2Proof.Machine

section EngCtrl

variable {s : State} {c : Ch} {v : W32}

/-- Nothing is latched while the FIFOs that WAIT asks for are empty. -/
theorem State.levelCh_quiet (hi : (s.ch c).istrm = []) (hn : (s.ch c).snse = []) : s.levelCh c = s := by
  rw [State.levelCh, hi, List.length_nil, if_neg (Nat.not_lt_zero _)]
  exact if_pos (by rw [hn]; rfl)

theorem State.latchCh_other {e k : Eng} (bit : Nat) (hctl : (s.ch c).ctl = some e) (hk : k ≠ e) : (s.latchCh c bit).eng[k] = s.eng[k] := by
  rw [State.latchCh, hctl]
  dsimp only
  split
  · exact s.modEng_eng_other _ _ _ hk
  · rfl

theorem State.levelCh_other {e k : Eng} (hctl : (s.ch c).ctl = some e) (hk : k ≠ e) : (s.levelCh c).eng[k] = s.eng[k] := by
  have hsnse (t : State) (ht : (t.ch c).ctl = some e) : (if (t.ch c).snse.isEmpty then t else t.latchCh c 2).eng[k] = t.eng[k] := by
    split
    · rfl
    · exact State.latchCh_other 2 ht hk
  rw [State.levelCh]
  split
  · rw [hsnse _ ((congrArg Chan.ctl (s.latchCh_ch c 1 c)).trans hctl)]
    exact State.latchCh_other 1 hctl hk
  · exact hsnse s hctl

theorem State.levelCh_regs (s : State) (c : Ch) : (s.levelCh c).regs = s.regs := by
  obtain ⟨w, h, -⟩ := s.levelCh_eq c
  rw [h]

theorem State.ctrlWritten_fifos (s : State) (c : Ch) (v : W32) : (s.ctrlWritten c v).ch c =
    { s.ch c with istrm := if v.getLsbD 1 then (s.ch c).istrm else [], vstrm := if v.getLsbD 2 then (s.ch c).vstrm else [] } := by
  have hsame : (s.setReg (R.CH_ENG_CTRL c) ((v &&& 0x00003F06) ||| (s.reg (R.CH_ENG_CTRL c) &&& 1))).ch c = s.ch c := rfl
  unfold ctrlWritten
  dsimp only
  cases v.getLsbD 1 <;> cases v.getLsbD 2 <;> simp only [Bool.false_eq_true, if_false, if_true, modCh_ch, hsame]

theorem State.ctrlWritten_eng (s : State) (c : Ch) (v : W32) : (s.ctrlWritten c v).eng = s.eng := by
  unfold ctrlWritten
  dsimp only
  split <;> split <;> rfl

/-- The control word with RUN 0. -/
theorem ctrlWord_stopped (v w : W32) (f : Fld) (hlo : f.lo = 0) (hw : f.w = 1) :
    withField ((v &&& 0x00003F06) ||| (w &&& 1)) f 0 = v &&& 0x3F06 := by
  refine BitVec.eq_of_getLsbD_eq fun i hi => ?_
  rw [withField_getLsbD _ _ _ _ (by omega), hlo, hw]
  by_cases h0 : i = 0
  · subst h0
    simp
  · have hone : (1#32).getLsbD i = false := by simp [h0]
    simp [hone, show ¬i < 1 by omega]

theorem ctrlWord_idle (v w : W32) (h : w.getLsbD 0 = false) : (v &&& 0x00003F06) ||| (w &&& 1) = v &&& 0x3F06 := by
  refine BitVec.eq_of_getLsbD_eq fun i hi => ?_
  by_cases h0 : i = 0
  · subst h0
    simp only [BitVec.getLsbD_or, BitVec.getLsbD_and, h, Bool.false_and, Bool.or_false]
  · have hone : (1#32).getLsbD i = false := by simp [h0]
    simp [hone]

theorem chEngCtrlWrite_eq (hclk : s.clockOn = true) : exec (.chEngCtrlWrite c v) s = .next (s.engCtrlWrite c v) := if_pos hclk

theorem chEngCtrlWrite_field (hclk : s.clockOn = true) (hm : s.mode.mode = .field) : ∃ t, exec (.chEngCtrlWrite c v) s = .next t ∧
    (s.Room → Stored s t (chCode c 0x56) 0 (BitVec.ofNat 32 c.val)) ∧ t.chan = s.chan ∧ t.eng = s.eng ∧
    t.reg (R.CH_ENG_CTRL c) = s.reg (R.CH_ENG_CTRL c) := by
  refine ⟨_, chEngCtrlWrite_eq hclk, ?_⟩
  rw [State.engCtrlWrite, if_pos hm]
  exact ⟨fun hr => Stored.of_raise s hr _ _ _, State.raise_chan .., State.raise_eng .., State.raise_reg _ _ _ _ _ (engCtrl_ne c c).2⟩

/-- RUN cleared on a channel whose program runs (R165). -/
theorem chEngCtrlWrite_stops (hclk : s.clockOn = true) (hm : s.mode.mode ≠ .field) (hv : v.getLsbD 0 = false)
    (hrun : s.flag (R.CH_ENG_CTRL_RUN c) = true) : ∃ t, exec (.chEngCtrlWrite c v) s = .next t ∧ t.reg (R.CH_ENG_CTRL c) = v &&& 0x3F06 ∧
      (t.ch c).flight = (s.ch c).flight ++ [⟨0, s.now + 12, none⟩] ∧ (t.ch c).stopReq = true ∧
      ((t.ch c).istrm = [] → (s.ch c).snse = [] → t.eng = s.eng) ∧
      (t.ch c).istrm = (if v.getLsbD 1 then (s.ch c).istrm else []) ∧ (t.ch c).vstrm = (if v.getLsbD 2 then (s.ch c).vstrm else []) := by
  obtain ⟨u, hu⟩ : ∃ u, u = (s.ctrlWritten c v).runStop c := ⟨_, rfl⟩
  have heq : s.engCtrlWrite c v = u.levelCh c := by
    rw [s.engCtrlWrite_eq c v hm, hv, hrun, hu]
    rfl
  have hch : u.ch c = { s.ch c with istrm := if v.getLsbD 1 then (s.ch c).istrm else [], vstrm := if v.getLsbD 2 then (s.ch c).vstrm else [], flight := (s.ch c).flight ++ [⟨0, s.now + 12, none⟩], stopReq := true, dueOpen := false } := by
    rw [hu, State.runStop_ch, s.ctrlWritten_fifos, State.now, (s.ctrlWritten_only c v).tick, ← State.now]
  have hword : u.reg (R.CH_ENG_CTRL c) = v &&& 0x3F06 := by
    have hlat (t : State) (a : Nat) : (t.runStop c).reg a = ((t.put (R.CH_ENG_CTRL_RUN c) 0).putFlag (R.CH_ENG_STAT_LAT_ENGINE c) false).reg a := rfl
    rw [hu, hlat, State.reg_putFlag_far (h := (engStat_ne_engCtrl c).symm)]
    refine (State.reg_setReg_same ..).trans ?_
    have hw := s.ctrlWritten_word c v
    exact (congrArg (fun w => withField w (R.CH_ENG_CTRL_RUN c) 0) hw).trans (ctrlWord_stopped v _ _ rfl rfl)
  have hlch : (u.levelCh c).ch c = u.ch c := u.levelCh_ch c c
  refine ⟨_, (chEngCtrlWrite_eq hclk).trans (congrArg Host.Outcome.next heq), ?_⟩
  rw [hlch, State.reg, u.levelCh_regs, ← State.reg, hword, hch]
  refine ⟨rfl, rfl, rfl, fun hi hn => ?_, rfl, rfl⟩
  rw [State.levelCh_quiet (by rw [hch]; exact hi) (by rw [hch]; exact hn), hu]
  exact s.ctrlWritten_eng c v

theorem chEngCtrlWrite_idle (hclk : s.clockOn = true) (hm : s.mode.mode ≠ .field) (hv : v.getLsbD 0 = false)
    (hrun : s.flag (R.CH_ENG_CTRL_RUN c) = false) : ∃ t, exec (.chEngCtrlWrite c v) s = .next t ∧ t.reg (R.CH_ENG_CTRL c) = v &&& 0x3F06 ∧
      (t.ch c).flight = (s.ch c).flight ∧ ((t.ch c).istrm = [] → (s.ch c).snse = [] → t.eng = s.eng) := by
  obtain ⟨u, hu⟩ : ∃ u, u = s.ctrlWritten c v := ⟨_, rfl⟩
  have heq : s.engCtrlWrite c v = u.levelCh c := by
    rw [s.engCtrlWrite_eq c v hm, hv, hrun, hu]
    rfl
  have hch : u.ch c = { s.ch c with istrm := if v.getLsbD 1 then (s.ch c).istrm else [], vstrm := if v.getLsbD 2 then (s.ch c).vstrm else [] } := by
    rw [hu, s.ctrlWritten_fifos]
  have hword : u.reg (R.CH_ENG_CTRL c) = v &&& 0x3F06 := by
    rw [State.run_bit] at hrun
    rw [hu, s.ctrlWritten_word, ctrlWord_idle v _ hrun]
  have hlch : (u.levelCh c).ch c = u.ch c := u.levelCh_ch c c
  refine ⟨_, (chEngCtrlWrite_eq hclk).trans (congrArg Host.Outcome.next heq), ?_⟩
  rw [hlch, State.reg, u.levelCh_regs, ← State.reg, hword, hch]
  refine ⟨rfl, rfl, fun hi hn => ?_⟩
  rw [State.levelCh_quiet (by rw [hch]; exact hi) (by rw [hch]; exact hn), hu]
  exact s.ctrlWritten_eng c v

theorem programmed_other {e k : Eng} (hk : k ≠ e) : (s.programmed c e).eng[k] = s.eng[k] := upd_other _ _ _ _ hk

theorem programmed_ctl (s : State) (c : Ch) (e : Eng) : ((s.programmed c e).ch c).ctl = (s.ch c).ctl := by
  unfold State.programmed
  simp only [State.putFlag_ch, State.put_ch, State.modCh_ch, if_true]
  rfl

theorem chEngCtrlWrite_starts {e : Eng} (hclk : s.clockOn = true) (hm : s.mode.mode ≠ .field) (hv : v.getLsbD 0 = true)
    (hmem : s.isMember c = false) (hrun : s.flag (R.CH_ENG_CTRL_RUN c) = false) (hload : s.flag (R.CH_ENG_STAT_LOADED c) = true)
    (hctl : (s.ch c).ctl = some e) :
    ∃ t, exec (.chEngCtrlWrite c v) s = .next t ∧ t.flag (R.CH_ENG_CTRL_RUN c) = true ∧ t.eng[e].running = true ∧
      t.eng[e].pc = 4 * (s.ch c).slot.entry ∧ (∀ k : Eng, k ≠ e → t.eng[k] = s.eng[k]) := by
  obtain ⟨-, hflag, heng⟩ := s.ctrlStart_eq c v hm hv hrun hload hmem
  refine ⟨_, chEngCtrlWrite_eq hclk, hflag, (heng e hctl).1, (heng e hctl).2, fun k hk => ?_⟩
  obtain ⟨u, hu⟩ : ∃ u, u = (s.ctrlWritten c v).put (R.CH_ENG_CTRL_RUN c) 1 := ⟨_, rfl⟩
  have hload' : (s.ctrlWritten c v).flag (R.CH_ENG_STAT_LOADED c) = true := by
    rw [State.flag, State.get, s.ctrlWritten_reg c v (R.CH_ENG_STAT_LOADED c).addr (engStat_ne_engCtrl c), ← State.get, ← State.flag, hload]
  have heq : s.engCtrlWrite c v = (u.startProgram c).levelCh c := by
    rw [s.engCtrlWrite_eq c v hm, hv, if_pos rfl, State.runStart, hload', State.isMember_congr fun k => s.ownTopo_ctrlWritten c k v, hmem,
      s.ctrlWritten_run, hrun, hu]
    rfl
  have huch : u.ch c = _ := (hu ▸ rfl : u.ch c = (s.ctrlWritten c v).ch c).trans (s.ctrlWritten_fifos c v)
  have huctl : (u.ch c).ctl = some e := by rw [huch]; exact hctl
  have hstart := u.startProgram_some huctl
  have hpctl : ((u.startProgram c).ch c).ctl = some e := by
    rw [hstart, State.ch, State.raise_chan, ← State.ch, programmed_ctl, huctl]
  rw [heq, State.levelCh_other hpctl hk, hstart, State.raise_eng, programmed_other hk, hu]
  exact congrArg (fun x : Vector Engine 272 => x[k]) (s.ctrlWritten_eng c v)

theorem chEngCtrlWrite_unloaded (hclk : s.clockOn = true) (hm : s.mode.mode ≠ .field) (hv : v.getLsbD 0 = true)
    (hload : s.flag (R.CH_ENG_STAT_LOADED c) = false) :
    ∃ t, exec (.chEngCtrlWrite c v) s = .next t ∧ t.flag (R.CH_ENG_CTRL_RUN c) = false ∧
      ((t.ch c).istrm = [] → (s.ch c).snse = [] → t.eng = s.eng) := by
  obtain ⟨u, hu⟩ : ∃ u, u = (s.ctrlWritten c v).put (R.CH_ENG_CTRL_RUN c) 0 := ⟨_, rfl⟩
  have hload' : (s.ctrlWritten c v).flag (R.CH_ENG_STAT_LOADED c) = false := by
    rw [State.flag, State.get, s.ctrlWritten_reg c v (R.CH_ENG_STAT_LOADED c).addr (engStat_ne_engCtrl c), ← State.get, ← State.flag, hload]
  have heq : s.engCtrlWrite c v = u.levelCh c := by
    rw [s.engCtrlWrite_eq c v hm, hv, if_pos rfl, State.runStart, hload', hu]
    rfl
  have huch : u.ch c = _ := (hu ▸ rfl : u.ch c = (s.ctrlWritten c v).ch c).trans (s.ctrlWritten_fifos c v)
  refine ⟨_, (chEngCtrlWrite_eq hclk).trans (congrArg Host.Outcome.next heq), ?_, fun hi hn => ?_⟩
  · rw [State.levelCh_flag, hu, State.flag, State.get_put_same _ _ _ (by exact (by decide : 0 + 1 ≤ 32))]
    rfl
  · rw [State.levelCh_ch] at hi
    rw [State.levelCh_quiet hi (by rw [huch]; exact hn), hu]
    exact s.ctrlWritten_eng c v

end EngCtrl

section StageCfg

variable {s : State} {c : Ch} {v : W32}

/-- The fields that FIELD locks (R109). -/
def cfgLocked (c : Ch) : List Fld := [R.CH_STAGE_CFG_SAFE c, R.CH_STAGE_CFG_FRZ c, R.CH_STAGE_CFG_SNS c, R.CH_STAGE_CFG_ENABLE c]

/-- TOPO as a write asks for it. -/
def cfgWant (c : Ch) (v : W32) : Nat := if fieldOf v (R.CH_STAGE_CFG_TOPO c) ≤ 3 then fieldOf v (R.CH_STAGE_CFG_TOPO c) else 0

/-- The word of a write with the fields that stay. -/
def State.cfgBase (s : State) (c : Ch) (v : W32) : W32 :=
  if s.mode.mode = .field then
    (cfgLocked c).foldl (fun w f => withField w f (fieldOf (s.reg (R.CH_STAGE_CFG c)) f)) (v &&& 0x00001FCF)
  else v &&& 0x00001FCF

/-- The topology that a write leaves. -/
def State.cfgTopo (s : State) (c : Ch) (v : W32) : Nat := if s.mode.mode = .field || s.isMember c then s.ownTopo c else cfgWant c v

/-- A bridge with freeze-hold is altered. -/
def State.cfgBadFrz (s : State) (c : Ch) (v : W32) : Bool :=
  s.cfgTopo c v = topoBRIDGE && !s.isMember c &&
    fieldOf (withField (s.cfgBase c v) (R.CH_STAGE_CFG_TOPO c) (s.cfgTopo c v)) (R.CH_STAGE_CFG_FRZ c) = 1

/-- The word before ENABLE is judged. -/
def State.cfgShown (s : State) (c : Ch) (v : W32) : W32 :=
  let w := withField (s.cfgBase c v) (R.CH_STAGE_CFG_TOPO c) (s.cfgTopo c v)
  if s.cfgBadFrz c v then withField w (R.CH_STAGE_CFG_FRZ c) 0 else w

/-- ENABLE rises. -/
def State.cfgRising (s : State) (c : Ch) (v : W32) : Bool :=
  fieldOf (s.cfgShown c v) (R.CH_STAGE_CFG_ENABLE c) = 1 && fieldOf (s.reg (R.CH_STAGE_CFG c)) (R.CH_STAGE_CFG_ENABLE c) = 0

/-- ENABLE rises against R106. -/
def State.cfgBadEn (s : State) (c : Ch) (v : W32) : Bool := s.cfgRising c v && !periodsOk (s.smpPeriod c) (s.pwmP c)

/-- The word that a write leaves. -/
def State.cfgWord (s : State) (c : Ch) (v : W32) : W32 :=
  if s.cfgBadEn c v then withField (s.cfgShown c v) (R.CH_STAGE_CFG_ENABLE c) 0 else s.cfgShown c v

/-- A write that is refused as a whole (R109). -/
def State.cfgRefused (s : State) (c : Ch) (v : W32) : Bool :=
  !s.isMember c && cfgWant c v ≠ 0 && cfgWant c v ≠ s.ownTopo c && !s.canLead c (cfgWant c v)

/-- A write that alters what FIELD or the group keeps. -/
def State.cfgAltered (s : State) (c : Ch) (v : W32) : Bool :=
  (decide (s.mode.mode = .field) &&
      ((cfgLocked c).any (fun f => fieldOf v f ≠ fieldOf (s.reg (R.CH_STAGE_CFG c)) f) || cfgWant c v ≠ s.topoOf c)) ||
    (s.isMember c && cfgWant c v ≠ s.topoOf c)

/-- The state with a configuration word set, before its range acts. -/
def State.cfgSet (s : State) (c : Ch) (w : W32) (topo : Nat) : State :=
  let s0 := if fieldOf w (R.CH_STAGE_CFG_RANGE c) = fieldOf (s.reg (R.CH_STAGE_CFG c)) (R.CH_STAGE_CFG_RANGE c) then s
    else s.holdWord c (R.CH_STAGE_CFG c)
  let s1 := s0.setReg (R.CH_STAGE_CFG c) w
  forAll (if topo = s.ownTopo c then [] else (s1.groupOf c).tail) (fun m t => t.idleEngine m) s1

/-- A group switched on or off by its lead's word. -/
def State.cfgSwitch (s : State) (c : Ch) (w : W32) (on : Bool) : State :=
  if s.isMember c then s
  else if on then forAll (s.groupOf c) (fun m t => t.modStage m (·.enabled (t.fixedRange m = some false) t.now)) s
  else if fieldOf w (R.CH_STAGE_CFG_ENABLE c) = 0 then forAll (s.groupOf c) (fun m t => t.modStage m fun g => { g with trim := 0, held := [] }) s
  else s

/-- SNS starts anew in another mode. -/
def State.cfgSns (s : State) (c : Ch) (old w : W32) : State :=
  if fieldOf w (R.CH_STAGE_CFG_SNS c) ≠ fieldOf old (R.CH_STAGE_CFG_SNS c) then s.modStage c fun g => { g with snsVal := 0 } else s

/-- The state that a write leaves, but for its event. -/
def State.cfgDone (s : State) (c : Ch) (v : W32) : State :=
  ((s.cfgSet c (s.cfgWord c v) (s.cfgTopo c v)).cfgSwitch c (s.cfgWord c v) (s.cfgRising c v && !s.cfgBadEn c v)).cfgSns c
    (s.reg (R.CH_STAGE_CFG c)) (s.cfgWord c v)

theorem State.stageCfgWrite_eq (s : State) (c : Ch) (v : W32) : s.stageCfgWrite c v =
    if s.cfgRefused c v then s.raise (chCode c 0x56) 0 (BitVec.ofNat 32 c.val)
    else if s.cfgAltered c v || s.cfgBadFrz c v || s.cfgBadEn c v then (s.cfgDone c v).raise (chCode c 0x56) 0 (BitVec.ofNat 32 c.val)
    else s.cfgDone c v := rfl

/-- A sweep that leaves a part of the state alone. -/
theorem State.cfgSwitch_keeps {α : Type} (g : State → α) (hg : ∀ (t : State) (m : Ch) (f : Stage → Stage), g (t.modStage m f) = g t)
    (s : State) (c : Ch) (w : W32) (on : Bool) : g (s.cfgSwitch c w on) = g s := by
  unfold State.cfgSwitch
  split
  · rfl
  · split
    · exact forAll_keeps g (fun m t => hg t m _) _ s
    · split
      · exact forAll_keeps g (fun m t => hg t m _) _ s
      · rfl

theorem State.idleEngine_eq (s : State) (c : Ch) : ∃ w : Vector Engine 272, s.idleEngine c = { s with eng := w } := by
  unfold State.idleEngine
  split
  · exact ⟨_, rfl⟩
  · exact ⟨s.eng, rfl⟩

theorem State.holdWord_eq (s : State) (c : Ch) (a : Nat) : ∃ l, s.holdWord c a = s.withCh c { s.ch c with stage := { (s.ch c).stage with held := l } } := by
  unfold State.holdWord
  dsimp only
  split
  · exact ⟨(a, s.reg a) :: (s.ch c).stage.held, (congrArg (fun t : State => t.modStage c fun g => { g with held := (a, s.reg a) :: g.held })
      (s.withCh_same c)).symm.trans (s.withCh_modStage ..)⟩
  · exact ⟨(s.ch c).stage.held, (s.withCh_same c).symm⟩

/-- Setting the word changes it, what the stage holds, and engines. -/
theorem State.cfgSet_eq (s : State) (c : Ch) (w : W32) (topo : Nat) : ∃ (l : List (Nat × W32)) (e : Vector Engine 272), s.cfgSet c w topo =
    { (s.setReg (R.CH_STAGE_CFG c) w).withCh c { s.ch c with stage := { (s.ch c).stage with held := l } } with eng := e } := by
  have hidle (l : List Ch) (t : State) : ∃ e : Vector Engine 272, forAll l (fun m t => t.idleEngine m) t = { t with eng := e } := by
    induction l generalizing t with
    | nil => exact ⟨t.eng, rfl⟩
    | cons m l ih =>
      obtain ⟨e, he⟩ := t.idleEngine_eq m
      obtain ⟨e', he'⟩ := ih (t.idleEngine m)
      exact ⟨e', he'.trans (by rw [he])⟩
  have hhold : ∃ l, (if fieldOf w (R.CH_STAGE_CFG_RANGE c) = fieldOf (s.reg (R.CH_STAGE_CFG c)) (R.CH_STAGE_CFG_RANGE c) then s
      else s.holdWord c (R.CH_STAGE_CFG c)) = s.withCh c { s.ch c with stage := { (s.ch c).stage with held := l } } := by
    split
    · exact ⟨(s.ch c).stage.held, (s.withCh_same c).symm⟩
    · exact s.holdWord_eq c _
  obtain ⟨l, hl⟩ := hhold
  obtain ⟨e, he⟩ := hidle (if topo = s.ownTopo c then [] else
    (((s.withCh c { s.ch c with stage := { (s.ch c).stage with held := l } }).setReg (R.CH_STAGE_CFG c) w).groupOf c).tail)
    ((s.withCh c { s.ch c with stage := { (s.ch c).stage with held := l } }).setReg (R.CH_STAGE_CFG c) w)
  refine ⟨l, e, ?_⟩
  rw [State.cfgSet]
  dsimp only
  rw [hl, he]
  rfl

theorem State.cfgSns_keeps {α : Type} (g : State → α) (hg : ∀ (t : State) (m : Ch) (f : Stage → Stage), g (t.modStage m f) = g t)
    (s : State) (c : Ch) (old w : W32) : g (s.cfgSns c old w) = g s := by
  unfold State.cfgSns
  split
  · exact hg s c _
  · rfl

/-- The words that a write leaves. -/
theorem State.cfgDone_reg (s : State) (c : Ch) (v : W32) (a : Nat) :
    (s.cfgDone c v).reg a = if a = R.CH_STAGE_CFG c then s.cfgWord c v else s.reg a := by
  obtain ⟨l, e, hset⟩ := s.cfgSet_eq c (s.cfgWord c v) (s.cfgTopo c v)
  rw [State.cfgDone, State.cfgSns_keeps (State.reg · a) (fun _ _ _ => rfl), State.cfgSwitch_keeps (State.reg · a) (fun _ _ _ => rfl), hset]
  exact s.reg_setReg _ _ _

theorem State.cfgDone_grows (s : State) (c : Ch) (v : W32) : Grows s (s.cfgDone c v) 0 := by
  obtain ⟨l, e, hset⟩ := s.cfgSet_eq c (s.cfgWord c v) (s.cfgTopo c v)
  have htick : (s.cfgDone c v).tick = s.tick := by
    rw [State.cfgDone, State.cfgSns_keeps State.tick (fun _ _ _ => rfl), State.cfgSwitch_keeps State.tick (fun _ _ _ => rfl), hset]
    rfl
  have hhp : (s.cfgDone c v).hp = s.hp := by
    rw [State.cfgDone, State.cfgSns_keeps State.hp (fun _ _ _ => rfl), State.cfgSwitch_keeps State.hp (fun _ _ _ => rfl), hset]
    rfl
  have hcfg : R.HP_EVT_CFG_F0_EN.addr ≠ R.CH_STAGE_CFG c := by
    simp only [R.HP_EVT_CFG_F0_EN, R.HP_EVT_CFG, R.CH_STAGE_CFG]
    omega
  refine .of_same (by rw [htick]) ?_ (by rw [hhp])
  rw [State.flag, State.get, s.cfgDone_reg, if_neg hcfg, ← State.get, ← State.flag]

/-- An altered write is told (R109). -/
theorem stageCfgWrite_told (h : (s.cfgRefused c v || s.cfgAltered c v || s.cfgBadEn c v) = true) (hr : s.Room) :
    Stored s (s.stageCfgWrite c v) (chCode c 0x56) 0 (BitVec.ofNat 32 c.val) := by
  rw [State.stageCfgWrite_eq]
  split
  · exact Stored.of_raise s hr _ _ _
  · rename_i hno
    rw [if_pos]
    · exact (s.cfgDone_grows c v).stored hr (by decide) _ _ _ _
    · simp only [Bool.or_eq_true] at h ⊢
      rcases h with (h | h) | h
      · exact absurd h hno
      · exact .inl (.inl h)
      · exact .inr h

theorem chStageCfgWrite_eq (hclk : s.clockOn = true) : exec (.chStageCfgWrite c v) s = .next (s.stageCfgWrite c v) := if_pos hclk

/-- A word whose field reads as a value already. -/
theorem withField_self {w : W32} {f : Fld} {x : Nat} (h : fieldOf w f = x) : withField w f x = w := by
  refine BitVec.eq_of_getLsbD_eq fun i hi => ?_
  rw [withField_getLsbD _ _ _ _ hi]
  split
  · rename_i hin
    rw [← h, fieldOf_testBit, decide_eq_true (by omega), Bool.true_and]
    exact congrArg w.getLsbD (by omega)
  · rfl

theorem fieldOf_and {w m : W32} {f : Fld} (hm : ∀ i, i < f.w → m.getLsbD (f.lo + i) = true) : fieldOf (w &&& m) f = fieldOf w f := by
  refine Nat.eq_of_testBit_eq fun i => ?_
  rw [fieldOf_testBit, fieldOf_testBit]
  by_cases hi : i < f.w
  · simp [hm i hi]
  · simp [hi]

/-- The fields of a configuration word lie in the bits that a write takes. -/
theorem cfgMask (c : Ch) : fieldOf (v &&& 0x00001FCF) (R.CH_STAGE_CFG_TOPO c) = fieldOf v (R.CH_STAGE_CFG_TOPO c) ∧
    fieldOf (v &&& 0x00001FCF) (R.CH_STAGE_CFG_ENABLE c) = fieldOf v (R.CH_STAGE_CFG_ENABLE c) := by
  constructor
  · refine fieldOf_and fun i hi => ?_
    have h3 : i < 3 := hi
    show (0x00001FCF : W32).getLsbD (1 + i) = true
    interval_cases i <;> decide
  · refine fieldOf_and fun i hi => ?_
    have h1 : i < 1 := hi
    show (0x00001FCF : W32).getLsbD (0 + i) = true
    interval_cases i
    decide

theorem periodsOk_iff (n p : Nat) : periodsOk n p = true ↔ p ≠ 0 ∧ n % p = 0 ∧ 1 ≤ n / p ∧ n / p ≤ 200 := by
  simp [periodsOk, and_assoc]

/-- An ENABLE that a single channel's write raises outside FIELD. -/
structure CfgRise (s : State) (c : Ch) (v : W32) : Prop where
  mode : s.mode.mode ≠ .field
  lead : s.leadOf c = c
  topo : s.topoOf c = 0
  asks : fieldOf v (R.CH_STAGE_CFG_TOPO c) = 0
  off : s.flag (R.CH_STAGE_CFG_ENABLE c) = false
  on : fieldOf v (R.CH_STAGE_CFG_ENABLE c) = 1

theorem CfgRise.own (h : CfgRise s c v) : s.ownTopo c = 0 := by
  have ht := h.topo
  rwa [State.topoOf, h.lead] at ht

theorem CfgRise.member (h : CfgRise s c v) : s.isMember c = false := by simp [State.isMember, h.lead]

theorem CfgRise.cfgTopo (h : CfgRise s c v) : s.cfgTopo c v = 0 := by
  simp [State.cfgTopo, h.mode, h.member, cfgWant, h.asks]

theorem CfgRise.base (h : CfgRise s c v) : s.cfgBase c v = v &&& 0x00001FCF := if_neg h.mode

theorem CfgRise.badFrz (h : CfgRise s c v) : s.cfgBadFrz c v = false := by
  simp [State.cfgBadFrz, h.cfgTopo, topoBRIDGE]

theorem CfgRise.shown (h : CfgRise s c v) : s.cfgShown c v = v &&& 0x00001FCF := by
  rw [State.cfgShown, h.badFrz, h.base, h.cfgTopo]
  exact withField_self ((cfgMask c).1.trans h.asks)

theorem CfgRise.rising (h : CfgRise s c v) : s.cfgRising c v = true := by
  have hold : fieldOf (s.reg (R.CH_STAGE_CFG c)) (R.CH_STAGE_CFG_ENABLE c) = 0 := State.get_of_flag (f := R.CH_STAGE_CFG_ENABLE c) rfl h.off
  have hnew : fieldOf (v &&& 0x00001FCF) (R.CH_STAGE_CFG_ENABLE c) = 1 := (cfgMask c).2.trans h.on
  rw [State.cfgRising, h.shown, hnew, hold]
  rfl

theorem CfgRise.taken (h : CfgRise s c v) : s.cfgRefused c v = false ∧ s.cfgAltered c v = false := by
  simp [State.cfgRefused, State.cfgAltered, cfgWant, h.asks, h.mode, h.member]

theorem State.cfgSns_ch (t : State) (c : Ch) (old w : W32) : (∃ x, (t.cfgSns c old w).ch c = { t.ch c with stage := { (t.ch c).stage with snsVal := x } }) ∧
    ∀ k, k ≠ c → (t.cfgSns c old w).ch k = t.ch k := by
  unfold State.cfgSns
  split
  · refine ⟨⟨0, ?_⟩, fun k hk => ?_⟩
    · rw [State.modStage, State.modCh_ch, if_pos rfl]
    · rw [State.modStage, State.modCh_ch, if_neg hk]
  · exact ⟨⟨(t.ch c).stage.snsVal, rfl⟩, fun _ _ => rfl⟩

/-- Setting the word of a single channel that stays one leaves every group as it is. -/
theorem CfgRise.ownTopo (h : CfgRise s c v) {w : W32} (hw : fieldOf w (R.CH_STAGE_CFG_TOPO c) = 0) (k : Ch) :
    (s.setReg (R.CH_STAGE_CFG c) w).ownTopo k = s.ownTopo k := by
  by_cases hk : k = c
  · subst hk
    rw [h.own]
    exact (congrArg (fieldOf · (R.CH_STAGE_CFG_TOPO k)) (State.reg_setReg_same ..)).trans hw
  · refine State.get_setReg_other _ _ _ _ ?_
    simp only [R.CH_STAGE_CFG_TOPO, R.CH_STAGE_CFG]
    intro he
    exact hk (Fin.ext (by omega))

/-- Enabling a single channel whose periods agree starts its soft start (R106, R121). -/
theorem chStageCfgWrite_enables (hclk : s.clockOn = true) (h : CfgRise s c v) (hp : periodsOk (s.smpPeriod c) (s.pwmP c) = true) :
    ∃ t, exec (.chStageCfgWrite c v) s = .next t ∧ t.reg (R.CH_STAGE_CFG c) = v &&& 0x1FCF ∧ (t.ch c).stage.soft = true ∧
      (t.ch c).stage.softOn = 0 ∧ (t.ch c).stage.budget = 36000000 ∧ (t.ch c).stage.peakExh = false ∧
      (∀ k, k ≠ c → t.ch k = s.ch k) ∧ (∀ a, a ≠ R.CH_STAGE_CFG c → t.reg a = s.reg a) := by
  have hbad : s.cfgBadEn c v = false := by rw [State.cfgBadEn, hp, h.rising]; rfl
  have hword : s.cfgWord c v = v &&& 0x1FCF := by rw [State.cfgWord, hbad, h.shown]; rfl
  have hexec : exec (.chStageCfgWrite c v) s = .next (s.cfgDone c v) := by
    rw [chStageCfgWrite_eq hclk, State.stageCfgWrite_eq, h.taken.1, h.taken.2, h.badFrz, hbad]
    rfl
  have hreg := s.cfgDone_reg c v
  refine ⟨_, hexec, by rw [hreg, if_pos rfl, hword], ?_⟩
  obtain ⟨l, e, hset⟩ := s.cfgSet_eq c (s.cfgWord c v) (s.cfgTopo c v)
  obtain ⟨u, hu⟩ : ∃ u, u = s.cfgSet c (s.cfgWord c v) (s.cfgTopo c v) := ⟨_, rfl⟩
  rw [← hu] at hset
  have hown (k : Ch) : u.ownTopo k = s.ownTopo k := by
    rw [← h.ownTopo (w := s.cfgWord c v) (by rw [hword, (cfgMask c).1, h.asks]) k, hset]
    rfl
  have hmem : u.isMember c = false := (State.isMember_congr hown).trans h.member
  have htopo : u.topoOf c = 0 := by
    rw [← h.topo]
    simp only [State.topoOf, State.leadOf, hown]
  have hch (k : Ch) : u.ch k = if k = c then { s.ch c with stage := { (s.ch c).stage with held := l } } else s.ch k := by
    have hmod : u.ch k = ((s.setReg (R.CH_STAGE_CFG c) (s.cfgWord c v)).withCh c { s.ch c with stage := { (s.ch c).stage with held := l } }).ch k := by
      rw [hset]
      rfl
    rw [hmod, State.withCh, State.modCh_ch]
    rfl
  obtain ⟨x, hx⟩ : ∃ x, x = u.modStage c (·.enabled (u.fixedRange c = some false) u.now) := ⟨_, rfl⟩
  have hswitch : u.cfgSwitch c (s.cfgWord c v) (s.cfgRising c v && !s.cfgBadEn c v) = x := by
    rw [State.cfgSwitch, hmem, h.rising, hbad, State.groupOf_single htopo, hx]
    rfl
  have hdone : s.cfgDone c v = x.cfgSns c (s.reg (R.CH_STAGE_CFG c)) (s.cfgWord c v) := by rw [State.cfgDone, ← hu, hswitch]
  obtain ⟨⟨n, hn⟩, hothers⟩ := x.cfgSns_ch c (s.reg (R.CH_STAGE_CFG c)) (s.cfgWord c v)
  have hxc : x.ch c = { u.ch c with stage := (u.ch c).stage.enabled (u.fixedRange c = some false) u.now } := by
    rw [hx, State.modStage, State.modCh_ch, if_pos rfl]
  refine ⟨?_, ?_, ?_, ?_, fun k hk => ?_, fun a ha => by rw [hreg, if_neg ha]⟩
  iterate 4
    rw [hdone, hn, hxc]
    rfl
  rw [hdone, hothers k hk, hx, State.modStage, State.modCh_ch, if_neg hk, hch, if_neg hk]

theorem State.cfgSwitch_off_soft (s : State) (c : Ch) (w : W32) : ((s.cfgSwitch c w false).ch c).stage.soft = (s.ch c).stage.soft := by
  have hkeep (m : Ch) (t : State) : ((t.modStage m fun g => { g with trim := 0, held := [] }).ch c).stage.soft = (t.ch c).stage.soft := by
    rw [State.modStage, State.modCh_ch]
    split
    · rename_i hm
      rw [hm]
    · rfl
  unfold State.cfgSwitch
  split
  · rfl
  · rw [if_neg (by decide)]
    split
    · exact forAll_keeps (fun t => (t.ch c).stage.soft) hkeep _ s
    · rfl

/-- Enabling a single channel whose periods do not agree is refused (R106). -/
theorem chStageCfgWrite_unfit (hclk : s.clockOn = true) (h : CfgRise s c v) (hp : periodsOk (s.smpPeriod c) (s.pwmP c) = false) :
    ∃ t, exec (.chStageCfgWrite c v) s = .next t ∧ t.flag (R.CH_STAGE_CFG_ENABLE c) = false ∧
      (s.Room → Stored s t (chCode c 0x56) 0 (BitVec.ofNat 32 c.val)) ∧ (t.ch c).stage.soft = (s.ch c).stage.soft := by
  have hbad : s.cfgBadEn c v = true := by rw [State.cfgBadEn, hp, h.rising]; rfl
  have hwrite : s.stageCfgWrite c v = (s.cfgDone c v).raise (chCode c 0x56) 0 (BitVec.ofNat 32 c.val) := by
    rw [State.stageCfgWrite_eq, h.taken.1, h.taken.2, hbad, Bool.or_true]
    rfl
  refine ⟨_, chStageCfgWrite_eq hclk, ?_, fun hr => stageCfgWrite_told (by rw [hbad, Bool.or_true]) hr, ?_⟩
  · have hen : fieldOf (s.cfgWord c v) (R.CH_STAGE_CFG_ENABLE c) = 0 := by
      rw [State.cfgWord, if_pos hbad]
      exact fieldOf_withField_same _ _ _ (by exact (by decide : 0 + 1 ≤ 32))
    have hget : (s.cfgDone c v).get (R.CH_STAGE_CFG_ENABLE c) = 0 :=
      (congrArg (fieldOf · (R.CH_STAGE_CFG_ENABLE c)) ((s.cfgDone_reg c v _).trans (if_pos rfl))).trans hen
    rw [hwrite, State.raise_flag_far (h := (stageCfg_ne c c).2), State.flag, hget]
    rfl
  · obtain ⟨l, e, hset⟩ := s.cfgSet_eq c (s.cfgWord c v) (s.cfgTopo c v)
    have hsoft : ((s.cfgSet c (s.cfgWord c v) (s.cfgTopo c v)).ch c).stage.soft = (s.ch c).stage.soft := by
      have hch := (s.setReg (R.CH_STAGE_CFG c) (s.cfgWord c v)).withCh_ch c { s.ch c with stage := { (s.ch c).stage with held := l } }
      rw [hset]
      exact (congrArg (fun h : Chan => h.stage.soft) hch :)
    have hoff : (s.cfgRising c v && !s.cfgBadEn c v) = false := by rw [hbad, Bool.not_true, Bool.and_false]
    rw [hwrite, State.ch, State.raise_chan, ← State.ch, State.cfgDone, hoff]
    obtain ⟨⟨n, hn⟩, -⟩ := ((s.cfgSet c (s.cfgWord c v) (s.cfgTopo c v)).cfgSwitch c (s.cfgWord c v) false).cfgSns_ch c (s.reg (R.CH_STAGE_CFG c))
      (s.cfgWord c v)
    rw [hn]
    exact (State.cfgSwitch_off_soft ..).trans hsoft

/-- In FIELD a write keeps ENABLE (R109). -/
theorem chStageCfgWrite_field (hclk : s.clockOn = true) (hm : s.mode.mode = .field)
    (hne : fieldOf v (R.CH_STAGE_CFG_ENABLE c) ≠ s.get (R.CH_STAGE_CFG_ENABLE c)) :
    ∃ t, exec (.chStageCfgWrite c v) s = .next t ∧ (s.Room → Stored s t (chCode c 0x56) 0 (BitVec.ofNat 32 c.val)) ∧
      t.get (R.CH_STAGE_CFG_ENABLE c) = s.get (R.CH_STAGE_CFG_ENABLE c) := by
  have hold : s.get (R.CH_STAGE_CFG_ENABLE c) = fieldOf (s.reg (R.CH_STAGE_CFG c)) (R.CH_STAGE_CFG_ENABLE c) := rfl
  have halt : s.cfgAltered c v = true := by
    have hany : (cfgLocked c).any (fun f => fieldOf v f ≠ fieldOf (s.reg (R.CH_STAGE_CFG c)) f) = true :=
      List.any_eq_true.2 ⟨R.CH_STAGE_CFG_ENABLE c, by simp [cfgLocked], by simpa [hold] using hne⟩
    rw [State.cfgAltered, hany, hm]
    rfl
  have hbase : fieldOf (s.cfgBase c v) (R.CH_STAGE_CFG_ENABLE c) = s.get (R.CH_STAGE_CFG_ENABLE c) := by
    rw [State.cfgBase, if_pos hm]
    refine (fieldOf_withField_same _ (R.CH_STAGE_CFG_ENABLE c) _ (by exact (by decide : 0 + 1 ≤ 32))).trans ?_
    exact Nat.mod_eq_of_lt (s.get_lt (R.CH_STAGE_CFG_ENABLE c))
  have hshown : fieldOf (s.cfgShown c v) (R.CH_STAGE_CFG_ENABLE c) = s.get (R.CH_STAGE_CFG_ENABLE c) := by
    have htopo (x : Nat) : fieldOf (withField (s.cfgBase c v) (R.CH_STAGE_CFG_TOPO c) x) (R.CH_STAGE_CFG_ENABLE c) = s.get (R.CH_STAGE_CFG_ENABLE c) :=
      (fieldOf_withField_other _ _ _ _ (by exact (by decide : 0 + 1 ≤ 32)) (.inl (by exact (by decide : 0 + 1 ≤ 1)))).trans hbase
    rw [State.cfgShown]
    split
    · exact (fieldOf_withField_other _ _ _ _ (by exact (by decide : 0 + 1 ≤ 32)) (.inl (by exact (by decide : 0 + 1 ≤ 7)))).trans (htopo _)
    · exact htopo _
  have hrise : s.cfgRising c v = false := by
    rw [State.cfgRising, hshown, ← hold]
    by_cases h1 : s.get (R.CH_STAGE_CFG_ENABLE c) = 1
    · simp [h1]
    · simp [h1]
  have hword : s.cfgWord c v = s.cfgShown c v := by rw [State.cfgWord, State.cfgBadEn, hrise]; rfl
  refine ⟨_, chStageCfgWrite_eq hclk, fun hr => stageCfgWrite_told (by rw [halt, Bool.or_true, Bool.true_or]) hr, ?_⟩
  have hdone : (s.cfgDone c v).get (R.CH_STAGE_CFG_ENABLE c) = s.get (R.CH_STAGE_CFG_ENABLE c) :=
    (congrArg (fieldOf · (R.CH_STAGE_CFG_ENABLE c)) ((s.cfgDone_reg c v _).trans (if_pos rfl))).trans ((congrArg (fieldOf · _) hword).trans hshown)
  rw [State.stageCfgWrite_eq]
  split
  · exact State.raise_get_far _ (h := (stageCfg_ne c c).2) ..
  · split
    · exact (State.raise_get_far _ (h := (stageCfg_ne c c).2) ..).trans hdone
    · exact hdone

end StageCfg

/-- Settles O34. -/
theorem channelSetUpWrites : Obligations.ChannelSetUpWrites := by
  intro s c v hclk
  refine ⟨fun hm hlead htopo hasks hoff hon => ⟨fun h0 hmod h1 h200 => ?_, fun hbad => ?_⟩, chStageCfgWrite_field hclk, chEngCtrlWrite_field hclk,
    fun hm => ⟨chEngCtrlWrite_stops hclk hm, chEngCtrlWrite_idle hclk hm, fun e hv hmem hrun hload hctl => ?_, chEngCtrlWrite_unloaded hclk hm⟩⟩
  · exact chStageCfgWrite_enables hclk ⟨hm, hlead, htopo, hasks, hoff, hon⟩ ((periodsOk_iff _ _).2 ⟨h0, hmod, h1, h200⟩)
  · refine chStageCfgWrite_unfit hclk ⟨hm, hlead, htopo, hasks, hoff, hon⟩ (Bool.eq_false_iff.2 fun hok => ?_)
    obtain ⟨hp0, hp1, -, hp3⟩ := (periodsOk_iff _ _).1 hok
    rcases hbad with h | h | h
    · exact hp0 h
    · exact h hp1
    · exact absurd hp3 (Nat.not_le.2 h)
  · exact chEngCtrlWrite_starts hclk hm hv hmem hrun hload hctl

end Sys2Proof.Machine
end

section
/-! PROOFS. The decision boundary of the Keep that opens the pack switch for good (R44, R474; the under-voltage cut-off of chapter 12). -/

namespace Sys2Proof.Machine

/-- What an ordered under-voltage cut-off waits for: its time, the wall time and the mode. -/
def State.cut (s : State) : Option Nat × Nat × Mode := (s.power.uvCutAt, s.tick.wall, s.mode.mode)

theorem State.raise_cut (s : State) (c : BitVec 16) (k : BitVec 2) (d : W32) : (s.raise c k d).cut = s.cut := by
  simp only [State.cut, State.raise_power, State.raise_tick, State.raise_mode_mode]

theorem State.raiseLimited_cut (s : State) (c : BitVec 16) (k : BitVec 2) (d : W32) (u i : Nat) : (s.raiseLimited c k d u i).cut = s.cut := by
  simp only [State.cut, State.raiseLimited_power, State.raiseLimited_tick, State.raiseLimited_mode_mode]

theorem State.chgGo_cut (s : State) (n : Nat) : (s.chgGo n).cut = s.cut := by
  unfold State.chgGo
  dsimp only
  split
  · rfl
  · rw [State.raise_cut]
    rfl

theorem State.cellEvents_cut (s : State) : s.cellEvents.cut = s.cut := by
  have hpower (t : State) (a b : Bool) : (t.modPower fun p => { p with staleTold := a, cellsTold := b }).cut = t.cut := rfl
  have hraise (t : State) (b : Bool) (c : BitVec 16) : (if b then t.raise c 0 else t).cut = t.cut := by
    split
    · exact t.raise_cut ..
    · rfl
  exact (hpower _ _ _).trans ((hraise _ _ _).trans (hraise _ _ _))

theorem State.uvCheck_cut (s : State) : s.uvCheck.cut = s.cut := by
  unfold State.uvCheck
  split
  · split
    · rfl
    · rw [State.raise_cut]
      rfl
  · rfl

theorem State.suspStep_cut (s : State) : s.suspStep.cut = s.cut := by
  have hhold (t : State) (b : Bool) (d : W32) : (if b then t.raise 0x060B 0 d else t).cut = t.cut := by
    split
    · exact t.raise_cut ..
    · rfl
  unfold State.suspStep
  dsimp only
  refine (hhold _ _ _).trans ?_
  split
  · split
    · exact State.chgGo_cut ..
    · rfl
  · split
    · exact State.chgGo_cut ..
    · rfl

theorem State.ite_probeStop_cut (s : State) (b : Bool) : (if b then s.probeStop else s).cut = s.cut := by
  split <;> rfl

theorem State.ite_raiseLimited_cut (s : State) (b : Bool) (c : BitVec 16) (k : BitVec 2) (d : W32) (u : Nat) :
    (if b then s.raiseLimited c k d u else s).cut = s.cut := by
  split
  · exact s.raiseLimited_cut ..
  · rfl

theorem State.trim_cut (s : State) (p : Prop) [Decidable p] (d : W32) :
    (if p then (s.modPower fun p => { p with trims := p.trims + 1 }).raiseLimited 0x0610 0 d 0 else s).cut = s.cut := by
  split
  · exact State.raiseLimited_cut ..
  · rfl

theorem State.budgetPeriod_cut (s : State) : s.budgetPeriod.cut = s.cut := by
  unfold State.budgetPeriod
  dsimp only
  refine (State.ite_raiseLimited_cut ..).trans ((State.trim_cut ..).trans ?_)
  exact s.ite_probeStop_cut _

/-- The state of the charger's decisions before an ordered cut-off opens the switch. -/
theorem State.chargerDecide_uvOpen (s : State) : ∃ t : State, s.chargerDecide = t.uvOpen ∧ t.cut = s.cut := by
  have hbefore : s.cellTimers.cellEvents.uvCheck.suspStep.cut = s.cut :=
    (State.suspStep_cut _).trans ((State.uvCheck_cut _).trans (State.cellEvents_cut _))
  refine ⟨_, rfl, Eq.trans ?_ hbefore⟩
  split
  · exact State.chgGo_cut ..
  · split
    · exact State.chgGo_cut ..
    · rfl

theorem State.uvOpen_due {s : State} {n : Nat} {w : Nat} {m : Mode} (h : s.cut = (some n, w, m)) (hn : n ≤ w) (hm : m ≠ .field) :
    s.uvOpen = s.openSwitch.enterShip := by
  obtain ⟨hcut, hwall, hmode⟩ : s.power.uvCutAt = some n ∧ s.tick.wall = w ∧ s.mode.mode = m :=
    ⟨congrArg (·.1) h, congrArg (·.2.1) h, congrArg (·.2.2) h⟩
  simp only [State.uvOpen, hcut, hwall, hmode]
  rw [if_pos (by simp [hn, hm])]

/-- SHIP mode resets the Dome logic, and with it the Keep's own count of its boundaries. -/
theorem State.enterShip_pace (s : State) : s.enterShip.pace = {} ∧ s.enterShip.mode.mode = .ship :=
  ⟨forAll_keeps (·.pace) (fun _ _ => rfl) allRails _, rfl⟩

theorem State.estInit_pace (s : State) : s.estInit.pace = s.pace ∧ s.estInit.mode = s.mode := by
  unfold State.estInit
  split
  · exact ⟨rfl, rfl⟩
  · exact ⟨rfl, rfl⟩

/-- A boundary on which an ordered cut-off is due ends in SHIP with the pace of the reset state. -/
theorem State.keepDecides_cutOff {s : State} {n : Nat} {w : Nat} {m : Mode} (hw : s.keepWrites = []) (h : s.cut = (some n, w, m))
    (hn : n ≤ w) (hm : m ≠ .field) : s.keepDecides.pace = {} ∧ s.keepDecides.mode.mode = .ship := by
  have hpatch : s.patchTakes.cut = s.cut ∧ s.patchTakes.keepWrites = [] := by
    unfold State.patchTakes
    split
    · exact ⟨rfl, hw⟩
    · exact ⟨rfl, hw⟩
  have hwrites : s.patchTakes.applyKeepWrites.cut = s.patchTakes.cut := by
    unfold State.applyKeepWrites
    rw [hpatch.2]
    rfl
  obtain ⟨t, ht, htcut⟩ := s.patchTakes.applyKeepWrites.budgetPeriod.chargerDecide_uvOpen
  have hcut : t.cut = (some n, w, m) := by
    rw [htcut, State.budgetPeriod_cut, hwrites, hpatch.1, h]
  obtain ⟨hpace, hmode⟩ := t.openSwitch.enterShip.estInit_pace
  unfold State.keepDecides
  rw [ht, State.uvOpen_due hcut hn hm, hpace, hmode]
  exact t.openSwitch.enterShip_pace

/-- READY with the Keep running and an under-voltage cut-off that is due at once. -/
def cutOffDue : State :=
  { State.reset with
    mode := { State.reset.mode with mode := .ready, keep := .run }
    power := { State.reset.power with uvCutAt := some 0 } }

theorem cutOffDue_boundary : ∃ t, exec .keepDecisionBoundary cutOffDue = .next t ∧ t.pace.keep = none := by
  obtain ⟨hpace, hmode⟩ := State.keepDecides_cutOff (s := cutOffDue.boundary) (n := 0) (w := 0) (m := .ready) rfl rfl
    (Nat.le_refl 0) (by decide)
  refine ⟨cutOffDue.boundary.keepDecides, ?_, by rw [hpace]⟩
  have hruns : (cutOffDue.keepRuns && cutOffDue.paced cutOffDue.pace.keep ticksPerMs) = true := by decide
  rw [exec_keepDecisionBoundary]
  unfold execKeepDecisionBoundary
  dsimp only
  rw [if_pos hruns, if_pos hmode]

/-- Refutes O35: on a decision boundary where an ordered under-voltage cut-off is due, the pack switch opens and the Dome logic
resets, so the state afterwards holds no time of a boundary, where the statement asks for the time of this one (R317, R474). -/
theorem not_keepRestartsAndFaultsAreCollected : ¬ Obligations.KeepRestartsAndFaultsAreCollected := by
  unfold Obligations.KeepRestartsAndFaultsAreCollected
  intro h
  obtain ⟨-, -, hboundary⟩ := h.1 cutOffDue
  obtain ⟨t, ht, -, -, hpace, -⟩ := hboundary (by decide) (fun _ hk => nomatch hk) rfl rfl rfl rfl
  obtain ⟨u, hu, hnone⟩ := cutOffDue_boundary
  obtain rfl : t = u := Host.Outcome.next.inj (ht.symm.trans hu)
  exact absurd (hpace.symm.trans hnone) (by decide)

end Sys2Proof.Machine
end

section
/-! PROOFS. Encoders, radar and the analog speed input (R60 to R62). -/

namespace Sys2Proof.Machine

theorem pushEdge_head (t : Nat) (l : List Nat) : (pushEdge t l).head? = some t := by
  cases l <;> rfl

section Encoder

variable (s : State) (n : Fin 2) (f : Enc → Enc)

theorem State.enc_modEnc : (s.modEnc n f).enc n = f (s.enc n) := by
  unfold State.enc State.modEnc State.modCourse
  split <;> rfl

theorem State.enc_modEnc_other (k : Fin 2) (h : k ≠ n) : (s.modEnc n f).enc k = s.enc k := by
  unfold State.enc State.modEnc State.modCourse
  by_cases hk : k = 0
  · have hn : n ≠ 0 := fun e => h (hk.trans e.symm)
    simp only [if_pos hk, if_neg hn]
  · have hn : n = 0 := by omega
    simp only [if_neg hk, if_pos hn]

/-- Counting changes no encoder. -/
theorem State.count_enc (g : Fld) : (s.count g).enc n = s.enc n := rfl

/-- The counter of quadrature errors of an encoder, saturated. -/
theorem State.qerr_count : (s.count (if n = 0 then R.COURSE_CNT_ENC0_QERR else R.COURSE_CNT_ENC1_QERR)).get
      (if n = 0 then R.COURSE_CNT_ENC0_QERR else R.COURSE_CNT_ENC1_QERR) =
    min 255 (s.get (if n = 0 then R.COURSE_CNT_ENC0_QERR else R.COURSE_CNT_ENC1_QERR) + 1) := by
  split
  · exact (s.get_count_same R.COURSE_CNT_ENC0_QERR 1 (by decide)).trans (Nat.min_comm _ _)
  · exact (s.get_count_same R.COURSE_CNT_ENC1_QERR 1 (by decide)).trans (Nat.min_comm _ _)

theorem State.modEnc_rest : { s.modEnc n f with course := s.course } = s := rfl

/-- An encoder that a change leaves as it is. -/
theorem State.modEnc_same (h : f (s.enc n) = s.enc n) : s.modEnc n f = s := by
  unfold State.modEnc State.modCourse
  by_cases hn : n = 0
  · simp only [State.enc, if_pos hn] at h ⊢
    rw [h]
  · simp only [State.enc, if_neg hn] at h ⊢
    rw [h]

end Encoder

/-- Levels that stand already are nothing new. -/
theorem Enc.lines_same {e : Enc} {a b : Bool} (ha : e.rawA = a) (hb : e.rawB = b) (now : Nat) : e.lines a b now = e := by
  unfold Enc.lines
  rw [if_pos ha, if_pos hb, ← ha, ← hb]

/-! The filter -/

section Settle

variable {e : Enc} {filt now : Nat}

theorem lineDue_same (b : Bool) (since : Nat) : lineDue b b since filt now = none := by
  simp [lineDue]

theorem lineDue_held {raw filtered : Bool} {since : Nat} (h : raw ≠ filtered) (hd : since + filt ≤ now) :
    lineDue raw filtered since filt now = some (since + filt) := by
  simp [lineDue, h, hd]

theorem lineDue_early {raw filtered : Bool} {since : Nat} (hd : now < since + filt) :
    lineDue raw filtered since filt now = none := by
  have : ¬ since + filt ≤ now := by omega
  simp [lineDue, this]

theorem Enc.settle_of_none (hA : lineDue e.rawA e.a e.aAt filt now = none) (hB : lineDue e.rawB e.b e.bAt filt now = none) :
    e.settle filt now = e := by
  rw [Enc.settle.eq_def, hA, hB]

/-- Levels that have settled stay. -/
theorem Enc.settle_settled (hA : e.rawA = e.a) (hB : e.rawB = e.b) : e.settle filt now = e :=
  Enc.settle_of_none (by rw [hA]; exact lineDue_same ..) (by rw [hB]; exact lineDue_same ..)

theorem Enc.settle_edgeA (hA : e.rawA ≠ e.a) (hd : e.aAt + filt ≤ now) (hB : e.rawB = e.b) :
    e.settle filt now = e.edge true (e.aAt + filt) := by
  rw [Enc.settle.eq_def, lineDue_held hA hd, hB, lineDue_same]

theorem Enc.settle_edgeB (hA : e.rawA = e.a) (hB : e.rawB ≠ e.b) (hd : e.bAt + filt ≤ now) :
    e.settle filt now = e.edge false (e.bAt + filt) := by
  rw [Enc.settle.eq_def, lineDue_held hB hd, hA, lineDue_same]

theorem Enc.settle_both (hA : e.rawA ≠ e.a) (hB : e.rawB ≠ e.b) (hd : e.aAt + filt ≤ now) (he : e.aAt = e.bAt) :
    e.settle filt now = { e with a := e.rawA, b := e.rawB, qerrs := 0 :: e.qerrs } := by
  rw [Enc.settle.eq_def, lineDue_held hA hd, lineDue_held hB (he ▸ hd), he]
  exact if_pos rfl

end Settle

section EncSettle

variable {s : State} {n : Fin 2} (hc : s.clockOn = true)
include hc

theorem State.encSettle_counted (hq : ((s.enc n).settle (s.get R.ENC_CFG_FILT) s.now).qerrs.length = (s.enc n).qerrs.length) :
    s.encSettle n = s.modEnc n fun e => e.settle (s.get R.ENC_CFG_FILT) s.now := by
  unfold State.encSettle
  rw [if_pos hc]
  exact if_pos hq

theorem State.encSettle_error (hq : ((s.enc n).settle (s.get R.ENC_CFG_FILT) s.now).qerrs.length ≠ (s.enc n).qerrs.length) :
    s.encSettle n = (s.modEnc n fun e => e.settle (s.get R.ENC_CFG_FILT) s.now).count
      (if n = 0 then R.COURSE_CNT_ENC0_QERR else R.COURSE_CNT_ENC1_QERR) := by
  unfold State.encSettle
  rw [if_pos hc]
  exact if_neg hq

theorem State.encSettle_same (h : (s.enc n).settle (s.get R.ENC_CFG_FILT) s.now = s.enc n) : s.encSettle n = s := by
  rw [State.encSettle_counted hc (by rw [h])]
  exact s.modEnc_same n _ h

end EncSettle

/-- What ENCODER_EDGE leaves of the encoder whose levels had settled. -/
def State.newLevels (s : State) (n : Fin 2) (a b : Bool) : State := s.modEnc n fun e => e.lines a b s.now

section Settled

variable {s : State} {n : Fin 2} {a b : Bool} (hc : s.clockOn = true) (hA : (s.enc n).rawA = (s.enc n).a)
  (hB : (s.enc n).rawB = (s.enc n).b)

theorem State.newLevels_enc : (s.newLevels n a b).enc n = (s.enc n).lines a b s.now := s.enc_modEnc n _

include hc hA hB

theorem execEncoderEdge_settled : exec (.encoderEdge n a b) s = .next ((s.newLevels n a b).encSettle n) := by
  rw [exec_encoderEdge]
  unfold execEncoderEdge
  rw [State.encSettle_same hc (Enc.settle_settled hA hB)]
  rfl

end Settled

/-- One counted edge: the encoder as `e` was, with an edge of line A or B on tick `t`. -/
structure Enc.Counted (u e : Enc) (t : Nat) (a b : Bool) : Prop where
  a : u.a = a
  b : u.b = b
  head : u.edges.head? = some t
  running : u.stopped = false
  qerrs : u.qerrs = e.qerrs

theorem Enc.edge_counted (e : Enc) (onA : Bool) (t : Nat) :
    (e.edge onA t).Counted e t (if onA then e.rawA else e.a) (if onA then e.b else e.rawB) :=
  ⟨rfl, rfl, pushEdge_head _ _, rfl, rfl⟩

section Edges

variable {s : State} {n : Fin 2} {a b : Bool} (hc : s.clockOn = true)
include hc

/-- The filter of an encoder whose settling counts one edge changes that encoder only. -/
theorem State.encSettle_edge {u : Enc} (hu : (s.enc n).settle (s.get R.ENC_CFG_FILT) s.now = u) (hq : u.qerrs = (s.enc n).qerrs) :
    { s.encSettle n with course := s.course } = s ∧ (s.encSettle n).enc n = u ∧ ∀ k, k ≠ n → (s.encSettle n).enc k = s.enc k := by
  rw [State.encSettle_counted hc (by rw [hu, hq]), ← hu]
  exact ⟨s.modEnc_rest n _, s.enc_modEnc n _, s.enc_modEnc_other n _⟩

variable (hA : (s.enc n).rawA = (s.enc n).a) (hB : (s.enc n).rawB = (s.enc n).b)
include hA hB

theorem encoderEdge_both (hf : s.get R.ENC_CFG_FILT = 0) (ha : a ≠ (s.enc n).a) (hb : b ≠ (s.enc n).b) :
    ∃ t, exec (.encoderEdge n a b) s = .next t ∧
      t.enc n = { s.enc n with a := a, b := b, rawA := a, rawB := b, aAt := s.now, bAt := s.now, qerrs := 0 :: (s.enc n).qerrs } ∧
      (∀ k, k ≠ n → t.enc k = s.enc k) ∧
      t.get (if n = 0 then R.COURSE_CNT_ENC0_QERR else R.COURSE_CNT_ENC1_QERR) =
        min 255 (s.get (if n = 0 then R.COURSE_CNT_ENC0_QERR else R.COURSE_CNT_ENC1_QERR) + 1) := by
  refine ⟨_, execEncoderEdge_settled hc hA hB, ?_⟩
  obtain ⟨v, hv⟩ : ∃ v, v = s.newLevels n a b := ⟨_, rfl⟩
  have hlines : (s.enc n).lines a b s.now = { s.enc n with rawA := a, rawB := b, aAt := s.now, bAt := s.now } := by
    unfold Enc.lines
    rw [if_neg (fun h => ha (h.symm.trans hA)), if_neg (fun h => hb (h.symm.trans hB))]
  have henc : v.enc n = { s.enc n with rawA := a, rawB := b, aAt := s.now, bAt := s.now } := by
    rw [hv, State.newLevels_enc, hlines]
  have hfilt : v.get R.ENC_CFG_FILT = 0 := by rw [hv]; exact hf
  have hnow : v.now = s.now := by rw [hv]; rfl
  have hsettle : (v.enc n).settle (v.get R.ENC_CFG_FILT) v.now =
      { s.enc n with a := a, b := b, rawA := a, rawB := b, aAt := s.now, bAt := s.now, qerrs := 0 :: (s.enc n).qerrs } := by
    rw [henc, hfilt, hnow]
    exact Enc.settle_both (e := { s.enc n with rawA := a, rawB := b, aAt := s.now, bAt := s.now }) ha hb (Nat.le_refl _) rfl
  have hreg (f : Fld) : (v.modEnc n fun e => e.settle (v.get R.ENC_CFG_FILT) v.now).get f = s.get f := by rw [hv]; rfl
  have hother (k : Fin 2) (hk : k ≠ n) : v.enc k = s.enc k := hv ▸ s.enc_modEnc_other n _ k hk
  rw [← hv, State.encSettle_error (hv ▸ hc) (by rw [hsettle, henc]; simp)]
  refine ⟨(State.count_enc ..).trans ((v.enc_modEnc n _).trans hsettle), fun k hk => ?_, ?_⟩
  · exact (State.count_enc ..).trans ((v.enc_modEnc_other n _ k hk).trans (hother k hk))
  · rw [State.qerr_count, hreg]

theorem encoderEdge_one (hf : s.get R.ENC_CFG_FILT = 0) (h : a ≠ (s.enc n).a ∧ b = (s.enc n).b ∨ a = (s.enc n).a ∧ b ≠ (s.enc n).b) :
    ∃ t, exec (.encoderEdge n a b) s = .next t ∧ { t with course := s.course } = s ∧ (t.enc n).Counted (s.enc n) s.now a b ∧
      (∀ k, k ≠ n → t.enc k = s.enc k) ∧ (t.enc n).dirNeg = (if a = (s.enc n).a then a != b else a == b) := by
  obtain ⟨v, hv⟩ : ∃ v, v = s.newLevels n a b := ⟨_, rfl⟩
  have hfilt : v.get R.ENC_CFG_FILT = 0 := by rw [hv]; exact hf
  have hnow : v.now = s.now := by rw [hv]; rfl
  have hothers (k : Fin 2) (hk : k ≠ n) : v.enc k = s.enc k := hv ▸ s.enc_modEnc_other n _ k hk
  have hrest (t : State) (ht : { t with course := v.course } = v) : { t with course := s.course } = s := by
    have hs : s = { v with course := s.course } := by rw [hv]; rfl
    rw [hs, ← ht]
  have henc : v.enc n = (s.enc n).lines a b s.now := hv ▸ State.newLevels_enc
  have hcount (u : Enc) (hu : (v.enc n).settle (v.get R.ENC_CFG_FILT) v.now = u) (hq : u.Counted (s.enc n) s.now a b)
      (hd : u.dirNeg = (if a = (s.enc n).a then a != b else a == b)) : _ :=
    have hkeep := State.encSettle_edge (hv ▸ hc) hu (hq.qerrs.trans (by rw [henc]; rfl))
    show ∃ t, exec (.encoderEdge n a b) s = .next t ∧ { t with course := s.course } = s ∧ (t.enc n).Counted (s.enc n) s.now a b ∧
        (∀ k, k ≠ n → t.enc k = s.enc k) ∧ (t.enc n).dirNeg = (if a = (s.enc n).a then a != b else a == b) from
      ⟨v.encSettle n, hv ▸ execEncoderEdge_settled hc hA hB, hrest _ hkeep.1, hkeep.2.1.symm ▸ hq,
        fun k hk => (hkeep.2.2 k hk).trans (hothers k hk), hkeep.2.1.symm ▸ hd⟩
  rcases h with ⟨ha, hb⟩ | ⟨ha, hb⟩
  · have hat : ((s.enc n).lines a b s.now).aAt = s.now := if_neg fun h => ha (h.symm.trans hA)
    have hsettle := Enc.settle_edgeA (e := (s.enc n).lines a b s.now) (filt := 0) (now := s.now) ha (Nat.le_of_eq hat) hb
    refine hcount (((s.enc n).lines a b s.now).edge true _) (by rw [henc, hfilt, hnow, hsettle]) ⟨rfl, hb.symm, ?_, rfl, rfl⟩ ?_
    · exact (pushEdge_head _ _).trans (congrArg some hat)
    · rw [if_neg ha, hb]
      exact Bool.not_not _
  · have hat : ((s.enc n).lines a b s.now).bAt = s.now := if_neg fun h => hb (h.symm.trans hB)
    have hsettle := Enc.settle_edgeB (e := (s.enc n).lines a b s.now) (filt := 0) (now := s.now) ha hb (Nat.le_of_eq hat)
    refine hcount (((s.enc n).lines a b s.now).edge false _) (by rw [henc, hfilt, hnow, hsettle]) ⟨ha.symm, rfl, ?_, rfl, rfl⟩ ?_
    · exact (pushEdge_head _ _).trans (congrArg some hat)
    · rw [if_pos ha, ha]
      rfl

theorem encoderEdge_same (ha : a = (s.enc n).a) (hb : b = (s.enc n).b) : exec (.encoderEdge n a b) s = .next s := by
  have hlines := Enc.lines_same (hA.trans ha.symm) (hB.trans hb.symm) s.now
  rw [execEncoderEdge_settled hc hA hB, State.newLevels, s.modEnc_same n _ hlines,
    State.encSettle_same hc (Enc.settle_settled hA hB)]

/-- A level that the filter holds back is only noted. -/
theorem encoderEdge_noted (hf : s.get R.ENC_CFG_FILT ≠ 0) (ha : a ≠ (s.enc n).a) (hb : b = (s.enc n).b) :
    ∃ t, exec (.encoderEdge n a b) s = .next t ∧ { t with course := s.course } = s ∧
      t.enc n = { s.enc n with rawA := a, aAt := s.now } := by
  have hlines : (s.enc n).lines a b s.now = { s.enc n with rawA := a, aAt := s.now } := by
    unfold Enc.lines
    rw [if_neg (fun h => ha (h.symm.trans hA)), if_pos (hB.trans hb.symm), hb.trans hB.symm]
  have henc : (s.newLevels n a b).enc n = { s.enc n with rawA := a, aAt := s.now } := State.newLevels_enc.trans hlines
  refine ⟨s.newLevels n a b, ?_, s.modEnc_rest n _, henc⟩
  rw [execEncoderEdge_settled hc hA hB]
  refine congrArg Host.Outcome.next (State.encSettle_same (s := s.newLevels n a b) hc ?_)
  rw [henc]
  refine Enc.settle_of_none (lineDue_early ?_) ?_
  · exact Nat.lt_add_of_pos_right (Nat.pos_of_ne_zero hf)
  · show lineDue (s.enc n).rawB (s.enc n).b _ _ _ = none
    rw [hB]
    exact lineDue_same ..

theorem encoderStop_settled {x : Nat} {l : List Nat} (he : (s.enc n).edges = x :: l)
    (hx : x + s.get R.ENC_CFG_STOP_MS * 200000 ≤ s.now) :
    ∃ t, exec (.encoderStop n) s = .next t ∧ { t with course := s.course } = s ∧ t.enc n = { s.enc n with stopped := true } ∧
      t.encSpeed n = 0 := by
  have henc : (s.modEnc n fun e => { e with stopped := true }).enc n = { s.enc n with stopped := true } := s.enc_modEnc n _
  refine ⟨s.modEnc n fun e => { e with stopped := true }, ?_, s.modEnc_rest n _, henc, ?_⟩
  · have href : edgeRef (s.enc n).edges (s.enc n).thawAt = some x := by rw [he]; rfl
    rw [exec_encoderStop, execEncoderStop.eq_def, State.encSettle_same hc (Enc.settle_settled hA hB)]
    simp only [href]
    rw [if_pos (by rw [hc]; exact decide_eq_true hx)]
  · unfold State.encSpeed
    rw [henc]
    exact ite_self 0

end Edges

section Held

variable {s : State} {n : Fin 2} {b : Bool} (hc : s.clockOn = true) (hA : (s.enc n).rawA ≠ (s.enc n).a)
  (hB : (s.enc n).rawB = (s.enc n).b)
include hc hA hB

/-- A level held for FILT ticks counts once, on the tick on which it had held so long. -/
theorem encoderEdge_held (hb : b = (s.enc n).b) (hd : (s.enc n).aAt + s.get R.ENC_CFG_FILT ≤ s.now) :
    ∃ t, exec (.encoderEdge n (s.enc n).rawA b) s = .next t ∧ { t with course := s.course } = s ∧
      (t.enc n).Counted (s.enc n) ((s.enc n).aAt + s.get R.ENC_CFG_FILT) (s.enc n).rawA b := by
  have hcounted := (s.enc n).edge_counted true ((s.enc n).aAt + s.get R.ENC_CFG_FILT)
  obtain ⟨hrest, henc, -⟩ := State.encSettle_edge hc (Enc.settle_edgeA hA hd hB) hcounted.qerrs
  have hon : (s.encSettle n).clockOn = true := by
    rw [State.encSettle_counted hc (by rw [Enc.settle_edgeA hA hd hB, hcounted.qerrs])]
    exact hc
  obtain ⟨v, hv⟩ : ∃ v, v = s.encSettle n := ⟨_, rfl⟩
  rw [← hv] at hrest henc hon
  have hA' : (v.enc n).rawA = (s.enc n).rawA := by rw [henc]; rfl
  have hB' : (v.enc n).rawB = b := by rw [henc, hb, ← hB]; rfl
  have hsettled : (v.enc n).settle (v.get R.ENC_CFG_FILT) v.now = v.enc n := by
    refine Enc.settle_settled ?_ ?_
    · rw [henc]
      rfl
    · rw [henc]
      exact hB
  refine ⟨v, ?_, hrest, ?_⟩
  · rw [exec_encoderEdge]
    unfold execEncoderEdge
    rw [← hv, v.modEnc_same n _ (Enc.lines_same hA' hB' s.now), State.encSettle_same hon hsettled]
  · rw [henc, hb]
    exact hcounted

/-- A level that goes back before it has held for FILT ticks counts nothing. -/
theorem encoderEdge_back (hb : b = (s.enc n).b) (hd : s.now < (s.enc n).aAt + s.get R.ENC_CFG_FILT) :
    ∃ t, exec (.encoderEdge n (s.enc n).a b) s = .next t ∧ { t with course := s.course } = s ∧
      t.enc n = { s.enc n with rawA := (s.enc n).a, aAt := s.now } := by
  have hquietB (since : Nat) : lineDue (s.enc n).rawB (s.enc n).b since (s.get R.ENC_CFG_FILT) s.now = none := by
    rw [hB]
    exact lineDue_same ..
  have hlines : (s.enc n).lines (s.enc n).a b s.now = { s.enc n with rawA := (s.enc n).a, aAt := s.now } := by
    unfold Enc.lines
    rw [if_neg hA, if_pos (hB.trans hb.symm), hb.trans hB.symm]
  have henc : (s.newLevels n (s.enc n).a b).enc n = { s.enc n with rawA := (s.enc n).a, aAt := s.now } :=
    State.newLevels_enc.trans hlines
  refine ⟨s.newLevels n (s.enc n).a b, ?_, s.modEnc_rest n _, henc⟩
  rw [exec_encoderEdge]
  unfold execEncoderEdge
  rw [State.encSettle_same hc (Enc.settle_of_none (lineDue_early hd) (hquietB _))]
  refine congrArg Host.Outcome.next (State.encSettle_same (s := s.newLevels n (s.enc n).a b) hc ?_)
  rw [henc]
  exact Enc.settle_settled rfl hB

end Held

/-- One counted pulse of the radar. -/
def Radar.pulse (r : Radar) (now : Nat) : Radar :=
  let p := pushEdge now r.pulses
  { r with pulses := p, stopped := false, thawAt := if 2 ≤ p.length then none else r.thawAt }

/-- Settles O36: an encoder's levels settle, count or are noted, by the filter's cases. -/
theorem speedSensorsAreCounted : Obligations.SpeedSensorsAreCounted := by
  unfold Obligations.SpeedSensorsAreCounted
  intro s hc
  refine ⟨fun n a b => ⟨fun hA hB => ⟨?_, ?_, ?_, ?_, ?_⟩, fun hA hB hb => ⟨?_, ?_⟩⟩, ?_, ?_, fun code => ⟨?_, ?_⟩⟩
  · exact encoderEdge_both hc hA hB
  · intro hf h
    obtain ⟨t, ht, hrest, hu, hk, hd⟩ := encoderEdge_one hc hA hB hf h
    exact ⟨t, ht, hrest, hu.a, hu.b, hu.head, hu.running, hu.qerrs, hk, hd⟩
  · exact encoderEdge_same hc hA hB
  · exact encoderEdge_noted hc hA hB
  · intro x l he hx
    exact encoderStop_settled hc hA hB he hx
  · rintro hd rfl
    obtain ⟨t, ht, hrest, hu⟩ := encoderEdge_held hc hA hB hb hd
    exact ⟨t, ht, hrest, hu.a, hu.b, hu.head, hu.running⟩
  · rintro hd rfl
    exact encoderEdge_back hc hA hB hb hd
  · refine ⟨s.modCourse fun c => { c with radar := c.radar.pulse s.now }, ?_, rfl, pushEdge_head _ _, rfl, rfl⟩
    rw [exec_radarPulse]
    exact if_pos hc
  · intro x l hx hstop
    have href : edgeRef s.course.radar.pulses s.course.radar.thawAt = some x := by rw [hx]; rfl
    refine ⟨s.modCourse fun c => { c with radar := { c.radar with stopped := true } }, ?_, rfl, rfl⟩
    rw [exec_radarStop, execRadarStop.eq_def]
    simp only [href]
    rw [if_pos (by rw [hc]; exact decide_eq_true hstop)]
  · intro hgrid hnew
    refine ⟨s.modCourse fun c => { c with spdan := (code.toNat :: c.spdan).take 10, spdanAt := some s.now }, ?_, rfl, rfl⟩
    rw [exec_spdanSample]
    exact if_pos (by simp [hc, hgrid, hnew])
  · intro hgrid
    rw [exec_spdanSample]
    exact if_neg (by simp [hgrid])

end Sys2Proof.Machine
end

section
/-! PROOFS. The choice of the speed source between updates (R58, R64 to R68, R72). -/

namespace Sys2Proof.Machine

/-- `t` is `s` after at most `n` events, with the validities and the HOST source as they were. -/
structure SourcesKept (s t : State) (n : Nat) : Prop where
  valid : t.course.valid = s.course.valid
  host : t.course.host = s.course.host
  grows : Grows s t n

section Kept

variable {s t u : State} {m n : Nat}

theorem SourcesKept.refl (s : State) : SourcesKept s s 0 := ⟨rfl, rfl, .refl s⟩

theorem SourcesKept.trans (h : SourcesKept s t m) (g : SourcesKept t u n) : SourcesKept s u (m + n) :=
  ⟨g.valid.trans h.valid, g.host.trans h.host, h.grows.trans g.grows⟩

theorem SourcesKept.mono (h : SourcesKept s t m) (hn : m ≤ n) : SourcesKept s t n := ⟨h.valid, h.host, h.grows.mono hn⟩

theorem SourcesKept.raise (s : State) (c : BitVec 16) (k : BitVec 2) (d : W32) : SourcesKept s (s.raise c k d) 1 :=
  ⟨by rw [State.raise_course], by rw [State.raise_course], s.raise_grows c k d⟩

theorem SourcesKept.modCourse (s : State) (f : Course → Course) (hv : (f s.course).valid = s.course.valid)
    (hh : (f s.course).host = s.course.host) : SourcesKept s (s.modCourse f) 0 :=
  ⟨hv, hh, .of_same rfl rfl rfl⟩

end Kept

section Change

variable (s : State) (code : Nat)

/-- A change to a source: the blend begins at the present v. -/
theorem State.changeSource_taken (h : code ≠ 0) :
    s.changeSource code = (s.raise 0x0400 0 (BitVec.ofNat 32 (code + s.course.speedSrc * 16))).modCourse fun c =>
      { c with speedSrc := code, coasting := false, coastOver := false, vBlend := some ⟨c.v, s.now⟩, disagree := List.replicate 10 0 } := by
  unfold State.changeSource
  dsimp only
  rw [if_neg h]
  simp only [State.now, State.raise_tick]

theorem State.changeSource_src : (s.changeSource code).course.speedSrc = code := by
  by_cases h : code = 0
  · unfold State.changeSource
    dsimp only
    rw [if_pos h, State.raise_course]
    exact h.symm
  · rw [s.changeSource_taken code h]
    rfl

theorem State.changeSource_kept : SourcesKept s (s.changeSource code) 2 := by
  have hraise := SourcesKept.raise s 0x0400 0 (BitVec.ofNat 32 (code + s.course.speedSrc * 16))
  unfold State.changeSource
  dsimp only
  split
  · exact (hraise.trans (.modCourse _ _ rfl rfl)).trans (.raise ..)
  · exact (hraise.trans (.modCourse _ _ rfl rfl)).mono (by decide)

end Change

/-- A selection never ends on a source that gives no speed. -/
theorem State.select_leaves (s : State) {code : Nat} (h0 : code ≠ 0) (hbad : s.isValid code = false) :
    s.select.course.speedSrc ≠ code ∧ SourcesKept s s.select 3 := by
  have hnot : s.speedOk code = false := by rw [State.speedOk, hbad, Bool.false_and]
  unfold State.select
  dsimp only
  split
  next hkeep =>
    refine ⟨fun he => ?_, (SourcesKept.refl s).mono (by decide)⟩
    rw [he, hnot] at hkeep
    simp at hkeep
  next =>
    obtain ⟨u, hu, hsrc, hkept⟩ : ∃ u, u = (if (s.course.speedSrc ≠ 0 && s.isValid s.course.speedSrc) = true then
        s.raise 0x0401 0 (BitVec.ofNat 32 s.course.speedSrc) else s) ∧ u.course.speedSrc = s.course.speedSrc ∧ SourcesKept s u 1 := by
      refine ⟨_, rfl, ?_⟩
      split
      · exact ⟨by rw [State.raise_course], .raise ..⟩
      · exact ⟨rfl, (SourcesKept.refl s).mono (by decide)⟩
    have hnone : (u.ranking.find? u.speedOk).getD 0 ≠ code := by
      intro he
      cases hf : u.ranking.find? u.speedOk with
      | none => exact h0 (by rw [← he, hf]; rfl)
      | some k =>
        have hk : u.speedOk k = true := List.find?_some hf
        have hkc : k = code := by rw [← he, hf]; rfl
        rw [hkc, State.speedOk, State.isValid, hkept.valid] at hk
        rw [show s.course.valid.getD code false = false from hbad] at hk
        simp at hk
    rw [← hu]
    split
    next hsame => exact ⟨by rw [hsrc, ← hsame]; exact hnone, hkept.mono (by decide)⟩
    next => exact ⟨by rw [State.changeSource_src]; exact hnone, hkept.trans (u.changeSource_kept _)⟩

/-- HOST lost by its time: no longer valid, with event 0x0401, and no longer the speed source. -/
theorem hostTimeout {s : State} (hc : s.clockOn = true) (hgot : s.course.host.got = true) (hvalid : s.isValid 8 = true)
    (hage : s.get R.HOST_CFG_TIMEOUT_MS * 100 ≤ s.course.host.age) :
    ∃ t, exec (.sourceTimeout 8) s = .next t ∧ t.course.host.got = false ∧ t.isValid 8 = false ∧ t.course.speedSrc ≠ 8 ∧
      (s.Room → Stored s t 0x0401 0 8) := by
  obtain ⟨u, hu⟩ : ∃ u, u = s.modCourse fun c => { c with host := { c.host with got := false } } := ⟨_, rfl⟩
  obtain ⟨v, hv⟩ : ∃ v, v = u.modCourse fun c => { c with valid := c.valid.set 8 false, validFor := c.validFor.set 8 0 } := ⟨_, rfl⟩
  have huvalid : u.isValid 8 = true := by rw [hu]; exact hvalid
  have hset : u.setValid 8 false = v.raise 0x0401 0 8 := by
    unfold State.setValid
    rw [huvalid, hv]
    rfl
  have hoff : v.isValid 8 = false := by
    rw [hv, State.isValid, List.getD_eq_getElem?_getD]
    show ((u.course.valid.set 8 false)[8]?).getD false = false
    rw [List.getElem?_set_self']
    cases u.course.valid[8]? <;> rfl
  have hbad : (v.raise 0x0401 0 8).isValid 8 = false := by
    rw [State.isValid, State.raise_course]
    exact hoff
  obtain ⟨hsrc, hkept⟩ := State.select_leaves (v.raise 0x0401 0 8) (code := 8) (by decide) hbad
  have hgrows : Grows s v 0 := by
    rw [hv, hu]
    exact .of_same rfl rfl rfl
  refine ⟨(v.raise 0x0401 0 8).select, ?_, ?_, ?_, hsrc, fun hr => hgrows.stored_then hr _ _ _ {} hkept.grows (by decide)⟩
  · have hlose : (if u.isValid 8 = true then u.setValid 8 false else u) = v.raise 0x0401 0 8 := by rw [if_pos huvalid, hset]
    rw [← hlose, hu, exec_sourceTimeout, execSourceTimeout.eq_def, hc]
    have hdue : (s.course.host.got && decide (s.get R.HOST_CFG_TIMEOUT_MS * 100 ≤ s.course.host.age)) = true := by
      rw [hgot, decide_eq_true hage]
      rfl
    exact if_pos hdue
  · rw [hkept.host, State.raise_course, hv, hu]
    rfl
  · rw [State.isValid, hkept.valid]
    exact hbad

/-- Settles O37: each trigger changes the source that it names and raises its event. -/
theorem sourcesAreChosenAndLost : Obligations.SourcesAreChosenAndLost := by
  unfold Obligations.SourcesAreChosenAndLost
  intro s hc
  refine ⟨fun k h0 hrank habove hok hk => ⟨fun hfor => ?_, fun hfor => ?_⟩, hostTimeout hc, fun hcoast hover hat => ?_,
    fun b hb hend => ?_, fun b hb hend => ?_, fun k hk => ?_, ?_⟩
  · have hk0 : k.toNat ≠ 0 := fun h => hk (BitVec.eq_of_toNat_eq h)
    refine ⟨s.changeSource k.toNat, ?_, s.changeSource_src _, ?_, ?_, fun hr => ?_⟩
    · rw [exec_speedSourceDisplace]
      refine if_pos ?_
      have hsince : updPerS ≤ s.course.validFor.getD k.toNat 0 := hfor
      rw [hc, hrank, habove, hok, decide_eq_true h0, decide_eq_true hsince]
      rfl
    · rw [s.changeSource_taken _ hk0, State.modCourse, State.raise_course]
    · rw [s.changeSource_taken _ hk0, State.modCourse, State.raise_course]
    · rw [s.changeSource_taken _ hk0]
      exact (Stored.of_raise s hr _ _ _).same rfl
  · rw [exec_speedSourceDisplace]
    refine if_neg ?_
    have : ¬ updPerS ≤ s.course.validFor.getD k.toNat 0 := by
      show ¬ 100000 ≤ _
      omega
    rw [decide_eq_false this, Bool.and_false]
    exact Bool.false_ne_true
  · refine ⟨(s.modCourse fun c => { c with coastOver := true }).raise 0x0404 0, ?_, State.raise_course .., fun hr => ?_⟩
    · rw [exec_coastTimeExpiry]
      refine if_pos ?_
      have htime : s.course.coastAt + s.get R.COURSE_CTRL_COAST_10MS * 10 * ticksPerMs ≤ s.now := by
        rw [Nat.mul_assoc]
        exact hat
      rw [hc, hcoast, hover, decide_eq_true htime]
      rfl
    · have hgrows : Grows s (s.modCourse fun c => { c with coastOver := true }) 0 := .of_same rfl rfl rfl
      exact hgrows.stored hr (by decide) _ _ _ {}
  · refine ⟨s.modCourse fun c => { c with vBlend := none }, ?_, rfl, ⟨rfl, rfl, rfl, rfl, rfl⟩, rfl⟩
    rw [exec_blendEnd, execBlendEnd.eq_def, hc, hb]
    exact if_pos (decide_eq_true hend)
  · refine ⟨s.modCourse fun c => { c with wBlend := none }, ?_, rfl, ⟨rfl, rfl, rfl, rfl, rfl⟩, rfl⟩
    rw [exec_blendEnd, execBlendEnd.eq_def, hc, hb]
    exact if_pos (decide_eq_true hend)
  · refine ⟨(s.modCourse fun c => { c with disagree := c.disagree.set k.toNat (updPerS + 1) }).raise 0x0405 0
      (BitVec.ofNat 32 (s.course.speedSrc + k.toNat * 16)), ?_, ?_, ?_, fun hr => ?_⟩
    · rw [exec_crosscheckDisagree]
      exact if_pos (by rw [hc, hk]; rfl)
    · rw [State.raise_course]
      rfl
    · rw [State.raise_course]
      rfl
    · have hgrows : Grows s (s.modCourse fun c => { c with disagree := c.disagree.set k.toNat (updPerS + 1) }) 0 :=
        .of_same rfl rfl rfl
      exact hgrows.stored hr (by decide) _ _ _ {}
  · refine ⟨s.poseCommit, ?_, ⟨rfl, rfl, rfl, rfl, rfl⟩, rfl, rfl⟩
    rw [exec_hostPoseCommit]
    exact if_pos hc

end Sys2Proof.Machine
end

section
/-! PROOFS. What the sequencers and the predictor leave of a course update: the course, the compare units and every channel's path
(R220, R95). -/

namespace Sys2Proof.Machine

/-- The speed and the path of one channel, and the move of x_i that it has not taken yet. -/
def Chan.path (h : Chan) : Int × Int × Int := (h.viQ8, h.sQ24, h.dX)

/-- The course, the compare units and the channels' paths. -/
def State.path (s : State) : Course × Vector CmpUnit 544 × (Ch → Int × Int × Int) := (s.course, s.units, fun c => (s.ch c).path)

theorem State.path_ite {s a b : State} {p : Prop} [Decidable p] (ha : a.path = s.path) (hb : b.path = s.path) :
    (if p then a else b).path = s.path := by
  split
  · exact ha
  · exact hb

section Rules

variable (s : State) (c : Ch)

theorem State.modCh_path (f : Chan → Chan) (hf : ∀ h, (f h).path = h.path) : (s.modCh c f).path = s.path := by
  refine Prod.ext rfl (Prod.ext rfl (funext fun k => ?_))
  show ((s.modCh c f).ch k).path = (s.ch k).path
  rw [State.modCh_ch]
  split
  next h =>
    rw [h]
    exact hf _
  next => rfl

theorem State.modSeq_path (f : SeqSt → SeqSt) : (s.modSeq c f).path = s.path := s.modCh_path c _ fun _ => rfl

theorem State.modCnt_path (f : ChCnt → ChCnt) : (s.modCnt c f).path = s.path := s.modCh_path c _ fun _ => rfl

theorem State.path_congr {t : State} (hc : t.course = s.course) (hu : t.units = s.units) (hch : t.chan = s.chan) : t.path = s.path := by
  simp only [State.path, State.ch, hc, hu, hch]

theorem State.raise_path (e : BitVec 16) (k : BitVec 2) (d : W32) : (s.raise e k d).path = s.path :=
  s.path_congr (State.raise_course ..) (State.raise_units ..) (State.raise_chan ..)

theorem State.raiseLimited_path (e : BitVec 16) (k : BitVec 2) (d : W32) (u i : Nat) : (s.raiseLimited e k d u i).path = s.path :=
  s.path_congr (State.raiseLimited_course ..) (State.raiseLimited_units ..) (State.raiseLimited_chan ..)

theorem State.hold_path (k : Fin 4) (rq : Rq) (e : Entry) : (s.hold k rq e).path = s.path :=
  s.path_congr (State.hold_course ..) (State.hold_units ..) (State.hold_chan ..)

theorem State.completeOne_path (q : Ring) (x : InExec) (st : Byte) (i : W64) (b : Bool) : (s.completeOne q x st i b).path = s.path := by
  unfold State.completeOne
  dsimp only
  split
  · exact State.hold_path ..
  · split
    · exact (State.raiseLimited_path ..).trans (State.hold_path ..)
    · exact State.hold_path ..

theorem State.barriers_path (q : Ring) : (s.barriers q).path = s.path := by
  have hall (l : List InExec) (t : State) : (l.foldl (fun s x => s.completeOne q x 0 0) t).path = t.path := by
    induction l generalizing t with
    | nil => rfl
    | cons x l ih => exact (ih _).trans (State.completeOne_path ..)
  exact hall _ _

theorem State.complete_path (q : Ring) (tag : BitVec 16) (slot : Nat) (st : Byte) (i : W64) (b : Bool) :
    (s.complete q tag slot st i b).path = s.path := by
  unfold State.complete
  split
  next x _ => exact (State.barriers_path _ q).trans (s.completeOne_path q x st i b)
  next => rfl

theorem State.latchCh_path (bit : Nat) : (s.latchCh c bit).path = s.path := by
  unfold State.latchCh
  split
  · split
    · rfl
    · rfl
  · rfl

end Rules

/-! The acts of a sequencer -/

section Acts

variable (s : State) (c : Ch)

theorem State.writeREff_path : (s.writeREff c).path = s.path := by
  unfold State.writeREff
  split
  · exact s.modSeq_path c _
  · rfl

theorem State.sendTrimmed_path (on : Int) (a : Option (W32 × Nat)) : (s.sendTrimmed c on a).path = s.path := by
  unfold State.sendTrimmed
  split
  · exact s.modCh_path c _ fun _ => rfl
  · exact s.modCh_path c _ fun _ => rfl

theorem State.limpDrive_path : (s.limpDrive c).path = s.path := by
  unfold State.limpDrive
  split
  · exact s.sendTrimmed_path c _ _
  · rfl

theorem State.dryBegin_path (n : Nat) : (s.dryBegin c n).path = s.path :=
  (State.raise_path ..).trans (s.modSeq_path c _)

theorem State.dryCross_path (r : Reach) : (s.dryCross c r).path = s.path := by
  unfold State.dryCross
  dsimp only
  split
  · exact s.dryBegin_path c _
  · rfl

theorem State.advance_path (p : Option Int) (new : Sched) (upd : Nat) (late rev dryOk : Bool) :
    (s.advance c p new upd late rev dryOk).path = s.path := by
  have hbegin (o : Option Nat) : (match o with | some n => s.dryBegin c n | none => s).path = s.path := by
    cases o with
    | none => rfl
    | some n => exact s.dryBegin_path c n
  have hraise (t : State) (b : Bool) (e : BitVec 16) (d : W32) : (if b then t.raise e 0 d else t).path = t.path := by
    split
    · exact t.raise_path ..
    · rfl
  have hact (t : State) (b : Bool) : (if b then t.modCnt c fun x => { x with act := x.act + 1 } else t).path = t.path := by
    split
    · exact t.modCnt_path c _
    · rfl
  unfold State.advance
  refine (State.limpDrive_path _ c).trans ((State.writeREff_path _ c).trans ((hact _ _).trans ((State.modSeq_path _ c _).trans
    ((hraise _ _ _ _).trans (hbegin _)))))

theorem State.advanceEvent_path (lo : Nat) : (s.advanceEvent c lo).path = s.path := State.raiseLimited_path ..

theorem State.reachDone_path (r : Reach) (st : Byte) : (s.reachDone c r st).path = s.path :=
  (State.hold_path ..).trans (s.modSeq_path c _)

theorem State.reachDoneAll_path (p : Reach → Bool) (st : Byte) : (s.reachDoneAll c p st).path = s.path :=
  forAll_keeps State.path (fun r t => t.reachDone_path c r st) _ s

theorem State.lateAdvances_path (fuel : Nat) : (s.lateAdvances c fuel).path = s.path := by
  induction fuel generalizing s with
  | zero => rfl
  | succ fuel ih =>
    unfold State.lateAdvances
    dsimp only
    split
    · rfl
    · exact State.path_ite ((ih _).trans ((State.advanceEvent_path _ c _).trans (s.advance_path ..))) rfl

theorem State.completions_path : (s.completions c).path = s.path := by
  have hone (upd : Nat) (r : Reach) (t : State) : ((fun t : State =>
      match (t.ch c).seqr.rec? r.seq with
      | some r' => t.reachDone c r' (reachOutcome r' upd)
      | none => t) (t.dryCross c r)).path = t.path := by
    dsimp only
    split
    · exact (State.reachDone_path ..).trans (t.dryCross_path c r)
    · exact t.dryCross_path c r
  have hall (upd : Nat) (l : List Reach) := forAll_keeps State.path (hone upd) l s
  unfold State.completions
  dsimp only
  split
  · exact hall _ _
  · exact (State.raise_path ..).trans (hall _ _)

theorem State.fieldEntry_path : (s.fieldEntry c).path = s.path := by
  have hbefore (f : SeqSt → SeqSt) (p : Reach → Bool) : ((s.reachDoneAll c p 4).modSeq c f).path = s.path :=
    (State.modSeq_path _ c f).trans (s.reachDoneAll_path c p 4)
  unfold State.fieldEntry
  dsimp only
  split
  · exact hbefore _ _
  · exact (State.advanceEvent_path _ c _).trans ((State.advance_path ..).trans (hbefore _ _))

theorem State.directionStep_path : (s.directionStep c).path = s.path := by
  have hturn (f : SeqSt → SeqSt) : (s.modSeq c f).path = s.path := s.modSeq_path c f
  unfold State.directionStep
  refine State.path_ite rfl (State.path_ite (State.path_ite (hturn _) ?_) (hturn _))
  exact (State.advanceEvent_path _ c _).trans ((State.advance_path ..).trans (hturn _))

/-- The state of a sequencer taken at a place, with the advance that this asks for. -/
theorem State.ite_advance_path {t : State} (p : Prop) [Decidable p] (f : SeqSt → SeqSt) (o : Option Int) (new : Sched) (upd lo : Nat)
    (late rev dryOk : Bool) (ht : t.path = s.path) :
    (if p then t.modSeq c f else ((t.modSeq c f).advance c o new upd late rev dryOk).advanceEvent c lo).path = s.path := by
  have hseq : (t.modSeq c f).path = s.path := (t.modSeq_path c f).trans ht
  exact State.path_ite hseq ((State.advanceEvent_path _ c _).trans ((State.advance_path ..).trans hseq))

theorem State.cancelStep_path (x : CancelReq) : (s.cancelStep c x).path = s.path := by
  unfold State.cancelStep
  obtain ⟨p, hp⟩ : ∃ p : Reach → Bool, p = fun r => match x.rtag with | some t => decide (r.tag = t) | none => true := ⟨_, rfl⟩
  have hall := s.reachDoneAll_path c p 5
  rw [hp] at hall
  cases x.req with
  | none => exact State.path_ite (s.ite_advance_path c _ _ _ _ _ _ _ _ _ hall) hall
  | some r =>
    have hanswer (n : Nat) := ((s.reachDoneAll c p 5).complete_path r.1 r.2.1 r.2.2 0 (BitVec.ofNat 64 n) true).trans (hp ▸ hall)
    rw [hp] at hanswer
    exact State.path_ite (s.ite_advance_path c _ _ _ _ _ _ _ _ _ (hanswer _)) (hanswer _)

/-- The part of a course update that `seqChange` compares: the sequencer of one channel acts in the order of R220. -/
theorem State.seqUpdate_path : (s.seqUpdate c).path = s.path := by
  have hlatch (t : State) (b : Prop) [Decidable b] : (if b then t else t.latchCh c 4).path = t.path := by
    split
    · rfl
    · exact t.latchCh_path c 4
  have hentry (t : State) (b : Bool) : (if b then t.fieldEntry c else t).path = t.path := by
    split
    · exact t.fieldEntry_path c
    · rfl
  have hcancel (t : State) (b : Bool) (l : List CancelReq) (f : SeqSt → SeqSt) :
      (if b then t else forAll l (fun x t => t.cancelStep c x) (t.modSeq c f)).path = t.path := by
    split
    · rfl
    · exact (forAll_keeps State.path (fun x t => t.cancelStep_path c x) l _).trans (t.modSeq_path c f)
  have hrun (t : State) (b : Bool) (l : List Reach) :
      (if b then (t.lateAdvances c 256).completions c else forAll l (fun r t => t.dryCross c r) t).path = t.path := by
    split
    · exact (State.completions_path _ c).trans (t.lateAdvances_path c 256)
    · exact forAll_keeps State.path (fun r t => t.dryCross_path c r) l t
  unfold State.seqUpdate State.seqChange
  dsimp only
  refine (hlatch _ _).trans ((State.modSeq_path _ c _).trans ((State.limpDrive_path _ c).trans ((State.writeREff_path _ c).trans
    ((hrun _ _ _).trans ((State.modSeq_path _ c _).trans ((State.directionStep_path _ c).trans ((hcancel _ _ _ _).trans
      ((hentry _ _).trans (State.modSeq_path _ c _)))))))))

theorem State.predEvaluate_path : (s.predEvaluate c).path = s.path := by
  unfold State.predEvaluate
  split
  · refine s.modCh_path c _ fun h => ?_
    split
    · rfl
    · rfl
  · rfl

end Acts

/-- What follows the course engine's own part of a course update that made no rebase. -/
theorem execCourseUpdate_path {s t : State} (hc : s.clockOn = true) (hgrid : s.now % 2000 = 0) (hnew : s.course.updAt ≠ some s.now)
    (hstep : s.courseStep = (t, false)) :
    ∃ u, exec .courseUpdate s = .next u ∧ u.units = t.units ∧ (∃ b, u.course = { t.course with fieldPass := b }) ∧
      ∀ c, (u.ch c).path = (t.ch c).path := by
  have hseq : (forAll allCh (fun c t => (t.seqUpdate c).predEvaluate c) t).path = t.path :=
    forAll_keeps State.path (fun c t => (State.predEvaluate_path _ c).trans (t.seqUpdate_path c)) allCh t
  have hon : (s.clockOn && decide (s.now % 2000 = 0) && s.course.updAt != some s.now) = true := by simp [hc, hgrid, hnew]
  have hend (f : ModeSt → ModeSt) (b : Bool) (v : State) (hv : v.path = t.path) :
      ∃ u, (.next ((v.modMode f).modCourse fun x => { x with fieldPass := b }) : Res) = .next u ∧ u.units = t.units ∧
        (∃ b, u.course = { t.course with fieldPass := b }) ∧ ∀ c, (u.ch c).path = (t.ch c).path :=
    ⟨_, rfl, congrArg (·.2.1) hv, ⟨b, congrArg (fun p => { p.1 with fieldPass := b }) hv⟩, fun c => congrFun (congrArg (·.2.2) hv) c⟩
  rw [exec_courseUpdate]
  unfold execCourseUpdate
  rw [if_pos hon, hstep]
  exact hend _ _ _ hseq

end Sys2Proof.Machine
end

section
/-! PROOFS. Rebase, geometry and the course engine's part of a course update (R52 to R56, R73, R74). -/

namespace Sys2Proof.Machine

/-- What the sources of a course update leave of the course: its path, its past and the rebases asked for. -/
def Course.base (c : Course) : List Int × List Int × Bool × Int × Bool × Bool :=
  (c.vHist, c.omegaHist, c.thawed, c.sRefQ24, c.rebaseGo, c.rebaseRing)

/-- What the sources of a course update leave as it is. -/
def State.base (s : State) : (Ch → Int) × Vector Chan 256 × Vector CmpUnit 544 × TickSt × Mode × (List Int × List Int × Bool × Int × Bool × Bool) :=
  (s.chY, s.chan, s.units, s.tick, s.mode.mode, s.course.base)

section Sources

variable (s : State)

theorem State.base_congr {t : State} (hr : ∀ c, t.reg (R.CH_GEOM_Y c) = s.reg (R.CH_GEOM_Y c)) (hch : t.chan = s.chan) (hu : t.units = s.units)
    (ht : t.tick = s.tick) (hm : t.mode.mode = s.mode.mode) (hc : t.course = s.course) : t.base = s.base := by
  have hy : t.chY = s.chY := funext fun c => congrArg BitVec.toInt (hr c)
  simp only [State.base, hy, hch, hu, ht, hm, hc]

theorem State.modCourse_base (f : Course → Course) (hf : (f s.course).base = s.course.base) : (s.modCourse f).base = s.base := by
  show (s.chY, s.chan, s.units, s.tick, s.mode.mode, (f s.course).base) = s.base
  rw [hf]
  rfl

theorem chGeomY_high (c : Ch) : 0x8000 ≤ R.CH_GEOM_Y c := by
  unfold R.CH_GEOM_Y
  omega

theorem State.raise_base (e : BitVec 16) (k : BitVec 2) (d : W32) : (s.raise e k d).base = s.base :=
  s.base_congr (fun c => s.raise_reg _ _ _ _ (not_mem_eventRegs_of_high (chGeomY_high c))) (State.raise_chan ..) (State.raise_units ..)
    (State.raise_tick ..) (State.raise_mode_mode ..) (State.raise_course ..)

theorem State.count_base (f : Fld) (h : f.addr < 0x8000) : (s.count f).base = s.base :=
  s.base_congr (fun c => s.reg_count_far f 1 (R.CH_GEOM_Y c) (by have := chGeomY_high c; omega)) rfl rfl rfl rfl rfl

theorem State.base_ite {s a b : State} {p : Prop} [Decidable p] (ha : a.base = s.base) (hb : b.base = s.base) :
    (if p then a else b).base = s.base := by
  split
  · exact ha
  · exact hb

theorem State.modEnc_base (n : Fin 2) (f : Enc → Enc) : (s.modEnc n f).base = s.base := by
  refine s.modCourse_base _ ?_
  split
  · rfl
  · rfl

theorem State.encSettle_base (n : Fin 2) : (s.encSettle n).base = s.base := by
  unfold State.encSettle
  refine State.base_ite (State.base_ite (s.modEnc_base n _) ((State.count_base _ _ ?_).trans (s.modEnc_base n _))) rfl
  split
  · decide
  · decide

theorem State.poseLatch_base : s.poseLatch.base = s.base := by
  rw [State.poseLatch.eq_def]
  cases s.course.pose with
  | none => rfl
  | some p =>
    have htaken : (s.modCourse fun c => { c with pose := none }).base = s.base := s.modCourse_base _ rfl
    exact State.base_ite ((State.raise_base ..).trans ((State.count_base _ R.COURSE_CNT_HOST_REFUSED (by decide)).trans htaken))
      ((State.modCourse_base _ _ rfl).trans htaken)

theorem State.judgeEnc_base (n : Fin 2) : (s.judgeEnc n).base = s.base := by
  have haged (f : Enc → Enc) : (s.modEnc n f).base = s.base := s.modEnc_base n f
  unfold State.judgeEnc
  refine State.base_ite ((State.raise_base ..).trans ((State.modEnc_base ..).trans (haged _)))
    (State.base_ite ((State.modEnc_base ..).trans (haged _)) (haged _))

theorem State.setValid_base (code : Nat) (ok : Bool) : (s.setValid code ok).base = s.base := by
  unfold State.setValid
  exact State.base_ite (s.modCourse_base _ rfl) ((State.raise_base ..).trans (s.modCourse_base _ rfl))

theorem State.judge_base : s.judge.base = s.base :=
  (forAll_keeps State.base (fun c t => t.setValid_base c _) srcCodes _).trans
    ((State.judgeEnc_base _ 1).trans (s.judgeEnc_base 0))

theorem State.changeSource_base (code : Nat) : (s.changeSource code).base = s.base := by
  have hraise := s.raise_base 0x0400 0 (BitVec.ofNat 32 (code + s.course.speedSrc * 16))
  unfold State.changeSource
  exact State.base_ite ((State.raise_base ..).trans ((State.modCourse_base _ _ rfl).trans hraise))
    ((State.modCourse_base _ _ rfl).trans hraise)

theorem State.select_base : s.select.base = s.base := by
  have hlost : (if (s.course.speedSrc ≠ 0 && s.isValid s.course.speedSrc) = true then
      s.raise 0x0401 0 (BitVec.ofNat 32 s.course.speedSrc) else s).base = s.base := State.base_ite (s.raise_base ..) rfl
  unfold State.select
  exact State.base_ite rfl (State.base_ite hlost ((State.changeSource_base _ _).trans hlost))

theorem State.turnStep_base (dt : Nat) : (s.turnStep dt).base = s.base := by
  unfold State.turnStep
  exact (State.modCourse_base _ _ rfl).trans (State.base_ite rfl (s.modCourse_base _ rfl))

theorem State.speedStep_base (dt : Nat) : (s.speedStep dt).base = s.base := by
  unfold State.speedStep
  exact State.base_ite ((State.modCourse_base _ _ rfl).trans (State.base_ite (s.raise_base ..) rfl))
    (State.base_ite (s.modCourse_base _ rfl) rfl)

theorem State.xchkStep_base : s.xchkStep.base = s.base := by
  unfold State.xchkStep
  exact State.base_ite rfl (s.modCourse_base _ rfl)

theorem State.headStep_base (dt : Nat) : (s.headStep dt).base = s.base := by
  have hclear (t : State) (f : StSrc → StSrc) : (t.modCourse fun c =>
      { c with gnss0 := f c.gnss0, gnss1 := f c.gnss1, host := f c.host, ring := f c.ring }).base = t.base :=
    t.modCourse_base _ (by simp only [Course.base])
  have hhead (n : Int) (k : Nat) : (s.modCourse fun c => { c with headQ24 := n, headSrc := k }).base = s.base :=
    s.modCourse_base _ (by simp only [Course.base])
  have hturn (f : Course → Int) : (s.modCourse fun c => { c with headQ24 := f c }).base = s.base :=
    s.modCourse_base _ (by simp only [Course.base])
  unfold State.headStep
  split
  · exact (hclear _ fun x => { x with newHeading := false, newCog := false }).trans (hhead _ _)
  · exact (hclear _ fun x => { x with newHeading := false, newCog := false }).trans (State.base_ite rfl (hturn _))

/-- The magnitudes kept for a thaw are no part of the path. -/
theorem State.holdSpeeds_base : s.holdSpeeds.base = s.base := s.modCourse_base _ (by simp only [Course.base])

/-- The sources read, judged and chosen at a course update that comes `dt` ticks after the one before. -/
def State.sourced (s : State) (dt : Nat) : State :=
  let s := (((s.encSettle 0).encSettle 1).modCourse Course.aged).poseLatch.judge.select
  (((s.turnStep dt).speedStep dt).xchkStep.headStep dt).holdSpeeds

theorem State.sourced_base (dt : Nat) : (s.sourced dt).base = s.base := by
  have hsettle : (((s.encSettle 0).encSettle 1).modCourse Course.aged).base = s.base :=
    (State.modCourse_base _ _ (by simp only [Course.base, Course.aged])).trans ((State.encSettle_base _ 1).trans (s.encSettle_base 0))
  unfold State.sourced
  rw [State.holdSpeeds_base, State.headStep_base, State.xchkStep_base, State.speedStep_base, State.turnStep_base, State.select_base,
    State.judge_base, State.poseLatch_base, hsettle]

end Sources

/-! Integration -/

/-- The path of the reference point over `dt` ticks, with `held` the speed before the update. -/
def State.moved (s : State) (dt : Nat) (held : Int) : State :=
  (s.modCourse fun c =>
    { c with sRefQ24 := wrapI 72 (c.sRefQ24 + roundDiv ((if c.thawed then held else c.v) * dt * 16777216) ticksPerS) }).integrate dt

/-- s_ref as the headwater gives it, where the module follows one. -/
def State.ringRef (s : State) : State :=
  if s.course.speedSrc = 9 then s.modCourse fun c => { c with sRefQ24 := wrapI 72 (s.ringSRefNow * 16777216) } else s

/-- The end of a course update. -/
def State.updated (s : State) : State :=
  let s := (s.modCourse Course.pushHist).overspeedStep
  s.modCourse fun c => { c with updTick := s.tick.now, updAt := some s.now, thawed := false }

section Step

variable (s : State)

theorem State.ringRef_base : (s.ringRef).course.rebaseGo = s.course.rebaseGo ∧ s.ringRef.course.rebaseRing = s.course.rebaseRing := by
  unfold State.ringRef
  split
  · exact ⟨rfl, rfl⟩
  · exact ⟨rfl, rfl⟩

theorem State.rebaseStep_none (hg : s.course.rebaseGo = false) (hr : s.course.rebaseRing = false) : s.rebaseStep = (s, false) := by
  unfold State.rebaseStep
  rw [hg, hr]
  rfl

/-- The course engine's part of an update without a rebase. -/
theorem State.courseStep_plain (hg : s.course.rebaseGo = false) (hr : s.course.rebaseRing = false) : s.courseStep =
    (((s.sourced (s.now - s.course.updTick.toNat)).moved (s.now - s.course.updTick.toNat) s.course.v).ringRef.updated, false) := by
  unfold State.courseStep
  extract_lets dt held s1 s2 s3 s4 s5 s6
  have h3 : s3 = s.sourced dt := rfl
  have h5 : s5 = s3.moved dt held := rfl
  have h6 : s6 = s5.ringRef := rfl
  clear_value s6 s5 s4 s3
  subst h6 h5 h3
  have hbase := s.sourced_base dt
  have hgo : (((s.sourced dt).moved dt held).ringRef).course.rebaseGo = false :=
    (State.ringRef_base _).1.trans ((congrArg (·.2.2.2.2.2.2.2.2.2.1) hbase).trans hg)
  have hring : (((s.sourced dt).moved dt held).ringRef).course.rebaseRing = false :=
    (State.ringRef_base _).2.trans ((congrArg (·.2.2.2.2.2.2.2.2.2.2) hbase).trans hr)
  rw [State.rebaseStep_none _ hgo hring]
  change _ = ((((s.sourced dt).moved dt held).ringRef).updated, false)
  generalize ((s.sourced dt).moved dt held).ringRef = u
  rfl

/-- The limit of speed judged at the end of an update. -/
theorem State.overspeedStep_eq : s.overspeedStep.course = { s.course with overspeed := decide (s.speedLimit < s.course.v.natAbs) } ∧
    s.overspeedStep.tick = s.tick ∧ s.overspeedStep.units = s.units ∧ s.overspeedStep.chan = s.chan := by
  obtain ⟨u, hu, hcourse, htick, hunits, hchan⟩ : ∃ u, u = (if decide (s.speedLimit < s.course.v.natAbs) && !s.course.overspeed then
      s.raise 0x0407 0 else s) ∧ u.course = s.course ∧ u.tick = s.tick ∧ u.units = s.units ∧ u.chan = s.chan := by
    refine ⟨_, rfl, ?_⟩
    split
    · exact ⟨State.raise_course .., State.raise_tick .., State.raise_units .., State.raise_chan ..⟩
    · exact ⟨rfl, rfl, rfl, rfl⟩
  unfold State.overspeedStep
  dsimp only
  rw [← hu]
  exact ⟨by rw [State.modCourse_course, hcourse], htick, hunits, hchan⟩

/-- The end of a course update: the differences over 100 updates, the limit of speed and the tick. -/
theorem State.updated_course : s.updated.course =
    { s.course.pushHist with
      overspeed := decide (s.speedLimit < s.course.v.natAbs), updTick := s.tick.now, updAt := some s.now, thawed := false } ∧
    s.updated.units = s.units ∧ s.updated.chan = s.chan := by
  obtain ⟨hcourse, htick, hunits, hchan⟩ := (s.modCourse Course.pushHist).overspeedStep_eq
  unfold State.updated
  dsimp only
  refine ⟨?_, hunits, hchan⟩
  rw [State.modCourse_course, hcourse, State.now, htick]
  rfl

theorem State.ringRef_kept : s.ringRef.chan = s.chan ∧ s.ringRef.units = s.units ∧ s.ringRef.tick = s.tick ∧ s.ringRef.mode = s.mode ∧
    ∃ q, s.ringRef.course = { s.course with sRefQ24 := q } ∧ (s.course.speedSrc ≠ 9 → q = s.course.sRefQ24) := by
  unfold State.ringRef
  split
  next h => exact ⟨rfl, rfl, rfl, rfl, _, rfl, fun hn => absurd h hn⟩
  next => exact ⟨rfl, rfl, rfl, rfl, _, rfl, fun _ => rfl⟩

end Step

/-- What a course update without a rebase leaves, `u` being the state after the sources. -/
structure Integrated (s u t : State) (dt : Nat) : Prop where
  course : ∃ q, t.course = { u.course.pushHist with
    sRefQ24 := q, overspeed := decide (u.speedLimit < u.course.v.natAbs), updTick := u.tick.now, updAt := some u.now, thawed := false } ∧
    (u.course.speedSrc ≠ 9 → q = wrapI 72 (u.course.sRefQ24 +
      roundDiv ((if u.course.thawed then s.course.v else u.course.v) * dt * 16777216) ticksPerS))
  units : t.units = u.units
  chan : t.chan = (u.moved dt s.course.v).chan

theorem State.updated_integrated (s u : State) (dt : Nat) : Integrated s u (u.moved dt s.course.v).ringRef.updated dt := by
  obtain ⟨hchan, hunits, htick, hmode, q, hcourse, hq⟩ := (u.moved dt s.course.v).ringRef_kept
  obtain ⟨hend, huend, hcend⟩ := (u.moved dt s.course.v).ringRef.updated_course
  refine ⟨⟨q, ?_, fun h9 => hq h9⟩, huend.trans hunits, hcend.trans hchan⟩
  rw [hend, State.now, State.speedLimit, htick, hmode, hcourse]
  rfl

theorem State.integrate_ch (s : State) (dt : Nat) (c : Ch) : (s.integrate dt).ch c =
    { s.ch c with viQ8 := s.chSpeedQ8 c, sPrev := (s.ch c).sRep, dX := 0
                  sQ24 := wrapI 64 ((s.ch c).sQ24 +
                    roundDiv ((if s.course.thawed then (s.ch c).viQ8 else s.chSpeedQ8 c) * dt * 65536) ticksPerS + (s.ch c).dX * 16777216) } :=
  Vector.getElem_ofFn _

theorem State.moved_ch (u : State) (dt : Nat) (held : Int) (c : Ch) :
    ((u.moved dt held).ch c).viQ8 = u.chSpeedQ8 c ∧ ((u.moved dt held).ch c).dX = 0 ∧
    ((u.moved dt held).ch c).sQ24 = wrapI 64 ((u.ch c).sQ24 +
      roundDiv ((if u.course.thawed then (u.ch c).viQ8 else u.chSpeedQ8 c) * dt * 65536) ticksPerS + (u.ch c).dX * 16777216) := by
  unfold State.moved
  rw [State.integrate_ch]
  exact ⟨rfl, rfl, rfl⟩

/-- A course update without a rebase. -/
theorem courseUpdate_integrates {s : State} (hc : s.clockOn = true) (hgrid : s.now % 2000 = 0) (hnew : s.course.updAt ≠ some s.now)
    (hg : s.course.rebaseGo = false) (hr : s.course.rebaseRing = false) :
    ∃ t, exec .courseUpdate s = .next t ∧ t.course.updTick = s.tick.now ∧ t.course.updAt = some s.now ∧
      t.course.thawed = false ∧ t.units = s.units ∧
      t.course.overspeed = decide ((if s.mode.mode = .field then 20000000 else 25000000) < t.course.v.natAbs) ∧
      t.course.accel = satI 32 ((t.course.v - s.course.vHist.getD 99 0) * 1000) ∧
      t.course.alpha = satI 32 ((t.course.omega - s.course.omegaHist.getD 99 0) * 1000) ∧
      t.course.vHist = (t.course.v :: s.course.vHist).take 100 ∧
      (t.course.speedSrc ≠ 9 → t.course.sRefQ24 = wrapI 72 (s.course.sRefQ24 +
        roundDiv ((if s.course.thawed then s.course.v else t.course.v) * (s.now - s.course.updTick.toNat : Nat) * 16777216) 200000000)) ∧
      ∀ c : Ch,
        (t.ch c).viQ8 = roundDiv ((t.course.v * 1000000 - t.course.omega * s.chY c) * 256) 1000000 ∧
        (t.ch c).sQ24 = wrapI 64 ((s.ch c).sQ24 +
          roundDiv ((if s.course.thawed then (s.ch c).viQ8 else (t.ch c).viQ8) * (s.now - s.course.updTick.toNat : Nat) * 65536) 200000000 +
          (s.ch c).dX * 16777216) ∧
        (t.ch c).dX = 0 := by
  obtain ⟨dt, hdt⟩ : ∃ dt, dt = s.now - s.course.updTick.toNat := ⟨_, rfl⟩
  obtain ⟨u, hu⟩ : ∃ u, u = s.sourced dt := ⟨_, rfl⟩
  have hbase : u.base = s.base := hu ▸ s.sourced_base dt
  have hint := s.updated_integrated u dt
  obtain ⟨w, hw⟩ : ∃ w, w = (u.moved dt s.course.v).ringRef.updated := ⟨_, rfl⟩
  have hstep : s.courseStep = (w, false) := by rw [s.courseStep_plain hg hr, ← hdt, ← hu, ← hw]
  rw [← hw] at hint
  obtain ⟨t, ht, htunits, ⟨b, htcourse⟩, hpath⟩ := execCourseUpdate_path hc hgrid hnew hstep
  obtain ⟨q, hcourse, hq⟩ := hint.course
  rw [hcourse] at htcourse
  obtain ⟨hy, hchan, hunits, htick, hmode, hvhist, hohist, hthawed, href⟩ :
    u.chY = s.chY ∧ u.chan = s.chan ∧ u.units = s.units ∧ u.tick = s.tick ∧ u.mode.mode = s.mode.mode ∧ u.course.vHist = s.course.vHist ∧
      u.course.omegaHist = s.course.omegaHist ∧ u.course.thawed = s.course.thawed ∧ u.course.sRefQ24 = s.course.sRefQ24 := by
    simp only [State.base, Course.base, Prod.mk.injEq] at hbase
    obtain ⟨h1, h2, h3, h4, h5, h6, h7, h8, h9, -, -⟩ := hbase
    exact ⟨h1, h2, h3, h4, h5, h6, h7, h8, h9⟩
  have hnow : u.now = s.now := by rw [State.now, State.now, htick]
  have hlimit : u.speedLimit = if s.mode.mode = .field then 20000000 else 25000000 := by rw [State.speedLimit, hmode]
  have hv : t.course.v = u.course.v := by rw [htcourse]; rfl
  have homega : t.course.omega = u.course.omega := by rw [htcourse]; rfl
  have hspeed (c : Ch) : u.chSpeedQ8 c = roundDiv ((t.course.v * 1000000 - t.course.omega * s.chY c) * 256) 1000000 := by
    rw [State.chSpeedQ8, hv, homega, hy]
  have hch (c : Ch) : (t.ch c).path = ((u.moved dt s.course.v).ch c).path := by
    rw [hpath c, State.ch, hint.chan]
    rfl
  rw [← hdt]
  refine ⟨t, ht, ?_, ?_, ?_, htunits.trans (hint.units.trans hunits), ?_, ?_, ?_, ?_, fun h9 => ?_, fun c => ?_⟩
  · rw [htcourse, ← htick]
  · rw [htcourse, ← hnow]
  · rw [htcourse]
  · rw [hv, htcourse, ← hlimit]
  · rw [hv, htcourse, ← hvhist]
    rfl
  · rw [homega, htcourse, ← hohist]
    rfl
  · rw [hv, htcourse, ← hvhist]
    rfl
  · rw [htcourse] at h9
    rw [hv, htcourse, ← hthawed, ← href]
    exact hq h9
  · obtain ⟨hvi, hdx, hs⟩ := u.moved_ch dt s.course.v c
    have hpathc := hch c
    simp only [Chan.path, Prod.mk.injEq] at hpathc
    obtain ⟨hp1, hp2, hp3⟩ := hpathc
    have hold : u.ch c = s.ch c := by rw [State.ch, hchan]; rfl
    have hspeedT : (t.ch c).viQ8 = u.chSpeedQ8 c := hp1.trans hvi
    refine ⟨hspeedT.trans (hspeed c), ?_, hp3.trans hdx⟩
    rw [hspeedT, hp2, hs, hold, hthawed]
    rfl

/-! Rebase and geometry writes -/

theorem chGeomX_high (c : Ch) : 0x8000 ≤ R.CH_GEOM_X c := by
  unfold R.CH_GEOM_X
  omega

theorem chGeomX_ne_chGeomY (c k : Ch) : R.CH_GEOM_X c ≠ R.CH_GEOM_Y k := by
  unfold R.CH_GEOM_X R.CH_GEOM_Y
  omega

/-- An event leaves the geometry and the channels. -/
theorem State.raise_geometry (s : State) (e : BitVec 16) (k : BitVec 2) (d : W32) :
    (∀ c, (s.raise e k d).chX c = s.chX c ∧ (s.raise e k d).chY c = s.chY c) ∧ (s.raise e k d).chan = s.chan :=
  ⟨fun c => ⟨congrArg BitVec.toInt (s.raise_reg _ _ _ _ (not_mem_eventRegs_of_high (chGeomX_high c))),
    congrArg BitVec.toInt (s.raise_reg _ _ _ _ (not_mem_eventRegs_of_high (chGeomY_high c)))⟩, State.raise_chan ..⟩

theorem clampGeom_toInt (v : Int) : (BitVec.ofInt 32 (clampI (-100000000) 100000000 v)).toInt = clampI (-100000000) 100000000 v := by
  have hlo : -100000000 ≤ clampI (-100000000) 100000000 v := by unfold clampI; omega
  have hhi : clampI (-100000000) 100000000 v ≤ 100000000 := by unfold clampI; omega
  rw [BitVec.toInt_ofInt, Int.bmod_def]
  omega

theorem geomWrite_taken {s : State} (c : Ch) (isX : Bool) (v : W32) (hm : s.mode.mode ≠ .field) :
    let new := clampI (-100000000) 100000000 v.toInt
    let t := s.geomWrite c isX v
    (if isX then t.chX c else t.chY c) = new ∧
      (if isX then t.chY c else t.chX c) = (if isX then s.chY c else s.chX c) ∧
      t.ch c = { s.ch c with dX := (s.ch c).dX + (if isX then new - s.chX c else 0) } ∧
      (∀ k, k ≠ c → t.ch k = s.ch k) ∧
      (∀ a, a ≠ R.CH_GEOM_X c → a ≠ R.CH_GEOM_Y c → t.reg a = s.reg a) := by
  dsimp only
  unfold State.geomWrite
  rw [if_neg hm]
  dsimp only
  cases isX with
  | true =>
    refine ⟨?_, ?_, ?_, fun k hk => ?_, fun a hx _ => State.reg_setReg_other _ _ _ _ hx⟩
    · show ((State.setReg _ _ _).reg _).toInt = _
      rw [State.reg_setReg_same]
      exact clampGeom_toInt _
    · exact congrArg BitVec.toInt (State.reg_setReg_other _ _ _ _ (chGeomX_ne_chGeomY c c).symm)
    · show (s.modCh c _).ch c = _
      rw [State.modCh_ch, if_pos rfl]
      rfl
    · show (s.modCh c _).ch k = _
      rw [State.modCh_ch, if_neg hk]
  | false =>
    refine ⟨?_, ?_, ?_, fun k hk => rfl, fun a _ hy => State.reg_setReg_other _ _ _ _ hy⟩
    · show ((State.setReg _ _ _).reg _).toInt = _
      rw [State.reg_setReg_same]
      exact clampGeom_toInt _
    · exact congrArg BitVec.toInt (State.reg_setReg_other _ _ _ _ (chGeomX_ne_chGeomY c c))
    · show s.ch c = _
      simp only [Bool.false_eq_true, if_false, Int.add_zero]

/-- Settles O38: rebase and geometry are taken as asked, and an update integrates over the ticks since the one before. -/
theorem courseRebaseAndIntegration : Obligations.CourseRebaseAndIntegration := by
  unfold Obligations.CourseRebaseAndIntegration
  refine ⟨fun s hc => ⟨fun hm hr => ?_, fun h => ?_, fun c isX v => ⟨fun hm => ?_, fun hm => ?_⟩⟩, fun s hc => ⟨fun h => ?_, ?_⟩⟩
  · rw [exec_courseRebaseGo]
    unfold execCourseRebaseGo State.rebaseWrite
    rw [if_pos hc, if_neg (by simp [hm, hr])]
    rfl
  · refine ⟨s.raise 0x0409 0, ?_, State.raise_course .., State.raise_chan .., fun hroom => Stored.of_raise s hroom _ _ _⟩
    rw [exec_courseRebaseGo]
    unfold execCourseRebaseGo State.rebaseWrite
    rw [if_pos hc, if_pos (by simpa using h)]
  · obtain ⟨hgeom, hchan⟩ := s.raise_geometry 0x0409 0 0
    refine ⟨s.raise 0x0409 0, ?_, hgeom, hchan, fun hroom => Stored.of_raise s hroom _ _ _⟩
    rw [exec_chGeomWrite]
    unfold execChGeomWrite State.geomWrite
    rw [if_pos hc, if_pos hm]
  · refine ⟨s.geomWrite c isX v, ?_, geomWrite_taken c isX v hm⟩
    rw [exec_chGeomWrite]
    exact if_pos hc
  · rw [exec_courseUpdate]
    refine if_neg ?_
    rcases h with h | h <;> simp [h]
  · exact courseUpdate_integrates hc

end Sys2Proof.Machine
end

section
/-! PROOFS. GNSS characters, sentences and frames (R76 to R82). -/

namespace Sys2Proof.Machine

/-! Counters and events of a port -/

/-- A 16-bit counter of Table 18.1 that no event changes. -/
structure GnssCounter (f : Fld) : Prop where
  width : f.w = 16
  fits : f.lo + f.w ≤ 32
  quiet : f.addr ∉ eventRegs

theorem gnssCounters (n : Fin 2) : GnssCounter (R.GNSS_CNT0_EARLY n) ∧ GnssCounter (R.GNSS_CNT0_FRAMING n) ∧
    GnssCounter (R.GNSS_CNT1_BAD n) ∧ GnssCounter (R.GNSS_CNT1_GOOD n) := by
  have hquiet (n : Fin 2) : R.GNSS_CNT0 n ∉ eventRegs ∧ R.GNSS_CNT1 n ∉ eventRegs := by
    revert n
    decide
  obtain ⟨h0, h1⟩ := hquiet n
  have hlow : 0 + 16 ≤ 32 := by decide
  have hhigh : 16 + 16 ≤ 32 := by decide
  exact ⟨⟨rfl, hhigh, h0⟩, ⟨rfl, hlow, h0⟩, ⟨rfl, hlow, h1⟩, ⟨rfl, hhigh, h1⟩⟩

section Counters

variable (s : State) (n : Fin 2) {f : Fld} (hf : GnssCounter f)

theorem State.uartEvent_kept (code : BitVec 16) : (s.uartEvent code n).uart = s.uart ∧ (s.uartEvent code n).course = s.course :=
  ⟨State.raiseLimited_uart .., State.raiseLimited_course ..⟩

include hf

theorem State.uartEvent_get (code : BitVec 16) : (s.uartEvent code n).get f = s.get f :=
  congrArg (fieldOf · f) (State.raiseLimited_reg _ _ _ _ _ _ _ hf.quiet)

theorem State.count_counter : (s.count f).get f = min 65535 (s.get f + 1) := by
  rw [State.get_count_same _ _ _ hf.fits, hf.width, Nat.min_comm]
  rfl

theorem State.uartEvent_count_get (code : BitVec 16) : ((s.count f).uartEvent code n).get f = min 65535 (s.get f + 1) := by
  rw [State.uartEvent_get _ n hf, State.count_counter _ hf]

end Counters

section Ports

variable (s : State) (n : Fin 2)

theorem State.modUart_same (f : Uart → Uart) : (s.modUart n f).uart[n] = f s.uart[n] := upd_same (v := s.uart) (i := n) (f := f)

theorem State.gnss_modGnss (f : StSrc → StSrc) : (s.modGnss n f).gnss n = f (s.gnss n) := by
  unfold State.gnss State.modGnss State.modCourse
  split <;> rfl

theorem State.gnssBad_kept : (s.gnssBad n).uart = s.uart ∧ (s.gnssBad n).course = s.course ∧
    (s.gnssBad n).get (R.GNSS_CNT1_BAD n) = min 65535 (s.get (R.GNSS_CNT1_BAD n) + 1) := by
  obtain ⟨huart, hcourse⟩ := (s.count (R.GNSS_CNT1_BAD n)).uartEvent_kept n 0x0E41
  exact ⟨huart, hcourse, s.uartEvent_count_get n (gnssCounters n).2.2.1 0x0E41⟩

end Ports

/-! Characters -/

section Character

variable (l : List Bool)

/-- The majority of three samples. -/
theorem voteBit_majority (k : Nat) : voteBit l k =
    ((l.getD (16 * k + 7) true && l.getD (16 * k + 8) true) || (l.getD (16 * k + 7) true && l.getD (16 * k + 9) true) ||
      (l.getD (16 * k + 8) true && l.getD (16 * k + 9) true)) := by
  have hthree (a b c : Bool) : decide (2 ≤ (if a then 1 else 0) + (if b then 1 else 0) + (if c then 1 else 0)) =
      ((a && b) || (a && c) || (b && c)) := by
    revert a b c
    decide
  exact hthree _ _ _

theorem voteByte_dollar (h : ∀ k : Nat, k < 8 → voteBit l (k + 1) = (0x24 : Byte).getLsbD k) : voteByte l = 0x24 := by
  have hsum : ∀ (ks : List Nat) (a : Nat), (∀ k ∈ ks, k < 8) →
      ks.foldl (fun a k => a + if voteBit l (k + 1) then 2 ^ k else 0) a =
        ks.foldl (fun a k => a + if (0x24 : Byte).getLsbD k then 2 ^ k else 0) a := by
    intro ks
    induction ks with
    | nil => exact fun _ _ => rfl
    | cons k ks ih =>
      intro a hk
      simp only [List.foldl_cons, h k (hk k List.mem_cons_self)]
      exact ih _ fun j hj => hk j (List.mem_cons_of_mem _ hj)
  unfold voteByte
  rw [hsum _ _ fun k hk => List.mem_range.1 hk]
  decide

end Character

/-- `$` begins a sentence where NMEA alone is received. -/
theorem State.gnssByte_dollar (s : State) (n : Fin 2) (hfmt : s.get (R.GNSS_MODE_FORMAT n) = 1) : s.gnssByte n 0x24 =
    s.modUart n fun x => { x with nmeaOn := true, nmea := [0x24], nmeaTick := s.startTick n } := by
  have hnmea : s.takesNmea n = true := by rw [State.takesNmea, hfmt]; rfl
  have hbin : s.takesBin n = false := by rw [State.takesBin, hfmt]; rfl
  unfold State.gnssByte
  rw [hbin]
  dsimp only
  rw [if_neg (c := false = true) Bool.false_ne_true, if_pos hnmea]
  rfl

section Receive

variable {s : State} {n : Fin 2} {l : List Bool} {early : Bool} (hc : s.clockOn = true) (hw : s.uart[n].waitHigh = false)
include hc hw

theorem gnssCharacter_high (h0 : l.headD true = true) : exec (.gnssCharacter n l early) s = .next s := by
  rw [exec_gnssCharacter]
  refine if_pos ?_
  rw [hc, hw, h0]
  rfl

variable (h0 : l.headD true = false)
include h0

theorem gnssCharacter_open : exec (.gnssCharacter n l early) s =
    let s := if early then (s.count (R.GNSS_CNT0_EARLY n)).uartEvent 0x0E42 n else s
    if voteBit l 0 then .next s
    else if voteBit l 9 then .next (s.gnssByte n (voteByte l))
    else .next (((s.modUart n fun u => { u with waitHigh := true, nmeaOn := false, nmea := [], bin := [] }).count
      (R.GNSS_CNT0_FRAMING n)).uartEvent 0x0E40 n) := by
  rw [exec_gnssCharacter]
  refine if_neg ?_
  rw [hc, hw, h0]
  exact Bool.false_ne_true

theorem gnssCharacter_early (hb : voteBit l 0 = true) : ∃ t, exec (.gnssCharacter n l true) s = .next t ∧ t.uart = s.uart ∧
    t.get (R.GNSS_CNT0_EARLY n) = min 65535 (s.get (R.GNSS_CNT0_EARLY n) + 1) := by
  refine ⟨(s.count (R.GNSS_CNT0_EARLY n)).uartEvent 0x0E42 n, ?_, ((s.count _).uartEvent_kept n _).1,
    s.uartEvent_count_get n (gnssCounters n).1 _⟩
  rw [gnssCharacter_open hc hw h0]
  exact if_pos hb

theorem gnssCharacter_framing (hb : voteBit l 0 = false) (h9 : voteBit l 9 = false) :
    ∃ t, exec (.gnssCharacter n l false) s = .next t ∧
      t.uart[n] = { s.uart[n] with waitHigh := true, nmeaOn := false, nmea := [], bin := [] } ∧
      t.get (R.GNSS_CNT0_FRAMING n) = min 65535 (s.get (R.GNSS_CNT0_FRAMING n) + 1) ∧ t.course = s.course := by
  obtain ⟨v, hv⟩ : ∃ v, v = s.modUart n fun u => { u with waitHigh := true, nmeaOn := false, nmea := [], bin := [] } := ⟨_, rfl⟩
  obtain ⟨huart, hcourse⟩ := (v.count (R.GNSS_CNT0_FRAMING n)).uartEvent_kept n 0x0E40
  have hv' : v.uart[n] = { s.uart[n] with waitHigh := true, nmeaOn := false, nmea := [], bin := [] } := by
    rw [hv]
    exact s.modUart_same n _
  refine ⟨(v.count (R.GNSS_CNT0_FRAMING n)).uartEvent 0x0E40 n, ?_, (congrArg (·[n]) huart).trans hv',
    (v.uartEvent_count_get n (gnssCounters n).2.1 _).trans (by rw [hv]; rfl), hcourse.trans (by rw [hv]; rfl)⟩
  rw [gnssCharacter_open hc hw h0, hv]
  dsimp only
  rw [if_neg (by rw [hb]; exact Bool.false_ne_true), if_neg (by rw [h9]; exact Bool.false_ne_true)]
  rfl

theorem gnssCharacter_dollar (hb : voteBit l 0 = false) (h9 : voteBit l 9 = true) (hfmt : s.get (R.GNSS_MODE_FORMAT n) = 1)
    (hbyte : voteByte l = 0x24) : exec (.gnssCharacter n l false) s =
      .next (s.modUart n fun x => { x with nmeaOn := true, nmea := [0x24], nmeaTick := s.startTick n }) := by
  rw [gnssCharacter_open hc hw h0]
  dsimp only
  rw [if_neg (by rw [hb]; exact Bool.false_ne_true), if_pos h9, hbyte, if_neg (c := false = true) Bool.false_ne_true,
    s.gnssByte_dollar n hfmt]

end Receive

/-! Sentences -/

section Sentence

variable {s : State} {n : Fin 2} {raw : List Byte} {k : Nat} (hc : s.clockOn = true) (hready : s.uart[n].nmeaReady = some (raw, k))
include hc hready

theorem nmeaSentence_bad (hbad : nmeaFields raw (s.flag (R.GNSS_MODE_CKSUM_REQ n)) = none) :
    ∃ t, exec (.nmeaSentence n) s = .next t ∧ t.uart[n] = { s.uart[n] with nmeaReady := none } ∧ t.course = s.course ∧
      t.get (R.GNSS_CNT1_BAD n) = min 65535 (s.get (R.GNSS_CNT1_BAD n) + 1) := by
  obtain ⟨v, hv⟩ : ∃ v, v = s.modUart n fun u => { u with nmeaReady := none } := ⟨_, rfl⟩
  obtain ⟨huart, hcourse, hget⟩ := v.gnssBad_kept n
  have hv' : v.uart[n] = { s.uart[n] with nmeaReady := none } := by
    rw [hv]
    exact s.modUart_same n _
  have hflag : v.flag (R.GNSS_MODE_CKSUM_REQ n) = s.flag (R.GNSS_MODE_CKSUM_REQ n) := by rw [hv]; rfl
  refine ⟨v.gnssBad n, ?_, (congrArg (·[n]) huart).trans hv', hcourse.trans (by rw [hv]; rfl), hget.trans (by rw [hv]; rfl)⟩
  rw [exec_nmeaSentence, execNmeaSentence.eq_def, hready]
  simp only [hc, Bool.not_true, Bool.false_eq_true, if_false, ← hv, hflag, hbad]

theorem nmeaSentence_hdt {h : List Byte} {fs : List (List Byte)}
    (hok : nmeaFields raw (s.flag (R.GNSS_MODE_CKSUM_REQ n)) = some (h :: fs)) (hty : nmeaType h = some .hdt) :
    ∃ t, exec (.nmeaSentence n) s = .next t ∧ t.uart[n] = { s.uart[n] with nmeaReady := none } ∧
      (t.gnss n).speed = (s.gnss n).speed ∧
      (∀ v, decScaled (fs.getD 0 []) 174532925 10000 = some v →
        (t.gnss n).heading = some ⟨v, (k : Int) - (s.regN (R.GNSS_LAT n) * 200 : Nat)⟩) ∧
      t.get (R.GNSS_CNT1_GOOD n) = min 65535 (s.get (R.GNSS_CNT1_GOOD n) + 1) := by
  obtain ⟨v, hv⟩ : ∃ v, v = s.modUart n fun u => { u with nmeaReady := none } := ⟨_, rfl⟩
  have hv' : v.uart[n] = { s.uart[n] with nmeaReady := none } := by
    rw [hv]
    exact s.modUart_same n _
  have hflag : v.flag (R.GNSS_MODE_CKSUM_REQ n) = s.flag (R.GNSS_MODE_CKSUM_REQ n) := by rw [hv]; rfl
  have hlat : v.regN (R.GNSS_LAT n) = s.regN (R.GNSS_LAT n) := by rw [hv]; rfl
  have hgnss : v.gnss n = s.gnss n := by rw [hv]; rfl
  have hvalues : nmeaValues .hdt (h :: fs) = some (none, none, decScaled (fs.getD 0 []) 174532925 10000) := rfl
  obtain ⟨g, hg⟩ : ∃ g, g = fun x : StSrc => takeOpt (decScaled (fs.getD 0 []) 174532925 10000)
    (fun x h => x.takeHeading h ((k : Int) - (v.regN (R.GNSS_LAT n) * ticksPerUs : Nat))) x := ⟨_, rfl⟩
  have htaken : (v.modGnss n g).gnss n = g (s.gnss n) := (v.gnss_modGnss n g).trans (by rw [hgnss])
  refine ⟨(v.modGnss n g).count (R.GNSS_CNT1_GOOD n), ?_, hv', ?_, fun x hx => ?_, ?_⟩
  · rw [exec_nmeaSentence, execNmeaSentence.eq_def, hready]
    simp only [hc, Bool.not_true, Bool.false_eq_true, if_false, ← hv, hflag, hok, List.headD_cons, hty, hvalues, takeOpt]
    rw [hg]
    rfl
  · refine (congrArg StSrc.speed htaken).trans ?_
    rw [hg]
    cases decScaled (fs.getD 0 []) 174532925 10000 <;> rfl
  · refine (congrArg StSrc.heading htaken).trans ?_
    rw [hg, hx, hlat]
    rfl
  · exact (State.count_counter _ (gnssCounters n).2.2.2).trans (by rw [hv]; rfl)

end Sentence

/-! Frames -/

section Frame

variable {s : State} {n : Fin 2} {fr : List (Byte × Nat)} (hc : s.clockOn = true) (hready : s.uart[n].binReady = some fr)
include hc hready

theorem gnssBinaryFrame_bad (hbad : poseFrameOk (fr.map Prod.fst) = false) :
    ∃ t, exec (.gnssBinaryFrame n) s = .next t ∧ t.course = s.course ∧
      t.get (R.GNSS_CNT1_BAD n) = min 65535 (s.get (R.GNSS_CNT1_BAD n) + 1) := by
  obtain ⟨v, hv⟩ : ∃ v, v = s.modUart n fun u => { u with binReady := none, bin := fr.drop 1 ++ u.bin }.binTake := ⟨_, rfl⟩
  obtain ⟨-, hcourse, hget⟩ := v.gnssBad_kept n
  refine ⟨v.gnssBad n, ?_, hcourse.trans (by rw [hv]; rfl), hget.trans (by rw [hv]; rfl)⟩
  rw [exec_gnssBinaryFrame, execGnssBinaryFrame.eq_def, hready]
  simp only [hc, Bool.not_true, Bool.false_eq_true, if_false, hbad, ← hv]

end Frame

/-- The quantities of a binary frame, stamped and taken. -/
def StSrc.takeFrame (x : StSrc) (f : List Byte) (stamp : Int) : StSrc :=
  let flags := byteAt f 20
  let v := signed 32 (leAt f 4 4)
  let hd := leAt f 8 4
  let dir := flags.getLsbD 3
  let x := if flags.getLsbD 0 then x.takeSpeed (if dir then v else v.natAbs) stamp dir else x
  let x := if flags.getLsbD 1 && hd ≤ 6283185 then x.takeHeading hd stamp else x
  { x with yaw := if flags.getLsbD 2 then some ⟨signed 32 (leAt f 12 4), stamp⟩ else none }

theorem StSrc.takeFrame_speed (x : StSrc) (f : List Byte) (stamp : Int) (h : (byteAt f 20).getLsbD 0 = true) :
    (x.takeFrame f stamp).got = true ∧ (x.takeFrame f stamp).age = 0 ∧ (x.takeFrame f stamp).prevSpeed = x.speed ∧
      (x.takeFrame f stamp).speed =
        some ⟨if (byteAt f 20).getLsbD 3 then signed 32 (leAt f 4 4) else (signed 32 (leAt f 4 4)).natAbs, stamp⟩ := by
  unfold StSrc.takeFrame
  dsimp only
  rw [if_pos h]
  split
  · exact ⟨rfl, rfl, rfl, rfl⟩
  · exact ⟨rfl, rfl, rfl, rfl⟩

theorem gnssBinaryFrame_ok {s : State} {n : Fin 2} {b : Byte} {k : Nat} {rest : List (Byte × Nat)} (hc : s.clockOn = true)
    (hready : s.uart[n].binReady = some ((b, k) :: rest)) (hok : poseFrameOk (((b, k) :: rest).map Prod.fst) = true) :
    ∃ t, exec (.gnssBinaryFrame n) s = .next t ∧
      t.gnss n = (s.gnss n).takeFrame (((b, k) :: rest).map Prod.fst)
        ((k : Int) - (leAt (((b, k) :: rest).map Prod.fst) 16 4 * 200 : Nat)) ∧
      t.get (R.GNSS_CNT1_GOOD n) = min 65535 (s.get (R.GNSS_CNT1_GOOD n) + 1) := by
  obtain ⟨f, hf⟩ : ∃ f, f = ((b, k) :: rest).map Prod.fst := ⟨_, rfl⟩
  rw [← hf] at hok ⊢
  obtain ⟨v, hv⟩ : ∃ v, v = s.modUart n fun u => { u with binReady := none }.binTake := ⟨_, rfl⟩
  have hgnss : v.gnss n = s.gnss n := by rw [hv]; rfl
  have htaken : (v.modGnss n fun x => x.takeFrame f ((k : Int) - (leAt f 16 4 * 200 : Nat))).gnss n =
      (s.gnss n).takeFrame f ((k : Int) - (leAt f 16 4 * 200 : Nat)) := (v.gnss_modGnss n _).trans (by rw [hgnss])
  refine ⟨(v.modGnss n fun x => x.takeFrame f ((k : Int) - (leAt f 16 4 * 200 : Nat))).count (R.GNSS_CNT1_GOOD n), ?_, htaken, (State.count_counter _ (gnssCounters n).2.2.2).trans (by rw [hv]; rfl)⟩
  rw [exec_gnssBinaryFrame, execGnssBinaryFrame.eq_def, hready]
  simp only [hc, Bool.not_true, Bool.false_eq_true, if_false, ← hf, hok, if_true, ← hv]
  rfl

/-- Settles O39: the receivers follow the samples, the sentence or the frame. -/
theorem gnssReceiversParse : Obligations.GnssReceiversParse := by
  unfold Obligations.GnssReceiversParse
  intro s n hc
  refine ⟨fun l early _ hw => ?_, ?_, fun raw k hready => ⟨nmeaSentence_bad hc hready, fun h fs => nmeaSentence_hdt hc hready⟩,
    fun fr hready => ⟨gnssBinaryFrame_bad hc hready, ?_⟩⟩
  · have hhead : l.headD true = l.getD 0 true := by cases l <;> rfl
    simp only [← voteBit_majority, ← hhead]
    refine ⟨gnssCharacter_high hc hw, ?_, ?_, ?_, ?_⟩
    · rintro h0 rfl hb
      rw [gnssCharacter_open hc hw h0]
      exact if_pos hb
    · rintro h0 rfl hb
      exact gnssCharacter_early hc hw h0 hb
    · rintro h0 rfl hb h9
      exact gnssCharacter_framing hc hw h0 hb h9
    · rintro h0 rfl hb h9 hfmt hbits
      exact gnssCharacter_dollar hc hw h0 hb h9 hfmt (voteByte_dollar l hbits)
  · rw [exec_gnssSearchReopen]
    exact if_pos hc
  · rintro b k rest hok rfl hspeed
    obtain ⟨t, ht, hgnss, hgood⟩ := gnssBinaryFrame_ok hc hready hok
    obtain ⟨hgot, hage, hprev, hsp⟩ := (s.gnss n).takeFrame_speed _ ((k : Int) - (leAt _ 16 4 * 200 : Nat)) hspeed
    rw [← hgnss] at hgot hage hprev hsp
    exact ⟨t, ht, hgot, hage, hsp, hprev, hgood⟩

end Sys2Proof.Machine
end

section
/-! PROOFS. Missed deadlines, declarations and takeovers (R149, R242 to R247, R254). -/

namespace Sys2Proof.Machine

section Congr

variable {s t : State}

/-- The idle spare depends on the engines and on the takeovers under way. -/
theorem State.idleSpare_congr (heng : t.eng = s.eng) (hto : ∀ k, (t.ch k).takeover = (s.ch k).takeover) (p : Spire) :
    t.idleSpare p = s.idleSpare p := by
  simp only [State.idleSpare, State.isTaking, heng, hto]

end Congr

/-! The engine that is deposed -/

/-- Engine `d` has lost its channel, and no other engine changed. -/
structure Deposed (s t : State) (d : Eng) : Prop where
  role : t.eng[d].role = .deposed
  chan : t.eng[d].chan = none
  others : ∀ k : Eng, k ≠ d → t.eng[k] = s.eng[k]

section Depose

variable {s t : State} {d : Eng}

theorem Deposed.modEng (h : Deposed s t d) (f : Engine → Engine) (hr : (f t.eng[d]).role = t.eng[d].role)
    (hc : (f t.eng[d]).chan = t.eng[d].chan) : Deposed s (t.modEng d f) d where
  role := by rw [State.modEng_eng_same, hr]; exact h.role
  chan := by rw [State.modEng_eng_same, hc]; exact h.chan
  others k hk := by rw [State.modEng_eng_other _ _ _ _ hk]; exact h.others k hk

theorem Deposed.same {u : State} (h : Deposed s t d) (heng : u.eng = t.eng) : Deposed s u d where
  role := by rw [heng]; exact h.role
  chan := by rw [heng]; exact h.chan
  others k hk := by rw [heng]; exact h.others k hk

theorem Deposed.eddyTrigger (h : Deposed s t d) (src : Nat) : Deposed s (t.eddyTrigger d src) d := by
  obtain he | ⟨x, data, he⟩ := t.eddyTrigger_cases d src
  · rw [he]
    exact h
  · rw [he]
    exact (h.modEng (fun g => { g with eddy := x }) rfl rfl).same (State.raise_eng ..)

theorem State.depose_deposed (s : State) (d : Eng) (c : Ch) : Deposed s (s.depose d c) d := by
  have hlost (f : Engine → Engine) (hr : (f s.eng[d]).role = .deposed) (hc : (f s.eng[d]).chan = none) : Deposed s (s.modEng d f) d :=
    ⟨by rw [State.modEng_eng_same, hr], by rw [State.modEng_eng_same, hc], fun k hk => State.modEng_eng_other _ _ _ _ hk⟩
  unfold State.depose
  dsimp only
  split
  · exact (((hlost _ rfl rfl).eddyTrigger 1).modEng _ rfl rfl).same (State.raise_eng ..)
  · split
    · exact (((hlost _ rfl rfl).eddyTrigger 1).modEng _ rfl rfl).same (State.raise_eng ..)
    · exact (hlost _ rfl rfl).eddyTrigger 1

end Depose

/-! A declaration -/

section Declare

variable {s : State} {c : Ch} {d : Eng} (hctl : (s.ch c).ctl = some d)
include hctl

theorem State.declareDead_takes {e : Eng} (hspare : s.idleSpare (spireOf c) = some e) : s.declareDead c 0 =
    (((s.depose d c).startTakeover c e none).count (R.TKO_CNT_TAKEOVERS (spireOf c))).raise (spireCode (spireOf c) 0x80) 1
      (BitVec.ofNat 32 (c.val + engCode e * 256 + ((s.ch c).epoch + 1).toNat * 65536)) := by
  have hepoch : (((s.depose d c).startTakeover c e none).ch c).epoch = (s.ch c).epoch + 1 := by
    simp only [State.startTakeover, State.newEpoch, State.modCh_ch, if_true]
    rw [State.ch, State.depose_chan]
    rfl
  unfold State.declareDead
  simp only [hctl, hspare]
  rw [State.ch, State.count_chan, ← State.ch, hepoch, Nat.zero_mul, Nat.add_zero]

theorem State.declareDead_limps (hspare : s.idleSpare (spireOf c) = none) : s.declareDead c 0 =
    ((((s.depose d c).newEpoch c none).modCh c fun h => { h with limp := true, takeover := none }).count
      (R.TKO_CNT_LIMPS (spireOf c))).raise (spireCode (spireOf c) 0x81) 2
        (BitVec.ofNat 32 (c.val + ((s.ch c).epoch + 1).toNat * 65536)) := by
  have hepoch : ((((s.depose d c).newEpoch c none).modCh c fun h => { h with limp := true, takeover := none }).ch c).epoch =
      (s.ch c).epoch + 1 := by
    simp only [State.newEpoch, State.modCh_ch, if_true]
    rw [State.ch, State.depose_chan]
    rfl
  unfold State.declareDead
  simp only [hctl, hspare]
  rw [State.ch, State.count_chan, ← State.ch, hepoch, Nat.zero_mul, Nat.add_zero]

end Declare

/-! The missed deadline -/

/-- A channel with a deadline missed. -/
def Chan.missed (h : Chan) : Chan :=
  { h with missDue := false, missRun := h.missRun + 1, cnt := { h.cnt with missed := h.cnt.missed + 1 } }

/-- A missed deadline counted and told. -/
def State.missed (s : State) (c : Ch) : State :=
  ((s.modCh c Chan.missed).count (R.CH_ENG_CNT_MISSED c)).raiseLimited (chCode c 0x60) 0 (BitVec.ofNat 32 c.val) c.val

section Missed

variable {s : State} {c : Ch}

theorem State.missed_chan : (s.missed c).chan = (s.modCh c Chan.missed).chan := State.raiseLimited_chan ..

theorem State.missed_ch : (s.missed c).ch c = (s.ch c).missed := by
  rw [State.ch, State.missed_chan, ← State.ch, State.modCh_ch, if_pos rfl]

theorem State.missed_other {k : Ch} (hk : k ≠ c) : (s.missed c).ch k = s.ch k := by
  rw [State.ch, State.missed_chan, ← State.ch, State.modCh_ch, if_neg hk]

theorem State.missed_eng : (s.missed c).eng = s.eng := State.raiseLimited_eng ..

theorem State.missed_grows : Grows s (s.missed c) 1 :=
  (((Grows.refl s).modCh c _).count (R.CH_ENG_CNT_ne c) 1).trans (State.raiseLimited_grows ..)

theorem State.missed_stored (hmay : s.mayRaise (chCode c 0x60) c.val 200000000 = true) (hr : s.Room) :
    Stored s (s.missed c) (chCode c 0x60) 0 (BitVec.ofNat 32 c.val) := by
  obtain ⟨v, hv⟩ : ∃ v, v = (s.modCh c Chan.missed).count (R.CH_ENG_CNT_MISSED c) := ⟨_, rfl⟩
  obtain ⟨r, hraise⟩ := v.raiseLimited_may (chCode c 0x60) 0 (BitVec.ofNat 32 c.val) c.val ticksPerS (by rw [hv]; exact hmay)
  have hgrow : Grows s v 0 := hv ▸ ((Grows.refl s).modCh c _).count (R.CH_ENG_CNT_ne c) 1
  have hgrow' : Grows s (v.modHp fun h => { h with rate := r }) 0 := hgrow.same rfl rfl rfl
  rw [State.missed, ← hv, hraise]
  exact hgrow'.stored hr (by decide) _ _ _ _

theorem State.missed_idleSpare (p : Spire) : (s.missed c).idleSpare p = s.idleSpare p := by
  refine State.idleSpare_congr State.missed_eng (fun k => ?_) p
  by_cases hk : k = c
  · rw [hk, State.missed_ch]
    rfl
  · rw [State.missed_other hk]

theorem deadlineMiss_none (h : (s.ch c).missDue = false) : exec (.deadlineMiss c) s = .next s := by
  rw [exec_deadlineMiss]
  exact if_neg (by rw [h, Bool.and_false]; exact Bool.false_ne_true)

variable (hc : s.clockOn = true)
include hc

variable (hdue : (s.ch c).missDue = true)
include hdue

theorem deadlineMiss_eq : exec (.deadlineMiss c) s =
    .next (if 3 ≤ ((s.missed c).ch c).missRun && ((s.missed c).ch c).takeover.isNone then (s.missed c).declareDead c 0 else s.missed c) := by
  rw [exec_deadlineMiss]
  exact if_pos (by rw [hc, hdue]; rfl)

theorem deadlineMiss_counted (h : (s.ch c).missRun < 2) : exec (.deadlineMiss c) s = .next (s.missed c) := by
  rw [deadlineMiss_eq hc hdue, if_neg]
  rw [State.missed_ch]
  have : ¬ 3 ≤ (s.ch c).missed.missRun := by
    show ¬ 3 ≤ (s.ch c).missRun + 1
    omega
  rw [decide_eq_false this, Bool.false_and]
  exact Bool.false_ne_true

theorem deadlineMiss_declared (h : 2 ≤ (s.ch c).missRun) (hto : (s.ch c).takeover = none) :
    exec (.deadlineMiss c) s = .next ((s.missed c).declareDead c 0) := by
  rw [deadlineMiss_eq hc hdue, if_pos]
  rw [State.missed_ch]
  have hrun : 3 ≤ (s.ch c).missed.missRun := Nat.succ_le_succ h
  have hnone : (s.ch c).missed.takeover = none := hto
  rw [decide_eq_true hrun, hnone]
  rfl

variable (hrun : 2 ≤ (s.ch c).missRun) (hto : (s.ch c).takeover = none) {d : Eng} (hctl : (s.ch c).ctl = some d)
include hrun hto hctl

/-- The spare takes the channel. -/
theorem deadlineMiss_takes {e : Eng} (hspare : s.idleSpare (spireOf c) = some e) :
    ∃ t, exec (.deadlineMiss c) s = .next t ∧ (t.ch c).ctl = some e ∧ (t.ch c).epoch = (s.ch c).epoch + 1 ∧ (t.ch c).missRun = 0 ∧
      (t.ch c).limp = (s.ch c).limp ∧ (t.ch c).takeover = some (e, s.now, none) ∧ t.eng[d].role = .deposed ∧ t.eng[d].chan = none ∧
      (∀ k, k ≠ c → t.ch k = s.ch k) ∧ (∀ k : Eng, k ≠ d → t.eng[k] = s.eng[k]) ∧
      (s.Room → Stored s t (spireCode (spireOf c) 0x80) 1
        (BitVec.ofNat 32 (c.val + engCode e * 256 + ((s.ch c).epoch + 1).toNat * 65536))) := by
  obtain ⟨u, hu⟩ : ∃ u, u = (s.missed c).depose d c := ⟨_, rfl⟩
  have huc : u.ch c = (s.ch c).missed := by rw [hu, State.ch, State.depose_chan, ← State.ch, State.missed_ch]
  have huk (k : Ch) (hk : k ≠ c) : u.ch k = s.ch k := by rw [hu, State.ch, State.depose_chan, ← State.ch, State.missed_other hk]
  have hgrow : Grows s u 3 := hu ▸ State.missed_grows.trans State.depose_grows
  have hdep : Deposed s u d := by
    have h := (s.missed c).depose_deposed d c
    rw [← hu] at h
    exact ⟨h.role, h.chan, fun k hk => (h.others k hk).trans (by rw [State.missed_eng])⟩
  have hnow : u.now = s.now := by rw [State.now, hgrow.tick]; rfl
  have hdecl := State.declareDead_takes (s := s.missed c) (c := c) (by rw [State.missed_ch]; exact hctl)
    ((State.missed_idleSpare _).trans hspare)
  rw [← hu, State.missed_ch] at hdecl
  refine ⟨_, (deadlineMiss_declared hc hdue hrun hto).trans (congrArg _ hdecl), ?_⟩
  obtain ⟨w, hw⟩ : ∃ w, w = u.startTakeover c e none := ⟨_, rfl⟩
  have hwc : w.ch c = { (s.ch c).missed with epoch := (s.ch c).epoch + 1, ctl := some e, missRun := 0, dueOpen := false, missDue := false, takeover := some (e, s.now, none) } := by
    rw [hw]
    simp only [State.startTakeover, State.newEpoch, State.modCh_ch, if_true, huc]
    rw [← hnow]
    rfl
  have hwk (k : Ch) (hk : k ≠ c) : w.ch k = s.ch k := by
    rw [hw]
    simp only [State.startTakeover, State.newEpoch, State.modCh_ch, if_neg hk, huk k hk]
  have hweng : w.eng = u.eng := by rw [hw]; rfl
  have hwgrow : Grows s w 3 := hw ▸ (hgrow.modCh c _).modCh c _
  have hch (k : Ch) (code : BitVec 16) (data : W32) : ((w.count (R.TKO_CNT_TAKEOVERS (spireOf c))).raise code 1 data).ch k = w.ch k := by
    rw [State.raise_ch, State.ch, State.count_chan]
    rfl
  rw [← hw]
  have heng := hdep.same (u := (w.count (R.TKO_CNT_TAKEOVERS (spireOf c))).raise (spireCode (spireOf c) 0x80) 1
    (BitVec.ofNat 32 (c.val + engCode e * 256 + ((s.ch c).missed.epoch + 1).toNat * 65536))) ((State.raise_eng ..).trans hweng)
  refine ⟨by rw [hch, hwc], by rw [hch, hwc], by rw [hch, hwc], by rw [hch, hwc]; rfl, by rw [hch, hwc], heng.role, heng.chan,
    fun k hk => (hch ..).trans (hwk k hk), heng.others, fun hr => ?_⟩
  exact (hwgrow.count (R.TKO_CNT_ne _) 1).stored hr (by decide) _ _ _ _

/-- No spare is idle: the channel limps. -/
theorem deadlineMiss_limps (hspare : s.idleSpare (spireOf c) = none) :
    ∃ t, exec (.deadlineMiss c) s = .next t ∧ (t.ch c).ctl = none ∧ (t.ch c).limp = true ∧
      (t.ch c).epoch = (s.ch c).epoch + 1 ∧ t.eng[d].role = .deposed ∧ (∀ k, k ≠ c → t.ch k = s.ch k) ∧
      (s.Room → Stored s t (spireCode (spireOf c) 0x81) 2 (BitVec.ofNat 32 (c.val + ((s.ch c).epoch + 1).toNat * 65536))) := by
  obtain ⟨u, hu⟩ : ∃ u, u = (s.missed c).depose d c := ⟨_, rfl⟩
  have huc : u.ch c = (s.ch c).missed := by rw [hu, State.ch, State.depose_chan, ← State.ch, State.missed_ch]
  have huk (k : Ch) (hk : k ≠ c) : u.ch k = s.ch k := by rw [hu, State.ch, State.depose_chan, ← State.ch, State.missed_other hk]
  have hgrow : Grows s u 3 := hu ▸ State.missed_grows.trans State.depose_grows
  have hdep : Deposed (s.missed c) u d := hu ▸ (s.missed c).depose_deposed d c
  have hdecl := State.declareDead_limps (s := s.missed c) (c := c) (by rw [State.missed_ch]; exact hctl)
    ((State.missed_idleSpare _).trans hspare)
  rw [← hu, State.missed_ch] at hdecl
  refine ⟨_, (deadlineMiss_declared hc hdue hrun hto).trans (congrArg _ hdecl), ?_⟩
  obtain ⟨w, hw⟩ : ∃ w, w = (u.newEpoch c none).modCh c fun h => { h with limp := true, takeover := none } := ⟨_, rfl⟩
  have hwc : w.ch c = { (s.ch c).missed with epoch := (s.ch c).epoch + 1, ctl := none, missRun := 0, dueOpen := false, missDue := false, limp := true, takeover := none } := by
    rw [hw]
    simp only [State.newEpoch, State.modCh_ch, if_true, huc]
    rfl
  have hwk (k : Ch) (hk : k ≠ c) : w.ch k = s.ch k := by
    rw [hw]
    simp only [State.newEpoch, State.modCh_ch, if_neg hk, huk k hk]
  have hweng : w.eng = u.eng := by rw [hw]; rfl
  have hwgrow : Grows s w 3 := hw ▸ (hgrow.modCh c _).modCh c _
  have hch (k : Ch) (code : BitVec 16) (data : W32) : ((w.count (R.TKO_CNT_LIMPS (spireOf c))).raise code 2 data).ch k = w.ch k := by
    rw [State.raise_ch, State.ch, State.count_chan]
    rfl
  rw [← hw]
  have heng := hdep.same (u := (w.count (R.TKO_CNT_LIMPS (spireOf c))).raise (spireCode (spireOf c) 0x81) 2
    (BitVec.ofNat 32 (c.val + ((s.ch c).missed.epoch + 1).toNat * 65536))) ((State.raise_eng ..).trans hweng)
  refine ⟨by rw [hch, hwc], by rw [hch, hwc], by rw [hch, hwc], heng.role, fun k hk => (hch ..).trans (hwk k hk), fun hr => ?_⟩
  exact (hwgrow.count (R.TKO_CNT_ne _) 1).stored hr (by decide) _ _ _ _

end Missed

/-! Step 5 of a takeover -/

/-- The engine that has taken channel `c`, whose program goes on from RESUME. -/
def Engine.resumed (x : Engine) (c : Ch) (h : Chan) (runs : Bool) : Engine :=
  let y := x.loadSlot h.slot h.slot.resume
  { y with running := runs, prog := h.mirror.prog.resumed, chan := some c, epoch := h.epoch
           role := .ctl
           dram := match h.mirror.block with
             | some b => memWrite y.dram 0 b
             | none => y.dram }

theorem Engine.resumed_dram {x : Engine} {c : Ch} {h : Chan} {runs : Bool} {b : List Byte} (hb : h.mirror.block = some b) (a : Nat)
    (ha : a < b.length) : memGet (x.resumed c h runs).dram a = b.getD a 0 := by
  unfold Engine.resumed
  dsimp only
  rw [hb]
  dsimp only
  rw [memGet_write, if_pos ⟨Nat.zero_le a, by omega⟩, Nat.sub_zero]

theorem Engine.cleared_getG (x : Engine) (r : GReg) : x.cleared.getG r = 0 := by
  unfold Engine.getG
  split
  · rfl
  · exact Vector.getElem_replicate _

section Resume

variable {s : State} {c : Ch}

theorem takeoverResume_eq {e : Eng} {n : Nat} (hc : s.clockOn = true) (hto : (s.ch c).takeover = some (e, n, none)) (hn : n ≤ s.now) :
    exec (.takeoverResume c) s = .next (((s.modEng e fun x =>
      x.resumed c (s.ch c) (s.flag (R.CH_ENG_CTRL_RUN c) && s.flag (R.CH_ENG_STAT_LOADED c))).modCh c fun h =>
        { h with takeover := none }).emptyFifos c) := by
  rw [exec_takeoverResume, execTakeoverResume.eq_def, hto]
  exact if_pos (by rw [hc, decide_eq_true hn]; rfl)

end Resume

/-- Settles O42: a missed deadline is counted, the third declares the engine dead, and the taking engine resumes. -/
theorem deadEnginesAreReplaced : Obligations.DeadEnginesAreReplaced := by
  unfold Obligations.DeadEnginesAreReplaced
  intro s c hc
  refine ⟨fun hdue hrun => ?_, deadlineMiss_none, fun d hdue hrun hto hctl _ => ⟨fun e => deadlineMiss_takes hc hdue hrun hto hctl,
    deadlineMiss_limps hc hdue hrun hto hctl⟩, fun e n hto hn => ?_⟩
  · exact ⟨s.missed c, deadlineMiss_counted hc hdue hrun, State.missed_ch, fun k => State.missed_other, State.missed_eng,
      State.raiseLimited_units .., State.missed_stored⟩
  · obtain ⟨x, hx⟩ : ∃ x, x = s.eng[e].resumed c (s.ch c) (s.flag (R.CH_ENG_CTRL_RUN c) && s.flag (R.CH_ENG_STAT_LOADED c)) := ⟨_, rfl⟩
    obtain ⟨v, hv⟩ : ∃ v, v = s.modEng e fun x =>
      x.resumed c (s.ch c) (s.flag (R.CH_ENG_CTRL_RUN c) && s.flag (R.CH_ENG_STAT_LOADED c)) := ⟨_, rfl⟩
    have hve : v.eng[e] = x := by rw [hv, hx, State.modEng_eng_same]
    have hvch : v.ch c = s.ch c := by rw [hv]; rfl
    obtain ⟨t, ht, htch, hteng, htregs⟩ : ∃ t, t = (v.modCh c fun h => { h with takeover := none }).emptyFifos c ∧
        t.ch c = { s.ch c with takeover := none, istrm := [], vstrm := [] } ∧ t.eng = v.eng ∧ t.regs = s.regs := by
      refine ⟨_, rfl, ?_, rfl, by rw [hv]; rfl⟩
      simp only [State.emptyFifos, State.modCh_ch, if_true, hvch]
    have hte : t.eng[e] = x := by rw [hteng, hve]
    refine ⟨t, ?_, ?_⟩
    · rw [takeoverResume_eq hc hto hn, ht, hv]
    · rw [htch, hte, hx]
      refine ⟨rfl, rfl, rfl, rfl, rfl, rfl, rfl, rfl, fun r => Engine.cleared_getG s.eng[e] r, rfl, rfl, rfl, fun hb => ?_,
        fun b hb a => Engine.resumed_dram hb a, fun k hk => ?_, htregs⟩
      · unfold Engine.resumed
        rw [hb]
        rfl
      · rw [hteng, hv, State.modEng_eng_other _ _ _ _ hk]

end Sys2Proof.Machine
end

section
/-! PROOFS. Deposed engines, self-tests, limp and hand-back (R247 to R254). -/

namespace Sys2Proof.Machine

theorem spireOf_chanAt (p : Spire) (k : Fin 16) : spireOf (chanAt p k) = p := by
  refine Fin.ext ?_
  show (16 * p.val + k.val) / 16 = p.val
  omega

theorem spireOf_of_mem {p : Spire} {c : Ch} (h : c ∈ chansOfSpire p) : spireOf c = p := by
  obtain ⟨k, -, rfl⟩ := List.mem_map.1 h
  exact spireOf_chanAt p k

/-! One engine changed and an event raised -/

section Retire

variable {s : State} {e : Eng}

/-- An engine as its retirement leaves it. -/
def Engine.retire (x : Engine) : Engine :=
  { x with retired := true, running := false, asleep := none, pend := 0, selfTest := none, deposedAt := none, lock := none }

theorem State.retire_eng (reason : Nat) : (s.retire e reason).eng = upd s.eng e Engine.retire := State.raise_eng ..

theorem State.retire_same (reason : Nat) : (s.retire e reason).eng[e] = s.eng[e].retire := by
  rw [State.retire_eng]
  exact upd_same (v := s.eng) (i := e) (f := Engine.retire)

theorem State.retire_other (reason : Nat) {k : Eng} (hk : k ≠ e) : (s.retire e reason).eng[k] = s.eng[k] := by
  rw [State.retire_eng]
  exact State.modEng_eng_other s e _ _ hk

theorem State.retire_chan (reason : Nat) : (s.retire e reason).chan = s.chan := State.raise_chan ..

theorem State.retire_stored (hr : s.Room) (reason : Nat) :
    Stored s (s.retire e reason) (spireCode (spireOfEng e) 0x85) 0 (engData e reason) :=
  ((Grows.refl s).modEng e Engine.retire).stored hr (by decide) _ _ _ {}

theorem deposedRetireTimeout_due {n : Nat} (hc : s.clockOn = true) (hat : (s.eng[e]).deposedAt = some n) (hn : n + 400000 ≤ s.now) :
    exec (.deposedRetireTimeout e) s = .next (s.retire e 1) := by
  rw [exec_deposedRetireTimeout, execDeposedRetireTimeout.eq_def, hat]
  exact if_pos (by rw [hc, decide_eq_true hn]; rfl)

theorem deposedRetireTimeout_early {n : Nat} (hat : (s.eng[e]).deposedAt = some n) (hn : s.now < n + 400000) :
    exec (.deposedRetireTimeout e) s = .next s := by
  rw [exec_deposedRetireTimeout, execDeposedRetireTimeout.eq_def, hat]
  have hnot : ¬ n + 400000 ≤ s.now := by omega
  exact if_neg (by rw [decide_eq_false hnot, Bool.and_false]; exact Bool.false_ne_true)

end Retire

/-! The self-test -/

section SelfTest

variable {s : State} {e : Eng}

/-- An engine whose RAMs a self-test has overwritten. -/
def Engine.tested (x : Engine) (k : Nat) : Engine :=
  { x.cleared with selfTest := none, dram := [], iram := [], codeLen := 0, ramFree := some k }

/-- The state in which a self-test of `e` has ended. -/
def State.tested (s : State) (e : Eng) : State :=
  ({ s with free := s.free + 1 } : State).modEng e fun x => x.tested s.free

theorem State.tested_same : (s.tested e).eng[e] = s.eng[e].tested s.free := upd_same (v := s.eng) (i := e) (f := fun x => x.tested s.free)

theorem State.tested_other {k : Eng} (hk : k ≠ e) : (s.tested e).eng[k] = s.eng[k] :=
  State.modEng_eng_other { s with free := s.free + 1 } e _ _ hk

theorem selfTestDone_eq {n : Nat} (hc : s.clockOn = true) (htest : (s.eng[e]).selfTest = some n) (hn : n + 8192 ≤ s.now) (ok : Bool) :
    exec (.selfTestDone e ok) s = .next (if ok then
      (((s.tested e).modEng e fun x => { x with role := .idle, chan := none }).count (R.TKO_CNT_RETURNS (spireOfEng e))).raise
        (spireCode (spireOfEng e) 0x84) 0 (engData e 0)
      else (s.tested e).retire e 0) := by
  have hon : (s.clockOn && decide (n + 8192 ≤ s.now)) = true := by rw [hc, decide_eq_true hn]; rfl
  rw [exec_selfTestDone, execSelfTestDone.eq_def, htest]
  dsimp only
  rw [if_pos hon]
  cases ok <;> rfl

theorem Engine.tested_getG (x : Engine) (k : Nat) (r : GReg) : (x.tested k).getG r = 0 := x.cleared_getG r

/-- What every end of a self-test leaves. -/
structure Tested (s t : State) (e : Eng) : Prop where
  test : t.eng[e].selfTest = none
  regs : ∀ r : GReg, t.eng[e].getG r = 0
  dram : t.eng[e].dram = []
  iram : t.eng[e].iram = []
  ramFree : t.eng[e].ramFree = some s.free
  free : t.free = s.free + 1
  others : ∀ k : Eng, k ≠ e → t.eng[k] = s.eng[k]
  chan : t.chan = s.chan

variable {n : Nat} (hc : s.clockOn = true) (htest : (s.eng[e]).selfTest = some n) (hn : n + 8192 ≤ s.now)
include hc htest hn

theorem selfTestDone_passed : ∃ t, exec (.selfTestDone e true) s = .next t ∧ Tested s t e ∧
    t.eng[e].role = .idle ∧ t.eng[e].chan = none ∧ t.eng[e].retired = (s.eng[e]).retired ∧
    (s.Room → Stored s t (spireCode (spireOfEng e) 0x84) 0 (BitVec.ofNat 32 (engCode e))) := by
  obtain ⟨v, hv⟩ : ∃ v, v = (s.tested e).modEng e fun x => { x with role := .idle, chan := none } := ⟨_, rfl⟩
  have hve : v.eng[e] = { s.eng[e].tested s.free with role := .idle, chan := none } := by
    rw [hv, State.modEng_eng_same, State.tested_same]
  have hvk (k : Eng) (hk : k ≠ e) : v.eng[k] = s.eng[k] := by rw [hv, State.modEng_eng_other _ _ _ _ hk, State.tested_other hk]
  have hgrow : Grows s v 0 := by rw [hv]; exact .of_same rfl rfl rfl
  obtain ⟨t, ht, heng, hfree, hchan⟩ : ∃ t, t = (v.count (R.TKO_CNT_RETURNS (spireOfEng e))).raise (spireCode (spireOfEng e) 0x84) 0
      (engData e 0) ∧ t.eng = v.eng ∧ t.free = v.free ∧ t.chan = v.chan :=
    ⟨_, rfl, State.raise_eng .., State.raise_free .., State.raise_chan ..⟩
  have hte : t.eng[e] = { s.eng[e].tested s.free with role := .idle, chan := none } := by rw [heng, hve]
  refine ⟨t, ?_, ⟨by rw [hte]; rfl, ?_, by rw [hte]; rfl, by rw [hte]; rfl, by rw [hte]; rfl, by rw [hfree, hv]; rfl, ?_, by rw [hchan, hv]; rfl⟩,
    by rw [hte], by rw [hte], by rw [hte]; rfl, fun hr => ?_⟩
  · rw [selfTestDone_eq hc htest hn, if_pos rfl, ht, hv]
  · rw [hte]
    exact fun r => s.eng[e].tested_getG s.free r
  · rw [heng]
    exact hvk
  · rw [ht]
    exact (hgrow.count (R.TKO_CNT_ne _) 1).stored hr (by decide) _ _ (engData e 0) {}

theorem selfTestDone_failed : ∃ t, exec (.selfTestDone e false) s = .next t ∧ Tested s t e ∧ t.eng[e].retired = true ∧
    (s.Room → Stored s t (spireCode (spireOfEng e) 0x85) 0 (BitVec.ofNat 32 (engCode e))) := by
  have hte : ((s.tested e).retire e 0).eng[e] = (s.eng[e].tested s.free).retire := by rw [State.retire_same, State.tested_same]
  have hgrow : Grows s ((s.tested e).modEng e Engine.retire) 0 := .of_same rfl rfl rfl
  refine ⟨(s.tested e).retire e 0, ?_, ⟨by rw [hte]; rfl, ?_, by rw [hte]; rfl, by rw [hte]; rfl, by rw [hte]; rfl, ?_, fun k hk => ?_, ?_⟩,
    by rw [hte]; rfl, fun hr => ?_⟩
  · rw [selfTestDone_eq hc htest hn, if_neg Bool.false_ne_true]
  · rw [hte]
    exact fun r => s.eng[e].tested_getG s.free r
  · exact State.raise_free ..
  · rw [State.retire_other _ hk, State.tested_other hk]
  · exact State.retire_chan 0
  · exact hgrow.stored hr (by decide) _ _ (engData e 0) {}

end SelfTest

/-! Limp ends -/

/-- The channels of spire `p`, every engine, the tick and the rings are as they were. -/
structure SpireKept (p : Spire) (s t : State) : Prop where
  ch : ∀ k ∈ chansOfSpire p, t.ch k = s.ch k
  eng : t.eng = s.eng
  tick : t.tick = s.tick
  rings : t.hp.rings = s.hp.rings

section Limp

variable {s t u : State} {p q : Spire}

theorem SpireKept.refl (p : Spire) (s : State) : SpireKept p s s := ⟨fun _ _ => rfl, rfl, rfl, rfl⟩

theorem SpireKept.trans (h : SpireKept p s t) (g : SpireKept p t u) : SpireKept p s u :=
  ⟨fun k hk => (g.ch k hk).trans (h.ch k hk), g.eng.trans h.eng, g.tick.trans h.tick, g.rings.trans h.rings⟩

/-- The channel `c` given to the engine `e`. -/
def State.relieved (s : State) (c : Ch) (e : Eng) : State := (s.startTakeover c e none).modCh c fun h => { h with limp := false }

theorem State.limpTakes_some {c : Ch} {e : Eng} (hc : (chansOfSpire p).find? (fun k => (s.ch k).limp) = some c) (he : s.idleSpare p = some e) :
    s.limpTakes p = (s.relieved c e).raise (spireCode p 0x82) 0 (BitVec.ofNat 32 (c.val + engCode e * 256)) := by
  rw [State.limpTakes.eq_def, hc, he]
  rfl

theorem State.limpTakes_cases (s : State) (p : Spire) : s.limpTakes p = s ∨ ∃ c e, (chansOfSpire p).find? (fun k => (s.ch k).limp) = some c ∧
    s.limpTakes p = (s.relieved c e).raise (spireCode p 0x82) 0 (BitVec.ofNat 32 (c.val + engCode e * 256)) := by
  cases hc : (chansOfSpire p).find? (fun k => (s.ch k).limp) with
  | none =>
    left
    rw [State.limpTakes.eq_def, hc]
  | some c =>
    cases he : s.idleSpare p with
    | none =>
      left
      rw [State.limpTakes.eq_def, hc, he]
    | some e => exact .inr ⟨c, e, rfl, State.limpTakes_some hc he⟩

theorem State.relieved_ch (c : Ch) (e : Eng) (k : Ch) : (s.relieved c e).ch k = if k = c then
    { s.ch c with epoch := (s.ch c).epoch + 1, ctl := some e, missRun := 0, dueOpen := false, missDue := false, takeover := some (e, s.now, none), limp := false }
    else s.ch k := by
  unfold State.relieved State.startTakeover State.newEpoch
  rw [State.modCh_ch]
  split
  next h =>
    subst h
    simp only [State.modCh_ch, if_true]
  next h => rw [State.modCh_ch, if_neg h, State.modCh_ch, if_neg h]

/-- A takeover in another spire leaves this one. -/
theorem State.limpTakes_kept (s : State) (h : q ≠ p) : SpireKept p s (s.limpTakes q) := by
  obtain he | ⟨c, e, hc, he⟩ := s.limpTakes_cases q
  · rw [he]
    exact .refl p s
  · rw [he]
    refine ⟨fun k hk => ?_, State.raise_eng .., State.raise_tick .., State.raise_hp_rings ..⟩
    have hkc : k ≠ c := by
      rintro rfl
      exact h ((spireOf_of_mem (List.mem_of_find?_eq_some hc)).symm.trans (spireOf_of_mem hk))
    rw [State.raise_ch, State.relieved_ch, if_neg hkc]

theorem forAll_limpTakes_kept {l : List Spire} (h : p ∉ l) (s : State) : SpireKept p s (forAll l (fun q t => t.limpTakes q) s) := by
  induction l generalizing s with
  | nil => exact .refl p s
  | cons q l ih =>
    have hq : q ≠ p := fun he => h (he ▸ List.mem_cons_self)
    exact (s.limpTakes_kept hq).trans (ih (fun hm => h (List.mem_cons_of_mem _ hm)) _)

/-- What spire `p` offers depends on its channels and the engines. -/
theorem SpireKept.offers (h : SpireKept p s t) :
    (chansOfSpire p).find? (fun k => (t.ch k).limp) = (chansOfSpire p).find? (fun k => (s.ch k).limp) ∧
      t.idleSpare p = s.idleSpare p := by
  have htaking (e : Eng) : t.isTaking p e = s.isTaking p e := by
    unfold State.isTaking
    rw [Bool.eq_iff_iff, List.any_eq_true, List.any_eq_true]
    exact exists_congr fun k => and_congr_right fun hk => by rw [h.ch k hk]
  refine ⟨List.find?_congr fun k hk => by rw [h.ch k hk], ?_⟩
  unfold State.idleSpare
  simp only [h.eng, htaking]

theorem State.limp_any {c : Ch} (h : (s.ch c).limp = true) : s.chan.toList.any (·.limp) = true := by
  rw [List.any_eq_true]
  exact ⟨s.ch c, List.mem_iff_getElem.2 ⟨c.val, by simp, Vector.getElem_toList _⟩, h⟩

variable {c : Ch} {e : Eng} (hlimp : (chansOfSpire p).find? (fun k => (s.ch k).limp) = some c) (he : s.idleSpare p = some e)
include hlimp he

/-- Over a tick, the channel that `p` offers first goes to its idle spare. -/
theorem State.limpOffers_takes : s.limpOffers.ch c = (s.relieved c e).ch c ∧ s.limpOffers.hp.rings = s.hp.rings ∧
    s.limpOffers.tick = s.tick := by
  have hmem : c ∈ chansOfSpire p := List.mem_of_find?_eq_some hlimp
  have hany := State.limp_any (s := s) (c := c) (List.find?_some (p := fun k => (s.ch k).limp) hlimp)
  obtain ⟨l₁, l₂, hl⟩ := List.append_of_mem (a := p) (l := allSpires) (List.mem_finRange p)
  have hnodup : (l₁ ++ p :: l₂).Nodup := hl ▸ List.nodup_finRange 16
  have hmid := List.nodup_cons.1 (List.nodup_middle.1 hnodup)
  have hout : p ∉ l₁ ∧ p ∉ l₂ := by simpa using hmid.1
  obtain ⟨u, hu⟩ : ∃ u, u = forAll l₁ (fun q t => t.limpTakes q) s := ⟨_, rfl⟩
  have hbefore : SpireKept p s u := hu ▸ forAll_limpTakes_kept hout.1 s
  obtain ⟨hfind, hspare⟩ := hbefore.offers
  have htakes := State.limpTakes_some (hfind.trans hlimp) (hspare.trans he)
  have hafter : SpireKept p (u.limpTakes p) s.limpOffers := by
    have hsplit : s.limpOffers = forAll l₂ (fun q t => t.limpTakes q) (u.limpTakes p) := by
      rw [State.limpOffers, if_pos hany, hl, hu]
      simp only [forAll, List.foldl_append, List.foldl_cons]
    rw [hsplit]
    exact forAll_limpTakes_kept hout.2 _
  rw [htakes] at hafter
  refine ⟨?_, ?_, ?_⟩
  · rw [hafter.ch c hmem, State.raise_ch, State.relieved_ch, State.relieved_ch, if_pos rfl, if_pos rfl, hbefore.ch c hmem, State.now,
      hbefore.tick]
    rfl
  · rw [hafter.rings, State.raise_hp_rings]
    exact hbefore.rings
  · rw [hafter.tick, State.raise_tick]
    exact hbefore.tick

/-- Where no other spire has a channel in limp, nothing else is offered. -/
theorem State.limpOffers_single (hothers : ∀ q, q ≠ p → ∀ k ∈ chansOfSpire q, (s.ch k).limp = false) : s.limpOffers =
    (s.relieved c e).raise (spireCode p 0x82) 0 (BitVec.ofNat 32 (c.val + engCode e * 256)) := by
  have hany := State.limp_any (s := s) (c := c) (List.find?_some (p := fun k => (s.ch k).limp) hlimp)
  have hnone (t : State) (q : Spire) (h : ∀ k ∈ chansOfSpire q, (t.ch k).limp = false) : t.limpTakes q = t := by
    have hfind : (chansOfSpire q).find? (fun k => (t.ch k).limp) = none :=
      List.find?_eq_none.2 fun k hk => ne_true_of_eq_false (h k hk)
    rw [State.limpTakes.eq_def, hfind]
  rw [State.limpOffers, if_pos hany, ← State.limpTakes_some hlimp he]
  refine forAll_eq_single (List.nodup_finRange 16) (List.mem_finRange p) (fun q hq => hnone s q (hothers q hq)) fun q hq => hnone _ q fun k hk => ?_
  rw [(s.limpTakes_kept (p := q) (Ne.symm hq)).ch k hk]
  exact hothers q hq k hk

end Limp

/-- A tick in which spire `p` offers a channel in limp. -/
theorem limpTick {s : State} {p : Spire} {c : Ch} {e : Eng} (hpend : s.pending = []) (hc : s.clockOn = true)
    (h18 : (s.hp.rings[(18 : Ring)]).fetched = []) (h19 : (s.hp.rings[(19 : Ring)]).fetched = [])
    (hlimp : (chansOfSpire p).find? (fun k => (s.ch k).limp) = some c) (he : s.idleSpare p = some e) :
    ∃ t, step s = .next t ∧ (t.ch c).limp = false ∧ (t.ch c).ctl = some e ∧ (t.ch c).takeover = some (e, s.now, none) ∧
      (t.ch c).epoch = (s.ch c).epoch + 1 ∧ (s.Room → (∀ q, q ≠ p → ∀ k ∈ chansOfSpire q, (s.ch k).limp = false) →
        Stored s t (spireCode p 0x82) 0 (BitVec.ofNat 32 (c.val + engCode e * 256))) := by
  obtain ⟨w, hw⟩ : ∃ w : State, w = { s with tick := { s.tick with wall := s.tick.wall + 1 } } := ⟨_, rfl⟩
  have hwlimp : (chansOfSpire p).find? (fun k => (w.ch k).limp) = some c := by rw [hw]; exact hlimp
  have hwe : w.idleSpare p = some e := by rw [hw]; exact he
  obtain ⟨hch, hrings, htick⟩ := State.limpOffers_takes hwlimp hwe
  obtain ⟨v, hv⟩ : ∃ v, v = w.limpOffers := ⟨_, rfl⟩
  rw [← hv] at hch hrings htick
  let t : State := ({ v.onTimeTick with tick := { v.tick with now := v.tick.now + 1 } } : State).noteRequests
  have hring (q : Ring) (h : (s.hp.rings[q]).fetched = []) : (t.hp.rings[q]).fetched = [] := by
    have hq : v.hp.rings[q] = s.hp.rings[q] := by rw [hrings, hw]
    exact (congrArg RingSt.fetched hq).trans h
  have ht : tickPass s = t := by
    rw [tickPass]
    refine (if_pos hc).trans ?_
    rw [← hw, ← hv]
    exact (congrArg (State.startFetched · 19) (State.startFetched_nil (s := t) (hring 18 h18))).trans
      (State.startFetched_nil (s := t) (hring 19 h19))
  have htc := State.onTimeTick_ch (s := v) c
  have hwc : v.ch c = { s.ch c with epoch := (s.ch c).epoch + 1, ctl := some e, missRun := 0, dueOpen := false, missDue := false, takeover := some (e, s.now, none), limp := false } := by
    rw [hch, State.relieved_ch, if_pos rfl, hw]
    rfl
  rw [hwc] at htc
  have hchan : t.chan = v.onTimeTick.chan := rfl
  have htc' : t.ch c = _ := (congrArg (fun l : Vector Chan 256 => l[c]) hchan).trans htc
  refine ⟨t, ?_, by rw [htc'], by rw [htc'], by rw [htc'], by rw [htc'], fun hr hothers => ?_⟩
  · rw [step, hpend, ht]
  · have hsingle := State.limpOffers_single hwlimp hwe (by rw [hw]; exact hothers)
    have hgrow : Grows s (w.relieved c e) 0 := by rw [hw]; exact .of_same rfl rfl rfl
    have hstored : Stored s v (spireCode p 0x82) 0 (BitVec.ofNat 32 (c.val + engCode e * 256)) := by
      rw [hv, hsingle]
      exact hgrow.stored hr (by decide) _ _ _ {}
    exact hstored.same rfl

/-! Hand-back -/

section Handback

variable {s : State} {p : Spire} {k : Fin 16}

theorem handback_eq {g : Eng} (hctl : (s.ch (chanAt p k)).ctl = some g) (hg : g ≠ homeOf (chanAt p k)) :
    s.handback p (BitVec.ofNat 32 (16 + k.val)) =
      if s.mode.mode ≠ .field && (s.eng[homeOf (chanAt p k)]).role = .idle && !(s.eng[homeOf (chanAt p k)]).retired &&
          (s.eng[homeOf (chanAt p k)]).selfTest.isNone && (s.ch (chanAt p k)).takeover.isNone && !s.isTaking p (homeOf (chanAt p k)) then
        s.startTakeover (chanAt p k) (homeOf (chanAt p k)) (some g)
      else s.raise (chCode (chanAt p k) 0x8A) 0 (BitVec.ofNat 32 (chanAt p k).val) := by
  have hbit (k : Fin 16) : (BitVec.ofNat 32 (16 + k.val)).getLsbD 4 = true ∧
      (⟨(BitVec.ofNat 32 (16 + k.val)).toNat % 16, Nat.mod_lt _ (by decide)⟩ : Fin 16) = k := by
    revert k
    decide
  obtain ⟨hgo, hk⟩ := hbit k
  have hc : chanAt p ⟨(BitVec.ofNat 32 (16 + k.val)).toNat % 16, Nat.mod_lt _ (by decide)⟩ = chanAt p k := congrArg (chanAt p) hk
  unfold State.handback
  rw [if_pos hgo]
  simp only [hc, hctl]
  rw [decide_eq_true hg, Bool.and_true]

end Handback

/-- Step 5 of a hand-back: the home engine serves again, and the giver is the idle spare. -/
theorem handbackResume {s : State} {c : Ch} {e g : Eng} {n : Nat} (hc : s.clockOn = true) (hto : (s.ch c).takeover = some (e, n, some g))
    (hne : e ≠ g) (hn : n ≤ s.now) :
    ∃ t, exec (.takeoverResume c) s = .next t ∧ (t.ch c).takeover = none ∧ t.eng[e].role = .home ∧ t.eng[e].chan = some c ∧
      t.eng[e].epoch = (s.ch c).epoch ∧ t.eng[g].role = .idle ∧ t.eng[g].chan = none ∧ t.eng[g].running = false ∧
      (∀ k : Eng, k ≠ e → k ≠ g → t.eng[k] = s.eng[k]) ∧
      (s.Room → Stored s t (chCode c 0x89) 0 (BitVec.ofNat 32 c.val)) := by
  obtain ⟨f, hexec, hrole, hchan, hepoch⟩ : ∃ f : Engine → Engine, exec (.takeoverResume c) s =
      .next (((((s.modEng e f).modCh c fun h => { h with takeover := none }).emptyFifos c).modEng g fun x =>
        { x with role := .idle, chan := none, running := false, asleep := none, pend := 0, lock := none }).raise (chCode c 0x89) 0
          (BitVec.ofNat 32 c.val)) ∧ (∀ x, (f x).role = .home) ∧ (∀ x, (f x).chan = some c) ∧ ∀ x, (f x).epoch = (s.ch c).epoch := by
    refine ⟨fun x => { x.resumed c (s.ch c) (s.flag (R.CH_ENG_CTRL_RUN c) && s.flag (R.CH_ENG_STAT_LOADED c)) with role := .home },
      ?_, fun x => rfl, fun x => rfl, fun x => rfl⟩
    rw [exec_takeoverResume, execTakeoverResume.eq_def, hto]
    exact if_pos (by rw [hc, decide_eq_true hn]; rfl)
  obtain ⟨v, hv⟩ : ∃ v, v = ((s.modEng e f).modCh c fun h => { h with takeover := none }).emptyFifos c := ⟨_, rfl⟩
  have hve : v.eng[e] = f s.eng[e] := by rw [hv]; exact State.modEng_eng_same s e f
  have hvk (k : Eng) (hk : k ≠ e) : v.eng[k] = s.eng[k] := by rw [hv]; exact State.modEng_eng_other s e k f hk
  have hvc : (v.ch c).takeover = none := by
    rw [hv]
    simp only [State.emptyFifos, State.modCh_ch, if_true]
  have hgrow : Grows s v 0 := by rw [hv]; exact .of_same rfl rfl rfl
  obtain ⟨w, hw⟩ : ∃ w, w = v.modEng g fun x =>
      { x with role := .idle, chan := none, running := false, asleep := none, pend := 0, lock := none } := ⟨_, rfl⟩
  have hwg : w.eng[g] = { v.eng[g] with role := .idle, chan := none, running := false, asleep := none, pend := 0, lock := none } := by
    rw [hw, State.modEng_eng_same]
  have hwk (k : Eng) (hk : k ≠ g) : w.eng[k] = v.eng[k] := by rw [hw, State.modEng_eng_other _ _ _ _ hk]
  rw [← hv, ← hw] at hexec
  have hgrow' : Grows s w 0 := hw ▸ hgrow.modEng g _
  refine ⟨_, hexec, ?_, ?_, ?_, ?_, ?_, ?_, ?_, fun k hke hkg => ?_, fun hr => hgrow'.stored hr (by decide) _ _ _ {}⟩
  · rw [State.raise_ch, hw]
    exact hvc
  · rw [State.raise_eng, hwk e hne, hve, hrole]
  · rw [State.raise_eng, hwk e hne, hve, hchan]
  · rw [State.raise_eng, hwk e hne, hve, hepoch]
  · rw [State.raise_eng, hwg]
  · rw [State.raise_eng, hwg]
  · rw [State.raise_eng, hwg]
  · rw [State.raise_eng, hwk k hkg, hvk k hke]

/-- Settles O43: each end of an engine's life outside control is the change that the section gives. -/
theorem enginesReturnAndHandBack : Obligations.EnginesReturnAndHandBack := by
  unfold Obligations.EnginesReturnAndHandBack
  intro s
  refine ⟨fun e n hc hat => ⟨fun hn => ?_, deposedRetireTimeout_early hat⟩, fun e n ok hc htest hn => ?_,
    fun p c e hpend hc h18 h19 hlimp he => limpTick hpend hc h18 h19 hlimp he, fun hw p k g hctl hg => ⟨fun hm => ?_, fun hm hidle hret htest hto htake => ?_⟩,
    fun c e g n hc hto hne hn => handbackResume hc hto hne hn⟩
  · have hte : (s.retire e 1).eng[e] = s.eng[e].retire := State.retire_same 1
    exact ⟨s.retire e 1, deposedRetireTimeout_due hc hat hn, by rw [hte]; rfl, by rw [hte]; rfl, by rw [hte]; rfl,
      fun k => State.retire_other 1, State.retire_chan 1, fun hr => State.retire_stored hr 1⟩
  · cases ok with
    | true =>
      obtain ⟨t, ht, h, hrole, hchan, hret, hstored⟩ := selfTestDone_passed hc htest hn
      exact ⟨t, ht, h.test, h.regs, h.dram, h.iram, h.ramFree, h.free, h.others, h.chan, fun _ => ⟨hrole, hchan, hret, hstored⟩,
        fun hf => nomatch hf⟩
    | false =>
      obtain ⟨t, ht, h, hret, hstored⟩ := selfTestDone_failed hc htest hn
      exact ⟨t, ht, h.test, h.regs, h.dram, h.iram, h.ramFree, h.free, h.others, h.chan, (fun hf => nomatch hf), fun _ => ⟨hret, hstored⟩⟩
  · refine ⟨s.raise (chCode (chanAt p k) 0x8A) 0 (BitVec.ofNat 32 (chanAt p k).val), ?_, State.raise_eng .., State.raise_chan ..,
      fun hr => Stored.of_raise s hr _ _ _⟩
    rw [exec_tkoHandback, execTkoHandback, if_pos hw, handback_eq hctl hg, if_neg]
    simp [hm]
  · obtain ⟨u, hu⟩ : ∃ u, u = s.startTakeover (chanAt p k) (homeOf (chanAt p k)) (some g) := ⟨_, rfl⟩
    have huc : u.ch (chanAt p k) = { s.ch (chanAt p k) with epoch := (s.ch (chanAt p k)).epoch + 1, ctl := some (homeOf (chanAt p k)), missRun := 0, dueOpen := false, missDue := false, takeover := some (homeOf (chanAt p k), s.now, some g) } := by
      rw [hu]
      simp only [State.startTakeover, State.newEpoch, State.modCh_ch, if_true]
    refine ⟨u, ?_, by rw [huc], by rw [huc], by rw [huc], by rw [hu]; rfl, by rw [hu]; rfl⟩
    rw [exec_tkoHandback, execTkoHandback, if_pos hw, handback_eq hctl hg, if_pos, hu]
    rw [hidle, hret, htest, hto, htake, decide_eq_true hm]
    rfl

end Sys2Proof.Machine
end

section
/-! PROOFS. Rings: start, fetched slots, messages and the trace stream (R258, R267 to R272, R303). -/

namespace Sys2Proof.Machine

section RingRules

variable (s : State) (q : Ring) (f : RingSt → RingSt)

theorem State.modRing_same : (s.modRing q f).hp.rings[q] = f s.hp.rings[q] := upd_same (v := s.hp.rings) (i := q) (f := f)

theorem State.modRing_other {k : Ring} (h : k ≠ q) : (s.modRing q f).hp.rings[k] = s.hp.rings[k] :=
  upd_other s.hp.rings q k f h

end RingRules

/-! A write of a ring's configuration -/

section Enable

variable {s : State} {q : Ring} {v : W32}

/-- The fields that a write of a ring's configuration sets before EN, the ring being off. -/
def State.ringSet (s : State) (q : Ring) (v : W32) : State :=
  let s := s.put (R.Q_CFG_SIZE_LOG2 q) (clampN 4 12 (bits v.toNat 0 4))
  let s := if 20 ≤ q.val then s else s.put (R.Q_CFG_CQ q) (bits v.toNat 5 2)
  if q.val < 20 then s
  else ((s.put (R.Q_CFG_VEC q) (bits v.toNat 8 5)).put (R.Q_CFG_COAL_N q) (max 1 (bits v.toNat 16 8))).put (R.Q_CFG_COAL_US q)
    (bits v.toNat 24 8)

theorem State.ringSet_size : (s.ringSet q v).get (R.Q_CFG_SIZE_LOG2 q) = max 4 (min (v.toNat % 16) 12) := by
  have hsize : (s.put (R.Q_CFG_SIZE_LOG2 q) (clampN 4 12 (bits v.toNat 0 4))).get (R.Q_CFG_SIZE_LOG2 q) = max 4 (min (v.toNat % 16) 12) := by
    have hbits : bits v.toNat 0 4 = v.toNat % 16 := by simp [bits]
    rw [State.get_put_same _ _ _ (show 0 + 4 ≤ 32 by decide), hbits]
    show clampN 4 12 (v.toNat % 16) % 16 = _
    unfold clampN
    omega
  have hfar (t : State) (lo w n : Nat) (h : 4 ≤ lo) (hw : lo + w ≤ 32) :
      (t.put ⟨R.Q_CFG q, lo, w⟩ n).get (R.Q_CFG_SIZE_LOG2 q) = t.get (R.Q_CFG_SIZE_LOG2 q) :=
    t.get_put_other _ _ _ (.inr ⟨by show 0 + 4 ≤ 32; decide, .inl h⟩)
  unfold State.ringSet
  dsimp only
  by_cases hq : 20 ≤ q.val
  · rw [if_pos hq, if_neg (by omega)]
    exact (hfar _ 24 8 _ (by decide) (by decide)).trans ((hfar _ 16 8 _ (by decide) (by decide)).trans
      ((hfar _ 8 5 _ (by decide) (by decide)).trans hsize))
  · rw [if_neg hq, if_pos (by omega)]
    exact (hfar _ 5 2 _ (by decide) (by decide)).trans hsize

theorem State.ringSet_hp : (s.ringSet q v).hp = s.hp := by
  unfold State.ringSet
  dsimp only
  split
  · split
    · rfl
    · rfl
  · split
    · rfl
    · rfl

/-- A ring that is enabled starts at index 0. -/
def RingSt.started (r : RingSt) : RingSt :=
  { r with pi := 0, ci := 0, phase := true, halted := false, stale := r.inFlight.isSome, fullSince := none, fullTold := false,
           coal := 0, coalAt := none }

theorem State.qCfgWrite_start (hoff : s.ringOn q = false) (hon : v.getLsbD 4 = true) :
    s.qCfgWrite q v = ((s.ringSet q v).putFlag (R.Q_CFG_EN q) true).modRing q RingSt.started := by
  unfold State.qCfgWrite
  simp only [hoff, hon, Bool.false_eq_true, if_false, Bool.false_or, Bool.not_false, Bool.and_true, if_true,
    decide_eq_true_eq]
  rfl

theorem qnCfgWrite_starts (hw : s.hostWritable = true) (hoff : s.ringOn q = false) (hon : v.getLsbD 4 = true) :
    ∃ t, exec (.qnCfgWrite q v) s = .next t ∧ t.ringOn q = true ∧ (t.hp.rings[q]).pi = 0 ∧ (t.hp.rings[q]).ci = 0 ∧
      (t.hp.rings[q]).phase = true ∧ (t.hp.rings[q]).halted = false ∧ (t.hp.rings[q]).why = (s.hp.rings[q]).why ∧
      (t.hp.rings[q]).inFlight = (s.hp.rings[q]).inFlight ∧ t.ringSize q = 2 ^ max 4 (min (v.toNat % 16) 12) ∧
      (∀ k, k ≠ q → t.hp.rings[k] = s.hp.rings[k]) := by
  obtain ⟨u, hu⟩ : ∃ u, u = (s.ringSet q v).putFlag (R.Q_CFG_EN q) true := ⟨_, rfl⟩
  have huhp : u.hp = s.hp := by rw [hu]; exact s.ringSet_hp
  have hen : u.flag (R.Q_CFG_EN q) = true := by
    rw [hu]
    exact State.flag_putFlag_same _ _ _ (show 4 + 1 ≤ 32 by decide) rfl
  have hsize : u.get (R.Q_CFG_SIZE_LOG2 q) = max 4 (min (v.toNat % 16) 12) := by
    rw [hu]
    exact (State.get_put_other _ _ _ _ (.inr ⟨by show 0 + 4 ≤ 32; decide, .inl (by show 0 + 4 ≤ 4; decide)⟩)).trans s.ringSet_size
  have hsame : (u.modRing q RingSt.started).hp.rings[q] = (s.hp.rings[q]).started := by rw [State.modRing_same, huhp]
  refine ⟨u.modRing q RingSt.started, ?_, hen, by rw [hsame]; rfl, by rw [hsame]; rfl, by rw [hsame]; rfl, by rw [hsame]; rfl,
    by rw [hsame]; rfl, by rw [hsame]; rfl, congrArg (2 ^ ·) hsize, fun k hk => ?_⟩
  · rw [exec_qnCfgWrite, execQnCfgWrite, if_pos hw, State.qCfgWrite_start hoff hon, hu]
  · rw [State.modRing_other _ _ _ hk, huhp]

end Enable

/-! The slots of a read -/

section Arrival

variable {s : State} {q : Ring} {slot n : Nat} {ds : List (Byte × Desc)}

/-- The descriptors of a read of `n` slots from index `slot`, fetched. -/
def State.fetchedOf (s : State) (q : Ring) (slot n : Nat) (ds : List (Byte × Desc)) : List Fetched :=
  ds.zipIdx.map fun p => ⟨p.1.1, p.1.2, (slot + p.2) % s.ringSize q, (slot + n) % s.ringSize q, s.now⟩

theorem State.fetchedOf_map {α : Type} (f : Fetched → α) (g : Byte × Desc → α)
    (h : ∀ (p : Byte × Desc) (i j k : Nat), f ⟨p.1, p.2, i, j, k⟩ = g p) : (s.fetchedOf q slot n ds).map f = ds.map g := by
  have hfst : ds.zipIdx.map Prod.fst = ds := List.zipIdx_map_fst 0 ds
  conv_rhs => rw [← hfst]
  rw [State.fetchedOf, List.map_map, List.map_map]
  exact List.map_congr_left fun p _ => h p.1 _ _ _

/-- The state with the slots of a read taken. -/
def State.slotsTaken (s : State) (q : Ring) (slot n : Nat) (ds : List (Byte × Desc)) : State :=
  s.modRing q fun r => { r with fetched := r.fetched ++ s.fetchedOf q slot n ds }

variable (hin : (s.hp.rings[q]).inFlight = some (slot, n))
include hin

theorem State.moveCi_eq : s.moveCi q = (s.modRing q fun r =>
    { r with ci := if r.stale then r.ci else (slot + n) % s.ringSize q, stale := false, parked := false, inFlight := none }).count
      (R.Q_CNT_ENTRIES q) n := by
  rw [State.moveCi.eq_def, hin]

theorem descriptorArrival_eq (hc : s.clockOn = true) (hlen : ds.length = n) (hst : (s.hp.rings[q]).stalled = false)
    (hpark : (s.hp.rings[q]).parked = false) (hq : q.val = 16 ∨ q.val = 17) :
    exec (.descriptorArrival q ds) s = .next (if s.mode.keep = .run then (s.slotsTaken q slot n ds).moveCi q
      else (s.slotsTaken q slot n ds).modRing q fun r => { r with parked := true }) := by
  have hq' : (decide (q.val = 16) || decide (q.val = 17)) = true := by simpa using hq
  have hkeep : (s.slotsTaken q slot n ds).keepTakes q = decide (s.mode.keep = .run) := by
    unfold State.keepTakes
    rw [hq']
    rfl
  rw [exec_descriptorArrival, execDescriptorArrival.eq_def]
  dsimp only
  rw [hin]
  refine (if_pos (by rw [hc, hst, hpark, decide_eq_true hlen]; rfl)).trans ?_
  show (if (!(s.slotsTaken q slot n ds).keepTakes q) = true then
      Host.Outcome.next ((s.slotsTaken q slot n ds).modRing q fun r => { r with parked := true })
    else .next (if (decide (q.val = 16) || decide (q.val = 17)) = true then (s.slotsTaken q slot n ds).moveCi q
      else ((s.slotsTaken q slot n ds).moveCi q).startFetched q)) = _
  rw [hkeep, hq', if_pos rfl]
  by_cases hrun : s.mode.keep = .run
  · rw [if_pos hrun, if_neg (by simp [hrun])]
  · rw [if_neg hrun, if_pos (by simp [hrun])]

/-- The read of `n` slots of a ring of the Keep. -/
theorem descriptorArrival_keep (hc : s.clockOn = true) (hlen : ds.length = n) (hst : (s.hp.rings[q]).stalled = false)
    (hpark : (s.hp.rings[q]).parked = false) (hstale : (s.hp.rings[q]).stale = false) (hq : q.val = 16 ∨ q.val = 17) :
    ∃ t, exec (.descriptorArrival q ds) s = .next t ∧
      (s.mode.keep = .run → (t.hp.rings[q]).ci = (slot + n) % s.ringSize q ∧ (t.hp.rings[q]).inFlight = none) ∧
      (s.mode.keep ≠ .run → (t.hp.rings[q]).ci = (s.hp.rings[q]).ci ∧ (t.hp.rings[q]).parked = true) ∧
      (t.hp.rings[q]).fetched = (s.hp.rings[q]).fetched ++ s.fetchedOf q slot n ds ∧
      (∀ k, k ≠ q → t.hp.rings[k] = s.hp.rings[k]) ∧ t.hp.cq = s.hp.cq := by
  obtain ⟨u, hu⟩ : ∃ u, u = s.slotsTaken q slot n ds := ⟨_, rfl⟩
  have huq : u.hp.rings[q] = { s.hp.rings[q] with fetched := (s.hp.rings[q]).fetched ++ s.fetchedOf q slot n ds } := by
    rw [hu]
    exact s.modRing_same q _
  have huk (k : Ring) (hk : k ≠ q) : u.hp.rings[k] = s.hp.rings[k] := by
    rw [hu]
    exact s.modRing_other q _ hk
  have hsize : u.ringSize q = s.ringSize q := by rw [hu]; rfl
  have hcq : u.hp.cq = s.hp.cq := by rw [hu]; rfl
  refine ⟨_, descriptorArrival_eq hin hc hlen hst hpark hq, ?_⟩
  rw [← hu]
  by_cases hrun : s.mode.keep = .run
  · have hmove := State.moveCi_eq (s := u) (q := q) (slot := slot) (n := n) (by rw [huq]; exact hin)
    rw [hsize] at hmove
    obtain ⟨w, hw⟩ : ∃ w, w = u.modRing q fun r =>
      { r with ci := if r.stale then r.ci else (slot + n) % s.ringSize q, stale := false, parked := false, inFlight := none } := ⟨_, rfl⟩
    have hwq := u.modRing_same q fun r =>
      { r with ci := if r.stale then r.ci else (slot + n) % s.ringSize q, stale := false, parked := false, inFlight := none }
    have hwk (k : Ring) (hk : k ≠ q) : w.hp.rings[k] = s.hp.rings[k] := by rw [hw, State.modRing_other _ _ _ hk, huk k hk]
    rw [← hw, huq] at hwq
    rw [if_pos hrun, hmove, ← hw]
    have hcount : (w.count (R.Q_CNT_ENTRIES q) n).hp = w.hp := rfl
    rw [hcount, hwq]
    refine ⟨fun _ => ⟨?_, rfl⟩, fun h => absurd hrun h, rfl, hwk, by rw [hw]; exact hcq⟩
    exact if_neg (by rw [hstale]; exact Bool.false_ne_true)
  · rw [if_neg hrun]
    refine ⟨fun h => absurd h hrun, fun _ => ⟨?_, ?_⟩, ?_, fun k hk => ?_, hcq⟩
    · rw [State.modRing_same, huq]
    · rw [State.modRing_same]
    · rw [State.modRing_same, huq]
    · rw [State.modRing_other _ _ _ hk, huk k hk]

end Arrival

/-! The trace stream -/

section Stream

variable (s : State)

theorem State.streamOff_flag : s.streamOff.flag R.EDDY_STRM_EN = false := by
  rw [State.streamOff, State.modArb_flag]
  exact State.flag_putFlag_same _ _ _ (by decide) rfl

theorem State.streamOff_told (tag : W32) : (s.streamOff.raise 0x0304 0 tag).flag R.EDDY_STRM_EN = false ∧
    (s.Room → Stored s (s.streamOff.raise 0x0304 0 tag) 0x0304 0 tag) := by
  refine ⟨?_, fun hr => ?_⟩
  · rw [State.raise_flag _ _ _ _ _ (by decide)]
    exact s.streamOff_flag
  · have hgrow : Grows s (s.putFlag R.EDDY_STRM_EN false) 0 := (Grows.refl s).putFlag (by decide) _
    exact (hgrow.modArb _).stored hr (by decide) _ _ _ {}

end Stream

/-- Settles O45: a ring starts at index 0, takes the slots of its reads, and tells the host as the section gives. -/
theorem ringsFetchAndTell : Obligations.RingsFetchAndTell := by
  unfold Obligations.RingsFetchAndTell
  intro s q
  refine ⟨fun hw hoff v hon => qnCfgWrite_starts hw hoff hon, fun hc slot n ds hin hlen hst hpark hstale hq => ?_,
    fun hc hq n hat hus hdue => ?_, fun hc n hat hfull hdue => ⟨fun htold => ?_, fun htold => ?_⟩, fun hw v => ⟨fun hv => ?_, fun hv hnone => ?_,
      fun l hv hl hring => ?_, fun l hv hl hring => ?_⟩⟩
  · obtain ⟨t, ht, hrun, hhalt, hfetched, hk, hcq⟩ := descriptorArrival_keep hin hc hlen hst hpark hstale hq
    refine ⟨t, ht, hrun, hhalt, ?_, ?_, hk, hcq⟩
    · rw [hfetched, List.map_append, State.fetchedOf_map _ _ fun _ _ _ _ => rfl]
    · rw [hfetched, List.map_append, State.fetchedOf_map _ _ fun _ _ _ _ => rfl]
  · refine ⟨(s.modRing q fun r => { r with coal := 0, coalAt := none }).msixAsk (s.get (R.Q_CFG_VEC q)), ?_, rfl, ?_, ?_⟩
    · rw [exec_msixCoalesceTimeout, execMsixCoalesceTimeout.eq_def, hat]
      have hlate : n + s.get (R.Q_CFG_COAL_US q) * ticksPerUs ≤ s.now := hdue
      exact if_pos (by rw [hc, decide_eq_true hq, decide_eq_true hus, decide_eq_true hlate]; rfl)
    · exact congrArg RingSt.coal (s.modRing_same q _)
    · exact congrArg RingSt.coalAt (s.modRing_same q _)
  · rw [exec_completionRingFullTimeout, execCompletionRingFullTimeout.eq_def, hat]
    exact if_neg (by rw [htold, Bool.not_true, Bool.and_false, Bool.false_and]; exact Bool.false_ne_true)
  · refine ⟨(s.modRing q fun r => { r with fullTold := true }).raise 0x0206 0 (BitVec.ofNat 32 q.val), ?_, ?_, fun hr => ?_⟩
    · rw [exec_completionRingFullTimeout, execCompletionRingFullTimeout.eq_def, hat]
      have hlate : n + ticksPerS ≤ s.now := hdue
      exact if_pos (by rw [hc, hfull, htold, decide_eq_true hlate]; rfl)
    · rw [State.raise_hp_rings, State.modRing_same]
    · exact ((Grows.refl s).modRing q _).stored hr (by decide) _ _ _ {}
  · refine ⟨s.streamOff, ?_, s.streamOff_flag, rfl⟩
    rw [exec_eddyStrmWrite, execEddyStrmWrite, if_pos hw, State.eddyStrmWrite, hv]
    rfl
  · obtain ⟨hflag, hstored⟩ := s.streamOff_told (s.reg R.EDDY_STRM_LTAG)
    refine ⟨_, ?_, hflag, hstored⟩
    rw [exec_eddyStrmWrite, execEddyStrmWrite, if_pos hw, State.eddyStrmWrite, if_pos hv, State.lendOf, hnone]
    rfl
  · obtain ⟨hflag, hstored⟩ := s.streamOff_told (s.reg R.EDDY_STRM_LTAG)
    refine ⟨_, ?_, hflag, hstored⟩
    rw [exec_eddyStrmWrite, execEddyStrmWrite, if_pos hw, State.eddyStrmWrite, if_pos hv, State.lendOf, hl, if_neg]
    simpa using hring
  · refine ⟨s.putFlag R.EDDY_STRM_EN true, ?_, State.flag_putFlag_same _ _ _ (by decide) rfl, rfl⟩
    rw [exec_eddyStrmWrite, execEddyStrmWrite, if_pos hw, State.eddyStrmWrite, if_pos hv, State.lendOf, hl, if_pos]
    simpa using hring

end Sys2Proof.Machine
end

section
/-! PROOFS. The host path: tenures, the watchdog, the relief agent, failed reads and the link (R256, R257, R262, R292 to R296). -/

namespace Sys2Proof.Machine

/-! A tenure given up -/

section Drop

variable (s : State)

/-- A tenure given up leaves the path free and the requesters' counts as they were. -/
theorem State.dropTenure_arb : ∃ a : Arb, s.dropTenure = s.modArb (fun _ => a) ∧ a.tenure = none ∧ a.rq = s.arb.rq := by
  rw [State.dropTenure.eq_def]
  dsimp only
  split
  next h => exact ⟨s.arb, rfl, h, rfl⟩
  next d _ =>
    split
    · exact ⟨_, rfl, rfl, rfl⟩
    · exact ⟨_, rfl, rfl, rfl⟩
  next w r _ =>
    split
    · exact ⟨_, rfl, rfl, rfl⟩
    · exact ⟨_, rfl, rfl, rfl⟩
  next => exact ⟨_, rfl, rfl, rfl⟩

/-- What a tenure given up is started again with: every TLP but a data write and a read whose lend has ended. -/
theorem State.dropTenure_redo {w : Rq} {n : Nat} {u : Tlp} (h : s.arb.tenure = some (w, n, u)) (hd : ∀ d, u ≠ .data d)
    (hr : ∀ r, u = .read r → r.ltag ≠ 0) : s.dropTenure.arb.redo[w] = some u := by
  have hredo (a : Arb) : (upd a.redo w fun _ => some u)[w] = some u := upd_same (v := a.redo) (i := w) (f := fun _ => some u)
  rw [State.dropTenure.eq_def, h]
  cases u with
  | data d => exact absurd rfl (hd d)
  | read r =>
    have hneg : ¬ r.ltag = 0 := hr r rfl
    show (if r.ltag = 0 then s.modArb fun a => { a with tenure := none } else _).arb.redo[w] = _
    rw [if_neg hneg]
    exact hredo _
  | entry _ => exact hredo _
  | event => exact hredo _
  | stream => exact hredo _
  | msix _ => exact hredo _
  | fetch _ => exact hredo _

end Drop

/-! Arbitration -/

section Round

variable (s : State)

/-- A round won by the only requester: its counters and its tenure. -/
theorem State.arbRound_single (w : Rq) (u : Tlp) : (s.arbRound w [w] u).hp = s.hp ∧ (s.arbRound w [w] u).arb.tenure = some (w, s.now, u) ∧
    ((s.arbRound w [w] u).arb.rq[w]).grants = (s.arb.rq[w]).grants + 1 ∧ ((s.arbRound w [w] u).arb.rq[w]).wait = 0 := by
  obtain ⟨t, ht⟩ : ∃ t, t = s.arbRound w [w] u := ⟨_, rfl⟩
  rw [← ht]
  unfold State.arbRound at ht
  extract_lets limit x waited s1 s2 losers s3 prio at ht
  have hlosers : losers = [] := by simp [losers]
  have h2 : s2.hp = s.hp ∧ s2.arb = s.arb ∧ s2.now = s.now := by
    unfold s2
    split
    · exact ⟨rfl, rfl, rfl⟩
    · exact ⟨rfl, rfl, rfl⟩
  have h3 : s3 = s2 := by
    unfold s3
    rw [hlosers]
    rfl
  obtain ⟨hhp, harb, hnow⟩ := h2
  rw [hlosers, h3] at ht
  have hrq : t.arb.rq[w] = { s.arb.rq[w] with wait := 0, grants := (s.arb.rq[w]).grants + 1, maxWait := max (s.arb.rq[w]).maxWait waited, since := none } := by
    rw [ht, ← harb]
    exact upd_same _ _ _
  refine ⟨by rw [ht, ← hhp]; rfl, by rw [ht, ← hnow]; rfl, by rw [hrq], by rw [hrq]⟩

theorem State.arbWinner_nil : s.arbWinner [] = none := by
  have hforced : s.arb.forced.find? (fun x => ([] : List Rq).contains x) = none := List.find?_eq_none.2 fun x _ => by simp
  rw [State.arbWinner.eq_def, hforced]
  dsimp only
  cases s.arb.last[(_ : Fin 4)] <;> rfl

theorem State.arbWinner_single (w : Rq) : s.arbWinner [w] = some w := by
  rw [State.arbWinner.eq_def]
  cases hforced : s.arb.forced.find? (fun x => [w].contains x) with
  | some x =>
    have hx := List.find?_some hforced
    simpa using hx
  | none =>
    have htop : [w].foldl (fun a x => max a (s.get (R.ARB_RQ_PRIO x) % 4)) 0 = s.get (R.ARB_RQ_PRIO w) % 4 := Nat.zero_max _
    have hself : ([w].filter fun x => s.get (R.ARB_RQ_PRIO x) % 4 = [w].foldl (fun a x => max a (s.get (R.ARB_RQ_PRIO x) % 4)) 0) = [w] := by
      rw [htop]
      simp
    dsimp only
    rw [hself]
    split
    next k _ =>
      by_cases h : k < w
      · simp [h]
      · simp [h]
    next => rfl

theorem filter_single {w : Rq} {p : Rq → Bool} (hw : p w = true) (h : ∀ k, k ≠ w → p k = false) : allRq.filter p = [w] := by
  have hp : p = fun k => decide (k = w) := funext fun k => by
    by_cases hk : k = w
    · rw [hk, hw, decide_eq_true rfl]
    · rw [h k hk, decide_eq_false hk]
  have heq (w : Rq) : allRq.filter (fun k => decide (k = w)) = [w] := by
    revert w
    decide
  rw [hp, heq]

end Round

/-! Grants -/

/-- The path given to the winner among the requesters. -/
def State.grantPath (s : State) : Res :=
  match s.arbWinner (allRq.filter s.requests) with
  | none => .next s
  | some w => match s.nextTlp w with
    | some t => .next (s.arbRound w (allRq.filter s.requests) t)
    | none => .next s

section Grant

variable {s : State}

theorem State.arbRound_hp (w : Rq) (l : List Rq) (u : Tlp) : (s.arbRound w l u).hp = s.hp := by
  obtain ⟨t, ht⟩ : ∃ t, t = s.arbRound w l u := ⟨_, rfl⟩
  rw [← ht]
  unfold State.arbRound at ht
  extract_lets limit x waited s1 s2 losers s3 prio at ht
  have h2 : s2.hp = s.hp := by
    unfold s2
    split
    · rfl
    · rfl
  have h3 : s3.hp = s2.hp := forAll_keeps (f := fun (x : Rq) (t : State) => t.countReg (R.ARB_WAITS x)) (·.hp) (fun _ _ => rfl) losers s2
  rw [ht, ← h2, ← h3]
  rfl

theorem State.grantPath_hp : ∃ t, s.grantPath = .next t ∧ t.hp = s.hp := by
  rw [State.grantPath.eq_def]
  split
  · exact ⟨s, rfl, rfl⟩
  · split
    · exact ⟨_, rfl, State.arbRound_hp ..⟩
    · exact ⟨s, rfl, rfl⟩

theorem State.grantPath_idle (h : ∀ w : Rq, s.requests w = false) : s.grantPath = .next s := by
  have hnone : allRq.filter s.requests = [] := List.filter_eq_nil_iff.2 fun w _ => ne_true_of_eq_false (h w)
  rw [State.grantPath.eq_def, hnone, State.arbWinner_nil]

theorem State.grantPath_single {w : Rq} (hw : s.requests w = true) (h : ∀ k : Rq, k ≠ w → s.requests k = false) :
    ∃ u, s.nextTlp w = some u ∧ s.grantPath = .next (s.arbRound w [w] u) := by
  obtain ⟨u, hu⟩ := Option.isSome_iff_exists.1 hw
  refine ⟨u, hu, ?_⟩
  rw [State.grantPath.eq_def, filter_single hw h, State.arbWinner_single]
  dsimp only
  rw [hu]

variable (hc : s.clockOn = true)
include hc

theorem arbitrationGrant_free (hfree : s.arb.tenure = none) : exec .arbitrationGrant s = s.grantPath := by
  rw [exec_arbitrationGrant, execArbitrationGrant.eq_def, hc, hfree]
  rfl

theorem arbitrationGrant_data {w : Rq} {n : Nat} {d : DataWr} (hten : s.arb.tenure = some (w, n, .data d)) (hup : s.portUp = true) :
    exec .arbitrationGrant s = ((s.modArb fun a => { a with tenure := none }).send (.memWrite d.addr d.bytes)).grantPath := by
  rw [exec_arbitrationGrant, execArbitrationGrant.eq_def, hc, hten, hup]
  rfl

end Grant

/-! The watchdog -/

/-- A requester bitten at `now`. -/
def RqSt.bitten (x : RqSt) (now : Nat) : RqSt :=
  { x with bites := x.bites + 1, biteTicks := now :: x.biteTicks.filter fun b => now < b + ticksPerS }

/-- A tenure ended by the watchdog, counted. -/
def State.bitten (s : State) (w : Rq) : State :=
  (s.dropTenure.count (R.ARB_RQ_BITES w)).modArb fun a => { a with rq := upd a.rq w fun x => x.bitten s.dropTenure.now }

theorem State.bitten_rq (s : State) (w : Rq) : (s.bitten w).arb.rq[w] = (s.arb.rq[w]).bitten s.dropTenure.now ∧
    ∀ k : Rq, k ≠ w → (s.bitten w).arb.rq[k] = s.arb.rq[k] := by
  obtain ⟨a, hdrop, -, hrq⟩ := s.dropTenure_arb
  have hrq' : s.dropTenure.arb.rq = s.arb.rq := by
    rw [hdrop]
    exact hrq
  have hupd : (s.bitten w).arb.rq = upd s.dropTenure.arb.rq w fun x => x.bitten s.dropTenure.now := rfl
  rw [hupd, hrq']
  exact ⟨upd_same _ _ _, fun k hk => upd_other _ _ _ _ hk⟩

section Bite

variable {s : State} {w : Rq} {n : Nat} {u : Tlp} (hten : s.arb.tenure = some (w, n, u))
include hten

theorem tenureBite_early (h : s.now < n + s.get R.ARB_CFG_TENURE * 20) : exec .tenureBite s = .next s := by
  rw [exec_tenureBite, execTenureBite.eq_def, hten]
  have hnot : ¬ n + s.get R.ARB_CFG_TENURE * 20 ≤ s.now := by omega
  exact if_neg (by rw [decide_eq_false hnot, Bool.and_false]; exact Bool.false_ne_true)

theorem tenureBite_first (hc : s.clockOn = true) (hdue : n + s.get R.ARB_CFG_TENURE * 20 ≤ s.now)
    (hnone : (s.arb.rq[w]).biteTicks = []) : exec .tenureBite s = .next (if h : w.val < 16 then
      (s.bitten w).raiseLimited (spireCode ⟨w.val, h⟩ 0x8B) 0 (BitVec.ofNat 32 (min 1 3)) w.val
      else (s.bitten w).raise 0x0300 0 (BitVec.ofNat 32 w.val)) := by
  have hcond : (s.clockOn && decide (n + s.get R.ARB_CFG_TENURE * 20 ≤ s.now)) = true := by rw [hc, decide_eq_true hdue]; rfl
  rw [exec_tenureBite, execTenureBite.eq_def, hten]
  refine (if_pos hcond).trans ?_
  extract_lets s1 s2 k failed s3 told
  have h2 : s2 = s.bitten w := rfl
  have hw := (s.bitten_rq w).1
  have hk : k = 1 := by
    unfold k
    rw [h2, hw, RqSt.bitten, hnone]
    rfl
  have hfailed : failed = false := by
    unfold failed
    rw [hk]
    rfl
  have h3 : s3 = s2 := by
    unfold s3
    rw [hfailed]
    rfl
  have htold : told = (s.bitten w).raise 0x0300 0 (BitVec.ofNat 32 w.val) := by
    unfold told
    rw [h3, h2]
  rw [htold, h3, h2, hk, hfailed]
  by_cases h : w.val < 16
  · rw [dif_pos h, dif_pos h]
    exact congrArg Host.Outcome.next (if_neg Bool.false_ne_true)
  · rw [dif_neg h, dif_neg h]
    exact if_pos (c := (!false) = true) rfl

/-- What a first bite leaves, whatever its requester. -/
structure Bitten (s t : State) (w : Rq) (u : Tlp) : Prop where
  tenure : t.arb.tenure = none
  bites : (t.arb.rq[w]).bites = (s.arb.rq[w]).bites + 1
  failed : (t.arb.rq[w]).failed = (s.arb.rq[w]).failed
  others : ∀ k : Rq, k ≠ w → t.arb.rq[k] = s.arb.rq[k]
  redo : (∀ d, u ≠ .data d) → (∀ r, u = .read r → r.ltag ≠ 0) → t.arb.redo[w] = some u

theorem State.bitten_bitten : Bitten s (s.bitten w) w u := by
  obtain ⟨a, hdrop, hfree, -⟩ := s.dropTenure_arb
  obtain ⟨hw, hothers⟩ := s.bitten_rq w
  refine ⟨?_, by rw [hw]; rfl, by rw [hw]; rfl, hothers, fun hd hr => s.dropTenure_redo hten hd hr⟩
  show s.dropTenure.arb.tenure = none
  rw [hdrop]
  exact hfree

omit hten in
theorem Bitten.same {t v : State} (h : Bitten s t w u) (harb : v.arb = t.arb) : Bitten s v w u := by
  constructor <;> rw [harb]
  · exact h.tenure
  · exact h.bites
  · exact h.failed
  · exact h.others
  · exact h.redo

end Bite

/-! Failed reads -/

section Failure

variable (s : State)

/-- What the reporting registers record of a failed read: one of the abort bits, or a bit of the uncorrectable errors. -/
theorem State.aerRecord_eq (kind : Fin 5) : ∃ (k : Nat) (a : Aer), s.aerRecord kind =
      ({ s with free := k } : State).modHp (fun h => { h with aer := a }) ∧
    (kind = 0 → a = { s.hp.aer with masterAbort := true }) ∧ (kind = 1 → a = { s.hp.aer with targetAbort := true }) ∧
    (2 ≤ kind.val → a.status = s.hp.aer.status ||| (if kind = 2 then 0x1000 else if kind = 3 then 0x4000 else 0x80000)) := by
  unfold State.aerRecord
  fin_cases kind
  · exact ⟨s.free, _, rfl, fun _ => rfl, fun h => absurd h (by decide), fun h => absurd h (by decide)⟩
  · exact ⟨s.free, _, rfl, fun h => absurd h (by decide), fun _ => rfl, fun h => absurd h (by decide)⟩
  · exact ⟨s.free + 1 + 1 + 1 + 1, _, rfl, fun h => absurd h (by decide), fun h => absurd h (by decide), fun _ => rfl⟩
  · exact ⟨s.free + 1 + 1 + 1 + 1, _, rfl, fun h => absurd h (by decide), fun h => absurd h (by decide), fun _ => rfl⟩
  · exact ⟨s.free + 1 + 1 + 1 + 1, _, rfl, fun h => absurd h (by decide), fun h => absurd h (by decide), fun _ => rfl⟩

/-- A halted ring: its register words, event 0x0200 and, where it is asked for, a message. -/
theorem State.haltRing_eq (q : Ring) (why : Byte) : ((s.haltRing q why).hp.rings[q]) = { s.hp.rings[q] with halted := true, why := why } ∧
    (s.haltRing q why).hp.aer = s.hp.aer ∧ Grows s (s.haltRing q why) 1 := by
  obtain ⟨v, hv⟩ : ∃ v, v = ((s.modRing q fun r => { r with halted := true, why := why }).put R.HP_VIOL_RING q.val).put R.HP_VIOL_WHY why.toNat :=
    ⟨_, rfl⟩
  have hvq : v.hp.rings[q] = { s.hp.rings[q] with halted := true, why := why } := by
    rw [hv]
    exact s.modRing_same q _
  have hvaer : v.hp.aer = s.hp.aer := by rw [hv]; rfl
  have hgrow : Grows s v 0 := by
    rw [hv]
    exact (((Grows.refl s).modRing q _).put (by decide) _).put (by decide) _
  obtain ⟨w, hw⟩ : ∃ w, w = v.raise 0x0200 0 (BitVec.ofNat 32 (q.val + why.toNat * 256)) := ⟨_, rfl⟩
  have hwq : w.hp.rings[q] = { s.hp.rings[q] with halted := true, why := why } := by rw [hw, State.raise_hp_rings, hvq]
  have hwaer : w.hp.aer = s.hp.aer := by rw [hw, State.raise_hp_aer, hvaer]
  have hwgrow : Grows s w 1 := hw ▸ hgrow.raise _ _ _
  have hend : s.haltRing q why = if w.flag R.HP_ERR_VEC_EN then w.msixAsk (w.get R.HP_ERR_VEC_VEC) else w := by
    rw [hw, hv]
    rfl
  rw [hend]
  split
  · exact ⟨hwq, hwaer, hwgrow.same rfl rfl rfl⟩
  · exact ⟨hwq, hwaer, hwgrow⟩

variable {s}

theorem dmaReadFailure_halts {q : Ring} {kind : Fin 5} (hc : s.clockOn = true) (hin : (s.hp.rings[q]).inFlight.isSome = true) :
    ∃ t, exec (.dmaReadFailure q kind false) s = .next t ∧ (t.hp.rings[q]).halted = true ∧ (t.hp.rings[q]).why = 4 ∧
      (t.hp.rings[q]).inFlight = none ∧
      (kind = 0 → t.hp.aer = { s.hp.aer with masterAbort := true }) ∧ (kind = 1 → t.hp.aer = { s.hp.aer with targetAbort := true }) ∧
      (2 ≤ kind.val → t.hp.aer.status = s.hp.aer.status ||| (if kind = 2 then 0x1000 else if kind = 3 then 0x4000 else 0x80000)) ∧
      (s.Room → Stored s t 0x0205 0 (BitVec.ofNat 32 (q.val + kind.val * 256))) := by
  obtain ⟨u, hu⟩ : ∃ u, u = s.modRing q fun r => { r with inFlight := none, stale := false } := ⟨_, rfl⟩
  have huq : u.hp.rings[q] = { s.hp.rings[q] with inFlight := none, stale := false } := hu ▸ s.modRing_same q _
  have huaer : u.hp.aer = s.hp.aer := by rw [hu]; rfl
  obtain ⟨k, a, haer, h0, h1, h2⟩ := u.aerRecord_eq kind
  rw [huaer] at h0 h1 h2
  obtain ⟨v, hv⟩ : ∃ v, v = u.aerRecord kind := ⟨_, rfl⟩
  have hvq : v.hp.rings[q] = { s.hp.rings[q] with inFlight := none, stale := false } := by
    rw [hv, haer]
    exact huq
  have hvaer : v.hp.aer = a := by
    rw [hv, haer]
    rfl
  have hgrow : Grows s v 0 := by
    rw [hv, haer, hu]
    exact .of_same rfl rfl rfl
  obtain ⟨hq, ha, hg⟩ := (v.raise 0x0205 0 (dmaData q kind)).haltRing_eq q 4
  rw [State.raise_hp_rings, hvq] at hq
  rw [State.raise_hp_aer, hvaer] at ha
  refine ⟨_, ?_, by rw [hq], by rw [hq], by rw [hq], ?_, ?_, ?_, fun hr => hgrow.stored_then hr _ _ _ {} hg (by decide)⟩
  · rw [exec_dmaReadFailure, execDmaReadFailure, hc, ← hu, ← hv]
    exact (if_neg (by decide)).trans ((if_neg (by decide)).trans (if_pos hin))
  · rw [ha]
    exact h0
  · rw [ha]
    exact h1
  · rw [ha]
    exact h2

end Failure

/-! The link -/

section Link

variable {s : State}

theorem State.msixRelease_kept (n : Fin 32) : ∃ m p, s.msixRelease n = s.modHp fun h => { h with msix := m, msixPend := p } := by
  unfold State.msixRelease
  split
  · exact ⟨_, _, rfl⟩
  · exact ⟨s.hp.msix, s.hp.msixPend, rfl⟩

theorem forAll_msixRelease (l : List (Fin 32)) : ∃ m p, forAll l (fun n t => t.msixRelease n) s = s.modHp fun h => { h with msix := m, msixPend := p } := by
  induction l generalizing s with
  | nil => exact ⟨s.hp.msix, s.hp.msixPend, rfl⟩
  | cons n l ih =>
    obtain ⟨m, p, hn⟩ := s.msixRelease_kept n
    obtain ⟨m', p', hl⟩ := ih (s := s.msixRelease n)
    refine ⟨m', p', hl.trans ?_⟩
    rw [hn]
    rfl

theorem linkUp_trains {sp : Fin 5} {w : Fin 3} (hrun : s.mode.domeRun = true) (hperst : s.mode.pins.perstHigh = true) (hdown : s.hp.linkUp = false)
    (hsp : sp ≠ 0) (hw : w ≠ 0) (hstep : s.mode.bootStep = 9) :
    ∃ t, exec (.linkUp sp w) s = .next t ∧ t.hp.linkUp = true ∧ t.hp.speed = BitVec.ofNat 4 sp.val ∧
      t.hp.width = BitVec.ofNat 4 w.val ∧ t.mode = { s.mode with bootStep := 10 } ∧
      (s.Room → Stored s t 0x0209 0 (BitVec.ofNat 32 (sp.val + 16 * w.val))) := by
  obtain ⟨u, hu⟩ : ∃ u, u = s.modHp fun h => { h with linkUp := true, speed := BitVec.ofNat 4 sp.val, width := BitVec.ofNat 4 w.val } := ⟨_, rfl⟩
  obtain ⟨v, hv⟩ : ∃ v, v = u.modMode fun m => { m with bootStep := if m.bootStep = 9 then 10 else m.bootStep } := ⟨_, rfl⟩
  have hvhp : v.hp = u.hp := by rw [hv]; rfl
  have hvmode : v.mode = { s.mode with bootStep := 10 } := by
    rw [hv, hu]
    show ({ s.mode with bootStep := if s.mode.bootStep = 9 then 10 else s.mode.bootStep } : ModeSt) = _
    rw [if_pos hstep]
  have hgrow : Grows s v 0 := by rw [hv, hu]; exact .of_same rfl rfl rfl
  have hsp' : sp.val ≠ 0 := fun h => hsp (Fin.ext h)
  have hw' : w.val ≠ 0 := fun h => hw (Fin.ext h)
  refine ⟨v.raise 0x0209 0 (BitVec.ofNat 32 (sp.val + 16 * w.val)), ?_, ?_, ?_, ?_, ?_, fun hr => hgrow.stored hr (by decide) _ _ _ {}⟩
  · rw [exec_linkUp, execLinkUp, hv, hu]
    exact if_pos (by rw [hrun, hperst, hdown, hstep, decide_eq_true hsp', decide_eq_true hw']; rfl)
  · rw [State.raise_hp_linkUp, hvhp, hu]
    rfl
  · rw [State.raise_hp_speed, hvhp, hu]
    rfl
  · rw [State.raise_hp_width, hvhp, hu]
    rfl
  · rw [State.raise_mode v (by decide), hvmode]

theorem linkDown_drops (hup : s.hp.linkUp = true) : ∃ t, exec .linkDown s = .next t ∧ t.hp.linkUp = false ∧ t.arb.tenure = none ∧
    t.hp.rings = s.hp.rings ∧ (s.Room → Stored s t 0x020A 0 0) := by
  obtain ⟨a, hdrop, hfree, -⟩ := s.dropTenure_arb
  obtain ⟨u, hu⟩ : ∃ u, u = s.dropTenure.modHp fun h => { h with linkUp := false, speed := 0, width := 0 } := ⟨_, rfl⟩
  have hgrow : Grows s u 0 := by rw [hu, hdrop]; exact .of_same rfl rfl rfl
  refine ⟨u.raise 0x020A 0, ?_, ?_, ?_, ?_, fun hr => hgrow.stored hr (by decide) _ _ _ {}⟩
  · rw [exec_linkDown, execLinkDown, if_pos hup, hu]
  · rw [State.raise_hp_linkUp, hu]
    rfl
  · rw [State.raise_arb, hu, hdrop]
    exact hfree
  · rw [State.raise_hp_rings, hu, hdrop]
    rfl

theorem configSpaceWrite_set (hup : s.hp.linkUp = true) (hrun : s.mode.domeRun = true) (bm d3 : Bool) (conf : PciSet) :
    ∃ t, exec (.configSpaceWrite ⟨bm, d3⟩ conf) s = .next t ∧ t.hp.busMaster = bm ∧ t.hp.d3hot = d3 ∧ t.hp.pci = conf ∧
      t.hp.rings = s.hp.rings ∧ t.regs = s.regs ∧ (bm = false ∨ d3 = true → t.arb.tenure = none) := by
  obtain ⟨u, hu⟩ : ∃ u, u = s.modHp fun h => { h with busMaster := bm, d3hot := d3, pci := conf } := ⟨_, rfl⟩
  obtain ⟨v, hv, hvhp, hvregs, hvfree⟩ : ∃ v, v = (if bm && !d3 then u else u.dropTenure) ∧ v.hp = u.hp ∧ v.regs = u.regs ∧
      (bm = false ∨ d3 = true → v.arb.tenure = none) := by
    obtain ⟨a, hdrop, hfree, -⟩ := u.dropTenure_arb
    refine ⟨_, rfl, ?_⟩
    split
    next h =>
      have hboth : bm = true ∧ d3 = false := by simpa using h
      refine ⟨rfl, rfl, fun hn => ?_⟩
      rw [hboth.1, hboth.2] at hn
      exact absurd hn (by decide)
    next =>
      rw [hdrop]
      exact ⟨rfl, rfl, fun _ => hfree⟩
  obtain ⟨m, p, hrel⟩ := forAll_msixRelease (s := v) (List.finRange 32)
  refine ⟨v.modHp fun h => { h with msix := m, msixPend := p }, ?_, ?_, ?_, ?_, ?_, ?_, hvfree⟩
  · rw [exec_configSpaceWrite, execConfigSpaceWrite, ← hrel, hv, hu]
    exact if_pos (by rw [hrun, hup]; rfl)
  · exact (congrArg HostPort.busMaster hvhp).trans (by rw [hu]; rfl)
  · exact (congrArg HostPort.d3hot hvhp).trans (by rw [hu]; rfl)
  · exact (congrArg HostPort.pci hvhp).trans (by rw [hu]; rfl)
  · exact (congrArg HostPort.rings hvhp).trans (by rw [hu]; rfl)
  · exact hvregs.trans (by rw [hu]; rfl)

end Link

theorem arbBites_ne (w : Rq) : (R.ARB_RQ_BITES w).addr ≠ R.HP_EVT_CFG_F0_EN.addr := by
  revert w
  decide

/-- Settles O46: each step on the host path leaves what the section gives. -/
theorem theHostPathIsShared : Obligations.TheHostPathIsShared := by
  unfold Obligations.TheHostPathIsShared
  intro s
  refine ⟨fun hc => ⟨fun w n d hten hup => ?_, fun hfree hnone => ?_, fun w hfree hw honly => ?_⟩,
    fun hc w n u hten => ⟨tenureBite_early hten, fun hdue hnone => ?_⟩, fun hc p n hpend => ?_,
    fun q kind hc hin _ => dmaReadFailure_halts hc hin,
    fun sp w hrun hperst hdown hsp hw hstep => linkUp_trains hrun hperst hdown hsp hw hstep,
    fun hup => ⟨linkDown_drops hup, fun hrun => configSpaceWrite_set hup hrun⟩⟩
  · obtain ⟨t, ht, hhp⟩ := ((s.modArb fun a => { a with tenure := none }).send (.memWrite d.addr d.bytes)).grantPath_hp
    exact ⟨t, (arbitrationGrant_data hc hten hup).trans ht, by rw [hhp]; rfl, by rw [hhp]; rfl⟩
  · rw [arbitrationGrant_free hc hfree, State.grantPath_idle hnone]
  · obtain ⟨u, hu, hgrant⟩ := State.grantPath_single hw honly
    obtain ⟨hhp, hten, hgrants, hwait⟩ := s.arbRound_single w u
    exact ⟨_, u, (arbitrationGrant_free hc hfree).trans hgrant, hu, hten, hhp, hgrants, hwait⟩
  · have hbitten := State.bitten_bitten hten
    have hfirst := tenureBite_first hten hc hdue hnone
    by_cases h : w.val < 16
    · rw [dif_pos h] at hfirst
      have h := hbitten.same (v := (s.bitten w).raiseLimited (spireCode ⟨w.val, h⟩ 0x8B) 0 (BitVec.ofNat 32 (min 1 3)) w.val) (State.raiseLimited_arb ..)
      exact ⟨_, hfirst, h.tenure, h.bites, h.redo, h.failed, h.others, fun h16 => by omega⟩
    · rw [dif_neg h] at hfirst
      obtain ⟨a, hdrop, -, -⟩ := s.dropTenure_arb
      have hgrow : Grows s (s.dropTenure) 0 := by rw [hdrop]; exact .of_same rfl rfl rfl
      have hfar : (R.ARB_RQ_BITES w).addr ≠ R.HP_EVT_CFG_F0_EN.addr := arbBites_ne w
      have h := hbitten.same (v := (s.bitten w).raise 0x0300 0 (BitVec.ofNat 32 w.val)) (State.raise_arb ..)
      exact ⟨_, hfirst, h.tenure, h.bites, h.redo, h.failed, h.others,
        fun _ hr => ((hgrow.count hfar 1).modArb _).stored hr (by decide) _ _ _ {}⟩
  · obtain ⟨u, hu⟩ : ∃ u, u = (s.modArb fun a => { a with relief := some p, reliefPend := none }).modSpire p fun x => { x with agent := 1 } := ⟨_, rfl⟩
    obtain ⟨v, hv⟩ : ∃ v, v = (u.modRing ⟨p.val, by omega⟩ fun r => { r with inFlight := none }).modHp fun h =>
      { h with cq := h.cq.map fun l => l.map fun x => if x.rq = ⟨p.val, by omega⟩ then { x with rq := 16 } else x } := ⟨_, rfl⟩
    have hgrow : Grows s v 0 := by rw [hv, hu]; exact .of_same rfl rfl rfl
    refine ⟨v.raise (spireCode p 0x87) 2, ?_, ?_, ?_, ?_, fun hr => hgrow.stored hr (by decide) _ _ _ {}⟩
    · rw [exec_reliefTakeover, execReliefTakeover.eq_def, hpend, hv, hu]
      exact if_pos (by rw [hc, decide_eq_true rfl]; rfl)
    · rw [State.raise_arb, hv, hu]
      rfl
    · rw [State.raise_arb, hv, hu]
      rfl
    · rw [State.raise_spire, hv, hu]
      exact congrArg SpireSt.agent (upd_same s.spire p fun x => { x with agent := 1 })

end Sys2Proof.Machine
end

section
/-! PROOFS. Reaches posted and mail sent and received (R276, R277, R441, R442, Table 08.2). -/

namespace Sys2Proof.Machine

/-! REACH_POST -/

section Reach

variable {s : State} {q : Ring} {d : Desc}

theorem State.opRow_reach (hcan : s.canStart q = true) :
    s.opRow 0x10 q d = .next ((s.starting q (s.nextExec q 0x10 d)).opReach q (s.nextExec q 0x10 d) d) := by
  have hrun (x : InExec) (hx : x.op = 0x10) : s.runOp q x d = (s.starting q x).opReach q x d := by
    rw [State.runOp, ← State.starting, hx, if_pos rfl]
  rw [State.opRow, if_pos hcan]
  exact congrArg Host.Outcome.next (hrun _ rfl)

theorem State.starting_postCheck (x : InExec) : (s.starting q x).postCheck q d = s.postCheck q d :=
  s.starting_eq_hp x (fun t => t.postCheck q d) fun _ _ => rfl

theorem State.postCheck_admin (hq : 16 ≤ q.val) : s.postCheck q d = some 0x19 := if_pos hq

/-- A reach taken joins the end of its channel's queue. -/
theorem State.reachAccept_queues (c : Ch) (r : Reach) : (s.reachAccept c r).ch c =
      { s.ch c with seqr := { (s.ch c).seqr with live := (s.ch c).seqr.live ++ [{ r with seq := (s.ch c).seqr.nextSeq }], nextSeq := (s.ch c).seqr.nextSeq + 1 } } ∧
    (∀ k, k ≠ c → (s.reachAccept c r).ch k = s.ch k) ∧ (s.reachAccept c r).hp = s.hp ∧ (s.reachAccept c r).regs = s.regs := by
  obtain ⟨t, ht⟩ : ∃ t, t = s.modSeq c fun q =>
      { q with live := q.live ++ [{ r with seq := q.nextSeq }], nextSeq := q.nextSeq + 1 } := ⟨_, rfl⟩
  have hlatch : (t.latchCh c 4).chan = t.chan ∧ (t.latchCh c 4).hp = t.hp ∧ (t.latchCh c 4).regs = t.regs := by
    unfold State.latchCh
    split
    · split
      · exact ⟨rfl, rfl, rfl⟩
      · exact ⟨rfl, rfl, rfl⟩
    · exact ⟨rfl, rfl, rfl⟩
  obtain ⟨u, hu, hchan, hhp, hregs⟩ : ∃ u, u = s.reachAccept c r ∧ u.chan = t.chan ∧ u.hp = t.hp ∧ u.regs = t.regs := by
    refine ⟨_, rfl, ?_⟩
    unfold State.reachAccept State.seqChange
    dsimp only
    rw [← ht]
    split
    · exact ⟨rfl, rfl, rfl⟩
    · exact hlatch
  rw [← hu]
  have hch (k : Ch) : u.ch k = t.ch k := by rw [State.ch, hchan]; rfl
  refine ⟨?_, fun k hk => ?_, hhp.trans (by rw [ht]; rfl), hregs.trans (by rw [ht]; rfl)⟩
  · rw [hch, ht, State.modSeq, State.modCh_ch, if_pos rfl]
  · rw [hch, ht, State.modSeq, State.modCh_ch, if_neg hk]

theorem reachPost_taken (hcan : s.canStart q = true) (hnone : s.postCheck q d = none) : ∃ t, exec (.reachPost q d) s = .next t ∧
    t.ch (descChan d) = { s.ch (descChan d) with seqr := { (s.ch (descChan d)).seqr with live := (s.ch (descChan d)).seqr.live ++ [{ reachOf q d with seq := (s.ch (descChan d)).seqr.nextSeq }], nextSeq := (s.ch (descChan d)).seqr.nextSeq + 1 } } ∧
    (∀ k, k ≠ descChan d → t.ch k = s.ch k) ∧ t.hp.cq = s.hp.cq ∧ t.regs = s.regs := by
  have hq : q.val < 16 := by
    by_contra hq
    rw [State.postCheck_admin (by omega)] at hnone
    exact absurd hnone (by simp)
  obtain ⟨hch, hk, hhp, hregs⟩ := s.reachAccept_queues (descChan d) (reachOf q d)
  refine ⟨s.reachAccept (descChan d) (reachOf q d), ?_, hch, hk, by rw [hhp], hregs⟩
  rw [exec_reachPost, execReachPost, State.opRow_reach hcan, State.starting_spire_ring _ _ _ hq, State.opReach.eq_def, hnone]

/-- A reach refused: its entry joins the completion ring of `q`. -/
theorem State.opReach_refused {u : State} {x : InExec} {st : Byte} (hst : u.stalledRq (u.rqOf q) = none) (hcheck : u.postCheck q d = some st) :
    (u.opReach q x d).chan = u.chan ∧ (u.opReach q x d).eng = u.eng ∧ (u.opReach q x d).hp.cq[u.cqOf q] =
      u.hp.cq[u.cqOf q] ++ [⟨u.rqOf q, .reach u.tick.now d.tag (descChan d) st q false false false, u.now⟩] := by
  obtain ⟨v, hv⟩ : ∃ v, v = u.hold (u.cqOf q) (u.rqOf q) (.reach u.tick.now d.tag (descChan d) st q false false false) := ⟨_, rfl⟩
  have hvcq : v.hp.cq[u.cqOf q] = u.hp.cq[u.cqOf q] ++ [⟨u.rqOf q, .reach u.tick.now d.tag (descChan d) st q false false false, u.now⟩] := by
    rw [hv, State.hold.eq_def, hst]
    exact upd_same u.hp.cq _ _
  obtain ⟨w, hw, hwchan, hweng, hwcq⟩ : ∃ w, w = (if st < 0x10 then v else (v.count (R.Q_CNT_REFUSED q)).raiseLimited 0x0203 0
      (BitVec.ofNat 32 (q.val + st.toNat * 256 + x.slot * 65536)) q.val) ∧ w.chan = v.chan ∧ w.eng = v.eng ∧ w.hp.cq = v.hp.cq := by
    refine ⟨_, rfl, ?_⟩
    split
    · exact ⟨rfl, rfl, rfl⟩
    · exact ⟨State.raiseLimited_chan .., State.raiseLimited_eng .., State.raiseLimited_hp_cq ..⟩
  have heq : u.opReach q x d = w.modRing q fun r => { r with exec := none } := by
    rw [State.opReach.eq_def, hcheck, hw, hv]
  rw [heq]
  refine ⟨hwchan.trans (hv ▸ State.hold_chan ..), hweng.trans (hv ▸ State.hold_eng ..), ?_⟩
  show w.hp.cq[u.cqOf q] = _
  rw [hwcq, hvcq]

theorem reachPost_refused (hcan : s.canStart q = true) {st : Byte} (hcheck : s.postCheck q d = some st) :
    ∃ t, exec (.reachPost q d) s = .next t ∧ t.chan = s.chan ∧ t.eng = s.eng ∧
      t.hp.cq[s.cqOf q] = s.hp.cq[s.cqOf q] ++ [⟨s.rqOf q, .reach s.tick.now d.tag (descChan d) st q false false false, s.now⟩] := by
  have hst := Starts.refl s q (s.nextExec q 0x10 d)
  obtain ⟨r, hr⟩ := s.starting_hp q (s.nextExec q 0x10 d)
  obtain ⟨hchan, heng, hcq⟩ := State.opReach_refused (u := s.starting q (s.nextExec q 0x10 d)) (x := s.nextExec q 0x10 d)
    (State.stalledRq_rqOf _ (hst.stalled hcan)) ((s.starting_postCheck _).trans hcheck)
  refine ⟨_, by rw [exec_reachPost, execReachPost, State.opRow_reach hcan], hchan.trans (by rw [hr]), heng.trans (by rw [hr]), ?_⟩
  have htick : (s.starting q (s.nextExec q 0x10 d)).tick = s.tick := by rw [hr]
  simp only [hst.cqOf, hst.rqOf, hst.cq, hst.now, htick] at hcq
  exact hcq

/-- The checks of Table 08.2 that come before those of the channel. -/
theorem State.postCheck_field (hq : q.val < 16) (hfault : s.mode.fault = false) (hmode : s.hostMode = .field) :
    s.postCheck q d = if (spireOf (descChan d)).val ≠ q.val then some 0x12
      else if !reachFieldsOk d then some 0x13 else s.reachCheck (descChan d) (reachOf q d) := by
  unfold State.postCheck
  dsimp only
  rw [if_neg (by omega), hfault, hmode, if_neg Bool.false_ne_true]
  exact if_neg (by decide)

end Reach

/-! Mail -/

section Mail

variable {s : State} {q : Ring} {d : Desc}

theorem State.opEffect_mbxSend (u : State) (x : InExec) (hx : x.op.toNat = 0x90) : u.opEffect q x d = u.opMbxSend q x d := by
  simp only [State.opEffect, hx]

theorem State.opEffect_mbxRecv (u : State) (x : InExec) (hx : x.op.toNat = 0x91) : u.opEffect q x d = u.opMbxRecv q x d := by
  simp only [State.opEffect, hx]

theorem State.starting_rv (x : InExec) : (s.starting q x).rv = s.rv := s.starting_eq_hp x State.rv fun _ _ => rfl

/-- A descriptor that its opcode refuses leaves the ring block as it was. -/
theorem refused_rv {op : Byte} {status : Byte} (hop : op ≠ 0x10) (h : s.Takes q op d)
    (heff : (s.starting q (s.nextExec q op d)).opEffect q (s.nextExec q op d) d =
      (s.starting q (s.nextExec q op d)).finish q (s.nextExec q op d) status 0) :
    ∃ t, s.opRow op q d = .next t ∧ Answered s t q d status 0 ∧ t.rv = s.rv := by
  have hans := (Starts.refl s q (s.nextExec q op d)).answered (status := status) (info := 0) (b := true) h.1
  rw [show shownInfo status 0 = 0 from ite_self 0] at hans
  exact ⟨_, (s.opRow_takes q hop h).trans (congrArg Host.Outcome.next heff), hans,
    ((Starts.refl s q (s.nextExec q op d)).finish_keeps h.1 unanswered_rv).trans (s.starting_rv _)⟩

theorem mbxSend_refused (h : s.Takes q 0x90 d) (hbad : s.rv.role = .none_ ∨ descLe d 2 2 = s.rv.pos ∨ s.rv.ringN ≤ descLe d 2 2) :
    ∃ t, exec (.mbxSend q d) s = .next t ∧ Answered s t q d 0x13 0 ∧ t.rv = s.rv := by
  refine refused_rv (by decide) h ?_
  rw [State.opEffect_mbxSend _ _ rfl]
  refine if_pos ?_
  rw [State.starting_rv]
  simpa [or_assoc] using hbad

theorem mbxSend_waits (h : s.Takes q 0x90 d) (hrole : s.rv.role ≠ .none_) (hself : descLe d 2 2 ≠ s.rv.pos) (hn : descLe d 2 2 < s.rv.ringN) :
    let m : MailOut := ⟨⟨BitVec.ofNat 10 (descLe d 2 2), BitVec.ofNat 10 s.rv.pos, slice d.buf 0 64⟩, d.tag, s.lastSlot q⟩
    ∃ t, exec (.mbxSend q d) s = .next t ∧ t.hp.cq = s.hp.cq ∧
      t.rv = (if s.rv.pos < descLe d 2 2 ∨ descLe d 2 2 = 0 then { s.rv with mailA := s.rv.mailA ++ [m] }
        else { s.rv with mailB := s.rv.mailB ++ [m] }) := by
  intro m
  obtain ⟨x, hx⟩ : ∃ x, x = s.nextExec q 0x90 d := ⟨_, rfl⟩
  obtain ⟨u, hu⟩ : ∃ u, u = (s.starting q x).pushReads (descWord d 4) (descLe d 8 4) 64 := ⟨_, rfl⟩
  have hucq : u.hp.cq = s.hp.cq := by
    rw [hu, State.pushReads_hp]
    exact (Starts.refl s q x).cq
  have hurv : u.rv = s.rv := by
    obtain ⟨r, hr⟩ := (s.starting q x).pushReads_eq (descWord d 4) (descLe d 8 4) 64
    rw [hu, hr]
    exact s.starting_rv x
  refine ⟨u.modRv fun r => if s.rv.pos < descLe d 2 2 || descLe d 2 2 = 0 then { r with mailA := r.mailA ++ [m] } else { r with mailB := r.mailB ++ [m] },
    ?_, hucq, ?_⟩
  · rw [exec_mbxSend, execMbxSend, s.opRow_takes q (by decide) h, State.opEffect_mbxSend _ _ rfl, ← hx, hu]
    refine congrArg Host.Outcome.next ?_
    unfold State.opMbxSend
    rw [State.starting_rv]
    dsimp only
    rw [if_neg (by simp [hrole, hself, hn]), hx]
    rfl
  · show (if _ then _ else _) = _
    rw [hurv]
    simp only [Bool.or_eq_true, decide_eq_true_eq]

/-- No mail waits: nothing is served. -/
theorem State.mailServe_empty {u : State} (h : u.rv.inbox = []) : u.mailServe = u := by
  have hrv : { u.rv with inbox := u.rv.inbox.drop 0, recvs := u.rv.recvs.drop 0 } = u.rv := rfl
  unfold State.mailServe
  rw [h]
  simp only [List.length_nil, Nat.zero_min, List.take_zero, List.zip_nil_left, List.foldl_nil]
  exact congrArg (fun r : River => { u with rv := r }) hrv

theorem mbxRecv_refused (h : s.Takes q 0x91 d) (hfull : 4 ≤ s.rv.recvs.length) :
    ∃ t, exec (.mbxRecv q d) s = .next t ∧ Answered s t q d 0x20 0 ∧ t.rv = s.rv := by
  refine refused_rv (by decide) h ?_
  rw [State.opEffect_mbxRecv _ _ rfl]
  exact if_pos (by rw [State.starting_rv]; exact hfull)

theorem mbxRecv_waits (h : s.Takes q 0x91 d) (hroom : s.rv.recvs.length < 4) (hempty : s.rv.inbox = []) :
    ∃ t, exec (.mbxRecv q d) s = .next t ∧ Accepted s t q 0x91 d ∧
      t.rv = { s.rv with recvs := s.rv.recvs ++ [⟨d.tag, s.lastSlot q, descWord d 4, descLe d 8 4⟩] } := by
  obtain ⟨x, hx⟩ : ∃ x, x = s.nextExec q 0x91 d := ⟨_, rfl⟩
  obtain ⟨u, hu⟩ : ∃ u, u = ((s.starting q x).accept q x).modRv fun r =>
    { r with recvs := r.recvs ++ [⟨d.tag, s.lastSlot q, descWord d 4, descLe d 8 4⟩] } := ⟨_, rfl⟩
  have hurv : u.rv = { s.rv with recvs := s.rv.recvs ++ [⟨d.tag, s.lastSlot q, descWord d 4, descLe d 8 4⟩] } := by
    have hrv : ((s.starting q x).accept q x).rv = s.rv := s.starting_rv x
    rw [hu, State.modRv, hrv]
  refine ⟨u, ?_, (hx ▸ Starts.refl s q x).accepted (by rw [hu, hx]; rfl) (by rw [hu, hx]; rfl), hurv⟩
  rw [exec_mbxRecv, execMbxRecv, s.opRow_takes q (by decide) h, State.opEffect_mbxRecv _ _ rfl, ← hx]
  refine congrArg Host.Outcome.next ?_
  unfold State.opMbxRecv
  rw [if_neg (by rw [State.starting_rv]; omega)]
  refine Eq.trans ?_ (State.mailServe_empty (u := u) (by rw [hurv]; exact hempty))
  rw [hu, hx]
  rfl

end Mail

/-- Settles O47: reaches and mail are checked in the order of the tables and queued. -/
theorem reachesAndMailAreQueued : Obligations.ReachesAndMailAreQueued := by
  unfold Obligations.ReachesAndMailAreQueued
  intro s q d
  refine ⟨fun hcan => ⟨reachPost_taken hcan, fun st => reachPost_refused hcan⟩, State.postCheck_admin, fun hq hfault hmode => ?_,
    fun h => ⟨mbxSend_refused h, mbxSend_waits h⟩, fun h => ⟨mbxRecv_refused h, mbxRecv_waits h⟩⟩
  rw [State.postCheck_field hq hfault hmode]
  refine ⟨fun hsp => if_pos hsp, fun hsp hok => ?_⟩
  rw [if_neg (by simpa using hsp), if_neg (by rw [hok]; exact Bool.false_ne_true)]
  unfold State.reachCheck
  dsimp only
  refine ⟨fun hlen => if_pos ?_, fun hlo hhi => ?_⟩
  · have : ¬ (1000 ≤ (reachOf q d).len ∧ (reachOf q d).len ≤ spanMax) := by
      unfold spanMax
      omega
    simpa [imp_iff_not_or] using this
  · have hlen : (!(decide (1000 ≤ (reachOf q d).len) && decide ((reachOf q d).len ≤ spanMax))) = false := by
      rw [decide_eq_true hlo, decide_eq_true (show (reachOf q d).len ≤ spanMax from hhi)]
      rfl
    rw [if_neg (by rw [hlen]; exact Bool.false_ne_true)]
    refine ⟨fun hm => if_pos hm, fun hm hpast => ?_, fun hm hahead hnear => ?_⟩
    · rw [if_neg (by rw [hm]; exact Bool.false_ne_true), if_pos hpast]
    · rw [if_neg (by rw [hm]; exact Bool.false_ne_true), if_neg (by omega), if_neg (by unfold spanMax; omega)]
      exact ⟨fun h => if_pos h, fun h => if_neg (by omega)⟩

end Sys2Proof.Machine
end

section
/-! PROOFS. The battery estimator (R335 to R344). -/

namespace Sys2Proof.Machine

/-! The state of charge -/

section Soc

variable {s : State}

/-- What an update of the state of charge leaves of the estimator with the pack switch open: the charge counted, and nothing else. -/
structure SocCounted (s : State) (z : Rat) (e : Est) : Prop where
  z : e.z = z
  nAcc : e.nAcc = 0
  iAcc : e.iAcc = 0
  qNet : e.qNet = s.qNet
  still : s.qNet = s.est.qNet → s.est.afterTerm = false → e.s = q256 s.est.s

theorem State.reportSoc_soc (u : State) : u.reportSoc.restStep.get R.EST_SOC_SOC = (roundRat u.est.s).toNat % 65536 := by
  have h : u.reportSoc.restStep.get R.EST_SOC_SOC = u.reportSoc.get R.EST_SOC_SOC := State.get_putFlag_far _ _ _ _ (by decide)
  rw [h, State.reportSoc, State.get_put_far _ _ _ _ (by decide), State.get_put_near _ _ _ (by decide)]
  rfl

theorem socUpdate_counts (hk : s.keepRuns = true) (hn : s.est.nAcc ≠ 0) (hpace : ∀ k, s.pace.soc = some k → k + 20000000 ≤ s.tick.wall)
    (hsw : s.power.sw ≠ .closed) (hcap : s.capC ≠ 0) : ∃ e, SocCounted s (max 0 (min (f64 (s.est.z +
      f64 (f64 (((s.qNet - s.est.qNet : Int) : Rat) * 10000) / f64 (3600 * ((s.capC : Nat) : Rat))))) 10000)) e ∧
    exec .socUpdate s = .next (({ s with pace := { s.pace with soc := some s.tick.wall }, est := e } : State).reportSoc.restStep) := by
  have hpaced : s.paced s.pace.soc (100 * ticksPerMs) = true := by
    refine Option.all_eq_true _ _ |>.mpr fun k hk => decide_eq_true ?_
    have := hpace k hk
    simp only [ticksPerMs]
    omega
  have hgo : (!s.keepRuns || decide (s.est.nAcc = 0) || !s.paced s.pace.soc (100 * ticksPerMs)) = false := by
    rw [hk, hpaced, decide_eq_false hn]
    rfl
  rw [exec_socUpdate]
  unfold execSocUpdate
  rw [if_neg (by rw [hgo]; exact Bool.false_ne_true)]
  extract_lets pace t x n c learned r0 r1 tau dq iAvg vMeas dz zm q v1 vHat h d100 pm lim usable w rn k z p step rs rs' u
  have husable : usable = false := by
    unfold usable
    have : t.power.sw = s.power.sw := rfl
    rw [this, decide_eq_false hsw]
    rfl
  have hz : z = zm := by
    unfold z
    rw [husable]
    rfl
  refine ⟨u.est, ⟨hz.trans ?_, rfl, rfl, rfl, fun hq hterm => ?_⟩, rfl⟩
  · have hdz : dz = f64 (f64 (dq * 10000) / f64 (3600 * c)) := if_neg (Nat.cast_ne_zero.mpr hcap)
    unfold zm
    rw [hdz]
    rfl
  · have hdq : dq = 0 := by
      unfold dq
      rw [show t.qNet = x.qNet from hq, sub_self]
      rfl
    have hrs : rs = x.s := by
      unfold rs
      simp [hdq, show x.afterTerm = false from hterm]
    exact congrArg q256 hrs

/-- What no event and no write of a register reaches: the channels, the engines and the compare units. -/
structure Bystanders (s t : State) : Prop where
  chan : t.chan = s.chan
  eng : t.eng = s.eng
  units : t.units = s.units

theorem Bystanders.all {s t : State} (h : Bystanders s t) : t.chan = s.chan ∧ t.eng = s.eng ∧ t.units = s.units := ⟨h.chan, h.eng, h.units⟩

theorem State.reportSoc_est (u : State) : u.reportSoc.restStep.est.s = u.est.s ∧ u.reportSoc.restStep.est.z = u.est.z ∧
    u.reportSoc.restStep.est.nAcc = u.est.nAcc ∧ u.reportSoc.restStep.est.iAcc = u.est.iAcc ∧ u.reportSoc.restStep.est.qNet = u.est.qNet :=
  ⟨rfl, rfl, rfl, rfl, rfl⟩

theorem State.reportSoc_bystanders (u : State) : Bystanders u u.reportSoc.restStep := ⟨rfl, rfl, rfl⟩

end Soc

/-! Impedance -/

section Impedance

variable {s : State}

theorem stepCandidate_short (h : s.est.hist.length < 20 * s.get R.EST_PROBE_W_MS + 16) : s.stepCandidate = none := by
  unfold State.stepCandidate
  extract_lets w l
  refine if_pos ?_
  have hl : l.length ≤ s.est.hist.length := by
    unfold l
    rw [List.length_reverse, List.length_take]
    exact min_le_right _ _
  omega

theorem impedanceStep_waits (h : s.stepCandidate = none) : exec .impedanceStep s = .next s := by
  rw [exec_impedanceStep]
  unfold execImpedanceStep
  rw [h]
  exact ite_self _

theorem impedanceStep_rejects (hk : s.keepRuns = true) (h : s.stepCandidate = some none) :
    exec .impedanceStep s = .next (s.count R.EST_CNT_STEPS_REJ) := by
  rw [exec_impedanceStep]
  unfold execImpedanceStep
  rw [h, hk]
  rfl

/-- A value that a qualifying step gives, in its register. -/
def State.learnReg (s : State) (first : Bool) (sh a : Nat) (x : Int) : State :=
  s.setReg a (BitVec.ofNat 32 (satU 32 (learnImp first sh (s.regN a) x)))

theorem State.learnReg_first (s : State) (sh a : Nat) (x : Int) : s.learnReg true sh a x = s.setReg a (BitVec.ofNat 32 (satU 32 x)) := rfl

/-- The state after a first qualifying step, before its report. -/
def State.stepTaken (s : State) : State :=
  let u := { s with est := { s.est with stepsOk := s.est.stepsOk + 1, lastStepAt := s.tick.wall } }
  (u.setReg R.EST_R0_25 (BitVec.ofNat 32 (satU 32 u.r025))).count R.EST_CNT_STEPS_OK

/-- The reference that the eighth qualifying step settles (R343). -/
def State.r0Settled (s : State) : State :=
  if s.est.stepsOk = 8 then
    let s := s.putFlag R.EST_STAT_R0_SETTLED true
    if s.regN R.EST_R0_REF = 0 then s.setReg R.EST_R0_REF (s.reg R.EST_R0_25) else s
  else s

theorem State.r0Settled_early (h : ¬ s.est.stepsOk = 8) : s.r0Settled = s := if_neg h

theorem impedanceStep_learns (hk : s.keepRuns = true) (r0 r1 tau : Int) (h : s.stepCandidate = some (some (r0, r1, tau)))
    (hfirst : s.est.stepsOk = 0) : ∃ d, exec .impedanceStep s = .next (State.raiseLimited (((s.setReg R.EST_R0 (BitVec.ofNat 32 (satU 32 r0))).setReg
      R.EST_R1 (BitVec.ofNat 32 (satU 32 r1))).setReg R.EST_TAU (BitVec.ofNat 32 (satU 32 tau))).stepTaken.reportSoh
      0x0700 0 d 0 (60 * ticksPerS)) := by
  rw [exec_impedanceStep]
  unfold execImpedanceStep
  rw [h, hk]
  refine ⟨if s.power.probeUntil.isSome || s.flag R.EST_STAT_PROBE then 1 else 0, ?_⟩
  have hd : decide (s.est.stepsOk = 0) = true := decide_eq_true hfirst
  obtain ⟨u, hu⟩ : ∃ u, u = (((s.learnReg (decide (s.est.stepsOk = 0)) (s.get R.EST_CFG_IMP_SH) R.EST_R0 r0).learnReg
    (decide (s.est.stepsOk = 0)) (s.get R.EST_CFG_IMP_SH) R.EST_R1 r1).learnReg (decide (s.est.stepsOk = 0)) (s.get R.EST_CFG_IMP_SH)
    R.EST_TAU tau) := ⟨_, rfl⟩
  have hok : ¬ u.stepTaken.est.stepsOk = 8 := by
    have : u.stepTaken.est.stepsOk = s.est.stepsOk + 1 := hu ▸ rfl
    omega
  refine Eq.trans ?_ (congrArg (fun x : State => Host.Outcome.next (x.reportSoh.raiseLimited 0x0700 0 _ 0 (60 * ticksPerS)))
    ((State.r0Settled_early hok).trans (congrArg State.stepTaken (hu.trans (by rw [hd]; simp only [State.learnReg_first])))))
  rw [hu]
  rfl

/-- What the end of a qualifying step leaves of the values it learned. -/
theorem stepTaken_keeps (u : State) (a : Nat) (ha : a ∉ eventRegs ∧ a ≠ R.EST_R0_25 ∧ a ≠ R.EST_CNT_STEPS_OK.addr ∧ a ≠ R.EST_SOH_CAP.addr ∧ a ≠ R.EST_SOH_IMP.addr)
    (d : W32) : (u.stepTaken.reportSoh.raiseLimited 0x0700 0 d 0 (60 * ticksPerS)).reg a = u.reg a := by
  obtain ⟨hev, h25, hcnt, hcap, himp⟩ := ha
  rw [State.raiseLimited_reg _ _ _ _ _ _ _ hev, State.reportSoh, State.reg_put_far _ _ _ _ himp, State.reg_put_far _ _ _ _ hcap, State.stepTaken,
    State.reg_count_far _ _ _ _ hcnt, State.reg_setReg_far _ _ _ _ h25]
  rfl

theorem impedanceStep_accepts (hk : s.keepRuns = true) (r0 r1 tau : Int) (h : s.stepCandidate = some (some (r0, r1, tau)))
    (hfirst : s.est.stepsOk = 0) : ∃ t, exec .impedanceStep s = .next t ∧ t.reg R.EST_R0 = BitVec.ofNat 32 (satU 32 r0) ∧
      t.reg R.EST_R1 = BitVec.ofNat 32 (satU 32 r1) ∧ t.reg R.EST_TAU = BitVec.ofNat 32 (satU 32 tau) ∧ t.est.stepsOk = 1 ∧
      t.est.lastStepAt = s.tick.wall ∧ Bystanders s t := by
  obtain ⟨d, hd⟩ := impedanceStep_learns hk r0 r1 tau h hfirst
  refine ⟨_, hd, ?_, ?_, ?_, ?_, ?_, ?_, ?_, ?_⟩
  · rw [stepTaken_keeps _ _ (by decide), State.reg_setReg_far _ _ _ _ (by decide), State.reg_setReg_far _ _ _ _ (by decide), State.reg_setReg_same]
  · rw [stepTaken_keeps _ _ (by decide), State.reg_setReg_far _ _ _ _ (by decide), State.reg_setReg_same]
  · rw [stepTaken_keeps _ _ (by decide), State.reg_setReg_same]
  · rw [State.raiseLimited_est]
    exact congrArg (· + 1) hfirst
  · rw [State.raiseLimited_est]
    rfl
  · exact State.raiseLimited_chan ..
  · exact State.raiseLimited_eng ..
  · exact State.raiseLimited_units ..

end Impedance

/-! Probes -/

section Probe

variable {s : State}

/-- The state that a probe begins with, before its event. -/
def State.probing (s : State) : State :=
  ((s.modPower fun p => { p with probeUntil := some (s.tick.wall + (2 * s.get R.EST_PROBE_W_MS + 2) * ticksPerMs) }).put R.BUD_STAT_K 0).putFlag
    R.EST_STAT_PROBE true

theorem hours_ticks (h : Nat) : h * 3600 * ticksPerS = h * 720000000000 := Nat.mul_assoc h 3600 ticksPerS

theorem probeStart_begins (hk : s.keepRuns = true) (h0 : s.get R.EST_REST_PROBE_H ≠ 0) (hm : s.mode.mode = .field)
    (hbud : s.get R.BUD_STAT_K = 256) (hp : s.power.probeUntil = none)
    (hlast : s.est.lastStepAt + s.get R.EST_REST_PROBE_H * 720000000000 ≤ s.tick.wall) (hdraw : 12000000 ≤ s.budTerms.t) :
    exec .probeStart s = .next (s.probing.raise 0x0703 0 0) := by
  rw [exec_probeStart]
  unfold execProbeStart
  dsimp only
  rw [if_pos]
  · rfl
  · simp only [Bool.and_eq_true, decide_eq_true_eq]
    refine ⟨⟨⟨⟨⟨⟨hk, h0⟩, hm⟩, hbud⟩, ?_⟩, ?_⟩, hdraw⟩
    · rw [hp]; rfl
    · rw [hours_ticks]
      exact hlast

theorem probing_shows : s.probing.get R.BUD_STAT_K = 0 ∧ s.probing.flag R.EST_STAT_PROBE = true := by
  refine ⟨?_, State.flag_putFlag_near _ _ _ (by decide)⟩
  rw [State.probing, State.get_putFlag_far _ _ _ _ (by decide), State.get_put_near _ _ _ (by decide)]
  rfl

theorem probeEnd_restores (hk : s.keepRuns = true) (n : Nat) (hp : s.power.probeUntil = some n) (hn : n ≤ s.tick.wall) :
    exec .probeEnd s = .next s.probeStop := by
  rw [exec_probeEnd, execProbeEnd.eq_def, hp]
  exact if_pos (by rw [hk, decide_eq_true hn]; rfl)

theorem probeStop_shows : s.probeStop.get R.BUD_STAT_K = 256 ∧ s.probeStop.flag R.EST_STAT_PROBE = false := by
  obtain ⟨u, hu⟩ : ∃ u, u = (s.put R.BUD_STAT_K 256).putFlag R.EST_STAT_PROBE false := ⟨_, rfl⟩
  have hstop : s.probeStop = u.modPower fun p => { p with probeUntil := none } := hu ▸ rfl
  have hget : s.probeStop.get R.BUD_STAT_K = u.get R.BUD_STAT_K := hstop ▸ rfl
  have hflag : s.probeStop.flag R.EST_STAT_PROBE = u.flag R.EST_STAT_PROBE := hstop ▸ rfl
  rw [hget, hflag, hu, State.get_putFlag_far _ _ _ _ (by decide), State.get_put_near _ _ _ (by decide),
    State.flag_putFlag_near _ _ _ (by decide)]
  exact ⟨rfl, rfl⟩

end Probe

/-! Rest points and records -/

section Rest

variable {s : State}

theorem State.reportSoh_grows (s : State) : Grows s s.reportSoh 0 := ((Grows.refl s).put (by decide) _).put (by decide) _

theorem Grows.setReg {t : State} {n : Nat} (h : Grows s t n) {a : Nat} (ha : R.HP_EVT_CFG_F0_EN.addr ≠ a) (w : W32) : Grows s (t.setReg a w) n :=
  h.same rfl (State.flag_setReg_far _ _ _ _ ha) rfl

/-- What a rest point may teach changes of the estimator: the reference alone; one event at most. -/
structure CapLearned (s t : State) : Prop where
  est : ∃ r, t.est = { s.est with refPt := r }
  bystanders : Bystanders s t
  grows : Grows s t 1

theorem capLearn_learned (new : RestPt) : CapLearned s (s.capLearn new) := by
  unfold State.capLearn
  split
  next =>
    have hset : Grows s { s with est := { s.est with refPt := some new } } 0 := .of_same rfl rfl rfl
    exact ⟨⟨_, rfl⟩, ⟨rfl, rfl, rfl⟩, (hset.putFlag (by decide) true).mono (by decide)⟩
  next ref _ =>
    have hgrows : Grows s { s with est := { s.est with refPt := some new } } 0 := .of_same rfl rfl rfl
    have hset : CapLearned s { s with est := { s.est with refPt := some new } } := ⟨⟨_, rfl⟩, ⟨rfl, rfl, rfl⟩, hgrows.mono (by decide)⟩
    split
    · dsimp only
      split
      · refine ⟨⟨some new, ?_⟩, ⟨?_, ?_, ?_⟩, ?_⟩
        · exact (State.raise_est ..).trans rfl
        · exact (State.raise_chan ..).trans rfl
        · exact (State.raise_eng ..).trans rfl
        · exact (State.raise_units ..).trans rfl
        · exact (((hgrows.setReg (a := R.EST_CAP) (by decide) _).count (by decide) 1).raise _ _ _).trans (State.reportSoh_grows _)
      · exact hset
    · split
      · exact hset
      · exact ⟨⟨s.est.refPt, rfl⟩, ⟨rfl, rfl, rfl⟩, .mono (.refl s) (by decide)⟩

/-- The rest point of a rest that has lasted, before what it teaches. -/
def State.restTaken (s : State) (z : Rat) : State :=
  ({ s with est := { s.est with z := f64 z, p := 100, restDone := true } } : State).count R.EST_CNT_RESTS

theorem restPoint_takes (hk : s.keepRuns = true) (n : Nat) (hrest : s.resting = true) (hfrom : s.est.restFrom = some n)
    (hn : n + s.get R.EST_REST_REST_MIN * 12000000000 ≤ s.tick.wall) (hdone : s.est.restDone = false) :
    ∃ r : RestPt, exec .restPoint s = .next ((((s.restTaken (s.ocvInv (s.vpMv / (max 1 s.cellsUsed : Nat)))).raise 0x0704 0
      (BitVec.ofInt 32 (roundRat (s.ocvInv (s.vpMv / (max 1 s.cellsUsed : Nat)))))).capLearn r).put R.EST_SOC_SOC_EST
      (roundRat (s.ocvInv (s.vpMv / (max 1 s.cellsUsed : Nat)))).toNat) := by
  rw [exec_restPoint]
  unfold execRestPoint
  dsimp only
  rw [if_pos]
  · exact ⟨_, rfl⟩
  · have hheld : heldFor s.tick.wall (s.get R.EST_REST_REST_MIN * 60 * ticksPerS) s.est.restFrom = true :=
      heldFor_of ⟨n, hfrom, by rwa [Nat.mul_assoc]⟩
    rw [hk, hrest, hheld, hdone]
    rfl

theorem restPoint_learns (z : Rat) (d : W32) (r : RestPt) (n : Nat) :
    ((((s.restTaken z).raise 0x0704 0 d).capLearn r).put R.EST_SOC_SOC_EST n).est.z = f64 z ∧
    ((((s.restTaken z).raise 0x0704 0 d).capLearn r).put R.EST_SOC_SOC_EST n).est.p = 100 ∧
    ((((s.restTaken z).raise 0x0704 0 d).capLearn r).put R.EST_SOC_SOC_EST n).est.restDone = true ∧
    ((((s.restTaken z).raise 0x0704 0 d).capLearn r).put R.EST_SOC_SOC_EST n).est.s = s.est.s ∧
    Bystanders s ((((s.restTaken z).raise 0x0704 0 d).capLearn r).put R.EST_SOC_SOC_EST n) ∧
    (s.Room → Stored s ((((s.restTaken z).raise 0x0704 0 d).capLearn r).put R.EST_SOC_SOC_EST n) 0x0704 0 d) := by
  have hgrows : Grows s (s.restTaken z) 0 := by
    have h : Grows s { s with est := { s.est with z := f64 z, p := 100, restDone := true } } 0 := .of_same rfl rfl rfl
    exact h.count (by decide) 1
  obtain ⟨w, hw⟩ : ∃ w, w = (s.restTaken z).raise 0x0704 0 d := ⟨_, rfl⟩
  have hest : w.est = (s.restTaken z).est := hw ▸ State.raise_est ..
  have hby : Bystanders s w := hw ▸ ⟨State.raise_chan .., State.raise_eng .., State.raise_units ..⟩
  obtain ⟨⟨p, hp⟩, hsame, hmore⟩ := capLearn_learned (s := w) r
  rw [← hw]
  have hpest : ((w.capLearn r).put R.EST_SOC_SOC_EST n).est = { (s.restTaken z).est with refPt := p } := by
    rw [← hest, ← hp]
    rfl
  rw [hpest]
  refine ⟨rfl, rfl, rfl, rfl, ⟨hsame.chan.trans hby.chan, hsame.eng.trans hby.eng, hsame.units.trans hby.units⟩, fun hr => ?_⟩
  subst hw
  exact Grows.stored_then hr hgrows _ _ _ {} (hmore.put (f := R.EST_SOC_SOC_EST) (by decide) n) (by decide)

theorem estimatorRecord_queues (hk : s.keepRuns = true) (h : s.est.lastRecAt + 720000000000 ≤ s.tick.wall) :
    exec .estimatorRecord s = .next s.estRecord := by
  rw [exec_estimatorRecord, execEstimatorRecord]
  refine if_pos ?_
  simp only [hk, ticksPerS, Nat.reduceMul, Bool.true_and]
  exact decide_eq_true h

theorem estRecord_est : s.estRecord.est = { s.est with lastRecAt := s.tick.wall } := State.siltPush_est ..

theorem estRecord_bystanders : Bystanders s s.estRecord := ⟨State.siltPush_chan .., State.siltPush_eng .., State.siltPush_units ..⟩

/-- A record pushed into an idle Silt log with an empty queue is written at once. -/
theorem siltPush_writes (ty : Byte) (c : BitVec 2) (e : BitVec 16) (p : List Byte) (hq : s.silt.queue = []) (hw : s.silt.writing = none)
    (hlow : s.silt.supplyLow = false) (her : s.silt.erasing = false) :
    ∃ b, (s.siltPush ty c e p).silt.writing = some (b, false) ∧ b.type = ty ∧ b.payload = p := by
  unfold State.siltPush
  extract_lets b
  rw [hq, if_pos (by decide)]
  have hins : siltInsert [] b = [b] := by
    unfold siltInsert
    exact ite_self _
  have hmod : (s.modSilt fun x => { x with queue := siltInsert x.queue b }) = s.modSilt fun x => { x with queue := [b] } := by
    simp only [State.modSilt, hq, hins]
  rw [hmod]
  unfold State.siltStart
  have hgo : ((s.modSilt fun x => { x with queue := [b] }).silt.writing.isNone && !(s.modSilt fun x => { x with queue := [b] }).silt.supplyLow
      && !(s.modSilt fun x => { x with queue := [b] }).silt.erasing) = true := by
    show (s.silt.writing.isNone && !s.silt.supplyLow && !s.silt.erasing) = true
    rw [hw, hlow, her]
    rfl
  rw [if_pos hgo]
  exact ⟨b, rfl, rfl, rfl⟩

end Rest

/-- Settles O48: the updates with the switch open count the charge alone, a step is judged and learned, probes and rest points
act at their times, and the record is queued each hour. -/
theorem theEstimatorLearns : Obligations.TheEstimatorLearns := by
  unfold Obligations.TheEstimatorLearns
  intro s hk
  refine ⟨?_, fun h => impedanceStep_waits (stepCandidate_short h), ?_, ?_, ?_, ?_, ?_, ?_⟩
  · intro hn hpace hsw hcap
    obtain ⟨e, hsoc, hexec⟩ := socUpdate_counts hk hn hpace hsw hcap
    obtain ⟨u, hu⟩ : ∃ u : State, u = { s with pace := { s.pace with soc := some s.tick.wall }, est := e } := ⟨_, rfl⟩
    rw [← hu] at hexec
    have hest : u.est = e := hu ▸ rfl
    obtain ⟨hs, hz, hacc, hi, hq⟩ := u.reportSoc_est
    have hby : Bystanders s u := hu ▸ ⟨rfl, rfl, rfl⟩
    have hrep := u.reportSoc_bystanders
    refine ⟨_, hexec, by rw [hz, hest, hsoc.z], by rw [hacc, hest, hsoc.nAcc], by rw [hi, hest, hsoc.iAcc], by rw [hq, hest, hsoc.qNet],
      fun h1 h2 => by rw [hs, hest, hsoc.still h1 h2], by rw [u.reportSoc_soc, hs], hrep.chan.trans hby.chan, hrep.eng.trans hby.eng,
      hrep.units.trans hby.units⟩
  · exact fun h => ⟨_, impedanceStep_rejects hk h, rfl, State.reg_count_far _ _ _ _ (by decide), (State.get_count_same s R.EST_CNT_STEPS_REJ 1 (by decide)).trans (min_comm _ _)⟩
  · intro r0 r1 tau h hfirst
    obtain ⟨t, ht, h0, h1, h2, hok, hat, hby⟩ := impedanceStep_accepts hk r0 r1 tau h hfirst
    exact ⟨t, ht, h0, h1, h2, hok, hat, hby.all⟩
  · intro h0 hm hbud hp hlast hdraw
    obtain ⟨hg, hf⟩ := probing_shows (s := s)
    have hgrows : Grows s s.probing 0 := (((Grows.refl s).modPower _).put (by decide) _).putFlag (by decide) _
    refine ⟨_, probeStart_begins hk h0 hm hbud hp hlast hdraw, ?_, ?_, ?_, ⟨?_, ?_, ?_⟩, fun hr => hgrows.stored hr (by decide) _ _ _ {}⟩
    · rw [State.raise_get_far _ _ _ _ _ (by decide), hg]
    · rw [State.raise_flag_far _ _ _ _ _ (by decide), hf]
    · rw [State.raise_power]
      rfl
    · exact State.raise_chan ..
    · exact State.raise_eng ..
    · exact State.raise_units ..
  · exact fun n hp hn => ⟨_, probeEnd_restores hk n hp hn, probeStop_shows.1, probeStop_shows.2, rfl, rfl, rfl, rfl⟩
  · intro n hrest hfrom hn hdone
    obtain ⟨r, hr⟩ := restPoint_takes hk n hrest hfrom hn hdone
    obtain ⟨hz, hp, hd, hs, hby, hev⟩ := restPoint_learns (s := s) (s.ocvInv (s.vpMv / (max 1 s.cellsUsed : Nat)))
      (BitVec.ofInt 32 (roundRat (s.ocvInv (s.vpMv / (max 1 s.cellsUsed : Nat))))) r
      (roundRat (s.ocvInv (s.vpMv / (max 1 s.cellsUsed : Nat)))).toNat
    exact ⟨_, hr, hz, hp, hd, hs, State.get_put_near _ _ _ (by decide), hby.all, hev⟩
  · intro h
    exact ⟨_, estimatorRecord_queues hk h, estRecord_est, estRecord_bystanders.all, fun hq hw hlow her => siltPush_writes _ _ _ _ hq hw hlow her⟩

end Sys2Proof.Machine
end

section
/-! PROOFS. Rails start, hiccup, stop and take writes of ON (R352 to R369). -/

namespace Sys2Proof.Machine

/-! What the operations of a rail reach -/

section Reach

variable {s t u : State} {r : Rail}

/-- The registers in which the rails show what they do. -/
def railRegs : List Nat := R.RAIL_GOOD :: allRails.map R.RAIL_STAT

theorem stat_mem (r : Rail) : R.RAIL_STAT r ∈ railRegs :=
  List.mem_cons_of_mem _ (List.mem_map_of_mem (List.mem_finRange r))

/-- From one state to another only rails and the registers that show them differ, and the sequencer's records of its order. -/
structure OnRails (s t : State) : Prop where
  reg : ∀ a, a ∉ railRegs → t.reg a = s.reg a
  chan : t.chan = s.chan
  eng : t.eng = s.eng
  hp : t.hp = s.hp
  tick : t.tick = s.tick
  mode : t.mode = s.mode
  flt : t.flt = s.flt
  boot : t.seqr.boot38 = s.seqr.boot38

theorem OnRails.refl (s : State) : OnRails s s := ⟨fun _ _ => rfl, rfl, rfl, rfl, rfl, rfl, rfl, rfl⟩

theorem OnRails.trans (h : OnRails s t) (g : OnRails t u) : OnRails s u :=
  ⟨fun a ha => (g.reg a ha).trans (h.reg a ha), g.chan.trans h.chan, g.eng.trans h.eng, g.hp.trans h.hp, g.tick.trans h.tick,
    g.mode.trans h.mode, g.flt.trans h.flt, g.boot.trans h.boot⟩

theorem OnRails.put (h : OnRails s t) {f : Fld} (hf : f.addr ∈ railRegs) (v : Nat) : OnRails s (t.put f v) :=
  h.trans ⟨fun _ ha => State.reg_put_far _ _ _ _ fun e => ha (e ▸ hf), rfl, rfl, rfl, rfl, rfl, rfl, rfl⟩

theorem OnRails.putFlag (h : OnRails s t) {f : Fld} (hf : f.addr ∈ railRegs) (b : Bool) : OnRails s (t.putFlag f b) := h.put hf _

theorem OnRails.modRail (h : OnRails s t) (r : Rail) (f : RailSt → RailSt) : OnRails s (t.modRail r f) :=
  h.trans ⟨fun _ _ => rfl, rfl, rfl, rfl, rfl, rfl, rfl, rfl⟩

theorem OnRails.get (h : OnRails s t) {f : Fld} (hf : f.addr ∉ railRegs) : t.get f = s.get f := by
  simp only [State.get, h.reg _ hf]

theorem OnRails.flag (h : OnRails s t) {f : Fld} (hf : f.addr ∉ railRegs) : t.flag f = s.flag f := by
  simp only [State.flag, h.get hf]

theorem OnRails.grows (h : OnRails s t) : Grows s t 0 :=
  .of_same (congrArg TickSt.now h.tick) (h.flag (by decide)) (congrArg HostPort.events h.hp)

theorem OnRails.pair01 (h : OnRails s t) : t.pair01 = s.pair01 := by
  simp only [State.pair01, h.flag (f := R.RAIL_GLB_PAIR01) (by decide), h.mode, h.boot]

theorem OnRails.pair23 (h : OnRails s t) : t.pair23 = s.pair23 := h.flag (by decide)

theorem OnRails.phase2Of (h : OnRails s t) (r : Rail) : t.phase2Of r = s.phase2Of r := by
  simp only [State.phase2Of, h.pair01, h.pair23]

theorem OnRails.forAll {α : Type} {f : α → State → State} (hf : ∀ a t, OnRails t (f a t)) (l : List α) (s : State) : OnRails s (forAll l f s) := by
  induction l generalizing s with
  | nil => exact .refl s
  | cons a _ ih => exact (hf a s).trans (ih (f a s))

theorem setGood_onRails (s : State) (r : Rail) (b : Bool) : OnRails s (s.setGood r b) := by
  unfold State.setGood
  have one (t : State) (k : Rail) : OnRails t ((t.putFlag (R.RAIL_STAT_GOOD k) b).put ⟨R.RAIL_GOOD, k.val, 1⟩ (if b then 1 else 0)) :=
    ((OnRails.refl t).putFlag (stat_mem k) b).put (List.mem_cons_self ..) _
  dsimp only
  split
  · exact (one s r).trans (one _ _)
  · exact one s r

theorem setRailState_onRails (s : State) (r : Rail) (st : Nat) : OnRails s (s.setRailState r st) := by
  unfold State.setRailState
  have one (t : State) (k : Rail) : OnRails t ((t.put (R.RAIL_STAT_STATE k) st).putFlag (R.RAIL_STAT_BURST k) false) :=
    ((OnRails.refl t).put (stat_mem k) st).putFlag (stat_mem k) false
  dsimp only
  split
  · exact ((one s r).putFlag (stat_mem r) _).trans (one _ _)
  · exact (one s r).putFlag (stat_mem r) false

theorem railOffNow_onRails (s : State) (r : Rail) : OnRails s (s.railOffNow r) :=
  ((setGood_onRails s r false).trans (setRailState_onRails _ r 0)).modRail r _

theorem railStop_onRails (s : State) (r : Rail) : OnRails s (s.railStop r) := by
  unfold State.railStop
  dsimp only
  split
  · exact ((setGood_onRails s r false).trans (setRailState_onRails _ r 5)).modRail r _
  · split
    · exact railOffNow_onRails s r
    · exact .refl s

theorem stopAdvance_onRails (s : State) : OnRails s s.stopAdvance := by
  unfold State.stopAdvance
  extract_lets ready t
  have h : OnRails s t := OnRails.forAll (fun r t => railStop_onRails t r) _ s
  split
  · exact h.trans ⟨fun _ _ => rfl, rfl, rfl, rfl, rfl, rfl, rfl, rfl⟩
  · exact h

end Reach

/-! A rail without a second phase -/

section Lone

variable {s : State} {r : Rail}

theorem setGood_lone (h : s.phase2Of r = none) (b : Bool) :
    s.setGood r b = (s.putFlag (R.RAIL_STAT_GOOD r) b).put ⟨R.RAIL_GOOD, r.val, 1⟩ (if b then 1 else 0) := by
  have hre : ((s.putFlag (R.RAIL_STAT_GOOD r) b).put ⟨R.RAIL_GOOD, r.val, 1⟩ (if b then 1 else 0)).phase2Of r = none :=
    ((((OnRails.refl s).putFlag (stat_mem r) b).put (List.mem_cons_self ..) _).phase2Of r).trans h
  unfold State.setGood
  dsimp only
  rw [hre]

theorem setRailState_lone (h : s.phase2Of r = none) (st : Nat) : s.setRailState r st =
    ((s.put (R.RAIL_STAT_STATE r) st).putFlag (R.RAIL_STAT_BURST r) false).putFlag (R.RAIL_STAT_PHASE2 r) false := by
  have hre : ((s.put (R.RAIL_STAT_STATE r) st).putFlag (R.RAIL_STAT_BURST r) false).phase2Of r = none :=
    ((((OnRails.refl s).put (stat_mem r) st).putFlag (stat_mem r) false).phase2Of r).trans h
  unfold State.setRailState
  dsimp only
  rw [hre]

theorem stat_ne_good (r : Rail) : R.RAIL_STAT r ≠ R.RAIL_GOOD := by
  revert r
  decide

theorem setGood_good (h : s.phase2Of r = none) (b : Bool) : (s.setGood r b).railGood r = b := by
  rw [setGood_lone h, State.railGood, State.flag_put_far _ _ _ _ (.inl (stat_ne_good r).symm)]
  exact State.flag_putFlag_near _ _ _ ⟨Nat.le_of_ble_eq_true rfl, rfl⟩

theorem setGood_state (h : s.phase2Of r = none) (b : Bool) : (s.setGood r b).railState r = s.railState r := by
  rw [setGood_lone h, State.railState, State.get_put_far _ _ _ _ (.inl (stat_ne_good r).symm)]
  exact State.get_putFlag_far _ _ _ _ (.inr ⟨Nat.le_of_ble_eq_true rfl, .inl (Nat.le_of_ble_eq_true rfl)⟩)

theorem setRailState_good (h : s.phase2Of r = none) (st : Nat) : (s.setRailState r st).railGood r = s.railGood r := by
  rw [setRailState_lone h, State.railGood, State.flag_putFlag_far _ _ _ _ (.inr ⟨Nat.le_of_ble_eq_true rfl, .inl (Nat.le_of_ble_eq_true rfl)⟩),
    State.flag_putFlag_far _ _ _ _ (.inr ⟨Nat.le_of_ble_eq_true rfl, .inl (Nat.le_of_ble_eq_true rfl)⟩)]
  exact State.flag_put_far _ _ _ _ (.inr ⟨Nat.le_of_ble_eq_true rfl, .inr (Nat.le_of_ble_eq_true rfl)⟩)

theorem setRailState_state (h : s.phase2Of r = none) {st : Nat} (hst : st < 8) : (s.setRailState r st).railState r = st := by
  rw [setRailState_lone h, State.railState, State.get_putFlag_far _ _ _ _ (.inr ⟨Nat.le_of_ble_eq_true rfl, .inl (Nat.le_of_ble_eq_true rfl)⟩),
    State.get_putFlag_far _ _ _ _ (.inr ⟨Nat.le_of_ble_eq_true rfl, .inl (Nat.le_of_ble_eq_true rfl)⟩)]
  exact (State.get_put_near _ _ _ (Nat.le_of_ble_eq_true rfl)).trans (Nat.mod_eq_of_lt hst)

theorem setGood_rail (b : Bool) : (s.setGood r b).rail = s.rail := by
  unfold State.setGood
  dsimp only
  split <;> simp only [State.put_rail, State.putFlag_rail]

theorem setRailState_rail (st : Nat) : (s.setRailState r st).rail = s.rail := by
  unfold State.setRailState
  dsimp only
  split <;> rfl

/-- A rail off with its discharge. -/
def RailSt.off (x : RailSt) : RailSt :=
  { x with hicUntil := none, windowFrom := none, depMetAt := none, discharge := true, lowSide := false, refMv := 0,
           inBand := 0, uvW := 0, ovW := 0, uvF := 0, ovF := 0 }

theorem railOffNow_rail : (s.railOffNow r).rail = upd s.rail r RailSt.off :=
  congrArg (fun v => upd v r RailSt.off) ((setRailState_rail 0).trans (setGood_rail false))

theorem railOffNow_state (h : s.phase2Of r = none) : (s.railOffNow r).railState r = 0 ∧ (s.railOffNow r).railGood r = false := by
  have hre : (s.setGood r false).phase2Of r = none := ((setGood_onRails s r false).phase2Of r).trans h
  exact ⟨setRailState_state hre (by decide), (setRailState_good hre 0).trans (setGood_good h false)⟩

/-- Nothing of the other rails, of the channels or of the engines is reached. -/
structure OneRail (s t : State) (r : Rail) : Prop where
  rails : ∀ k : Rail, k ≠ r → t.rail[k] = s.rail[k]
  chan : t.chan = s.chan
  eng : t.eng = s.eng

theorem OneRail.of_mod {t : State} (h : OnRails s t) {f : RailSt → RailSt} (hr : t.rail = upd s.rail r f) : OneRail s t r :=
  ⟨fun k hk => by simp only [hr, upd_other _ _ _ _ hk], h.chan, h.eng⟩

theorem rail_of_mod {t : State} {f : RailSt → RailSt} (hr : t.rail = upd s.rail r f) : t.rail[r] = f s.rail[r] := by
  simp only [hr, upd_same]

theorem OneRail.raise {t : State} (h : OneRail s t r) (c : BitVec 16) (k : BitVec 2) (d : W32) : OneRail s (t.raise c k d) r :=
  ⟨fun k hk => by simp only [State.raise_rail]; exact h.rails k hk, (State.raise_chan ..).trans h.chan, (State.raise_eng ..).trans h.eng⟩

theorem OneRail.raiseLimited {t : State} (h : OneRail s t r) (c : BitVec 16) (k : BitVec 2) (d : W32) (u i : Nat) : OneRail s (t.raiseLimited c k d u i) r :=
  ⟨fun k hk => by simp only [State.raiseLimited_rail]; exact h.rails k hk, (State.raiseLimited_chan ..).trans h.chan,
    (State.raiseLimited_eng ..).trans h.eng⟩

theorem OneRail.put {t : State} (h : OneRail s t r) (f : Fld) (v : Nat) : OneRail s (t.put f v) r := ⟨h.rails, h.chan, h.eng⟩

/-- The counters of a rail lie apart from the registers that the rails show and that an event writes. -/
theorem railCnt_apart (r : Rail) : R.RAIL_CNT r ∉ railRegs ∧ R.RAIL_CNT r ≠ R.HP_EVT_CFG_F0_EN.addr := by
  revert r
  decide

theorem railStat_apart (r : Rail) : R.RAIL_STAT r ∉ eventRegs ∧ R.RAIL_STAT r ≠ R.RAIL_CNT r ∧ R.RAIL_STAT r ≠ R.HP_EVT_CFG_F0_EN.addr := by
  revert r
  decide

theorem raiseLimited_railState {t : State} (c : BitVec 16) (k : BitVec 2) (d : W32) (u i : Nat) :
    (t.raiseLimited c k d u i).railState r = t.railState r := by
  exact congrArg (fieldOf · (R.RAIL_STAT_STATE r)) (State.raiseLimited_reg t c k d u i (R.RAIL_STAT r) (railStat_apart r).1)

/-- An event that may be raised now is stored. -/
theorem Grows.stored_limited {t : State} (hr : s.Room) (h : Grows s t 0) (hhp : t.hp.rate = s.hp.rate) (c : BitVec 16) (k : BitVec 2) (d : W32) (u i : Nat)
    (hmay : s.mayRaise c u i = true) : Stored s (t.raiseLimited c k d u i) c k d := by
  have htick : t.now = s.now := congrArg BitVec.toNat h.tick
  have hm : t.mayRaise c u i = true := by rwa [State.mayRaise, hhp, htick]
  obtain ⟨l, hl⟩ := State.raiseLimited_may c k d u i hm
  rw [hl]
  have hmod : Grows s (t.modHp fun h => { h with rate := l }) 0 := h.same rfl rfl rfl
  exact hmod.stored hr (by decide) _ _ _ {}

end Lone

/-! Ramps, hiccups, windows and stops -/

section Starts

variable {s : State} {r : Rail}

/-- A rail's record at the start of a ramp from a measured output. -/
def RailSt.ramped (x : RailSt) (mv wall : Nat) : RailSt :=
  { x with refMv := mv, refAt := wall, hicUntil := none, depMetAt := none, discharge := false, lowSide := false }

theorem railRamp_rail (mv : Nat) : (s.railRamp r mv).rail = upd s.rail r fun x => x.ramped mv s.tick.wall :=
  setRailState_rail (s := s.modRail r fun x => x.ramped mv s.tick.wall) 2

theorem railRamp_onRails (s : State) (r : Rail) (mv : Nat) : OnRails s (s.railRamp r mv) :=
  ((OnRails.refl s).modRail r _).trans (setRailState_onRails _ r 2)

theorem railRamp_state (h : s.phase2Of r = none) (mv : Nat) : (s.railRamp r mv).railState r = 2 :=
  setRailState_state ((((OnRails.refl s).modRail r _).phase2Of r).trans h) (by decide)

/-- A rail's record at the start of its window. -/
def RailSt.opened (x : RailSt) (wall : Nat) (g : BitVec 11) : RailSt :=
  { x with windowFrom := some wall, expired := false, startedWith := g, inBand := 0, uvW := 0, ovW := 0, uvF := 0, ovF := 0 }

theorem railStart_rail (mv : Nat) :
    (s.railStart r mv).rail = upd s.rail r fun x => (x.ramped mv s.tick.wall).opened s.tick.wall (s.goodDeps r) := by
  have h : (s.railStart r mv).rail = upd (s.railRamp r mv).rail r fun x => x.opened s.tick.wall (s.goodDeps r) := rfl
  rw [h, railRamp_rail, upd_upd]

theorem railStart_onRails (s : State) (r : Rail) (mv : Nat) : OnRails s (s.railStart r mv) := (railRamp_onRails s r mv).modRail r _

theorem exec_railStart_some (mv n : Nat) (hn : s.rail[r].depMetAt = some n) (h1 : s.railState r = 1) (hk : s.keepRuns = true)
    (ha : s.seqr.active = true) (hstop : s.stopping = false) (hf : s.mode.fault = false) : exec (.railStart r mv) s =
      if n + s.railGet (R.RAIL_DEP_DELAY_MS r) * ticksPerMs ≤ s.tick.wall then .next (s.railStart r mv) else .next s := by
  rw [exec_railStart, execRailStart.eq_def, hn]
  dsimp only
  rw [h1, hk, ha, hstop, hf]
  simp only [decide_true, Bool.not_false, Bool.and_self, Bool.true_or, Bool.true_and, decide_eq_true_eq]

theorem railHiccupEnd_ramps (n mv : Nat) (hn : s.rail[r].hicUntil = some n) (hw : n ≤ s.tick.wall) (h4 : s.railState r = 4) :
    exec (.railHiccupEnd r mv) s = .next (s.railRamp r mv) := by
  rw [exec_railHiccupEnd, execRailHiccupEnd.eq_def, hn]
  dsimp only
  exact if_pos (by rw [h4, decide_eq_true hw]; rfl)

/-- A rail's record in a hiccup. -/
def RailSt.hiccup (x : RailSt) (till : Nat) : RailSt := { x with hicUntil := some till, inBand := 0, uvW := 0 }

/-- The state of a hiccup, before its count and event. -/
def State.hiccups (s : State) (r : Rail) : State :=
  (s.setRailState r 4).modRail r fun x => x.hiccup (s.tick.wall + s.railGet (R.RAIL_HIC_OFF_MS r) * ticksPerMs)

theorem railHiccup_stops (h3 : s.railState r = 3) (hf : s.follows r = false) : exec (.railHiccup r) s =
    .next (((s.hiccups r).count (R.RAIL_CNT_HICCUPS r)).raiseLimited 0x0807 0 (BitVec.ofNat 32 r.val) r.val) := by
  rw [exec_railHiccup, execRailHiccup]
  dsimp only
  rw [h3, hf]
  rfl

theorem hiccups_rail : (s.hiccups r).rail = upd s.rail r fun x =>
    x.hiccup (s.tick.wall + s.railGet (R.RAIL_HIC_OFF_MS r) * ticksPerMs) := by
  rw [State.hiccups, State.modRail, setRailState_rail]

theorem hiccups_onRails (s : State) (r : Rail) : OnRails s (s.hiccups r) := (setRailState_onRails s r 4).modRail r _

/-- A rail's record when its start window has expired. -/
def RailSt.late (x : RailSt) : RailSt := { x with windowFrom := none, expired := true }

/-- The state after an expired start window, before its event. -/
def State.windowLate (s : State) (r : Rail) : State :=
  ((s.modRail r RailSt.late).put ⟨R.RAIL_FAILED, r.val, 1⟩ 1).putFlag (R.RAIL_STAT_FAILED r) true

theorem railWindowExpiry_fails (n : Nat) (hn : s.rail[r].windowFrom = some n) (hg : s.railGood r = false)
    (hw : n + s.railGet (R.RAIL_DEP_WINDOW_MS r) * ticksPerMs ≤ s.tick.wall) :
    exec (.railWindowExpiry r) s = .next ((s.windowLate r).raise 0x0801 2 (BitVec.ofNat 32 r.val)) := by
  rw [exec_railWindowExpiry, execRailWindowExpiry.eq_def, hn]
  dsimp only
  exact if_pos (by rw [hg, decide_eq_true hw]; rfl)

theorem railStopped_off (h5 : s.railState r = 5) (h0 : s.rail[r].refMv = 0) (hat : s.rail[r].refAt ≤ s.tick.wall)
    (hlow : s.rail[r].vout * 10 < s.railSet r) (hstop : s.stopping = false) : exec (.railStopped r) s = .next (s.railOffNow r) := by
  rw [exec_railStopped, execRailStopped]
  dsimp only
  have hset : ¬ s.railSet r = 0 := by omega
  rw [h5, h0, if_neg hset, Nat.zero_mul, Nat.zero_mul, Nat.zero_div, Nat.add_zero, decide_eq_true hat, decide_eq_true hlow]
  have hstill : (s.railOffNow r).stopping = false := ((railOffNow_onRails s r).flag (by decide)).trans hstop
  refine (if_pos rfl).trans ?_
  rw [hstill]
  rfl

theorem railStop_running (h3 : s.railState r = 3) (h : s.phase2Of r = none) : (s.railStop r).railState r = 5 ∧ (s.railStop r).railGood r = false := by
  have hre : (s.setGood r false).phase2Of r = none := ((setGood_onRails s r false).phase2Of r).trans h
  unfold State.railStop
  dsimp only
  rw [h3]
  exact ⟨setRailState_state hre (by decide), (setRailState_good hre 5).trans (setGood_good h false)⟩

theorem phase2Of_zero (hp : s.pair01 = false) : s.phase2Of 0 = none := by
  unfold State.phase2Of
  rw [hp]
  rfl

theorem hostHoldExpiry_stops (n : Nat) (hn : s.seqr.othersAt = some n) (hstop : s.stopping = true) (hk : s.keepRuns = true)
    (hp : s.pair01 = false) (hw : n + s.get R.SEQ_CFG_HOST_HOLD * 2000000 ≤ s.tick.wall) (h3 : s.railState 0 = 3) :
    exec .hostHoldExpiry s = .next (s.railStop 0) := by
  have h5 : (s.railStop 0).railState 0 = 5 := (railStop_running h3 (phase2Of_zero hp)).1
  have hnot : (s.railStop 0).notStopped 0 = true := by
    rw [State.notStopped, h5]
    exact Bool.or_true _
  have hmul : s.get R.SEQ_CFG_HOST_HOLD * 10 * ticksPerMs = s.get R.SEQ_CFG_HOST_HOLD * 2000000 := Nat.mul_assoc _ 10 ticksPerMs
  rw [exec_hostHoldExpiry, execHostHoldExpiry.eq_def, hn]
  dsimp only
  rw [hstop, hk, hmul, decide_eq_true hw, hnot]
  rfl

theorem railStopOrder_begins (m : Move) (l : List Mode) (hm : s.mode.move = some m) (hh : m.hops = .standby :: l)
    (hstop : s.stopping = false) (hk : s.keepRuns = true) (hf : s.mode.fault = false) (hd : s.seqr.stopDone = false) :
    exec .railStopOrder s = .next s.stopOrder := by
  rw [exec_railStopOrder, execRailStopOrder.eq_def, hm]
  dsimp only
  rw [hh, hstop, hk, hf, hd]
  rfl

theorem stopOrder_shows : s.stopOrder.flag R.SEQ_STAT_STOPPING = true ∧ s.stopOrder.flag R.SEQ_STAT_SEQ_OUT = false := by
  obtain ⟨u, hu⟩ : ∃ u, u = (s.putFlag R.SEQ_STAT_SEQ_OUT false).putFlag R.SEQ_STAT_STOPPING true := ⟨_, rfl⟩
  have hord : s.stopOrder = ({ u with seqr := { u.seqr with stopDone := false, othersAt := none } } : State).stopAdvance := hu ▸ rfl
  have hadv := stopAdvance_onRails { u with seqr := { u.seqr with stopDone := false, othersAt := none } }
  rw [hord, hadv.flag (by decide), hadv.flag (by decide)]
  show u.flag _ = _ ∧ u.flag _ = _
  rw [hu, State.flag_putFlag_near _ _ _ (by decide), State.flag_putFlag_far _ _ _ _ (by decide), State.flag_putFlag_near _ _ _ (by decide)]
  exact ⟨rfl, rfl⟩

end Starts

/-- Settles O49: each event of a rail reaches that rail alone, and a stop of all rails and a write of ON begin as the rules say. -/
theorem railsStartAndStop : Obligations.RailsStartAndStop := by
  unfold Obligations.RailsStartAndStop
  intro s r hlone
  refine ⟨fun n mv hn h1 hk ha hstop hf => ⟨fun hw => ?_, fun hw => ?_⟩, fun h3 hfol => ?_, fun n mv hn hw h4 => ?_, fun n hn hg hw => ?_,
    fun h5 h0 hat hlow hstop => ?_, fun m l hm hh hstop hk hf hd => ?_, fun n hn hstop hk hp hw h3 => ?_, fun hw on => ?_⟩
  · refine ⟨s.railStart r mv, (exec_railStart_some mv n hn h1 hk ha hstop hf).trans (if_pos hw), railRamp_state hlone mv, ?_⟩
    rw [rail_of_mod (railStart_rail mv)]
    have hone := OneRail.of_mod (railStart_onRails s r mv) (railStart_rail mv)
    exact ⟨rfl, rfl, rfl, rfl, rfl, hone.rails, hone.chan, hone.eng⟩
  · exact (exec_railStart_some mv n hn h1 hk ha hstop hf).trans (if_neg (Nat.not_le.mpr hw))
  · obtain ⟨u, hu⟩ : ∃ u, u = (s.hiccups r).count (R.RAIL_CNT_HICCUPS r) := ⟨_, rfl⟩
    have hon := hiccups_onRails s r
    have hone : OneRail s u r := hu ▸ (OneRail.of_mod hon hiccups_rail).put _ _
    have hmod := hone.raiseLimited 0x0807 0 (BitVec.ofNat 32 r.val) r.val ticksPerS
    refine ⟨u.raiseLimited 0x0807 0 (BitVec.ofNat 32 r.val) r.val, hu ▸ railHiccup_stops h3 hfol, ?_, ?_, ⟨hmod.rails, hmod.chan, hmod.eng⟩, ?_⟩
    · rw [raiseLimited_railState, hu, State.railState, State.get_count_far _ _ _ _ (.inl (railStat_apart r).2.1.symm)]
      exact setRailState_state hlone (by decide)
    · simp only [State.raiseLimited_rail, hu, State.count_rail]
      exact congrArg RailSt.hicUntil (rail_of_mod hiccups_rail)
    · intro hmay hr
      subst hu
      exact Grows.stored_limited hr (hon.grows.count (railCnt_apart r).2 1) (congrArg HostPort.rate hon.hp) _ _ _ _ _ hmay
  · refine ⟨s.railRamp r mv, railHiccupEnd_ramps n mv hn hw h4, railRamp_state hlone mv, ?_⟩
    rw [rail_of_mod (railRamp_rail mv)]
    have hone := OneRail.of_mod (railRamp_onRails s r mv) (railRamp_rail mv)
    exact ⟨rfl, rfl, hone.rails, hone.chan, hone.eng⟩
  · have hmod : OnRails s (s.modRail r RailSt.late) := (OnRails.refl s).modRail r _
    have hone : OneRail s (s.windowLate r) r := ((OneRail.of_mod hmod rfl).put _ _).put _ _
    have hall := hone.raise 0x0801 2 (BitVec.ofNat 32 r.val)
    refine ⟨_, railWindowExpiry_fails n hn hg hw, ?_, ?_, ⟨hall.rails, hall.chan, hall.eng⟩, fun hr => ?_⟩
    · simp only [State.raise_rail]
      exact rail_of_mod (f := RailSt.late) rfl
    · rw [State.raise_flag_far _ _ _ _ _ (railStat_apart r).1]
      exact State.flag_putFlag_near _ _ _ ⟨Nat.le_of_ble_eq_true rfl, rfl⟩
    · exact ((hmod.grows.put (f := ⟨R.RAIL_FAILED, r.val, 1⟩) (by exact (by decide : R.RAIL_FAILED ≠ R.HP_EVT_CFG_F0_EN.addr)) 1).putFlag (railStat_apart r).2.2 true).stored hr (by decide) _ _ _ {}
  · obtain ⟨hs, hg⟩ := railOffNow_state hlone
    refine ⟨s.railOffNow r, railStopped_off h5 h0 hat hlow hstop, hs, hg, ?_⟩
    rw [rail_of_mod railOffNow_rail]
    have hone := OneRail.of_mod (railOffNow_onRails s r) railOffNow_rail
    exact ⟨rfl, hone.rails, hone.chan, hone.eng⟩
  · exact ⟨_, railStopOrder_begins m l hm hh hstop hk hf hd, stopOrder_shows⟩
  · obtain ⟨h5, hg⟩ := railStop_running h3 (phase2Of_zero hp)
    exact ⟨_, hostHoldExpiry_stops n hn hstop hk hp hw h3, h5, hg, ((railStop_onRails s 0).flag (by decide)).trans hstop⟩
  · exact if_pos hw

end Sys2Proof.Machine
end

section
/-! PROOFS. Rails are good, warn and fault by their runs of samples (R355 to R358, R363, Tables 13.2 and 13.3). -/

namespace Sys2Proof.Machine

/-! One sample of a rail that is off -/

section Sample

variable {s t u : State} {q r : Rail}

/-- An element whose turn in the list comes once, and which no other turn reaches. -/
theorem forAll_once {α : Type} {f : α → State → State} {P Q : State → Prop} {a : α} (hbefore : ∀ b t, b ≠ a → P t → P (f b t))
    (hturn : ∀ t, P t → Q (f a t)) (hafter : ∀ b t, b ≠ a → Q t → Q (f b t)) {l : List α} (hl : l.Nodup) (ha : a ∈ l) {s : State} (hs : P s) :
    Q (forAll l f s) := by
  have rest (l : List α) (hn : a ∉ l) (s : State) (hs : Q s) : Q (forAll l f s) := by
    induction l generalizing s with
    | nil => exact hs
    | cons b l ih => exact ih (fun h => hn (List.mem_cons_of_mem b h)) _ (hafter b s (fun e => hn (e ▸ List.mem_cons_self)) hs)
  induction l generalizing s with
  | nil => exact absurd ha List.not_mem_nil
  | cons b l ih =>
    obtain ⟨hb, hl⟩ := List.nodup_cons.mp hl
    by_cases e : b = a
    · subst e
      exact rest l hb _ (hturn s hs)
    · exact ih hl ((List.mem_cons.mp ha).resolve_left (Ne.symm e)) (hbefore b s e hs)

/-- The turn of another rail leaves a rail and its registers alone. -/
structure RailApart (r : Rail) (s t : State) : Prop where
  on : OnRails s t
  rail : t.rail[r] = s.rail[r]
  stat : t.reg (R.RAIL_STAT r) = s.reg (R.RAIL_STAT r)
  seqr : t.seqr = s.seqr

theorem RailApart.refl (r : Rail) (s : State) : RailApart r s s := ⟨.refl s, rfl, rfl, rfl⟩

theorem RailApart.modRail (h : RailApart r s t) (hq : q ≠ r) (f : RailSt → RailSt) : RailApart r s (t.modRail q f) :=
  ⟨h.on.modRail q f, (upd_other _ _ _ _ hq.symm).trans h.rail, h.stat, h.seqr⟩

theorem stat_inj (hq : q ≠ r) : R.RAIL_STAT r ≠ R.RAIL_STAT q := by
  revert q r
  decide

theorem RailApart.put (h : RailApart r s t) (hq : q ≠ r) {f : Fld} (hf : f.addr = R.RAIL_STAT q) (v : Nat) : RailApart r s (t.put f v) :=
  ⟨h.on.put (hf ▸ stat_mem q) v, h.rail, (State.reg_put_far _ _ _ _ (hf ▸ stat_inj hq)).trans h.stat, h.seqr⟩

theorem follows_of_phase2 {k : Rail} (h : s.phase2Of q = some k) : s.follows k = true := by
  unfold State.phase2Of at h
  split at h
  · cases h
    simp_all [State.follows]
  · split at h
    · cases h
      simp_all [State.follows]
    · cases h

theorem OnRails.follows (h : OnRails s t) (r : Rail) : t.follows r = s.follows r := by
  simp only [State.follows, h.pair01, h.pair23]

theorem RailApart.setRailState (h : RailApart r s t) (hq : q ≠ r) (hf : s.follows r = false) (st : Nat) : RailApart r s (t.setRailState q st) := by
  unfold State.setRailState
  extract_lets one t1
  have hone {t : State} {k : Rail} (h : RailApart r s t) (hk : k ≠ r) : RailApart r s (one k t) := (h.put hk rfl st).put hk rfl _
  have h1 : RailApart r s t1 := hone h hq
  split
  next k hk =>
    refine hone (h1.put hq rfl _) fun e => ?_
    have : s.follows r = true := by rw [← h1.on.follows, ← e]; exact follows_of_phase2 hk
    exact absurd (this.symm.trans hf) (by decide)
  · exact h1.put hq rfl _

theorem RailApart.superviseOne (h : RailApart r s t) (hq : q ≠ r) (hf : s.follows r = false) (v : Nat) :
    RailApart r s (t.superviseOne q v) := by
  unfold State.superviseOne
  extract_lets t1 set t2 st uu below above bw aw t3
  have h1 : RailApart r s t1 := h.modRail hq _
  have h2 : RailApart r s t2 := by
    unfold t2
    split
    · exact h1.setRailState hq hf 3
    · exact h1
  have h3 : RailApart r s t3 := h2.modRail hq _
  split
  · exact h2
  · split
    · exact h2.modRail hq _
    · split
      · exact h2
      · split
        · exact ((h3.put hq rfl _).put hq rfl _).put hq rfl _
        · exact h3

/-- The sample of a rail that is off is only measured. -/
theorem superviseOne_off (h0 : t.railState r = 0) (v : Nat) : t.superviseOne r v = t.modRail r fun x => { x with vout := v } := by
  unfold State.superviseOne
  extract_lets t1 set t2 st
  have h2 : t2 = t1 := if_neg (by rw [show t1.railState r = 0 from h0]; exact Bool.false_ne_true)
  have hst : st = 0 := (congrArg (fun u : State => u.railState r) h2).trans h0
  split
  · exact h2
  · rw [if_neg (by rw [hst]; decide), if_pos]
    · exact h2
    · rw [State.railUp, show t2.railState r = 0 from hst]
      rfl

/-- The record of a rail after a sample. -/
def RailSt.sampled (x : RailSt) (v : Nat) (i : Int) (drop : Nat) : RailSt :=
  { x with vout := v, vSum := x.vSum + v, iSum := x.iSum + i, iNow := i, iLow := if i < drop * 1000 then x.iLow + 1 else 0 }

/-- What a sample shows of a rail that is off, its record aside. -/
structure RailOff (r : Rail) (s t : State) : Prop where
  drop : t.get (R.RAIL_SHED_DROP_MA r) = s.get (R.RAIL_SHED_DROP_MA r)
  state : t.railState r = 0
  follows : t.follows r = false
  nSum : t.seqr.nSum = s.seqr.nSum

theorem shed_apart (r : Rail) : (R.RAIL_SHED_DROP_MA r).addr ∉ railRegs := by
  revert r
  decide

theorem RailOff.apart (h : RailOff r s t) (g : RailApart r t u) : RailOff r s u :=
  ⟨(g.on.get (shed_apart r)).trans h.drop, (congrArg (fieldOf · (R.RAIL_STAT_STATE r)) g.stat).trans h.state, (g.on.follows r).trans h.follows,
    (congrArg SeqRail.nSum g.seqr).trans h.nSum⟩

theorem railSamples_off (h0 : s.railState r = 0) (hf : s.follows r = false) (vout : List Nat) (iout : List Int) :
    (s.railSamples vout iout).rail[r] = s.rail[r].sampled (vout.getD r.val 0) (iout.getD r.val 0) (s.get (R.RAIL_SHED_DROP_MA r)) ∧
      (s.railSamples vout iout).seqr.nSum = s.seqr.nSum + 1 := by
  obtain ⟨f, hfun⟩ : ∃ f : Rail → State → State, f = fun r t => (t.superviseOne r (vout.getD r.val 0)).modRail r fun x =>
      x.add (vout.getD r.val 0) (iout.getD r.val 0) (t.get (R.RAIL_SHED_DROP_MA r)) := ⟨_, rfl⟩
  have hother (b : Rail) (t : State) (hb : b ≠ r) (hoff : t.follows r = false) : RailApart r t (f b t) := by
    rw [hfun]
    exact ((RailApart.refl r t).superviseOne hb hoff _).modRail hb _
  have hself (t : State) (hoff : RailOff r s t) (hr : t.rail[r] = s.rail[r]) : RailOff r s (f r t) ∧
      (f r t).rail[r] = s.rail[r].sampled (vout.getD r.val 0) (iout.getD r.val 0) (s.get (R.RAIL_SHED_DROP_MA r)) := by
    rw [hfun]
    dsimp only
    rw [superviseOne_off hoff.state, hoff.drop]
    refine ⟨⟨hoff.drop, hoff.state, hoff.follows, hoff.nSum⟩, ?_⟩
    have h2 : ((t.modRail r fun x => { x with vout := vout.getD r.val 0 }).modRail r fun x =>
        x.add (vout.getD r.val 0) (iout.getD r.val 0) (s.get (R.RAIL_SHED_DROP_MA r))).rail =
        upd t.rail r fun x => x.sampled (vout.getD r.val 0) (iout.getD r.val 0) (s.get (R.RAIL_SHED_DROP_MA r)) := by
      refine (upd_upd t.rail r (fun x => { x with vout := vout.getD r.val 0 }) (fun x =>
        x.add (vout.getD r.val 0) (iout.getD r.val 0) (s.get (R.RAIL_SHED_DROP_MA r)))).trans ?_
      congr 1
      funext x
      simp only [RailSt.add, RailSt.sampled, runLen, decide_eq_true_eq]
    rw [rail_of_mod h2, hr]
  have hall := forAll_once (f := f) (a := r) (l := allRails) (s := s) (P := fun t => RailOff r s t ∧ t.rail[r] = s.rail[r])
    (Q := fun t => RailOff r s t ∧ t.rail[r] = s.rail[r].sampled (vout.getD r.val 0) (iout.getD r.val 0) (s.get (R.RAIL_SHED_DROP_MA r)))
    (fun b t hb h => ⟨h.1.apart (hother b t hb h.1.follows), (hother b t hb h.1.follows).rail.trans h.2⟩)
    (fun t h => hself t h.1 h.2)
    (fun b t hb h => ⟨h.1.apart (hother b t hb h.1.follows), (hother b t hb h.1.follows).rail.trans h.2⟩)
    (List.nodup_finRange _) (List.mem_finRange r) ⟨⟨rfl, h0, hf, rfl⟩, rfl⟩
  obtain ⟨hoff, hrail⟩ := hall
  have hdef : s.railSamples vout iout = { forAll allRails f s with seqr := { (forAll allRails f s).seqr with nSum := (forAll allRails f s).seqr.nSum + 1 } } :=
    hfun ▸ rfl
  rw [hdef]
  exact ⟨hrail, congrArg (· + 1) hoff.nSum⟩

end Sample

/-! Good, warnings and faults -/

section Judged

variable {s t : State} {r : Rail}

/-- The event of a source that has not had its event, or is told again, is stored. -/
theorem Grows.stored_fresh (hr : s.Room) (h : Grows s t 0) (i : Fin 128) (c : BitVec 16) (k : BitVec 2) (d : W32)
    (hfresh : t.flt.active.contains i = false ∨ t.flt.told.contains i = true) : Stored s (t.raiseSrc i c k d) c k d := by
  have hdone : (t.flt.active.contains i && !t.flt.told.contains i) = false := by
    rcases hfresh with h | h <;> rw [h]
    · rfl
    · exact Bool.and_false _
  unfold State.raiseSrc
  dsimp only
  rw [hdone, Bool.false_and, if_neg Bool.false_ne_true]
  refine Grows.stored hr ?_ (by decide : 0 < 8) c k d _
  exact h.same rfl rfl rfl

theorem railSupervisionSample_samples (vout : List Nat) (iout : List Int) (hm : s.mode.mode ≠ .ship)
    (hp : ∀ k, s.pace.rails = some k → k + 2000 ≤ s.tick.wall) (hn : s.seqr.nSum < 99) (h0 : s.railState r = 0) (hf : s.follows r = false) :
    ∃ t, exec (.railSupervisionSample vout iout) s = .next t ∧ t.seqr.nSum = s.seqr.nSum + 1 ∧
      t.rail[r] = s.rail[r].sampled (vout.getD r.val 0) (iout.getD r.val 0) (s.get (R.RAIL_SHED_DROP_MA r)) := by
  have hpaced : s.paced s.pace.rails (10 * ticksPerUs) = true := (Option.all_eq_true _ _).mpr fun k hk => decide_eq_true (hp k hk)
  obtain ⟨u, hu⟩ : ∃ u : State, u = { s with pace := { s.pace with rails := some s.tick.wall } } := ⟨_, rfl⟩
  have h0' : u.railState r = 0 := hu ▸ h0
  have hf' : u.follows r = false := hu ▸ hf
  obtain ⟨hrail, hsum⟩ := railSamples_off h0' hf' vout iout
  have hdrop : u.get (R.RAIL_SHED_DROP_MA r) = s.get (R.RAIL_SHED_DROP_MA r) := hu ▸ rfl
  have hrec : u.rail[r] = s.rail[r] := hu ▸ rfl
  have hnum : u.seqr.nSum = s.seqr.nSum := hu ▸ rfl
  rw [hdrop, hrec] at hrail
  rw [hnum] at hsum
  refine ⟨u.railSamples vout iout, ?_, hsum, hrail⟩
  rw [exec_railSupervisionSample, execRailSupervisionSample, if_neg (by simp [hm, hpaced])]
  dsimp only
  rw [← hu, if_neg (by omega)]

/-- A rail's good state, before its event. -/
def State.railGoodNow (s : State) (r : Rail) : State := (s.setGood r true).modRail r fun x => { x with windowFrom := none }

theorem exec_railGood_now (h3 : s.railState r = 3) (hb : 10 ≤ s.rail[r].inBand) (hg : s.railGood r = false) (hf : s.follows r = false) :
    exec (.railGood r) s = .next ((s.railGoodNow r).raise 0x0800 0 (BitVec.ofNat 32 r.val)) := by
  rw [exec_railGood, execRailGood]
  exact if_pos (by rw [h3, decide_eq_true hb, hg, hf]; rfl)

theorem railGoodNow_shows (h : s.phase2Of r = none) : (s.railGoodNow r).railGood r = true ∧ (s.railGoodNow r).get ⟨R.RAIL_GOOD, r.val, 1⟩ = 1 ∧
    (s.railGoodNow r).rail[r] = { s.rail[r] with windowFrom := none } := by
  refine ⟨setGood_good h true, ?_, rail_of_mod (f := fun x => { x with windowFrom := none }) ?_⟩
  · have hget : (s.railGoodNow r).get ⟨R.RAIL_GOOD, r.val, 1⟩ = (s.setGood r true).get ⟨R.RAIL_GOOD, r.val, 1⟩ := rfl
    rw [hget, setGood_lone h]
    exact State.get_put_near _ _ _ (by dsimp only; omega)
  · rw [State.railGoodNow, State.modRail, setGood_rail]

theorem railGoodNow_onRails : OnRails s (s.railGoodNow r) := (setGood_onRails s r true).modRail r _

theorem raise_railGood (c : BitVec 16) (k : BitVec 2) (d : W32) : (t.raise c k d).railGood r = t.railGood r :=
  State.raise_flag_far _ _ _ _ _ (railStat_apart r).1

/-! Warnings -/

theorem railWarn_shows {bit : Fld} {code : BitVec 16} (ha : bit.addr = R.RAIL_STAT r) (hw : bit.w = 1) (hlo : 3 ≤ bit.lo ∧ bit.lo + 1 ≤ 32) :
    (s.railWarn r bit code).flag bit = true ∧ (s.railWarn r bit code).rail = s.rail ∧ (s.railWarn r bit code).railState r = s.railState r ∧
      (s.mayRaise code r.val 200000000 = true → s.Room → Stored s (s.railWarn r bit code) code 0 (BitVec.ofNat 32 r.val)) := by
  obtain ⟨hlo, hhi⟩ := hlo
  have hcnt : (R.RAIL_CNT_WARNS r).addr ≠ bit.addr := ha ▸ (railStat_apart r).2.1.symm
  refine ⟨?_, ?_, ?_, fun hmay hr => ?_⟩
  · have hreg : (s.railWarn r bit code).reg bit.addr = ((s.putFlag bit true).count (R.RAIL_CNT_WARNS r)).reg bit.addr :=
      State.raiseLimited_reg _ _ _ _ _ _ _ (ha ▸ (railStat_apart r).1)
    have hflag : (s.railWarn r bit code).flag bit = ((s.putFlag bit true).count (R.RAIL_CNT_WARNS r)).flag bit := by
      simp only [State.flag, State.get, hreg]
    rw [hflag, State.flag_count_far _ _ _ _ (.inl hcnt), State.flag_putFlag_near _ _ _ ⟨by omega, hw⟩]
  · simp only [State.railWarn, State.raiseLimited_rail, State.count_rail, State.putFlag_rail]
  · rw [State.railWarn, raiseLimited_railState, State.railState, State.get_count_far _ _ _ _ (.inl (railStat_apart r).2.1.symm)]
    exact State.get_putFlag_far _ _ _ _ (.inr ⟨Nat.le_of_ble_eq_true rfl, .inl hlo⟩)
  · have hgrows : Grows s ((s.putFlag bit true).count (R.RAIL_CNT_WARNS r)) 0 :=
      ((Grows.refl s).putFlag (ha ▸ (railStat_apart r).2.2) true).count (railCnt_apart r).2 1
    exact Grows.stored_limited hr hgrows rfl _ _ _ _ _ hmay

/-! Faults -/

theorem railFaultOff_onRails (s : State) (r : Rail) : OnRails s (s.railFaultOff r) :=
  ((railOffNow_onRails s r).trans (setRailState_onRails _ r 6)).modRail r _

theorem railFaultOff_state (h : s.phase2Of r = none) : (s.railFaultOff r).railState r = 6 ∧ (s.railFaultOff r).railGood r = false ∧
    (s.railFaultOff r).rail[r].lowSide = decide (r.val < 8) := by
  have hre : (s.railOffNow r).phase2Of r = none := ((railOffNow_onRails s r).phase2Of r).trans h
  exact ⟨setRailState_state hre (by decide), (setRailState_good hre 6).trans (railOffNow_state h).2,
    congrArg RailSt.lowSide (upd_same ((s.railOffNow r).setRailState r 6).rail r fun x => { x with lowSide := r.val < 8, discharge := 8 ≤ r.val })⟩

theorem setRailState_uvFlt (h : s.phase2Of r = none) (st : Nat) : (s.setRailState r st).flag (R.RAIL_STAT_UV_FLT r) = s.flag (R.RAIL_STAT_UV_FLT r) := by
  rw [setRailState_lone h, State.flag_putFlag_far _ _ _ _ (.inr ⟨Nat.le_of_ble_eq_true rfl, .inr (Nat.le_of_ble_eq_true rfl)⟩),
    State.flag_putFlag_far _ _ _ _ (.inr ⟨Nat.le_of_ble_eq_true rfl, .inr (Nat.le_of_ble_eq_true rfl)⟩)]
  exact State.flag_put_far _ _ _ _ (.inr ⟨Nat.le_of_ble_eq_true rfl, .inr (Nat.le_of_ble_eq_true rfl)⟩)

theorem setGood_uvFlt (h : s.phase2Of r = none) (b : Bool) : (s.setGood r b).flag (R.RAIL_STAT_UV_FLT r) = s.flag (R.RAIL_STAT_UV_FLT r) := by
  rw [setGood_lone h, State.flag_put_far _ _ _ _ (.inl (stat_ne_good r).symm)]
  exact State.flag_putFlag_far _ _ _ _ (.inr ⟨Nat.le_of_ble_eq_true rfl, .inr (Nat.le_of_ble_eq_true rfl)⟩)

theorem railFaultOff_uvFlt (h : s.phase2Of r = none) : (s.railFaultOff r).flag (R.RAIL_STAT_UV_FLT r) = s.flag (R.RAIL_STAT_UV_FLT r) := by
  have hoff : (s.railOffNow r).phase2Of r = none := ((railOffNow_onRails s r).phase2Of r).trans h
  have hgood : (s.setGood r false).phase2Of r = none := ((setGood_onRails s r false).phase2Of r).trans h
  calc (s.railFaultOff r).flag (R.RAIL_STAT_UV_FLT r) = (s.railOffNow r).flag (R.RAIL_STAT_UV_FLT r) := setRailState_uvFlt hoff 6
    _ = (s.setGood r false).flag (R.RAIL_STAT_UV_FLT r) := setRailState_uvFlt hgood 0
    _ = s.flag (R.RAIL_STAT_UV_FLT r) := setGood_uvFlt h false

/-- The rail marked with an under-voltage fault and counted. -/
def State.uvMarked (s : State) (r : Rail) : State :=
  ((s.setGood r false).putFlag (R.RAIL_STAT_UV_FLT r) true).count (R.RAIL_CNT_FAULTS r)

theorem railUvFault_eq (hu : 100 ≤ s.rail[r].uvF) (hn : s.flag (R.RAIL_STAT_UV_FLT r) = false) : exec (.railUvFault r) s =
    .next (if (s.uvMarked r).railGet (R.RAIL_CFG_CRIT r) = 1 then ((s.uvMarked r).railFaultOff r).raiseSrc (railSrc r) 0x0805 3 (BitVec.ofNat 32 r.val)
      else (s.uvMarked r).raiseSrc (railSrc r) 0x0805 2 (BitVec.ofNat 32 r.val)) := by
  rw [exec_railUvFault, execRailUvFault]
  exact if_pos (by rw [hn, decide_eq_true hu]; rfl)

/-- What marking a rail with an under-voltage fault keeps and shows. -/
structure UvMarked (s t : State) (r : Rail) : Prop where
  crit : t.railGet (R.RAIL_CFG_CRIT r) = s.railGet (R.RAIL_CFG_CRIT r)
  good : t.railGood r = false
  bit : t.flag (R.RAIL_STAT_UV_FLT r) = true
  state : t.railState r = s.railState r
  lone : t.phase2Of r = none
  grows : Grows s t 0
  flt : t.flt = s.flt

theorem crit_apart (r : Rail) : (R.RAIL_CFG_CRIT r).addr ∉ railRegs ∧ (R.RAIL_CFG_CRIT r).addr ≠ R.RAIL_CNT r := by
  revert r
  decide

theorem glb_apart (r : Rail) : R.RAIL_GLB_PAIR01.addr ≠ R.RAIL_CNT r ∧ R.RAIL_GLB_PAIR23.addr ≠ R.RAIL_CNT r := by
  revert r
  decide

theorem uvMarked_marks (h : s.phase2Of r = none) : UvMarked s (s.uvMarked r) r := by
  obtain ⟨u, hu⟩ : ∃ u, u = (s.setGood r false).putFlag (R.RAIL_STAT_UV_FLT r) true := ⟨_, rfl⟩
  have hdef : s.uvMarked r = u.count (R.RAIL_CNT_FAULTS r) := hu ▸ rfl
  have hon : OnRails s u := hu ▸ (setGood_onRails s r false).putFlag (stat_mem r) true
  have hcnt {f : Fld} (hf : f.addr ≠ R.RAIL_CNT r) : (u.count (R.RAIL_CNT_FAULTS r)).get f = u.get f := State.get_count_far _ _ _ _ (.inl hf.symm)
  have hflag {f : Fld} (hf : f.addr ≠ R.RAIL_CNT r) : (u.count (R.RAIL_CNT_FAULTS r)).flag f = u.flag f := by simp only [State.flag, hcnt hf]
  have hstat := (railStat_apart r).2.1
  rw [hdef]
  refine ⟨?_, ?_, ?_, ?_, ?_, hon.grows.count (railCnt_apart r).2 1, hon.flt⟩
  · have hboot : (u.count (R.RAIL_CNT_FAULTS r)).seqr.boot38 = s.seqr.boot38 := hon.boot
    simp only [State.railGet, hboot, hcnt (crit_apart r).2, hon.get (crit_apart r).1]
  · rw [State.railGood, hflag hstat, hu, State.flag_putFlag_far _ _ _ _ (.inr ⟨Nat.le_of_ble_eq_true rfl, .inl (Nat.le_of_ble_eq_true rfl)⟩)]
    exact setGood_good h false
  · rw [hflag hstat, hu]
    exact State.flag_putFlag_near _ _ _ ⟨Nat.le_of_ble_eq_true rfl, rfl⟩
  · rw [State.railState, hcnt hstat, hu, State.get_putFlag_far _ _ _ _ (.inr ⟨Nat.le_of_ble_eq_true rfl, .inl (Nat.le_of_ble_eq_true rfl)⟩)]
    exact setGood_state h false
  · have hglb := glb_apart r
    have h01 : (u.count (R.RAIL_CNT_FAULTS r)).pair01 = u.pair01 := by
      simp only [State.pair01, hflag hglb.1, State.count_mode, State.count_seqr]
    have h23 : (u.count (R.RAIL_CNT_FAULTS r)).pair23 = u.pair23 := hflag hglb.2
    simp only [State.phase2Of, h01, h23]
    exact (hon.phase2Of r).trans h

theorem raiseSrc_rails (i : Fin 128) (c : BitVec 16) (k : BitVec 2) (d : W32) : (t.raiseSrc i c k d).railState r = t.railState r ∧
    (t.raiseSrc i c k d).railGood r = t.railGood r ∧ (t.raiseSrc i c k d).flag (R.RAIL_STAT_UV_FLT r) = t.flag (R.RAIL_STAT_UV_FLT r) :=
  ⟨State.raiseSrc_get_far _ _ _ _ _ _ _ (railStat_apart r).1, State.raiseSrc_flag_far _ _ _ _ _ _ _ (railStat_apart r).1,
    State.raiseSrc_flag_far _ _ _ _ _ _ _ (railStat_apart r).1⟩

/-- The state of an over-voltage fault before its event. -/
def State.ovMarked (s : State) (r : Rail) : State := (s.railFaultOff r).count (R.RAIL_CNT_FAULTS r)

theorem railOvFault_eq (ho : 2 ≤ s.rail[r].ovF) (hup : s.railUp r = true) : exec (.railOvFault r) s =
    .next ((s.ovMarked r).raiseSrc (railSrc r) 0x0806 3 (BitVec.ofNat 32 r.val)) := by
  rw [exec_railOvFault, execRailOvFault]
  exact if_pos (by rw [hup, decide_eq_true ho]; rfl)

theorem ovMarked_shows (h : s.phase2Of r = none) : (s.ovMarked r).railState r = 6 ∧ (s.ovMarked r).railGood r = false ∧
    (s.ovMarked r).rail[r].lowSide = decide (r.val < 8) ∧ Grows s (s.ovMarked r) 0 ∧ (s.ovMarked r).flt = s.flt := by
  obtain ⟨h6, hg, hlow⟩ := railFaultOff_state h
  have hon := railFaultOff_onRails s r
  have hstat : (R.RAIL_CNT_FAULTS r).addr ≠ R.RAIL_STAT r := (railStat_apart r).2.1.symm
  exact ⟨(State.get_count_far _ _ _ _ (.inl hstat)).trans h6, (State.flag_count_far _ _ _ _ (.inl hstat)).trans hg, hlow,
    hon.grows.count (railCnt_apart r).2 1, hon.flt⟩

/-! Light load and SEQ_IN -/

theorem lightLoadChange_bursts (enter : Bool) (hr : r.val < 8) (h3 : s.railState r = 3) (hf : s.follows r = false) (hlone : s.phase2Of r = none)
    (hl : s.railGet (R.RAIL_CFG_LIGHT r) ≠ 2) : exec (.lightLoadChange r enter) s = .next (s.putFlag (R.RAIL_STAT_BURST r) enter) := by
  rw [exec_lightLoadChange, execLightLoadChange]
  rw [h3, hf, hlone, decide_eq_false (Nat.not_le.mpr hr), decide_eq_false hl, if_neg (by decide)]
  exact if_neg (by rw [Option.isSome_none, Bool.and_false]; exact Bool.false_ne_true)

theorem seqinWaitExpiry_gives_up (n : Nat) (hn : s.seqr.step8From = some n) (hw : n + s.get R.SEQ_CFG_SEQIN_WAIT * 2000000 ≤ s.tick.wall)
    (hin : s.flag R.SEQ_STAT_SEQ_IN = false) (hover : s.seqr.waitOver = false) (hwant : s.railWanted r = true)
    (hdep : (s.depsOf r).contains 10 = true) : exec .seqinWaitExpiry s =
      .next ((({ s with seqr := { s.seqr with waitOver := true } } : State).putFlag R.SEQ_STAT_SEQIN_TMO true).raise 0x0802 0) := by
  have hasked : (allRails.any fun r => s.railWanted r && (s.depsOf r).contains 10) = true :=
    List.any_eq_true.mpr ⟨r, List.mem_finRange r, by rw [hwant, hdep]; rfl⟩
  have hmul : s.get R.SEQ_CFG_SEQIN_WAIT * 10 * ticksPerMs = s.get R.SEQ_CFG_SEQIN_WAIT * 2000000 := Nat.mul_assoc _ 10 ticksPerMs
  rw [exec_seqinWaitExpiry, execSeqinWaitExpiry.eq_def, hn]
  dsimp only
  rw [hmul, decide_eq_true hw, hasked, hin, hover]
  rfl

end Judged

/-- Settles O50: the runs of samples give good, the warnings and the faults; burst follows a light load, and SEQ_IN is shown or given up. -/
theorem railsAreSupervised : Obligations.RailsAreSupervised := by
  unfold Obligations.RailsAreSupervised
  intro s r hlone hf
  refine ⟨fun vout iout hm hp hn h0 => ?_, fun h3 hb hg => ?_, fun hu hn => ?_, fun ho hn => ?_, fun hu hn => ?_, fun ho hup => ?_,
    fun enter hr h3 hl => lightLoadChange_bursts enter hr h3 hf hlone hl, fun level hm => if_neg hm, fun n hn hw hin hover hwant hdep => ?_⟩
  · exact railSupervisionSample_samples vout iout hm hp hn h0 hf
  · obtain ⟨hgood, hbit, hrec⟩ := railGoodNow_shows hlone
    refine ⟨_, exec_railGood_now h3 hb hg hf, (raise_railGood ..).trans hgood, ?_, ?_, fun hr => ?_⟩
    · rw [State.raise_get_far _ _ _ _ _ (by exact (by decide : R.RAIL_GOOD ∉ eventRegs)), hbit]
    · simp only [State.raise_rail]
      exact hrec
    · exact railGoodNow_onRails.grows.stored hr (by decide) _ _ _ {}
  · obtain ⟨hbit, hrail, hstate, hev⟩ := railWarn_shows (s := s) (bit := R.RAIL_STAT_UV_WARN r) (code := 0x0803) rfl rfl ⟨Nat.le_of_ble_eq_true rfl, Nat.le_of_ble_eq_true rfl⟩
    exact ⟨_, if_pos (by rw [hn, decide_eq_true hu]; rfl), hbit, hrail, hstate, hev⟩
  · obtain ⟨hbit, hrail, hstate, hev⟩ := railWarn_shows (s := s) (bit := R.RAIL_STAT_OV_WARN r) (code := 0x0804) rfl rfl ⟨Nat.le_of_ble_eq_true rfl, Nat.le_of_ble_eq_true rfl⟩
    exact ⟨_, if_pos (by rw [hn, decide_eq_true ho]; rfl), hbit, hrail, hstate, hev⟩
  · have hmark := uvMarked_marks hlone
    have heq := railUvFault_eq hu hn
    rw [hmark.crit] at heq
    by_cases hc : s.railGet (R.RAIL_CFG_CRIT r) = 1
    · rw [if_pos hc] at heq
      obtain ⟨h6, hgood, -⟩ := railFaultOff_state hmark.lone
      have hon := railFaultOff_onRails (s.uvMarked r) r
      obtain ⟨hst, hgd, hbit⟩ := raiseSrc_rails (t := (s.uvMarked r).railFaultOff r) (r := r) (railSrc r) 0x0805 3 (BitVec.ofNat 32 r.val)
      refine ⟨_, heq, hgd.trans hgood, hbit.trans ((railFaultOff_uvFlt hmark.lone).trans hmark.bit), fun h => absurd hc h,
        fun _ => ⟨hst.trans h6, fun hfresh hr => ?_⟩⟩
      exact (hmark.grows.trans hon.grows).stored_fresh hr _ _ _ _ (by rwa [hon.flt, hmark.flt])
    · rw [if_neg hc] at heq
      obtain ⟨hst, hgd, hbit⟩ := raiseSrc_rails (t := s.uvMarked r) (r := r) (railSrc r) 0x0805 2 (BitVec.ofNat 32 r.val)
      refine ⟨_, heq, hgd.trans hmark.good, hbit.trans hmark.bit, fun _ => ⟨hst.trans hmark.state, fun hfresh hr => ?_⟩, fun h => absurd h hc⟩
      exact hmark.grows.stored_fresh hr _ _ _ _ (by rwa [hmark.flt])
  · obtain ⟨h6, hgood, hlow, hgrows, hflt⟩ := ovMarked_shows hlone
    obtain ⟨hst, hgd, -⟩ := raiseSrc_rails (t := s.ovMarked r) (r := r) (railSrc r) 0x0806 3 (BitVec.ofNat 32 r.val)
    refine ⟨_, railOvFault_eq ho hup, hst.trans h6, hgd.trans hgood, ?_, fun hfresh hr => hgrows.stored_fresh hr _ _ _ _ (by rwa [hflt])⟩
    simp only [State.raiseSrc_rail]
    exact hlow
  · refine ⟨_, seqinWaitExpiry_gives_up n hn hw hin hover hwant hdep, ?_, ?_, fun hr => ?_⟩
    · simp only [State.raise_seqr]
      rfl
    · rw [State.raise_flag_far _ _ _ _ _ (by decide)]
      exact State.flag_putFlag_near _ _ _ (by decide)
    · have h0 : Grows s { s with seqr := { s.seqr with waitOver := true } } 0 := .of_same rfl rfl rfl
      exact (h0.putFlag (by decide) true).stored hr (by decide) _ _ _ {}

end Sys2Proof.Machine
end

section
/-! PROOFS. The housekeeping sequence, calibration and path diagnosis (R374 to R381). -/

namespace Sys2Proof.Machine

/-! An entry of the sequence -/

section Entry

variable {s t u : State}

/-- The words of the sequence table and its results. -/
def InTable (a : Nat) : Prop := 0x2D00 ≤ a ∧ a < 0x2F00

theorem InTable.far {a b : Nat} (h : InTable a) (hb : b < 0x2D00 ∨ 0x2F00 ≤ b) : a ≠ b := by
  obtain ⟨hlo, hhi⟩ := h
  omega

theorem InTable.no_event {a : Nat} (h : InTable a) : a ∉ eventRegs := by
  have hall : ∀ x ∈ eventRegs, x < 0x2D00 ∨ 0x2F00 ≤ x := by decide
  exact fun hmem => h.far (hall a hmem) rfl

theorem inTable_cfg {k : Nat} (hk : k < 64) : InTable (R.HK_CFG k) := by
  unfold InTable R.HK_CFG
  omega

theorem inTable_res {k : Nat} (hk : k < 64) : InTable (R.HK_RES k) := by
  unfold InTable R.HK_RES
  omega

/-- What the taking of a result leaves alone: the sequence and its table. -/
structure TableKept (s t : State) : Prop where
  reg : ∀ a, InTable a → t.reg a = s.reg a
  hk : t.hk = s.hk

theorem TableKept.refl (s : State) : TableKept s s := ⟨fun _ _ => rfl, rfl⟩

theorem TableKept.trans (h : TableKept s t) (g : TableKept t u) : TableKept s u :=
  ⟨fun a ha => (g.reg a ha).trans (h.reg a ha), g.hk.trans h.hk⟩

theorem TableKept.setReg (h : TableKept s t) {a : Nat} (ha : a < 0x2D00 ∨ 0x2F00 ≤ a) (w : W32) : TableKept s (t.setReg a w) :=
  ⟨fun _ hb => (State.reg_setReg_far _ _ _ _ (hb.far ha)).trans (h.reg _ hb), h.hk⟩

theorem TableKept.put (h : TableKept s t) {f : Fld} (hf : f.addr < 0x2D00 ∨ 0x2F00 ≤ f.addr) (v : Nat) : TableKept s (t.put f v) :=
  h.setReg hf _

theorem TableKept.raise (h : TableKept s t) (c : BitVec 16) (k : BitVec 2) (d : W32) : TableKept s (t.raise c k d) :=
  ⟨fun _ hb => (State.raise_reg _ _ _ _ _ hb.no_event).trans (h.reg _ hb), (State.raise_hk ..).trans h.hk⟩

theorem TableKept.modDie (h : TableKept s t) (d : DieIx) (f : DieTh → DieTh) : TableKept s (t.modDie d f) := ⟨h.reg, h.hk⟩

theorem trimBlock_kept (s : State) (b : Nat) : TableKept s (s.trimBlock b).2 := by
  have hread (r : Option (List W32)) : TableKept s (({ s with free := s.free + 1 } : State).modOtp fun o => { o with trimRead := (b, r) :: o.trimRead }) :=
    ⟨fun _ _ => rfl, rfl⟩
  unfold State.trimBlock
  split
  · exact .refl s
  · dsimp only
    split
    · exact hread _
    · exact (((hread none).put (by decide) _).raise _ _ _)

theorem dieTemp_kept (s : State) (d code : Nat) : TableKept s (s.dieTemp d code).2 := by
  have h := trimBlock_kept s (min 126 (Config.trimPlace (4 + d)))
  unfold State.dieTemp
  dsimp only
  split
  · exact h
  · exact h.trans ⟨fun _ _ => rfl, rfl⟩

theorem sensorStep_kept (s : State) (d : DieIx) : TableKept s (s.sensorStep d) := by
  unfold State.sensorStep
  dsimp only
  split
  · have h : TableKept s (s.modDie d fun x => { x with sensor := true, temps := [], valid := false, warnRun := 0, warnClr := 0, tripRun := 0, holdFrom := none }) :=
      ⟨fun _ _ => rfl, rfl⟩
    exact (h.put (by decide) _).raise _ _ _
  · split
    · exact ⟨fun _ _ => rfl, rfl⟩
    · exact .refl s

theorem thmTemp_far (d : DieIx) : (if d.val % 2 = 0 then R.THM_TEMP_T_LO (d.val / 2) else R.THM_TEMP_T_HI (d.val / 2)).addr < 0x2D00 ∨
    0x2F00 ≤ (if d.val % 2 = 0 then R.THM_TEMP_T_LO (d.val / 2) else R.THM_TEMP_T_HI (d.val / 2)).addr := by
  split <;> exact .inr (by simp only [R.THM_TEMP_T_LO, R.THM_TEMP_T_HI, R.THM_TEMP]; omega)

/-- A diode's temperature taken. -/
def State.diodeTaken (s : State) (d : DieIx) (t : Int) (clip : Bool) : State :=
  let ok := !clip && decide (-55 * 64 ≤ t ∧ t ≤ 200 * 64)
  let s := s.put (if d.val % 2 = 0 then R.THM_TEMP_T_LO (d.val / 2) else R.THM_TEMP_T_HI (d.val / 2)) (wrapI 16 t % 65536).toNat
  (s.modDie d fun x =>
    { x with t := some t, badRun := if ok then 0 else x.badRun + 1, goodRun := if ok then x.goodRun + 1 else 0 }).sensorStep d

theorem diodeTaken_kept (s : State) (d : DieIx) (t : Int) (clip : Bool) : TableKept s (s.diodeTaken d t clip) := by
  unfold State.diodeTaken
  extract_lets ok u
  have hu : TableKept s u := (TableKept.refl s).put (thmTemp_far d) _
  exact (hu.modDie d _).trans (sensorStep_kept _ d)

theorem diodeResult_kept (s : State) (d : DieIx) (code : Nat) (clip : Bool) : TableKept s (s.diodeResult d code clip) := by
  have hdef : s.diodeResult d code clip = (s.dieTemp d.val code).2.diodeTaken d (s.dieTemp d.val code).1 clip := rfl
  rw [hdef]
  exact (dieTemp_kept s d.val code).trans (diodeTaken_kept ..)

theorem ntcResult_kept (s : State) (k code : Nat) : TableKept s (s.ntcResult k code) := by
  unfold State.ntcResult
  extract_lets bad was bit u
  have hu : TableKept s u := ⟨fun _ _ => rfl, rfl⟩
  split
  · split
    · exact hu
    · exact hu.raise _ _ _
  · exact hu.put (by split <;> decide) _

theorem slotResult_kept (s : State) (slot code : Nat) (clip : Bool) : TableKept s (s.slotResult slot code clip) := by
  unfold State.slotResult
  extract_lets mv
  split
  next hslot =>
    have h : TableKept s (s.setReg (R.CELL_V slot) (mv 5120 65536)) := (TableKept.refl s).setReg (by unfold R.CELL_V; omega) _
    exact h.trans ⟨fun _ _ => rfl, rfl⟩
  · split
    · exact ntcResult_kept s _ code
    · split
      · exact (TableKept.refl s).setReg (by decide) _
      · split
        · exact (TableKept.refl s).setReg (by decide) _
        · split
          · exact diodeResult_kept s _ code clip
          · exact .refl s

/-- Seeking the next entry moves only the entry and the loop count. -/
theorem hkSeek_reg (k n : Nat) (s : State) (a : Nat) (ha : a ≠ R.HK_STAT_LOOP.addr) : (State.hkSeek k n s).reg a = s.reg a := by
  induction k generalizing n s with
  | zero => rfl
  | succ k ih =>
    unfold State.hkSeek
    split
    · exact (ih 0 _).trans (State.reg_put_far _ _ _ _ ha)
    · split
      · exact ih (n + 1) s
      · rfl

theorem hkSeek_here (k : Nat) {n : Nat} (hn : n < 64) (hs : s.get (R.HK_CFG_SLOT n) ≠ 0x7F) :
    State.hkSeek (k + 1) n s = { s with hk := { s.hk with entry := n, cfg := s.reg (R.HK_CFG n) } } := by
  unfold State.hkSeek
  rw [if_neg (Nat.not_le.mpr hn), if_neg hs]

theorem hkNext_reg (s : State) (a : Nat) (ha : a ≠ R.HK_STAT_LOOP.addr) : s.hkNext.reg a = s.reg a := by
  unfold State.hkNext
  exact hkSeek_reg 130 _ _ a ha

theorem hkNext_here (hn : s.hk.entry < 63) (hs : s.get (R.HK_CFG_SLOT (s.hk.entry + 1)) ≠ 0x7F) :
    s.hkNext.hk.entry = s.hk.entry + 1 ∧ s.hkNext.hk.cfg = s.reg (R.HK_CFG (s.hk.entry + 1)) := by
  unfold State.hkNext
  extract_lets diag t old x
  rw [hkSeek_here (s := { s with hk := x }) 129 (by omega) hs]
  exact ⟨rfl, rfl⟩

/-- The result of an entry in its word of `HK_RES` (Table 14.6). -/
def State.entryWord (s : State) (raws : List (BitVec 16)) : W32 :=
  let m := s.hkMean (bits s.hk.cfg.toNat 0 7) raws
  BitVec.ofNat 32 (m.1 + s.get R.HK_STAT_LOOP * 65536 + 2 ^ 24 + (if m.2 then 2 ^ 25 else 0))

/-- The state of an entry whose conversions have ended, before the loop moves on. -/
def State.entryTaken (s : State) (raws : List (BitVec 16)) : State :=
  let m := s.hkMean (bits s.hk.cfg.toNat 0 7) raws
  let u := s.setReg (R.HK_RES s.hk.entry) (s.entryWord raws)
  let u := if m.2 then u.count R.HK_CNT_CLIPS else u
  if s.hk.entry ≤ 55 && u.keepRuns then u.slotResult (bits s.hk.cfg.toNat 0 7) m.1 m.2 else u

theorem hkEntryDone_moves (raws : List (BitVec 16)) (hm : s.mode.mode ≠ .ship) (hstart : s.flag R.HK_CTRL_START = true)
    (hrun : s.flag R.HK_STAT_RUNNING = true) (hlen : raws.length = bits s.hk.cfg.toNat 8 8 + 1)
    (hw : s.hk.from_ + (6 + 2 * bits s.hk.cfg.toNat 8 8) * 200 ≤ s.tick.wall) : exec (.hkEntryDone raws) s = .next (s.entryTaken raws).hkNext := by
  have hgo : (s.mode.mode ≠ .ship && s.flag R.HK_CTRL_START && s.flag R.HK_STAT_RUNNING && raws.length = bits s.hk.cfg.toNat 8 8 + 1 &&
      s.hkConvEnd ≤ s.tick.wall) = true := by
    have hend : s.hkConvEnd ≤ s.tick.wall := by simpa only [State.hkConvEnd, ticksPerUs] using hw
    simp only [hm, hstart, hrun, hlen, hend, ne_eq, not_false_eq_true, decide_true, Bool.and_self]
  rw [exec_hkEntryDone, execHkEntryDone, if_pos hgo]
  unfold State.entryTaken State.entryWord
  rcases s.hkMean (bits s.hk.cfg.toNat 0 7) raws with ⟨code, clip⟩
  dsimp only

theorem entryTaken_kept (raws : List (BitVec 16)) : TableKept (s.setReg (R.HK_RES s.hk.entry) (s.entryWord raws)) (s.entryTaken raws) := by
  unfold State.entryTaken
  extract_lets m u v
  have hv : TableKept u v := by
    unfold v
    split
    · exact (TableKept.refl u).put (by decide) _
    · exact .refl u
  split
  · exact hv.trans (slotResult_kept v _ _ _)
  · exact hv

theorem res_inj {n k : Nat} (h : k ≠ n) : R.HK_RES k ≠ R.HK_RES n := by
  unfold R.HK_RES
  omega

theorem cfg_ne_res {n k : Nat} (hn : n < 64) : R.HK_CFG n ≠ R.HK_RES k := by
  unfold R.HK_CFG R.HK_RES
  omega

theorem slot_addr (n : Nat) : (R.HK_CFG_SLOT n).addr = R.HK_CFG n := rfl

theorem get_of_reg {f : Fld} (h : t.reg f.addr = s.reg f.addr) : t.get f = s.get f := by simp only [State.get, h]

theorem entryTaken_reg (raws : List (BitVec 16)) {a : Nat} (ha : InTable a) :
    (s.entryTaken raws).hkNext.reg a = (s.setReg (R.HK_RES s.hk.entry) (s.entryWord raws)).reg a :=
  (hkNext_reg _ a (ha.far (by decide))).trans ((entryTaken_kept raws).reg a ha)

theorem entryTaken_next (raws : List (BitVec 16)) (hn : s.hk.entry < 63) (hslot : s.get (R.HK_CFG_SLOT (s.hk.entry + 1)) ≠ 0x7F) :
    (s.entryTaken raws).hkNext.hk.entry = s.hk.entry + 1 ∧ (s.entryTaken raws).hkNext.hk.cfg = s.reg (R.HK_CFG (s.hk.entry + 1)) := by
  obtain ⟨n, hnx⟩ : ∃ n, n = s.hk.entry + 1 := ⟨_, rfl⟩
  obtain ⟨u, hu⟩ : ∃ u, u = s.entryTaken raws := ⟨_, rfl⟩
  have hkept : TableKept (s.setReg (R.HK_RES s.hk.entry) (s.entryWord raws)) u := hu ▸ entryTaken_kept raws
  have hent : u.hk.entry = s.hk.entry := by rw [hkept.hk, State.setReg_hk]
  have hlt : n < 64 := by omega
  have hcfg : u.reg (R.HK_CFG n) = s.reg (R.HK_CFG n) :=
    (hkept.reg _ (inTable_cfg hlt)).trans (State.reg_setReg_far _ _ _ _ (cfg_ne_res hlt))
  have hget : u.get (R.HK_CFG_SLOT n) = s.get (R.HK_CFG_SLOT n) := get_of_reg ((slot_addr n).symm ▸ hcfg)
  have hnext := hkNext_here (s := u) (by omega)
  rw [hent, ← hnx, hget, hcfg] at hnext
  rw [← hu, ← hnx]
  exact hnext (hnx ▸ hslot)

theorem hkEntryDone_shows (raws : List (BitVec 16)) (hn : s.hk.entry < 64) :
    (s.entryTaken raws).hkNext.reg (R.HK_RES s.hk.entry) = s.entryWord raws ∧
    (∀ k, k < 64 → k ≠ s.hk.entry → (s.entryTaken raws).hkNext.reg (R.HK_RES k) = s.reg (R.HK_RES k)) := by
  refine ⟨?_, fun k hk hne => ?_⟩
  · rw [entryTaken_reg raws (inTable_res hn), State.reg_setReg_same]
  · rw [entryTaken_reg raws (inTable_res hk), State.reg_setReg_far _ _ _ _ (res_inj hne)]

end Entry

/-! Calibration -/

section Calibration

variable {s t u : State}

/-- The factors of the groups, one after the other. -/
def calStep (means : List (Int × Int)) (g : Nat) (a : State × Nat) : State × Nat :=
  let (f, bad, s) : (Int × Int) × Nat × State := match calGroup g (means.getD g (0, 0)) with
    | some f => (f, 0, a.1)
    | none => let (f, s) := a.1.calFallback g; (f, 2 ^ g, s)
  ((s.put (R.HK_CAL_GAIN g) f.1.toNat).put (R.HK_CAL_OFFS g) (f.2 % 65536).toNat, a.2 + bad)

/-- A group with the factors of its means. -/
def State.calSet (s : State) (g : Nat) (f : Int × Int) : State :=
  (s.put (R.HK_CAL_GAIN g) f.1.toNat).put (R.HK_CAL_OFFS g) (f.2 % 65536).toNat

theorem calStep_passes (means : List (Int × Int)) {g : Nat} {f : Int × Int} (h : calGroup g (means.getD g (0, 0)) = some f) (a : State × Nat) :
    calStep means g a = (a.1.calSet g f, a.2) := by
  unfold calStep
  rw [h]
  rfl

/-- The four groups set. -/
def State.calAll (s : State) (f : Nat → Int × Int) : State := (((s.calSet 0 (f 0)).calSet 1 (f 1)).calSet 2 (f 2)).calSet 3 (f 3)

theorem calEnd_passes (means : List (Int × Int)) (f : Nat → Int × Int) (h : ∀ g, g < 4 → calGroup g (means.getD g (0, 0)) = some (f g)) :
    s.calEnd means = ((s.calAll f).putFlag R.HK_STAT_CAL_FAIL false).raise 0x0900 0 := by
  have hfold : (List.range 4).foldl (fun a g => calStep means g a) (s, 0) = (s.calAll f, 0) := by
    have hrange : List.range 4 = [0, 1, 2, 3] := rfl
    rw [hrange]
    simp only [List.foldl_cons, List.foldl_nil, calStep_passes means (h 0 (by decide)), calStep_passes means (h 1 (by decide)),
      calStep_passes means (h 2 (by decide)), calStep_passes means (h 3 (by decide))]
    rfl
  have hdef : s.calEnd means = (fun r : State × Nat => if r.2 = 0 then (r.1.putFlag R.HK_STAT_CAL_FAIL (r.2 ≠ 0)).raise 0x0900 0
      else (r.1.putFlag R.HK_STAT_CAL_FAIL (r.2 ≠ 0)).raise 0x0901 2 (BitVec.ofNat 32 r.2))
      ((List.range 4).foldl (fun a g => calStep means g a) (s, 0)) := rfl
  rw [hdef, hfold]
  rfl

theorem calSet_get (g : Nat) (f : Int × Int) : (s.calSet g f).get (R.HK_CAL_GAIN g) = f.1.toNat % 65536 ∧
    (s.calSet g f).get (R.HK_CAL_OFFS g) = (f.2 % 65536).toNat := by
  refine ⟨(State.get_put_far _ _ _ _ (.inr ⟨Nat.le_of_ble_eq_true rfl, .inl (Nat.le_of_ble_eq_true rfl)⟩)).trans
    (State.get_put_near _ _ _ (Nat.le_of_ble_eq_true rfl)), (State.get_put_near _ _ _ (Nat.le_of_ble_eq_true rfl)).trans (Nat.mod_eq_of_lt ?_)⟩
  show (f.2 % 65536).toNat < 65536
  omega

theorem calSet_other {g k : Nat} (f : Int × Int) (h : R.HK_CAL k ≠ R.HK_CAL g) : (s.calSet g f).reg (R.HK_CAL k) = s.reg (R.HK_CAL k) :=
  (State.reg_put_far _ _ _ _ h).trans (State.reg_put_far _ _ _ _ h)

theorem calSet_reg {g : Nat} (f : Int × Int) {a : Nat} (h : a ≠ R.HK_CAL g) : (s.calSet g f).reg a = s.reg a :=
  (State.reg_put_far _ _ _ _ h).trans (State.reg_put_far _ _ _ _ h)

/-- A group's word is the one that its own turn wrote. -/
theorem calAll_word (f : Nat → Int × Int) {g : Nat} (hg : g < 4) : ∃ u : State, (s.calAll f).reg (R.HK_CAL g) = (u.calSet g (f g)).reg (R.HK_CAL g) := by
  have h4 : g = 0 ∨ g = 1 ∨ g = 2 ∨ g = 3 := by omega
  rcases h4 with rfl | rfl | rfl | rfl
  · exact ⟨s, by rw [State.calAll, calSet_reg _ (by decide), calSet_reg _ (by decide), calSet_reg _ (by decide)]⟩
  · exact ⟨s.calSet 0 (f 0), by rw [State.calAll, calSet_reg _ (by decide), calSet_reg _ (by decide)]⟩
  · exact ⟨(s.calSet 0 (f 0)).calSet 1 (f 1), by rw [State.calAll, calSet_reg _ (by decide)]⟩
  · exact ⟨_, rfl⟩

theorem calAll_get (f : Nat → Int × Int) {g : Nat} (hg : g < 4) : (s.calAll f).get (R.HK_CAL_GAIN g) = (f g).1.toNat % 65536 ∧
    (s.calAll f).get (R.HK_CAL_OFFS g) = ((f g).2 % 65536).toNat := by
  obtain ⟨u, hu⟩ := calAll_word (s := s) f hg
  obtain ⟨hgain, hoffs⟩ := calSet_get (s := u) g (f g)
  exact ⟨(congrArg (fieldOf · (R.HK_CAL_GAIN g)) hu).trans hgain, (congrArg (fieldOf · (R.HK_CAL_OFFS g)) hu).trans hoffs⟩

theorem calGroup_small {g : Nat} {m f : Int × Int} (h : calGroup g m = some f) : f.1.toNat % 65536 = f.1.toNat := by
  unfold calGroup at h
  dsimp only at h
  split at h
  · cases h
    refine Nat.mod_eq_of_lt ?_
    dsimp only
    omega
  · cases h

/-- What the end of a calibration on every group leaves. -/
structure Calibrated (s : State) (f : Nat → Int × Int) (t : State) : Prop where
  calFrom : t.hk.calFrom = none
  busy : t.flag R.HK_STAT_CAL_BUSY = false
  fail : t.flag R.HK_STAT_CAL_FAIL = false
  stored : s.Room → Stored s t 0x0900 0 0
  cal : ∀ g, g < 4 → t.reg (R.HK_CAL g) = (s.calAll f).reg (R.HK_CAL g)

theorem Calibrated.put {f : Nat → Int × Int} (h : Calibrated s f t) {x : Fld} (hx : x.addr = R.HK_STAT) (hlo : x.lo = 0 ∧ x.w = 1 ∨ 3 ≤ x.lo ∧ x.lo + x.w ≤ 32)
    (v : Nat) : Calibrated s f (t.put x v) := by
  have hbusy : (t.put x v).flag R.HK_STAT_CAL_BUSY = t.flag R.HK_STAT_CAL_BUSY := State.flag_put_far _ _ _ _ (.inr ⟨by decide, by
    have h1 : R.HK_STAT_CAL_BUSY.lo = 1 := rfl
    have h2 : R.HK_STAT_CAL_BUSY.w = 1 := rfl
    omega⟩)
  have hfail : (t.put x v).flag R.HK_STAT_CAL_FAIL = t.flag R.HK_STAT_CAL_FAIL := State.flag_put_far _ _ _ _ (.inr ⟨by decide, by
    have h1 : R.HK_STAT_CAL_FAIL.lo = 2 := rfl
    have h2 : R.HK_STAT_CAL_FAIL.w = 1 := rfl
    omega⟩)
  refine ⟨h.calFrom, hbusy.trans h.busy, hfail.trans h.fail, fun hr => (h.stored hr).same rfl, fun g hg => ?_⟩
  have hne : R.HK_CAL g ≠ x.addr := by
    rw [hx]
    unfold R.HK_CAL R.HK_STAT
    omega
  exact (State.reg_put_far _ _ _ _ hne).trans (h.cal g hg)

theorem Calibrated.modHk {f : Nat → Int × Int} (h : Calibrated s f t) {x : Hk} (hx : x.calFrom = none) : Calibrated s f { t with hk := x } :=
  ⟨hx, h.busy, h.fail, fun hr => (h.stored hr).same rfl, h.cal⟩

theorem Calibrated.hkSeek {f : Nat → Int × Int} (k n : Nat) (h : Calibrated s f t) : Calibrated s f (State.hkSeek k n t) := by
  induction k generalizing n t with
  | zero => exact h
  | succ k ih =>
    unfold State.hkSeek
    split
    · exact ih 0 (h.put rfl (.inr (by decide)) _)
    · split
      · exact ih (n + 1) h
      · exact h.modHk h.calFrom

theorem Calibrated.hkRestart {f : Nat → Int × Int} (h : Calibrated s f t) : Calibrated s f t.hkRestart :=
  ((h.modHk (x := { t.hk with from_ := t.tick.wall }) h.calFrom).hkSeek 130 0).put rfl (.inl (by decide)) 1

theorem calAll_far (f : Nat → Int × Int) {a : Nat} (h : ∀ g, g < 4 → a ≠ R.HK_CAL g) : (s.calAll f).reg a = s.reg a := by
  rw [State.calAll, calSet_reg _ (h 3 (by decide)), calSet_reg _ (h 2 (by decide)), calSet_reg _ (h 1 (by decide)), calSet_reg _ (h 0 (by decide))]

theorem stat_ne_cal {g : Nat} (hg : g < 4) : R.HK_STAT ≠ R.HK_CAL g := by
  unfold R.HK_STAT R.HK_CAL
  omega

theorem cal_inTable {g : Nat} (hg : g < 4) : R.HK_CAL g ∉ eventRegs ∧ R.HK_CAL g ≠ R.HK_STAT := by
  have h4 : g = 0 ∨ g = 1 ∨ g = 2 ∨ g = 3 := by omega
  rcases h4 with rfl | rfl | rfl | rfl <;> decide

theorem State.calSet_grows {n : Nat} (h : Grows s t n) {g : Nat} (hg : g < 4) (f : Int × Int) : Grows s (t.calSet g f) n := by
  have hne : R.HK_CAL g ≠ R.HP_EVT_CFG_F0_EN.addr := by
    unfold R.HK_CAL R.HP_EVT_CFG_F0_EN R.HP_EVT_CFG
    dsimp only
    omega
  exact (h.put (f := R.HK_CAL_GAIN g) hne _).put (f := R.HK_CAL_OFFS g) hne _

theorem State.calAll_grows (f : Nat → Int × Int) : Grows s (s.calAll f) 0 :=
  State.calSet_grows (State.calSet_grows (State.calSet_grows (State.calSet_grows (.refl s) (by decide) _) (by decide) _) (by decide) _) (by decide) _

theorem calAll_calibrated (f : Nat → Int × Int) (hfrom : s.hk.calFrom = none) (hbusy : s.flag R.HK_STAT_CAL_BUSY = false) :
    Calibrated s f (((s.calAll f).putFlag R.HK_STAT_CAL_FAIL false).raise 0x0900 0) := by
  refine ⟨?_, ?_, ?_, fun hr => ?_, fun g hg => ?_⟩
  · rw [State.raise_hk]
    exact hfrom
  · rw [State.raise_flag_far _ _ _ _ _ (by decide), State.flag_putFlag_far _ _ _ _ (by decide)]
    have hreg : (s.calAll f).flag R.HK_STAT_CAL_BUSY = s.flag R.HK_STAT_CAL_BUSY := by
      rw [State.flag, State.flag, get_of_reg (calAll_far f fun g hg => stat_ne_cal hg)]
    exact hreg.trans hbusy
  · rw [State.raise_flag_far _ _ _ _ _ (by decide)]
    exact State.flag_putFlag_near _ _ _ (by decide)
  · exact ((State.calAll_grows f).putFlag (by decide) false).stored hr (by decide) _ _ _ {}
  · rw [State.raise_reg _ _ _ _ _ (cal_inTable hg).1]
    exact State.reg_putFlag_far _ _ _ _ (cal_inTable hg).2

/-- The start of the end of a calibration. -/
def State.calOver (s : State) : State := ({ s with hk := { s.hk with calFrom := none } } : State).putFlag R.HK_STAT_CAL_BUSY false

theorem hkCalDone_calibrates (means : List (Int × Int)) (n : Nat) (f : Nat → Int × Int) (hn : s.hk.calFrom = some n) (hw : n + 3600000 ≤ s.tick.wall)
    (hf : ∀ g, g < 4 → calGroup g (means.getD g (0, 0)) = some (f g)) : ∃ t, exec (.hkCalDone means) s = .next t ∧ Calibrated s.calOver f t := by
  have hcal : Calibrated s.calOver f (s.calOver.calEnd means) := by
    rw [calEnd_passes means f hf]
    exact calAll_calibrated f rfl (State.flag_putFlag_near _ _ _ (by decide))
  have hexec : exec (.hkCalDone means) s =
      .next (if (s.calOver.calEnd means).flag R.HK_CTRL_START then (s.calOver.calEnd means).hkRestart else s.calOver.calEnd means) := by
    rw [exec_hkCalDone, execHkCalDone.eq_def, hn]
    exact if_pos hw
  refine ⟨_, hexec, ?_⟩
  split
  · exact hcal.hkRestart
  · exact hcal

theorem calOver_grows : Grows s s.calOver 0 := by
  have h : Grows s { s with hk := { s.hk with calFrom := none } } 0 := .of_same rfl rfl rfl
  exact h.putFlag (by decide) false

end Calibration

/-! Path diagnosis -/

section Diagnosis

variable {s : State}

/-- The result of a path diagnosis shown. -/
def State.diagShown (s : State) (mean : Nat) (pass : Bool) : State :=
  ({ s with hk := { s.hk with diag := none, diagFrom := none } } : State).setReg R.HK_DIAG_RES
    (BitVec.ofNat 32 (mean + 2 ^ 16 + if pass then 2 ^ 17 else 0))

/-- The tolerance of a path diagnosis (R381). -/
def diagPasses (mean : Nat) (e : Int) : Bool := 100 * ((mean : Int) - e).natAbs ≤ e.natAbs + 6400

/-- What the end of a path diagnosis does with its mean. -/
def State.diagJudged (s : State) (slot mean : Nat) (pass : Bool) : State :=
  if pass then s.diagShown mean pass else ((s.diagShown mean pass).count R.HK_CNT_DIAG_FAIL).raise 0x0903 2 (BitVec.ofNat 32 slot)

theorem hkDiagDone_judges (raws : List (BitVec 16)) (slot code n : Nat) (hd : s.hk.diag = some (slot, code)) (hn : s.hk.diagFrom = some n)
    (hw : n + 7200 ≤ s.tick.wall) : exec (.hkDiagDone raws) s = .next (s.diagJudged slot (s.hkMean slot raws).1
      (diagPasses (s.hkMean slot raws).1 (roundDiv (code * 25 * 65536 : Nat) (10 * slotFs slot)))) := by
  have hdue : s.diagDue = true := by
    rw [State.diagDue.eq_def, hn]
    exact decide_eq_true hw
  rw [exec_hkDiagDone, execHkDiagDone.eq_def, hd]
  dsimp only
  rw [hdue, if_neg (by decide)]
  rcases s.hkMean slot raws with ⟨mean, clip⟩
  dsimp only
  obtain ⟨e, he⟩ : ∃ e, e = roundDiv (code * 25 * 65536 : Nat) (10 * slotFs slot) := ⟨_, rfl⟩
  rw [← he]
  obtain ⟨b, hb⟩ : ∃ b, b = diagPasses mean e := ⟨_, rfl⟩
  rw [← hb]
  unfold State.diagJudged State.diagShown
  cases b with
  | true =>
    have hp : 100 * ((mean : Int) - e).natAbs ≤ e.natAbs + 6400 := of_decide_eq_true hb.symm
    simp only [hp, if_true]
  | false =>
    have hp : ¬ 100 * ((mean : Int) - e).natAbs ≤ e.natAbs + 6400 := of_decide_eq_false hb.symm
    simp only [hp, if_false, Bool.false_eq_true]

theorem diagJudged_hk (slot mean : Nat) (pass : Bool) : (s.diagJudged slot mean pass).hk = { s.hk with diag := none, diagFrom := none } := by
  cases pass
  · exact (State.raise_hk ..).trans rfl
  · rfl

theorem diagJudged_pass (slot mean : Nat) : (s.diagJudged slot mean true).reg R.HK_DIAG_RES = BitVec.ofNat 32 (mean + 2 ^ 16 + 2 ^ 17) :=
  State.reg_setReg_same ..

theorem diagJudged_fail (slot mean : Nat) : (s.diagJudged slot mean false).reg R.HK_DIAG_RES = BitVec.ofNat 32 (mean + 2 ^ 16) ∧
    (s.Room → Stored s (s.diagJudged slot mean false) 0x0903 2 (BitVec.ofNat 32 slot)) := by
  refine ⟨?_, fun hr => ?_⟩
  · have hdef : s.diagJudged slot mean false = ((s.diagShown mean false).count R.HK_CNT_DIAG_FAIL).raise 0x0903 2 (BitVec.ofNat 32 slot) := rfl
    rw [hdef, State.raise_reg _ _ _ _ _ (by decide), State.reg_count_far _ _ _ _ (by decide)]
    exact State.reg_setReg_same ..
  · have h : Grows s { s with hk := { s.hk with diag := none, diagFrom := none } } 0 := .of_same rfl rfl rfl
    have hs : Grows s (s.diagShown mean false) 0 := h.setReg (by decide) _
    exact (hs.count (by decide) 1).stored hr (by decide) _ _ _ {}

end Diagnosis

/-- Settles O51: an entry's result is shown and the loop moves on, the writes wait for the Keep, and a calibration and a diagnosis
end with their result. -/
theorem housekeepingMeasures : Obligations.HousekeepingMeasures := by
  unfold Obligations.HousekeepingMeasures
  intro s
  refine ⟨fun raws hm hstart hrun hn hlen hw => ?_, fun hw => ⟨fun b => if_pos hw, if_pos hw, fun n v => if_pos hw, fun v => if_pos hw⟩,
    fun n means hn hw hall => ?_, fun slot code raws n hd hn hw => ?_⟩
  · obtain ⟨hres, hother⟩ := hkEntryDone_shows raws hn
    exact ⟨_, hkEntryDone_moves raws hm hstart hrun hlen hw, hres, hother, fun hlt hslot => entryTaken_next raws hlt hslot⟩
  · obtain ⟨f, hf⟩ : ∃ f : Nat → Int × Int, ∀ g, g < 4 → calGroup g (means.getD g (0, 0)) = some (f g) :=
      ⟨fun g => (calGroup g (means.getD g (0, 0))).getD (0, 0), fun g hg => by
        obtain ⟨p, hp⟩ := Option.isSome_iff_exists.mp (hall g hg)
        dsimp only
        rw [hp, Option.getD_some]⟩
    obtain ⟨t, ht, hcal⟩ := hkCalDone_calibrates means n f hn hw hf
    have hgrow := calOver_grows (s := s)
    refine ⟨t, ht, hcal.calFrom, hcal.busy, hcal.fail, fun hr => ?_, fun g hg gain offs hgo => ?_⟩
    · exact hcal.stored ⟨hr.space, hgrow.f0.trans hr.f0⟩
    · have hfg : f g = (gain, offs) := Option.some.inj ((hf g hg).symm.trans hgo)
      obtain ⟨hgain, hoffs⟩ := calAll_get (s := s.calOver) f hg
      have hword := hcal.cal g hg
      refine ⟨(congrArg (fieldOf · (R.HK_CAL_GAIN g)) hword).trans (hgain.trans ?_), (congrArg (fieldOf · (R.HK_CAL_OFFS g)) hword).trans (hoffs.trans ?_)⟩
      · rw [calGroup_small (hf g hg), hfg]
      · rw [hfg]
  · refine ⟨_, hkDiagDone_judges raws slot code n hd hn hw, ?_, ?_, fun hp => ?_, fun hp => ?_⟩
    · rw [diagJudged_hk]
    · rw [diagJudged_hk]
    · rw [diagPasses, decide_eq_true hp]
      exact diagJudged_pass ..
    · rw [diagPasses, decide_eq_false (Nat.not_le.mpr hp)]
      exact diagJudged_fail ..

end Sys2Proof.Machine
end

section
/-! PROOFS. Temperature rates and levels, comparators and shutdowns (R383 to R390). -/

namespace Sys2Proof.Machine

/-! The rate evaluation -/

section Rates

variable {s t : State} {d : DieIx}

/-- A die's rate over 20 samples and the run of its samples stand, whatever the warning and the trip make of them. -/
structure SameRate (x y : DieTh) : Prop where
  temps : y.temps = x.temps
  valid : y.valid = x.valid
  rate : y.rate = x.rate
  sensor : y.sensor = x.sensor

theorem SameRate.refl (x : DieTh) : SameRate x x := ⟨rfl, rfl, rfl, rfl⟩

theorem SameRate.trans {x y z : DieTh} (h : SameRate x y) (g : SameRate y z) : SameRate x z :=
  ⟨g.temps.trans h.temps, g.valid.trans h.valid, g.rate.trans h.rate, g.sensor.trans h.sensor⟩

/-- A change of one die leaves the others alone, and the rate of its own where it says so. -/
structure OnDie (d : DieIx) (s t : State) : Prop where
  others : ∀ k : DieIx, k ≠ d → t.die[k] = s.die[k]
  own : SameRate s.die[d] t.die[d]

theorem OnDie.of_die (h : t.die = s.die) : OnDie d s t := ⟨fun _ _ => by simp only [h], by simp only [h]; exact .refl _⟩

theorem OnDie.refl (d : DieIx) (s : State) : OnDie d s s := .of_die rfl

theorem OnDie.trans {u : State} (h : OnDie d s t) (g : OnDie d t u) : OnDie d s u :=
  ⟨fun k hk => (g.others k hk).trans (h.others k hk), h.own.trans g.own⟩

theorem OnDie.die {u : State} (h : OnDie d s t) (hu : u.die = t.die) : OnDie d s u := h.trans (.of_die hu)

theorem modDie_die (f : DieTh → DieTh) : (s.modDie d f).die[d] = f s.die[d] := upd_same s.die d f

theorem modDie_other (f : DieTh → DieTh) {k : DieIx} (hk : k ≠ d) : (s.modDie d f).die[k] = s.die[k] := upd_other s.die d k f hk

theorem OnDie.modDie (h : OnDie d s t) (f : DieTh → DieTh) (hf : ∀ x, SameRate x (f x)) : OnDie d s (t.modDie d f) :=
  h.trans ⟨fun k hk => modDie_other f hk, by rw [modDie_die f]; exact hf _⟩

theorem warnStep_onDie (s : State) (d : DieIx) : OnDie d s (s.warnStep d) := by
  unfold State.warnStep
  extract_lets above u x
  have hu : OnDie d s u := (OnDie.refl d s).modDie _ fun _ => ⟨rfl, rfl, rfl, rfl⟩
  split
  · exact ((hu.modDie (fun x => { x with warn := true }) fun _ => ⟨rfl, rfl, rfl, rfl⟩).die (State.count_die ..)).die (State.raise_die ..)
  · split
    · exact hu.modDie _ fun _ => ⟨rfl, rfl, rfl, rfl⟩
    · exact hu

theorem tripStep_onDie (s : State) (d : DieIx) : OnDie d s (s.tripStep d) := by
  unfold State.tripStep
  extract_lets x ripe above u level v w y
  have hu : OnDie d s u := (OnDie.refl d s).modDie _ fun _ => ⟨rfl, rfl, rfl, rfl⟩
  have hv : OnDie d s v := hu.modDie _ fun _ => ⟨rfl, rfl, rfl, rfl⟩
  have hw : OnDie d s w := hv.die (State.count_die ..)
  have hy : OnDie d s y := (hw.die (State.siltPush_die ..)).die (State.raise_die ..)
  split
  · split
    · exact hy.die (State.raise_die ..)
    · split
      · exact hy.die rfl
      · exact hy
  · exact hu

theorem sensorStep_others (s : State) (d : DieIx) {k : DieIx} (hk : k ≠ d) : (s.sensorStep d).die[k] = s.die[k] := by
  unfold State.sensorStep
  dsimp only
  split
  · simp only [State.raise_die, State.count_die]
    exact modDie_other _ hk
  · split
    · exact modDie_other _ hk
    · rfl

theorem thermalOne_others (s : State) (d : DieIx) {k : DieIx} (hk : k ≠ d) : (s.thermalOne d).die[k] = s.die[k] := by
  unfold State.thermalOne
  extract_lets u v
  have hu : u.die[k] = s.die[k] := sensorStep_others s d hk
  have hv : v.die[k] = s.die[k] := by
    have h : v.die = (u.modDie d DieTh.sample).die := State.put_die ..
    simp only [h]
    exact (modDie_other _ hk).trans hu
  split
  · exact hu
  · split
    · exact ((tripStep_onDie _ d).others k hk).trans (((warnStep_onDie v d).others k hk).trans hv)
    · exact hv

/-- Three bad results are a sensor fault (R383). -/
theorem thermalOne_bad (hs : (s.die[d]).sensor = false) (hb : 3 ≤ (s.die[d]).badRun) :
    ((s.thermalOne d).die[d]).sensor = true ∧ ((s.thermalOne d).die[d]).valid = false := by
  have hstep : (s.sensorStep d).die[d] = { s.die[d] with sensor := true, temps := [], valid := false, warnRun := 0, warnClr := 0, tripRun := 0, holdFrom := none } := by
    unfold State.sensorStep
    dsimp only
    rw [if_pos (by rw [hs, decide_eq_true hb]; rfl)]
    simp only [State.raise_die, State.count_die]
    exact modDie_die _
  unfold State.thermalOne
  dsimp only
  rw [hstep, if_pos rfl, hstep]
  exact ⟨rfl, rfl⟩

theorem sensorStep_plain (hs : (s.die[d]).sensor = false) (hb : (s.die[d]).badRun < 3) : s.sensorStep d = s := by
  unfold State.sensorStep
  dsimp only
  rw [hs, decide_eq_false (Nat.not_le.mpr hb), Bool.false_and, Bool.and_false, if_neg Bool.false_ne_true, if_neg Bool.false_ne_true]

/-- The sample that completes a run of 21. -/
theorem sample_complete {x : DieTh} {v : Int} (ht : x.t = some v) (hl : x.temps.length = 20) :
    x.sample = { x with temps := v :: x.temps, valid := true, rate := satI 16 ((v - x.temps.getD 19 0) * 5) } := by
  have htake : (v :: x.temps).take 21 = v :: x.temps := List.take_of_length_le (by rw [List.length_cons, hl])
  have hlen : (v :: x.temps).length = 21 := by rw [List.length_cons, hl]
  rw [DieTh.sample.eq_def, ht]
  dsimp only
  rw [htake, if_pos hlen]
  rfl

theorem thermalOne_good {v : Int} (hs : (s.die[d]).sensor = false) (hb : (s.die[d]).badRun < 3) (ht : (s.die[d]).t = some v)
    (hl : (s.die[d]).temps.length = 20) : ((s.thermalOne d).die[d]).valid = true ∧ ((s.thermalOne d).die[d]).temps = v :: (s.die[d]).temps ∧
      ((s.thermalOne d).die[d]).rate = satI 16 ((v - (s.die[d]).temps.getD 19 0) * 5) := by
  obtain ⟨u, hu⟩ : ∃ u, u = (s.modDie d DieTh.sample).rateReg d := ⟨_, rfl⟩
  have hdie : u.die[d] = { s.die[d] with temps := v :: (s.die[d]).temps, valid := true, rate := satI 16 ((v - (s.die[d]).temps.getD 19 0) * 5) } := by
    have h : u.die = (s.modDie d DieTh.sample).die := hu ▸ State.put_die ..
    simp only [h]
    exact (modDie_die _).trans (sample_complete ht hl)
  have hval : (u.die[d]).valid = true := congrArg DieTh.valid hdie
  have hone : s.thermalOne d = (u.warnStep d).tripStep d := by
    unfold State.thermalOne
    dsimp only
    rw [sensorStep_plain hs hb, hs, if_neg Bool.false_ne_true, ← hu, hval, if_pos rfl]
  have hon : OnDie d u (s.thermalOne d) := hone ▸ (warnStep_onDie u d).trans (tripStep_onDie _ d)
  obtain ⟨htemps, hvalid, hrate, -⟩ := hon.own
  exact ⟨hvalid.trans hval, htemps.trans (congrArg DieTh.temps hdie), hrate.trans (congrArg DieTh.rate hdie)⟩

/-- What an evaluation of all dies makes of one is what its own turn makes of it. -/
theorem thermalRateSample_one (hk : s.keepRuns = true) (hc : s.clockOn = true) (hstart : s.flag R.HK_CTRL_START = true)
    (hp : ∀ k, s.pace.rate = some k → k + 2000000 ≤ s.tick.wall) {Q : DieTh → Prop} (hone : ∀ t : State, t.die[d] = s.die[d] → Q (t.thermalOne d).die[d]) :
    ∃ t, exec .thermalRateSample s = .next t ∧ Q t.die[d] := by
  have hpaced : s.paced s.pace.rate (10 * ticksPerMs) = true := (Option.all_eq_true _ _).mpr fun k hk => decide_eq_true (hp k hk)
  refine ⟨_, if_pos (by rw [hk, hc, hstart, hpaced]; rfl), ?_⟩
  refine forAll_once (P := fun t => t.die[d] = s.die[d]) (Q := fun t => Q t.die[d]) (a := d) (fun b t hb h => ?_) hone (fun b t hb h => ?_)
    (List.nodup_finRange _) (List.mem_finRange d) rfl
  · exact (thermalOne_others t b hb.symm).trans h
  · exact (thermalOne_others t b hb.symm).symm ▸ h

end Rates

/-! Levels -/

section Level

variable {s t : State} {d : DieIx}

/-- The state of a level that has fallen, with its record and its event (R387). -/
def State.levelFallen (s : State) (d : DieIx) (level : Nat) : State :=
  let u := s.modDie d fun x => { x with level := BitVec.ofNat 2 (level - 1), levelAt := some s.now, holdFrom := some s.now }
  (u.siltPush 2 0 0x0A02 (u.thermalPayload d (level - 1))).raise 0x0A02 0 (BitVec.ofNat 32 (d.val + 256 * (level - 1)))

/-- What a fallen level gives back: the channels of a stage die wait for their instant, the Turret's charger may go on. -/
def State.levelFreed (s : State) (d : DieIx) (level : Nat) : State :=
  match stageOf d with
  | some p => if level = 3 then s.dieWaits p else s
  | none => if d.val = 1 && level = 2 then s.modPower fun p => { p with gatesOn := s.gatesMay s.chgState } else s

theorem dieWaits_only (s : State) (die : StageDie) : { s.dieWaits die with chan := s.chan } = s := forAll_modStage_only _ _ s

/-- The dies, the compare units and the stored events. -/
structure LevelKept (s t : State) : Prop where
  die : t.die = s.die
  units : t.units = s.units
  events : t.hp.events = s.hp.events

theorem levelFreed_kept (s : State) (d : DieIx) (level : Nat) : LevelKept s (s.levelFreed d level) := by
  unfold State.levelFreed
  split
  · split
    next p _ _ =>
      have h := dieWaits_only s p
      exact ⟨(congrArg State.die h :), (congrArg State.units h :), (congrArg (fun t : State => t.hp.events) h :)⟩
    · exact ⟨rfl, rfl, rfl⟩
  · split <;> exact ⟨rfl, rfl, rfl⟩

/-- A level falls only when its die is cool enough. -/
theorem cool_of {x : DieTh} (h : x.level = 1 ∨ x.level = 2 ∨ x.level = 3 ∧ x.t.getD 0 < 8960) :
    (decide (x.level.toNat ≠ 0) && (decide (x.level.toNat ≠ 3) || decide (x.t.getD 0 < 140 * 64))) = true := by
  rcases h with h | h | ⟨h, hc⟩
  · rw [h]; rfl
  · rw [h]; rfl
  · have hcold : x.t.getD 0 < 140 * 64 := hc
    rw [h, decide_eq_true hcold]
    rfl

theorem thermalLevelFall_eq (n : Nat) (hk : s.keepRuns = true) (hc : s.clockOn = true) (hn : (s.die[d]).holdFrom = some n)
    (hl : (s.die[d]).level = 1 ∨ (s.die[d]).level = 2 ∨ (s.die[d]).level = 3 ∧ (s.die[d]).t.getD 0 < 8960) : exec (.thermalLevelFall d) s =
      if n + s.get R.THM_CFG_HOLD_S * 200000000 ≤ s.now then
        .next ((s.levelFallen d (s.die[d]).level.toNat).levelFreed d (s.die[d]).level.toNat) else .next s := by
  obtain ⟨h0, hcool⟩ := Bool.and_eq_true_iff.mp (cool_of hl)
  rw [exec_thermalLevelFall, execThermalLevelFall.eq_def]
  dsimp only
  rw [hn]
  dsimp only
  rw [hk, hc, h0, hcool]
  simp only [Bool.true_and]
  by_cases hw : n + s.get R.THM_CFG_HOLD_S * 200000000 ≤ s.now
  · have hw' : n + s.get R.THM_CFG_HOLD_S * ticksPerS ≤ s.now := hw
    rw [decide_eq_true hw', if_pos rfl, if_pos hw]
    rfl
  · have hw' : ¬ n + s.get R.THM_CFG_HOLD_S * ticksPerS ≤ s.now := hw
    rw [decide_eq_false hw', if_neg Bool.false_ne_true, if_neg hw]

theorem levelFallen_die (level : Nat) : (s.levelFallen d level).die = (s.modDie d fun x =>
    { x with level := BitVec.ofNat 2 (level - 1), levelAt := some s.now, holdFrom := some s.now }).die :=
  (State.raise_die ..).trans (State.siltPush_die ..)

theorem levelFallen_stored (level : Nat) (hr : s.Room) :
    Stored s (s.levelFallen d level) 0x0A02 0 (BitVec.ofNat 32 (d.val + 256 * (level - 1))) := by
  have h : Grows s (s.modDie d fun x => { x with level := BitVec.ofNat 2 (level - 1), levelAt := some s.now, holdFrom := some s.now }) 0 :=
    .of_same rfl rfl rfl
  exact (h.siltPush _ _ _ _).stored hr (by decide) _ _ _ {}

theorem level_down {l : BitVec 2} (h : l = 1 ∨ l = 2 ∨ l = 3) : BitVec.ofNat 2 (l.toNat - 1) = l - 1 := by
  rcases h with rfl | rfl | rfl <;> rfl

end Level

/-! Shutdowns -/

section Shutdown

variable {s t : State}

/-- The trip of a die's comparator, counted. -/
def State.heatTripped (s : State) (d : DieIx) : State := (s.modDie d fun x => { x with shutAt := some s.tick.wall }).count R.THM_CNT_HW_SHUTS

theorem heatTripped_grows (d : DieIx) : Grows s (s.heatTripped d) 0 := by
  have h : Grows s (s.modDie d fun x => { x with shutAt := some s.tick.wall }) 0 := .of_same rfl rfl rfl
  exact h.count (by decide) 1

/-- The event of a source that has not had its event, or is told again, is stored; with its own record too. -/
theorem Grows.stored_own (hr : s.Room) (h : Grows s t 0) (i : Fin 128) (c : BitVec 16) (k : BitVec 2) (d : W32) (o : Bool)
    (hfresh : t.flt.active.contains i = false ∨ t.flt.told.contains i = true) : Stored s (t.raiseSrc i c k d o) c k d := by
  have hdone : (t.flt.active.contains i && !t.flt.told.contains i) = false := by
    rcases hfresh with h | h <;> rw [h]
    · rfl
    · exact Bool.and_false _
  unfold State.raiseSrc
  dsimp only
  rw [hdone, Bool.false_and, if_neg Bool.false_ne_true]
  refine Grows.stored hr ?_ (by decide : 0 < 8) c k d _
  exact h.same rfl rfl rfl

theorem siltPush_flt (ty : Byte) (k : BitVec 2) (c : BitVec 16) (p : List Byte) : (s.siltPush ty k c p).flt = s.flt := by
  unfold State.siltPush
  extract_lets b
  split
  · unfold State.siltStart
    split
    · split <;> rfl
    · rfl
  · split <;> rfl

/-- A stage die's shutdown, before its event. -/
def State.stageShut (s : State) (die : StageDie) : State :=
  (s.heatTripped (dieIxOf die)).siltPush 2 2 0x0A04 ((s.heatTripped (dieIxOf die)).thermalPayload (dieIxOf die) 0xFF)

theorem stageThermalShutdown_eq (die : StageDie) (hm : s.mode.mode ≠ .ship) (hs : (s.die[dieIxOf die]).shutAt = none) :
    exec (.stageThermalShutdown die) s =
      .next ((s.stageShut die).raiseSrc ⟨0x20 + die.val, by omega⟩ 0x0A04 2 (BitVec.ofNat 32 (dieIxOf die).val) true) := by
  rw [exec_stageThermalShutdown, execStageThermalShutdown]
  dsimp only
  rw [hs, decide_eq_false hm]
  rfl

theorem stageShut_die (die : StageDie) : (s.stageShut die).die = (s.modDie (dieIxOf die) fun x => { x with shutAt := some s.tick.wall }).die :=
  (State.siltPush_die ..).trans rfl

theorem dieOf_mem {die : StageDie} {c : Ch} (hc : c ∈ chansOfDie die) : dieOf c = die := Fin.ext ((mem_chansOfDie die c).1 hc)

theorem stageThermalRelease_eq (die : StageDie) (n : Nat) (hs : (s.die[dieIxOf die]).shutAt = some n) : exec (.stageThermalRelease die) s =
    if n + 200000000 ≤ s.tick.wall then
      .next (((s.modDie (dieIxOf die) fun x => { x with shutAt := none }).dieWaits die).raise 0x0A05 0 (BitVec.ofNat 32 (dieIxOf die).val))
    else .next s := by
  rw [exec_stageThermalRelease, execStageThermalRelease.eq_def]
  dsimp only
  rw [hs]
  rfl

theorem stageRelease_shows (die : StageDie) (t : State)
    (ht : t = ((s.modDie (dieIxOf die) fun x => { x with shutAt := none }).dieWaits die).raise 0x0A05 0 (BitVec.ofNat 32 (dieIxOf die).val)) :
    (t.die[dieIxOf die]).shutAt = none ∧
      (∀ c ∈ chansOfDie die, (s.ch c).stage.linkSafe = false → (t.ch c).stage.waitSample = true) ∧
      (s.Room → Stored s t 0x0A05 0 (BitVec.ofNat 32 (dieIxOf die).val)) := by
  obtain ⟨u, hu⟩ : ∃ u, u = s.modDie (dieIxOf die) fun x => { x with shutAt := none } := ⟨_, rfl⟩
  rw [← hu] at ht
  have hg : Grows s u 0 := hu ▸ .of_same rfl rfl rfl
  obtain ⟨hev, hon, -⟩ := linkEvent (die := die) (s := u) (f := fun g => { g with waitSample := g.waitSample || !g.linkSafe })
    (fun g => by simp) 0x0A05 0 (BitVec.ofNat 32 (dieIxOf die).val)
  have hdie : t.die = u.die := by
    rw [ht, State.raise_die]
    exact (congrArg State.die (dieWaits_only u die) :)
  refine ⟨?_, fun c hc hl => ?_, fun hr => ?_⟩
  · simp only [hdie, hu]
    exact congrArg DieTh.shutAt (modDie_die _)
  · have hch : t.ch c = { u.ch c with stage := { (u.ch c).stage with waitSample := (u.ch c).stage.waitSample || !(u.ch c).stage.linkSafe } } :=
      ht ▸ hon c ((mem_chansOfDie die c).1 hc)
    have hsame : u.ch c = s.ch c := hu ▸ rfl
    rw [hch, hsame, hl]
    exact Bool.or_true _
  · have hroom : u.Room := ⟨hu ▸ hr.space, hg.f0.trans hr.f0⟩
    have hnow : u.tick.now = s.tick.now := hg.tick
    have := hev hroom
    rw [Stored, hnow] at this
    rw [ht]
    exact this

/-! The Dome and the Turret -/

/-- The die of the core that trips, and its fault source. -/
def coreDie (turret : Bool) : DieIx := if turret then 1 else 0
/-- Its fault source. -/
def coreSrc (turret : Bool) : Fin 128 := if turret then 0x41 else 0x40

/-- The charger's gates off outside bus-keep operation. -/
def State.gatesShut (s : State) (turret : Bool) : State :=
  if s.inBuskeep && !turret then s else (s.putFlag R.CHG_STAT_CHG_N false).modPower fun p => { p with gatesOn := false }

/-- The rails off with the Turret. -/
def State.railsShut (s : State) (turret : Bool) : State := if turret then s.railsOff else s

/-- The Dome off, with its tenure and its link. -/
def State.domeShut (s : State) : State :=
  ((s.modArb fun a => { a with tenure := none }).modHp fun h => { h with linkUp := false, speed := 0, width := 0 }).modMode
    fun m => { m with domeOn := false, domeRun := false, keep := .off }

theorem coreThermalShutdown_eq (turret : Bool) (hm : s.mode.mode ≠ .ship) (hs : (s.die[coreDie turret]).shutAt = none) :
    exec (.coreThermalShutdown turret) s = .next (((((s.heatTripped (coreDie turret)).raiseSrc (coreSrc turret) 0x0A06 3
      (BitVec.ofNat 32 (coreDie turret).val)).gatesShut turret).railsShut turret).domeShut) := by
  rw [exec_coreThermalShutdown, execCoreThermalShutdown]
  dsimp only
  have hs' : (s.die[if turret = true then (1 : DieIx) else 0]).shutAt = none := hs
  rw [hs', decide_eq_false hm]
  rfl

/-! Every rail off -/

variable {r : Rail}

theorem off_put (h : t.railState r = 0) {f : Fld} (hf : f.addr ≠ R.RAIL_STAT r ∨ 3 ≤ f.lo ∧ f.lo + f.w ≤ 32) (v : Nat) : (t.put f v).railState r = 0 := by
  refine Eq.trans (State.get_put_far _ _ _ _ ?_) h
  rcases hf with hf | ⟨hlo, hhi⟩
  · exact .inl hf
  · exact .inr ⟨Nat.le_of_ble_eq_true rfl, .inl hlo⟩

theorem off_state (k : Rail) (h : k = r ∨ t.railState r = 0) : (t.put (R.RAIL_STAT_STATE k) 0).railState r = 0 := by
  by_cases hk : k = r
  · subst hk
    exact State.get_put_near _ _ _ (Nat.le_of_ble_eq_true rfl)
  · exact off_put (h.resolve_left hk) (.inl (stat_inj hk).symm) 0

theorem off_setGood (h : t.railState r = 0) (q : Rail) : (t.setGood q false).railState r = 0 := by
  have one (t : State) (k : Rail) (h : t.railState r = 0) :
      ((t.putFlag (R.RAIL_STAT_GOOD k) false).put ⟨R.RAIL_GOOD, k.val, 1⟩ (if false then 1 else 0)).railState r = 0 :=
    off_put (off_put h (.inr ⟨Nat.le_of_ble_eq_true rfl, Nat.le_of_ble_eq_true rfl⟩) _) (.inl (stat_ne_good r).symm) _
  unfold State.setGood
  dsimp only
  split
  · exact one _ _ (one t q h)
  · exact one t q h

theorem off_setRailState (q : Rail) (h : q = r ∨ t.railState r = 0) : (t.setRailState q 0).railState r = 0 := by
  have one (t : State) (k : Rail) (h : k = r ∨ t.railState r = 0) :
      ((t.put (R.RAIL_STAT_STATE k) 0).putFlag (R.RAIL_STAT_BURST k) false).railState r = 0 :=
    off_put (off_state k h) (.inr ⟨Nat.le_of_ble_eq_true rfl, Nat.le_of_ble_eq_true rfl⟩) _
  have phase (t : State) (k : Rail) (b : Bool) (h : t.railState r = 0) : (t.putFlag (R.RAIL_STAT_PHASE2 k) b).railState r = 0 :=
    off_put h (.inr ⟨Nat.le_of_ble_eq_true rfl, Nat.le_of_ble_eq_true rfl⟩) _
  unfold State.setRailState
  dsimp only
  split
  · exact one _ _ (.inr (phase _ _ _ (one t q h)))
  · exact phase _ _ _ (one t q h)

theorem off_railOffNow (q : Rail) (h : q = r ∨ t.railState r = 0) : (t.railOffNow q).railState r = 0 :=
  off_setRailState q (h.imp_right fun h => off_setGood h q)

/-- Every rail off, before the sequencer's own record. -/
def State.allOff (s : State) : State := forAll allRails (fun r t => t.railOffNow r) s

theorem allOff_onRails (s : State) : OnRails s s.allOff := OnRails.forAll (fun r t => railOffNow_onRails t r) _ s

theorem railsOff_eq (u : State) (hu : u = s.allOff) :
    s.railsOff = ({ u with seqr := { u.seqr with active := false, step8From := none } } : State).putFlag R.SEQ_STAT_SEQ_OUT false := hu ▸ rfl

theorem seqStat_ne_stat (r : Rail) : R.SEQ_STAT ≠ R.RAIL_STAT r := by
  revert r
  decide

theorem railsOff_state (r : Rail) : s.railsOff.railState r = 0 := by
  obtain ⟨u, hu⟩ : ∃ u, u = s.allOff := ⟨_, rfl⟩
  have hall : u.railState r = 0 := hu ▸
    forAll_establishes (P := fun t => t.railState r = 0) (fun t => off_railOffNow r (.inl rfl)) (fun q t h => off_railOffNow q (.inr h))
      (List.mem_finRange r) s
  have hall' : ({ u with seqr := { u.seqr with active := false, step8From := none } } : State).railState r = 0 := hall
  rw [railsOff_eq u hu]
  exact off_put hall' (.inl (seqStat_ne_stat r)) _

theorem railOffNow_power (s : State) (r : Rail) : (s.railOffNow r).power = s.power := by
  have hgood (t : State) : (t.setGood r false).power = t.power := by
    unfold State.setGood
    dsimp only
    split <;> simp only [State.put_power, State.putFlag_power]
  have hstate (t : State) : (t.setRailState r 0).power = t.power := by
    unfold State.setRailState
    dsimp only
    split <;> simp only [State.put_power, State.putFlag_power]
  exact (hstate _).trans (hgood s)

theorem railOffNow_die (s : State) (r : Rail) : (s.railOffNow r).die = s.die := by
  have hgood (t : State) : (t.setGood r false).die = t.die := by
    unfold State.setGood
    dsimp only
    split <;> simp only [State.put_die, State.putFlag_die]
  have hstate (t : State) : (t.setRailState r 0).die = t.die := by
    unfold State.setRailState
    dsimp only
    split <;> simp only [State.put_die, State.putFlag_die]
  exact (hstate _).trans (hgood s)

/-- What the shutting of rails and gates leaves of the dies, the tick and the event store. -/
structure CoreKept (s t : State) : Prop where
  die : t.die = s.die
  hp : t.hp = s.hp
  power : t.power = s.power

theorem railsOff_kept : CoreKept s s.railsOff := by
  obtain ⟨u, hu⟩ : ∃ u, u = s.allOff := ⟨_, rfl⟩
  have hdie : u.die = s.die := hu ▸ forAll_keeps State.die (fun r t => railOffNow_die t r) _ _
  have hpower : u.power = s.power := hu ▸ forAll_keeps State.power (fun r t => railOffNow_power t r) _ _
  have hhp : u.hp = s.hp := hu ▸ (allOff_onRails s).hp
  rw [railsOff_eq u hu]
  exact ⟨hdie, hhp, hpower⟩

theorem railsShut_kept (turret : Bool) : CoreKept s (s.railsShut turret) := by
  cases turret
  · exact ⟨rfl, rfl, rfl⟩
  · exact railsOff_kept

theorem gatesShut_kept (turret : Bool) : (s.gatesShut turret).die = s.die ∧ (s.gatesShut turret).hp = s.hp := by
  unfold State.gatesShut
  split <;> exact ⟨rfl, rfl⟩

theorem gatesShut_off (turret : Bool) (h : s.inBuskeep = false ∨ turret = true) : (s.gatesShut turret).power.gatesOn = false := by
  have hno : (s.inBuskeep && !turret) = false := by
    rcases h with h | h <;> rw [h]
    · rfl
    · exact Bool.and_false _
  unfold State.gatesShut
  rw [hno]
  rfl

theorem domeShut_railState (t : State) (r : Rail) : t.domeShut.railState r = t.railState r := rfl

theorem railsShut_turret (t : State) : t.railsShut true = t.railsOff := rfl

/-- A shutdown of the Dome or the Turret (R390). -/
theorem coreThermalShutdown_shuts (turret : Bool) (hm : s.mode.mode ≠ .ship) (hs : (s.die[coreDie turret]).shutAt = none) :
    ∃ t, exec (.coreThermalShutdown turret) s = .next t ∧ (t.die[coreDie turret]).shutAt = some s.tick.wall ∧ t.mode.domeOn = false ∧
      t.mode.domeRun = false ∧ t.mode.keep = .off ∧ t.hp.linkUp = false ∧ t.arb.tenure = none ∧
      (s.inBuskeep = false ∨ turret = true → t.power.gatesOn = false) ∧ (turret = true → ∀ r : Rail, t.railState r = 0) ∧
      (s.flt.active.contains (coreSrc turret) = false ∨ s.flt.told.contains (coreSrc turret) = true → s.Room →
        Stored s t 0x0A06 3 (BitVec.ofNat 32 (coreDie turret).val)) := by
  obtain ⟨u, hu⟩ : ∃ u, u = (s.heatTripped (coreDie turret)).raiseSrc (coreSrc turret) 0x0A06 3 (BitVec.ofNat 32 (coreDie turret).val) := ⟨_, rfl⟩
  have hexec := coreThermalShutdown_eq turret hm hs
  rw [← hu] at hexec
  have hdie : u.die = (s.modDie (coreDie turret) fun x => { x with shutAt := some s.tick.wall }).die := hu ▸ State.raiseSrc_die ..
  have hkeep : u.inBuskeep = s.inBuskeep := by
    rw [hu, State.inBuskeep, State.raiseSrc_flag_far _ _ _ _ _ _ _ (by decide)]
    exact State.flag_count_far _ _ _ _ (.inl (by decide))
  obtain ⟨hgdie, hghp⟩ := gatesShut_kept (s := u) turret
  have hr := railsShut_kept (s := u.gatesShut turret) turret
  have hdomeDie : ((u.gatesShut turret).railsShut turret).domeShut.die = ((u.gatesShut turret).railsShut turret).die := rfl
  have hall := hdomeDie.trans (hr.die.trans (hgdie.trans hdie))
  refine ⟨_, hexec, ?_, rfl, rfl, rfl, rfl, rfl, fun hb => ?_, fun ht r => ?_, fun hfresh hroom => ?_⟩
  · simp only [hall]
    exact congrArg DieTh.shutAt (modDie_die (d := coreDie turret) _)
  · have hp : ((u.gatesShut turret).railsShut turret).domeShut.power = (u.gatesShut turret).power := hr.power
    rw [hp]
    exact gatesShut_off turret (hkeep.symm ▸ hb)
  · subst ht
    rw [domeShut_railState, railsShut_turret, railsOff_state]
  · have hst : Stored s u 0x0A06 3 (BitVec.ofNat 32 (coreDie turret).val) :=
      hu ▸ (heatTripped_grows (s := s) (coreDie turret)).stored_own hroom _ _ _ _ _ hfresh
    have hev : ((u.gatesShut turret).railsShut turret).domeShut.hp.events = ((u.gatesShut turret).railsShut turret).hp.events := rfl
    exact hst.same (hev.trans (congrArg HostPort.events (hr.hp.trans hghp)))


end Shutdown

/-- Settles O52: the sensors, the rates and the levels of the dies, and what their comparators turn off. -/
theorem temperaturesAreWatched : Obligations.TemperaturesAreWatched := by
  unfold Obligations.TemperaturesAreWatched
  intro s
  refine ⟨fun d hk hc hstart hp hsens => ⟨fun hb => ?_, fun hb v hv hl => ?_⟩, fun d n hk hc hn hl => ⟨fun hw => ?_, fun hw => ?_⟩,
    fun die => ⟨fun hm hs => ?_, fun n hs => ⟨fun hw => ?_, fun hw => ?_⟩⟩, fun turret hm hs => ?_⟩
  · exact thermalRateSample_one hk hc hstart hp (Q := fun x => x.sensor = true ∧ x.valid = false) fun t ht =>
      thermalOne_bad (by rw [ht]; exact hsens) (by rw [ht]; exact hb)
  · refine thermalRateSample_one hk hc hstart hp (Q := fun x => x.valid = true ∧ x.temps = v :: (s.die[d]).temps ∧
      x.rate = satI 16 ((v - (s.die[d]).temps.getD 19 0) * 5)) fun t ht => ?_
    rw [← ht]
    exact thermalOne_good (by rw [ht]; exact hsens) (by rw [ht]; exact hb) (by rw [ht]; exact hv) (by rw [ht]; exact hl)
  · have hfreed := levelFreed_kept (s.levelFallen d (s.die[d]).level.toNat) d (s.die[d]).level.toNat
    have hdie := hfreed.die.trans (levelFallen_die (s := s) (d := d) (s.die[d]).level.toNat)
    refine ⟨_, (thermalLevelFall_eq n hk hc hn hl).trans (if_pos hw), ?_, ?_, ?_, fun k hne => ?_, ?_, fun hr => ?_⟩
    · simp only [hdie]
      exact (congrArg DieTh.level (modDie_die _)).trans (level_down (hl.imp_right fun h => h.imp_right And.left))
    · simp only [hdie]
      exact congrArg DieTh.levelAt (modDie_die _)
    · simp only [hdie]
      exact congrArg DieTh.holdFrom (modDie_die _)
    · simp only [hdie]
      exact modDie_other _ hne
    · exact hfreed.units.trans ((State.raise_units ..).trans (State.siltPush_units ..))
    · exact (levelFallen_stored _ hr).same hfreed.events
  · exact (thermalLevelFall_eq n hk hc hn hl).trans (if_neg (Nat.not_le.mpr hw))
  · have hdie : ((s.stageShut die).raiseSrc ⟨0x20 + die.val, by omega⟩ 0x0A04 2 (BitVec.ofNat 32 (dieIxOf die).val) true).die =
        (s.modDie (dieIxOf die) fun x => { x with shutAt := some s.tick.wall }).die := (State.raiseSrc_die ..).trans (stageShut_die die)
    have hshut := congrArg DieTh.shutAt (modDie_die (s := s) (d := dieIxOf die) fun x => { x with shutAt := some s.tick.wall })
    refine ⟨_, stageThermalShutdown_eq die hm hs, ?_, fun c hc => ?_, fun k hk => ?_, fun hfresh hr => ?_⟩
    · simp only [hdie]
      exact hshut
    · unfold State.dieHot
      simp only [dieOf_mem hc, hdie]
      exact Bool.or_eq_true_iff.mpr (.inl (by rw [hshut]; rfl))
    · simp only [hdie]
      exact modDie_other _ hk
    · refine ((heatTripped_grows (s := s) (dieIxOf die)).siltPush _ _ _ _).stored_own hr _ _ _ _ _ ?_
      rw [siltPush_flt]
      exact hfresh
  · exact ⟨_, (stageThermalRelease_eq die n hs).trans (if_pos hw), stageRelease_shows die _ rfl⟩
  · exact (stageThermalRelease_eq die n hs).trans (if_neg (Nat.not_le.mpr hw))
  · exact coreThermalShutdown_shuts turret hm hs

end Sys2Proof.Machine
end

section
/-! PROOFS. The Silt log: records written, copied and erased (R402 to R406). -/

namespace Sys2Proof.Machine

/-! What events do to the log -/

section Events

variable {s : State}

theorem State.classCount_silt (k : BitVec 2) : (s.classCount k).silt = s.silt := by
  unfold classCount
  split <;> rfl

theorem State.storeEvent_silt (e : Evt) : (s.storeEvent e).silt = s.silt := by
  unfold storeEvent
  dsimp only
  repeat' split
  all_goals rfl

theorem State.errPulse_silt : s.errPulse.silt = s.silt := by
  unfold errPulse
  dsimp only
  split <;> rfl

theorem State.notice_silt (c : BitVec 16) (k : BitVec 2) (d : W32) : (s.notice c k d).silt = s.silt := by
  unfold notice sendNotice
  repeat' split
  all_goals rfl

/-- An F0 event leaves no record. -/
theorem State.raise_zero_silt (c : BitVec 16) (d : W32) : (s.raise c 0 d).silt = s.silt := by
  unfold raise raiseWith
  dsimp only
  rw [notice_silt, if_neg (by decide), if_neg (by decide)]
  split
  · rw [apply_ite State.silt, errPulse_silt, ite_self, storeEvent_silt, classCount_silt]
  · rw [apply_ite State.silt, errPulse_silt, ite_self, classCount_silt]

/-- Where the log stands: the write in progress, the newest slot and its SEQ. -/
def Silt.place (x : Silt) : Option (SiltBody × Bool) × Nat × Nat := (x.writing, x.head, x.seq)

theorem State.siltStart_busy (h : s.silt.writing.isSome = true) : s.siltStart = s := by
  unfold siltStart
  rw [Option.isNone_eq_false_iff.mpr h]
  rfl

theorem State.siltStart_empty (h : s.silt.queue = []) : s.siltStart = s := by
  rw [siltStart.eq_def, h]
  exact ite_self _

/-- While a record is being written a further one only joins the queue. -/
theorem State.siltPush_place (h : s.silt.writing.isSome = true) (ty : Byte) (k : BitVec 2) (c : BitVec 16) (p : List Byte) :
    (s.siltPush ty k c p).silt.place = s.silt.place := by
  unfold siltPush
  extract_lets b
  split
  · have hbusy : (s.modSilt fun x => { x with queue := siltInsert x.queue b }).silt.writing.isSome = true := h
    rw [siltStart_busy hbusy]
    rfl
  · split <;> rfl

theorem State.f2Record_place (h : s.silt.writing.isSome = true) (c : BitVec 16) (p : List Byte) : (s.f2Record c p).silt.place = s.silt.place := by
  have hmod (l : List (BitVec 16 × Nat)) : ((s.modSilt fun x => { x with f2Last := l }).siltPush 1 2 c p).silt.place = s.silt.place :=
    siltPush_place (s := s.modSilt fun x => { x with f2Last := l }) h _ _ _ _
  unfold f2Record
  split
  · split
    · rfl
    · exact hmod _
  · exact hmod _

theorem State.raise_two_place (h : s.silt.writing.isSome = true) (c : BitVec 16) (d : W32) : (s.raise c 2 d).silt.place = s.silt.place := by
  unfold raise raiseWith
  extract_lets u v w x y z
  have hu : u.silt = s.silt := classCount_silt 2
  have hv : v.silt = s.silt := by
    unfold v
    rw [apply_ite State.silt, storeEvent_silt, ite_self, hu]
  have hw : w.silt = s.silt := by
    unfold w
    rw [apply_ite State.silt, errPulse_silt, ite_self, hv]
  have hx : x.silt = s.silt := hw
  have hz : z = x.f2Record c (x.eventPayload d 0x7F false) := (if_pos rfl).trans (if_neg Bool.false_ne_true)
  rw [notice_silt, hz, f2Record_place (by rw [hx]; exact h), hx]

end Events

/-! Writes -/

section Write

variable {s : State}

/-- The log with its record committed (R402). -/
def Silt.committed (x : Silt) (b : SiltBody) (slot : Nat) : Silt :=
  { x with slots := x.slots.set (slot % 512) (.valid (BitVec.ofNat 32 (x.seq + 1)) b) (Nat.mod_lt _ (by decide)), head := slot,
           seq := x.seq + 1, writing := none }

theorem siltRecordWriteDone_commits {b : SiltBody} {second : Bool} (hw : s.silt.writing = some (b, second)) (hq : s.silt.queue = []) :
    exec (.siltRecordWriteDone true) s = .next (s.modSilt fun x => x.committed b ((x.head + if second then 2 else 1) % 512)) := by
  have hidle : (s.modSilt fun x => x.committed b ((x.head + if second then 2 else 1) % 512)).silt.queue = [] := hq
  rw [exec_siltRecordWriteDone, execSiltRecordWriteDone.eq_def, hw]
  exact congrArg Host.Outcome.next (State.siltStart_empty hidle)

theorem committed_slots (x : Silt) (b : SiltBody) {slot : Nat} (hs : slot < 512) (k : Fin 512) :
    (x.committed b slot).slots[k] = if k.val = slot then .valid (BitVec.ofNat 32 (x.seq + 1)) b else x.slots[k] := by
  have hmod : slot % 512 = slot := Nat.mod_eq_of_lt hs
  simp only [Silt.committed, Fin.getElem_fin, Vector.getElem_set, hmod, eq_comm (a := slot)]

/-- A record that reads back differently is written once more (R402). -/
def State.retried (s : State) (b : SiltBody) : State :=
  (s.modSilt fun x => x.begin b true).raise 0x0B0A 2 (BitVec.ofNat 32 ((s.silt.head + 1) % 512))

theorem siltRecordWriteDone_retries {b : SiltBody} (hw : s.silt.writing = some (b, false)) :
    exec (.siltRecordWriteDone false) s = .next (s.retried b) ∧ (s.retried b).silt.place = (some (b, true), s.silt.head, s.silt.seq) := by
  have hplace : (s.retried b).silt.place = (some (b, true), s.silt.head, s.silt.seq) :=
    State.raise_two_place (s := s.modSilt fun x => x.begin b true) rfl _ _
  refine ⟨?_, hplace⟩
  have hbusy : (s.retried b).silt.writing.isSome = true := by
    rw [show (s.retried b).silt.writing = some (b, true) from congrArg Prod.fst hplace]
    rfl
  rw [exec_siltRecordWriteDone, execSiltRecordWriteDone.eq_def, hw]
  exact congrArg Host.Outcome.next (State.siltStart_busy hbusy)

end Write

/-! Copies and erasures -/

section Copy

variable {s : State}

/-- The records that a copy writes (R405). -/
def State.copyRecords (s : State) (l : Lend) : List (List Byte) := (s.silt.ordered.take (l.len / 64)).map fun r => siltRecord r.1 r.2

/-- Their writes on the way to the host. -/
def State.copyWrites (s : State) (l : Lend) : List DataWr :=
  (s.copyRecords l).zipIdx.map fun p => ⟨22, .silt, s.reg R.SILT_COPY, l.addr.toNat + 64 * p.2, p.1⟩

/-- The state of a copy that has begun. -/
def State.copyBegun (s : State) (l : Lend) : State :=
  ((s.modSilt fun x => { x with copy := some (s.reg R.SILT_COPY, (s.copyRecords l).length) }).putFlag R.SILT_COPY_CTRL_DONE false).modArb
    fun a => { a with data := a.data ++ s.copyWrites l }

theorem siltCopyGo_begins (hw : s.hostWritable = true) {l : Lend} (hc : s.silt.copy = none) (hl : s.lendOf (s.reg R.SILT_COPY) = some l) (h16 : l.ring = 16) :
    exec .siltCopyGo s = .next (s.copyBegun l) := by
  rw [exec_siltCopyGo, execSiltCopyGo, if_pos hw, State.siltCopyGo.eq_def]
  dsimp only
  rw [hc, if_neg (by decide), hl]
  dsimp only
  rw [if_pos h16]
  rfl

theorem copyWrites_bytes (l : Lend) : (s.copyWrites l).map (·.bytes) = s.copyRecords l := by
  unfold State.copyWrites
  rw [List.map_map]
  exact List.zipIdx_map_fst 0 _

theorem siltCopyGo_refuses (hw : s.hostWritable = true) (hc : s.silt.copy = none) (hl : s.lendOf (s.reg R.SILT_COPY) = none) :
    exec .siltCopyGo s = .next (s.raise 0x0B09 0 (s.reg R.SILT_COPY)) := by
  rw [exec_siltCopyGo, execSiltCopyGo, if_pos hw, State.siltCopyGo.eq_def]
  dsimp only
  rw [hc, if_neg (by decide), hl]

/-- The state of a copy that has ended, before its event. -/
def State.siltCopied (s : State) (n : Nat) : State :=
  (((s.modSilt fun x => { x with copy := none }).modArb fun a => { a with data := a.data.filter fun d => d.job ≠ .silt }).putFlag
    R.SILT_COPY_CTRL_DONE true).put R.SILT_COPY_CTRL_COUNT n

theorem siltCopyDone_ends (hclk : s.clockOn = true) {tag : W32} {n : Nat} (hc : s.silt.copy = some (tag, n)) (hd : ∀ d ∈ s.arb.data, d.job ≠ .silt)
    (ht : s.arb.tenure = none) : exec .siltCopyDone s = .next ((s.siltCopied n).raise 0x0B08 0 (BitVec.ofNat 32 n)) := by
  have hnone : (s.arb.data.filter fun d => d.job = .silt) = [] := List.filter_eq_nil_iff.mpr fun d hm => by simpa using hd d hm
  have hany : (s.arb.data.any fun d => d.job = .silt) = false := by
    rw [List.any_eq_false]
    exact fun d hm => by simpa using hd d hm
  rw [exec_siltCopyDone, execSiltCopyDone.eq_def, ht]
  dsimp only
  rw [hclk, hc, hany, if_pos (by rfl), State.siltCopyEnd.eq_def, hc]
  dsimp only
  rw [hnone]
  rfl

theorem siltCopied_done (n : Nat) : (s.siltCopied n).flag R.SILT_COPY_CTRL_DONE = true := by
  unfold State.siltCopied
  rw [State.flag_put_far _ _ _ _ (by decide)]
  exact State.flag_putFlag_near _ _ _ (by decide)

/-- The log of an erasure under way, and of one that has ended (R406). -/
def Silt.erasingNow (x : Silt) : Silt :=
  { x with erasing := true, slots := x.slots.map fun y => if y = .erased then .erased else .torn }

theorem siltEraseDone_empties (he : s.silt.erasing = true) (hq : s.silt.queue = []) : exec .siltEraseDone s =
    .next (s.modSilt fun x => { x with erasing := false, slots := Vector.replicate 512 .erased, head := 511 }) := by
  rw [exec_siltEraseDone, execSiltEraseDone, if_pos he, State.siltStart_empty]
  exact hq

end Copy

/-- Settles O53: writes, retries, a failing supply, copies and erasures of the Silt log. -/
theorem theSiltLogKeepsRecords : Obligations.TheSiltLogKeepsRecords := by
  unfold Obligations.TheSiltLogKeepsRecords
  intro s
  refine ⟨fun b second hw hq => ⟨?_, fun hs => ?_⟩, rfl, ?_, fun hw => ⟨fun l hc hl h16 => ?_, fun hc hl => ?_, fun hm => ?_, fun hm => ?_⟩,
    fun tag n hclk hc hd ht => ?_, fun he hq => ?_⟩
  · exact ⟨_, siltRecordWriteDone_commits hw hq, rfl, rfl, rfl, fun k => committed_slots _ b (Nat.mod_lt _ (by decide)) k, rfl⟩
  · subst hs
    obtain ⟨hexec, hplace⟩ := siltRecordWriteDone_retries hw
    have hbegin : Grows s (s.modSilt fun x => x.begin b true) 0 := .of_same rfl rfl rfl
    exact ⟨_, hexec, (congrArg Prod.fst hplace :), (congrArg (fun p => p.2.1) hplace :), (congrArg (fun p => p.2.2) hplace :),
      fun hr => hbegin.stored hr (by decide) _ _ _ {}⟩
  · refine ⟨_, rfl, ?_, fun hq => ?_⟩
    · unfold State.siltStart
      split
      · split <;> rfl
      · rfl
    · rw [State.siltStart_empty (s := s.modSilt fun x => { x with supplyLow := false }) hq]
      rfl
  · refine ⟨_, siltCopyGo_begins hw hc hl h16, ?_, ?_, ?_⟩
    · have hlen : (s.copyRecords l).length = min (l.len / 64) s.silt.ordered.length := by
        rw [State.copyRecords, List.length_map, List.length_take]
      exact hlen ▸ rfl
    · exact State.flag_putFlag_near (s.modSilt fun x => { x with copy := some (s.reg R.SILT_COPY, (s.copyRecords l).length) }) _ _ (by decide)
    · have hdata : (s.copyBegun l).arb.data = s.arb.data ++ s.copyWrites l := rfl
      rw [hdata, List.drop_left]
      exact copyWrites_bytes l
  · exact ⟨_, siltCopyGo_refuses hw hc hl, State.raise_zero_silt .., State.raise_arb .., fun hr => .of_raise s hr _ _ _⟩
  · refine ⟨s.modSilt Silt.erasingNow, (if_pos hw).trans (congrArg Host.Outcome.next (if_pos hm)), rfl, rfl, fun k => ?_⟩
    exact Vector.getElem_map ..
  · exact ⟨_, (if_pos hw).trans (congrArg Host.Outcome.next (if_neg hm)), State.raise_zero_silt .., fun hr => .of_raise s hr _ _ _⟩
  · refine ⟨_, siltCopyDone_ends hclk hc hd ht, (State.raise_zero_silt ..).trans rfl, ?_, fun hr => ?_⟩
    · rw [State.raise_flag_far _ _ _ _ _ (by decide), siltCopied_done]
    · have hbase : Grows s ((s.modSilt fun x => { x with copy := none }).modArb fun a => { a with data := a.data.filter fun d => d.job ≠ .silt }) 0 :=
        .of_same rfl rfl rfl
      exact ((hbase.putFlag (by decide) true).put (by decide) n).stored hr (by decide) _ _ _ {}
  · exact ⟨_, siltEraseDone_empties he hq, rfl, rfl, fun k => Vector.getElem_replicate ..⟩

end Sys2Proof.Machine
end

section
/-! PROOFS. Freeze and thaw (R408 to R414). -/

namespace Sys2Proof.Machine

/-! What the follow-up of a thaw leaves alone -/

section Kept

variable {s t u : State}

/-- The words of the freeze block that tell of the latest freeze. -/
def FrzWord (a : Nat) : Prop := 0x3508 ≤ a ∧ a < 0x3524

theorem FrzWord.far {a b : Nat} (h : FrzWord a) (hb : b < 0x3508 ∨ 0x3524 ≤ b) : a ≠ b := by
  obtain ⟨hlo, hhi⟩ := h
  omega

theorem FrzWord.no_event {a : Nat} (h : FrzWord a) : a ∉ eventRegs := by
  have hall : ∀ x ∈ eventRegs, x < 0x3508 ∨ 0x3524 ≤ x := by decide
  exact fun hmem => h.far (hall a hmem) rfl

/-- The tick base, the freeze block's state and words, and whether the module is frozen. -/
structure FrzKept (s t : State) : Prop where
  now : t.tick.now = s.tick.now
  replay : t.tick.replay = s.tick.replay
  frozen : t.mode.frozen = s.mode.frozen
  frz : t.frz = s.frz
  reg : ∀ a, FrzWord a → t.reg a = s.reg a

theorem FrzKept.refl (s : State) : FrzKept s s := ⟨rfl, rfl, rfl, rfl, fun _ _ => rfl⟩

theorem FrzKept.trans (h : FrzKept s t) (g : FrzKept t u) : FrzKept s u :=
  ⟨g.now.trans h.now, g.replay.trans h.replay, g.frozen.trans h.frozen, g.frz.trans h.frz, fun a ha => (g.reg a ha).trans (h.reg a ha)⟩

theorem FrzKept.put (h : FrzKept s t) {f : Fld} (hf : f.addr < 0x3508 ∨ 0x3524 ≤ f.addr) (v : Nat) : FrzKept s (t.put f v) :=
  h.trans ⟨rfl, rfl, rfl, rfl, fun _ ha => State.reg_put_far _ _ _ _ (ha.far hf)⟩

theorem FrzKept.raise (h : FrzKept s t) (c : BitVec 16) (k : BitVec 2) (d : W32) : FrzKept s (t.raise c k d) :=
  h.trans ⟨congrArg TickSt.now (State.raise_tick ..), congrArg TickSt.replay (State.raise_tick ..), State.raise_mode_frozen .., State.raise_frz ..,
    fun _ ha => State.raise_reg _ _ _ _ _ ha.no_event⟩

theorem FrzKept.raiseSrc (h : FrzKept s t) (i : Fin 128) (c : BitVec 16) (k : BitVec 2) (d : W32) (o : Bool) : FrzKept s (t.raiseSrc i c k d o) :=
  h.trans ⟨congrArg TickSt.now (State.raiseSrc_tick ..), congrArg TickSt.replay (State.raiseSrc_tick ..), State.raiseSrc_mode_frozen ..,
    State.raiseSrc_frz .., fun _ ha => State.raiseSrc_reg _ _ _ _ _ _ _ ha.no_event⟩

theorem FrzKept.raiseLimited (h : FrzKept s t) (c : BitVec 16) (k : BitVec 2) (d : W32) (i n : Nat) : FrzKept s (t.raiseLimited c k d i n) :=
  h.trans ⟨congrArg TickSt.now (State.raiseLimited_tick ..), congrArg TickSt.replay (State.raiseLimited_tick ..), State.raiseLimited_mode_frozen ..,
    State.raiseLimited_frz .., fun _ ha => State.raiseLimited_reg _ _ _ _ _ _ _ ha.no_event⟩

theorem FrzKept.modRing (h : FrzKept s t) (q : Ring) (f : RingSt → RingSt) : FrzKept s (t.modRing q f) := h.trans ⟨rfl, rfl, rfl, rfl, fun _ _ => rfl⟩

theorem FrzKept.ite {p : Prop} [Decidable p] (h : FrzKept s t) (g : FrzKept s u) : FrzKept s (if p then t else u) := by
  split
  · exact h
  · exact g

theorem FrzKept.forAll {α : Type} {f : α → State → State} (hf : ∀ a t, FrzKept t (f a t)) (l : List α) (s : State) : FrzKept s (forAll l f s) := by
  induction l generalizing s with
  | nil => exact .refl s
  | cons a _ ih => exact (hf a s).trans (ih (f a s))

theorem FrzKept.foldl {α : Type} {f : State → α → State} (hf : ∀ t a, FrzKept t (f t a)) (l : List α) (s : State) : FrzKept s (l.foldl f s) := by
  induction l generalizing s with
  | nil => exact .refl s
  | cons a _ ih => exact (hf s a).trans (ih (f s a))

/-! Completions -/

theorem completeOne_frzKept (s : State) (q : Ring) (x : InExec) (st : Byte) (i : W64) (b : Bool) : FrzKept s (s.completeOne q x st i b) := by
  have hcnt : (R.Q_CNT_REFUSED q).addr < 0x3508 ∨ 0x3524 ≤ (R.Q_CNT_REFUSED q).addr := by
    have := q.isLt
    simp only [R.Q_CNT_REFUSED, R.Q_CNT]
    omega
  unfold State.completeOne
  extract_lets shown t u
  have ht : FrzKept s t := ⟨congrArg TickSt.now (State.hold_tick ..), congrArg TickSt.replay (State.hold_tick ..),
    congrArg ModeSt.frozen (State.hold_mode ..), State.hold_frz .., fun a _ => State.hold_reg ..⟩
  split
  · exact ht
  · exact ((ht.put hcnt _).raiseLimited ..).ite (ht.put hcnt _)

theorem complete_frzKept (s : State) (q : Ring) (tag : BitVec 16) (slot : Nat) (st : Byte) (i : W64) (b : Bool) :
    FrzKept s (s.complete q tag slot st i b) := by
  unfold State.complete
  split
  · exact ((completeOne_frzKept s q _ st i b).modRing q _).trans
      (((FrzKept.refl _).modRing q _).trans (.foldl (fun t x => completeOne_frzKept t q x 0 0 true) _ _))
  · exact .refl s

/-! Channels and doorbells -/

theorem legFault_frzKept (s : State) (c : Ch) (l : Leg) (why : Nat) (stuck : Bool) : FrzKept s (s.legFault c l why stuck) := by
  have hcnt : (R.CH_STAGE_CNT_LEGFLT c).addr < 0x3508 ∨ 0x3524 ≤ (R.CH_STAGE_CNT_LEGFLT c).addr := by
    simp only [R.CH_STAGE_CNT_LEGFLT, R.CH_STAGE_CNT]
    omega
  unfold State.legFault
  split
  · exact .refl s
  · extract_lets other t u v
    have ht : FrzKept s t := ⟨rfl, rfl, rfl, rfl, fun _ _ => rfl⟩
    have hu : FrzKept s u := ht.put hcnt _
    have hv : FrzKept s v := (hu.raise ..).ite ((hu.raise ..).ite (hu.raise ..))
    exact (hv.raiseSrc ..).ite hv

theorem chanThaw_frzKept (s : State) (c : Ch) : FrzKept s (s.chanThaw c) := by
  unfold State.chanThaw
  extract_lets g t
  have ht : FrzKept s t := ⟨rfl, rfl, rfl, rfl, fun _ _ => rfl⟩
  split
  · exact ht.trans (legFault_frzKept ..)
  · exact ht

theorem haltRing_frzKept (s : State) (q : Ring) (why : Byte) : FrzKept s (s.haltRing q why) := by
  unfold State.haltRing
  extract_lets t u v
  have ht : FrzKept s t := (FrzKept.refl s).modRing q _
  have hv : FrzKept s v := ((ht.put (by decide) _).put (by decide) _).raise ..
  split
  · exact hv.trans ⟨rfl, rfl, rfl, rfl, fun _ _ => rfl⟩
  · exact hv

theorem doorbell_frzKept (s : State) (q : Ring) (v : W32) (be : BitVec 4) : FrzKept s (s.doorbell q v be) := by
  have hdisc (r : Nat) : FrzKept s (s.dbDiscard r q.val) := ((FrzKept.refl s).put (by decide) _).raise ..
  unfold State.doorbell
  extract_lets r size chk
  clear_value chk
  split
  · exact hdisc 2
  · split
    · exact hdisc 3
    · cases chk
      · exact (FrzKept.refl s).modRing q _
      · exact (hdisc 5).ite (haltRing_frzKept ..)

theorem applyLatched_frzKept (s : State) : FrzKept s s.applyLatched := by
  unfold State.applyLatched
  extract_lets l t
  have ht : FrzKept s t := ⟨rfl, rfl, rfl, rfl, fun _ _ => rfl⟩
  refine ht.trans (.forAll (fun q t => ?_) _ _)
  split
  · exact doorbell_frzKept ..
  · exact .refl t

theorem raiseTimes_frzKept (s : State) (c : BitVec 16) (n : Nat) : FrzKept s (s.raiseTimes c n) :=
  .foldl (fun t _ => (FrzKept.refl t).raise ..) _ _

end Kept

/-! The thaw itself -/

section Thaw

variable {s t u : State}

/-- What a thaw shows of the tick base and of the freeze block (R410, R413). -/
structure Thawing (s : State) (nT : Nat) (t : State) : Prop where
  frozen : t.mode.frozen = false
  now : t.tick.now = BitVec.ofNat 64 (s.now + s.gapOf nT)
  flag : t.flag R.FRZ_STAT_FROZEN = false
  lastD : t.reg64 R.FRZ_LAST_D = BitVec.ofNat 64 (s.gapOf nT)
  replay : s.tick.replay = none → t.tick.replay = some { tf := s.now, tend := s.now + s.gapOf nT }

theorem Thawing.kept {nT : Nat} (h : Thawing s nT t) (hnow : u.tick.now = t.tick.now) (hrep : u.tick.replay = t.tick.replay)
    (hfro : u.mode.frozen = t.mode.frozen) (hflag : u.flag R.FRZ_STAT_FROZEN = t.flag R.FRZ_STAT_FROZEN)
    (hd : u.reg64 R.FRZ_LAST_D = t.reg64 R.FRZ_LAST_D) : Thawing s nT u :=
  ⟨hfro.trans h.frozen, hnow.trans h.now, hflag.trans h.flag, hd.trans h.lastD, fun hr => hrep.trans (h.replay hr)⟩

theorem frzWord_stat : FrzWord R.FRZ_STAT := ⟨by decide, by decide⟩
theorem frzWord_lastD : FrzWord R.FRZ_LAST_D ∧ FrzWord (R.FRZ_LAST_D + 4) := ⟨⟨by decide, by decide⟩, ⟨by decide, by decide⟩⟩

theorem FrzKept.stat (h : FrzKept s t) {f : Fld} (hf : f.addr = R.FRZ_STAT) : t.flag f = s.flag f := by
  simp only [State.flag, State.get, h.reg f.addr (hf ▸ frzWord_stat)]

theorem FrzKept.lastD (h : FrzKept s t) : t.reg64 R.FRZ_LAST_D = s.reg64 R.FRZ_LAST_D := by
  simp only [State.reg64, h.reg _ frzWord_lastD.1, h.reg _ frzWord_lastD.2]

theorem Thawing.follow {nT : Nat} (h : Thawing s nT t) (k : FrzKept t u) : Thawing s nT u :=
  h.kept k.now k.replay k.frozen (k.stat rfl) k.lastD

theorem predApply_frzKept (s : State) (c : Ch) (r : PredRes) : FrzKept s (s.predApply c r) := by
  unfold State.predApply
  extract_lets t x v h
  have ht : FrzKept s t := ⟨rfl, rfl, rfl, rfl, fun _ _ => rfl⟩
  split
  · exact ht
  · split
    · exact ht.trans ⟨rfl, rfl, rfl, rfl, fun _ _ => rfl⟩
    · extract_lets far w
      have hw : FrzKept s w := by
        unfold w
        split
        · exact ht.trans ⟨rfl, rfl, rfl, rfl, fun _ _ => rfl⟩
        · exact ht
      split
      · exact hw.trans ⟨rfl, rfl, rfl, rfl, fun _ _ => rfl⟩
      · exact hw

theorem predWriteAll_frzKept (s : State) : FrzKept s s.predWriteAll := .forAll (fun c t => by
  split
  · exact predApply_frzKept ..
  · exact .refl t) _ _

/-- A forward step ends on its tick, with its replay (R98, R99). -/
theorem forwardStep_shows (s : State) (t1 : Nat) : (s.forwardStep t1).tick.now = BitVec.ofNat 64 t1 ∧
    (s.tick.replay = none → (s.forwardStep t1).tick.replay = some { tf := s.now, tend := t1 }) ∧
    (s.forwardStep t1).mode.frozen = s.mode.frozen := by
  unfold State.forwardStep
  extract_lets d tf u tick v
  have hkept := predWriteAll_frzKept (v.setReg64 R.TICK_STEP (BitVec.ofNat 64 d))
  have hu : u.mode.frozen = s.mode.frozen := by
    unfold u
    split
    · exact State.raise_mode_frozen ..
    · rfl
  refine ⟨hkept.now, fun hr => hkept.replay.trans ?_, hkept.frozen.trans hu⟩
  have htf : tf = s.now := by
    unfold tf
    rw [hr]
  exact htf ▸ rfl

theorem stepTo_shows (s : State) (t1 : Nat) : (s.stepTo t1).tick.now = BitVec.ofNat 64 t1 ∧
    (s.tick.replay = none → (s.stepTo t1).tick.replay = some { tf := s.now, tend := t1 }) ∧ (s.stepTo t1).mode.frozen = s.mode.frozen := by
  obtain ⟨u, hu⟩ : ∃ u, u = (s.snapPassed t1).laterAll (t1 - s.now) := ⟨_, rfl⟩
  have hstep : s.stepTo t1 = u.forwardStep t1 := hu ▸ rfl
  have hnow : u.now = s.now := hu ▸ rfl
  have hrep : u.tick.replay = s.tick.replay := hu ▸ rfl
  have hfro : u.mode.frozen = s.mode.frozen := hu ▸ rfl
  rw [hstep, ← hnow, ← hrep, ← hfro]
  exact forwardStep_shows u t1

/-- The state on the restart of the clocks. -/
def State.clocksBack (s : State) (nT : Nat) : State :=
  (((s.modMode fun m => { m with frozen := false }).stepTo (s.now + s.gapOf nT)).setReg64 R.FRZ_LAST_D (BitVec.ofNat 64 (s.gapOf nT))).putFlag
    R.FRZ_STAT_FROZEN false

theorem clocksBack_thawing (s : State) (nT : Nat) : Thawing s nT (s.clocksBack nT) := by
  obtain ⟨hnow, hrep, hfro⟩ := stepTo_shows (s.modMode fun m => { m with frozen := false }) (s.now + s.gapOf nT)
  obtain ⟨u, hu⟩ : ∃ u, u = (s.modMode fun m => { m with frozen := false }).stepTo (s.now + s.gapOf nT) := ⟨_, rfl⟩
  rw [← hu] at hnow hrep hfro
  rw [State.clocksBack, ← hu]
  refine ⟨hfro, hnow, State.flag_putFlag_near _ _ _ (by decide), ?_, hrep⟩
  rw [State.reg64, State.reg_putFlag_far _ _ _ _ (by decide), State.reg_putFlag_far _ _ _ _ (by decide)]
  exact State.reg64_setReg64 ..

theorem FrzKept.withRing (h : FrzKept s t) (a : Vector Uart 2) (r : River) : FrzKept s { t with uart := a, rv := r } :=
  h.trans ⟨rfl, rfl, rfl, rfl, fun _ _ => rfl⟩

/-- What follows the restart, up to the event of an F3 (Table 15.6). -/
def State.thawFollow (s : State) (d : Nat) : State :=
  let s := forAll allCh (fun c t => t.chanThaw c) (s.courseThaw.rateRestart d)
  let s := { s with uart := s.uart.map Uart.thawed
                    rv := { s.rv with joined := false, locked := false, inRun := 0, outRun := 0
                                      lastSeen := s.rv.lastSeen + (s.tick.wall - s.frz.from_) } }
  s.applyLatched.raise 0x0F01 0 (BitVec.ofNat 32 (satU 32 (roundDiv d 200)))

theorem thawFollow_frzKept (s : State) (d : Nat) : FrzKept s (s.thawFollow d) := by
  unfold State.thawFollow
  extract_lets t rv u
  have h0 : FrzKept s (s.courseThaw.rateRestart d) := ⟨rfl, rfl, rfl, rfl, fun _ _ => rfl⟩
  have ht : FrzKept s t := h0.trans (.forAll (fun c t => chanThaw_frzKept t c) _ _)
  have hu : FrzKept s u := ht.withRing _ _
  exact (hu.trans (applyLatched_frzKept u)).raise ..

/-- The FREEZE opcode that a thaw completes with D. -/
def State.freezeAnswered (s : State) (req : Option (BitVec 16 × Nat)) (d : Nat) : State :=
  match req with
  | some (tag, sq) => s.complete 16 tag sq 0 (BitVec.ofNat 64 d)
  | none => s

theorem freezeAnswered_frzKept (s : State) (req : Option (BitVec 16 × Nat)) (d : Nat) : FrzKept s (s.freezeAnswered req d) := by
  unfold State.freezeAnswered
  split
  · exact complete_frzKept ..
  · exact .refl s

/-- The end of a thaw: the events of what the freeze refused, and the FREEZE opcode that completes. -/
def State.thawEnd (s : State) (d : Nat) : State :=
  let s := (s.raiseTimes 0x0F04 s.frz.ignored).raiseTimes 0x0F03 s.frz.refused
  let req := s.frz.req
  ({ s with frz := { s.frz with thawReq := false, ignored := 0, refused := 0, regs := [], power := {}, pins := {},
                                twResult := 0, speed := 0, width := 0, req := none } } : State).freezeAnswered req d

theorem thawEnd_shows {nT : Nat} (d : Nat) (h : Thawing s nT t) : Thawing s nT (t.thawEnd d) ∧ (t.thawEnd d).frz.thawReq = false ∧
    (t.thawEnd d).flag R.FRZ_STAT_F3_THAW = t.flag R.FRZ_STAT_F3_THAW := by
  unfold State.thawEnd
  extract_lets u req frz
  have hu : FrzKept t u := (raiseTimes_frzKept ..).trans (raiseTimes_frzKept ..)
  obtain ⟨v, hv⟩ : ∃ v : State, v = { u with frz := { frz with thawReq := false, ignored := 0, refused := 0, regs := [], power := {}, pins := {}, twResult := 0, speed := 0, width := 0, req := none } } :=
    ⟨_, rfl⟩
  have hthaw : Thawing s nT v := (h.follow hu).kept (hv ▸ rfl) (hv ▸ rfl) (hv ▸ rfl) (hv ▸ rfl) (hv ▸ rfl)
  have hflag : v.flag R.FRZ_STAT_F3_THAW = t.flag R.FRZ_STAT_F3_THAW := (show v.flag _ = u.flag _ from hv ▸ rfl).trans (hu.stat rfl)
  have hreq : v.frz.thawReq = false := hv ▸ rfl
  rw [← hv]
  have hk := freezeAnswered_frzKept v req d
  exact ⟨hthaw.follow hk, (congrArg FreezeSt.thawReq hk.frz).trans hreq, (hk.stat rfl).trans hflag⟩

/-- The event of an F3 that forces a thaw (R414). -/
def State.f3Told (s : State) (f3 : Bool) : State := if f3 then (s.putFlag R.FRZ_STAT_F3_THAW true).raise 0x0F06 0 else s

theorem f3Told_shows {nT : Nat} (f3 : Bool) (h : Thawing s nT t) : Thawing s nT (t.f3Told f3) ∧ (f3 = true → (t.f3Told f3).flag R.FRZ_STAT_F3_THAW = true) := by
  cases f3
  · exact ⟨h, fun h => nomatch h⟩
  · have hput : Thawing s nT (t.putFlag R.FRZ_STAT_F3_THAW true) := h.kept rfl rfl rfl (State.flag_putFlag_far _ _ _ _ (by decide)) (by
      rw [State.reg64, State.reg_putFlag_far _ _ _ _ (by decide), State.reg_putFlag_far _ _ _ _ (by decide)]
      rfl)
    have hr : FrzKept (t.putFlag R.FRZ_STAT_F3_THAW true) (t.f3Told true) := by
      rw [State.f3Told, if_pos rfl]
      exact (FrzKept.refl _).raise ..
    exact ⟨hput.follow hr, fun _ => (hr.stat rfl).trans (State.flag_putFlag_near _ _ _ (by decide))⟩

theorem thaw_eq (s : State) (nT : Nat) (f3 : Bool) :
    s.thaw nT f3 = (((s.clocksBack nT).thawFollow (s.gapOf nT)).f3Told f3).thawEnd (s.gapOf nT) := by
  unfold State.thaw State.thawFollow State.clocksBack
  rfl

theorem thaw_shows (s : State) (nT : Nat) (f3 : Bool) : Thawing s nT (s.thaw nT f3) ∧ (s.thaw nT f3).frz.thawReq = false ∧
    (f3 = true → (s.thaw nT f3).flag R.FRZ_STAT_F3_THAW = true) := by
  rw [thaw_eq]
  obtain ⟨htold, hf3⟩ := f3Told_shows f3 ((clocksBack_thawing s nT).follow (thawFollow_frzKept _ (s.gapOf nT)))
  obtain ⟨hend, hreq, hflag⟩ := thawEnd_shows (s.gapOf nT) htold
  exact ⟨hend, hreq, fun h => hflag.trans (hf3 h)⟩

/-! The fault state after a forced thaw -/

theorem railStat_notFrz (r : Rail) : R.RAIL_STAT r < 0x3508 ∨ 0x3524 ≤ R.RAIL_STAT r := by
  unfold R.RAIL_STAT
  omega

theorem setRailState_frzKept (s : State) (r : Rail) (st : Nat) : FrzKept s (s.setRailState r st) := by
  unfold State.setRailState
  have one (t : State) (k : Rail) : FrzKept t ((t.put (R.RAIL_STAT_STATE k) st).putFlag (R.RAIL_STAT_BURST k) false) :=
    ((FrzKept.refl t).put (railStat_notFrz k) st).put (railStat_notFrz k) _
  dsimp only
  split
  · exact ((one s r).put (railStat_notFrz r) _).trans (one _ _)
  · exact (one s r).put (railStat_notFrz r) _

theorem bootAux0_kept (s : State) : FrzKept s s.bootAux0 ∧ s.bootAux0.mode = s.mode := by
  unfold State.bootAux0
  split
  · exact ⟨.refl s, rfl⟩
  · have h0 : FrzKept s { s with seqr := { s.seqr with boot38 := true } } := ⟨rfl, rfl, rfl, rfl, fun _ _ => rfl⟩
    refine ⟨h0.trans ((setRailState_frzKept _ 0 1).trans ⟨rfl, rfl, rfl, rfl, fun _ _ => rfl⟩), ?_⟩
    exact (setRailState_onRails { s with seqr := { s.seqr with boot38 := true } } 0 1).mode

/-- The move that the fault state abandons, its opcode completed (R33). -/
def State.moveAbandoned (s : State) : State :=
  match s.mode.move with
  | some m => match m.req with
    | some (q, tag) => s.complete q tag (match (s.hp.rings[q]).exec with | some x => x.slot | none => 0) 0x24 0
    | none => s
  | none => s

theorem moveAbandoned_frzKept (s : State) : FrzKept s s.moveAbandoned := by
  unfold State.moveAbandoned
  split
  · split
    · exact complete_frzKept ..
    · exact .refl s
  · exact .refl s

/-- The fault state's own marks (Table 15.3). -/
def State.faultMarked (s : State) : State :=
  let s := (s.modMode fun m => { m with fault := true, f3Pend := [], move := none, keyoffWait := false }).putFlag R.SEQ_STAT_STOPPING false
  if s.inBuskeep then s else (s.putFlag R.CHG_STAT_CHG_N false).modPower fun p => { p with gatesOn := false }

theorem faultMarked_shows (s : State) : FrzKept s s.faultMarked ∧ s.faultMarked.mode.fault = true := by
  unfold State.faultMarked
  extract_lets t
  have hmode : FrzKept s (s.modMode fun m => { m with fault := true, f3Pend := [], move := none, keyoffWait := false }) :=
    ⟨rfl, rfl, rfl, rfl, fun _ _ => rfl⟩
  have ht : FrzKept s t := hmode.put (by decide) _
  split
  · exact ⟨ht, rfl⟩
  · exact ⟨(ht.put (by decide) _).trans ⟨rfl, rfl, rfl, rfl, fun _ _ => rfl⟩, rfl⟩

/-- The record of the fault state's cause. -/
def State.causeNoted (s : State) (f : F3Cause) : State :=
  ((((s.put R.FLT_STAT_F3_CODE f.code.toNat).put R.FLT_STAT_SRC f.src).putFlag R.FLT_STAT_BROKEN f.broken).putFlag
    R.FLT_ERR_CTRL_HOLD true).putFlag R.FLT_ERR_CTRL_LOW true

theorem faultEnter_eq (s : State) (f : F3Cause) : ∃ b : Bool, s.faultEnter f =
    if b then (s.causeNoted f).moveAbandoned.faultMarked.bootAux0 else (s.causeNoted f).moveAbandoned.faultMarked := ⟨_, rfl⟩

theorem faultEnter_shows (s : State) (f : F3Cause) : FrzKept s (s.faultEnter f) ∧ (s.faultEnter f).mode.fault = true := by
  have hnoted : FrzKept s (s.causeNoted f) :=
    (((((FrzKept.refl s).put (by decide) _).put (by decide) _).put (by decide) _).put (by decide) _).put (by decide) _
  obtain ⟨hmark, hfault⟩ := faultMarked_shows (s.causeNoted f).moveAbandoned
  have hall := (hnoted.trans (moveAbandoned_frzKept _)).trans hmark
  obtain ⟨hboot, hmode⟩ := bootAux0_kept (s.causeNoted f).moveAbandoned.faultMarked
  obtain ⟨b, hb⟩ := faultEnter_eq s f
  rw [hb]
  split
  · exact ⟨hall.trans hboot, hmode ▸ hfault⟩
  · exact ⟨hall, hfault⟩

end Thaw

/-! Triggers, the freeze and its limit -/

section Freeze

variable {s : State}

/-- The pin low. -/
def State.pinLow (s : State) : State := s.modMode fun m => { m with pins := { m.pins with freezeLow := true } }

theorem freezeNFall_eq (hship : s.mode.mode ≠ .ship) (hpin : s.flag R.FRZ_CFG_PIN_EN = true) : exec .freezeNFall s = .next (s.pinLow.freezeTrigger 1 0) := by
  have hgo : (s.pinLow.mode.pins.freezeLow && s.pinLow.flag R.FRZ_CFG_PIN_EN) = true := hpin
  have hmode : ¬ s.pinLow.mode.mode = .ship := hship
  rw [exec_freezeNFall, execFreezeNFall]
  exact congrArg Host.Outcome.next ((if_neg hmode).trans (if_pos hgo))

theorem freezeTrigger_takes (hfro : s.mode.frozen = false) (hnone : s.frz.trig = none)
    (hlink : (s.mode.mode.isLink && s.mode.bootStep = 0 && !s.mode.fault) = true) :
    s.freezeTrigger 1 0 = { s with frz := { s.frz with trig := some (1, 0), tf := s.now } } := by
  rw [State.freezeTrigger, if_neg (by rw [hfro]; decide), if_pos hlink, hnone]
  rfl

theorem freezeTrigger_refuses (hfro : s.mode.frozen = false) (hlink : (s.mode.mode.isLink && s.mode.bootStep = 0 && !s.mode.fault) = false) :
    s.freezeTrigger 1 0 = s.raise 0x0107 0 := by
  rw [State.freezeTrigger, if_neg (by rw [hfro]; decide), if_neg (by rw [hlink]; decide)]

/-- The words that a freeze writes. -/
def State.freezeWords (s : State) (cause : BitVec 3) (sc : BitVec 5) (q : W32) : State :=
  let s := s.setReg R.FRZ_RATIO q
  let s := ((s.putFlag R.FRZ_STAT_FROZEN true).put R.FRZ_STAT_CAUSE cause.toNat).put R.FRZ_STAT_SC sc.toNat
  let s := (s.putFlag R.FRZ_STAT_F3_THAW false).put R.FRZ_STAT_COUNT (s.get R.FRZ_STAT_COUNT + 1)
  s.setReg64 R.FRZ_LAST_TF s.tick.now

/-- The freeze block's own record of a freeze. -/
def State.freezeNoted (s : State) : State :=
  { s with frz := { s.frz with trig := none, tf := s.now, from_ := s.tick.wall, thawReq := false, ignored := 0, refused := 0, regs := s.regs, power := s.power, pins := s.mode.pins, twResult := s.tw.lastResult, speed := s.hp.speed, width := s.hp.width } }

/-- The event of a freeze, and the module frozen. -/
def State.freezeTold (s : State) (d : W32) : State := (s.raise 0x0F00 0 d).modMode fun m => { m with frozen := true }

theorem freezeEnter_eq (cause : BitVec 3) (sc : BitVec 5) (q : W32) : s.freezeEnter cause sc q =
    (s.freezeWords cause sc q).freezeNoted.freezeTold (BitVec.ofNat 32 (cause.toNat + sc.toNat * 8)) := rfl

/-- What the words of a freeze show, and that they are all that it writes. -/
structure FreezeWords (s : State) (cause : BitVec 3) (q : W32) (t : State) : Prop where
  flag : t.flag R.FRZ_STAT_FROZEN = true
  why : t.get R.FRZ_STAT_CAUSE = cause.toNat
  ratio : t.reg R.FRZ_RATIO = q
  lastTf : t.reg64 R.FRZ_LAST_TF = s.tick.now
  only : { t with regs := s.regs } = s
  f0 : t.flag R.HP_EVT_CFG_F0_EN = s.flag R.HP_EVT_CFG_F0_EN

theorem freezeWords_show (cause : BitVec 3) (sc : BitVec 5) (q : W32) : FreezeWords s cause q (s.freezeWords cause sc q) := by
  unfold State.freezeWords
  extract_lets u v w
  have hfar {t : State} {f : Fld} (x : W64) (hf : f.addr ≠ R.FRZ_LAST_TF ∧ f.addr ≠ R.FRZ_LAST_TF + 4) : (t.setReg64 R.FRZ_LAST_TF x).get f = t.get f :=
    (State.get_setReg_far _ _ _ _ hf.2).trans (State.get_setReg_far _ _ _ _ hf.1)
  have hcause : w.get R.FRZ_STAT_CAUSE = cause.toNat := by
    unfold w v
    rw [State.get_put_far _ _ _ _ (by decide), State.get_putFlag_far _ _ _ _ (by decide), State.get_put_far _ _ _ _ (by decide),
      State.get_put_near _ _ _ (by decide)]
    exact Nat.mod_eq_of_lt cause.isLt
  have hflag : w.flag R.FRZ_STAT_FROZEN = true := by
    unfold w v
    rw [State.flag_put_far _ _ _ _ (by decide), State.flag_putFlag_far _ _ _ _ (by decide), State.flag_put_far _ _ _ _ (by decide),
      State.flag_put_far _ _ _ _ (by decide)]
    exact State.flag_putFlag_near _ _ _ (by decide)
  have hratio : w.reg R.FRZ_RATIO = q := by
    unfold w v u
    rw [State.reg_put_far _ _ _ _ (by decide), State.reg_putFlag_far _ _ _ _ (by decide), State.reg_put_far _ _ _ _ (by decide),
      State.reg_put_far _ _ _ _ (by decide), State.reg_putFlag_far _ _ _ _ (by decide), State.reg_setReg_same]
  have hf0 : w.flag R.HP_EVT_CFG_F0_EN = s.flag R.HP_EVT_CFG_F0_EN := by
    unfold w v u
    rw [State.flag_put_far _ _ _ _ (by decide), State.flag_putFlag_far _ _ _ _ (by decide), State.flag_put_far _ _ _ _ (by decide),
      State.flag_put_far _ _ _ _ (by decide), State.flag_putFlag_far _ _ _ _ (by decide), State.flag_setReg_far _ _ _ _ (by decide)]
  refine ⟨?_, (hfar _ (by decide)).trans hcause, ?_, State.reg64_setReg64 .., rfl, ?_⟩
  · rw [State.flag, hfar _ (by decide)]
    exact hflag
  · exact (State.reg_setReg_far _ _ _ _ (by decide)).trans ((State.reg_setReg_far _ _ _ _ (by decide)).trans hratio)
  · rw [State.flag, hfar _ (by decide)]
    exact hf0

theorem freezeEntry_eq {cause : BitVec 3} {sc : BitVec 5} (q : W32) (ht : s.frz.trig = some (cause, sc)) (hclk : s.clockOn = true)
    (hlink : (s.mode.mode.isLink && s.mode.bootStep = 0 && !s.mode.fault) = true) :
    exec (.freezeEntry q) s = .next (s.freezeEnter cause sc q) := by
  rw [exec_freezeEntry, execFreezeEntry.eq_def, ht]
  dsimp only
  rw [if_pos hclk, if_pos hlink]

/-- What a freeze shows and keeps. -/
structure FrozenNow (s : State) (cause : BitVec 3) (sc : BitVec 5) (q : W32) (t : State) : Prop where
  frozen : t.mode.frozen = true
  flag : t.flag R.FRZ_STAT_FROZEN = true
  why : t.get R.FRZ_STAT_CAUSE = cause.toNat
  ratio : t.reg R.FRZ_RATIO = q
  lastTf : t.reg64 R.FRZ_LAST_TF = s.tick.now
  trig : t.frz.trig = none
  chan : t.chan = s.chan
  eng : t.eng = s.eng
  units : t.units = s.units
  tick : t.tick = s.tick
  stored : s.Room → Stored s t 0x0F00 0 (BitVec.ofNat 32 (cause.toNat + sc.toNat * 8))

theorem freezeEnter_shows (cause : BitVec 3) (sc : BitVec 5) (q : W32) : FrozenNow s cause sc q (s.freezeEnter cause sc q) := by
  have hw := freezeWords_show (s := s) cause sc q
  rw [freezeEnter_eq]
  obtain ⟨w, hwd⟩ : ∃ w, w = s.freezeWords cause sc q := ⟨_, rfl⟩
  rw [← hwd] at hw ⊢
  obtain ⟨hflag, hcause, hratio, htf, honly, hf0⟩ := hw
  obtain ⟨d, hd⟩ : ∃ d : W32, d = BitVec.ofNat 32 (cause.toNat + sc.toNat * 8) := ⟨_, rfl⟩
  obtain ⟨v, hv⟩ : ∃ v, v = w.freezeNoted := ⟨_, rfl⟩
  rw [← hd, ← hv]
  have htold : v.freezeTold d = (v.raise 0x0F00 0 d).modMode fun m => { m with frozen := true } := rfl
  have hvreg (a : Nat) : v.reg a = w.reg a := hv ▸ rfl
  have hreg {a : Nat} (ha : a ∉ eventRegs) : (v.freezeTold d).reg a = w.reg a := (State.raise_reg v 0x0F00 0 d a ha).trans (hvreg a)
  have hget {f : Fld} (hf : f.addr ∉ eventRegs) : (v.freezeTold d).get f = w.get f := by simp only [State.get, hreg hf]
  have hwtick : w.tick = s.tick := (congrArg State.tick honly :)
  have hgrows : Grows s v 0 := by
    refine .of_same ?_ ?_ ?_
    · rw [hv]
      exact congrArg TickSt.now hwtick
    · rw [hv]
      exact hf0
    · rw [hv]
      exact (congrArg (fun t : State => t.hp.events) honly :)
  refine ⟨rfl, ?_, (hget (by decide)).trans hcause, (hreg (by decide)).trans hratio, ?_, ?_, ?_, ?_, ?_, ?_, fun hr => ?_⟩
  · rw [State.flag, hget (by decide)]
    exact hflag
  · rw [State.reg64, hreg (by decide), hreg (by decide)]
    exact htf
  · have h : (v.freezeTold d).frz = v.frz := State.raise_frz ..
    rw [h, hv]
    rfl
  · have h : (v.freezeTold d).chan = v.chan := State.raise_chan ..
    rw [h, hv]
    exact (congrArg State.chan honly :)
  · have h : (v.freezeTold d).eng = v.eng := State.raise_eng ..
    rw [h, hv]
    exact (congrArg State.eng honly :)
  · have h : (v.freezeTold d).units = v.units := State.raise_units ..
    rw [h, hv]
    exact (congrArg State.units honly :)
  · have h : (v.freezeTold d).tick = v.tick := State.raise_tick ..
    rw [h, hv]
    exact hwtick
  · have hst : Stored s (v.raise 0x0F00 0 d) 0x0F00 0 d := hgrows.stored hr (by decide) _ _ _ {}
    rw [← hd]
    exact hst.modMode _

theorem thawWrite_asks (hfro : s.mode.frozen = true) (hlow : s.mode.pins.freezeLow = false) :
    s.thawWrite = { s with frz := { s.frz with thawReq := true } } := by
  rw [State.thawWrite, hfro, hlow]
  rfl

theorem thawWrite_refused (hfro : s.mode.frozen = true) (hlow : s.mode.pins.freezeLow = true) (hpin : s.flag R.FRZ_CFG_PIN_EN = true) :
    s.thawWrite.frz = { s.frz with refused := s.frz.refused + 1 } ∧ s.thawWrite.mode = s.mode := by
  rw [State.thawWrite, hfro, hlow, hpin]
  exact ⟨rfl, rfl⟩

theorem freezeNRise_asks (hfro : s.mode.frozen = true) (hpin : s.flag R.FRZ_CFG_PIN_THAW = true) : ∃ t, exec .freezeNRise s = .next t ∧
    t.frz = { s.frz with thawReq := true } ∧ t.mode.pins.freezeLow = false := by
  have hgo : ((s.modMode fun m => { m with pins := { m.pins with freezeLow := false } }).mode.frozen &&
      (s.modMode fun m => { m with pins := { m.pins with freezeLow := false } }).flag R.FRZ_CFG_PIN_THAW) = true := by
    show (s.mode.frozen && s.flag R.FRZ_CFG_PIN_THAW) = true
    rw [hfro, hpin]
    rfl
  rw [exec_freezeNRise, execFreezeNRise]
  exact ⟨_, congrArg Host.Outcome.next (if_pos hgo), rfl, rfl⟩

theorem thaw_runs (nT : Nat) (hfro : s.mode.frozen = true) (hreq : s.frz.thawReq = true) (hf3 : s.mode.f3Pend = []) :
    exec (.thaw nT) s = .next (s.thaw nT false) := by
  rw [exec_thaw, execThaw, hfro, hreq, hf3]
  rfl

theorem f3ForcedThaw_runs (nT : Nat) {f : F3Cause} {l : List F3Cause} (hfro : s.mode.frozen = true) (hf3 : s.mode.f3Pend = f :: l) :
    exec (.f3ForcedThaw nT) s = .next ((s.thaw nT true).faultEnter f) := by
  rw [exec_f3ForcedThaw, execF3ForcedThaw.eq_def, if_pos hfro, hf3]

theorem freezeLimitExpiry_resets (hfro : s.mode.frozen = true) (hw : s.frz.from_ + s.get R.FRZ_CFG_LIMIT * 20000000 ≤ s.tick.wall) :
    exec .freezeLimitExpiry s = .next ((s.siltPush 5 3 0x0F02 s.limitPayload).resetBy .freezeLimit) := by
  have hmul : s.get R.FRZ_CFG_LIMIT * 100 * ticksPerMs = s.get R.FRZ_CFG_LIMIT * 20000000 := Nat.mul_assoc _ 100 ticksPerMs
  rw [exec_freezeLimitExpiry, execFreezeLimitExpiry, hmul, hfro]
  refine if_pos ?_
  rw [Bool.true_and]
  exact decide_eq_true hw

theorem link_go (hl : s.mode.mode.isLink = true) (hb : s.mode.bootStep = 0) (hf : s.mode.fault = false) :
    (s.mode.mode.isLink && s.mode.bootStep = 0 && !s.mode.fault) = true := by
  rw [hl, hb, hf]
  rfl

theorem link_stop (h : s.mode.fault = true ∨ s.mode.mode.isLink = false ∨ s.mode.bootStep ≠ 0) :
    (s.mode.mode.isLink && s.mode.bootStep = 0 && !s.mode.fault) = false := by
  rcases h with h | h | h
  · rw [h]
    exact Bool.and_false _
  · rw [h]
    rfl
  · rw [decide_eq_false h, Bool.and_false]
    rfl

end Freeze

/-- Settles O54: the triggers, the freeze and what it keeps, the thaws and their step, and the limit. -/
theorem theFreezeHoldsAndThaws : Obligations.TheFreezeHoldsAndThaws := by
  unfold Obligations.TheFreezeHoldsAndThaws
  intro s
  refine ⟨fun hfro hpin hnone hship => ⟨fun hl hb hf => ?_, fun h => ?_⟩, fun cause sc q ht hclk hl hb hf => ?_, fun hfro =>
    ⟨fun hrun => ⟨fun hlow => ?_, fun hlow hpin => ?_⟩, fun hpin => freezeNRise_asks hfro hpin, fun hon hlow => ?_, fun nT hreq hf3 => ?_,
      fun nT f l hf3 => ?_, fun hw h0 h1 => ?_⟩⟩
  · have htake := freezeTrigger_takes (s := s.pinLow) hfro hnone (link_go (s := s.pinLow) hl hb hf)
    exact ⟨_, (freezeNFall_eq hship hpin).trans (congrArg Host.Outcome.next htake), rfl, rfl, rfl, rfl⟩
  · have href := freezeTrigger_refuses (s := s.pinLow) hfro (link_stop (s := s.pinLow) h)
    have hlow : Grows s s.pinLow 0 := .of_same rfl rfl rfl
    refine ⟨_, (freezeNFall_eq hship hpin).trans (congrArg Host.Outcome.next href), ?_, fun hr => hlow.stored hr (by decide) _ _ _ {}⟩
    rw [State.raise_frz]
    exact hnone
  · obtain ⟨h1, h2, h3, h4, h5, h6, h7, h8, h9, h10, h11⟩ := freezeEnter_shows (s := s) cause sc q
    exact ⟨_, freezeEntry_eq q ht hclk (link_go hl hb hf), h1, h2, h3, h4, h5, h6, h7, h8, h9, h10, h11⟩
  · exact (if_pos hrun).trans (congrArg Host.Outcome.next (thawWrite_asks hfro hlow))
  · exact ⟨_, if_pos hrun, (thawWrite_refused hfro hlow hpin).1, (thawWrite_refused hfro hlow hpin).2⟩
  · have hask := thawWrite_asks (s := s.tapIr 0x12) hfro hlow
    exact ⟨_, (if_pos hon).trans (congrArg Host.Outcome.next hask), rfl, rfl⟩
  · obtain ⟨hth, hreq', -⟩ := thaw_shows s nT false
    exact ⟨_, thaw_runs nT hfro hreq hf3, hth.frozen, hth.now, hth.flag, hth.lastD, hreq', hth.replay⟩
  · obtain ⟨hth, hreq, hf⟩ := thaw_shows s nT true
    obtain ⟨hk, hfault⟩ := faultEnter_shows (s.thaw nT true) f
    have hall := hth.follow hk
    exact ⟨_, f3ForcedThaw_runs nT hfro hf3, ⟨hall.frozen, hall.now, hall.flag, hall.lastD, (congrArg FreezeSt.thawReq hk.frz).trans hreq, hall.replay⟩,
      hfault, (hk.stat rfl).trans (hf rfl)⟩
  · have hdie : (s.siltPush 5 3 0x0F02 s.limitPayload).die = s.die := State.siltPush_die ..
    have hmode : (s.siltPush 5 3 0x0F02 s.limitPayload).mode = s.mode := State.siltPush_mode ..
    have hres := State.resetBy_resumed (s := s.siltPush 5 3 0x0F02 s.limitPayload) .freezeLimit (by simp only [hdie]; exact h0) (by simp only [hdie]; exact h1)
    refine ⟨_, freezeLimitExpiry_resets hfro hw, hres.locks.2.2, hres.now, hres.start.2.1, ?_⟩
    rw [hres.cause, hmode]


end Sys2Proof.Machine
end

section
/-! PROOFS. Frames of the river ring: sent, judged, forwarded and taken, and the join (R425 to R438). -/

namespace Sys2Proof.Machine

/-! Sending -/

section Send

variable {s : State} {f : RvFrame}

theorem River.noneLeftA {r : River} (hn : r.noticeA = []) (hm : r.mailA = []) : { r with noticeA := [], mailA := [] } = r := by
  rw [← hn, ← hm]

theorem River.noneLeftB {r : River} (hn : r.noticeB = []) (hm : r.mailB = []) : { r with noticeB := [], mailB := [] } = r := by
  rw [← hn, ← hm]

/-- A frame leaves by its own port when the port of the other ring, into which it would be turned back, is not down. -/
theorem State.rvOut_onward {ring : RvRing} (h : (s.rv.port (otherRing ring)).down = false) (f : RvFrame) (stomped : Bool) :
    s.rvOut ring f stomped = s.send (.frame ring f stomped) := by
  unfold rvOut
  dsimp only
  rw [h, Bool.false_and, if_neg Bool.false_ne_true, if_neg Bool.false_ne_true]

theorem State.headSend_a (hdown : s.rv.portB.down = false) (hn : s.rv.noticeA = []) (hm : s.rv.mailA = []) :
    s.headSend .a f = s.send (.frame .a { f with ring := .a } false) := by
  have hplace (g : RvFrame) : s.placeSlots .a g = (g, s) := by
    unfold placeSlots
    simp only [hn, hm, List.map_nil, putSlots, List.take_nil, List.drop_nil, List.foldl_nil]
    exact congrArg (Prod.mk g) (congrArg (fun r => { s with rv := r }) (River.noneLeftA hn hm))
  rw [headSend, hplace]
  exact rvOut_onward (ring := .a) hdown _ _

theorem State.headSend_b (hdown : s.rv.portA.down = false) (hn : s.rv.noticeB = []) (hm : s.rv.mailB = []) :
    s.headSend .b f = s.send (.frame .b { f with ring := .b } false) := by
  have hplace (g : RvFrame) : s.placeSlots .b g = (g, s) := by
    unfold placeSlots
    simp only [hn, hm, List.map_nil, putSlots, List.take_nil, List.drop_nil, List.foldl_nil]
    exact congrArg (Prod.mk g) (congrArg (fun r => { s with rv := r }) (River.noneLeftB hn hm))
  rw [headSend, hplace]
  exact rvOut_onward (ring := .b) hdown _ _

theorem ringFrameSend_idle (hrun : s.mode.domeRun = true) (hfrz : s.mode.frozen = false)
    (h : s.now % 2000 ≠ 200 ∨ s.rv.sentAt = some s.tick.wall) : exec .ringFrameSend s = .next s := by
  rw [exec_ringFrameSend, execRingFrameSend]
  simp only [hrun, hfrz]
  refine (if_neg (by decide)).trans ((if_neg (by decide)).trans (if_neg ?_))
  rcases h with hgrid | hsent
  · simp [hgrid]
  · simp [hsent]

/-- The headwater with its next frame counted. -/
def State.nextFrame (s : State) : State := s.modRv fun r => { r with fseq := r.fseq + 1, sentAt := some s.tick.wall }

theorem ringFrameSend_due (hrun : s.mode.domeRun = true) (hfrz : s.mode.frozen = false) (hgrid : s.now % 2000 = 200)
    (hsent : s.rv.sentAt ≠ some s.tick.wall) (hhead : s.isHead = true) :
    exec .ringFrameSend s = .next (((s.nextFrame.modRv fun r => { r with lastFrame := some s.nextFrame.headFrame }).headSend .a
      s.nextFrame.headFrame).headSend .b s.nextFrame.headFrame) := by
  rw [exec_ringFrameSend, execRingFrameSend]
  simp only [hrun, hfrz, hgrid, hsent, hhead, Bool.not_true, Bool.false_eq_true, if_false, if_true, decide_true, Bool.true_or, Bool.true_and,
    ne_eq, not_false_eq_true]
  rfl

theorem ringFrameSend_sends (hrun : s.mode.domeRun = true) (hfrz : s.mode.frozen = false) (hgrid : s.now % 2000 = 200)
    (hsent : s.rv.sentAt ≠ some s.tick.wall) (hhead : s.isHead = true) (ha : s.rv.portA.down = false) (hb : s.rv.portB.down = false)
    (hna : s.rv.noticeA = []) (hnb : s.rv.noticeB = []) (hma : s.rv.mailA = []) (hmb : s.rv.mailB = []) :
    ∃ t f, exec .ringFrameSend s = .next t ∧ t.rv.lastFrame = some f ∧
      t.hp.sent = s.hp.sent ++ [.frame .a f false, .frame .b { f with ring := .b } false] ∧ f.fseq = s.rv.fseq + 1 ∧
      f.ftick = s.tick.now ∧ f.hops = 0 ∧ f.held = false ∧ f.v = s.course.v ∧ f.updTick = s.course.updTick ∧
      f.sRef = s.course.sRefRep ∧ t.rv.fseq = s.rv.fseq + 1 := by
  have hdue := ringFrameSend_due hrun hfrz hgrid hsent hhead
  obtain ⟨u, hu⟩ : ∃ u, u = s.nextFrame.modRv fun r => { r with lastFrame := some s.nextFrame.headFrame } := ⟨_, rfl⟩
  rw [← hu, State.headSend_a (hu ▸ hb) (hu ▸ hna) (hu ▸ hma)] at hdue
  rw [State.headSend_b (s := u.send _) (hu ▸ ha) (hu ▸ hnb) (hu ▸ hmb)] at hdue
  refine ⟨_, s.nextFrame.headFrame, hdue, hu ▸ rfl, ?_, rfl, rfl, rfl, rfl, rfl, rfl, rfl, hu ▸ rfl⟩
  have hsame : u.hp.sent = s.hp.sent := hu ▸ rfl
  show (u.hp.sent ++ _) ++ _ = _
  rw [hsame, List.append_assoc]
  rfl

end Send

/-! Frames that are not taken -/

section Judge

variable {s : State} {p : RvRing} {f : RvFrame} {n : Nat}

/-- A frame that fails its CRC is counted and ends the port's run and the module's. -/
def State.badFrame (s : State) (p : RvRing) : State :=
  (((s.count R.RV_CNT_CRC_ERR).raiseLimited 0x0C07 0 1 0).modPort p fun p => { p with run := 0 }).modRv fun r => { r with accepts := 0 }

theorem State.modPort_run_down (p k : RvRing) (n : Nat) : ((s.modPort p fun x => { x with run := n }).rv.port k).down = (s.rv.port k).down := by
  cases p <;> cases k <;> rfl

theorem State.raiseLimited_port (c : BitVec 16) (d : W32) (i n : Nat) (k : RvRing) (cls : BitVec 2) : (s.raiseLimited c cls d i n).rv.port k = s.rv.port k := by
  cases k
  · exact State.raiseLimited_rv_portA ..
  · exact State.raiseLimited_rv_portB ..

theorem State.badFrame_down (k : RvRing) : ((s.badFrame p).rv.port k).down = (s.rv.port k).down :=
  (State.modPort_run_down p k 0).trans (congrArg RvPort.down (State.raiseLimited_port ..))

theorem State.badFrame_same : (s.badFrame p).get R.RV_CNT_CRC_ERR = min 255 (s.get R.RV_CNT_CRC_ERR + 1) ∧ (s.badFrame p).hp.sent = s.hp.sent ∧
    (s.badFrame p).course = s.course := by
  refine ⟨?_, ?_, ?_⟩
  · refine (get_of_reg (State.raiseLimited_reg _ _ _ _ _ _ _ (by decide))).trans ?_
    rw [State.get_count_same _ _ _ (by decide), Nat.min_comm]
    rfl
  · exact State.raiseLimited_hp_sent ..
  · exact State.raiseLimited_course ..

theorem ringFrameAccept_bad (hc : s.clockOn = true) (hon : s.mode.domeOn = true) (hhead : s.isHead = false) (hh : f.hops ≤ 1023) :
    exec (.ringFrameAccept p f false n) s = .next ((s.badFrame p).rvOut f.ring { f with hops := f.hops + 1 } true) := by
  have hrole : (s.badFrame p).isHead = false := by
    have h : (s.badFrame p).rv.role = s.rv.role := by
      refine Eq.trans (b := ((s.count R.RV_CNT_CRC_ERR).raiseLimited 0x0C07 0 1 0).rv.role) ?_ (State.raiseLimited_rv_role ..)
      cases p <;> rfl
    unfold State.isHead at hhead ⊢
    rw [h]
    exact hhead
  rw [exec_ringFrameAccept, execRingFrameAccept]
  simp only [hc, hon]
  refine (if_neg (by decide)).trans ((if_neg (by decide)).trans ((if_pos rfl).trans (congrArg Host.Outcome.next ?_)))
  have hnot : ¬ 1023 < f.hops := by omega
  refine if_neg (fun h => ?_)
  rw [decide_eq_false hnot, Bool.or_false] at h
  exact Bool.false_ne_true (hrole.symm.trans h)

theorem ringFrameAccept_far (hc : s.clockOn = true) (hon : s.mode.domeOn = true) (hh : 1023 < f.hops) :
    exec (.ringFrameAccept p f true n) s =
      .next (((s.count R.RV_CNT_HOP_ERR).modPort p fun p => { p with run := 0 }).modRv fun r => { r with accepts := 0 }) := by
  rw [exec_ringFrameAccept, execRingFrameAccept]
  simp only [hc, hon]
  exact (if_neg (by decide)).trans ((if_neg (by decide)).trans ((if_neg (by decide)).trans (if_pos hh)))

end Judge

/-! Frames that are taken -/

section Take

variable {s t u : State}

/-- What a module has from the frame that it accepted last: the course, the tick, its role, the headwater and the count of frames. -/
structure FrameKept (s t : State) : Prop where
  course : t.course = s.course
  now : t.tick.now = s.tick.now
  role : t.rv.role = s.rv.role
  headId : t.rv.headId = s.rv.headId
  accepts : t.rv.accepts = s.rv.accepts
  lastTick : t.rv.lastTick = s.rv.lastTick

theorem FrameKept.refl (s : State) : FrameKept s s := ⟨rfl, rfl, rfl, rfl, rfl, rfl⟩

theorem FrameKept.trans (h : FrameKept s t) (g : FrameKept t u) : FrameKept s u :=
  ⟨g.course.trans h.course, g.now.trans h.now, g.role.trans h.role, g.headId.trans h.headId, g.accepts.trans h.accepts,
    g.lastTick.trans h.lastTick⟩

theorem FrameKept.isHead (h : FrameKept s t) : t.isHead = s.isHead := by
  unfold State.isHead
  rw [h.role]

/-- The parts of the state are those that stand, and of the ring's state those of `FrameKept`. -/
theorem FrameKept.of_rv (hc : t.course = s.course) (hn : t.tick = s.tick) (hr : t.rv = s.rv) : FrameKept s t :=
  ⟨hc, congrArg TickSt.now hn, congrArg River.role hr, congrArg River.headId hr, congrArg River.accepts hr, congrArg River.lastTick hr⟩

theorem FrameKept.raise (h : FrameKept s t) (c : BitVec 16) (k : BitVec 2) (d : W32) : FrameKept s (t.raise c k d) :=
  h.trans ⟨State.raise_course .., congrArg TickSt.now (State.raise_tick ..), State.raise_rv_role .., State.raise_rv_headId ..,
    State.raise_rv_accepts .., State.raise_rv_lastTick ..⟩

theorem FrameKept.raiseLimited (h : FrameKept s t) (c : BitVec 16) (k : BitVec 2) (d : W32) (i n : Nat) :
    FrameKept s (t.raiseLimited c k d i n) :=
  h.trans ⟨State.raiseLimited_course .., congrArg TickSt.now (State.raiseLimited_tick ..), State.raiseLimited_rv_role ..,
    State.raiseLimited_rv_headId .., State.raiseLimited_rv_accepts .., State.raiseLimited_rv_lastTick ..⟩

theorem FrameKept.count (h : FrameKept s t) (f : Fld) (n : Nat) : FrameKept s (t.count f n) := h.trans (.of_rv rfl rfl rfl)

theorem FrameKept.modPort (h : FrameKept s t) (p : RvRing) (f : RvPort → RvPort) : FrameKept s (t.modPort p f) := by
  cases p <;> exact h.trans ⟨rfl, rfl, rfl, rfl, rfl, rfl⟩

theorem FrameKept.modRv (h : FrameKept s t) {f : River → River} (hr : (f t.rv).role = t.rv.role) (hi : (f t.rv).headId = t.rv.headId)
    (ha : (f t.rv).accepts = t.rv.accepts) (hl : (f t.rv).lastTick = t.rv.lastTick) : FrameKept s (t.modRv f) :=
  h.trans ⟨rfl, rfl, hr, hi, ha, hl⟩

theorem FrameKept.complete (h : FrameKept s t) {q : Ring} (hq : 16 ≤ q.val) (tag : BitVec 16) (slot : Nat) (st : Byte) (i : W64) (b : Bool) :
    FrameKept s (t.complete q tag slot st i b) :=
  h.trans (.of_rv (congrArg State.course (State.complete_behind ..) :) (congrArg State.tick (State.complete_behind ..) :)
    (unanswered_rv.complete hq ..))

theorem FrameKept.foldl {α : Type} {f : State → α → State} (hf : ∀ t a, FrameKept t (f t a)) (l : List α) (s : State) :
    FrameKept s (l.foldl f s) := by
  induction l generalizing s with
  | nil => exact .refl s
  | cons a _ ih => exact (hf s a).trans (ih (f s a))

theorem portAccept_kept (s : State) (p : RvRing) (f : RvFrame) : FrameKept s (s.portAccept p f) := by
  have hrun : FrameKept s (s.portRun p f) := by
    unfold State.portRun
    dsimp only
    split
    · exact (FrameKept.refl s).modPort ..
    · exact ((FrameKept.refl s).modPort ..).modPort ..
  unfold State.portAccept
  extract_lets gap u
  split
  · exact hrun
  · exact (hrun.count ..).raiseLimited ..

theorem setErr_kept (s : State) (e d : Int) : FrameKept s (s.setErr e d) := by
  unfold State.setErr
  extract_lets u v near
  have hv : FrameKept s v := by
    have hu : FrameKept s u := (FrameKept.refl s).modRv rfl rfl rfl rfl
    show FrameKept s (if _ then _ else _)
    split
    · exact hu.modRv rfl rfl rfl rfl
    · exact hu
  exact hv.modRv rfl rfl rfl rfl

theorem pairErr_kept (s : State) (tA tB : Int) : FrameKept s (s.pairErr tA tB) := by
  unfold State.pairErr
  extract_lets r ok u v d w d' e
  have hv : FrameKept s v := by
    have hu : FrameKept s u := (FrameKept.refl s).modRv rfl rfl rfl rfl
    show FrameKept s (if _ then _ else _)
    split
    · exact (hu.count ..).raise ..
    · exact hu
  split
  · exact (hv.modRv rfl rfl rfl rfl).trans (setErr_kept ..)
  · exact (((hv.modPort ..).modPort ..).modRv rfl rfl rfl rfl).trans (setErr_kept ..)

theorem slaveStep_kept (s : State) (f : RvFrame) (stampPs : Int) : FrameKept s (s.slaveStep f stampPs) := by
  unfold State.slaveStep
  extract_lets t u r p d
  have hu : FrameKept s u := (FrameKept.refl s).modPort ..
  split
  · split
    · split
      · exact hu.trans (pairErr_kept ..)
      · exact hu
    · exact hu
  · split
    · exact hu.trans (setErr_kept ..)
    · exact (hu.modRv rfl rfl rfl rfl).trans (setErr_kept ..)

theorem posStep_kept (s : State) (f : RvFrame) : FrameKept s (s.posStep f) := by
  unfold State.posStep
  extract_lets p u
  have hu : FrameKept s u := (FrameKept.refl s).modRv rfl rfl rfl rfl
  split
  · exact .refl s
  · split
    · exact (hu.modRv rfl rfl rfl rfl).raise ..
    · exact hu

theorem takeSnap_kept (s : State) (n : Nat) : FrameKept s (s.takeSnap n) := by
  unfold State.takeSnap
  extract_lets u
  split
  · exact .refl s
  · split
    · exact .of_rv rfl rfl rfl
    · exact ((FrameKept.of_rv rfl rfl rfl : FrameKept s u).count ..).raise ..

/-- Only a headwater steps forward for a notice. -/
theorem takeNotice_kept (hs : s.isHead = false) (n : RvNotice) : FrameKept s (s.takeNotice n) := by
  unfold State.takeNotice
  extract_lets recent u cls v
  have hv : FrameKept s v := ((FrameKept.refl s).modRv (t := s) (f := fun r => { r with seen := (n.src, n.code, s.now) :: recent }) rfl rfl rfl
    rfl).raise ..
  split
  · exact .refl s
  · split
    · have hno : v.aheadStep n.data.toNat = v := by
        rw [State.aheadStep, hv.isHead, hs, Bool.false_and, if_neg Bool.false_ne_true]
      rw [hno]
      exact hv
    · exact hv

theorem takeMail_kept (l : List (Option RvMail)) (s : State) : FrameKept s (s.takeMail l).2 := by
  induction l generalizing s with
  | nil => exact .refl s
  | cons m l ih =>
    cases m with
    | none => exact ih s
    | some m =>
      unfold State.takeMail
      split
      · exact ((FrameKept.refl s).modRv (f := fun r => { r with inbox := r.inbox ++ [m] }) rfl rfl rfl rfl).trans (ih _)
      · exact ih s

theorem mailServe_kept (s : State) : FrameKept s s.mailServe := by
  unfold State.mailServe
  extract_lets n l u
  have hu : FrameKept s u := (FrameKept.refl s).modRv rfl rfl rfl rfl
  refine hu.trans (.foldl (fun t p => ?_) l u)
  split
  · exact (FrameKept.of_rv rfl rfl rfl : FrameKept t (t.pushData ..)).complete (by decide) ..
  · exact .refl t

theorem takeNotices_kept (l : List (Option RvNotice)) (hs : s.isHead = false) : FrameKept s (l.foldl (fun s n => match n with
    | some x => s.takeNotice x
    | none => s) s) := by
  induction l generalizing s with
  | nil => exact .refl s
  | cons n l ih =>
    cases n with
    | none => exact ih hs
    | some x =>
      have hx := takeNotice_kept hs x
      exact hx.trans (ih (hx.isHead.trans hs))

theorem takeSlots_kept (hs : s.isHead = false) (f : RvFrame) : FrameKept s (s.takeSlots f).2 :=
  ((takeNotices_kept f.faults hs).trans (takeMail_kept f.mails _)).trans (mailServe_kept _)

theorem placeSlots_kept (s : State) (ring : RvRing) (f : RvFrame) : FrameKept s (s.placeSlots ring f).2 := by
  have hfold (l : List MailOut) (t : State) : FrameKept t (l.foldl (fun s x => s.complete 16 x.tag x.slot 0 0) t) :=
    .foldl (fun t _ => (FrameKept.refl t).complete (by decide) ..) l t
  cases ring
  · exact ((FrameKept.refl s).modRv rfl rfl rfl rfl).trans (hfold _ _)
  · exact ((FrameKept.refl s).modRv rfl rfl rfl rfl).trans (hfold _ _)

theorem rvOut_kept (s : State) (ring : RvRing) (f : RvFrame) (stomped : Bool) : FrameKept s (s.rvOut ring f stomped) := by
  unfold State.rvOut
  extract_lets other turned was u
  have hu : FrameKept s u := by
    show FrameKept s (if _ then _ else _)
    split
    · cases ring <;> exact ((FrameKept.refl s).modRv rfl rfl rfl rfl).raise ..
    · exact .refl s
  split
  · exact hu.trans (.of_rv rfl rfl rfl)
  · exact hu.trans (.of_rv rfl rfl rfl)

/-- The RING source as a frame gives it (R436). -/
structure FromFrame (c : Course) (f : RvFrame) : Prop where
  got : c.ring.got = true
  speed : c.ring.speed = some ⟨f.v, (f.updTick.toNat : Int)⟩
  yaw : c.ring.yaw = some ⟨f.omega, (f.updTick.toNat : Int)⟩
  sRef : c.ringSRef = f.sRef

/-- What a frame that a tributary takes leaves. -/
structure Taken (s t : State) (f : RvFrame) : Prop where
  head : t.isHead = false
  lastTick : t.rv.lastTick = s.now
  accepts : t.rv.accepts = s.rv.accepts + 1
  headId : t.rv.headId = some f.headId
  course : FromFrame t.course f

theorem Taken.kept {f : RvFrame} (h : Taken s t f) (g : FrameKept t u) : Taken s u f :=
  ⟨g.isHead.trans h.head, g.lastTick.trans h.lastTick, g.accepts.trans h.accepts, g.headId.trans h.headId, g.course ▸ h.course⟩

theorem Taken.of_kept {f : RvFrame} (h : Taken t u f) (g : FrameKept s t) : Taken s u f :=
  ⟨h.head, h.lastTick.trans (congrArg BitVec.toNat g.now), h.accepts.trans (congrArg (· + 1) g.accepts), h.headId, h.course⟩

/-- The headwater's HEAD_ID is in use after a frame of its. -/
theorem headChange_uses (s : State) (id : W32) : (s.headChange id).rv.headId = some id ∧ (s.headChange id).rv.role = s.rv.role ∧
    (s.headChange id).rv.accepts = s.rv.accepts ∧ (s.headChange id).tick = s.tick := by
  rw [State.headChange.eq_def]
  split
  · exact ⟨rfl, rfl, rfl, rfl⟩
  · rename_i old hold
    split
    · rename_i hid
      exact ⟨hold.trans (congrArg some hid), rfl, rfl, rfl⟩
    · exact ⟨State.raise_rv_headId .., State.raise_rv_role .., State.raise_rv_accepts .., State.raise_tick ..⟩

/-- The module once a frame has shown it to be on a ring (R428). -/
def State.onRing (s : State) : State :=
  if s.rv.role = .none_ then
    if s.mode.straps.headLow then (s.modRv fun r => { r with role := .tributary }).raise 0x0C0E 0 else s.modRv fun r => { r with role := .tributary }
  else s

theorem State.onRing_tributary (hs : s.isHead = false) : s.onRing.isHead = false ∧ s.onRing.rv.accepts = s.rv.accepts ∧ s.onRing.tick = s.tick := by
  unfold onRing
  split
  · split
    · refine ⟨?_, raise_rv_accepts .., raise_tick ..⟩
      rw [isHead, raise_rv_role]
      rfl
    · exact ⟨rfl, rfl, rfl⟩
  · exact ⟨hs, rfl, rfl⟩

theorem ringSource_from (s : State) (f : RvFrame) (first : Bool) : FromFrame (s.ringSource f first).course f := ⟨rfl, rfl, rfl, rfl⟩

theorem tribTake_taken (hs : s.isHead = false) (f : RvFrame) (hheld : f.held = false) (stampPs : Int) : Taken s (s.tribTake f stampPs) f := by
  obtain ⟨t, ht⟩ : ∃ t, t = s.onRing := ⟨_, rfl⟩
  obtain ⟨hhead, hacc, htick⟩ := State.onRing_tributary hs
  rw [← ht] at hhead hacc htick
  obtain ⟨hid, hrole, haccC, htickC⟩ := headChange_uses t f.headId
  have hnow : (t.headChange f.headId).now = s.now := congrArg (fun x : TickSt => x.now.toNat) (htickC.trans htick)
  unfold State.tribTake
  extract_lets first s0 s1 s2 s3 s4
  have h1 : s1 = t := ht.symm
  have hhead2 : s2.isHead = false := by
    show ((s1.headChange f.headId).isHead) = false
    rw [h1]
    unfold State.isHead at hhead ⊢
    rw [hrole]
    exact hhead
  have hid2 : s2.rv.headId = some f.headId := (congrArg (fun x : State => (x.headChange f.headId).rv.headId) h1).trans hid
  have hacc2 : s2.rv.accepts = s.rv.accepts := (congrArg (fun x : State => (x.headChange f.headId).rv.accepts) h1).trans (haccC.trans hacc)
  have hnow2 : s2.now = s.now := (congrArg (fun x : State => (x.headChange f.headId).now) h1).trans hnow
  rw [hheld, if_neg Bool.false_ne_true]
  have h4 : FrameKept s3 s4 := by
    show FrameKept s3 (if _ then _ else _)
    split
    · exact .refl s3
    · exact slaveStep_kept ..
  have hp : FrameKept s3 (s4.posStep f) := h4.trans (posStep_kept ..)
  have hsrc : Taken s ((s4.posStep f).ringSource f first) f :=
    ⟨hp.isHead.trans hhead2, hp.lastTick.trans hnow2, hp.accepts.trans (congrArg (· + 1) hacc2), hp.headId.trans hid2, ringSource_from ..⟩
  exact hsrc.kept (takeSnap_kept ..)

theorem ringFrameAccept_takes {p : RvRing} {f : RvFrame} {n : Nat} (hc : s.clockOn = true) (hon : s.mode.domeOn = true)
    (hs : s.isHead = false) (hh : f.hops ≤ 1023) (hheld : f.held = false) : ∃ t, exec (.ringFrameAccept p f true n) s = .next t ∧ Taken s t f := by
  have hp := portAccept_kept s p f
  have hnot : ¬ 1023 < f.hops := by omega
  rw [exec_ringFrameAccept, execRingFrameAccept]
  simp only [hc, hon]
  rw [if_neg (by decide), if_neg (by decide), if_neg (by decide), if_neg hnot, hp.isHead, hs, if_neg Bool.false_ne_true]
  have ht := (tribTake_taken (hp.isHead.trans hs) f hheld (s.now * 5000 + (n / 625 % 8) * 625)).of_kept hp
  exact ⟨_, rfl, ((ht.kept (takeSlots_kept ht.head _)).kept (placeSlots_kept ..)).kept (rvOut_kept ..)⟩

end Take

/-! The join -/

section Join

variable {s : State}

theorem ringJoin_joins (hc : s.clockOn = true) (hr : s.rv.role = .tributary) (hj : s.rv.joined = false) (hf : s.rv.fresh = true)
    (ha : 17 ≤ s.rv.accepts) (he : s.rv.e.natAbs ≤ 1000000) : exec .ringJoin s =
      .next ((s.modRv fun r => { r with fresh := false, joined := true }).raise 0x0C00 0 (BitVec.ofNat 32 s.rv.pos)) := by
  rw [exec_ringJoin, execRingJoin]
  simp only [hc, hr, hj, hf, ha, decide_true, Bool.and_self, Bool.not_false, if_true]
  rw [if_neg (by omega), if_neg (by omega)]
  rfl

theorem ringJoin_field (hc : s.clockOn = true) (hr : s.rv.role = .tributary) (hj : s.rv.joined = false) (hf : s.rv.fresh = true)
    (ha : 17 ≤ s.rv.accepts) (he : s.rv.e < -1000000) (hm : s.mode.mode = .field) : exec .ringJoin s =
      .next ((s.modRv fun r => { r with fresh := false }).raise 0x0C0B 0) := by
  rw [exec_ringJoin, execRingJoin]
  simp only [hc, hr, hj, hf, ha, decide_true, Bool.and_self, Bool.not_false, if_true]
  rw [if_pos he]
  exact if_pos hm

theorem ringJoin_steps (hc : s.clockOn = true) (hr : s.rv.role = .tributary) (hj : s.rv.joined = false) (hf : s.rv.fresh = true)
    (ha : 17 ≤ s.rv.accepts) (he : s.rv.e < -1000000) (hm : s.mode.mode ≠ .field) : ∃ t, exec .ringJoin s = .next t ∧ t.rv.joined = true ∧
      t.tick.now = BitVec.ofNat 64 (s.now + ((-s.rv.e + 4999) / 5000).toNat) := by
  rw [exec_ringJoin, execRingJoin]
  simp only [hc, hr, hj, hf, ha, decide_true, Bool.and_self, Bool.not_false, if_true]
  obtain ⟨u, hu⟩ : ∃ u, u = s.modRv fun r => { r with fresh := false } := ⟨_, rfl⟩
  have hnow : u.now = s.now := hu ▸ rfl
  have hmode : u.mode.mode ≠ .field := hu ▸ hm
  rw [if_pos he, ← hu, if_neg hmode]
  refine ⟨_, rfl, State.raise_rv_joined .., ?_⟩
  rw [State.raise_tick, State.modRv_tick, (stepTo_shows u _).1, hnow]

theorem ringJoin_ahead (hc : s.clockOn = true) (hr : s.rv.role = .tributary) (hj : s.rv.joined = false) (hf : s.rv.fresh = true)
    (ha : 17 ≤ s.rv.accepts) (he : 1000000 < s.rv.e) : exec .ringJoin s =
      .next (((s.modRv fun r => { r with fresh := false }).sendNotice 0x0C0A 0 (BitVec.ofNat 32 (satU 32 ((s.rv.e + 999999) / 1000000)))).raise
        0x0C0A 0 (BitVec.ofNat 32 (satU 32 ((s.rv.e + 999999) / 1000000)))) := by
  rw [exec_ringJoin, execRingJoin]
  simp only [hc, hr, hj, hf, ha, decide_true, Bool.and_self, Bool.not_false, if_true]
  rw [if_neg (by omega), if_pos he]

/-- A notice for the rings changes only the notices that wait. -/
theorem sendNotice_same (s : State) (c : BitVec 16) (k : BitVec 2) (d : W32) : (s.sendNotice c k d).rv.joined = s.rv.joined ∧
    (s.sendNotice c k d).tick = s.tick ∧ Grows s (s.sendNotice c k d) 0 := by
  unfold State.sendNotice
  dsimp only
  split
  · exact ⟨rfl, rfl, .refl s⟩
  · exact ⟨rfl, rfl, .of_same rfl rfl rfl⟩

end Join

/-- Settles O56. -/
theorem riverFramesTravel : Obligations.RiverFramesTravel := by
  unfold Obligations.RiverFramesTravel
  intro s hc hon hrun hfrz r
  refine ⟨ringFrameSend_idle hrun hfrz, ringFrameSend_sends hrun hfrz, fun p f n hhead => ?_, fun hr hj hf ha => ?_⟩
  · intro crc up
    refine ⟨fun hh hup => ?_, fun hh => ⟨_, ringFrameAccept_far hc hon hh, ?_, rfl, ?_⟩, fun hh hheld => ?_⟩
    · obtain ⟨hcrc, hsent, hcourse⟩ := State.badFrame_same (s := s) (p := p)
      have hexec := ringFrameAccept_bad (p := p) (n := n) hc hon hhead hh
      rw [State.rvOut_onward ((State.badFrame_down _).trans hup)] at hexec
      exact ⟨_, hexec, hcrc, congrArg (· ++ [_]) hsent, rfl, hcourse⟩
    · cases p <;> rfl
    · cases p <;> rfl
    · obtain ⟨t, hexec, ht⟩ := ringFrameAccept_takes (p := p) (n := n) hc hon hhead hh hheld
      exact ⟨t, hexec, ht.lastTick, ht.accepts, ht.headId, ht.course.got, ht.course.speed, ht.course.yaw, ht.course.sRef⟩
  · intro data
    refine ⟨fun he => ⟨_, ringJoin_joins hc hr hj hf ha he, State.raise_rv _ (by decide) (by decide) .., State.raise_tick .., fun hroom => ?_⟩,
      fun he hm => ⟨_, ringJoin_field hc hr hj hf ha he hm, State.raise_rv _ (by decide) (by decide) .., State.raise_tick .., fun hroom => ?_⟩,
      ringJoin_steps hc hr hj hf ha, fun he => ?_⟩
    · exact (Grows.of_same rfl rfl rfl : Grows s (s.modRv _) 0).stored hroom (by decide) _ _ _ {}
    · exact (Grows.of_same rfl rfl rfl : Grows s (s.modRv _) 0).stored hroom (by decide) _ _ _ {}
    · obtain ⟨u, hu⟩ : ∃ u, u = s.modRv fun r => { r with fresh := false } := ⟨_, rfl⟩
      have hgu : Grows s u 0 := hu ▸ .of_same rfl rfl rfl
      have hexec := ringJoin_ahead hc hr hj hf ha he
      rw [← hu] at hexec
      obtain ⟨hjoin, htick, hgrow⟩ := sendNotice_same u 0x0C0A 0 (BitVec.ofNat 32 (satU 32 ((s.rv.e + 999999) / 1000000)))
      have hju : u.rv.joined = false := hu ▸ hj
      exact ⟨_, hexec, (State.raise_rv_joined ..).trans (hjoin.trans hju), (State.raise_tick ..).trans (htick.trans (hu ▸ rfl)),
        fun hroom => (hgu.trans hgrow).stored hroom (by decide) _ _ _ {}⟩

end Sys2Proof.Machine
end

section
/-! PROOFS. Ring ports, the ends of slaving, and the headwaters' hand-over and loss (R428 to R441). -/

namespace Sys2Proof.Machine

section Ports

variable {s : State} {p : RvRing}

theorem State.modPort_same (f : RvPort → RvPort) : (s.modPort p f).rv.port p = f (s.rv.port p) := by
  cases p <;> rfl

theorem ringPortDown_due (hrun : s.mode.domeRun = true) (hd : (s.rv.port p).down = false) (hat : (s.rv.port p).lastAt + 6000 ≤ s.tick.wall) :
    exec (.ringPortDown p) s = .next (s.modPort p fun y => { y with up := false, down := true, run := 0 }) := by
  rw [exec_ringPortDown, execRingPortDown]
  refine if_pos ?_
  rw [hrun, hd]
  exact decide_eq_true hat

theorem ringPortDown_early (hat : s.tick.wall < (s.rv.port p).lastAt + 6000) : exec (.ringPortDown p) s = .next s := by
  have hnot : ¬ (s.rv.port p).lastAt + 30 * ticksPerUs ≤ s.tick.wall := Nat.not_le.2 hat
  rw [exec_ringPortDown, execRingPortDown]
  exact if_neg (by rw [decide_eq_false hnot, Bool.and_false]; exact Bool.false_ne_true)

/-- Whether frames are turned back at a port. -/
def River.turned (r : River) (p : RvRing) : Bool := match p with | .a => r.wrapB | .b => r.wrapA

/-- A port in use again, with its wrap ended. -/
def State.portBack (s : State) (p : RvRing) : State :=
  (s.modPort p fun y => { y with up := true, down := false }).modRv fun r => match p with
    | .a => { r with wrapB := false }
    | .b => { r with wrapA := false }

theorem State.portBack_rv (s : State) (p : RvRing) : (s.portBack p).rv.port p = { s.rv.port p with up := true, down := false } ∧
    (s.portBack p).rv.port (otherRing p) = s.rv.port (otherRing p) ∧ (s.portBack p).rv.turned p = false := by
  cases p <;> exact ⟨rfl, rfl, rfl⟩

theorem State.raise_port (c : BitVec 16) (k : BitVec 2) (d : W32) (q : RvRing) : (s.raise c k d).rv.port q = s.rv.port q := by
  cases q
  · exact State.raise_rv_portA ..
  · exact State.raise_rv_portB ..

theorem State.raise_turned (c : BitVec 16) (k : BitVec 2) (d : W32) (q : RvRing) : (s.raise c k d).rv.turned q = s.rv.turned q := by
  cases q
  · exact State.raise_rv_wrapB ..
  · exact State.raise_rv_wrapA ..

theorem ringPortUp_due (hrun : s.mode.domeRun = true) (hu : (s.rv.port p).up = false) (h16 : 16 ≤ (s.rv.port p).run) :
    exec (.ringPortUp p) s = .next (if s.rv.turned p then (s.portBack p).raise 0x0C02 0 (BitVec.ofNat 32 (ringBit p)) else s.portBack p) := by
  rw [exec_ringPortUp, execRingPortUp.eq_def]
  exact if_pos (by rw [hrun, hu, decide_eq_true h16]; rfl)

theorem ringPortUp_back (hrun : s.mode.domeRun = true) (hu : (s.rv.port p).up = false) (h16 : 16 ≤ (s.rv.port p).run) :
    ∃ t, exec (.ringPortUp p) s = .next t ∧ t.rv.port p = { s.rv.port p with up := true, down := false } ∧
      t.rv.port (otherRing p) = s.rv.port (otherRing p) ∧ t.rv.turned p = false ∧
      (s.rv.turned p = true → s.Room → Stored s t 0x0C02 0 (BitVec.ofNat 32 (ringBit p))) := by
  obtain ⟨hport, hother, hturned⟩ := s.portBack_rv p
  refine ⟨_, ringPortUp_due hrun hu h16, ?_⟩
  by_cases h : s.rv.turned p = true
  · have hgrow : Grows s (s.portBack p) 0 := by
      cases p <;> exact .of_same rfl rfl rfl
    rw [if_pos h]
    exact ⟨(State.raise_port ..).trans hport, (State.raise_port ..).trans hother, (State.raise_turned ..).trans hturned,
      fun _ hroom => hgrow.stored hroom (by decide) _ _ _ {}⟩
  · rw [if_neg h]
    exact ⟨hport, hother, hturned, fun ht => absurd ht h⟩

theorem notOnRing_leaves (hrun : s.mode.domeRun = true) (hh : s.isHead = false) (hid : s.rv.headId = none) :
    exec .notOnRing s = .next { s with rv := { s.rv with role := .none_ } } := by
  rw [exec_notOnRing, execNotOnRing]
  exact if_pos (by rw [hrun, hh, hid]; rfl)

end Ports

section Heads

variable {s : State}

/-- R435: what ends the slaving of a joined tributary. -/
theorem State.slaved_of_lost (h : 1000000 < s.rv.e.natAbs ∨ s.rv.lastTick + 20000 < s.now) : s.slaved = false := by
  unfold slaved
  rcases h with he | hl
  · rw [decide_eq_false (Nat.not_le.2 he), Bool.and_false, Bool.false_and]
  · rw [decide_eq_false (Nat.not_le.2 hl), Bool.and_false]

theorem slavingLost_due (hc : s.clockOn = true) (hr : s.rv.role = .tributary) (hj : s.rv.joined = true) (hs : s.slaved = false) :
    exec .slavingLost s =
      .next ((s.modRv fun r => { r with joined := false, locked := false, inRun := 0, outRun := 0, accepts := 0 }).raise 0x0C0B 0) := by
  rw [exec_slavingLost, execSlavingLost]
  exact if_pos (by rw [hc, hr, hj, hs]; rfl)

/-- A standby headwater that sends its own frames (R438, R440). -/
def State.actsAsHead (s : State) : State :=
  s.modRv fun r => { r with role := .acting, pos := 0, joined := false, ringN := max 1 r.ringN, headId := some (Config.unitWord 2 &&& 0x7FFFFFFF) }

theorem standbyTakeover_due (hc : s.clockOn = true) (hstby : s.mode.straps.stbyLow = true) (hlow : s.mode.straps.headLow = false)
    (hy : s.rv.yielded = false) (hh : s.isHead = false) (hat : s.rv.lastSeen + 20000 ≤ s.tick.wall) :
    exec .standbyTakeover s = .next (s.actsAsHead.raise 0x0C03 2 (Config.unitWord 2 &&& 0x7FFFFFFF)) := by
  have hat' : s.rv.lastSeen + 100 * ticksPerUs ≤ s.tick.wall := hat
  rw [exec_standbyTakeover, execStandbyTakeover]
  exact if_pos (by rw [hc, hstby, hlow, hy, hh, decide_eq_true hat']; rfl)

theorem standbyTakeover_early (hat : s.tick.wall < s.rv.lastSeen + 20000) : exec .standbyTakeover s = .next s := by
  have hnot : ¬ s.rv.lastSeen + 100 * ticksPerUs ≤ s.tick.wall := Nat.not_le.2 hat
  rw [exec_standbyTakeover, execStandbyTakeover]
  exact if_neg (by rw [decide_eq_false hnot, Bool.and_false]; exact Bool.false_ne_true)

/-- The rings with no headwater: RING is not valid, and this is told. -/
def State.headGone (s : State) : State :=
  (s.modRv fun r => { r with lostTold := true }).modCourse fun c => { c with ring := { c.ring with got := false } }

theorem headwaterLost_due (hc : s.clockOn = true) (hr : s.rv.role = .tributary) (ht : s.rv.lostTold = false)
    (hat : s.rv.lastSeen + 20000 ≤ s.tick.wall) : exec .headwaterLost s = .next (s.headGone.raise 0x0C0F 2) := by
  have hat' : s.rv.lastSeen + 100 * ticksPerUs ≤ s.tick.wall := hat
  rw [exec_headwaterLost, execHeadwaterLost]
  exact if_pos (by rw [hc, hr, ht, decide_eq_true hat']; rfl)

end Heads

/-- Settles O57. -/
theorem riverPortsAndHeadwaters : Obligations.RiverPortsAndHeadwaters := by
  unfold Obligations.RiverPortsAndHeadwaters
  intro s hrun r
  refine ⟨fun p => ⟨ringPortDown_due hrun, ringPortDown_early, fun hu h16 => ?_⟩, notOnRing_leaves hrun, fun hc => ⟨fun hr hj hlost => ?_,
    fun hstby hlow hy hh => ⟨fun hat => ?_, standbyTakeover_early⟩, fun hr ht hat => ?_⟩⟩
  · obtain ⟨t, hexec, hport, hother, hturned, hstored⟩ := ringPortUp_back hrun hu h16
    cases p <;> exact ⟨t, hexec, hport, hother, hturned, hstored⟩
  · exact ⟨_, slavingLost_due hc hr hj (State.slaved_of_lost hlost), State.raise_rv_joined .., State.raise_rv_locked .., State.raise_rv_trim ..,
      fun hroom => (Grows.of_same rfl rfl rfl : Grows s (s.modRv _) 0).stored hroom (by decide) _ _ _ {}⟩
  · exact ⟨_, standbyTakeover_due hc hstby hlow hy hh hat, State.raise_rv_role .., State.raise_rv_pos .., State.raise_rv_headId ..,
      fun hroom => (Grows.of_same rfl rfl rfl : Grows s s.actsAsHead 0).stored hroom (by decide) _ _ _ {}⟩
  · exact ⟨_, headwaterLost_due hc hr ht hat, congrArg (fun c : Course => c.ring.got) (State.raise_course ..), State.raise_rv_lostTold ..,
      State.raise_rv_joined .., State.raise_rv_locked .., fun hroom => (Grows.of_same rfl rfl rfl : Grows s s.headGone 0).stored hroom
        (by decide) _ _ _ {}⟩

end Sys2Proof.Machine
end

section
/-! PROOFS. OTP commands, their times and results, and key staging (R451, R457 to R465). -/

namespace Sys2Proof.Machine

/-! A command is judged -/

section Judge

variable {s : State} {w : W32}

/-- An event of the OTP block changes none of the arrays. -/
theorem State.otpRefuse_same (n : Nat) (hn : n < 8) (told : Bool) : (s.otpRefuse n told).otp = s.otp ∧ (s.otpRefuse n told).get R.OTP_STAT_RESULT = n := by
  have hput : (s.put R.OTP_STAT_RESULT n).get R.OTP_STAT_RESULT = n := (State.get_put_near _ _ _ (by decide)).trans (Nat.mod_eq_of_lt hn)
  unfold otpRefuse
  cases told with
  | false => exact ⟨rfl, hput⟩
  | true => exact ⟨State.raise_otp .., (State.raise_get_far _ _ _ _ _ (by decide)).trans hput⟩

theorem State.otpRefuse_stored {t : State} (hroom : s.Room) (h : Grows s t 0) (n : Nat) : Stored s (t.otpRefuse n true) 0x0D01 0 (BitVec.ofNat 32 n) :=
  (h.put (f := R.OTP_STAT_RESULT) (by decide) n).stored hroom (by decide) _ _ _ {}

theorem State.otpStart_runs (x : OtpRun) : (s.otpStart x).otp = { s.otp with run := some { x with since := s.tick.wall } } ∧
    (s.otpStart x).flag R.OTP_STAT_BUSY = true :=
  ⟨rfl, (State.modOtp_flag ..).trans (State.flag_putFlag_near _ _ _ (by decide))⟩

theorem State.otpCmd_busy (h : s.flag R.OTP_STAT_BUSY = true) (w : W32) : s.otpCmd w = s := by
  unfold otpCmd
  dsimp only
  rw [h]
  exact if_pos rfl

theorem State.otpCmd_read (hb : s.flag R.OTP_STAT_BUSY = false) (hop : bits w.toNat 0 3 = 1) (ha : bits w.toNat 4 2 < 3) : s.otpCmd w =
    if otpWords (bits w.toNat 4 2) ≤ bits w.toNat 8 12 ∨ bits w.toNat 6 2 = 3 then s.otpRefuse 5 false
    else s.otpStart ⟨1, BitVec.ofNat 2 (bits w.toNat 4 2), bits w.toNat 8 12, BitVec.ofNat 2 (bits w.toNat 6 2), [], 0⟩ := by
  unfold otpCmd
  simp only [hb, hop, if_neg (show ¬ bits w.toNat 4 2 = 3 by omega)]
  rw [if_neg (by decide), if_pos trivial]
  simp only [Bool.or_eq_true, decide_eq_true_eq]

theorem State.otpCmd_scan (hb : s.flag R.OTP_STAT_BUSY = false) (hop : bits w.toNat 0 3 = 3) (ha : bits w.toNat 4 2 < 3) : s.otpCmd w =
    if s.mode.mode = .field then s.otpRefuse 1 true else s.otpStart ⟨3, BitVec.ofNat 2 (bits w.toNat 4 2), 0, 0, [], 0⟩ := by
  unfold otpCmd
  simp only [hb, hop, if_neg (show ¬ bits w.toNat 4 2 = 3 by omega)]
  rw [if_neg (by decide), if_neg (by decide), if_pos trivial]

/-- The words staged for a burn (R458). -/
def State.staged (s : State) : List W32 := (List.range 31).map fun k => s.reg (R.OTP_STAGE k)

/-- A burn or a re-burn as R457 answers it. -/
theorem State.otpCmd_burn {op : Nat} (hb : s.flag R.OTP_STAT_BUSY = false) (hop : bits w.toNat 0 3 = op) (h24 : op = 2 ∨ op = 4)
    (ha : bits w.toNat 4 2 < 3) (r : Option Nat) (hr : s.burnRefusal (bits w.toNat 4 2) (bits w.toNat 8 12)
      (if op = 2 then bits w.toNat 4 2 ≤ 1 else bits w.toNat 4 2 ≠ 1) (op = 2) = r) :
    s.otpCmd w = r.elim (({ s with free := s.free + 1 } : State).otpStart ⟨BitVec.ofNat 3 op, BitVec.ofNat 2 (bits w.toNat 4 2), bits w.toNat 8 12, 0,
      s.staged, 0⟩) (({ s with free := s.free + 1 } : State).otpRefuse · true) := by
  subst hr
  unfold otpCmd
  rcases h24 with rfl | rfl
  all_goals
    simp only [hb, hop, if_neg (show ¬ bits w.toNat 4 2 = 3 by omega)]
    rw [if_neg (by decide), if_neg (by decide), if_neg (by decide)]
    cases s.burnRefusal _ _ _ _ <;> rfl

theorem State.burnRefusal_mode (h : s.mode.mode ≠ .service) (a b : Nat) (x y : Bool) : s.burnRefusal a b x y = some 1 := if_pos h

theorem State.burnRefusal_none {a b : Nat} (hm : s.mode.mode = .service) (hsafe : s.burnSafe = true) (hp : s.mode.keepPatched = false)
    (hin : 32 * b + 32 ≤ otpWords a) {blank : Bool} (hblank : blank = true → ∀ k, k < 32 → s.otp.normal a (32 * b + k) s.free = 0) :
    s.burnRefusal a b true blank = none := by
  have hany : (blank && (true && decide (32 * b + 32 ≤ otpWords a)) &&
      (List.range 32).any fun k => s.otp.normal a (32 * b + k) s.free != 0) = false := by
    cases blank with
    | false => rfl
    | true =>
      rw [decide_eq_true hin]
      refine List.any_eq_false.2 fun k hk => ?_
      rw [hblank rfl k (List.mem_range.1 hk)]
      decide
  unfold burnRefusal
  dsimp only
  rw [if_neg (fun h => h hm), hsafe, hp, if_neg (by decide), if_neg (by decide), hany, if_neg (by decide), decide_eq_true hin]
  rfl

theorem State.burnRefusal_blank {a b : Nat} (hm : s.mode.mode = .service) (hsafe : s.burnSafe = true) (hp : s.mode.keepPatched = false)
    (hin : 32 * b + 32 ≤ otpWords a) (hfull : ∃ k, k < 32 ∧ s.otp.normal a (32 * b + k) s.free ≠ 0) :
    s.burnRefusal a b true true = some 3 := by
  obtain ⟨k, hk, hne⟩ := hfull
  have hany : ((List.range 32).any fun k => s.otp.normal a (32 * b + k) s.free != 0) = true :=
    List.any_eq_true.2 ⟨k, List.mem_range.2 hk, bne_iff_ne.2 hne⟩
  unfold burnRefusal
  dsimp only
  rw [if_neg (fun h => h hm), hsafe, hp, if_neg (by decide), if_neg (by decide), hany, decide_eq_true hin]
  rfl

end Judge

/-! The word written with an operation -/

section Word

variable (v : W32) {op : Nat}

theorem bits_withOp (h : op < 8) : bits (withField v ⟨0, 0, 3⟩ op).toNat 0 3 = op :=
  (fieldOf_withField_same v ⟨0, 0, 3⟩ op (by decide)).trans (Nat.mod_eq_of_lt h)

theorem bits_withOp_other {lo n : Nat} (hlo : 3 ≤ lo) (hn : lo + n ≤ 32) :
    bits (withField v ⟨0, 0, 3⟩ op).toNat lo n = bits v.toNat lo n :=
  fieldOf_withField_other v ⟨0, 0, 3⟩ ⟨0, lo, n⟩ op hn (.inr hlo)

theorem otpCmdOp_writes {s : State} (hw : s.hostWritable = true) : s.otpCmdOp v op = .next (s.otpCmd (withField v ⟨0, 0, 3⟩ op)) := if_pos hw

end Word

/-! A command ends -/

section Ends

variable {s : State} {x : OtpRun} {cells : List (Nat × W32 × W32)}

/-- The arrays are programmed alike whatever runs (R458). -/
theorem Otp.setWord_run (o : Otp) (r : Option OtpRun) (a w : Nat) (v weak : W32) :
    ({ o with run := r } : Otp).setWord a w v weak = { o.setWord a w v weak with run := r } := by
  unfold setWord
  dsimp only
  split <;> rfl

theorem Otp.arr_run (o : Otp) (r : Option OtpRun) (a : Nat) : ({ o with run := r } : Otp).arr a = o.arr a := by
  unfold arr
  split <;> rfl

theorem Otp.weak_run (o : Otp) (r : Option OtpRun) (a : Nat) : ({ o with run := r } : Otp).weak a = o.weak a := by
  unfold weak
  split <;> rfl

theorem Otp.strict_run (o : Otp) (r : Option OtpRun) (a w : Nat) : ({ o with run := r } : Otp).strict a w = o.strict a w := by
  rw [strict, arr_run, weak_run, strict]

theorem Otp.relaxed_run (o : Otp) (r : Option OtpRun) (a w : Nat) : ({ o with run := r } : Otp).relaxed a w = o.relaxed a w := by
  rw [relaxed, arr_run, relaxed]

theorem Otp.program_run (o : Otp) (r : Option OtpRun) (a w : Nat) (v : W32) :
    ({ o with run := r } : Otp).program a w v cells = { o.program a w v cells with run := r } := by
  unfold program
  split
  · rfl
  · simp only [arr_run, weak_run, setWord_run]

theorem Otp.burn_run (o : Otp) (r : Option OtpRun) (a b : Nat) (ws : List W32) :
    ({ o with run := r } : Otp).burn a b ws cells = ({ (o.burn a b ws cells).1 with run := r }, (o.burn a b ws cells).2) := by
  have hfold (l : List Nat) : ∀ o : Otp, l.foldl (fun o k => o.program a (32 * b + k) (ws.getD k 0) cells) { o with run := r } =
      { l.foldl (fun o k => o.program a (32 * b + k) (ws.getD k 0) cells) o with run := r } := by
    induction l with
    | nil => exact fun _ => rfl
    | cons k l ih =>
      intro o
      rw [List.foldl_cons, program_run, ih, List.foldl_cons]
  unfold burn
  simp only [hfold, strict_run]

theorem Otp.setWord_keepsRun (o : Otp) (a w : Nat) (v weak : W32) : (o.setWord a w v weak).run = o.run := by
  unfold setWord
  dsimp only
  split <;> rfl

theorem Otp.scanned_run (o : Otp) (a : Nat) (l : List (Nat × W32 × W32)) : (o.scanned a l).run = o.run := by
  unfold scanned
  induction l generalizing o with
  | nil => rfl
  | cons c l ih =>
    refine (ih _).trans ?_
    dsimp only
    split
    · exact setWord_keepsRun ..
    · rfl

theorem Otp.weakWords_run (o : Otp) (r : Option OtpRun) (a : Nat) : ({ o with run := r } : Otp).weakWords a = o.weakWords a := by
  rw [weakWords, weak_run, arr_run, weakWords]

/-- A command that runs no longer. -/
def State.otpFree (s : State) : State := (s.putFlag R.OTP_STAT_BUSY false).modOtp fun o => { o with run := none }

theorem State.otpFree_flag : s.otpFree.flag R.OTP_STAT_BUSY = false := (State.modOtp_flag ..).trans (State.flag_putFlag_near _ _ _ (by decide))

theorem otpFree_burn_run (a b : Nat) (ws : List W32) : (s.otpFree.otp.burn a b ws cells).1.run = none :=
  (congrArg (fun p : Otp × Bool => p.1.run) (Otp.burn_run s.otp none a b ws) :)

theorem State.put_flagOther {v : Nat} {g : Fld} (h : g.addr ≠ R.OTP_STAT ∨ g = R.OTP_STAT_RESULT) :
    (s.put g v).flag R.OTP_STAT_BUSY = s.flag R.OTP_STAT_BUSY := by
  rcases h with h | rfl
  · exact State.flag_put_far _ _ _ _ (.inl h)
  · exact State.flag_put_far _ _ _ _ (by decide)

theorem otpCommandDone_early (hx : s.otp.run = some x) (h : s.tick.wall < x.since + x.least s.otp) :
    exec (.otpCommandDone cells) s = .next s := by
  rw [exec_otpCommandDone, execOtpCommandDone.eq_def, hx]
  exact if_pos (by rw [decide_eq_true h, Bool.or_true])

/-- A burn's end tells its result and leaves the arrays. -/
theorem State.burnEnd_same (a b : Nat) {n : Nat} (hn : n < 8) : (s.burnEnd a b n).otp = s.otp ∧
    (s.burnEnd a b n).flag R.OTP_STAT_BUSY = s.flag R.OTP_STAT_BUSY ∧ (s.burnEnd a b n).get R.OTP_STAT_RESULT = n := by
  have hput : (s.put R.OTP_STAT_RESULT n).get R.OTP_STAT_RESULT = n := (State.get_put_near _ _ _ (by decide)).trans (Nat.mod_eq_of_lt hn)
  have hbusy : (s.put R.OTP_STAT_RESULT n).flag R.OTP_STAT_BUSY = s.flag R.OTP_STAT_BUSY := State.put_flagOther (.inr rfl)
  have hall (c : BitVec 16) (k : BitVec 2) (d : W32) : ((s.put R.OTP_STAT_RESULT n).raise c k d).otp = s.otp ∧
      ((s.put R.OTP_STAT_RESULT n).raise c k d).flag R.OTP_STAT_BUSY = s.flag R.OTP_STAT_BUSY ∧
      ((s.put R.OTP_STAT_RESULT n).raise c k d).get R.OTP_STAT_RESULT = n :=
    ⟨State.raise_otp .., (State.raise_flag_far _ _ _ _ _ (by decide)).trans hbusy, (State.raise_get_far _ _ _ _ _ (by decide)).trans hput⟩
  unfold burnEnd
  dsimp only
  split
  · exact hall ..
  · exact hall ..

theorem State.burnEnd_stored {t : State} (hroom : s.Room) (h : Grows s t 0) (a b : Nat) :
    Stored s (t.burnEnd a b 0) 0x0D00 0 (BitVec.ofNat 32 (a + 16 * b)) :=
  (h.put (f := R.OTP_STAT_RESULT) (by decide) 0).stored hroom (by decide) _ _ _ {}

/-- A scan's results in its registers. -/
def State.scanShown (s : State) (weak : List Nat) : State :=
  ((s.put R.OTP_SCAN_FIRST (weak.headD 0)).put R.OTP_SCAN_WEAK (satU 12 weak.length)).put R.OTP_STAT_RESULT 0

/-- The end of a scan. -/
def State.scanEnd (s : State) (weak : List Nat) : State :=
  if weak = [] then s.scanShown weak else (s.scanShown weak).raise 0x0D03 0 (BitVec.ofNat 32 weak.length)

theorem State.scanEnd_same (weak : List Nat) : (s.scanEnd weak).otp = s.otp ∧ (s.scanEnd weak).flag R.OTP_STAT_BUSY = s.flag R.OTP_STAT_BUSY ∧
    (s.scanEnd weak).get R.OTP_STAT_RESULT = 0 ∧ (s.scanEnd weak).get R.OTP_SCAN_WEAK = min weak.length 4095 := by
  have hbusy : (s.scanShown weak).flag R.OTP_STAT_BUSY = s.flag R.OTP_STAT_BUSY :=
    (State.put_flagOther (.inr rfl)).trans ((State.put_flagOther (.inl (by decide))).trans (State.put_flagOther (.inl (by decide))))
  have hres : (s.scanShown weak).get R.OTP_STAT_RESULT = 0 := State.get_put_near _ _ _ (by decide)
  have hweak : (s.scanShown weak).get R.OTP_SCAN_WEAK = min weak.length 4095 := by
    have hlt : satU 12 weak.length < 2 ^ 12 := Nat.lt_of_le_of_lt (Nat.min_le_right _ _) (by decide)
    exact (State.get_put_far _ _ _ _ (by decide)).trans ((State.get_put_near _ _ _ (by decide)).trans (Nat.mod_eq_of_lt hlt))
  unfold scanEnd
  split
  · exact ⟨rfl, hbusy, hres, hweak⟩
  · exact ⟨State.raise_otp .., (State.raise_flag_far _ _ _ _ _ (by decide)).trans hbusy, (State.raise_get_far _ _ _ _ _ (by decide)).trans hres,
      (State.raise_get_far _ _ _ _ _ (by decide)).trans hweak⟩

section Due

variable (hc : s.clockOn = true) (hx : s.otp.run = some x) (h : x.since + x.least s.otp ≤ s.tick.wall)
include hc hx h

/-- A command over its time goes on with its operation. -/
theorem otpCommandDone_read (hop : x.op = 1) : ∃ w n, exec (.otpCommandDone cells) s =
      .next ((({ s.otpFree with free := n } : State).setReg R.OTP_DATA w).put R.OTP_STAT_RESULT 0) ∧
    (x.margin = 1 → w = s.otp.strict x.array.toNat x.addr) ∧ (x.margin = 2 → w = s.otp.relaxed x.array.toNat x.addr) := by
  have hnot : ¬ s.tick.wall < x.since + x.least s.otp := Nat.not_lt.2 h
  rw [exec_otpCommandDone, execOtpCommandDone.eq_def, hx]
  dsimp only
  rw [hc, decide_eq_false hnot, if_neg (by decide), hop]
  by_cases h1 : x.margin = 1
  · refine ⟨s.otp.strict x.array.toNat x.addr, s.free, ?_, fun _ => rfl, fun h2 => absurd (h1.symm.trans h2) (by decide)⟩
    rw [h1]
    exact congrArg (fun w => Host.Outcome.next ((s.otpFree.setReg R.OTP_DATA w).put R.OTP_STAT_RESULT 0)) (Otp.strict_run ..)
  · by_cases h2 : x.margin = 2
    · refine ⟨s.otp.relaxed x.array.toNat x.addr, s.free, ?_, fun h => absurd h h1, fun _ => rfl⟩
      rw [h2]
      exact congrArg (fun w => Host.Outcome.next ((s.otpFree.setReg R.OTP_DATA w).put R.OTP_STAT_RESULT 0)) (Otp.relaxed_run ..)
    · refine ⟨s.otpFree.otp.normal x.array.toNat x.addr s.free, s.free + 1, ?_, fun h => absurd h h1, fun h => absurd h h2⟩
      have hm1 : x.margin.toNat ≠ 1 := fun h => h1 (BitVec.eq_of_toNat_eq h)
      have hm2 : x.margin.toNat ≠ 2 := fun h => h2 (BitVec.eq_of_toNat_eq h)
      generalize x.margin.toNat = m at hm1 hm2
      match m with
      | 0 => rfl
      | 1 => exact absurd rfl hm1
      | 2 => exact absurd rfl hm2
      | _ + 3 => rfl

/-- The state after a burn of words. -/
theorem otpCommandDone_burn (hop : x.op = 2) : exec (.otpCommandDone cells) s =
    .next ((s.otpFree.modOtp fun _ => { (s.otp.burn x.array.toNat x.addr (x.words ++ [blockCrc x.words]) cells).1 with run := none }).burnEnd
      x.array.toNat x.addr (if (s.otp.burn x.array.toNat x.addr (x.words ++ [blockCrc x.words]) cells).2 then 0 else 4)) := by
  have hnot : ¬ s.tick.wall < x.since + x.least s.otp := Nat.not_lt.2 h
  have himage : x.image s.otpFree.otp = x.words ++ [blockCrc x.words] := if_pos hop
  have hburn : s.otpFree.otp.burn x.array.toNat x.addr (x.image s.otpFree.otp) cells =
      ({ (s.otp.burn x.array.toNat x.addr (x.words ++ [blockCrc x.words]) cells).1 with run := none },
        (s.otp.burn x.array.toNat x.addr (x.words ++ [blockCrc x.words]) cells).2) := by
    rw [himage]
    exact Otp.burn_run ..
  rw [exec_otpCommandDone, execOtpCommandDone.eq_def, hx]
  dsimp only
  rw [hc, decide_eq_false hnot, if_neg (by decide), hop, show BitVec.toNat (2 : BitVec 3) = 2 from rfl, ← State.otpFree, hburn]
  rfl

/-- A scan tells the weak words that are known once the cells have shown theirs (R462). -/
theorem otpCommandDone_scan (hop : x.op = 3) : exec (.otpCommandDone cells) s =
    .next ((s.otpFree.modOtp fun o => o.scanned x.array.toNat cells).scanEnd ((s.otpFree.otp.scanned x.array.toNat cells).weakWords x.array.toNat)) := by
  have hnot : ¬ s.tick.wall < x.since + x.least s.otp := Nat.not_lt.2 h
  rw [exec_otpCommandDone, execOtpCommandDone.eq_def, hx]
  dsimp only
  rw [hc, decide_eq_false hnot, if_neg (by decide), hop, show BitVec.toNat (3 : BitVec 3) = 3 from rfl, ← State.otpFree]
  rfl

/-- A re-burn programs the block again, or finds its CRC wrong (R463). -/
theorem otpCommandDone_reburn (h1 : x.op ≠ 1) (h2 : x.op ≠ 2) (h3 : x.op ≠ 3) : ∃ ws n, n < 8 ∧
    (exec (.otpCommandDone cells) s = .next (s.otpFree.burnEnd x.array.toNat x.addr n) ∨
      exec (.otpCommandDone cells) s =
        .next ((s.otpFree.modOtp fun _ => (s.otpFree.otp.burn x.array.toNat x.addr ws cells).1).burnEnd x.array.toNat x.addr n)) := by
  have hnot : ¬ s.tick.wall < x.since + x.least s.otp := Nat.not_lt.2 h
  have hn1 : x.op.toNat ≠ 1 := fun h => h1 (BitVec.eq_of_toNat_eq h)
  have hn2 : x.op.toNat ≠ 2 := fun h => h2 (BitVec.eq_of_toNat_eq h)
  have hn3 : x.op.toNat ≠ 3 := fun h => h3 (BitVec.eq_of_toNat_eq h)
  refine ⟨(List.range 32).map fun k => s.otpFree.otp.relaxed x.array.toNat (32 * x.addr + k), ?_⟩
  rw [exec_otpCommandDone, execOtpCommandDone.eq_def, hx]
  dsimp only
  rw [hc, decide_eq_false hnot, if_neg (by decide), ← State.otpFree]
  split
  · exact absurd ‹_› hn1
  · exact absurd ‹_› hn2
  · exact absurd ‹_› hn3
  · split
    · refine ⟨_, ?_, .inr rfl⟩
      split <;> decide
    · exact ⟨7, by decide, .inl rfl⟩

/-- Whatever the command was, it runs no longer. -/
theorem otpCommandDone_frees : ∃ t, exec (.otpCommandDone cells) s = .next t ∧ t.otp.run = none ∧ t.flag R.OTP_STAT_BUSY = false := by
  have hbusy : s.otpFree.flag R.OTP_STAT_BUSY = false := s.otpFree_flag
  by_cases h1 : x.op = 1
  · obtain ⟨w, n, hexec, -, -⟩ := otpCommandDone_read (cells := cells) hc hx h h1
    exact ⟨_, hexec, rfl, (State.put_flagOther (.inr rfl)).trans ((State.flag_setReg_far _ _ _ _ (by decide)).trans hbusy)⟩
  by_cases h2 : x.op = 2
  · obtain ⟨hotp, hflag, -⟩ := State.burnEnd_same (s := s.otpFree.modOtp fun _ =>
      { (s.otp.burn x.array.toNat x.addr (x.words ++ [blockCrc x.words]) cells).1 with run := none }) x.array.toNat x.addr
      (n := if (s.otp.burn x.array.toNat x.addr (x.words ++ [blockCrc x.words]) cells).2 then 0 else 4) (by split <;> decide)
    exact ⟨_, otpCommandDone_burn hc hx h h2, congrArg Otp.run hotp, hflag.trans hbusy⟩
  by_cases h3 : x.op = 3
  · obtain ⟨hotp, hflag, -, -⟩ := State.scanEnd_same (s := s.otpFree.modOtp fun o => o.scanned x.array.toNat cells)
      ((s.otpFree.otp.scanned x.array.toNat cells).weakWords x.array.toNat)
    exact ⟨_, otpCommandDone_scan hc hx h h3, (congrArg Otp.run hotp).trans (Otp.scanned_run _ _ _), hflag.trans hbusy⟩
  · obtain ⟨ws, n, hn, hexec | hexec⟩ := otpCommandDone_reburn (cells := cells) hc hx h h1 h2 h3
    · obtain ⟨hotp, hflag, -⟩ := s.otpFree.burnEnd_same x.array.toNat x.addr hn
      exact ⟨_, hexec, congrArg Otp.run hotp, hflag.trans hbusy⟩
    · obtain ⟨hotp, hflag, -⟩ := State.burnEnd_same (s := s.otpFree.modOtp fun _ => (s.otpFree.otp.burn x.array.toNat x.addr ws cells).1)
        x.array.toNat x.addr hn
      exact ⟨_, hexec, (congrArg Otp.run hotp).trans (otpFree_burn_run ..), hflag.trans hbusy⟩

end Due

theorem Grows.otpFree (s : State) : Grows s s.otpFree 0 :=
  ((Grows.refl s).putFlag (f := R.OTP_STAT_BUSY) (by decide) false).same rfl rfl rfl

/-- The arrays of a burn with its result. -/
theorem burned_tells (s : State) (b : Otp × Bool) (a k : Nat) :
    let t := (s.otpFree.modOtp fun _ => { b.1 with run := none }).burnEnd a k (if b.2 then 0 else 4)
    t.get R.OTP_STAT_RESULT = (if b.2 then 0 else 4) ∧ t.otp.config = b.1.config ∧ t.otp.patch = b.1.patch ∧
      (b.2 = true → s.Room → Stored s t 0x0D00 0 (BitVec.ofNat 32 (a + 16 * k))) := by
  obtain ⟨u, hu⟩ : ∃ u, u = s.otpFree.modOtp fun _ => { b.1 with run := none } := ⟨_, rfl⟩
  have hotpu : u.otp = { b.1 with run := none } := hu ▸ rfl
  have hgrow : Grows s u 0 := hu ▸ (Grows.otpFree s).same rfl rfl rfl
  rw [← hu]
  obtain ⟨hotp, -, hres⟩ := u.burnEnd_same a k (n := if b.2 then 0 else 4) (by split <;> decide)
  refine ⟨hres, (congrArg Otp.config (hotp.trans hotpu) :), (congrArg Otp.patch (hotp.trans hotpu) :), fun hb hroom => ?_⟩
  rw [hb]
  exact State.burnEnd_stored hroom hgrow a k

theorem scanned_tells (s : State) (a : Nat) :
    let t := (s.otpFree.modOtp fun o => o.scanned a []).scanEnd ((s.otpFree.otp.scanned a []).weakWords a)
    t.otp = { s.otp with run := none } ∧ t.get R.OTP_STAT_RESULT = 0 ∧ t.get R.OTP_SCAN_WEAK = min (s.otp.weakWords a).length 4095 := by
  have hweak : (s.otpFree.otp.scanned a []).weakWords a = s.otp.weakWords a := Otp.weakWords_run ..
  obtain ⟨u, hu⟩ : ∃ u, u = s.otpFree.modOtp fun o => o.scanned a [] := ⟨_, rfl⟩
  have hotpu : u.otp = { s.otp with run := none } := hu ▸ rfl
  rw [← hu, hweak]
  obtain ⟨hotp, -, hres, hlen⟩ := u.scanEnd_same (s.otp.weakWords a)
  exact ⟨hotp.trans hotpu, hres, hlen⟩

theorem otpLeast_read (o : Otp) (h : x.op = 1) : x.least o = 5000 := by
  rw [OtpRun.least, h]
  rfl

theorem otpLeast_scan (o : Otp) (h : x.op = 3) : x.least o = otpWords x.array.toNat * 10000 := by
  rw [OtpRun.least, h]
  exact Nat.mul_assoc _ 2 readTicks

theorem otpLeast_burn (o : Otp) (h : x.op = 2) :
    x.least o = ((x.words ++ [blockCrc x.words]).filter (· ≠ 0)).length * 100000 + 160000 := by
  have himage : x.image o = x.words ++ [blockCrc x.words] := if_pos h
  rw [OtpRun.least, himage, h]
  rfl

end Ends

/-! Key staging -/

theorem keyLoad_lands {s : State} (h : s.hostWritable = true) : exec .keyLoad s = .next s.keyLoad := by
  rw [exec_keyLoad, execKeyLoad]
  exact if_pos h

/-! The commands as they are written -/

section Commands

variable {s : State} {v : W32}

/-- A command runs. -/
def Runs (s : State) (i : Instr) (x : OtpRun) : Prop :=
  ∃ t, exec i s = .next t ∧ t.otp = { s.otp with run := some { x with since := s.tick.wall } } ∧ t.flag R.OTP_STAT_BUSY = true

/-- A command is refused with event 0x0D01. -/
def Refuses (s : State) (i : Instr) (n : Nat) : Prop :=
  ∃ t, exec i s = .next t ∧ t.otp = s.otp ∧ t.get R.OTP_STAT_RESULT = n ∧ (s.Room → Stored s t 0x0D01 0 (BitVec.ofNat 32 n))

/-- Two states that differ in the count of free values. -/
def State.drawn (s : State) : State := { s with free := s.free + 1 }

theorem Runs.of_start {i : Instr} {x : OtpRun} (h : exec i s = .next (s.otpStart x)) : Runs s i x := by
  obtain ⟨hotp, hflag⟩ := s.otpStart_runs x
  exact ⟨_, h, hotp, hflag⟩

theorem Runs.of_drawn {i : Instr} {x : OtpRun} (h : exec i s = .next (s.drawn.otpStart x)) : Runs s i x := by
  obtain ⟨hotp, hflag⟩ := s.drawn.otpStart_runs x
  exact ⟨_, h, hotp, hflag⟩

theorem Refuses.of_refuse {i : Instr} {n : Nat} (hn : n < 8) (h : exec i s = .next (s.otpRefuse n true)) : Refuses s i n := by
  obtain ⟨hotp, hres⟩ := s.otpRefuse_same n hn true
  exact ⟨_, h, hotp, hres, fun hroom => State.otpRefuse_stored hroom (.refl s) n⟩

theorem Refuses.of_drawn {i : Instr} {n : Nat} (hn : n < 8) (h : exec i s = .next (s.drawn.otpRefuse n true)) : Refuses s i n := by
  obtain ⟨hotp, hres⟩ := s.drawn.otpRefuse_same n hn true
  exact ⟨_, h, hotp, hres, fun hroom => State.otpRefuse_stored hroom (.of_same (t := s.drawn) rfl rfl rfl) n⟩

variable (hw : s.hostWritable = true) (hb : s.flag R.OTP_STAT_BUSY = false) (ha : bits v.toNat 4 2 < 3)
include hw hb ha

theorem otpRead_judged : exec (.otpRead v) s = .next (if otpWords (bits v.toNat 4 2) ≤ bits v.toNat 8 12 ∨ bits v.toNat 6 2 = 3
    then s.otpRefuse 5 false
    else s.otpStart ⟨1, BitVec.ofNat 2 (bits v.toNat 4 2), bits v.toNat 8 12, BitVec.ofNat 2 (bits v.toNat 6 2), [], 0⟩) := by
  have h42 := bits_withOp_other v (op := 1) (lo := 4) (n := 2) (by decide) (by decide)
  have h62 := bits_withOp_other v (op := 1) (lo := 6) (n := 2) (by decide) (by decide)
  have h812 := bits_withOp_other v (op := 1) (lo := 8) (n := 12) (by decide) (by decide)
  have hcmd := State.otpCmd_read (w := withField v ⟨0, 0, 3⟩ 1) hb (bits_withOp v (by decide)) (h42.symm ▸ ha)
  rw [h42, h62, h812] at hcmd
  exact (otpCmdOp_writes v hw).trans (congrArg Host.Outcome.next hcmd)

theorem marginScan_judged : exec (.marginScan v) s = .next (if s.mode.mode = .field then s.otpRefuse 1 true
    else s.otpStart ⟨3, BitVec.ofNat 2 (bits v.toNat 4 2), 0, 0, [], 0⟩) := by
  have h42 := bits_withOp_other v (op := 3) (lo := 4) (n := 2) (by decide) (by decide)
  have hcmd := State.otpCmd_scan (w := withField v ⟨0, 0, 3⟩ 3) hb (bits_withOp v (by decide)) (h42.symm ▸ ha)
  rw [h42] at hcmd
  exact (otpCmdOp_writes v hw).trans (congrArg Host.Outcome.next hcmd)

theorem burn_judged {op : Nat} (h24 : op = 2 ∨ op = 4) {r : Option Nat} (hr : s.burnRefusal (bits v.toNat 4 2) (bits v.toNat 8 12)
      (if op = 2 then bits v.toNat 4 2 ≤ 1 else bits v.toNat 4 2 ≠ 1) (op = 2) = r) :
    s.otpCmdOp v op = .next (r.elim (s.drawn.otpStart ⟨BitVec.ofNat 3 op, BitVec.ofNat 2 (bits v.toNat 4 2), bits v.toNat 8 12, 0, s.staged, 0⟩)
      (s.drawn.otpRefuse · true)) := by
  have h42 := bits_withOp_other v (op := op) (lo := 4) (n := 2) (by decide) (by decide)
  have h812 := bits_withOp_other v (op := op) (lo := 8) (n := 12) (by decide) (by decide)
  have hop : op < 8 := by omega
  have hcmd := State.otpCmd_burn (w := withField v ⟨0, 0, 3⟩ op) hb (bits_withOp v hop) h24 (h42.symm ▸ ha) r
    (by rw [h42, h812]; exact hr)
  rw [h42, h812] at hcmd
  exact (otpCmdOp_writes v hw).trans (congrArg Host.Outcome.next hcmd)

theorem burn_outside (hm : s.mode.mode ≠ .service) : Refuses s (.burnBlock v) 1 ∧ Refuses s (.reburnWeak v) 1 :=
  ⟨.of_drawn (by decide) (burn_judged hw hb ha (.inl rfl) (State.burnRefusal_mode hm ..)),
    .of_drawn (by decide) (burn_judged hw hb ha (.inr rfl) (State.burnRefusal_mode hm ..))⟩

variable (hm : s.mode.mode = .service) (hsafe : s.burnSafe = true) (hp : s.mode.keepPatched = false)
  (hin : 32 * bits v.toNat 8 12 + 32 ≤ otpWords (bits v.toNat 4 2))
include hm hsafe hp hin

theorem burnBlock_runs (ha2 : bits v.toNat 4 2 < 2)
    (hblank : ∀ k, k < 32 → s.otp.normal (bits v.toNat 4 2) (32 * bits v.toNat 8 12 + k) s.free = 0) :
    Runs s (.burnBlock v) ⟨2, BitVec.ofNat 2 (bits v.toNat 4 2), bits v.toNat 8 12, 0, s.staged, 0⟩ := by
  refine .of_drawn (burn_judged hw hb ha (.inl rfl) (r := none) ?_)
  rw [if_pos rfl, decide_eq_true (Nat.le_of_lt_succ ha2)]
  exact State.burnRefusal_none hm hsafe hp hin fun _ => hblank

theorem burnBlock_full (ha2 : bits v.toNat 4 2 < 2)
    (hfull : ∃ k, k < 32 ∧ s.otp.normal (bits v.toNat 4 2) (32 * bits v.toNat 8 12 + k) s.free ≠ 0) : Refuses s (.burnBlock v) 3 := by
  refine .of_drawn (by decide) (burn_judged hw hb ha (.inl rfl) (r := some 3) ?_)
  rw [if_pos rfl, decide_eq_true (Nat.le_of_lt_succ ha2)]
  exact State.burnRefusal_blank hm hsafe hp hin hfull

theorem reburnWeak_runs (ha1 : bits v.toNat 4 2 ≠ 1) :
    Runs s (.reburnWeak v) ⟨4, BitVec.ofNat 2 (bits v.toNat 4 2), bits v.toNat 8 12, 0, s.staged, 0⟩ := by
  refine .of_drawn (burn_judged hw hb ha (.inr rfl) (r := none) ?_)
  rw [if_neg (by decide), decide_eq_true ha1]
  exact State.burnRefusal_none hm hsafe hp hin fun h => absurd h (by decide)

end Commands

/-- Settles O58. -/
theorem otpCommandsRun : Obligations.OtpCommandsRun := by
  unfold Obligations.OtpCommandsRun
  intro s result o
  refine ⟨fun hw v => ?_, fun hw => ⟨_, keyLoad_lands hw, rfl⟩, fun x cells => otpCommandDone_early, fun x => ⟨otpLeast_read o, otpLeast_scan o,
    otpLeast_burn o⟩, fun hc x cells hx h => ?_⟩
  · intro a m addr words runs refused
    refine ⟨fun hb => ?_, fun hb ha => ⟨fun hin hm => ?_, fun hout => ?_, fun hm => ?_, fun hm => ?_, burn_outside hw hb ha, fun hm hsafe hp hin =>
      ⟨burnBlock_runs hw hb ha hm hsafe hp hin, burnBlock_full hw hb ha hm hsafe hp hin, reburnWeak_runs hw hb ha hm hsafe hp hin⟩⟩⟩
    · have hkeep (op : Nat) : s.otpCmdOp v op = .next s := (otpCmdOp_writes v hw).trans (congrArg Host.Outcome.next (State.otpCmd_busy hb _))
      exact ⟨hkeep 1, hkeep 2, hkeep 3, hkeep 4⟩
    · have hexec := otpRead_judged hw hb ha
      rw [if_neg (not_or.2 ⟨Nat.not_le.2 hin, hm⟩)] at hexec
      exact Runs.of_start hexec
    · have hexec := otpRead_judged hw hb ha
      rw [if_pos (.inl hout)] at hexec
      obtain ⟨hotp, hres⟩ := s.otpRefuse_same 5 (by decide) false
      exact ⟨_, hexec, hotp, hres⟩
    · have hexec := marginScan_judged hw hb ha
      rw [if_neg hm] at hexec
      exact Runs.of_start hexec
    · have hexec := marginScan_judged hw hb ha
      rw [if_pos hm] at hexec
      exact Refuses.of_refuse (by decide) hexec
  · obtain ⟨t, hexec, hrun, hbusy⟩ := otpCommandDone_frees (cells := cells) hc hx h
    refine ⟨t, hexec, hrun, hbusy, fun h1 hm => ?_, fun h1 hm => ?_, fun h2 => ?_, fun h3 hcells => ?_⟩
    · obtain ⟨w, n, hread, hw, -⟩ := otpCommandDone_read (cells := cells) hc hx h h1
      obtain rfl := Host.Outcome.next.inj (hexec.symm.trans hread)
      exact ⟨(State.reg_put_far _ _ _ _ (by decide)).trans ((State.reg_setReg_same ..).trans (hw hm)), State.get_put_near _ _ _ (by decide)⟩
    · obtain ⟨w, n, hread, -, hw⟩ := otpCommandDone_read (cells := cells) hc hx h h1
      obtain rfl := Host.Outcome.next.inj (hexec.symm.trans hread)
      exact ⟨(State.reg_put_far _ _ _ _ (by decide)).trans ((State.reg_setReg_same ..).trans (hw hm)), State.get_put_near _ _ _ (by decide)⟩
    · obtain rfl := Host.Outcome.next.inj (hexec.symm.trans (otpCommandDone_burn (cells := cells) hc hx h h2))
      exact burned_tells ..
    · subst hcells
      obtain rfl := Host.Outcome.next.inj (hexec.symm.trans (otpCommandDone_scan (cells := []) hc hx h h3))
      obtain ⟨hotp, hres, hweak⟩ := scanned_tells s x.array.toNat
      exact ⟨hotp, hres, hweak⟩

end Sys2Proof.Machine
end

section
/-! PROOFS. The two-wire target: reads, requests, the reset and its timeouts (R470 to R475). -/

namespace Sys2Proof.Machine

/-! Reads -/

section Reads

variable {s : State} {p : Pec}

theorem State.twRead_good (ho : s.twOpen = true) (hp : p ≠ .bad) (f : State → State) : s.twRead p f = .next (f s) := by
  rw [twRead, ho, if_neg (by decide), if_neg hp]

/-- A word of four bytes each. -/
theorem flatMap_words_length (l : List W32) : (l.flatMap fun w => leBytes 4 w.toNat).length = 4 * l.length := by
  induction l with
  | nil => rfl
  | cons w l ih =>
    rw [List.flatMap_cons, List.length_append, ih, List.length_cons, Nat.mul_succ, Nat.add_comm]
    rfl

/-- The words of STATUS with their bytes (Table 17.6). -/
def State.twStatusBytes (s : State) : List Byte :=
  (twStatusRegs.zipIdx.map fun p => s.twStatusWord p.2 p.1).flatMap fun w => leBytes 4 w.toNat

theorem State.twStatusBytes_length : s.twStatusBytes.length = 32 := by
  rw [twStatusBytes, flatMap_words_length, List.length_map]
  rfl

theorem twStatus_answers (ho : s.twOpen = true) (hp : p ≠ .bad) : exec (.twStatus p) s = .next (s.send (.twReply 0 (s.twStatusBytes ++
    [if s.domeLive then 1 else 0, BitVec.ofNat 8 (min 255 ((s.tick.wall - s.tw.refreshed) / 200000))]))) := by
  rw [exec_twStatus, execTwStatus, State.twRead_good ho hp]
  rfl

theorem twLastResult_answers (ho : s.twOpen = true) (hp : p ≠ .bad) : exec (.twLastResult p) s = .next (s.send (.twReply 0 [s.tw.lastResult])) := by
  rw [exec_twLastResult, execTwLastResult, State.twRead_good ho hp]
  rfl

theorem twRegRead_unlisted (ho : s.twOpen = true) (hp : p ≠ .bad) {off : BitVec 16} (h : off.toNat % 4 ≠ 0 ∨ twReach off.toNat = none) :
    exec (.twRegRead off p) s = .next (s.send (.twReply 2 [])) := by
  rw [exec_twRegRead, execTwRegRead, State.twRead_good ho hp]
  refine congrArg Host.Outcome.next ?_
  dsimp only
  by_cases hal : off.toNat % 4 = 0
  · rw [if_neg (fun hn => hn hal), h.resolve_left fun hn => hn hal]
    rfl
  · exact if_pos hal

theorem twRegRead_down (ho : s.twOpen = true) (hp : p ≠ .bad) {off : BitVec 16} (hal : off.toNat % 4 = 0) (hr : twReach off.toNat = some false)
    (hd : s.domeLive = false) : exec (.twRegRead off p) s = .next (s.send (.twReply 3 [])) := by
  rw [exec_twRegRead, execTwRegRead, State.twRead_good ho hp]
  refine congrArg Host.Outcome.next ?_
  dsimp only
  rw [if_neg (fun hn => hn hal), hr]
  exact if_neg (by rw [hd]; decide)

theorem twRegRead_turret (ho : s.twOpen = true) (hp : p ≠ .bad) {off : BitVec 16} (hal : off.toNat % 4 = 0) (hr : twReach off.toNat = some true) :
    exec (.twRegRead off p) s =
      .next ((s.read32 .twoWire off.toNat).2.send (.twReply 0 (leBytes 4 (s.read32 .twoWire off.toNat).1.toNat))) := by
  rw [exec_twRegRead, execTwRegRead, State.twRead_good ho hp]
  refine congrArg Host.Outcome.next ?_
  dsimp only
  rw [if_neg (fun hn => hn hal), hr]
  exact if_pos rfl

theorem twSiltRead_none (ho : s.twOpen = true) (hp : p ≠ .bad) {seq : W32} (h : s.silt.find seq = none) :
    exec (.twSiltRead seq p) s = .next (s.send (.twReply 4 [])) := by
  rw [exec_twSiltRead, execTwSiltRead, State.twRead_good ho hp, h]
  rfl

theorem twSiltRead_some (ho : s.twOpen = true) (hp : p ≠ .bad) {seq : W32} {b : List Byte} (h : s.silt.find seq = some b) :
    exec (.twSiltRead seq p) s = .next (s.send (.twReply 0 b)) := by
  rw [exec_twSiltRead, execTwSiltRead, State.twRead_good ho hp, h]
  rfl

end Reads

/-! Results -/

section Results

variable {s t u : State}

/-- A command that ended: its result, its answer, the mirror as it was, and its event. -/
structure TwEnds (s t : State) (st : Byte) (code : BitVec 16) (data : W32) : Prop where
  last : t.tw.lastResult = st
  sent : t.hp.sent = s.hp.sent ++ [.twReply st []]
  mirror : t.tw.mirror = s.tw.mirror
  stored : s.Room → Stored s t code 0 data

variable {st : Byte} {code : BitVec 16} {data : W32}

/-- What follows the result touches neither the target nor the host port. -/
theorem TwEnds.of_same (h : TwEnds s t st code data) (htw : u.tw = t.tw) (hhp : u.hp = t.hp) : TwEnds s u st code data := by
  refine ⟨htw ▸ h.last, hhp ▸ h.sent, htw ▸ h.mirror, fun hroom => ?_⟩
  rw [Stored, hhp]
  exact h.stored hroom

/-- A result noted and answered. -/
def State.twNoted (s : State) (st : Byte) : State := { s with tw := { s.tw with lastResult := st } }.send (.twReply st [])

theorem State.twNoted_grows (s : State) (st : Byte) : Grows s (s.twNoted st) 0 := .of_same rfl rfl rfl

/-- A result told by an event. -/
theorem twEnds_raise (hg : Grows s t 0) (htw : t.tw = { s.tw with lastResult := st }) (hsent : t.hp.sent = s.hp.sent ++ [.twReply st []])
    (hmode : t.mode = s.mode) (code : BitVec 16) (data : W32) :
    TwEnds s (t.raise code 0 data) st code data ∧ (t.raise code 0 data).mode = s.mode := by
  have htw' : (t.raise code 0 data).tw = { s.tw with lastResult := st } := (State.raise_tw ..).trans htw
  refine ⟨⟨?_, (State.raise_hp_sent ..).trans hsent, ?_, fun hroom => hg.stored hroom (by decide) _ _ _ {}⟩,
    (State.raise_mode _ (by decide) ..).trans hmode⟩
  · rw [htw']
  · rw [htw']

theorem State.twResult_done (s : State) (request : Nat) :
    TwEnds s (s.twResult request 0) 0 0x0E02 (BitVec.ofNat 32 request) ∧ (s.twResult request 0).mode = s.mode :=
  twEnds_raise (s.twNoted_grows 0) rfl rfl rfl ..

theorem State.twResult_refused (s : State) (request : Nat) {st : Byte} (h : st ≠ 0) :
    TwEnds s (s.twResult request st) st 0x0E03 (BitVec.ofNat 32 (request + st.toNat * 256)) ∧ (s.twResult request st).mode = s.mode := by
  have heq : s.twResult request st = (if st = 5 || st = 7 then (s.twNoted st).count R.TW_CNT_REFUSED else s.twNoted st).raise 0x0E03 0
      (BitVec.ofNat 32 (request + st.toNat * 256)) := if_neg h
  rw [heq]
  split
  · exact twEnds_raise ((s.twNoted_grows st).count (by decide) 1) rfl rfl rfl ..
  · exact twEnds_raise (s.twNoted_grows st) rfl rfl rfl ..

/-- A wrong PEC (R472). -/
theorem State.twBadPec_ends (s : State) : TwEnds s s.twBadPec 6 0x0E00 0 ∧ s.twBadPec.mode = s.mode ∧
    s.twBadPec.get R.TW_CNT_PEC_FAIL = min 255 (s.get R.TW_CNT_PEC_FAIL + 1) := by
  obtain ⟨hends, hmode⟩ := twEnds_raise (s := s) (t := (s.twNoted 6).count R.TW_CNT_PEC_FAIL) ((s.twNoted_grows 6).count (by decide) 1) rfl rfl
    rfl 0x0E00 0
  refine ⟨hends, hmode, (State.raise_get_far _ _ _ _ _ (by decide)).trans ?_⟩
  rw [State.get_count_same _ _ _ (by decide), Nat.min_comm]
  rfl

end Results

/-! Writes judged by their PEC -/

section Writes

variable {s : State}

theorem State.twWrite_good (ho : s.twOpen = true) (f : State → State) : s.twWrite .good f = .next (f s) := by
  rw [twWrite, ho, if_neg (by decide)]

theorem State.twWrite_bad (ho : s.twOpen = true) (f : State → State) : s.twWrite .bad f = .next s.twBadPec := by
  rw [twWrite, ho, if_neg (by decide)]

theorem State.twWrite_absent (ho : s.twOpen = true) (hreq : s.flag R.TW_CFG_PEC_REQ = true) (f : State → State) :
    s.twWrite .absent f = .next (s.twNoted 6) := by
  rw [twWrite, ho, if_neg (by decide)]
  exact if_pos hreq

theorem State.twRead_bad (ho : s.twOpen = true) (f : State → State) : s.twRead .bad f = .next s.twBadPec := by
  rw [twRead, ho, if_neg (by decide), if_pos rfl]

/-- The write transfers are judged by their PEC (Table 17.7). -/
theorem twWrites_exec {confirm : Byte} {i : Pec → Instr} (hi : i ∈ ([.twRequestStandby, .twRequestShip, .twRequestStandbyExit, .twReset confirm] : List (Pec → Instr))) :
    ∃ f, ∀ p, exec (i p) s = s.twWrite p f := by
  simp only [List.mem_cons, List.not_mem_nil, or_false] at hi
  rcases hi with rfl | rfl | rfl | rfl
  · exact ⟨_, fun p => (exec_twRequestStandby p s).trans (by rw [execTwRequestStandby])⟩
  · exact ⟨_, fun p => (exec_twRequestShip p s).trans (by rw [execTwRequestShip])⟩
  · exact ⟨_, fun p => (exec_twRequestStandbyExit p s).trans (by rw [execTwRequestStandbyExit])⟩
  · exact ⟨_, fun p => (exec_twReset confirm p s).trans (by rw [execTwReset])⟩

/-- The read transfers too (Table 17.6). -/
theorem twReads_exec {off : BitVec 16} {seq : W32} {i : Pec → Instr}
    (hi : i ∈ ([.twStatus, .twLastResult, .twRegRead off, .twSiltRead seq] : List (Pec → Instr))) : ∃ f, ∀ p, exec (i p) s = s.twRead p f := by
  simp only [List.mem_cons, List.not_mem_nil, or_false] at hi
  rcases hi with rfl | rfl | rfl | rfl
  · exact ⟨_, fun p => (exec_twStatus p s).trans (by rw [execTwStatus])⟩
  · exact ⟨_, fun p => (exec_twLastResult p s).trans (by rw [execTwLastResult])⟩
  · exact ⟨_, fun p => (exec_twRegRead off p s).trans (by rw [execTwRegRead])⟩
  · exact ⟨_, fun p => (exec_twSiltRead seq p s).trans (by rw [execTwSiltRead])⟩

theorem badPec_all (ho : s.twOpen = true) {off : BitVec 16} {seq : W32} {confirm : Byte} {i : Pec → Instr}
    (hi : i ∈ ([.twRequestStandby, .twRequestShip, .twRequestStandbyExit, .twReset confirm, .twStatus, .twLastResult, .twRegRead off,
      .twSiltRead seq] : List (Pec → Instr))) : exec (i .bad) s = .next s.twBadPec := by
  rcases List.mem_append.1 (show i ∈ ([.twRequestStandby, .twRequestShip, .twRequestStandbyExit, .twReset confirm] : List (Pec → Instr)) ++
    [.twStatus, .twLastResult, .twRegRead off, .twSiltRead seq] from hi) with h | h
  · obtain ⟨f, hf⟩ := twWrites_exec (s := s) h
    exact (hf .bad).trans (State.twWrite_bad ho f)
  · obtain ⟨f, hf⟩ := twReads_exec (s := s) h
    exact (hf .bad).trans (State.twRead_bad ho f)

end Writes

/-! Requests -/

section Requests

variable {s t : State} {m : Move}

theorem State.moveBegin_tw (hreq : m.req = none) : (s.moveBegin m).tw = s.tw := by
  have hdone (t : State) (x : Byte) (y : W64) : t.moveDone m x y = t := by rw [moveDone, hreq]
  obtain ⟨u, hu⟩ : ∃ u : State, u = { s with seqr := { s.seqr with stopDone := false } }.modMode fun x =>
    { x with move := some m, moveFresh := true } := ⟨_, rfl⟩
  have htw : u.tw = s.tw := hu ▸ rfl
  have hhop (v : State) : v.hopBegin.tw = v.tw := by
    obtain ⟨b, hb⟩ := v.hopBegin_eq
    rw [hb]
    rfl
  unfold moveBegin
  dsimp only
  rw [← hu, hdone, hhop]
  split
  · exact htw
  · exact htw

/-- A request taken begins its move after its result. -/
theorem twRequest_moves (hmove : s.mode.move = none) (hreq : m.req = none) (n : Nat) :
    TwEnds s ((s.twResult n 0).moveTrigger m) 0 0x0E02 (BitVec.ofNat 32 n) ∧ ((s.twResult n 0).moveTrigger m).mode.move = some m := by
  obtain ⟨hends, hmode⟩ := s.twResult_done n
  have hb := (s.twResult n 0).moveBegin_begins hreq
  rw [State.moveTrigger_none (by rw [hmode]; exact hmove)]
  exact ⟨hends.of_same (State.moveBegin_tw hreq) hb.hp, hb.move⟩

variable (ho : s.twOpen = true)
include ho

theorem twRequest_good (hf : s.mode.fault = false) (n : Nat) (ok : State → Bool) (f : State → State) :
    s.twWrite .good (fun s => s.twRequest n (ok s) f) = .next (if ok s then f (s.twResult n 0) else s.twResult n 5) := by
  rw [State.twWrite_good ho, State.twRequest, hf, if_neg Bool.false_ne_true]

theorem twRequestStandby_good (hf : s.mode.fault = false) (hmove : s.mode.move = none) : exec (.twRequestStandby .good) s =
    .next (if s.mode.mode = .ready then (s.twResult 1 0).moveTrigger { hops := [.standby], cause := .twoWire } else s.twResult 1 5) := by
  have hmay : s.mayMove { hops := [.standby], cause := .twoWire } = true := by rw [State.mayMove, hmove]
  rw [exec_twRequestStandby, execTwRequestStandby, twRequest_good ho hf 1 (fun s => s.mode.mode = .ready && s.mayMove { hops := [.standby], cause := .twoWire }), hmay]
  simp only [Bool.and_true, decide_eq_true_eq]

theorem twRequestShip_good (hf : s.mode.fault = false) : exec (.twRequestShip .good) s =
    .next (if s.mode.mode = .standby && !s.mode.starting && !s.tfPresent && s.mode.move.isNone then
      (s.twResult 2 0).moveTrigger { hops := [.ship], cause := .twoWire } else s.twResult 2 5) :=
  twRequest_good ho hf 2 (fun s => s.mode.mode = .standby && !s.mode.starting && !s.tfPresent && s.mode.move.isNone) _

theorem twRequestStandbyExit_good (hf : s.mode.fault = false) : exec (.twRequestStandbyExit .good) s =
    .next (if s.mode.mode = .standby && !s.mode.starting && s.mode.move.isNone then (s.twResult 3 0).warmStart else s.twResult 3 5) :=
  twRequest_good ho hf 3 (fun s => s.mode.mode = .standby && !s.mode.starting && s.mode.move.isNone) _

/-- A warm start begins with the result of the request. -/
theorem standbyExit_starts (hf : s.mode.fault = false) (hmove : s.mode.move = none) (hmode : s.mode.mode = .standby)
    (hst : s.mode.starting = false) (hk : s.mode.keep ≠ .halted) (href : s.mode.refLost = false) : ∃ t, exec (.twRequestStandbyExit .good) s = .next t ∧
      TwEnds s t 0 0x0E02 3 ∧ t.mode.starting = true ∧ t.mode.bootStep = 7 := by
  obtain ⟨hends, hsame⟩ := s.twResult_done 3
  have hexec := twRequestStandbyExit_good ho hf
  rw [hmode, hst, hmove, if_pos (by decide), State.warmStart_go (by rw [hsame]; exact hmode) (by rw [hsame]; exact hst)
    (by rw [hsame]; exact hf) (by rw [hsame]; exact hmove) (by rw [hsame]; exact hk) (by rw [hsame]; exact href)] at hexec
  exact ⟨_, hexec, hends.of_same rfl rfl, rfl, rfl⟩

theorem twReset_good (confirm : Byte) : exec (.twReset confirm .good) s = .next (if confirm ≠ 0x5A then s.twResult 0x30 2
    else if s.mode.fault then (s.twResult 0x30 0).resetBy .fault else s.twResult 0x30 5) := by
  rw [exec_twReset, execTwReset, State.twWrite_good ho]

end Requests

/-! Timeouts -/

section Timeouts

variable {s : State} (ho : s.twOpen = true)
include ho

theorem twStretchTimeout_answers : exec .twStretchTimeout s = .next ((s.send (.twReply 8 [])).count R.TW_CNT_BUSY) := if_pos ho

theorem twBusTimeout_counts (h : s.flag R.TW_CFG_TIMEOUT_EN = true) : exec .twBusTimeout s = .next ((s.count R.TW_CNT_TIMEOUTS).raise 0x0E01 0) :=
  if_pos (by rw [ho, h]; rfl)

end Timeouts

/-- A command with its result, as the statement of O59 says it. -/
theorem TwEnds.says {s t : State} {i : Instr} {st : Byte} {code : BitVec 16} {data : W32} (h : TwEnds s t st code data)
    (hexec : exec i s = .next t) : exec i s = .next t ∧ t.tw.lastResult = st ∧ t.hp.sent = s.hp.sent ++ [.twReply st []] ∧
      t.tw.mirror = s.tw.mirror ∧ (s.Room → Stored s t code 0 data) :=
  ⟨hexec, h.last, h.sent, h.mirror, h.stored⟩

/-- Settles O59. -/
theorem theTwoWireTargetAnswers : Obligations.TheTwoWireTargetAnswers := by
  unfold Obligations.TheTwoWireTargetAnswers
  intro s ho tells ends
  refine ⟨fun p hp => ⟨?_, twLastResult_answers ho hp, fun off => ⟨twRegRead_unlisted ho hp, twRegRead_down ho hp, twRegRead_turret ho hp⟩,
      fun seq => ⟨twSiltRead_none ho hp, fun b => twSiltRead_some ho hp⟩⟩, fun off seq confirm i hi => ?_, fun confirm hreq i hi => ?_,
    fun hf hmove => ⟨fun hm => ?_, fun hm => ?_, fun hm hst => ⟨fun htf => ?_, fun hk href => ?_⟩, fun hm => ⟨?_, ?_⟩⟩,
    fun confirm => ⟨fun h => ?_, fun h hf => ?_, fun h hf h0 h1 => ?_⟩, ⟨_, twStretchTimeout_answers ho, rfl, rfl, ?_⟩, fun h => ?_⟩
  · have hlen := s.twStatusBytes_length
    refine ⟨_, twStatus_answers ho hp, ?_, ?_, ?_⟩
    · rw [List.length_append, hlen]
      rfl
    · rw [List.getElem?_append_right (by omega), hlen]
      rfl
    · rw [List.getElem?_append_right (by omega), hlen]
      rfl
  · obtain ⟨hends, hmode, hcount⟩ := s.twBadPec_ends
    exact ⟨_, hends.says (badPec_all ho hi), hmode, hcount⟩
  · obtain ⟨f, hf⟩ := twWrites_exec (s := s) hi
    exact (hf .absent).trans (State.twWrite_absent ho hreq f)
  · obtain ⟨hends, hm'⟩ := twRequest_moves hmove (m := { hops := [.standby], cause := .twoWire }) rfl 1
    exact ⟨_, _, hends.says ((twRequestStandby_good ho hf hmove).trans (congrArg _ (if_pos hm))), hm', rfl, rfl⟩
  · obtain ⟨hends, hmode⟩ := s.twResult_refused 1 (st := 5) (by decide)
    exact ⟨_, hends.says ((twRequestStandby_good ho hf hmove).trans (congrArg _ (if_neg hm))), hmode⟩
  · obtain ⟨hends, hm'⟩ := twRequest_moves hmove (m := { hops := [.ship], cause := .twoWire }) rfl 2
    exact ⟨_, _, hends.says ((twRequestShip_good ho hf).trans (congrArg _ (if_pos (by rw [hm, hst, htf, hmove]; rfl)))), hm', rfl⟩
  · obtain ⟨t, hexec, hends, hstart, hstep⟩ := standbyExit_starts ho hf hmove hm hst hk href
    exact ⟨t, hends.says hexec, hstart, hstep⟩
  · obtain ⟨hends, hmode⟩ := s.twResult_refused 2 (st := 5) (by decide)
    exact ⟨_, hends.says ((twRequestShip_good ho hf).trans (congrArg _ (if_neg (by rw [decide_eq_false hm]; exact Bool.false_ne_true)))), hmode⟩
  · obtain ⟨hends, hmode⟩ := s.twResult_refused 3 (st := 5) (by decide)
    exact ⟨_, hends.says ((twRequestStandbyExit_good ho hf).trans (congrArg _ (if_neg (by rw [decide_eq_false hm]; exact Bool.false_ne_true)))), hmode⟩
  · obtain ⟨hends, hmode⟩ := s.twResult_refused 0x30 (st := 2) (by decide)
    exact ⟨_, hends.says ((twReset_good ho confirm).trans (congrArg _ (if_pos h))), hmode⟩
  · obtain ⟨hends, hmode⟩ := s.twResult_refused 0x30 (st := 5) (by decide)
    exact ⟨_, hends.says ((twReset_good ho confirm).trans (congrArg _ ((if_neg (fun hn => hn h)).trans (if_neg (by rw [hf]; decide))))), hmode⟩
  · have hdie (d : DieIx) : ((s.twResult 0x30 0).die[d]).shutAt = (s.die[d]).shutAt := by
      rw [show (s.twResult 0x30 0).die = s.die from State.raise_die (s.twNoted 0) 0x0E02 0 (BitVec.ofNat 32 0x30)]
    have hres := (s.twResult 0x30 0).resetBy_resumed .fault ((hdie 0).trans h0) ((hdie 1).trans h1)
    obtain ⟨-, hfault, -⟩ := hres.locks
    obtain ⟨-, hstep, -⟩ := hres.start
    exact ⟨_, (twReset_good ho confirm).trans (congrArg _ ((if_neg (fun hn => hn h)).trans (if_pos hf))), hfault, hstep, hres.now⟩
  · rw [State.get_count_same _ _ _ (by decide), Nat.min_comm]
    rfl
  · refine ⟨_, twBusTimeout_counts ho h, State.raise_tw .., (State.raise_get_far _ _ _ _ _ (by decide)).trans ?_, fun hroom =>
      ((Grows.refl s).count (f := R.TW_CNT_TIMEOUTS) (by decide) 1).stored hroom (by decide) _ _ _ {}⟩
    rw [State.get_count_same _ _ _ (by decide), Nat.min_comm]
    rfl

end Sys2Proof.Machine
end

section
/-! PROOFS. Step 0x06 of a start: a Config whose last setting pair names `SNAP_CFG` (R452, R453). -/

namespace Sys2Proof.Machine

/-! A Config with one setting pair -/

section Config

/-- Words 0 to 30 of a Config block 2 whose last pair, 44, writes 0 to `SNAP_CFG`. -/
def snapPairWords : List W32 := List.replicate 28 0 ++ [0x1004, 0, 0]

/-- The burned words of a Config that is blank but for that block. -/
def snapPairArray (crc : W32) : WordMem := [(92, 0x1004), (95, crc)]

/-- A start at step 0x06 with that Config, and a reserved bit of `SNAP_CFG` set. -/
def snapPairState : State :=
  { State.reset with
    regs := [(R.SNAP_CFG, 2)]
    mode := { State.reset.mode with starting := true, bootStep := 6, keep := .run, fault := false, frozen := false }
    otp := { State.reset.otp with config := snapPairArray (blockCrc snapPairWords), weakC := [] } }

/-- With no weak bit every margin reads the burned word (R460). -/
theorem Otp.normal_of_sound {o : Otp} (h : o.weakC = []) (w n : Nat) : o.normal 0 w n = wordAt o.config w := by
  have hweak : wordAt (o.weak 0) w = 0 := by
    show wordAt o.weakC w = 0
    rw [h]
    rfl
  have harr : o.arr 0 = o.config := rfl
  rw [normal, strict, hweak, harr]
  simp only [BitVec.ofNat_eq_ofNat, BitVec.and_zero, BitVec.zero_and, BitVec.or_zero]
  exact BitVec.and_allOnes

/-- A block of the words of Config. -/
theorem block_of_words (f : Nat → W32) {b : Nat} (hb : b < 4) :
    (((List.range 128).map f).drop (32 * b)).take 32 = (List.range 32).map fun k => f (32 * b + k) := by
  refine List.ext_getElem ?_ fun k hk hk' => ?_
  · simp only [List.length_take, List.length_drop, List.length_map, List.length_range]
    omega
  · simp only [List.getElem_take, List.getElem_drop, List.getElem_map, List.getElem_range]

theorem word_of_words (f : Nat → W32) {k : Nat} (hk : k < 128) : ((List.range 128).map f).getD k 0 = f k := by
  rw [List.getD_eq_getElem _ _ (by rw [List.length_map, List.length_range]; exact hk), List.getElem_map, List.getElem_range]

theorem snapPair_words : (snapPairState.otpNormal 0 0 128).1 = (List.range 128).map (wordAt (snapPairArray (blockCrc snapPairWords))) := by
  refine List.map_congr_left fun k _ => ?_
  rw [Nat.zero_add]
  exact Otp.normal_of_sound rfl ..

theorem snapPair_blank (crc : W32) (k : Nat) (h : k ≠ 92) (h' : k ≠ 95) : wordAt (snapPairArray crc) k = 0 := by
  rw [wordAt, snapPairArray, wordLookup, if_neg (Ne.symm h), wordLookup, if_neg (Ne.symm h')]
  rfl

theorem snapPair_block (crc : W32) : (List.range 32).map (fun k => wordAt (snapPairArray crc) (32 * 2 + k)) = snapPairWords ++ [crc] := rfl

/-- A block closed by its CRC passes (R452). -/
theorem crcOk_closed {l : List W32} (h : l.length = 31) : crcOk (l ++ [blockCrc l]) = true := by
  have htake : (l ++ [blockCrc l]).take 31 = l := by
    rw [← h]
    exact List.take_left
  have hlast : (l ++ [blockCrc l]).getD 31 0 = blockCrc l := by
    rw [List.getD_append_right _ _ _ _ (by omega), h]
    rfl
  have hcrc : blockCrc (l ++ [blockCrc l]) = blockCrc l := by
    rw [blockCrc, htake, blockCrc, ← h, List.take_length]
  rw [crcOk, hlast, hcrc]
  exact beq_self_eq_true _

theorem snapPair_passes {b : Nat} (hb : b < 4) : blockPasses (((snapPairState.otpNormal 0 0 128).1.drop (32 * b)).take 32) = true := by
  rw [snapPair_words, block_of_words _ hb, blockPasses]
  by_cases h2 : b = 2
  · subst h2
    rw [snapPair_block]
    rw [crcOk_closed rfl, Bool.or_true]
  · have hall : ((List.range 32).map fun k => wordAt (snapPairArray (blockCrc snapPairWords)) (32 * b + k)).all (· == 0) = true := by
      rw [List.all_map, List.all_eq_true]
      intro k hk
      have hlt := List.mem_range.1 hk
      exact beq_iff_eq.2 (snapPair_blank _ _ (by omega) (by omega))
    rw [hall, Bool.true_or]

end Config

/-! The step's result -/

section Step

/-- Pair 44 of that Config writes 0 to `SNAP_CFG`; no other pair is set. -/
theorem snapPair_only (crc : W32) {n : Nat} (h : n < 45) (h44 : n ≠ 44) : wordAt (snapPairArray crc) (pairPlace n) = 0 := by
  refine snapPair_blank crc _ ?_ ?_
  all_goals
    unfold pairPlace
    split <;> omega

theorem pairPlace_lt {n : Nat} (h : n < 45) : pairPlace n + 1 < 128 := by
  unfold pairPlace
  split <;> omega

/-- A write of `SNAP_CFG` sets its one bit and keeps the rest. -/
theorem settingPair_snapCfg (s : State) (n : Nat) : (s.settingPair n 0x1004 0).reg R.SNAP_CFG = s.reg R.SNAP_CFG &&& ~~~1 := by
  have heq : s.settingPair n 0x1004 0 = s.regWrite R.SNAP_CFG 0 := by
    rw [State.settingPair]
    exact (if_pos (by decide)).trans (if_neg (by decide))
  have hplain : s.regWrite R.SNAP_CFG 0 = s.plainWrite R.SNAP_CFG 0 := rfl
  have hrow : regRow R.SNAP_CFG = some ⟨0x1004, 0x4, 1, 1, 0, 0, 0, 0, 1⟩ := by decide
  rw [heq, hplain, State.plainWrite_rw hrow rfl rfl, State.reg_setReg_same]
  simp only [BitVec.ofNat_eq_ofNat, BitVec.zero_and, BitVec.zero_or]

/-- The state in which the pairs of that Config are taken. -/
def State.configRead (s : State) (mask : Nat) (pass : Bool) (id : W32) : State :=
  (((((s.otpNormal 0 0 128).2.put R.OTP_INTEG_CFG_PASS mask).putFlag R.OTP_INTEG_CFG_UNREAD false).modOtp fun o => { o with keyHashOk := pass }).modMode
    fun m => { m with patchPend := true }).setReg R.OTP_CFG_ID id

theorem State.configRead_reg (s : State) (mask : Nat) (pass : Bool) (id : W32) : (s.configRead mask pass id).reg R.SNAP_CFG = s.reg R.SNAP_CFG := by
  rw [configRead, State.reg_setReg_far _ _ _ _ (by decide), State.modMode_reg, State.modOtp_reg, State.reg_putFlag_far _ _ _ _ (by decide),
    State.reg_put_far _ _ _ _ (by decide)]
  rfl

/-- The pairs of a Config, taken in their order. -/
def State.takePairs (s : State) (ws : List W32) : State :=
  forAll (List.range 45) (fun n t =>
    if ws.getD (pairPlace n) 0 = 0 then t else t.settingPair n (ws.getD (pairPlace n) 0) (ws.getD (pairPlace n + 1) 0)) s

/-- The only pair that is set is taken. -/
theorem State.takePairs_last {ws : List W32} (h : ∀ n, n < 45 → n ≠ 44 → ws.getD (pairPlace n) 0 = 0) (h92 : ws.getD 92 0 ≠ 0) (s : State) :
    s.takePairs ws = s.settingPair 44 (ws.getD 92 0) (ws.getD 93 0) := by
  have hsplit : List.range 45 = List.range 44 ++ [44] := rfl
  rw [takePairs, forAll, hsplit, List.foldl_append]
  have hfirst : forAll (List.range 44) (fun n t =>
      if ws.getD (pairPlace n) 0 = 0 then t else t.settingPair n (ws.getD (pairPlace n) 0) (ws.getD (pairPlace n + 1) 0)) s = s :=
    forAll_eq_self fun n hn => if_pos (h n (by have := List.mem_range.1 hn; omega) (by have := List.mem_range.1 hn; omega))
  rw [forAll] at hfirst
  rw [hfirst]
  exact if_neg h92

theorem snapPair_word {k : Nat} (hk : k < 128) :
    (snapPairState.otpNormal 0 0 128).1.getD k 0 = wordAt (snapPairArray (blockCrc snapPairWords)) k := by
  rw [snapPair_words, word_of_words _ hk]

theorem otpConfigRead_passes {s : State} (hstep : (s.atStep 6 && s.keepRuns) = true)
    (hpass : ∀ b, b < 4 → blockPasses (((s.otpNormal 0 0 128).1.drop (32 * b)).take 32) = true) : exec (.bootOtpConfigRead false) s =
    .next (((s.configRead 15 true ((s.otpNormal 0 0 128).1.getD 0 0)).takePairs (s.otpNormal 0 0 128).1).toStep 7) := by
  have h0 := hpass 0 (by decide)
  have h1 := hpass 1 (by decide)
  have h2 := hpass 2 (by decide)
  have h3 := hpass 3 (by decide)
  rw [exec_bootOtpConfigRead, execBootOtpConfigRead, if_pos hstep]
  dsimp only
  simp only [h0, h1, h2, h3]
  rfl

end Step

/-- Refutes O22: a setting pair is a write of `SNAP_CFG`, which keeps the bits of the word that no field names; a state in which one of
them is set does not read the pair's value. -/
theorem not_startStepsRunInOrder : ¬ Obligations.StartStepsRunInOrder := by
  unfold Obligations.StartStepsRunInOrder
  intro h
  obtain ⟨-, -, -, -, -, hkeep⟩ := h snapPairState rfl rfl
  obtain ⟨h6, -⟩ := hkeep rfl
  obtain ⟨t, hexec, -, -, -, -, -, hall, -⟩ := h6 rfl false
  have h92 : (snapPairState.otpNormal 0 0 128).1.getD 92 0 = 0x1004 := snapPair_word (by decide)
  have h93 : (snapPairState.otpNormal 0 0 128).1.getD 93 0 = 0 := snapPair_word (by decide)
  obtain ⟨-, -, hsnap⟩ := hall fun b hb => ⟨rfl, snapPair_passes hb⟩
  have hread := hsnap h92 (by rw [h93]; rfl)
  have hblank (n : Nat) (hn : n < 45) (h44 : n ≠ 44) : (snapPairState.otpNormal 0 0 128).1.getD (pairPlace n) 0 = 0 :=
    (snapPair_word (Nat.lt_of_succ_lt (pairPlace_lt hn))).trans (snapPair_only _ hn h44)
  have hruns := otpConfigRead_passes (s := snapPairState) rfl fun b => snapPair_passes
  rw [State.takePairs_last hblank (by rw [h92]; decide), h92, h93] at hruns
  obtain rfl := Host.Outcome.next.inj (hexec.symm.trans hruns)
  have hkept := (settingPair_snapCfg (snapPairState.configRead 15 true ((snapPairState.otpNormal 0 0 128).1.getD 0 0)) 44).trans
    (congrArg (· &&& ~~~1) (State.configRead_reg ..))
  have hold : snapPairState.reg R.SNAP_CFG = 2 := rfl
  rw [hold] at hkept
  exact absurd (hkept.symm.trans (hread.trans h93)) (by decide)

end Sys2Proof.Machine
end

section
/-! PROOFS. The canonical form of the register file and of the data RAMs, and a command that answers with a state which keeps it (O13, O60):
the state's parts and the ways in which operations are put together. -/

set_option Elab.async false

namespace Sys2Proof.Machine

section Parts

variable {s t u : State}

/-- The canonical form is that of the register file and the engines alone. -/
theorem State.Canonical.same (h : s.Canonical) (hr : t.regs = s.regs := by rfl) (he : t.eng = s.eng := by rfl) : t.Canonical := by
  unfold State.Canonical
  rw [hr, he]
  exact h

theorem State.Canonical.dram (h : s.Canonical) (e : Eng) : memWf s.eng[e].dram = true := h.2 e

theorem State.Canonical.filterRegs (h : s.Canonical) {p : Nat × W32 → Bool} : ({ s with regs := s.regs.filter p } : State).Canonical :=
  ⟨wordsWf_filter regReset s.regs p h.1, h.2⟩

theorem State.Canonical.setReg (h : s.Canonical) {a v} : (s.setReg a v).Canonical := ⟨wordPut_wf regReset s.regs a v h.1, h.2⟩

/-! The parts besides those two. -/

theorem State.Canonical.setTick (h : s.Canonical) {x} : ({ s with tick := x } : State).Canonical := ⟨h.1, h.2⟩

theorem State.Canonical.setSeqr (h : s.Canonical) {x} : ({ s with seqr := x } : State).Canonical := ⟨h.1, h.2⟩

theorem State.Canonical.setHk (h : s.Canonical) {x} : ({ s with hk := x } : State).Canonical := ⟨h.1, h.2⟩

theorem State.Canonical.setDie (h : s.Canonical) {x} : ({ s with die := x } : State).Canonical := ⟨h.1, h.2⟩

theorem State.Canonical.setFrz (h : s.Canonical) {x} : ({ s with frz := x } : State).Canonical := ⟨h.1, h.2⟩

theorem State.Canonical.setDbg (h : s.Canonical) {x} : ({ s with dbg := x } : State).Canonical := ⟨h.1, h.2⟩

theorem State.Canonical.setFree (h : s.Canonical) {x} : ({ s with free := x } : State).Canonical := ⟨h.1, h.2⟩

/-- An engine changed keeps the form where its data RAM keeps it. -/
theorem State.Canonical.modRam (h : s.Canonical) {e : Eng} {f : Engine → Engine} (hf : memWf (f s.eng[e]).dram = true) :
    (s.modEng e f).Canonical := by
  refine ⟨h.1, fun k => ?_⟩
  by_cases hk : k = e
  · subst hk
    have heng : (s.modEng k f).eng[k] = f s.eng[k] := upd_same s.eng k f
    rw [heng]
    exact hf
  · rw [State.modEng_eng_other s e k f hk]
    exact h.2 k

theorem State.Canonical.modEng (h : s.Canonical) {e : Eng} {f : Engine → Engine} (hf : ∀ x, (f x).dram = x.dram := by intro; rfl) :
    (s.modEng e f).Canonical := h.modRam (by rw [hf]; exact h.2 e)

/-- A state that is used more than once. -/
theorem State.Canonical.then (h : s.Canonical) (f : s.Canonical → t.Canonical) : t.Canonical := f h

theorem State.Canonical.ite {p : Prop} [Decidable p] (ht : t.Canonical) (hu : u.Canonical) : (if p then t else u).Canonical := by
  split
  · exact ht
  · exact hu

theorem State.Canonical.foldl {α : Type} {f : State → α → State} {l : List α} (h : s.Canonical)
    (hf : ∀ (t : State) (a : α), t.Canonical → (f t a).Canonical) : (l.foldl f s).Canonical := by
  induction l generalizing s with
  | nil => exact h
  | cons a _ ih => exact ih (hf s a h)

theorem State.Canonical.forAll {α : Type} {f : α → State → State} {l : List α} (h : s.Canonical)
    (hf : ∀ (a : α) (t : State), t.Canonical → (f a t).Canonical) : (Sys2Proof.Machine.forAll l f s).Canonical :=
  State.Canonical.foldl h fun t a => hf a t

end Parts

section Answers

variable {s t u : State} {r q : Res}

/-- A command that answers with a next state, which is in canonical form where the one before it is. -/
def State.Answers (s : State) (r : Res) : Prop := ∃ t, r = .next t ∧ (s.Canonical → t.Canonical)

theorem State.Answers.next (h : s.Canonical → t.Canonical) : s.Answers (.next t) := ⟨t, rfl, h⟩

theorem State.Answers.same : s.Answers (.next s) := ⟨s, rfl, id⟩

theorem State.Answers.of (h : s.Canonical → u.Canonical) (hr : u.Answers r) : s.Answers r := by
  obtain ⟨t, ht, hc⟩ := hr
  exact ⟨t, ht, hc ∘ h⟩

theorem State.Answers.ite {p : Prop} [Decidable p] (hr : s.Answers r) (hq : s.Answers q) : s.Answers (if p then r else q) := by
  split
  · exact hr
  · exact hq

end Answers

end Sys2Proof.Machine
end

section
/-! PROOFS. Shared operations and the course engine keep the canonical form (O13, O60). -/

set_option Elab.async false

namespace Sys2Proof.Machine

section Kept

variable {s : State}

theorem State.Canonical.put (h : s.Canonical) {f v} : (s.put f v).Canonical := h.setReg

theorem State.Canonical.putFlag (h : s.Canonical) {f b} : (s.putFlag f b).Canonical := h.put

theorem State.Canonical.count (h : s.Canonical) {f n} : (s.count f n).Canonical := h.put

theorem State.Canonical.countReg (h : s.Canonical) {a n} : (s.countReg a n).Canonical := h.setReg

theorem State.Canonical.setReg64 (h : s.Canonical) {a v} : (s.setReg64 a v).Canonical := h.setReg.setReg

theorem State.Canonical.modCh (h : s.Canonical) {c f} : (s.modCh c f).Canonical := h.same

theorem State.Canonical.modStage (h : s.Canonical) {c f} : (s.modStage c f).Canonical := h.modCh

theorem State.Canonical.modSeq (h : s.Canonical) {c f} : (s.modSeq c f).Canonical := h.modCh

theorem State.Canonical.modCnt (h : s.Canonical) {c f} : (s.modCnt c f).Canonical := h.modCh

theorem State.Canonical.modUnit (h : s.Canonical) {u f} : (s.modUnit u f).Canonical := h.same

theorem State.Canonical.modRail (h : s.Canonical) {r f} : (s.modRail r f).Canonical := h.same

theorem State.Canonical.modDie (h : s.Canonical) {d f} : (s.modDie d f).Canonical := h.same

theorem State.Canonical.modSpire (h : s.Canonical) {p f} : (s.modSpire p f).Canonical := h.same

theorem State.Canonical.modHp (h : s.Canonical) {f} : (s.modHp f).Canonical := h.same

theorem State.Canonical.modRing (h : s.Canonical) {q f} : (s.modRing q f).Canonical := h.modHp

theorem State.Canonical.modMode (h : s.Canonical) {f} : (s.modMode f).Canonical := h.same

theorem State.Canonical.modArb (h : s.Canonical) {f} : (s.modArb f).Canonical := h.same

theorem State.Canonical.modPower (h : s.Canonical) {f} : (s.modPower f).Canonical := h.same

theorem State.Canonical.modCourse (h : s.Canonical) {f} : (s.modCourse f).Canonical := h.same

theorem State.Canonical.modRv (h : s.Canonical) {f} : (s.modRv f).Canonical := h.same

theorem State.Canonical.modOtp (h : s.Canonical) {f} : (s.modOtp f).Canonical := h.same

theorem State.Canonical.modSilt (h : s.Canonical) {f} : (s.modSilt f).Canonical := h.same

theorem State.Canonical.takeFree (h : s.Canonical) : s.takeFree.2.Canonical := h.same

theorem State.Canonical.siltStart (h : s.Canonical) : s.siltStart.Canonical := by
  unfold State.siltStart
  refine .ite ?_ ?_
  · split
    · exact h
    · exact h.modSilt
  · exact h

theorem State.Canonical.siltPush (h : s.Canonical) {type cls code payload} : (s.siltPush type cls code payload).Canonical := by
  unfold State.siltPush
  refine .ite ?_ ?_
  · exact h.modSilt.siltStart
  · split
    · exact h.modSilt.count
    · exact h.count

theorem State.Canonical.storeEvent (h : s.Canonical) {e} : (s.storeEvent e).Canonical := by
  unfold State.storeEvent
  refine .ite ?_ ?_
  · exact h.modHp
  · refine .ite ?_ ?_
    · exact h.countReg.modHp
    · split
      · exact h.modHp.countReg.modHp
      · exact h.countReg.modHp

theorem State.Canonical.errPulse (h : s.Canonical) : s.errPulse.Canonical := (State.Canonical.ite h.count h).putFlag.same

theorem State.Canonical.classCount (h : s.Canonical) {cls} : (s.classCount cls).Canonical := by
  unfold State.classCount
  split
  · exact h.count
  · exact h.count
  · exact h.count
  · exact h.count

theorem State.Canonical.f2Record (h : s.Canonical) {code payload} : (s.f2Record code payload).Canonical := by
  unfold State.f2Record
  split
  · exact .ite h.count h.modSilt.siltPush
  · exact h.modSilt.siltPush

theorem State.Canonical.sendNotice (h : s.Canonical) {code cls data} : (s.sendNotice code cls data).Canonical :=
  State.Canonical.ite h h.modRv

theorem State.Canonical.notice (h : s.Canonical) {code cls data} : (s.notice code cls data).Canonical := State.Canonical.ite h.sendNotice h

theorem State.Canonical.raiseWith (h : s.Canonical) {code cls data o} : (s.raiseWith code cls data o).Canonical := by
  have hcount (t : State) (ht : t.Canonical) :
      (if cls ≠ 0 || t.flag R.HP_EVT_CFG_F0_EN then t.storeEvent ⟨t.tick.now, data, code, cls⟩ else t).Canonical :=
    .ite ht.storeEvent ht
  unfold State.raiseWith
  extract_lets u v w a b x
  have hw : w.Canonical := .ite (hcount u h.classCount).errPulse (hcount u h.classCount)
  have ha : a.Canonical := hw.putFlag
  have hb : b.Canonical := .ite hw hw.siltPush
  have hx : x.Canonical := .ite (.ite ha ha.f2Record) (.ite (.ite hb hb.modMode) hw)
  exact hx.notice

theorem State.Canonical.raise (h : s.Canonical) {code cls data} : (s.raise code cls data).Canonical := h.raiseWith

theorem State.Canonical.srcRaised (h : s.Canonical) {src code cls} : (s.srcRaised src code cls).Canonical := h.same

theorem State.Canonical.raiseSrc (h : s.Canonical) {src code cls data own} : (s.raiseSrc src code cls data own).Canonical :=
  State.Canonical.ite h.same h.same.srcRaised.raiseWith

theorem State.Canonical.raiseLimited (h : s.Canonical) {code cls data unit interval} : (s.raiseLimited code cls data unit
    interval).Canonical :=
  State.Canonical.ite h.modHp.raise h

theorem State.Canonical.hold (h : s.Canonical) {k rq e} : (s.hold k rq e).Canonical := by
  unfold State.hold
  split
  · exact h.modSpire
  · exact h.modHp

theorem State.Canonical.completeOne (h : s.Canonical) {q x status info r276} : (s.completeOne q x status info r276).Canonical :=
  State.Canonical.ite h.hold (State.Canonical.ite h.hold.count.raiseLimited h.hold.count)

theorem State.Canonical.barriers (h : s.Canonical) {q} : (s.barriers q).Canonical := h.modRing.foldl fun _ _ ht1 => ht1.completeOne

theorem State.Canonical.complete (h : s.Canonical) {q tag slot status info r276} : (s.complete q tag slot status info r276).Canonical := by
  unfold State.complete
  split
  · exact h.completeOne.modRing.barriers
  · exact h

theorem State.Canonical.send (h : s.Canonical) {o} : (s.send o).Canonical := h.modHp

theorem State.Canonical.eddyTrigger (h : s.Canonical) {e src} : (s.eddyTrigger e src).Canonical := State.Canonical.ite h.modEng.raise h

theorem State.Canonical.eddyStore (h : s.Canonical) {e r} : (s.eddyStore e r).Canonical := by
  unfold State.eddyStore
  extract_lets k s1 x s2
  have h1 : s1.Canonical := State.Canonical.ite h.eddyTrigger h
  have h2 : s2.Canonical := h1.modEng
  refine .ite ?_ ?_
  · exact h1.modEng
  · exact .ite h2.modArb h2

theorem State.Canonical.deposedStop (h : s.Canonical) {e reason} : (s.deposedStop e reason).Canonical := h.modEng.raise

theorem State.Canonical.engExc (h : s.Canonical) {e c pc imm} : (s.engExc e c pc imm).Canonical := by
  unfold State.engExc
  extract_lets x data s1 s2
  have h1 : s1.Canonical := h.modEng
  have h2 : s2.Canonical := h1.raise.eddyTrigger
  exact .ite h2.deposedStop h2

theorem State.Canonical.seqPc (h : s.Canonical) {e} : (s.seqPc e).Canonical := State.Canonical.ite h.modEng.engExc h.modEng

/-- What an instruction answers leaves a data RAM in canonical form. -/
def EngRes.Keeps : EngRes → Prop
  | .exc _ => True
  | .seq y _ => memWf y.dram = true
  | .jump y _ => memWf y.dram = true

theorem runInsn_answers {e reads cyc cycTaken f} (hf : ∀ x : Engine, memWf x.dram = true → (f x).Keeps) :
    s.Answers (runInsn e reads cyc cycTaken f s) := by
  have hkeeps (h : s.Canonical) : (f s.eng[e]).Keeps := hf _ (h.dram e)
  unfold Sys2Proof.Machine.runInsn
  dsimp only
  generalize f s.eng[e] = r at hkeeps ⊢
  refine .ite ?_ .same
  cases r with
  | exc c => exact .next fun h => h.engExc
  | seq y ld => exact .next fun h => State.Canonical.seqPc (h.modRam (f := fun _ => s.eng[e].charge y reads cyc ld) (hkeeps h))
  | jump y t =>
    exact .ite (.next fun h => h.modRam (f := fun _ => { s.eng[e].charge y reads cycTaken none with pc := t.toNat }) (hkeeps h))
      (.next fun h => h.engExc)

theorem aluInsn_answers {e d reads cyc f} : s.Answers (aluInsn e d reads cyc f s) :=
  runInsn_answers fun x hx => by
    split
    · exact (congrArg memWf (x.setG_dram d _)).trans hx
    · trivial

theorem accInsn_answers {e reads f} : s.Answers (accInsn e reads f s) :=
  runInsn_answers fun x hx => by
    split
    · trivial
    · exact hx

theorem loadInsn_answers {e d a imm size ext} : s.Answers (loadInsn e d a imm size ext s) :=
  runInsn_answers fun x hx => by
    split
    · split
      · trivial
      · exact (congrArg memWf (x.setG_dram d _)).trans hx
    · trivial

theorem storeInsn_answers {e d a imm size} : s.Answers (storeInsn e d a imm size s) :=
  runInsn_answers fun x hx => by
    split
    · trivial
    · split
      · trivial
      · exact memWrite_wf x.dram _ _ hx

theorem branchInsn_answers {e a b off p} : s.Answers (branchInsn e a b off p s) :=
  runInsn_answers fun x hx => by
    split
    · exact hx
    · exact hx

theorem State.Canonical.modEnc (h : s.Canonical) {n f} : (s.modEnc n f).Canonical := h.modCourse

theorem State.Canonical.encSettle (h : s.Canonical) {n} : (s.encSettle n).Canonical :=
  State.Canonical.ite (State.Canonical.ite h.modEnc h.modEnc.count) h

theorem execEncoderEdge_answers {n a b} : s.Answers (execEncoderEdge n a b s) := .next fun h => h.encSettle.modEnc.encSettle

theorem execEncoderStop_answers {n} : s.Answers (execEncoderStop n s) := by
  unfold Sys2Proof.Machine.execEncoderStop
  dsimp only
  split
  · exact .ite (.next fun h => h.encSettle.modEnc) (.next fun h => h.encSettle)
  · exact .next fun h => h.encSettle

theorem execRadarPulse_answers : s.Answers (execRadarPulse s) := .ite (.next fun h => h.modCourse) .same

theorem execRadarStop_answers : s.Answers (execRadarStop s) := by
  unfold Sys2Proof.Machine.execRadarStop
  dsimp only
  split
  · exact .ite (.next fun h => h.modCourse) .same
  · exact .same

theorem execSpdanSample_answers {code} : s.Answers (execSpdanSample code s) := .ite (.next fun h => h.modCourse) .same

theorem State.Canonical.poseLatch (h : s.Canonical) : s.poseLatch.Canonical := by
  unfold State.poseLatch
  split
  · exact h
  · exact .ite h.modCourse.count.raise h.modCourse.modCourse

theorem State.Canonical.poseCommit (h : s.Canonical) : s.poseCommit.Canonical := h.modCourse

theorem execHostPoseCommit_answers : s.Answers (execHostPoseCommit s) := .ite (.next fun h => h.poseCommit) .same

theorem State.Canonical.setValid (h : s.Canonical) {code ok} : (State.setValid code ok s).Canonical :=
  State.Canonical.ite h.modCourse h.modCourse.raise

theorem State.Canonical.judgeEnc (h : s.Canonical) {n} : (State.judgeEnc n s).Canonical :=
  State.Canonical.ite h.modEnc.modEnc.raise (State.Canonical.ite h.modEnc.modEnc h.modEnc)

theorem State.Canonical.judge (h : s.Canonical) : s.judge.Canonical := h.judgeEnc.judgeEnc.forAll fun _ _ ht1 => ht1.setValid

theorem State.Canonical.changeSource (h : s.Canonical) {code} : (s.changeSource code).Canonical :=
  State.Canonical.ite h.raise.modCourse.raise h.raise.modCourse

theorem State.Canonical.select (h : s.Canonical) : s.select.Canonical := by
  unfold State.select
  extract_lets cur s1 new
  have h1 : s1.Canonical := State.Canonical.ite h.raise h
  refine .ite ?_ ?_
  · exact h
  · exact .ite h1 h1.changeSource

theorem execSpeedSourceDisplace_answers {code} : s.Answers (execSpeedSourceDisplace code s) := .ite (.next fun h => h.changeSource) .same

theorem execSourceTimeout_answers {code} : s.Answers (execSourceTimeout code s) := by
  unfold Sys2Proof.Machine.execSourceTimeout
  refine .ite ?_ ?_
  · exact .same
  · split
    · refine .ite ?_ ?_
      · exact .next fun h => (State.Canonical.ite h.modCourse.setValid h.modCourse).select
      · exact .same
    · refine .ite ?_ ?_
      · exact .next fun h => (State.Canonical.ite h.modCourse.setValid h.modCourse).select
      · exact .same
    · refine .ite ?_ ?_
      · exact .next fun h => (State.Canonical.ite h.modCourse.setValid h.modCourse).select
      · exact .same
    · refine .ite ?_ ?_
      · exact .next fun h => (State.Canonical.ite h.modCourse.setValid h.modCourse).select
      · exact .same
    · exact .same

theorem execBlendEnd_answers {yaw} : s.Answers (execBlendEnd yaw s) :=
  .ite .same (.ite (.ite (.next fun h => h.modCourse) .same) (.ite (.next fun h => h.modCourse) .same))

theorem execCoastTimeExpiry_answers : s.Answers (execCoastTimeExpiry s) := .ite (.next fun h => h.modCourse.raise) .same

theorem State.Canonical.turnStep (h : s.Canonical) {dt} : (s.turnStep dt).Canonical := (State.Canonical.ite h h.modCourse).modCourse

theorem State.Canonical.speedStep (h : s.Canonical) {dt} : (s.speedStep dt).Canonical :=
  State.Canonical.ite ((State.Canonical.ite h.raise h).modCourse) (State.Canonical.ite h.modCourse h)

theorem State.Canonical.xchkStep (h : s.Canonical) : s.xchkStep.Canonical := State.Canonical.ite h h.modCourse

theorem execCrosscheckDisagree_answers {code} : s.Answers (execCrosscheckDisagree code s) := .ite (.next fun h => h.modCourse.raise) .same

theorem State.Canonical.headStep (h : s.Canonical) {dt} : (s.headStep dt).Canonical := by
  unfold State.headStep
  dsimp only
  split
  · exact h.modCourse.modCourse
  · exact (State.Canonical.ite h h.modCourse).modCourse

theorem State.Canonical.integrate (h : s.Canonical) {dt} : (s.integrate dt).Canonical := by
  unfold State.integrate
  exact ⟨h.1, h.2⟩

theorem State.Canonical.rebaseTo (h : s.Canonical) {origin} : (s.rebaseTo origin).Canonical := by
  unfold State.rebaseTo
  exact ⟨h.1, h.2⟩

theorem State.Canonical.overspeedStep (h : s.Canonical) : s.overspeedStep.Canonical := (State.Canonical.ite h.raise h).modCourse

theorem State.Canonical.rebaseStep (h : s.Canonical) : s.rebaseStep.1.Canonical := by
  unfold State.rebaseStep
  split
  · split
    · exact .ite h h.modCourse.raise
    · exact h.rebaseTo.modCourse.raise
  · split
    · exact h.modRv.rebaseTo.modCourse.raise
    · exact h

theorem State.Canonical.holdSpeeds (h : s.Canonical) : s.holdSpeeds.Canonical := h.modCourse

theorem State.Canonical.courseStep (h : s.Canonical) : s.courseStep.1.Canonical := by
  unfold State.courseStep
  extract_lets dt held t u v w x y
  have hx : x.Canonical :=
    h.encSettle.encSettle.modCourse.poseLatch.judge.select.turnStep.speedStep.xchkStep.headStep.holdSpeeds.modCourse.integrate
  have hy : y.Canonical := .ite hx.modCourse hx
  have hz : y.rebaseStep.1.Canonical := hy.rebaseStep
  clear_value y
  generalize y.rebaseStep = z at hz ⊢
  exact hz.modCourse.overspeedStep.modCourse

theorem State.Canonical.rebaseWrite (h : s.Canonical) {go} : (s.rebaseWrite go).Canonical :=
  State.Canonical.ite h.raise (State.Canonical.ite h.modCourse h)

theorem execCourseRebaseGo_answers : s.Answers (execCourseRebaseGo s) := .ite (.next fun h => h.rebaseWrite) .same

theorem State.Canonical.geomWrite (h : s.Canonical) {c isX v} : (s.geomWrite c isX v).Canonical :=
  State.Canonical.ite h.raise (State.Canonical.ite h.modCh.setReg h.setReg)

theorem execChGeomWrite_answers {c isX v} : s.Answers (execChGeomWrite c isX v s) := .ite (.next fun h => h.geomWrite) .same

theorem State.Canonical.courseThaw (h : s.Canonical) : s.courseThaw.Canonical := h.modCourse

end Kept

end Sys2Proof.Machine
end

section
/-! PROOFS. The output stages, the sequencers and the compare units keep the canonical form (O13, O60). -/

set_option Elab.async false

namespace Sys2Proof.Machine

section Kept

variable {s : State}

theorem State.Canonical.latchEng (h : s.Canonical) {e bit} : (s.latchEng e bit).Canonical := h.modEng

theorem State.Canonical.latchCh (h : s.Canonical) {c bit} : (s.latchCh c bit).Canonical := by
  unfold State.latchCh
  split
  · exact .ite h.latchEng h
  · exact h

theorem State.Canonical.strmOverflow (h : s.Canonical) {c} : (s.strmOverflow c).Canonical := h.putFlag.raiseLimited

theorem State.Canonical.levelCh (h : s.Canonical) {c} : (s.levelCh c).Canonical := by
  unfold State.levelCh
  extract_lets s1
  have h1 : s1.Canonical := State.Canonical.ite h.latchCh h
  exact .ite h1 h1.latchCh

theorem State.Canonical.pushIstrm (h : s.Canonical) {c w} : (s.pushIstrm c w).Canonical :=
  State.Canonical.ite (State.Canonical.ite (State.Canonical.ite h.modCh.latchCh h.modCh) h.strmOverflow) h

theorem State.Canonical.pushVstrm (h : s.Canonical) {c w} : (s.pushVstrm c w).Canonical :=
  State.Canonical.ite (State.Canonical.ite h.modCh h.strmOverflow) h

theorem State.Canonical.pushSnse (h : s.Canonical) {c w} : (s.pushSnse c w).Canonical := State.Canonical.ite h.modCh.latchCh h.strmOverflow

theorem State.Canonical.holdWord (h : s.Canonical) {c a} : (s.holdWord c a).Canonical := State.Canonical.ite h.modStage h

theorem State.Canonical.currentResult (h : s.Canonical) {c code} : (s.currentResult c code).Canonical :=
  (State.Canonical.ite h.count h).modStage

theorem State.Canonical.budgetStep (h : s.Canonical) {c} : (s.budgetStep c).Canonical := h.modStage

theorem State.Canonical.streamEntry (h : s.Canonical) {c inst} : (s.streamEntry c inst).Canonical :=
  State.Canonical.ite h.pushIstrm (State.Canonical.ite h.pushIstrm h)

theorem State.Canonical.gridSample (h : s.Canonical) {c code inst} : (s.gridSample c code inst).Canonical := by
  unfold State.gridSample
  extract_lets s1
  have h1 : s1.Canonical := h.currentResult.streamEntry
  exact .ite h1.budgetStep h1

theorem execCurrentSample_answers {c code} : s.Answers (execCurrentSample c code s) := .ite (.next fun h => h.gridSample.modCh) .same

theorem State.Canonical.voltResult (h : s.Canonical) {c code inst} : (s.voltResult c code inst).Canonical :=
  State.Canonical.ite h.modStage h.modStage.pushVstrm

theorem execVoltageSample_answers {c code} : s.Answers (execVoltageSample c code s) := .ite (.next fun h => h.voltResult.modCh) .same

theorem execSnsEdge_answers {c level} : s.Answers (execSnsEdge c level s) :=
  .ite (.next fun h => State.Canonical.ite h.modStage.pushSnse h.modStage) .same

theorem State.Canonical.snsConvert (h : s.Canonical) {c mv ldo} : (s.snsConvert c mv ldo).Canonical := by
  unfold State.snsConvert
  dsimp only
  split
  · exact h.modStage
  · exact h.modStage
  · exact h.modStage
  · exact h
  · exact h
  · exact h.modStage

theorem State.Canonical.atInstant (h : s.Canonical) {t c} : (State.atInstant t c s).Canonical := h.modStage

theorem State.Canonical.openClear (h : s.Canonical) {c} : (s.openClear c).Canonical := State.Canonical.ite h.modStage h

theorem execSampleEventLatch_answers {c} : s.Answers (execSampleEventLatch c s) := by
  unfold Sys2Proof.Machine.execSampleEventLatch
  split
  · exact .same
  · exact .ite (.next fun h => h.modCh.latchCh) .same

theorem State.Canonical.sendOn (h : s.Canonical) {c on answers} : (s.sendOn c on answers).Canonical := h.modCh

theorem State.Canonical.sendTrimmed (h : s.Canonical) {c on answers} : (s.sendTrimmed c on answers).Canonical :=
  State.Canonical.ite h.sendOn h.sendOn

theorem execDutyCommandArrival_answers {c} : s.Answers (execDutyCommandArrival c s) := by
  unfold Sys2Proof.Machine.execDutyCommandArrival
  split
  · exact .same
  · exact .ite (.next fun h => h.modCh) .same

theorem State.Canonical.effectCount (h : s.Canonical) {c} : (s.effectCount c).Canonical := h.modCnt

theorem State.Canonical.takeDuty (h : s.Canonical) {c centre} : (s.takeDuty c centre).Canonical := by
  unfold State.takeDuty
  split
  · exact h
  · exact .ite h h.effectCount.modStage

theorem State.Canonical.softStep (h : s.Canonical) {c} : (s.softStep c).Canonical := h.modStage

theorem State.Canonical.shareTrim (h : s.Canonical) {c} : (s.shareTrim c).Canonical :=
  State.Canonical.ite (State.Canonical.ite (h.forAll fun _ _ ht => State.Canonical.ite ht.modStage ht) h) h

theorem State.Canonical.openCount (h : s.Canonical) {c} : (s.openCount c).Canonical := h.modStage

theorem State.Canonical.putOn (h : s.Canonical) {c valley} : (s.putOn c valley).Canonical := h.forAll fun _ _ ht => ht.modStage

theorem execCarrierUpdatePoint_answers {c centre} : s.Answers (execCarrierUpdatePoint c centre s) := by
  unfold Sys2Proof.Machine.execCarrierUpdatePoint
  extract_lets s1 s2 s3 s4
  have h1 (h : s.Canonical) : s1.Canonical := h.modStage.takeDuty
  have h2 (h : s.Canonical) : s2.Canonical := State.Canonical.ite (h1 h).shareTrim (h1 h).openCount.softStep.modStage
  have h3 (h : s.Canonical) : s3.Canonical := (h2 h).putOn
  have h4 (h : s.Canonical) : s4.Canonical := State.Canonical.ite (h3 h) ((h3 h).forAll fun _ _ ht => ht.modStage)
  refine .ite ?_ ?_
  · exact .next fun h => State.Canonical.ite (h4 h) ((h4 h).forAll fun _ _ ht => ht.modStage)
  · exact .same

theorem State.Canonical.restartAt (h : s.Canonical) {c t} : (s.restartAt c t).Canonical := by
  unfold State.restartAt
  extract_lets s1
  have h1 : s1.Canonical := by
    dsimp only [s1]
    split
    · exact h.effectCount.modStage
    · exact h
  exact .ite h1.putOn h

theorem State.Canonical.memberResult (h : s.Canonical) {c x ldo} : (s.memberResult c x ldo).Canonical :=
  State.Canonical.ite h h.currentResult.snsConvert

theorem execControlSampleInstant_answers {c inp} : s.Answers (execControlSampleInstant c inp s) := by
  unfold Sys2Proof.Machine.execControlSampleInstant
  split
  · exact .same
  · extract_lets s1 mems s2 s3 s4 s5 g n
    refine .ite (.next fun h => ?_) .same
    have h2 : s2.Canonical := (State.Canonical.modCh h).forAll fun _ _ ht => ht.memberResult
    have h3 : s3.Canonical := .ite h2 h2.gridSample.voltResult.snsConvert
    have h4 : s4.Canonical := h3.forAll fun _ _ ht => ht.streamEntry
    have h5 : s5.Canonical := (h4.restartAt.forAll fun _ _ ht => ht.atInstant).openClear
    exact h5.modCh

theorem execDlyReport_answers {c} : s.Answers (execDlyReport c s) := by
  unfold Sys2Proof.Machine.execDlyReport
  split
  · exact .same
  · refine .ite ?_ ?_
    · dsimp only
      split
      · exact .next fun h => h.modStage
      · exact .next fun h => h.modStage.modCh.latchCh
    · exact .same

theorem execCurrentLimitReached_answers {c} : s.Answers (execCurrentLimitReached c s) := .ite (.next fun h => h.modStage) .same

theorem execPeakBudgetExhausted_answers {c} : s.Answers (execPeakBudgetExhausted c s) :=
  .ite (.next fun h => h.budgetStep.modStage.raise) .same

theorem execPeakBudgetRestored_answers {c} : s.Answers (execPeakBudgetRestored c s) := .ite (.next fun h => h.budgetStep.modStage) .same

theorem execHiccupStart_answers {c} : s.Answers (execHiccupStart c s) := .ite (.next fun h => h.modStage.count.raiseLimited) .same

theorem execHiccupEnd_answers {c} : s.Answers (execHiccupEnd c s) := by
  unfold Sys2Proof.Machine.execHiccupEnd
  split
  · exact .same
  · exact .ite (.next fun h => h.modStage) .same

theorem execOpenLoadDetect_answers {c} : s.Answers (execOpenLoadDetect c s) := .ite (.next fun h => h.modStage.raise) .same

theorem State.Canonical.legFault (h : s.Canonical) {c l why stuck} : (s.legFault c l why stuck).Canonical := by
  unfold State.legFault
  extract_lets other s1 s2 s3
  have h1 : s1.Canonical := h.modStage
  have h2 : s2.Canonical := h1.count
  have h3 : s3.Canonical := State.Canonical.ite h2.raise (State.Canonical.ite h2.raise h2.raise)
  refine .ite ?_ ?_
  · exact h
  · exact .ite h3.raiseSrc h3

theorem execDesaturation_answers {c l highSide stuck} : s.Answers (execDesaturation c l highSide stuck s) :=
  .ite .same (.ite (.next fun h => h.modStage) (.next fun h => h.legFault))

theorem execLegImbalance_answers {c iA iB stuck} : s.Answers (execLegImbalance c iA iB stuck s) :=
  .ite (.ite (.ite (.next fun h => h.legFault) (.next fun h => h.modStage)) (.next fun h => h.modStage)) .same

theorem State.Canonical.restoreLeg (h : s.Canonical) {c l} : (s.restoreLeg c l).Canonical := State.Canonical.ite h h.modStage.raise

theorem State.Canonical.legRestore (h : s.Canonical) {c} : (s.legRestore c).Canonical := State.Canonical.ite h.raise h.restoreLeg.restoreLeg

theorem execChLegRestore_answers {c} : s.Answers (execChLegRestore c s) := .ite (.next fun h => h.legRestore) .same

theorem State.Canonical.idleEngine (h : s.Canonical) {c} : (s.idleEngine c).Canonical := by
  unfold State.idleEngine
  split
  · exact h.modEng
  · exact h

theorem State.Canonical.stageCfgWrite (h : s.Canonical) {c v} : (s.stageCfgWrite c v).Canonical := by
  unfold State.stageCfgWrite
  extract_lets old fld fTopo want shown inField member keep locked lockDiff base w0 topoNo refuseAll topo w1 bad0 badFrz w2 rising badEn w3
      s1 s2 s3 s4 s5
  have h1 : s1.Canonical := State.Canonical.ite h h.holdWord
  have h2 : s2.Canonical := h1.setReg
  have h3 : s3.Canonical := h2.forAll fun _ _ ht => ht.idleEngine
  have h4 : s4.Canonical := State.Canonical.ite h3 (State.Canonical.ite (h3.forAll fun _ _ ht => ht.modStage) (State.Canonical.ite
      (h3.forAll fun _ _ ht1 => ht1.modStage) h3))
  have h5 : s5.Canonical := State.Canonical.ite h4.modStage h4
  refine .ite ?_ ?_
  · exact h.raise
  · exact .ite h5.raise h5

theorem execChStageCfgWrite_answers {c v} : s.Answers (execChStageCfgWrite c v s) := .ite (.next fun h => h.stageCfgWrite) .same

theorem State.Canonical.pwmWrite (h : s.Canonical) {c v} : (s.pwmWrite c v).Canonical := by
  unfold State.pwmWrite
  extract_lets old p0 d0 oldP oldD inField p1 d1 en bad2 p2 w s1
  have h1 : s1.Canonical := h.holdWord.setReg
  exact .ite h1.raise h1

theorem State.Canonical.snsCfgWrite (h : s.Canonical) {c v} : (s.snsCfgWrite c v).Canonical :=
  State.Canonical.ite h.holdWord.setReg.raise h.holdWord.setReg

theorem State.Canonical.smpPeriodWrite (h : s.Canonical) {c v} : (s.smpPeriodWrite c v).Canonical := State.Canonical.ite h.raise h.modUnit

theorem State.Canonical.seqChange (h : s.Canonical) {c f} (hf : ∀ t, t.Canonical → (f t).Canonical) : (s.seqChange c f).Canonical :=
  State.Canonical.ite (hf s h) (hf s h).latchCh

theorem State.Canonical.writeREff (h : s.Canonical) {c} : (s.writeREff c).Canonical := by
  unfold State.writeREff
  split
  · exact h.modSeq
  · exact h

theorem State.Canonical.limpDrive (h : s.Canonical) {c} : (s.limpDrive c).Canonical := State.Canonical.ite h.sendTrimmed h

theorem State.Canonical.dryBegin (h : s.Canonical) {c n} : (s.dryBegin c n).Canonical := h.modSeq.raise

theorem State.Canonical.advance (h : s.Canonical) {c p new upd late rev dryOk} : (s.advance c p new upd late rev dryOk).Canonical := by
  unfold State.advance
  extract_lets wasOn new1 begins s1 wasDry s2 s3 s4
  have h1 : s1.Canonical := by
    unfold s1
    clear_value begins
    split
    · exact h.dryBegin
    · exact h
  have h2 : s2.Canonical := State.Canonical.ite h1.raise h1
  have h3 : s3.Canonical := h2.modSeq
  have h4 : s4.Canonical := State.Canonical.ite h3.modCnt h3
  exact h4.writeREff.limpDrive

theorem State.Canonical.advanceEvent (h : s.Canonical) {c lo} : (s.advanceEvent c lo).Canonical := h.raiseLimited

theorem State.Canonical.boundaryMatch (h : s.Canonical) {c} : (s.boundaryMatch c).Canonical := by
  unfold State.boundaryMatch
  split
  · exact h
  · exact .ite (h.seqChange (fun _ ht => ht.advance.modSeq)) h

theorem State.Canonical.reachDone (h : s.Canonical) {c r status} : (s.reachDone c r status).Canonical := h.modSeq.hold

theorem State.Canonical.reachDoneAll (h : s.Canonical) {c p status} : (s.reachDoneAll c p status).Canonical :=
  h.forAll fun _ _ ht => ht.reachDone

theorem State.Canonical.dryCross (h : s.Canonical) {c r} : (s.dryCross c r).Canonical := State.Canonical.ite h.dryBegin h

theorem State.Canonical.completions (h : s.Canonical) {c} : (s.completions c).Canonical := by
  unfold State.completions
  extract_lets upd done s1 n
  have h1 : s1.Canonical := h.forAll fun r t ht => by
    dsimp only
    split
    · exact ht.dryCross.reachDone
    · exact ht.dryCross
  exact .ite h1 h1.raise

theorem State.Canonical.cancelStep (h : s.Canonical) {c x} : (s.cancelStep c x).Canonical := by
  unfold State.cancelStep
  extract_lets p n s1 s2 pos q new s3 late
  have h1 : s1.Canonical := h.reachDoneAll
  have h2 : s2.Canonical := by
    dsimp only [s2]
    split
    · exact h1.complete
    · exact h1
  have h3 : s3.Canonical := h2.modSeq
  refine .ite ?_ ?_
  · exact .ite h3 h3.advance.advanceEvent
  · exact h2

theorem State.Canonical.fieldEntry (h : s.Canonical) {c} : (s.fieldEntry c).Canonical :=
  State.Canonical.ite h.reachDoneAll.modSeq h.reachDoneAll.modSeq.advance.advanceEvent

theorem State.Canonical.directionStep (h : s.Canonical) {c} : (s.directionStep c).Canonical :=
  State.Canonical.ite h (State.Canonical.ite (State.Canonical.ite h.modSeq h.modSeq.advance.advanceEvent) h.modSeq)

theorem State.Canonical.lateAdvances (h : s.Canonical) {c fuel} : (s.lateAdvances c fuel).Canonical := by
  induction fuel generalizing s with
  | zero => exact h
  | succ fuel ih =>
    unfold State.lateAdvances
    dsimp only
    split
    · exact h
    · exact .ite (ih h.advance.advanceEvent) h

theorem State.Canonical.seqUpdate (h : s.Canonical) {c} : (s.seqUpdate c).Canonical := by
  refine h.seqChange fun t ht => ?_
  extract_lets u v reqs w x y z
  have hv : v.Canonical := .ite (State.Canonical.fieldEntry ht.modSeq) ht.modSeq
  have hw : w.Canonical := .ite hv (hv.modSeq.forAll fun _ _ ht => ht.cancelStep)
  have hx : x.Canonical := hw.directionStep.modSeq
  have hy : y.Canonical := .ite hx.lateAdvances.completions (hx.forAll fun _ _ ht => ht.dryCross)
  exact hy.writeREff.limpDrive.modSeq

theorem State.Canonical.seqLeaveField (h : s.Canonical) {c} : (s.seqLeaveField c).Canonical :=
  h.seqChange (fun _ ht => (State.Canonical.ite ht.advance ht).reachDoneAll.modSeq)

theorem State.Canonical.rebaseReaches (h : s.Canonical) : s.rebaseReaches.Canonical :=
  h.forAll fun _ _ ht =>
    have hdone := ht.forAll fun _ _ ht => ht.seqChange fun _ ht => ht.reachDoneAll
    .ite hdone hdone.raise

theorem State.Canonical.reachAccept (h : s.Canonical) {c r} : (s.reachAccept c r).Canonical := h.seqChange (fun _ ht => ht.modSeq)

theorem State.Canonical.setUnit (h : s.Canonical) {u f} : (s.setUnit u f).Canonical := h.modUnit

theorem State.Canonical.cmpRefused (h : s.Canonical) {u} : (s.cmpRefused u).Canonical := h.raise

theorem State.Canonical.freezeTrigger (h : s.Canonical) {cause sc} : (s.freezeTrigger cause sc).Canonical :=
  State.Canonical.ite h.count.same (State.Canonical.ite h.same h.raise)

theorem State.Canonical.cmpXfer (h : s.Canonical) {u old stamp replay} : (s.cmpXfer u old stamp replay).Canonical :=
  State.Canonical.ite h.count h.modUnit.modHp

theorem State.Canonical.cmpChain (h : s.Canonical) {u old stamp} : (s.cmpChain u old stamp).Canonical := by
  unfold State.cmpChain
  split
  · exact h.same
  · exact h

theorem State.Canonical.nozzleHold (h : s.Canonical) {c prm} : (s.nozzleHold c prm).Canonical :=
  State.Canonical.ite (h.forAll fun _ _ ht => ht.put) h

theorem State.Canonical.prmCommitAt (h : s.Canonical) {c} : (s.prmCommitAt c).Canonical := State.Canonical.ite h.modCh.latchCh.nozzleHold h

theorem State.Canonical.deadlineAt (h : s.Canonical) {c replay} : (s.deadlineAt c replay).Canonical := h.modCh

theorem State.Canonical.ckptAt (h : s.Canonical) {c} : (s.ckptAt c).Canonical := State.Canonical.ite h.modCh.count.raiseLimited h.modCh

theorem State.Canonical.sampleMatch (h : s.Canonical) {c conv replay} : (s.sampleMatch c conv replay).Canonical := by
  unfold State.sampleMatch
  extract_lets s1
  have h1 : s1.Canonical := h.prmCommitAt.deadlineAt.ckptAt
  exact .ite h1.modCh h1

theorem State.Canonical.lateMatch (h : s.Canonical) {c stamp} : (s.lateMatch c stamp).Canonical := by
  unfold State.lateMatch
  split
  · exact h
  · exact h.modUnit.modCnt.setReg.raise

theorem State.Canonical.bndSignal (h : s.Canonical) {c stamp} : (s.bndSignal c stamp).Canonical :=
  h.lateMatch.modCnt.modCh.latchCh.boundaryMatch

theorem State.Canonical.measure (h : s.Canonical) {n} : (s.measure n).Canonical := h.forAll fun _ _ ht => State.Canonical.ite ht.modCh ht

theorem State.Canonical.fireUnit (h : s.Canonical) {u stamp tAdv replay} : (s.fireUnit u stamp tAdv replay).Canonical := by
  unfold State.fireUnit
  extract_lets old conv
  generalize old.afterMatch stamp tAdv = r
  obtain ⟨new, skipped⟩ := r
  dsimp -zeta only
  extract_lets s1 s2 s3 s4 s5
  have h1 : s1.Canonical := h.modUnit
  have h2 : s2.Canonical := by
    unfold s2
    split
    · exact (State.Canonical.ite h1 h1.raise).sampleMatch
    · exact h1
  have h3 : s3.Canonical := by
    unfold s3
    split
    · exact h2.bndSignal
    · exact h2
  have h4 : s4.Canonical := by
    unfold s4
    split
    · extract_lets t1 t2
      have ht1 : t1.Canonical := h3.forAll fun _ _ ht => State.Canonical.ite ht.eddyTrigger ht
      have ht2 : t2.Canonical := .ite ht1.measure ht1
      exact .ite ht2.freezeTrigger ht2
    · exact h3
  have h5 : s5.Canonical := .ite h4.cmpXfer h4
  exact .ite h5.cmpChain h5

theorem State.Canonical.matchNow (h : s.Canonical) {u} : (s.matchNow u).Canonical := State.Canonical.ite h.fireUnit h

theorem execCompareMatch_answers {u} : s.Answers (execCompareMatch u s) := .next fun h => h.matchNow

theorem State.Canonical.applyChain (h : s.Canonical) {u x} : (s.applyChain u x).Canonical :=
  State.Canonical.ite h.cmpRefused (State.Canonical.ite h.setUnit h.setUnit)

theorem State.Canonical.chainNow (h : s.Canonical) {u} : (s.chainNow u).Canonical := by
  unfold State.chainNow
  dsimp only
  split
  · exact h
  · exact .ite ((h.matchNow.same.forAll fun _ _ ht2 => ht2.count.raiseLimited).applyChain) h

theorem execChainArrival_answers {u} : s.Answers (execChainArrival u s) := .next fun h => h.chainNow

theorem State.Canonical.predEvaluate (h : s.Canonical) {c} : (s.predEvaluate c).Canonical := State.Canonical.ite h.modCh h

theorem State.Canonical.predApply (h : s.Canonical) {c r} : (s.predApply c r).Canonical := by
  unfold State.predApply
  extract_lets s1 u v h1
  have h1 : s1.Canonical := h.modCh
  refine .ite ?_ ?_
  · exact h1
  · split
    · exact h1.setUnit
    · exact (State.Canonical.ite h1.setUnit.modCh h1).then fun hset => .ite hset.modCh hset

theorem State.Canonical.predNow (h : s.Canonical) {c} : (s.predNow c).Canonical := by
  unfold State.predNow
  split
  · exact .ite h.matchNow.chainNow.predApply h
  · exact h

theorem State.Canonical.predWrite (h : s.Canonical) : s.predWrite.Canonical := h.forAll fun _ _ ht => ht.predNow

theorem State.Canonical.predWriteAll (h : s.Canonical) : s.predWriteAll.Canonical :=
  h.forAll fun c t ht => by
    split
    · exact ht.predApply
    · exact ht

theorem execPredictorWrite_answers : s.Answers (execPredictorWrite s) := .ite (.next fun h => h.predWrite) .same

theorem State.Canonical.gstartWrite (h : s.Canonical) {v} : (s.gstartWrite v).Canonical :=
  State.Canonical.ite h (State.Canonical.ite h.same.raise h.same)

theorem execGstartWrite_answers {v} : s.Answers (execGstartWrite v s) := .ite (.next fun h => h.gstartWrite) .same

theorem State.Canonical.releaseNow (h : s.Canonical) : s.releaseNow.Canonical := by
  unfold State.releaseNow
  split
  · exact h
  · extract_lets s1 s2 tick s3
    have h2 : s2.Canonical := (h.forAll fun _ _ ht => ht.chainNow).predWrite
    clear_value s2 tick
    exact .ite (State.Canonical.same h2 (t := s3)).setReg64 h

theorem execGstartRelease_answers : s.Answers (execGstartRelease s) := .next fun h => h.releaseNow

theorem State.Canonical.beforeWrite (h : s.Canonical) {u} : (s.beforeWrite u).Canonical := by
  unfold State.beforeWrite
  extract_lets s1 s2
  have h1 : s1.Canonical := h.matchNow.chainNow
  have h2 : s2.Canonical := by
    dsimp only [s2]
    split
    · exact h1.predNow
    · exact h1
  exact .ite h2.releaseNow h

theorem State.Canonical.cmpCtrlWrite (h : s.Canonical) {u w} : (s.cmpCtrlWrite u w).Canonical := by
  unfold State.cmpCtrlWrite
  extract_lets s1 v m new put s2 predNo new1 armNo new2 s3
  have h1 : s1.Canonical := h.beforeWrite
  have h2 : s2.Canonical := h1.setUnit
  have h3 : s3.Canonical := h1.setUnit
  split
  · split
    · exact .ite h2 h2.modCh
    · exact h2
  · exact (State.Canonical.ite h3.modCh h3).then fun hopen =>
      (State.Canonical.ite hopen.cmpRefused hopen).then fun hpred => .ite hpred.cmpRefused hpred

theorem State.Canonical.cmpTargetWrite (h : s.Canonical) {u t} : (s.cmpTargetWrite u t).Canonical :=
  State.Canonical.ite h.beforeWrite.cmpRefused h.beforeWrite.setUnit

theorem State.Canonical.cmpPeriodWrite (h : s.Canonical) {u p} : (s.cmpPeriodWrite u p).Canonical := by
  unfold State.cmpPeriodWrite
  dsimp only
  split
  · exact h.beforeWrite.smpPeriodWrite
  · exact h.beforeWrite.modUnit

theorem execChBndCtrlWrite_answers {c v} : s.Answers (execChBndCtrlWrite c v s) := .ite (.next fun h => h.cmpCtrlWrite) .same

theorem execChBndTargetWrite_answers {c t} : s.Answers (execChBndTargetWrite c t s) := .ite (.next fun h => h.cmpTargetWrite) .same

theorem State.Canonical.replayEnd (h : s.Canonical) {n} : (s.replayEnd n).Canonical := h.same.count.raise

theorem State.Canonical.forwardStep (h : s.Canonical) {t1} : (s.forwardStep t1).Canonical := by
  unfold State.forwardStep
  extract_lets d tf s1 src s2
  have h1 : s1.Canonical := by
    dsimp only [s1]
    split
    · exact h.replayEnd
    · exact h
  have h2 : s2.Canonical := h1.same
  exact h2.setReg64.predWriteAll

theorem State.Canonical.replayCheck (h : s.Canonical) {r} : (s.replayCheck r).Canonical := State.Canonical.ite h.replayEnd h

theorem execCompareReplayMatch_answers : s.Answers (execCompareReplayMatch s) := by
  unfold Sys2Proof.Machine.execCompareReplayMatch
  split
  · exact .same
  · refine .ite ?_ ?_
    · split
      · exact .next fun h => h.replayCheck
      · exact .next fun h => h.fireUnit.same.replayCheck
    · exact .same

theorem execCourseUpdate_answers : s.Answers (execCourseUpdate s) := by
  unfold Sys2Proof.Machine.execCourseUpdate
  have hstep (h : s.Canonical) : s.courseStep.1.Canonical := h.courseStep
  generalize s.courseStep = r at hstep ⊢
  refine .ite (.next fun h => ?_) .same
  have hreb : (if r.2 then r.1.rebaseReaches else r.1).Canonical := .ite (State.Canonical.rebaseReaches (hstep h)) (hstep h)
  exact (hreb.forAll fun _ _ ht => ht.seqUpdate.predEvaluate).modMode.modCourse

end Kept

end Sys2Proof.Machine
end

section
/-! PROOFS. GNSS, the image check engine, OTP and the resets keep the canonical form (O13, O60). -/

set_option Elab.async false

namespace Sys2Proof.Machine

section Kept

variable {s : State}

theorem State.Canonical.modUart (h : s.Canonical) {n f} : (s.modUart n f).Canonical := h.same

theorem State.Canonical.modGnss (h : s.Canonical) {n f} : (s.modGnss n f).Canonical := h.modCourse

theorem State.Canonical.uartEvent (h : s.Canonical) {code n} : (s.uartEvent code n).Canonical := h.raiseLimited

theorem State.Canonical.gnssBad (h : s.Canonical) {n} : (s.gnssBad n).Canonical := h.count.uartEvent

theorem State.Canonical.gnssByte (h : s.Canonical) {n b} : (s.gnssByte n b).Canonical := by
  unfold State.gnssByte
  extract_lets t s1 long s2
  have h1 : s1.Canonical := State.Canonical.ite h.modUart h
  have h2 : s2.Canonical := h1.modUart
  refine .ite ?_ ?_
  · exact .ite h2.gnssBad h2
  · exact h1

theorem execGnssCharacter_answers {n samples early} : s.Answers (execGnssCharacter n samples early s) := by
  unfold Sys2Proof.Machine.execGnssCharacter
  extract_lets s1 s2
  have h1 (h : s.Canonical) : s1.Canonical := State.Canonical.ite h.count.uartEvent h
  have h2 (h : s.Canonical) : s2.Canonical := (h1 h).modUart
  refine .ite ?_ ?_
  · exact .same
  · refine .ite ?_ ?_
    · exact .next fun h => (h1 h)
    · exact .ite (.next fun h => (h1 h).gnssByte) (.next fun h => (h2 h).count.uartEvent)

theorem execGnssSearchReopen_answers {n} : s.Answers (execGnssSearchReopen n s) := .ite (.next fun h => h.modUart) .same

theorem execNmeaSentence_answers {n} : s.Answers (execNmeaSentence n s) := by
  unfold Sys2Proof.Machine.execNmeaSentence
  split
  · exact .same
  · refine .ite ?_ ?_
    · exact .same
    · dsimp only
      split
      · exact .next fun h => h.modUart.gnssBad
      · split
        · exact .next fun h => h.modUart
        · split
          · exact .next fun h => h.modUart.gnssBad
          · exact .next fun h => h.modUart.modGnss.count

theorem execGnssBinaryFrame_answers {n} : s.Answers (execGnssBinaryFrame n s) := by
  unfold Sys2Proof.Machine.execGnssBinaryFrame
  split
  · exact .same
  · refine .ite ?_ ?_
    · exact .same
    · exact .ite (.next fun h => h.modUart.modGnss.count) (.next fun h => h.modUart.gnssBad)

theorem State.Canonical.otpNormal (h : s.Canonical) {a w n} : (s.otpNormal a w n).2.Canonical := h.same

theorem State.Canonical.trimBlock (h : s.Canonical) {b} : (s.trimBlock b).2.Canonical := by
  unfold State.trimBlock
  have hread : (s.otpNormal 2 (32 * b) 32).2.Canonical := h.otpNormal
  generalize s.otpNormal 2 (32 * b) 32 = r at hread ⊢
  obtain ⟨ws, u⟩ := r
  dsimp only at hread ⊢
  split
  · exact h
  · split
    · exact hread.modOtp
    · exact hread.modOtp.count.raise

theorem State.Canonical.keyDigest (h : s.Canonical) {id image} : (s.keyDigest id image).2.Canonical := by
  unfold State.keyDigest
  dsimp only
  split
  · split
    · exact h
    · exact State.Canonical.otpNormal (a := 0) (w := 96 + 8 * id.toNat) (n := 8) h
  · split
    · exact h.trimBlock
    · exact h

theorem State.Canonical.imgAnswer (h : s.Canonical) {id image msg sig} : (s.imgAnswer id image msg sig).2.Canonical := by
  have hkey : (s.keyDigest id image).2.Canonical := h.keyDigest
  unfold State.imgAnswer
  generalize s.keyDigest id image = r at hkey ⊢
  dsimp only
  split
  · exact hkey
  · split
    · exact hkey
    · exact hkey

theorem State.Canonical.keyInstall (h : s.Canonical) {slot key} : (s.keyInstall slot key).Canonical := by
  unfold State.keyInstall
  extract_lets k
  exact h.keyDigest.put.then fun h1 => State.Canonical.ite h1.modOtp.put.raise h1.raise

theorem State.Canonical.imgPush (h : s.Canonical) {r} : (s.imgPush r).Canonical := h.modOtp

theorem State.Canonical.imgKeep (h : s.Canonical) {keep} : (s.imgKeep keep).Canonical := h.modOtp

theorem State.Canonical.keyLoad (h : s.Canonical) : s.keyLoad.Canonical := h.imgPush

theorem execKeyLoad_answers : s.Answers (execKeyLoad s) := .ite (.next fun h => h.keyLoad) .same

theorem State.Canonical.otpRefuse (h : s.Canonical) {result told} : (s.otpRefuse result told).Canonical :=
  State.Canonical.ite h.put.raise h.put

theorem State.Canonical.otpStart (h : s.Canonical) {r} : (s.otpStart r).Canonical := h.putFlag.modOtp

theorem State.Canonical.otpCmd (h : s.Canonical) {v} : (s.otpCmd v).Canonical := by
  unfold State.otpCmd
  refine .ite ?_ ?_
  · exact h
  · refine .ite ?_ ?_
    · exact h.otpRefuse
    · refine .ite ?_ ?_
      · exact .ite h.otpRefuse h.otpStart
      · refine .ite ?_ ?_
        · exact .ite h.otpRefuse h.otpStart
        · dsimp only
          split
          · exact h.same.otpRefuse
          · exact h.same.otpStart

theorem otpCmdOp_answers {v op} : s.Answers (s.otpCmdOp v op) := .ite (.next fun h => h.otpCmd) .same

theorem execOtpRead_answers {v} : s.Answers (execOtpRead v s) := otpCmdOp_answers

theorem execBurnBlock_answers {v} : s.Answers (execBurnBlock v s) := otpCmdOp_answers

theorem execMarginScan_answers {v} : s.Answers (execMarginScan v s) := otpCmdOp_answers

theorem execReburnWeak_answers {v} : s.Answers (execReburnWeak v s) := otpCmdOp_answers

theorem State.Canonical.burnEnd (h : s.Canonical) {a b result} : (s.burnEnd a b result).Canonical :=
  State.Canonical.ite h.put.raise h.put.raise

theorem execOtpCommandDone_answers {cells} : s.Answers (execOtpCommandDone cells s) := by
  unfold Sys2Proof.Machine.execOtpCommandDone
  split
  · exact .same
  · refine .ite .same ?_
    extract_lets u a
    have hu (h : s.Canonical) : u.Canonical := h.putFlag.modOtp
    clear_value u
    split
    · split
      next w v hread =>
        have hv (h : s.Canonical) : v.Canonical := by
          split at hread
          all_goals obtain ⟨-, rfl⟩ := Prod.mk.inj hread
          · exact hu h
          · exact hu h
          · exact (hu h).same
        exact .next fun h => (hv h).setReg.put
    · exact .next fun h => (hu h).modOtp.burnEnd
    · exact .next fun h => .ite (hu h).modOtp.put.put.put (hu h).modOtp.put.put.put.raise
    · exact .ite (.next fun h => (hu h).modOtp.burnEnd) (.next fun h => (hu h).burnEnd)

theorem State.Canonical.patchCheck (h : s.Canonical) : s.patchCheck.2.2.Canonical := by
  have hread : (s.otpNormal 1 0 896).2.Canonical := h.otpNormal
  unfold State.patchCheck
  generalize s.otpNormal 1 0 896 = r at hread ⊢
  dsimp only
  split
  · exact hread
  · exact hread.trimBlock

theorem State.Canonical.ocvReset (h : s.Canonical) : s.ocvReset.Canonical := h.forAll fun _ _ ht => ht.put

theorem State.Canonical.domeLogicReset (h : s.Canonical) : s.domeLogicReset.Canonical := by
  unfold State.domeLogicReset
  extract_lets silt dbg w v
  have hw : w.Canonical := by
    refine ⟨wordsWf_filter regReset s.regs _ h.1, fun e => ?_⟩
    have heng : w.eng[e] = Engine.reset e := Vector.getElem_ofFn ..
    rw [heng, Engine.reset_dram]
    rfl
  exact (State.Canonical.putFlag (State.Canonical.putFlag hw.putFlag.putFlag.putFlag)).ocvReset

theorem State.Canonical.resetCauseBit (h : s.Canonical) {k} : (s.resetCauseBit k).Canonical := h.modMode

theorem State.Canonical.resumeStart4 (h : s.Canonical) : s.resumeStart4.Canonical := h.modMode

theorem State.Canonical.resetBy (h : s.Canonical) {k} : (s.resetBy k).Canonical := by
  unfold State.resetBy
  extract_lets s1 s2
  have h1 : s1.Canonical := h.resetCauseBit.domeLogicReset.modMode
  have h2 : s2.Canonical := State.Canonical.ite (h1.forAll fun _ _ ht => State.Canonical.ite ht.put ht) h1
  exact .ite h.modMode h2.resumeStart4

theorem State.powerOn_canonical : s.powerOn.Canonical := by
  obtain ⟨hregs, hram⟩ := State.reset_canonical
  exact ⟨hregs, hram⟩

theorem State.Canonical.enterShip (h : s.Canonical) : s.enterShip.Canonical := by
  unfold State.enterShip
  extract_lets after s1 s2 s3 s4 mode power
  have h3 : s3.Canonical := h.domeLogicReset.put.putFlag.putFlag.putFlag
  have h4 : s4.Canonical := (h3.forAll fun _ _ ht => ht.setReg).setReg
  clear_value s4
  exact h4.same

end Kept

end Sys2Proof.Machine
end

section
/-! PROOFS. The pack, the charger and the estimator keep the canonical form (O13, O60). -/

set_option Elab.async false

namespace Sys2Proof.Machine

section Kept

variable {s : State}

theorem State.Canonical.chgGo (h : s.Canonical) {new} : (s.chgGo new).Canonical :=
  State.Canonical.ite h h.put.modPower.putFlag.putFlag.putFlag.raise

theorem State.Canonical.openSwitch (h : s.Canonical) : s.openSwitch.Canonical := h.putFlag.modPower

theorem State.Canonical.beginClose (h : s.Canonical) {vbusMv} : (s.beginClose vbusMv).Canonical := h.modPower

theorem State.Canonical.closed (h : s.Canonical) : s.closed.Canonical := h.putFlag.modPower

theorem State.Canonical.leaveBuskeep (h : s.Canonical) : s.leaveBuskeep.Canonical := h.putFlag.putFlag.modPower

theorem State.Canonical.packResult (h : s.Canonical) {t} : (s.packResult t).Canonical := by
  unfold State.packResult
  extract_lets r old s1 s2 s3
  have h1 : s1.Canonical := h.put.put
  have h2 : s2.Canonical := h1.modPower
  have h3 : s3.Canonical := h2.count
  refine .ite ?_ ?_
  · exact h2.raise
  · refine .ite ?_ ?_
    · exact h3
    · refine .ite ?_ ?_
      · exact h3.raise
      · exact .ite h3.raise h3.raise

theorem execPackCheck_answers {taps} : s.Answers (execPackCheck taps s) := .ite (.next fun h => h.packResult) .same

theorem execBuskeepPackCheckTimer_answers {taps} : s.Answers (execBuskeepPackCheckTimer taps s) := .ite (.next fun h => h.packResult) .same

theorem execChargeProbe_answers {dPackUa dChgUa} : s.Answers (execChargeProbe dPackUa dChgUa s) :=
  .ite (.ite (.next fun h => (State.Canonical.ite h.modPower h.modPower.put.raise).modPower) (.next fun h => h.modPower)) .same

theorem execPackSwitchClose_answers {vbusMv} : s.Answers (execPackSwitchClose vbusMv s) := by
  unfold Sys2Proof.Machine.execPackSwitchClose
  refine .ite ?_ ?_
  · exact .same
  · split
    · exact .same
    · exact .next fun h => State.Canonical.ite h.closed h
    · exact .next fun h => State.Canonical.ite h (State.Canonical.ite h.closed h.beginClose)

theorem execPackCloseTimeout_answers : s.Answers (execPackCloseTimeout s) := by
  unfold Sys2Proof.Machine.execPackCloseTimeout
  split
  · exact .ite (.next fun h => State.Canonical.ite h.openSwitch h.openSwitch.put.raise) .same
  · exact .same

theorem execShortCircuitTrip_answers : s.Answers (execShortCircuitTrip s) :=
  .ite .same (.next fun h => State.Canonical.ite h.openSwitch.count.raiseSrc.modPower h.openSwitch.count.raiseSrc.enterShip)

theorem execCellOvTrip_answers {cell} : s.Answers (execCellOvTrip cell s) :=
  .ite .same (.next fun h => h.putFlag.putFlag.modPower.count.raiseSrc)

theorem State.Canonical.cellTimers (h : s.Canonical) : s.cellTimers.Canonical := h.modPower

theorem execOvLatchClear_answers : s.Answers (execOvLatchClear s) := by
  unfold Sys2Proof.Machine.execOvLatchClear
  extract_lets s1 st new s2 st1
  have h1 (h : s.Canonical) : s1.Canonical := h.putFlag.raise
  have h2 (h : s.Canonical) : s2.Canonical := State.Canonical.ite (h1 h) (State.Canonical.ite (h1 h).modPower (h1 h).chgGo)
  exact .ite (.next fun h => (h2 h).putFlag.modPower) .same

theorem State.Canonical.suspStep (h : s.Canonical) : s.suspStep.Canonical := by
  unfold State.suspStep
  extract_lets st s1 d s2
  have h1 : s1.Canonical := h.putFlag
  have h2 : s2.Canonical := State.Canonical.ite (State.Canonical.ite h1.modPower.chgGo h1) (State.Canonical.ite h1.modPower.chgGo h1)
  exact .ite h2.raise h2

theorem State.Canonical.cellEvents (h : s.Canonical) : s.cellEvents.Canonical := by
  unfold State.cellEvents
  extract_lets s1 s2 a b
  have h1 : s1.Canonical := State.Canonical.ite h.raise h
  have h2 : s2.Canonical := State.Canonical.ite h1.raise h1
  exact h2.modPower

theorem execCellDataStale_answers : s.Answers (execCellDataStale s) := .ite (.next fun h => h.cellEvents.suspStep) .same

theorem State.Canonical.uvCheck (h : s.Canonical) : s.uvCheck.Canonical := by
  unfold State.uvCheck
  split
  · exact .ite h h.putFlag.modPower.raise
  · exact h

theorem execUvCutoff_answers : s.Answers (execUvCutoff s) := .ite (.next fun h => h.siltPush.raiseWith.modPower) .same

theorem State.Canonical.uvOpen (h : s.Canonical) : s.uvOpen.Canonical := by
  unfold State.uvOpen
  split
  · exact .ite h.openSwitch.enterShip h
  · exact h

theorem execChargerStart_answers {tfMv} : s.Answers (execChargerStart tfMv s) := .ite (.next fun h => h.modPower.chgGo) .same

theorem execTfLoss_answers : s.Answers (execTfLoss s) :=
  .ite (.ite (.next fun h => h.modMode.leaveBuskeep.enterShip) (.next fun h => h.modMode.chgGo)) .same

theorem execPrechargeDone_answers : s.Answers (execPrechargeDone s) := .ite (.next fun h => h.chgGo) .same

theorem execChargeTimeout_answers : s.Answers (execChargeTimeout s) := .ite (.next fun h => h.chgGo.raise) .same

theorem execChargeTermination_answers : s.Answers (execChargeTermination s) := .ite (.next fun h => h.chgGo.raise.same) .same

theorem execRecharge_answers : s.Answers (execRecharge s) := .ite (.next fun h => h.chgGo) .same

theorem State.Canonical.chgRestart (h : s.Canonical) : s.chgRestart.Canonical := State.Canonical.ite h.modPower.chgGo h

theorem State.Canonical.queueWrite (h : s.Canonical) {addr v} : (s.queueWrite addr v).Canonical := h.same

theorem execChgRestart_answers : s.Answers (execChgRestart s) := .ite (.next fun h => h.queueWrite) .same

theorem execInputLimitTimeout_answers {volt} : s.Answers (execInputLimitTimeout volt s) := .ite .same (.next fun h => h.putFlag.raise)

theorem execBuskeepEntry_answers : s.Answers (execBuskeepEntry s) := .ite (.next fun h => h.openSwitch.putFlag.chgGo.modPower.raise) .same

theorem execBuskeepExit_answers : s.Answers (execBuskeepExit s) :=
  .ite (.next fun h => h.leaveBuskeep.beginClose.modPower.chgGo.raise) .same

theorem execBuskeepLowVbus_answers : s.Answers (execBuskeepLowVbus s) := .ite (.next fun h => h.raise) .same

theorem State.Canonical.buskeepAck (h : s.Canonical) {b} : (s.buskeepAck b).Canonical := h.putFlag

theorem execPullInGuardEnd_answers {c} : s.Answers (execPullInGuardEnd c s) := by
  unfold Sys2Proof.Machine.execPullInGuardEnd
  split
  · exact .ite (.next fun h => h.modCh) .same
  · exact .same

theorem State.Canonical.probeStop (h : s.Canonical) : s.probeStop.Canonical := h.put.putFlag.modPower

theorem State.Canonical.budgetPeriod (h : s.Canonical) : s.budgetPeriod.Canonical := by
  unfold State.budgetPeriod
  extract_lets b l kmin tgt guarded s1 k k' total over_ s2 s3 s4
  have h1 : s1.Canonical := State.Canonical.ite h.probeStop h
  have h2 : s2.Canonical := h1.put.putFlag.putFlag
  have h3 : s3.Canonical := h2.setReg.setReg
  have h4 : s4.Canonical := State.Canonical.ite h3.modPower.raiseLimited h3
  exact .ite h4.raiseLimited h4

theorem State.Canonical.chargerDecide (h : s.Canonical) : s.chargerDecide.Canonical := by
  unfold State.chargerDecide
  extract_lets s1 st s2
  have h1 : s1.Canonical := h.cellTimers.cellEvents.uvCheck.suspStep
  have h2 : s2.Canonical := State.Canonical.ite h1.chgGo (State.Canonical.ite h1.chgGo h1)
  exact h2.uvOpen

theorem execPackSample_answers {iCode vCode tfUa} : s.Answers (execPackSample iCode vCode tfUa s) := by
  unfold Sys2Proof.Machine.execPackSample
  extract_lets pace s1 w low marked code ip small run due x tgt ips term s2 s3 s4 s5 s6 s7 smp est
  have h2 (h : s.Canonical) : s2.Canonical := State.Canonical.modPower (State.Canonical.same h)
  have h3 (h : s.Canonical) : s3.Canonical := .ite (h2 h).count (h2 h)
  have h7 (h : s.Canonical) : s7.Canonical := (h3 h).putFlag.setReg.setReg.setReg
  exact .ite .same (.next fun h => ⟨(h7 h).1, (h7 h).2⟩)

theorem State.Canonical.reportSoc (h : s.Canonical) : s.reportSoc.Canonical := h.put.put

theorem State.Canonical.restStep (h : s.Canonical) : s.restStep.Canonical := h.same.putFlag

theorem execSocUpdate_answers : s.Answers (execSocUpdate s) := .ite .same (.next fun h => h.same.same.reportSoc.restStep)

theorem State.Canonical.reportSoh (h : s.Canonical) : s.reportSoh.Canonical := h.put.put

theorem execImpedanceStep_answers : s.Answers (execImpedanceStep s) := by
  unfold Sys2Proof.Machine.execImpedanceStep
  extract_lets first sh put probe
  refine .ite ?_ ?_
  · exact .same
  · split
    · exact .same
    · exact .next fun h => h.count
    · exact .next fun h => (State.Canonical.ite (State.Canonical.ite h.setReg.setReg.setReg.same.setReg.count.putFlag.setReg
        h.setReg.setReg.setReg.same.setReg.count.putFlag) h.setReg.setReg.setReg.same.setReg.count).reportSoh.raiseLimited

theorem execProbeStart_answers : s.Answers (execProbeStart s) := .ite (.next fun h => h.modPower.put.putFlag.raise) .same

theorem execProbeEnd_answers : s.Answers (execProbeEnd s) := by
  unfold Sys2Proof.Machine.execProbeEnd
  split
  · exact .ite (.next fun h => h.probeStop) .same
  · exact .same

theorem State.Canonical.capLearn (h : s.Canonical) {new} : (s.capLearn new).Canonical := by
  unfold State.capLearn
  split
  · exact h.same.putFlag
  · refine .ite ?_ ?_
    · exact .ite h.same.setReg.count.raise.reportSoh h.same
    · exact .ite h.same h

theorem execRestPoint_answers : s.Answers (execRestPoint s) := .ite (.next fun h => h.same.count.raise.capLearn.put) .same

theorem State.Canonical.estRecord (h : s.Canonical) : s.estRecord.Canonical := h.same.siltPush

theorem execEstimatorRecord_answers : s.Answers (execEstimatorRecord s) := .ite (.next fun h => h.estRecord) .same

theorem State.Canonical.estRestore (h : s.Canonical) : s.estRestore.Canonical := by
  unfold State.estRestore
  split
  · exact h.setReg.reportSoh.raise
  · extract_lets w u ref est v
    have hu : u.Canonical := h.setReg.setReg.setReg.setReg.setReg
    clear_value u est
    have hv : v.Canonical := hu.same
    exact hv.putFlag.putFlag.reportSoh.raise

theorem State.Canonical.estInit (h : s.Canonical) : s.estInit.Canonical := State.Canonical.ite h h.same.reportSoc

end Kept

end Sys2Proof.Machine
end

section
/-! PROOFS. The rails and the housekeeping converter keep the canonical form (O13, O60). -/

set_option Elab.async false

namespace Sys2Proof.Machine

section Kept

variable {s : State}

theorem State.Canonical.setGood (h : s.Canonical) {r b} : (s.setGood r b).Canonical := by
  unfold State.setGood
  dsimp only
  split
  · exact h.putFlag.put.putFlag.put
  · exact h.putFlag.put

theorem State.Canonical.setRailState (h : s.Canonical) {r st} : (s.setRailState r st).Canonical := by
  unfold State.setRailState
  dsimp only
  split
  · exact h.put.putFlag.putFlag.put.putFlag
  · exact h.put.putFlag.putFlag

theorem State.Canonical.railRamp (h : s.Canonical) {r voutMv} : (s.railRamp r voutMv).Canonical := h.modRail.setRailState

theorem State.Canonical.stopComplete (h : s.Canonical) : s.stopComplete.Canonical := h.putFlag.raise.setSeqr

theorem State.Canonical.railOffNow (h : s.Canonical) {r} : (s.railOffNow r).Canonical := h.setGood.setRailState.modRail

theorem State.Canonical.railStop (h : s.Canonical) {r} : (s.railStop r).Canonical :=
  State.Canonical.ite h.setGood.setRailState.modRail (State.Canonical.ite h.railOffNow h)

theorem State.Canonical.stopAdvance (h : s.Canonical) : s.stopAdvance.Canonical := by
  unfold State.stopAdvance
  extract_lets ready s1 src
  have h1 : s1.Canonical := h.forAll fun _ _ ht => ht.railStop
  exact .ite h1.same h1

theorem State.Canonical.stopOrder (h : s.Canonical) : s.stopOrder.Canonical := h.putFlag.putFlag.setSeqr.stopAdvance

theorem execRailStopOrder_answers : s.Answers (execRailStopOrder s) := .ite (.next fun h => h.stopOrder) .same

theorem execRailStopped_answers {r} : s.Answers (execRailStopped r s) := by
  unfold Sys2Proof.Machine.execRailStopped
  extract_lets x set rampEnd low t s1
  have h1 (h : s.Canonical) : s1.Canonical := h.railOffNow
  refine .ite ?_ ?_
  · exact .next fun h => State.Canonical.ite (h1 h) (State.Canonical.ite (h1 h).stopComplete (State.Canonical.ite (((h1
      h)).stopAdvance) (h1 h)))
  · exact .same

theorem execHostHoldExpiry_answers : s.Answers (execHostHoldExpiry s) := by
  unfold Sys2Proof.Machine.execHostHoldExpiry
  split
  · exact .ite (.next fun h => State.Canonical.ite h.railStop h.railStop.stopComplete) .same
  · exact .same

theorem State.Canonical.railStart (h : s.Canonical) {r voutMv} : (s.railStart r voutMv).Canonical := h.railRamp.modRail

theorem execRailStart_answers {r voutMv} : s.Answers (execRailStart r voutMv s) := by
  unfold Sys2Proof.Machine.execRailStart
  split
  · exact .ite (.next fun h => h.railStart) .same
  · exact .same

theorem State.Canonical.bootAux0 (h : s.Canonical) : s.bootAux0.Canonical := State.Canonical.ite h h.same.setRailState.modRail

theorem State.Canonical.depEvents (h : s.Canonical) : s.depEvents.Canonical :=
  h.forAll fun _ _ ht => ht.forAll fun _ _ ht1 => State.Canonical.ite ht1.raise ht1

theorem execBootRailStart_answers {aux0Mv} : s.Answers (execBootRailStart aux0Mv s) := by
  unfold Sys2Proof.Machine.execBootRailStart
  extract_lets src s1 s2 s3
  have h1 (h : s.Canonical) : s1.Canonical := h.same
  have h2 (h : s.Canonical) : s2.Canonical := (h1 h).estRestore.depEvents
  have h3 (h : s.Canonical) : s3.Canonical := (h2 h).forAll fun _ _ ht => State.Canonical.ite ht.modRail ht
  exact .ite (.next fun h => State.Canonical.ite (h3 h).railStart (h3 h)) .same

theorem State.Canonical.step8End (h : s.Canonical) : s.step8End.Canonical := by
  unfold State.step8End
  extract_lets s1 src s2 s3
  have h1 : s1.Canonical := h.putFlag.modMode
  have h2 : s2.Canonical := h1.same
  have h3 : s3.Canonical := State.Canonical.ite h2.putFlag h2
  exact .ite h3.raise h

theorem State.Canonical.seqOutStep (h : s.Canonical) : s.seqOutStep.Canonical :=
  State.Canonical.ite h.putFlag (State.Canonical.ite h.putFlag (State.Canonical.ite h.putFlag h))

theorem State.Canonical.railDecideOne (h : s.Canonical) {r} : (s.railDecideOne r).Canonical := by
  unfold State.railDecideOne
  extract_lets st lost s1
  have h1 : s1.Canonical := State.Canonical.ite h.setRailState h
  refine .ite ?_ ?_
  · exact h
  · refine .ite ?_ ?_
    · exact h.railStop
    · refine .ite ?_ ?_
      · exact h.railStop.raise
      · refine .ite ?_ ?_
        · exact h.railOffNow
        · refine .ite ?_ ?_
          · exact .ite h1.modRail h1.modRail
          · exact h

theorem State.Canonical.railDecide (h : s.Canonical) : s.railDecide.Canonical :=
  State.Canonical.ite h.stopAdvance (State.Canonical.ite h (State.Canonical.ite h.seqOutStep (((h.forAll fun _ _ ht =>
      ht.railDecideOne).step8End).seqOutStep)))

theorem State.Canonical.superviseOne (h : s.Canonical) {r v} : (s.superviseOne r v).Canonical := by
  unfold State.superviseOne
  extract_lets s1 set s2 st u below above bw aw s3
  have h1 : s1.Canonical := h.modRail
  have h2 : s2.Canonical := State.Canonical.ite h1.setRailState h1
  have h3 : s3.Canonical := h2.modRail
  refine .ite ?_ ?_
  · exact h2
  · refine .ite ?_ ?_
    · exact h2.modRail
    · refine .ite ?_ ?_
      · exact h2
      · exact .ite h3.putFlag.putFlag.putFlag h3

theorem State.Canonical.railIin (h : s.Canonical) {r v i} : (s.railIin r v i).2.Canonical := by
  unfold State.railIin
  dsimp only
  split
  · exact h
  · split
    · split
      · exact h
      · exact h.takeFree
    · exact h

theorem State.Canonical.railReport (h : s.Canonical) : s.railReport.Canonical := by
  unfold State.railReport
  extract_lets u sum
  have hu : u.Canonical := h.forAll fun _ _ ht => ht.railIin.setReg.setReg.setReg.modRail
  exact hu.setReg.setSeqr

theorem State.Canonical.railSamples (h : s.Canonical) {vout iout} : (s.railSamples vout iout).Canonical := by
  unfold State.railSamples
  exact State.Canonical.setSeqr (h.forAll fun _ _ ht => ht.superviseOne.modRail)

theorem execRailSupervisionSample_answers {vout iout} : s.Answers (execRailSupervisionSample vout iout s) :=
  .ite .same (.next fun h => State.Canonical.ite h.same.railSamples.railReport h.same.railSamples)

theorem execRailGood_answers {r} : s.Answers (execRailGood r s) := .ite (.next fun h => h.setGood.modRail.raise) .same

theorem State.Canonical.railWarn (h : s.Canonical) {r bit code} : (s.railWarn r bit code).Canonical := h.putFlag.count.raiseLimited

theorem execRailUvWarn_answers {r} : s.Answers (execRailUvWarn r s) := .ite (.next fun h => h.railWarn) .same

theorem execRailOvWarn_answers {r} : s.Answers (execRailOvWarn r s) := .ite (.next fun h => h.railWarn) .same

theorem State.Canonical.railFaultOff (h : s.Canonical) {r} : (s.railFaultOff r).Canonical := h.railOffNow.setRailState.modRail

theorem execRailUvFault_answers {r} : s.Answers (execRailUvFault r s) :=
  .ite (.next fun h => State.Canonical.ite h.setGood.putFlag.count.railFaultOff.raiseSrc h.setGood.putFlag.count.raiseSrc) .same

theorem execRailOvFault_answers {r} : s.Answers (execRailOvFault r s) := .ite (.next fun h => h.railFaultOff.count.raiseSrc) .same

theorem execRailWindowExpiry_answers {r} : s.Answers (execRailWindowExpiry r s) := by
  unfold Sys2Proof.Machine.execRailWindowExpiry
  split
  · exact .ite (.next fun h => h.modRail.put.putFlag.raise) .same
  · exact .same

theorem execRailHiccup_answers {r} : s.Answers (execRailHiccup r s) := .ite (.next fun h => h.setRailState.modRail.count.raiseLimited) .same

theorem execRailHiccupEnd_answers {r voutMv} : s.Answers (execRailHiccupEnd r voutMv s) := by
  unfold Sys2Proof.Machine.execRailHiccupEnd
  split
  · exact .ite (.next fun h => h.railRamp) .same
  · exact .same

theorem execLightLoadChange_answers {r enter} : s.Answers (execLightLoadChange r enter s) :=
  .ite .same (.ite (.next fun h => State.Canonical.ite h.putFlag h) (.next fun h => h.putFlag))

theorem execSeqInChange_answers {level} : s.Answers (execSeqInChange level s) := .ite .same (.next fun h => h.putFlag)

theorem execSeqinWaitExpiry_answers : s.Answers (execSeqinWaitExpiry s) := by
  unfold Sys2Proof.Machine.execSeqinWaitExpiry
  split
  · exact .ite (.next fun h => h.same.putFlag.raise) .same
  · exact .same

theorem State.Canonical.railOnWrite (h : s.Canonical) {r on} : (s.railOnWrite r on).Canonical := State.Canonical.ite h.raise h.putFlag

theorem execRailOnWrite_answers {r on} : s.Answers (execRailOnWrite r on s) := .ite (.next fun h => h.queueWrite) .same

theorem State.Canonical.railsOff (h : s.Canonical) : s.railsOff.Canonical := (h.forAll fun _ _ ht => ht.railOffNow).setSeqr.putFlag

theorem State.Canonical.lightWrite (h : s.Canonical) {r} : (s.lightWrite r).Canonical :=
  State.Canonical.ite (State.Canonical.ite h.putFlag.putFlag h.putFlag) h

theorem State.Canonical.vsetWrite (h : s.Canonical) {r mv} : (s.vsetWrite r mv).Canonical := h.modRail.put

theorem State.Canonical.hkPeriod (h : s.Canonical) : s.hkPeriod.Canonical := h.setReg

theorem State.Canonical.hkSeek (h : s.Canonical) {k n} : (State.hkSeek k n s).Canonical := by
  induction k generalizing s n with
  | zero => exact h
  | succ k ih => exact .ite (ih h.put) (.ite (ih h) h.same)

theorem State.Canonical.hkRestart (h : s.Canonical) : s.hkRestart.Canonical := h.same.hkSeek.putFlag

theorem State.Canonical.hkStart (h : s.Canonical) : s.hkStart.Canonical :=
  (h.forAll fun _ _ ht => ht.putFlag).setDie.putFlag.hkPeriod.hkRestart

theorem State.Canonical.ntcResult (h : s.Canonical) {k code} : (s.ntcResult k code).Canonical :=
  State.Canonical.ite (State.Canonical.ite h.modPower h.modPower.raise) h.modPower.put

theorem State.Canonical.dieTemp (h : s.Canonical) {d code} : (s.dieTemp d code).2.Canonical := by
  have hread : (s.trimBlock (min 126 (Config.trimPlace (4 + d)))).2.Canonical := h.trimBlock
  unfold State.dieTemp
  generalize s.trimBlock (min 126 (Config.trimPlace (4 + d))) = r at hread ⊢
  dsimp only
  split
  · exact hread
  · exact hread.takeFree

theorem State.Canonical.sensorStep (h : s.Canonical) {d} : (s.sensorStep d).Canonical :=
  State.Canonical.ite h.modDie.count.raise (State.Canonical.ite h.modDie h)

theorem State.Canonical.diodeResult (h : s.Canonical) {d code clip} : (s.diodeResult d code clip).Canonical :=
  h.dieTemp.put.modDie.sensorStep

theorem State.Canonical.slotResult (h : s.Canonical) {slot code clip} : (s.slotResult slot code clip).Canonical := by
  unfold State.slotResult
  refine .ite h.setReg.modPower.cellTimers (.ite h.ntcResult (.ite h.setReg (.ite h.setReg ?_)))
  split
  · exact h.diodeResult
  · exact h

theorem State.Canonical.hkNext (h : s.Canonical) : s.hkNext.Canonical := h.same.hkSeek

theorem execHkEntryDone_answers {raws} : s.Answers (execHkEntryDone raws s) :=
  .ite (.of (fun h => State.Canonical.ite h.setReg.count h.setReg) (.next fun h => (State.Canonical.ite h.slotResult h).hkNext)) .same

theorem State.Canonical.hkCtrlWrite (h : s.Canonical) {v} : (s.hkCtrlWrite v).Canonical := by
  unfold State.hkCtrlWrite
  extract_lets refuse s1 src s2
  have h1 : s1.Canonical := State.Canonical.ite (State.Canonical.ite h.hkStart.putFlag h.hkStart) (State.Canonical.ite h.putFlag.putFlag
      h.raise)
  have h2 : s2.Canonical := h1.same
  refine .ite ?_ ?_
  · refine .ite ?_ ?_
    · exact h1.raise
    · exact .ite h1 h2.putFlag.putFlag
  · exact h1

theorem execHkStartWrite_answers {start} : s.Answers (execHkStartWrite start s) := .ite (.next fun h => h.queueWrite) .same

theorem execHkCal_answers : s.Answers (execHkCal s) := .ite (.next fun h => h.queueWrite) .same

theorem State.Canonical.calFallback (h : s.Canonical) {g} : (s.calFallback g).2.Canonical := by
  have hread : (s.trimBlock (min 126 (Config.trimPlace g))).2.Canonical := h.trimBlock
  unfold State.calFallback
  generalize s.trimBlock (min 126 (Config.trimPlace g)) = r at hread ⊢
  dsimp only
  split
  · exact hread
  · exact hread

theorem State.Canonical.calEnd (h : s.Canonical) {means} : (s.calEnd means).Canonical := by
  unfold State.calEnd
  extract_lets one
  have hone (g : Nat) (a : State × Nat) (ha : a.1.Canonical) : (one g a).1.Canonical := by
    unfold one
    split
    next f bad v hval =>
      have hv : v.Canonical := by
        split at hval
        · obtain ⟨-, -, rfl⟩ : _ ∧ _ ∧ a.1 = v := by simpa using hval
          exact ha
        · obtain ⟨-, -, rfl⟩ : _ ∧ _ ∧ (a.1.calFallback g).2 = v := by simpa using hval
          exact ha.calFallback
      exact hv.put.put
  have hall (l : List Nat) (a : State × Nat) (ha : a.1.Canonical) : (l.foldl (fun a g => one g a) a).1.Canonical := by
    induction l generalizing a with
    | nil => exact ha
    | cons g _ ih => exact ih _ (hone g a ha)
  have hend := hall (List.range 4) (s, 0) h
  generalize (List.range 4).foldl (fun a g => one g a) (s, 0) = r at hend ⊢
  exact .ite hend.putFlag.raise hend.putFlag.raise

theorem execHkCalDone_answers {means} : s.Answers (execHkCalDone means s) := by
  unfold Sys2Proof.Machine.execHkCalDone
  split
  · refine .ite ?_ ?_
    · exact .next fun h => State.Canonical.ite h.same.putFlag.calEnd.hkRestart h.same.putFlag.calEnd
    · exact .same
  · exact .same

theorem execBootHkSelfCal_answers {means} : s.Answers (execBootHkSelfCal means s) :=
  .ite (.next fun h => (h.forAll fun _ _ ht => ht.setReg).calEnd.hkStart.modMode) .same

theorem State.Canonical.hkCfgWrite (h : s.Canonical) {n v} : (s.hkCfgWrite n v).Canonical :=
  State.Canonical.ite h (State.Canonical.ite h.setReg.putFlag.hkPeriod.raise h.setReg.hkPeriod)

theorem execHkCfgWrite_answers {n v} : s.Answers (execHkCfgWrite n v s) := .ite (.next fun h => h.queueWrite) .same

theorem State.Canonical.hkDiagWrite (h : s.Canonical) {v} : (s.hkDiagWrite v).Canonical := by
  unfold State.hkDiagWrite
  exact .ite h.put.put (State.Canonical.ite h.put.put.raise (State.Canonical.setHk h.put.put.putFlag))

theorem execHkDiagGo_answers {v} : s.Answers (execHkDiagGo v s) := .ite (.next fun h => h.queueWrite) .same

theorem execHkDiagDone_answers {raws} : s.Answers (execHkDiagDone raws s) := by
  unfold Sys2Proof.Machine.execHkDiagDone
  split
  · exact .same
  · exact .ite .same (.next fun h => State.Canonical.ite h.same.setReg h.same.setReg.count.raise)

theorem State.Canonical.dieWaits (h : s.Canonical) {die} : (s.dieWaits die).Canonical := h.forAll fun _ _ ht => ht.modStage

theorem State.Canonical.rateReg (h : s.Canonical) {d} : (s.rateReg d).Canonical := h.put

theorem State.Canonical.warnStep (h : s.Canonical) {d} : (s.warnStep d).Canonical :=
  State.Canonical.ite h.modDie.modDie.count.raise (State.Canonical.ite h.modDie.modDie h.modDie)

theorem State.Canonical.tripStep (h : s.Canonical) {d} : (s.tripStep d).Canonical := by
  unfold State.tripStep
  extract_lets x ripe above s1 level s2 s3 s4
  have h1 : s1.Canonical := h.modDie
  have h2 : s2.Canonical := h1.modDie
  have h3 : s3.Canonical := h2.count
  have h4 : s4.Canonical := h3.siltPush.raise
  refine .ite ?_ ?_
  · refine .ite ?_ ?_
    · exact h4.raise
    · exact .ite h4.modPower h4
  · exact h1

theorem State.Canonical.thermalOne (h : s.Canonical) {d} : (s.thermalOne d).Canonical := by
  unfold State.thermalOne
  extract_lets s1 s2
  have h1 : s1.Canonical := h.sensorStep
  have h2 : s2.Canonical := h1.modDie.rateReg
  refine .ite ?_ ?_
  · exact h1
  · exact .ite h2.warnStep.tripStep h2

theorem execThermalRateSample_answers : s.Answers (execThermalRateSample s) :=
  .ite (.next fun h => h.same.forAll fun _ _ ht => ht.thermalOne) .same

theorem execThermalLevelFall_answers {d} : s.Answers (execThermalLevelFall d s) := by
  unfold Sys2Proof.Machine.execThermalLevelFall
  extract_lets x level cool s1 s2 s3
  have h1 (h : s.Canonical) : s1.Canonical := h.modDie
  have h2 (h : s.Canonical) : s2.Canonical := (h1 h).siltPush.raise
  have h3 (h : s.Canonical) : s3.Canonical := by
    dsimp only [s3]
    split
    · exact .ite (h2 h).dieWaits (h2 h)
    · exact .ite (h2 h).modPower (h2 h)
  split
  · exact .ite (.next fun h => (h3 h)) .same
  · exact .same

theorem State.Canonical.rateRestart (h : s.Canonical) {d} : (s.rateRestart d).Canonical := h.same

theorem execStageThermalShutdown_answers {die} : s.Answers (execStageThermalShutdown die s) :=
  .ite .same (.next fun h => h.modDie.count.siltPush.raiseSrc)

theorem execStageThermalRelease_answers {die} : s.Answers (execStageThermalRelease die s) := by
  unfold Sys2Proof.Machine.execStageThermalRelease
  dsimp only
  split
  · exact .ite (.next fun h => h.modDie.dieWaits.raise) .same
  · exact .same

end Kept

end Sys2Proof.Machine
end

section
/-! PROOFS. Faults, the rings and the snapshots keep the canonical form (O13, O60). -/

set_option Elab.async false

namespace Sys2Proof.Machine

section Kept

variable {s : State}

theorem State.Canonical.keepMismatch (h : s.Canonical) {broken} : (s.keepMismatch broken).2.Canonical := by
  unfold State.keepMismatch
  extract_lets second u
  split
  · exact h.srcRaised.raiseWith
  · exact h.modMode.srcRaised.raiseWith

theorem State.Canonical.latchSrc (h : s.Canonical) {src broken} : (s.latchSrc src broken).Canonical := State.Canonical.ite h.put.put h.put

theorem State.Canonical.qualify (h : s.Canonical) {src broken} : (s.qualify src broken).Canonical := by
  unfold State.qualify
  extract_lets seen s1 src1 s2 s3 cls
  have h1 : s1.Canonical := h.latchSrc
  have h2 : s2.Canonical := h1.same
  have h3 : s3.Canonical := by
    dsimp only [s3]
    refine .ite ?_ ?_
    · exact h2
    · refine .ite ?_ ?_
      · exact h2.keepMismatch
      · split
        · exact h2
        · exact h2.srcRaised.raiseWith
  exact .ite h3.raise h3

theorem execFaultPairQualify_answers {src} : s.Answers (execFaultPairQualify src s) := .ite .same (.next fun h => h.qualify)

theorem execFaultPairBroken_answers {src} : s.Answers (execFaultPairBroken src s) := .ite .same (.next fun h => h.qualify)

theorem execFaultPairCleared_answers {src} : s.Answers (execFaultPairCleared src s) := .next fun h => h.same

theorem execKeepLockstepMismatch_answers : s.Answers (execKeepLockstepMismatch s) :=
  .ite (.next fun h => State.Canonical.ite h.same h.same.keepMismatch) .same

theorem execKeepRestartDone_answers : s.Answers (execKeepRestartDone s) := by
  unfold Sys2Proof.Machine.execKeepRestartDone
  extract_lets u flt
  have hu (h : s.Canonical) : u.Canonical := h.modMode.rateRestart
  clear_value u
  exact .ite (.next fun h => (hu h).same) .same

theorem State.Canonical.faultEnter (h : s.Canonical) {f} : (s.faultEnter f).Canonical := by
  unfold State.faultEnter
  extract_lets s1 s2 s3 early s4 s5 s6
  have h1 : s1.Canonical := h.put.put.putFlag
  have h2 : s2.Canonical := h1.putFlag.putFlag
  have h3 : s3.Canonical := by
    dsimp only [s3]
    split
    · split
      · exact h2.complete
      · exact h2
    · exact h2
  have h4 : s4.Canonical := h3.modMode
  have h5 : s5.Canonical := h4.putFlag
  have h6 : s6.Canonical := State.Canonical.ite h5 h5.putFlag.modPower
  exact .ite h6.bootAux0 h6

theorem execFaultStateEntry_answers : s.Answers (execFaultStateEntry s) := by
  unfold Sys2Proof.Machine.execFaultStateEntry
  split
  · exact .ite .same (.next fun h => h.faultEnter)
  · exact .same

theorem execCoreThermalShutdown_answers {turret} : s.Answers (execCoreThermalShutdown turret s) := by
  unfold Sys2Proof.Machine.execCoreThermalShutdown
  extract_lets d s1 s2 keepBus s3 s4 s5
  have h1 (h : s.Canonical) : s1.Canonical := h.modDie.count
  have h2 (h : s.Canonical) : s2.Canonical := (h1 h).raiseSrc
  have h3 (h : s.Canonical) : s3.Canonical := State.Canonical.ite (h2 h) (h2 h).putFlag.modPower
  have h4 (h : s.Canonical) : s4.Canonical := State.Canonical.ite (h3 h).railsOff (h3 h)
  have h5 (h : s.Canonical) : s5.Canonical := (h4 h).modArb.modHp
  exact .ite .same (.next fun h => (h5 h).modMode)

theorem State.Canonical.errLevel (h : s.Canonical) : s.errLevel.Canonical := h.putFlag

theorem execErrNPulseEnd_answers : s.Answers (execErrNPulseEnd s) := by
  unfold Sys2Proof.Machine.execErrNPulseEnd
  split
  · exact .ite (.next fun h => h.same.errLevel) .same
  · exact .same

theorem execSiltRecordWriteDone_answers {ok} : s.Answers (execSiltRecordWriteDone ok s) := by
  unfold Sys2Proof.Machine.execSiltRecordWriteDone
  split
  · exact .same
  · exact .ite (.next fun h => h.modSilt.siltStart) (.next fun h => h.modSilt.raise.siltStart)

theorem execTurretSupplyLow_answers : s.Answers (execTurretSupplyLow s) := .next fun h => h.modSilt

theorem execTurretSupplyReturn_answers : s.Answers (execTurretSupplyReturn s) := .next fun h => h.modSilt.siltStart

theorem State.Canonical.siltScan (h : s.Canonical) : s.siltScan.Canonical := State.Canonical.ite h.modSilt h.modSilt.raise

theorem State.Canonical.pushData (h : s.Canonical) {rq job ltag addr bs} : (s.pushData rq job ltag addr bs).Canonical := h.modArb

theorem State.Canonical.pushReads (h : s.Canonical) {ltag off n} : (s.pushReads ltag off n).Canonical := by
  unfold State.pushReads
  split
  · exact h
  · exact h.modArb

theorem State.Canonical.siltCopyGo (h : s.Canonical) : s.siltCopyGo.Canonical := by
  unfold State.siltCopyGo
  refine .ite ?_ ?_
  · exact h
  · split
    · exact .ite h.modSilt.putFlag.modArb h.raise
    · exact h.raise

theorem execSiltCopyGo_answers : s.Answers (execSiltCopyGo s) := .ite (.next fun h => h.siltCopyGo) .same

theorem State.Canonical.siltCopyEnd (h : s.Canonical) : s.siltCopyEnd.Canonical := by
  unfold State.siltCopyEnd
  split
  · exact h
  · exact h.modSilt.modArb.putFlag.put.raise

theorem execSiltCopyDone_answers : s.Answers (execSiltCopyDone s) := .ite (.next fun h => h.siltCopyEnd) .same

theorem State.Canonical.siltErase (h : s.Canonical) : s.siltErase.Canonical := State.Canonical.ite h.modSilt h.raise

theorem execSiltErase_answers : s.Answers (execSiltErase s) := .ite (.next fun h => h.siltErase) .same

theorem execSiltEraseDone_answers : s.Answers (execSiltEraseDone s) := .ite (.next fun h => h.modSilt.siltStart) .same

theorem State.Canonical.msixAsk (h : s.Canonical) {v} : (s.msixAsk v).Canonical := h.modHp

theorem State.Canonical.haltRing (h : s.Canonical) {q why} : (s.haltRing q why).Canonical :=
  State.Canonical.ite h.modRing.put.put.raise.msixAsk h.modRing.put.put.raise

theorem State.Canonical.dbDiscard (h : s.Canonical) {reason ring} : (s.dbDiscard reason ring).Canonical := h.count.raise

theorem State.Canonical.dbAccept (h : s.Canonical) {q v} : (s.dbAccept q v).Canonical := h.modRing

theorem State.Canonical.doorbell (h : s.Canonical) {q v be} : (s.doorbell q v be).Canonical := by
  unfold State.doorbell
  refine .ite ?_ ?_
  · exact h.dbDiscard
  · refine .ite ?_ ?_
    · exact h.dbDiscard
    · split
      · exact h.dbAccept
      · exact .ite h.dbDiscard h.haltRing

theorem State.Canonical.msixRelease (h : s.Canonical) {n} : (s.msixRelease n).Canonical := State.Canonical.ite h.modHp.msixAsk h

theorem State.Canonical.msixWrite (h : s.Canonical) {off v be} : (s.msixWrite off v be).Canonical := h.modHp.msixRelease

theorem State.Canonical.bar2Write (h : s.Canonical) {off v be} : (s.bar2Write off v be).Canonical := by
  unfold State.bar2Write
  refine .ite h.msixWrite (.ite (.ite h h.dbDiscard) ?_)
  split
  · exact .ite h.modHp h.doorbell
  · exact h

theorem execSubmissionDoorbell_answers {off v be} : s.Answers (execSubmissionDoorbell off v be s) := .ite (.next fun h => h.bar2Write) .same

theorem execCompletionDoorbell_answers {off v be} : s.Answers (execCompletionDoorbell off v be s) := .ite (.next fun h => h.bar2Write) .same

theorem State.Canonical.applyLatched (h : s.Canonical) : s.applyLatched.Canonical :=
  State.Canonical.forAll h.modHp fun q t ht => by
    split
    · exact ht.doorbell
    · exact ht

theorem State.Canonical.ringResume (h : s.Canonical) {q} : (s.ringResume q).Canonical := State.Canonical.ite h.modRing.raise h

theorem execRingResume_answers {q} : s.Answers (execRingResume q s) := .ite (.next fun h => h.ringResume) .same

theorem State.Canonical.streamOff (h : s.Canonical) : s.streamOff.Canonical := h.putFlag.modArb

theorem State.Canonical.eddyCopyEnd (h : s.Canonical) {x status} : (s.eddyCopyEnd x status).Canonical := h.modEng.modArb.complete

theorem State.Canonical.endLend (h : s.Canonical) {tag} : (s.endLend tag).Canonical := by
  unfold State.endLend
  extract_lets s1 s2 s3 s4 snaps s5 s6 s7 rc s8 s9
  have h1 : s1.Canonical := h.modHp
  have h2 : s2.Canonical := State.Canonical.ite h1.siltCopyEnd h1
  have h3 : s3.Canonical := State.Canonical.ite h2.streamOff h2
  have h4 : s4.Canonical := h3.foldl fun _ _ ht => ht.eddyCopyEnd
  have h5 : s5.Canonical := h4.modArb
  have h6 : s6.Canonical := h5.foldl fun _ _ ht => ht.complete
  have h7 : s7.Canonical := h6.modArb
  have h8 : s8.Canonical := h7.modRv
  have h9 : s9.Canonical := h8.foldl fun _ _ ht => ht.complete
  exact h9.modArb

theorem State.Canonical.reclaimAll (h : s.Canonical) {q} : (s.reclaimAll q).2.Canonical := h.foldl fun _ _ ht => ht.endLend

theorem State.Canonical.qCfgWrite (h : s.Canonical) {q v} : (s.qCfgWrite q v).Canonical := by
  unfold State.qCfgWrite
  extract_lets was on s1 s2 s3 s4
  have h1 : s1.Canonical := State.Canonical.ite h h.put
  have h2 : s2.Canonical := State.Canonical.ite h1 h1.put
  have h3 : s3.Canonical := State.Canonical.ite h2 h2.put.put.put
  have h4 : s4.Canonical := h3.putFlag
  refine .ite ?_ ?_
  · exact h4.modRing
  · exact .ite h4.reclaimAll h4

theorem execQnCfgWrite_answers {q v} : s.Answers (execQnCfgWrite q v s) := .ite (.next fun h => h.qCfgWrite) .same

theorem State.Canonical.eddyStrmWrite (h : s.Canonical) {v} : (s.eddyStrmWrite v).Canonical :=
  State.Canonical.ite (State.Canonical.ite h.putFlag h.streamOff.raise) h.streamOff

theorem execEddyStrmWrite_answers {v} : s.Answers (execEddyStrmWrite v s) := .ite (.next fun h => h.eddyStrmWrite) .same

theorem State.Canonical.noteRequests (h : s.Canonical) : s.noteRequests.Canonical := h.modArb

theorem State.Canonical.writeEntry (h : s.Canonical) {k e} : (s.writeEntry k e).Canonical := by
  unfold State.writeEntry
  extract_lets q r size s1 pi s2 s3
  have h1 : s1.Canonical := h.send
  have h2 : s2.Canonical := h1.modRing.count
  have h3 : s3.Canonical := State.Canonical.ite h2.modRing h2
  exact .ite h3.modRing.msixAsk h3

theorem State.Canonical.resetWritten (h : s.Canonical) {tag} : (s.resetWritten tag).Canonical := by
  unfold State.resetWritten
  split
  · exact .ite h.modMode h
  · exact h

theorem State.Canonical.sendHeld (h : s.Canonical) {k} : (s.sendHeld k).Canonical := by
  unfold State.sendHeld
  split
  · exact h
  · dsimp only
    split
    · exact h.modHp.writeEntry.modUnit
    · exact .ite h.modHp.writeEntry.resetWritten h.modHp.writeEntry
    · exact h.modHp.writeEntry

theorem State.Canonical.sendEvent (h : s.Canonical) : s.sendEvent.Canonical := by
  unfold State.sendEvent
  refine .ite ?_ ?_
  · exact h.modHp.writeEntry.raise
  · split
    · exact h
    · exact h.modHp.writeEntry

theorem State.Canonical.sendStream (h : s.Canonical) : s.sendStream.Canonical := by
  unfold State.sendStream
  split
  · exact h.modArb.send.setReg
  · exact h

theorem State.Canonical.sendMsix (h : s.Canonical) {v} : (s.sendMsix v).Canonical := State.Canonical.ite h.modHp.modHp h.modHp.send

theorem State.Canonical.sendTlp (h : s.Canonical) {x} : (s.sendTlp x).Canonical := by
  unfold State.sendTlp
  split
  · exact h.send
  · exact .ite h.sendHeld h
  · exact .ite h.sendEvent h
  · exact h.send
  · exact h.sendStream
  · exact h.sendMsix
  · split
    · exact h.modRing.send
    · exact h

theorem State.Canonical.dropTenure (h : s.Canonical) : s.dropTenure.Canonical := by
  unfold State.dropTenure
  dsimp only
  split
  · exact h
  · exact .ite h.modArb h.modArb.modArb
  · exact .ite h.modArb h.modArb.modArb
  · exact h.modArb.modArb

theorem State.Canonical.arbRound (h : s.Canonical) {w l t} : (s.arbRound w l t).Canonical :=
  ((State.Canonical.ite h.countReg.setReg h.countReg).forAll fun _ _ ht2 => ht2.countReg).modArb

theorem execArbitrationGrant_answers : s.Answers (execArbitrationGrant s) := by
  unfold Sys2Proof.Machine.execArbitrationGrant
  extract_lets s1 l
  have h1 (h : s.Canonical) : s1.Canonical := by
    dsimp only [s1]
    split
    · exact .ite h.modArb.sendTlp h.dropTenure
    · exact h
  refine .ite ?_ ?_
  · exact .same
  · split
    · exact .next fun h => (h1 h)
    · split
      · exact .next fun h => (h1 h).arbRound
      · exact .next fun h => (h1 h)

theorem State.Canonical.stallSpire (h : s.Canonical) {p why} : (s.stallSpire p why).Canonical := h.modHp.modSpire.modRing.raise

theorem State.Canonical.agentFails (h : s.Canonical) {p} : (s.agentFails p).Canonical := State.Canonical.ite h.modArb h.stallSpire

theorem State.Canonical.reliefFails (h : s.Canonical) : s.reliefFails.Canonical := by
  unfold State.reliefFails
  dsimp only
  split
  · exact h.modArb.stallSpire.modArb
  · exact h.modArb

theorem execTenureBite_answers : s.Answers (execTenureBite s) := by
  unfold Sys2Proof.Machine.execTenureBite
  split
  · exact .same
  · extract_lets s1 s2 n failed s3
    have h3 (h : s.Canonical) : s3.Canonical :=
      .ite (State.Canonical.modArb (State.Canonical.modArb h.dropTenure.count)) (State.Canonical.modArb h.dropTenure.count)
    refine .ite ?_ .same
    split
    · exact .next fun h => .ite (h3 h).raiseLimited.agentFails (h3 h).raiseLimited
    · exact .ite (.next fun h => (h3 h).raise) (.ite (.next fun h => (h3 h).raise.reliefFails) (.next fun h => (h3 h).raise.raiseSrc))

theorem execReliefTakeover_answers {p} : s.Answers (execReliefTakeover p s) := by
  unfold Sys2Proof.Machine.execReliefTakeover
  split
  · exact .ite (.next fun h => h.modArb.modSpire.modRing.modHp.raise) .same
  · exact .same

theorem execMsixCoalesceTimeout_answers {q} : s.Answers (execMsixCoalesceTimeout q s) := by
  unfold Sys2Proof.Machine.execMsixCoalesceTimeout
  split
  · exact .ite (.next fun h => h.modRing.msixAsk) .same
  · exact .same

theorem execCompletionRingFullTimeout_answers {q} : s.Answers (execCompletionRingFullTimeout q s) := by
  unfold Sys2Proof.Machine.execCompletionRingFullTimeout
  split
  · exact .ite (.next fun h => h.modRing.raise) .same
  · exact .same

theorem execLinkUp_answers {speed width} : s.Answers (execLinkUp speed width s) := .ite (.next fun h => h.modHp.modMode.raise) .same

theorem execLinkDown_answers : s.Answers (execLinkDown s) := .ite (.next fun h => h.dropTenure.modHp.raise) .same

theorem execConfigSpaceWrite_answers {ctl conf} : s.Answers (execConfigSpaceWrite ctl conf s) :=
  .ite (.next fun h => (State.Canonical.ite h.modHp h.modHp.dropTenure).forAll fun _ _ ht2 => ht2.msixRelease) .same

theorem State.Canonical.snapWrite (h : s.Canonical) {body r} : (s.snapWrite body r).Canonical := by
  unfold State.snapWrite
  split
  · exact h.pushData.pushData
  · exact h

theorem execSnapshotLatch_answers : s.Answers (execSnapshotLatch s) :=
  .ite .same (.next fun h => h.modArb.foldl fun _ _ ht1 => ht1.snapWrite)

theorem execSnapshotWriteDone_answers : s.Answers (execSnapshotWriteDone s) := by
  unfold Sys2Proof.Machine.execSnapshotWriteDone
  split
  · exact .ite (.next fun h => h.modArb.complete) .same
  · exact .same

theorem execEddyReadDone_answers : s.Answers (execEddyReadDone s) := by
  unfold Sys2Proof.Machine.execEddyReadDone
  split
  · exact .ite (.next fun h => h.eddyCopyEnd) .same
  · exact .same

end Kept

end Sys2Proof.Machine
end

section
/-! PROOFS. The freeze and the river keep the canonical form (O13, O60). -/

set_option Elab.async false

namespace Sys2Proof.Machine

section Kept

variable {s : State}

theorem State.Canonical.laterAll (h : s.Canonical) {d} : (s.laterAll d).Canonical := by
  refine ⟨h.1, fun e => ?_⟩
  have heng : (s.laterAll d).eng[e] = s.eng[e].later d := Vector.getElem_map ..
  rw [heng]
  exact h.dram e

theorem State.Canonical.snapPassed (h : s.Canonical) {t1} : (s.snapPassed t1).Canonical := h.modArb

theorem State.Canonical.stepTo (h : s.Canonical) {t1} : (s.stepTo t1).Canonical := h.snapPassed.laterAll.forwardStep

theorem State.Canonical.pinTrigger (h : s.Canonical) : s.pinTrigger.Canonical := State.Canonical.ite h.freezeTrigger h

theorem execFreezeNFall_answers : s.Answers (execFreezeNFall s) := .next fun h => State.Canonical.ite h.modMode h.modMode.pinTrigger

theorem State.Canonical.freezeRefused (h : s.Canonical) : s.freezeRefused.Canonical := by
  unfold State.freezeRefused
  split
  · exact h.same.complete
  · exact h

theorem State.Canonical.freezeEnter (h : s.Canonical) {cause sc q} : (s.freezeEnter cause sc q).Canonical := by
  unfold State.freezeEnter
  extract_lets s1 s2 s3 s4 frz s5
  have h4 : s4.Canonical := h.setReg.putFlag.put.put.putFlag.put.setReg64
  have h5 : s5.Canonical := h4.setFrz
  exact h5.raise.modMode

theorem execFreezeEntry_answers {q} : s.Answers (execFreezeEntry q s) := by
  unfold Sys2Proof.Machine.execFreezeEntry
  split
  · refine .ite ?_ ?_
    · exact .ite (.next fun h => h.freezeEnter) (.next fun h => h.same.raise.freezeRefused)
    · exact .same
  · exact .same

theorem execFreezeLimitExpiry_answers : s.Answers (execFreezeLimitExpiry s) := .ite (.next fun h => h.siltPush.resetBy) .same

theorem State.Canonical.thawWrite (h : s.Canonical) : s.thawWrite.Canonical :=
  State.Canonical.ite h (State.Canonical.ite h.count.same h.same)

theorem execThawWrite_answers : s.Answers (execThawWrite s) := .ite (.next fun h => h.thawWrite) .same

theorem execFreezeNRise_answers : s.Answers (execFreezeNRise s) := .next fun h => State.Canonical.ite h.same h.modMode

theorem State.Canonical.chanThaw (h : s.Canonical) {c} : (s.chanThaw c).Canonical := by
  unfold State.chanThaw
  dsimp only
  split
  · exact h.modStage.legFault
  · exact h.modStage

theorem State.Canonical.raiseTimes (h : s.Canonical) {code n} : (s.raiseTimes code n).Canonical := h.foldl fun _ _ ht => ht.raise

/-- What a thaw writes into the receivers and the ring ports. -/
theorem State.Canonical.setUartRv (h : s.Canonical) {x y} : ({ s with uart := x, rv := y } : State).Canonical := ⟨h.1, h.2⟩

theorem State.Canonical.thaw (h : s.Canonical) {nT f3} : (s.thaw nT f3).Canonical := by
  unfold State.thaw
  extract_lets d s1 s2 s3 rv s4 s5 s6 s7 s8 req frz s9
  have h2 : s2.Canonical := h.modMode.stepTo.setReg64.putFlag
  have h3 : s3.Canonical := h2.courseThaw.rateRestart.forAll fun _ _ ht => ht.chanThaw
  have h4 : s4.Canonical := h3.setUartRv
  have h6 : s6.Canonical := h4.applyLatched.raise
  have h7 : s7.Canonical := .ite h6.putFlag.raise h6
  have h8 : s8.Canonical := h7.raiseTimes.raiseTimes
  have h9 : s9.Canonical := h8.setFrz
  clear_value req s9
  split
  · exact h9.complete
  · exact h9

theorem execThaw_answers {nT} : s.Answers (execThaw nT s) := .ite (.next fun h => h.thaw) .same

theorem execF3ForcedThaw_answers {nT} : s.Answers (execF3ForcedThaw nT s) := by
  unfold Sys2Proof.Machine.execF3ForcedThaw
  refine .ite ?_ ?_
  · split
    · exact .next fun h => h.thaw.faultEnter
    · exact .same
  · exact .same

theorem State.Canonical.modPort (h : s.Canonical) {p f} : (s.modPort p f).Canonical := h.modRv

theorem State.Canonical.placeSlots (h : s.Canonical) {ring f} : (s.placeSlots ring f).2.Canonical := by
  unfold State.placeSlots
  exact State.Canonical.foldl h.modRv fun _ _ ht => ht.complete

theorem State.Canonical.rvOut (h : s.Canonical) {ring f stomped} : (s.rvOut ring f stomped).Canonical := by
  unfold State.rvOut
  extract_lets other turned was s1
  have h1 : s1.Canonical := State.Canonical.ite h.modRv.raise h
  exact .ite h1.send h1.send

theorem State.Canonical.becomeHead (h : s.Canonical) : s.becomeHead.Canonical := State.Canonical.ite h.modRv.modRv.raise h.modRv.modRv

theorem State.Canonical.headSend (h : s.Canonical) {ring f} : (s.headSend ring f).Canonical := h.placeSlots.rvOut

theorem execRingFrameSend_answers : s.Answers (execRingFrameSend s) := by
  unfold Sys2Proof.Machine.execRingFrameSend
  refine .ite ?_ ?_
  · exact .same
  · refine .ite ?_ ?_
    · split
      · exact .ite (.next fun h => h.modRv.rvOut.rvOut) .same
      · exact .same
    · refine .ite ?_ ?_
      · exact .next fun h => (State.Canonical.ite h h.becomeHead).modRv.modRv.headSend.headSend
      · exact .same

theorem State.Canonical.mailServe (h : s.Canonical) : s.mailServe.Canonical :=
  State.Canonical.foldl h.modRv fun t x ht => by
    split
    · exact ht.pushData.complete
    · exact ht

theorem State.Canonical.takeMail (h : s.Canonical) {l} : (s.takeMail l).2.Canonical := by
  induction l generalizing s with
  | nil => exact h
  | cons m rest ih =>
    cases m with
    | none => exact ih h
    | some m =>
      unfold State.takeMail
      split
      · exact ih h.modRv
      · exact ih h

theorem State.Canonical.aheadStep (h : s.Canonical) {us} : (s.aheadStep us).Canonical := State.Canonical.ite h.stepTo.raise h

theorem State.Canonical.takeNotice (h : s.Canonical) {n} : (s.takeNotice n).Canonical :=
  State.Canonical.ite h (State.Canonical.ite h.modRv.raise.aheadStep h.modRv.raise)

theorem State.Canonical.takeSlots (h : s.Canonical) {f} : (s.takeSlots f).2.Canonical := by
  unfold State.takeSlots
  have hnotice := h.foldl (l := f.faults) (f := fun s n => match n with
    | some x => s.takeNotice x
    | none => s) fun _ n ht => by
      cases n with
      | none => exact ht
      | some x => exact ht.takeNotice
  exact hnotice.takeMail.mailServe

theorem State.Canonical.takeSnap (h : s.Canonical) {t} : (s.takeSnap t).Canonical := by
  unfold State.takeSnap
  refine .ite ?_ ?_
  · exact h
  · dsimp only
    split
    · exact h.modArb.modArb
    · exact h.modArb.count.raise

theorem State.Canonical.setErr (h : s.Canonical) {e d} : (s.setErr e d).Canonical := (State.Canonical.ite h.modRv.modRv h.modRv).modRv

theorem State.Canonical.pairErr (h : s.Canonical) {tA tB} : (s.pairErr tA tB).Canonical := by
  unfold State.pairErr
  extract_lets r ok s1 s2 d d1 e s3
  have h1 : s1.Canonical := h.modRv
  have h2 : s2.Canonical := State.Canonical.ite h1.count.raise h1
  have h3 : s3.Canonical := h2.modPort.modPort
  exact .ite h2.modRv.setErr h3.modRv.setErr

theorem State.Canonical.slaveStep (h : s.Canonical) {f stampPs} : (s.slaveStep f stampPs).Canonical := by
  unfold State.slaveStep
  refine .ite ?_ ?_
  · split
    · exact .ite h.modPort.pairErr h.modPort
    · exact h.modPort
  · dsimp only
    split
    · exact h.modPort.setErr
    · exact h.modPort.modRv.setErr

theorem State.Canonical.portRun (h : s.Canonical) {port f} : (s.portRun port f).Canonical := State.Canonical.ite h.modPort h.modPort.modPort

theorem State.Canonical.portAccept (h : s.Canonical) {port f} : (s.portAccept port f).Canonical :=
  State.Canonical.ite h.portRun h.portRun.count.raiseLimited

theorem State.Canonical.posStep (h : s.Canonical) {f} : (s.posStep f).Canonical :=
  State.Canonical.ite h (State.Canonical.ite h.modRv.modRv.raise h.modRv)

theorem State.Canonical.headChange (h : s.Canonical) {id} : (s.headChange id).Canonical := by
  unfold State.headChange
  split
  · exact h.modRv
  · exact .ite h h.modRv.raise

theorem State.Canonical.ringSource (h : s.Canonical) {f first} : (s.ringSource f first).Canonical := h.modRv.modCourse

theorem State.Canonical.tribTake (h : s.Canonical) {f stampPs} : (s.tribTake f stampPs).Canonical := by
  unfold State.tribTake
  extract_lets first s1 s2 s3 s4 s5
  have h1 : s1.Canonical := h.modRv
  have h2 : s2.Canonical := State.Canonical.ite (State.Canonical.ite h1.raise h1) h
  have h3 : s3.Canonical := h2.headChange.modRv
  have h4 : s4.Canonical := h3.modRv
  have h5 : s5.Canonical := State.Canonical.ite h4 h4.slaveStep
  refine .ite ?_ ?_
  · exact .ite h3 h3.modRv.raise
  · exact h5.posStep.ringSource.takeSnap

theorem State.Canonical.headReturn (h : s.Canonical) {f stampPs} : (s.headReturn f stampPs).Canonical :=
  (State.Canonical.ite h.takeSlots.modRv h.takeSlots).foldl fun t m ht => by
    split
    · exact ht.count.raise
    · exact ht

theorem State.Canonical.headConflict (h : s.Canonical) {f} : (s.headConflict f).Canonical := State.Canonical.ite h.modRv.raise h

theorem execRingFrameAccept_answers {port f intact arrivePs} : s.Answers (execRingFrameAccept port f intact arrivePs s) := by
  unfold Sys2Proof.Machine.execRingFrameAccept
  extract_lets stampPs onward s1 s2 s3 s4 s5
  have h1 (h : s.Canonical) : s1.Canonical := State.Canonical.ite h.portRun h
  have h2 (h : s.Canonical) : s2.Canonical := h.count.raiseLimited
  have h3 (h : s.Canonical) : s3.Canonical := (h2 h).modPort.modRv
  have h4 (h : s.Canonical) : s4.Canonical := h.portAccept
  have h5 (h : s.Canonical) : s5.Canonical := (h4 h).tribTake
  refine .ite ?_ ?_
  · exact .same
  · refine .ite ?_ ?_
    · exact .next fun h => State.Canonical.ite (h1 h) (h1 h).rvOut
    · refine .ite ?_ ?_
      · exact .next fun h => State.Canonical.ite (h3 h) (h3 h).rvOut
      · refine .ite ?_ ?_
        · exact .next fun h => h.count.modPort.modRv
        · refine .ite ?_ ?_
          · exact .next fun h => State.Canonical.ite (h4 h).headReturn (h4 h).headConflict
          · exact .next fun h => (h5 h).takeSlots.placeSlots.rvOut

theorem execRingJoin_answers : s.Answers (execRingJoin s) := by
  unfold Sys2Proof.Machine.execRingJoin
  extract_lets e s1 pos n s2 us
  have h1 (h : s.Canonical) : s1.Canonical := h.modRv
  have h2 (h : s.Canonical) : s2.Canonical := (h1 h).stepTo
  refine .ite ?_ ?_
  · refine .ite ?_ ?_
    · exact .ite (.next fun h => (h1 h).raise) (.next fun h => (h2 h).modRv.raise)
    · exact .ite (.next fun h => (h1 h).sendNotice.raise) (.next fun h => (h1 h).modRv.raise)
  · exact .same

theorem execRingPortDown_answers {port} : s.Answers (execRingPortDown port s) := .ite (.next fun h => h.modPort) .same

theorem execRingPortUp_answers {port} : s.Answers (execRingPortUp port s) :=
  .ite (.next fun h => State.Canonical.ite h.modPort.modRv.raise h.modPort.modRv) .same

theorem execNotOnRing_answers : s.Answers (execNotOnRing s) := .ite (.next fun h => h.modRv) .same

theorem execSlavingLost_answers : s.Answers (execSlavingLost s) := .ite (.next fun h => h.modRv.raise) .same

theorem execStandbyTakeover_answers : s.Answers (execStandbyTakeover s) := .ite (.next fun h => h.modRv.modRv.raise) .same

theorem execHeadwaterLost_answers : s.Answers (execHeadwaterLost s) := .ite (.next fun h => h.modRv.modCourse.raise) .same

end Kept

end Sys2Proof.Machine
end

section
/-! PROOFS. The engines' instructions and the takeover keep the canonical form (O13, O60). -/

set_option Elab.async false

namespace Sys2Proof.Machine

section Kept

variable {s : State}

theorem execAdd_answers {e d a b} : s.Answers (execAdd e d a b s) := aluInsn_answers

theorem execSub_answers {e d a b} : s.Answers (execSub e d a b s) := aluInsn_answers

theorem execAnd_answers {e d a b} : s.Answers (execAnd e d a b s) := aluInsn_answers

theorem execOr_answers {e d a b} : s.Answers (execOr e d a b s) := aluInsn_answers

theorem execXor_answers {e d a b} : s.Answers (execXor e d a b s) := aluInsn_answers

theorem execShl_answers {e d a b} : s.Answers (execShl e d a b s) := aluInsn_answers

theorem execShr_answers {e d a b} : s.Answers (execShr e d a b s) := aluInsn_answers

theorem execSar_answers {e d a b} : s.Answers (execSar e d a b s) := aluInsn_answers

theorem execAdds_answers {e d a b} : s.Answers (execAdds e d a b s) := aluInsn_answers

theorem execSubs_answers {e d a b} : s.Answers (execSubs e d a b s) := aluInsn_answers

theorem execMin_answers {e d a b} : s.Answers (execMin e d a b s) := aluInsn_answers

theorem execMax_answers {e d a b} : s.Answers (execMax e d a b s) := aluInsn_answers

theorem execSlt_answers {e d a b} : s.Answers (execSlt e d a b s) := aluInsn_answers

theorem execSltu_answers {e d a b} : s.Answers (execSltu e d a b s) := aluInsn_answers

theorem execAbss_answers {e d a} : s.Answers (execAbss e d a s) := aluInsn_answers

theorem execAddi_answers {e d a imm} : s.Answers (execAddi e d a imm s) := aluInsn_answers

theorem execAndi_answers {e d a imm} : s.Answers (execAndi e d a imm s) := aluInsn_answers

theorem execOri_answers {e d a imm} : s.Answers (execOri e d a imm s) := aluInsn_answers

theorem execXori_answers {e d a imm} : s.Answers (execXori e d a imm s) := aluInsn_answers

theorem execLui_answers {e d imm} : s.Answers (execLui e d imm s) := aluInsn_answers

theorem execShli_answers {e d a sh} : s.Answers (execShli e d a sh s) := aluInsn_answers

theorem execShri_answers {e d a sh} : s.Answers (execShri e d a sh s) := aluInsn_answers

theorem execSari_answers {e d a sh} : s.Answers (execSari e d a sh s) := aluInsn_answers

theorem execSlti_answers {e d a imm} : s.Answers (execSlti e d a imm s) := aluInsn_answers

theorem execMul_answers {e d a b} : s.Answers (execMul e d a b s) := aluInsn_answers

theorem execMulh_answers {e d a b} : s.Answers (execMulh e d a b s) := aluInsn_answers

theorem execMulhu_answers {e d a b} : s.Answers (execMulhu e d a b s) := aluInsn_answers

theorem execMac_answers {e a b} : s.Answers (execMac e a b s) := accInsn_answers

theorem execMsu_answers {e a b} : s.Answers (execMsu e a b s) := accInsn_answers

theorem execMacz_answers {e a b} : s.Answers (execMacz e a b s) := accInsn_answers

theorem execMfa_answers {e d b} : s.Answers (execMfa e d b s) := aluInsn_answers

theorem execMfah_answers {e d} : s.Answers (execMfah e d s) := aluInsn_answers

theorem execMta_answers {e a} : s.Answers (execMta e a s) := accInsn_answers

theorem execMtah_answers {e a b} : s.Answers (execMtah e a b s) := accInsn_answers

theorem execRcp_answers {e d a} : s.Answers (execRcp e d a s) := aluInsn_answers

theorem execRcps_answers {e d a} : s.Answers (execRcps e d a s) := aluInsn_answers

theorem execLw_answers {e d a imm} : s.Answers (execLw e d a imm s) := loadInsn_answers

theorem execLh_answers {e d a imm} : s.Answers (execLh e d a imm s) := loadInsn_answers

theorem execLhu_answers {e d a imm} : s.Answers (execLhu e d a imm s) := loadInsn_answers

theorem execLb_answers {e d a imm} : s.Answers (execLb e d a imm s) := loadInsn_answers

theorem execLbu_answers {e d a imm} : s.Answers (execLbu e d a imm s) := loadInsn_answers

theorem execSw_answers {e d a imm} : s.Answers (execSw e d a imm s) := storeInsn_answers

theorem execSh_answers {e d a imm} : s.Answers (execSh e d a imm s) := storeInsn_answers

theorem execSb_answers {e d a imm} : s.Answers (execSb e d a imm s) := storeInsn_answers

theorem execBeq_answers {e a b off} : s.Answers (execBeq e a b off s) := branchInsn_answers

theorem execBne_answers {e a b off} : s.Answers (execBne e a b off s) := branchInsn_answers

theorem execBlt_answers {e a b off} : s.Answers (execBlt e a b off s) := branchInsn_answers

theorem execBge_answers {e a b off} : s.Answers (execBge e a b off s) := branchInsn_answers

theorem execBltu_answers {e a b off} : s.Answers (execBltu e a b off s) := branchInsn_answers

theorem execBgeu_answers {e a b off} : s.Answers (execBgeu e a b off s) := branchInsn_answers

theorem execJ_answers {e off} : s.Answers (execJ e off s) :=
  runInsn_answers (f := fun x => .jump x (relTarget x (off.signExtend 32))) fun _ hx => hx

theorem execJal_answers {e off} : s.Answers (execJal e off s) :=
  runInsn_answers fun x hx => by
    split
    · exact (congrArg memWf (x.setG_dram 31 _)).trans hx
    · trivial

theorem execJr_answers {e a} : s.Answers (execJr e a s) := runInsn_answers (f := fun x => .jump x (x.getG a)) fun _ hx => hx

theorem execIllegalInstruction_answers {e word} : s.Answers (execIllegalInstruction e word s) :=
  .ite .same (runInsn_answers (f := fun _ => .exc .illegal) fun _ _ => trivial)

theorem execTrap_answers {e imm} : s.Answers (execTrap e imm s) := .ite (.ite (.next fun h => h.engExc) (.next fun h => h.engExc)) .same

theorem execEngineWatchdog_answers {e} : s.Answers (execEngineWatchdog e s) := .ite (.next fun h => h.engExc) .same

theorem execEngineTimerExpiry_answers {e} : s.Answers (execEngineTimerExpiry e s) := by
  unfold Sys2Proof.Machine.execEngineTimerExpiry
  split
  · exact .ite (.next fun h => h.modEng) .same
  · exact .same

theorem State.Canonical.retire (h : s.Canonical) {e reason} : (s.retire e reason).Canonical := h.modEng.raise

theorem State.Canonical.depose (h : s.Canonical) {e c} : (s.depose e c).Canonical := by
  unfold State.depose
  extract_lets x s1 s2
  have h1 : s1.Canonical := h.modEng
  have h2 : s2.Canonical := h1.eddyTrigger
  refine .ite ?_ ?_
  · exact h2.retire
  · exact .ite h2.deposedStop h2

theorem State.Canonical.newEpoch (h : s.Canonical) {c ctl} : (s.newEpoch c ctl).Canonical := h.modCh

theorem State.Canonical.startTakeover (h : s.Canonical) {c e giver} : (s.startTakeover c e giver).Canonical := h.newEpoch.modCh

theorem State.Canonical.declareDead (h : s.Canonical) {c cause} : (s.declareDead c cause).Canonical := by
  unfold State.declareDead
  split
  · exact h
  · dsimp only
    split
    · exact h.depose.startTakeover.count.raise
    · exact h.depose.newEpoch.modCh.count.raise

theorem execDeadlineMiss_answers {c} : s.Answers (execDeadlineMiss c s) :=
  .ite (.next fun h => State.Canonical.ite h.modCh.count.raiseLimited.declareDead h.modCh.count.raiseLimited) .same

theorem State.Canonical.emptyFifos (h : s.Canonical) {c} : (s.emptyFifos c).Canonical := h.modCh

theorem Engine.loadSlot_dram_wf (x : Engine) (sl : Slot) (start : Nat) : memWf (x.loadSlot sl start).dram = true :=
  memWrite_wf [] 0 _ rfl

theorem State.Canonical.startProgram (h : s.Canonical) {c} : (s.startProgram c).Canonical := by
  unfold State.startProgram
  split
  · exact h
  next e _ =>
    extract_lets sl s1 s2 s3 s4
    have h1 : s1.Canonical := h.modRam (e := e) (f := fun x => { x.loadSlot sl sl.entry with running := true, prog := {} })
      (Engine.loadSlot_dram_wf s.eng[e] sl sl.entry)
    exact (State.Canonical.putFlag (State.Canonical.putFlag (State.Canonical.modCh h1).put.putFlag.putFlag)).raise

theorem execTakeoverResume_answers {c} : s.Answers (execTakeoverResume c s) := by
  unfold Sys2Proof.Machine.execTakeoverResume
  split
  · exact .same
  next e t giver _ =>
    extract_lets x runs s1 s2
    have h2 (h : s.Canonical) : s2.Canonical := by
      refine State.Canonical.emptyFifos (State.Canonical.modCh (h.modRam ?_))
      dsimp only
      split
      · exact memWrite_wf _ _ _ (Engine.loadSlot_dram_wf ..)
      · exact Engine.loadSlot_dram_wf ..
    clear_value s2
    refine .ite ?_ .same
    split
    · exact .next h2
    · exact .next fun h => (h2 h).modEng.raise

theorem execDeposedRetireTimeout_answers {e} : s.Answers (execDeposedRetireTimeout e s) := by
  unfold Sys2Proof.Machine.execDeposedRetireTimeout
  split
  · exact .same
  · exact .ite (.next fun h => h.retire) .same

theorem State.Canonical.limpTakes (h : s.Canonical) {p} : (s.limpTakes p).Canonical := by
  unfold State.limpTakes
  split
  · exact h.startTakeover.modCh.raise
  · exact h

theorem execSelfTestDone_answers {e passed} : s.Answers (execSelfTestDone e passed s) := by
  unfold Sys2Proof.Machine.execSelfTestDone
  split
  · exact .same
  · extract_lets k s1 s2 s3 p
    have h2 (h : s.Canonical) : s2.Canonical :=
      State.Canonical.modRam (s := s1) h.setFree (e := e)
        (f := fun x => { x.cleared with selfTest := none, dram := [], iram := [], codeLen := 0, ramFree := some k }) rfl
    exact .ite (.ite (.next fun h => (h2 h).modEng.count.raise) (.next fun h => (h2 h).retire)) .same

theorem State.Canonical.handback (h : s.Canonical) {p v} : (s.handback p v).Canonical := by
  unfold State.handback
  refine .ite ?_ ?_
  · dsimp only
    split
    · exact .ite h.startTakeover h.raise
    · exact h.raise
  · exact h

theorem execTkoHandback_answers {p v} : s.Answers (execTkoHandback p v s) := .ite (.next fun h => h.handback) .same

theorem State.Canonical.runStop (h : s.Canonical) {c} : (s.runStop c).Canonical := h.put.putFlag.sendOn.modCh

theorem State.Canonical.runStart (h : s.Canonical) {c} : (s.runStart c).Canonical :=
  State.Canonical.ite h.put (State.Canonical.ite h.put.startProgram h)

theorem State.Canonical.engCtrlWrite (h : s.Canonical) {c v} : (s.engCtrlWrite c v).Canonical := by
  unfold State.engCtrlWrite
  extract_lets was w s1 s2 s3 s4
  have h1 : s1.Canonical := h.setReg
  have h2 : s2.Canonical := State.Canonical.ite h1 h1.modCh
  have h3 : s3.Canonical := State.Canonical.ite h2 h2.modCh
  have h4 : s4.Canonical := State.Canonical.ite h3.runStart (State.Canonical.ite h3.runStop h3)
  exact .ite h.raise h4.levelCh

theorem execChEngCtrlWrite_answers {c v} : s.Answers (execChEngCtrlWrite c v s) := .ite (.next fun h => h.engCtrlWrite) .same

end Kept

end Sys2Proof.Machine
end

section
/-! PROOFS. The register window keeps the canonical form (O13, O60). -/

set_option Elab.async false

namespace Sys2Proof.Machine

section Kept

variable {s : State}

theorem State.Canonical.setLatch (h : s.Canonical) {p l} : (s.setLatch p l).Canonical := h.modHp

theorem State.Canonical.dropLatch (h : s.Canonical) {a} : (s.dropLatch a).Canonical := h.modHp

theorem State.Canonical.rcClear (h : s.Canonical) {a} : (s.rcClear a).Canonical := by
  unfold State.rcClear
  split
  · exact h
  · refine .ite ?_ ?_
    · exact h
    · exact .ite h.modEng h.setReg

theorem State.Canonical.read32 (h : s.Canonical) {p a} : (s.read32 p a).2.Canonical := by
  unfold State.read32
  extract_lets v l
  split
  · exact h.setLatch
  · split
    · split
      · exact h.setLatch
      · exact h
    · exact .ite h.rcClear h

theorem State.Canonical.read64 (h : s.Canonical) {p a} : (s.read64 p a).2.Canonical := by
  unfold State.read64
  split
  · exact h
  · exact h.read32.read32

theorem State.Canonical.readEach (h : s.Canonical) {p a be} : (s.readEach p a be).2.Canonical := by
  unfold State.readEach
  generalize be.zipIdx = l
  have hall (x : List Byte × State) (hx : x.2.Canonical) :
      (l.foldl (fun (x : List Byte × State) (b : BitVec 4 × Nat) =>
        if b.1 = 0 then x
        else let (v, t) := x.2.read32 p (a + 4 * b.2); (x.1 ++ enabledBytes v b.1, t)) x).2.Canonical := by
    induction l generalizing x with
    | nil => exact hx
    | cons b _ ih =>
      refine ih _ ?_
      dsimp only
      split
      · exact hx
      · exact hx.read32
  exact hall ([], s) h

theorem State.Canonical.read0 (h : s.Canonical) {p a be} : (s.read0 p a be).2.Canonical := by
  unfold State.read0
  split
  · exact h.read32
  · split
    · exact h.read64
    · exact h.readEach

theorem State.Canonical.readCmd (h : s.Canonical) {p space addr be} : (s.readCmd p space addr be).Canonical := by
  unfold State.readCmd
  refine .ite ?_ ?_
  · exact h
  · split
    · exact h.read0.send
    · exact h.send
    · exact h.send

theorem execRcRead_answers {p addr be} : s.Answers (execRcRead p addr be s) := .next fun h => h.readCmd

theorem execLowHalfRead_answers {p addr} : s.Answers (execLowHalfRead p addr s) := .next fun h => h.readCmd

theorem execHighHalfRead_answers {p addr} : s.Answers (execHighHalfRead p addr s) := .next fun h => h.readCmd

theorem execBar4Read_answers {off len} : s.Answers (execBar4Read off len s) := .ite (.next fun h => h.send) .same

theorem State.Canonical.plainWrite (h : s.Canonical) {a v} : (s.plainWrite a v).Canonical := by
  unfold State.plainWrite
  split
  · exact h
  · exact h.setReg

theorem State.Canonical.chemChange (h : s.Canonical) {nmc} : (s.chemChange nmc).Canonical :=
  h.put.put.put.put.forAll fun _ _ ht4 => State.Canonical.ite ht4.put ht4

theorem State.Canonical.packCfgWrite (h : s.Canonical) {v} : (s.packCfgWrite v).Canonical :=
  State.Canonical.ite h.plainWrite h.plainWrite.chemChange

theorem State.Canonical.packWrite (h : s.Canonical) {a v} : (s.packWrite a v).Canonical := by
  unfold State.packWrite
  extract_lets s1
  have h1 : s1.Canonical := h.plainWrite
  refine .ite ?_ ?_
  · exact h.packCfgWrite
  · refine .ite ?_ ?_
    · exact h.plainWrite
    · refine .ite ?_ ?_
      · exact h.plainWrite
      · exact .ite h1.chgRestart h1

theorem State.Canonical.railWrite (h : s.Canonical) {r off v} : (s.railWrite r off v).Canonical := by
  unfold State.railWrite
  dsimp only
  split
  · exact h.plainWrite.lightWrite
  · exact .ite h h.vsetWrite
  · exact h.plainWrite
  · exact h.plainWrite
  · exact h.railOnWrite
  · exact h.plainWrite

theorem State.Canonical.railsWrite (h : s.Canonical) {a v} : (s.railsWrite a v).Canonical :=
  State.Canonical.ite h.railWrite (State.Canonical.ite h.plainWrite (State.Canonical.ite (h.plainWrite.forAll fun _ _ ht =>
      State.Canonical.ite ht.putFlag ht) h.plainWrite))

theorem State.Canonical.keepApply (h : s.Canonical) {a v} : (s.keepApply a v).Canonical :=
  State.Canonical.ite h.packWrite (State.Canonical.ite h.railsWrite (State.Canonical.ite h.hkCtrlWrite (State.Canonical.ite h.hkDiagWrite
      (State.Canonical.ite h.hkCfgWrite h.plainWrite))))

theorem State.Canonical.applyKeepWrites (h : s.Canonical) : s.applyKeepWrites.Canonical := h.same.foldl fun _ _ ht => ht.keepApply

theorem State.Canonical.latWrite (h : s.Canonical) {c v} : (s.latWrite c v).Canonical := State.Canonical.ite h.raise h.setReg

theorem State.Canonical.chanWrite (h : s.Canonical) {c off v} : (s.chanWrite c off v).Canonical := by
  unfold State.chanWrite
  split
  · exact h.geomWrite
  · exact h.geomWrite
  · exact h.engCtrlWrite
  · exact h.cmpCtrlWrite
  · exact h.cmpPeriodWrite
  · exact h.cmpCtrlWrite
  · exact h.cmpPeriodWrite
  · exact h.latWrite
  · exact h.stageCfgWrite
  · exact h.pwmWrite
  · exact h.holdWord.plainWrite
  · exact h.holdWord.plainWrite
  · exact h.holdWord.plainWrite
  · exact h.snsCfgWrite
  · exact .ite h.legRestore h
  · exact h.plainWrite

theorem State.Canonical.ringWrite (h : s.Canonical) {q off v} : (s.ringWrite q off v).Canonical := by
  unfold State.ringWrite
  split
  · exact h.qCfgWrite
  · exact .ite h.ringResume h
  · exact h

/-- The state that a write leaves, where it is one of those judged here, is in canonical form. -/
def State.Canonical.Leaves (o : Option State) : Prop := ∀ t ∈ o, t.Canonical

theorem State.Canonical.leaves (h : s.Canonical) : State.Canonical.Leaves (some s) := fun _ ht => Option.mem_some.mp ht ▸ h

theorem State.Canonical.Leaves.none : State.Canonical.Leaves none := fun _ ht => nomatch ht

theorem State.Canonical.Leaves.ite {p : Prop} [Decidable p] {o q : Option State} (ho : State.Canonical.Leaves o)
    (hq : State.Canonical.Leaves q) : State.Canonical.Leaves (if p then o else q) := by
  split
  · exact ho
  · exact hq

theorem State.Canonical.Leaves.getD {o : Option State} (ho : State.Canonical.Leaves o) (h : s.Canonical) : (o.getD s).Canonical := by
  cases o with
  | none => exact h
  | some t => exact ho t rfl

theorem State.Canonical.lowWrite (h : s.Canonical) {a v} : State.Canonical.Leaves (s.lowWrite a v) :=
  .ite h.modMode.leaves (.ite h.eddyStrmWrite.leaves (.ite h.modEng.leaves (.ite h.rebaseWrite.leaves
    (.ite (State.Canonical.ite h.poseCommit h).leaves (.ite h.gstartWrite.leaves .none)))))

theorem State.Canonical.highWrite (h : s.Canonical) {a v} : State.Canonical.Leaves (s.highWrite a v) := by
  have hsilt : (if v.getLsbD 0 then s.siltCopyGo else s).Canonical := .ite h.siltCopyGo h
  exact .ite h.plainWrite.leaves (.ite h.plainWrite.leaves (.ite h.plainWrite.errLevel.leaves
    (.ite (State.Canonical.ite hsilt.siltErase hsilt).leaves (.ite (State.Canonical.ite h.thawWrite h).leaves
    (.ite h.handback.leaves (.ite h.otpCmd.leaves (.ite (State.Canonical.ite h.keyLoad h).leaves .none)))))))

theorem State.Canonical.regWrite (h : s.Canonical) {a v} : (s.regWrite a v).Canonical := by
  unfold State.regWrite
  refine .ite h (.ite h.chanWrite (.ite h.ringWrite (.ite ?_ (.ite h.keepApply ?_))))
  · dsimp only
    split
    · exact h.cmpCtrlWrite
    · exact h.cmpPeriodWrite
    · exact h.plainWrite
  · exact (Leaves.ite h.lowWrite h.highWrite).getD h.plainWrite

theorem State.Canonical.wideWrite (h : s.Canonical) {a v} : (s.wideWrite a v).Canonical := by
  unfold State.wideWrite
  refine .ite ?_ ?_
  · split
    · exact h.dropLatch.cmpTargetWrite
    · exact h.dropLatch.cmpTargetWrite
    · exact h.dropLatch
  · refine .ite ?_ ?_
    · exact .ite h.dropLatch h.dropLatch.setReg64
    · refine .ite ?_ ?_
      · exact .ite h.dropLatch.cmpTargetWrite h.dropLatch
      · exact .ite h.dropLatch.setReg64 h.dropLatch

theorem State.Canonical.partialWrite (h : s.Canonical) : s.partialWrite.Canonical := h.count.raise

theorem State.Canonical.hostWrite32 (h : s.Canonical) {a v be} : (s.hostWrite32 a v be).Canonical :=
  State.Canonical.ite (State.Canonical.ite (State.Canonical.ite h.thawWrite h) h.countReg) (State.Canonical.ite h.partialWrite
      (State.Canonical.ite (State.Canonical.ite h h.queueWrite) h.regWrite))

theorem State.Canonical.hostWrite64 (h : s.Canonical) {a v full} : (s.hostWrite64 a v full).Canonical :=
  State.Canonical.ite h.countReg (State.Canonical.ite h.wideWrite h.partialWrite)

theorem State.Canonical.hostWrite (h : s.Canonical) {a l} : (s.hostWrite a l).Canonical := by
  unfold State.hostWrite
  split
  · refine .ite ?_ ?_
    · exact h.hostWrite64
    · exact (State.Canonical.ite h h.hostWrite32).then fun h1 => State.Canonical.ite h1 h1.hostWrite32
  · exact h.hostWrite32
  · exact h.foldl fun _ _ ht1 => State.Canonical.ite ht1 ht1.hostWrite32

theorem execRegisterWrite_answers {addr dwords} : s.Answers (execRegisterWrite addr dwords s) := .ite (.next fun h => h.hostWrite) .same

theorem State.Canonical.settingPair (h : s.Canonical) {n place v} : (s.settingPair n place v).Canonical :=
  State.Canonical.ite (State.Canonical.ite h h.regWrite) h.raise

end Kept

end Sys2Proof.Machine
end

section
/-! PROOFS. The mode moves keep the canonical form (O13, O60). -/

set_option Elab.async false

namespace Sys2Proof.Machine

section Kept

variable {s : State}

theorem State.Canonical.moveDone (h : s.Canonical) {m status info} : (s.moveDone m status info).Canonical := by
  unfold State.moveDone
  split
  · exact h.complete
  · exact h

theorem State.Canonical.hopBegin (h : s.Canonical) : s.hopBegin.Canonical := by
  unfold State.hopBegin
  split
  · split
    · exact h.modMode
    · exact h
  · exact h

theorem State.Canonical.moveBegin (h : s.Canonical) {m} : (s.moveBegin m).Canonical :=
  (State.Canonical.ite h.same.modMode.moveDone.modMode h.same.modMode).hopBegin

theorem State.Canonical.moveAbandon (h : s.Canonical) : s.moveAbandon.Canonical := by
  unfold State.moveAbandon
  split
  · exact h.moveDone.modMode
  · exact h

theorem State.Canonical.moveTrigger (h : s.Canonical) {m} : (s.moveTrigger m).Canonical := by
  unfold State.moveTrigger
  split
  · exact h.moveBegin
  · exact .ite h.moveAbandon.moveBegin h

theorem State.Canonical.resumeEng (h : s.Canonical) {e} : (s.resumeEng e).Canonical := by
  unfold State.resumeEng
  dsimp only
  split
  · exact h.modEng.modCh
  · exact h.modEng

theorem State.Canonical.leaveService (h : s.Canonical) : s.leaveService.Canonical :=
  (h.forAll fun _ _ ht => ht.sendOn.modCh).modOtp.modMode.forAll fun _ _ ht4 => ht4.resumeEng

/-- The memories that an engine loses on entering STANDBY. -/
theorem State.Canonical.emptyRams (h : s.Canonical) :
    ({ s with eng := s.eng.map fun (x : Engine) =>
      { x.cleared with running := false, iram := [], codeLen := 0, dram := [], pc := 0, prog := {} } } : State).Canonical := by
  refine ⟨h.1, fun e => ?_⟩
  have heng : (s.eng.map fun (x : Engine) =>
      { x.cleared with running := false, iram := [], codeLen := 0, dram := [], pc := 0, prog := {} })[e] =
      { s.eng[e].cleared with running := false, iram := [], codeLen := 0, dram := [], pc := 0, prog := {} } := Vector.getElem_map ..
  rw [heng]
  rfl

theorem State.Canonical.standbyEntry (h : s.Canonical) : s.standbyEntry.Canonical := by
  unfold State.standbyEntry
  extract_lets s1 s2 s3 s4
  have h1 : s1.Canonical := h.estRecord
  have h2 : s2.Canonical := .ite h1.dropTenure.modHp.raise h1
  have h3 : s3.Canonical := h2.emptyRams
  have h4 : s4.Canonical := h3.forAll fun _ _ ht => ht.putFlag.put.putFlag.modCh
  exact h4.modMode

theorem State.Canonical.shown (h : s.Canonical) {dst} : (s.shown dst).Canonical := h.modMode.raise

theorem State.Canonical.serviceEntry (h : s.Canonical) {m} : (s.serviceEntry m).Canonical := h.modOtp.raise

theorem State.Canonical.startDone (h : s.Canonical) : s.startDone.Canonical := State.Canonical.ite h.modMode.raise h.modMode

theorem State.Canonical.enterMode (h : s.Canonical) {dst m} : (s.enterMode dst m).Canonical := by
  unfold State.enterMode
  extract_lets old s1 s2 s3 start s4
  have h1 : s1.Canonical := State.Canonical.ite (h.forAll fun _ _ ht => ht.seqLeaveField) h
  have h2 : s2.Canonical := State.Canonical.ite h1.leaveService h1
  have h3 : s3.Canonical := State.Canonical.ite h2.modMode h2
  have h4 : s4.Canonical := h3.modMode
  split
  · exact h3.enterShip
  · exact h3.modMode.shown.standbyEntry
  · exact .ite h4.startDone.shown.pinTrigger h4.shown
  · exact h3.modMode.modCourse.shown
  · exact h3.modMode.shown
  · exact h3.modMode.shown.serviceEntry

theorem execModeEntry_answers : s.Answers (execModeEntry s) := by
  unfold Sys2Proof.Machine.execModeEntry
  split
  · exact .same
  · split
    · exact .next fun h => h.modMode
    · refine .ite ?_ ?_
      · dsimp only
        split
        · exact .next fun h => h.enterMode.modMode.moveDone
        · refine .ite ?_ ?_
          · exact .next fun h => h.enterMode.modMode.modMode.hopBegin
          · exact .next fun h => h.enterMode.modMode.moveDone
      · exact .same

theorem State.Canonical.keyoffMove (h : s.Canonical) : s.keyoffMove.Canonical := by
  unfold State.keyoffMove
  dsimp only
  split
  · exact .ite h.modMode h.moveBegin
  · refine .ite ?_ ?_
    · exact h
    · refine .ite ?_ ?_
      · exact h.modMode
      · exact .ite h.moveAbandon.modMode h.moveAbandon.moveBegin

theorem execKeyoffDelayExpiry_answers : s.Answers (execKeyoffDelayExpiry s) := by
  unfold Sys2Proof.Machine.execKeyoffDelayExpiry
  split
  · refine .ite ?_ ?_
    · exact .next fun h => State.Canonical.ite h.modMode.raise.keyoffMove h.modMode.raise
    · exact .same
  · exact .same

theorem execKeyoffRoadMoveStart_answers : s.Answers (execKeyoffRoadMoveStart s) := .ite (.next fun h => h.modMode.moveBegin) .same

theorem State.Canonical.warmStart (h : s.Canonical) : s.warmStart.Canonical :=
  State.Canonical.ite (State.Canonical.ite h.modMode h.moveAbandon.modMode) h

theorem State.Canonical.coldStart (h : s.Canonical) : s.coldStart.Canonical := State.Canonical.ite h.modMode h

theorem State.Canonical.startTrigger (h : s.Canonical) : s.startTrigger.Canonical := State.Canonical.ite h.coldStart h.warmStart

theorem execWarmStart_answers : s.Answers (execWarmStart s) := .next fun h => h.warmStart

theorem execWakeQualified_answers : s.Answers (execWakeQualified s) := .next fun h => h.modMode.startTrigger

theorem execTfQualified_answers : s.Answers (execTfQualified s) := .next fun h => h.modMode.startTrigger

theorem execKeyRising_answers : s.Answers (execKeyRising s) := .next fun h => State.Canonical.ite h.modMode.warmStart h.modMode

theorem execKeyFalling_answers : s.Answers (execKeyFalling s) := .next fun h => State.Canonical.ite h.modMode.modMode h.modMode

theorem execServiceOverspeedExit_answers : s.Answers (execServiceOverspeedExit s) := by
  unfold Sys2Proof.Machine.execServiceOverspeedExit
  split
  · exact .ite (.next fun h => State.Canonical.ite h.modMode.moveTrigger.raise h) .same
  · exact .same

theorem execUnlockExpiry_answers : s.Answers (execUnlockExpiry s) := .ite (.next fun h => h.modOtp.moveTrigger.raise) .same

theorem execPowerOnReset_answers : s.Answers (execPowerOnReset s) := .next fun _ => State.powerOn_canonical

theorem execResetNPin_answers : s.Answers (execResetNPin s) := .ite .same (.next fun h => h.resetBy)

theorem execDeviceCommandReset_answers : s.Answers (execDeviceCommandReset s) := .ite (.next fun h => h.resetBy) .same

theorem execFaultStateReset_answers : s.Answers (execFaultStateReset s) := .ite (.next fun h => h.resetBy) .same

theorem State.Canonical.setFrzChan (h : s.Canonical) {x y} : ({ s with frz := x, chan := y } : State).Canonical := ⟨h.1, h.2⟩

theorem execPerstAssert_answers : s.Answers (execPerstAssert s) := by
  unfold Sys2Proof.Machine.execPerstAssert
  extract_lets s1 s2 s3 s4 s5 s6 s7 frz s8 s9
  have h1 (h : s.Canonical) : s1.Canonical := h.modMode
  have h3 (h : s.Canonical) : s3.Canonical := ((h1 h).foldl fun _ _ ht => ht.endLend).filterRegs
  have h7 (h : s.Canonical) : s7.Canonical := (State.Canonical.modOtp (State.Canonical.modArb (h3 h).modHp)).imgKeep.modRv
  have h8 (h : s.Canonical) : s8.Canonical := (h7 h).setFrzChan
  exact .ite (.next h1) (.next fun h => State.Canonical.raise (State.Canonical.modMode (h8 h).resetCauseBit))

theorem execPerstDeassert_answers : s.Answers (execPerstDeassert s) := .next fun h => h.modMode

theorem execCoreThermalRelease_answers {turret} : s.Answers (execCoreThermalRelease turret s) := by
  unfold Sys2Proof.Machine.execCoreThermalRelease
  extract_lets d u
  have hu (h : s.Canonical) : u.Canonical := h.modDie
  split
  · refine .ite (.next fun h => ?_) .same
    split
    · exact (hu h).resetBy
    · exact hu h
  · exact .same

theorem State.Canonical.toStep (h : s.Canonical) {n} : (s.toStep n).Canonical := h.modMode

theorem execBootTurretWake_answers {straps} : s.Answers (execBootTurretWake straps s) :=
  .ite (.next fun h => (State.Canonical.ite h.modMode.raise h.modMode).siltScan.toStep) .same

theorem State.Canonical.packFailed (h : s.Canonical) : s.packFailed.Canonical := State.Canonical.ite h.toStep h.siltPush.enterShip

theorem execBootPackCheck_answers {taps} : s.Answers (execBootPackCheck taps s) :=
  .ite (.next fun h => State.Canonical.ite h.putFlag.modPower.packResult.toStep h.putFlag.modPower.packResult.packFailed) .same

theorem execBootSoftClose_answers {ok} : s.Answers (execBootSoftClose ok s) := by
  unfold Sys2Proof.Machine.execBootSoftClose
  extract_lets s1
  have h1 (h : s.Canonical) : s1.Canonical := h.openSwitch.count
  refine .ite ?_ ?_
  · refine .ite ?_ ?_
    · exact .next fun h => h.closed.toStep
    · exact .next fun h => (State.Canonical.ite (h1 h) (h1 h).put.raise).packFailed
  · exact .same

theorem execBootDomeRelease_answers {refHz} : s.Answers (execBootDomeRelease refHz s) :=
  .ite (.next fun h => State.Canonical.ite h.modMode.modMode.toStep h.modMode.raiseSrc) .same

theorem execBootKeepBoot_answers {selfTestOk} : s.Answers (execBootKeepBoot selfTestOk s) :=
  .ite (.ite (.next fun h => h.modMode.toStep) (.next fun h => h.raiseSrc)) .same

theorem State.Canonical.configDefaults (h : s.Canonical) : s.configDefaults.Canonical := h.filterRegs

theorem execBootOtpConfigRead_answers {unread} : s.Answers (execBootOtpConfigRead unread s) := by
  unfold Sys2Proof.Machine.execBootOtpConfigRead
  have hread (h : s.Canonical) : (s.otpNormal 0 0 128).2.Canonical := h.otpNormal
  generalize s.otpNormal 0 0 128 = r at hread ⊢
  obtain ⟨ws, u⟩ := r
  dsimp -zeta only at hread ⊢
  extract_lets pass mask s1 s2 s3 s4
  have h2 (h : s.Canonical) : s2.Canonical := State.Canonical.modMode (State.Canonical.modOtp (hread h).put.putFlag)
  have h3 (h : s.Canonical) : s3.Canonical := (h2 h).setReg
  have h4 (h : s.Canonical) : s4.Canonical :=
    .ite ((h3 h).forAll fun _ _ ht => State.Canonical.ite ht ht.settingPair) (State.Canonical.modMode (h2 h).configDefaults).raise
  exact .ite (.next fun h => (h4 h).toStep) .same

theorem execPatchVerifyDone_answers : s.Answers (execPatchVerifyDone s) := by
  unfold Sys2Proof.Machine.execPatchVerifyDone
  extract_lets u
  have hcheck (h : s.Canonical) : u.patchCheck.2.2.Canonical := State.Canonical.patchCheck (State.Canonical.modMode h)
  clear_value u
  generalize u.patchCheck = r at hcheck ⊢
  exact .ite (.next fun h => .ite (hcheck h).putFlag.putFlag.modMode
    (State.Canonical.ite (hcheck h).putFlag.putFlag.raise (hcheck h).putFlag.putFlag)) .same

theorem execStageLinkLoss_answers {die} : s.Answers (execStageLinkLoss die s) :=
  .ite (.next fun h => (h.forAll fun _ _ ht => ht.modStage).raise) .same

theorem execStageLinkRestore_answers {die} : s.Answers (execStageLinkRestore die s) :=
  .ite (.next fun h => (h.forAll fun _ _ ht => ht.modStage).raise) .same

theorem execKeepReferenceLoss_answers : s.Answers (execKeepReferenceLoss s) := by
  unfold Sys2Proof.Machine.execKeepReferenceLoss
  refine .ite ?_ ?_
  · split
    · exact .next fun h => h.modMode
    · exact .next fun h => h.modMode
    · exact .same
  · exact .same

theorem execKeepReferenceReturn_answers {refHz} : s.Answers (execKeepReferenceReturn refHz s) :=
  .ite (.ite (.next fun h => State.Canonical.ite h.modMode.warmStart h.modMode) (.next fun h => h.modMode.raiseSrc)) .same

end Kept

end Sys2Proof.Machine
end

section
/-! PROOFS. The programs and the ports keep the canonical form (O13, O60). -/

set_option Elab.async false

namespace Sys2Proof.Machine

section Kept

variable {s : State}

theorem State.Canonical.progWake (h : s.Canonical) {e hit} : (s.progWake e hit).Canonical := by
  unfold State.progWake
  split
  · exact h.modRam (memWrite_wf s.eng[e].dram _ _ (h.dram e))
  · exact h

theorem State.Canonical.progFeed (h : s.Canonical) {e port w} : (s.progFeed e port w).Canonical := by
  unfold State.progFeed
  split
  · exact .ite h.modEng h
  · exact .ite h.modEng h
  · exact h

theorem State.Canonical.portPop (h : s.Canonical) {e port} : (s.portPop e port).2.Canonical := by
  unfold State.portPop
  extract_lets empty
  have hempty (b : Bool) {t : State} (ht : t.Canonical) : (empty b t).Canonical := ht.modEng
  split
  · exact hempty true h
  · split
    · exact hempty false (State.Canonical.progFeed h.modCh)
    · exact hempty true h

theorem State.Canonical.retireInsn (h : s.Canonical) {e reads cyc} : (s.retireInsn e reads cyc).Canonical :=
  State.Canonical.ite (State.Canonical.seqPc (h.modRam (f := fun _ => s.eng[e].charge s.eng[e] reads cyc none) (h.dram e))) h

theorem inInsn_answers {e d port} : s.Answers (inInsn e d port s) := by
  unfold Sys2Proof.Machine.inInsn
  extract_lets x
  refine .ite (.ite (.next fun h => h.engExc) ?_) .same
  split
  · exact .next fun h => h.engExc
  next p _ =>
    refine .ite (.next fun h => h.engExc) (.ite (.next fun h => h.engExc) ?_)
    have hread (h : s.Canonical) : (if p.p then s.portPop e port else (s.portRead e port, s)).2.Canonical := by
      split
      · exact h.portPop
      · exact h
    generalize (if p.p then s.portPop e port else (s.portRead e port, s)) = r at hread ⊢
    have hset (t : State) (ht : t.Canonical) (v : W32) : (t.modEng e fun x => x.setG d v).Canonical :=
      ht.modEng (hf := fun x => x.setG_dram d v)
    exact .next fun h => (hset _ (State.Canonical.ite (hread h).modEng (hread h)) r.1).retireInsn

theorem execPortIn_answers {e d port} : s.Answers (execPortIn e d port s) := inInsn_answers

theorem execInPop_answers {e d port} : s.Answers (execInPop e d port s) := inInsn_answers

theorem execInTickL_answers {e d} : s.Answers (execInTickL e d s) := inInsn_answers

theorem State.Canonical.fence (h : s.Canonical) {e} : (s.fence e).1.Canonical := by
  unfold State.fence
  extract_lets x mark t u refuse
  have hmark (b : Bool) : (mark b s).Canonical := h.modEng
  have hu : u.Canonical := by
    unfold u
    split
    · exact (hmark true).count
    · exact hmark true
  have hrefuse : refuse.Canonical := .ite hu.deposedStop hu
  split
  · split
    · exact hmark false
    · exact hrefuse
  · exact hrefuse

theorem State.Canonical.guardStart (h : s.Canonical) {c prev on} : (s.guardStart c prev on).Canonical := State.Canonical.ite h.modCh h

theorem State.Canonical.acceptDuty (h : s.Canonical) {e c on} : (s.acceptDuty e c on).Canonical :=
  State.Canonical.ite h.modCh.guardStart.sendTrimmed h.modCh

theorem State.Canonical.refuseDuty (h : s.Canonical) {c} : (s.refuseDuty c).Canonical := h.count.raise.declareDead

theorem State.Canonical.weirDuty (h : s.Canonical) {e w} : (s.weirDuty e w).Canonical := by
  have hfence : (s.fence e).1.Canonical := h.fence
  unfold State.weirDuty
  generalize s.fence e = r at hfence ⊢
  split
  · exact hfence
  · exact .ite (State.Canonical.refuseDuty hfence) (State.Canonical.acceptDuty hfence)

theorem State.Canonical.weirHold (h : s.Canonical) {e} : (s.weirHold e).Canonical := by
  have hfence : (s.fence e).1.Canonical := h.fence
  unfold State.weirHold
  generalize s.fence e = r at hfence ⊢
  split
  · exact hfence
  · exact State.Canonical.acceptDuty hfence

theorem State.Canonical.weirLat (h : s.Canonical) {e v} : (s.weirLat e v).Canonical := by
  have hfence : (s.fence e).1.Canonical := h.fence
  unfold State.weirLat
  generalize s.fence e = r at hfence ⊢
  split
  · exact hfence
  · exact State.Canonical.putFlag (State.Canonical.setReg hfence)

theorem State.Canonical.weirSmpPer (h : s.Canonical) {e v} : (s.weirSmpPer e v).Canonical := by
  have hfence : (s.fence e).1.Canonical := h.fence
  unfold State.weirSmpPer
  generalize s.fence e = r at hfence ⊢
  split
  · exact hfence
  · exact State.Canonical.smpPeriodWrite hfence

theorem State.Canonical.outTmrOp (h : s.Canonical) {e v} : (s.outTmrOp e v).Canonical := h.modEng

theorem State.Canonical.traceEnd (h : s.Canonical) {e ws} : (s.traceEnd e ws).Canonical := h.eddyStore.modEng

theorem outInsn_answers {e a port f} (hf : ∀ v t, t.Canonical → (f v t).Canonical) : s.Answers (outInsn e a port f s) := by
  unfold Sys2Proof.Machine.outInsn
  extract_lets x
  refine .ite (.ite (.next fun h => h.engExc) ?_) .same
  split
  · exact .next fun h => h.engExc
  · exact .ite (.next fun h => (hf _ s h).retireInsn) (.next fun h => h.engExc)

theorem State.Canonical.outDutyOp (h : s.Canonical) {e v} : (s.outDutyOp e v).Canonical := h.modEng.weirDuty

theorem State.Canonical.outLatOp (h : s.Canonical) {e v} : (s.outLatOp e v).Canonical := h.modEng.weirLat

theorem State.Canonical.outTmrStd (h : s.Canonical) {e v} : (s.outTmrStd e v).Canonical := h.modEng.outTmrOp

theorem State.Canonical.outTraceEndOp (h : s.Canonical) {e} : (s.outTraceEndOp e).Canonical := by
  unfold State.outTraceEndOp
  dsimp only
  split
  · exact h.modEng.traceEnd
  · exact h.traceEnd

theorem State.Canonical.outTraceOp (h : s.Canonical) {e v} : (s.outTraceOp e v).Canonical := h.modEng

theorem State.Canonical.outFlagsOp (h : s.Canonical) {e v} : (s.outFlagsOp e v).Canonical := h.modEng

theorem State.Canonical.outPort (h : s.Canonical) {e port v} : (s.outPort e port v).Canonical := by
  unfold State.outPort
  split
  · exact h.outFlagsOp
  · exact h.outTmrStd
  · exact h.outDutyOp
  · exact h.weirHold
  · exact h.outLatOp
  · exact h.weirSmpPer
  · exact h.outTraceOp
  · exact h.outTraceEndOp
  · exact h

theorem execPortOut_answers {e a port} : s.Answers (execPortOut e a port s) := outInsn_answers (fun _ _ ht => ht.outPort)

theorem execOutDuty_answers {e a} : s.Answers (execOutDuty e a s) := outInsn_answers (fun _ _ ht => ht.outDutyOp)

theorem execOutDutyHold_answers {e a} : s.Answers (execOutDutyHold e a s) := outInsn_answers (fun _ _ ht => ht.weirHold)

theorem execOutBndLat_answers {e a} : s.Answers (execOutBndLat e a s) := outInsn_answers (fun _ _ ht => ht.outLatOp)

theorem execOutSmpPer_answers {e a} : s.Answers (execOutSmpPer e a s) := outInsn_answers (fun _ _ ht => ht.weirSmpPer)

theorem execOutTmr_answers {e a} : s.Answers (execOutTmr e a s) := outInsn_answers (fun _ _ ht => ht.outTmrStd)

theorem execOutFlags_answers {e a} : s.Answers (execOutFlags e a s) := outInsn_answers (fun _ _ ht => ht.outFlagsOp)

theorem execOutTrace_answers {e a} : s.Answers (execOutTrace e a s) := outInsn_answers (fun _ _ ht => ht.outTraceOp)

theorem execOutTraceEnd_answers {e a} : s.Answers (execOutTraceEnd e a s) := outInsn_answers (fun _ _ ht => ht.outTraceEndOp)

theorem execLock_answers {e a b} : s.Answers (execLock e a b s) :=
  .ite (.ite (.next fun h => h.engExc) (.ite (.next fun h => h.engExc) (.next fun h => h.modEng.retireInsn))) .same

theorem State.Canonical.haltEng (h : s.Canonical) {e lb} : (s.haltEng e lb).Canonical := by
  unfold State.haltEng
  extract_lets s1 s2
  have h1 : s1.Canonical := h.modEng
  have h2 : s2.Canonical := by
    dsimp only [s2]
    split
    · exact .ite h1.sendOn.modCh h1
    · exact h1
  exact h2.raise

theorem execUnlock_answers {e} : s.Answers (execUnlock e s) :=
  .ite (.next fun h => State.Canonical.ite h.modEng.retireInsn.haltEng h.modEng.retireInsn) .same

theorem State.Canonical.commitCkpt (h : s.Canonical) {e c} : (s.commitCkpt e c).Canonical := h.modCh

theorem execCkpt_answers {e} : s.Answers (execCkpt e s) := by
  unfold Sys2Proof.Machine.execCkpt
  have hfence (h : s.Canonical) : (s.fence e).1.Canonical := h.fence
  generalize s.fence e = r at hfence ⊢
  obtain ⟨u, c⟩ := r
  extract_lets x cyc v
  have hv (h : s.Canonical) : v.Canonical := by
    unfold v
    cases c with
    | none => exact hfence h
    | some c => exact State.Canonical.commitCkpt (hfence h)
  exact .ite (.ite (.next fun h => h.engExc) (.next fun h => (hv h).retireInsn)) .same

theorem State.Canonical.takeSample (h : s.Canonical) {e hit} : (s.takeSample e hit).Canonical := by
  unfold State.takeSample
  split
  · exact .ite h.modEng h
  · exact h

theorem State.Canonical.waitReturns (h : s.Canonical) {e d mask cyc} : (s.waitReturns e d mask cyc).Canonical := by
  unfold State.waitReturns
  extract_lets hit s1 s2 s3
  have h1 : s1.Canonical := State.Canonical.takeSample (h.modEng (hf := fun x =>
    Engine.setG_dram { x with pend := x.pend &&& ~~~hit, asleep := none, wdog := cyc, lastLoad := none } d (hit.zeroExtend 32)))
  have h2 : s2.Canonical := h1.progWake
  have h3 : s3.Canonical := by
    unfold s3
    split
    · exact h2.levelCh
    · exact h2
  exact h3.seqPc

theorem State.Canonical.waitIssue (h : s.Canonical) {e d mask} : (s.waitIssue e d mask).Canonical := by
  unfold State.waitIssue
  refine .ite ?_ ?_
  · exact h.deposedStop
  · refine .ite ?_ ?_
    · dsimp only
      split
      · exact h.modEng.modCh
      · exact h.modEng
    · exact .ite h.waitReturns h.modEng

theorem execWait_answers {e d mask} : s.Answers (execWait e d mask s) :=
  .ite (.ite (.next fun h => h.engExc) (.next fun h => h.waitIssue)) .same

theorem execWaitWake_answers {e} : s.Answers (execWaitWake e s) := by
  unfold Sys2Proof.Machine.execWaitWake
  dsimp only
  split
  · exact .ite (.next fun h => h.waitReturns) .same
  · exact .same

end Kept

end Sys2Proof.Machine
end

section
/-! PROOFS. The opcodes, the debug port and the two-wire target keep the canonical form (O13, O60). -/

set_option Elab.async false

namespace Sys2Proof.Machine

section Kept

variable {s : State}

theorem State.Canonical.tapIr (h : s.Canonical) {code} : (s.tapIr code).Canonical := h.same

theorem execExtest_answers : s.Answers (execExtest s) := .ite (.next fun h => h.tapIr.setDbg) .same

theorem execSamplePreload_answers : s.Answers (execSamplePreload s) := .ite (.next fun h => h.tapIr.setDbg) .same

theorem State.Canonical.tapWord (h : s.Canonical) {code w} : (s.tapWord code w).Canonical := h.tapIr.setDbg.send

theorem execIdcode_answers : s.Answers (execIdcode s) := .ite (.next fun h => h.tapWord) .same

theorem execBypass_answers {code} : s.Answers (execBypass code s) := .ite (.next fun h => h.tapWord) .same

theorem execDbgAddr_answers {addr} : s.Answers (execDbgAddr addr s) := .ite (.next fun h => h.tapIr.setDbg) .same

theorem execDbgRead_answers : s.Answers (execDbgRead s) := .ite (.next fun h => h.tapWord.setDbg) .same

theorem State.Canonical.dbgName (h : s.Canonical) {e} : (s.dbgName e).Canonical := h.tapIr.setDbg

theorem State.Canonical.dbgRefuse (h : s.Canonical) {e} : (s.dbgRefuse e).Canonical := h.same.raise

theorem State.Canonical.haltAsked (h : s.Canonical) {e} : (s.haltAsked e).Canonical :=
  State.Canonical.ite h (State.Canonical.ite h.modEng h.haltEng)

theorem execDbgHalt_answers {e} : s.Answers (execDbgHalt e s) := by
  unfold Sys2Proof.Machine.execDbgHalt
  refine .ite (.next fun h => ?_) .same
  split
  · exact .ite h.dbgName.haltAsked h.dbgName.dbgRefuse
  · exact h.dbgName.dbgRefuse

theorem State.Canonical.lockBreak (h : s.Canonical) {e} : (s.lockBreak e).Canonical := by
  unfold State.lockBreak
  split
  · exact h
  next l _ =>
    refine State.Canonical.raise (h.modEng (hf := fun x => ?_))
    change ((x.setG l.ga l.va).setG l.gb l.vb).dram = x.dram
    rw [Engine.setG_dram, Engine.setG_dram]

theorem execDbgHaltDeferralEnd_answers {e} : s.Answers (execDbgHaltDeferralEnd e s) := by
  unfold Sys2Proof.Machine.execDbgHaltDeferralEnd
  split
  · exact .ite (.next fun h => h.lockBreak.haltEng) .same
  · exact .same

theorem execDbgResume_answers {e} : s.Answers (execDbgResume e s) := by
  unfold Sys2Proof.Machine.execDbgResume
  refine .ite (.next fun h => ?_) .same
  split
  · exact .ite h.dbgName.resumeEng h.dbgName
  · exact h.dbgName

theorem runFrajan_answers {e i} : s.Answers (runFrajan e i s) := by
  unfold Sys2Proof.Machine.runFrajan
  split
  · exact execAdd_answers
  · exact execSub_answers
  · exact execAnd_answers
  · exact execOr_answers
  · exact execXor_answers
  · exact execShl_answers
  · exact execShr_answers
  · exact execSar_answers
  · exact execAdds_answers
  · exact execSubs_answers
  · exact execMin_answers
  · exact execMax_answers
  · exact execSlt_answers
  · exact execSltu_answers
  · exact execMul_answers
  · exact execMulh_answers
  · exact execMulhu_answers
  · exact execAbss_answers
  · exact execRcp_answers
  · exact execRcps_answers
  · exact execAddi_answers
  · exact execAndi_answers
  · exact execOri_answers
  · exact execXori_answers
  · exact execSlti_answers
  · exact execLw_answers
  · exact execLh_answers
  · exact execLhu_answers
  · exact execLb_answers
  · exact execLbu_answers
  · exact execSw_answers
  · exact execSh_answers
  · exact execSb_answers
  · exact execLui_answers
  · exact execShli_answers
  · exact execShri_answers
  · exact execSari_answers
  · exact execMac_answers
  · exact execMsu_answers
  · exact execMacz_answers
  · exact execMtah_answers
  · exact execLock_answers
  · exact execMfa_answers
  · exact execMfah_answers
  · exact execMta_answers
  · exact execJr_answers
  · exact execBeq_answers
  · exact execBne_answers
  · exact execBlt_answers
  · exact execBge_answers
  · exact execBltu_answers
  · exact execBgeu_answers
  · exact execJ_answers
  · exact execJal_answers
  · exact execPortIn_answers
  · exact execPortOut_answers
  · exact execWait_answers
  · exact execUnlock_answers
  · exact execCkpt_answers
  · exact execTrap_answers

theorem State.Canonical.stepInsn (h : s.Canonical) {e} : (s.stepInsn e).Canonical := by
  unfold State.stepInsn
  extract_lets x r
  have hr : s.Answers r := by
    unfold r
    split
    · exact runFrajan_answers
    · exact execIllegalInstruction_answers
  obtain ⟨t, ht, hkeep⟩ := hr
  rw [ht]
  exact hkeep h

theorem State.Canonical.stepLocked (h : s.Canonical) {e w0 n} : (State.stepLocked e w0 n s).Canonical := by
  induction n generalizing s with
  | zero => exact h
  | succ n ih => exact .ite (ih h.stepInsn) h

theorem State.Canonical.stepEng (h : s.Canonical) {e} : (s.stepEng e).Canonical := by
  unfold State.stepEng
  extract_lets x s1 s2 broken s3
  have h1 : s1.Canonical := h.modEng
  have h2 : s2.Canonical := h1.stepInsn.stepLocked
  have h3 : s3.Canonical := h2.modEng
  refine .ite ?_ ?_
  · exact h
  · exact .ite h3.lockBreak.haltEng h3.haltEng

theorem execDbgStep_answers {e} : s.Answers (execDbgStep e s) := by
  unfold Sys2Proof.Machine.execDbgStep
  refine .ite (.next fun h => ?_) .same
  split
  · exact .ite h.dbgName.dbgRefuse (State.Canonical.ite h.dbgName.stepEng h.dbgName.haltAsked)
  · exact h.dbgName.dbgRefuse

theorem execDbgThaw_answers : s.Answers (execDbgThaw s) := .ite (.next fun h => h.tapIr.thawWrite) .same

theorem execDbgStat_answers : s.Answers (execDbgStat s) := .ite (.next fun h => h.tapWord) .same

theorem State.Canonical.finish (h : s.Canonical) {q x status info r276} : (s.finish q x status info r276).Canonical :=
  State.Canonical.ite h.completeOne h.complete

theorem State.Canonical.accept (h : s.Canonical) {q x} : (s.accept q x).Canonical := h.modRing

theorem State.Canonical.opReach (h : s.Canonical) {q x d} : (s.opReach q x d).Canonical := by
  unfold State.opReach
  dsimp only
  split
  · exact h.reachAccept
  · exact (State.Canonical.ite h.hold h.hold.count.raiseLimited).modRing

theorem State.Canonical.opCancel (h : s.Canonical) {q x c rtag} : (s.opCancel q x c rtag).Canonical := h.accept.modSeq

theorem State.Canonical.prmSet (h : s.Canonical) {c first ws commit} : (s.prmSet c first ws commit).Canonical := h.modCh

theorem State.Canonical.opPrmWrite (h : s.Canonical) {q x d} : (s.opPrmWrite q x d).Canonical := h.prmSet.finish

theorem State.Canonical.opPrmLoad (h : s.Canonical) {q x d} : (s.opPrmLoad q x d).Canonical := h.pushReads.prmSet.finish

theorem State.Canonical.opChRun (h : s.Canonical) {q x d} : (s.opChRun q x d).Canonical := h.engCtrlWrite.finish

theorem State.Canonical.opManual (h : s.Canonical) {q x d} : (s.opManual q x d).Canonical :=
  State.Canonical.ite h.finish ((State.Canonical.ite h.runStop h).modCh.guardStart.sendTrimmed.finish)

theorem execManualPeriodEnd_answers {c} : s.Answers (execManualPeriodEnd c s) := by
  unfold Sys2Proof.Machine.execManualPeriodEnd
  split
  · exact .ite (.next fun h => h.sendOn.modCh) .same
  · exact .same

theorem State.Canonical.opImage (h : s.Canonical) {q x d} : (s.opImage q x d).Canonical :=
  State.Canonical.ite h.pushReads.finish (State.Canonical.ite h.pushReads.finish h.pushReads.pushReads.imgPush)

theorem State.Canonical.copyBegin (h : s.Canonical) {c sl} : (s.copyBegin c sl).Canonical := h.sendOn.modCh

theorem State.Canonical.copyNext (h : s.Canonical) {p} : (s.copyNext p).Canonical := by
  unfold State.copyNext
  split
  · exact h
  · split
    · exact h
    · exact h.modOtp.copyBegin

theorem State.Canonical.loadStart (h : s.Canonical) {sl first last tag slot} : (s.loadStart sl first last tag slot).Canonical := by
  unfold State.loadStart
  extract_lets cs takes bad good s1 l
  have h1 : s1.Canonical := h.forAll fun _ _ ht => ht.raise
  exact .ite h1.complete (h1.modOtp.forAll fun _ _ ht => ht.copyNext)

theorem execImageCopyDone_answers {c} : s.Answers (execImageCopyDone c s) := by
  unfold Sys2Proof.Machine.execImageCopyDone
  split
  · extract_lets s1 s2
    have h2 (h : s.Canonical) : s2.Canonical := (State.Canonical.startProgram (State.Canonical.modCh h)).copyNext
    refine .ite (.next fun h => .ite (h2 h) ?_) .same
    clear_value s2
    split
    · split
      · exact (h2 h).modOtp.complete
      · exact (h2 h).modOtp
    · exact h2 h
  · exact .same

theorem State.Canonical.unlockBad (h : s.Canonical) {tag slot ans} : (s.unlockBad tag slot ans).Canonical := h.modOtp.raise.complete

theorem State.Canonical.opUnlock (h : s.Canonical) {q x d} : (s.opUnlock q x d).Canonical :=
  State.Canonical.ite h.finish (State.Canonical.ite h.finish (State.Canonical.ite h.pushReads.modOtp.imgPush h.pushReads.modOtp.unlockBad))

theorem State.Canonical.unlockServe (h : s.Canonical) {t tag slot} : (s.unlockServe t tag slot).Canonical :=
  have hmod := h.imgAnswer.modOtp
  .ite h.imgAnswer.unlockBad
    (.ite hmod.complete (.ite hmod.complete (.ite hmod.complete (.ite hmod.complete hmod.moveBegin))))

theorem State.Canonical.imgServe (h : s.Canonical) {x} : (s.imgServe x).Canonical := by
  unfold State.imgServe
  split
  · exact h.keyInstall
  · exact h.unlockServe
  · exact (State.Canonical.ite h.imgAnswer h.imgAnswer.raise).then fun htold =>
      .ite htold.complete (State.Canonical.ite htold.loadStart htold.complete)

theorem execImageCheckAnswer_answers : s.Answers (execImageCheckAnswer s) := by
  unfold Sys2Proof.Machine.execImageCheckAnswer
  split
  · exact .same
  · exact .ite (.next fun h => h.modOtp.imgServe) .same

theorem State.Canonical.opLend (h : s.Canonical) {q x d} : (s.opLend q x d).Canonical :=
  State.Canonical.ite h.finish (State.Canonical.ite h.finish h.modHp.finish)

theorem State.Canonical.opReclaim (h : s.Canonical) {q x d} : (s.opReclaim q x d).Canonical := by
  unfold State.opReclaim
  dsimp only
  split
  · exact h.raise.finish
  · exact .ite h.endLend.finish h.raise.finish

theorem State.Canonical.opReclaimAll (h : s.Canonical) {q x} : (s.opReclaimAll q x).Canonical := h.reclaimAll.finish

theorem State.Canonical.opSnapAt (h : s.Canonical) {q x d} : (s.opSnapAt q x d).Canonical := by
  unfold State.opSnapAt
  extract_lets t follow r
  clear_value t
  split
  · exact h.finish
  · exact .ite h.finish (State.Canonical.ite h.finish h.accept.modArb)

theorem State.Canonical.opSnapCancel (h : s.Canonical) {q x d} : (s.opSnapCancel q x d).Canonical := by
  unfold State.opSnapCancel
  split
  · exact h.modArb.complete.finish
  · exact h.finish

theorem State.Canonical.opRoleChanged (h : s.Canonical) {q x d} : (s.opRoleChanged q x d).Canonical := h.count.raise.finish

theorem State.Canonical.opEddyRead (h : s.Canonical) {q x d} : (s.opEddyRead q x d).Canonical := by
  unfold State.opEddyRead
  refine .ite ?_ ?_
  · exact h.opRoleChanged
  · dsimp only
    split
    · exact h.accept.modEng.modArb.pushData
    · exact h.accept.modEng.modArb

theorem State.Canonical.opEddyClear (h : s.Canonical) {q x d} : (s.opEddyClear q x d).Canonical :=
  State.Canonical.ite h.opRoleChanged h.modEng.finish

theorem State.Canonical.opPwrWrite (h : s.Canonical) {q x d} : (s.opPwrWrite q x d).Canonical :=
  (State.Canonical.ite h.keepApply.dropLatch (State.Canonical.ite h.keepApply.dropLatch h.keepApply)).finish

theorem State.Canonical.opPwrRead (h : s.Canonical) {q x d} : (s.opPwrRead q x d).Canonical := h.read32.finish

theorem State.Canonical.opBuskeepAck (h : s.Canonical) {q x d} : (s.opBuskeepAck q x d).Canonical := h.putFlag.finish

theorem State.Canonical.opModeReq (h : s.Canonical) {q x d} : (s.opModeReq q x d).Canonical := by
  unfold State.opModeReq
  extract_lets dst start from_ hops bad s1
  have h1 : s1.Canonical := State.Canonical.ite h.modMode h
  refine .ite ?_ ?_
  · exact h.finish
  · refine .ite ?_ ?_
    · exact h.finish
    · exact .ite h.finish h1.moveAbandon.moveBegin

theorem State.Canonical.opReset (h : s.Canonical) {q x} : (s.opReset q x).Canonical := h.finish.modMode

theorem State.Canonical.opFreeze (h : s.Canonical) {q x} : (s.opFreeze q x).Canonical :=
  State.Canonical.ite h.same.freezeTrigger h.freezeTrigger.finish

theorem State.Canonical.opBarrier (h : s.Canonical) {q x} : (s.opBarrier q x).Canonical := State.Canonical.ite h.finish h.accept

theorem State.Canonical.opRingQuery (h : s.Canonical) {q x d} : (s.opRingQuery q x d).Canonical := h.finish

theorem State.Canonical.opMbxSend (h : s.Canonical) {q x d} : (s.opMbxSend q x d).Canonical :=
  State.Canonical.ite h.finish h.pushReads.modRv

theorem State.Canonical.opMbxRecv (h : s.Canonical) {q x d} : (s.opMbxRecv q x d).Canonical :=
  State.Canonical.ite h.finish h.accept.modRv.mailServe

theorem State.Canonical.opEffect (h : s.Canonical) {q x d} : (s.opEffect q x d).Canonical := by
  unfold State.opEffect
  split
  · exact h.opCancel
  · exact h.opCancel
  · exact h.opPrmWrite
  · exact h.opPrmLoad
  · exact h.opChRun
  · exact h.opManual
  · exact h.opImage
  · exact h.opImage
  · exact h.opLend
  · exact h.opReclaim
  · exact h.opReclaimAll
  · exact h.opSnapAt
  · exact h.opSnapCancel
  · exact h.opEddyRead
  · exact h.opEddyClear
  · exact h.opPwrWrite
  · exact h.opPwrRead
  · exact h.opBuskeepAck
  · exact h.opModeReq
  · exact h.opReset
  · exact h.opFreeze
  · exact h.opUnlock
  · exact h.opBarrier
  · exact h.opRingQuery
  · exact h.opMbxSend
  · exact h.opMbxRecv
  · exact h.finish

theorem State.Canonical.runOp (h : s.Canonical) {q x d} : (s.runOp q x d).Canonical := by
  unfold State.runOp
  refine .ite ?_ ?_
  · exact (State.Canonical.ite h h.modRing).opReach
  · split
    · exact (State.Canonical.ite h h.modRing).finish
    · exact (State.Canonical.ite h h.modRing).opEffect

theorem opRow_answers {op q d} : s.Answers (s.opRow op q d) := .ite (.next fun h => h.runOp) .same

theorem execReachPost_answers {q d} : s.Answers (execReachPost q d s) := opRow_answers

theorem execReachCancel_answers {q d} : s.Answers (execReachCancel q d s) := opRow_answers

theorem execReachFlush_answers {q d} : s.Answers (execReachFlush q d s) := opRow_answers

theorem execPrmWrite_answers {q d} : s.Answers (execPrmWrite q d s) := opRow_answers

theorem execPrmLoad_answers {q d} : s.Answers (execPrmLoad q d s) := opRow_answers

theorem execChRun_answers {q d} : s.Answers (execChRun q d s) := opRow_answers

theorem execManual_answers {q d} : s.Answers (execManual q d s) := opRow_answers

theorem execImgLoad_answers {q d} : s.Answers (execImgLoad q d s) := opRow_answers

theorem execImgCheck_answers {q d} : s.Answers (execImgCheck q d s) := opRow_answers

theorem execLend_answers {q d} : s.Answers (execLend q d s) := opRow_answers

theorem execReclaim_answers {q d} : s.Answers (execReclaim q d s) := opRow_answers

theorem execReclaimAll_answers {q d} : s.Answers (execReclaimAll q d s) := opRow_answers

theorem execSnapAt_answers {q d} : s.Answers (execSnapAt q d s) := opRow_answers

theorem execSnapCancel_answers {q d} : s.Answers (execSnapCancel q d s) := opRow_answers

theorem execEddyRead_answers {q d} : s.Answers (execEddyRead q d s) := opRow_answers

theorem execEddyClear_answers {q d} : s.Answers (execEddyClear q d s) := opRow_answers

theorem execPwrWrite_answers {q d} : s.Answers (execPwrWrite q d s) := opRow_answers

theorem execPwrRead_answers {q d} : s.Answers (execPwrRead q d s) := opRow_answers

theorem execBuskeepAck_answers {q d} : s.Answers (execBuskeepAck q d s) := opRow_answers

theorem execModeReq_answers {q d} : s.Answers (execModeReq q d s) := opRow_answers

theorem execReset_answers {q d} : s.Answers (execReset q d s) := opRow_answers

theorem execFreeze_answers {q d} : s.Answers (execFreeze q d s) := opRow_answers

theorem execServiceUnlock_answers {q d} : s.Answers (execServiceUnlock q d s) := opRow_answers

theorem execNop_answers {q d} : s.Answers (execNop q d s) := opRow_answers

theorem execBarrier_answers {q d} : s.Answers (execBarrier q d s) := opRow_answers

theorem execRingQuery_answers {q d} : s.Answers (execRingQuery q d s) := opRow_answers

theorem execMbxSend_answers {q d} : s.Answers (execMbxSend q d s) := opRow_answers

theorem execMbxRecv_answers {q d} : s.Answers (execMbxRecv q d s) := opRow_answers

theorem State.Canonical.startOne (h : s.Canonical) {q} : (s.startOne q).Canonical := by
  unfold State.startOne
  split
  · exact h
  · exact h.modRing.runOp

theorem State.Canonical.startRing (h : s.Canonical) {q n} : (State.startRing q n s).Canonical := by
  induction n generalizing s with
  | zero => exact h
  | succ n ih => exact .ite (ih h.startOne) h

theorem State.Canonical.startFetched (h : s.Canonical) {q} : (s.startFetched q).Canonical := h.startRing

theorem State.Canonical.moveCi (h : s.Canonical) {q} : (s.moveCi q).Canonical := by
  unfold State.moveCi
  split
  · exact h
  · exact h.modRing.count

theorem State.Canonical.unpark (h : s.Canonical) {q} : (s.unpark q).Canonical := State.Canonical.ite h.moveCi h

theorem execDescriptorArrival_answers {q ds} : s.Answers (execDescriptorArrival q ds s) := by
  unfold Sys2Proof.Machine.execDescriptorArrival
  dsimp only
  split
  · exact .same
  · refine .ite ?_ ?_
    · refine .ite ?_ ?_
      · exact .next fun h => h.modRing.modRing
      · exact .next fun h => State.Canonical.ite h.modRing.moveCi h.modRing.moveCi.startFetched
    · exact .same

theorem State.Canonical.aerRecord (h : s.Canonical) {kind} : (s.aerRecord kind).Canonical :=
  State.Canonical.ite h.modHp (State.Canonical.ite h.modHp h.takeFree.takeFree.takeFree.takeFree.modHp)

theorem State.Canonical.lentReadFails (h : s.Canonical) {q kind} : (s.lentReadFails q kind).Canonical := by
  unfold State.lentReadFails
  dsimp only
  split
  · exact .ite h.imgKeep.aerRecord.raise.complete h
  · split
    · exact .ite h.modRing.aerRecord.raise.complete h
    · exact h

theorem execDmaReadFailure_answers {q kind lent} : s.Answers (execDmaReadFailure q kind lent s) :=
  .ite .same (.ite (.next fun h => h.lentReadFails) (.ite (.next fun h => h.modRing.aerRecord.raise.haltRing) .same))

theorem State.Canonical.twRefresh (h : s.Canonical) : s.twRefresh.Canonical := h.same

theorem State.Canonical.patchTakes (h : s.Canonical) : s.patchTakes.Canonical := State.Canonical.ite h.modMode h

theorem State.Canonical.keepDecides (h : s.Canonical) : s.keepDecides.Canonical :=
  h.patchTakes.applyKeepWrites.budgetPeriod.chargerDecide.estInit

theorem State.Canonical.boundary (h : s.Canonical) : s.boundary.Canonical := h.same

theorem execKeepDecisionBoundary_answers : s.Answers (execKeepDecisionBoundary s) := by
  unfold Sys2Proof.Machine.execKeepDecisionBoundary
  extract_lets s1 s2 s3
  have h1 (h : s.Canonical) : s1.Canonical := h.boundary.keepDecides
  have h2 (h : s.Canonical) : s2.Canonical := (h1 h).railDecide
  have h3 (h : s.Canonical) : s3.Canonical := (h2 h).unpark.unpark.startFetched.startFetched.twRefresh
  refine .ite ?_ ?_
  · exact .ite (.next fun h => (h1 h)) (.next fun h => (h3 h).modMode)
  · exact .same

theorem State.Canonical.twAnswer (h : s.Canonical) {status data} : (s.twAnswer status data).Canonical := h.send

theorem State.Canonical.twNoPec (h : s.Canonical) : s.twNoPec.Canonical := h.same.twAnswer

theorem State.Canonical.twBadPec (h : s.Canonical) : s.twBadPec.Canonical := h.twNoPec.count.raise

theorem twRead_answers {pec f} (hf : ∀ t, t.Canonical → (f t).Canonical) : s.Answers (s.twRead pec f) :=
  .ite .same (.ite (.next fun h => h.twBadPec) (.next (hf s)))

theorem execTwStatus_answers {pec} : s.Answers (execTwStatus pec s) := twRead_answers (fun _ ht => ht.twAnswer)

theorem execTwLastResult_answers {pec} : s.Answers (execTwLastResult pec s) := twRead_answers (fun _ ht => ht.twAnswer)

theorem execTwRegRead_answers {off pec} : s.Answers (execTwRegRead off pec s) := by
  refine twRead_answers fun t ht => State.Canonical.ite ht.twAnswer ?_
  split
  · exact ht.twAnswer
  · exact .ite ht.read32.twAnswer ht.twAnswer

theorem execTwSiltRead_answers {seq pec} : s.Answers (execTwSiltRead seq pec s) := by
  refine twRead_answers fun t ht => ?_
  split
  · exact ht.twAnswer
  · exact ht.twAnswer

theorem twWrite_answers {pec f} (hf : ∀ t, t.Canonical → (f t).Canonical) : s.Answers (s.twWrite pec f) := by
  refine .ite .same ?_
  cases pec with
  | bad => exact .next fun h => h.twBadPec
  | absent => exact .ite (.next fun h => h.twNoPec) (.next (hf s))
  | good => exact .next (hf s)

theorem State.Canonical.twResult (h : s.Canonical) {request code} : (s.twResult request code).Canonical := by
  unfold State.twResult
  extract_lets src s1 s2
  have h1 : s1.Canonical := h.same.twAnswer
  have h2 : s2.Canonical := State.Canonical.ite h1.count h1
  exact .ite h1.raise h2.raise

theorem State.Canonical.twRequest (h : s.Canonical) {request ok f} (hf : ∀ t, t.Canonical → (f t).Canonical) :
    (s.twRequest request ok f).Canonical :=
  .ite h.twResult (State.Canonical.ite (hf _ h.twResult) h.twResult)

theorem execTwRequestStandby_answers {pec} : s.Answers (execTwRequestStandby pec s) :=
  twWrite_answers (fun _ ht => ht.twRequest (fun _ ht1 => ht1.moveTrigger))

theorem execTwRequestShip_answers {pec} : s.Answers (execTwRequestShip pec s) :=
  twWrite_answers (fun _ ht => ht.twRequest (fun _ ht1 => ht1.moveTrigger))

theorem execTwRequestStandbyExit_answers {pec} : s.Answers (execTwRequestStandbyExit pec s) :=
  twWrite_answers (fun _ ht => ht.twRequest (fun _ ht1 => ht1.warmStart))

theorem execTwReset_answers {confirm pec} : s.Answers (execTwReset confirm pec s) :=
  twWrite_answers (fun _ ht => State.Canonical.ite ht.twResult (State.Canonical.ite ht.twResult.resetBy ht.twResult))

theorem execTwStretchTimeout_answers : s.Answers (execTwStretchTimeout s) := .ite (.next fun h => h.twAnswer.count) .same

theorem execTwBusTimeout_answers : s.Answers (execTwBusTimeout s) := .ite (.next fun h => h.count.raise) .same

end Kept

end Sys2Proof.Machine
end

section
/-! PROOFS. Every command, and the tick of an empty queue, keep the canonical form (O13, O60). -/

set_option Elab.async false

namespace Sys2Proof.Machine

section Kept

variable {s : State}

theorem State.Canonical.onTimeTick (h : s.Canonical) : s.onTimeTick.Canonical := by
  unfold State.onTimeTick
  exact ⟨h.1, h.2⟩

theorem State.Canonical.limpOffers (h : s.Canonical) : s.limpOffers.Canonical :=
  State.Canonical.ite (h.forAll fun _ _ ht => ht.limpTakes) h

theorem State.Canonical.tickPass (h : s.Canonical) : (Sys2Proof.Machine.tickPass s).Canonical := by
  unfold Sys2Proof.Machine.tickPass
  extract_lets tick s1 s2 tick' s3
  have h1 : s1.Canonical := h.setTick
  have h2 : s2.Canonical := h1.limpOffers.onTimeTick
  have h3 : s3.Canonical := h2.setTick
  exact .ite h3.noteRequests.startFetched.startFetched h1

end Kept

/-- Every command answers with a next state, and keeps the canonical form. -/
theorem exec_answers {s : State} : (i : Instr) → s.Answers (exec i s)
  | .registerWrite .. => execRegisterWrite_answers
  | .rcRead .. => execRcRead_answers
  | .lowHalfRead .. => execLowHalfRead_answers
  | .highHalfRead .. => execHighHalfRead_answers
  | .bar4Read .. => execBar4Read_answers
  | .powerOnReset => execPowerOnReset_answers
  | .resetNPin => execResetNPin_answers
  | .perstAssert => execPerstAssert_answers
  | .perstDeassert => execPerstDeassert_answers
  | .deviceCommandReset => execDeviceCommandReset_answers
  | .faultStateReset => execFaultStateReset_answers
  | .wakeQualified => execWakeQualified_answers
  | .tfQualified => execTfQualified_answers
  | .keyRising => execKeyRising_answers
  | .keyFalling => execKeyFalling_answers
  | .keyoffDelayExpiry => execKeyoffDelayExpiry_answers
  | .keyoffRoadMoveStart => execKeyoffRoadMoveStart_answers
  | .serviceOverspeedExit => execServiceOverspeedExit_answers
  | .modeEntry => execModeEntry_answers
  | .bootTurretWake .. => execBootTurretWake_answers
  | .bootPackCheck .. => execBootPackCheck_answers
  | .bootSoftClose .. => execBootSoftClose_answers
  | .bootDomeRelease .. => execBootDomeRelease_answers
  | .bootKeepBoot .. => execBootKeepBoot_answers
  | .bootOtpConfigRead .. => execBootOtpConfigRead_answers
  | .bootHkSelfCal .. => execBootHkSelfCal_answers
  | .patchVerifyDone => execPatchVerifyDone_answers
  | .bootRailStart .. => execBootRailStart_answers
  | .warmStart => execWarmStart_answers
  | .stageLinkLoss .. => execStageLinkLoss_answers
  | .stageLinkRestore .. => execStageLinkRestore_answers
  | .keepReferenceLoss => execKeepReferenceLoss_answers
  | .keepReferenceReturn .. => execKeepReferenceReturn_answers
  | .keepLockstepMismatch => execKeepLockstepMismatch_answers
  | .keepRestartDone => execKeepRestartDone_answers
  | .keepDecisionBoundary => execKeepDecisionBoundary_answers
  | .courseUpdate => execCourseUpdate_answers
  | .speedSourceDisplace .. => execSpeedSourceDisplace_answers
  | .sourceTimeout .. => execSourceTimeout_answers
  | .coastTimeExpiry => execCoastTimeExpiry_answers
  | .blendEnd .. => execBlendEnd_answers
  | .crosscheckDisagree .. => execCrosscheckDisagree_answers
  | .courseRebaseGo => execCourseRebaseGo_answers
  | .chGeomWrite .. => execChGeomWrite_answers
  | .hostPoseCommit => execHostPoseCommit_answers
  | .encoderEdge .. => execEncoderEdge_answers
  | .encoderStop .. => execEncoderStop_answers
  | .radarPulse => execRadarPulse_answers
  | .radarStop => execRadarStop_answers
  | .spdanSample .. => execSpdanSample_answers
  | .gnssCharacter .. => execGnssCharacter_answers
  | .nmeaSentence .. => execNmeaSentence_answers
  | .gnssBinaryFrame .. => execGnssBinaryFrame_answers
  | .compareMatch .. => execCompareMatch_answers
  | .chainArrival .. => execChainArrival_answers
  | .gstartWrite .. => execGstartWrite_answers
  | .gstartRelease => execGstartRelease_answers
  | .predictorWrite => execPredictorWrite_answers
  | .chBndCtrlWrite .. => execChBndCtrlWrite_answers
  | .chBndTargetWrite .. => execChBndTargetWrite_answers
  | .compareReplayMatch => execCompareReplayMatch_answers
  | .controlSampleInstant .. => execControlSampleInstant_answers
  | .sampleEventLatch .. => execSampleEventLatch_answers
  | .deadlineMiss .. => execDeadlineMiss_answers
  | .takeoverResume .. => execTakeoverResume_answers
  | .deposedRetireTimeout .. => execDeposedRetireTimeout_answers
  | .selfTestDone .. => execSelfTestDone_answers
  | .tkoHandback .. => execTkoHandback_answers
  | .dutyCommandArrival .. => execDutyCommandArrival_answers
  | .carrierUpdatePoint .. => execCarrierUpdatePoint_answers
  | .dlyReport .. => execDlyReport_answers
  | .currentSample .. => execCurrentSample_answers
  | .voltageSample .. => execVoltageSample_answers
  | .snsEdge .. => execSnsEdge_answers
  | .currentLimitReached .. => execCurrentLimitReached_answers
  | .peakBudgetExhausted .. => execPeakBudgetExhausted_answers
  | .peakBudgetRestored .. => execPeakBudgetRestored_answers
  | .hiccupStart .. => execHiccupStart_answers
  | .hiccupEnd .. => execHiccupEnd_answers
  | .openLoadDetect .. => execOpenLoadDetect_answers
  | .desaturation .. => execDesaturation_answers
  | .legImbalance .. => execLegImbalance_answers
  | .chLegRestore .. => execChLegRestore_answers
  | .chStageCfgWrite .. => execChStageCfgWrite_answers
  | .chEngCtrlWrite .. => execChEngCtrlWrite_answers
  | .add .. => execAdd_answers
  | .sub .. => execSub_answers
  | .and .. => execAnd_answers
  | .or .. => execOr_answers
  | .xor .. => execXor_answers
  | .shl .. => execShl_answers
  | .shr .. => execShr_answers
  | .sar .. => execSar_answers
  | .adds .. => execAdds_answers
  | .subs .. => execSubs_answers
  | .min .. => execMin_answers
  | .max .. => execMax_answers
  | .slt .. => execSlt_answers
  | .sltu .. => execSltu_answers
  | .abss .. => execAbss_answers
  | .addi .. => execAddi_answers
  | .andi .. => execAndi_answers
  | .ori .. => execOri_answers
  | .xori .. => execXori_answers
  | .lui .. => execLui_answers
  | .shli .. => execShli_answers
  | .shri .. => execShri_answers
  | .sari .. => execSari_answers
  | .slti .. => execSlti_answers
  | .mul .. => execMul_answers
  | .mulh .. => execMulh_answers
  | .mulhu .. => execMulhu_answers
  | .mac .. => execMac_answers
  | .msu .. => execMsu_answers
  | .macz .. => execMacz_answers
  | .mfa .. => execMfa_answers
  | .mfah .. => execMfah_answers
  | .mta .. => execMta_answers
  | .mtah .. => execMtah_answers
  | .rcp .. => execRcp_answers
  | .rcps .. => execRcps_answers
  | .lw .. => execLw_answers
  | .lh .. => execLh_answers
  | .lhu .. => execLhu_answers
  | .lb .. => execLb_answers
  | .lbu .. => execLbu_answers
  | .sw .. => execSw_answers
  | .sh .. => execSh_answers
  | .sb .. => execSb_answers
  | .beq .. => execBeq_answers
  | .bne .. => execBne_answers
  | .blt .. => execBlt_answers
  | .bge .. => execBge_answers
  | .bltu .. => execBltu_answers
  | .bgeu .. => execBgeu_answers
  | .j .. => execJ_answers
  | .jal .. => execJal_answers
  | .jr .. => execJr_answers
  | .portIn .. => execPortIn_answers
  | .inPop .. => execInPop_answers
  | .inTickL .. => execInTickL_answers
  | .outDuty .. => execOutDuty_answers
  | .outDutyHold .. => execOutDutyHold_answers
  | .outBndLat .. => execOutBndLat_answers
  | .outSmpPer .. => execOutSmpPer_answers
  | .outTmr .. => execOutTmr_answers
  | .outFlags .. => execOutFlags_answers
  | .outTrace .. => execOutTrace_answers
  | .outTraceEnd .. => execOutTraceEnd_answers
  | .wait .. => execWait_answers
  | .waitWake .. => execWaitWake_answers
  | .engineTimerExpiry .. => execEngineTimerExpiry_answers
  | .lock .. => execLock_answers
  | .unlock .. => execUnlock_answers
  | .ckpt .. => execCkpt_answers
  | .trap .. => execTrap_answers
  | .illegalInstruction .. => execIllegalInstruction_answers
  | .engineWatchdog .. => execEngineWatchdog_answers
  | .reachPost .. => execReachPost_answers
  | .reachCancel .. => execReachCancel_answers
  | .reachFlush .. => execReachFlush_answers
  | .prmWrite .. => execPrmWrite_answers
  | .prmLoad .. => execPrmLoad_answers
  | .chRun .. => execChRun_answers
  | .manual .. => execManual_answers
  | .manualPeriodEnd .. => execManualPeriodEnd_answers
  | .imgLoad .. => execImgLoad_answers
  | .imageCopyDone .. => execImageCopyDone_answers
  | .imgCheck .. => execImgCheck_answers
  | .lend .. => execLend_answers
  | .reclaim .. => execReclaim_answers
  | .reclaimAll .. => execReclaimAll_answers
  | .snapAt .. => execSnapAt_answers
  | .snapCancel .. => execSnapCancel_answers
  | .eddyRead .. => execEddyRead_answers
  | .eddyClear .. => execEddyClear_answers
  | .pwrWrite .. => execPwrWrite_answers
  | .pwrRead .. => execPwrRead_answers
  | .buskeepAck .. => execBuskeepAck_answers
  | .modeReq .. => execModeReq_answers
  | .reset .. => execReset_answers
  | .freeze .. => execFreeze_answers
  | .serviceUnlock .. => execServiceUnlock_answers
  | .nop .. => execNop_answers
  | .barrier .. => execBarrier_answers
  | .ringQuery .. => execRingQuery_answers
  | .mbxSend .. => execMbxSend_answers
  | .mbxRecv .. => execMbxRecv_answers
  | .submissionDoorbell .. => execSubmissionDoorbell_answers
  | .completionDoorbell .. => execCompletionDoorbell_answers
  | .descriptorArrival .. => execDescriptorArrival_answers
  | .dmaReadFailure .. => execDmaReadFailure_answers
  | .qnCfgWrite .. => execQnCfgWrite_answers
  | .ringResume .. => execRingResume_answers
  | .arbitrationGrant => execArbitrationGrant_answers
  | .tenureBite => execTenureBite_answers
  | .reliefTakeover .. => execReliefTakeover_answers
  | .msixCoalesceTimeout .. => execMsixCoalesceTimeout_answers
  | .completionRingFullTimeout .. => execCompletionRingFullTimeout_answers
  | .linkUp .. => execLinkUp_answers
  | .linkDown => execLinkDown_answers
  | .snapshotLatch => execSnapshotLatch_answers
  | .snapshotWriteDone => execSnapshotWriteDone_answers
  | .eddyReadDone => execEddyReadDone_answers
  | .eddyStrmWrite .. => execEddyStrmWrite_answers
  | .packCheck .. => execPackCheck_answers
  | .buskeepPackCheckTimer .. => execBuskeepPackCheckTimer_answers
  | .chargeProbe .. => execChargeProbe_answers
  | .packSwitchClose .. => execPackSwitchClose_answers
  | .packCloseTimeout => execPackCloseTimeout_answers
  | .shortCircuitTrip => execShortCircuitTrip_answers
  | .cellOvTrip .. => execCellOvTrip_answers
  | .ovLatchClear => execOvLatchClear_answers
  | .cellDataStale => execCellDataStale_answers
  | .uvCutoff => execUvCutoff_answers
  | .chargerStart .. => execChargerStart_answers
  | .tfLoss => execTfLoss_answers
  | .prechargeDone => execPrechargeDone_answers
  | .chargeTimeout => execChargeTimeout_answers
  | .chargeTermination => execChargeTermination_answers
  | .recharge => execRecharge_answers
  | .chgRestart => execChgRestart_answers
  | .inputLimitTimeout .. => execInputLimitTimeout_answers
  | .buskeepEntry => execBuskeepEntry_answers
  | .buskeepExit => execBuskeepExit_answers
  | .buskeepLowVbus => execBuskeepLowVbus_answers
  | .pullInGuardEnd .. => execPullInGuardEnd_answers
  | .packSample .. => execPackSample_answers
  | .socUpdate => execSocUpdate_answers
  | .impedanceStep => execImpedanceStep_answers
  | .probeStart => execProbeStart_answers
  | .probeEnd => execProbeEnd_answers
  | .restPoint => execRestPoint_answers
  | .estimatorRecord => execEstimatorRecord_answers
  | .railStart .. => execRailStart_answers
  | .railSupervisionSample .. => execRailSupervisionSample_answers
  | .railGood .. => execRailGood_answers
  | .railUvWarn .. => execRailUvWarn_answers
  | .railOvWarn .. => execRailOvWarn_answers
  | .railUvFault .. => execRailUvFault_answers
  | .railOvFault .. => execRailOvFault_answers
  | .railWindowExpiry .. => execRailWindowExpiry_answers
  | .railHiccup .. => execRailHiccup_answers
  | .railHiccupEnd .. => execRailHiccupEnd_answers
  | .lightLoadChange .. => execLightLoadChange_answers
  | .seqInChange .. => execSeqInChange_answers
  | .seqinWaitExpiry => execSeqinWaitExpiry_answers
  | .railOnWrite .. => execRailOnWrite_answers
  | .railStopOrder => execRailStopOrder_answers
  | .railStopped .. => execRailStopped_answers
  | .hostHoldExpiry => execHostHoldExpiry_answers
  | .hkEntryDone .. => execHkEntryDone_answers
  | .hkStartWrite .. => execHkStartWrite_answers
  | .hkCal => execHkCal_answers
  | .hkCalDone .. => execHkCalDone_answers
  | .hkCfgWrite .. => execHkCfgWrite_answers
  | .hkDiagGo .. => execHkDiagGo_answers
  | .hkDiagDone .. => execHkDiagDone_answers
  | .thermalRateSample => execThermalRateSample_answers
  | .thermalLevelFall .. => execThermalLevelFall_answers
  | .stageThermalShutdown .. => execStageThermalShutdown_answers
  | .stageThermalRelease .. => execStageThermalRelease_answers
  | .coreThermalShutdown .. => execCoreThermalShutdown_answers
  | .faultPairQualify .. => execFaultPairQualify_answers
  | .faultPairBroken .. => execFaultPairBroken_answers
  | .faultStateEntry => execFaultStateEntry_answers
  | .errNPulseEnd => execErrNPulseEnd_answers
  | .siltRecordWriteDone .. => execSiltRecordWriteDone_answers
  | .turretSupplyLow => execTurretSupplyLow_answers
  | .siltCopyGo => execSiltCopyGo_answers
  | .siltCopyDone => execSiltCopyDone_answers
  | .siltErase => execSiltErase_answers
  | .freezeNFall => execFreezeNFall_answers
  | .freezeEntry .. => execFreezeEntry_answers
  | .freezeLimitExpiry => execFreezeLimitExpiry_answers
  | .thawWrite => execThawWrite_answers
  | .freezeNRise => execFreezeNRise_answers
  | .thaw .. => execThaw_answers
  | .f3ForcedThaw .. => execF3ForcedThaw_answers
  | .extest => execExtest_answers
  | .samplePreload => execSamplePreload_answers
  | .idcode => execIdcode_answers
  | .bypass .. => execBypass_answers
  | .dbgAddr .. => execDbgAddr_answers
  | .dbgRead => execDbgRead_answers
  | .dbgHalt .. => execDbgHalt_answers
  | .dbgHaltDeferralEnd .. => execDbgHaltDeferralEnd_answers
  | .dbgResume .. => execDbgResume_answers
  | .dbgStep .. => execDbgStep_answers
  | .dbgThaw => execDbgThaw_answers
  | .dbgStat => execDbgStat_answers
  | .ringFrameSend => execRingFrameSend_answers
  | .ringFrameAccept .. => execRingFrameAccept_answers
  | .ringJoin => execRingJoin_answers
  | .ringPortDown .. => execRingPortDown_answers
  | .ringPortUp .. => execRingPortUp_answers
  | .notOnRing => execNotOnRing_answers
  | .slavingLost => execSlavingLost_answers
  | .standbyTakeover => execStandbyTakeover_answers
  | .headwaterLost => execHeadwaterLost_answers
  | .otpRead .. => execOtpRead_answers
  | .burnBlock .. => execBurnBlock_answers
  | .marginScan .. => execMarginScan_answers
  | .reburnWeak .. => execReburnWeak_answers
  | .otpCommandDone .. => execOtpCommandDone_answers
  | .keyLoad => execKeyLoad_answers
  | .imageCheckAnswer => execImageCheckAnswer_answers
  | .unlockExpiry => execUnlockExpiry_answers
  | .twStatus .. => execTwStatus_answers
  | .twLastResult .. => execTwLastResult_answers
  | .twRegRead .. => execTwRegRead_answers
  | .twSiltRead .. => execTwSiltRead_answers
  | .twRequestStandby .. => execTwRequestStandby_answers
  | .twRequestShip .. => execTwRequestShip_answers
  | .twRequestStandbyExit .. => execTwRequestStandbyExit_answers
  | .twReset .. => execTwReset_answers
  | .twStretchTimeout => execTwStretchTimeout_answers
  | .twBusTimeout => execTwBusTimeout_answers
  | .gnssSearchReopen .. => execGnssSearchReopen_answers
  | .portOut .. => execPortOut_answers
  | .coreThermalRelease .. => execCoreThermalRelease_answers
  | .faultPairCleared .. => execFaultPairCleared_answers
  | .siltEraseDone => execSiltEraseDone_answers
  | .turretSupplyReturn => execTurretSupplyReturn_answers
  | .configSpaceWrite .. => execConfigSpaceWrite_answers

/-- A step of a state in canonical form leaves one: on an empty queue the tick keeps it, and else the command does. -/
theorem step_keeps_canonical {s t : State} (h : s.Canonical) (ht : step s = .next t) : t.Canonical := by
  unfold step at ht
  split at ht
  · exact Host.Outcome.next.inj ht ▸ h.tickPass
  next c rest _ =>
    obtain ⟨u, hu, hkeep⟩ := exec_answers (s := { s with pending := rest }) c
    rw [hu] at ht
    exact Host.Outcome.next.inj ht ▸ hkeep h.same

/-- Settles O60: the canonical form is kept by every operation of the model on the state, by case of the command. -/
theorem stepKeepsCanonical : Obligations.StepKeepsCanonical := fun _ _ => step_keeps_canonical

/-- Settles O13: by case of the command, whose meaning answers with a next state. -/
theorem noCommandStops : Obligations.NoCommandStops := fun i s => by
  obtain ⟨t, ht, -⟩ := exec_answers (s := s) i
  exact ⟨t, ht⟩

end Sys2Proof.Machine
end
